-- ==== Sys2Proof/Syntax.lean ====
section
/-!
DEFINITION. The commands of the FK1 block: one constructor of `Instr` per row of spec/opcode_table.json.
The rows of the Yelre classes carry the issuing agent and the operand fields of their format (R94 to R97);
the other rows carry what the event brings with it from outside the model (an address, a value, a physical outcome).
-/
namespace Sys2Proof

/-- A core: compute die and die-local index (R10). -/
structure CoreId where
  die : Nat
  core : Nat
deriving DecidableEq, Repr

/-- An issuer of Yelre instructions (R87): the sequencer of a core, or the crew bound to one of its slots. -/
inductive Agent where
  | seq (c : CoreId)
  | crew (c : CoreId) (slot : Nat)
deriving DecidableEq, Repr

/-- Scalar format S3 (R94). -/
structure S3Op where
  sd : BitVec 5
  sa : BitVec 5
  sb : BitVec 5
  cc : BitVec 4
deriving DecidableEq, Repr

/-- Scalar format SI (R94). -/
structure SiOp where
  sd : BitVec 5
  sa : BitVec 5
  cc : BitVec 4
  imm : BitVec 32
deriving DecidableEq, Repr

/-- Scalar format SW (R94). -/
structure SwOp where
  sd : BitVec 5
  imm : BitVec 40
deriving DecidableEq, Repr

/-- Scalar format SM (R94). -/
structure SmOp where
  sd : BitVec 5
  ar : BitVec 4
  size : BitVec 2
  sx : BitVec 1
  off : BitVec 36
deriving DecidableEq, Repr

/-- Scalar format SA (R94). -/
structure SaOp where
  ad : BitVec 4
  aa : BitVec 4
  sb : BitVec 5
  imm : BitVec 32
deriving DecidableEq, Repr

/-- Control format BS (R95). -/
structure BsOp where
  sc : BitVec 5
  off : BitVec 32
deriving DecidableEq, Repr

/-- Control format BP (R95). -/
structure BpOp where
  pd : BitVec 3
  off : BitVec 32
deriving DecidableEq, Repr

/-- Control format LN (R95). -/
structure LnOp where
  n : BitVec 7
  nreg : BitVec 1
  ns : BitVec 5
  entry : BitVec 18
  stake : BitVec 17
deriving DecidableEq, Repr

/-- Control format SP (R95). -/
structure SpOp where
  rd : BitVec 6
  spec : BitVec 8
deriving DecidableEq, Repr

/-- Vector and special-function format V3 (R96). -/
structure V3Op where
  vd : BitVec 6
  va : BitVec 6
  pred : BitVec 3
  pneg : BitVec 1
  vb : BitVec 6
  vc : BitVec 6
  type : BitVec 4
  rnd : BitVec 2
  ftz : BitVec 1
  sat : BitVec 1
  cc : BitVec 4
  base : BitVec 1
deriving DecidableEq, Repr

/-- Vector immediate format VI (R96). -/
structure ViOp where
  vd : BitVec 6
  va : BitVec 6
  pred : BitVec 3
  pneg : BitVec 1
  imm : BitVec 32
deriving DecidableEq, Repr

/-- Vector memory format VM (R96). -/
structure VmOp where
  vd : BitVec 6
  va : BitVec 6
  pred : BitVec 3
  pneg : BitVec 1
  size : BitVec 2
  sx : BitVec 1
  off : BitVec 24
deriving DecidableEq, Repr

/-- Convert format Q (R96). -/
structure QOp where
  vd : BitVec 6
  va : BitVec 6
  pred : BitVec 3
  pneg : BitVec 1
  sfmt : BitVec 4
  dfmt : BitVec 4
  rnd : BitVec 2
  ftz : BitVec 1
  sat : BitVec 1
deriving DecidableEq, Repr

/-- Descriptor format D (R97). -/
structure DOp where
  unit : BitVec 2
  da : BitVec 4
  ssel : BitVec 1
  sreg : BitVec 5
  hreg : BitVec 5
  stake : BitVec 17
deriving DecidableEq, Repr

/-- Stake format K (R97). -/
structure KOp where
  rd : BitVec 6
  ssel : BitVec 1
  sreg : BitVec 6
  treg : BitVec 1
  imm : BitVec 16
  stake : BitVec 17
deriving DecidableEq, Repr

/-- The queues that hand an operation to a unit and run the checks of R197 on its head: a cube (R680), the chain engine
(R208), the quantise queue (R354), the table-load and scale-load queues (R272, R340), a die's link engine (R512). -/
inductive UnitRef where
  | cube (c : CoreId) (u : Nat)
  | chain (c : CoreId)
  | quant (c : CoreId)
  | tload (c : CoreId)
  | sload (c : CoreId)
  | link (die : Nat)
deriving DecidableEq, Repr

/-- Who waits on a stake (R65 to R67): a crew or the sequencer (wait table), a unit of a core on its own account (unit wait
table), or a block outside the cores. `serial` numbers the operation that waits. -/
inductive Waiter where
  | agent (a : Agent)
  | unit (q : UnitRef) (serial : Nat)
  | post (c : CoreId) (u : Nat) (serial : Nat)
  | command (chan num : Nat)
  | frame (die sess frame : Nat)
deriving DecidableEq, Repr

/-- Physical upsets that meet a cube's work in one step or drain: XOR masks on step sums (row, column, mask) (R178 to R182),
XOR masks on those of an immediate second mismatch are brought by the next step; the elements (row, column) whose doubled accumulator
add, or scaling multiply, disagrees (R178); the bank and word of an uncorrectable accumulator word (R163); corrected accumulator
errors (R192); bank-conflict stalls (R160); and accumulator words in error that this event need not read, each correctable or (true) not,
which their first read finds (R163). -/
structure Upset where
  sums : List (Nat × Nat × BitVec 32)
  adds : List (Nat × Nat)
  ue : Option Nat
  ce : Nat
  stalls : Nat
  weak : List (Nat × Bool)
deriving DecidableEq, Repr

/-- A request to a reservoir slice (R374): the next line of an in-flight chain-engine entry, or a request of a class (R373) to
one 64-byte line, a write being of the whole line or of a part of it; a stored word of a line served that is in error, by its corrected bit
position, or uncorrectable (R377, R381); and the cycles that a request has waited. -/
inductive SliceReq where
  | chainLine (c : CoreId) (pos : Nat)
  | read (cls : Nat) (addr : BitVec 52) (hold : Bool)
  | write (cls : Nat) (addr : BitVec 52) (bytes : List (BitVec 8))
  | word (addr : BitVec 52) (bit : Option Nat)
  | stalled (cls : Nat) (cycles : Nat)
deriving DecidableEq, Repr

/-- What a check of the words stored on a die finds (R377, R381, R382, R587): nothing; a corrected bit in a slice or in a core store; an
uncorrectable word in a slice line, in a core store, in a structure of a core (2 scale file, 3 table bank, 4 unit queue) or in a control structure of
the die (the numbers of kind 33). -/
inductive ScrubHit where
  | clean
  | corrected (slice bit : Nat)
  | storeCorrected (core bit : Nat)
  | slice (slice : Nat) (addr : BitVec 52)
  | store (core : Nat) (offset : Nat)
  | state (core struct index : Nat)
  | control (struct index : Nat)
deriving DecidableEq, Repr

/-- How a Zevan port's training ended at the far end and on the lanes (R489): the halves that trained, the peer's versions and ZID, and the
credits it announced, as ZLK_VC_CFG gives them (R493, R516). -/
structure TrainResult where
  lower : Bool
  upper : Bool
  peerVersions : BitVec 2
  peerZid : BitVec 16
  peerCredits : BitVec 64
deriving DecidableEq, Repr

/-- A flit (R485): its 16-byte header and its 240-byte body. -/
structure Flit where
  head : BitVec 128
  body : List (BitVec 8)
deriving DecidableEq, Repr

/-- A group of four codewords as it is received (R483): the symbol errors of each codeword, those of each lane, and the ten flits it carries. -/
structure FlitGroup where
  errors : List Nat
  lanes : List Nat
  flits : List Flit
deriving DecidableEq, Repr

/-- The 64-byte put header of R495. -/
structure PutHeader where
  srcZid : BitVec 16
  dstZid : BitVec 16
  tag : BitVec 12
  kind : BitVec 2
  chunk16 : Bool
  arriveEn : Bool
  dstAddr : BitVec 52
  length : BitVec 34
  groupTag : BitVec 32
  seq : BitVec 32
  stake : BitVec 17
  inc : BitVec 16
  stage : BitVec 8
  digest : BitVec 32
deriving DecidableEq, Repr

/-- What a core's self-test finds (R591, R645): lane groups that fail, and whether anything else fails. -/
structure SelfTest where
  groups : BitVec 4
  other : Bool
deriving DecidableEq, Repr

/-- The commands of the block, in the order of spec/opcode_table.json. Each docstring is the rule the table names. -/
inductive Instr where
  /-- CTL_NOP (R101). -/
  | ctlNop (a : Agent)
  /-- CTL_HALT (R114). -/
  | ctlHalt (c : CoreId)
  /-- CTL_EXIT (R115). -/
  | ctlExit (c : CoreId) (slot : Nat)
  /-- CTL_FENCE (R50). -/
  | ctlFence (c : CoreId)
  /-- CTL_BR (R101). -/
  | ctlBr (a : Agent) (o : BsOp)
  /-- CTL_BRZ (R101). -/
  | ctlBrz (c : CoreId) (o : BsOp)
  /-- CTL_BRNZ (R101). -/
  | ctlBrnz (c : CoreId) (o : BsOp)
  /-- CTL_BRP (R101). -/
  | ctlBrp (c : CoreId) (slot : Nat) (o : BpOp)
  /-- CTL_BRNP (R101). -/
  | ctlBrnp (c : CoreId) (slot : Nat) (o : BpOp)
  /-- CTL_CALL (R116). -/
  | ctlCall (c : CoreId) (o : BsOp)
  /-- CTL_RET (R116). -/
  | ctlRet (c : CoreId)
  /-- CTL_LAUNCH (R33). -/
  | ctlLaunch (c : CoreId) (o : LnOp)
  /-- CTL_MPUSH (R38). -/
  | ctlMpush (c : CoreId) (slot : Nat) (o : BpOp)
  /-- CTL_MELSE (R115). -/
  | ctlMelse (c : CoreId) (slot : Nat)
  /-- CTL_MPOP (R115). -/
  | ctlMpop (c : CoreId) (slot : Nat)
  /-- CTL_RDSPEC (R93). -/
  | ctlRdspec (a : Agent) (o : SpOp)
  /-- SCL_ADD (R102). -/
  | sclAdd (c : CoreId) (o : S3Op)
  /-- SCL_SUB (R102). -/
  | sclSub (c : CoreId) (o : S3Op)
  /-- SCL_MUL (R102). -/
  | sclMul (c : CoreId) (o : S3Op)
  /-- SCL_MULH (R102). -/
  | sclMulh (c : CoreId) (o : S3Op)
  /-- SCL_AND (R102). -/
  | sclAnd (c : CoreId) (o : S3Op)
  /-- SCL_OR (R102). -/
  | sclOr (c : CoreId) (o : S3Op)
  /-- SCL_XOR (R102). -/
  | sclXor (c : CoreId) (o : S3Op)
  /-- SCL_SHL (R102). -/
  | sclShl (c : CoreId) (o : S3Op)
  /-- SCL_SHR (R102). -/
  | sclShr (c : CoreId) (o : S3Op)
  /-- SCL_SAR (R102). -/
  | sclSar (c : CoreId) (o : S3Op)
  /-- SCL_MIN (R102). -/
  | sclMin (c : CoreId) (o : S3Op)
  /-- SCL_MAX (R102). -/
  | sclMax (c : CoreId) (o : S3Op)
  /-- SCL_CMP (R102). -/
  | sclCmp (c : CoreId) (o : S3Op)
  /-- SCL_ADDI (R102). -/
  | sclAddi (c : CoreId) (o : SiOp)
  /-- SCL_CMPI (R102). -/
  | sclCmpi (c : CoreId) (o : SiOp)
  /-- SCL_MOVI (R102). -/
  | sclMovi (c : CoreId) (o : SwOp)
  /-- SCL_MOVH (R102). -/
  | sclMovh (c : CoreId) (o : SwOp)
  /-- SCL_LD (R41). -/
  | sclLd (c : CoreId) (o : SmOp)
  /-- SCL_ST (R124). -/
  | sclSt (c : CoreId) (o : SmOp)
  /-- SCL_MOVA (R102). -/
  | sclMova (c : CoreId) (o : SaOp)
  /-- SCL_MOVS (R102). -/
  | sclMovs (c : CoreId) (o : SaOp)
  /-- SCL_ADDA (R102). -/
  | sclAdda (c : CoreId) (o : SaOp)
  /-- SCL_ADDAI (R102). -/
  | sclAddai (c : CoreId) (o : SaOp)
  /-- VEC_ADD (R257). -/
  | vecAdd (c : CoreId) (slot : Nat) (o : V3Op)
  /-- VEC_SUB (R257). -/
  | vecSub (c : CoreId) (slot : Nat) (o : V3Op)
  /-- VEC_MUL (R257). -/
  | vecMul (c : CoreId) (slot : Nat) (o : V3Op)
  /-- VEC_FMA (R257). -/
  | vecFma (c : CoreId) (slot : Nat) (o : V3Op)
  /-- VEC_MIN (R257). -/
  | vecMin (c : CoreId) (slot : Nat) (o : V3Op)
  /-- VEC_MAX (R257). -/
  | vecMax (c : CoreId) (slot : Nat) (o : V3Op)
  /-- VEC_ABS (R259). -/
  | vecAbs (c : CoreId) (slot : Nat) (o : V3Op)
  /-- VEC_NEG (R259). -/
  | vecNeg (c : CoreId) (slot : Nat) (o : V3Op)
  /-- VEC_CMP (R103). -/
  | vecCmp (c : CoreId) (slot : Nat) (o : V3Op)
  /-- VEC_SEL (R103). -/
  | vecSel (c : CoreId) (slot : Nat) (o : V3Op)
  /-- VEC_AND (R103). -/
  | vecAnd (c : CoreId) (slot : Nat) (o : V3Op)
  /-- VEC_OR (R103). -/
  | vecOr (c : CoreId) (slot : Nat) (o : V3Op)
  /-- VEC_XOR (R103). -/
  | vecXor (c : CoreId) (slot : Nat) (o : V3Op)
  /-- VEC_SHL (R103). -/
  | vecShl (c : CoreId) (slot : Nat) (o : V3Op)
  /-- VEC_SHR (R103). -/
  | vecShr (c : CoreId) (slot : Nat) (o : V3Op)
  /-- VEC_MOV (R103). -/
  | vecMov (c : CoreId) (slot : Nat) (o : V3Op)
  /-- VEC_MOVI (R103). -/
  | vecMovi (c : CoreId) (slot : Nat) (o : ViOp)
  /-- VEC_ADDI (R103). -/
  | vecAddi (c : CoreId) (slot : Nat) (o : ViOp)
  /-- VEC_FADDI (R103). -/
  | vecFaddi (c : CoreId) (slot : Nat) (o : ViOp)
  /-- VEC_FMULI (R103). -/
  | vecFmuli (c : CoreId) (slot : Nat) (o : ViOp)
  /-- VEC_LD (R260). -/
  | vecLd (c : CoreId) (slot : Nat) (o : VmOp)
  /-- VEC_ST (R261). -/
  | vecSt (c : CoreId) (slot : Nat) (o : VmOp)
  /-- VEC_SHFL (R103). -/
  | vecShfl (c : CoreId) (slot : Nat) (o : V3Op)
  /-- VEC_RAND (R556). -/
  | vecRand (c : CoreId) (slot : Nat) (o : V3Op)
  /-- SFN_EXP (R262). -/
  | sfnExp (c : CoreId) (slot : Nat) (o : V3Op)
  /-- SFN_EXP2 (R262). -/
  | sfnExp2 (c : CoreId) (slot : Nat) (o : V3Op)
  /-- SFN_LOG (R262). -/
  | sfnLog (c : CoreId) (slot : Nat) (o : V3Op)
  /-- SFN_LOG2 (R262). -/
  | sfnLog2 (c : CoreId) (slot : Nat) (o : V3Op)
  /-- SFN_RCP (R262). -/
  | sfnRcp (c : CoreId) (slot : Nat) (o : V3Op)
  /-- SFN_SQRT (R262). -/
  | sfnSqrt (c : CoreId) (slot : Nat) (o : V3Op)
  /-- SFN_RSQRT (R262). -/
  | sfnRsqrt (c : CoreId) (slot : Nat) (o : V3Op)
  /-- SFN_SIN (R262). -/
  | sfnSin (c : CoreId) (slot : Nat) (o : V3Op)
  /-- SFN_COS (R262). -/
  | sfnCos (c : CoreId) (slot : Nat) (o : V3Op)
  /-- SFN_TANH (R262). -/
  | sfnTanh (c : CoreId) (slot : Nat) (o : V3Op)
  /-- SFN_SIGM (R262). -/
  | sfnSigm (c : CoreId) (slot : Nat) (o : V3Op)
  /-- SFN_ERF (R262). -/
  | sfnErf (c : CoreId) (slot : Nat) (o : V3Op)
  /-- SFN_GELU (R262). -/
  | sfnGelu (c : CoreId) (slot : Nat) (o : V3Op)
  /-- SFN_SILU (R262). -/
  | sfnSilu (c : CoreId) (slot : Nat) (o : V3Op)
  /-- SFN_TLOAD (R272). -/
  | sfnTload (c : CoreId) (o : DOp)
  /-- TABLE_LOAD_FLIP (R274). -/
  | tableLoadFlip (c : CoreId)
  /-- TABLE_LOAD_DRAIN_END (R274). -/
  | tableLoadDrainEnd (c : CoreId)
  /-- CUBE_MMA (R168). -/
  | cubeMma (c : CoreId) (o : DOp)
  /-- CUBE_CONV (R285). -/
  | cubeConv (c : CoreId) (o : DOp)
  /-- CUBE_ATTN (R311). -/
  | cubeAttn (c : CoreId) (o : DOp)
  /-- CUBE_POOL (R297). -/
  | cubePool (c : CoreId) (o : DOp)
  /-- CUBE_RSMP (R300). -/
  | cubeRsmp (c : CoreId) (o : DOp)
  /-- CUBE_ACLR (R138). -/
  | cubeAclr (c : CoreId) (o : DOp)
  /-- CHN_ARM (R202). -/
  | chnArm (c : CoreId) (o : DOp)
  /-- CHN_STRM (R217). -/
  | chnStrm (c : CoreId) (o : DOp)
  /-- CHN_REARM (R218). -/
  | chnRearm (c : CoreId) (o : DOp)
  /-- CHN_STOP (R217). -/
  | chnStop (c : CoreId) (o : DOp)
  /-- CHN_MEDIA (R532). -/
  | chnMedia (c : CoreId) (o : DOp)
  /-- STK_ARRIVE (R56). -/
  | stkArrive (a : Agent) (o : KOp)
  /-- STK_WAIT (R60). -/
  | stkWait (a : Agent) (o : KOp)
  /-- STK_TEST (R56). -/
  | stkTest (a : Agent) (o : KOp)
  /-- STK_RESET (R56). -/
  | stkReset (a : Agent) (o : KOp)
  /-- STK_CLAIM (R77). -/
  | stkClaim (a : Agent) (o : KOp)
  /-- COL_RUN (R505). -/
  | colRun (c : CoreId) (o : DOp)
  /-- COL_PUT (R496). -/
  | colPut (c : CoreId) (o : DOp)
  /-- QNT_CVT (R109). -/
  | qntCvt (c : CoreId) (slot : Nat) (o : QOp)
  /-- QNT_PACK (R344). -/
  | qntPack (c : CoreId) (o : DOp)
  /-- QNT_UNPACK (R351). -/
  | qntUnpack (c : CoreId) (o : DOp)
  /-- QNT_SLOAD (R339). -/
  | qntSload (c : CoreId) (o : DOp)
  /-- SCALE_LOAD_FLIP (R340). -/
  | scaleLoadFlip (c : CoreId)
  /-- SCALE_LOAD_DRAIN_END (R340). -/
  | scaleLoadDrainEnd (c : CoreId)
  /-- STAKE_OP_APPLY (R62). -/
  | stakeOpApply (die : Nat) (hub : Nat) (ports : BitVec 4)
  /-- STK_WAIT_TIMEOUT (R60). -/
  | stkWaitTimeout (a : Agent)
  /-- STAKE_POLL (R68). -/
  | stakePoll (w : Waiter)
  /-- STK_TARGET_WRITE (R72). -/
  | stkTargetWrite (stake : BitVec 17) (v : BitVec 32)
  /-- STK_CTL_RESET (R73). -/
  | stkCtlReset (stake : BitVec 17) (v : BitVec 32)
  /-- STK_CTL_ENABLE_CLEAR (R74). -/
  | stkCtlEnableClear (stake : BitVec 17) (v : BitVec 32)
  /-- LAUNCH_DEQUEUE (R35). -/
  | launchDequeue (c : CoreId)
  /-- UNIT_DESCRIPTOR_START (R197). -/
  | unitDescriptorStart (q : UnitRef)
  /-- OPERAND_WAIT_END (R170). -/
  | operandWaitEnd (q : UnitRef)
  /-- CUBE_STEP (R172). -/
  | cubeStep (c : CoreId) (u : Nat) (x : Upset)
  /-- RAMP_LEVEL_CHANGE (R174). -/
  | rampLevelChange (c : CoreId) (u : Nat)
  /-- RAMP_HOLD_EXPIRY (R175). -/
  | rampHoldExpiry (c : CoreId) (u : Nat)
  /-- CUBE_DRAIN (R173). -/
  | cubeDrain (c : CoreId) (u : Nat) (x : Upset)
  /-- PROLOGUE_COPY_DONE (R233). -/
  | prologueCopyDone (c : CoreId) (u : Nat)
  /-- LEDGER_FETCH_DONE (R227). -/
  | ledgerFetchDone (c : CoreId) (u : Nat)
  /-- PROLOGUE_CORRECTION (R248). -/
  | prologueCorrection (c : CoreId) (u : Nat)
  /-- HOOK_PROGRAM_LAUNCH (R230). -/
  | hookProgramLaunch (c : CoreId) (u : Nat)
  /-- CONVERTER_PASS (R236). -/
  | converterPass (c : CoreId)
  /-- LEDGER_PUBLISH (R243). -/
  | ledgerPublish (c : CoreId) (u : Nat)
  /-- STAKE_ROUTE_RESUME (R247). -/
  | stakeRouteResume (c : CoreId) (u : Nat)
  /-- KSPLIT_COMBINE (R250). -/
  | ksplitCombine (c : CoreId) (u : Nat)
  /-- ATTN_CHUNK_FETCH_DONE (R327). -/
  | attnChunkFetchDone (c : CoreId) (u : Nat)
  /-- ATTN_CHUNK_SOFTMAX (R326). -/
  | attnChunkSoftmax (c : CoreId) (u : Nat)
  /-- KEY_PRESENCE_WAIT_END (R325). -/
  | keyPresenceWaitEnd (c : CoreId) (u : Nat)
  /-- KEY_WAIT_EXPIRY (R325). -/
  | keyWaitExpiry (c : CoreId) (u : Nat)
  /-- KV_TOKEN_WRITE (R316). -/
  | kvTokenWrite (c : CoreId) (u : Nat)
  /-- KV_FLUSH_START (R319). -/
  | kvFlushStart (die : Nat)
  /-- KV_FLUSH_DONE (R319). -/
  | kvFlushDone (die : Nat) (slot : Nat)
  /-- EXPORT_QUEUE_COPY (R321). -/
  | exportQueueCopy (die : Nat) (port : Nat)
  /-- CHAIN_WAIT_END (R215). -/
  | chainWaitEnd (c : CoreId) (pos : Nat)
  /-- STREAM_PASS_START (R217). -/
  | streamPassStart (c : CoreId) (slot : Nat)
  /-- CHAIN_ENTRY_ADMIT (R209). -/
  | chainEntryAdmit (c : CoreId)
  /-- CHAIN_ENTRY_COMPLETE (R211). -/
  | chainEntryComplete (c : CoreId) (pos : Nat)
  /-- SLICE_REQUEST (R374). -/
  | sliceRequest (die : Nat) (slice : Nat) (q : SliceReq)
  /-- HBM_READ (R380). -/
  | hbmRead (die : Nat) (chan : Nat) (caddr : Nat) (lanes : List Nat)
  /-- HBM_ERR_WINDOW_END (R379). -/
  | hbmErrWindowEnd (die : Nat)
  /-- HBM_REFRESH (R360). -/
  | hbmRefresh (die : Nat) (stack : Nat)
  /-- HBM_SCRUB (R382). -/
  | hbmScrub (die : Nat) (chan : Nat) (caddr : Nat) (lanes : List Nat)
  /-- ONDIE_SCRUB (R382). -/
  | ondieScrub (die : Nat) (w : ScrubHit)
  /-- HBM_THERMAL_SAMPLE (R390). -/
  | hbmThermalSample (die : Nat) (stack : Nat) (temp : BitVec 8) (limit : BitVec 8)
  /-- HBM_MAP_WRITE (R364). -/
  | hbmMapWrite (die : Nat) (v : BitVec 32)
  /-- RES_SLICE_CFG_WRITE (R370). -/
  | resSliceCfgWrite (die : Nat) (v : BitVec 32)
  /-- SLICE_RECONFIG_DONE (R370). -/
  | sliceReconfigDone (die : Nat)
  /-- RELEASE_ALL (R372). -/
  | releaseAll (die : Nat)
  /-- HBM_RETIRE_WRITE (R386). -/
  | hbmRetireWrite (die : Nat) (i : Nat) (v : BitVec 64)
  /-- UCIE_FLIT_REPLAY (R410). -/
  | ucieFlitReplay (die : Nat) (m : Nat)
  /-- UCIE_RETRAIN (R410). -/
  | ucieRetrain (die : Nat) (m : Nat)
  /-- COMMAND_DIE_ACCESS (R411). -/
  | commandDieAccess (addr : BitVec 52) (size : Nat) (data : Option (List (BitVec 8)))
  /-- CMD_DOORBELL (R412). -/
  | cmdDoorbell (chan : Nat) (tail : BitVec 32)
  /-- DOORBELL_LATCH (R425). -/
  | doorbellLatch (chan : Nat)
  /-- CMD_ARRIVE (R438). -/
  | cmdArrive (die : Nat) (stake : BitVec 17) (inc : BitVec 16)
  /-- OPEN (R415). -/
  | openObj (any : Bool) (type : BitVec 8) (index : BitVec 16)
  /-- CLOSE (R418). -/
  | closeObj (handle : BitVec 32)
  /-- OPEN_COMPLETE (R453). -/
  | openComplete
  /-- CLOSE_COMPLETE (R418). -/
  | closeComplete
  /-- COMMAND_READ (R424). -/
  | commandRead (chan : Nat)
  /-- COMMAND_START (R424). -/
  | commandStart (chan : Nat)
  /-- RUN (R423). -/
  | cmdRun (chan : Nat)
  /-- LOAD (R427). -/
  | cmdLoad (chan : Nat)
  /-- ARRIVE (R422). -/
  | cmdArriveOp (chan : Nat)
  /-- NOP (R422). -/
  | cmdNop (chan : Nat)
  /-- PART_COMPLETE (R114). -/
  | partComplete (c : CoreId)
  /-- CMD_COMPL_HEAD_WRITE (R426). -/
  | cmdComplHeadWrite (chan : Nat) (v : BitVec 32)
  /-- EVENT_MERGE_WRITE (R433). -/
  | eventMergeWrite
  /-- CMD_EVT_PTR_HEAD_WRITE (R447). -/
  | cmdEvtPtrHeadWrite (v : BitVec 32)
  /-- DISPATCH_TICK (R458). -/
  | dispatchTick
  /-- CORE_STOPPED (R464). -/
  | coreStopped (c : CoreId)
  /-- CONTEXT_IMAGE_WRITTEN (R465). -/
  | contextImageWritten (c : CoreId)
  /-- TENANT_SWAP (R462). -/
  | tenantSwap (parcel : Nat) (tenant : Nat)
  /-- SWAP_COMPLETE (R462). -/
  | swapComplete (parcel : Nat)
  /-- PCL_REBUILD_SET (R456). -/
  | pclRebuildSet (die : Nat)
  /-- REBUILD_MAPOUT_DONE (R456). -/
  | rebuildMapoutDone (die : Nat)
  /-- PCL_REBUILD_CLEAR (R456). -/
  | pclRebuildClear (die : Nat)
  /-- SCHEDULE_SLOT_BOUNDARY (R468). -/
  | scheduleSlotBoundary
  /-- SCH_SWITCH (R478). -/
  | schSwitch
  /-- TAG_VALID_CLEAR (R477). -/
  | tagValidClear (c : CoreId)
  /-- ZLK_TRAIN (R489). -/
  | zlkTrain (die : Nat) (port : Nat)
  /-- ZLK_STOP (R492). -/
  | zlkStop (die : Nat) (port : Nat)
  /-- PORT_TRAINING_DONE (R489). -/
  | portTrainingDone (die : Nat) (port : Nat) (x : TrainResult)
  /-- LANE_FAILURE (R491). -/
  | laneFailure (die : Nat) (port : Nat) (lanes : BitVec 8)
  /-- PORT_RETRAIN_DONE (R491). -/
  | portRetrainDone (die : Nat) (port : Nat) (ok : Bool)
  /-- FLIT_RECEIVE (R487). -/
  | flitReceive (die : Nat) (port : Nat) (x : FlitGroup)
  /-- LINK_ACK (R486). -/
  | linkAck (die : Nat) (port : Nat) (tag : Nat) (chunk : Nat) (last : Bool)
  /-- LINK_NAK (R486). -/
  | linkNak (die : Nat) (port : Nat) (tag : Nat) (chunk : Nat) (reason : Nat)
  /-- LINK_ABORT (R510). -/
  | linkAbort (groupTag : BitVec 32) (seq8 : BitVec 8) (fromZid : BitVec 16)
  /-- PUT_START (R496). -/
  | putStart (die : Nat)
  /-- PUT_CHUNK_RECEIVE (R497). -/
  | putChunkReceive (die : Nat) (port : Nat) (h : PutHeader) (chunk : Nat) (bytes : List (BitVec 8)) (crc : BitVec 32)
  /-- ACK_TIMEOUT (R498). -/
  | ackTimeout (die : Nat) (port : Nat) (tag : Nat) (chunk : Nat)
  /-- NOT_READY_RESEND (R506). -/
  | notReadyResend (die : Nat) (port : Nat) (tag : Nat) (chunk : Nat)
  /-- COLLECTIVE_START (R506). -/
  | collectiveStart (die : Nat) (group : Nat)
  /-- COLLECTIVE_TRAVERSE (R507). -/
  | collectiveTraverse (die : Nat) (group : Nat)
  /-- COLLECTIVE_TIMEOUT (R510). -/
  | collectiveTimeout (die : Nat) (group : Nat)
  /-- ZLK_ID_WRITE (R519). -/
  | zlkIdWrite (v : BitVec 16)
  /-- ZLK_VC_CFG_WRITE (R516). -/
  | zlkVcCfgWrite (die : Nat) (port : Nat) (v : BitVec 64)
  /-- FRAME_ACCEPT (R534). -/
  | frameAccept (c : CoreId) (pos : Nat)
  /-- FRAME (R535). -/
  | mediaFrame (die : Nat) (pipe : Nat)
  /-- END (R535). -/
  | mediaEnd (die : Nat) (sess : Nat)
  /-- PIPE_SELECT (R544). -/
  | pipeSelect (die : Nat) (pipe : Nat)
  /-- MEDIA_PREEMPTION (R545). -/
  | mediaPreemption (die : Nat) (pipe : Nat)
  /-- DEADLINE_PASS (R547). -/
  | deadlinePass (die : Nat) (sess : Nat) (frame : Nat)
  /-- FRAME_COMPLETE (R537). -/
  | frameComplete (die : Nat) (pipe : Nat)
  /-- ERR_ACK_INDEX (R585). -/
  | errAckIndex (die : Nat) (e : Nat)
  /-- ERR_ACK_ALL (R585). -/
  | errAckAll (die : Nat)
  /-- ERR_CORE_RST (R591). -/
  | errCoreRst (die : Nat) (core : BitVec 8)
  /-- CORE_RESET_DONE (R591). -/
  | coreResetDone (die : Nat) (fail : SelfTest)
  /-- HALT_ARRIVAL (R588). -/
  | haltArrival (die : Nat)
  /-- HALT_ON_SILENCE (R588). -/
  | haltOnSilence (die : Nat)
  /-- LANE_GROUP_FENCE (R589). -/
  | laneGroupFence (c : CoreId) (g : Nat) (reason : Nat) (slot : Nat)
  /-- CUBE_INJECT (R188). -/
  | cubeInject (c : CoreId) (u : Nat) (again : Bool)
  /-- FENCE_REQ (R193). -/
  | fenceReq (c : CoreId)
  /-- ABW_REQ_ATTEST (R609). -/
  | abwReqAttest (addr : BitVec 52)
  /-- ABW_REQ_EXTEND (R609). -/
  | abwReqExtend (addr : BitVec 52) (slot : BitVec 3)
  /-- REPORT_SIGNED (R608). -/
  | reportSigned
  /-- GET_IDENT (R616). -/
  | getIdent
  /-- GET_TELEMETRY (R616). -/
  | getTelemetry
  /-- GET_ERRORS (R616). -/
  | getErrors
  /-- ATTEST (R616). -/
  | attest (nonce : BitVec 256)
  /-- READ_REPORT (R616). -/
  | readReport (off : BitVec 32) (len : BitVec 8)
  /-- EXTEND (R616). -/
  | extend (slot : BitVec 8) (x : BitVec 256)
  /-- SET_LIMIT (R616). -/
  | setLimit (w : BitVec 16)
  /-- GET_CHALLENGE (R610). -/
  | getChallenge
  /-- UNLOCK_DATA (R610). -/
  | unlockData (off : BitVec 16) (bytes : List (BitVec 8))
  /-- UNLOCK_GO (R610). -/
  | unlockGo
  /-- SVN_COMMIT (R604). -/
  | svnCommit (v : BitVec 16)
  /-- ENEC (R614). -/
  | enec (events : BitVec 8)
  /-- DISEC (R614). -/
  | disec (events : BitVec 8)
  /-- RSTDAA (R614). -/
  | rstdaa
  /-- ENTDAA (R614). -/
  | entdaa (addr : BitVec 7)
  /-- SETDASA (R614). -/
  | setdasa (static : BitVec 7) (addr : BitVec 7)
  /-- GETPID (R614). -/
  | getpid
  /-- GETBCR (R614). -/
  | getbcr
  /-- GETDCR (R614). -/
  | getdcr
  /-- GETSTATUS (R614). -/
  | getstatus
  /-- GETMWL (R614). -/
  | getmwl
  /-- GETMRL (R614). -/
  | getmrl
  /-- SETMWL (R614). -/
  | setmwl (v : BitVec 16)
  /-- SETMRL (R614). -/
  | setmrl (v : BitVec 16)
  /-- SMBUS_MODE_ENTRY (R614). -/
  | smbusModeEntry
  /-- POWER_CAP_COMPARE (R612). -/
  | powerCapCompare (watts : BitVec 16)
  /-- TEMP_REFRESH (R613). -/
  | tempRefresh (die : Nat) (hot : BitVec 8)
  /-- ENVELOPE_CLUSTERS_WRITE (R611). -/
  | envelopeClustersWrite (v : BitVec 4)
  /-- RESET_RELEASE (R630). -/
  | resetRelease
  /-- ROOT_PLL_LOCK (R632). -/
  | rootPllLock (die : Nat) (straps : BitVec 3) (parity : Bool)
  /-- POSITION_EXCHANGE (R633). -/
  | positionExchange (die : Nat) (m : Nat) (peer : Option Nat)
  /-- ANNOUNCE (R634). -/
  | announce (die : Nat)
  /-- PROGRESS (R634). -/
  | progress (die : Nat)
  /-- FW_BEGIN (R636). -/
  | fwBegin (mask : BitVec 8) (size : Nat)
  /-- FW_DATA (R637). -/
  | fwData (off : Nat) (words : List (BitVec 8))
  /-- FW_END (R637). -/
  | fwEnd
  /-- MESH_WAVE_START (R640). -/
  | meshWaveStart (wave : Nat)
  /-- MESH_LINK_TRAINED (R640). -/
  | meshLinkTrained (die : Nat) (m : Nat) (ok : Bool) (mode : BitVec 1) (half : Bool) (repaired : BitVec 16)
  /-- HBM_TRAINING_DONE (R642). -/
  | hbmTrainingDone (die : Nat) (failed : BitVec 32)
  /-- SELF_TEST_DONE (R645). -/
  | selfTestDone (die : Nat) (cores : List (Nat × SelfTest))
  /-- TICK_ALIGN (R647). -/
  | tickAlign
  /-- DIE_SILENCE (R648). -/
  | dieSilence (die : Nat)
  /-- ABW_TRI_READY (R649). -/
  | abwTriReady (map : BitVec 24)
  /-- PKG_PWRGD_ASSERT (R629). -/
  | pkgPwrgdAssert
  /-- PKG_PWRGD_DEASSERT (R665). -/
  | pkgPwrgdDeassert
  /-- PKG_RESET_ASSERT (R661). -/
  | pkgResetAssert
  /-- PKG_RESET_DEASSERT (R662). -/
  | pkgResetDeassert (maddr : BitVec 2) (tmode : Bool)
  /-- RAIL_SAMPLE (R666). -/
  | railSample (die : Nat) (mv : List (BitVec 16))
  /-- RAIL7_UNDERVOLTAGE (R666). -/
  | rail7Undervoltage (die : Nat)
  /-- THERMAL_TRIP (R673). -/
  | thermalTrip (die : Nat) (sensor : Nat) (reading : BitVec 8) (hbm : Bool)
  /-- PLL_UNLOCK (R670). -/
  | pllUnlock (die : Nat) (pll : Nat)
  /-- PKG_TRST (R674). -/
  | pkgTrst
  /-- EXTEST (R674). -/
  | extest (die : Nat)
  /-- SAMPLE_PRELOAD (R674). -/
  | samplePreload (die : Nat) (bits : BitVec 10)
  /-- IDCODE (R674). -/
  | idcode (die : Nat)
  /-- CLAMP (R674). -/
  | clamp (die : Nat)
  /-- HIGHZ (R674). -/
  | highz (die : Nat)
  /-- BYPASS (R674). -/
  | bypass (die : Nat)
  /-- PRIVATE_JTAG (R675). -/
  | privateJtag (die : Nat) (code : BitVec 8)
  /-- REGISTER_WRITE (R23). -/
  | registerWrite (addr : BitVec 52) (size : Nat) (v : BitVec 64)
  /-- SHADOW_WRITE_APPLY (R23). -/
  | shadowWriteApply (addr : BitVec 52)
  /-- LIVE_WRITE_APPLY (R81). -/
  | liveWriteApply
  /-- ILLEGAL_INSTRUCTION (R118). -/
  | illegalInstruction (a : Agent) (w : BitVec 64)
  /-- FETCH_RANGE (R116). -/
  | fetchRange (a : Agent)
  /-- CONTEXT_IMAGE_RESTORED (R466). -/
  | contextImageRestored (c : CoreId)
  /-- UCIE_RETRAIN_DONE (R410). -/
  | ucieRetrainDone (die : Nat) (m : Nat) (ok : Bool) (mode : BitVec 1) (half : Bool) (repaired : BitVec 16)
  /-- RELEASE_ALL_DONE (R400). -/
  | releaseAllDone (die : Nat)
  /-- CUBE_FENCE_WINDOW_END (R184). -/
  | cubeFenceWindowEnd (c : CoreId)
  /-- ZLK_LANE_WINDOW_END (R491). -/
  | zlkLaneWindowEnd (die : Nat) (port : Nat)
  /-- LANE_CE_WINDOW_END (R589). -/
  | laneCeWindowEnd (c : CoreId)
  /-- STATION_FAULT (R621). -/
  | stationFault (die : Nat) (code : BitVec 8)
deriving DecidableEq, Repr

end Sys2Proof
end

