-- ==== Sys2Proof/WellFormed.lean ====
section
/-!
DEFINITION. Well-formed commands: every number an operand carries lies within the unit it names (cores 0 to 143 of dies 0 to 7,
crew slots 0 to 63, cubes 0 to 3 and so on). The reserved bits and operand ranges of Yelre instructions are the decoder's
(R118; Decode.lean). `Instr.dies` lists the compute dies a command names, for the test against the part (R2).
-/

namespace Sys2Proof

/-- A core of some part (R10). -/
def CoreId.wf (c : CoreId) : Bool := decide (c.die < 8) && decide (c.core < 144)

/-- The core of an agent. -/
def Agent.core : Agent → CoreId
  | .seq c => c
  | .crew c _ => c

/-- An agent of some part (R31). -/
def Agent.wf : Agent → Bool
  | .seq c => c.wf
  | .crew c slot => c.wf && decide (slot < 64)

/-- The die of a unit queue. -/
def UnitRef.die : UnitRef → Nat
  | .cube c _ | .chain c | .quant c | .tload c | .sload c => c.die
  | .link die => die

/-- A unit queue of some part. -/
def UnitRef.wf : UnitRef → Bool
  | .cube c u => c.wf && decide (u < 4)
  | .chain c | .quant c | .tload c | .sload c => c.wf
  | .link die => decide (die < 8)

/-- The die of a waiter; the dispatcher is on die 0. -/
def Waiter.die : Waiter → Nat
  | .agent a => a.core.die
  | .unit q _ => q.die
  | .post c _ _ => c.die
  | .command _ _ => 0
  | .frame die _ _ => die

/-- A waiter of some part. -/
def Waiter.wf : Waiter → Bool
  | .agent a => a.wf
  | .unit q _ => q.wf
  | .post c u _ => c.wf && decide (u < 4)
  | .command chan _ => decide (chan < 256)
  | .frame die sess _ => decide (die < 8) && decide (sess < 32)

/-- Well-formed commands. -/
def Instr.wf : Instr → Bool
  | .ctlNop a => a.wf
  | .ctlHalt c => c.wf
  | .ctlExit c slot => c.wf && decide (slot < 64)
  | .ctlFence c => c.wf
  | .ctlBr a _ => a.wf
  | .ctlBrz c _ => c.wf
  | .ctlBrnz c _ => c.wf
  | .ctlBrp c slot _ => c.wf && decide (slot < 64)
  | .ctlBrnp c slot _ => c.wf && decide (slot < 64)
  | .ctlCall c _ => c.wf
  | .ctlRet c => c.wf
  | .ctlLaunch c _ => c.wf
  | .ctlMpush c slot _ => c.wf && decide (slot < 64)
  | .ctlMelse c slot => c.wf && decide (slot < 64)
  | .ctlMpop c slot => c.wf && decide (slot < 64)
  | .ctlRdspec a _ => a.wf
  | .sclAdd c _ => c.wf
  | .sclSub c _ => c.wf
  | .sclMul c _ => c.wf
  | .sclMulh c _ => c.wf
  | .sclAnd c _ => c.wf
  | .sclOr c _ => c.wf
  | .sclXor c _ => c.wf
  | .sclShl c _ => c.wf
  | .sclShr c _ => c.wf
  | .sclSar c _ => c.wf
  | .sclMin c _ => c.wf
  | .sclMax c _ => c.wf
  | .sclCmp c _ => c.wf
  | .sclAddi c _ => c.wf
  | .sclCmpi c _ => c.wf
  | .sclMovi c _ => c.wf
  | .sclMovh c _ => c.wf
  | .sclLd c _ => c.wf
  | .sclSt c _ => c.wf
  | .sclMova c _ => c.wf
  | .sclMovs c _ => c.wf
  | .sclAdda c _ => c.wf
  | .sclAddai c _ => c.wf
  | .vecAdd c slot _ => c.wf && decide (slot < 64)
  | .vecSub c slot _ => c.wf && decide (slot < 64)
  | .vecMul c slot _ => c.wf && decide (slot < 64)
  | .vecFma c slot _ => c.wf && decide (slot < 64)
  | .vecMin c slot _ => c.wf && decide (slot < 64)
  | .vecMax c slot _ => c.wf && decide (slot < 64)
  | .vecAbs c slot _ => c.wf && decide (slot < 64)
  | .vecNeg c slot _ => c.wf && decide (slot < 64)
  | .vecCmp c slot _ => c.wf && decide (slot < 64)
  | .vecSel c slot _ => c.wf && decide (slot < 64)
  | .vecAnd c slot _ => c.wf && decide (slot < 64)
  | .vecOr c slot _ => c.wf && decide (slot < 64)
  | .vecXor c slot _ => c.wf && decide (slot < 64)
  | .vecShl c slot _ => c.wf && decide (slot < 64)
  | .vecShr c slot _ => c.wf && decide (slot < 64)
  | .vecMov c slot _ => c.wf && decide (slot < 64)
  | .vecMovi c slot _ => c.wf && decide (slot < 64)
  | .vecAddi c slot _ => c.wf && decide (slot < 64)
  | .vecFaddi c slot _ => c.wf && decide (slot < 64)
  | .vecFmuli c slot _ => c.wf && decide (slot < 64)
  | .vecLd c slot _ => c.wf && decide (slot < 64)
  | .vecSt c slot _ => c.wf && decide (slot < 64)
  | .vecShfl c slot _ => c.wf && decide (slot < 64)
  | .vecRand c slot _ => c.wf && decide (slot < 64)
  | .sfnExp c slot _ => c.wf && decide (slot < 64)
  | .sfnExp2 c slot _ => c.wf && decide (slot < 64)
  | .sfnLog c slot _ => c.wf && decide (slot < 64)
  | .sfnLog2 c slot _ => c.wf && decide (slot < 64)
  | .sfnRcp c slot _ => c.wf && decide (slot < 64)
  | .sfnSqrt c slot _ => c.wf && decide (slot < 64)
  | .sfnRsqrt c slot _ => c.wf && decide (slot < 64)
  | .sfnSin c slot _ => c.wf && decide (slot < 64)
  | .sfnCos c slot _ => c.wf && decide (slot < 64)
  | .sfnTanh c slot _ => c.wf && decide (slot < 64)
  | .sfnSigm c slot _ => c.wf && decide (slot < 64)
  | .sfnErf c slot _ => c.wf && decide (slot < 64)
  | .sfnGelu c slot _ => c.wf && decide (slot < 64)
  | .sfnSilu c slot _ => c.wf && decide (slot < 64)
  | .sfnTload c _ => c.wf
  | .tableLoadFlip c => c.wf
  | .tableLoadDrainEnd c => c.wf
  | .cubeMma c _ => c.wf
  | .cubeConv c _ => c.wf
  | .cubeAttn c _ => c.wf
  | .cubePool c _ => c.wf
  | .cubeRsmp c _ => c.wf
  | .cubeAclr c _ => c.wf
  | .chnArm c _ => c.wf
  | .chnStrm c _ => c.wf
  | .chnRearm c _ => c.wf
  | .chnStop c _ => c.wf
  | .chnMedia c _ => c.wf
  | .stkArrive a _ => a.wf
  | .stkWait a _ => a.wf
  | .stkTest a _ => a.wf
  | .stkReset a _ => a.wf
  | .stkClaim a _ => a.wf
  | .colRun c _ => c.wf
  | .colPut c _ => c.wf
  | .qntCvt c slot _ => c.wf && decide (slot < 64)
  | .qntPack c _ => c.wf
  | .qntUnpack c _ => c.wf
  | .qntSload c _ => c.wf
  | .scaleLoadFlip c => c.wf
  | .scaleLoadDrainEnd c => c.wf
  | .stakeOpApply die hub _ => decide (die < 8) && decide (hub < 13)
  | .stkWaitTimeout a => a.wf
  | .stakePoll w => w.wf
  | .stkTargetWrite _ _ => true
  | .stkCtlReset _ _ => true
  | .stkCtlEnableClear _ _ => true
  | .launchDequeue c => c.wf
  | .unitDescriptorStart q => q.wf
  | .operandWaitEnd q => q.wf
  | .cubeStep c u _ => c.wf && decide (u < 4)
  | .rampLevelChange c u => c.wf && decide (u < 4)
  | .rampHoldExpiry c u => c.wf && decide (u < 4)
  | .cubeDrain c u _ => c.wf && decide (u < 4)
  | .prologueCopyDone c u => c.wf && decide (u < 4)
  | .ledgerFetchDone c u => c.wf && decide (u < 4)
  | .prologueCorrection c u => c.wf && decide (u < 4)
  | .hookProgramLaunch c u => c.wf && decide (u < 4)
  | .converterPass c => c.wf
  | .ledgerPublish c u => c.wf && decide (u < 4)
  | .stakeRouteResume c u => c.wf && decide (u < 4)
  | .ksplitCombine c u => c.wf && decide (u < 4)
  | .attnChunkFetchDone c u => c.wf && decide (u < 4)
  | .attnChunkSoftmax c u => c.wf && decide (u < 4)
  | .keyPresenceWaitEnd c u => c.wf && decide (u < 4)
  | .keyWaitExpiry c u => c.wf && decide (u < 4)
  | .kvTokenWrite c u => c.wf && decide (u < 4)
  | .kvFlushStart die => decide (die < 8)
  | .kvFlushDone die slot => decide (die < 8) && decide (slot < 4)
  | .exportQueueCopy die port => decide (die < 8) && decide (port < 2)
  | .chainWaitEnd c pos => c.wf && decide (pos < 16)
  | .streamPassStart c slot => c.wf && decide (slot < 8)
  | .chainEntryAdmit c => c.wf
  | .chainEntryComplete c pos => c.wf && decide (pos < 16)
  | .sliceRequest die slice _ => decide (die < 8) && decide (slice < 16)
  | .hbmRead die chan caddr _ => decide (die < 8) && decide (chan < 32) && decide (caddr < 3221225472)
  | .hbmErrWindowEnd die => decide (die < 8)
  | .hbmRefresh die stack => decide (die < 8) && decide (stack < 2)
  | .hbmScrub die chan caddr _ => decide (die < 8) && decide (chan < 32) && decide (caddr < 3221225472)
  | .ondieScrub die _ => decide (die < 8)
  | .hbmThermalSample die stack _ _ => decide (die < 8) && decide (stack < 2)
  | .hbmMapWrite die _ => decide (die < 8)
  | .resSliceCfgWrite die _ => decide (die < 8)
  | .sliceReconfigDone die => decide (die < 8)
  | .releaseAll die => decide (die < 8)
  | .hbmRetireWrite die i _ => decide (die < 8) && decide (i < 4096)
  | .ucieFlitReplay die m => decide (die < 8) && decide (m < 4)
  | .ucieRetrain die m => decide (die < 8) && decide (m < 4)
  | .commandDieAccess _ size data => decide (size ∈ [1, 2, 4, 8, 64]) && (data.map fun b => decide (b.length = size)).getD true
  | .cmdDoorbell chan _ => decide (chan < 256)
  | .doorbellLatch chan => decide (chan < 256)
  | .cmdArrive die _ _ => decide (die < 8)
  | .openObj _ _ _ => true
  | .closeObj _ => true
  | .openComplete => true
  | .closeComplete => true
  | .commandRead chan => decide (chan < 256)
  | .commandStart chan => decide (chan < 256)
  | .cmdRun chan => decide (chan < 256)
  | .cmdLoad chan => decide (chan < 256)
  | .cmdArriveOp chan => decide (chan < 256)
  | .cmdNop chan => decide (chan < 256)
  | .partComplete c => c.wf
  | .cmdComplHeadWrite chan _ => decide (chan < 256)
  | .eventMergeWrite => true
  | .cmdEvtPtrHeadWrite _ => true
  | .dispatchTick => true
  | .coreStopped c => c.wf
  | .contextImageWritten c => c.wf
  | .tenantSwap parcel tenant => decide (parcel < 64) && decide (tenant < 16)
  | .swapComplete parcel => decide (parcel < 64)
  | .pclRebuildSet die => decide (die < 8)
  | .rebuildMapoutDone die => decide (die < 8)
  | .pclRebuildClear die => decide (die < 8)
  | .scheduleSlotBoundary => true
  | .schSwitch => true
  | .tagValidClear c => c.wf
  | .zlkTrain die port => decide (die < 8) && decide (port < 2)
  | .zlkStop die port => decide (die < 8) && decide (port < 2)
  | .portTrainingDone die port _ => decide (die < 8) && decide (port < 2)
  | .laneFailure die port _ => decide (die < 8) && decide (port < 2)
  | .portRetrainDone die port _ => decide (die < 8) && decide (port < 2)
  | .flitReceive die port x => decide (die < 8) && decide (port < 2) && decide (x.errors.length = 4) && decide (x.lanes.length = 8) &&
      decide (x.flits.length = 10) && x.flits.all fun f => decide (f.body.length = 240)
  | .linkAck die port tag _ _ => decide (die < 8) && decide (port < 2) && decide (tag < 4096)
  | .linkNak die port tag _ reason => decide (die < 8) && decide (port < 2) && decide (tag < 4096) && decide (reason < 256)
  | .linkAbort _ _ _ => true
  | .putStart die => decide (die < 8)
  | .putChunkReceive die port _ _ _ _ => decide (die < 8) && decide (port < 2)
  | .ackTimeout die port tag _ => decide (die < 8) && decide (port < 2) && decide (tag < 4096)
  | .notReadyResend die port tag _ => decide (die < 8) && decide (port < 2) && decide (tag < 4096)
  | .collectiveStart die group => decide (die < 8) && decide (group < 256)
  | .collectiveTraverse die group => decide (die < 8) && decide (group < 256)
  | .collectiveTimeout die group => decide (die < 8) && decide (group < 256)
  | .zlkIdWrite _ => true
  | .zlkVcCfgWrite die port _ => decide (die < 8) && decide (port < 2)
  | .frameAccept c pos => c.wf && decide (pos < 16)
  | .mediaFrame die pipe => decide (die < 8) && decide (pipe < 2)
  | .mediaEnd die sess => decide (die < 8) && decide (sess < 32)
  | .pipeSelect die pipe => decide (die < 8) && decide (pipe < 2)
  | .mediaPreemption die pipe => decide (die < 8) && decide (pipe < 2)
  | .deadlinePass die sess _ => decide (die < 8) && decide (sess < 32)
  | .frameComplete die pipe => decide (die < 8) && decide (pipe < 2)
  | .errAckIndex die e => decide (die < 8) && decide (e < 64)
  | .errAckAll die => decide (die < 8)
  | .errCoreRst die _ => decide (die < 8)
  | .coreResetDone die _ => decide (die < 8)
  | .haltArrival die => decide (die < 8)
  | .haltOnSilence die => decide (die < 8)
  | .laneGroupFence c g reason slot => c.wf && decide (g < 4) && decide (1 ≤ reason) && decide (reason < 4) && decide (slot < 64)
  | .cubeInject c u _ => c.wf && decide (u < 4)
  | .fenceReq c => c.wf
  | .abwReqAttest _ => true
  | .abwReqExtend _ _ => true
  | .reportSigned => true
  | .getIdent => true
  | .getTelemetry => true
  | .getErrors => true
  | .attest _ => true
  | .readReport _ _ => true
  | .extend _ _ => true
  | .setLimit _ => true
  | .getChallenge => true
  | .unlockData _ _ => true
  | .unlockGo => true
  | .svnCommit _ => true
  | .enec _ => true
  | .disec _ => true
  | .rstdaa => true
  | .entdaa _ => true
  | .setdasa _ _ => true
  | .getpid => true
  | .getbcr => true
  | .getdcr => true
  | .getstatus => true
  | .getmwl => true
  | .getmrl => true
  | .setmwl _ => true
  | .setmrl _ => true
  | .smbusModeEntry => true
  | .powerCapCompare _ => true
  | .tempRefresh die _ => decide (die < 8)
  | .envelopeClustersWrite _ => true
  | .resetRelease => true
  | .rootPllLock die _ _ => decide (die < 8)
  | .positionExchange die m _ => decide (die < 8) && decide (m < 4)
  | .announce die => decide (die < 8)
  | .progress die => decide (die < 8)
  | .fwBegin _ _ => true
  | .fwData _ _ => true
  | .fwEnd => true
  | .meshWaveStart wave => decide (wave < 16)
  | .meshLinkTrained die m _ _ _ _ => decide (die < 8) && decide (m < 4)
  | .hbmTrainingDone die _ => decide (die < 8)
  | .selfTestDone die _ => decide (die < 8)
  | .tickAlign => true
  | .dieSilence die => decide (die < 8)
  | .abwTriReady _ => true
  | .pkgPwrgdAssert => true
  | .pkgPwrgdDeassert => true
  | .pkgResetAssert => true
  | .pkgResetDeassert _ _ => true
  | .railSample die _ => decide (die < 8)
  | .rail7Undervoltage die => decide (die < 8)
  | .thermalTrip die sensor _ _ => decide (die < 8) && decide (sensor < 16)
  | .pllUnlock die pll => decide (die < 8) && decide (pll < 4)
  | .pkgTrst => true
  | .extest die => decide (die < 8)
  | .samplePreload die _ => decide (die < 8)
  | .idcode die => decide (die < 8)
  | .clamp die => decide (die < 8)
  | .highz die => decide (die < 8)
  | .bypass die => decide (die < 8)
  | .privateJtag die _ => decide (die < 8)
  | .registerWrite a size _ => decide (size ∈ [1, 2, 4, 8]) && decide (a.toNat % size = 0) && decide (a.toNat / 2 ^ 50 = 3)
  | .shadowWriteApply _ => true
  | .liveWriteApply => true
  | .illegalInstruction a _ => a.wf
  | .fetchRange a => a.wf
  | .contextImageRestored c => c.wf
  | .ucieRetrainDone die m _ _ _ _ => decide (die < 8) && decide (m < 4)
  | .releaseAllDone die => decide (die < 8)
  | .cubeFenceWindowEnd c => c.wf
  | .zlkLaneWindowEnd die port => decide (die < 8) && decide (port < 2)
  | .laneCeWindowEnd c => c.wf
  | .stationFault die _ => decide (die < 8)

/-- The compute dies a command names. -/
def Instr.dies : Instr → List Nat
  | .ctlNop a => [a.core.die]
  | .ctlHalt c => [c.die]
  | .ctlExit c _ => [c.die]
  | .ctlFence c => [c.die]
  | .ctlBr a _ => [a.core.die]
  | .ctlBrz c _ => [c.die]
  | .ctlBrnz c _ => [c.die]
  | .ctlBrp c _ _ => [c.die]
  | .ctlBrnp c _ _ => [c.die]
  | .ctlCall c _ => [c.die]
  | .ctlRet c => [c.die]
  | .ctlLaunch c _ => [c.die]
  | .ctlMpush c _ _ => [c.die]
  | .ctlMelse c _ => [c.die]
  | .ctlMpop c _ => [c.die]
  | .ctlRdspec a _ => [a.core.die]
  | .sclAdd c _ => [c.die]
  | .sclSub c _ => [c.die]
  | .sclMul c _ => [c.die]
  | .sclMulh c _ => [c.die]
  | .sclAnd c _ => [c.die]
  | .sclOr c _ => [c.die]
  | .sclXor c _ => [c.die]
  | .sclShl c _ => [c.die]
  | .sclShr c _ => [c.die]
  | .sclSar c _ => [c.die]
  | .sclMin c _ => [c.die]
  | .sclMax c _ => [c.die]
  | .sclCmp c _ => [c.die]
  | .sclAddi c _ => [c.die]
  | .sclCmpi c _ => [c.die]
  | .sclMovi c _ => [c.die]
  | .sclMovh c _ => [c.die]
  | .sclLd c _ => [c.die]
  | .sclSt c _ => [c.die]
  | .sclMova c _ => [c.die]
  | .sclMovs c _ => [c.die]
  | .sclAdda c _ => [c.die]
  | .sclAddai c _ => [c.die]
  | .vecAdd c _ _ => [c.die]
  | .vecSub c _ _ => [c.die]
  | .vecMul c _ _ => [c.die]
  | .vecFma c _ _ => [c.die]
  | .vecMin c _ _ => [c.die]
  | .vecMax c _ _ => [c.die]
  | .vecAbs c _ _ => [c.die]
  | .vecNeg c _ _ => [c.die]
  | .vecCmp c _ _ => [c.die]
  | .vecSel c _ _ => [c.die]
  | .vecAnd c _ _ => [c.die]
  | .vecOr c _ _ => [c.die]
  | .vecXor c _ _ => [c.die]
  | .vecShl c _ _ => [c.die]
  | .vecShr c _ _ => [c.die]
  | .vecMov c _ _ => [c.die]
  | .vecMovi c _ _ => [c.die]
  | .vecAddi c _ _ => [c.die]
  | .vecFaddi c _ _ => [c.die]
  | .vecFmuli c _ _ => [c.die]
  | .vecLd c _ _ => [c.die]
  | .vecSt c _ _ => [c.die]
  | .vecShfl c _ _ => [c.die]
  | .vecRand c _ _ => [c.die]
  | .sfnExp c _ _ => [c.die]
  | .sfnExp2 c _ _ => [c.die]
  | .sfnLog c _ _ => [c.die]
  | .sfnLog2 c _ _ => [c.die]
  | .sfnRcp c _ _ => [c.die]
  | .sfnSqrt c _ _ => [c.die]
  | .sfnRsqrt c _ _ => [c.die]
  | .sfnSin c _ _ => [c.die]
  | .sfnCos c _ _ => [c.die]
  | .sfnTanh c _ _ => [c.die]
  | .sfnSigm c _ _ => [c.die]
  | .sfnErf c _ _ => [c.die]
  | .sfnGelu c _ _ => [c.die]
  | .sfnSilu c _ _ => [c.die]
  | .sfnTload c _ => [c.die]
  | .tableLoadFlip c => [c.die]
  | .tableLoadDrainEnd c => [c.die]
  | .cubeMma c _ => [c.die]
  | .cubeConv c _ => [c.die]
  | .cubeAttn c _ => [c.die]
  | .cubePool c _ => [c.die]
  | .cubeRsmp c _ => [c.die]
  | .cubeAclr c _ => [c.die]
  | .chnArm c _ => [c.die]
  | .chnStrm c _ => [c.die]
  | .chnRearm c _ => [c.die]
  | .chnStop c _ => [c.die]
  | .chnMedia c _ => [c.die]
  | .stkArrive a _ => [a.core.die]
  | .stkWait a _ => [a.core.die]
  | .stkTest a _ => [a.core.die]
  | .stkReset a _ => [a.core.die]
  | .stkClaim a _ => [a.core.die]
  | .colRun c _ => [c.die]
  | .colPut c _ => [c.die]
  | .qntCvt c _ _ => [c.die]
  | .qntPack c _ => [c.die]
  | .qntUnpack c _ => [c.die]
  | .qntSload c _ => [c.die]
  | .scaleLoadFlip c => [c.die]
  | .scaleLoadDrainEnd c => [c.die]
  | .stakeOpApply die _ _ => [die]
  | .stkWaitTimeout a => [a.core.die]
  | .stakePoll w => [w.die]
  | .stkTargetWrite _ _ => []
  | .stkCtlReset _ _ => []
  | .stkCtlEnableClear _ _ => []
  | .launchDequeue c => [c.die]
  | .unitDescriptorStart q => [q.die]
  | .operandWaitEnd q => [q.die]
  | .cubeStep c _ _ => [c.die]
  | .rampLevelChange c _ => [c.die]
  | .rampHoldExpiry c _ => [c.die]
  | .cubeDrain c _ _ => [c.die]
  | .prologueCopyDone c _ => [c.die]
  | .ledgerFetchDone c _ => [c.die]
  | .prologueCorrection c _ => [c.die]
  | .hookProgramLaunch c _ => [c.die]
  | .converterPass c => [c.die]
  | .ledgerPublish c _ => [c.die]
  | .stakeRouteResume c _ => [c.die]
  | .ksplitCombine c _ => [c.die]
  | .attnChunkFetchDone c _ => [c.die]
  | .attnChunkSoftmax c _ => [c.die]
  | .keyPresenceWaitEnd c _ => [c.die]
  | .keyWaitExpiry c _ => [c.die]
  | .kvTokenWrite c _ => [c.die]
  | .kvFlushStart die => [die]
  | .kvFlushDone die _ => [die]
  | .exportQueueCopy die _ => [die]
  | .chainWaitEnd c _ => [c.die]
  | .streamPassStart c _ => [c.die]
  | .chainEntryAdmit c => [c.die]
  | .chainEntryComplete c _ => [c.die]
  | .sliceRequest die _ _ => [die]
  | .hbmRead die _ _ _ => [die]
  | .hbmErrWindowEnd die => [die]
  | .hbmRefresh die _ => [die]
  | .hbmScrub die _ _ _ => [die]
  | .ondieScrub die _ => [die]
  | .hbmThermalSample die _ _ _ => [die]
  | .hbmMapWrite die _ => [die]
  | .resSliceCfgWrite die _ => [die]
  | .sliceReconfigDone die => [die]
  | .releaseAll die => [die]
  | .hbmRetireWrite die _ _ => [die]
  | .ucieFlitReplay die _ => [die]
  | .ucieRetrain die _ => [die]
  | .commandDieAccess _ _ _ => []
  | .cmdDoorbell _ _ => []
  | .doorbellLatch _ => []
  | .cmdArrive die _ _ => [die]
  | .openObj _ _ _ => []
  | .closeObj _ => []
  | .openComplete => []
  | .closeComplete => []
  | .commandRead _ => []
  | .commandStart _ => []
  | .cmdRun _ => []
  | .cmdLoad _ => []
  | .cmdArriveOp _ => []
  | .cmdNop _ => []
  | .partComplete c => [c.die]
  | .cmdComplHeadWrite _ _ => []
  | .eventMergeWrite => []
  | .cmdEvtPtrHeadWrite _ => []
  | .dispatchTick => []
  | .coreStopped c => [c.die]
  | .contextImageWritten c => [c.die]
  | .tenantSwap _ _ => []
  | .swapComplete _ => []
  | .pclRebuildSet die => [die]
  | .rebuildMapoutDone die => [die]
  | .pclRebuildClear die => [die]
  | .scheduleSlotBoundary => []
  | .schSwitch => []
  | .tagValidClear c => [c.die]
  | .zlkTrain die _ => [die]
  | .zlkStop die _ => [die]
  | .portTrainingDone die _ _ => [die]
  | .laneFailure die _ _ => [die]
  | .portRetrainDone die _ _ => [die]
  | .flitReceive die _ _ => [die]
  | .linkAck die _ _ _ _ => [die]
  | .linkNak die _ _ _ _ => [die]
  | .linkAbort _ _ _ => []
  | .putStart die => [die]
  | .putChunkReceive die _ _ _ _ _ => [die]
  | .ackTimeout die _ _ _ => [die]
  | .notReadyResend die _ _ _ => [die]
  | .collectiveStart die _ => [die]
  | .collectiveTraverse die _ => [die]
  | .collectiveTimeout die _ => [die]
  | .zlkIdWrite _ => []
  | .zlkVcCfgWrite die _ _ => [die]
  | .frameAccept c _ => [c.die]
  | .mediaFrame die _ => [die]
  | .mediaEnd die _ => [die]
  | .pipeSelect die _ => [die]
  | .mediaPreemption die _ => [die]
  | .deadlinePass die _ _ => [die]
  | .frameComplete die _ => [die]
  | .errAckIndex die _ => [die]
  | .errAckAll die => [die]
  | .errCoreRst die _ => [die]
  | .coreResetDone die _ => [die]
  | .haltArrival die => [die]
  | .haltOnSilence die => [die]
  | .laneGroupFence c _ _ _ => [c.die]
  | .cubeInject c _ _ => [c.die]
  | .fenceReq c => [c.die]
  | .abwReqAttest _ => []
  | .abwReqExtend _ _ => []
  | .reportSigned => []
  | .getIdent => []
  | .getTelemetry => []
  | .getErrors => []
  | .attest _ => []
  | .readReport _ _ => []
  | .extend _ _ => []
  | .setLimit _ => []
  | .getChallenge => []
  | .unlockData _ _ => []
  | .unlockGo => []
  | .svnCommit _ => []
  | .enec _ => []
  | .disec _ => []
  | .rstdaa => []
  | .entdaa _ => []
  | .setdasa _ _ => []
  | .getpid => []
  | .getbcr => []
  | .getdcr => []
  | .getstatus => []
  | .getmwl => []
  | .getmrl => []
  | .setmwl _ => []
  | .setmrl _ => []
  | .smbusModeEntry => []
  | .powerCapCompare _ => []
  | .tempRefresh die _ => [die]
  | .envelopeClustersWrite _ => []
  | .resetRelease => []
  | .rootPllLock die _ _ => [die]
  | .positionExchange die _ _ => [die]
  | .announce die => [die]
  | .progress die => [die]
  | .fwBegin _ _ => []
  | .fwData _ _ => []
  | .fwEnd => []
  | .meshWaveStart _ => []
  | .meshLinkTrained die _ _ _ _ _ => [die]
  | .hbmTrainingDone die _ => [die]
  | .selfTestDone die _ => [die]
  | .tickAlign => []
  | .dieSilence die => [die]
  | .abwTriReady _ => []
  | .pkgPwrgdAssert => []
  | .pkgPwrgdDeassert => []
  | .pkgResetAssert => []
  | .pkgResetDeassert _ _ => []
  | .railSample die _ => [die]
  | .rail7Undervoltage die => [die]
  | .thermalTrip die _ _ _ => [die]
  | .pllUnlock die _ => [die]
  | .pkgTrst => []
  | .extest die => [die]
  | .samplePreload die _ => [die]
  | .idcode die => [die]
  | .clamp die => [die]
  | .highz die => [die]
  | .bypass die => [die]
  | .privateJtag die _ => [die]
  | .registerWrite _ _ _ => []
  | .shadowWriteApply _ => []
  | .liveWriteApply => []
  | .illegalInstruction a _ => [a.core.die]
  | .fetchRange a => [a.core.die]
  | .contextImageRestored c => [c.die]
  | .ucieRetrainDone die _ _ _ _ _ => [die]
  | .releaseAllDone die => [die]
  | .cubeFenceWindowEnd c => [c.die]
  | .zlkLaneWindowEnd die _ => [die]
  | .laneCeWindowEnd c => [c.die]
  | .stationFault die _ => [die]

end Sys2Proof
end

