-- ==== Sys2Proof/Word.lean ====
section
/-!
DEFINITION. The words of the FK1: bytes, 32-bit and 64-bit words, 52-bit device addresses (R16), and the sparse tables that
hold the block's numbered storage (registers, memory, tables of slots).
-/

namespace Sys2Proof

/-- A byte. -/
abbrev Byte := BitVec 8

/-- A 32-bit word. -/
abbrev W32 := BitVec 32

/-- A 64-bit word. -/
abbrev W64 := BitVec 64

/-- A device address (R16). -/
abbrev Addr := BitVec 52

/-- A stake identifier (R51). -/
abbrev StakeId := BitVec 17

/-- Storage by number: keys strictly rising, and no entry equal to what an unlisted key reads as. -/
abbrev Tbl (α : Type) := List (Nat × α)

end Sys2Proof
end

