-- ==== Sys2Proof/Decode.lean ====
section
/-!
DEFINITION. The Yelre Y1 instruction words (chapter 02): the encoder and the decoder of the instruction rows, with the tests of R118
in their order. The rows of spec/opcode_table.json give no bits, so `decodeTableWord` answers none for every word.
-/

namespace Sys2Proof

/-- Bits hi to lo of a word, as a bit vector. -/
def wbits (w : W64) (lo n : Nat) : BitVec n := w.extractLsb' lo n

/-- A field placed at bit lo of a word. -/
def at' {n : Nat} (x : BitVec n) (lo : Nat) : W64 := (x.setWidth 64) <<< lo

/-- CLASS, OPCODE and a GUARD of 0 (R86). -/
def opWord (cls op : Nat) : W64 := BitVec.ofNat 64 (cls * 2 ^ 60 + op * 2 ^ 52)

/-- The operand bits of format S3. -/
def S3Op.bits (o : S3Op) : W64 :=
  at' o.sd 43 ||| at' o.sa 38 ||| at' o.sb 33 ||| at' o.cc 29

/-- The operands of format S3 in a word. -/
def S3Op.ofWord (w : W64) : S3Op :=
  ⟨wbits w 43 5, wbits w 38 5, wbits w 33 5, wbits w 29 4⟩

/-- The operand bits of format SI. -/
def SiOp.bits (o : SiOp) : W64 :=
  at' o.sd 43 ||| at' o.sa 38 ||| at' o.cc 34 ||| at' o.imm 0

/-- The operands of format SI in a word. -/
def SiOp.ofWord (w : W64) : SiOp :=
  ⟨wbits w 43 5, wbits w 38 5, wbits w 34 4, wbits w 0 32⟩

/-- The operand bits of format SW. -/
def SwOp.bits (o : SwOp) : W64 :=
  at' o.sd 43 ||| at' o.imm 0

/-- The operands of format SW in a word. -/
def SwOp.ofWord (w : W64) : SwOp :=
  ⟨wbits w 43 5, wbits w 0 40⟩

/-- The operand bits of format SM. -/
def SmOp.bits (o : SmOp) : W64 :=
  at' o.sd 43 ||| at' o.ar 39 ||| at' o.size 37 ||| at' o.sx 36 ||| at' o.off 0

/-- The operands of format SM in a word. -/
def SmOp.ofWord (w : W64) : SmOp :=
  ⟨wbits w 43 5, wbits w 39 4, wbits w 37 2, wbits w 36 1, wbits w 0 36⟩

/-- The operand bits of format SA. -/
def SaOp.bits (o : SaOp) : W64 :=
  at' o.ad 44 ||| at' o.aa 40 ||| at' o.sb 35 ||| at' o.imm 0

/-- The operands of format SA in a word. -/
def SaOp.ofWord (w : W64) : SaOp :=
  ⟨wbits w 44 4, wbits w 40 4, wbits w 35 5, wbits w 0 32⟩

/-- The operand bits of format BS. -/
def BsOp.bits (o : BsOp) : W64 :=
  at' o.sc 43 ||| at' o.off 0

/-- The operands of format BS in a word. -/
def BsOp.ofWord (w : W64) : BsOp :=
  ⟨wbits w 43 5, wbits w 0 32⟩

/-- The operand bits of format BP. -/
def BpOp.bits (o : BpOp) : W64 :=
  at' o.pd 43 ||| at' o.off 0

/-- The operands of format BP in a word. -/
def BpOp.ofWord (w : W64) : BpOp :=
  ⟨wbits w 43 3, wbits w 0 32⟩

/-- The operand bits of format LN. -/
def LnOp.bits (o : LnOp) : W64 :=
  at' o.n 41 ||| at' o.nreg 40 ||| at' o.ns 35 ||| at' o.entry 17 ||| at' o.stake 0

/-- The operands of format LN in a word. -/
def LnOp.ofWord (w : W64) : LnOp :=
  ⟨wbits w 41 7, wbits w 40 1, wbits w 35 5, wbits w 17 18, wbits w 0 17⟩

/-- The operand bits of format SP. -/
def SpOp.bits (o : SpOp) : W64 :=
  at' o.rd 42 ||| at' o.spec 0

/-- The operands of format SP in a word. -/
def SpOp.ofWord (w : W64) : SpOp :=
  ⟨wbits w 42 6, wbits w 0 8⟩

/-- The operand bits of format V3. -/
def V3Op.bits (o : V3Op) : W64 :=
  at' o.vd 42 ||| at' o.va 36 ||| at' o.pred 33 ||| at' o.pneg 32 ||| at' o.vb 26 ||| at' o.vc 20 ||| at' o.type 16 ||| at' o.rnd 14 ||| at' o.ftz 13 ||| at' o.sat 12 ||| at' o.cc 8 ||| at' o.base 7

/-- The operands of format V3 in a word. -/
def V3Op.ofWord (w : W64) : V3Op :=
  ⟨wbits w 42 6, wbits w 36 6, wbits w 33 3, wbits w 32 1, wbits w 26 6, wbits w 20 6, wbits w 16 4, wbits w 14 2, wbits w 13 1, wbits w 12 1, wbits w 8 4, wbits w 7 1⟩

/-- The operand bits of format VI. -/
def ViOp.bits (o : ViOp) : W64 :=
  at' o.vd 42 ||| at' o.va 36 ||| at' o.pred 33 ||| at' o.pneg 32 ||| at' o.imm 0

/-- The operands of format VI in a word. -/
def ViOp.ofWord (w : W64) : ViOp :=
  ⟨wbits w 42 6, wbits w 36 6, wbits w 33 3, wbits w 32 1, wbits w 0 32⟩

/-- The operand bits of format VM. -/
def VmOp.bits (o : VmOp) : W64 :=
  at' o.vd 42 ||| at' o.va 36 ||| at' o.pred 33 ||| at' o.pneg 32 ||| at' o.size 30 ||| at' o.sx 29 ||| at' o.off 0

/-- The operands of format VM in a word. -/
def VmOp.ofWord (w : W64) : VmOp :=
  ⟨wbits w 42 6, wbits w 36 6, wbits w 33 3, wbits w 32 1, wbits w 30 2, wbits w 29 1, wbits w 0 24⟩

/-- The operand bits of format Q. -/
def QOp.bits (o : QOp) : W64 :=
  at' o.vd 42 ||| at' o.va 36 ||| at' o.pred 33 ||| at' o.pneg 32 ||| at' o.sfmt 28 ||| at' o.dfmt 24 ||| at' o.rnd 14 ||| at' o.ftz 13 ||| at' o.sat 12

/-- The operands of format Q in a word. -/
def QOp.ofWord (w : W64) : QOp :=
  ⟨wbits w 42 6, wbits w 36 6, wbits w 33 3, wbits w 32 1, wbits w 28 4, wbits w 24 4, wbits w 14 2, wbits w 13 1, wbits w 12 1⟩

/-- The operand bits of format D. -/
def DOp.bits (o : DOp) : W64 :=
  at' o.unit 46 ||| at' o.da 40 ||| at' o.ssel 39 ||| at' o.sreg 34 ||| at' o.hreg 29 ||| at' o.stake 0

/-- The operands of format D in a word. -/
def DOp.ofWord (w : W64) : DOp :=
  ⟨wbits w 46 2, wbits w 40 4, wbits w 39 1, wbits w 34 5, wbits w 29 5, wbits w 0 17⟩

/-- The operand bits of format K. -/
def KOp.bits (o : KOp) : W64 :=
  at' o.rd 42 ||| at' o.ssel 41 ||| at' o.sreg 35 ||| at' o.treg 34 ||| at' o.imm 17 ||| at' o.stake 0

/-- The operands of format K in a word. -/
def KOp.ofWord (w : W64) : KOp :=
  ⟨wbits w 42 6, wbits w 41 1, wbits w 35 6, wbits w 34 1, wbits w 17 16, wbits w 0 17⟩

/-- The word of an instruction (R86); a row that is no instruction has none. -/
def encode : Instr → Option W64
  | .ctlNop _ => some (opWord 0 0x00)
  | .ctlHalt _ => some (opWord 0 0x01)
  | .ctlExit _ _ => some (opWord 0 0x02)
  | .ctlFence _ => some (opWord 0 0x03)
  | .ctlBr _ o => some (opWord 0 0x08 ||| o.bits)
  | .ctlBrz _ o => some (opWord 0 0x09 ||| o.bits)
  | .ctlBrnz _ o => some (opWord 0 0x0A ||| o.bits)
  | .ctlBrp _ _ o => some (opWord 0 0x0B ||| o.bits)
  | .ctlBrnp _ _ o => some (opWord 0 0x0C ||| o.bits)
  | .ctlCall _ o => some (opWord 0 0x0D ||| o.bits)
  | .ctlRet _ => some (opWord 0 0x0E)
  | .ctlLaunch _ o => some (opWord 0 0x10 ||| o.bits)
  | .ctlMpush _ _ o => some (opWord 0 0x18 ||| o.bits)
  | .ctlMelse _ _ => some (opWord 0 0x19)
  | .ctlMpop _ _ => some (opWord 0 0x1A)
  | .ctlRdspec _ o => some (opWord 0 0x20 ||| o.bits)
  | .sclAdd _ o => some (opWord 1 0x00 ||| o.bits)
  | .sclSub _ o => some (opWord 1 0x01 ||| o.bits)
  | .sclMul _ o => some (opWord 1 0x02 ||| o.bits)
  | .sclMulh _ o => some (opWord 1 0x03 ||| o.bits)
  | .sclAnd _ o => some (opWord 1 0x04 ||| o.bits)
  | .sclOr _ o => some (opWord 1 0x05 ||| o.bits)
  | .sclXor _ o => some (opWord 1 0x06 ||| o.bits)
  | .sclShl _ o => some (opWord 1 0x07 ||| o.bits)
  | .sclShr _ o => some (opWord 1 0x08 ||| o.bits)
  | .sclSar _ o => some (opWord 1 0x09 ||| o.bits)
  | .sclMin _ o => some (opWord 1 0x0A ||| o.bits)
  | .sclMax _ o => some (opWord 1 0x0B ||| o.bits)
  | .sclCmp _ o => some (opWord 1 0x0C ||| o.bits)
  | .sclAddi _ o => some (opWord 1 0x10 ||| o.bits)
  | .sclCmpi _ o => some (opWord 1 0x12 ||| o.bits)
  | .sclMovi _ o => some (opWord 1 0x14 ||| o.bits)
  | .sclMovh _ o => some (opWord 1 0x15 ||| o.bits)
  | .sclLd _ o => some (opWord 1 0x18 ||| o.bits)
  | .sclSt _ o => some (opWord 1 0x19 ||| o.bits)
  | .sclMova _ o => some (opWord 1 0x20 ||| o.bits)
  | .sclMovs _ o => some (opWord 1 0x21 ||| o.bits)
  | .sclAdda _ o => some (opWord 1 0x22 ||| o.bits)
  | .sclAddai _ o => some (opWord 1 0x23 ||| o.bits)
  | .vecAdd _ _ o => some (opWord 2 0x00 ||| o.bits)
  | .vecSub _ _ o => some (opWord 2 0x01 ||| o.bits)
  | .vecMul _ _ o => some (opWord 2 0x02 ||| o.bits)
  | .vecFma _ _ o => some (opWord 2 0x03 ||| o.bits)
  | .vecMin _ _ o => some (opWord 2 0x04 ||| o.bits)
  | .vecMax _ _ o => some (opWord 2 0x05 ||| o.bits)
  | .vecAbs _ _ o => some (opWord 2 0x06 ||| o.bits)
  | .vecNeg _ _ o => some (opWord 2 0x07 ||| o.bits)
  | .vecCmp _ _ o => some (opWord 2 0x08 ||| o.bits)
  | .vecSel _ _ o => some (opWord 2 0x09 ||| o.bits)
  | .vecAnd _ _ o => some (opWord 2 0x0A ||| o.bits)
  | .vecOr _ _ o => some (opWord 2 0x0B ||| o.bits)
  | .vecXor _ _ o => some (opWord 2 0x0C ||| o.bits)
  | .vecShl _ _ o => some (opWord 2 0x0D ||| o.bits)
  | .vecShr _ _ o => some (opWord 2 0x0E ||| o.bits)
  | .vecMov _ _ o => some (opWord 2 0x10 ||| o.bits)
  | .vecMovi _ _ o => some (opWord 2 0x11 ||| o.bits)
  | .vecAddi _ _ o => some (opWord 2 0x12 ||| o.bits)
  | .vecFaddi _ _ o => some (opWord 2 0x13 ||| o.bits)
  | .vecFmuli _ _ o => some (opWord 2 0x14 ||| o.bits)
  | .vecLd _ _ o => some (opWord 2 0x18 ||| o.bits)
  | .vecSt _ _ o => some (opWord 2 0x19 ||| o.bits)
  | .vecShfl _ _ o => some (opWord 2 0x1C ||| o.bits)
  | .vecRand _ _ o => some (opWord 2 0x1D ||| o.bits)
  | .sfnExp _ _ o => some (opWord 3 0x00 ||| o.bits)
  | .sfnExp2 _ _ o => some (opWord 3 0x01 ||| o.bits)
  | .sfnLog _ _ o => some (opWord 3 0x02 ||| o.bits)
  | .sfnLog2 _ _ o => some (opWord 3 0x03 ||| o.bits)
  | .sfnRcp _ _ o => some (opWord 3 0x04 ||| o.bits)
  | .sfnSqrt _ _ o => some (opWord 3 0x05 ||| o.bits)
  | .sfnRsqrt _ _ o => some (opWord 3 0x06 ||| o.bits)
  | .sfnSin _ _ o => some (opWord 3 0x07 ||| o.bits)
  | .sfnCos _ _ o => some (opWord 3 0x08 ||| o.bits)
  | .sfnTanh _ _ o => some (opWord 3 0x09 ||| o.bits)
  | .sfnSigm _ _ o => some (opWord 3 0x0A ||| o.bits)
  | .sfnErf _ _ o => some (opWord 3 0x0B ||| o.bits)
  | .sfnGelu _ _ o => some (opWord 3 0x0C ||| o.bits)
  | .sfnSilu _ _ o => some (opWord 3 0x0D ||| o.bits)
  | .sfnTload _ o => some (opWord 3 0x20 ||| o.bits)
  | .cubeMma _ o => some (opWord 4 0x00 ||| o.bits)
  | .cubeConv _ o => some (opWord 4 0x01 ||| o.bits)
  | .cubeAttn _ o => some (opWord 4 0x02 ||| o.bits)
  | .cubePool _ o => some (opWord 4 0x03 ||| o.bits)
  | .cubeRsmp _ o => some (opWord 4 0x04 ||| o.bits)
  | .cubeAclr _ o => some (opWord 4 0x08 ||| o.bits)
  | .chnArm _ o => some (opWord 5 0x00 ||| o.bits)
  | .chnStrm _ o => some (opWord 5 0x01 ||| o.bits)
  | .chnRearm _ o => some (opWord 5 0x02 ||| o.bits)
  | .chnStop _ o => some (opWord 5 0x03 ||| o.bits)
  | .chnMedia _ o => some (opWord 5 0x04 ||| o.bits)
  | .stkArrive _ o => some (opWord 6 0x00 ||| o.bits)
  | .stkWait _ o => some (opWord 6 0x01 ||| o.bits)
  | .stkTest _ o => some (opWord 6 0x02 ||| o.bits)
  | .stkReset _ o => some (opWord 6 0x03 ||| o.bits)
  | .stkClaim _ o => some (opWord 6 0x04 ||| o.bits)
  | .colRun _ o => some (opWord 7 0x00 ||| o.bits)
  | .colPut _ o => some (opWord 7 0x01 ||| o.bits)
  | .qntCvt _ _ o => some (opWord 8 0x00 ||| o.bits)
  | .qntPack _ o => some (opWord 8 0x01 ||| o.bits)
  | .qntUnpack _ o => some (opWord 8 0x02 ||| o.bits)
  | .qntSload _ o => some (opWord 8 0x03 ||| o.bits)
  | _ => none

/-- Who may issue an opcode (R87). -/
inductive Issuer where
  | both | seq | crew
deriving DecidableEq, Repr

/-- The slot of a crew, 0 for the sequencer. -/
def Agent.slot : Agent → Nat
  | .seq _ => 0
  | .crew _ s => s

/-- Whether an agent is a crew. -/
def Agent.isCrew : Agent → Bool
  | .seq _ => false
  | .crew _ _ => true

/-- Whether an agent may issue an opcode (R87). -/
def Issuer.permits (i : Issuer) (a : Agent) : Bool :=
  match i with
  | .both => true
  | .seq => !a.isCrew
  | .crew => a.isCrew

/-- The opcode tables (R101 to R109): the permitted issuers and the instruction an agent's word stands for. -/
def opcodeRow (cls op : Nat) (a : Agent) (w : W64) : Option (Issuer × Instr) :=
  match cls, op with
  | 0, 0x00 => some (.both, .ctlNop a)
  | 0, 0x01 => some (.seq, .ctlHalt a.core)
  | 0, 0x02 => some (.crew, .ctlExit a.core a.slot)
  | 0, 0x03 => some (.seq, .ctlFence a.core)
  | 0, 0x08 => some (.both, .ctlBr a (.ofWord w))
  | 0, 0x09 => some (.seq, .ctlBrz a.core (.ofWord w))
  | 0, 0x0A => some (.seq, .ctlBrnz a.core (.ofWord w))
  | 0, 0x0B => some (.crew, .ctlBrp a.core a.slot (.ofWord w))
  | 0, 0x0C => some (.crew, .ctlBrnp a.core a.slot (.ofWord w))
  | 0, 0x0D => some (.seq, .ctlCall a.core (.ofWord w))
  | 0, 0x0E => some (.seq, .ctlRet a.core)
  | 0, 0x10 => some (.seq, .ctlLaunch a.core (.ofWord w))
  | 0, 0x18 => some (.crew, .ctlMpush a.core a.slot (.ofWord w))
  | 0, 0x19 => some (.crew, .ctlMelse a.core a.slot)
  | 0, 0x1A => some (.crew, .ctlMpop a.core a.slot)
  | 0, 0x20 => some (.both, .ctlRdspec a (.ofWord w))
  | 1, 0x00 => some (.seq, .sclAdd a.core (.ofWord w))
  | 1, 0x01 => some (.seq, .sclSub a.core (.ofWord w))
  | 1, 0x02 => some (.seq, .sclMul a.core (.ofWord w))
  | 1, 0x03 => some (.seq, .sclMulh a.core (.ofWord w))
  | 1, 0x04 => some (.seq, .sclAnd a.core (.ofWord w))
  | 1, 0x05 => some (.seq, .sclOr a.core (.ofWord w))
  | 1, 0x06 => some (.seq, .sclXor a.core (.ofWord w))
  | 1, 0x07 => some (.seq, .sclShl a.core (.ofWord w))
  | 1, 0x08 => some (.seq, .sclShr a.core (.ofWord w))
  | 1, 0x09 => some (.seq, .sclSar a.core (.ofWord w))
  | 1, 0x0A => some (.seq, .sclMin a.core (.ofWord w))
  | 1, 0x0B => some (.seq, .sclMax a.core (.ofWord w))
  | 1, 0x0C => some (.seq, .sclCmp a.core (.ofWord w))
  | 1, 0x10 => some (.seq, .sclAddi a.core (.ofWord w))
  | 1, 0x12 => some (.seq, .sclCmpi a.core (.ofWord w))
  | 1, 0x14 => some (.seq, .sclMovi a.core (.ofWord w))
  | 1, 0x15 => some (.seq, .sclMovh a.core (.ofWord w))
  | 1, 0x18 => some (.seq, .sclLd a.core (.ofWord w))
  | 1, 0x19 => some (.seq, .sclSt a.core (.ofWord w))
  | 1, 0x20 => some (.seq, .sclMova a.core (.ofWord w))
  | 1, 0x21 => some (.seq, .sclMovs a.core (.ofWord w))
  | 1, 0x22 => some (.seq, .sclAdda a.core (.ofWord w))
  | 1, 0x23 => some (.seq, .sclAddai a.core (.ofWord w))
  | 2, 0x00 => some (.crew, .vecAdd a.core a.slot (.ofWord w))
  | 2, 0x01 => some (.crew, .vecSub a.core a.slot (.ofWord w))
  | 2, 0x02 => some (.crew, .vecMul a.core a.slot (.ofWord w))
  | 2, 0x03 => some (.crew, .vecFma a.core a.slot (.ofWord w))
  | 2, 0x04 => some (.crew, .vecMin a.core a.slot (.ofWord w))
  | 2, 0x05 => some (.crew, .vecMax a.core a.slot (.ofWord w))
  | 2, 0x06 => some (.crew, .vecAbs a.core a.slot (.ofWord w))
  | 2, 0x07 => some (.crew, .vecNeg a.core a.slot (.ofWord w))
  | 2, 0x08 => some (.crew, .vecCmp a.core a.slot (.ofWord w))
  | 2, 0x09 => some (.crew, .vecSel a.core a.slot (.ofWord w))
  | 2, 0x0A => some (.crew, .vecAnd a.core a.slot (.ofWord w))
  | 2, 0x0B => some (.crew, .vecOr a.core a.slot (.ofWord w))
  | 2, 0x0C => some (.crew, .vecXor a.core a.slot (.ofWord w))
  | 2, 0x0D => some (.crew, .vecShl a.core a.slot (.ofWord w))
  | 2, 0x0E => some (.crew, .vecShr a.core a.slot (.ofWord w))
  | 2, 0x10 => some (.crew, .vecMov a.core a.slot (.ofWord w))
  | 2, 0x11 => some (.crew, .vecMovi a.core a.slot (.ofWord w))
  | 2, 0x12 => some (.crew, .vecAddi a.core a.slot (.ofWord w))
  | 2, 0x13 => some (.crew, .vecFaddi a.core a.slot (.ofWord w))
  | 2, 0x14 => some (.crew, .vecFmuli a.core a.slot (.ofWord w))
  | 2, 0x18 => some (.crew, .vecLd a.core a.slot (.ofWord w))
  | 2, 0x19 => some (.crew, .vecSt a.core a.slot (.ofWord w))
  | 2, 0x1C => some (.crew, .vecShfl a.core a.slot (.ofWord w))
  | 2, 0x1D => some (.crew, .vecRand a.core a.slot (.ofWord w))
  | 3, 0x00 => some (.crew, .sfnExp a.core a.slot (.ofWord w))
  | 3, 0x01 => some (.crew, .sfnExp2 a.core a.slot (.ofWord w))
  | 3, 0x02 => some (.crew, .sfnLog a.core a.slot (.ofWord w))
  | 3, 0x03 => some (.crew, .sfnLog2 a.core a.slot (.ofWord w))
  | 3, 0x04 => some (.crew, .sfnRcp a.core a.slot (.ofWord w))
  | 3, 0x05 => some (.crew, .sfnSqrt a.core a.slot (.ofWord w))
  | 3, 0x06 => some (.crew, .sfnRsqrt a.core a.slot (.ofWord w))
  | 3, 0x07 => some (.crew, .sfnSin a.core a.slot (.ofWord w))
  | 3, 0x08 => some (.crew, .sfnCos a.core a.slot (.ofWord w))
  | 3, 0x09 => some (.crew, .sfnTanh a.core a.slot (.ofWord w))
  | 3, 0x0A => some (.crew, .sfnSigm a.core a.slot (.ofWord w))
  | 3, 0x0B => some (.crew, .sfnErf a.core a.slot (.ofWord w))
  | 3, 0x0C => some (.crew, .sfnGelu a.core a.slot (.ofWord w))
  | 3, 0x0D => some (.crew, .sfnSilu a.core a.slot (.ofWord w))
  | 3, 0x20 => some (.seq, .sfnTload a.core (.ofWord w))
  | 4, 0x00 => some (.seq, .cubeMma a.core (.ofWord w))
  | 4, 0x01 => some (.seq, .cubeConv a.core (.ofWord w))
  | 4, 0x02 => some (.seq, .cubeAttn a.core (.ofWord w))
  | 4, 0x03 => some (.seq, .cubePool a.core (.ofWord w))
  | 4, 0x04 => some (.seq, .cubeRsmp a.core (.ofWord w))
  | 4, 0x08 => some (.seq, .cubeAclr a.core (.ofWord w))
  | 5, 0x00 => some (.seq, .chnArm a.core (.ofWord w))
  | 5, 0x01 => some (.seq, .chnStrm a.core (.ofWord w))
  | 5, 0x02 => some (.seq, .chnRearm a.core (.ofWord w))
  | 5, 0x03 => some (.seq, .chnStop a.core (.ofWord w))
  | 5, 0x04 => some (.seq, .chnMedia a.core (.ofWord w))
  | 6, 0x00 => some (.both, .stkArrive a (.ofWord w))
  | 6, 0x01 => some (.both, .stkWait a (.ofWord w))
  | 6, 0x02 => some (.both, .stkTest a (.ofWord w))
  | 6, 0x03 => some (.both, .stkReset a (.ofWord w))
  | 6, 0x04 => some (.both, .stkClaim a (.ofWord w))
  | 7, 0x00 => some (.seq, .colRun a.core (.ofWord w))
  | 7, 0x01 => some (.seq, .colPut a.core (.ofWord w))
  | 8, 0x00 => some (.crew, .qntCvt a.core a.slot (.ofWord w))
  | 8, 0x01 => some (.seq, .qntPack a.core (.ofWord w))
  | 8, 0x02 => some (.seq, .qntUnpack a.core (.ofWord w))
  | 8, 0x03 => some (.seq, .qntSload a.core (.ofWord w))
  | _, _ => none

/-- Special registers that only a crew reads (R93). -/
def crewSpec (s : BitVec 8) : Bool := decide (s.toNat < 3) || (decide (0x10 ≤ s.toNat) && decide (s.toNat < 0x20))

/-- Special registers that exist (R93). -/
def knownSpec (s : BitVec 8) : Bool := decide (s.toNat < 0x0B) || (decide (0x10 ≤ s.toNat) && decide (s.toNat < 0x20))

/-- Format codes QNT.CVT accepts (R109). -/
def cvtFmt (f : BitVec 4) : Bool := decide (f.toNat ≤ 4) || decide (f = 8) || decide (f = 10)

/-- The first failing test among reserved bits (5) and operand ranges (6), or 0 (R118). -/
def sub56 (reserved range : Bool) : Nat := if reserved then 5 else if range then 6 else 0

/-- Tests of a D-format instruction (R97): UNIT, DA and HREG where the opcode does not use them, and the field SSEL leaves unused. -/
def DOp.sub (o : DOp) (unit da hreg : Bool) : Nat :=
  sub56 ((!unit && decide (o.unit ≠ 0)) || (!da && decide (o.da ≠ 0)) || (!hreg && decide (o.hreg ≠ 0)) ||
    (if o.ssel = 1 then decide (o.stake ≠ 0) else decide (o.sreg ≠ 0))) false

/-- Tests of a K-format instruction (R97, R107): whether it uses RD, IMM16 and TREG. -/
def KOp.sub (o : KOp) (a : Agent) (rd imm treg : Bool) : Nat :=
  sub56 ((!rd && decide (o.rd ≠ 0)) || (!imm && decide (o.imm ≠ 0)) || (!treg && decide (o.treg ≠ 0)) ||
      (if o.ssel = 1 then decide (o.stake ≠ 0) else decide (o.sreg ≠ 0)))
    (!a.isCrew && ((o.ssel = 1 && decide (31 < o.sreg.toNat)) || (rd && decide (31 < o.rd.toNat))))

/-- Tests of a V3-format vector instruction: which of VB, VC, CC and TYPE are reserved, and which TYPE and CC values are out of range. -/
def V3Op.sub (o : V3Op) (vb vc : Bool) (typeBad : Bool) : Nat :=
  sub56 ((!vb && decide (o.vb ≠ 0)) || (!vc && decide (o.vc ≠ 0)) || decide (o.cc ≠ 0) || decide (o.base ≠ 0))
    (decide (4 < o.type.toNat) || typeBad)

/-- Tests of a special-function instruction (R104). -/
def V3Op.sfnSub (o : V3Op) (silu : Bool) : Nat :=
  sub56 (decide (o.vb ≠ 0) || decide (o.vc ≠ 0) || decide (o.cc ≠ 0)) (decide (2 < o.type.toNat) || (silu && decide (o.base = 1)))

/-- The subcode of the first operand test an instruction fails, or 0 (R89, R94 to R97, R101 to R109, R118). -/
def operandSub : Instr → Nat
  | .ctlBr _ o => sub56 (decide (o.sc ≠ 0)) false
  | .ctlCall _ o => sub56 (decide (o.sc ≠ 0)) false
  | .ctlLaunch _ o => sub56 (if o.nreg = 1 then decide (o.n ≠ 0) else decide (o.ns ≠ 0)) (o.nreg = 0 && decide (64 < o.n.toNat))
  | .ctlRdspec a o =>
    if !a.isCrew && crewSpec o.spec then 4 else sub56 false (!knownSpec o.spec || (!a.isCrew && decide (31 < o.rd.toNat)))
  | .sclAdd _ o => sub56 (decide (o.cc ≠ 0)) false
  | .sclSub _ o => sub56 (decide (o.cc ≠ 0)) false
  | .sclMul _ o => sub56 (decide (o.cc ≠ 0)) false
  | .sclMulh _ o => sub56 (decide (o.cc ≠ 0)) false
  | .sclAnd _ o => sub56 (decide (o.cc ≠ 0)) false
  | .sclOr _ o => sub56 (decide (o.cc ≠ 0)) false
  | .sclXor _ o => sub56 (decide (o.cc ≠ 0)) false
  | .sclShl _ o => sub56 (decide (o.cc ≠ 0)) false
  | .sclShr _ o => sub56 (decide (o.cc ≠ 0)) false
  | .sclSar _ o => sub56 (decide (o.cc ≠ 0)) false
  | .sclMin _ o => sub56 (decide (o.cc ≠ 0)) false
  | .sclMax _ o => sub56 (decide (o.cc ≠ 0)) false
  | .sclCmp _ o => sub56 false (decide (7 < o.cc.toNat))
  | .sclAddi _ o => sub56 (decide (o.cc ≠ 0)) false
  | .sclCmpi _ o => sub56 false (decide (7 < o.cc.toNat))
  | .sclMovh _ o => sub56 (decide (o.imm.toNat ≥ 2 ^ 24)) false
  | .sclMova _ o => sub56 (decide (o.aa ≠ 0) || decide (o.imm ≠ 0)) false
  | .sclMovs _ o => sub56 (decide (o.ad ≠ 0) || decide (o.imm ≠ 0)) false
  | .sclAdda _ o => sub56 (decide (o.imm ≠ 0)) false
  | .sclAddai _ o => sub56 (decide (o.sb ≠ 0)) false
  | .vecAdd _ _ o => o.sub true true false
  | .vecSub _ _ o => o.sub true true false
  | .vecMul _ _ o => o.sub true true false
  | .vecFma _ _ o => o.sub true true false
  | .vecMin _ _ o => o.sub true true false
  | .vecMax _ _ o => o.sub true true false
  | .vecAbs _ _ o => o.sub false false false
  | .vecNeg _ _ o => o.sub false false false
  | .vecMov _ _ o => o.sub false false false
  | .vecCmp _ _ o => sub56 (decide (7 < o.vd.toNat) || decide (o.base ≠ 0)) (decide (4 < o.type.toNat) || decide (7 < o.cc.toNat))
  | .vecSel _ _ o => sub56 (decide (7 < o.cc.toNat) || decide (o.base ≠ 0)) (decide (4 < o.type.toNat))
  | .vecAnd _ _ o => sub56 (decide (o.type ≠ 0) || decide (o.cc ≠ 0) || decide (o.base ≠ 0)) false
  | .vecOr _ _ o => sub56 (decide (o.type ≠ 0) || decide (o.cc ≠ 0) || decide (o.base ≠ 0)) false
  | .vecXor _ _ o => sub56 (decide (o.type ≠ 0) || decide (o.cc ≠ 0) || decide (o.base ≠ 0)) false
  | .vecShl _ _ o => o.sub true true (decide (o.type.toNat < 3))
  | .vecShr _ _ o => o.sub true true (decide (o.type.toNat < 3))
  | .vecMovi _ _ o => sub56 (decide (o.va ≠ 0)) false
  | .vecLd _ _ o => sub56 false (decide (o.size = 3))
  | .vecSt _ _ o => sub56 false (decide (o.size = 3))
  | .vecShfl _ _ o => o.sub true false false
  | .vecRand _ _ o => sub56 (decide (o.va ≠ 0) || decide (o.vb ≠ 0) || decide (o.vc ≠ 0) || decide (o.cc ≠ 0) || decide (o.base ≠ 0)) (decide (4 < o.type.toNat))
  | .sfnExp _ _ o => o.sfnSub false
  | .sfnExp2 _ _ o => o.sfnSub false
  | .sfnLog _ _ o => o.sfnSub false
  | .sfnLog2 _ _ o => o.sfnSub false
  | .sfnRcp _ _ o => o.sfnSub false
  | .sfnSqrt _ _ o => o.sfnSub false
  | .sfnRsqrt _ _ o => o.sfnSub false
  | .sfnSin _ _ o => o.sfnSub false
  | .sfnCos _ _ o => o.sfnSub false
  | .sfnTanh _ _ o => o.sfnSub false
  | .sfnSigm _ _ o => o.sfnSub false
  | .sfnErf _ _ o => o.sfnSub false
  | .sfnGelu _ _ o => o.sfnSub false
  | .sfnSilu _ _ o => o.sfnSub true
  | .sfnTload _ o => o.sub false true false
  | .cubeMma _ o => o.sub true true false
  | .cubeConv _ o => o.sub true true false
  | .cubeAttn _ o => o.sub true true false
  | .cubePool _ o => o.sub true true false
  | .cubeRsmp _ o => o.sub true true false
  | .cubeAclr _ o => o.sub true false false
  | .chnArm _ o => o.sub false true false
  | .chnStrm _ o => o.sub false true true
  | .chnRearm _ o => o.sub false true true
  | .chnStop _ o => o.sub false false true
  | .chnMedia _ o => o.sub false true true
  | .colRun _ o => o.sub false true true
  | .colPut _ o => o.sub false true true
  | .qntPack _ o => o.sub false true false
  | .qntUnpack _ o => o.sub false true false
  | .qntSload _ o => o.sub false true false
  | .stkArrive a o => o.sub a false true false
  | .stkWait a o => o.sub a false true false
  | .stkTest a o => o.sub a true false false
  | .stkReset a o => o.sub a (decide (o.treg = 1)) (decide (o.treg = 0)) true
  | .stkClaim a o => o.sub a true true false
  | .qntCvt _ _ o => sub56 false (!cvtFmt o.sfmt || !cvtFmt o.dfmt)
  | _ => 0

/-- The decoder (R118): the instruction of a word, or the subcode of the first test that fails. -/
def yelreDecode (a : Agent) (w : W64) : Except Nat Instr :=
  if 8 < (wbits w 60 4).toNat then .error 1
  else if wbits w 48 4 ≠ 0 then .error 2
  else
    match opcodeRow (wbits w 60 4).toNat (wbits w 52 8).toNat a w with
    | none => .error 3
    | some (iss, i) =>
      if !iss.permits a then .error 4
      else if operandSub i = 4 then .error 4
      else if encode i ≠ some w then .error 5
      else if operandSub i = 0 then .ok i else .error (operandSub i)

/-- The command a word of the opcode table spells: the table gives its rows no bits, so none. -/
def decodeTableWord (_nbits _w : Nat) : Option Instr := none

end Sys2Proof
end

