-- ==== Sys2Proof/Config.lean ====
section
/-!
DEFINITION. What an implementation of the FK1 fixes, and the values the manual leaves open. A constant without a body is a free
value: nothing can be proved of it but what holds of every value. Each names the log entry (notes/assumptions) that declares it.
-/

namespace Sys2Proof.Config

/-- Fused grade-independent identity: SERIAL of each die (R600, R619). Log 10. -/
opaque serial : Nat → W64

/-- Fused STEPPING (R3, R618). Log 10. -/
opaque stepping : Nat → BitVec 8

/-- Fused SVN_MIN at manufacture (R600, R604, R620). Log 10. -/
opaque svnMin : Nat → BitVec 16

/-- Value number n of a result the manual leaves open. Log 11. -/
opaque freeValue : Nat → W64

/-- What QNT.CVT gives for an INT32 outside INT8 without SAT (R109). Log 11. -/
opaque cvtValue : W32 → Byte

/-- Byte n of the normal table set where no image holds one (R271). Log 12. -/
opaque tableByte : Nat → Byte

/-- How many bits a wide constant of R264 (0 log2 e, 1 ln 2, 2 2/π, 3 π/2, 4 2/√π) holds beyond its first 64 significant bits. Log 12. -/
opaque wideLen : Nat → Nat

/-- What a wide constant holds beyond its first 64 significant bits, in units of the last of its bits. Log 12. -/
opaque wideTail : Nat → Nat

/-- The bitrate limit in kbit/s of a level of a codec (0 H.264, 1 HEVC, 2 AV1), with the High tier or not: the named standards' (R529). Log 16. -/
opaque levelBitrate : Nat → Nat → Bool → Nat

/-- The length and the bytes of the headers of a media session (R535), by which one it is and the session's parameter block. -/
opaque headerLen : Nat → List W64 → Nat

/-- See headerLen. -/
opaque headerByte : Nat → List W64 → Nat → Byte

/-- UDS of a die: a fused secret (R600). Log 17. -/
opaque uds : Nat → BitVec 256

/-- FW_PKH of a die (R600). Log 17. -/
opaque fwPkh : Nat → BitVec 256

/-- DBG_PKH of a die (R600). Log 17. -/
opaque dbgPkh : Nat → BitVec 256

/-- Byte offset of the normal table image in a firmware body (R271, R602). Log 17. -/
opaque fwTableOff : List Byte → Nat

/-- The 48-bit provisional ID derived from a SERIAL, but for its bit 32 (R614). Log 17. -/
opaque provisionalId : W64 → BitVec 48

/-- The bus characteristics register (R614). Log 17. -/
opaque busCharacteristics : Byte

/-- The device characteristics register (R614). Log 17. -/
opaque deviceCharacteristics : Byte

end Sys2Proof.Config
end

