-- ==== Sys2Proof/Machine/RegTable.lean ====
section
/-!
DEFINITION. The register map of R20: every register of the manual with its place, its fields, their access codes (R23) and
their reset values, as the register tables of the chapters give them. The stake registers (R71 to R76) are read and written
through the stakes themselves (Machine/Stake.lean), and the error entries (R597) through the error rings.
-/

namespace Sys2Proof.Machine

/-- Access codes (R23). -/
inductive Access where
  | rw | ro | wo | w1c | rws | rwl
deriving DecidableEq, Repr

/-- Where a register lies (R20): a page of each core, a page of each HBM controller block, or a die block. -/
inductive RegScope where
  | core
  | hbm
  | block (b : Nat)
deriving DecidableEq, Repr

/-- One field of a register. -/
structure RegField where
  name : String
  hi : Nat
  lo : Nat
  acc : Access
  reset : Nat
deriving DecidableEq, Repr

/-- One row of the register map: `count` registers `stride` bytes apart from `base`; `die0` marks a register that only die 0
holds (the other dies read zero there); `width` is 32 or 64 bits. -/
structure RegRow where
  scope : RegScope
  base : Nat
  stride : Nat
  count : Nat
  width : Nat
  die0 : Bool
  fields : List RegField
deriving DecidableEq, Repr

/-- The registers of the manual by name. -/
inductive RegName where
  /-- STK_DUP_CLAIMS (01 R80). -/
  | stkDupClaims
  /-- CUBE_CTL (04 R188). -/
  | cubeCtl
  /-- CUBE_STATUS (04 R189). -/
  | cubeStatus
  /-- CUBE_STEPS (04 R190). -/
  | cubeSteps
  /-- CUBE_CLOSURE_STAT (04 R191). -/
  | cubeClosureStat
  /-- CUBE_ACC_ECC (04 R192). -/
  | cubeAccEcc
  /-- CUBE_FENCE (04 R193). -/
  | cubeFence
  /-- CHN_STATUS (05 R220). -/
  | chnStatus
  /-- CHN_BYTES (05 R221). -/
  | chnBytes
  /-- CHN_FAULT (05 R222). -/
  | chnFault
  /-- CHN_HOLD_STAT (05 R223). -/
  | chnHoldStat
  /-- CHN_STREAM (05 R224). -/
  | chnStream
  /-- CUBE_RELAY (06 R252). -/
  | cubeRelay
  /-- CUBE_RELAY_READY (06 R253). -/
  | cubeRelayReady
  /-- CUBE_HOOK_STAT (06 R254). -/
  | cubeHookStat
  /-- SFN_TABLE (07 R281). -/
  | sfnTable
  /-- SFN_LOAD (07 R282). -/
  | sfnLoad
  /-- VEC_STATUS (07 R283). -/
  | vecStatus
  /-- CUBE_CONV_STAT (08 R304). -/
  | cubeConvStat
  /-- KVS_LIST (09 R329). -/
  | kvsList
  /-- KVS_GEOM (09 R330). -/
  | kvsGeom
  /-- KVS_STAGE (09 R331). -/
  | kvsStage
  /-- KVS_EXPORT (09 R332). -/
  | kvsExport
  /-- KVS_REMOTE (09 R333). -/
  | kvsRemote
  /-- KVS_STAKES (09 R334). -/
  | kvsStakes
  /-- KVS_STATE (09 R335). -/
  | kvsState
  /-- KVS_STAT (09 R336). -/
  | kvsStat
  /-- QNT_SFILE (10 R356). -/
  | qntSfile
  /-- QNT_SCALE (10 R357). -/
  | qntScale
  /-- HBM_MAP (11 R394). -/
  | hbmMap
  /-- HBM_ERR_CTL (11 R395). -/
  | hbmErrCtl
  /-- HBM_THERM (11 R396). -/
  | hbmTherm
  /-- HBM_CHAN (11 R397). -/
  | hbmChan
  /-- HBM_CHAN_ECC (11 R398). -/
  | hbmChanEcc
  /-- RES_SLICE_CFG (11 R399). -/
  | resSliceCfg
  /-- RES_HOLD (11 R400). -/
  | resHold
  /-- RES_ARB (11 R401). -/
  | resArb
  /-- RES_SLICE_STAT (11 R402). -/
  | resSliceStat
  /-- HBM_RETIRE (11 R403). -/
  | hbmRetire
  /-- HBM_RETIRE_STAT (11 R404). -/
  | hbmRetireStat
  /-- UCI_LINK (12 R436). -/
  | uciLink
  /-- CMD_DOORBELL (12 R437). -/
  | cmdDoorbell
  /-- CMD_ARRIVE (12 R438). -/
  | cmdArrive
  /-- CMD_ADMIN_ARG (12 R439). -/
  | cmdAdminArg
  /-- CMD_ADMIN_REQ (12 R440). -/
  | cmdAdminReq
  /-- CMD_ADMIN_RESP (12 R441). -/
  | cmdAdminResp
  /-- CMD_CHAN_CTL (12 R442). -/
  | cmdChanCtl
  /-- CMD_SUBMIT (12 R443). -/
  | cmdSubmit
  /-- CMD_COMPL (12 R444). -/
  | cmdCompl
  /-- CMD_CHAN_STAT (12 R445). -/
  | cmdChanStat
  /-- CMD_EVT_CTL (12 R446). -/
  | cmdEvtCtl
  /-- CMD_EVT_PTR (12 R447). -/
  | cmdEvtPtr
  /-- CMD_EVT_FILTER (12 R448). -/
  | cmdEvtFilter
  /-- CMD_EVT_STAT (12 R449). -/
  | cmdEvtStat
  /-- PCL_STATE (13 R473). -/
  | pclState
  /-- PCL_CLUSTERS_LO (13 R474). -/
  | pclClustersLo
  /-- PCL_CLUSTERS_HI (13 R474). -/
  | pclClustersHi
  /-- PCL_STAT (13 R475). -/
  | pclStat
  /-- PCL_REBUILD (13 R476). -/
  | pclRebuild
  /-- CORE_SCHED (13 R477). -/
  | coreSched
  /-- SCH_CTL (13 R478). -/
  | schCtl
  /-- SCH_STAT (13 R479). -/
  | schStat
  /-- SCH_SLOT (13 R480). -/
  | schSlot
  /-- ZLK_CTL (14 R514). -/
  | zlkCtl
  /-- ZLK_STATUS (14 R515). -/
  | zlkStatus
  /-- ZLK_VC_CFG (14 R516). -/
  | zlkVcCfg
  /-- ZLK_ERR (14 R517). -/
  | zlkErr
  /-- ZLK_FEC (14 R518). -/
  | zlkFec
  /-- ZLK_ID (14 R519). -/
  | zlkId
  /-- ROS_STATE (14 R520). -/
  | rosState
  /-- ROS_TAG (14 R521). -/
  | rosTag
  /-- COL_STAT (14 R522). -/
  | colStat
  /-- MED_CTL (15 R550). -/
  | medCtl
  /-- MED_PIPE (15 R551). -/
  | medPipe
  /-- MED_STAT (15 R552). -/
  | medStat
  /-- MED_SESS (15 R553). -/
  | medSess
  /-- MED_RC (15 R554). -/
  | medRc
  /-- PCL_SEED (16 R573). -/
  | pclSeed
  /-- RNG_SEED (16 R574). -/
  | rngSeed
  /-- RNG_STAT (16 R575). -/
  | rngStat
  /-- ERR_CTL (17 R595). -/
  | errCtl
  /-- ERR_STAT (17 R596). -/
  | errStat
  /-- ERR_ENTRY_NUM (17 R597). -/
  | errEntryNum
  /-- ERR_ACK (17 R598). -/
  | errAck
  /-- ERR_CORE_RST (17 R599). -/
  | errCoreRst
  /-- ABW_ID (18 R618). -/
  | abwId
  /-- ABW_SERIAL (18 R619). -/
  | abwSerial
  /-- ABW_FEATURES (18 R619). -/
  | abwFeatures
  /-- ABW_PLUMB_SIG (18 R619). -/
  | abwPlumbSig
  /-- ABW_FW (18 R620). -/
  | abwFw
  /-- ABW_STATION (18 R621). -/
  | abwStation
  /-- ABW_IDKEY (18 R622). -/
  | abwIdkey
  /-- ABW_ENVELOPE (18 R623). -/
  | abwEnvelope
  /-- ABW_POWER (18 R624). -/
  | abwPower
  /-- ABW_TEMP (18 R625). -/
  | abwTemp
  /-- ABW_MEAS (18 R626). -/
  | abwMeas
  /-- ABW_REQ (18 R627). -/
  | abwReq
  /-- ABW_REQ_STAT (18 R628). -/
  | abwReqStat
  /-- ABW_BOOT (19 R655). -/
  | abwBoot
  /-- ABW_TRI (19 R656). -/
  | abwTri
  /-- PKG_RAIL (20 R677). -/
  | pkgRail
  /-- PKG_CLK (20 R678). -/
  | pkgClk
  /-- PKG_TRIP (20 R679). -/
  | pkgTrip
deriving DecidableEq, Repr

/-- All register names, in the order of the chapters. -/
def RegName.all : List RegName :=
  [.stkDupClaims, .cubeCtl, .cubeStatus, .cubeSteps, .cubeClosureStat, .cubeAccEcc,
   .cubeFence, .chnStatus, .chnBytes, .chnFault, .chnHoldStat, .chnStream,
   .cubeRelay, .cubeRelayReady, .cubeHookStat, .sfnTable, .sfnLoad, .vecStatus,
   .cubeConvStat, .kvsList, .kvsGeom, .kvsStage, .kvsExport, .kvsRemote,
   .kvsStakes, .kvsState, .kvsStat, .qntSfile, .qntScale, .hbmMap,
   .hbmErrCtl, .hbmTherm, .hbmChan, .hbmChanEcc, .resSliceCfg, .resHold,
   .resArb, .resSliceStat, .hbmRetire, .hbmRetireStat, .uciLink, .cmdDoorbell,
   .cmdArrive, .cmdAdminArg, .cmdAdminReq, .cmdAdminResp, .cmdChanCtl, .cmdSubmit,
   .cmdCompl, .cmdChanStat, .cmdEvtCtl, .cmdEvtPtr, .cmdEvtFilter, .cmdEvtStat,
   .pclState, .pclClustersLo, .pclClustersHi, .pclStat, .pclRebuild, .coreSched,
   .schCtl, .schStat, .schSlot, .zlkCtl, .zlkStatus, .zlkVcCfg,
   .zlkErr, .zlkFec, .zlkId, .rosState, .rosTag, .colStat,
   .medCtl, .medPipe, .medStat, .medSess, .medRc, .pclSeed,
   .rngSeed, .rngStat, .errCtl, .errStat, .errEntryNum, .errAck,
   .errCoreRst, .abwId, .abwSerial, .abwFeatures, .abwPlumbSig, .abwFw,
   .abwStation, .abwIdkey, .abwEnvelope, .abwPower, .abwTemp, .abwMeas,
   .abwReq, .abwReqStat, .abwBoot, .abwTri, .pkgRail, .pkgClk,
   .pkgTrip]

/-- The place and the fields of each register. -/
def RegName.row : RegName → RegRow
  | .stkDupClaims => ⟨.block 2, 0x40, 0x0, 1, 32, false,
      [⟨"COUNT", 31, 0, .rw, 0⟩]⟩
  | .cubeCtl => ⟨.core, 0x100, 0x40, 4, 32, false,
      [⟨"INJECT", 0, 0, .wo, 0⟩,
       ⟨"INJECT_REPLAY", 1, 1, .wo, 0⟩,
       ⟨"RAMP_HOLD", 15, 8, .rws, 0x40⟩]⟩
  | .cubeStatus => ⟨.core, 0x104, 0x40, 4, 32, false,
      [⟨"STATE", 1, 0, .ro, 0⟩,
       ⟨"LEVEL", 5, 2, .ro, 0⟩,
       ⟨"QUEUED", 8, 6, .ro, 0⟩,
       ⟨"BANKS", 15, 9, .ro, 0⟩,
       ⟨"REPLAYING", 16, 16, .ro, 0⟩]⟩
  | .cubeSteps => ⟨.core, 0x108, 0x40, 4, 64, false,
      [⟨"COMMITTED", 47, 0, .ro, 0⟩,
       ⟨"STALLS", 63, 48, .rw, 0⟩]⟩
  | .cubeClosureStat => ⟨.core, 0x110, 0x40, 4, 32, false,
      [⟨"REPLAYS", 15, 0, .rw, 0⟩,
       ⟨"UNCHECKED", 31, 16, .rw, 0⟩]⟩
  | .cubeAccEcc => ⟨.core, 0x114, 0x40, 4, 32, false,
      [⟨"CORRECTED", 15, 0, .rw, 0⟩]⟩
  | .cubeFence => ⟨.core, 0xf0, 0x0, 1, 32, false,
      [⟨"FENCED", 0, 0, .ro, 0⟩,
       ⟨"CAUSE", 2, 1, .ro, 0⟩,
       ⟨"FENCE_REQ", 3, 3, .wo, 0⟩,
       ⟨"REPLAY_LIMIT", 15, 8, .rwl, 8⟩,
       ⟨"WINDOW", 31, 16, .rwl, 0x4000⟩]⟩
  | .chnStatus => ⟨.core, 0x200, 0x0, 1, 32, false,
      [⟨"INFLIGHT", 2, 0, .ro, 0⟩,
       ⟨"QUEUED", 7, 3, .ro, 0⟩,
       ⟨"LINES_RD", 15, 8, .ro, 0⟩,
       ⟨"LINES_WR", 22, 16, .ro, 0⟩,
       ⟨"STOPPED", 23, 23, .ro, 0⟩]⟩
  | .chnBytes => ⟨.core, 0x208, 0x0, 1, 64, false,
      [⟨"READ_KIB", 31, 0, .rw, 0⟩,
       ⟨"WRITE_KIB", 63, 32, .rw, 0⟩]⟩
  | .chnFault => ⟨.core, 0x210, 0x0, 1, 32, false,
      [⟨"VALID", 0, 0, .w1c, 0⟩,
       ⟨"IS_STREAM", 1, 1, .ro, 0⟩,
       ⟨"SLOT", 4, 2, .ro, 0⟩,
       ⟨"ENTRY", 20, 8, .ro, 0⟩]⟩
  | .chnHoldStat => ⟨.core, 0x218, 0x0, 1, 64, false,
      [⟨"REFUSED", 31, 0, .rw, 0⟩]⟩
  | .chnStream => ⟨.core, 0x240, 0x8, 8, 64, false,
      [⟨"STATE", 1, 0, .ro, 0⟩,
       ⟨"PENDING", 6, 2, .ro, 0⟩,
       ⟨"PASSES", 63, 32, .rw, 0⟩]⟩
  | .cubeRelay => ⟨.core, 0xe0, 0x0, 1, 32, false,
      [⟨"BASE", 8, 0, .rws, 0⟩,
       ⟨"SIZE", 24, 16, .rws, 0⟩]⟩
  | .cubeRelayReady => ⟨.core, 0xe8, 0x0, 1, 64, false,
      [⟨"READY", 63, 0, .ro, 0⟩]⟩
  | .cubeHookStat => ⟨.core, 0xf8, 0x0, 1, 64, false,
      [⟨"HOOK_LAUNCHES", 15, 0, .rw, 0⟩,
       ⟨"RELAY_STALLS", 31, 16, .rw, 0⟩,
       ⟨"LEDGER_WAITS", 47, 32, .rw, 0⟩]⟩
  | .sfnTable => ⟨.core, 0x300, 0x0, 1, 64, false,
      [⟨"NORMAL_SET", 31, 0, .ro, 0⟩,
       ⟨"BASE_SET", 63, 32, .ro, 0⟩]⟩
  | .sfnLoad => ⟨.core, 0x308, 0x0, 1, 64, false,
      [⟨"BASE_GEN", 7, 0, .ro, 0⟩,
       ⟨"PENDING", 9, 8, .ro, 0⟩,
       ⟨"DRAINING", 10, 10, .ro, 0⟩,
       ⟨"LOADS", 47, 32, .rw, 0⟩]⟩
  | .vecStatus => ⟨.core, 0x310, 0x0, 1, 32, false,
      [⟨"CREWS", 6, 0, .ro, 0⟩,
       ⟨"LAUNCHES", 11, 8, .ro, 0⟩,
       ⟨"FAULTS", 31, 16, .rw, 0⟩]⟩
  | .cubeConvStat => ⟨.core, 0x118, 0x40, 4, 32, false,
      [⟨"PRUNED", 31, 0, .rw, 0⟩]⟩
  | .kvsList => ⟨.block 2, 0x400000, 0x40, 4096, 64, false,
      [⟨"LIST_ADDR", 51, 0, .rw, 0⟩]⟩
  | .kvsGeom => ⟨.block 2, 0x400008, 0x40, 4096, 64, false,
      [⟨"PAGE_TOKENS", 2, 0, .rw, 0⟩,
       ⟨"D", 11, 3, .rw, 0⟩,
       ⟨"KV_FMT", 15, 12, .rw, 0⟩,
       ⟨"STAGE_PAGES", 20, 16, .rw, 0⟩,
       ⟨"LIST_LEN", 63, 32, .rw, 0⟩]⟩
  | .kvsStage => ⟨.block 2, 0x400010, 0x40, 4096, 64, false,
      [⟨"STAGE_ADDR", 51, 0, .rw, 0⟩]⟩
  | .kvsExport => ⟨.block 2, 0x400018, 0x40, 4096, 64, false,
      [⟨"EXPORT_EN", 0, 0, .rw, 0⟩,
       ⟨"PORT", 1, 1, .rw, 0⟩,
       ⟨"VC", 4, 2, .rw, 0⟩,
       ⟨"MEMBER", 23, 8, .rw, 0⟩,
       ⟨"GROUP", 63, 32, .rw, 0⟩]⟩
  | .kvsRemote => ⟨.block 2, 0x400020, 0x40, 4096, 64, false,
      [⟨"REMOTE_BASE", 51, 0, .rw, 0⟩]⟩
  | .kvsStakes => ⟨.block 2, 0x400028, 0x40, 4096, 64, false,
      [⟨"PAGE_STAKE", 16, 0, .rw, 0⟩,
       ⟨"PAGE_STAKE_EN", 17, 17, .rw, 0⟩,
       ⟨"EXPORT_STAKE", 48, 32, .rw, 0⟩,
       ⟨"EXPORT_STAKE_EN", 49, 49, .rw, 0⟩]⟩
  | .kvsState => ⟨.block 2, 0x400030, 0x40, 4096, 64, false,
      [⟨"STATE", 1, 0, .ro, 0⟩,
       ⟨"EXPORT_FAILED", 2, 2, .ro, 0⟩,
       ⟨"FLUSHED", 31, 8, .ro, 0⟩,
       ⟨"EXPORTED", 55, 32, .ro, 0⟩]⟩
  | .kvsStat => ⟨.block 2, 0x200, 0x0, 1, 64, false,
      [⟨"APPEND_STALLS", 31, 0, .rw, 0⟩,
       ⟨"DUP_APPENDS", 47, 32, .rw, 0⟩,
       ⟨"KEY_WAITS", 55, 48, .rw, 0⟩,
       ⟨"EXPQ0", 59, 56, .ro, 0⟩,
       ⟨"EXPQ1", 63, 60, .ro, 0⟩]⟩
  | .qntSfile => ⟨.core, 0x320, 0x0, 1, 64, false,
      [⟨"SCALE_GEN", 7, 0, .ro, 0⟩,
       ⟨"ACTIVE", 8, 8, .ro, 0⟩,
       ⟨"PENDING", 10, 9, .ro, 0⟩,
       ⟨"DRAINING", 11, 11, .ro, 0⟩,
       ⟨"QUEUED", 14, 12, .ro, 0⟩,
       ⟨"LOADS", 47, 32, .rw, 0⟩]⟩
  | .qntScale => ⟨.core, 0x4000, 0x4, 4096, 32, false,
      [⟨"VALUE", 31, 0, .ro, 0x3f800000⟩]⟩
  | .hbmMap => ⟨.block 0, 0x0, 0x0, 1, 32, false,
      [⟨"MODE", 1, 0, .rw, 0⟩,
       ⟨"STRIPE_GIB", 14, 8, .rw, 0⟩]⟩
  | .hbmErrCtl => ⟨.block 0, 0x10, 0x0, 1, 32, false,
      [⟨"MARK_LIMIT", 7, 0, .rwl, 0x20⟩,
       ⟨"UE_LIMIT", 15, 8, .rwl, 0x10⟩,
       ⟨"WINDOW", 23, 16, .rwl, 0xff⟩,
       ⟨"SCRUB_HOURS", 31, 24, .rwl, 0x18⟩]⟩
  | .hbmTherm => ⟨.hbm, 0x100, 0x0, 1, 64, false,
      [⟨"TEMP", 7, 0, .ro, 0⟩,
       ⟨"LIMIT", 15, 8, .ro, 0⟩,
       ⟨"LEVEL", 18, 16, .ro, 0⟩,
       ⟨"HYST", 27, 24, .rwl, 5⟩,
       ⟨"THROTTLED", 63, 32, .rw, 0⟩]⟩
  | .hbmChan => ⟨.hbm, 0x1000, 0x100, 16, 32, false,
      [⟨"LIVE", 0, 0, .ro, 0⟩,
       ⟨"FAILING", 1, 1, .ro, 0⟩,
       ⟨"MAPPED_OUT", 2, 2, .ro, 0⟩,
       ⟨"TRAIN_FAIL", 3, 3, .ro, 0⟩,
       ⟨"MARKED", 5, 4, .ro, 0⟩,
       ⟨"LANE_A", 12, 6, .ro, 0⟩,
       ⟨"LANE_B", 19, 13, .ro, 0⟩]⟩
  | .hbmChanEcc => ⟨.hbm, 0x1008, 0x100, 16, 64, false,
      [⟨"CORRECTED", 31, 0, .rw, 0⟩,
       ⟨"UNCORRECTED", 47, 32, .rw, 0⟩]⟩
  | .resSliceCfg => ⟨.block 2, 0x200000, 0x0, 1, 32, false,
      [⟨"SCRATCH", 15, 0, .rw, 0⟩,
       ⟨"BUSY", 16, 16, .ro, 0⟩]⟩
  | .resHold => ⟨.block 2, 0x200008, 0x0, 1, 64, false,
      [⟨"WAYS", 3, 0, .rws, 8⟩,
       ⟨"RELEASE_ALL", 4, 4, .wo, 0⟩,
       ⟨"RELEASING", 5, 5, .ro, 0⟩,
       ⟨"HELD", 63, 32, .ro, 0⟩]⟩
  | .resArb => ⟨.block 2, 0x200010, 0x0, 1, 32, false,
      [⟨"W_MEDIA", 3, 0, .rwl, 2⟩,
       ⟨"W_LINK", 7, 4, .rwl, 2⟩,
       ⟨"W_UCIE", 11, 8, .rwl, 2⟩,
       ⟨"W_CORE", 15, 12, .rwl, 3⟩]⟩
  | .resSliceStat => ⟨.block 2, 0x201000, 0x40, 16, 64, false,
      [⟨"CREDIT_STALLS", 31, 0, .rw, 0⟩,
       ⟨"CORRECTED", 47, 32, .rw, 0⟩,
       ⟨"REFETCHES", 63, 48, .rw, 0⟩]⟩
  | .hbmRetire => ⟨.block 2, 0x300000, 0x8, 4096, 64, false,
      [⟨"VALID", 0, 0, .rw, 0⟩,
       ⟨"SPACE", 1, 1, .rw, 0⟩,
       ⟨"FRAME", 29, 2, .rw, 0⟩]⟩
  | .hbmRetireStat => ⟨.block 2, 0x308000, 0x0, 1, 32, false,
      [⟨"VALID_ENTRIES", 12, 0, .ro, 0⟩,
       ⟨"REFUSED", 31, 16, .rw, 0⟩]⟩
  | .uciLink => ⟨.block 3, 0x0, 0x100, 4, 64, false,
      [⟨"STATE", 2, 0, .ro, 0⟩,
       ⟨"MODE", 3, 3, .ro, 0⟩,
       ⟨"HALF", 4, 4, .ro, 0⟩,
       ⟨"PEER", 5, 5, .ro, 0⟩,
       ⟨"REPAIRED", 31, 16, .ro, 0⟩,
       ⟨"RETRIES", 47, 32, .rw, 0⟩,
       ⟨"RETRAINS", 63, 48, .rw, 0⟩]⟩
  | .cmdDoorbell => ⟨.block 3, 0x10000, 0x8, 256, 64, false,
      [⟨"TAIL", 31, 0, .wo, 0⟩]⟩
  | .cmdArrive => ⟨.block 3, 0x20020, 0x0, 1, 64, false,
      [⟨"STAKE", 16, 0, .wo, 0⟩,
       ⟨"INCREMENT", 47, 32, .wo, 0⟩]⟩
  | .cmdAdminArg => ⟨.block 3, 0x20000, 0x0, 1, 64, true,
      [⟨"ADDR", 51, 0, .rw, 0⟩]⟩
  | .cmdAdminReq => ⟨.block 3, 0x20008, 0x0, 1, 64, true,
      [⟨"OP", 3, 0, .wo, 0⟩,
       ⟨"ANY", 4, 4, .wo, 0⟩,
       ⟨"TYPE", 15, 8, .wo, 0⟩,
       ⟨"INDEX", 31, 16, .wo, 0⟩,
       ⟨"HANDLE", 63, 32, .wo, 0⟩]⟩
  | .cmdAdminResp => ⟨.block 3, 0x20010, 0x0, 1, 64, true,
      [⟨"BUSY", 0, 0, .ro, 0⟩,
       ⟨"DONE", 1, 1, .ro, 0⟩,
       ⟨"FAULT", 15, 8, .ro, 0⟩,
       ⟨"HANDLE", 63, 32, .ro, 0⟩]⟩
  | .cmdChanCtl => ⟨.block 3, 0x100000, 0x40, 256, 64, false,
      [⟨"STATE", 1, 0, .ro, 0⟩,
       ⟨"NOTIFY", 2, 2, .rwl, 0⟩,
       ⟨"EVENT", 3, 3, .rwl, 0⟩,
       ⟨"DB_EVENT", 4, 4, .rwl, 0⟩,
       ⟨"GEN", 15, 8, .ro, 0⟩,
       ⟨"SUBMIT_ORDER", 20, 16, .ro, 0⟩,
       ⟨"COMPL_ORDER", 25, 21, .ro, 0⟩,
       ⟨"PARCEL", 63, 32, .ro, 0⟩]⟩
  | .cmdSubmit => ⟨.block 3, 0x100008, 0x40, 256, 64, false,
      [⟨"HEAD", 31, 0, .ro, 0⟩,
       ⟨"TAIL", 63, 32, .ro, 0⟩]⟩
  | .cmdCompl => ⟨.block 3, 0x100010, 0x40, 256, 64, false,
      [⟨"TAIL", 31, 0, .ro, 0⟩,
       ⟨"HEAD", 63, 32, .rw, 0⟩]⟩
  | .cmdChanStat => ⟨.block 3, 0x100018, 0x40, 256, 64, false,
      [⟨"STARTED", 4, 0, .ro, 0⟩,
       ⟨"BAD_DOORBELLS", 31, 16, .rw, 0⟩,
       ⟨"COMMANDS", 63, 32, .rw, 0⟩]⟩
  | .cmdEvtCtl => ⟨.block 7, 0x10000, 0x0, 1, 64, true,
      [⟨"BASE", 51, 0, .rw, 0⟩,
       ⟨"ORDER", 56, 52, .rw, 0⟩,
       ⟨"ENABLE", 57, 57, .rw, 0⟩]⟩
  | .cmdEvtPtr => ⟨.block 7, 0x10008, 0x0, 1, 64, true,
      [⟨"TAIL", 31, 0, .ro, 0⟩,
       ⟨"HEAD", 63, 32, .rw, 0⟩]⟩
  | .cmdEvtFilter => ⟨.block 7, 0x10010, 0x0, 1, 32, true,
      [⟨"CLASS1_4", 3, 0, .ro, 0xf⟩,
       ⟨"CLASS5_9", 8, 4, .rwl, 0x1f⟩]⟩
  | .cmdEvtStat => ⟨.block 7, 0x10018, 0x0, 1, 64, true,
      [⟨"DROPPED", 31, 0, .rw, 0⟩,
       ⟨"OVERFLOW", 32, 32, .w1c, 0⟩]⟩
  | .pclState => ⟨.block 3, 0x40000, 0x40, 64, 64, true,
      [⟨"STATE", 1, 0, .ro, 0⟩,
       ⟨"GEN", 15, 8, .ro, 0⟩,
       ⟨"PLUMB", 16, 16, .ro, 0⟩,
       ⟨"SHARED", 17, 17, .ro, 0⟩,
       ⟨"PREEMPTIBLE", 18, 18, .ro, 0⟩,
       ⟨"TENANTS", 23, 19, .ro, 0⟩,
       ⟨"OCCUPANT", 31, 24, .ro, 0xff⟩,
       ⟨"CORES", 42, 32, .ro, 0⟩]⟩
  | .pclClustersLo => ⟨.block 3, 0x40008, 0x40, 64, 64, true,
      [⟨"CLUSTERS", 47, 0, .ro, 0⟩]⟩
  | .pclClustersHi => ⟨.block 3, 0x40010, 0x40, 64, 64, true,
      [⟨"CLUSTERS", 47, 0, .ro, 0⟩]⟩
  | .pclStat => ⟨.block 3, 0x40018, 0x40, 64, 64, true,
      [⟨"PARTS", 31, 0, .rw, 0⟩,
       ⟨"PREEMPTIONS", 47, 32, .rw, 0⟩,
       ⟨"SWAPS", 63, 48, .rw, 0⟩]⟩
  | .pclRebuild => ⟨.block 3, 0x30000, 0x0, 1, 32, false,
      [⟨"ACTIVE", 0, 0, .rw, 0⟩,
       ⟨"BUSY", 1, 1, .ro, 0⟩,
       ⟨"LIVE", 13, 8, .ro, 0⟩]⟩
  | .coreSched => ⟨.core, 0x400, 0x0, 1, 64, false,
      [⟨"STATE", 1, 0, .ro, 0⟩,
       ⟨"HELD", 2, 2, .ro, 0⟩,
       ⟨"PARCEL", 8, 3, .ro, 0⟩,
       ⟨"OWNED", 9, 9, .ro, 0⟩,
       ⟨"LANES", 16, 10, .ro, 0x40⟩,
       ⟨"TAG_VALID", 17, 17, .rw, 0⟩,
       ⟨"TAG_CHANNEL", 25, 18, .ro, 0⟩,
       ⟨"TAG_PART", 30, 26, .ro, 0⟩,
       ⟨"PRIORITY", 33, 32, .ro, 0⟩]⟩
  | .schCtl => ⟨.block 3, 0x50000, 0x0, 1, 32, true,
      [⟨"ENABLE", 0, 0, .rwl, 0⟩,
       ⟨"ACTIVE_BANK", 1, 1, .ro, 0⟩,
       ⟨"SWITCH", 2, 2, .wo, 0⟩,
       ⟨"SWITCH_PENDING", 3, 3, .ro, 0⟩,
       ⟨"COUNT0", 15, 8, .rw, 0⟩,
       ⟨"COUNT1", 23, 16, .rw, 0⟩]⟩
  | .schStat => ⟨.block 3, 0x50008, 0x0, 1, 64, true,
      [⟨"SLOT", 7, 0, .ro, 0⟩,
       ⟨"OVERRUNS", 31, 16, .rw, 0⟩,
       ⟨"CYCLES", 63, 32, .ro, 0⟩]⟩
  | .schSlot => ⟨.block 3, 0x51000, 0x8, 512, 64, true,
      [⟨"TICKS", 23, 0, .rw, 1⟩,
       ⟨"NAMED", 24, 24, .rw, 0⟩,
       ⟨"EVENT", 25, 25, .rw, 0⟩,
       ⟨"CHANNEL", 39, 32, .rw, 0⟩]⟩
  | .zlkCtl => ⟨.block 4, 0x0, 0x1000, 2, 64, false,
      [⟨"TRAIN", 0, 0, .wo, 0⟩,
       ⟨"STOP", 1, 1, .wo, 0⟩,
       ⟨"VERSIONS", 3, 2, .rw, 3⟩,
       ⟨"ALLOW_HALF", 4, 4, .rw, 1⟩,
       ⟨"CHUNK_RETRIES", 15, 8, .rwl, 3⟩,
       ⟨"ACK_TIMEOUT", 31, 16, .rwl, 0x800⟩,
       ⟨"LANE_LIMIT", 39, 32, .rwl, 0x40⟩]⟩
  | .zlkStatus => ⟨.block 4, 0x8, 0x1000, 2, 64, false,
      [⟨"STATE", 2, 0, .ro, 0⟩,
       ⟨"VERSION", 3, 3, .ro, 0⟩,
       ⟨"HALF", 4, 4, .ro, 0⟩,
       ⟨"UPPER", 5, 5, .ro, 0⟩,
       ⟨"LANE_FAIL", 15, 8, .ro, 0⟩,
       ⟨"PEER_ZID", 31, 16, .ro, 0⟩]⟩
  | .zlkVcCfg => ⟨.block 4, 0x10, 0x1000, 2, 64, false,
      [⟨"CREDITS_0", 7, 0, .rw, 0x18⟩,
       ⟨"CREDITS_1", 15, 8, .rw, 0x18⟩,
       ⟨"CREDITS_2", 23, 16, .rw, 0x18⟩,
       ⟨"CREDITS_3", 31, 24, .rw, 0x18⟩,
       ⟨"CREDITS_4", 39, 32, .rw, 0x18⟩,
       ⟨"CREDITS_5", 47, 40, .rw, 0x18⟩,
       ⟨"CREDITS_6", 55, 48, .rw, 0x18⟩,
       ⟨"CREDITS_7", 63, 56, .rw, 0x18⟩]⟩
  | .zlkErr => ⟨.block 4, 0x18, 0x1000, 2, 64, false,
      [⟨"REPLAYS", 15, 0, .rw, 0⟩,
       ⟨"RESENDS", 31, 16, .rw, 0⟩,
       ⟨"REFUSED", 47, 32, .rw, 0⟩,
       ⟨"DEGRADES", 63, 48, .rw, 0⟩]⟩
  | .zlkFec => ⟨.block 4, 0x20, 0x1000, 2, 64, false,
      [⟨"CORRECTED", 31, 0, .rw, 0⟩,
       ⟨"UNCORRECTED", 63, 32, .rw, 0⟩]⟩
  | .zlkId => ⟨.block 4, 0x8000, 0x0, 1, 32, true,
      [⟨"ZID", 15, 0, .rw, 0⟩]⟩
  | .rosState => ⟨.block 4, 0x10000, 0x40, 256, 64, true,
      [⟨"STATE", 1, 0, .ro, 0⟩,
       ⟨"GEN", 15, 8, .ro, 0⟩,
       ⟨"COUNT", 28, 16, .ro, 0⟩,
       ⟨"SELF", 43, 32, .ro, 0⟩,
       ⟨"TOP", 45, 44, .ro, 0⟩]⟩
  | .rosTag => ⟨.block 4, 0x10008, 0x40, 256, 64, true,
      [⟨"GROUP_TAG", 31, 0, .ro, 0⟩,
       ⟨"SEQ", 63, 32, .ro, 0⟩]⟩
  | .colStat => ⟨.block 4, 0x8100, 0x0, 1, 64, false,
      [⟨"QUEUED", 6, 0, .ro, 0⟩,
       ⟨"RUNNING", 11, 7, .ro, 0⟩,
       ⟨"FAILED", 31, 16, .rw, 0⟩]⟩
  | .medCtl => ⟨.block 5, 0x0, 0x0, 1, 32, false,
      [⟨"LIVE_LIMIT", 7, 0, .rwl, 0x5a⟩]⟩
  | .medPipe => ⟨.block 5, 0x10, 0x8, 2, 64, false,
      [⟨"STATE", 1, 0, .ro, 0⟩,
       ⟨"HELD", 2, 2, .ro, 0⟩,
       ⟨"SESSION", 12, 8, .ro, 0⟩,
       ⟨"LIVE_LOAD", 25, 16, .ro, 0⟩,
       ⟨"FRAMES", 63, 32, .rw, 0⟩]⟩
  | .medStat => ⟨.block 5, 0x20, 0x0, 1, 64, false,
      [⟨"MISSED", 15, 0, .rw, 0⟩,
       ⟨"LATE", 31, 16, .rw, 0⟩,
       ⟨"FALLBACKS", 47, 32, .rw, 0⟩,
       ⟨"PREEMPTIONS", 63, 48, .rw, 0⟩]⟩
  | .medSess => ⟨.block 5, 0x1000, 0x40, 32, 64, false,
      [⟨"STATE", 1, 0, .ro, 0⟩,
       ⟨"DIR", 2, 2, .ro, 0⟩,
       ⟨"CODEC", 4, 3, .ro, 0⟩,
       ⟨"PRIORITY", 6, 5, .ro, 0⟩,
       ⟨"GEN", 15, 8, .ro, 0⟩,
       ⟨"QUEUED", 19, 16, .ro, 0⟩,
       ⟨"FRAME", 63, 32, .ro, 0⟩]⟩
  | .medRc => ⟨.block 5, 0x1008, 0x40, 32, 64, false,
      [⟨"QP", 7, 0, .ro, 0⟩,
       ⟨"STAGE", 9, 8, .ro, 0⟩,
       ⟨"FULLNESS", 63, 32, .ro, 0⟩]⟩
  | .pclSeed => ⟨.block 3, 0x40020, 0x40, 64, 64, true,
      [⟨"SEED", 63, 0, .rw, 0⟩]⟩
  | .rngSeed => ⟨.core, 0x340, 0x0, 1, 64, false,
      [⟨"SEED", 63, 0, .ro, 0⟩]⟩
  | .rngStat => ⟨.core, 0x348, 0x0, 1, 64, false,
      [⟨"DRAWS", 31, 0, .rw, 0⟩,
       ⟨"SEEDINGS", 47, 32, .rw, 0⟩,
       ⟨"PLUMB", 48, 48, .ro, 0⟩]⟩
  | .errCtl => ⟨.block 7, 0x0, 0x0, 1, 32, false,
      [⟨"ALERT_SEV", 2, 0, .rwl, 2⟩,
       ⟨"LANE_CE_LIMIT", 15, 8, .rwl, 0x10⟩,
       ⟨"LANE_WINDOW", 23, 16, .rwl, 0x40⟩]⟩
  | .errStat => ⟨.block 7, 0x8, 0x0, 1, 64, false,
      [⟨"VALID", 6, 0, .ro, 0⟩,
       ⟨"TOP_SEV", 9, 8, .ro, 0⟩,
       ⟨"OVERFLOW", 10, 10, .w1c, 0⟩,
       ⟨"HALTED", 11, 11, .ro, 0⟩,
       ⟨"DROPPED", 31, 16, .rw, 0⟩,
       ⟨"NUMBER", 63, 32, .ro, 0⟩]⟩
  | .errEntryNum => ⟨.block 7, 0x800, 0x4, 64, 32, false,
      [⟨"NUMBER", 31, 0, .ro, 0⟩]⟩
  | .errAck => ⟨.block 7, 0x10, 0x0, 1, 32, false,
      [⟨"INDEX", 5, 0, .wo, 0⟩,
       ⟨"ALL", 6, 6, .wo, 0⟩]⟩
  | .errCoreRst => ⟨.block 7, 0x20, 0x0, 1, 32, false,
      [⟨"CORE", 7, 0, .wo, 0⟩,
       ⟨"GO", 8, 8, .wo, 0⟩,
       ⟨"BUSY", 9, 9, .ro, 0⟩,
       ⟨"PASSED", 10, 10, .ro, 0⟩]⟩
  | .abwId => ⟨.block 6, 0x0, 0x0, 1, 64, false,
      [⟨"DIES", 3, 0, .ro, 0⟩,
       ⟨"GRADE", 4, 4, .ro, 0⟩,
       ⟨"STEPPING", 15, 8, .ro, 0⟩,
       ⟨"DIE", 18, 16, .ro, 0⟩]⟩
  | .abwSerial => ⟨.block 6, 0x8, 0x0, 1, 64, false,
      [⟨"SERIAL", 63, 0, .ro, 0⟩]⟩
  | .abwFeatures => ⟨.block 6, 0x10, 0x0, 1, 64, false,
      [⟨"FEATURES", 63, 0, .ro, 0x3fff⟩]⟩
  | .abwPlumbSig => ⟨.block 6, 0x18, 0x0, 1, 64, false,
      [⟨"PLUMB_SIG", 63, 0, .ro, 0⟩]⟩
  | .abwFw => ⟨.block 6, 0x20, 0x0, 1, 64, false,
      [⟨"FW_VERSION", 31, 0, .ro, 0⟩,
       ⟨"SVN", 47, 32, .ro, 0⟩,
       ⟨"SVN_MIN", 63, 48, .ro, 0⟩]⟩
  | .abwStation => ⟨.block 6, 0x28, 0x0, 1, 32, false,
      [⟨"STATE", 2, 0, .ro, 0⟩,
       ⟨"TEST", 3, 3, .ro, 0⟩,
       ⟨"JTAG_PRIV", 4, 4, .ro, 0⟩,
       ⟨"CODE", 15, 8, .ro, 0⟩]⟩
  | .abwIdkey => ⟨.block 6, 0x40, 0x8, 4, 64, true,
      [⟨"HASH", 63, 0, .ro, 0⟩]⟩
  | .abwEnvelope => ⟨.block 6, 0x100, 0x0, 1, 64, true,
      [⟨"CLUSTERS", 3, 0, .rw, 0xc⟩,
       ⟨"LIMIT_W", 27, 16, .rwl, 0⟩,
       ⟨"CAP_LEVEL", 35, 32, .ro, 8⟩]⟩
  | .abwPower => ⟨.block 6, 0x108, 0x0, 1, 64, true,
      [⟨"PKG_W", 15, 0, .ro, 0⟩,
       ⟨"PEAK_W", 31, 16, .rw, 0⟩,
       ⟨"CAPPED", 63, 32, .rw, 0⟩]⟩
  | .abwTemp => ⟨.block 6, 0x110, 0x0, 1, 32, false,
      [⟨"HOT", 7, 0, .ro, 0⟩,
       ⟨"ALARM_C", 15, 8, .rwl, 0x5f⟩]⟩
  | .abwMeas => ⟨.block 6, 0x200, 0x8, 32, 64, true,
      [⟨"VALUE", 63, 0, .ro, 0⟩]⟩
  | .abwReq => ⟨.block 6, 0x300, 0x0, 1, 64, true,
      [⟨"ADDR", 51, 0, .wo, 0⟩,
       ⟨"OP", 53, 52, .wo, 0⟩,
       ⟨"SLOT", 56, 54, .wo, 0⟩]⟩
  | .abwReqStat => ⟨.block 6, 0x308, 0x0, 1, 32, true,
      [⟨"BUSY", 0, 0, .ro, 0⟩,
       ⟨"DONE", 1, 1, .ro, 0⟩,
       ⟨"FAULT", 15, 8, .ro, 0⟩]⟩
  | .abwBoot => ⟨.block 6, 0x400, 0x0, 1, 64, false,
      [⟨"PHASE", 3, 0, .ro, 0⟩,
       ⟨"FAIL", 7, 4, .ro, 0⟩,
       ⟨"LIVE", 13, 8, .ro, 0⟩,
       ⟨"SUPPLIES", 23, 16, .ro, 0⟩,
       ⟨"FENCED_CORES", 31, 24, .ro, 0⟩,
       ⟨"FENCED_GROUPS", 39, 32, .ro, 0⟩,
       ⟨"DONE_MS", 55, 40, .ro, 0xffff⟩]⟩
  | .abwTri => ⟨.block 6, 0x408, 0x0, 1, 64, true,
      [⟨"MAP", 23, 0, .rw, 0⟩,
       ⟨"READY", 24, 24, .rw, 0⟩,
       ⟨"READY_MS", 47, 32, .ro, 0⟩]⟩
  | .pkgRail => ⟨.block 6, 0x500, 0x8, 10, 64, false,
      [⟨"MV", 15, 0, .ro, 0⟩,
       ⟨"FAULT", 16, 16, .ro, 0⟩,
       ⟨"MAX_DEV", 47, 32, .rw, 0⟩]⟩
  | .pkgClk => ⟨.block 6, 0x580, 0x0, 1, 32, false,
      [⟨"ROOT_LOCK", 0, 0, .ro, 0⟩,
       ⟨"HBM_LOCK", 1, 1, .ro, 0⟩,
       ⟨"UCIE_LOCK", 2, 2, .ro, 0⟩,
       ⟨"ZLK_LOCK", 3, 3, .ro, 0⟩,
       ⟨"UNLOCKS", 31, 16, .rw, 0⟩]⟩
  | .pkgTrip => ⟨.block 6, 0x588, 0x0, 1, 32, false,
      [⟨"TRIPPED", 0, 0, .ro, 0⟩,
       ⟨"HBM_TRIP", 1, 1, .ro, 0⟩,
       ⟨"TRIP_C", 15, 8, .ro, 0x73⟩,
       ⟨"PEAK_C", 23, 16, .rw, 0⟩]⟩

end Sys2Proof.Machine
end

