-- ==== Sys2Proof/Machine/State.lean ====
section
/-!
DEFINITION. The state of the FK1 block as plain data: cores, stakes, memory, registers, channels, parcels, links, media,
security, boot and pins, with the queue of waiting commands; the reasons a step can stop; and the state after reset.
-/

set_option maxRecDepth 4096

namespace Sys2Proof.Machine

/-! ### Fault codes (R431) -/

/-- The fault codes of R431. -/
inductive FaultCode where
  | none | staleHandle | badHandle | addressAbsent | spaceDenied | misaligned | badDescriptor | featureAbsent
  | illegalInstruction | maskDepth | callDepth | fetchRange | stakeDenied | badImage | signatureMismatch | imageAbsent
  | shapeGuard | alreadyClaimed | operandFault | accUncorrected | closureFence | coreFenced | poisoned | pageRetired
  | streamBusy | streamIdle | streamStopped | tableAbsent | sideMismatch | kvSealed | appendFlushed | kvFull | kvRange
  | keyAbsent | channelClosed | slotBusy | noSlot | laneMismatch | collectiveFailed | linkDown | deadlineMissed
deriving DecidableEq, Repr

/-! ### Cores, crews and launches (01, 02) -/

/-- Whether an agent runs: no program, running, ended by CTL.HALT (R114), or stopped by a fault (R40). -/
inductive RunSt where
  | idle | running | halted | faulted
deriving DecidableEq, Repr

/-- A wait an agent has begun (R60): its stake, the datum tick at which it expires, its limit in
ticks (0: none), and the number of the wait. -/
structure WaitRef where
  stake : StakeId
  deadline : Option Nat
  limit : Nat
  serial : Nat
deriving DecidableEq, Repr

/-- The sequencer (R27, R90): s0 to s31, a0 to a15, the program counter as an instruction index into the text region, the
return stack (top first), the registers that a stake reply is still to write (R682), and the wait in progress. -/
structure Seq where
  st : RunSt
  s : Tbl W64
  a : Tbl Addr
  pc : Nat
  ret : List Nat
  inflight : List Nat
  wait : Option WaitRef
deriving DecidableEq, Repr

/-- A crew bound to a slot (R31, R36, R38): the number of its launch, its index, its program counter, v0 to v63 of 32 threads
(key 64 × lane + register), p1 to p7 as masks over the threads, the active mask, the mask stack (top first), the registers in
flight (R682) and the wait in progress. -/
structure Crew where
  launch : Nat
  idx : Nat
  pc : Nat
  v : Tbl W32
  p : Tbl W32
  mask : W32
  stack : List W32
  inflight : List Nat
  wait : Option WaitRef
deriving DecidableEq, Repr

/-- A crew launch (R33): queued or running; `left` counts the crews that have not exited; `hook` marks the launch of a
hook program of a fused operation (R230): its cube and the operation's number; `tile` is the logical tile of its plumb streams (R564). -/
structure Launch where
  serial : Nat
  entry : Nat
  n : Nat
  args : List W64
  stake : StakeId
  left : Nat
  hook : Option (Nat × Nat)
  tile : Nat
deriving DecidableEq, Repr

/-- A loaded program image (R120, R121): the device addresses of its text and data, their sizes, its entry and its need of
core store. -/
structure Image where
  text : Addr
  textSize : Nat
  data : Addr
  dataSize : Nat
  entry : Nat
  coreStore : Nat
deriving DecidableEq, Repr

/-- A part of a RUN on a core (R423): its channel, command number and part index, and what it adds to the completion
record (R428 to R430). `out` counts the operations and launches issued whose completion arrival is still to come. -/
structure PartRun where
  chan : Nat
  num : Nat
  part : Nat
  prio : Nat
  parcel : Nat
  plumb : Bool
  reassigned : Bool
  seed : W64
  image : Image
  started : Nat
  resumed : Option Nat
  out : Nat
  issued : Nat
  empties : Nat
  opFault : FaultCode
  opTick : Nat
  opSub : Nat
  seqFault : FaultCode
  subcode : Nat
  sat : Nat
  flushed : Nat
  escapes : Nat
  replays : Nat
  sideOvf : Bool
deriving DecidableEq, Repr

/-- The part fitted (R2, R3): its compute dies, and whether it is of grade A. -/
structure Part where
  dies : Nat
  gradeA : Bool
deriving DecidableEq, Repr

/-! ### Reservoir (11) -/

/-- A valid line of a cache slice (R366, R367): whether it is dirty, whether it is held (R371), and when it was last used. Its bytes are those
of its home address, since no other copy exists (R43). -/
structure CacheLine where
  dirty : Bool
  held : Bool
  used : Nat
deriving DecidableEq, Repr

/-! ### Stakes and their hubs (01) -/

/-- A waiter registered with a stake (R67): who waits, whether its entry is one of the hub's remote waiter table or it polls
(R68), and the number of the wait. -/
structure StakeWait where
  w : Waiter
  remote : Bool
  polling : Bool
  serial : Nat
deriving DecidableEq, Repr

/-- A stake (R55, R71 to R75). -/
structure Stake where
  count : W32
  target : W32
  enable : Bool
  event : Bool
  autoReset : Bool
  parcel : Nat
  saturated : Bool
  faulted : Bool
  waiters : List StakeWait
deriving DecidableEq, Repr

/-- An operation on its way to a hub (R56, R62). -/
inductive StakeAct where
  | arrive (inc : Nat) (faulted : Bool)
  | claim (inc : Nat) (rd : Nat)
  | test (rd : Nat)
  | reset (target : W32)
  | wait (w : Waiter) (serial : Nat)
deriving DecidableEq, Repr

/-- Who makes a stake operation (R54, R581): an agent by an instruction (its program counter and word for the fault record,
and the launch or part it ran for), a unit by its number in kind 72, or a port for the put that came in on it, whose sender's ZID, TAG and last
chunk the answer names (R497). -/
inductive StakeBy where
  | agent (a : Agent) (run : Nat) (pc : Nat) (word : W64) (mask : W32)
  | unit (code : Nat) (die : Nat)
  | link (die port : Nat) (zid tag chunk : Nat)
deriving DecidableEq, Repr

/-- A stake operation queued at a hub port. `parcel` is the issuing part's parcel, none where only ENABLE is checked. -/
structure StakeOp where
  act : StakeAct
  stake : StakeId
  source : StakeBy
  parcel : Option Nat
deriving DecidableEq, Repr

/-- A hub: its four port queues in the order of arrival (R62) and STK_HUB_STAT (R76). -/
structure Hub where
  q0 : List StakeOp
  q1 : List StakeOp
  q2 : List StakeOp
  q3 : List StakeOp
  pollWaits : Nat
  remotePeak : Nat
deriving DecidableEq, Repr

/-- A wake of a unit or block on its way (R66, R69): the waiter and the outcome of R60. -/
structure Wake where
  w : Waiter
  outcome : Nat
deriving DecidableEq, Repr

/-! ### Channels, commands and parcels (12, 13) -/

/-- An object slot (R11, R12): its generation, and whether the object lives. -/
structure Obj where
  gen : Byte
  live : Bool
deriving DecidableEq, Repr

/-- A command that has been read and has no record yet (R421 to R430): its number, its eight words, the code that cancels it, whether it
has started and its operation has acted, the outcome of its WAIT_STAKE if known and whether it waits, the tick in which it became ready
to place, the parts still to be placed, those that run (saved ones among them) and those that failed or succeeded, the image it started
with, the parts that run as reassigned work (R592), whether it has overrun its slot (R470), and what its parts add to the record (the earliest faulted
operation by code, subcode and rank). -/
structure Cmd where
  num : Nat
  words : List W64
  cancel : FaultCode
  started : Bool
  acted : Bool
  waited : Option Nat
  waiting : Bool
  readyTick : Nat
  place : W32
  running : W32
  failed : W32
  passed : W32
  image : Option Image
  reassign : W32
  overrun : Bool
  failCodes : List (Nat × FaultCode × Nat)
  opFault : Option (FaultCode × Nat × Nat)
  issued : Nat
  empties : Nat
  sat : Nat
  flushed : Nat
  escapes : Nat
  replays : Nat
  sideOvf : Bool
deriving DecidableEq, Repr

/-- A channel slot (R417, R442 to R445): state 0 CLOSED, 1 OPEN, 2 CLOSING; `doorbell` waits for its tick boundary (R425) with the tick in
which it came; `lastLoad` tells that the last command started was a LOAD; `fresh` that its tenant has not run yet (R462); `noticed` is the tick of
the last notice, and `noticeDue` that one waits for the next tick (R426). -/
structure Channel where
  state : Nat
  submit : Addr
  compl : Addr
  submitOrder : Nat
  complOrder : Nat
  prio : Nat
  parcel : BitVec 32
  tenant : Nat
  image : Option Image
  oldImages : List Image
  head : W32
  tail : W32
  rtail : W32
  rhead : W32
  cmds : List Cmd
  fence : W32
  doorbell : Option (W32 × Nat)
  lastLoad : Bool
  fresh : Bool
  noticed : Option Nat
  noticeDue : Bool
deriving DecidableEq, Repr

/-- The admin request in progress or last ended (R414, R440, R441). -/
structure Admin where
  busy : Bool
  done : Bool
  close : Bool
  fault : FaultCode
  handle : BitVec 32
  target : BitVec 32
deriving DecidableEq, Repr

/-- A parcel slot of the cadastre (R451, R473): state 0 FREE, 1 OPEN, 2 CLOSING. -/
structure Parcel where
  state : Nat
  lo : W64
  hi : W64
  dlo : W64
  dhi : W64
  ctx : Addr
  swap : Addr
  tenants : Nat
  swapStore : Nat
  plumb : Bool
  scratchOff : Nat
  scratchSize : Nat
  occupant : Option Nat
  slots : Tbl Bool
  swapping : Option Nat
  visited : List Nat
deriving DecidableEq, Repr

/-- The cyclic schedule's position (R468, R478, R479), and the tick of the last dispatch (R458). -/
structure Sched where
  running : Bool
  bank : Nat
  switch : Bool
  slot : Nat
  slotEnd : Nat
  cycles : W32
  starting : Bool
  dispatched : Option Nat
deriving DecidableEq, Repr

/-! ### The work of a core -/

/-- An operation of a D-format instruction (R97) in a unit's queue: its number, its descriptor KIND (R100; 0 for CUBE.ACLR and CHN.STOP,
which name none), the opcode within its class, the descriptor address, the handle, the completion stake, and the issuing parcel. -/
structure Op where
  serial : Nat
  kind : Nat
  opc : Nat
  da : Addr
  handle : BitVec 32
  stake : StakeId
  parcel : Nat
  desc : List W64
deriving DecidableEq, Repr

/-- The phase of an operation that its unit has taken: waiting for its operand stake (order 3 of R197), past order 7 (R680), the
prologue phases (R227), appending tokens (R316), waiting for keys (R325), its steps (R172), the drain of its banks (R173, R235),
part 0's wait on KSTAKE (R250), the epilogue program (R230), the converter (R236), the ledger publish (R243), the stake route's
wait (R247), ended and awaiting the arrivals of the operations issued before it (R228). -/
inductive Phase where
  | operand | passed | prologue | append | keys | steps | drain | ksplit | program | convert | publish | route | done
deriving DecidableEq, Repr

/-- The progress of an attention operation (R316, R325 to R327): tokens appended, the chunks it works through, how many have been
fetched, scored, put through the converter and multiplied by V, the row state m, l and f of the online softmax (FP32), the codes of p
of the last chunk by row, the prepared codes of Q by row where Q is prepared, and the tick at which its wait for keys expires. -/
structure Attn where
  tokens : Nat
  stalled : Bool
  chunks : List Nat
  fetched : Nat
  scored : Nat
  softmaxed : Nat
  valued : Nat
  m : List W32
  l : List W32
  f : List W32
  p : List (List Nat)
  q : Option (List (List Nat))
  deadline : Option Nat
deriving DecidableEq, Repr

/-- An operation that its unit has taken (R197): the prologue and epilogue blocks it read (R231, R234), its phase, the run-time
extents and logical tile (R195), the scale-file bank it carries (R338), the next step, whether it has replayed and is replaying (R182,
R183), how far its hooks are (R227), whether it is in its second converter pass (R247), the marked elements that it drained to its stage
(R137), the records that its converter formed, by run-time row (R236, R243), the box it samples (R301), how it has ended, and whether it holds
its cube until its completion arrival (R680). -/
structure RunOp where
  op : Op
  pro : List W64
  epi : List W64
  phase : Phase
  e0 : Nat
  e1 : Nat
  e2 : Nat
  tile : Nat
  bank : Nat
  step : Nat
  replayed : Bool
  replaying : Bool
  copied : Bool
  fetched : Bool
  waited : Bool
  corrected : Bool
  launched : Bool
  second : Bool
  marks : List Nat
  records : List (W32 × W32)
  box : List W64
  attn : Option Attn
  fault : FaultCode
  sub : Nat
  empty : Bool
  holds : Bool
deriving DecidableEq, Repr

/-- The A rows that stay in a cube's cells after a step (R161): the operation, the step, and each row's elements as their bits and block
scale (127 where there is none); none for a supplied zero. -/
structure Cells where
  serial : Nat
  step : Nat
  rows : List (List (Option (Nat × Nat)))
deriving DecidableEq, Repr

/-- A matrix cube (R27, R163, R174): its queue, the operation at its head and the one whose steps or drain run (R680), the operations past
their drain in issue order (R228), the accumulator elements by 64 × bank + 8 × row + column (none: the cleared mark of R138; else the bits and
the saturation mark of R137), the accumulator words in error that no read has found yet, by 32 × bank + word, each correctable or (true) not
(R163), the A rows of its last step (R161), the ramp's state (0 IDLE, 1 RAMP_UP, 2 ACTIVE, 3 RAMP_DOWN) and level, and
CUBE_CTL.INJECT (R188). -/
structure Cube where
  queue : List Op
  head : Option RunOp
  run : Option RunOp
  post : List RunOp
  acc : Tbl (Option (W32 × Bool))
  errs : List (Nat × Bool)
  cells : Option Cells
  ramp : Nat
  level : Nat
  inject : Bool
  injectAgain : Bool
deriving DecidableEq, Repr

/-- A queue entry of the chain engine (R208): the operation; 0 queued, 1 waiting (R215), 2 running; its stream slot; the list, count and
bases of the chain or pass (R202, R218); the entries that have entered flight and that have completed; and the fault that ends it. -/
structure Chain where
  op : Op
  phase : Nat
  slot : Option Nat
  list : Addr
  count : Nat
  bases : List Addr
  entered : Nat
  finished : Nat
  fault : FaultCode
deriving DecidableEq, Repr

/-- A stream slot (R217): 0 IDLE, 1 ARMED, 2 RUNNING; what it captured; and whether a CLOSE of its handle waits for it (R418). -/
structure Stream where
  state : Nat
  list : Addr
  count : Nat
  bases : List Addr
  closing : Bool
deriving DecidableEq, Repr

/-- A transfer slot in use (R209): the chain of its entry, the entry's index and words (R204), the bases, the positions of its walk (R205)
as a run and a byte within the run, for its reads and for its writes, the index word of the run it reads, the bytes read and not yet
written (R210), and the fault that ends it. -/
structure Flight where
  chain : Nat
  idx : Nat
  e : List W64
  bases : List Addr
  run : Nat
  byte : Nat
  x : Option Nat
  wrun : Nat
  wbyte : Nat
  buf : List Byte
  fault : FaultCode
deriving DecidableEq, Repr

/-- All that a core has in progress, and that a context image saves (R465). -/
structure Work where
  /-- The sequencer (R90). -/
  seq : Seq
  /-- Crew slots 0 to 63 (R31); none: free. -/
  crews : Tbl (Option Crew)
  /-- Pending launches, at most 8 (R27, R35). -/
  launchQ : List Launch
  /-- Launches whose crews run (R36). -/
  launches : List Launch
  /-- The part that runs (R423). -/
  part : Option PartRun
  /-- The 64 random sources (R555); zero: not seeded yet. -/
  rng : Tbl W64
  /-- Thread streams of plumb mode by 32 × slot + thread (R565); zero: not seeded yet. -/
  plumbRng : Tbl W64
  /-- Baseline bank 0: its image, or empty (R274). -/
  base0 : List Byte
  /-- Baseline bank 1. -/
  base1 : List Byte
  /-- The active baseline bank (R268, R274). -/
  baseActive : Option Nat
  /-- BASE_GEN (R274). -/
  baseGen : Byte
  /-- Table-load queue, at most 2; the first is current (R272). -/
  tloads : List Op
  /-- Current table load: 0 not begun, 1 taken and copying, 2 flipped and draining (R274). -/
  tphase : Nat
  /-- The four cubes (R157). -/
  cubes : Tbl Cube
  /-- Work that waits for the converter, in order of arrival (R228, R354): cube (4: the quantise queue) and operation number. -/
  convQ : List (Nat × Nat)
  /-- Converter streams of plumb mode by 64 × operation number + element (R564); zero: not seeded yet. -/
  convRng : Tbl W64
  /-- The chain engine's queue, at most 16 (R208). -/
  chain : List Chain
  /-- Entries in flight, oldest first, at most 6 (R209). -/
  flights : List Flight
  /-- Stream slots 0 to 7 (R216). -/
  streams : Tbl Stream
  /-- The quantise queue, at most 4 (R354); the first is being worked on. -/
  quant : List RunOp
  /-- Scale-file bank 0; an unlisted entry is 1.0 (R337). -/
  scale0 : Tbl W32
  /-- Scale-file bank 1. -/
  scale1 : Tbl W32
  /-- The active scale-file bank (R337). -/
  scaleActive : Nat
  /-- SCALE_GEN (R337). -/
  scaleGen : Byte
  /-- Scale-load queue, at most 2; the first is current (R340). -/
  sloads : List Op
  /-- Current scale load: 0 not begun, 1 taken and copying, 2 flipped and draining (R340). -/
  sphase : Nat
  /-- CUBE_RELAY_READY (R239). -/
  relayReady : W64
  /-- The operation whose blocks the ready mask counts (R239); 0: none. -/
  relayOwner : Nat
  /-- RELAY_OUT operations of this program that have ended: number, and whether without fault (R240, R241). -/
  relays : List (Nat × Bool)
deriving DecidableEq, Repr

/-- A saved context image (R465): the work, the lane count and the datum tick of the save, and CUBE_RELAY. Its core store and its active
scale-file bank are in memory, in its area. -/
structure Held where
  w : Work
  lanes : Nat
  tick : Nat
  relay : W64
deriving DecidableEq, Repr

/-- A core (R8, R27, R477). -/
structure Core where
  /-- The work in progress. -/
  w : Work
  /-- Fenced (R186, R590). -/
  fenced : Bool
  /-- CUBE_FENCE.CAUSE (R193). -/
  cause : Nat
  /-- 0 FREE, 1 RUNNING, 2 SAVING, 3 RESTORING (R477). -/
  sched : Nat
  /-- A pre-emption has been requested and the core has not stopped (R463, R464). -/
  stopping : Bool
  /-- The saved context image (R465). -/
  held : Option Held
  /-- Residency tag (R459). -/
  tagValid : Bool
  /-- Channel of the tag. -/
  tagChan : Nat
  /-- Part index of the tag. -/
  tagPart : Nat
  /-- Fenced lane groups (R589). -/
  laneFence : BitVec 4
  /-- Lane groups whose fence awaits a FREE core (R589). -/
  lanePend : BitVec 4
  /-- Corrected register-file errors of each lane group in this window (R589). -/
  laneCe : Tbl Nat
  /-- The ticks of the replays of the core's cubes since the last window began (R184). -/
  replays : List Nat
  /-- Bytes read since CHN_BYTES.READ_KIB last advanced (R221). -/
  rdBytes : Nat
  /-- Bytes written since CHN_BYTES.WRITE_KIB last advanced (R221). -/
  wrBytes : Nat
deriving DecidableEq, Repr

/-! ### Errors and events (17, 12) -/

/-- An error-ring entry (R580). -/
structure ErrEntry where
  valid : Bool
  sev : Nat
  cls : Nat
  src : Nat
  kind : Nat
  code : Nat
  rep : Nat
  sub : Nat
  first : W64
  last : W64
  detail : List W64
  num : W32
deriving DecidableEq, Repr

/-- A die's error ring (R579, R596): its 64 entries and the counts of ERR_STAT. -/
structure ErrRing where
  entries : Tbl ErrEntry
  next : W32
  dropped : Nat
  overflow : Bool
  halted : Bool
deriving DecidableEq, Repr

/-- A pending event (R82 to R85): the fields of R432, with the key that orders it within its tick. -/
structure Event where
  cls : Nat
  die : Nat
  src : Nat
  kind : Nat
  tick : W64
  key1 : Nat
  key2 : Nat
  pay0 : W64
  pay1 : W64
deriving DecidableEq, Repr

/-! ### KV sequences (09) -/

/-- What a KV sequence holds beside its registers (R308, R309, R318 to R321): the bits of its tokens at or beyond FLUSHED, the sealed length,
the next page to become eligible for a flush, the flushed pages whose slots wait for the export queue, and whether a CLOSE waits for it (R418). -/
structure Kv where
  bits : Tbl Bool
  sealLen : Nat
  next : Nat
  held : List Nat
  closing : Bool
deriving DecidableEq, Repr

/-- A page in a flush slot (R319): its sequence slot and page, where it is written, its bytes, and whether the export queue has its copy. -/
structure Flush where
  slot : Nat
  page : Nat
  addr : Addr
  bytes : List Byte
  copied : Bool
deriving DecidableEq, Repr

/-- A page in a port's export queue (R321): its sequence slot, its page, its bytes, and whether its put has started. -/
structure ExpPage where
  slot : Nat
  page : Nat
  bytes : List Byte
  started : Bool
deriving DecidableEq, Repr

/-! ### Links and collectives (14) -/

/-- An operation in a die's link engine (R496, R505, R512): its issuing core and part, and whether it is queued (0), waits (1) or is ready (2),
the tick in which it became ready, and the tick up to which the pauses of its TIMEOUT have been counted (R491). -/
structure LinkOp where
  op : Op
  core : CoreId
  part : Option (Nat × Nat × Nat)
  phase : Nat
  ready : Nat
  upto : Nat
deriving DecidableEq, Repr

/-- A chunk that has been sent (R498, R506): whether it is acknowledged, the tick of its last copy, its resends, the tick of a NOT_READY, and
whether another copy is due. -/
structure ChunkSt where
  acked : Bool
  sent : Nat
  resends : Nat
  notReady : Option Nat
  due : Bool
deriving DecidableEq, Repr

/-- A transfer on its way (R495): its die, port and slot (TAG), its KIND (0 put, 1 collective, 2 KV page), the operation it belongs to (a
page: its sequence slot), its group and member, the header's fields, a page's number and bytes, the chunks sent (the rest follow in order),
and what the status block counts (R499). -/
structure Xfer where
  die : Nat
  port : Nat
  slot : Nat
  kind : Nat
  owner : Nat
  group : Nat
  member : Nat
  zid : Nat
  vc : Nat
  big : Bool
  src : Addr
  dst : Addr
  len : Nat
  gtag : W32
  seq : Nat
  arrive : Option (Nat × Nat)
  stage : Nat
  digest : W32
  page : Nat
  data : List Byte
  next : Nat
  chunks : Tbl ChunkSt
  resends : Nat
  bytes : Nat
deriving DecidableEq, Repr

/-- A transfer being received (R497): its header, the chunks acknowledged, whether its arrival is on its way to the hub, and whether it is
complete. -/
structure Inbound where
  h : PutHeader
  got : Tbl Bool
  arriving : Bool
  done : Bool
deriving DecidableEq, Repr

/-- A collective that runs (R506, R507): its operation, die and group, its stage, whether the stage's sends are made and whether its
segment is reduced, the transfers received as (STAGE, member, address), when TIMEOUT expires (R510), and what its ended transfers sent. -/
structure Coll where
  lop : LinkOp
  die : Nat
  group : Nat
  seq : Nat
  stage : Nat
  begun : Bool
  reduced : Bool
  recv : List (Nat × Nat × Nat)
  deadline : Option Nat
  resends : Nat
  bytes : Nat
deriving DecidableEq, Repr

/-- A roster group slot (R500, R520, R521): 0 FREE, 1 OPEN, 2 CLOSING; ABORTs kept for collectives not yet issued (R510); SEQ and DIGEST of the
collectives that have completed (R506). -/
structure Group where
  state : Nat
  tag : W32
  count : Nat
  members : Addr
  self : Nat
  top : Nat
  parcel : BitVec 32
  inBase : Addr
  inSize : Nat
  land : Addr
  landSize : Nat
  seq : W32
  aborts : List (BitVec 8 × Nat)
  ended : List (Nat × W32)
deriving DecidableEq, Repr

/-- What a port sends on a VC (R494, R495): the slot of the transfer whose stream has chunks to come, the bytes staged and not yet in a flit, their
destination, and the page whose last bytes they are (R321). -/
structure Outgoing where
  slot : Option Nat
  bytes : List Byte
  zid : Nat
  page : Option (Nat × Nat)
deriving DecidableEq, Repr

/-- What a port receives on a VC (R487, R495): the header of the stream, the chunk it expects, whether the stream sends a chunk again, the bytes not yet
taken, whether some of its bodies were for another package, and the flits whose credits are withheld (R493). -/
structure Incoming where
  h : Option PutHeader
  chunk : Nat
  again : Bool
  bytes : List Byte
  lost : Bool
  held : Nat
deriving DecidableEq, Repr

/-- A Zevan port beyond its registers (R485 to R494): the last sequenced flit received in order, the last one sent, the replay buffer (oldest first),
the credits that the peer announced (as ZLK_VC_CFG gives them), the data flits placed and the credits returned by VC, the data flits accepted by VC
and the VC whose total the next flit carries, the VCs whose totals are yet to be sent, what it sends and receives by VC, the VC served last, messages that wait, symbol errors by lane in this window, and the tick
in which a retrain began. -/
structure Port where
  rx : BitVec 10
  tx : BitVec 10
  replay : List Flit
  announced : W64
  placed : Tbl Nat
  returned : Tbl Nat
  taken : Tbl Nat
  crVc : Nat
  crDue : List Nat
  out : Tbl Outgoing
  inc : Tbl Incoming
  turn : Nat
  msgs : List W64
  laneErrs : Tbl Nat
  retrain : Option Nat
deriving DecidableEq, Repr

/-- What the link engines and ports send (R486, R487, R495): messages, requests for a replay, and chunks with their bytes and CRC. -/
inductive LinkMsg where
  | ack (zid tag chunk : Nat) (last : Bool)
  | nak (zid tag chunk reason : Nat)
  | abort (zid : Nat) (gtag : W32) (seq8 : BitVec 8)
  | replay (die port : Nat) (from_ : BitVec 10)
  | chunk (die port slot chunk : Nat) (bytes : List Byte) (crc : W32)
deriving DecidableEq, Repr

/-! ### Media (15) -/

/-- A frame in a session's queue (R532 to R537): its operation, core and part, its number, the fault it is to complete with, the outcome of its wait
if known, whether it waits, has started, is coded, is to be coded as skip blocks (R547) and is late; and its status block's fields. -/
structure Frame where
  op : Op
  core : CoreId
  part : Option (Nat × Nat × Nat)
  num : Nat
  order : Nat
  fault : FaultCode
  waited : Option Nat
  waiting : Bool
  started : Bool
  coded : Bool
  late : Bool
  status : List W64
deriving DecidableEq, Repr

/-- A reference picture (R530): the slot of the reference area that holds it, and its size. -/
structure RefPic where
  slot : Nat
  w : Nat
  h : Nat
deriving DecidableEq, Repr

/-- A media session (R527, R528, R553, R554): 0 FREE, 1 OPEN, 2 CLOSING; its parameter block; its frames; frames accepted; frames since the last
key frame (none: the next is one); its reference pictures, most recent first; after an END, no key frame decoded yet (R536); the number of the last
frame coded (R541); qp and bits of each block row of the previous frame of each type (R542); and the rate controller's state. -/
structure Sess where
  state : Nat
  words : List W64
  queue : List Frame
  accepted : W32
  sinceKey : Option Nat
  refs : List RefPic
  ended : Bool
  last : Option Nat
  prev : Tbl (List (Nat × Nat))
  qp : Nat
  stage : Nat
  full : Nat
deriving DecidableEq, Repr

/-- The samples of a strip of a reference, 64 columns wide, in the window's rows (R540): luma, and chroma. -/
structure Strip where
  luma : List Byte
  chroma : List Byte
deriving DecidableEq, Repr

/-- The search window of the encode pipe (R539, R540): the slots it was loaded from, the luma samples it spans, from left to before right and from top
to before bottom, and the strips held, from the left: the column of the first, and each with a strip of every slot. -/
structure Window where
  slots : List Nat
  left : Int
  right : Int
  top : Int
  bottom : Int
  first : Int
  strips : List (List Strip)
deriving DecidableEq, Repr

/-- What an encode frame is coded with: whether it is a key frame or a B frame; the rows of the previous frame of its type, each a qp and its bits; and
min(B_avail, 8 × BS_SIZE), 256 bits above LIMIT (R542). -/
structure FramePlan where
  key : Bool
  b : Bool
  prev : List (Nat × Nat)
  cap : Nat
deriving DecidableEq, Repr

/-- The encoder within a frame (R540, R542): its window, used, what used was as the row began, qp and stage, whether MAXQ was entered, the blocks coded
as skip, the sum of the blocks' qp, the blocks coded, the rows coded, and the fault that ends the frame. -/
structure Coder where
  win : Option Window
  used : Nat
  mark : Nat
  qp : Nat
  stage : Nat
  maxq : Bool
  skips : Nat
  sum : Nat
  pos : Nat
  rows : List (Nat × Nat)
  fault : FaultCode
deriving DecidableEq, Repr

/-- What an access unit is, as far as the manual speaks of it (R524, R536): whether it uses a tool outside R524, the references it needs, its size, its
type, its order, the bytes consumed, whether it meets a poisoned reference line, film grain (AV1), whether it is a reference itself, and how many of the earlier
ones stay. All are the stream's. -/
structure AccessUnit where
  tool : Bool
  need : Nat
  w : Nat
  h : Nat
  type : Nat
  order : Nat
  bytes : Nat
  stray : Bool
  grain : Bool
  ref : Bool
  keep : Nat
deriving DecidableEq, Repr

/-- A frame part-coded (R545): an encode frame's plan, whether it meets poisoned motion data, and its coder; or a decode frame's access unit, the blocks that
are concealed, and how many units of its picture are decoded. -/
inductive MediaWork where
  | enc (p : FramePlan) (stray : Bool) (k : Coder)
  | dec (u : AccessUnit) (hide : List Bool) (pos : Nat)
deriving DecidableEq, Repr

/-- A media pipe (R540, R544, R545, R551): the session index of the frame it codes and of the frame it holds, how far each has come, and STATE: 0 idle,
1 coding, 2 saving, 3 restoring. -/
structure Pipe where
  coding : Option Nat
  held : Option Nat
  work : Option MediaWork
  kept : Option MediaWork
  phase : Nat
deriving DecidableEq, Repr

/-! ### Security and management (18) -/

/-- An attestation report being signed (R607, R608): the fields captured, and where it is to be written (none: for the management interface). -/
structure Signing where
  body : List Byte
  addr : Option Addr
deriving DecidableEq, Repr

/-- A burn of SVN counts (R604): the tick in which it began, and each die's count before it. -/
structure Burn where
  since : Nat
  old : List Nat
deriving DecidableEq, Repr

/-- The station of die 0 (R604 to R610): the report being signed, the last report of the management interface, the challenge outstanding, the
bytes of UNLOCK_DATA, and the last burn of SVN counts. -/
structure Station where
  signing : Option Signing
  report : List Byte
  challenge : Option (List Byte)
  unlock : Tbl Byte
  burn : Option Burn
deriving DecidableEq, Repr

/-- The management target (R614, R615): its dynamic address, SMBus mode, whether the broadcast address 0x7E has been seen, in-band interrupts enabled, the maximum lengths, whether PKG_ALERT_N
was active, the mandatory bytes of the IBIs raised (newest first), and the last response (R616). -/
structure Mgmt where
  dyn : Option (BitVec 7)
  smbus : Bool
  broadcast : Bool
  ibi : Bool
  mwl : BitVec 16
  mrl : BitVec 16
  alert : Bool
  ibis : List Byte
  status : Nat
  data : List Byte
deriving DecidableEq, Repr

/-! ### Start-up, pins and test port (19, 20) -/

/-- A die's start-up beyond ABW_BOOT and ABW_STATION (R632 to R649): its position read, announced, silent; the firmware being
received (its size; the bytes; whether an offset was missing); the digest of its verified header; HBM trained; self-test ended; when its last message came; and the rails whose last sample lay outside their limits (R666). -/
structure Boot where
  locked : Bool
  announced : Bool
  silent : Bool
  fwSize : Option Nat
  fw : List Byte
  gap : Bool
  digest : List Byte
  hbm : Bool
  tested : Bool
  heard : Nat
  rails : Tbl Bool
deriving DecidableEq, Repr

/-- The package's signals and start-up (R629 to R649, R660 to R662, R673): PKG_PWRGD, PKG_RESET_N active, the straps sampled, the dies
released and when, the ticks from release to the alignment, the waves begun, the tick aligned, the dies whose trip drives PKG_THERMTRIP_N,
messages to the command die (newest first), the tick of the last power comparison (R612), what the last scans shifted out of PKG_TDO (R674), and
the tick in which READY was written with what ABW_TRI held before (R654). -/
structure Pkg where
  pwrgd : Bool
  reset : Bool
  maddr : BitVec 2
  tmode : Bool
  released : Bool
  releasedAt : Nat
  elapsed : Nat
  wave : Nat
  aligned : Bool
  trips : Tbl Bool
  messages : List W64
  capTick : Option Nat
  tdo : List Bool
  readyAt : Option (Nat × W64)
deriving DecidableEq, Repr

/-- A die's TAP (R674): its instruction register, the data register captured by the last instruction, and die 0's boundary update values. -/
structure Tap where
  ir : BitVec 8
  dr : BitVec 32
  update : BitVec 10
deriving DecidableEq, Repr

/-! ### The device -/

/-- Writes to fields of a register that wait for its operation boundary (R23, R24): the bits written, their values, and the tick of the last
write. -/
structure PendingWrite where
  mask : W64
  val : W64
  since : Nat
deriving DecidableEq, Repr

/-- A write to a register field that waits for the next datum tick (R23, R24): the register's key, the bits written, their values, and the first
tick in which it takes effect. -/
structure LateWrite where
  key : Nat
  mask : W64
  val : W64
  since : Nat
deriving DecidableEq, Repr

/-- A command that has ended and whose record waits for slices or links (R370, R410): its channel and number, whether it was cancelled, whether a
LOAD failed, and the fault of its own. -/
structure LateCmd where
  chan : Nat
  num : Nat
  cancelled : Bool
  loadBad : Bool
  own : FaultCode
deriving DecidableEq, Repr

/-- A link-engine operation that has ended and whose status block waits for slices or links (R370, R410): its die, the block, its fault, and whether it
was empty. -/
structure LateLop where
  die : Nat
  lop : LinkOp
  bytes : List Byte
  fault : FaultCode
  empty : Bool
deriving DecidableEq, Repr

/-- What the command die was answered (R411): a status of R431 and the data read. -/
structure HostReply where
  status : FaultCode
  data : List Byte
deriving DecidableEq, Repr

/-- The device: every piece of state the manual gives the package, but for the queue of waiting commands. -/
structure Dev where
  /-- The part fitted (R2, R3). -/
  part : Part
  /-- The datum tick count (R81). -/
  tick : Nat
  /-- Registers by die × 2^29 + offset; an unlisted one holds its reset value. -/
  regs : Tbl W64
  /-- Writes to RW-S fields that wait (R23). -/
  shadow : Tbl PendingWrite
  /-- Writes to RW-L fields that wait, in the order accepted (R23, R24). -/
  live : List LateWrite
  /-- Memory by physical place (Machine/Memory.lean); an unlisted byte is zero (R644). -/
  mem : List Host.Cell
  /-- Poisoned lines and core-store words by physical place (R381, R383). -/
  poison : Tbl Bool
  /-- Valid lines of the cache slices, by physical place (R367). -/
  cache : Tbl (Option CacheLine)
  /-- Order of cache uses (R367, least recently used). -/
  clock : Nat
  /-- Symbol corrections of this window by (32 × die + channel) × 128 + pin-lane (R379). -/
  laneCounts : Tbl Nat
  /-- Uncorrectable reads of this window by 32 × die + channel (R388). -/
  ueCounts : Tbl Nat
  /-- Text and data regions of loaded images (R124): first byte and length. -/
  readonly : List (Addr × Nat)
  /-- Cores by 144 × die + index; an unlisted one is as reset leaves it. -/
  cores : Tbl Core
  /-- Stakes by identifier (R51). -/
  stakes : Tbl Stake
  /-- Hubs by 13 × die + number; number 12 is the die stake hub. -/
  hubs : Tbl Hub
  /-- Wakes on their way to units and blocks (R66). -/
  wakes : List Wake
  /-- Error rings by die (R579). -/
  errs : Tbl ErrRing
  /-- Events that await the merge (R433). -/
  events : List Event
  /-- A record was dropped since the last one written (R433). -/
  gap : Bool
  /-- Object slots by TYPE × 2^16 + INDEX (R11, R12). -/
  objs : Tbl Obj
  /-- Channels 0 to 255 (R413). -/
  chans : Tbl Channel
  /-- The admin request (R414). -/
  admin : Admin
  /-- The cadastre, slots 0 to 63 (R450). -/
  parcels : Tbl Parcel
  /-- The cyclic schedule (R468). -/
  sched : Sched
  /-- Completion notices sent (R426): channel and TAIL, newest first. -/
  notices : List (Nat × W32)
  /-- Measurement registers M0 to M7 (R605); an unlisted one is 32 zero bytes. -/
  meas : Tbl (List Byte)
  /-- The normal table image that each die's station has loaded into its cores (R271). -/
  normal : Tbl (List Byte)
  /-- KV sequences by 4,096 × die + slot (R305). -/
  kvs : Tbl Kv
  /-- Filled pages that wait for a flush slot, by die: sequence slot and page (R319). -/
  kvReady : Tbl (List (Nat × Nat))
  /-- Flush slots by 4 × die + slot (R319). -/
  kvFlush : Tbl (Option Flush)
  /-- Flushed pages that wait for an export buffer, by 2 × die + port (R321). -/
  expWait : Tbl (List (Nat × Nat))
  /-- Export queues by 2 × die + port, at most 8 pages (R321). -/
  expQ : Tbl (List ExpPage)
  /-- Link-engine queues by die (R512). -/
  links : Tbl (List LinkOp)
  /-- Commands whose records wait for slices or links (R370, R410). -/
  lateCmds : List LateCmd
  /-- Link-engine operations whose status blocks wait for slices or links (R370, R410). -/
  lateLops : List LateLop
  /-- Transfers being sent (R495). -/
  xfers : List Xfer
  /-- Transfers being received (R497). -/
  inbound : List Inbound
  /-- Collectives that run (R506). -/
  colls : List Coll
  /-- Roster groups 0 to 255 (R500). -/
  groups : Tbl Group
  /-- Zevan ports by 2 × die + port (R481). -/
  ports : Tbl Port
  /-- What the link engines have sent, newest first (R486, R495). -/
  sent : List LinkMsg
  /-- The flits that ports have sent, newest first: die, port and flit (R485). -/
  wire : List (Nat × Nat × Flit)
  /-- Media sessions by 32 × die + slot (R527). -/
  sess : Tbl Sess
  /-- Media pipes by 2 × die + pipe (R551). -/
  pipes : Tbl Pipe
  /-- Number of the next frame in acceptance order (R544). -/
  accepted : Nat
  /-- The station of die 0 (R605). -/
  station : Station
  /-- The management interface (R614). -/
  mgmt : Mgmt
  /-- Start-up by die (R632). -/
  boot : Tbl Boot
  /-- Package signals (R660). -/
  pkg : Pkg
  /-- TAPs by die (R674). -/
  taps : Tbl Tap
  /-- What the last command-die access was answered (R411). -/
  reply : Option HostReply
  /-- The model's own: number of the next operation, launch or wait. -/
  serial : Nat
  /-- The model's own: number of the next free value (Config.freeValue). -/
  free : Nat
deriving DecidableEq, Repr

/-- The machine: the device and the commands that wait, first in first out. -/
structure State where
  dev : Dev
  pending : List Instr
deriving DecidableEq, Repr

/-- The block never stops with a fault: every error the manual describes is an effect on the state. -/
inductive Fault where
deriving DecidableEq, Repr

/-- Why a command has no effect to give. -/
inductive Refusal where
  /-- Raised by the dispatch for a row without a meaning. Safe: no state follows. -/
  | notModelled (mnemonic : String)
  /-- Raised by every meaning for an operand outside its field (a core above 143, a die above 7). Safe: no such command exists. -/
  | illFormed
  /-- Raised by every meaning for a die the part does not have (R2). Safe: no such unit exists. -/
  | absentUnit
  /-- Raised by an event's meaning in a state in which the event cannot come about (no step to issue, nothing waiting, the
  time not come); the string is the row. Safe: no state follows. -/
  | notEnabled (row : String)
deriving DecidableEq, Repr

/-- A core without work. -/
def Work.empty : Work where
  seq := ⟨.idle, [], [], 0, [], [], none⟩
  crews := []
  launchQ := []
  launches := []
  part := none
  rng := []
  plumbRng := []
  base0 := []
  base1 := []
  baseActive := none
  baseGen := 0
  tloads := []
  tphase := 0
  cubes := []
  convQ := []
  convRng := []
  chain := []
  flights := []
  streams := []
  quant := []
  scale0 := []
  scale1 := []
  scaleActive := 0
  scaleGen := 0
  sloads := []
  sphase := 0
  relayReady := 0
  relayOwner := 0
  relays := []

/-- A core as reset leaves it. -/
def Core.idle : Core where
  w := Work.empty
  fenced := false
  cause := 0
  sched := 0
  stopping := false
  held := none
  tagValid := false
  tagChan := 0
  tagPart := 0
  laneFence := 0
  lanePend := 0
  laneCe := []
  replays := []
  rdBytes := 0
  wrBytes := 0

/-- The device right after reset: power good, PKG_RESET_N released, no die out of its own reset yet (R629, R630). -/
def Dev.reset : Dev where
  part := ⟨8, true⟩
  tick := 0
  regs := []
  shadow := []
  live := []
  mem := []
  poison := []
  cache := []
  clock := 0
  laneCounts := []
  ueCounts := []
  readonly := []
  cores := []
  stakes := []
  hubs := []
  wakes := []
  errs := []
  events := []
  gap := false
  objs := []
  chans := []
  admin := ⟨false, false, false, .none, 0, 0⟩
  parcels := []
  sched := ⟨false, 0, false, 0, 0, 0, false, none⟩
  notices := []
  meas := []
  normal := []
  kvs := []
  kvReady := []
  kvFlush := []
  expWait := []
  expQ := []
  links := []
  lateCmds := []
  lateLops := []
  xfers := []
  inbound := []
  colls := []
  groups := []
  ports := []
  sent := []
  wire := []
  sess := []
  pipes := []
  accepted := 0
  station := ⟨none, [], none, [], none⟩
  mgmt := ⟨none, false, false, false, 240, 240, false, [], 0, []⟩
  boot := []
  pkg := ⟨true, false, 0, false, false, 0, 0, 0, false, [], [], none, [], none⟩
  taps := []
  reply := none
  serial := 1
  free := 0

/-- The machine right after reset, with no command waiting. -/
def State.reset : State where
  dev := Dev.reset
  pending := []

end Sys2Proof.Machine
end

