-- ==== Sys2Proof/Machine/Ops.lean ====
section
/-!
DEFINITION. The named operations every meaning rests on: sparse storage, bit fields, bytes and words, cores, registers by name, the
numbers of fault codes, and free values.
-/

namespace Sys2Proof.Machine

/-- What a meaning answers before the queue is put back: the next device, or a reason to stop. -/
abbrev Res := Host.Outcome Dev Fault Refusal

/-! ### Sparse storage -/

/-- The value at key k; d is what an unlisted key reads as. -/
def tget {α : Type} (d : α) : Tbl α → Nat → α
  | [], _ => d
  | (j, w) :: t, k => if k < j then d else if k = j then w else tget d t k

/-- Writes v at key k, keeping the keys rising and listing no entry equal to d. -/
def tset {α : Type} [DecidableEq α] (d : α) : Tbl α → Nat → α → Tbl α
  | [], k, v => if v = d then [] else [(k, v)]
  | (j, w) :: t, k, v =>
    if k < j then (if v = d then (j, w) :: t else (k, v) :: (j, w) :: t)
    else if k = j then
      (let rest := t.dropWhile (fun e => decide (e.1 ≤ k)); if v = d then rest else (k, v) :: rest)
    else (j, w) :: tset d t k v

/-- Applies f at key k. -/
def tmod {α : Type} [DecidableEq α] (d : α) (t : Tbl α) (k : Nat) (f : α → α) : Tbl α :=
  tset d t k (f (tget d t k))

/-- The canonical form of sparse storage: keys strictly rising, no entry equal to the default. -/
def twf {α : Type} [DecidableEq α] (d : α) : Tbl α → Bool
  | [] => true
  | [(_, w)] => decide (w ≠ d)
  | (j, w) :: (k, x) :: t => decide (w ≠ d) && decide (j < k) && twf d ((k, x) :: t)

/-! ### Bit fields -/

/-- Bits hi to lo of a word, as a number. -/
def fld {n : Nat} (x : BitVec n) (hi lo : Nat) : Nat := x.toNat / 2 ^ lo % 2 ^ (hi + 1 - lo)

/-- Bits hi to lo of a number. -/
def nfld (x hi lo : Nat) : Nat := x / 2 ^ lo % 2 ^ (hi + 1 - lo)

/-- A word with bits hi to lo replaced by the low bits of v. -/
def setFld {n : Nat} (x : BitVec n) (hi lo v : Nat) : BitVec n :=
  let m : BitVec n := BitVec.ofNat n ((2 ^ (hi + 1 - lo) - 1) * 2 ^ lo)
  (x &&& ~~~m) ||| (BitVec.ofNat n ((v % 2 ^ (hi + 1 - lo)) * 2 ^ lo))

/-- 1 for true. -/
def b2n (b : Bool) : Nat := if b then 1 else 0

/-- The signed value of an n-bit number. -/
def sxt (n x : Nat) : Int := if x < 2 ^ (n - 1) then (x : Int) else (x : Int) - 2 ^ n

/-- Addition that stops at a limit (counters that saturate). -/
def satAdd (limit x k : Nat) : Nat := min limit (x + k)

/-- The bytes of a number, least significant first (R22). -/
def leBytes : Nat → Nat → List Byte
  | 0, _ => []
  | n + 1, v => BitVec.ofNat 8 v :: leBytes n (v / 256)

/-- The number of a little-endian list of bytes (R22). -/
def leNat : List Byte → Nat
  | [] => 0
  | b :: r => b.toNat + 256 * leNat r

/-! ### Fault codes -/

/-- The number of a fault code (R431). -/
def FaultCode.num (f : FaultCode) : Nat := f.ctorIdx

/-! ### Cores -/

/-- The key of a core. -/
def ckey (c : CoreId) : Nat := 144 * c.die + c.core

/-- The core at c. -/
def getCore (d : Dev) (c : CoreId) : Core := tget Core.idle d.cores (ckey c)

/-- Writes the core at c. -/
def setCore (d : Dev) (c : CoreId) (k : Core) : Dev := { d with cores := tset Core.idle d.cores (ckey c) k }

/-- Applies f to the core at c. -/
def modCore (d : Dev) (c : CoreId) (f : Core → Core) : Dev := setCore d c (f (getCore d c))

/-- Applies f to the work of the core at c. -/
def modWork (d : Dev) (c : CoreId) (f : Work → Work) : Dev := modCore d c fun k => { k with w := f k.w }

/-- Applies f to the sequencer of the core at c. -/
def modSeq (d : Dev) (c : CoreId) (f : Seq → Seq) : Dev := modWork d c fun w => { w with seq := f w.seq }

/-- The crew in a slot. -/
def getCrew (d : Dev) (c : CoreId) (slot : Nat) : Option Crew := tget none (getCore d c).w.crews slot

/-- Writes the crew in a slot. -/
def setCrew (d : Dev) (c : CoreId) (slot : Nat) (k : Option Crew) : Dev :=
  modWork d c fun w => { w with crews := tset none w.crews slot k }

/-- Applies f to the part that runs on a core. -/
def modPart (d : Dev) (c : CoreId) (f : PartRun → PartRun) : Dev :=
  modWork d c fun w => { w with part := w.part.map f }

/-- The cores of die d, by index. -/
def coresOf (die : Nat) : List CoreId := (List.range 144).map fun i => ⟨die, i⟩

/-! ### Registers by name -/

/-- The reset value of a register's fields (R20 and the register tables); the power limit's is the part's (R623). -/
def regReset (p : Part) (n : RegName) : W64 :=
  let v : W64 := n.row.fields.foldl (fun a f => setFld a f.hi f.lo f.reset) 0
  match n with
  | .abwEnvelope => setFld v 27 16 (if p.dies = 8 then 2300 else if p.dies = 4 then 1200 else 650)
  | _ => v

/-- The offset in register space of item j of a register in page i of its scope (R20). -/
def regOff (n : RegName) (i j : Nat) : Nat :=
  let r := n.row
  match r.scope with
  | .core => 0x10000 * i + r.base + r.stride * j
  | .hbm => 0x10000000 + 0x1000000 * i + r.base + r.stride * j
  | .block b => 0x10000000 + 0x1000000 * b + r.base + r.stride * j

/-- The key of a register. -/
def regKey (n : RegName) (die i j : Nat) : Nat := 0x20000000 * die + regOff n i j

/-- The stored value of a register. -/
def regGet (d : Dev) (n : RegName) (die i j : Nat) : W64 := tget (regReset d.part n) d.regs (regKey n die i j)

/-- Stores a register. -/
def regSet (d : Dev) (n : RegName) (die i j : Nat) (v : W64) : Dev :=
  { d with regs := tset (regReset d.part n) d.regs (regKey n die i j) v }

/-- Bits hi to lo of a register. -/
def rfld (d : Dev) (n : RegName) (die i j hi lo : Nat) : Nat := fld (regGet d n die i j) hi lo

/-- Writes bits hi to lo of a register. -/
def rset (d : Dev) (n : RegName) (die i j hi lo v : Nat) : Dev :=
  regSet d n die i j (setFld (regGet d n die i j) hi lo v)

/-- Adds to a counter in bits hi to lo of a register, which saturates. -/
def rcount (d : Dev) (n : RegName) (die i j hi lo k : Nat) : Dev :=
  rset d n die i j hi lo (satAdd (2 ^ (hi + 1 - lo) - 1) (rfld d n die i j hi lo) k)

/-! ### Serial numbers and free values -/

/-- The next number of an operation, launch or wait. -/
def nextSerial (d : Dev) : Dev := { d with serial := d.serial + 1 }

/-- The next free value (log 11). -/
def freeVal (d : Dev) : W64 := Config.freeValue d.free

/-- The device after a free value is used. -/
def freeNext (d : Dev) : Dev := { d with free := d.free + 1 }

/-- A free number below n. -/
def freeBelow (d : Dev) (n : Nat) : Nat × Dev := ((freeVal d).toNat % max 1 n, freeNext d)

/-- n free bytes. -/
def freeBytes : Nat → Dev → List Byte × Dev
  | 0, d => ([], d)
  | n + 1, d =>
    let r := freeBytes n (freeNext d)
    ((freeVal d).setWidth 8 :: r.1, r.2)

/-- ⌈a ÷ b⌉. -/
def cdiv (a b : Nat) : Nat := (a + b - 1) / b

/-- The feature word of every FK1 part (R122). -/
def featureWord : W64 := 0x3FFF

/-- A guarded effect: an event that cannot come about in this state is refused by the name of its row. -/
def whenOn (row : String) (c : Bool) (d : Dev) : Res := if c then .next d else .refused (.notEnabled row)

/-- The effect of an optional result: none where the event cannot come about. -/
def orNot (row : String) : Option Dev → Res
  | some d => .next d
  | none => .refused (.notEnabled row)

end Sys2Proof.Machine
end

