-- ==== Sys2Proof/Machine/Mesh.lean ====
section
/-!
DEFINITION. The mesh of dies (R407), its links' states (R436), the routes of traffic (R408), and what waits for a link that retrains (R410).
-/

namespace Sys2Proof.Machine

/-- Columns of the mesh. -/
def meshCols (n : Nat) : Nat := if n = 8 then 4 else 2

/-- What faces a module of a position (R407): a die, the command die, or nothing. Modules: 0 north, 1 south, 2 east, 3 west. -/
inductive Facing where
  | die (x : Nat)
  | command
  | none
deriving DecidableEq, Repr

/-- The neighbour of a position on a module, in a part of n dies. -/
def facing (n x m : Nat) : Facing :=
  let c := meshCols n
  match m with
  | 0 => if c ≤ x then .die (x - c) else .none
  | 1 => if x + c < n then .die (x + c) else .none
  | 2 => if x % c + 1 < c ∧ x + 1 < n then .die (x + 1) else .none
  | _ => if x % c ≠ 0 then .die (x - 1) else if x = 0 ∨ n = 8 then .command else .none

/-- The module of the other end. -/
def farModule (m : Nat) : Nat := match m with
  | 0 => 1
  | 1 => 0
  | 2 => 3
  | _ => 2

/-- STATE of a module (R436): 0 DOWN, 1 TRAINING, 2 UP, 3 RETRAIN, 4 FAILED. -/
def uciState (d : Dev) (die m : Nat) : Nat := rfld d .uciLink die 0 m 2 0

/-- The die at the command die's end of a die's path (R407). -/
def homeOf (n x : Nat) : Nat := if n = 8 ∧ 4 ≤ x then 4 else 0

/-- The links of the route from die x to die y, each as a die and its module (R408): east or west along the row first, then north or south. -/
def routeLinks (n x y : Nat) : List (Nat × Nat) :=
  let c := meshCols n
  let row := x / c * c
  let east := (List.range (y % c - x % c)).map fun i => (x + i, 2)
  let west := (List.range (x % c - y % c)).map fun i => (x - i, 3)
  let turn := row + y % c
  let south := (List.range (y / c - x / c)).map fun i => (turn + c * i, 1)
  let north := (List.range (x / c - y / c)).map fun i => (turn - c * i, 0)
  east ++ west ++ south ++ north

/-- The links between the command die and a die (R408): the command link of its home die, then the mesh route from there. -/
def commandLinks (n x : Nat) : List (Nat × Nat) := (homeOf n x, 3) :: routeLinks n (homeOf n x) x

/-- The mainband path of a die to the command die has trained. -/
def pathUp (d : Dev) (x : Nat) : Bool := (commandLinks d.part.dies x).all fun l => decide (uciState d l.1 l.2 = 2)

/-- Traffic from die x to die y waits: a link of its route retrains (R410). -/
def routeBusy (d : Dev) (x y : Nat) : Bool := (routeLinks d.part.dies x y).any fun l => decide (uciState d l.1 l.2 = 3)

/-- Traffic between the command die and a die waits (R410). -/
def commandBusy (d : Dev) (x : Nat) : Bool := (commandLinks d.part.dies x).any fun l => decide (uciState d l.1 l.2 = 3)

end Sys2Proof.Machine
end

