-- ==== Sys2Proof/Machine/Errors.lean ====
section
/-!
DEFINITION. Error records, repeats, overflow and acknowledgement (R579 to R586), the events they and other sources raise
(R82 to R85, R432, R433), and PKG_ALERT_N (R586).
-/

namespace Sys2Proof.Machine

/-- An error entry that holds nothing (R597). -/
def ErrEntry.empty : ErrEntry := ⟨false, 0, 0, 0, 0, 0, 0, 0, 0, 0, [], 0⟩

/-- An error ring as reset leaves it (R596). -/
def ErrRing.empty : ErrRing := ⟨[], 0, 0, false, false⟩

/-- The error ring of a die. -/
def getRing (d : Dev) (die : Nat) : ErrRing := tget ErrRing.empty d.errs die

/-- Writes the error ring of a die. -/
def setRing (d : Dev) (die : Nat) (r : ErrRing) : Dev := { d with errs := tset ErrRing.empty d.errs die r }

/-- Entry e of a ring. -/
def ringEntry (r : ErrRing) (e : Nat) : ErrEntry := tget ErrEntry.empty r.entries e

/-- A die has halted (R588). -/
def halted (d : Dev) (die : Nat) : Bool := (getRing d die).halted

/-- A die's thermal trip has latched: the core, fabric and media clocks of the die are gated (R673). -/
def tripped (d : Dev) (die : Nat) : Bool := tget false d.pkg.trips die

/-- A die's cores and engines do nothing: it has halted, or its clocks are gated. -/
def stopped (d : Dev) (die : Nat) : Bool := halted d die || tripped d die

/-- Severities (R577). -/
inductive Sev where
  | info | link | contained | fatal
deriving DecidableEq, Repr

/-- The code of a severity (R577). -/
def Sev.num : Sev → Nat
  | .info => 0
  | .link => 1
  | .contained => 2
  | .fatal => 3

/-- The event class of an entry (R577). -/
def sevClass (s : Sev) (kind : Nat) : Nat :=
  match s with
  | .info => 9
  | .link => 4
  | .contained => 3
  | .fatal => if 48 ≤ kind then 1 else 2

/-- Whether the event ring is set up and full (R432, R433). -/
def evtRingFull (d : Dev) : Bool :=
  let ptr := regGet d .cmdEvtPtr 0 0 0
  (fld (regGet d .cmdEvtCtl 0 0 0) 57 57 = 1) &&
    decide ((fld ptr 31 0 + 2 ^ 32 - fld ptr 63 32) % 2 ^ 32 ≥ 2 ^ fld (regGet d .cmdEvtCtl 0 0 0) 56 52)

/-- Counts a dropped event record (R433): DROPPED, OVERFLOW, and GAP for the next record. -/
def evtDrop (d : Dev) : Dev :=
  let d := rcount d .cmdEvtStat 0 0 0 31 0 1
  { rset d .cmdEvtStat 0 0 0 32 32 1 with gap := true }

/-- Raises an event (R85): it waits for the merge, or is dropped when the ring is full and its die's 256 places are taken. -/
def raiseEvent (d : Dev) (e : Event) : Dev :=
  if evtRingFull d && decide (256 ≤ (d.events.filter (fun x => x.die = e.die)).length) then evtDrop d
  else { d with events := d.events ++ [e] }

/-- What an error record says (R580, R581). -/
structure ErrInfo where
  src : Nat
  kind : Nat
  code : FaultCode
  sev : Sev
  sub : Nat
  detail : List Nat
deriving DecidableEq, Repr

/-- Whether a record repeats a valid entry (R582): SOURCE, KIND and CODE agree, and for kind 67 the cube. -/
def isRepeat (e : ErrEntry) (x : ErrInfo) : Bool :=
  e.valid && e.src = x.src && e.kind = x.kind && e.code = x.code.num &&
    (x.kind != 67 || e.detail.head? = (x.detail.map (BitVec.ofNat 64)).head?)

/-- The first entry, by index, that meets a test. -/
def findEntry (r : ErrRing) (p : ErrEntry → Bool) : Option Nat := (List.range 64).find? fun i => p (ringEntry r i)

/-- The valid entry of lowest severity with the lowest NUMBER among those below FATAL (R584). -/
def lowestEntry (r : ErrRing) : Option Nat :=
  (List.range 64).foldl (fun best i =>
    let e := ringEntry r i
    if e.valid && decide (e.sev < 3) then
      match best with
      | none => some i
      | some j =>
        let f := ringEntry r j
        if e.sev < f.sev ∨ (e.sev = f.sev ∧ e.num.toNat < f.num.toNat) then some i else best
    else best) none

/-- Takes entry e for a new record and raises its event (R579, R577). -/
def takeEntry (d : Dev) (die e : Nat) (x : ErrInfo) : Dev :=
  let r := getRing d die
  let t : W64 := BitVec.ofNat 64 d.tick
  let ent : ErrEntry := ⟨true, x.sev.num, sevClass x.sev x.kind, x.src, x.kind, x.code.num, 0, x.sub, t, t,
    x.detail.map (BitVec.ofNat 64), r.next⟩
  let d := setRing d die { r with entries := tset ErrEntry.empty r.entries e ent, next := r.next + 1 }
  raiseEvent d ⟨sevClass x.sev x.kind, die, x.src, x.kind, t, r.next.toNat, 0, BitVec.ofNat 64 e, 0⟩

/-- Counts a dropped or overwritten record (R584). -/
def ringDrop (r : ErrRing) : ErrRing := { r with dropped := satAdd 0xFFFF r.dropped 1, overflow := true }

/-- Whether an entry drives the alert at a threshold (R586). -/
def entryAlerts (sev : Nat) (e : ErrEntry) : Bool := e.valid && decide (sev ≤ e.sev)

/-- PKG_ALERT_N is driven (R586, R593): a valid entry at or above ALERT_SEV, an OVERFLOW, or a halt, on any die of the part. -/
def alertActive (d : Dev) : Bool :=
  (List.range d.part.dies).any fun die =>
    let r := getRing d die
    r.overflow || r.halted || r.entries.any (fun p => entryAlerts (rfld d .errCtl die 0 0 2 0) p.2)

/-- The lowest die that causes the alert (R615). -/
def alertDie (d : Dev) : Nat :=
  ((List.range d.part.dies).find? fun die =>
    let r := getRing d die
    r.overflow || r.halted || r.entries.any (fun p => entryAlerts (rfld d .errCtl die 0 0 2 0) p.2)).getD 0

/-- Follows PKG_ALERT_N (R586, R615): as it becomes active, the management target raises an in-band interrupt, in I3C mode and with in-band
interrupts enabled. -/
def alertEdge (d : Dev) : Dev :=
  let now := alertActive d
  let m := d.mgmt
  let byte : Byte := BitVec.ofNat 8 (2 ^ 7 * b2n ((List.range d.part.dies).any (halted d)) + alertDie d % 8)
  if now && !m.alert && m.ibi && !m.smbus && m.dyn.isSome then { d with mgmt := { m with alert := now, ibis := byte :: m.ibis } }
  else { d with mgmt := { m with alert := now } }

/-- Records an error (R579, R582, R584): a repeat is counted in its entry; otherwise the lowest entry that is not valid is
taken, so that an entry keeps its slot until ERR_ACK makes it not valid (R593); on a full ring a FATAL record overwrites, and any
other is dropped. -/
def recordErr (d : Dev) (die : Nat) (x : ErrInfo) : Dev :=
  let r := getRing d die
  match findEntry r (isRepeat · x) with
  | some e =>
    let en := ringEntry r e
    let en' : ErrEntry := { en with rep := satAdd 0xFFFF en.rep 1, last := BitVec.ofNat 64 d.tick }
    setRing d die { r with entries := tset ErrEntry.empty r.entries e en' }
  | none =>
    match findEntry r (fun e => !e.valid) with
    | some e => takeEntry d die e x
    | none =>
      match x.sev, lowestEntry r with
      | .fatal, some e => takeEntry (setRing d die (ringDrop r)) die e x
      | _, _ => setRing d die (ringDrop r)

/-- An error record (R579), and the alert that it may bring (R586). The halt that a FATAL record brings is `logFatal`'s (Machine/Halt.lean). -/
def logErr (d : Dev) (die : Nat) (x : ErrInfo) : Dev := alertEdge (recordErr d die x)

/-- The event and error logic (R84). -/
def srcErr : Nat := 191

/-- The Abwick complex (R84). -/
def srcAbw : Nat := 190

/-- A write that the block ignores and logs (kind 68: register address and value) (R25). -/
def logIgnored (d : Dev) (die : Nat) (addr v : Nat) : Dev :=
  logErr d die ⟨srcErr, 68, .none, .info, 0, [addr, v]⟩

/-- The device address of a register (R16, R20). -/
def regAddr (n : RegName) (die i j : Nat) : Nat := 3 * 2 ^ 50 + die * 2 ^ 47 + regOff n i j

/-- A named register's ignored write. -/
def logIgnoredAt (d : Dev) (n : RegName) (die i j v : Nat) : Dev := logIgnored d die (regAddr n die i j) v

/-- Acknowledges entry e (R585). -/
def ackEntry (d : Dev) (die e : Nat) : Dev :=
  let r := getRing d die
  let en := ringEntry r e
  alertEdge (setRing d die { r with entries := tset ErrEntry.empty r.entries e { en with valid := false } })

end Sys2Proof.Machine
end

