-- ==== Sys2Proof/Machine/Stakes.lean ====
section
/-!
DEFINITION. Stakes and their hubs (R51 to R76): where a stake lies, the operations a hub applies, completions, wakes, refusals, and
the ports (R62).
-/

namespace Sys2Proof.Machine

/-- A stake as reset leaves it (R71 to R75). -/
def Stake.empty : Stake := ⟨0, 0, false, false, false, 0, false, false, []⟩

/-- A hub as reset leaves it (R76). -/
def Hub.empty : Hub := ⟨[], [], [], [], 0, 0⟩

/-- The die of a stake (R51). -/
def stakeDie (id : StakeId) : Nat := fld id 16 14

/-- The index of a stake on its die (R51). -/
def stakeIdx (id : StakeId) : Nat := fld id 13 0

/-- The hub of a stake: 0 to 11 for the clusters, 12 for the die stake hub (R51). -/
def stakeHub (id : StakeId) : Nat := if stakeIdx id < 15360 then stakeIdx id / 1280 else 12

/-- The stake of an identifier. -/
def getStake (d : Dev) (id : StakeId) : Stake := tget Stake.empty d.stakes id.toNat

/-- Writes a stake. -/
def setStake (d : Dev) (id : StakeId) (s : Stake) : Dev := { d with stakes := tset Stake.empty d.stakes id.toNat s }

/-- The hub h of a die. -/
def getHub (d : Dev) (die h : Nat) : Hub := tget Hub.empty d.hubs (13 * die + h)

/-- Writes a hub. -/
def setHub (d : Dev) (die h : Nat) (x : Hub) : Dev := { d with hubs := tset Hub.empty d.hubs (13 * die + h) x }

/-- A stake whose TARGET is 0 is treated as having 1 when AUTO_RESET is set (R64). -/
def Stake.goal (s : Stake) : Nat := if s.autoReset && decide (s.target = 0) then 1 else s.target.toNat

/-- COUNT ≥ TARGET, unsigned (R55). -/
def Stake.complete (s : Stake) : Bool := decide (s.goal ≤ s.count.toNat)

/-- The outcome a completed wait gives (R60). -/
def Stake.outcome (s : Stake) : Nat := if s.faulted then 1 else 0

/-- The source index of a hub (R84). -/
def hubSrc (h : Nat) : Nat := 144 + h

/-! ### Waking agents -/

/-- Writes a wait's outcome (R60): s31 of the sequencer, or p7 of every active thread of a crew; the wait is over. -/
def wakeAgent (d : Dev) (a : Agent) (serial outcome : Nat) : Dev :=
  match a with
  | .seq c =>
    let q := (getCore d c).w.seq
    if q.wait.map WaitRef.serial = some serial then
      modSeq d c fun q => { q with s := tset 0 q.s 31 (BitVec.ofNat 64 outcome), wait := none }
    else d
  | .crew c slot =>
    match getCrew d c slot with
    | some k =>
      if k.wait.map WaitRef.serial = some serial then
        let old := tget 0 k.p 7
        let new : W32 := if outcome = 0 then old ||| k.mask else old &&& ~~~k.mask
        setCrew d c slot (some { k with p := tset 0 k.p 7 new, wait := none })
      else d
    | none => d

/-- Wakes a waiter: an agent at once, a unit or a block through its own wake (R66). -/
def wakeWaiter (d : Dev) (outcome : Nat) (w : StakeWait) : Dev :=
  match w.w with
  | .agent a => wakeAgent d a w.serial outcome
  | u => { d with wakes := d.wakes ++ [⟨u, outcome⟩] }

/-- Wakes every registered waiter of a stake; a polling waiter is not registered and finds the stake by its own tests (R68). -/
def wakeAll (d : Dev) (id : StakeId) (outcome : Nat) : Dev :=
  let s := getStake d id
  (s.waiters.filter fun w => !w.polling).foldl (fun d w => wakeWaiter d outcome w)
    (setStake d id { s with waiters := s.waiters.filter StakeWait.polling })

/-- A completion (R55, R64): the stake-completion event if EVENT is set (R85), with the COUNT before any subtraction (log 150,
DESIGN CHOICE), the wake of the waiters, and with AUTO_RESET the one subtraction of TARGET. -/
def completion (d : Dev) (id : StakeId) : Dev :=
  let s := getStake d id
  let d := if s.event then
      raiseEvent d ⟨5, stakeDie id, hubSrc (stakeHub id), 0, BitVec.ofNat 64 d.tick, id.toNat, 0,
        BitVec.ofNat 64 (id.toNat + 2 ^ 32 * s.count.toNat), 0⟩
    else d
  let d := wakeAll d id s.outcome
  let s := getStake d id
  if s.autoReset then setStake d id { s with count := s.count - BitVec.ofNat 32 s.goal } else d

/-- Adds to COUNT (R56, R58, R59), with the saturation record and the completion that follows. -/
def stakeAdd (d : Dev) (id : StakeId) (inc : Nat) : Dev :=
  if inc = 0 then d else
  let s := getStake d id
  let was := s.complete
  let total := s.count.toNat + inc
  let sat := decide (0xFFFFFFFF < total)
  let s' : Stake := { s with count := BitVec.ofNat 32 (min total 0xFFFFFFFF), saturated := s.saturated || sat }
  let d := setStake d id s'
  let d := if sat then logErr d (stakeDie id) ⟨hubSrc (stakeHub id), 69, .none, .info, 0, [id.toNat]⟩ else d
  if s'.complete && (s.autoReset || !was) then completion d id else d

/-- A write to TARGET (R72): completion is evaluated again in the same cycle. -/
def stakeTarget (d : Dev) (id : StakeId) (v : W32) : Dev :=
  let s := getStake d id
  let was := s.complete
  let s' : Stake := { s with target := v }
  let d := setStake d id s'
  if s'.complete && (s.autoReset || !was) then completion d id
  else if s'.complete then wakeAll d id s'.outcome else d

/-- A reset (R56, R63): COUNT 0 and the new TARGET, SATURATED and FAULTED clear; waiters go on waiting unless the stake is left complete. -/
def stakeReset (d : Dev) (id : StakeId) (target : W32) : Dev :=
  let s := getStake d id
  let was := s.complete
  let s' : Stake := { s with count := 0, target := target, saturated := false, faulted := false }
  let d := setStake d id s'
  if s'.complete then
    (let d := if s.event && !was && !s.autoReset then
        raiseEvent d ⟨5, stakeDie id, hubSrc (stakeHub id), 0, BitVec.ofNat 64 d.tick, id.toNat, 0, BitVec.ofNat 64 id.toNat, 0⟩
      else d
     wakeAll d id 0)
  else d

/-- Clearing ENABLE (R74): waiters wake with outcome 1. -/
def stakeDisable (d : Dev) (id : StakeId) : Dev :=
  let d := wakeAll d id 1
  setStake d id { getStake d id with enable := false }

/-! ### Waiter sets -/

/-- The cluster of a waiter that lies in a core, with its die. -/
def waiterCore : Waiter → Option CoreId
  | .agent a => some a.core
  | .unit (.cube c _) _ | .unit (.chain c) _ | .unit (.quant c) _ | .unit (.tload c) _ | .unit (.sload c) _ => some c
  | .post c _ _ => some c
  | .unit (.link _) _ | .command _ _ | .frame _ _ _ => none

/-- Whether a waiter needs an entry of the hub's remote waiter table (R67): any waiter outside the hub's cluster, and every waiter of the
die stake hub. -/
def isRemote (id : StakeId) (w : Waiter) : Bool :=
  match waiterCore w with
  | some c => !(decide (c.die = stakeDie id) && decide (stakeHub id < 12) && decide (c.core / 12 = stakeHub id))
  | none => true

/-- The remote waiter entries in use at a hub (R67). -/
def remoteUsed (d : Dev) (die h : Nat) : Nat :=
  (d.stakes.map fun p =>
    let id : StakeId := BitVec.ofNat 17 p.1
    if stakeDie id = die ∧ stakeHub id = h then (p.2.waiters.filter fun w => w.remote && !w.polling).length else 0).sum

/-- The size of a hub's remote waiter table (R67). -/
def remoteRoom (h : Nat) : Nat := if h = 12 then 512 else 256

/-- Registers a waiter (R67, R68): one that finds the remote table full polls, and is counted. -/
def registerWait (d : Dev) (id : StakeId) (w : Waiter) (serial : Nat) : Dev :=
  let die := stakeDie id
  let h := stakeHub id
  let rem := isRemote id w
  let used := remoteUsed d die h
  let poll := rem && decide (remoteRoom h ≤ used)
  let s := getStake d id
  let d := setStake d id { s with waiters := s.waiters ++ [⟨w, rem, poll, serial⟩] }
  let hub := getHub d die h
  if poll then setHub d die h { hub with pollWaits := satAdd 0xFFFF hub.pollWaits 1 }
  else if rem then setHub d die h { hub with remotePeak := max hub.remotePeak (used + 1) } else d

/-- Takes a waiter out of a stake's set (a timeout, or a wait abandoned). -/
def dropWaiter (d : Dev) (id : StakeId) (serial : Nat) : Dev :=
  let s := getStake d id
  setStake d id { s with waiters := s.waiters.filter fun w => decide (w.serial ≠ serial) }

/-! ### Refusals (R53, R54) -/

/-- Why an operation on a stake is refused: ADDRESS_ABSENT for a die the part lacks (R52), STAKE_DENIED for a disabled stake or one
of another parcel (R53); none if it is not. -/
def stakeCheck (d : Dev) (id : StakeId) (parcel : Option Nat) : FaultCode :=
  if d.part.dies ≤ stakeDie id then .addressAbsent
  else
    let s := getStake d id
    if !s.enable || (parcel.map fun p => decide (p ≠ s.parcel)).getD false then .stakeDenied else .none

/-- The informational record of an arrival that is not made (R54, kind 72). -/
def logRefused (d : Dev) (id : StakeId) (unit die : Nat) (f : FaultCode) : Dev :=
  if stakeDie id < d.part.dies then
    logErr d (stakeDie id) ⟨hubSrc (stakeHub id), 72, f, .info, 0, [id.toNat, unit]⟩
  else logErr d die ⟨srcErr, 72, f, .info, 0, [id.toNat, unit]⟩

/-! ### Ports (R62) -/

/-- The queue of a port. -/
def Hub.port (x : Hub) : Nat → List StakeOp
  | 0 => x.q0
  | 1 => x.q1
  | 2 => x.q2
  | _ => x.q3

/-- Writes the queue of a port. -/
def Hub.setPort (x : Hub) (p : Nat) (q : List StakeOp) : Hub :=
  match p with
  | 0 => { x with q0 := q }
  | 1 => { x with q1 := q }
  | 2 => { x with q2 := q }
  | _ => { x with q3 := q }

/-- Whether a core is one of a hub's own (R62). -/
def ownCore (id : StakeId) (c : CoreId) : Bool :=
  decide (c.die = stakeDie id) && (decide (stakeHub id = 12) || decide (c.core / 12 = stakeHub id))

/-- Queues an operation at a port of the stake's hub. -/
def pushPort (d : Dev) (p : Nat) (op : StakeOp) : Dev :=
  let die := stakeDie op.stake
  let h := stakeHub op.stake
  let x := getHub d die h
  setHub d die h (x.setPort p (x.port p ++ [op]))

/-- An STK instruction's operation: port 0 from the hub's own cores, port 2 from elsewhere. -/
def pushAgent (d : Dev) (c : CoreId) (op : StakeOp) : Dev := pushPort d (if ownCore op.stake c then 0 else 2) op

/-- A core unit's own operation: port 1 from the hub's own cores, port 2 from elsewhere. -/
def pushUnit (d : Dev) (c : CoreId) (op : StakeOp) : Dev := pushPort d (if ownCore op.stake c then 1 else 2) op

/-- An operation of a block outside the cores: port 3 on its own die, port 2 from another die. -/
def pushBlock (d : Dev) (die : Nat) (op : StakeOp) : Dev := pushPort d (if stakeDie op.stake = die then 3 else 2) op

/-- A unit's arrival with increment 1 (R29), or its refusal (R54); `code` is the unit's number in kind 72. -/
def unitArrive (d : Dev) (c : CoreId) (id : StakeId) (code parcel inc : Nat) (faulted : Bool) : Dev :=
  if d.part.dies ≤ stakeDie id then logRefused d id code c.die .addressAbsent
  else pushUnit d c ⟨.arrive inc faulted, id, .unit code c.die, some parcel⟩

/-- A block's arrival (R54): only ENABLE and the die are checked where no parcel is given. -/
def blockArrive (d : Dev) (die : Nat) (id : StakeId) (code : Nat) (parcel : Option Nat) (inc : Nat) (faulted : Bool) : Dev :=
  if d.part.dies ≤ stakeDie id then logRefused d id code die .addressAbsent
  else pushBlock d die ⟨.arrive inc faulted, id, .unit code die, parcel⟩

/-- A unit begins a wait on a stake (R66): the wait goes to the hub; the serial names it. -/
def unitWait (d : Dev) (w : Waiter) (id : StakeId) (parcel : Nat) (serial : Nat) : Dev :=
  let op : StakeOp := ⟨.wait w serial, id, .unit 0 w.die, some parcel⟩
  match waiterCore w with
  | some c => pushUnit d c op
  | none => pushBlock d w.die op

/-- Takes a unit's wake, if it has come. -/
def takeWake (d : Dev) (w : Waiter) : Option (Nat × Dev) :=
  match d.wakes.find? (fun x => decide (x.w = w)) with
  | some x => some (x.outcome, { d with wakes := d.wakes.erase x })
  | none => none

/-- Drops every wait of a waiter: from stakes, from hub queues and from wakes under way (R464, R186). -/
def cancelWaits (d : Dev) (w : Waiter) : Dev :=
  let keep (op : StakeOp) : Bool := match op.act with
    | .wait x _ => decide (x ≠ w)
    | _ => true
  { d with
    stakes := (d.stakes.map fun p => (p.1, { p.2 with waiters := p.2.waiters.filter fun x => decide (x.w ≠ w) })).filter
      fun p => decide (p.2 ≠ Stake.empty)
    hubs := (d.hubs.map fun p => (p.1, { p.2 with
      q0 := p.2.q0.filter keep, q1 := p.2.q1.filter keep, q2 := p.2.q2.filter keep, q3 := p.2.q3.filter keep })).filter
      fun p => decide (p.2 ≠ Hub.empty)
    wakes := d.wakes.filter fun x => decide (x.w ≠ w) }

end Sys2Proof.Machine
end

