-- ==== Sys2Proof/Machine/Memory.lean ====
section
/-!
DEFINITION. Memory (00, 11): where an address lies (R16 to R21, R362 to R365, R369), bytes by physical place, poison (R383 to R385),
retirement (R386), the cache slices (R366 to R372), and the accesses other blocks make through them.

Physical places: HBM byte = (32 × die + channel) × 2^32 + channel address; reservoir scratch = 2^48 + (16 × die + slice) × 2^24 +
byte of the slice; core store = 2^49 + (144 × die + core) × 2^21 + offset.
-/

namespace Sys2Proof.Machine

/-! ### Bytes -/

/-- What an unlisted byte reads as: memory is zero at package ready (R644). -/
def unlisted : Byte := 0

/-- The canonical form of memory: addresses strictly rising, no listed byte equal to what an unlisted one reads as. -/
def Memory.wf (m : List Host.Cell) : Bool := twf unlisted m

/-- The byte at a physical place. -/
def memByte (d : Dev) (k : Nat) : Byte := tget unlisted d.mem k

/-- n bytes from a physical place. -/
def memBytes (d : Dev) (k n : Nat) : List Byte := (List.range n).map fun i => memByte d (k + i)

/-- Writes bytes from a physical place. -/
def memPut (d : Dev) (k : Nat) (bs : List Byte) : Dev :=
  { d with mem := (bs.zipIdx).foldl (fun m b => tset unlisted m (k + b.2) b.1) d.mem }

/-! ### Addresses -/

/-- SPACE of an address (R16). -/
def spaceOf (a : Addr) : Nat := fld a 51 50

/-- DIE of an address (R16). -/
def dieOf (a : Addr) : Nat := fld a 49 47

/-- OFFSET of an address (R16). -/
def offOf (a : Addr) : Nat := fld a 46 0

/-- The address of an offset in a space of a die (R16). -/
def mkAddr (space die off : Nat) : Addr := BitVec.ofNat 52 (space * 2 ^ 50 + die * 2 ^ 47 + off)

/-- The HBM controller and the channel within it of channel c of a die (R358). -/
def chanReg (d : Dev) (n : RegName) (die c : Nat) : W64 := regGet d n die (c / 16) (c % 16)

/-- A channel is on the live list (R361, R397). -/
def chanLive (d : Dev) (die c : Nat) : Bool := decide (fld (chanReg d .hbmChan die c) 0 0 = 1)

/-- The live list of a die (R361). -/
def liveList (d : Dev) (die : Nat) : List Nat := (List.range 32).filter (chanLive d die)

/-- Channel capacity (R358). -/
def chanBytes : Nat := 3 * 2 ^ 30

/-- A die's physical capacity (R361). -/
def capacity (d : Dev) (die : Nat) : Nat := (liveList d die).length * chanBytes

/-- HBM_MAP.STRIPE_GIB in bytes (R362). -/
def stripeBytes (d : Dev) (die : Nat) : Nat := rfld d .hbmMap die 0 0 14 8 * 2 ^ 30

/-- The slices of a die that are scratchpads, in slice order (R369, R399). -/
def scratchSlices (d : Dev) (die : Nat) : List Nat :=
  (List.range 16).filter fun s => (regGet d .resSliceCfg die 0 0).getLsbD s

/-- Bytes of reservoir scratch of a die (R369). -/
def scratchBytes (d : Dev) (die : Nat) : Nat := (scratchSlices d die).length * (12 * 2 ^ 20)

/-- The channel and channel address of a physical offset (R363). -/
def spread (d : Dev) (die p : Nat) : Nat × Nat :=
  let live := liveList d die
  let n := live.length
  let mode := rfld d .hbmMap die 0 0 1 0
  if mode = 2 then (live.getD (p / chanBytes) 0, p % chanBytes)
  else
    let g := if mode = 1 then 4096 else 256
    (live.getD (p / g % n) 0, p / g / n * g + p % g)

/-- The key of a byte of a channel. -/
def hbmKey (die chan caddr : Nat) : Nat := (32 * die + chan) * 2 ^ 32 + caddr

/-- The key of a byte of a scratchpad slice. -/
def scratchKey (die slice off : Nat) : Nat := 2 ^ 48 + (16 * die + slice) * 2 ^ 24 + off

/-- The key of a byte of a core store. -/
def storeKey (c : CoreId) (off : Nat) : Nat := 2 ^ 49 + ckey c * 2 ^ 21 + off

/-- Bytes of a core store (R19). -/
def storeBytes : Nat := 0x180000

/-- Where an address lies. -/
inductive Place where
  | hbm (die chan caddr : Nat)
  | scratch (die slice off : Nat)
  | store (c : CoreId) (off : Nat)
  | reg (die off : Nat)
deriving DecidableEq, Repr

/-- The physical key of a place in memory. -/
def Place.key : Place → Nat
  | .hbm die chan caddr => hbmKey die chan caddr
  | .scratch die slice off => scratchKey die slice off
  | .store c off => storeKey c off
  | .reg _ _ => 0

/-- Register space's ranges (R20): core pages, cluster pages, die blocks 0 to 7. -/
def regRange (off : Nat) : Bool :=
  decide (off < 0x900000) || (decide (0x1000000 ≤ off) && decide (off < 0x1C00000)) ||
    (decide (0x10000000 ≤ off) && decide (off < 0x18000000))

/-- The place of an address, or none where R21 gives ADDRESS_ABSENT. -/
def resolve (d : Dev) (a : Addr) : Option Place :=
  let o := offOf a
  let die := dieOf a
  match spaceOf a with
  | 0 =>
    if die < d.part.dies ∧ o < capacity d die - stripeBytes d die then
      let x := spread d die o
      some (.hbm die x.1 x.2)
    else none
  | 1 =>
    let n := d.part.dies
    if die = 0 ∧ o < n * stripeBytes d 0 then
      let g := o / 4096
      let h := g % n
      let x := spread d h (capacity d h - stripeBytes d h + g / n * 4096 + o % 4096)
      some (.hbm h x.1 x.2)
    else none
  | 2 =>
    if d.part.dies ≤ die then none
    else if o < 0x100000000000 then
      if o < scratchBytes d die then
        let sl := scratchSlices d die
        let l := o / 64
        some (.scratch die (sl.getD (l % sl.length) 0) (l / sl.length * 64 + o % 64))
      else none
    else
      let r := o - 0x100000000000
      if r < 144 * 0x200000 ∧ r % 0x200000 < storeBytes then some (.store ⟨die, r / 0x200000⟩ (r % 0x200000)) else none
  | _ => if die < d.part.dies ∧ regRange o then some (.reg die o) else none

/-- The first offset beyond the region that an offset lies in (R17 to R20). -/
def regionEnd (d : Dev) (a : Addr) : Nat :=
  let o := offOf a
  match spaceOf a with
  | 0 => capacity d (dieOf a) - stripeBytes d (dieOf a)
  | 1 => d.part.dies * stripeBytes d 0
  | 2 => if o < 0x100000000000 then scratchBytes d (dieOf a) else o - o % 0x200000 + storeBytes
  | _ => 0x18000000

/-- An extent lies within one region of one space (R21). -/
def inRegion (d : Dev) (a : Addr) (len : Nat) : Bool :=
  (resolve d a).isSome && decide (offOf a + len ≤ regionEnd d a)

/-- An extent lies within one region of die-local or package-striped memory. -/
def inMemory (d : Dev) (a : Addr) (len : Nat) : Bool := decide (spaceOf a < 2) && inRegion d a len

/-- The device address of an offset of a core store (R19). -/
def storeAddr (c : CoreId) (off : Nat) : Addr := mkAddr 2 c.die (0x100000000000 + c.core * 0x200000 + off)

/-- The offset in a core's own store of an extent, if it lies there (R42). -/
def ownStore (c : CoreId) (a : Addr) (len : Nat) : Option Nat :=
  let base := 0x100000000000 + c.core * 0x200000
  let o := offOf a
  if spaceOf a = 2 ∧ dieOf a = c.die ∧ base ≤ o ∧ o + len ≤ base + storeBytes then some (o - base) else none

/-- The home slice of an HBM channel (R365). -/
def homeSlice (chan : Nat) : Nat := chan / 2

/-- The die-local (0) or package-striped (1) offset of a place in HBM: the inverse of R362 and R363. -/
def unspread (d : Dev) (die chan caddr : Nat) : Nat × Nat :=
  let live := liveList d die
  let n := live.length
  let slot := live.findIdx (fun c => decide (c = chan))
  let mode := rfld d .hbmMap die 0 0 1 0
  let p := if mode = 2 then slot * chanBytes + caddr
    else
      let g := if mode = 1 then 4096 else 256
      (caddr / g * n + slot) * g + caddr % g
  let base := capacity d die - stripeBytes d die
  if p < base then (0, p)
  else (1, ((p - base) / 4096 * d.part.dies + die) * 4096 + (p - base) % 4096)

/-! ### Poison -/

/-- A line or core-store word is poisoned. -/
def poisonedKey (d : Dev) (k : Nat) : Bool := tget false d.poison k

/-- Any line (HBM, scratch) or 8-byte word (core store) that n bytes at a place touch is poisoned (R384). -/
def poisoned (d : Dev) (p : Place) (n : Nat) : Bool :=
  let g := match p with
    | .store _ _ => 8
    | _ => 64
  let k := p.key
  (List.range ((k % g + n + g - 1) / g)).any fun i => poisonedKey d (k - k % g + g * i)

/-- Marks or clears poison. -/
def setPoison (d : Dev) (k : Nat) (b : Bool) : Dev := { d with poison := tset false d.poison k b }

/-- A write's effect on poison: a full 64-byte write clears a line's (R385); an aligned 8-byte write a core-store word's (R381). -/
def clearPoison (d : Dev) (p : Place) (n : Nat) : Dev :=
  let g := match p with
    | .store _ _ => 8
    | _ => 64
  let k := p.key
  (List.range ((k % g + n + g - 1) / g)).foldl (fun d i =>
    let w := k - k % g + g * i
    if k ≤ w ∧ w + g ≤ k + n then setPoison d w false else d) d

/-! ### Retirement -/

/-- A frame is in a die's retirement table (R386, R403). -/
def frameRetired (d : Dev) (die space frame : Nat) : Bool :=
  let lo := regKey .hbmRetire die 0 0
  d.regs.any fun p => decide (lo ≤ p.1) && decide (p.1 < lo + 8 * 4096) && decide (fld p.2 0 0 = 1) &&
    decide (fld p.2 1 1 = space) && decide (fld p.2 29 2 = frame)

/-- An address lies in a retired frame. -/
def retired (d : Dev) (a : Addr) (p : Place) : Bool :=
  match p with
  | .hbm die _ _ => frameRetired d die (spaceOf a) (offOf a / 4096)
  | _ => false

/-! ### Cache slices -/

/-- The key of a line's cache entry: the physical key of its first byte. -/
def lineKey (k : Nat) : Nat := k - k % 64

/-- The set index of a channel address (R367). -/
def setIndex (caddr : Nat) : Nat := Nat.xor (nfld caddr 19 6) (nfld caddr 31 20)

/-- The valid lines of one set of a slice of a die. -/
def setLines (d : Dev) (die slice idx : Nat) : List (Nat × CacheLine) :=
  d.cache.filterMap fun p =>
    match p.2 with
    | none => none
    | some l =>
      if p.1 / 2 ^ 32 / 32 = die ∧ homeSlice (p.1 / 2 ^ 32 % 32) = slice ∧ setIndex (p.1 % 2 ^ 32) = idx then some (p.1, l) else none

/-- The line to replace in a full set: the least recently used one that is not held (R367, R371). -/
def victim (ls : List (Nat × CacheLine)) : Option Nat :=
  (ls.filter fun p => !p.2.held).foldl (fun best p =>
    match best with
    | none => some p
    | some b => if p.2.used < b.2.used then some p else some b) none |>.map Prod.fst

/-- An access reaches a line in HBM through its home slice (R365 to R368, R371): a scratchpad slice passes it through; a cache slice
finds or allocates the line, marks it dirty on a write, and holds it on a HOLD read while fewer than WAYS ways of the set are held. -/
def touchLine (d : Dev) (p : Place) (write hold : Bool) : Dev :=
  match p with
  | .hbm die chan caddr =>
    let slice := homeSlice chan
    if (scratchSlices d die).contains slice then d
    else
      let k := lineKey p.key
      let set := setLines d die slice (setIndex caddr)
      let heldNow := (set.filter fun x => x.2.held).length
      let old := tget none d.cache k
      let isHeld := (old.map CacheLine.held).getD false
      let held := isHeld || (hold && decide (heldNow < rfld d .resHold die 0 0 3 0))
      let dirty := (old.map CacheLine.dirty).getD false || write
      let d := { d with clock := d.clock + 1 }
      let new := some (CacheLine.mk dirty held d.clock)
      if old.isSome || decide (set.length < 12) then { d with cache := tset none d.cache k new }
      else match victim set with
        | some v => { d with cache := tset none (tset none d.cache v none) k new }
        | none => d
  | _ => d

/-- Drops every valid line that meets a test (write-back, release and invalidation of R364, R370). -/
def dropLines (d : Dev) (f : Nat → Bool) : Dev := { d with cache := d.cache.filter fun p => !f p.1 }

/-- The die and slice of a cache key. -/
def keyDie (k : Nat) : Nat := k / 2 ^ 32 / 32

/-- The home slice of a cache key. -/
def keySlice (k : Nat) : Nat := homeSlice (k / 2 ^ 32 % 32)

/-- Lines held on a die (R400). -/
def heldLines (d : Dev) (die : Nat) : Nat :=
  (d.cache.filter fun p => decide (keyDie p.1 = die) && (p.2.map CacheLine.held).getD false).length

/-- Releases held lines that meet a test (R372): they stay valid. -/
def releaseLines (d : Dev) (f : Nat → Bool) : Dev :=
  { d with cache := d.cache.map fun p => if f p.1 then (p.1, p.2.map fun l => { l with held := false }) else p }

/-! ### Accesses -/

/-- The dies whose slices wait on a reconfiguration (R370): a request to HBM or scratch of such a die waits. -/
def placeBusy (d : Dev) (p : Place) : Bool :=
  match p with
  | .hbm die _ _ | .scratch die _ _ => decide (rfld d .resSliceCfg die 0 0 16 16 = 1)
  | _ => false

/-- The die of a place. -/
def Place.die : Place → Nat
  | .hbm die _ _ | .scratch die _ _ | .reg die _ => die
  | .store c _ => c.die

/-- A request of die x to a place waits: for a link of its route (R410), or for the slices (R370). -/
def reachBusy (d : Dev) (x : Nat) (p : Place) : Bool := routeBusy d x p.die || placeBusy d p

/-- A request of die x to some byte of an extent waits: an extent changes die only at a granule of 4 KiB (R362). -/
def extentBusy (d : Dev) (x : Nat) (a : Addr) (n : Nat) : Bool :=
  (List.range (n / 4096 + 2)).any fun i =>
    let o := min (4096 * i) (n - 1)
    ((resolve d (a + BitVec.ofNat 52 o)).map (reachBusy d x)).getD false

/-- Counts a request that a retired frame refuses (R404). -/
def countRefused (d : Dev) (p : Place) : Dev :=
  match p with
  | .hbm die _ _ => rcount d .hbmRetireStat die 0 0 31 16 1
  | _ => d

/-- Reads n bytes that lie in one line or core store: ADDRESS_ABSENT (R21), PAGE_RETIRED (R386), POISONED (R384), or the bytes. -/
def devRead (d : Dev) (a : Addr) (n : Nat) (hold : Bool) : Dev × Except FaultCode (List Byte) :=
  match resolve d a with
  | none | some (.reg _ _) => (d, .error .addressAbsent)
  | some p =>
    if !inRegion d a n then (d, .error .addressAbsent)
    else if retired d a p then (countRefused d p, .error .pageRetired)
    else
      let d := touchLine d p false hold
      if poisoned d p n then (d, .error .poisoned) else (d, .ok (memBytes d p.key n))

/-- Writes bytes that lie in one line or core store: ADDRESS_ABSENT, PAGE_RETIRED, or the effect; poison by R385. -/
def devWrite (d : Dev) (a : Addr) (bs : List Byte) : Dev × Except FaultCode Unit :=
  match resolve d a with
  | none | some (.reg _ _) => (d, .error .addressAbsent)
  | some p =>
    if !inRegion d a bs.length then (d, .error .addressAbsent)
    else if retired d a p then (countRefused d p, .error .pageRetired)
    else (memPut (clearPoison (touchLine d p true false) p bs.length) p.key bs, .ok ())

/-- The pieces of an extent, none of which crosses a 64-byte line: address and length. -/
def pieces (a : Addr) (n : Nat) : Nat → List (Addr × Nat)
  | 0 => []
  | fuel + 1 =>
    if n = 0 then [] else
    let k := min n (64 - a.toNat % 64)
    (a, k) :: pieces (a + BitVec.ofNat 52 k) (n - k) fuel

/-- Reads an extent line by line; the first line that refuses ends the read. -/
def devReadAll (d : Dev) (a : Addr) (n : Nat) : Dev × Except FaultCode (List Byte) :=
  (pieces a n (n / 64 + 2)).foldl (fun r x =>
    match r with
    | (d, .error f) => (d, .error f)
    | (d, .ok bs) =>
      match devRead d x.1 x.2 false with
      | (d, .error f) => (d, .error f)
      | (d, .ok more) => (d, .ok (bs ++ more))) (d, .ok [])

/-- Writes an extent line by line; the first line that refuses ends the write. -/
def devWriteAll (d : Dev) (a : Addr) (bs : List Byte) : Dev × Except FaultCode Unit :=
  (pieces a bs.length (bs.length / 64 + 2)).foldl (fun r x =>
    match r with
    | (d, .error f) => (d, .error f)
    | (d, .ok ()) =>
      devWrite d x.1 ((bs.drop (x.1.toNat - a.toNat)).take x.2)) (d, .ok ())

/-- The address lies in the text or data of a loaded image (R124). -/
def isReadonly (d : Dev) (a : Addr) (n : Nat) : Bool :=
  d.readonly.any fun r => decide (a.toNat < r.1.toNat + r.2) && decide (r.1.toNat < a.toNat + n)

/-- Bytes of a core's own store. -/
def storeRead (d : Dev) (c : CoreId) (off n : Nat) : List Byte := memBytes d (storeKey c off) n

/-- A little-endian number in a core's own store. -/
def storeNat (d : Dev) (c : CoreId) (off n : Nat) : Nat := leNat (storeRead d c off n)

/-- Writes a core's own store (poison of fully written words clears, R381). -/
def storeWrite (d : Dev) (c : CoreId) (off : Nat) (bs : List Byte) : Dev :=
  memPut (clearPoison d (.store c off) bs.length) (storeKey c off) bs

/-- A word of a core's own store that n bytes touch is poisoned. -/
def storePoisoned (d : Dev) (c : CoreId) (off n : Nat) : Bool := poisoned d (.store c off) n

/-- The 8-byte words of n words in a core's own store. -/
def storeWords (d : Dev) (c : CoreId) (off n : Nat) : List W64 :=
  (List.range n).map fun i => BitVec.ofNat 64 (storeNat d c (off + 8 * i) 8)

/-- Drops every byte and poison mark whose key lies in a range (memory set to zero). -/
def memClear (d : Dev) (lo n : Nat) : Dev :=
  { d with
    mem := d.mem.filter fun p => !(decide (lo ≤ p.1) && decide (p.1 < lo + n))
    poison := d.poison.filter fun p => !(decide (lo ≤ p.1) && decide (p.1 < lo + n)) }

/-! ### Deferred errors (R383) -/

/-- Poisons a line of HBM and logs its deferred error from a source. -/
def poisonLine (d : Dev) (die chan caddr src : Nat) : Dev :=
  let k := lineKey (hbmKey die chan caddr)
  if poisonedKey d k then d
  else
    let x := unspread d die chan (caddr - caddr % 64)
    logErr (setPoison d k true) die ⟨src, 16, .poisoned, .contained, 0, [x.1, x.2, chan, caddr - caddr % 64]⟩

/-- Poisons a line read from HBM: its channel's controller rewrites it with zero data and logs the deferred error. -/
def poisonHbm (d : Dev) (die chan caddr : Nat) : Dev :=
  let k := lineKey (hbmKey die chan caddr)
  if poisonedKey d k then d else poisonLine (memPut d k (List.replicate 64 0)) die chan caddr (176 + chan / 16)

/-- The offset in reservoir scratch of a byte of a scratchpad slice (R369). -/
def scratchOffset (d : Dev) (die slice off : Nat) : Nat :=
  let sl := scratchSlices d die
  (off / 64 * sl.length + sl.findIdx (fun s => decide (s = slice))) * 64 + off % 64

/-- Poisons a scratch line and logs the deferred error of its slice. -/
def poisonScratch (d : Dev) (die slice off : Nat) : Dev :=
  let k := lineKey (scratchKey die slice off)
  if poisonedKey d k then d
  else logErr (setPoison d k true) die ⟨160 + slice, 16, .poisoned, .contained, 0,
    [2, scratchOffset d die slice (off - off % 64), 0xFFFFFFFFFFFFFFFF, off / 64]⟩

/-- Poisons a word of a core store and logs the deferred error of the core. -/
def poisonStore (d : Dev) (c : CoreId) (off : Nat) : Dev :=
  let o := off - off % 8
  if poisonedKey d (storeKey c o) then d
  else logErr (setPoison d (storeKey c o) true) c.die ⟨c.core, 16, .poisoned, .contained, 0,
    [2, offOf (storeAddr c o), 0xFFFFFFFFFFFFFFFF, (storeAddr c o).toNat]⟩

/-- The die and slice that serve an address (R365, R369). -/
def sliceOf (d : Dev) (a : Addr) : Option (Nat × Nat) :=
  match resolve d a with
  | some (.hbm die ch _) => some (die, homeSlice ch)
  | some (.scratch die sl _) => some (die, sl)
  | _ => none

/-- A word of a line that a slice holds is in error (R377, R381): with a bit position, one bit, which the code corrects and the slice counts; with
none, uncorrectable: a scratch line or a dirty line is poisoned, a clean line is filled again from HBM and counted. None where the slice does not hold
the line. -/
def sliceWord (d : Dev) (die slice : Nat) (a : Addr) (bit : Option Nat) : Option Dev :=
  let corrected := rcount d .resSliceStat die 0 slice 47 32 1
  if sliceOf d a ≠ some (die, slice) then none
  else match resolve d a with
    | some (.scratch _ _ off) => some (if bit.isSome then corrected else poisonScratch d die slice off)
    | some (.hbm _ ch ca) =>
      (tget none d.cache (lineKey (hbmKey die ch ca))).map fun l =>
        if bit.isSome then corrected
        else if l.dirty then poisonLine d die ch ca (160 + slice)
        else rcount d .resSliceStat die 0 slice 63 48 1
    | _ => none

end Sys2Proof.Machine
end

