-- ==== Sys2Proof/Machine/Objects.lean ====
section
/-!
DEFINITION. Object slots and handles (R11 to R15): generations, liveness, and the check of a handle.
-/

namespace Sys2Proof.Machine

/-- An object slot before its first use (log 13). -/
def Obj.empty : Obj := ⟨0, false⟩

/-- The slot of a type and index. -/
def getObj (d : Dev) (type idx : Nat) : Obj := tget Obj.empty d.objs (type * 2 ^ 16 + idx)

/-- Writes a slot. -/
def setObj (d : Dev) (type idx : Nat) (o : Obj) : Dev := { d with objs := tset Obj.empty d.objs (type * 2 ^ 16 + idx) o }

/-- Object types (R11). -/
def typeChannel : Nat := 1
/-- Stream. -/
def typeStream : Nat := 2
/-- Media session. -/
def typeMedia : Nat := 3
/-- Roster group. -/
def typeGroup : Nat := 4
/-- Parcel. -/
def typeParcel : Nat := 5
/-- KV sequence. -/
def typeKv : Nat := 6

/-- Slots of a type's object table (R216, R305, R413, R450, R500, R527); 0 for a reserved type. -/
def tableSize (d : Dev) (type : Nat) : Nat :=
  match type with
  | 1 => 256
  | 2 => d.part.dies * 144 * 8
  | 3 => d.part.dies * 32
  | 4 => 256
  | 5 => 64
  | 6 => d.part.dies * 4096
  | _ => 0

/-- The next generation of a slot: one more, skipping 0 (R12). -/
def nextGen (g : Byte) : Byte := if g = 0xFF then 1 else g + 1

/-- The handle of a slot. -/
def handleOf (d : Dev) (type idx : Nat) : BitVec 32 :=
  BitVec.ofNat 32 ((getObj d type idx).gen.toNat * 2 ^ 24 + type * 2 ^ 16 + idx)

/-- The check of a handle (R13 to R15): the index it names, or BAD_HANDLE or STALE_HANDLE. A slot that holds no object is stale. -/
def checkHandle (d : Dev) (type : Nat) (h : BitVec 32) : Except FaultCode Nat :=
  let idx := fld h 15 0
  if fld h 23 16 ≠ type ∨ tableSize d type ≤ idx then .error .badHandle
  else
    let o := getObj d type idx
    if o.live && decide (o.gen.toNat = fld h 31 24) then .ok idx else .error .staleHandle

/-- Takes a slot for a new object (R12). -/
def openSlot (d : Dev) (type idx : Nat) : Dev :=
  setObj d type idx ⟨nextGen (getObj d type idx).gen, true⟩

/-- Frees a slot; its generation stands until the slot is reused (R12). -/
def closeSlot (d : Dev) (type idx : Nat) : Dev :=
  setObj d type idx { getObj d type idx with live := false }

end Sys2Proof.Machine
end

