-- ==== Sys2Proof/Machine/Agents.lean ====
section
/-!
DEFINITION. Sequencers and crews as agents: issuing an instruction, the faults of R39, R40 and R119, completions of launches and
operations (R29), and what they add to the part's account (R428 to R430).
-/

namespace Sys2Proof.Machine

/-! ### Running a command -/

/-- Runs a command's effect, once its operands lie in their fields (`wf`) and its dies are the part's, on everything but the queue. -/
def runOk (wf : Bool) (dies : List Nat) (f : Dev → Res) (s : State) : Host.Outcome State Fault Refusal :=
  if wf then
    if dies.all fun x => decide (x < s.dev.part.dies) then
      match f s.dev with
      | .next d => .next { s with dev := d }
      | .fault r => .fault r
      | .refused r => .refused r
    else .refused .absentUnit
  else .refused .illFormed

/-- Runs a command: `runOk` with the tests of its operands. (Rows from number 244 on call `runOk` directly, since compiled code
cannot build their constructors.) -/
def runCmd (i : Instr) (f : Dev → Res) (s : State) : Host.Outcome State Fault Refusal := runOk i.wf i.dies f s

/-! ### The part's account -/

/-- The source index of a core (R84). -/
def coreSrc (c : CoreId) : Nat := c.core

/-- One operation or launch of the running part has made its completion arrival: its fault with its subcode, and whether it completed with
EMPTY (R428 to R430). -/
def partDone (d : Dev) (c : CoreId) (f : FaultCode) (sub : Nat) (empty : Bool) : Dev :=
  modPart d c fun p => { p with
    out := p.out - 1
    empties := p.empties + b2n empty
    opFault := if p.opFault = .none then f else p.opFault
    opTick := if p.opFault = .none then d.tick else p.opTick
    opSub := if p.opFault = .none then sub else p.opSub }

/-- The part has issued one more operation or launch; `descr` marks a descriptor operation (R429). -/
def partIssue (d : Dev) (c : CoreId) (descr : Bool) : Dev :=
  modPart d c fun p => { p with out := p.out + 1, issued := p.issued + b2n descr }

/-- An operation completes (R29): the account, and the one arrival at its completion stake, with FAULTED where it failed; one that found its tile
claimed has not failed (R79). `sub` is the subcode of a hook program's illegal instruction (R230, R428). -/
def opDoneSub (d : Dev) (c : CoreId) (unit : Nat) (op : Op) (f : FaultCode) (sub : Nat) (empty : Bool) : Dev :=
  let f := if f = .alreadyClaimed then .none else f
  unitArrive (partDone d c f sub empty) c op.stake unit op.parcel 1 (decide (f ≠ .none))

/-- An operation completes without a subcode. -/
def opDone (d : Dev) (c : CoreId) (unit : Nat) (op : Op) (f : FaultCode) (empty : Bool) : Dev := opDoneSub d c unit op f 0 empty

/-- The parcel of the part on a core. -/
def parcelOf (d : Dev) (c : CoreId) : Nat := ((getCore d c).w.part.map PartRun.parcel).getD 0

/-- A launch completes (R36, R39): a program's launch arrives at its stake; a hook program's wakes the operation it belongs to (R230). -/
def launchDone (d : Dev) (c : CoreId) (l : Launch) (f : FaultCode) (sub : Nat) : Dev :=
  match l.hook with
  | some (u, serial) => { d with wakes := d.wakes ++ [⟨.post c u serial, f.num + 256 * sub⟩] }
  | none => unitArrive (partDone d c f sub false) c l.stake 3 (parcelOf d c) 1 (decide (f ≠ .none))

/-! ### Faults -/

/-- The device address of instruction pc of the image that runs on a core, which records name (R119; log 185, DEDUCED). -/
def pcAddr (d : Dev) (c : CoreId) (pc : Nat) : Nat :=
  (((getCore d c).w.part.map fun p => p.image.text.toNat).getD 0 + 8 * pc) % 2 ^ 52

/-- A fault in the sequencer (R40): the program stops, the part will complete with the code, and kind 65 is logged. -/
def seqFault (d : Dev) (c : CoreId) (f : FaultCode) (sub pc : Nat) (word : W64) : Dev :=
  let d := cancelWaits d (.agent (.seq c))
  let d := modSeq d c fun q => { q with st := .faulted, inflight := [], wait := none }
  let d := modPart d c fun p => if p.seqFault = .none then { p with seqFault := f, subcode := sub } else p
  logErr d c.die ⟨coreSrc c, 65, f, .info, sub, [pcAddr d c pc, word.toNat]⟩

/-- The slots whose crews belong to a launch. -/
def launchSlots (w : Work) (serial : Nat) : List Nat :=
  (List.range 64).filter fun i => decide ((tget none w.crews i).map Crew.launch = some serial)

/-- Frees a crew slot and drops what its crew waits for. -/
def freeSlot (d : Dev) (c : CoreId) (slot : Nat) : Dev :=
  modWork (cancelWaits d (.agent (.crew c slot))) c fun w => { w with
    crews := tset none w.crews slot none
    plumbRng := w.plumbRng.filter fun p => decide (p.1 / 32 ≠ slot) }

/-- The running launch of a number. -/
def findLaunch (w : Work) (serial : Nat) : Option Launch := w.launches.find? fun l => decide (l.serial = serial)

/-- A fault in a crew (R39): every crew of the launch stops, kind 64 is logged once with the first faulting crew, VEC_STATUS.FAULTS
counts the launch (R283), and the launch arrives with FAULTED. `lane` is the failing lane that an address fault's record names, above the crew index (R260,
R581; log 19). -/
def crewFaultAt (d : Dev) (c : CoreId) (slot : Nat) (f : FaultCode) (sub pc : Nat) (word : W64) (lane : Nat) : Dev :=
  match getCrew d c slot with
  | none => d
  | some k =>
    let w := (getCore d c).w
    let d := logErr d c.die ⟨coreSrc c, 64, f, .info, sub, [k.idx + 2 ^ 32 * lane, pcAddr d c pc, word.toNat]⟩
    let d := rcount d .vecStatus c.die c.core 0 31 16 1
    let d := (launchSlots w k.launch).foldl (fun d s => freeSlot d c s) d
    let d := modWork d c fun w => { w with launches := w.launches.filter fun l => decide (l.serial ≠ k.launch) }
    match findLaunch w k.launch with
    | some l => launchDone d c l f sub
    | none => d

/-- A fault in a crew whose record names no lane. -/
def crewFault (d : Dev) (c : CoreId) (slot : Nat) (f : FaultCode) (sub pc : Nat) (word : W64) : Dev := crewFaultAt d c slot f sub pc word 0

/-- A fault in an agent. -/
def agentFault (d : Dev) (a : Agent) (f : FaultCode) (sub pc : Nat) (word : W64) : Dev :=
  match a with
  | .seq c => seqFault d c f sub pc word
  | .crew c slot => crewFault d c slot f sub pc word

/-! ### Issuing -/

/-- Instructions of the text region of the image on a core (R116, R120). -/
def textLen (d : Dev) (c : CoreId) : Nat := ((getCore d c).w.part.map fun p => p.image.textSize / 8).getD 0

/-- The core takes instructions: it runs a part, is not fenced and is not stopping for a pre-emption (R464). -/
def coreRuns (k : Core) : Bool := decide (k.sched = 1) && !k.fenced && !k.stopping

/-- The sequencer may issue: it runs, and waits for no stake (R60). -/
def seqReady (d : Dev) (c : CoreId) : Bool :=
  let k := getCore d c
  coreRuns k && decide (k.w.seq.st = .running) && k.w.seq.wait.isNone && !stopped d c.die

/-- A crew of a hook program (R230). -/
def hookCrew (w : Work) (x : Crew) : Bool := ((findLaunch w x.launch).map fun l => l.hook.isSome).getD false

/-- The crew in a slot may issue; while the core stops for a pre-emption only hook programs go on, since the operations they belong to run
to their end (R464). -/
def crewReady (d : Dev) (c : CoreId) (slot : Nat) : Bool :=
  let k := getCore d c
  match getCrew d c slot with
  | none => false
  | some x =>
    decide (k.sched = 1) && !k.fenced && (!k.stopping || hookCrew k.w x) && x.wait.isNone && !stopped d c.die

/-- An agent may issue. -/
def agentReady (d : Dev) (a : Agent) : Bool :=
  match a with
  | .seq c => seqReady d c
  | .crew c slot => crewReady d c slot

/-- The program counter of an agent. -/
def agentPc (d : Dev) (a : Agent) : Nat :=
  match a with
  | .seq c => (getCore d c).w.seq.pc
  | .crew c slot => ((getCrew d c slot).map Crew.pc).getD 0

/-- Sets the program counter of an agent. -/
def setPc (d : Dev) (a : Agent) (pc : Nat) : Dev :=
  match a with
  | .seq c => modSeq d c fun q => { q with pc := pc }
  | .crew c slot => setCrew d c slot ((getCrew d c slot).map fun k => { k with pc := pc })

/-- Moves an agent past its instruction. -/
def stepPc (d : Dev) (a : Agent) : Dev := setPc d a (agentPc d a + 1)

/-- Branches an agent by an offset counted from the instruction (R95), or faults it with FETCH_RANGE outside the text region (R116). -/
def branch (d : Dev) (a : Agent) (off : Int) (word : W64) : Dev :=
  let t : Int := (agentPc d a : Int) + off
  if 0 ≤ t ∧ t < textLen d a.core then setPc d a t.toNat else agentFault d a .fetchRange 0 (agentPc d a) word

/-- The registers an agent has in flight (R682). -/
def agentInflight (d : Dev) (a : Agent) : List Nat :=
  match a with
  | .seq c => (getCore d c).w.seq.inflight
  | .crew c slot => ((getCrew d c slot).map Crew.inflight).getD []

/-- Issues an instruction: the agent is ready and within the text region; an operand test that fails is an illegal instruction
(R118, R119); an instruction that names a register in flight waits (R125, R682); otherwise `f` is its effect. -/
def issue (row : String) (a : Agent) (i : Instr) (regs : List Nat) (f : Dev → W64 → Res) (d : Dev) : Res :=
  if !agentReady d a || decide (textLen d a.core ≤ agentPc d a) then .refused (.notEnabled row)
  else
    let word := (encode i).getD 0
    if operandSub i ≠ 0 then .next (agentFault d a .illegalInstruction (operandSub i) (agentPc d a) word)
    else if regs.any fun r => decide (r ∈ agentInflight d a) then .next d
    else f d word

/-- Issues an instruction whose effect always leaves the agent after it. -/
def issueStep (row : String) (a : Agent) (i : Instr) (regs : List Nat) (f : Dev → Dev) (d : Dev) : Res :=
  issue row a i regs (fun d _ => .next (stepPc (f d) a)) d

/-- A scalar register. -/
def sreg (d : Dev) (c : CoreId) (r : Nat) : W64 := tget 0 (getCore d c).w.seq.s r

/-- Writes a scalar register. -/
def setSreg (d : Dev) (c : CoreId) (r : Nat) (v : W64) : Dev := modSeq d c fun q => { q with s := tset 0 q.s r v }

/-- An address register. -/
def areg (d : Dev) (c : CoreId) (r : Nat) : Addr := tget 0 (getCore d c).w.seq.a r

/-- Writes an address register (R91). -/
def setAreg (d : Dev) (c : CoreId) (r : Nat) (v : Addr) : Dev := modSeq d c fun q => { q with a := tset 0 q.a r v }

/-- A vector register of a lane. -/
def Crew.reg (k : Crew) (lane r : Nat) : W32 := tget 0 k.v (64 * lane + r)

/-- Writes a vector register of a lane. -/
def Crew.setReg (k : Crew) (lane r : Nat) (x : W32) : Crew := { k with v := tset 0 k.v (64 * lane + r) x }

/-- A predicate over the threads; p0 reads as true (R32). -/
def Crew.pred (k : Crew) (p : Nat) : W32 := if p = 0 then BitVec.allOnes 32 else tget 0 k.p p

/-- Writes a predicate; a write to p0 is discarded (R32). -/
def Crew.setPred (k : Crew) (p : Nat) (x : W32) : Crew := if p = 0 then k else { k with p := tset 0 k.p p x }

/-- The threads an instruction runs in (R96): the active ones its predicate selects. -/
def Crew.runs (k : Crew) (pred : BitVec 3) (pneg : BitVec 1) : W32 :=
  k.mask &&& (if pneg = 1 then ~~~k.pred pred.toNat else k.pred pred.toNat)

/-- The lowest-numbered active thread (R98). -/
def Crew.lowest (k : Crew) : Option Nat := (List.range 32).find? fun i => k.mask.getLsbD i

/-- Writes a value to a vector register of every thread of a mask. -/
def Crew.writeAll (k : Crew) (m : W32) (r : Nat) (f : Nat → W32) : Crew :=
  (List.range 32).foldl (fun k i => if m.getLsbD i then k.setReg i r (f i) else k) k

/-- Applies f to the crew in a slot. -/
def modCrew (d : Dev) (c : CoreId) (slot : Nat) (f : Crew → Crew) : Dev := setCrew d c slot ((getCrew d c slot).map f)

end Sys2Proof.Machine
end

