-- ==== Sys2Proof/Machine/Numerics.lean ====
section
/-!
DEFINITION. Number formats, exact values and rounding (03): the layouts of R127 to R129, the four rounding modes (R139, R141, R143),
range limits (R144 to R147), signed zeros, NaN and infinity (R148 to R151), and the FP32 operations the units are built from.
-/

namespace Sys2Proof.Machine

/-- An exact value: NaN, an infinity, or ±m × 2^e (a zero keeps its sign). -/
inductive FV where
  | nan
  | inf (neg : Bool)
  | fin (neg : Bool) (m : Nat) (e : Int)
deriving DecidableEq, Repr

/-- A floating-point storage format (R127): exponent and significand widths, bias, the code of the largest finite value, whether it has
infinities, and its canonical NaN (R149). -/
structure Fmt where
  eb : Nat
  mb : Nat
  bias : Nat
  maxCode : Nat
  hasInf : Bool
  nan : Nat
deriving DecidableEq, Repr

def fp32 : Fmt := ⟨8, 23, 127, 0x7F7FFFFF, true, 0x7FC00000⟩
def bf16 : Fmt := ⟨8, 7, 127, 0x7F7F, true, 0x7FC0⟩
def fp16 : Fmt := ⟨5, 10, 15, 0x7BFF, true, 0x7E00⟩
def e4m3 : Fmt := ⟨4, 3, 7, 0x7E, false, 0x7F⟩
def e5m2 : Fmt := ⟨5, 2, 15, 0x7B, true, 0x7E⟩
def e2m3 : Fmt := ⟨2, 3, 1, 0x1F, false, 0⟩
def e3m2 : Fmt := ⟨3, 2, 3, 0x1F, false, 0⟩
def e2m1 : Fmt := ⟨2, 1, 1, 0x7, false, 0⟩

/-- The sign bit's weight. -/
def Fmt.signBit (f : Fmt) : Nat := 2 ^ (f.eb + f.mb)

/-- The code of +infinity. -/
def Fmt.infCode (f : Fmt) : Nat := (2 ^ f.eb - 1) * 2 ^ f.mb

/-- Whether a magnitude code is a NaN (R127). -/
def Fmt.isNan (f : Fmt) (mag : Nat) : Bool :=
  if f.hasInf then decide (f.infCode < mag) else decide (f.eb = 4) && decide (mag = 0x7F)

/-- The value of a code (R127). -/
def Fmt.val (f : Fmt) (bits : Nat) : FV :=
  let b := bits % (2 * f.signBit)
  let neg := decide (f.signBit ≤ b)
  let mag := b % f.signBit
  let ex := mag / 2 ^ f.mb
  let mant := mag % 2 ^ f.mb
  if f.isNan mag then .nan
  else if f.hasInf && decide (mag = f.infCode) then .inf neg
  else if ex = 0 then .fin neg mant (1 - (f.bias : Int) - f.mb)
  else .fin neg (2 ^ f.mb + mant) ((ex : Int) - f.bias - f.mb)

/-- The exponent of the lowest set bit of a nonzero number. -/
def lowBit (m : Nat) : Nat := Nat.log2 (Nat.gcd m (2 ^ (Nat.log2 m + 1)))

/-- The rounding modes of R111; a stochastic rounding carries its draw and whether it is in reduced mode (R143). -/
inductive Rnd where
  | rne | rna | rtz
  | sr (draw : W32) (reduced : Bool)
deriving DecidableEq, Repr

/-- Whether a magnitude of k + rem / 2^sh units rounds up to k + 1 units (R139, R141); low is the exponent of the lowest set bit below the
unit, as a count of bits. -/
def roundUp (rnd : Rnd) (k rem sh bitsBelow : Nat) : Bool :=
  match rnd with
  | .rne => decide (2 ^ sh < 2 * rem) || (decide (2 * rem = 2 ^ sh) && decide (0 < sh) && decide (k % 2 = 1))
  | .rna => decide (0 < sh) && decide (2 ^ sh ≤ 2 * rem)
  | .rtz => false
  | .sr draw reduced =>
    let c := min bitsBelow (if reduced then 4 else 32)
    let f := rem * 2 ^ c / 2 ^ sh
    decide (2 ^ c ≤ f + draw.toNat % 2 ^ c)

/-- A rounded code with the counts of R153: whether it was clamped, and whether it was flushed. -/
structure Rounded where
  code : Nat
  sat : Bool
  flush : Bool
deriving DecidableEq, Repr

/-- A code with its sign. -/
def Fmt.signed (f : Fmt) (neg : Bool) (mag : Nat) : Nat := if neg then f.signBit + mag else mag

/-- Rounds a nonzero magnitude m × 2^e to units of a format: the unit's exponent and the count of units (R139, R141). -/
def Fmt.units (f : Fmt) (rnd : Rnd) (m : Nat) (e : Int) : Int × Nat :=
  let top : Int := (Nat.log2 m : Int) + e
  let emin : Int := 1 - (f.bias : Int)
  let u : Int := max top emin - f.mb
  if u ≤ e then (u, m * 2 ^ (e - u).toNat)
  else
    let sh := (u - e).toNat
    let k := m / 2 ^ sh
    let rem := m % 2 ^ sh
    let below := (u - (e + lowBit m)).toNat
    (u, if roundUp rnd k rem sh below then k + 1 else k)

/-- The magnitude code of k units of exponent u (k at most 2^(mb + 1)). -/
def Fmt.codeOf (f : Fmt) (u : Int) (k : Nat) : Nat :=
  if k < 2 ^ f.mb then k
  else
    let ex : Int := u + f.mb + f.bias
    ex.toNat * 2 ^ f.mb + (k - 2 ^ f.mb)

/-- Rounds an exact value to a format (R139 to R149): rounding mode, flush (R147), saturate (R145); under both nearest modes a magnitude of at least
the largest finite value and half an ulp overflows (R144); `clampInf` is the output conversion's
clamp of an infinity under its saturate bit (R156). -/
def Fmt.round (f : Fmt) (rnd : Rnd) (ftz sat clampInf : Bool) (v : FV) : Rounded :=
  match v with
  | .nan => ⟨f.nan, false, false⟩
  | .inf neg =>
    if !f.hasInf || (sat && clampInf) then ⟨f.signed neg f.maxCode, true, false⟩ else ⟨f.signed neg f.infCode, false, false⟩
  | .fin neg m e =>
    if m = 0 then ⟨f.signed neg 0, false, false⟩
    else
      let x := f.units rnd m e
      let mag := f.codeOf x.1 x.2
      let away := f.units .rna m e
      if f.maxCode < (if rnd = .rne then f.codeOf away.1 away.2 else mag) then
        match rnd with
        | .rtz => ⟨f.signed neg f.maxCode, true, false⟩
        | _ => if sat || !f.hasInf then ⟨f.signed neg f.maxCode, true, false⟩ else ⟨f.signed neg f.infCode, false, false⟩
      else if ftz && decide (mag < 2 ^ f.mb) && decide (0 < mag) then ⟨f.signed neg 0, false, true⟩
      else
        let beyond := decide (mag = f.maxCode) && decide (e < x.1) && decide (m % 2 ^ (x.1 - e).toNat ≠ 0)
        ⟨f.signed neg mag, decide (rnd = .rtz) && beyond, false⟩

/-- Reads an input under the flush of R147. -/
def Fmt.read (f : Fmt) (ftz : Bool) (bits : Nat) : FV :=
  let mag := bits % f.signBit
  if ftz && decide (mag < 2 ^ f.mb) then .fin (decide (f.signBit ≤ bits % (2 * f.signBit))) 0 0 else f.val bits

/-! ### Exact arithmetic (R148, R150, R151) -/

/-- The value of an integer. -/
def FV.ofInt (i : Int) : FV := .fin (decide (i < 0)) i.natAbs 0

/-- A finite value as an integer multiple of 2^e0, for an e0 at or below its exponent. -/
def scaled (neg : Bool) (m : Nat) (e e0 : Int) : Int :=
  let x : Int := m * 2 ^ (e - e0).toNat
  if neg then -x else x

/-- The exact sum. -/
def FV.add (x y : FV) : FV :=
  match x, y with
  | .nan, _ | _, .nan => .nan
  | .inf a, .inf b => if a = b then .inf a else .nan
  | .inf a, _ => .inf a
  | _, .inf b => .inf b
  | .fin a m e, .fin b n f =>
    if m = 0 ∧ n = 0 then .fin (a && b) 0 0
    else if m = 0 then y
    else if n = 0 then x
    else
      let e0 := min e f
      let s := scaled a m e e0 + scaled b n f e0
      .fin (decide (s < 0)) s.natAbs e0

/-- The exact negation. -/
def FV.neg (x : FV) : FV :=
  match x with
  | .nan => .nan
  | .inf a => .inf !a
  | .fin a m e => .fin (!a) m e

/-- The exact product. -/
def FV.mul (x y : FV) : FV :=
  match x, y with
  | .nan, _ | _, .nan => .nan
  | .inf a, .inf b => .inf (a != b)
  | .inf a, .fin b n _ => if n = 0 then .nan else .inf (a != b)
  | .fin a m _, .inf b => if m = 0 then .nan else .inf (a != b)
  | .fin a m e, .fin b n f => .fin (a != b) (m * n) (e + f)

/-- The exact product by a power of two. -/
def FV.scale (x : FV) (k : Int) : FV :=
  match x with
  | .fin a m e => .fin a m (e + k)
  | v => v

/-- Ordering of two values that are not NaN: x < y. -/
def FV.lt (x y : FV) : Bool :=
  match x, y with
  | .nan, _ | _, .nan => false
  | .inf a, .inf b => a && !b
  | .inf a, _ => a
  | _, .inf b => !b
  | .fin a m e, .fin b n f =>
    let e0 := min e f
    decide (scaled a m e e0 < scaled b n f e0)

/-- Equality of values: the zeros are equal, a NaN equals nothing (R112, R148). -/
def FV.eqv (x y : FV) : Bool :=
  match x, y with
  | .nan, _ | _, .nan => false
  | _, _ => !x.lt y && !y.lt x

/-- Whether a value is NaN. -/
def FV.isNan : FV → Bool
  | .nan => true
  | _ => false

/-- Whether a value is negative, a −0 among them. -/
def FV.isNeg : FV → Bool
  | .nan => false
  | .inf a => a
  | .fin a _ _ => a

/-- Whether a value is a zero. -/
def FV.isZero : FV → Bool
  | .fin _ m _ => decide (m = 0)
  | _ => false

/-- VEC.MIN (R148, R150). -/
def FV.min (x y : FV) : FV :=
  if x.isNan then y else if y.isNan then x
  else if x.lt y then x else if y.lt x then y else if x.isNeg then x else y

/-- VEC.MAX (R148, R150). -/
def FV.max (x y : FV) : FV :=
  if x.isNan then y else if y.isNan then x
  else if x.lt y then y else if y.lt x then x else if x.isNeg then y else x

/-- A value rounded to FP32 with ties to even, as a value. -/
def r32 (v : FV) : FV := fp32.val (fp32.round .rne false false false v).code

/-- A value rounded to FP32 toward zero, as a value. -/
def z32 (v : FV) : FV := fp32.val (fp32.round .rtz false false false v).code

/-- The FP32 code of a value rounded with ties to even. -/
def c32 (v : FV) : W32 := BitVec.ofNat 32 (fp32.round .rne false false false v).code

/-- The value of an FP32 word. -/
def v32 (w : W32) : FV := fp32.val w.toNat

/-- FP32 addition with ties to even. -/
def add32 (x y : W32) : W32 := c32 ((v32 x).add (v32 y))

/-- FP32 subtraction with ties to even. -/
def sub32 (x y : W32) : W32 := c32 ((v32 x).add (v32 y).neg)

/-- FP32 multiplication with ties to even. -/
def mul32 (x y : W32) : W32 := c32 ((v32 x).mul (v32 y))

/-- FP32 fused multiply-add with ties to even. -/
def fma32 (x y z : FV) : FV := r32 ((x.mul y).add z)

/-- One level of a fixed pairwise tree: neighbours are combined in order, an odd last element goes up alone. -/
def pairUp {α : Type} (f : α → α → α) : List α → List α
  | a :: b :: t => f a b :: pairUp f t
  | l => l

/-- The fixed pairwise tree (R136, R237): level by level until one value remains. -/
def treeFold {α : Type} (f : α → α → α) : Nat → List α → List α
  | 0, l => l
  | n + 1, l => if l.length ≤ 1 then l else treeFold f n (pairUp f l)

/-- The fixed pairwise tree with a value for an empty list. -/
def fixedTree {α : Type} (f : α → α → α) (z : α) (l : List α) : α := (treeFold f (Nat.log2 l.length + 1) l).headD z

/-! ### Storage formats by code (R113) -/

/-- The floating-point format of a code. -/
def floatFmt (code : Nat) : Option Fmt :=
  match code with
  | 0 => some fp32
  | 1 => some bf16
  | 2 => some fp16
  | 3 => some e4m3
  | 4 => some e5m2
  | 5 => some e2m3
  | 6 => some e3m2
  | 7 => some e2m1
  | _ => none

/-- Bits of an element of a format (R127 to R129). -/
def fmtBits (code : Nat) : Nat :=
  match code with
  | 0 | 10 => 32
  | 1 | 2 => 16
  | 3 | 4 | 8 | 11 => 8
  | 5 | 6 => 6
  | _ => 4

/-- Formats that appear only in blocks with an E8M0 scale (R131). -/
def isBlockFmt (code : Nat) : Bool := decide (code = 5) || decide (code = 6) || decide (code = 7) || decide (code = 9)

/-- The value of an element of a storage format, without a block scale. -/
def elemVal (code : Nat) (ftz : Bool) (bits : Nat) : FV :=
  match floatFmt code with
  | some f => f.read ftz bits
  | none =>
    let n := fmtBits code
    let b := bits % 2 ^ n
    FV.ofInt (if b < 2 ^ (n - 1) then (b : Int) else (b : Int) - 2 ^ n)

/-- The value of a block-scaled element (R132, R133): X = 0xFF makes every element NaN. -/
def blockVal (code x : Nat) (ftz : Bool) (bits : Nat) : FV :=
  if x = 0xFF then .nan else (elemVal code ftz bits).scale ((x : Int) - 127)

/-- The nearest integer of a finite value by a rounding mode. -/
def FV.toIntRnd (rnd : Rnd) (neg : Bool) (m : Nat) (e : Int) : Int :=
  if m = 0 then 0 else
  if 0 ≤ e then (if neg then -(m * 2 ^ e.toNat : Int) else (m * 2 ^ e.toNat : Int))
  else
    let sh := (-e).toNat
    let k := m / 2 ^ sh
    let below := (-(e + (lowBit m : Int))).toNat
    let k := if roundUp rnd k (m % 2 ^ sh) sh below then k + 1 else k
    if neg then -(k : Int) else (k : Int)

/-- Clamps an integer to n bits in two's complement, with whether it was clamped. -/
def clampInt (n : Nat) (i : Int) : Int × Bool :=
  let lo : Int := -(2 ^ (n - 1) : Nat)
  let hi : Int := (2 ^ (n - 1) : Nat) - 1
  if i < lo then (lo, true) else if hi < i then (hi, true) else (i, false)

/-- Conversion of a value to an integer format of n bits (R146). -/
def toIntFmt (n : Nat) (rnd : Rnd) (v : FV) : Rounded :=
  let code (i : Int) : Nat := (i % (2 ^ n : Nat)).toNat
  match v with
  | .nan => ⟨0, true, false⟩
  | .inf neg => ⟨code (if neg then -(2 ^ (n - 1) : Nat) else (2 ^ (n - 1) : Nat) - 1), true, false⟩
  | .fin neg m e =>
    let x := clampInt n (FV.toIntRnd rnd neg m e)
    ⟨code x.1, x.2, false⟩

/-- Conversion of a value to an element of a storage format, without a block scale. -/
def toElem (code : Nat) (rnd : Rnd) (ftz sat clampInf : Bool) (v : FV) : Rounded :=
  match floatFmt code with
  | some f => f.round rnd ftz sat clampInf v
  | none => toIntFmt (fmtBits code) rnd v

end Sys2Proof.Machine
end

