-- ==== Sys2Proof/Machine/Rng.lean ====
section
/-!
DEFINITION. Random bits (16): the mixer and its jump (R555 to R558), the seeding of a part's sources (R559, R560), draws in normal and
plumb mode (R561, R564, R565), and the counts of RNG_STAT (R575).
-/

namespace Sys2Proof.Machine

/-- RULE (R555). -/
def ruleWord : W64 := 0xB4E25A1D9C0763F9

/-- One step of the automaton (R555). -/
def mixStep (s : W64) : W64 := (s <<< 1) ^^^ (s >>> 1) ^^^ (ruleWord &&& s)

/-- What a draw returns after its step (R556). -/
def mixOut (s : W64) : W32 := s.setWidth 32 ^^^ (s >>> 32).setWidth 32

/-- A linear map on states, as the images of the 64 unit states. -/
def applyMap (cols : List W64) (s : W64) : W64 :=
  (cols.zipIdx).foldl (fun a c => if s.getLsbD c.2 then a ^^^ c.1 else a) 0

/-- The step as a linear map (R557). -/
def stepMap : List W64 := (List.range 64).map fun i => mixStep (BitVec.ofNat 64 (2 ^ i))

/-- J^n of a state (R557), by squaring over the low `bits` bits of n. -/
def jumpBy : Nat → Nat → List W64 → W64 → W64
  | 0, _, _, s => s
  | b + 1, n, m, s => jumpBy b (n / 2) (m.map (applyMap m)) (if n % 2 = 1 then applyMap m s else s)

/-- J^n (R557). -/
def jump (n : Nat) (s : W64) : W64 := jumpBy 64 n stepMap s

/-- base(σ) (R558). -/
def baseState (seed : W64) : W64 := if seed = 0 then 1 else seed

/-- The golden multiplier G (R564). -/
def goldG : W64 := 0x9E3779B97F4A7C15

/-- The state at which stream k of a logical tile starts (R564). -/
def plumbStart (seed : W64) (tile k : Nat) : W64 :=
  jump (k * 2 ^ 44) (baseState (seed ^^^ (BitVec.ofNat 64 tile * goldG)))

/-- X_P of a part (R560). -/
def partBase (seed : W64) (chan part : Nat) : W64 := jump ((chan * 32 + part) * 2 ^ 50) (baseState seed)

/-- The 64 sources of a part as it starts (R560). -/
def partSources (seed : W64) (chan part : Nat) : Tbl W64 :=
  (List.range 64).map fun l => (l, jump (l * 2 ^ 44) (partBase seed chan part))

/-- The sources regenerated on an unequal lane count (R562). -/
def partRegen (seed : W64) (chan part : Nat) : Tbl W64 :=
  (List.range 64).map fun l => (l, jump (l * 2 ^ 44 + 2 ^ 43) (partBase seed chan part))

/-- Working lanes of a core: 48 with a fenced lane group (R589). -/
def lanesOf (k : Core) : Nat := if k.laneFence = 0 then 64 else 48

/-- Counts draws (R575). -/
def countDraws (d : Dev) (c : CoreId) (n : Nat) : Dev := rcount d .rngStat c.die c.core 0 31 0 n

/-- Counts a seeding (R575). -/
def countSeeding (d : Dev) (c : CoreId) : Dev := rcount d .rngStat c.die c.core 0 47 32 1

/-- A draw from source s of a core; on 48 lanes source s is served by the stream of s mod 48 (R561). -/
def drawSource (d : Dev) (c : CoreId) (s : Nat) : W32 × Dev :=
  let k := getCore d c
  let s := s % lanesOf k
  let st := mixStep (tget 0 k.w.rng s)
  (mixOut st, countDraws (modWork d c fun w => { w with rng := tset 0 w.rng s st }) c 1)

/-- Whether the part on a core runs in plumb mode (R566). -/
def plumbOn (d : Dev) (c : CoreId) : Bool := ((getCore d c).w.part.map PartRun.plumb).getD false

/-- The seed its part captured (R559). -/
def seedOf (d : Dev) (c : CoreId) : W64 := ((getCore d c).w.part.map PartRun.seed).getD 0

/-- A draw of thread t of the crew in a slot (R561, R564, R565): in plumb mode from the thread's own stream, seeded at its first draw. -/
def drawThread (d : Dev) (c : CoreId) (slot t : Nat) : W32 × Dev :=
  if plumbOn d c then
    let w := (getCore d c).w
    let key := 32 * slot + t
    let old := tget 0 w.plumbRng key
    let fresh := decide (old = 0)
    let start : W64 :=
      match getCrew d c slot with
      | some k => plumbStart (seedOf d c) (((findLaunch w k.launch).map Launch.tile).getD 0) (32 * k.idx + t)
      | none => 1
    let st := mixStep (if fresh then start else old)
    let first := fresh && (List.range 32).all fun i => decide (tget 0 w.plumbRng (32 * slot + i) = 0)
    let d := modWork d c fun w => { w with plumbRng := tset 0 w.plumbRng key st }
    (mixOut st, countDraws (if first then countSeeding d c else d) c 1)
  else drawSource d c (32 * (slot % 2) + t)

/-- The part's stochastic roundings use reduced mode (R143, R592). -/
def reducedOn (d : Dev) (c : CoreId) : Bool := ((getCore d c).w.part.map PartRun.reassigned).getD false

/-- The rounding of RND (R111), taking a draw where it is stochastic (R142). -/
def rndOf (rnd : Nat) (reduced : Bool) (draw : Dev → W32 × Dev) (d : Dev) : Rnd × Dev :=
  match rnd with
  | 0 => (.rne, d)
  | 1 => (.rna, d)
  | 2 => (.rtz, d)
  | _ =>
    let x := draw d
    (.sr x.1 reduced, x.2)

end Sys2Proof.Machine
end

