-- ==== Sys2Proof/Machine/Sha.lean ====
section
/-!
DEFINITION. SHA-256 over bytes, and the CRC-32C of link chunks, which the manual names for digests and chunk checks.
-/

namespace Sys2Proof.Machine

/-- The largest r with r^k at most n, its bits found from bit b - 1 down, above the part already found. -/
def rootFrom (k n : Nat) : Nat → Nat → Nat
  | 0, r => r
  | b + 1, r => rootFrom k n b (if (r + 2 ^ b) ^ k ≤ n then r + 2 ^ b else r)

/-- The primes below 312, the first 64 of them all: no smaller prime up to 17 divides one. -/
def shaPrimes : List Nat :=
  (List.range 312).filter fun p => decide (2 ≤ p) && [2, 3, 5, 7, 11, 13, 17].all fun q => decide (p = q) || decide (p % q ≠ 0)

/-- The first 32 bits of the fractional part of the k-th root of a number below 2^16. -/
def rootFraction (k p : Nat) : W32 := BitVec.ofNat 32 (rootFrom k (p * 2 ^ (32 * k)) 48 0)

/-- The round constants of SHA-256: from the cube roots of the first 64 primes. -/
def shaK : List W32 := shaPrimes.map (rootFraction 3)

/-- The initial hash value of SHA-256: from the square roots of the first eight primes. -/
def shaInit : List W32 := (shaPrimes.take 8).map (rootFraction 2)

/-- A big-endian word of four bytes. -/
def beWord (b : List Byte) : W32 := BitVec.ofNat 32 (leNat' b.reverse)
where
  /-- The number of a little-endian list of bytes. -/
  leNat' : List Byte → Nat
    | [] => 0
    | x :: r => x.toNat + 256 * leNat' r

/-- The words of a block, in order. -/
def blockWords (b : List Byte) : List W32 := (List.range 16).map fun i => beWord ((b.drop (4 * i)).take 4)

/-- The message schedule, newest word first. -/
def shaSched (w : List W32) : List W32 :=
  (List.range 48).foldl (fun l _ =>
    let a := l.getD 14 0
    let b := l.getD 1 0
    let s0 := a.rotateRight 7 ^^^ a.rotateRight 18 ^^^ (a >>> 3)
    let s1 := b.rotateRight 17 ^^^ b.rotateRight 19 ^^^ (b >>> 10)
    (s1 + l.getD 6 0 + s0 + l.getD 15 0) :: l) w.reverse

/-- One round on the eight working words. -/
def shaRound (h : List W32) (kw : W32) : List W32 :=
  match h with
  | [a, b, c, d, e, f, g, k] =>
    let t1 := k + (e.rotateRight 6 ^^^ e.rotateRight 11 ^^^ e.rotateRight 25) + ((e &&& f) ^^^ (~~~e &&& g)) + kw
    let t2 := (a.rotateRight 2 ^^^ a.rotateRight 13 ^^^ a.rotateRight 22) + ((a &&& b) ^^^ (a &&& c) ^^^ (b &&& c))
    [t1 + t2, a, b, c, d + t1, e, f, g]
  | l => l

/-- One block. -/
def shaBlock (h : List W32) (b : List Byte) : List W32 :=
  let w := (shaSched (blockWords b)).reverse
  (h.zip ((List.zipWith (fun k x => k + x) shaK w).foldl shaRound h)).map fun p => p.1 + p.2

/-- The padded message. -/
def shaPad (m : List Byte) : List Byte :=
  let n := m.length
  let z := (119 - n % 64) % 64
  m ++ [0x80] ++ List.replicate z 0 ++ ((List.range 8).map fun i => BitVec.ofNat 8 (8 * n / 256 ^ (7 - i)))

/-- The blocks of a padded message, in order. -/
def shaBlocks (p : List Byte) : List (List Byte) := (List.range (p.length / 64)).map fun i => (p.drop (64 * i)).take 64

/-- SHA-256: the 32 bytes of the digest, first byte first. -/
def sha256 (m : List Byte) : List Byte :=
  ((shaBlocks (shaPad m)).foldl shaBlock shaInit).flatMap fun w =>
    (List.range 4).map fun i => BitVec.ofNat 8 (w.toNat / 256 ^ (3 - i))

/-- One bit of the reflected CRC-32C. -/
def crcBit (r : W32) : W32 := if r.getLsbD 0 then (r >>> 1) ^^^ 0x82F63B78 else r >>> 1

/-- CRC-32C of bytes. -/
def crc32c (m : List Byte) : W32 :=
  ~~~(m.foldl (fun r b => (List.range 8).foldl (fun r _ => crcBit r) (r ^^^ b.setWidth 32)) 0xFFFFFFFF)

end Sys2Proof.Machine
end

