-- ==== Sys2Proof/Machine/Wire.lean ====
section
/-!
DEFINITION. What Zevan ports carry: flit headers (R485), messages (R486), put headers and chunk trailers (R495), and the state of a port.
-/

namespace Sys2Proof

open Machine

/-! ### Fields of a flit's header (R485) -/

/-- A field of a flit's header. -/
def Flit.fld (f : Flit) (hi lo : Nat) : Nat := nfld f.head.toNat hi lo

/-- FTYPE: 0 idle, 1 data. -/
def Flit.ftype (f : Flit) : Nat := f.fld 1 0

/-- VC of the body. -/
def Flit.vc (f : Flit) : Nat := f.fld 4 2

/-- FSEQ. -/
def Flit.fseq (f : Flit) : BitVec 10 := BitVec.ofNat 10 (f.fld 14 5)

/-- ACKSEQ. -/
def Flit.ackseq (f : Flit) : BitVec 10 := BitVec.ofNat 10 (f.fld 24 15)

/-- NAK. -/
def Flit.nak (f : Flit) : Bool := decide (f.fld 25 25 = 1)

/-- CR_VC. -/
def Flit.crVc (f : Flit) : Nat := f.fld 28 26

/-- CR_TOTAL. -/
def Flit.crTotal (f : Flit) : Nat := f.fld 35 29

/-- MSG_V. -/
def Flit.msgV (f : Flit) : Bool := decide (f.fld 36 36 = 1)

/-- DST_ZID. -/
def Flit.dst (f : Flit) : Nat := f.fld 63 48

/-- MSG. -/
def Flit.msg (f : Flit) : W64 := BitVec.ofNat 64 (f.fld 127 64)

/-- A sequenced flit: a data flit, or one with a message. -/
def Flit.sequenced (f : Flit) : Bool := decide (f.ftype = 1) || f.msgV

/-! ### Put headers (R495) -/

/-- Bytes of a chunk. -/
def chunkSize (big : Bool) : Nat := if big then 16384 else 4096

/-- Bytes of chunk c of a put. -/
def PutHeader.chunkLen (h : PutHeader) (c : Nat) : Nat := min (chunkSize h.chunk16) (h.length.toNat - c * chunkSize h.chunk16)

/-- Chunks of a put. -/
def PutHeader.total (h : PutHeader) : Nat := cdiv h.length.toNat (chunkSize h.chunk16)

/-- The 64 bytes of a put header. -/
def PutHeader.bytes (h : PutHeader) : List Byte :=
  leBytes 8 (h.srcZid.toNat + 2 ^ 16 * h.dstZid.toNat + 2 ^ 32 * h.tag.toNat + 2 ^ 44 * h.kind.toNat + 2 ^ 46 * b2n h.chunk16 + 2 ^ 47 * b2n h.arriveEn) ++
    leBytes 8 h.dstAddr.toNat ++ leBytes 8 h.length.toNat ++ leBytes 8 (h.groupTag.toNat + 2 ^ 32 * h.seq.toNat) ++
    leBytes 8 (h.stake.toNat + 2 ^ 32 * h.inc.toNat + 2 ^ 48 * h.stage.toNat) ++ leBytes 8 h.digest.toNat ++ leBytes 16 0

/-! ### Codewords (R483) -/

/-- The codewords of a group that carry flit i (R483): its ten flits of 2,048 bits stand one after another in the 5,140 bits of each (log 159). -/
def flitWords (i : Nat) : List Nat := (List.range 4).filter fun k => decide (2048 * i / 5140 ≤ k) && decide (k ≤ (2048 * i + 2047) / 5140)

/-- A flit whose codewords all have at most 15 symbol errors (R483). -/
def FlitGroup.good (x : FlitGroup) (i : Nat) : Bool := (flitWords i).all fun k => decide (x.errors.getD k 0 ≤ 15)

end Sys2Proof

namespace Sys2Proof.Machine

/-! ### Ports -/

/-- A port as reset leaves it. -/
def Port.empty : Port := ⟨0, 0, [], 0, [], [], [], 0, [], [], [], 0, [], [], none⟩

/-- A port of a die. -/
def getPort (d : Dev) (die p : Nat) : Port := tget Port.empty d.ports (2 * die + p)

/-- Writes a port. -/
def setPort (d : Dev) (die p : Nat) (x : Port) : Dev := { d with ports := tset Port.empty d.ports (2 * die + p) x }

/-- STATE of a port (R515). -/
def portState (d : Dev) (die p : Nat) : Nat := rfld d .zlkStatus die 0 p 2 0

/-- A port carries traffic, or will again when it has retrained (R488). -/
def portUp (d : Dev) (die p : Nat) : Bool := decide (portState d die p = 2) || decide (portState d die p = 3)

/-- A port runs version Z2 (R489). -/
def portZ2 (d : Dev) (die p : Nat) : Bool := decide (rfld d .zlkStatus die 0 p 3 3 = 1)

/-- The package ZID (R519). -/
def zlkId (d : Dev) : Nat := rfld d .zlkId 0 0 0 15 0

/-- A VC that sends nothing. -/
def Outgoing.idle : Outgoing := ⟨none, [], 0, none⟩

/-- A VC on which no stream is being received. -/
def Incoming.idle : Incoming := ⟨none, 0, false, [], false, 0⟩

/-- What a port sends on a VC. -/
def Port.outOn (x : Port) (v : Nat) : Outgoing := tget Outgoing.idle x.out v

/-- What a port receives on a VC. -/
def Port.incOn (x : Port) (v : Nat) : Incoming := tget Incoming.idle x.inc v

/-- Writes what a port sends on a VC. -/
def Port.setOut (x : Port) (v : Nat) (o : Outgoing) : Port := { x with out := tset Outgoing.idle x.out v o }

/-- Writes what a port receives on a VC. -/
def Port.setInc (x : Port) (v : Nat) (i : Incoming) : Port := { x with inc := tset Incoming.idle x.inc v i }

/-! ### Messages (R486) -/

/-- The 64 bits of a message; none for what is no message. -/
def LinkMsg.word : LinkMsg → Option W64
  | .ack zid tag c last => some (BitVec.ofNat 64 (zid % 2 ^ 16 + 2 ^ 16 + 2 ^ 20 * (tag % 2 ^ 12) + 2 ^ 32 * (c % 2 ^ 16) + 2 ^ 48 * b2n last))
  | .nak zid tag c reason =>
    some (BitVec.ofNat 64 (zid % 2 ^ 16 + 2 * 2 ^ 16 + 2 ^ 20 * (tag % 2 ^ 12) + 2 ^ 32 * (c % 2 ^ 16) + 2 ^ 48 * (reason % 16)))
  | .abort zid gtag seq8 => some (BitVec.ofNat 64 (zid % 2 ^ 16 + 3 * 2 ^ 16 + 2 ^ 20 * gtag.toNat + 2 ^ 52 * seq8.toNat))
  | _ => none

/-- Records what the link engines send. -/
def send (d : Dev) (m : LinkMsg) : Dev := { d with sent := m :: d.sent }

/-- A message leaves by a port: it waits there for a flit. -/
def sendMsg (d : Dev) (die port : Nat) (m : LinkMsg) : Dev :=
  let p := getPort d die port
  send (setPort d die port { p with msgs := p.msgs ++ m.word.toList }) m

/-! ### Flits (R485) -/

/-- Sequence number a comes after b, by at most half the numbers. -/
def after (a b : BitVec 10) : Bool := decide (0 < (a - b).toNat) && decide ((a - b).toNat ≤ 512)

/-- The running totals that a flit of a port carries (R485): ACKSEQ, CR_VC and CR_TOTAL. -/
def Port.totals (p : Port) : Nat := 2 ^ 15 * p.rx.toNat + 2 ^ 26 * (p.crVc % 8) + 2 ^ 29 * (tget 0 p.taken p.crVc % 128)

/-- The port's next flit reports the credits of the VC whose total has waited longest (R493). -/
def Port.nextCredit (p : Port) : Port :=
  match p.crDue with
  | v :: rest => { p with crVc := v, crDue := rest }
  | [] => p

/-- A flit of a port: a data flit on a VC for a ZID, or an idle one, with the running totals (R485), the next FSEQ where it is sequenced, and what the manual
leaves open (the body of an idle flit, the end of a stream's last body, DST_ZID of an idle flit) free. -/
def makeFlit (d : Dev) (p : Port) (data : Option (Nat × Nat × List Byte)) (nak : Bool) (msg : Option W64) : Flit × Dev :=
  let bytes := (data.map fun x => x.2.2).getD []
  let fill := freeBytes (240 - bytes.length) d
  let dst := (data.map fun x => x.2.1 % 2 ^ 16).getD ((freeVal fill.2).toNat % 2 ^ 16)
  let seq := if data.isSome || msg.isSome then (p.tx + 1).toNat else 0
  let head := b2n data.isSome + 2 ^ 2 * ((data.map fun x => x.1 % 8).getD 0) + 2 ^ 5 * seq + p.totals + 2 ^ 25 * b2n nak +
    2 ^ 36 * b2n msg.isSome + 2 ^ 48 * dst + 2 ^ 64 * (msg.getD 0).toNat
  (⟨BitVec.ofNat 128 head, bytes ++ fill.1⟩, if data.isSome then fill.2 else freeNext fill.2)

/-- A flit leaves a port; a sequenced one enters the replay buffer (R487). -/
def putFlit (d : Dev) (die port : Nat) (data : Option (Nat × Nat × List Byte)) (nak : Bool) (msg : Option W64) : Dev :=
  let p := (getPort d die port).nextCredit
  let r := makeFlit d p data nak msg
  let p := if r.1.sequenced then { p with tx := p.tx + 1, replay := p.replay ++ [r.1] } else p
  { setPort r.2 die port p with wire := (die, port, r.1) :: r.2.wire }

/-- The port asks for a replay (R487). -/
def askReplay (d : Dev) (die port : Nat) : Dev := putFlit (send d (.replay die port (getPort d die port).rx)) die port none true none

/-- A flit with the running totals of the moment in which it leaves again (R485). -/
def restamp (p : Port) (f : Flit) : Flit :=
  let h := f.head.toNat
  { f with head := BitVec.ofNat 128 (h % 2 ^ 15 + p.totals + 2 ^ 25 * (h / 2 ^ 25 % 2) + 2 ^ 36 * (h / 2 ^ 36)) }

/-- The flits in the replay buffer leave again (R487). -/
def replayFlits (d : Dev) (die port : Nat) : Dev :=
  let p := getPort d die port
  { d with wire := p.replay.foldl (fun w f => (die, port, restamp p f) :: w) d.wire }

/-! ### Put headers and trailers (R495) -/

/-- The put header of 64 bytes. -/
def headerOf (b : List Byte) : PutHeader :=
  let w (n : Nat) : Nat := leNat ((b.drop (8 * n)).take 8)
  ⟨BitVec.ofNat 16 (w 0), BitVec.ofNat 16 (nfld (w 0) 31 16), BitVec.ofNat 12 (nfld (w 0) 43 32), BitVec.ofNat 2 (nfld (w 0) 45 44),
    decide (nfld (w 0) 46 46 = 1), decide (nfld (w 0) 47 47 = 1), BitVec.ofNat 52 (w 1), BitVec.ofNat 34 (w 2), BitVec.ofNat 32 (w 3),
    BitVec.ofNat 32 (nfld (w 3) 63 32), BitVec.ofNat 17 (w 4), BitVec.ofNat 16 (nfld (w 4) 47 32), BitVec.ofNat 8 (nfld (w 4) 55 48),
    BitVec.ofNat 32 (w 5)⟩

/-- The 16 bytes of a chunk's trailer. -/
def trailerBytes (chunk n : Nat) (crc : W32) : List Byte := leBytes 4 (chunk % 2 ^ 16) ++ leBytes 4 n ++ leBytes 4 crc.toNat ++ leBytes 4 0

end Sys2Proof.Machine
end

