-- ==== Sys2Proof/Machine/StakeOps.lean ====
section
/-!
DEFINITION. The stake class (R56, R97, R98, R107, R682), the hub's cycle (R62), timeouts and polls (R60, R68), and writes to the stake
registers that act (R72 to R74).
-/

namespace Sys2Proof.Machine

/-- The stake an STK instruction names (R97, R98): its STAKE field, or bits [16:0] of register SREG; none for a crew without an active
thread. -/
def stkName (d : Dev) (a : Agent) (o : KOp) : Option StakeId :=
  match a with
  | .seq c => some (if o.ssel = 1 then (sreg d c o.sreg.toNat).setWidth 17 else o.stake)
  | .crew c slot =>
    match (getCrew d c slot).bind fun k => k.lowest.map fun l => (k, l) with
    | none => none
    | some (k, l) => some (if o.ssel = 1 then (k.reg l o.sreg.toNat).setWidth 17 else o.stake)

/-- The number of what an agent runs for: the part of a sequencer, the launch of a crew. -/
def agentRun (d : Dev) (a : Agent) : Nat :=
  match a with
  | .seq c => ((getCore d c).w.part.map PartRun.started).getD 0
  | .crew c slot => ((getCrew d c slot).map Crew.launch).getD 0

/-- The active mask of an agent. -/
def agentMask (d : Dev) (a : Agent) : W32 :=
  match a with
  | .seq _ => 1
  | .crew c slot => ((getCrew d c slot).map Crew.mask).getD 0

/-- Marks a register as in flight (R682). -/
def markInflight (d : Dev) (a : Agent) (r : Nat) : Dev :=
  match a with
  | .seq c => modSeq d c fun q => { q with inflight := r :: q.inflight }
  | .crew c slot => modCrew d c slot fun k => { k with inflight := r :: k.inflight }

/-- Begins a wait of an agent (R60). -/
def beginWait (d : Dev) (a : Agent) (w : WaitRef) : Dev :=
  match a with
  | .seq c => modSeq d c fun q => { q with wait := some w }
  | .crew c slot => modCrew d c slot fun k => { k with wait := some w }

/-- The registers an STK instruction names. -/
def stkRegs (o : KOp) (rd : Bool) : List Nat :=
  (if o.ssel = 1 then [o.sreg.toNat] else []) ++ (if rd then [o.rd.toNat] else [])

/-- An STK instruction: nothing for a crew without an active thread (R98), ADDRESS_ABSENT for a die the part lacks (R52), else the
operation goes to the stake's hub and the agent goes on (R682). -/
def stkIssue (row : String) (a : Agent) (i : Instr) (o : KOp) (rd : Bool) (act : Dev → StakeAct) (after : Dev → StakeId → Dev)
    (d : Dev) : Res :=
  issue row a i (stkRegs o rd) (fun d w =>
    match stkName d a o with
    | none => .next (stepPc d a)
    | some id =>
      if d.part.dies ≤ stakeDie id then .next (agentFault d a .addressAbsent 0 (agentPc d a) w)
      else
        let op : StakeOp := ⟨act d, id, .agent a (agentRun d a) (agentPc d a) w (agentMask d a), some (parcelOf d a.core)⟩
        .next (stepPc (after (pushAgent d a.core op) id) a)) d

/-- STK.ARRIVE (R56, R58): adds IMM16 to COUNT, with release semantics (R47). -/
def execStkArrive (a : Agent) (o : KOp) (s : State) : Host.Outcome State Fault Refusal :=
  runCmd (.stkArrive a o) (stkIssue "STK_ARRIVE" a (.stkArrive a o) o false (fun _ => .arrive o.imm.toNat false) fun d _ => d) s

/-- STK.WAIT (R56, R60): blocks the agent until the stake completes or IMM16 ticks have passed (0: no limit). -/
def execStkWait (a : Agent) (o : KOp) (s : State) : Host.Outcome State Fault Refusal :=
  runCmd (.stkWait a o) (stkIssue "STK_WAIT" a (.stkWait a o) o false (fun d => .wait (.agent a) d.serial) fun d id =>
    nextSerial (beginWait d a ⟨id, if o.imm = 0 then none else some (d.tick + o.imm.toNat), o.imm.toNat, d.serial⟩)) s

/-- STK.TEST (R56, R107): COUNT and, for the sequencer, the completion bit, into RD when the reply returns. -/
def execStkTest (a : Agent) (o : KOp) (s : State) : Host.Outcome State Fault Refusal :=
  runCmd (.stkTest a o) (stkIssue "STK_TEST" a (.stkTest a o) o true (fun _ => .test o.rd.toNat) fun d _ =>
    markInflight d a o.rd.toNat) s

/-- The new target of STK.RESET (R97): IMM16, or bits [31:0] of RD. -/
def resetTarget (d : Dev) (a : Agent) (o : KOp) : W32 :=
  if o.treg = 1 then
    match a with
    | .seq c => (sreg d c o.rd.toNat).setWidth 32
    | .crew c slot => ((getCrew d c slot).bind fun k => k.lowest.map fun l => k.reg l o.rd.toNat).getD 0
  else o.imm.setWidth 32

/-- STK.RESET (R56): COUNT 0, the new TARGET, SATURATED and FAULTED clear. -/
def execStkReset (a : Agent) (o : KOp) (s : State) : Host.Outcome State Fault Refusal :=
  runCmd (.stkReset a o) (stkIssue "STK_RESET" a (.stkReset a o) o (decide (o.treg = 1)) (fun d => .reset (resetTarget d a o))
    fun d _ => d) s

/-- STK.CLAIM (R56, R77): COUNT as it stood into RD when the reply returns, then adds IMM16. -/
def execStkClaim (a : Agent) (o : KOp) (s : State) : Host.Outcome State Fault Refusal :=
  runCmd (.stkClaim a o) (stkIssue "STK_CLAIM" a (.stkClaim a o) o true (fun _ => .claim o.imm.toNat o.rd.toNat) fun d _ =>
    markInflight d a o.rd.toNat) s

/-! ### The hub -/

/-- A reply reaches its agent (R682): the destination is written, in the threads that were active at issue (R98). -/
def replyAgent (d : Dev) (a : Agent) (run rd : Nat) (mask : W32) (v : W64) : Dev :=
  if agentRun d a ≠ run then d else
  match a with
  | .seq c => modSeq d c fun q => { q with s := tset 0 q.s rd v, inflight := q.inflight.erase rd }
  | .crew c slot => modCrew d c slot fun k =>
      let k := k.writeAll mask rd fun _ => v.setWidth 32
      { k with inflight := k.inflight.erase rd }

/-- Whether a wait is still wanted when it reaches the hub: an agent may have timed out or ended. -/
def waitLive (d : Dev) (w : Waiter) (serial : Nat) : Bool :=
  match w with
  | .agent (.seq c) => decide ((getCore d c).w.seq.wait.map WaitRef.serial = some serial)
  | .agent (.crew c slot) => decide (((getCrew d c slot).bind Crew.wait).map WaitRef.serial = some serial)
  | _ => true

/-- The answer to a put whose arrival has been applied, or refused (R497): its transfer is complete with the ACK that has LAST set. -/
def answerPut (d : Dev) (die port zid tag chunk : Nat) (ok : Bool) : Dev :=
  let mine (b : Inbound) : Bool := b.arriving && decide (b.h.srcZid.toNat = zid) && decide (b.h.tag.toNat = tag)
  let d := { d with inbound := d.inbound.map fun b => if mine b then { b with arriving := false, done := ok } else b }
  if ok then sendMsg d die port (.ack zid tag chunk true)
  else sendMsg (rcount d .zlkErr die 0 port 47 32 1) die port (.nak zid tag chunk 3)

/-- An operation that a disabled or foreign stake refuses (R53, R54): an agent faults with STAKE_DENIED, unless the crew or part that issued it has
ended or been saved meanwhile, when nothing is there to fault (log 147, DESIGN CHOICE); an arrival of a unit is logged; a unit's wait ends as R74 ends waits; the
arrival of a put is refused to its sender (R497). -/
def refuseOp (d : Dev) (op : StakeOp) (f : FaultCode) : Dev :=
  match op.source with
  | .agent a run pc word _ => if agentRun d a = run then agentFault d a f 0 pc word else d
  | .unit code die =>
    match op.act with
    | .wait w _ => wakeWaiter d 1 ⟨w, false, false, 0⟩
    | _ => logRefused d op.stake code die f
  | .link die port zid tag chunk => answerPut d die port zid tag chunk false

/-- What the hub does with one operation (R55 to R64). -/
def applyOp (d : Dev) (op : StakeOp) : Dev :=
  let f := stakeCheck d op.stake op.parcel
  if f ≠ .none then refuseOp d op f else
  let s := getStake d op.stake
  match op.act with
  | .arrive inc faulted =>
    let d := stakeAdd (if faulted then setStake d op.stake { s with faulted := true } else d) op.stake inc
    match op.source with
    | .link die port zid tag chunk => answerPut d die port zid tag chunk true
    | _ => d
  | .reset t => stakeReset d op.stake t
  | .claim inc rd =>
    let d := match op.source with
      | .agent a run _ _ mask => replyAgent d a run rd mask (s.count.setWidth 64)
      | _ => d
    stakeAdd d op.stake inc
  | .test rd =>
    match op.source with
    | .agent (.seq c) run _ _ mask =>
      replyAgent d (.seq c) run rd mask (BitVec.ofNat 64 (s.count.toNat + 2 ^ 32 * b2n s.complete))
    | .agent a run _ _ mask => replyAgent d a run rd mask (s.count.setWidth 64)
    | _ => d
  | .wait w serial =>
    if !waitLive d w serial then d
    else if s.complete && !s.autoReset then wakeWaiter d s.outcome ⟨w, false, false, serial⟩
    else registerWait d op.stake w serial

/-- Whether an operation is a reset, which a hub applies before the others of its cycle (R62). -/
def StakeOp.isReset (op : StakeOp) : Bool :=
  match op.act with
  | .reset _ => true
  | _ => false

/-- The die from which a stake operation comes. -/
def StakeOp.die (op : StakeOp) : Nat :=
  match op.source with
  | .agent a _ _ _ _ => a.core.die
  | .unit _ die => die
  | .link die _ _ _ _ => die

/-- The operation that a port presents: the first that has reached it, since one of another die may still wait for a link (R62, R410). -/
def portFront (d : Dev) (die : Nat) (q : List StakeOp) : Option StakeOp := q.find? fun o => !routeBusy d o.die die

/-- Port 3 of a hub presents what is queued there, in order, before a register access that reaches it: the access is queued behind (R62). -/
def servePort3 (d : Dev) (die h : Nat) : Dev :=
  let x := getHub d die h
  x.q3.foldl applyOp (setHub d die h { x with q3 := [] })

/-- The wait an agent is in. -/
def agentWait (d : Dev) (a : Agent) : Option WaitRef :=
  match a with
  | .seq c => (getCore d c).w.seq.wait
  | .crew c slot => (getCrew d c slot).bind Crew.wait

/-- STK_WAIT_TIMEOUT (R60): the t-th tick boundary after the wait began has come; the outcome is 2. -/
def execStkWaitTimeout (a : Agent) (s : State) : Host.Outcome State Fault Refusal :=
  runCmd (.stkWaitTimeout a) (fun d =>
    match agentWait d a with
    | none => .refused (.notEnabled "STK_WAIT_TIMEOUT")
    | some w =>
      if (w.deadline.map fun t => decide (t ≤ d.tick)).getD false then
        .next (wakeAgent (dropWaiter d w.stake w.serial) a w.serial 2)
      else .refused (.notEnabled "STK_WAIT_TIMEOUT")) s

/-- The stake on which a waiter polls, with its entry. -/
def pollingOn (d : Dev) (w : Waiter) : Option (StakeId × StakeWait) :=
  d.stakes.findSome? fun p =>
    (p.2.waiters.find? fun x => x.polling && decide (x.w = w)).map fun x => (BitVec.ofNat 17 p.1, x)

/-- STAKE_POLL (R68): a waiter that found no entry tests the stake; it goes on when COUNT has reached the target, with AUTO_RESET too (log 149,
DESIGN CHOICE), or when the stake no longer accepts operations (R74). -/
def execStakePoll (w : Waiter) (s : State) : Host.Outcome State Fault Refusal :=
  runCmd (.stakePoll w) (fun d =>
    match pollingOn d w with
    | none => .refused (.notEnabled "STAKE_POLL")
    | some (id, x) =>
      let k := getStake d id
      let gone := setStake d id { k with waiters := k.waiters.erase x }
      .next (if !k.enable then wakeWaiter gone 1 x
        else if k.complete then wakeWaiter gone k.outcome x else d)) s

/-- A write of STK_CTL (R73, R74): clearing ENABLE wakes the waiters with outcome 1; the fields take their values; RESET performs
STK.RESET with the current TARGET, whether ENABLE is set or not (log 181, DESIGN CHOICE). Clearing AUTO_RESET wakes no waiter by itself (log 182, DESIGN
CHOICE). -/
def stakeCtl (d : Dev) (id : StakeId) (v : W32) : Dev :=
  let en := decide (fld v 0 0 = 1)
  let d := if (getStake d id).enable && !en then stakeDisable d id else d
  let s := getStake d id
  let d := setStake d id { s with enable := en, event := decide (fld v 1 1 = 1), autoReset := decide (fld v 3 3 = 1), parcel := fld v 13 8 }
  if fld v 2 2 = 1 then stakeReset d id s.target else d

/-- Whether a stake's die is one of the part's. -/
def stakeExists (d : Dev) (id : StakeId) : Bool := decide (stakeDie id < d.part.dies)

/-- A register access to a stake is made at its hub, behind the operations queued at port 3 (R62). -/
def atHub (d : Dev) (id : StakeId) : Dev := servePort3 d (stakeDie id) (stakeHub id)

/-- STK_TARGET_WRITE (R72). -/
def execStkTargetWrite (id : StakeId) (v : W32) (s : State) : Host.Outcome State Fault Refusal :=
  runCmd (.stkTargetWrite id v) (fun d => whenOn "STK_TARGET_WRITE" (stakeExists d id) (stakeTarget (atHub d id) id v)) s

/-- STK_CTL_RESET (R73): a write of STK_CTL with RESET set. -/
def execStkCtlReset (id : StakeId) (v : W32) (s : State) : Host.Outcome State Fault Refusal :=
  runCmd (.stkCtlReset id v) (fun d => whenOn "STK_CTL_RESET" (stakeExists d id && decide (fld v 2 2 = 1)) (stakeCtl (atHub d id) id v)) s

/-- STK_CTL_ENABLE_CLEAR (R74): a write of STK_CTL that clears ENABLE. -/
def execStkCtlEnableClear (id : StakeId) (v : W32) (s : State) : Host.Outcome State Fault Refusal :=
  runCmd (.stkCtlEnableClear id v) (fun d =>
    whenOn "STK_CTL_ENABLE_CLEAR" (stakeExists d id && (getStake d id).enable && decide (fld v 0 0 = 0)) (stakeCtl (atHub d id) id v)) s

end Sys2Proof.Machine
end

