-- ==== Sys2Proof/Machine/Parts.lean ====
section
/-!
DEFINITION. Channels and their commands (R413, R420 to R424), program images (R120, R121, R427), completion records with the events, arrivals
and notices they bring (R426, R428 to R430), and the end of a part (R423, R429, R592).
-/

namespace Sys2Proof.Machine

/-! ### Channels and parcels -/

/-- A closed channel. -/
def Channel.empty : Channel :=
  ⟨0, 0, 0, 0, 0, 0, 0, 0, none, [], 0, 0, 0, 0, [], 0, none, false, false, none, false⟩

/-- Channel ch. -/
def getChan (d : Dev) (ch : Nat) : Channel := tget Channel.empty d.chans ch

/-- Writes a channel. -/
def setChan (d : Dev) (ch : Nat) (x : Channel) : Dev := { d with chans := tset Channel.empty d.chans ch x }

/-- Applies f to a channel. -/
def modChan (d : Dev) (ch : Nat) (f : Channel → Channel) : Dev := setChan d ch (f (getChan d ch))

/-- The home die of a channel (R413). -/
def homeDie (d : Dev) (ch : Nat) : Nat := if d.part.dies = 8 ∧ 128 ≤ ch then 4 else 0

/-- The parcel index of a channel (R417). -/
def Channel.parcelIdx (x : Channel) : Nat := fld x.parcel 15 0

/-- A free parcel slot. -/
def Parcel.empty : Parcel := ⟨0, 0, 0, 0, 0, 0, 0, 0, 0, false, 0, 0, none, [], none, []⟩

/-- Parcel p. -/
def getParcel (d : Dev) (p : Nat) : Parcel := tget Parcel.empty d.parcels p

/-- Writes a parcel. -/
def setParcel (d : Dev) (p : Nat) (x : Parcel) : Dev := { d with parcels := tset Parcel.empty d.parcels p x }

/-- Applies f to a parcel. -/
def modParcel (d : Dev) (p : Nat) (f : Parcel → Parcel) : Dev := setParcel d p (f (getParcel d p))

/-- Cluster k of die d belongs to a parcel (R451). -/
def Parcel.owns (x : Parcel) (die k : Nat) : Bool :=
  if die < 4 then x.lo.getLsbD (12 * die + k) else x.hi.getLsbD (12 * (die - 4) + k)

/-- The cores of a parcel by rank (R451). -/
def parcelCores (d : Dev) (x : Parcel) : List CoreId :=
  (List.range d.part.dies).flatMap fun die =>
    ((List.range 144).filter fun i => x.owns die (i / 12)).map fun i => ⟨die, i⟩

/-- The dies of a parcel, in order. -/
def parcelDies (d : Dev) (x : Parcel) : List Nat :=
  (List.range d.part.dies).filter fun die => (List.range 12).any fun k => x.owns die k

/-- The open or closing parcel that owns a core, if any. -/
def ownerOf (d : Dev) (c : CoreId) : Option Nat :=
  (d.parcels.find? fun p => decide (p.2.state ≠ 0) && p.2.owns c.die (c.core / 12)).map Prod.fst

/-! ### Commands -/

/-- Bits of a command's words (R421). -/
def Cmd.fld (x : Cmd) (n hi lo : Nat) : Nat := Machine.fld (x.words.getD n 0) hi lo

/-- OP (R422). -/
def Cmd.op (x : Cmd) : Nat := x.fld 0 7 0

/-- BARRIER. -/
def Cmd.barrier (x : Cmd) : Bool := decide (x.fld 0 8 8 = 1)

/-- MASKED. -/
def Cmd.masked (x : Cmd) : Bool := decide (x.fld 0 9 9 = 1)

/-- WAIT_EN and WAIT_STAKE. -/
def Cmd.wait (x : Cmd) : Option StakeId := if x.fld 0 10 10 = 1 then some (BitVec.ofNat 17 (x.fld 0 48 32)) else none

/-- DONE_EN and DONE_STAKE. -/
def Cmd.done (x : Cmd) : Option StakeId := if x.fld 1 17 17 = 1 then some (BitVec.ofNat 17 (x.fld 1 16 0)) else none

/-- PARTS. -/
def Cmd.parts (x : Cmd) : Nat := x.fld 0 21 16

/-- PART_MASK. -/
def Cmd.partMask (x : Cmd) : W32 := BitVec.ofNat 32 (x.fld 1 63 32)

/-- A command just read. -/
def Cmd.new (num : Nat) (words : List W64) (cancel : FaultCode) : Cmd :=
  ⟨num, words, cancel, false, false, none, false, 0, 0, 0, 0, 0, none, 0, false, [], none, 0, 0, 0, 0, 0, 0, false⟩

/-- Replaces a command of a channel. -/
def setCmd (d : Dev) (ch : Nat) (x : Cmd) : Dev :=
  modChan d ch fun k => { k with cmds := k.cmds.map fun y => if y.num = x.num then x else y }

/-- A command of a channel by number. -/
def findCmd (d : Dev) (ch num : Nat) : Option Cmd := (getChan d ch).cmds.find? fun x => decide (x.num = num)

/-- Commands started and not completed (R445). -/
def Channel.started (x : Channel) : Nat := (x.cmds.filter Cmd.started).length

/-- The oldest command that has not started. -/
def Channel.front (x : Channel) : Option Cmd := x.cmds.find? fun c => !c.started

/-- A completion ring entry can be reserved (R424); every started command holds one. -/
def Channel.room (x : Channel) : Bool :=
  decide ((x.rtail - x.rhead).toNat + x.started < 2 ^ x.complOrder)

/-! ### Program images (R120, R121) -/

/-- Zero bytes of a digest. -/
def zeros32 : List Byte := List.replicate 32 0

/-- Measurement register i (R605). -/
def getMeas (d : Dev) (i : Nat) : List Byte := tget zeros32 d.meas i

/-- Extends a measurement register by a digest (R605). -/
def extendMeas (d : Dev) (i : Nat) (x : List Byte) : Dev :=
  { d with meas := tset zeros32 d.meas i (sha256 (getMeas d i ++ x)) }

/-- A little-endian field of bytes. -/
def bytesNat (b : List Byte) (off n : Nat) : Nat := leNat ((b.drop off).take n)

/-- Whether two extents overlap. -/
def overlaps (a n b m : Nat) : Bool := decide (0 < n) && decide (0 < m) && decide (a < b + m) && decide (b < a + n)

/-- The end of an image's extent (R121), of its header. -/
def imageEnd (h : List Byte) : Nat :=
  let ds := bytesNat h 0x24 4
  max 128 (max (bytesNat h 0x18 4 + bytesNat h 0x1C 4) (if ds = 0 then 0 else bytesNat h 0x20 4 + ds))

/-- Check 1 of R121 on a header at an address. -/
def imageBad (d : Dev) (a : Addr) (h : List Byte) : Bool :=
  let ts := bytesNat h 0x1C 4
  let txo := bytesNat h 0x18 4
  let ds := bytesNat h 0x24 4
  let dof := bytesNat h 0x20 4
  decide (bytesNat h 0 4 ≠ 0x31594B46) || decide (bytesNat h 4 1 ≠ 1) || decide (bytesNat h 6 2 ≠ 0x80) ||
    overlaps 0 128 txo ts || overlaps 0 128 dof ds || overlaps txo ts dof ds ||
    decide (txo % 8 ≠ 0) || decide (ts = 0) || decide (ts % 8 ≠ 0) || decide (2 ^ 24 < ts) ||
    !inMemory d a (imageEnd h) || decide (ts / 8 ≤ bytesNat h 0x28 4) || decide (storeBytes < bytesNat h 0x2C 4)

/-- Checks and reads the image at an address (R121): the image, or the code that refuses it with the mask of missing features.
A header that cannot be read is refused before check 1, a body before check 6 (log 184, DEDUCED). -/
def readImage (d : Dev) (a : Addr) : Dev × Except (FaultCode × Nat) (Image × List Byte) :=
  if !inMemory d a 128 then (d, .error (.badImage, 0)) else
  match devReadAll d a 128 with
  | (d, .error f) => (d, .error (f, 0))
  | (d, .ok h) =>
    let req := bytesNat h 8 8
    let missing := (BitVec.ofNat 64 req &&& ~~~featureWord).toNat
    let sig := bytesNat h 0x30 8
    let txo := bytesNat h 0x18 4
    let ts := bytesNat h 0x1C 4
    let dof := bytesNat h 0x20 4
    let ds := bytesNat h 0x24 4
    if imageBad d a h ∨ bytesNat h 5 1 = 0 then (d, .error (.badImage, 0))
    else if 1 < bytesNat h 5 1 ∨ missing ≠ 0 then (d, .error (.featureAbsent, missing))
    else if sig ≠ 0 ∧ sig ≠ (regGet d .abwPlumbSig 0 0 0).toNat then (d, .error (.signatureMismatch, 0))
    else match devReadAll d a (imageEnd h) with
      | (d, .error f) => (d, .error (f, 0))
      | (d, .ok b) =>
        let digest := (h.drop 0x40).take 32
        if sha256 ((b.drop txo).take ts ++ (b.drop dof).take ds) ≠ digest then (d, .error (.badImage, 0))
        else (d, .ok (⟨a + BitVec.ofNat 52 txo, ts, a + BitVec.ofNat 52 dof, ds, bytesNat h 0x28 4, bytesNat h 0x2C 4⟩, digest))

/-- Loads the image at an address for a channel (R427): an accepted image's regions become read-only and M3 takes its digest (R124,
R605); a refusal for a missing feature is logged (kind 71). -/
def loadImage (d : Dev) (die : Nat) (a : Addr) : Dev × Except FaultCode Image :=
  match readImage d a with
  | (d, .error (f, m)) =>
    (if f = .featureAbsent then logErr d die ⟨srcErr, 71, .featureAbsent, .info, 0, [m]⟩ else d, .error f)
  | (d, .ok (x, digest)) =>
    let ro := [(x.text, x.textSize)] ++ (if x.dataSize = 0 then [] else [(x.data, x.dataSize)])
    (extendMeas { d with readonly := d.readonly ++ ro } 3 digest, .ok x)

/-! ### Records (R426 to R430) -/

/-- STATUS but PHASE (R429), of a command that has ended with a refusal or fault of its own or not. -/
def Cmd.status (x : Cmd) (cancelled loadBad : Bool) : Nat :=
  let failed := decide (x.failed ≠ 0) || loadBad
  2 * b2n failed + 4 * b2n x.opFault.isSome + 8 * b2n (decide (0 < x.issued) && decide (x.empties = x.issued)) +
    16 * b2n (failed && decide (x.passed ≠ 0)) + 32 * b2n x.sideOvf + 64 * b2n cancelled

/-- The failed part of lowest index: its code and subcode. -/
def Cmd.firstFail (x : Cmd) : Option (FaultCode × Nat) :=
  (x.failCodes.foldl (fun best p =>
    match best with
    | none => some p
    | some b => if p.1 < b.1 then some p else best) none).map Prod.snd

/-- FAULT and SUBCODE (R428, R430). -/
def Cmd.faultOf (x : Cmd) (own : FaultCode) : FaultCode × Nat :=
  if own ≠ .none then (own, 0)
  else match x.firstFail with
    | some f => f
    | none => (x.opFault.map fun f => (f.1, f.2.1)).getD (.none, 0)

/-- The 32 bytes of a record (R428). -/
def recordBytes (tick : Nat) (x : Cmd) (status : Nat) (f : FaultCode × Nat) : List Byte :=
  leBytes 4 (status + 2 ^ 8 * f.1.num + 2 ^ 16 * (f.2 % 16) + 2 ^ 20 * (if x.op = 1 then x.parts else 0)) ++
    leBytes 4 (x.num % 2 ^ 24 + 2 ^ 24 * min 255 x.replays) ++ leBytes 8 tick ++ leBytes 4 x.sat ++ leBytes 4 x.flushed ++
    leBytes 4 x.escapes ++ leBytes 4 x.failed.toNat

/-- A bit of CMD_CHAN_CTL (R442). -/
def chanCtl (d : Dev) (ch b : Nat) : Bool := decide (rfld d .cmdChanCtl (homeDie d ch) 0 ch b b = 1)

/-- A completion notice (R426): at most one per channel and tick; a later one, or one that its home link's retrain holds (R435), waits and carries
the TAIL of when it is sent. -/
def sendNotice (d : Dev) (ch : Nat) : Dev :=
  let x := getChan d ch
  if x.noticed = some d.tick ∨ commandBusy d (homeDie d ch) then setChan d ch { x with noticeDue := true }
  else { setChan d ch { x with noticed := some d.tick, noticeDue := false } with notices := (ch, x.rtail) :: d.notices }

/-- Where the next record of a channel lies (R426). -/
def Channel.recordAddr (k : Channel) : Addr := k.compl + BitVec.ofNat 52 (k.rtail.toNat % 2 ^ k.complOrder * 32)

/-- The bits of PART_FAIL whose parts failed by a fence (R592). -/
def Cmd.fenceBits (x : Cmd) : W32 :=
  x.failCodes.foldl (fun m p =>
    if p.2.1 = .closureFence ∨ p.2.1 = .coreFenced then m ||| BitVec.ofNat 32 (2 ^ p.1) else m) 0

/-- A command's record (R426): it is written at the next record number, the operation-completion event is raised where EVENT is set
(R85), DONE_STAKE is arrived at, TAIL advances and a notice is sent. DESIGN CHOICE (log 155): a command that its DONE_STAKE's own check cancelled
makes that arrival too, and the hub's refusal of it is logged (R54). A RUN, cancelled or not, replaces its channel's fence bitmap (R592). -/
def recordCmd (d : Dev) (ch : Nat) (x : Cmd) (cancelled loadBad : Bool) (own : FaultCode) : Dev :=
  let k := getChan d ch
  let home := homeDie d ch
  let r := k.rtail.toNat
  let status := (1 - r / 2 ^ k.complOrder % 2) + x.status cancelled loadBad
  let f := x.faultOf own
  let d := (devWriteAll d k.recordAddr (recordBytes d.tick x status f)).1
  let seq := x.num % 2 ^ 24
  let h := handleOf d typeChannel ch
  let d := if chanCtl d ch 3 then
      raiseEvent d ⟨6, home, srcErr, 0, BitVec.ofNat 64 d.tick, ch, seq,
        BitVec.ofNat 64 (h.toNat + 2 ^ 32 * (seq + 2 ^ 24 * status)), 0⟩
    else d
  let d := match x.done with
    | some id => blockArrive d home id 5 (some k.parcelIdx) 1 (decide (x.status cancelled loadBad / 2 % 2 = 1) || cancelled)
    | none => d
  let d := modChan d ch fun k => { k with
    rtail := k.rtail + 1
    cmds := k.cmds.filter fun y => decide (y.num ≠ x.num)
    fence := if x.op = 1 then x.fenceBits else k.fence }
  let d := rcount d .cmdChanStat home 0 ch 63 32 1
  if chanCtl d ch 2 then sendNotice d ch else d

/-- A command's record waits (R370, R410): for slices or links, or behind another of its channel that does. -/
def recordWaits (d : Dev) (ch : Nat) : Bool :=
  extentBusy d (homeDie d ch) (getChan d ch).recordAddr 32 || d.lateCmds.any fun e => decide (e.chan = ch)

/-- A command completes (R426), at once or when its record can be written; until then it counts as started. -/
def completeCmd (d : Dev) (ch : Nat) (x : Cmd) (cancelled loadBad : Bool) (own : FaultCode) : Dev :=
  if recordWaits d ch then
    { setCmd d ch { x with started := true, acted := true, waiting := false, place := 0 } with
      lateCmds := d.lateCmds ++ [⟨ch, x.num, cancelled, loadBad, own⟩] }
  else recordCmd d ch x cancelled loadBad own

/-! ### Commands at the front (R424) -/

/-- Every earlier command has completed: only unstarted ones are left. -/
def Channel.idle (x : Channel) : Bool := decide (x.started = 0)

/-- The front command may proceed as far as its order and barrier go (R424): a barrier, or a LOAD before it, waits for every earlier
command. -/
def Channel.inOrder (x : Channel) (c : Cmd) : Bool := !(c.barrier || x.lastLoad) || x.idle

/-- A field of the schedule entry of the current slot (R480). -/
def slotFld (d : Dev) (hi lo : Nat) : Nat := fld (regGet d .schSlot 0 0 (256 * d.sched.bank + d.sched.slot)) hi lo

/-- The schedule runs (R478). -/
def schedOn (d : Dev) : Bool := decide (rfld d .schCtl 0 0 0 0 0 = 1)

/-- A REAL_TIME channel's commands start only in a slot that names it, while the schedule is enabled (R469). -/
def slotAllows (d : Dev) (ch : Nat) : Bool :=
  decide ((getChan d ch).prio ≠ 3) || !schedOn d ||
    (d.sched.running && decide (slotFld d 24 24 = 1) && decide (slotFld d 39 32 = ch))

/-- The front command meets every condition of R424 but its wait. -/
def mayStart (d : Dev) (ch : Nat) (x : Cmd) : Bool :=
  let k := getChan d ch
  decide (x.cancel = .none) && k.inOrder x && k.room && decide (k.started < 16) && slotAllows d ch && !halted d 0

/-- A list of numbers comes before another of its length. -/
def rankLt : List Nat → List Nat → Bool
  | a :: x, b :: y => decide (a < b) || (decide (a = b) && rankLt x y)
  | _, _ => false

/-- The wait of a command (R424) goes to the stake's hub from the dispatcher on the channel's home die. -/
def commandWait (d : Dev) (ch num : Nat) (id : StakeId) : Dev :=
  let op : StakeOp := ⟨.wait (.command ch num) d.serial, id, .unit 5 (homeDie d ch), some (getChan d ch).parcelIdx⟩
  nextSerial (pushBlock d (homeDie d ch) op)

/-- A command takes its place in the channel's order (R424): the next one waits for every earlier command if this one is a LOAD, cancelled or not. -/
def takePlace (d : Dev) (ch : Nat) (c : Cmd) : Dev := modChan d ch fun k => { k with lastLoad := decide (c.op = 2) }

/-- Settles the front of a channel's commands: cancelled ones complete in order while the completion ring has room (R422, R426), and the
wait of the first other one begins once its order allows (R424). -/
def settle (d : Dev) (ch : Nat) : Nat → Dev
  | 0 => d
  | n + 1 =>
    let k := getChan d ch
    match k.front with
    | none => d
    | some c =>
      if c.cancel ≠ .none then
        if k.room then settle (completeCmd (takePlace d ch c) ch c true false c.cancel) ch n else d
      else match c.wait with
        | some id =>
          if c.waiting || c.waited.isSome || !k.inOrder c then d
          else commandWait (setCmd d ch { c with waiting := true }) ch c.num id
        | none => d

/-- The front command meets every condition of R424. -/
def Cmd.ready (d : Dev) (ch : Nat) (x : Cmd) : Bool := mayStart d ch x && (x.wait.isNone || decide (x.waited = some 0))

/-- Notes the tick in which the front command met every condition of R424, which R458 orders by. -/
def noteReady (d : Dev) (ch : Nat) : Dev :=
  match (getChan d ch).front with
  | some x => if x.readyTick = 0 ∧ x.ready d ch then setCmd d ch { x with readyTick := d.tick } else d
  | none => d

/-- Settles a channel. -/
def pump (d : Dev) (ch : Nat) : Dev := noteReady (settle d ch ((getChan d ch).cmds.length + 1)) ch

/-- The records that waited for slices or links are written, those that need wait no more, in order (R370, R410). -/
def lateCommands (d : Dev) : Dev :=
  let one (d : Dev) (e : LateCmd) : Dev :=
    match findCmd d e.chan e.num with
    | none => d
    | some x => if recordWaits d e.chan then { d with lateCmds := d.lateCmds ++ [e] } else recordCmd d e.chan x e.cancelled e.loadBad e.own
  (d.lateCmds.map LateCmd.chan).foldl pump (d.lateCmds.foldl one { d with lateCmds := [] })

/-! ### The end of a part -/

/-- The earlier of two faulted operations by R83: tick, die, source. -/
def earlier (x y : Option (FaultCode × Nat × Nat)) : Option (FaultCode × Nat × Nat) :=
  match x, y with
  | some a, some b => if b.2.2 < a.2.2 then some b else some a
  | some a, none => some a
  | none, b => b

/-- What a part that has ended adds to its command (R429, R430): failed with a code, or not. -/
def Cmd.addPart (x : Cmd) (c : CoreId) (p : PartRun) (f : FaultCode) (sub : Nat) : Cmd :=
  let b : W32 := BitVec.ofNat 32 (2 ^ p.part)
  { x with
    running := x.running &&& ~~~b
    failed := if f = .none then x.failed else x.failed ||| b
    passed := if f = .none then x.passed ||| b else x.passed
    failCodes := if f = .none then x.failCodes else x.failCodes ++ [(p.part, f, sub)]
    opFault := if f = .none ∧ p.opFault ≠ .none then
        earlier x.opFault (some (p.opFault, p.opSub, p.opTick * 2 ^ 12 + c.die * 2 ^ 8 + c.core)) else x.opFault
    issued := x.issued + p.issued
    empties := x.empties + p.empties
    sat := satAdd 0xFFFFFFFF x.sat p.sat
    flushed := satAdd 0xFFFFFFFF x.flushed p.flushed
    escapes := satAdd 0xFFFFFFFF x.escapes p.escapes
    replays := x.replays + p.replays
    sideOvf := x.sideOvf || p.sideOvf }

/-- A RUN whose parts have all ended completes. -/
def checkRun (d : Dev) (ch num : Nat) : Dev :=
  match findCmd d ch num with
  | none => d
  | some x =>
    if x.acted && decide (x.place = 0) && decide (x.running = 0) then
      pump (completeCmd d ch x false false .none) ch
    else d

/-- A part has ended on core c (R423): its command takes its account, and completes with its last part. -/
def partEnds (d : Dev) (c : CoreId) (p : PartRun) (f : FaultCode) (sub : Nat) : Dev :=
  match findCmd d p.chan p.num with
  | none => d
  | some x => checkRun (setCmd d p.chan (x.addPart c p f sub)) p.chan p.num

/-- A part that never ran fails (R460). -/
def partNever (d : Dev) (ch num part : Nat) (f : FaultCode) : Dev :=
  match findCmd d ch num with
  | none => d
  | some x =>
    let b : W32 := BitVec.ofNat 32 (2 ^ part)
    checkRun (setCmd d ch { x with
      place := x.place &&& ~~~b, failed := x.failed ||| b, failCodes := x.failCodes ++ [(part, f, 0)] }) ch num

/-- A core as it becomes FREE: its pending lane fence takes effect (R589), but on a fenced core, where it waits for a reset that passes self-test (R594). -/
def Core.freed (k : Core) : Core :=
  if k.fenced then { k with sched := 0 } else { k with sched := 0, laneFence := k.laneFence ||| k.lanePend, lanePend := 0 }

/-- A core becomes FREE: its part is gone. -/
def freeCore (d : Dev) (c : CoreId) : Dev :=
  modCore d c fun k => { k.freed with
    stopping := false
    w := { k.w with part := none, seq := { k.w.seq with st := .idle, inflight := [], wait := none } } }

/-- The part on a core has nothing left to do (R114, R40): its sequencer has stopped, and everything it issued has arrived. -/
def partOver (k : Core) : Bool :=
  match k.w.part with
  | none => false
  | some p => decide (k.sched = 1) && (decide (k.w.seq.st = .halted) || decide (k.w.seq.st = .faulted)) && decide (p.out = 0)

/-- PART_COMPLETE (R114, R423, R472): the part ends, its core is free, and with its last part the command completes. -/
def execPartComplete (c : CoreId) (s : State) : Host.Outcome State Fault Refusal :=
  runCmd (.partComplete c) (fun d =>
    let k := getCore d c
    match k.w.part with
    | some p => whenOn "PART_COMPLETE" (partOver k) (partEnds (freeCore d c) c p p.seqFault p.subcode)
    | none => .refused (.notEnabled "PART_COMPLETE")) s

end Sys2Proof.Machine
end

