-- ==== Sys2Proof/Machine/Commands.lean ====
section
/-!
DEFINITION. Command rings and doorbells (R420, R425), the reading, starting and acting of commands (R421 to R424, R427), the heads that
software advances (R426, R447), remote arrivals (R438), and the event ring (R432, R433).
-/

namespace Sys2Proof.Machine

/-! ### Doorbells -/

/-- The package is ready (R649). -/
def pkgReady (d : Dev) : Bool := decide (rfld d .abwTri 0 0 0 24 24 = 1)

/-- Ignores a doorbell (R425, R445): logged with its address and value, and counted. -/
def badDoorbell (d : Dev) (chan : Nat) (tail : W32) : Dev :=
  rcount (logIgnoredAt d .cmdDoorbell (homeDie d chan) 0 chan tail.toNat) .cmdChanStat (homeDie d chan) 0 chan 31 16 1

/-- A doorbell (R412, R425, R437): the new TAIL waits for the tick boundary; the last one of a tick stands. Before package ready the write is
ignored and logged (R652). -/
def doorbellWrite (d : Dev) (chan : Nat) (tail : BitVec 32) : Dev :=
  if !pkgReady d then badDoorbell d chan tail else modChan d chan fun k => { k with doorbell := some (tail, d.tick) }

/-- CMD_DOORBELL (R410, R435): while the home link retrains the doorbell waits. -/
def execCmdDoorbell (chan : Nat) (tail : BitVec 32) (s : State) : Host.Outcome State Fault Refusal :=
  runCmd (.cmdDoorbell chan tail) (fun d => whenOn "CMD_DOORBELL" (!commandBusy d (homeDie d chan)) (doorbellWrite d chan tail)) s

/-- A latched doorbell (R425): checked against HEAD and the last accepted TAIL. -/
def latchDoorbell (d : Dev) (chan : Nat) (tail : W32) : Dev :=
  let k := getChan d chan
  let d := setChan d chan { k with doorbell := none }
  if k.state ≠ 1 then badDoorbell d chan tail
  else if 2 ^ k.submitOrder < (tail - k.head).toNat ∨ (tail - k.head).toNat < (k.tail - k.head).toNat then
    badDoorbell d chan tail
  else
    let d := modChan d chan fun k => { k with tail := tail }
    if chanCtl d chan 4 then
      raiseEvent d ⟨7, homeDie d chan, 183, 0, BitVec.ofNat 64 d.tick, chan, 0,
        BitVec.ofNat 64 ((handleOf d typeChannel chan).toNat + 2 ^ 32 * tail.toNat), 0⟩
    else d

/-- DOORBELL_LATCH (R425): at the first tick boundary after the doorbell. -/
def execDoorbellLatch (chan : Nat) (s : State) : Host.Outcome State Fault Refusal :=
  runCmd (.doorbellLatch chan) (fun d =>
    match (getChan d chan).doorbell with
    | some (tail, t) => whenOn "DOORBELL_LATCH" (decide (t < d.tick)) (latchDoorbell d chan tail)
    | none => .refused (.notEnabled "DOORBELL_LATCH")) s

/-- A write to CMD_ARRIVE (R438, R57): a remote arrival at an enabled stake of a die the part has; else, or before package ready (R652), it is logged. -/
def arriveWrite (d : Dev) (die : Nat) (stake : BitVec 17) (inc : BitVec 16) : Dev :=
  if !pkgReady d || decide (stakeCheck d stake none ≠ .none) then logIgnoredAt d .cmdArrive die 0 0 (stake.toNat + 2 ^ 32 * inc.toNat)
  else pushPort d 2 ⟨.arrive inc.toNat false, stake, .unit 5 die, none⟩

/-- CMD_ARRIVE (R438): it waits for a home link that retrains (R410, R435). -/
def execCmdArrive (die : Nat) (stake : BitVec 17) (inc : BitVec 16) (s : State) : Host.Outcome State Fault Refusal :=
  runCmd (.cmdArrive die stake inc) (fun d =>
    if commandBusy d die then .refused (.notEnabled "CMD_ARRIVE")
    else if die = 0 ∨ (d.part.dies = 8 ∧ die = 4) then .next (arriveWrite d die stake inc)
    else .refused .absentUnit) s

/-! ### Reading -/

/-- The refusal of a command as it is read (R422, R54): a stake that fails its check lies outside the channel's parcel. -/
def cmdRefusal (d : Dev) (ch : Nat) (x : Cmd) : FaultCode :=
  let p := (getChan d ch).parcelIdx
  let outside (o : Option StakeId) : Bool := (o.map fun id => decide (stakeCheck d id (some p) ≠ .none)).getD false
  if x.op = 0 ∨ 4 < x.op then .badDescriptor
  else if x.op = 1 ∧ (x.parts = 0 ∨ 32 < x.parts ∨
      (x.masked ∧ (x.partMask = 0 ∨ 2 ^ x.parts ≤ x.partMask.toNat))) then .badDescriptor
  else if outside x.wait || outside x.done then .stakeDenied
  else .none

/-- Where the command at HEAD lies (R420). -/
def Channel.headAddr (k : Channel) : Addr := k.submit + BitVec.ofNat 52 (k.head.toNat % 2 ^ k.submitOrder * 64)

/-- Reads the command at HEAD (R420, R422): a line that cannot be read cancels it with its code. -/
def readCommand (d : Dev) (ch : Nat) : Dev :=
  let k := getChan d ch
  let r := devRead d k.headAddr 64 false
  let x : Cmd := match r.2 with
    | .ok b =>
      let y := Cmd.new k.head.toNat ((List.range 8).map fun i => BitVec.ofNat 64 (bytesNat b (8 * i) 8)) .none
      { y with cancel := cmdRefusal d ch y }
    | .error f => Cmd.new k.head.toNat (List.replicate 8 0) f
  pump (modChan r.1 ch fun k => { k with head := k.head + 1, cmds := k.cmds ++ [x] }) ch

/-- Commands read and not started. -/
def Channel.ahead (x : Channel) : Nat := (x.cmds.filter fun c => !c.started).length

/-- COMMAND_READ (R420, R424): the dispatcher reads the next command, at most eight ahead; the read waits for slices and links (R370, R410). -/
def execCommandRead (chan : Nat) (s : State) : Host.Outcome State Fault Refusal :=
  runCmd (.commandRead chan) (fun d =>
    let k := getChan d chan
    whenOn "COMMAND_READ" (decide (k.state = 1) && decide (k.head ≠ k.tail) && decide (k.ahead < 8) &&
      !extentBusy d (homeDie d chan) k.headAddr 64) (readCommand d chan)) s

/-! ### Starting -/

/-- The order of R458 among RUNs that have not started. -/
def runRank (d : Dev) (ch : Nat) (x : Cmd) : List Nat := [3 - (getChan d ch).prio, if x.readyTick = 0 then d.tick else x.readyTick, ch]

/-- The front command is a RUN with an image, which meets every condition of R424: it waits only for its tenant's turn. -/
def waitingRun (d : Dev) (ch : Nat) : Option Cmd :=
  (getChan d ch).front.filter fun x => decide (x.op = 1) && (getChan d ch).image.isSome && x.ready d ch

/-- No other channel of the parcel has a waiting RUN that R458 puts first (R472). -/
def runFirst (d : Dev) (ch : Nat) (x : Cmd) : Bool :=
  d.chans.all fun e => decide (e.1 = ch) || decide (e.2.state = 0) || decide (e.2.parcelIdx ≠ (getChan d ch).parcelIdx) ||
    ((waitingRun d e.1).map fun y => rankLt (runRank d ch x) (runRank d e.1 y)).getD true

/-- In a shared parcel a RUN starts only as the occupant's, not during a swap (R462), and not before a RUN that R458 puts first (R472). -/
def tenantReady (d : Dev) (ch : Nat) (x : Cmd) : Bool :=
  let k := getChan d ch
  let p := getParcel d k.parcelIdx
  decide (x.op ≠ 1) || k.image.isNone || decide (p.tenants = 0) ||
    (decide (p.occupant = some k.tenant) && p.swapping.isNone && runFirst d ch x)

/-- Starts the front command (R424): its place in the order is taken, and a RUN captures the image it runs (R423). -/
def startCommand (d : Dev) (ch : Nat) (x : Cmd) : Dev :=
  let k := getChan d ch
  if x.op = 1 ∧ k.image.isNone then pump (setCmd d ch { x with cancel := .imageAbsent, waiting := false }) ch
  else
    let d := setCmd d ch { x with started := true, waiting := false, readyTick := if x.readyTick = 0 then d.tick else x.readyTick, image := k.image }
    pump (takePlace d ch x) ch

/-- COMMAND_START (R424): the front command starts; a wait that ends with outcome 1 cancels it with OPERAND_FAULT. -/
def execCommandStart (chan : Nat) (s : State) : Host.Outcome State Fault Refusal :=
  runCmd (.commandStart chan) (fun d =>
    match (getChan d chan).front with
    | none => .refused (.notEnabled "COMMAND_START")
    | some x =>
      if !mayStart d chan x then .refused (.notEnabled "COMMAND_START")
      else match x.wait with
        | none => whenOn "COMMAND_START" (tenantReady d chan x) (startCommand d chan x)
        | some _ =>
          match x.waited, takeWake d (.command chan x.num) with
          | some 0, _ => whenOn "COMMAND_START" (tenantReady d chan x) (startCommand d chan x)
          | _, some (0, e) =>
            if tenantReady d chan x then .next (startCommand e chan { x with waited := some 0 })
            else .next (pump (setCmd e chan { x with waited := some 0, waiting := false }) chan)
          | _, some (n, e) => .next (pump (setCmd e chan { x with waited := some n, waiting := false, cancel := .operandFault }) chan)
          | _, none => .refused (.notEnabled "COMMAND_START")) s

/-! ### Acting -/

/-- The first started command of an operation that has not acted yet. -/
def toAct (d : Dev) (ch op : Nat) : Option Cmd :=
  (getChan d ch).cmds.find? fun x => x.started && !x.acted && decide (x.op = op)

/-- RUN (R423, R592): its parts wait for cores; selected parts of a MASKED RUN whose bit is in the fence bitmap run as reassigned work outside
plumb parcels. -/
def execCmdRun (chan : Nat) (s : State) : Host.Outcome State Fault Refusal :=
  runCmd (.cmdRun chan) (fun d =>
    match toAct d chan 1 with
    | none => .refused (.notEnabled "RUN")
    | some x =>
      let k := getChan d chan
      let all : W32 := if x.masked then x.partMask else BitVec.ofNat 32 (2 ^ x.parts - 1)
      let re : W32 := if x.masked && !(getParcel d k.parcelIdx).plumb then k.fence &&& all else 0
      .next (setCmd d chan { x with acted := true, place := all, reassign := re })) s

/-- The read of an image waits for slices or links (R370, R410): of its header, or of the extent that a sound header gives. -/
def imageBusy (d : Dev) (die : Nat) (a : Addr) : Bool :=
  inMemory d a 128 && (extentBusy d die a 128 || (match (devReadAll d a 128).2 with
    | .ok h => !imageBad d a h && extentBusy d die a (imageEnd h)
    | .error _ => false))

/-- LOAD (R427): an accepted image replaces the one before for every later command; a refused one leaves it. The read of the image waits for slices and
links (R370, R410). -/
def execCmdLoad (chan : Nat) (s : State) : Host.Outcome State Fault Refusal :=
  runCmd (.cmdLoad chan) (fun d =>
    match toAct d chan 2 with
    | none => .refused (.notEnabled "LOAD")
    | some x =>
      if imageBusy d (homeDie d chan) (BitVec.ofNat 52 (x.fld 2 51 0)) then .refused (.notEnabled "LOAD")
      else match loadImage d (homeDie d chan) (BitVec.ofNat 52 (x.fld 2 51 0)) with
      | (d, .error f) => .next (pump (completeCmd d chan x false true f) chan)
      | (d, .ok im) =>
        let d := modChan d chan fun k => { k with image := some im, oldImages := k.oldImages ++ k.image.toList }
        .next (pump (completeCmd d chan x false false .none) chan)) s

/-- ARRIVE (R422): an arrival from the dispatcher for the channel's parcel. -/
def execCmdArriveOp (chan : Nat) (s : State) : Host.Outcome State Fault Refusal :=
  runCmd (.cmdArriveOp chan) (fun d =>
    match toAct d chan 3 with
    | none => .refused (.notEnabled "ARRIVE")
    | some x =>
      let d := blockArrive d (homeDie d chan) (BitVec.ofNat 17 (x.fld 2 16 0)) 5 (some (getChan d chan).parcelIdx) (x.fld 2 47 32) false
      .next (pump (completeCmd d chan x false false .none) chan)) s

/-- NOP (R422): completes at once. -/
def execCmdNop (chan : Nat) (s : State) : Host.Outcome State Fault Refusal :=
  runCmd (.cmdNop chan) (fun d =>
    match toAct d chan 4 with
    | none => .refused (.notEnabled "NOP")
    | some x => .next (pump (completeCmd d chan x false false .none) chan)) s

/-- A write to CMD_COMPL.HEAD (R426, R444): a value beyond TAIL is ignored and logged; room in the ring lets cancelled commands complete. -/
def complHeadWrite (d : Dev) (chan : Nat) (v : BitVec 32) : Dev :=
  let k := getChan d chan
  if (k.rtail - k.rhead).toNat < (v - k.rhead).toNat then logIgnoredAt d .cmdCompl (homeDie d chan) 0 chan (k.rtail.toNat + 2 ^ 32 * v.toNat)
  else pump (setChan d chan { k with rhead := v }) chan

/-- CMD_COMPL.HEAD (R426, R444): the write waits for a home link that retrains (R410, R435). -/
def execCmdComplHeadWrite (chan : Nat) (v : BitVec 32) (s : State) : Host.Outcome State Fault Refusal :=
  runCmd (.cmdComplHeadWrite chan v) (fun d =>
    whenOn "CMD_COMPL_HEAD_WRITE" (!commandBusy d (homeDie d chan)) (complHeadWrite d chan v)) s

/-! ### The event ring -/

/-- The order of R433 and R83: tick, class, die, source, KIND, key. -/
def Event.rank (e : Event) : List Nat := [e.tick.toNat, e.cls, e.die, e.src, e.kind, e.key1, e.key2]

/-- The pending event that is merged next. -/
def firstEvent (l : List Event) : Option Event :=
  l.foldl (fun best e => match best with
    | none => some e
    | some b => if rankLt e.rank b.rank then some e else some b) none

/-- The 32 bytes of an event record (R432). -/
def eventBytes (phase gap : Bool) (e : Event) : List Byte :=
  leBytes 8 (e.cls + 16 * b2n phase + 32 * b2n gap + 2 ^ 8 * e.die + 2 ^ 16 * e.src + 2 ^ 24 * e.kind) ++ leBytes 8 e.tick.toNat ++
    leBytes 8 e.pay0.toNat ++ leBytes 8 e.pay1.toNat

/-- CMD_EVT_FILTER lets a class through (R448). -/
def classPasses (d : Dev) (cls : Nat) : Bool :=
  decide (cls < 5) || decide (rfld d .cmdEvtFilter 0 0 0 (cls - 1) (cls - 1) = 1)

/-- Where the event ring's next record lies (R446). -/
def eventAddr (d : Dev) : Addr :=
  BitVec.ofNat 52 (rfld d .cmdEvtCtl 0 0 0 51 0 + rfld d .cmdEvtPtr 0 0 0 31 0 % 2 ^ rfld d .cmdEvtCtl 0 0 0 56 52 * 32)

/-- Writes an event's record at TAIL (R432, R433): a refused write, or one onto a line that stays poisoned, drops the record and logs kind 73. -/
def writeEvent (d : Dev) (e : Event) : Dev :=
  let r := rfld d .cmdEvtPtr 0 0 0 31 0
  let order := rfld d .cmdEvtCtl 0 0 0 56 52
  let a := eventAddr d
  let lost (d : Dev) (f : FaultCode) : Dev := evtDrop (logErr d 0 ⟨srcErr, 73, f, .info, 0, [a.toNat, r]⟩)
  match devWrite d a (eventBytes (decide (r / 2 ^ order % 2 = 0)) d.gap e) with
  | (d, .error f) => lost d f
  | (d, .ok ()) =>
    if ((resolve d a).map fun p => poisoned d p 32).getD false then lost d .poisoned
    else rset { d with gap := false } .cmdEvtPtr 0 0 0 31 0 (r + 1)

/-- EVENT_MERGE_WRITE (R433): the first pending event of a tick that has ended is merged: dropped where records are not written or its class is
filtered, else written. A full ring stops the merge, and slices or links that the write needs, or that the event has to pass to die 0, hold it (R370,
R410). -/
def execEventMergeWrite (s : State) : Host.Outcome State Fault Refusal :=
  runCmd .eventMergeWrite (fun d =>
    match firstEvent d.events with
    | none => .refused (.notEnabled "EVENT_MERGE_WRITE")
    | some e =>
      let rest := { d with events := d.events.erase e }
      if d.tick ≤ e.tick.toNat ∨ evtRingFull d ∨ routeBusy d e.die 0 then .refused (.notEnabled "EVENT_MERGE_WRITE")
      else if rfld d .cmdEvtCtl 0 0 0 57 57 = 0 ∨ !classPasses d e.cls then .next rest
      else whenOn "EVENT_MERGE_WRITE" (!extentBusy d 0 (eventAddr d) 32) (writeEvent rest e)) s

/-- A write to CMD_EVT_PTR.HEAD (R447): a value beyond TAIL is ignored and logged. -/
def evtHeadWrite (d : Dev) (v : BitVec 32) : Dev :=
  let p := regGet d .cmdEvtPtr 0 0 0
  let head : W32 := BitVec.ofNat 32 (fld p 63 32)
  let tail : W32 := BitVec.ofNat 32 (fld p 31 0)
  if (tail - head).toNat < (v - head).toNat then logIgnoredAt d .cmdEvtPtr 0 0 0 (tail.toNat + 2 ^ 32 * v.toNat)
  else regSet d .cmdEvtPtr 0 0 0 (setFld p 63 32 v.toNat)

/-- CMD_EVT_PTR.HEAD (R447): the write waits for a command link that retrains (R410, R435). -/
def execCmdEvtPtrHeadWrite (v : BitVec 32) (s : State) : Host.Outcome State Fault Refusal :=
  runCmd (.cmdEvtPtrHeadWrite v) (fun d => whenOn "CMD_EVT_PTR_HEAD_WRITE" (!commandBusy d 0) (evtHeadWrite d v)) s

end Sys2Proof.Machine
end

