-- ==== Sys2Proof/Machine/Descr.lean ====
section
/-!
DEFINITION. The fields of descriptors and hook blocks (R100, R168, R285, R297, R300, R311, R342, R225, R231, R234), their
extents (R195, R288, R297, R300, R312, R342), and the elements and formats they name (R130, R131, R158).
-/

namespace Sys2Proof.Machine

/-! ### Words -/

/-- Bits of a word of a list of words. -/
def wfld (ws : List W64) (n hi lo : Nat) : Nat := fld (ws.getD n 0) hi lo

/-- Bits of a word of the operation's descriptor. -/
def RunOp.fd (o : RunOp) (n hi lo : Nat) : Nat := wfld o.op.desc n hi lo

/-- A bit of the operation's descriptor. -/
def RunOp.bit (o : RunOp) (n b : Nat) : Bool := decide (o.fd n b b = 1)

/-- An address of the operation's descriptor. -/
def RunOp.addr (o : RunOp) (n : Nat) : Addr := BitVec.ofNat 52 (o.fd n 51 0)

/-- An operation its unit has just taken. -/
def RunOp.new (op : Op) : RunOp :=
  ⟨op, [], [], .operand, 0, 0, 0, 0, 0, 0, false, false, false, false, false, false, false, false, [], [], [], none, .none, 0, false, false⟩

/-! ### Formats -/

/-- Bytes of n elements of a format, block formats in whole blocks (R130, R131). -/
def fmtBytes (code n : Nat) : Nat := if isBlockFmt code then cdiv n 32 * (fmtBits code * 4) else cdiv (n * fmtBits code) 8

/-- The bytes of codes of a width, packed little-endian (R130). -/
def packCodes (bits : Nat) (codes : List Nat) : List Byte :=
  leBytes (cdiv (codes.length * bits) 8) (codes.foldr (fun c a => c % 2 ^ bits + 2 ^ bits * a) 0)

/-- Element i of a packed array at an offset of a core's own store (R130). -/
def storeElem (d : Dev) (c : CoreId) (off bits i : Nat) : Nat :=
  let b := bits * i
  storeNat d c (off + b / 8) 5 / 2 ^ (b % 8) % 2 ^ bits

/-- The offset in a core's own store of an address that lies there. -/
def offIn (c : CoreId) (a : Addr) : Nat := (ownStore c a 0).getD 0

/-- An extent lies in the core's own store. -/
def inOwn (c : CoreId) (a : Addr) (len : Nat) : Bool := (ownStore c a len).isSome

/-- An extent given by its offset lies in the core store. -/
def inOwnOff (off len : Nat) : Bool := decide (off + len ≤ storeBytes)

/-- Step classes (R158). -/
inductive StepClass where
  | wide | byte | int8 | fp4 | int4 | fp32
deriving DecidableEq, Repr

/-- The step class of a pairing of formats (R158). -/
def stepClass (a b : Nat) : Option StepClass :=
  let is16 (x : Nat) : Bool := decide (x = 1) || decide (x = 2)
  let is8 (x : Nat) : Bool := decide (3 ≤ x) && decide (x ≤ 6)
  if is16 a && is16 b then some .wide
  else if is8 a && is8 b then some .byte
  else if a = 8 ∧ b = 8 then some .int8
  else if a = 7 ∧ b = 7 then some .fp4
  else if a = 9 ∧ b = 9 then some .int4
  else if a = 0 ∧ b = 0 then some .fp32
  else none

/-- K per step (R158). -/
def StepClass.kStep : StepClass → Nat
  | .wide | .fp32 => 8
  | .byte | .int8 => 16
  | .fp4 | .int4 => 32

/-- Output formats a class permits (R158). -/
def StepClass.outOk (s : StepClass) (f : Nat) : Bool := decide (f ≤ 4) || (decide (s = .int8) && decide (f = 10))

/-! ### What the kinds share -/

/-- WAIT_EN and WAIT_STAKE (R170). -/
def RunOp.wait (o : RunOp) : Option StakeId :=
  let x : Nat × Nat := match o.op.kind with
    | 1 => (17, 34)
    | 2 | 4 => (18, 35)
    | 3 => (20, 37)
    | 5 => (15, 32)
    | _ => (21, 38)
  if o.bit 0 x.1 then some (BitVec.ofNat 17 (o.fd 0 x.2 (x.1 + 1))) else none

/-- RT_SRC (R196). -/
def RunOp.rtSrc (o : RunOp) : Bool :=
  match o.op.kind with
  | 1 => o.bit 9 48
  | 3 => o.bit 10 24
  | 2 | 4 | 5 => o.bit 10 60
  | _ => o.bit 7 48

/-- RT_ADDR (R195). -/
def RunOp.rtAddr (o : RunOp) : Addr :=
  match o.op.kind with
  | 1 => o.addr 10
  | 2 | 3 | 4 | 5 => o.addr 11
  | _ => o.addr 8

/-- CLAIM_ADDR and EPOCH (R78). -/
def RunOp.claim (o : RunOp) : Addr × Nat :=
  match o.op.kind with
  | 1 => (o.addr 13, o.fd 14 31 0)
  | _ => (o.addr 14, o.fd 15 31 0)

/-- Pooling mode (R297). -/
def RunOp.poolMode (o : RunOp) : Nat := o.fd 0 14 12

/-- The planned extents E0, E1, E2 (R168, R288, R297, R300, R312, R342). -/
def RunOp.plan (o : RunOp) : Nat × Nat × Nat :=
  match o.op.kind with
  | 1 => (o.fd 9 11 0, o.fd 9 23 12, o.fd 9 47 24)
  | 2 => (o.fd 10 23 0, o.fd 10 35 24, o.fd 10 59 36)
  | 3 => (o.fd 9 39 32, o.fd 10 23 0, 1)
  | 4 => (o.fd 10 23 0, o.fd 10 35 24, 1)
  | 5 => (o.fd 10 23 0, o.fd 10 35 24, o.fd 10 48 36)
  | _ => (o.fd 7 23 0, o.fd 7 47 24, 1)

/-- The extents that the guard and the zero-shape test compare (R198, R199), of a triple E0, E1, E2. -/
def RunOp.exts (o : RunOp) (e : Nat × Nat × Nat) : List Nat :=
  let grid := [e.1 % 4096, e.1 / 4096 % 4096]
  match o.op.kind with
  | 1 => [e.1, e.2.1, e.2.2]
  | 2 => grid ++ [e.2.1, e.2.2]
  | 3 => [e.1, e.2.1]
  | 4 => if o.poolMode = 5 then [e.2.1] else grid ++ [e.2.1]
  | 5 => grid ++ [e.2.1, e.2.2]
  | _ => [e.1, e.2.1]

/-- The run-time extents. -/
def RunOp.run (o : RunOp) : Nat × Nat × Nat := (o.e0, o.e1, o.e2)

/-- The guard of R198. -/
def RunOp.guarded (o : RunOp) : Bool := ((o.exts o.run).zip (o.exts o.plan)).any fun x => decide (x.2 < x.1)

/-- The zero shape of R199. -/
def RunOp.zero (o : RunOp) : Bool := (o.exts o.run).any fun x => decide (x = 0)

/-- Rows and columns of a grid extent (R288). -/
def gridOf (e0 : Nat) : Nat × Nat := (e0 % 4096, e0 / 4096 % 4096)

/-- CONT (R165). -/
def RunOp.cont (o : RunOp) : Bool := (decide (o.op.kind = 1) || decide (o.op.kind = 2)) && o.bit 0 12

/-- KEEP (R165). -/
def RunOp.keep (o : RunOp) : Bool := (decide (o.op.kind = 1) || decide (o.op.kind = 2)) && o.bit 0 13

/-- Formats of the first and second operand and the output, RND, SAT, FTZ_IN and FTZ_OUT. -/
structure Fmts where
  a : Nat
  b : Nat
  c : Nat
  rnd : Nat
  sat : Bool
  ftzIn : Bool
  ftzOut : Bool
deriving DecidableEq, Repr

/-- The format fields of an operation (R168, R285, R297, R311, R342). -/
def RunOp.fmts (o : RunOp) : Fmts :=
  match o.op.kind with
  | 1 | 3 => ⟨o.fd 8 3 0, o.fd 8 7 4, o.fd 8 11 8, o.fd 8 13 12, o.bit 8 14, o.bit 8 15, o.bit 8 16⟩
  | 2 | 4 | 5 => ⟨o.fd 6 35 32, o.fd 6 39 36, o.fd 6 43 40, o.fd 6 45 44, o.bit 6 46, o.bit 6 47, o.bit 6 48⟩
  | _ => ⟨o.fd 6 3 0, 0, o.fd 6 7 4, o.fd 0 13 12, o.bit 0 15, o.bit 0 16, o.bit 0 17⟩

/-- The step class of a matrix or convolution operation. -/
def RunOp.cls (o : RunOp) : StepClass := (stepClass o.fmts.a o.fmts.b).getD .wide

/-- BANK_BASE. -/
def RunOp.bankBase (o : RunOp) : Nat :=
  match o.op.kind with
  | 1 => o.fd 5 37 32
  | 3 => o.fd 0 47 42
  | _ => o.fd 4 47 42

/-- SCALE_BASE if DRAIN_SCALE is set (R171). -/
def RunOp.drainScale (o : RunOp) : Option Nat :=
  match o.op.kind with
  | 1 => if o.bit 0 16 then some (o.fd 5 51 40) else none
  | 2 => if o.bit 0 17 then some (o.fd 4 59 48) else none
  | _ => none

/-! ### Image geometry (R284 to R289) -/

/-- XBP (R289). -/
def RunOp.xbp (o : RunOp) : Nat := cdiv (gridOf o.plan.1).2 8

/-- U, the channels of a unit of the reduction (R287). -/
def RunOp.unit (o : RunOp) : Nat := if isBlockFmt o.fmts.a || isBlockFmt o.fmts.b then 32 else o.cls.kStep

/-- CINP (R287). -/
def RunOp.cinp (o : RunOp) : Nat := cdiv o.plan.2.2 o.unit * o.unit

/-- The planned M rows and N columns that banks, hooks and the stage see (R164, R289). -/
def RunOp.planM (o : RunOp) : Nat :=
  match o.op.kind with
  | 1 => o.plan.1
  | _ => (gridOf o.plan.1).1 * o.xbp * 8

/-- Planned columns. -/
def RunOp.planN (o : RunOp) : Nat := o.plan.2.1

/-- The output position of M row i of an image operation (R289). -/
def RunOp.pos (o : RunOp) (i : Nat) : Nat × Nat := (i / 8 / o.xbp, i / 8 % o.xbp * 8 + i % 8)

/-- M row i lies within the run-time extents. -/
def RunOp.rowIn (o : RunOp) (i : Nat) : Bool :=
  match o.op.kind with
  | 1 => decide (i < o.e0)
  | _ =>
    let p := o.pos i
    decide (p.1 < (gridOf o.e0).1) && decide (p.2 < (gridOf o.e0).2)

/-- The M rows within the run-time extents, in order. -/
def RunOp.rows (o : RunOp) : List Nat := (List.range o.planM).filter o.rowIn

/-- The bank of output block (mb, nb) (R164). -/
def RunOp.bankOf (o : RunOp) (mb nb : Nat) : Nat := o.bankBase + mb * cdiv o.planN 8 + nb

/-- Banks an operation uses (R164, R289, R297, R313). -/
def RunOp.banks (o : RunOp) : Nat :=
  match o.op.kind with
  | 3 => cdiv o.plan.1 8 * (cdiv (o.fd 9 48 40) 8 + 8)
  | 4 => if o.poolMode < 4 then cdiv o.planM 8 * cdiv o.planN 8 else 0
  | 5 => 0
  | _ => cdiv o.planM 8 * cdiv o.planN 8

/-- The offset of output element (row i, column j) in the core store, as a byte offset and an element index in that row or plane (R168,
R284, R289). -/
def RunOp.outAt (o : RunOp) (c : CoreId) (i j : Nat) : Nat × Nat :=
  let base := offIn c (o.addr 3)
  match o.op.kind with
  | 1 => (base + i * o.fd 5 31 0, j)
  | _ =>
    let p := o.pos i
    let chw := if o.op.kind = 2 then o.bit 0 16 else o.bit 0 17
    let y := o.fd 5 20 0
    let x := o.fd 5 41 21
    if chw then (base + j * x + p.1 * y, p.2) else (base + p.1 * y + p.2 * x, j)

/-! ### Hooks (R225, R231, R234) -/

/-- The prologue hook word. -/
def RunOp.proWord (o : RunOp) : W64 :=
  match o.op.kind with
  | 1 => o.op.desc.getD 11 0
  | 2 => o.op.desc.getD 12 0
  | _ => 0

/-- The epilogue hook word. -/
def RunOp.epiWord (o : RunOp) : W64 :=
  match o.op.kind with
  | 1 => o.op.desc.getD 12 0
  | 2 => o.op.desc.getD 13 0
  | _ => 0

/-- EN of a hook word. -/
def hookEn (w : W64) : Bool := w.getLsbD 0

/-- PROG of an active hook word. -/
def hookProg (w : W64) : Bool := w.getLsbD 0 && w.getLsbD 1

/-- BLOCK of a hook word. -/
def hookBlock (w : W64) : Nat := fld w 52 32

/-- Bits of the prologue block; 0 without a prologue. -/
def RunOp.pf (o : RunOp) (n hi lo : Nat) : Nat := wfld o.pro n hi lo

/-- Bits of the epilogue block; 0 without an epilogue. -/
def RunOp.ef (o : RunOp) (n hi lo : Nat) : Nat := wfld o.epi n hi lo

/-- GATHER. -/
def RunOp.gather (o : RunOp) : Bool := decide (o.pf 0 0 0 = 1)

/-- CORRECT. -/
def RunOp.correct (o : RunOp) : Bool := decide (o.pf 0 1 1 = 1)

/-- RELAY_IN. -/
def RunOp.relayIn (o : RunOp) : Bool := decide (o.pf 0 2 2 = 1)

/-- RELAY_OUT. -/
def RunOp.relayOut (o : RunOp) : Bool := decide (o.ef 0 9 9 = 1)

/-- The cube reads the prepared copy of A (R233). -/
def RunOp.copies (o : RunOp) : Bool := o.correct || hookProg o.proWord

/-- LKIND of the epilogue. -/
def RunOp.lkind (o : RunOp) : Nat := o.ef 0 7 6

/-- ROUTE: the stake route (R247). -/
def RunOp.stakeRoute (o : RunOp) : Bool := decide (o.ef 0 8 8 = 1) && decide (o.lkind ≠ 0)

/-- KSPLIT with its part index, if set (R250). -/
def RunOp.ksplit (o : RunOp) : Option Nat := if o.ef 0 10 10 = 1 then some (o.ef 0 46 41) else none

/-- A part other than part 0 of a K split: it writes no C, runs no epilogue and publishes nothing (R250). -/
def RunOp.sidePart (o : RunOp) : Bool := decide (o.ksplit.getD 0 ≠ 0)

/-- Rows and columns of A that the prologue prepares: the run-time M × K, or the window's positions by PLAN_CIN (R233, R290). -/
def RunOp.proShape (o : RunOp) : Nat × Nat :=
  match o.op.kind with
  | 1 => (o.e0, o.e2)
  | _ => (o.fd 6 15 0 * o.fd 6 31 16, o.plan.2.2)

/-- The stage offset (R234). -/
def RunOp.stage (o : RunOp) : Nat := o.ef 2 52 32

/-- The offset of stage element (i, j) (R235). -/
def RunOp.stageAt (o : RunOp) (i j : Nat) : Nat := o.stage + (i * o.planN + j) * 4

end Sys2Proof.Machine
end

