-- ==== Sys2Proof/Machine/Checks.lean ====
section
/-!
DEFINITION. The checks that a unit makes on a descriptor it has taken: orders 1 and 2 of R197 (R99, R54, R169, R226, R290, R291, R297,
R300, R313, R343), and the reads of the hook blocks.
-/

namespace Sys2Proof.Machine

/-- The code of the first test that fails. -/
def firstFault : List (Bool × FaultCode) → FaultCode
  | [] => .none
  | (b, f) :: t => if b then f else firstFault t

/-- Not a multiple. -/
def misBy (k x : Nat) : Bool := decide (x % k ≠ 0)

/-- The header checks (R99), with the words read; a poisoned descriptor is POISONED (R384). An aligned descriptor whose address lies in the core
store lies in it whole. -/
def order1 (d : Dev) (c : CoreId) (op : Op) : Except FaultCode Op :=
  match ownStore c op.da 1 with
  | none => .error .spaceDenied
  | some off =>
    if misBy 128 op.da.toNat then .error .misaligned
    else if storePoisoned d c off 128 then .error .poisoned
    else
      let ws := storeWords d c off 16
      if wfld ws 0 7 0 ≠ op.kind ∨ wfld ws 0 11 8 = 0 then .error .badDescriptor
      else if wfld ws 0 11 8 ≠ 1 then .error .featureAbsent
      else .ok { op with desc := ws }

/-- The extent of rows of a byte length at a stride. -/
def strided (rows stride len : Nat) : Nat := if rows = 0 then 0 else (rows - 1) * stride + len

/-- The bytes of a window or output grid of R284 over rows, columns and channels. -/
def gridBytes (chw : Bool) (ystr istr fmt rows cols chans : Nat) : Nat :=
  if chw then strided chans istr (strided rows ystr (fmtBytes fmt cols))
  else strided rows ystr (strided cols istr (fmtBytes fmt chans))

/-- An address lies in the reservoir scratch of its die (R226). -/
def inScratch (d : Dev) (a : Addr) : Bool :=
  match resolve d a with
  | some (.scratch _ _ _) => true
  | _ => false

/-- An area lies in the relay region (R238, R252). -/
def inRelay (d : Dev) (c : CoreId) (a : Addr) (len : Nat) : Bool :=
  let lo := rfld d .cubeRelay c.die c.core 0 8 0 * 4096
  let size := rfld d .cubeRelay c.die c.core 0 24 16 * 4096
  match ownStore c a len with
  | some off => decide (size ≠ 0) && decide (lo ≤ off) && decide (off + len ≤ lo + size)
  | none => false

/-- The bytes of A or of the window over the planned shape. -/
def RunOp.aBytes (o : RunOp) : Nat :=
  match o.op.kind with
  | 1 =>
    if o.bit 0 14 then strided o.plan.2.2 (o.fd 4 31 0) (fmtBytes o.fmts.a o.plan.1)
    else strided o.plan.1 (o.fd 4 31 0) (fmtBytes o.fmts.a o.plan.2.2)
  | _ => gridBytes (if o.op.kind = 2 then o.bit 0 15 else if o.op.kind = 4 then o.bit 0 16 else false)
      (o.fd 4 20 0) (o.fd 4 41 21) o.fmts.a (o.fd 6 15 0) (o.fd 6 31 16) (if o.op.kind = 2 then o.cinp else o.plan.2.1)

/-- The bytes of the output over the planned shape. -/
def RunOp.outBytes (o : RunOp) : Nat :=
  match o.op.kind with
  | 1 => strided o.plan.1 (o.fd 5 31 0) (fmtBytes o.fmts.c o.plan.2.1)
  | _ => gridBytes (if o.op.kind = 2 then o.bit 0 16 else if o.op.kind = 4 then o.bit 0 17 else false)
      (o.fd 5 20 0) (o.fd 5 41 21) o.fmts.c (gridOf o.plan.1).1 (gridOf o.plan.1).2 o.plan.2.1

/-- Hook tests that give BAD_DESCRIPTOR (R226, R290). -/
def hookBad (d : Dev) (c : CoreId) (o : RunOp) : Bool :=
  let pw := o.proWord
  let ew := o.epiWord
  let badProg (w : W64) : Bool := hookProg w && (decide (fld w 6 2 = 0) || decide (16 < fld w 6 2))
  let blk := isBlockFmt o.fmts.a
  let lk := o.pf 0 4 3
  let lp := o.pf 0 28 22
  badProg pw || badProg ew || (hookEn ew && o.keep) ||
    (blk && (o.gather || o.correct || o.relayIn || hookProg pw)) ||
    (decide (o.op.kind = 1) && o.bit 0 14 && (o.gather || o.relayIn)) ||
    (decide (o.op.kind = 2) && (o.gather || o.relayIn || (hookEn pw && o.bit 0 15))) ||
    (o.correct && (decide (lk = 0) || decide (lp = 0) || decide (64 < lp) || decide (lp * o.pf 2 47 24 < o.plan.2.2))) ||
    (decide (lk = 2) && decide (o.pf 3 31 0 = 0)) ||
    (decide (o.lkind = 2) && decide (o.ef 7 31 0 = 0)) ||
    (decide (o.lkind ≠ 0) && decide (o.ef 0 34 28 ≤ o.ef 0 40 35)) ||
    (o.ksplit.isSome && decide (o.ef 0 53 47 ≤ o.ef 0 46 41)) ||
    decide (6 ≤ o.ef 0 2 0) || decide (6 ≤ o.ef 0 5 3) ||
    (o.relayIn && !inRelay d c (o.addr 1) o.aBytes) || (o.relayOut && !inRelay d c (o.addr 3) o.outBytes)

/-- Hook tests that give MISALIGNED: any field of an enabled hook's block that breaks the alignment it states (R226, R231, R234); the fields
of a block that is not read are 0. -/
def hookMis (o : RunOp) : Bool :=
  let pw := o.proWord
  let ew := o.epiWord
  (hookEn pw && misBy 64 (hookBlock pw)) || (hookEn ew && misBy 64 (hookBlock ew)) ||
    misBy 4 (o.pf 4 20 0) || misBy 4 (o.pf 4 52 32) || misBy 64 (o.pf 5 52 32) || misBy 64 (o.pf 1 51 0) ||
    misBy 64 (o.pf 5 20 0) || misBy 16 (o.pf 6 31 0) || (hookEn ew && misBy 64 o.stage) ||
    misBy 4 (o.ef 3 20 0) || misBy 4 (o.ef 3 52 32) || misBy 64 (o.ef 1 51 0) ||
    misBy 4 (o.ef 4 20 0) || misBy 64 (o.ef 4 52 32) || misBy 64 (o.ef 5 51 0)

/-- Hook tests that give SPACE_DENIED (R226). -/
def hookSpace (d : Dev) (c : CoreId) (o : RunOp) : Bool :=
  let pw := o.proWord
  let ew := o.epiWord
  let m := o.planM
  let n := o.planN
  let pm := match o.op.kind with
    | 1 => o.plan.1
    | _ => o.proShape.1
  let out (off len : Nat) : Bool := !inOwnOff off len
  (hookEn pw && out (hookBlock pw) 64) || (hookEn ew && out (hookBlock ew) 64) ||
    (hookProg pw && decide (textLen d c ≤ fld pw 28 8)) || (hookProg ew && decide (textLen d c ≤ fld ew 28 8)) ||
    (o.gather && out (o.pf 4 20 0) (pm * 4)) ||
    (o.correct && (out (o.pf 4 52 32) (pm * o.pf 0 28 22 * 4) || out (o.pf 5 52 32) (pm * o.pf 0 28 22 * 8) ||
      !inScratch d (BitVec.ofNat 52 (o.pf 1 51 0)))) ||
    (o.copies && out (o.pf 5 20 0) (strided pm (o.pf 6 31 0) (fmtBytes o.fmts.a o.plan.2.2))) ||
    (hookEn ew && out o.stage (m * n * 4)) ||
    (decide (o.ef 0 2 0 ≠ 0) && out (o.ef 3 20 0) (m * 4)) || (decide (o.ef 0 5 3 ≠ 0) && out (o.ef 3 52 32) (n * 4)) ||
    (decide (o.lkind ≠ 0) && !inScratch d (BitVec.ofNat 52 (o.ef 1 51 0))) ||
    (decide (o.lkind ≠ 0) && !o.stakeRoute && out (o.ef 4 20 0) (m * 4)) ||
    (o.stakeRoute && out (o.ef 4 52 32) (m * o.ef 0 34 28 * 8)) ||
    (o.ksplit.isSome && !inScratch d (BitVec.ofNat 52 (o.ef 5 51 0)))

/-- The checks of kinds 0x01 and 0x02 (R164, R169, R291). -/
def checkMma (d : Dev) (c : CoreId) (o : RunOp) : FaultCode :=
  let f := o.fmts
  let conv := decide (o.op.kind = 2)
  let blkA := isBlockFmt f.a
  let blkB := isBlockFmt f.b
  let cls := stepClass f.a f.b
  let bad := cls.isNone || !((cls.map fun s => s.outOk f.c).getD true) || (o.exts o.plan).any (fun x => decide (x = 0)) ||
    (!conv && ((o.bit 0 14 && blkA) || (o.bit 0 15 && blkB))) ||
    (blkA && decide ((if conv then o.fd 7 51 0 else o.fd 6 51 0) = 0)) ||
    (blkB && decide ((if conv then o.fd 8 51 0 else o.fd 7 51 0) = 0)) ||
    (conv && (decide (o.fd 9 3 0 = 0) || decide (o.fd 9 7 4 = 0) || decide (o.fd 9 11 8 = 0) || decide (o.fd 9 15 12 = 0) ||
      decide (8 < o.fd 9 11 8) || decide (8 < o.fd 9 15 12) || decide (o.fd 9 23 16 = 0) || decide (o.fd 9 31 24 = 0) ||
      decide (o.fd 6 15 0 = 0) || decide (o.fd 6 31 16 = 0) || (blkA && o.bit 0 15))) ||
    decide (64 < o.bankBase + o.banks) ||
    ((o.drainScale.map fun b => decide (4096 < b + o.planN) || decide (f.c = 10)).getD false) || hookBad d c o
  let mis := misBy 16 (o.fd 1 51 0) || misBy 16 (o.fd 2 51 0) || misBy 16 (o.fd 3 51 0) ||
    (if conv then misBy 16 (o.fd 4 20 0) || misBy 16 (o.fd 4 41 21) || misBy 16 (o.fd 5 20 0) || misBy 16 (o.fd 5 41 21) ||
        misBy 16 (o.fd 5 62 42)
      else misBy 16 (o.fd 4 31 0) || misBy 16 (o.fd 4 63 32) || misBy 16 (o.fd 5 31 0)) || hookMis o
  let taps := o.fd 9 3 0 * o.fd 9 7 4
  let bBytes := if conv then strided o.plan.2.1 (o.fd 5 62 42) (fmtBytes f.b (taps * o.cinp))
    else if o.bit 0 15 then strided o.plan.2.2 (o.fd 4 63 32) (fmtBytes f.b o.plan.2.1)
    else strided o.plan.2.1 (o.fd 4 63 32) (fmtBytes f.b o.plan.2.2)
  let sA := if conv then o.fd 6 15 0 * o.fd 6 31 16 * (o.cinp / 32) else o.plan.1 * cdiv o.plan.2.2 32
  let sB := if conv then o.plan.2.1 * taps * (o.cinp / 32) else o.plan.2.1 * cdiv o.plan.2.2 32
  let space := !inOwn c (o.addr 1) o.aBytes || !inOwn c (o.addr 2) bBytes || !inOwn c (o.addr 3) o.outBytes ||
    (blkA && !inOwn c (o.addr (if conv then 7 else 6)) sA) || (blkB && !inOwn c (o.addr (if conv then 8 else 7)) sB) ||
    hookSpace d c o
  firstFault [(bad, .badDescriptor), (mis, .misaligned), (space, .spaceDenied)]

/-- Formats that pooling and resampling take (R297). -/
def imageFmt (f : Nat) : Bool := decide (f ≤ 4) || decide (f = 8)

/-- The checks of kinds 0x04 and 0x05 (R291, R297, R300). Mode 5 keeps the tests of the fields it does not use: R297 exempts E0 from the guard
and the zero-shape test alone. -/
def checkImage (c : CoreId) (o : RunOp) : FaultCode :=
  let f := o.fmts
  let pool := decide (o.op.kind = 4)
  let mode := o.poolMode
  let planBad := ([(gridOf o.plan.1).1, (gridOf o.plan.1).2, o.plan.2.1] ++ (if pool then [] else [o.plan.2.2])).any (fun x => decide (x = 0))
  let bad := planBad || !imageFmt f.a || !imageFmt f.c ||
    (decide (o.fd 6 15 0 = 0) || decide (o.fd 6 31 16 = 0)) ||
    (pool && (decide (o.fd 9 3 0 = 0) || decide (o.fd 9 7 4 = 0) || decide (o.fd 9 11 8 = 0) ||
      decide (o.fd 9 15 12 = 0) || decide (8 < o.fd 9 11 8) || decide (8 < o.fd 9 15 12) || decide (o.fd 9 23 16 = 0) ||
      decide (o.fd 9 31 24 = 0))) ||
    (pool && (decide (6 ≤ mode) || (decide (mode < 4) && decide (64 < o.bankBase + o.banks)) ||
      (decide (mode = 4) && (decide (o.fd 9 31 0 ≠ 0x01011111) || decide (o.fd 9 47 32 ≠ 0) || decide (o.fd 7 15 0 = 0) ||
        decide (o.planN < o.fd 7 15 0))) ||
      (decide (mode = 5) && (decide (o.fd 7 22 16 = 0) || decide (64 < o.fd 7 22 16))))) ||
    (!pool && (decide (o.fd 0 13 12 = 3) || decide (4096 < o.plan.2.2)))
  let mis := misBy 16 (o.fd 1 51 0) || misBy 16 (o.fd 3 51 0) || misBy 16 (o.fd 4 20 0) || misBy 16 (o.fd 4 41 21) ||
    misBy 16 (o.fd 5 20 0) || misBy 16 (o.fd 5 41 21) || (!pool && (misBy 16 (o.fd 2 51 0) || misBy 16 (o.fd 5 62 42)))
  let inB := if pool && decide (mode = 5) then o.planN * o.fd 7 22 16 * 16 else o.aBytes
  let outB := if pool && decide (mode = 4) then cdiv o.planN (max 1 (o.fd 7 15 0)) * 16
    else if pool && decide (mode = 5) then o.planN * 16
    else if pool then o.outBytes else strided o.plan.2.2 (o.fd 5 62 42) o.outBytes
  let space := !inOwn c (o.addr 1) inB || !inOwn c (o.addr 3) outB || (!pool && !inOwn c (o.addr 2) (o.plan.2.2 * 16))
  firstFault [(bad, .badDescriptor), (mis, .misaligned), (space, .spaceDenied)]

/-- D and KV_FMT of a KV sequence (R330), and STATE (R335). -/
def kvD (d : Dev) (die slot : Nat) : Nat := rfld d .kvsGeom die 0 slot 11 3

/-- KV_FMT of a sequence. -/
def kvFmt (d : Dev) (die slot : Nat) : Nat := rfld d .kvsGeom die 0 slot 15 12

/-- STATE of a sequence: 0 FREE, 1 OPEN, 2 SEALED, 3 FAULTED (R308). -/
def kvState (d : Dev) (die slot : Nat) : Nat := rfld d .kvsState die 0 slot 1 0

/-- The die and slot of a sequence index (R305). -/
def kvPlace (idx : Nat) : Nat × Nat := (idx / 4096, idx % 4096)

/-- The handle in an attention descriptor. -/
def RunOp.kvHandle (o : RunOp) : BitVec 32 := BitVec.ofNat 32 (o.fd 2 31 0)

/-- Planned positions of a query tile, ⌈M ÷ QGROUP⌉ (R312). -/
def RunOp.positions (o : RunOp) (m : Nat) : Nat := cdiv m (max 1 (o.fd 0 41 38))

/-- The checks of kind 0x03 (R313): the handle first, then BAD_DESCRIPTOR, MISALIGNED and SPACE_DENIED. -/
def checkAttn (d : Dev) (c : CoreId) (o : RunOp) : FaultCode :=
  match checkHandle d typeKv o.kvHandle with
  | .error f => f
  | .ok idx =>
    let q := kvPlace idx
    if kvState d q.1 q.2 = 0 then .staleHandle
    else
      let f := o.fmts
      let dd := kvD d q.1 q.2
      let kf := kvFmt d q.1 q.2
      let m := o.plan.1
      let l := o.plan.2.1
      let mask := o.fd 0 14 12
      let mb := cdiv m 8
      let plain (x : Nat) : Bool := decide (x ≤ 2)
      let bad := decide (o.fd 9 48 40 ≠ dd) || decide (o.fd 0 41 38 = 0) || decide (8 < o.fd 0 41 38) || decide (m = 0) ||
        decide (64 < m) || decide (l = 0) || decide (4 ≤ mask) || (decide (mask = 2) && decide (o.fd 8 63 42 = 0)) ||
        (stepClass f.a kf).isNone || isBlockFmt f.a || isBlockFmt kf || !plain f.b || !plain f.c ||
        decide (64 < o.bankBase + mb * (cdiv dd 8 + 8)) || (o.bit 8 17 && decide (4096 < o.fd 8 29 18 + 4 * dd)) ||
        ((o.bit 0 15 || o.bit 0 16) && decide (4096 < o.fd 8 41 30 + dd / 2))
      let mis := misBy 16 (o.fd 1 51 0) || misBy 16 (o.fd 3 51 0) || misBy 16 (o.fd 4 31 0) || misBy 16 (o.fd 4 63 32) ||
        misBy 16 (o.fd 5 51 0) || misBy 16 (o.fd 6 51 0) || misBy 16 (o.fd 7 31 0) || misBy 16 (o.fd 12 51 0) || misBy 64 (o.fd 13 20 0) || misBy 64 (o.fd 13 52 32)
      let new := strided (o.positions m) (o.fd 7 31 0) (fmtBytes f.b dd)
      let space := !inOwn c (o.addr 1) (strided m (o.fd 4 31 0) (fmtBytes f.a dd)) ||
        !inOwn c (o.addr 3) (strided m (o.fd 4 63 32) (fmtBytes f.c dd)) ||
        (o.bit 0 18 && (!inOwn c (o.addr 5) new || !inOwn c (o.addr 6) new)) ||
        (decide (mask = 3) && !inOwn c (o.addr 12) (m * (cdiv l 128 * 16))) ||
        !inOwnOff (o.fd 13 20 0) (mb * 8 * (dd + 64) * 4) || !inOwnOff (o.fd 13 52 32) (4 * fmtBytes kf (64 * dd))
      firstFault [(bad, .badDescriptor), (mis, .misaligned), (space, .spaceDenied)]

/-- Code formats of QNT.PACK's destination (R343): INT8, INT4, FP8, FP6, FP4, BF16, FP16. -/
def codeFmt (f : Nat) : Bool := decide (1 ≤ f) && decide (f ≤ 9)

/-- The code format of a quantise or dequantise operation (R343). -/
def RunOp.qcode (o : RunOp) : Nat := if o.op.kind = 0x30 then o.fmts.c else o.fmts.a

/-- The checks of kinds 0x30 and 0x31 (R343). -/
def checkQuant (c : CoreId) (o : RunOp) : FaultCode :=
  let f := o.fmts
  let plain := if o.op.kind = 0x30 then f.a else f.c
  let code := o.qcode
  let rows := o.plan.1
  let cols := o.plan.2.1
  let ext := if o.bit 0 20 then rows else cols
  let bad := !decide (plain ≤ 2) || !codeFmt code || (o.bit 0 18 && (decide (code ≤ 2) || decide (o.fd 6 26 20 = 0))) ||
    (isBlockFmt code && decide (o.fd 3 51 0 = 0)) || (o.bit 0 19 && decide (4096 < o.fd 6 19 8 + ext)) ||
    decide (rows = 0) || decide (cols = 0)
  let mis := misBy 16 (o.fd 1 51 0) || misBy 16 (o.fd 2 51 0) || misBy 16 (o.fd 4 31 0) || misBy 16 (o.fd 4 63 32) || misBy 64 (o.fd 5 51 0)
  let space := !inOwn c (o.addr 1) (strided rows (o.fd 4 31 0) (fmtBytes f.a cols)) ||
    !inOwn c (o.addr 2) (strided rows (o.fd 4 63 32) (fmtBytes f.c cols)) ||
    (isBlockFmt code && !inOwn c (o.addr 3) (rows * cdiv cols 32)) ||
    (o.bit 0 18 && !inOwn c (o.addr 5) (cdiv rows 64 * 64 + rows * o.fd 6 26 20 * 8))
  firstFault [(bad, .badDescriptor), (mis, .misaligned), (space, .spaceDenied)]

/-- The stakes that a descriptor names are checked at order 2 (R54). -/
def checkStakes (d : Dev) (o : RunOp) : FaultCode :=
  let ck (id : Nat) : FaultCode := stakeCheck d (BitVec.ofNat 17 id) (some o.op.parcel)
  let fs := [(o.wait.map fun w => stakeCheck d w (some o.op.parcel)).getD .none,
    if o.correct then ck (o.pf 0 21 5) else .none,
    if o.lkind ≠ 0 then ck (o.ef 0 27 11) else .none,
    if o.ksplit.isSome then ck (o.ef 6 16 0) else .none]
  (fs.find? fun f => decide (f ≠ .none)).getD .none

/-- Reads the hook blocks of an operation, where they lie in the core store. -/
def readHooks (d : Dev) (c : CoreId) (o : RunOp) : RunOp :=
  let rd (w : W64) : List W64 := if hookEn w && inOwnOff (hookBlock w) 64 then storeWords d c (hookBlock w) 8 else []
  { o with pro := rd o.proWord, epi := rd o.epiWord }

/-- A word of a hook block is poisoned. -/
def hooksPoisoned (d : Dev) (c : CoreId) (o : RunOp) : Bool :=
  let p (w : W64) : Bool := hookEn w && inOwnOff (hookBlock w) 64 && storePoisoned d c (hookBlock w) 64
  p o.proWord || p o.epiWord

/-- Order 2 of R197 for cube and quantise operations. -/
def order2 (d : Dev) (c : CoreId) (o : RunOp) : FaultCode :=
  let own := match o.op.kind with
    | 1 | 2 => checkMma d c o
    | 3 => checkAttn d c o
    | 4 | 5 => checkImage c o
    | _ => checkQuant c o
  if own ≠ .none then own else if hooksPoisoned d c o then .poisoned else checkStakes d o

/-- Order 4 of R197 (R195): the run-time extents, from the shape word or the plan. -/
def readShape (d : Dev) (c : CoreId) (o : RunOp) : Except FaultCode RunOp :=
  if !o.rtSrc then .ok { o with e0 := o.plan.1, e1 := o.plan.2.1, e2 := o.plan.2.2, tile := 0 }
  else match ownStore c o.rtAddr 1 with
    | none => .error .spaceDenied
    | some off =>
      if misBy 16 o.rtAddr.toNat then .error .misaligned
      else if storePoisoned d c off 16 then .error .poisoned
      else .ok { o with
        e0 := storeNat d c off 3, e1 := storeNat d c (off + 4) 3, e2 := storeNat d c (off + 8) 3, tile := storeNat d c (off + 12) 4 }

end Sys2Proof.Machine
end

