-- ==== Sys2Proof/Machine/UnitOps.lean ====
section
/-!
DEFINITION. What the units of a core share: issuing a D-format instruction (R28, R54, R97), the cubes' queues, completions in issue
order (R228), conversions with their draws and counts (R153, R561, R564, R171), the scale file (R337) and the contour ramp (R174, R176).
-/

namespace Sys2Proof.Machine

/-! ### Issue -/

/-- The completion stake of a D-format instruction (R97). -/
def dStake (d : Dev) (c : CoreId) (o : DOp) : StakeId :=
  if o.ssel = 1 then (sreg d c o.sreg.toNat).setWidth 17 else o.stake

/-- The operation a D-format instruction makes. -/
def dOp (d : Dev) (c : CoreId) (o : DOp) (kind opc : Nat) (hreg : Bool) : Op :=
  ⟨d.serial, kind, opc, areg d c o.da.toNat, if hreg then (sreg d c o.hreg.toNat).setWidth 32 else 0, dStake d c o, parcelOf d c, []⟩

/-- Issues a D-format instruction (R28, R54): a refused completion stake faults the sequencer; a full queue stalls it; otherwise the
operation enters its unit's queue, by `push`, and the sequencer goes on. -/
def dIssue (row : String) (c : CoreId) (i : Instr) (o : DOp) (kind opc : Nat) (hreg : Bool) (full : Dev → Bool)
    (push : Dev → Op → Dev) (d : Dev) : Res :=
  issue row (.seq c) i ((if o.ssel = 1 then [o.sreg.toNat] else []) ++ (if hreg then [o.hreg.toNat] else [])) (fun d w =>
    let op := dOp d c o kind opc hreg
    let bad := stakeCheck d op.stake (some op.parcel)
    .next (if bad ≠ .none then seqFault d c bad 0 (agentPc d (.seq c)) w
      else if full d then d
      else stepPc (push (partIssue (nextSerial d) c (decide (kind ≠ 0))) op) (.seq c))) d

/-! ### Cubes -/

/-- A cube as reset leaves it. -/
def Cube.empty : Cube := ⟨[], none, none, [], [], [], none, 0, 0, false, false⟩

/-- Cube u of a core. -/
def getCube (d : Dev) (c : CoreId) (u : Nat) : Cube := tget Cube.empty (getCore d c).w.cubes u

/-- Writes a cube. -/
def setCube (d : Dev) (c : CoreId) (u : Nat) (x : Cube) : Dev :=
  modWork d c fun w => { w with cubes := tset Cube.empty w.cubes u x }

/-- Applies f to a cube. -/
def modCube (d : Dev) (c : CoreId) (u : Nat) (f : Cube → Cube) : Dev := setCube d c u (f (getCube d c u))

/-- The page item of a per-cube register. -/
def cubeReg (n : RegName) (c : CoreId) (u hi lo k : Nat) (d : Dev) : Dev := rcount d n c.die c.core u hi lo k

/-- Marks the end of a RELAY_OUT operation (R240, R241) and drops the streams of an operation that has ended. -/
def opCleanup (d : Dev) (c : CoreId) (o : RunOp) : Dev :=
  modWork d c fun w => { w with
    convRng := w.convRng.filter fun p => decide (p.1 / 64 ≠ o.op.serial)
    relays := if o.relayOut then w.relays ++ [(o.op.serial, decide (o.fault = .none))] else w.relays }

/-- Makes the completion arrivals of the ended operations that no earlier one holds back (R228). -/
def flushPost (d : Dev) (c : CoreId) (u : Nat) : Nat → Dev
  | 0 => d
  | n + 1 =>
    match (getCube d c u).post with
    | o :: rest =>
      if o.phase = .done then
        flushPost (opDoneSub (modCube d c u fun x => { x with post := rest }) c 1 o.op o.fault o.sub o.empty) c u n
      else d
    | [] => d

/-- An operation's end: its phase, fault and EMPTY; one that ends at the head or while it runs holds its cube until its completion arrival (R680). -/
def RunOp.ended (o : RunOp) (f : FaultCode) (empty : Bool) : RunOp := { o with phase := .done, fault := f, empty := empty }

/-- The arrivals that are due at a cube. -/
def flushCube (d : Dev) (c : CoreId) (u : Nat) : Dev := flushPost d c u ((getCube d c u).post.length + 1)

/-- The operation whose steps or drain run ends; it releases the cube with its completion arrival (R680). -/
def endRun (d : Dev) (c : CoreId) (u : Nat) (o : RunOp) (f : FaultCode) (empty : Bool) : Dev :=
  let o := { o.ended f empty with holds := true }
  flushCube (opCleanup (modCube d c u fun x => { x with run := none, post := x.post ++ [o] }) c o) c u

/-- The operation at a cube's head ends; its arrival waits for the one ahead of it. -/
def endHead (d : Dev) (c : CoreId) (u : Nat) (o : RunOp) (f : FaultCode) (empty : Bool) : Dev :=
  let o := { o.ended f empty with holds := true }
  let d := opCleanup d c o
  if (getCube d c u).run.isSome then modCube d c u fun x => { x with head := some o }
  else flushCube (modCube d c u fun x => { x with head := none, post := x.post ++ [o] }) c u

/-- Replaces an operation past its drain. -/
def setPost (d : Dev) (c : CoreId) (u : Nat) (o : RunOp) : Dev :=
  modCube d c u fun x => { x with post := x.post.map fun p => if p.op.serial = o.op.serial then o else p }

/-- An operation past its drain ends. -/
def endPost (d : Dev) (c : CoreId) (u : Nat) (o : RunOp) (f : FaultCode) : Dev :=
  let o := o.ended f false
  flushCube (setPost (opCleanup d c o) c u o) c u

/-- Writes the running operation of a cube. -/
def setRun (d : Dev) (c : CoreId) (u : Nat) (o : RunOp) : Dev := modCube d c u fun x => { x with run := some o }

/-! ### Contour ramp -/

/-- A step is ready (R174, R176): an idle cube begins its ramp, and one ramping down turns up. -/
def rampReady (d : Dev) (c : CoreId) (u : Nat) : Dev :=
  modCube d c u fun x =>
    if x.ramp = 0 then { x with ramp := 1, level := 1 } else if x.ramp = 3 then { x with ramp := 1 } else x

/-! ### Draws, conversions and counts -/

/-- Adds to the counts of the part's record (R153). -/
def countOut (d : Dev) (c : CoreId) (sat flush : Nat) : Dev :=
  modPart d c fun p => { p with sat := satAdd 0xFFFFFFFF p.sat sat, flushed := satAdd 0xFFFFFFFF p.flushed flush }

/-- A draw of converter element j of an operation (R561, R564). -/
def drawConv (d : Dev) (c : CoreId) (o : RunOp) (j : Nat) : W32 × Dev :=
  if plumbOn d c then
    let w := (getCore d c).w
    let key := 64 * o.op.serial + j % 64
    let old := tget 0 w.convRng key
    let start := plumbStart (seedOf d c) o.tile (2048 + j % 64)
    let st := mixStep (if old = 0 then start else old)
    let first := w.convRng.all fun p => decide (p.1 / 64 ≠ o.op.serial)
    let d := modWork d c fun w => { w with convRng := tset 0 w.convRng key st }
    (mixOut st, countDraws (if first then countSeeding d c else d) c 1)
  else drawSource d c (j % 64)

/-- Counts an element written (R153), which saturated before its conversion where `marked` (R137): once, in one column. -/
def countElem (d : Dev) (c : CoreId) (r : Rounded) (marked : Bool) : Dev :=
  countOut d c (b2n (r.sat || marked)) (b2n (r.flush && !marked))

/-- Converts a value to an element of a storage format (R171, R351), without counting it; `clampInf`: an output conversion, which clamps an
infinity where its saturate bit is set (R156). -/
def convOne (d : Dev) (c : CoreId) (o : RunOp) (j fmt rnd : Nat) (ftz sat clampInf : Bool) (v : FV) : Rounded × Dev :=
  let r := rndOf rnd (reducedOn d c) (fun d => drawConv d c o j) d
  (toElem fmt r.1 ftz sat clampInf v, r.2)

/-- Converts a row of values for output, element 0 first, without counting them. -/
def convValues (d : Dev) (c : CoreId) (o : RunOp) (fmt rnd : Nat) (ftz sat : Bool) (vs : List FV) : List Rounded × Dev :=
  (vs.zipIdx).foldl (fun (acc : List Rounded × Dev) v =>
    let x := convOne acc.2 c o v.2 fmt rnd ftz sat true v.1
    (acc.1 ++ [x.1], x.2)) ([], d)

/-- Counts elements written, each once (R153). -/
def countElems (d : Dev) (c : CoreId) (rs : List Rounded) : Dev := rs.foldl (fun d r => countElem d c r false) d

/-- Converts a row of values for output, element 0 first, and counts each element once (R153). -/
def convRow (d : Dev) (c : CoreId) (o : RunOp) (fmt rnd : Nat) (ftz sat : Bool) (vs : List FV) : List Nat × Dev :=
  let r := convValues d c o fmt rnd ftz sat vs
  (r.1.map Rounded.code, countElems r.2 c r.1)

/-- Writes codes at element i0 onward of an array in the core store, whose elements are whole bytes. -/
def putCodes (d : Dev) (c : CoreId) (off fmt i0 : Nat) (codes : List Nat) : Dev :=
  storeWrite d c (off + i0 * (fmtBits fmt / 8)) (packCodes (fmtBits fmt) codes)

/-- Writes FP32 words. -/
def putWords (d : Dev) (c : CoreId) (off : Nat) (ws : List W32) : Dev :=
  storeWrite d c off (ws.flatMap fun w => leBytes 4 w.toNat)

/-- A word of the core store. -/
def word32 (d : Dev) (c : CoreId) (off : Nat) : W32 := BitVec.ofNat 32 (storeNat d c off 4)

/-! ### The scale file (R337) -/

/-- 1.0 in FP32. -/
def oneW : W32 := 0x3F800000

/-- Entry e of a scale-file bank. -/
def scaleAt (d : Dev) (c : CoreId) (bank e : Nat) : W32 :=
  let w := (getCore d c).w
  tget oneW (if bank = 0 then w.scale0 else w.scale1) e

/-! ### Accumulators (R137, R138, R163) -/

/-- The key of element (i, j) of a bank. -/
def accKey (bank i j : Nat) : Nat := 64 * bank + 8 * i + j

/-- The bits and mark of an accumulator element; a cleared one reads as its accumulator type's cleared value. -/
def accGet (x : Cube) (int : Bool) (bank i j : Nat) : W32 × Bool :=
  match tget none x.acc (accKey bank i j) with
  | some v => v
  | none => (if int then 0 else 0x80000000, false)

/-- Writes an accumulator element. -/
def accSet (x : Cube) (bank i j : Nat) (v : W32 × Bool) : Cube := { x with acc := tset none x.acc (accKey bank i j) (some v) }

/-- Sets n banks from a bank to a value (none: the cleared mark); whole code words are written, so that none of theirs is in error. -/
def accFill (x : Cube) (bank n : Nat) (v : Option (W32 × Bool)) : Cube :=
  { x with
    errs := x.errs.filter fun e => decide (e.1 / 32 < bank) || decide (bank + n ≤ e.1 / 32)
    acc := (List.range (64 * n)).foldl (fun t k => tset none t (64 * bank + k) v) x.acc }

/-- The banks of a read up to the first that holds an uncorrectable word, and that bank (R163). -/
def Cube.readTo (x : Cube) : List Nat → List Nat × Option Nat
  | [] => ([], none)
  | b :: rest =>
    if x.errs.any fun e => e.2 && decide (e.1 / 32 = b) then ([b], some b)
    else
      let r := x.readTo rest
      (b :: r.1, r.2)

/-- A read of banks in order (R163): their correctable errors are corrected and counted (R192), as far as the first bank with an uncorrectable
word, which it answers. -/
def readBanks (d : Dev) (c : CoreId) (u : Nat) (banks : List Nat) : Dev × Option Nat :=
  let x := getCube d c u
  let r := x.readTo banks
  let found (e : Nat × Bool) : Bool := !e.2 && r.1.contains (e.1 / 32)
  (cubeReg .cubeAccEcc c u 15 0 (x.errs.filter found).length (modCube d c u fun x => { x with errs := x.errs.filter fun e => !found e }), r.2)

/-- Adds to an accumulator element (R136, R137): FP32 with ties to even, or INT32 with saturation and its mark. -/
def accAdd (x : Cube) (int : Bool) (bank i j : Nat) (t : W32) : Cube :=
  let old := accGet x int bank i j
  if int then
    let s := clampInt 32 (old.1.toInt + t.toInt)
    accSet x bank i j (BitVec.ofInt 32 s.1, old.2 || s.2)
  else accSet x bank i j (add32 old.1 t, false)

/-- Steps 1 and 2 of R171 on an accumulator element: the value that step 3 converts; `staged`: it goes to the stage as FP32 (R235). A
stochastic RND gives step 1 ties to even. -/
def drainValue (d : Dev) (c : CoreId) (o : RunOp) (int staged : Bool) (j : Nat) (v : W32) : FV :=
  let f := o.fmts
  let x : FV :=
    if int then
      if f.c = 10 ∧ !staged then FV.ofInt v.toInt
      else
        let r : Rnd := match f.rnd with
          | 1 => .rna
          | 2 => .rtz
          | _ => .rne
        fp32.val (fp32.round r false false false (FV.ofInt v.toInt)).code
    else v32 v
  match o.drainScale with
  | some b => r32 (x.mul (v32 (scaleAt d c o.bank (b + j))))
  | none => x

/-- Whether an operation accumulates in INT32 (R158). -/
def RunOp.isInt (o : RunOp) : Bool := (decide (o.op.kind = 1) || decide (o.op.kind = 2)) && decide (o.cls = .int8)

/-- Step 3 of R171 for output element j of a row: an INT32 accumulator drained to INT32 rounds nothing and takes no draw (R142); a stage
value is FP32, and is rounded to INT32 by RND (R146, R236). -/
def drainConv (d : Dev) (c : CoreId) (o : RunOp) (staged : Bool) (j : Nat) (v : FV) : Rounded × Dev :=
  let f := o.fmts
  if f.c = 10 ∧ !staged then (toElem 10 .rne false false true v, d) else convOne d c o j f.c f.rnd f.ftzOut f.sat true v

/-- Converts and writes output row i from its stage values and marks (R236). -/
def writeRow (d : Dev) (c : CoreId) (o : RunOp) (i : Nat) (vs : List (FV × Bool)) : Dev :=
  (vs.zipIdx).foldl (fun d v =>
    let x := drainConv d c o true v.2 v.1.1
    let p := o.outAt c i v.2
    putCodes (countElem x.2 c x.1 v.1.2) c p.1 o.fmts.c p.2 [x.1.code]) d

/-! ### Reads with HOLD (R213) -/

/-- A read with HOLD that its home slice served without hold (R213, R371). -/
def holdRefused (d : Dev) (a : Addr) : Bool :=
  match resolve d a with
  | some (.hbm die ch ca) =>
    !(scratchSlices d die).contains (homeSlice ch) &&
      !((tget none d.cache (lineKey (hbmKey die ch ca))).map CacheLine.held).getD false
  | _ => false

/-- A line read of a core, with HOLD or without; one that was served without its hold is counted (R213). -/
def holdRead (d : Dev) (c : CoreId) (a : Addr) (n : Nat) (hold : Bool) : Dev × Except FaultCode (List Byte) :=
  match devRead d a n hold with
  | (d, .ok bs) => (if hold && holdRefused d a then rcount d .chnHoldStat c.die c.core 0 31 0 1 else d, .ok bs)
  | y => y

/-! ### Work areas -/

/-- Bytes of which the manual gives no value (log 14): n bytes at an offset of the core store take free values. -/
def fillFree (d : Dev) (c : CoreId) (off n : Nat) : Dev :=
  (List.range (cdiv n 8)).foldl (fun d i =>
    freeNext (storeWrite d c (off + 8 * i) ((leBytes 8 (freeVal d).toNat).take (n - 8 * i)))) d

end Sys2Proof.Machine
end

