-- ==== Sys2Proof/Machine/Flags.lean ====
section
/-!
DEFINITION. The conditions of compares (R112): what CC says of two integers. Y1 has no flag register: a compare writes its outcome
to a scalar register or to a predicate.
-/

namespace Sys2Proof.Machine

/-- The condition CC of R112 on two n-bit integers, signed where the table says so. -/
def intCC {n : Nat} (cc : Nat) (x y : BitVec n) : Bool :=
  match cc with
  | 0 => decide (x = y)
  | 1 => decide (x ≠ y)
  | 2 => x.slt y
  | 3 => x.sle y
  | 4 => y.slt x
  | 5 => y.sle x
  | 6 => x.ult y
  | 7 => y.ule x
  | _ => false

/-- The condition CC on UINT32 elements: the ordered codes compare unsigned (R112). -/
def uintCC {n : Nat} (cc : Nat) (x y : BitVec n) : Bool :=
  match cc with
  | 2 => x.ult y
  | 3 => x.ule y
  | 4 => y.ult x
  | 5 => y.ule x
  | k => intCC k x y

end Sys2Proof.Machine
end

