-- ==== Sys2Proof/Machine/Operands.lean ====
section
/-!
DEFINITION. Operand forms of vector instructions: the element types of R110, the elements of a pair, predicated execution (R255,
R256), and the loop over the threads that execute an instruction.
-/

namespace Sys2Proof.Machine

/-- The format of a floating TYPE (R110). -/
def typeFmt (t : Nat) : Option Fmt :=
  match t with
  | 0 => some fp32
  | 1 => some bf16
  | 2 => some fp16
  | _ => none

/-- The elements of a register under a floating TYPE: one FP32, or a pair with element 0 in bits [15:0]. -/
def elems (t : Nat) (x : W32) : List Nat :=
  if t = 0 then [x.toNat] else [x.toNat % 2 ^ 16, x.toNat / 2 ^ 16]

/-- The register of its elements. -/
def joinElems (t : Nat) (l : List Nat) : W32 :=
  if t = 0 then BitVec.ofNat 32 (l.headD 0) else BitVec.ofNat 32 (l.getD 0 0 + 2 ^ 16 * l.getD 1 0)

/-- What a thread of a crew computes: its result, with the device after its draws. -/
abbrev LaneFn := Dev → Crew → Nat → W32 × Dev

/-- Rounds exact elements to a floating TYPE, element 0 first, each stochastic one taking a draw of the thread (R142, R256). -/
def roundElems (c : CoreId) (slot t rnd : Nat) (ftz sat : Bool) (vs : List FV) (lane : Nat) (d : Dev) : W32 × Dev :=
  let f := (typeFmt t).getD fp32
  let r := vs.foldl (fun (acc : List Nat × Dev) v =>
    let x := rndOf rnd (reducedOn d c) (fun d => drawThread d c slot lane) acc.2
    (acc.1 ++ [(f.round x.1 ftz sat false v).code], x.2)) ([], d)
  (joinElems t r.1, r.2)

/-- Runs a lane function in every executing thread, lowest lane first; sources are read from the crew as the instruction found it. -/
def overLanes (d : Dev) (c : CoreId) (slot : Nat) (m : W32) (f : LaneFn) (write : Crew → Nat → W32 → Crew) : Dev :=
  match getCrew d c slot with
  | none => d
  | some k =>
    let r := (List.range 32).foldl (fun (acc : Crew × Dev) lane =>
      if m.getLsbD lane then
        let x := f acc.2 k lane
        (write acc.1 lane x.1, x.2)
      else acc) (k, d)
    setCrew r.2 c slot (some r.1)

/-- A vector instruction that writes VD in every executing thread (R255). -/
def vecTo (row : String) (c : CoreId) (slot : Nat) (i : Instr) (pred : BitVec 3) (pneg : BitVec 1) (reads : List Nat) (vd : Nat)
    (f : LaneFn) (d : Dev) : Res :=
  issueStep row (.crew c slot) i (vd :: reads) (fun d =>
    overLanes d c slot (((getCrew d c slot).map fun k => k.runs pred pneg).getD 0) f fun k lane x => k.setReg lane vd x) d

/-- A floating result of format V3: the exact elements, rounded once to TYPE by RND (R257). -/
def floatLane (c : CoreId) (slot : Nat) (o : V3Op) (g : List FV → FV) : LaneFn := fun d k lane =>
  let t := o.type.toNat
  let f := (typeFmt t).getD fp32
  let rd (r : BitVec 6) : List FV := (elems t (k.reg lane r.toNat)).map (f.read (decide (o.ftz = 1)))
  let vs := (List.range (if t = 0 then 1 else 2)).map fun i =>
    g [(rd o.va).getD i .nan, (rd o.vb).getD i .nan, (rd o.vc).getD i .nan]
  roundElems c slot t o.rnd.toNat (decide (o.ftz = 1)) (decide (o.sat = 1)) vs lane d

/-- A floating result that is not rounded: elements chosen or changed bit by bit (R142, R259). -/
def floatBits (o : V3Op) (g : Fmt → List FV → Nat) : LaneFn := fun d k lane =>
  let t := o.type.toNat
  let f := (typeFmt t).getD fp32
  let rd (r : BitVec 6) : List FV := (elems t (k.reg lane r.toNat)).map (f.read (decide (o.ftz = 1)))
  let cs := (List.range (if t = 0 then 1 else 2)).map fun i => g f [(rd o.va).getD i .nan, (rd o.vb).getD i .nan]
  (joinElems t cs, d)

/-- The integer value of a register under INT32 or UINT32 (R110). -/
def intElem (t : Nat) (x : W32) : Int := if t = 3 then x.toInt else (x.toNat : Int)

/-- An exact integer result under INT32 or UINT32: modulo 2^32, or clamped with SAT (R258). -/
def intResult (t : Nat) (sat : Bool) (i : Int) : W32 :=
  let lo : Int := if t = 3 then -(2 ^ 31) else 0
  let hi : Int := if t = 3 then 2 ^ 31 - 1 else 2 ^ 32 - 1
  BitVec.ofInt 32 (if sat then max lo (min hi i) else i)

/-- A lane of an integer instruction of format V3. -/
def intLane (o : V3Op) (g : List Int → Int) : LaneFn := fun d k lane =>
  let t := o.type.toNat
  let rd (r : BitVec 6) : Int := intElem t (k.reg lane r.toNat)
  (intResult t (decide (o.sat = 1)) (g [rd o.va, rd o.vb, rd o.vc]), d)

/-- A lane of an instruction defined on floating and integer types. -/
def arithLane (c : CoreId) (slot : Nat) (o : V3Op) (g : List FV → FV) (h : List Int → Int) : LaneFn :=
  if o.type.toNat < 3 then floatLane c slot o g else intLane o h

end Sys2Proof.Machine
end

