-- ==== Sys2Proof/Machine/Vector.lean ====
section
/-!
DEFINITION. The vector class (R103, R255 to R261), VEC.RAND (R556) and QNT.CVT (R109, R146, R153).
-/

namespace Sys2Proof.Machine

/-- The registers a V3 instruction reads. -/
def v3Reads (o : V3Op) : List Nat := [o.va.toNat, o.vb.toNat, o.vc.toNat]

/-- A V3 instruction that writes VD. -/
def vec3 (row : String) (c : CoreId) (slot : Nat) (i : Instr) (o : V3Op) (f : LaneFn) (d : Dev) : Res :=
  vecTo row c slot i o.pred o.pneg (v3Reads o) o.vd.toNat f d

/-- The n-th operand value. -/
def argF (l : List FV) (n : Nat) : FV := l.getD n .nan

/-- The n-th operand integer. -/
def argI (l : List Int) (n : Nat) : Int := l.getD n 0

/-- VEC.ADD (R103, R257, R258). -/
def execVecAdd (c : CoreId) (slot : Nat) (o : V3Op) (s : State) : Host.Outcome State Fault Refusal :=
  runCmd (.vecAdd c slot o) (vec3 "VEC_ADD" c slot (.vecAdd c slot o) o
    (arithLane c slot o (fun l => (argF l 0).add (argF l 1)) fun l => argI l 0 + argI l 1)) s

/-- VEC.SUB (R103, R257, R258). -/
def execVecSub (c : CoreId) (slot : Nat) (o : V3Op) (s : State) : Host.Outcome State Fault Refusal :=
  runCmd (.vecSub c slot o) (vec3 "VEC_SUB" c slot (.vecSub c slot o) o
    (arithLane c slot o (fun l => (argF l 0).add (argF l 1).neg) fun l => argI l 0 - argI l 1)) s

/-- VEC.MUL (R103, R257, R258). -/
def execVecMul (c : CoreId) (slot : Nat) (o : V3Op) (s : State) : Host.Outcome State Fault Refusal :=
  runCmd (.vecMul c slot o) (vec3 "VEC_MUL" c slot (.vecMul c slot o) o
    (arithLane c slot o (fun l => (argF l 0).mul (argF l 1)) fun l => argI l 0 * argI l 1)) s

/-- VEC.FMA (R103, R257, R258): one rounding of the exact value. -/
def execVecFma (c : CoreId) (slot : Nat) (o : V3Op) (s : State) : Host.Outcome State Fault Refusal :=
  runCmd (.vecFma c slot o) (vec3 "VEC_FMA" c slot (.vecFma c slot o) o
    (arithLane c slot o (fun l => ((argF l 0).mul (argF l 1)).add (argF l 2)) fun l => argI l 0 * argI l 1 + argI l 2)) s

/-- The code of a value that its format holds exactly. -/
def exactCode (f : Fmt) (v : FV) : Nat := (f.round .rne false false false v).code

/-- VEC.MIN (R103, R148, R150). -/
def execVecMin (c : CoreId) (slot : Nat) (o : V3Op) (s : State) : Host.Outcome State Fault Refusal :=
  runCmd (.vecMin c slot o) (vec3 "VEC_MIN" c slot (.vecMin c slot o) o
    (if o.type.toNat < 3 then floatBits o fun f l => exactCode f ((argF l 0).min (argF l 1))
     else intLane o fun l => min (argI l 0) (argI l 1))) s

/-- VEC.MAX (R103, R148, R150). -/
def execVecMax (c : CoreId) (slot : Nat) (o : V3Op) (s : State) : Host.Outcome State Fault Refusal :=
  runCmd (.vecMax c slot o) (vec3 "VEC_MAX" c slot (.vecMax c slot o) o
    (if o.type.toNat < 3 then floatBits o fun f l => exactCode f ((argF l 0).max (argF l 1))
     else intLane o fun l => max (argI l 0) (argI l 1))) s

/-- |x| of a value that is not NaN. -/
def FV.abs (x : FV) : FV := if x.isNeg then x.neg else x

/-- VEC.ABS (R258, R259). -/
def execVecAbs (c : CoreId) (slot : Nat) (o : V3Op) (s : State) : Host.Outcome State Fault Refusal :=
  runCmd (.vecAbs c slot o) (vec3 "VEC_ABS" c slot (.vecAbs c slot o) o
    (if o.type.toNat < 3 then floatBits o fun f l => exactCode f (argF l 0).abs
     else intLane o fun l => ((argI l 0).natAbs : Int))) s

/-- VEC.NEG (R96, R258, R259): with SAT the negation of a nonzero UINT32 clamps to the range of its type like any result below it (log 153). -/
def execVecNeg (c : CoreId) (slot : Nat) (o : V3Op) (s : State) : Host.Outcome State Fault Refusal :=
  runCmd (.vecNeg c slot o) (vec3 "VEC_NEG" c slot (.vecNeg c slot o) o
    (if o.type.toNat < 3 then floatBits o fun f l => exactCode f (argF l 0).neg
     else intLane o fun l => -argI l 0)) s

/-- The floating condition CC of R112. -/
def floatCC (cc : Nat) (x y : FV) : Bool :=
  let un := x.isNan || y.isNan
  match cc with
  | 0 => x.eqv y
  | 1 => un || !x.eqv y
  | 2 => x.lt y
  | 3 => !un && !y.lt x
  | 4 => y.lt x
  | 5 => !un && !x.lt y
  | 6 => un
  | 7 => !un
  | _ => false

/-- The comparison of a thread (R103, R112): for a pair, true only where it holds for both elements. -/
def cmpLane (o : V3Op) (k : Crew) (lane : Nat) : Bool :=
  let t := o.type.toNat
  let x := k.reg lane o.va.toNat
  let y := k.reg lane o.vb.toNat
  match typeFmt t with
  | some f =>
    ((elems t x).zip (elems t y)).all fun p =>
      floatCC o.cc.toNat (f.read (decide (o.ftz = 1)) p.1) (f.read (decide (o.ftz = 1)) p.2)
  | none => if t = 4 then uintCC o.cc.toNat x y else intCC o.cc.toNat x y

/-- A mask with one lane set or cleared. -/
def setLane (m : W32) (lane : Nat) (b : Bool) : W32 :=
  if b then m ||| BitVec.ofNat 32 (2 ^ lane) else m &&& ~~~(BitVec.ofNat 32 (2 ^ lane))

/-- VEC.CMP (R103): predicate VD[2:0] in the executing threads; a write to p0 is discarded (R32). -/
def execVecCmp (c : CoreId) (slot : Nat) (o : V3Op) (s : State) : Host.Outcome State Fault Refusal :=
  runCmd (.vecCmp c slot o) (issueStep "VEC_CMP" (.crew c slot) (.vecCmp c slot o) [o.va.toNat, o.vb.toNat] fun d =>
    modCrew d c slot fun k =>
      let m := k.runs o.pred o.pneg
      let p := o.vd.toNat % 8
      k.setPred p ((List.range 32).foldl (fun x lane => if m.getLsbD lane then setLane x lane (cmpLane o k lane) else x) (k.pred p))) s

/-- VEC.SEL (R103): VA where predicate CC[2:0] is true, else VB. -/
def execVecSel (c : CoreId) (slot : Nat) (o : V3Op) (s : State) : Host.Outcome State Fault Refusal :=
  runCmd (.vecSel c slot o) (vec3 "VEC_SEL" c slot (.vecSel c slot o) o fun d k lane =>
    (k.reg lane (if (k.pred (o.cc.toNat % 8)).getLsbD lane then o.va.toNat else o.vb.toNat), d)) s

/-- A lane of a bitwise instruction. -/
def bitLane (o : V3Op) (g : W32 → W32 → W32) : LaneFn := fun d k lane => (g (k.reg lane o.va.toNat) (k.reg lane o.vb.toNat), d)

/-- VEC.AND (R103). -/
def execVecAnd (c : CoreId) (slot : Nat) (o : V3Op) (s : State) : Host.Outcome State Fault Refusal :=
  runCmd (.vecAnd c slot o) (vec3 "VEC_AND" c slot (.vecAnd c slot o) o (bitLane o fun x y => x &&& y)) s

/-- VEC.OR (R103). -/
def execVecOr (c : CoreId) (slot : Nat) (o : V3Op) (s : State) : Host.Outcome State Fault Refusal :=
  runCmd (.vecOr c slot o) (vec3 "VEC_OR" c slot (.vecOr c slot o) o (bitLane o fun x y => x ||| y)) s

/-- VEC.XOR (R103). -/
def execVecXor (c : CoreId) (slot : Nat) (o : V3Op) (s : State) : Host.Outcome State Fault Refusal :=
  runCmd (.vecXor c slot o) (vec3 "VEC_XOR" c slot (.vecXor c slot o) o (bitLane o fun x y => x ^^^ y)) s

/-- VEC.SHL (R103): the whole register by VB[4:0]. -/
def execVecShl (c : CoreId) (slot : Nat) (o : V3Op) (s : State) : Host.Outcome State Fault Refusal :=
  runCmd (.vecShl c slot o) (vec3 "VEC_SHL" c slot (.vecShl c slot o) o (bitLane o fun x y => x <<< (y.toNat % 32))) s

/-- VEC.SHR (R103): arithmetic for INT32, logical for UINT32. -/
def execVecShr (c : CoreId) (slot : Nat) (o : V3Op) (s : State) : Host.Outcome State Fault Refusal :=
  runCmd (.vecShr c slot o) (vec3 "VEC_SHR" c slot (.vecShr c slot o) o
    (bitLane o fun x y => if o.type = 3 then x.sshiftRight (y.toNat % 32) else x >>> (y.toNat % 32))) s

/-- VEC.MOV (R103, R259). -/
def execVecMov (c : CoreId) (slot : Nat) (o : V3Op) (s : State) : Host.Outcome State Fault Refusal :=
  runCmd (.vecMov c slot o) (vec3 "VEC_MOV" c slot (.vecMov c slot o) o (bitLane o fun x _ => x)) s

/-- A VI instruction (R103). -/
def vecImm (row : String) (c : CoreId) (slot : Nat) (i : Instr) (o : ViOp) (g : W32 → W32 → W32) (d : Dev) : Res :=
  vecTo row c slot i o.pred o.pneg [o.va.toNat] o.vd.toNat (fun d k lane => (g (k.reg lane o.va.toNat) o.imm, d)) d

/-- VEC.MOVI (R103). -/
def execVecMovi (c : CoreId) (slot : Nat) (o : ViOp) (s : State) : Host.Outcome State Fault Refusal :=
  runCmd (.vecMovi c slot o) (vecImm "VEC_MOVI" c slot (.vecMovi c slot o) o fun _ y => y) s

/-- VEC.ADDI (R103): INT32. -/
def execVecAddi (c : CoreId) (slot : Nat) (o : ViOp) (s : State) : Host.Outcome State Fault Refusal :=
  runCmd (.vecAddi c slot o) (vecImm "VEC_ADDI" c slot (.vecAddi c slot o) o fun x y => x + y) s

/-- VEC.FADDI (R103): FP32, ties to even. -/
def execVecFaddi (c : CoreId) (slot : Nat) (o : ViOp) (s : State) : Host.Outcome State Fault Refusal :=
  runCmd (.vecFaddi c slot o) (vecImm "VEC_FADDI" c slot (.vecFaddi c slot o) o add32) s

/-- VEC.FMULI (R103): FP32, ties to even. -/
def execVecFmuli (c : CoreId) (slot : Nat) (o : ViOp) (s : State) : Host.Outcome State Fault Refusal :=
  runCmd (.vecFmuli c slot o) (vecImm "VEC_FMULI" c slot (.vecFmuli c slot o) o mul32) s

/-- VEC.SHFL (R103): the source thread's register is read even if that thread is inactive. -/
def execVecShfl (c : CoreId) (slot : Nat) (o : V3Op) (s : State) : Host.Outcome State Fault Refusal :=
  runCmd (.vecShfl c slot o) (vec3 "VEC_SHFL" c slot (.vecShfl c slot o) o fun d k lane =>
    (k.reg ((k.reg lane o.vb.toNat).toNat % 32) o.va.toNat, d)) s

/-- VEC.RAND (R103, R556): the next 32 bits of the thread's source. -/
def execVecRand (c : CoreId) (slot : Nat) (o : V3Op) (s : State) : Host.Outcome State Fault Refusal :=
  runCmd (.vecRand c slot o) (vec3 "VEC_RAND" c slot (.vecRand c slot o) o fun d _ lane => drawThread d c slot lane) s

/-! ### Loads and stores (R96, R260, R261) -/

/-- The byte offset a lane addresses (R96). -/
def vmAddr (o : VmOp) (k : Crew) (lane : Nat) : Nat := (k.reg lane o.va.toNat + o.off.signExtend 32).toNat

/-- Bytes of an access (R94). -/
def sizeBytes (size : BitVec 2) : Nat := 2 ^ size.toNat

/-- What a lane's access fails: outside the own core store before misaligned (R260). -/
def vmFault (o : VmOp) (k : Crew) (lane : Nat) : FaultCode :=
  let a := vmAddr o k lane
  let n := sizeBytes o.size
  if storeBytes < a + n then .spaceDenied else if a % n ≠ 0 then .misaligned else .none

/-- The lowest failing executing lane (R260). -/
def vmLane (o : VmOp) (k : Crew) : Option Nat :=
  let m := k.runs o.pred o.pneg
  (List.range 32).find? fun l => m.getLsbD l && decide (vmFault o k l ≠ .none)

/-- The fault of the lowest failing executing lane (R260). -/
def vmFirst (o : VmOp) (k : Crew) : FaultCode := ((vmLane o k).map (vmFault o k)).getD .none

/-- VEC.LD (R103, R260, R384): every executing thread's address is checked before any access. -/
def execVecLd (c : CoreId) (slot : Nat) (o : VmOp) (s : State) : Host.Outcome State Fault Refusal :=
  runCmd (.vecLd c slot o) (issue "VEC_LD" (.crew c slot) (.vecLd c slot o) [o.va.toNat, o.vd.toNat] fun d w =>
    match getCrew d c slot with
    | none => .refused (.notEnabled "VEC_LD")
    | some k =>
      let m := k.runs o.pred o.pneg
      let n := sizeBytes o.size
      let bad := (List.range 32).any fun l => m.getLsbD l && storePoisoned d c (vmAddr o k l) n
      .next (if vmFirst o k ≠ .none then crewFaultAt d c slot (vmFirst o k) 0 k.pc w ((vmLane o k).getD 0)
        else if bad then crewFault d c slot .poisoned 0 k.pc w
        else stepPc (overLanes d c slot m (fun d k l =>
          let v := storeNat d c (vmAddr o k l) n
          (BitVec.ofInt 32 (if o.sx = 1 then sxt (8 * n) v else (v : Int)), d)) fun k l x => k.setReg l o.vd.toNat x) (.crew c slot))) s

/-- VEC.ST (R103, R260, R261): lanes write in increasing order, so the highest-numbered lane's bytes stand. The VM format's SX bit has no stated
meaning in a store and is ignored (log 21). -/
def execVecSt (c : CoreId) (slot : Nat) (o : VmOp) (s : State) : Host.Outcome State Fault Refusal :=
  runCmd (.vecSt c slot o) (issue "VEC_ST" (.crew c slot) (.vecSt c slot o) [o.va.toNat, o.vd.toNat] fun d w =>
    match getCrew d c slot with
    | none => .refused (.notEnabled "VEC_ST")
    | some k =>
      let m := k.runs o.pred o.pneg
      let n := sizeBytes o.size
      .next (if vmFirst o k ≠ .none then crewFaultAt d c slot (vmFirst o k) 0 k.pc w ((vmLane o k).getD 0)
        else stepPc ((List.range 32).foldl (fun d l =>
          if m.getLsbD l then storeWrite d c (vmAddr o k l) (leBytes n (k.reg l o.vd.toNat).toNat) else d) d) (.crew c slot))) s

/-! ### QNT.CVT -/

/-- The element QNT.CVT reads (R109): the low bits of VA. -/
def cvtSource (o : QOp) (x : W32) : FV := elemVal o.sfmt.toNat (decide (o.ftz = 1)) x.toNat

/-- Adds to the counts of the part's record (R153). -/
def countRange (d : Dev) (c : CoreId) (sat flush : Nat) : Dev :=
  modPart d c fun p => { p with sat := satAdd 0xFFFFFFFF p.sat sat, flushed := satAdd 0xFFFFFFFF p.flushed flush }

/-- One thread of QNT.CVT (R109, R142, R146, R153): integer to integer rounds nothing and takes no draw. An INT32 outside INT8 is clamped to its
range with SAT (R96), which is not counted (R153, log 153); without SAT no result is stated and the value is free, the same for the same operand (R570;
log 11). An infinite input stays one
with SAT: QNT.CVT is not an output conversion (R140, R156, log 153). -/
def cvtLane (c : CoreId) (slot : Nat) (o : QOp) : LaneFn := fun d k lane =>
  let x := k.reg lane o.va.toNat
  let src := o.sfmt.toNat
  let dst := o.dfmt.toNat
  let wide (code : Nat) : W32 := if dst = 8 then (BitVec.ofNat 8 code).signExtend 32 else BitVec.ofNat 32 code
  if (floatFmt src).isNone && (floatFmt dst).isNone then
    let v : Int := if src = 8 then (x.setWidth 8).toInt else x.toInt
    if dst = 8 ∧ (v < -128 ∨ 127 < v) ∧ o.sat = 0 then ((Config.cvtValue x).signExtend 32, d)
    else (BitVec.ofInt 32 (if dst = 8 then max (-128) (min 127 v) else v), d)
  else
    let r := rndOf o.rnd.toNat (reducedOn d c) (fun d => drawThread d c slot lane) d
    let y := toElem dst r.1 (decide (o.ftz = 1)) (decide (o.sat = 1)) false (cvtSource o x)
    (wide y.code, countRange r.2 c (b2n y.sat) (b2n y.flush))

/-- QNT.CVT (R109): one element per thread from SFMT to DFMT. -/
def execQntCvt (c : CoreId) (slot : Nat) (o : QOp) (s : State) : Host.Outcome State Fault Refusal :=
  runCmd (.qntCvt c slot o)
    (vecTo "QNT_CVT" c slot (.qntCvt c slot o) o.pred o.pneg [o.va.toNat] o.vd.toNat (cvtLane c slot o)) s

end Sys2Proof.Machine
end

