-- ==== Sys2Proof/Machine/CubeMath.lean ====
section
/-!
DEFINITION. The arithmetic of a cube step: where its operand elements lie (R161, R162, R166, R168, R201, R232, R233, R286, R287, R292), its
step sums (R135 to R137), pruning (R295), and the closure check (R178 to R181).
-/

namespace Sys2Proof.Machine

/-! ### Where operands lie -/

/-- Where an operand element lies in the core store: the offset of its row, its index in the row, and the offset of its block's scale. -/
structure Loc where
  off : Nat
  idx : Nat
  scale : Option Nat
deriving DecidableEq, Repr

/-- A step's place in its operation: the row block in bank numbering, the column block, the reduction block, and for a convolution the output
row, the block of 8 columns, and the tap. -/
structure Coord where
  row : Nat
  nb : Nat
  kb : Nat
  oy : Nat
  xb : Nat
  ky : Nat
  kx : Nat
deriving DecidableEq, Repr

/-- Row, column and reduction blocks of the run-time shape (R166, R292). -/
def RunOp.blocks (o : RunOp) : Nat × Nat × Nat :=
  match o.op.kind with
  | 1 => (cdiv o.e0 8, cdiv o.e1 8, cdiv o.e2 o.cls.kStep)
  | _ => ((gridOf o.e0).1 * cdiv (gridOf o.e0).2 8, cdiv o.e1 8, cdiv o.e2 o.cls.kStep)

/-- Steps of a matrix or convolution operation, pruned ones among them. -/
def RunOp.stepCount (o : RunOp) : Nat :=
  let b := o.blocks
  match o.op.kind with
  | 1 => b.2.2 * b.1 * b.2.1
  | _ => b.2.2 * o.fd 9 3 0 * b.1 * o.fd 9 7 4 * b.2.1

/-- Step s in the order of R166 or R292. -/
def RunOp.coord (o : RunOp) (s : Nat) : Coord :=
  let b := o.blocks
  match o.op.kind with
  | 1 => ⟨s / b.2.1 % b.1, s % b.2.1, s / b.2.1 / b.1, 0, 0, 0, 0⟩
  | _ =>
    let kw := o.fd 9 7 4
    let kh := o.fd 9 3 0
    let xbs := cdiv (gridOf o.e0).2 8
    let mb := s / b.2.1 / kw % b.1
    let oy := mb / xbs
    let xb := mb % xbs
    ⟨oy * o.xbp + xb, s % b.2.1, s / b.2.1 / kw / b.1 / kh, oy, xb, s / b.2.1 / kw / b.1 % kh, s / b.2.1 % kw⟩

/-- Entry i of the gather index list (R232). -/
def RunOp.gatherIdx (o : RunOp) (d : Dev) (c : CoreId) (i : Nat) : Nat := storeNat d c (o.pf 4 20 0 + 4 * i) 4

/-- The entry that supplies a row of zeros. -/
def noRow : Nat := 0xFFFFFFFF

/-- Element kk of row i of A as a matrix, before any prologue copy (R168, R232, R284, R290); none for a supplied zero. -/
def RunOp.srcLoc (o : RunOp) (d : Dev) (c : CoreId) (i kk : Nat) : Option Loc :=
  let base := offIn c (o.addr 1)
  match o.op.kind with
  | 1 =>
    let stride := o.fd 4 31 0
    let row := if o.gather then o.gatherIdx d c i else i
    if o.gather ∧ row = noRow then none
    else if o.bit 0 14 then some ⟨base + kk * stride, i, none⟩
    else some ⟨base + row * stride, kk,
      if isBlockFmt o.fmts.a then some (offIn c (o.addr 6) + i * cdiv o.plan.2.2 32 + kk / 32) else none⟩
  | _ =>
    let iw := o.fd 6 31 16
    let y := i / iw
    let x := i % iw
    if o.bit 0 15 then some ⟨base + kk * o.fd 4 41 21 + y * o.fd 4 20 0, x, none⟩
    else some ⟨base + y * o.fd 4 20 0 + x * o.fd 4 41 21, kk,
      if isBlockFmt o.fmts.a then some (offIn c (o.addr 7) + i * (o.cinp / 32) + kk / 32) else none⟩

/-- Element kk of row i of A as the cube reads it: from the prepared copy where a prologue made one (R233). -/
def RunOp.matLoc (o : RunOp) (d : Dev) (c : CoreId) (i kk : Nat) : Option Loc :=
  if o.copies then some ⟨o.pf 5 20 0 + i * o.pf 6 31 0, kk, none⟩ else o.srcLoc d c i kk

/-- The window position that row m of a convolution or pooling step reads, if it lies in the window and in the run-time extents (R286, R295). -/
def RunOp.winPos (o : RunOp) (q : Coord) (m : Nat) : Option (Nat × Nat) :=
  let ox := 8 * q.xb + m
  let y := q.oy * o.fd 9 11 8 + q.ky * o.fd 9 23 16
  let x := ox * o.fd 9 15 12 + q.kx * o.fd 9 31 24
  let pt := o.fd 9 39 32
  let pl := o.fd 9 47 40
  if ox < (gridOf o.e0).2 ∧ pt ≤ y ∧ y - pt < o.fd 6 15 0 ∧ pl ≤ x ∧ x - pl < o.fd 6 31 16 then some (y - pt, x - pl) else none

/-- Element (m, k) of a step's A block; none for a supplied zero (R201, R286). -/
def RunOp.aLoc (o : RunOp) (d : Dev) (c : CoreId) (q : Coord) (m k : Nat) : Option Loc :=
  let kk := q.kb * o.cls.kStep + k
  if o.e2 ≤ kk then none
  else match o.op.kind with
    | 1 => if o.e0 ≤ 8 * q.row + m then none else o.matLoc d c (8 * q.row + m) kk
    | _ =>
      match o.winPos q m with
      | none => none
      | some p => o.matLoc d c (p.1 * o.fd 6 31 16 + p.2) kk

/-- Element (k, j) of a step's B block; none for a supplied zero (R168, R201, R287). -/
def RunOp.bLoc (o : RunOp) (c : CoreId) (q : Coord) (j k : Nat) : Option Loc :=
  let kk := q.kb * o.cls.kStep + k
  let n := 8 * q.nb + j
  let base := offIn c (o.addr 2)
  let blk := isBlockFmt o.fmts.b
  if o.e2 ≤ kk ∨ o.e1 ≤ n then none
  else match o.op.kind with
    | 1 =>
      let stride := o.fd 4 63 32
      if o.bit 0 15 then some ⟨base + kk * stride, n, none⟩
      else some ⟨base + n * stride, kk, if blk then some (offIn c (o.addr 7) + n * cdiv o.plan.2.2 32 + kk / 32) else none⟩
    | _ =>
      let taps := o.fd 9 3 0 * o.fd 9 7 4
      let t := q.ky * o.fd 9 7 4 + q.kx
      some ⟨base + n * o.fd 5 62 42, t * o.cinp + kk,
        if blk then some (offIn c (o.addr 8) + (n * taps + t) * (o.cinp / 32) + kk / 32) else none⟩

/-- Whether an element touches a poisoned word. -/
def locPoisoned (d : Dev) (c : CoreId) (bits : Nat) (l : Option Loc) : Bool :=
  match l with
  | none => false
  | some l =>
    storePoisoned d c (l.off + l.idx * bits / 8) (cdiv (l.idx * bits % 8 + bits) 8) ||
      (l.scale.map fun s => storePoisoned d c s 1).getD false

/-- The bits of an element. -/
def locBits (d : Dev) (c : CoreId) (bits : Nat) (l : Loc) : Nat := storeElem d c l.off bits l.idx

/-- The block scale of an element; 127 (a factor of 1) where it carries none (R158). -/
def locScale (d : Dev) (c : CoreId) (l : Option Loc) : Nat :=
  match l.bind Loc.scale with
  | some s => storeNat d c s 1
  | none => 127

/-- An element as it is loaded: its bits and its block scale; none for a supplied zero. -/
def locEl (d : Dev) (c : CoreId) (bits : Nat) (l : Option Loc) : Option (Nat × Nat) := l.map fun x => (locBits d c bits x, locScale d c l)

/-- The value of a loaded element, its block scale applied and FTZ_IN obeyed (R132, R133, R147). -/
def elVal (fmt : Nat) (ftz : Bool) (x : Option (Nat × Nat)) : FV :=
  match x with
  | none => .fin false 0 0
  | some e => blockVal fmt e.2 ftz e.1

/-- The integer of a loaded INT8 or INT4 element, without its block scale. -/
def elInt (fmt : Nat) (x : Option (Nat × Nat)) : Int :=
  match x with
  | none => 0
  | some e => sxt (fmtBits fmt) e.1

/-- The value of an element in the core store. -/
def locVal (d : Dev) (c : CoreId) (fmt : Nat) (ftz : Bool) (l : Option Loc) : FV := elVal fmt ftz (locEl d c (fmtBits fmt) l)

/-! ### Step sums -/

/-- A step sum of floating elements: products rounded to FP32, then the fixed pairwise tree (R135, R136). -/
def dotF (a b : List FV) : W32 := fixedTree add32 0 ((a.zip b).map fun x => c32 (x.1.mul x.2))

/-- A sum of integer products. -/
def dotI (a b : List Int) : Int := ((a.zip b).map fun x => x.1 * x.2).sum

/-- Applies XOR masks to step sums (R178). -/
def corrupt (ups : List (Nat × Nat × W32)) (t : List (List W32)) : List (List W32) :=
  (t.zipIdx).map fun r => (r.1.zipIdx).map fun v =>
    (ups.filter fun u => decide (u.1 = r.2) && decide (u.2.1 = v.2)).foldl (fun x u => x ^^^ u.2.2) v.1

/-- Element (i, j) of a matrix of words. -/
def at2 (t : List (List W32)) (i j : Nat) : W32 := (t.getD i []).getD j 0

/-- The columns of an 8 × 8 matrix. -/
def cols8 {α : Type} (z : α) (t : List (List α)) : List (List α) := (List.range 8).map fun j => t.map fun r => r.getD j z

/-! ### The closure check -/

/-- The check format (R180): 40 bits of significand field, so that a rounding is of at most 2^-41. -/
def checkFmt : Fmt := ⟨11, 40, 1023, 0x7FE * 2 ^ 40 + (2 ^ 40 - 1), true, 0x7FF * 2 ^ 40 + 2 ^ 39⟩

/-- A value rounded to the check format, ties to even. -/
def rck (v : FV) : FV := checkFmt.val (checkFmt.round .rne false false false v).code

/-- A sum in the check format. -/
def csum (l : List FV) : FV := fixedTree (fun x y => rck (x.add y)) (.fin false 0 0) (l.map rck)

/-- A finite value. -/
def FV.finite : FV → Bool
  | .fin _ _ _ => true
  | _ => false

/-- Whether one row mismatches (R180): its step sums, its A elements, and by reduction position the sums and magnitude sums of B. -/
def rowBad (t a sb mb : List FV) : Bool :=
  let r := csum t
  let q := csum ((a.zip sb).map fun x => rck (x.1.mul x.2))
  let m := csum ((a.zip mb).map fun x => rck (x.1.abs.mul x.2))
  let lo : FV := .fin false 1 (-126)
  let s := m.scale (-18)
  let tau := if s.lt lo then lo else s
  tau.lt (rck (r.add q.neg)).abs

/-- The bits of a list of tests. -/
def maskOf (l : List Bool) : Nat := ((l.zipIdx).map fun x => if x.1 then 2 ^ x.2 else 0).sum

/-- What the check says of a step: masks of the rows and columns that mismatch, and whether any was excluded. -/
structure Verdict where
  rows : Nat
  cols : Nat
  skipped : Bool
deriving DecidableEq, Repr

/-- The check of a floating step (R180, R181): rows of A, columns of B, and the step sums. -/
def checkFloat (a b : List (List FV)) (t : List (List FV)) : Verdict :=
  let k := (a.headD []).length
  let allA := a.all fun r => r.all FV.finite
  let allB := b.all fun r => r.all FV.finite
  let tc := cols8 .nan t
  let exR := (List.range 8).map fun i => !((a.getD i []).all FV.finite && allB && (t.getD i []).all FV.finite)
  let exC := (List.range 8).map fun j => !((b.getD j []).all FV.finite && allA && (tc.getD j []).all FV.finite)
  let sums (x : List (List FV)) : List FV := (List.range k).map fun p => csum (x.map fun r => r.getD p .nan)
  let mags (x : List (List FV)) : List FV := (List.range k).map fun p => csum (x.map fun r => (r.getD p .nan).abs)
  let sb := sums b
  let mb := mags b
  let sa := sums a
  let ma := mags a
  ⟨maskOf ((List.range 8).map fun i => !exR.getD i true && rowBad (t.getD i []) (a.getD i []) sb mb),
    maskOf ((List.range 8).map fun j => !exC.getD j true && rowBad (tc.getD j []) (b.getD j []) sa ma),
    exR.any id || exC.any id⟩

/-- The check of an integer step (R179): exact; rows and columns of NaN blocks and of step sums that are not finite are excluded (R181). -/
def checkInt (a b : List (List Int)) (t : List (List W32)) (nanA nanB : List Bool) (out : List (List FV)) : Verdict :=
  let k := (a.headD []).length
  let ti := t.map fun r => r.map BitVec.toInt
  let tc := cols8 0 ti
  let oc := cols8 .nan out
  let sums (x : List (List Int)) : List Int := (List.range k).map fun p => (x.map fun r => r.getD p 0).sum
  let exR := (List.range 8).map fun i => nanA.getD i false || nanB.any id || !(out.getD i []).all FV.finite
  let exC := (List.range 8).map fun j => nanB.getD j false || nanA.any id || !(oc.getD j []).all FV.finite
  let sb := sums b
  let sa := sums a
  ⟨maskOf ((List.range 8).map fun i => !exR.getD i true && decide ((ti.getD i []).sum ≠ dotI (a.getD i []) sb)),
    maskOf ((List.range 8).map fun j => !exC.getD j true && decide ((tc.getD j []).sum ≠ dotI (b.getD j []) sa)),
    exR.any id || exC.any id⟩

/-- A step computed and checked: its step sums as the accumulator takes them, and the verdict. -/
structure StepOut where
  sums : List (List W32)
  verdict : Verdict
deriving DecidableEq, Repr

/-- The INT4 step sum (R137): the integer sum times the combined factor, rounded to FP32. -/
def int4Sum (xa xb : Nat) (s : W32) : W32 :=
  if xa = 0xFF ∨ xb = 0xFF then 0x7FC00000 else c32 ((FV.ofInt s.toInt).scale ((xa : Int) + xb - 254))

/-- A step of a class from the elements loaded: XOR masks meet the step sums before the check (R178 to R181). -/
def computeStep (cls : StepClass) (fa fb : Nat) (ftz : Bool) (ups : List (Nat × Nat × W32))
    (la lb : List (List (Option (Nat × Nat)))) : StepOut :=
  match cls with
  | .int8 | .int4 =>
    let a := la.map fun r => r.map (elInt fa)
    let b := lb.map fun r => r.map (elInt fb)
    let t := corrupt ups (a.map fun r => b.map fun s => BitVec.ofInt 32 (dotI r s))
    if cls = .int8 then ⟨t, checkInt a b t [] [] (t.map fun r => r.map fun _ => .fin false 0 0)⟩
    else
      let xs (l : List (List (Option (Nat × Nat)))) : List Nat := l.map fun r => (((r.find? Option.isSome).join).map Prod.snd).getD 127
      let xa := xs la
      let xb := xs lb
      let out := (t.zip xa).map fun r => (r.1.zip xb).map fun v => int4Sum r.2 v.2 v.1
      ⟨out, checkInt a b t (xa.map fun x => decide (x = 0xFF)) (xb.map fun x => decide (x = 0xFF)) (out.map fun r => r.map v32)⟩
  | _ =>
    let a := la.map fun r => r.map (elVal fa ftz)
    let b := lb.map fun r => r.map (elVal fb ftz)
    let t := corrupt ups (a.map fun r => b.map fun s => dotF r s)
    ⟨t, checkFloat a b (t.map fun r => r.map v32)⟩

/-- Row m of the A block of a step. -/
def RunOp.aRow (o : RunOp) (d : Dev) (c : CoreId) (q : Coord) (m : Nat) : List (Option Loc) :=
  (List.range o.cls.kStep).map fun k => o.aLoc d c q m k

/-- How a step gets its A rows (R161). -/
inductive AMode where
  | load | hold | shift (h : Nat)
deriving DecidableEq, Repr

/-- The A-row mode of the step at q (R166, R292), where the cells hold the rows of the step before it. -/
def RunOp.aMode (o : RunOp) (q : Coord) : AMode :=
  let dx := o.fd 9 31 24
  let sx := o.fd 9 15 12
  if q.nb ≠ 0 then .hold
  else if o.op.kind = 2 ∧ q.kx ≠ 0 ∧ dx % sx = 0 ∧ dx / sx ≤ 7 then .shift (dx / sx)
  else .load

/-- Row m is one that its mode takes from the cells, and from which row of them: the rows that a shift brings in are fresh, and so is one
whose place in the cells lay beyond the run-time OW (R161, R162, R201). -/
def RunOp.heldFrom (o : RunOp) (q : Coord) (m : Nat) : Option Nat :=
  match o.aMode q with
  | .load => none
  | .hold => some m
  | .shift h => if m + h < 8 ∧ 8 * q.xb + m + h < (gridOf o.e0).2 then some (m + h) else none

/-- The rows that the cells hold for a step: those of the step before it, unless the step is replayed (R161, R182). -/
def Cube.held (x : Cube) (o : RunOp) : Option (List (List (Option (Nat × Nat)))) :=
  (x.cells.filter fun h => decide (h.serial = o.op.serial) && decide (h.step + 1 = o.step) && !o.replaying).map Cells.rows

/-- The rows of A that a step reads from the core store: those that its mode does not find in the cells (R161). -/
def RunOp.freshRows (o : RunOp) (x : Cube) (q : Coord) : List Nat :=
  (List.range 8).filter fun m => (x.held o).isNone || (o.heldFrom q m).isNone

/-- The A rows of a step (R161): held or shifted where the cells have them, else loaded. -/
def RunOp.aRows (o : RunOp) (d : Dev) (c : CoreId) (x : Cube) (q : Coord) : List (List (Option (Nat × Nat))) :=
  (List.range 8).map fun m =>
    match x.held o, o.heldFrom q m with
    | some rows, some n => rows.getD n []
    | _, _ => (o.aRow d c q m).map (locEl d c (fmtBits o.fmts.a))

/-- The B block of a step: 8 columns. -/
def RunOp.bBlock (o : RunOp) (c : CoreId) (q : Coord) : List (List (Option Loc)) :=
  (List.range 8).map fun j => (List.range o.cls.kStep).map fun k => o.bLoc c q j k

/-- A convolution step that PRUNE leaves out (R295, R296). -/
def RunOp.pruned (o : RunOp) (plumb : Bool) (s : Nat) : Bool :=
  decide (o.op.kind = 2) && o.bit 0 14 && !plumb && (List.range 8).all fun m => (o.winPos (o.coord s) m).isNone

end Sys2Proof.Machine
end

