-- ==== Sys2Proof/Machine/Sfn.lean ====
section
/-!
DEFINITION. Special functions (R262 to R268): special values, reductions, segment polynomials from the normal table set, baseline
mode, and the baseline table loads (R269 to R275).
-/

namespace Sys2Proof.Machine

/-- The special functions, numbered by opcode (R104). -/
inductive Sfn where
  | exp | exp2 | log | log2 | rcp | sqrt | rsqrt | sin | cos | tanh | sigm | erf | gelu | silu
deriving DecidableEq, Repr

/-- The opcode of a special function. -/
def Sfn.num (f : Sfn) : Nat := f.ctorIdx

/-- 1 as a value. -/
def one : FV := .fin false 1 0

/-- A power of two as a value. -/
def pow2 (e : Int) : FV := .fin false 1 e

/-- Whether a value is finite and equal to 1. -/
def isOne (x : FV) : Bool := x.eqv one

/-- The values that bypass reduction (R265). -/
def sfnSpecial (f : Sfn) (x : FV) : Option FV :=
  match f, x with
  | _, .nan => some .nan
  | .exp, .inf n | .exp2, .inf n => some (if n then .fin false 0 0 else .inf false)
  | .exp, .fin _ 0 _ | .exp2, .fin _ 0 _ => some one
  | .log, .inf n | .log2, .inf n => some (if n then .nan else .inf false)
  | .log, .fin _ 0 _ | .log2, .fin _ 0 _ => some (.inf true)
  | .log, .fin true (_ + 1) _ | .log2, .fin true (_ + 1) _ => some .nan
  | .log, v | .log2, v => if isOne v then some (.fin false 0 0) else none
  | .rcp, .inf n => some (.fin n 0 0)
  | .rcp, .fin n 0 _ => some (.inf n)
  | .sqrt, .inf n => some (if n then .nan else .inf false)
  | .sqrt, .fin n 0 _ => some (.fin n 0 0)
  | .sqrt, .fin true (_ + 1) _ | .rsqrt, .fin true (_ + 1) _ => some .nan
  | .rsqrt, .inf n => some (if n then .nan else .fin false 0 0)
  | .rsqrt, .fin n 0 _ => some (.inf n)
  | .sin, .inf _ | .cos, .inf _ => some .nan
  | .sin, .fin n 0 _ => some (.fin n 0 0)
  | .cos, .fin _ 0 _ => some one
  | .tanh, .inf n | .erf, .inf n => some (.fin n 1 0)
  | .tanh, .fin n 0 _ | .erf, .fin n 0 _ => some (.fin n 0 0)
  | .sigm, .inf n => some (if n then .fin false 0 0 else one)
  | .sigm, .fin _ 0 _ => some (pow2 (-1))
  | .gelu, .inf n | .silu, .inf n => some (if n then .fin true 0 0 else .inf false)
  | .gelu, .fin n 0 _ | .silu, .fin n 0 _ => some (.fin n 0 0)
  | _, _ => none

/-- LO and W of a function's block (R264). -/
def sfnRange : Sfn → FV × Int
  | .exp | .exp2 => (.fin true 1 (-1), 0)
  | .log | .log2 => (.fin true 1 (-2), 0)
  | .rcp => (one, 0)
  | .sqrt | .rsqrt => (one, 2)
  | .sin | .cos => (.fin true 1 0, 1)
  | .tanh => (.fin false 0 0, 4)
  | .sigm | .silu => (.fin true 1 5, 6)
  | .erf => (.fin false 0 0, 2)
  | .gelu => (.fin true 1 4, 5)

/-- floor of a finite value. -/
def FV.floor : FV → Int
  | .fin neg m e =>
    let x : Int := if neg then -(m : Int) else m
    if 0 ≤ e then x * 2 ^ e.toNat else x / 2 ^ (-e).toNat
  | _ => 0

/-- A finite value rounded to an integer, ties to even. -/
def FV.rint : FV → Int
  | .fin neg m e => FV.toIntRnd .rne neg m e
  | _ => 0

/-- How a mode evaluates: the rounding of an FP32 operation, of an exact step, the wide constants, the polynomial, and the EXP inside SIGM, GELU
and SILU. -/
structure SfnMode where
  op : FV → FV
  exact : FV → FV
  wide : Nat → FV
  poly : Sfn → FV → FV
  inner : FV → FV

/-- Clamps an index. -/
def clampIdx (i : Int) (n : Nat) : Nat := if i < 0 then 0 else min i.toNat (n - 1)

/-- Reduced inputs at which the polynomial is exactly 1: there EXP2 of an integer, and RCP, SQRT and RSQRT of a power of 2 whose result is one,
are exact (R266). -/
def sfnExact (f : Sfn) (r : FV) : Bool :=
  match f with
  | .exp2 => r.isZero
  | .rcp | .sqrt | .rsqrt => (r.add one.neg).isZero
  | _ => false

/-- Byte n of a normal table image (R269, R271). -/
def imgByte (img : List Byte) (n : Nat) : Nat := ((img[n]?).getD (Config.tableByte n)).toNat

/-- An FP32 word of a normal table image. -/
def imgWord (img : List Byte) (n : Nat) : FV :=
  v32 (BitVec.ofNat 32 (imgByte img n + 2 ^ 8 * imgByte img (n + 1) + 2 ^ 16 * imgByte img (n + 2) + 2 ^ 24 * imgByte img (n + 3)))

/-- Where block k of a normal table image begins (R270): blocks follow one another, each of 16 bytes and 20 for each of its 2^SEGS segments. -/
def imgBlock (img : List Byte) : Nat → Nat
  | 0 => 0x40
  | k + 1 => imgBlock img k + 16 + 20 * 2 ^ imgByte img (imgBlock img k + 5)

/-- The segment polynomial of a normal table image (R263, R270). -/
def normalPoly (img : List Byte) (f : Sfn) (r : FV) : FV :=
  if sfnExact f r then one else
  let off := imgBlock img f.num
  let segs := imgByte img (off + 5)
  let lw := sfnRange f
  let s := clampIdx ((r.add lw.1.neg).scale ((segs : Int) - lw.2)).floor (2 ^ segs)
  let at' (j : Nat) : FV := imgWord img (off + 16 + 20 * s + 4 * j)
  let t := r32 (r.add (at' 0).neg)
  fma32 (fma32 (fma32 (at' 4) t (at' 3)) t (at' 2)) t (at' 1)

/-- The first 64 significant bits of a wide constant, as an integer, and the exponent of the last of them (R264). -/
def wideHead : Nat → Nat × Int
  | 0 => (0xB8AA3B295C17F0BB, -63)
  | 1 => (0xB17217F7D1CF79AB, -64)
  | 2 => (0xA2F9836E4E441529, -64)
  | 3 => (0xC90FDAA22168C234, -63)
  | _ => (0x906EBA8214DB688D, -63)

/-- A wide constant of R264: its first 64 significant bits are those of the number; how many it holds beyond them, and which, is open. -/
def wideConst (k : Nat) : FV :=
  let n := Config.wideLen k
  .fin false ((wideHead k).1 * 2 ^ n + Config.wideTail k % (2 ^ n + 1)) ((wideHead k).2 - (n : Int))

/-- The wide constants rounded toward zero to FP32 (R267). -/
def baseConst : Nat → FV
  | 0 => v32 0x3FB8AA3B
  | 1 => v32 0x3F317217
  | 2 => v32 0x3F22F983
  | 3 => v32 0x3FC90FDA
  | _ => v32 0x3F906EBA

/-- A signed 32-bit little-endian integer in a baseline bank. -/
def bankInt (bank : List Byte) (off : Nat) : Int := (BitVec.ofNat 32 (leNat ((bank.drop off).take 4))).toInt

/-- The baseline polynomial (R267, R270): block k of the bank, 128 segments of C0, C1, C2. -/
def basePoly (bank : List Byte) (f : Sfn) (r : FV) : FV :=
  let lw := sfnRange f
  let off := 0x40 + f.num * (16 + 128 * 12)
  let u := clampIdx ((r.add lw.1.neg).scale (23 - lw.2)).floor (2 ^ 23)
  let s : Nat := u / 65536
  let fr : Nat := u % 65536
  let f2 : Nat := fr * fr / 65536
  let at' (j : Nat) : Int := bankInt bank (off + 16 + 12 * s + 4 * j)
  let p : Int := at' 0 + (at' 1 * (fr : Int)) / 65536 + (at' 2 * (f2 : Int)) / 65536
  let q : Int := (BitVec.ofNat 8 ((bank.getD (off + 6) 0).toNat)).toInt
  z32 ((FV.ofInt p).scale q)

/-- EXP before its last rounding, of an argument that may be exact (R264), in a mode's arithmetic and with its polynomial. -/
def expRaw (op exact : FV → FV) (wide : Nat → FV) (poly : Sfn → FV → FV) (x : FV) : FV :=
  let y := exact (x.mul (wide 0))
  let n := y.rint
  let r := op (y.add (FV.ofInt (-n)))
  (poly .exp r).scale n

/-- The normal-mode EXP inside SIGM, GELU and SILU, rounded to FP32 with ties to even (R264). -/
def innerExp (img : List Byte) (x : FV) : FV := r32 ((sfnSpecial .exp x).getD (expRaw r32 id wideConst (normalPoly img) x))

/-- Normal mode (R262 to R264): ties to even, exact steps exact. -/
def normalMode (img : List Byte) : SfnMode := ⟨r32, id, wideConst, normalPoly img, innerExp img⟩

/-- Baseline mode (R267): every operation, the exact steps among them, rounds toward zero; R264 names the normal-mode EXP inside SIGM, GELU and
SILU. -/
def baseMode (img bank : List Byte) : SfnMode := ⟨z32, z32, baseConst, basePoly bank, innerExp img⟩

/-- x = ±2^e × m with m in [1, 2): the exponent. -/
def FV.expo : FV → Int
  | .fin _ m e => (Nat.log2 m : Int) + e
  | _ => 0

/-- SIGM before its last rounding (R264). -/
def sigmRaw (m : SfnMode) (x : FV) : FV :=
  if !x.lt (.fin false 1 5) then one
  else
    let r := if x.lt (.fin true 1 5) then .fin true 1 5 else x
    let p := m.poly .sigm r
    if x.isNeg then (m.inner x).mul p else p

/-- |x| of a value. -/
def magn (x : FV) : FV := if x.isNeg then x.neg else x

/-- A value with the sign of another. -/
def withSign (x p : FV) : FV := if x.isNeg then p.neg else p

/-- The value whose rounding is a special function's result (R264), for inputs that R265 does not list. -/
def sfnRaw (m : SfnMode) (f : Sfn) (x : FV) : FV :=
  match f with
  | .exp2 =>
    let n := x.rint
    (m.poly .exp2 (m.op (x.add (FV.ofInt (-n))))).scale n
  | .exp => expRaw m.op m.exact m.wide m.poly x
  | .log2 | .log =>
    let e0 := x.expo
    let e := if (x.scale (-e0)).lt (.fin false 3 (-1)) then e0 else e0 + 1
    let p := m.poly f (m.op ((x.scale (-e)).add one.neg))
    if f = .log2 then (FV.ofInt e).add p else (m.exact ((FV.ofInt e).mul (m.wide 1))).add p
  | .rcp =>
    let e := x.expo
    withSign x ((m.poly .rcp ((magn x).scale (-e))).scale (-e))
  | .sqrt | .rsqrt =>
    let k := x.expo / 2
    let p := m.poly f (x.scale (-(2 * k)))
    p.scale (if f = .sqrt then k else -k)
  | .sin | .cos =>
    let q := (m.exact (x.mul (m.wide 2))).rint
    let r := m.op (x.add (m.exact ((FV.ofInt q).mul (m.wide 3))).neg)
    let ps := m.poly .sin r
    let pc := m.poly .cos r
    let j := (q % 4).toNat + (if f = .cos then 1 else 0)
    match j % 4 with
    | 0 => ps
    | 1 => pc
    | 2 => ps.neg
    | _ => pc.neg
  | .tanh =>
    let a := magn x
    if a.lt (pow2 (-12)) then x else if !a.lt (pow2 4) then withSign x one else withSign x (m.poly .tanh a)
  | .sigm => sigmRaw m x
  | .erf =>
    let a := magn x
    if a.lt (pow2 (-12)) then m.exact (x.mul (m.wide 4))
    else if !a.lt (pow2 2) then withSign x one else withSign x (m.poly .erf a)
  | .gelu =>
    if !x.lt (pow2 4) then x
    else
      let p := m.poly .gelu (if x.lt (.fin true 1 4) then .fin true 1 4 else x)
      if x.isNeg then (m.op (x.mul (m.inner ((m.exact (x.mul x)).neg.scale (-1))))).mul p else x.mul p
  | .silu => x.mul (m.op (sigmRaw m x))

/-- A special function in normal mode on an FP32 value, before its one rounding. -/
def sfnNormal (img : List Byte) (f : Sfn) (x : FV) : FV := (sfnSpecial f x).getD (sfnRaw (normalMode img) f x)

/-- A special function in baseline mode: rounded toward zero to FP32, before the rounding to TYPE (R267), after which a subnormal result is
flushed. -/
def sfnBase (img bank : List Byte) (f : Sfn) (x : FV) : FV :=
  match sfnSpecial f x with
  | some v => v
  | none => z32 (sfnRaw (baseMode img bank) f x)

/-- The normal table image of a core (R271). -/
def normalImage (d : Dev) (c : CoreId) : List Byte := tget [] d.normal c.die

/-- The active baseline bank of a core (R268). -/
def activeBank (w : Work) : Option (List Byte) :=
  w.baseActive.map fun b => if b = 0 then w.base0 else w.base1

/-- One thread of a special-function instruction (R262, R267). -/
def sfnLane (f : Sfn) (c : CoreId) (slot : Nat) (o : V3Op) : LaneFn := fun d k lane =>
  let t := o.type.toNat
  let fm := (typeFmt t).getD fp32
  let base := decide (o.base = 1)
  let flush := base || decide (o.ftz = 1)
  let img := normalImage d c
  let bank := (activeBank (getCore d c).w).getD []
  let vs := (elems t (k.reg lane o.va.toNat)).map fun b =>
    let x := fm.read flush b
    if base then sfnBase img bank f x else sfnNormal img f x
  roundElems c slot t o.rnd.toNat flush (decide (o.sat = 1)) vs lane d

/-- A special-function instruction; with BASE and no active bank the crew faults with TABLE_ABSENT (R268). -/
def sfnIssue (row : String) (f : Sfn) (c : CoreId) (slot : Nat) (i : Instr) (o : V3Op) (d : Dev) : Res :=
  issue row (.crew c slot) i [o.va.toNat, o.vd.toNat] (fun d w =>
    if o.base = 1 ∧ (getCore d c).w.baseActive.isNone then .next (crewFault d c slot .tableAbsent 0 (agentPc d (.crew c slot)) w)
    else .next (stepPc (overLanes d c slot (((getCrew d c slot).map fun k => k.runs o.pred o.pneg).getD 0) (sfnLane f c slot o)
      fun k l x => k.setReg l o.vd.toNat x) (.crew c slot))) d

/-- SFN.EXP (R262 to R268). -/
def execSfnExp (c : CoreId) (slot : Nat) (o : V3Op) (s : State) : Host.Outcome State Fault Refusal :=
  runCmd (.sfnExp c slot o) (sfnIssue "SFN_EXP" .exp c slot (.sfnExp c slot o) o) s

/-- SFN.EXP2 (R262 to R268). -/
def execSfnExp2 (c : CoreId) (slot : Nat) (o : V3Op) (s : State) : Host.Outcome State Fault Refusal :=
  runCmd (.sfnExp2 c slot o) (sfnIssue "SFN_EXP2" .exp2 c slot (.sfnExp2 c slot o) o) s

/-- SFN.LOG (R262 to R268). -/
def execSfnLog (c : CoreId) (slot : Nat) (o : V3Op) (s : State) : Host.Outcome State Fault Refusal :=
  runCmd (.sfnLog c slot o) (sfnIssue "SFN_LOG" .log c slot (.sfnLog c slot o) o) s

/-- SFN.LOG2 (R262 to R268). -/
def execSfnLog2 (c : CoreId) (slot : Nat) (o : V3Op) (s : State) : Host.Outcome State Fault Refusal :=
  runCmd (.sfnLog2 c slot o) (sfnIssue "SFN_LOG2" .log2 c slot (.sfnLog2 c slot o) o) s

/-- SFN.RCP (R262 to R268). -/
def execSfnRcp (c : CoreId) (slot : Nat) (o : V3Op) (s : State) : Host.Outcome State Fault Refusal :=
  runCmd (.sfnRcp c slot o) (sfnIssue "SFN_RCP" .rcp c slot (.sfnRcp c slot o) o) s

/-- SFN.SQRT (R262 to R268). -/
def execSfnSqrt (c : CoreId) (slot : Nat) (o : V3Op) (s : State) : Host.Outcome State Fault Refusal :=
  runCmd (.sfnSqrt c slot o) (sfnIssue "SFN_SQRT" .sqrt c slot (.sfnSqrt c slot o) o) s

/-- SFN.RSQRT (R262 to R268). -/
def execSfnRsqrt (c : CoreId) (slot : Nat) (o : V3Op) (s : State) : Host.Outcome State Fault Refusal :=
  runCmd (.sfnRsqrt c slot o) (sfnIssue "SFN_RSQRT" .rsqrt c slot (.sfnRsqrt c slot o) o) s

/-- SFN.SIN (R262 to R268). -/
def execSfnSin (c : CoreId) (slot : Nat) (o : V3Op) (s : State) : Host.Outcome State Fault Refusal :=
  runCmd (.sfnSin c slot o) (sfnIssue "SFN_SIN" .sin c slot (.sfnSin c slot o) o) s

/-- SFN.COS (R262 to R268). -/
def execSfnCos (c : CoreId) (slot : Nat) (o : V3Op) (s : State) : Host.Outcome State Fault Refusal :=
  runCmd (.sfnCos c slot o) (sfnIssue "SFN_COS" .cos c slot (.sfnCos c slot o) o) s

/-- SFN.TANH (R262 to R268). -/
def execSfnTanh (c : CoreId) (slot : Nat) (o : V3Op) (s : State) : Host.Outcome State Fault Refusal :=
  runCmd (.sfnTanh c slot o) (sfnIssue "SFN_TANH" .tanh c slot (.sfnTanh c slot o) o) s

/-- SFN.SIGM (R262 to R268). -/
def execSfnSigm (c : CoreId) (slot : Nat) (o : V3Op) (s : State) : Host.Outcome State Fault Refusal :=
  runCmd (.sfnSigm c slot o) (sfnIssue "SFN_SIGM" .sigm c slot (.sfnSigm c slot o) o) s

/-- SFN.ERF (R262 to R268). -/
def execSfnErf (c : CoreId) (slot : Nat) (o : V3Op) (s : State) : Host.Outcome State Fault Refusal :=
  runCmd (.sfnErf c slot o) (sfnIssue "SFN_ERF" .erf c slot (.sfnErf c slot o) o) s

/-- SFN.GELU (R262 to R268). -/
def execSfnGelu (c : CoreId) (slot : Nat) (o : V3Op) (s : State) : Host.Outcome State Fault Refusal :=
  runCmd (.sfnGelu c slot o) (sfnIssue "SFN_GELU" .gelu c slot (.sfnGelu c slot o) o) s

/-- SFN.SILU (R262 to R268). -/
def execSfnSilu (c : CoreId) (slot : Nat) (o : V3Op) (s : State) : Host.Outcome State Fault Refusal :=
  runCmd (.sfnSilu c slot o) (sfnIssue "SFN_SILU" .silu c slot (.sfnSilu c slot o) o) s

end Sys2Proof.Machine
end

