-- ==== Sys2Proof/Machine/Kv.lean ====
section
/-!
DEFINITION. KV sequences (R305 to R310, R318, R319) and the parts of an attention operation that its cube does not step: rotary codes (R314), the
append's checks (R315), the preparation of Q (R317, R326), masks and chunks (R324), the wait for keys (R325).
-/

namespace Sys2Proof.Machine

/-! ### Sequences -/

/-- A sequence before its first use. -/
def Kv.empty : Kv := ⟨[], 0, 0, [], false⟩

/-- A sequence by its index (R305). -/
def getKv (d : Dev) (idx : Nat) : Kv := tget Kv.empty d.kvs idx

/-- Writes a sequence. -/
def setKv (d : Dev) (idx : Nat) (k : Kv) : Dev := { d with kvs := tset Kv.empty d.kvs idx k }

/-- Applies f to a sequence. -/
def modKv (d : Dev) (idx : Nat) (f : Kv → Kv) : Dev := setKv d idx (f (getKv d idx))

/-- A field of a sequence's registers. -/
def kvReg (d : Dev) (n : RegName) (idx hi lo : Nat) : Nat := rfld d n (idx / 4096) 0 (idx % 4096) hi lo

/-- Writes a field of a sequence's registers. -/
def kvSet (d : Dev) (n : RegName) (idx hi lo v : Nat) : Dev := rset d n (idx / 4096) 0 (idx % 4096) hi lo v

/-- PAGE_TOKENS in tokens (R330). -/
def kvTokens (d : Dev) (idx : Nat) : Nat := 16 * 2 ^ kvReg d .kvsGeom idx 2 0

/-- D. -/
def kvDim (d : Dev) (idx : Nat) : Nat := kvReg d .kvsGeom idx 11 3

/-- KV_FMT. -/
def kvForm (d : Dev) (idx : Nat) : Nat := kvReg d .kvsGeom idx 15 12

/-- Element bytes of KV_FMT. -/
def kvBytes (d : Dev) (idx : Nat) : Nat := fmtBits (kvForm d idx) / 8

/-- STAGE_PAGES. -/
def kvStages (d : Dev) (idx : Nat) : Nat := kvReg d .kvsGeom idx 20 16

/-- Bytes of a page (R306). -/
def kvPageBytes (d : Dev) (idx : Nat) : Nat := 2 * kvTokens d idx * kvDim d idx * kvBytes d idx

/-- FLUSHED (R308). -/
def kvFlushed (d : Dev) (idx : Nat) : Nat := kvReg d .kvsState idx 31 8

/-- STATE. -/
def kvSt (d : Dev) (idx : Nat) : Nat := kvReg d .kvsState idx 1 0

/-- The first page of the window (R309). -/
def kvFirst (d : Dev) (idx : Nat) : Nat := kvFlushed d idx / kvTokens d idx

/-- A page lies in the window. -/
def kvInWindow (d : Dev) (idx p : Nat) : Bool := decide (kvFirst d idx ≤ p) && decide (p < kvFirst d idx + kvStages d idx)

/-- The slot of a page is busy (R309). -/
def kvBusy (d : Dev) (idx p : Nat) : Bool := (getKv d idx).held.any fun h => decide (h % kvStages d idx = p % kvStages d idx)

/-- The bit of a token. -/
def kvBit (d : Dev) (idx t : Nat) : Bool := tget false (getKv d idx).bits t

/-- A key is present (R310). -/
def kvPresent (d : Dev) (idx j : Nat) : Bool := decide (j < kvFlushed d idx) || (kvInWindow d idx (j / kvTokens d idx) && kvBit d idx j)

/-- The page of a present key is read from its staging slot: the slot holds it, filled so far or kept for an export copy (R310, R321). -/
def kvStaged (d : Dev) (idx j : Nat) : Bool :=
  let p := j / kvTokens d idx
  (kvInWindow d idx p && kvBit d idx j) || (getKv d idx).held.contains p

/-- The address of the staging slot of a page (R309). -/
def kvSlotAddr (d : Dev) (idx p : Nat) : Addr :=
  BitVec.ofNat 52 (kvReg d .kvsStage idx 51 0) + BitVec.ofNat 52 (p % kvStages d idx * 0x10000)

/-- The byte of a token's K or V row within its page (R306). -/
def kvRowOff (d : Dev) (idx t : Nat) (v : Bool) : Nat :=
  let pt := kvTokens d idx
  ((if v then pt else 0) + t % pt) * kvDim d idx * kvBytes d idx

/-- A page is full of set bits, or holds every token of a sealed sequence's last page (R319). -/
def kvFilled (d : Dev) (idx p : Nat) : Bool :=
  let pt := kvTokens d idx
  let k := getKv d idx
  let n := if kvSt d idx = 2 ∧ p = (k.sealLen - 1) / pt then (k.sealLen - 1) % pt + 1 else pt
  (List.range n).all fun i => kvBit d idx (p * pt + i)

/-- Where the entry of a page lies in a sequence's page list (R308). -/
def kvListAddr (d : Dev) (idx p : Nat) : Addr := BitVec.ofNat 52 (kvReg d .kvsList idx 51 0) + BitVec.ofNat 52 (8 * p)

/-- The address in a page-list entry (R307): its read may fail. -/
def kvEntry (d : Dev) (idx p : Nat) : Dev × Except FaultCode Addr :=
  match devReadAll d (kvListAddr d idx p) 8 with
  | (d, .error f) => (d, .error f)
  | (d, .ok bs) =>
    let a : Addr := BitVec.ofNat 52 (leNat bs)
    if misBy 0x10000 a.toNat then (d, .error .misaligned)
    else if inMemory d a (kvPageBytes d idx) then (d, .ok a) else (d, .error .addressAbsent)

/-- Filled pages become eligible in page order (R319), unless the sequence closes (R418). -/
def kvScan (d : Dev) (idx : Nat) : Nat → Dev
  | 0 => d
  | n + 1 =>
    let k := getKv d idx
    let p := k.next
    let past := decide (kvSt d idx = 2) && decide ((k.sealLen - 1) / kvTokens d idx < p)
    if (kvSt d idx = 1 ∨ kvSt d idx = 2) ∧ k.closing = false ∧ past = false ∧ kvInWindow d idx p = true ∧ kvFilled d idx p = true then
      let die := idx / 4096
      let d := setKv d idx { k with next := p + 1 }
      kvScan { d with kvReady := tset [] d.kvReady die (tget [] d.kvReady die ++ [(idx % 4096, p)]) } idx n
    else d

/-- Pages that have become eligible. -/
def kvEligible (d : Dev) (idx : Nat) : Dev := kvScan d idx (kvStages d idx + 1)

/-! ### What an attention operation asks -/

/-- The index of the operation's sequence. -/
def RunOp.kvIdx (o : RunOp) : Nat := fld o.kvHandle 15 0

/-- MASK. -/
def RunOp.mask (o : RunOp) : Nat := o.fd 0 14 12

/-- POS0. -/
def RunOp.pos0 (o : RunOp) : Nat := o.fd 9 23 0

/-- q_i (R311). -/
def RunOp.qPos (o : RunOp) (i : Nat) : Nat := o.pos0 + i / max 1 (o.fd 0 41 38)

/-- P, the positions of the run-time tile (R312). -/
def RunOp.tokens (o : RunOp) : Nat := o.positions o.e0

/-- An attention operation before its key phase. -/
def Attn.empty : Attn := ⟨0, false, [], 0, 0, 0, 0, [], [], [], [], none, none⟩

/-- The progress of an attention operation. -/
def RunOp.att (o : RunOp) : Attn := o.attn.getD Attn.empty

/-- Key j is masked for row i (R324). -/
def RunOp.masked (o : RunOp) (d : Dev) (c : CoreId) (i j : Nat) : Bool :=
  decide (o.e1 ≤ j) ||
    match o.mask with
    | 0 => false
    | 1 => decide (o.qPos i < j)
    | 2 => decide (o.qPos i < j) || decide (j + o.fd 8 63 42 ≤ o.qPos i)
    | _ => !Nat.testBit (storeNat d c (offIn c (o.addr 12) + i * (cdiv o.plan.2.1 128 * 16) + j / 8) 1) (j % 8)

/-- A chunk is skipped (R324): under MASK 1 and 2 every key is masked for every run-time row. -/
def RunOp.chunkSkipped (o : RunOp) (ch : Nat) : Bool :=
  let last := min (64 * ch + 63) (o.e1 - 1)
  match o.mask with
  | 1 => (List.range o.e0).all fun i => decide (o.qPos i < 64 * ch)
  | 2 => (List.range o.e0).all fun i => decide (o.qPos i < 64 * ch) || decide (last + o.fd 8 63 42 ≤ o.qPos i)
  | _ => false

/-- The chunks it works through (R324). -/
def RunOp.chunkList (o : RunOp) : List Nat := (List.range (cdiv o.e1 64)).filter fun ch => !o.chunkSkipped ch

/-- The keys of a chunk below L. -/
def RunOp.chunkKeys (o : RunOp) (ch : Nat) : List Nat := (List.range (min 64 (o.e1 - 64 * ch))).map fun k => 64 * ch + k

/-- Every key it needs is present (R325). -/
def RunOp.keysHere (o : RunOp) (d : Dev) : Bool := o.att.chunks.all fun ch => (o.chunkKeys ch).all (kvPresent d o.kvIdx)

/-- The sequence is sealed below L (R325). -/
def RunOp.beyondSeal (o : RunOp) (d : Dev) : Bool := decide (kvSt d o.kvIdx = 2) && decide ((getKv d o.kvIdx).sealLen < o.e1)

/-! ### Rotary codes and scales -/

/-- A special function in normal mode, rounded to FP32. -/
def sfn32 (d : Dev) (c : CoreId) (f : Sfn) (x : FV) : FV := r32 (sfnNormal (normalImage d c) f x)

/-- A row rotated at position q (R314). -/
def ropeRow (d : Dev) (c : CoreId) (o : RunOp) (q : Nat) (xs : List FV) : List FV :=
  let dim := xs.length
  let pair := o.bit 0 17
  let base := o.fd 8 41 30
  (List.range dim).map fun e =>
    let u := if pair then e % (dim / 2) else e / 2
    let e0 := if pair then u else 2 * u
    let e1 := if pair then u + dim / 2 else 2 * u + 1
    let a := (FV.ofInt q).mul (v32 (scaleAt d c o.bank (base + u)))
    let cs := sfn32 d c .cos a
    let sn := sfn32 d c .sin a
    let x0 := xs.getD e0 .nan
    let x1 := xs.getD e1 .nan
    if e = e0 then r32 ((r32 (x0.mul cs)).add (r32 (x1.mul sn)).neg) else r32 ((r32 (x0.mul sn)).add (r32 (x1.mul cs)))

/-- A row scaled by run r of the four of R317. -/
def kscaleRow (d : Dev) (c : CoreId) (o : RunOp) (r : Nat) (xs : List FV) : List FV :=
  if o.bit 8 17 then
    (xs.zipIdx).map fun x => r32 (x.1.mul (v32 (scaleAt d c o.bank (o.fd 8 29 18 + r * xs.length + x.2))))
  else xs

/-- A row of n elements of a format at an offset of the core store, FTZ_IN applied. -/
def storeRow (d : Dev) (c : CoreId) (fmt : Nat) (ftz : Bool) (off n : Nat) : List FV :=
  (List.range n).map fun k => elemVal fmt ftz (storeElem d c off (fmtBits fmt) k)

/-- Q is prepared (R326). -/
def RunOp.preparesQ (o : RunOp) : Bool := o.bit 0 15 || o.bit 8 17

/-- The offset of Q row i. -/
def RunOp.qOff (o : RunOp) (c : CoreId) (i : Nat) : Nat := offIn c (o.addr 1) + i * o.fd 4 31 0

/-- The prepared codes of Q by row (R317, R326), counted by R153: ties to even, SAT of the descriptor (also for an infinity: log 153, DEDUCED), FTZ_IN. -/
def prepareQ (d : Dev) (c : CoreId) (o : RunOp) : List (List Nat) × Dev :=
  let f := o.fmts
  (List.range o.e0).foldl (fun (acc : List (List Nat) × Dev) i =>
    let d := acc.2
    let xs := storeRow d c f.a f.ftzIn (o.qOff c i) (kvDim d o.kvIdx)
    let xs := kscaleRow d c o 2 xs
    let xs := if o.bit 0 15 then ropeRow d c o (o.qPos i) xs else xs
    let r := convRow d c o f.a 0 f.ftzIn f.sat xs
    (acc.1 ++ [r.1], r.2)) ([], d)

/-! ### The phases of an attention operation -/

/-- The work area of an attention operation: its offset and length (R312). -/
def RunOp.workArea (o : RunOp) (d : Dev) : Nat × Nat := (o.fd 13 20 0, cdiv o.plan.1 8 * 8 * (kvDim d o.kvIdx + 64) * 4)

/-- The first O bank of the operation, and its S banks: MB × 8 of them, twice where S is double-banked (R327). -/
def RunOp.attnDouble (o : RunOp) (d : Dev) : Bool :=
  decide (o.bankBase + cdiv o.plan.1 8 * (cdiv (kvDim d o.kvIdx) 8 + 16) ≤ 64)

/-- The key phase begins (R325): a sequence sealed below L gives KV_RANGE; with no chunk the operation goes to its output, and with every key
present to its steps; else it waits for its keys, and the wait is counted. -/
def attnKeys (d : Dev) (c : CoreId) (u : Nat) (o : RunOp) : Dev :=
  let chunks := o.chunkList
  let ob := o.bankBase
  let nb := cdiv o.plan.1 8 * cdiv (kvDim d o.kvIdx) 8
  let d := modCube d c u fun x => accFill x ob nb (some (0x80000000, false))
  let a := o.att
  let z : Attn := { a with chunks := chunks, m := List.replicate o.e0 0xFF800000, l := List.replicate o.e0 0, f := [] }
  if o.beyondSeal d then endRun d c u o .kvRange false
  else if chunks.isEmpty then setRun d c u { o with phase := .drain, attn := some z }
  else if ({ o with attn := some z } : RunOp).keysHere d then setRun d c u { o with phase := .steps, attn := some z }
  else if (getKv d o.kvIdx).closing then endRun d c u o .keyAbsent false
  else
    let die := o.kvIdx / 4096
    let d := rcount d .kvsStat die 0 0 55 48 1
    let wait := o.fd 2 63 32
    setRun d c u { o with phase := .keys, attn := some { z with deadline := if wait = 0 then none else some (d.tick + wait) } }

/-- Q is prepared if it must be, and the key phase begins; a poisoned Q row ends the operation (R384). -/
def attnReady (d : Dev) (c : CoreId) (u : Nat) (o : RunOp) : Dev :=
  let dim := kvDim d o.kvIdx
  if o.preparesQ then
    if (List.range o.e0).any fun i => storePoisoned d c (o.qOff c i) (fmtBytes o.fmts.a dim) then endRun d c u o .poisoned false
    else
      let r := prepareQ d c o
      let w := o.workArea d
      attnKeys (fillFree r.2 c w.1 w.2) c u { o with attn := some { o.att with q := some r.1 } }
  else
    let w := o.workArea d
    attnKeys (fillFree d c w.1 w.2) c u o

/-- The checks of an append (R315), with those of a closing sequence (R418). -/
def appendCheck (d : Dev) (o : RunOp) : FaultCode :=
  let idx := o.kvIdx
  let st := kvSt d idx
  if st ≠ 1 ∨ (getKv d idx).closing then .kvSealed
  else if o.pos0 < kvFlushed d idx then .appendFlushed
  else if kvReg d .kvsGeom idx 63 32 * kvTokens d idx ≤ o.pos0 + o.tokens - 1 then .kvFull
  else .none

/-- An attention operation starts its work: the append where it has one (R315, R316), else its key phase. -/
def attnStart (d : Dev) (c : CoreId) (u : Nat) (o : RunOp) : Dev :=
  if o.bit 0 18 then
    let f := appendCheck d o
    if f ≠ .none then endRun d c u o f false else setRun d c u { o with phase := .append, attn := some Attn.empty }
  else attnReady d c u { o with attn := some Attn.empty }

/-- Each attention operation that runs on a cube, with its core and cube. -/
def eachAttn (d : Dev) (f : CoreId → Nat → RunOp → Dev → Dev) : Dev :=
  (d.cores.map Prod.fst).foldl (fun d k =>
    let c : CoreId := ⟨k / 144, k % 144⟩
    (List.range 4).foldl (fun d u =>
      match (getCube d c u).run with
      | some o => if o.op.kind = 3 then f c u o d else d
      | none => d) d) d

end Sys2Proof.Machine
end

