-- ==== Sys2Proof/Machine/Pool.lean ====
section
/-!
DEFINITION. Pooling (R297 to R299) with the statistics it shares (R276 to R280), and box resampling (R300, R301): their steps and results.
-/

namespace Sys2Proof.Machine

/-! ### FP32 arithmetic -/

/-- 1/n rounded to FP32 with ties to even, from an exact computation. -/
def recip32 (n : Nat) : FV :=
  let k := 64 + Nat.log2 n
  r32 (.fin false (2 * (2 ^ k / n) + (if 2 ^ k % n = 0 then 0 else 1)) (-((k : Int) + 1)))

/-- An FP32 sum, ties to even. -/
def addR (x y : FV) : FV := r32 (x.add y)

/-- An FP32 difference. -/
def subR (x y : FV) : FV := r32 (x.add y.neg)

/-- An FP32 product. -/
def mulR (x y : FV) : FV := r32 (x.mul y)

/-- +0. -/
def zeroV : FV := .fin false 0 0

/-- The clamp of R280. -/
def clampVar (x : FV) : FV := if x.isZero || (x.isNeg && !x.isNan) then zeroV else x

/-- A partial record (R276). -/
structure Partial where
  n : Nat
  shift : FV
  s1 : FV
  s2 : FV
deriving DecidableEq, Repr

/-- A partial over elements in order (R277). -/
def formPartial (xs : List FV) : Partial :=
  match xs with
  | [] => ⟨0, zeroV, zeroV, zeroV⟩
  | x0 :: _ =>
    let ds := xs.map fun x => subR x x0
    ⟨xs.length, x0, fixedTree addR zeroV ds, fixedTree addR zeroV (ds.map fun v => mulR v v)⟩

/-- The merge of a pair (R278). -/
def mergePartial (a b : Partial) : Partial :=
  if a.n = 0 then b else if b.n = 0 then a
  else
    let n2 := r32 (FV.ofInt b.n)
    let dd := subR b.shift a.shift
    ⟨a.n + b.n, a.shift, addR a.s1 (addR b.s1 (mulR n2 dd)),
      addR a.s2 (addR (addR b.s2 (mulR (mulR (FV.ofInt 2) dd) b.s1)) (mulR n2 (mulR dd dd)))⟩

/-- The result record (R279): MEAN, VAR and RSTD. -/
def finishPartial (d : Dev) (c : CoreId) (eps : FV) (p : Partial) : FV × FV × FV :=
  if p.n = 0 then (zeroV, zeroV, sfn32 d c .rsqrt eps)
  else
    let rn := recip32 p.n
    let h := mulR p.s1 rn
    let v := clampVar (mulR (subR p.s2 (mulR p.s1 h)) rn)
    (addR p.shift h, v, sfn32 d c .rsqrt (addR v eps))

/-! ### Pooling -/

/-- An element (y, x, ch) of a pooling window (R284). -/
def RunOp.poolElem (o : RunOp) (c : CoreId) (y x ch : Nat) : Loc :=
  let base := offIn c (o.addr 1)
  if o.bit 0 16 then ⟨base + ch * o.fd 4 41 21 + y * o.fd 4 20 0, x, none⟩
  else ⟨base + y * o.fd 4 20 0 + x * o.fd 4 41 21, ch, none⟩

/-- The place of pooling step s in modes 0 to 3 (R298); `kb` stays 0. -/
def RunOp.poolCoord (o : RunOp) (s : Nat) : Coord :=
  let kh := o.fd 9 3 0
  let kw := o.fd 9 7 4
  let nb := cdiv o.e1 8
  let xbs := cdiv (gridOf o.e0).2 8
  let mb := s / kw / kh / nb
  ⟨mb / xbs * o.xbp + mb % xbs, s / kw / kh % nb, 0, mb / xbs, mb % xbs, s / kw % kh, s % kw⟩

/-- Channels of group g (R299). -/
def RunOp.groupChans (o : RunOp) (g : Nat) : List Nat :=
  let size := o.fd 7 15 0
  (List.range (min size (o.e1 - g * size))).map fun k => g * size + k

/-- Elements of group g in mode 4. -/
def RunOp.groupLen (o : RunOp) (g : Nat) : Nat := (gridOf o.e0).1 * (gridOf o.e0).2 * (o.groupChans g).length

/-- Groups of mode 4, or of mode 5. -/
def RunOp.groups (o : RunOp) : Nat := if o.poolMode = 4 then cdiv o.e1 (max 1 (o.fd 7 15 0)) else o.e1

/-- Steps of group g (R302): 16 elements each in mode 4, one merge each in mode 5. -/
def RunOp.groupSteps (o : RunOp) (g : Nat) : Nat :=
  if o.poolMode = 4 then cdiv (o.groupLen g) 16 else max 1 (o.fd 7 22 16 - 1)

/-- The group of step s and whether s is the group's last step. -/
def groupOf (steps : Nat → Nat) : Nat → Nat → Nat → Nat × Bool
  | 0, g, _ => (g, true)
  | n + 1, g, s => if s < steps g then (g, decide (s + 1 = steps g)) else groupOf steps n (g + 1) (s - steps g)

/-- Channels of a resampling step (R302). -/
def RunOp.rsmpChans (o : RunOp) : Nat := if o.fd 0 13 12 = 1 then 32 else 8

/-- Steps of a pooling or resampling operation. -/
def RunOp.imageSteps (o : RunOp) : Nat :=
  let g := gridOf o.e0
  match o.op.kind with
  | 4 =>
    if o.poolMode < 4 then g.1 * cdiv g.2 8 * cdiv o.e1 8 * o.fd 9 3 0 * o.fd 9 7 4
    else ((List.range o.groups).map o.groupSteps).sum
  | _ => o.e2 * g.1 * g.2 * cdiv o.e1 o.rsmpChans

/-- The starting value of an accumulator in modes 0 to 3 (R298). -/
def poolStart (mode : Nat) : W32 := if mode = 0 then 0xFF800000 else if mode = 1 then 0x7F800000 else 0x80000000

/-- A step of modes 0 to 3: one tap for 8 positions and 8 channels. -/
def poolTap (d : Dev) (c : CoreId) (o : RunOp) (s : Nat) (x : Cube) : Cube :=
  let q := o.poolCoord s
  let bank := o.bankOf q.row q.nb
  (List.range 64).foldl (fun x k =>
    let m := k / 8
    let j := k % 8
    let ch := 8 * q.nb + j
    let old := v32 (accGet x false bank m j).1
    let v : Option FV := match o.winPos q m with
      | some p => some (if ch < o.e1 then locVal d c o.fmts.a o.fmts.ftzIn (some (o.poolElem c p.1 p.2 ch)) else zeroV)
      | none => if o.poolMode < 2 then none else some zeroV
    match v with
    | none => x
    | some v =>
      let r := match o.poolMode with
        | 0 => old.max v
        | 1 => old.min v
        | _ => old.add v
      accSet x bank m j (c32 r, false)) x

/-- A step of modes 0 to 3 reads a poisoned word. -/
def poolPoison (d : Dev) (c : CoreId) (o : RunOp) (s : Nat) : Bool :=
  let q := o.poolCoord s
  (List.range 64).any fun k =>
    let ch := 8 * q.nb + k % 8
    match o.winPos q (k / 8) with
    | some p => decide (ch < o.e1) && locPoisoned d c (fmtBits o.fmts.a) (some (o.poolElem c p.1 p.2 ch))
    | none => false

/-- Taps of output position (oy, ox) that lie inside the window. -/
def RunOp.tapsIn (o : RunOp) (oy ox : Nat) : Nat :=
  ((List.range (o.fd 9 3 0)).map fun ky => ((List.range (o.fd 9 7 4)).filter fun kx =>
    (o.winPos ⟨0, 0, 0, oy, ox / 8, ky, kx⟩ (ox % 8)).isSome).length).sum

/-- The result of an accumulator in modes 0 to 3, before its conversion (R298). -/
def RunOp.poolResult (o : RunOp) (i : Nat) (v : W32) : FV :=
  if o.poolMode = 3 then
    let p := o.pos i
    let n := if o.bit 0 15 then o.fd 9 3 0 * o.fd 9 7 4 else o.tapsIn p.1 p.2
    if n = 0 then zeroV else mulR (v32 v) (recip32 n)
  else v32 v

/-- The elements of group g in mode 4, in the order oy, ox, channel (R299); none for a supplied zero of a position beyond the window (R286). -/
def RunOp.groupLocs (o : RunOp) (c : CoreId) (g : Nat) : List (Option Loc) :=
  let e := gridOf o.e0
  (List.range (e.1 * e.2)).flatMap fun p => (o.groupChans g).map fun ch =>
    if p / e.2 < o.fd 6 15 0 ∧ p % e.2 < o.fd 6 31 16 then some (o.poolElem c (p / e.2) (p % e.2) ch) else none

/-- Writes a record of mode 4 or 5. -/
def putRecord (d : Dev) (c : CoreId) (o : RunOp) (g : Nat) (ws : List W32) : Dev := putWords d c (offIn c (o.addr 3) + 16 * g) ws

/-- The last step of a group in mode 4: its partial record (R277). -/
def groupPartial (d : Dev) (c : CoreId) (o : RunOp) (g : Nat) : Except FaultCode Dev :=
  let ls := o.groupLocs c g
  if ls.any (locPoisoned d c (fmtBits o.fmts.a)) then .error .poisoned
  else
    let p := formPartial (ls.map (locVal d c o.fmts.a o.fmts.ftzIn))
    .ok (putRecord d c o g [BitVec.ofNat 32 p.n, c32 p.shift, c32 p.s1, c32 p.s2])

/-- The last step of a group in mode 5: its merged record's result (R278, R279). -/
def groupFinish (d : Dev) (c : CoreId) (o : RunOp) (g : Nat) : Except FaultCode Dev :=
  let parts := o.fd 7 22 16
  let off (t : Nat) : Nat := offIn c (o.addr 1) + (g * parts + t) * 16
  if storePoisoned d c (off 0) (16 * parts) then .error .poisoned
  else
    let ps := (List.range parts).map fun t =>
      Partial.mk (storeNat d c (off t) 4) (v32 (word32 d c (off t + 4))) (v32 (word32 d c (off t + 8))) (v32 (word32 d c (off t + 12)))
    let p := fixedTree mergePartial ⟨0, zeroV, zeroV, zeroV⟩ ps
    let r := finishPartial d c (v32 (BitVec.ofNat 32 (o.fd 7 63 32))) p
    .ok (putRecord d c o g [c32 r.1, c32 r.2.1, c32 r.2.2, BitVec.ofNat 32 p.n])

/-! ### Resampling -/

/-- One coordinate of a sample (R301). -/
def sampleCoord (mode n i : Nat) (a b : FV) : FV :=
  let half : FV := .fin false 1 (-1)
  if mode = 2 then
    (if n = 1 then mulR (addR a b) half else addR a (mulR (FV.ofInt i) (mulR (subR b a) (recip32 (n - 1)))))
  else subR (addR a (mulR (.fin false (2 * i + 1) (-1)) (mulR (subR b a) (recip32 n)))) half

/-- The words of a box: Y0, X0, Y1, X1. -/
def boxWord (box : List W64) (k : Nat) : FV := v32 ((box.getD (k / 2) 0 >>> (32 * (k % 2))).setWidth 32)

/-- The coordinate of sample index i along y, or along x. -/
def RunOp.sampleY (o : RunOp) (i : Nat) : FV := sampleCoord (o.fd 0 13 12) (gridOf o.e0).1 i (boxWord o.box 0) (boxWord o.box 2)

/-- Along x. -/
def RunOp.sampleX (o : RunOp) (j : Nat) : FV := sampleCoord (o.fd 0 13 12) (gridOf o.e0).2 j (boxWord o.box 1) (boxWord o.box 3)

/-- A box whose words or coordinates are not all finite samples as NaN (R301). -/
def RunOp.boxBad (o : RunOp) : Bool :=
  !((List.range 4).all fun k => (boxWord o.box k).finite) || !((List.range (gridOf o.e0).1).all fun i => (o.sampleY i).finite) ||
    !((List.range (gridOf o.e0).2).all fun j => (o.sampleX j).finite)

/-- An index as a signed 32-bit integer. -/
def floor32 (v : FV) : Int := (clampInt 32 v.floor).1

/-- The window element at (row, column, channel) by EDGE; none reads as +0 (R301). -/
def RunOp.edgeLoc (o : RunOp) (c : CoreId) (y x : Int) (ch : Nat) : Option Loc :=
  let ih := o.fd 6 15 0
  let iw := o.fd 6 31 16
  let at' (y x : Nat) : Loc := ⟨offIn c (o.addr 1) + y * o.fd 4 20 0 + x * o.fd 4 41 21, ch, none⟩
  if o.bit 0 14 then
    (if 0 ≤ y ∧ y < ih ∧ 0 ≤ x ∧ x < iw then some (at' y.toNat x.toNat) else none)
  else some (at' (clampIdx y ih) (clampIdx x iw))

/-- The elements that a sample of one channel reads: four for bilinear, one for nearest. -/
def RunOp.sampleLocs (o : RunOp) (c : CoreId) (y x : FV) (ch : Nat) : List (Option Loc) :=
  if o.fd 0 13 12 = 1 then
    let half : FV := .fin false 1 (-1)
    [o.edgeLoc c (floor32 (addR y half)) (floor32 (addR x half)) ch]
  else
    let fy := floor32 y
    let fx := floor32 x
    [o.edgeLoc c fy fx ch, o.edgeLoc c fy (fx + 1) ch, o.edgeLoc c (fy + 1) fx ch, o.edgeLoc c (fy + 1) (fx + 1) ch]

/-- The value of a sample (R301). -/
def RunOp.sampleVal (o : RunOp) (d : Dev) (c : CoreId) (y x : FV) (ch : Nat) : FV :=
  let vs := (o.sampleLocs c y x ch).map (locVal d c o.fmts.a o.fmts.ftzIn)
  match vs with
  | [v] => v
  | [p00, p01, p10, p11] =>
    let wy := subR y (FV.ofInt y.floor)
    let wx := subR x (FV.ofInt x.floor)
    let top := addR p00 (mulR wx (subR p01 p00))
    let bot := addR p10 (mulR wx (subR p11 p10))
    addR top (mulR wy (subR bot top))
  | _ => .nan

/-- A resampling step: one sample for a block of channels, its box read when its first sample begins (R301, R302). -/
def rsmpStep (d : Dev) (c : CoreId) (o : RunOp) (s : Nat) : Except FaultCode (Dev × RunOp) :=
  let g := gridOf o.e0
  let w := o.rsmpChans
  let nb := cdiv o.e1 w
  let j := s / nb % g.2
  let i := s / nb / g.2 % g.1
  let b := s / nb / g.2 / g.1
  let boxOff := offIn c (o.addr 2) + 16 * b
  let first := decide (s % (nb * g.2 * g.1) = 0)
  if first && storePoisoned d c boxOff 16 then .error .poisoned
  else
    let o := if first then { o with box := storeWords d c boxOff 2 } else o
    let y := o.sampleY i
    let x := o.sampleX j
    let bad := o.boxBad
    let chans := (List.range (min w (o.e1 - s % nb * w))).map fun k => s % nb * w + k
    if !bad && chans.any fun ch => (o.sampleLocs c y x ch).any (locPoisoned d c (fmtBits o.fmts.a)) then .error .poisoned
    else
      let f := o.fmts
      let base := offIn c (o.addr 3) + b * o.fd 5 62 42 + i * o.fd 5 20 0 + j * o.fd 5 41 21
      let d := chans.foldl (fun d ch =>
        let v := if bad then .nan else o.sampleVal d c y x ch
        let r := convOne d c o ch f.c f.rnd f.ftzOut f.sat true v
        putCodes (countElem r.2 c r.1 false) c base f.c ch [r.1.code]) d
      .ok (d, o)

end Sys2Proof.Machine
end

