-- ==== Sys2Proof/Machine/Attn.lean ====
section
/-!
DEFINITION. The chunks of an attention operation (R324 to R327): page fetches, the steps of S and PV, the online softmax, and the output.
-/

namespace Sys2Proof.Machine

/-- K per step of an attention operation's classes (R158). -/
def RunOp.attnK (o : RunOp) (d : Dev) : Nat := ((stepClass o.fmts.a (kvForm d o.kvIdx)).getD .wide).kStep

/-- The steps of S of a chunk (R327). -/
def RunOp.scoreSteps (o : RunOp) (d : Dev) : Nat := cdiv (kvDim d o.kvIdx) (o.attnK d) * cdiv o.e0 8 * 8

/-- The steps of P × V of a chunk (R327). -/
def RunOp.valueSteps (o : RunOp) (d : Dev) : Nat := cdiv 64 (o.attnK d) * cdiv o.e0 8 * cdiv (kvDim d o.kvIdx) 8

/-- The next steps are those of S (R327): S runs one chunk ahead of P × V where it is double-banked. -/
def RunOp.scoreNext (o : RunOp) (d : Dev) : Bool :=
  decide (o.att.scored < o.att.chunks.length) && decide (o.att.scored ≤ o.att.valued + b2n (o.attnDouble d))

/-- The S bank of chunk n in the list, row block mb and column block nb. -/
def RunOp.sBank (o : RunOp) (d : Dev) (n mb nb : Nat) : Nat :=
  let m := cdiv o.plan.1 8
  o.bankBase + m * cdiv (kvDim d o.kvIdx) 8 + (if o.attnDouble d then n % 2 else 0) * (m * 8) + mb * 8 + nb

/-- The O bank of row block mb and column block db. -/
def RunOp.oBank (o : RunOp) (d : Dev) (mb db : Nat) : Nat := o.bankBase + mb * cdiv (kvDim d o.kvIdx) 8 + db

/-- The offset of K or V row k of chunk n's fetch buffer (R312). -/
def RunOp.bufRow (o : RunOp) (d : Dev) (n k : Nat) (v : Bool) : Nat :=
  let row := kvDim d o.kvIdx * kvBytes d o.kvIdx
  o.fd 13 52 32 + (n % 2 * 128 + (if v then 64 else 0) + k) * row

/-! ### Fetches -/

/-- The K and V rows of one key: from its page's staging slot while that holds it, else from HBM (R310); `hold` is KHOLD (R213). -/
def fetchKey (d : Dev) (c : CoreId) (idx j : Nat) (hold : Bool) : Dev × Except FaultCode (List Byte × List Byte) :=
  let p := j / kvTokens d idx
  let row := kvDim d idx * kvBytes d idx
  let src : Dev × Except FaultCode Addr :=
    if kvStaged d idx j then (d, .ok (kvSlotAddr d idx p)) else kvEntry d idx p
  match src with
  | (d, .error f) => (d, .error f)
  | (d, .ok a) =>
    let rd (d : Dev) (v : Bool) : Dev × Except FaultCode (List Byte) :=
      (pieces (a + BitVec.ofNat 52 (kvRowOff d idx j v)) row (row / 64 + 2)).foldl (fun r x =>
        match r with
        | (d, .error f) => (d, .error f)
        | (d, .ok bs) =>
          match holdRead d c x.1 x.2 hold with
          | (d, .error f) => (d, .error f)
          | (d, .ok more) => (d, .ok (bs ++ more))) (d, .ok [])
    match rd d false with
    | (d, .error f) => (d, .error f)
    | (d, .ok k) =>
      match rd d true with
      | (d, .error f) => (d, .error f)
      | (d, .ok v) => (d, .ok (k, v))

/-- A chunk may be fetched: its buffer is free, and the buffer before it has been read (R327). -/
def RunOp.canFetch (o : RunOp) (d : Dev) : Bool :=
  let a := o.att
  decide (a.fetched < a.chunks.length) && decide (a.fetched < a.valued + 2) &&
    (decide (a.fetched = 0) || decide (a.fetched ≤ a.scored) || (decide (a.fetched = a.scored + 1) && o.scoreNext d && decide (0 < o.step)))

/-- An attention operation has a page fetch to make (R327). -/
def RunOp.fetches (o : RunOp) (d : Dev) : Bool := decide (o.op.kind = 3) && decide (o.phase = .steps) && o.canFetch d

/-- Fetches the next chunk into its buffer. -/
def fetchChunk (d : Dev) (c : CoreId) (o : RunOp) : Dev × Except FaultCode RunOp :=
  let a := o.att
  let n := a.fetched
  let keys := o.chunkKeys (a.chunks.getD n 0)
  let r := (keys.zipIdx).foldl (fun (r : Dev × FaultCode) k =>
    if r.2 ≠ .none then r
    else match fetchKey r.1 c o.kvIdx k.1 (o.bit 0 48) with
      | (d, .error f) => (d, f)
      | (d, .ok kv) => (storeWrite (storeWrite d c (o.bufRow d n k.2 false) kv.1) c (o.bufRow d n k.2 true) kv.2, .none)) (d, .none)
  if r.2 ≠ .none then (r.1, .error r.2) else (r.1, .ok { o with attn := some { a with fetched := n + 1 } })

/-! ### Steps -/

/-- A step of floating operands given as values. -/
def floatOut (ups : List (Nat × Nat × W32)) (a b : List (List FV)) : StepOut :=
  let t := corrupt ups (a.map fun r => b.map fun s => dotF r s)
  ⟨t, checkFloat a b (t.map fun r => r.map v32)⟩

/-- Where a step of an attention operation accumulates, with its operands as values and whether an operand is poisoned. -/
structure AttnStep where
  bank : Nat
  fresh : Bool
  poison : Bool
  a : List (List FV)
  b : List (List FV)
deriving DecidableEq, Repr

/-- An element of a row in the core store, and whether it is poisoned. -/
def rowElem (d : Dev) (c : CoreId) (fmt : Nat) (ftz : Bool) (off i : Nat) : FV × Bool :=
  let l : Loc := ⟨off, i, none⟩
  (locVal d c fmt ftz (some l), locPoisoned d c (fmtBits fmt) (some l))

/-- Step s of S of the next chunk (R326): Q rows by the K rows of the chunk, zeros beyond M, D and L (R201). Every row of A is loaded
(log 187, DEDUCED). -/
def RunOp.scoreStep (o : RunOp) (d : Dev) (c : CoreId) (s : Nat) : AttnStep :=
  let at' := o.att
  let n := at'.scored
  let f := o.fmts
  let dim := kvDim d o.kvIdx
  let ks := o.attnK d
  let mbs := cdiv o.e0 8
  let kb := s / 8 / mbs
  let mb := s / 8 % mbs
  let nb := s % 8
  let keys := (o.chunkKeys (at'.chunks.getD n 0)).length
  let z : FV × Bool := (zeroV, false)
  let a := (List.range 8).map fun m => (List.range ks).map fun k =>
    let i := 8 * mb + m
    let kk := kb * ks + k
    if o.e0 ≤ i ∨ dim ≤ kk then z
    else match at'.q with
      | some q => (elemVal f.a f.ftzIn ((q.getD i []).getD kk 0), false)
      | none => rowElem d c f.a f.ftzIn (o.qOff c i) kk
  let b := (List.range 8).map fun j => (List.range ks).map fun k =>
    let key := 8 * nb + j
    let kk := kb * ks + k
    if keys ≤ key ∨ dim ≤ kk then z else rowElem d c (kvForm d o.kvIdx) f.ftzIn (o.bufRow d n key false) kk
  ⟨o.sBank d n mb nb, decide (kb = 0), (a.flatten ++ b.flatten).any Prod.snd, a.map fun r => r.map Prod.fst, b.map fun r => r.map Prod.fst⟩

/-- Step s of P × V of the next chunk (R326). -/
def RunOp.valueStep (o : RunOp) (d : Dev) (c : CoreId) (s : Nat) : AttnStep :=
  let at' := o.att
  let n := at'.valued
  let kf := kvForm d o.kvIdx
  let dim := kvDim d o.kvIdx
  let ks := o.attnK d
  let mbs := cdiv o.e0 8
  let dbs := cdiv dim 8
  let kb := s / dbs / mbs
  let mb := s / dbs % mbs
  let db := s % dbs
  let keys := (o.chunkKeys (at'.chunks.getD n 0)).length
  let z : FV × Bool := (zeroV, false)
  let a := (List.range 8).map fun m => (List.range ks).map fun k =>
    let kk := kb * ks + k
    if o.e0 ≤ 8 * mb + m ∨ 64 ≤ kk then z else (elemVal kf false ((at'.p.getD (8 * mb + m) []).getD kk 0), false)
  let b := (List.range 8).map fun j => (List.range ks).map fun k =>
    let kk := kb * ks + k
    let e := 8 * db + j
    if keys ≤ kk ∨ dim ≤ e then z else rowElem d c kf o.fmts.ftzIn (o.bufRow d n kk true) e
  ⟨o.oBank d mb db, false, (a.flatten ++ b.flatten).any Prod.snd, a.map fun r => r.map Prod.fst, b.map fun r => r.map Prod.fst⟩

/-- The steps of its next part can issue: the chunk is fetched for S, or its softmax is done for P × V. -/
def RunOp.attnStepReady (o : RunOp) (d : Dev) : Bool :=
  let a := o.att
  if o.scoreNext d then decide (a.scored < a.fetched) else decide (a.valued < a.softmaxed)

/-- The operation after a step has committed. -/
def RunOp.attnAdvance (o : RunOp) (d : Dev) : RunOp :=
  let a := o.att
  if o.scoreNext d then
    (if o.step + 1 = o.scoreSteps d then { o with step := 0, attn := some { a with scored := a.scored + 1 } } else { o with step := o.step + 1 })
  else if o.step + 1 = o.valueSteps d then
    (let v := a.valued + 1
     { o with step := 0, attn := some { a with valued := v }, phase := if v = a.chunks.length then .drain else o.phase })
  else { o with step := o.step + 1 }

/-- The index of the next step within the operation. -/
def RunOp.attnIndex (o : RunOp) (d : Dev) : Nat := o.att.scored * o.scoreSteps d + o.att.valued * o.valueSteps d + o.step

/-! ### The softmax -/

/-- The softmax of one row of a chunk (R326): the new m and l, the factor f and the codes of p. -/
def softmaxRow (d : Dev) (c : CoreId) (o : RunOp) (i : Nat) (scores : List FV) : W32 × W32 × W32 × List Nat :=
  let a := o.att
  let ch := a.chunks.getD a.softmaxed 0
  let scale := v32 (BitVec.ofNat 32 (o.fd 7 63 32))
  let ninf : FV := .inf true
  let s := (scores.zipIdx).map fun x => if o.masked d c i (64 * ch + x.2) then ninf else mulR x.1 scale
  let m := v32 (a.m.getD i 0)
  let m2 := m.max (fixedTree FV.max ninf s)
  let f := if m.eqv ninf then zeroV else sfn32 d c .exp (subR m m2)
  let kf := kvForm d o.kvIdx
  let p := s.map fun x => if x.eqv ninf then 0 else (toElem kf .rne false false true (sfn32 d c .exp (subR x m2))).code
  let l := addR (mulR (v32 (a.l.getD i 0)) f) (fixedTree addR zeroV (p.map fun x => elemVal kf false x))
  (c32 m2, c32 l, c32 f, p)

/-- The softmax of the next chunk: m, l and p by row, and the rescale of O (R326). -/
def softmaxChunk (d : Dev) (c : CoreId) (o : RunOp) (x : Cube) : Cube × RunOp :=
  let a := o.att
  let n := a.softmaxed
  let dim := kvDim d o.kvIdx
  let rows := (List.range o.e0).map fun i =>
    softmaxRow d c o i ((List.range 64).map fun j => v32 (accGet x false (o.sBank d n (i / 8) (j / 8)) (i % 8) (j % 8)).1)
  let x := (rows.zipIdx).foldl (fun x r =>
    let f := v32 r.1.2.2.1
    if isOne f then x
    else (List.range (cdiv dim 8 * 8)).foldl (fun x e =>
      let b := o.oBank d (r.2 / 8) (e / 8)
      accSet x b (r.2 % 8) (e % 8) (c32 (mulR (v32 (accGet x false b (r.2 % 8) (e % 8)).1) f), false)) x) x
  (x, { o with attn := some { a with
    softmaxed := n + 1, m := rows.map Prod.fst, l := rows.map (fun r => r.2.1), f := rows.map (fun r => r.2.2.1), p := rows.map (fun r => r.2.2.2) } })

/-- The S banks that the softmax of the next chunk drains, and then the O banks that it rescales: those of rows with f other than 1, the factors of
the operation after it (R326, R327). -/
def softmaxBanks (d : Dev) (o after : RunOp) : List Nat :=
  let mbs := List.range (cdiv o.e0 8)
  let scaled (mb : Nat) : Bool := (List.range 8).any fun i => decide (8 * mb + i < o.e0) && !isOne (v32 (after.att.f.getD (8 * mb + i) oneW))
  (mbs.flatMap fun mb => (List.range 8).map fun nb => o.sBank d o.att.softmaxed mb nb) ++
    (mbs.filter scaled).flatMap fun mb => (List.range (cdiv (kvDim d o.kvIdx) 8)).map fun db => o.oBank d mb db

/-- The softmax of the next chunk can run: its scores are complete, and P × V of the chunks before it has been added to O. -/
def RunOp.canSoftmax (o : RunOp) : Bool := decide (o.att.softmaxed < o.att.scored) && decide (o.att.softmaxed ≤ o.att.valued)

/-- The output (R326): every run-time row, divided by its sum, scaled, converted and written. -/
def attnOutput (d : Dev) (c : CoreId) (o : RunOp) (x : Cube) (lim : Nat) : Dev :=
  let a := o.att
  let f := o.fmts
  let dim := kvDim d o.kvIdx
  (List.range o.e0).foldl (fun d i =>
    let l := v32 (a.l.getD i 0)
    let r := sfn32 d c .rcp l
    let xs := (List.range dim).map fun e =>
      if l.isZero then zeroV else mulR (v32 (accGet x false (o.oBank d (i / 8) (e / 8)) (i % 8) (e % 8)).1) r
    let xs := kscaleRow d c o 3 xs
    (xs.zipIdx).foldl (fun d v =>
      if lim ≤ o.oBank d (i / 8) (v.2 / 8) then d
      else
        let y := convOne d c o v.2 f.c f.rnd f.ftzOut f.sat true v.1
        putCodes (countElem y.2 c y.1 false) c (offIn c (o.addr 3) + i * o.fd 4 63 32) f.c v.2 [y.1.code]) d) d

end Sys2Proof.Machine
end

