-- ==== Sys2Proof/Machine/Chain.lean ====
section
/-!
DEFINITION. The chain engine (05): CHN instructions and stream slots (R202, R203, R208, R215 to R219), transfer entries with their checks and walks
(R204 to R206, R209 to R214), faults (R207, R222), and the requests that reach a reservoir slice (R374).
-/

namespace Sys2Proof.Machine

/-! ### Streams -/

/-- A stream slot before its first use. -/
def Stream.empty : Stream := ⟨0, 0, 0, [], false⟩

/-- Stream slot s of a core. -/
def getStream (d : Dev) (c : CoreId) (s : Nat) : Stream := tget Stream.empty (getCore d c).w.streams s

/-- Writes a stream slot. -/
def setStream (d : Dev) (c : CoreId) (s : Nat) (x : Stream) : Dev :=
  modWork d c fun w => { w with streams := tset Stream.empty w.streams s x }

/-- Opcode of CHN.ARM within the chain engine's queue. -/
def chnArm : Nat := 0
/-- CHN.STRM. -/
def chnStrm : Nat := 1
/-- CHN.REARM. -/
def chnRearm : Nat := 2
/-- CHN.STOP. -/
def chnStop : Nat := 3

/-- A queue entry that has not begun. -/
def Chain.new (op : Op) (slot : Option Nat) : Chain := ⟨op, 0, slot, 0, 0, [], 0, 0, .none⟩

/-- The queue of a core's chain engine. -/
def chainQ (d : Dev) (c : CoreId) : List Chain := (getCore d c).w.chain

/-- Writes the queue. -/
def setChainQ (d : Dev) (c : CoreId) (q : List Chain) : Dev := modWork d c fun w => { w with chain := q }

/-- Replaces a queue entry. -/
def setChain (d : Dev) (c : CoreId) (x : Chain) : Dev :=
  setChainQ d c ((chainQ d c).map fun y => if y.op.serial = x.op.serial then x else y)

/-- Takes an entry out of the queue and makes its completion arrival. -/
def popChain (d : Dev) (c : CoreId) (x : Chain) (f : FaultCode) : Dev :=
  opDone (setChainQ d c ((chainQ d c).filter fun y => decide (y.op.serial ≠ x.op.serial))) c 2 x.op f false

/-- The re-arms queued for a slot that have not begun complete with STREAM_STOPPED (R217, R219). -/
def stopRearms (d : Dev) (c : CoreId) (s : Nat) : Dev :=
  ((chainQ d c).filter fun x => decide (x.slot = some s) && decide (x.op.opc = chnRearm) && decide (x.phase = 0)).foldl
    (fun d x => popChain d c x .streamStopped) d

/-- What a slot does when no pass of it runs any more (R217): a stop that waits makes it IDLE and arrives, a re-arm that waits behind a stop finds
it IDLE, a re-arm that waits keeps it RUNNING, or in a slot that closes (R418)
completes with STREAM_STOPPED, and otherwise it is ARMED. -/
def slotNext (d : Dev) (c : CoreId) (s : Nat) (idle : Bool) : Nat → Dev
  | 0 => d
  | n + 1 =>
    let st := getStream d c s
    match (chainQ d c).find? fun x => decide (x.slot = some s) with
    | none => setStream d c s { st with state := if idle || st.closing then 0 else 1 }
    | some x =>
      if x.op.opc = chnStop then slotNext (popChain d c x .none) c s true n
      else if idle then slotNext (popChain d c x .streamIdle) c s true n
      else if st.closing then slotNext (popChain d c x .streamStopped) c s false n
      else setStream d c s { st with state := 2 }

/-- The pass of a slot has ended. -/
def slotFreed (d : Dev) (c : CoreId) (s : Nat) : Dev :=
  if (getCore d c).fenced then setStream d c s { getStream d c s with state := 0 }
  else slotNext d c s false ((chainQ d c).length + 1)

/-- A chain or pass ends (R207, R211, R217, R219). -/
def endChain (d : Dev) (c : CoreId) (x : Chain) (f : FaultCode) : Dev :=
  let d := popChain d c x f
  match x.slot with
  | none => d
  | some s =>
    let d := if f = .none then rcount d .chnStream c.die c.core s 63 32 1 else stopRearms d c s
    slotFreed d c s

/-- A queue entry that has its descriptor runs; one without entries is complete (R203). -/
def chainRun (d : Dev) (c : CoreId) (x : Chain) : Dev :=
  if x.count = 0 then endChain d c x .none else setChain d c { x with phase := 2 }

/-- The check of the stake that a chain or pass waits on, made with its descriptor's other checks (R54). -/
def waitRefusal (d : Dev) (op : Op) (wait : Option StakeId) : FaultCode :=
  match wait with
  | none => .none
  | some id => stakeCheck d id (some op.parcel)

/-- A queue entry waits (R215) or runs. -/
def chainBegin (d : Dev) (c : CoreId) (x : Chain) (wait : Option StakeId) : Dev :=
  match wait with
  | none => chainRun d c x
  | some id => unitWait (setChain d c { x with phase := 1 }) (.unit (.chain c) x.op.serial) id x.op.parcel x.op.serial

/-- The slot of a stream handle that a core's own instruction names (R216). -/
def streamSlot (d : Dev) (c : CoreId) (h : BitVec 32) : Except FaultCode Nat :=
  match checkHandle d typeStream h with
  | .error f => .error f
  | .ok idx => if idx / 8 = c.die * 144 + c.core then .ok (idx % 8) else .error .badHandle

/-- The chain engine's queue is full (R208). -/
def chainFull (c : CoreId) (d : Dev) : Bool := decide (16 ≤ (chainQ d c).length)

/-- CHN.ARM enters the queue. -/
def pushArm (c : CoreId) (d : Dev) (op : Op) : Dev := setChainQ d c (chainQ d c ++ [Chain.new op none])

/-- A stream instruction by its handle and its slot's state (R216, R217). -/
def pushStream (c : CoreId) (d : Dev) (op : Op) : Dev :=
  match streamSlot d c op.handle with
  | .error f => opDone d c 2 op f false
  | .ok s =>
    let st := getStream d c s
    let queue (d : Dev) : Dev := setChainQ d c (chainQ d c ++ [Chain.new op (some s)])
    if op.opc = chnStrm then
      if st.state = 0 then queue (setStream d c s { st with state := 2 }) else opDone d c 2 op .streamBusy false
    else if op.opc = chnRearm then
      if st.state = 0 then opDone d c 2 op .streamIdle false else queue (setStream d c s { st with state := 2 })
    else if st.state = 2 then
      (let first := (chainQ d c).find? fun x => decide (x.slot = some s)
       let behind := ((chainQ d c).filter fun x => decide (x.slot = some s) && decide (x.op.opc = chnRearm) &&
         decide (x.phase = 0) && decide (first.map (fun y => y.op.serial) ≠ some x.op.serial))
       queue (behind.foldl (fun d x => popChain d c x .streamStopped) d))
    else opDone (setStream d c s { st with state := 0 }) c 2 op .none false

/-- CHN.ARM (R202, R208). -/
def execChnArm (c : CoreId) (o : DOp) (s : State) : Host.Outcome State Fault Refusal :=
  runCmd (.chnArm c o) (dIssue "CHN_ARM" c (.chnArm c o) o 0x10 chnArm false (chainFull c) (pushArm c)) s

/-- CHN.STRM (R216, R217). -/
def execChnStrm (c : CoreId) (o : DOp) (s : State) : Host.Outcome State Fault Refusal :=
  runCmd (.chnStrm c o) (dIssue "CHN_STRM" c (.chnStrm c o) o 0x11 chnStrm true (chainFull c) (pushStream c)) s

/-- CHN.REARM (R217, R218). -/
def execChnRearm (c : CoreId) (o : DOp) (s : State) : Host.Outcome State Fault Refusal :=
  runCmd (.chnRearm c o) (dIssue "CHN_REARM" c (.chnRearm c o) o 0x12 chnRearm true (chainFull c) (pushStream c)) s

/-- CHN.STOP (R217). -/
def execChnStop (c : CoreId) (o : DOp) (s : State) : Host.Outcome State Fault Refusal :=
  runCmd (.chnStop c o) (dIssue "CHN_STOP" c (.chnStop c o) o 0 chnStop true (chainFull c) (pushStream c)) s

/-- The checks of R203 on a chain or stream descriptor, in R197's precedence. -/
def checkChain (c : CoreId) (ws : List W64) : FaultCode :=
  let la : Addr := BitVec.ofNat 52 (wfld ws 1 51 0)
  firstFault [(decide (4096 < wfld ws 2 12 0), .badDescriptor), (misBy 64 la.toNat, .misaligned), (!inOwn c la 64, .spaceDenied)]

/-- The bases of a descriptor (R202). -/
def descBases (ws : List W64) : List Addr := (List.range 4).map fun i => BitVec.ofNat 52 (wfld ws (3 + i) 51 0)

/-- The engine takes the next chain or stream of its queue (R99, R203, R215, R217): a stream is captured in its slot; one that a check
refuses leaves its slot IDLE and ends the re-arms behind it (log 188, DESIGN CHOICE). -/
def chainStart (d : Dev) (c : CoreId) : Option Dev :=
  match (chainQ d c).find? fun x => decide (x.phase = 0) && (decide (x.op.opc = chnArm) || decide (x.op.opc = chnStrm)) with
  | none => none
  | some x =>
    match order1 d c x.op with
    | .error f => some ((match x.slot with
      | some s => fun d => slotNext (popChain (stopRearms d c s) c x f) c s true ((chainQ d c).length + 1)
      | none => fun d => popChain d c x f) d)
    | .ok op =>
      let ws := op.desc
      let wait := if wfld ws 0 12 12 = 1 then some (BitVec.ofNat 17 (wfld ws 0 29 13)) else none
      let f := firstFault [(decide (checkChain c ws ≠ .none), checkChain c ws), (true, waitRefusal d op wait)]
      let y : Chain := { x with op := op, list := BitVec.ofNat 52 (wfld ws 1 51 0), count := wfld ws 2 12 0, bases := descBases ws }
      match x.slot with
      | none => some (if f ≠ .none then popChain d c x f else chainBegin (setChain d c y) c y wait)
      | some s =>
        some (if f ≠ .none then slotNext (popChain (stopRearms d c s) c x f) c s true ((chainQ d c).length + 1)
          else
            let st := getStream d c s
            chainBegin (setChain (setStream d c s { st with list := y.list, count := y.count, bases := y.bases }) c y) c y wait)

/-- The bases after a re-arm (R218). -/
def rearmBases (ws : List W64) (old : List Addr) : List Addr :=
  (List.range 4).map fun i =>
    let b := old.getD i 0
    let v : Addr := BitVec.ofNat 52 (wfld ws (1 + i) 51 0)
    if Nat.testBit (wfld ws 0 15 12) i then v else if Nat.testBit (wfld ws 0 19 16) i then b + v else b

/-- The next queued re-arm of a slot begins its pass (R217, R218); one that a check refuses leaves the bases as they are,
and the re-arms behind it go on (log 189, DESIGN CHOICE). -/
def passStart (d : Dev) (c : CoreId) (s : Nat) : Option Dev :=
  match (chainQ d c).find? fun x => decide (x.slot = some s) with
  | none => none
  | some x =>
    if x.op.opc ≠ chnRearm ∨ x.phase ≠ 0 then none
    else match order1 d c x.op with
      | .error f => some (slotFreed (popChain d c x f) c s)
      | .ok op =>
        let ws := op.desc
        let wait := if wfld ws 0 20 20 = 1 then some (BitVec.ofNat 17 (wfld ws 0 37 21)) else none
        let f := firstFault [(decide (wfld ws 0 15 12 &&& wfld ws 0 19 16 ≠ 0), .badDescriptor), (true, waitRefusal d op wait)]
        if f ≠ .none then some (slotFreed (popChain d c x f) c s)
        else
          let st := getStream d c s
          let bases := rearmBases ws st.bases
          let y : Chain := { x with op := op, list := st.list, count := st.count, bases := bases }
          some (chainBegin (setChain (setStream d c s { st with bases := bases }) c y) c y wait)

/-- The units of a core take new work: it is not fenced, not stopping and not saving or restoring (R464). -/
def unitsRun (d : Dev) (c : CoreId) : Bool :=
  let k := getCore d c
  !k.fenced && !k.stopping && decide (k.sched < 2) && !stopped d c.die

/-- STREAM_PASS_START (R217, R218). -/
def execStreamPassStart (c : CoreId) (slot : Nat) (s : State) : Host.Outcome State Fault Refusal :=
  runCmd (.streamPassStart c slot) (fun d =>
    orNot "STREAM_PASS_START" (if unitsRun d c then passStart d c slot else none)) s

/-- CHAIN_WAIT_END (R215): the wait of a queue entry has its outcome. -/
def execChainWaitEnd (c : CoreId) (pos : Nat) (s : State) : Host.Outcome State Fault Refusal :=
  runCmd (.chainWaitEnd c pos) (fun d =>
    orNot "CHAIN_WAIT_END" (match (chainQ d c)[pos]? with
      | none => none
      | some x =>
        if x.phase ≠ 1 then none
        else match takeWake d (.unit (.chain c) x.op.serial) with
          | none => none
          | some (o, d) => some (if o = 0 then chainRun d c x else endChain d c x .operandFault))) s

/-! ### Entries (R204 to R206) -/

/-- A 16-bit or 32-bit field of an entry by byte offset. -/
def entFld (e : List W64) (off bytes : Nat) : Nat :=
  (e.getD (off / 8) 0).toNat / 2 ^ (8 * (off % 8)) % 2 ^ (8 * bytes)

/-- MODE of an entry. -/
def entMode (e : List W64) : Nat := wfld e 0 56 55

/-- ELEM in bytes. -/
def entElem (e : List W64) : Nat := 2 ^ wfld e 0 59 57

/-- Byte offset of dimension n's fields, n from 1. -/
def dimOff (n : Nat) : Nat := 0x18 + 12 * (n - 1)

/-- Count of dimension n. -/
def entC (e : List W64) (n : Nat) : Nat := if n = 0 then wfld e 2 15 0 else entFld e (dimOff n) 2

/-- Limit of dimension n. -/
def entL (e : List W64) (n : Nat) : Nat := if n = 0 then wfld e 2 31 16 else entFld e (dimOff n + 2) 2

/-- Source stride of dimension n. -/
def entS (e : List W64) (n : Nat) : Int := sxt 32 (entFld e (dimOff n + 4) 4)

/-- Destination stride of dimension n. -/
def entT (e : List W64) (n : Nat) : Int := sxt 32 (entFld e (dimOff n + 8) 4)

/-- IDX_OFF. -/
def entIdx (e : List W64) : Nat := wfld e 2 52 32

/-- ARRIVE_STAKE. -/
def entStake (e : List W64) : StakeId := BitVec.ofNat 17 (entFld e 0x3C 4)

/-- A field plus its selected base, modulo 2^52 (R204). -/
def entAddr (e : List W64) (bases : List Addr) (n : Nat) : Addr :=
  let b := wfld e n 54 52
  BitVec.ofNat 52 (wfld e n 51 0) + (if b = 0 then 0 else bases.getD (b - 1) 0)

/-- The lowest byte and the length of a walk from an address, over counts n0 to n3 with strides; none where it names nothing. -/
def span (a : Addr) (size : Nat) (ns : List Nat) (st : Nat → Int) : Option (Int × Nat) :=
  if ns.any fun n => decide (n = 0) then none
  else
    let ext (n : Nat) : Int := ((ns.getD n 1 : Nat) - 1 : Int) * st n
    let lo : Int := (a.toNat : Int) + min 0 (ext 1) + min 0 (ext 2) + min 0 (ext 3)
    let hi : Int := (a.toNat : Int) + max 0 (ext 1) + max 0 (ext 2) + max 0 (ext 3) + ((ns.getD 0 1 * size : Nat) : Int)
    some (lo, (hi - lo).toNat)

/-- A walk leaves one region of one space (R21). -/
def spanAbsent (d : Dev) (x : Option (Int × Nat)) : Bool :=
  match x with
  | none => false
  | some (lo, n) => decide (lo < 0) || decide ((2 ^ 52 : Int) < lo + n) || !inRegion d (BitVec.ofNat 52 lo.toNat) n

/-- An address moved by a signed offset, modulo 2^52. -/
def addrAdd (a : Addr) (i : Int) : Addr := BitVec.ofInt 52 ((a.toNat : Int) + i)

/-- The indices i1, i2, i3 of a run. -/
def runIdx (e : List W64) (r : Nat) : Nat × Nat × Nat :=
  let c1 := max 1 (entC e 1)
  let c2 := max 1 (entC e 2)
  (r % c1, r / c1 % c2, r / c1 / c2)

/-- The destination of a run. -/
def runDst (e : List W64) (bases : List Addr) (r : Nat) : Addr :=
  let i := runIdx e r
  addrAdd (entAddr e bases 1) (i.2.2 * entT e 3 + i.2.1 * entT e 2 + i.1 * entT e 1)

/-- Runs of an entry; none where a count is zero (R205). -/
def entRuns (e : List W64) : Nat := if entC e 0 = 0 then 0 else entC e 1 * entC e 2 * entC e 3

/-- The checks of R206, in their order, with the stake check of R54. -/
def checkEntry (d : Dev) (e : List W64) (bases : List Addr) (parcel : Nat) : FaultCode :=
  let mode := entMode e
  let src := decide (mode ≠ 2)
  let dst := decide (mode ≠ 3)
  let sz := entElem e
  let sa := entAddr e bases 0
  let da := entAddr e bases 1
  let off (i : Int) : Bool := decide (i % (sz : Int) ≠ 0)
  let fetched := (List.range 4).map fun n => min (entC e n) (entL e n)
  let full := (List.range 4).map (entC e)
  let some' := decide (0 < entRuns e)
  let bad := decide (4 < wfld e 0 54 52) || decide (4 < wfld e 1 54 52) || decide (4 < wfld e 0 59 57)
  let mis := (src && (off sa.toNat || off (entS e 1) || off (entS e 2) || off (entS e 3))) ||
    (dst && (off da.toNat || off (entT e 1) || off (entT e 2) || off (entT e 3))) || (decide (mode = 1) && misBy 4 (entIdx e))
  let absent := (src && decide (mode ≠ 1) && spanAbsent d (span sa sz (if mode = 3 then full else fetched) (entS e))) ||
    (dst && spanAbsent d (span da sz fetched (entT e)))
  let ro := dst && !d.readonly.isEmpty &&
    (List.range (entRuns e)).any fun r => isReadonly d (runDst e bases r) (entC e 0 * sz)
  let denied := (some' && ((src && decide (spaceOf sa = 3)) || (dst && decide (spaceOf da = 3)) || ro)) ||
    (decide (mode = 1) && !inOwnOff (entIdx e) (4 * max 1 (entC e 1)))
  let f := firstFault [(bad, .badDescriptor), (mis, .misaligned), (absent, .addressAbsent), (denied, .spaceDenied)]
  if f ≠ .none then f
  else if wfld e 1 57 57 = 1 then stakeCheck d (entStake e) (some parcel) else .none

/-- An entry of a chain faults (R207): the chain starts no further entry; the record of kind 66 and CHN_FAULT take its first fault, also where a
fence has stopped the chain before (log 190). -/
def entryFault (d : Dev) (c : CoreId) (x : Chain) (idx : Nat) (f : FaultCode) : Dev :=
  if x.fault ≠ .none ∧ x.fault ≠ .coreFenced then d
  else
    let d := logErr d c.die ⟨coreSrc c, 66, f, .info, 0, [idx, x.slot.getD 0xFF]⟩
    let d := if rfld d .chnFault c.die c.core 0 0 0 = 1 then d
      else regSet d .chnFault c.die c.core 0
        (BitVec.ofNat 64 (1 + 2 * b2n x.slot.isSome + 4 * x.slot.getD 0 + 2 ^ 8 * idx))
    setChain d c { x with fault := f }

/-- The entries of a chain in flight. -/
def chainFlights (d : Dev) (c : CoreId) (serial : Nat) : Nat :=
  ((getCore d c).w.flights.filter fun x => decide (x.chain = serial)).length

/-- Ends a chain whose last entry has completed, or that has faulted and has nothing in flight (R207, R211). -/
def chainCheck (d : Dev) (c : CoreId) (serial : Nat) : Dev :=
  match (chainQ d c).find? fun x => decide (x.op.serial = serial) with
  | none => d
  | some x =>
    if x.phase = 2 ∧ chainFlights d c serial = 0 ∧ (x.fault ≠ .none ∨ x.finished = x.count) then endChain d c x x.fault else d

/-- Entry idx of a list in the core store: SPACE_DENIED beyond the store, POISONED (R384), or its words. -/
def readEntry (d : Dev) (c : CoreId) (list : Addr) (idx : Nat) : Except FaultCode (List W64) :=
  match ownStore c (list + BitVec.ofNat 52 (64 * idx)) 64 with
  | none => .error .spaceDenied
  | some off => if storePoisoned d c off 64 then .error .poisoned else .ok (storeWords d c off 8)

/-- The next entry of a chain is ready (R208). -/
def entryReady (d : Dev) (c : CoreId) (x : Chain) : Bool :=
  decide (x.phase = 2) && decide (x.fault = .none) && decide (x.entered < x.count) &&
    match readEntry d c x.list x.entered with
    | .ok e => decide (wfld e 1 56 56 = 0) || decide (x.finished = x.entered)
    | .error _ => true

/-- A transfer slot is free (R209). -/
def xferFree (d : Dev) (c : CoreId) : Bool := decide ((getCore d c).w.flights.length < 6)

/-- A unit's wait is over without a fault. -/
def woken (d : Dev) (w : Waiter) : Bool := d.wakes.any fun x => decide (x.w = w) && decide (x.outcome = 0)

/-- An internal transfer of a core waits for a transfer slot (R229): a ledger fetch (R242, R247), a ledger publish (R243), a transfer of a K
split (R250), or a page fetch of an attention operation (R327). -/
def transferWaits (d : Dev) (c : CoreId) : Bool :=
  (List.range 4).any fun u =>
    let x := tget none ((getCore d c).w.cubes.map fun p => (p.1, some p.2)) u
    (x.map fun x =>
      (x.run.toList.any fun o =>
        (decide (o.phase = .prologue) && o.correct && !o.fetched && woken d (.unit (.cube c u) o.op.serial)) ||
          (decide (o.phase = .drain) && o.sidePart) || (decide (o.phase = .ksplit) && woken d (.post c u o.op.serial)) ||
          o.fetches d) ||
        (x.post.any fun o => decide (o.phase = .publish) || (decide (o.phase = .route) && woken d (.post c u o.op.serial)))).getD false

/-- The first run from r on that fetches anything: within the limits of R205, or every run of a release; past the last run where there is
none. -/
def fetchRun (e : List W64) (r : Nat) : Nat :=
  let lim (n : Nat) : Nat := if entMode e = 2 then 0 else if entMode e = 3 then entC e n else min (entC e n) (entL e n)
  let i := runIdx e r
  let plane := lim 1 * lim 2
  let rank := if lim 3 ≤ i.2.2 then lim 3 * plane
    else i.2.2 * plane + (if lim 2 ≤ i.2.1 then plane else i.2.1 * lim 1 + min (lim 1) i.1)
  if lim 0 = 0 ∨ entRuns e ≤ r ∨ lim 3 * plane ≤ rank then entRuns e
  else (rank / plane * entC e 2 + rank / lim 1 % lim 2) * entC e 1 + rank % lim 1

/-- CHAIN_ENTRY_ADMIT (R206, R209): the ready entry of the earliest chain enters flight, or faults; a waiting internal transfer goes first
(R229). -/
def execChainEntryAdmit (c : CoreId) (s : State) : Host.Outcome State Fault Refusal :=
  runCmd (.chainEntryAdmit c) (fun d =>
    let w := (getCore d c).w
    if !unitsRun d c || !xferFree d c || transferWaits d c then .refused (.notEnabled "CHAIN_ENTRY_ADMIT")
    else orNot "CHAIN_ENTRY_ADMIT" (match w.chain.find? (entryReady d c) with
      | none => none
      | some x =>
        match readEntry d c x.list x.entered with
        | .error f => some (chainCheck (entryFault d c x x.entered f) c x.op.serial)
        | .ok e =>
          let f := checkEntry d e x.bases x.op.parcel
          if f ≠ .none then some (chainCheck (entryFault d c x x.entered f) c x.op.serial)
          else
            let d := setChain d c { x with entered := x.entered + 1 }
            some (modWork d c fun w => { w with
              flights := w.flights ++ [⟨x.op.serial, x.entered, e, x.bases, fetchRun e 0, 0, none, 0, 0, [], .none⟩] }))) s

/-! ### The walk (R205, R210) -/

/-- Bytes of a run. -/
def runBytes (e : List W64) : Nat := entC e 0 * entElem e

/-- Bytes of a run that are fetched, where the run is within the limits of the other dimensions; a release names every byte (R205). -/
def runLim (e : List W64) : Nat := (if entMode e = 3 then entC e 0 else min (entC e 0) (entL e 0)) * entElem e

/-- A flight reads no more: every run has been read, or its entry has faulted. -/
def Flight.readOver (x : Flight) : Bool := decide (entRuns x.e ≤ x.run) || decide (x.fault ≠ .none)

/-- The walk of a flight is over: its last line is written, or for a release its last line is released (R211). -/
def Flight.over (x : Flight) : Bool :=
  decide (x.fault = .none) && decide (entRuns x.e ≤ x.run) && (decide (entMode x.e = 3) || decide (entRuns x.e ≤ x.wrun))

/-- The index of the gathered run that a flight reads, taken once for the run (R205), or POISONED (R384); 0 in other modes. -/
def Flight.index (x : Flight) (d : Dev) (c : CoreId) : Except FaultCode Nat :=
  if entMode x.e ≠ 1 then .ok 0
  else match x.x with
    | some v => .ok v
    | none =>
      let off := entIdx x.e + 4 * (runIdx x.e x.run).1
      if storePoisoned d c off 4 then .error .poisoned else .ok (storeNat d c off 4)

/-- The source of the run that a flight reads, for its index: none for a gathered row of zeros; ADDRESS_ABSENT for a gathered row that leaves its
region or lies in register space (R206). -/
def Flight.src (x : Flight) (d : Dev) (v : Nat) : Except FaultCode (Option Addr) :=
  let e := x.e
  let i := runIdx e x.run
  let row (x1 : Nat) : Addr := addrAdd (entAddr e x.bases 0) (i.2.2 * entS e 3 + i.2.1 * entS e 2 + x1 * entS e 1)
  if entMode e ≠ 1 then .ok (some (row i.1))
  else if v = 0xFFFFFFFF then .ok none
  else if spaceOf (row v) = 3 ∨ !inRegion d (row v) (runLim e) then .error .addressAbsent
  else .ok (some (row v))

/-- Bytes to the end of the line that an address lies in. -/
def lineLeft (a : Addr) : Nat := 64 - a.toNat % 64

/-- The next line request of a flight's reads (R210): the address, where there is one, and the bytes of the run within its line. -/
def Flight.readPiece (x : Flight) (src : Option Addr) : Option Addr × Nat :=
  let left := runLim x.e - x.byte
  match src with
  | some a =>
    let s := a + BitVec.ofNat 52 x.byte
    (some s, min left (lineLeft s))
  | none => (none, left)

/-- A flight past n bytes of the run that it reads, for which it took index v. -/
def Flight.readOn (x : Flight) (v : Option Nat) (n : Nat) : Flight :=
  if x.byte + n < runLim x.e then { x with byte := x.byte + n, x := v } else { x with run := fetchRun x.e (x.run + 1), byte := 0, x := none }

/-- The next line of a flight's writes (R205, R210), once its bytes have been read: the address, the bytes that were fetched, and the zero
bytes after them. -/
def Flight.writePiece (x : Flight) : Option (Addr × Nat × Nat) :=
  let e := x.e
  let dst := runDst e x.bases x.wrun + BitVec.ofNat 52 x.wbyte
  let n := min (runBytes e - x.wbyte) (lineLeft dst)
  let k := if fetchRun e x.wrun = x.wrun then min n (runLim e - x.wbyte) else 0
  if entMode e = 3 ∨ entRuns e ≤ x.wrun then none
  else if x.wrun < x.run ∨ (x.wrun = x.run ∧ x.wbyte + k ≤ x.byte) then some (dst, k, n - k)
  else none

/-- A flight past a line of its writes. -/
def Flight.wroteOn (x : Flight) (k n : Nat) : Flight :=
  let y := { x with buf := x.buf.drop k }
  if x.wbyte + n < runBytes x.e then { y with wbyte := x.wbyte + n } else { y with wrun := x.wrun + 1, wbyte := 0 }

/-- Lines of a flight that are formed and wait to be written, up to a limit. -/
def Flight.linesWr (x : Flight) : Nat → Nat
  | 0 => 0
  | n + 1 =>
    match x.writePiece with
    | none => 0
    | some p => 1 + (x.wroteOn p.2.1 (p.2.1 + p.2.2)).linesWr n

/-- Line requests of a flight's reads still to be served, up to a limit; those of a run whose index has not been read count as one. -/
def Flight.linesRd (x : Flight) (d : Dev) (c : CoreId) : Nat → Nat
  | 0 => 0
  | n + 1 =>
    if x.readOver then 0
    else match x.index d c with
      | .error _ => 0
      | .ok v =>
        match x.src d v with
        | .error _ => 0
        | .ok s =>
          let p := x.readPiece s
          (if p.1.isSome then 1 else 0) + (x.readOn (some v) p.2).linesRd d c n

/-- Line reads of a core that are outstanding: those of its entries in flight, oldest first, up to 128 (R210, R220). -/
def linesRd (d : Dev) (c : CoreId) (fl : List Flight) : Nat := min 128 ((fl.map fun x => x.linesRd d c 128).sum)

/-- Line writes of a core that are outstanding, up to 64 (R210, R220). -/
def linesWr (fl : List Flight) : Nat := min 64 ((fl.map fun x => x.linesWr 64).sum)

/-- Counts whole KiB of bytes moved (R221). -/
def countKib (d : Dev) (c : CoreId) (rd wr : Nat) : Dev :=
  let k := getCore d c
  let r := k.rdBytes + rd
  let w := k.wrBytes + wr
  let d := modCore d c fun k => { k with rdBytes := r % 1024, wrBytes := w % 1024 }
  rcount (rcount d .chnBytes c.die c.core 0 31 0 (r / 1024)) .chnBytes c.die c.core 0 63 32 (w / 1024)

/-- Releases the hold on the line of an address (R214); like any request it is refused in a retired frame (R386). -/
def releaseLine (d : Dev) (a : Addr) : Dev × Except FaultCode Unit :=
  match resolve d a with
  | some p =>
    if retired d a p then (countRefused d p, .error .pageRetired)
    else match p with
      | .hbm die ch ca => (releaseLines d fun k => decide (k = lineKey (hbmKey die ch ca)), .ok ())
      | _ => (d, .ok ())
  | none => (d, .ok ())

/-- A read line request of a flight is served: its bytes, zeros where it has no address; a release gives none. -/
def serveRead (d : Dev) (c : CoreId) (x : Flight) (p : Option Addr × Nat) : Dev × Except FaultCode (List Byte) :=
  let hold := decide (wfld x.e 1 55 55 = 1)
  match p.1 with
  | none => (d, .ok (List.replicate p.2 0))
  | some a =>
    if entMode x.e = 3 then
      (match releaseLine d a with
       | (d, .ok ()) => (d, .ok [])
       | (d, .error f) => (d, .error f))
    else match holdRead d c a p.2 hold with
      | (d, .ok bs) => (countKib d c p.2 0, .ok bs)
      | y => y

/-- A write line request of a flight is served. -/
def serveWrite (d : Dev) (c : CoreId) (x : Flight) (p : Addr × Nat × Nat) : Dev × Except FaultCode Unit :=
  let bs := x.buf.take p.2.1 ++ List.replicate p.2.2 0
  if isReadonly d p.1 bs.length then (d, .error .spaceDenied)
  else match devWrite d p.1 bs with
    | (d, .error f) => (d, .error f)
    | (d, .ok ()) => (countKib d c 0 bs.length, .ok ())

/-- Replaces flight number pos. -/
def setFlight (d : Dev) (c : CoreId) (pos : Nat) (x : Flight) : Dev :=
  modWork d c fun w => { w with flights := w.flights.set pos x }

/-- The chain of a flight takes a fault of its entry (R207). -/
def chainFaults (d : Dev) (c : CoreId) (x : Flight) (f : FaultCode) : Dev :=
  match (chainQ d c).find? fun y => decide (y.op.serial = x.chain) with
  | some y => entryFault d c y x.idx f
  | none => d

/-- A flight leaves its slot after a fault, and its chain may end (R207). -/
def flightGone (d : Dev) (c : CoreId) (pos : Nat) (x : Flight) : Dev :=
  chainCheck (modWork d c fun w => { w with flights := w.flights.eraseIdx pos }) c x.chain

/-- The state of flight number pos after a request: one that has faulted leaves once the lines it had formed are written. -/
def settleFlight (d : Dev) (c : CoreId) (pos : Nat) (x : Flight) : Dev :=
  if x.fault ≠ .none ∧ x.writePiece.isNone then flightGone d c pos x else setFlight d c pos x

/-- A read of flight number pos faults its entry (R207): it reads no more. -/
def readFault (d : Dev) (c : CoreId) (pos : Nat) (x : Flight) (f : FaultCode) : Dev :=
  settleFlight (chainFaults d c x f) c pos { x with fault := f }

/-- Whether the slice that an event names serves an address, with no wait for a link (R410) or a reconfiguration (R370); the request of a piece
without an address, or to a core store, passes no slice. -/
def servedAt (d : Dev) (die slice x : Nat) (a : Option Addr) : Bool :=
  match a with
  | none => true
  | some a => (((sliceOf d a).map fun p => decide (p = (die, slice))).getD true) && !((resolve d a).map (reachBusy d x)).getD false

/-- The write of flight number pos that its slice serves next: a formed line, with fewer than 64 lines of older entries before it (R210). -/
def chainWrite (d : Dev) (die slice : Nat) (c : CoreId) (pos : Nat) (x : Flight) : Option Dev :=
  let k := getCore d c
  match x.writePiece with
  | none => none
  | some p =>
    if !servedAt d die slice c.die (some p.1) || decide (64 ≤ linesWr (k.w.flights.take pos)) then none
    else match serveWrite d c x p with
      | (d, .error f) => some (flightGone (chainFaults d c x f) c pos x)
      | (d, .ok ()) => some (settleFlight d c pos (x.wroteOn p.2.1 (p.2.1 + p.2.2)))

/-- The read of flight number pos that its slice serves next (R210): fewer than 128 line reads of older entries stand before it, fewer than 64
of its own lines wait to be written, and the core does not stop (R464). -/
def chainRead (d : Dev) (die slice : Nat) (c : CoreId) (pos : Nat) (x : Flight) : Option Dev :=
  let k := getCore d c
  if x.readOver || k.stopping || decide (128 ≤ linesRd d c (k.w.flights.take pos)) || decide (64 ≤ x.linesWr 64) then none
  else match x.index d c with
    | .error f => some (readFault d c pos x f)
    | .ok v =>
      match x.src d v with
      | .error f => some (readFault d c pos x f)
      | .ok s =>
        let p := x.readPiece s
        if !servedAt d die slice c.die p.1 then none
        else match serveRead d c x p with
          | (d, .error f) => some (readFault d c pos x f)
          | (d, .ok bs) =>
            let y := x.readOn (some v) p.2
            some (setFlight d c pos { y with buf := x.buf ++ bs })

/-- The next line request of the entry in flight number pos that reaches a slice (R205, R210): a line to write before one to read. Nothing moves
while the core's image is written or read (R464). -/
def chainLine (d : Dev) (die slice : Nat) (c : CoreId) (pos : Nat) : Option Dev :=
  match (getCore d c).w.flights[pos]? with
  | none => none
  | some x =>
    if 2 ≤ (getCore d c).sched then none
    else match chainWrite d die slice c pos x with
      | some d => some d
      | none => chainRead d die slice c pos x

/-- A flight has come to a line boundary with no line outstanding (R464). -/
def Flight.stopped (x : Flight) : Bool := x.buf.isEmpty || (decide (x.wrun = x.run) && x.writePiece.isNone)

/-- A flight at its last line boundary (R464): the bytes read of the line it was forming are read again. -/
def Flight.atLine (x : Flight) : Flight := if x.wrun = x.run then { x with byte := x.wbyte, buf := [] } else x

/-- A request of a class to one line of a slice (R374). -/
def sliceAccess (d : Dev) (die slice : Nat) (a : Addr) (f : Dev → Dev) : Option Dev :=
  if sliceOf d a = some (die, slice) ∧ ((resolve d a).map (placeBusy d)).getD false = false then some (f d) else none

/-- SLICE_REQUEST (R365 to R374): the next line of a chain entry, a read or write of another requester, a word that the slice finds in
error as it serves a line (R377, R381), or the cycles that a request has waited for an entry. -/
def execSliceRequest (die slice : Nat) (q : SliceReq) (s : State) : Host.Outcome State Fault Refusal :=
  runCmd (.sliceRequest die slice q) (fun d =>
    orNot "SLICE_REQUEST" (match q with
      | .chainLine c pos => if c.wf && decide (c.die < d.part.dies) then chainLine d die slice c pos else none
      | .read _ a hold => sliceAccess d die slice a fun d => (devRead d a (lineLeft a) hold).1
      | .write _ a bytes => if bytes.length ≤ lineLeft a then sliceAccess d die slice a fun d => (devWrite d a bytes).1 else none
      | .word a bit => if (bit.map fun b => decide (b < 72)).getD true then sliceWord d die slice a bit else none
      | .stalled _ cycles => some (rcount d .resSliceStat die 0 slice 31 0 cycles))) s

/-- CHAIN_ENTRY_COMPLETE (R211): an entry whose walk is over leaves its slot and arrives, and its chain completes with its last entry. -/
def execChainEntryComplete (c : CoreId) (pos : Nat) (s : State) : Host.Outcome State Fault Refusal :=
  runCmd (.chainEntryComplete c pos) (fun d =>
    orNot "CHAIN_ENTRY_COMPLETE" (match (getCore d c).w.flights[pos]? with
      | none => none
      | some x =>
        if !x.over || decide (2 ≤ (getCore d c).sched) then none
        else
          let d := modWork d c fun w => { w with flights := w.flights.eraseIdx pos }
          match (chainQ d c).find? fun y => decide (y.op.serial = x.chain) with
          | none => some d
          | some y =>
            let d := if wfld x.e 1 57 57 = 1 then unitArrive d c (entStake x.e) 2 y.op.parcel 1 false else d
            some (chainCheck (setChain d c { y with finished := y.finished + 1 }) c x.chain))) s

end Sys2Proof.Machine
end

