-- ==== Sys2Proof/Machine/CubeFlow.lean ====
section
/-!
DEFINITION. How an operation comes to run on a cube: the CUBE instructions (R107, R138), the head's checks and wait (R197, R680), the tile claim
(R78, R79), the zero shape (R199, R200, R249), the relay's pairing (R240), and the start of its work.
-/

namespace Sys2Proof.Machine

/-! ### Issue -/

/-- A cube's queue is full (R27). -/
def cubeFull (c : CoreId) (o : DOp) (d : Dev) : Bool := decide (4 ≤ (getCube d c o.unit.toNat).queue.length)

/-- An operation enters a cube's queue. -/
def pushCube (c : CoreId) (o : DOp) (d : Dev) (op : Op) : Dev := modCube d c o.unit.toNat fun x => { x with queue := x.queue ++ [op] }

/-- CUBE.MMA (R168). -/
def execCubeMma (c : CoreId) (o : DOp) (s : State) : Host.Outcome State Fault Refusal :=
  runCmd (.cubeMma c o) (dIssue "CUBE_MMA" c (.cubeMma c o) o 1 0 false (cubeFull c o) (pushCube c o)) s

/-- CUBE.CONV (R285). -/
def execCubeConv (c : CoreId) (o : DOp) (s : State) : Host.Outcome State Fault Refusal :=
  runCmd (.cubeConv c o) (dIssue "CUBE_CONV" c (.cubeConv c o) o 2 1 false (cubeFull c o) (pushCube c o)) s

/-- CUBE.ATTN (R311). -/
def execCubeAttn (c : CoreId) (o : DOp) (s : State) : Host.Outcome State Fault Refusal :=
  runCmd (.cubeAttn c o) (dIssue "CUBE_ATTN" c (.cubeAttn c o) o 3 2 false (cubeFull c o) (pushCube c o)) s

/-- CUBE.POOL (R297). -/
def execCubePool (c : CoreId) (o : DOp) (s : State) : Host.Outcome State Fault Refusal :=
  runCmd (.cubePool c o) (dIssue "CUBE_POOL" c (.cubePool c o) o 4 3 false (cubeFull c o) (pushCube c o)) s

/-- CUBE.RSMP (R300). -/
def execCubeRsmp (c : CoreId) (o : DOp) (s : State) : Host.Outcome State Fault Refusal :=
  runCmd (.cubeRsmp c o) (dIssue "CUBE_RSMP" c (.cubeRsmp c o) o 5 4 false (cubeFull c o) (pushCube c o)) s

/-- CUBE.ACLR (R107, R138): queued like the rest; it names no descriptor. -/
def execCubeAclr (c : CoreId) (o : DOp) (s : State) : Host.Outcome State Fault Refusal :=
  runCmd (.cubeAclr c o) (dIssue "CUBE_ACLR" c (.cubeAclr c o) o 0 8 false (cubeFull c o) (pushCube c o)) s

/-! ### The relay's pairing (R239, R240) -/

/-- A queued operation's block of a hook, where its descriptor lies in the own core store: word 0 of the prologue or epilogue block. -/
def peekHook (d : Dev) (c : CoreId) (op : Op) (epi : Bool) : W64 :=
  let k := match op.kind with
    | 1 => some (if epi then 12 else 11)
    | 2 => some (if epi then 13 else 12)
    | _ => none
  match ownStore c op.da 128, k with
  | some off, some k =>
    let w := BitVec.ofNat 64 (storeNat d c (off + 8 * k) 8)
    if hookEn w && inOwnOff (hookBlock w) 64 then BitVec.ofNat 64 (storeNat d c (hookBlock w) 8) else 0
  | _, _ => 0

/-- The operations that a cube has taken and not ended. -/
def Cube.taken (x : Cube) : List RunOp := (x.post ++ x.run.toList ++ x.head.toList).filter fun o => decide (o.phase ≠ .done)

/-- The numbers of the RELAY_OUT operations of this program. -/
def relayOuts (d : Dev) (c : CoreId) : List Nat :=
  ((getCore d c).w.relays.map Prod.fst) ++ (List.range 4).flatMap fun u =>
    let x := getCube d c u
    ((x.taken.filter RunOp.relayOut).map fun o => o.op.serial) ++
      ((x.queue.filter fun op => (peekHook d c op true).getLsbD 9).map Op.serial)

/-- The producer of a RELAY_IN operation: the last RELAY_OUT issued before it. -/
def relayPair (d : Dev) (c : CoreId) (serial : Nat) : Option Nat :=
  ((relayOuts d c).filter fun s => decide (s < serial)).foldl (fun m s => some (max s (m.getD 0))) none

/-- The numbers of the RELAY_IN operations that have not completed. -/
def relayIns (d : Dev) (c : CoreId) : List Nat :=
  (List.range 4).flatMap fun u =>
    let x := getCube d c u
    ((x.taken.filter RunOp.relayIn).map fun o => o.op.serial) ++
      ((x.queue.filter fun op => (peekHook d c op false).getLsbD 2).map Op.serial)

/-- How a relay block stands for a consumer: ready, still to come, or never (R240, R241). -/
inductive RelaySt where
  | ready | later | never
deriving DecidableEq, Repr

/-- Block mb of the producer of a consumer: its bit counts once that producer or a later one has set the mask, or that producer has completed
(log 54). -/
def relayBlock (d : Dev) (c : CoreId) (serial mb : Nat) : RelaySt :=
  match relayPair d c serial with
  | none => .never
  | some p =>
    let w := (getCore d c).w
    let own := decide (p ≤ w.relayOwner) || w.relays.any fun r => decide (r.1 = p) && r.2
    if own && w.relayReady.getLsbD mb then .ready else if w.relays.any fun r => decide (r.1 = p) && !r.2 then .never else .later

/-! ### Claim and zero shape -/

/-- The tile claim (R78, R79): whether it succeeds, or the code of its access. -/
def claimTile (d : Dev) (c : CoreId) (o : RunOp) : Dev × Except FaultCode Bool :=
  let a := o.claim.1
  if a = 0 then (d, .ok true)
  else match devReadAll d a 8 with
    | (d, .error f) => (d, .error f)
    | (d, .ok bs) =>
      let w := leNat bs
      if nfld w 31 0 = o.claim.2 then (rcount d .stkDupClaims c.die 0 0 31 0 1, .ok false)
      else
        let v := o.claim.2 + 2 ^ 32 * (144 * c.die + c.core) + 2 ^ 43 * (w / 2 ^ 43)
        match devWriteAll d a (leBytes 8 v) with
        | (d, .error f) => (d, .error f)
        | (d, .ok ()) => (d, .ok true)

/-- The identity of a reduction code of R234 (R155, R249). -/
def redIdentity (red : Nat) : W32 := if red = 3 then 0xFF800000 else if red = 4 then 0x7F800000 else 0

/-- The address of a row's record in the ledger (R242). -/
def ledgerAddr (base : Addr) (row parts slot : Nat) : Addr := base + BitVec.ofNat 52 ((row * parts + slot) * 8)

/-- Writes a record of the ledger (R242). -/
def putLedger (d : Dev) (a : Addr) (x y : W32) : Dev × Except FaultCode Unit :=
  devWriteAll d a (leBytes 4 x.toNat ++ leBytes 4 y.toNat)

/-- Arrives at a ledger or K-split stake on behalf of a cube (R243, R249, R250). -/
def cubeArrive (d : Dev) (c : CoreId) (o : RunOp) (id : Nat) (faulted : Bool) : Dev :=
  unitArrive d c (BitVec.ofNat 17 id) 1 o.op.parcel 1 faulted

/-- The ledger row of an output row (R242). -/
def RunOp.ledgerRow (o : RunOp) (i : Nat) : Addr :=
  ledgerAddr (BitVec.ofNat 52 (o.ef 1 51 0)) (o.ef 2 23 0 + i) (o.ef 0 34 28) (o.ef 0 40 35)

/-- A publishing operation that ends by a fault still arrives at LSTAKE, with FAULTED (R249), and a part of a K split other than part 0 at
KSTAKE (R250). -/
def faultArrivals (d : Dev) (c : CoreId) (o : RunOp) : Dev :=
  if o.sidePart then cubeArrive d c o (o.ef 6 16 0) true
  else if o.lkind ≠ 0 ∧ o.phase ≠ .route ∧ ¬o.second then cubeArrive d c o (o.ef 0 27 11) true
  else d

/-- The hooks' reduction outputs in a zero shape (R199, R249). -/
def zeroHooks (d : Dev) (c : CoreId) (o : RunOp) : Dev × FaultCode :=
  if !hookEn o.epiWord then (d, .none)
  else
    let rows := o.rows
    let cols := List.range o.e1
    let put (d : Dev) (red off : Nat) (l : List Nat) : Dev :=
      if red = 0 then d else l.foldl (fun d i => putWords d c (off + 4 * i) [redIdentity red]) d
    let d := put d (o.ef 0 2 0) (o.ef 3 20 0) rows
    let d := put d (o.ef 0 5 3) (o.ef 3 52 32) cols
    let d := if o.relayOut then modWork d c fun w => { w with relayReady := BitVec.allOnes 64, relayOwner := o.op.serial } else d
    if o.lkind = 0 then (d, .none)
    else
      let soft := decide (o.lkind = 3)
      let d := if o.stakeRoute then d
        else rows.foldl (fun d i => putWords d c (o.ef 4 20 0 + 4 * i) [if soft then 0xFF800000 else 0x3F800000]) d
      let r := rows.foldl (fun (r : Dev × FaultCode) i =>
        if r.2 ≠ .none then r
        else match putLedger r.1 (o.ledgerRow i) (if soft then 0xFF800000 else 0) 0 with
          | (d, .error f) => (d, f)
          | (d, .ok ()) => (d, .none)) (d, .none)
      (cubeArrive r.1 c o (o.ef 0 27 11) (decide (r.2 ≠ .none)), r.2)

/-- Drains the banks of an operation row by row in the direct form of R171, up to bank `lim` (R163). -/
def drainDirect (d : Dev) (c : CoreId) (u : Nat) (o : RunOp) (lim : Nat) : Dev :=
  let x := getCube d c u
  let pool := decide (o.op.kind = 4)
  o.rows.foldl (fun d i =>
    (List.range o.e1).foldl (fun d j =>
      let b := o.bankOf (i / 8) (j / 8)
      if lim ≤ b then d
      else
        let e := accGet x o.isInt b (i % 8) (j % 8)
        let v := if pool then o.poolResult i e.1 else drainValue d c o o.isInt false j e.1
        let r := drainConv d c o false j v
        let p := o.outAt c i j
        putCodes (countElem r.2 c r.1 e.2) c p.1 o.fmts.c p.2 [r.1.code]) d) d

/-- Writes rows of a part of a K split raw (R250), and counts the marked elements of each row written (R154); rows beyond the run-time extents are
left alone. -/
def ksplitPut (d : Dev) (c : CoreId) (o : RunOp) (p : Nat) (row : Nat → List W32) (marked : Nat → Nat) : Dev × FaultCode :=
  let base : Addr := BitVec.ofNat 52 (o.ef 5 51 0)
  o.rows.foldl (fun (r : Dev × FaultCode) i =>
    if r.2 ≠ .none then r
    else
      match devWriteAll r.1 (base + BitVec.ofNat 52 ((p * o.planM + i) * o.planN * 4)) ((row i).flatMap fun w => leBytes 4 w.toNat) with
      | (d, .error f) => (d, f)
      | (d, .ok ()) => (countOut d c (marked i) 0, .none)) (d, .none)

/-- The raw accumulators of output row i. -/
def rawRow (x : Cube) (o : RunOp) (i : Nat) : List W32 :=
  (List.range o.e1).map fun j => (accGet x o.isInt (o.bankOf (i / 8) (j / 8)) (i % 8) (j % 8)).1

/-- The marked elements of output row i, by column (R137). -/
def RunOp.markedRow (o : RunOp) (x : Cube) (i : Nat) : List Nat :=
  (List.range o.e1).filter fun j => (accGet x o.isInt (o.bankOf (i / 8) (j / 8)) (i % 8) (j % 8)).2

/-- The marked elements of an operation's output (R137). -/
def RunOp.markedIn (o : RunOp) (x : Cube) : List Nat := o.rows.flatMap fun i => (o.markedRow x i).map fun j => i * o.planN + j

/-- Writes the accumulators of a part of a K split raw (R250), and counts the marked ones (R137, R153). -/
def ksplitWrite (d : Dev) (c : CoreId) (u : Nat) (o : RunOp) (p : Nat) : Dev × FaultCode :=
  let x := getCube d c u
  ksplitPut d c o p (rawRow x o) fun i => (o.markedRow x i).length

/-- An uncorrectable accumulator word in a bank that was read is logged (R163). -/
def accLog (d : Dev) (c : CoreId) (u bank : Nat) : Dev := logErr d c.die ⟨coreSrc c, 18, .accUncorrected, .contained, 0, [u, bank]⟩

/-- The banks of an operation's output, row by row. -/
def RunOp.outBanks (o : RunOp) : List Nat := o.rows.flatMap fun i => (List.range (cdiv o.e1 8)).map fun nb => o.bankOf (i / 8) nb

/-- Reads banks (R163): their drain up to the first with an uncorrectable word, which ends it with ACC_UNCORRECTED. -/
def readThen (d : Dev) (c : CoreId) (u : Nat) (banks : List Nat) (drain : Dev → Nat → Dev × FaultCode) : Dev × FaultCode :=
  let r := readBanks d c u banks
  match r.2 with
  | some b => (accLog (drain r.1 b).1 c u b, .accUncorrected)
  | none => drain r.1 64

/-- A part of a K split other than part 0 with a zero shape (R199, R200, R250): it writes its area as R200 has the output written, +0 or with
CONT its banks as they stand, and arrives at KSTAKE. -/
def zeroPart (d : Dev) (c : CoreId) (u : Nat) (o : RunOp) : Dev × FaultCode :=
  let r := if o.op.kind = 1 then
      (if o.cont then
          readThen d c u ((List.range o.banks).map fun b => o.bankBase + b) fun d lim => if lim < 64 then (d, .none) else ksplitWrite d c u o (o.ksplit.getD 0)
       else ksplitPut d c o (o.ksplit.getD 0) (fun _ => List.replicate o.e1 0) fun _ => 0)
    else (d, .none)
  (cubeArrive r.1 c o (o.ef 6 16 0) (decide (r.2 ≠ .none)), r.2)

/-- The effect of a zero shape on C and the banks (R199, R200, R299). -/
def zeroBody (d : Dev) (c : CoreId) (u : Nat) (o : RunOp) : Dev × FaultCode :=
  match o.op.kind with
  | 1 =>
    if o.e0 = 0 ∨ o.e1 = 0 then (d, .none)
    else if o.cont then (if o.keep then (d, .none) else readThen d c u o.outBanks fun d lim => (drainDirect d c u o lim, .none))
    else if o.keep then
      (modCube d c u fun x => (List.range o.e0).foldl (fun x i => (List.range o.e1).foldl (fun x j =>
        accSet x (o.bankOf (i / 8) (j / 8)) (i % 8) (j % 8) (0, false)) x) x, .none)
    else
      (o.rows.foldl (fun d i => (List.range o.e1).foldl (fun d j =>
        let p := o.outAt c i j
        putCodes d c p.1 o.fmts.c p.2 [0]) d) d, .none)
  | 4 => (if o.poolMode = 4 then (List.range o.groups).foldl (fun d g => putRecord d c o g [0, 0, 0, 0]) d else d, .none)
  | _ => (d, .none)

/-! ### The start of the work -/

/-- All of its steps have committed: a KEEP operation ends (R165), part 0 of a K split waits on KSTAKE (R250), any other drains. -/
def afterSteps (d : Dev) (c : CoreId) (u : Nat) (o : RunOp) : Dev :=
  if o.keep then endRun d c u o .none false
  else if o.ksplit = some 0 then
    unitWait (setRun d c u { o with phase := .ksplit }) (.post c u o.op.serial) (BitVec.ofNat 17 (o.ef 6 16 0)) o.op.parcel o.op.serial
  else if o.op.kind = 5 ∨ (o.op.kind = 4 ∧ 4 ≤ o.poolMode) then endRun d c u o .none false
  else setRun d c u { o with phase := .drain }

/-- Moves past the convolution steps that PRUNE leaves out, and counts them (R295). -/
def skipPruned (d : Dev) (c : CoreId) (u : Nat) (o : RunOp) : Dev :=
  let n := o.stepCount
  let k := ((List.range (n - o.step)).takeWhile fun i => o.pruned (plumbOn d c) (o.step + i)).length
  let d := if k = 0 then d else cubeReg .cubeConvStat c u 31 0 k d
  let o := { o with step := o.step + k }
  if n ≤ o.step then afterSteps d c u o else setRun d c u o

/-- The banks of an operation that starts an accumulation (R138, R165, R298). -/
def startBanks (d : Dev) (c : CoreId) (u : Nat) (o : RunOp) : Dev :=
  if o.cont then d
  else
    let v : W32 := if o.op.kind = 4 then poolStart o.poolMode else if o.isInt then 0 else 0x80000000
    modCube d c u fun x => accFill x o.bankBase o.banks (some (v, false))

/-- A prologue begins (R227): the wait on LSTAKE where it corrects A (R248). -/
def prologueStart (d : Dev) (c : CoreId) (u : Nat) (o : RunOp) : Dev :=
  let d := setRun d c u { o with phase := .prologue }
  if o.correct then
    let d := rcount d .cubeHookStat c.die c.core 0 47 32 1
    unitWait d (.unit (.cube c u) o.op.serial) (BitVec.ofNat 17 (o.pf 0 21 5)) o.op.parcel o.op.serial
  else d

/-- A step of the running operation is ready: an attention operation's chunk is there, and the relay block that a matrix operation reads next
(R240, R327). -/
def stepReady (d : Dev) (c : CoreId) (o : RunOp) : Bool :=
  decide (o.phase = .steps) && (match o.op.kind with
    | 3 => o.attnStepReady d
    | 1 => !o.relayIn || o.copies || decide (relayBlock d c o.op.serial (o.coord o.step).row = .ready)
    | _ => true)

/-- The ramp begins where a step is ready (R174). -/
def rampGo (d : Dev) (c : CoreId) (u : Nat) : Dev :=
  if ((getCube d c u).run.map (stepReady d c)).getD false then rampReady d c u else d

/-- The ramps of a core's cubes begin where a relay block has made a step ready (R174, R176, R240). -/
def rampAll (d : Dev) (c : CoreId) : Dev := (List.range 4).foldl (fun d u => rampGo d c u) d

/-- The head's work begins (order 8 of R197): it takes the active scale-file bank (R338); a zero shape ends it with EMPTY. -/
def cubeStart (d : Dev) (c : CoreId) (u : Nat) (o : RunOp) : Dev :=
  let d := modCube d c u fun x => { x with head := none }
  let o := { o with bank := (getCore d c).w.scaleActive }
  if o.zero then
    let r := if o.sidePart then zeroPart d c u o
      else
        let b := zeroBody d c u o
        if b.2 ≠ .none then (faultArrivals b.1 c o, b.2) else zeroHooks b.1 c o
    let d := endRun r.1 c u o r.2 (decide (r.2 = .none))
    if o.relayOut then rampAll d c else d
  else if o.op.kind = 3 then attnStart d c u o
  else if o.op.kind = 5 then rampGo (setRun d c u { o with phase := .steps }) c u
  else if o.relayIn && (relayPair d c o.op.serial).isNone then endRun (faultArrivals d c o) c u o .operandFault false
  else
    let d := startBanks d c u o
    if o.copies then prologueStart d c u o
    else if o.op.kind = 2 then rampGo (skipPruned d c u { o with phase := .steps }) c u
    else rampGo (setRun d c u { o with phase := .steps }) c u

/-- Post-step entries of the unit wait table that a cube's operations hold (R66): those of the operations whose stake-route wait is to come
or not over. -/
def Cube.postWaits (x : Cube) : Nat := (x.post.filter fun o => o.stakeRoute && !o.second && decide (o.phase ≠ .done)).length

/-- Every operation that a cube has ended has released it (R680). -/
def Cube.released (x : Cube) : Bool := x.run.isNone && x.post.all fun o => !o.holds

/-- The operation at the head goes on as far as the one ahead lets it (R66, R228, R680). -/
def promote (d : Dev) (c : CoreId) (u : Nat) : Dev :=
  let x := getCube d c u
  match x.run, x.head with
  | none, some o =>
    if o.phase = .done then flushCube (modCube d c u fun x => { x with head := none, post := x.post ++ [o] }) c u
    else if o.phase = .passed ∧ x.released = true ∧ unitsRun d c = true ∧ (((o.stakeRoute = true ∧ o.sidePart = false) ∨ o.ksplit = some 0) → x.postWaits < 4) then cubeStart d c u o
    else d
  | _, _ => d

/-- The running operation ends, and the next may start. -/
def finishRun (d : Dev) (c : CoreId) (u : Nat) (o : RunOp) (f : FaultCode) : Dev := promote (endRun d c u o f false) c u

/-- The running operation ends by a fault, with the arrivals that R249 and R250 keep. -/
def failRun (d : Dev) (c : CoreId) (u : Nat) (o : RunOp) (f : FaultCode) : Dev := finishRun (faultArrivals d c o) c u o f

/-- The head ends by a fault. -/
def failHead (d : Dev) (c : CoreId) (u : Nat) (o : RunOp) (f : FaultCode) : Dev := endHead (faultArrivals d c o) c u o f false

/-- Orders 4 to 7 of R197 for a cube operation whose wait is over. -/
def headGo (d : Dev) (c : CoreId) (u : Nat) (o : RunOp) : Dev :=
  match readShape d c o with
  | .error f => failHead d c u o f
  | .ok o =>
    if o.guarded then failHead d c u o .shapeGuard
    else match claimTile d c o with
      | (d, .error f) => failHead d c u o f
      | (d, .ok false) => endHead d c u o .alreadyClaimed false
      | (d, .ok true) => promote (modCube d c u fun x => { x with head := some { o with phase := .passed } }) c u

/-- The operation ahead of a cube's head has issued its last step (R680). -/
def Cube.lastIssued (x : Cube) : Bool :=
  match x.run with
  | none => true
  | some o => decide (o.phase = .drain) || decide (o.phase = .ksplit)

/-- A cube takes the next operation of its queue (R197, R680); CUBE.ACLR clears every bank once the operation ahead has released the cube. -/
def cubeTake (d : Dev) (c : CoreId) (u : Nat) : Option Dev :=
  let x := getCube d c u
  match x.queue with
  | [] => none
  | op :: rest =>
    if x.head.isSome || !x.lastIssued || !unitsRun d c then none
    else
      let d1 := modCube d c u fun x => { x with queue := rest }
      if op.kind = 0 then
        (if !x.released then none
         else some (endHead (modCube d1 c u fun x => { x with acc := [], errs := [] }) c u (RunOp.new op) .none false))
      else match order1 d c op with
        | .error f => some (endHead d1 c u (RunOp.new op) f false)
        | .ok op =>
          let o := readHooks d c (RunOp.new op)
          let f := order2 d c o
          if f ≠ .none then some (failHead d1 c u o f)
          else match o.wait with
            | none => some (headGo (modCube d1 c u fun x => { x with head := some o }) c u o)
            | some id =>
              some (unitWait (modCube d1 c u fun x => { x with head := some o }) (.unit (.cube c u) op.serial) id op.parcel op.serial)

/-- The operand wait of a cube's head is over (R170). -/
def cubeWaitEnd (d : Dev) (c : CoreId) (u : Nat) : Option Dev :=
  match (getCube d c u).head with
  | none => none
  | some o =>
    if o.phase ≠ .operand ∨ unitsRun d c = false then none
    else match takeWake d (.unit (.cube c u) o.op.serial) with
      | none => none
      | some (0, d) => some (headGo d c u o)
      | some (_, d) => some (failHead d c u o .operandFault)

end Sys2Proof.Machine
end

