-- ==== Sys2Proof/Machine/Fence.lean ====
section
/-!
DEFINITION. The core fence (R186, R219, R275, R466, R590): what becomes of each unit's work, the record of kind 19, and the part.
-/

namespace Sys2Proof.Machine

/-- Every waiter of a core. -/
def coreWaiters (d : Dev) (c : CoreId) : List Waiter :=
  let w := (getCore d c).w
  [.agent (.seq c)] ++ (w.crews.map fun p => .agent (.crew c p.1)) ++
    ((List.range 4).flatMap fun u =>
      let x := getCube d c u
      (x.head.toList.map fun o => Waiter.unit (.cube c u) o.op.serial) ++
        ((x.run.toList ++ x.post).flatMap fun o => [Waiter.unit (.cube c u) o.op.serial, Waiter.post c u o.op.serial])) ++
    (w.chain.map fun x => .unit (.chain c) x.op.serial) ++ (w.quant.map fun o => .unit (.quant c) o.op.serial)

/-- Abandons every wait of a core's agents and units. -/
def abandonWaits (d : Dev) (c : CoreId) : Dev := (coreWaiters d c).foldl cancelWaits d

/-- The operations of a cube that a fence ends, in issue order, with the code each completes with (R186): those that had ended keep theirs. -/
def fenceOps (x : Cube) (hit : Option Nat) : List (Op × FaultCode × Nat × Bool) :=
  let code (s : Nat) : FaultCode := if hit = some s then .closureFence else .coreFenced
  let one (o : RunOp) : Op × FaultCode × Nat × Bool :=
    if o.phase = .done then (o.op, o.fault, o.sub, o.empty) else (o.op, code o.op.serial, 0, false)
  (x.post.map one) ++ (x.run.toList.map one) ++ (x.head.toList.map one) ++ (x.queue.map fun q => (q, code q.serial, 0, false))

/-- A queued operation with the hook blocks that its descriptor names, where it passes order 1. -/
def peekOp (d : Dev) (c : CoreId) (op : Op) : Option RunOp :=
  if op.kind = 0 then none
  else match order1 d c op with
    | .ok op => some (readHooks d c (RunOp.new op))
    | .error _ => none

/-- A cube's work ends by a fence; its banks are not drained; publishing operations and parts of a K split still arrive, with FAULTED (R249,
R250). -/
def fenceCube (c : CoreId) (hit : Option Nat) (d : Dev) (u : Nat) : Dev :=
  let x := getCube d c u
  let d := (x.taken ++ x.queue.filterMap (peekOp d c)).foldl (fun d o => faultArrivals d c o) d
  let d := setCube d c u { x with queue := [], head := none, run := none, post := [] }
  (fenceOps x hit).foldl (fun d o => opDoneSub d c 1 o.1 o.2.1 o.2.2.1 o.2.2.2) d

/-- The chain engine starts no more (R186, R219): entries in flight finish, a chain with entries left to start completes with CORE_FENCED
when they have, and every slot is IDLE. -/
def fenceChains (d : Dev) (c : CoreId) : Dev :=
  let d := (chainQ d c).foldl (fun d x =>
    if x.phase = 2 ∧ chainFlights d c x.op.serial ≠ 0 then
      (if x.fault = .none ∧ x.entered < x.count then setChain d c { x with fault := .coreFenced } else d)
    else popChain d c x .coreFenced) d
  modWork d c fun w => { w with streams := w.streams.map fun p => (p.1, { p.2 with state := 0 }) }

/-- The crews and launches of a core end (R186): a program's launches arrive with FAULTED, a hook's end with their operation. -/
def fenceLaunches (d : Dev) (c : CoreId) : Dev :=
  let w := (getCore d c).w
  let ls := w.launches ++ w.launchQ
  let d := modWork d c fun w => { w with launches := [], launchQ := [], crews := [], plumbRng := [] }
  (ls.filter fun l => l.hook.isNone).foldl (fun d l => launchDone d c l .coreFenced 0) d

/-- The quantise, table-load and scale-load queues end (R186, R275). -/
def fenceQueues (d : Dev) (c : CoreId) : Dev :=
  let w := (getCore d c).w
  let d := modWork d c fun w => { w with quant := [], tloads := [], sloads := [], tphase := 0, sphase := 0, convQ := [], convRng := [] }
  let d := w.quant.foldl (fun d o => opDone d c 8 o.op .coreFenced false) d
  let d := w.tloads.foldl (fun d o => opDone d c 10 o .coreFenced false) d
  w.sloads.foldl (fun d o => opDone d c 9 o .coreFenced false) d

/-- The part of a saved image fails and the image is discarded (R466, R472). -/
def dropHeld (d : Dev) (c : CoreId) (f : FaultCode) : Dev :=
  match (getCore d c).held with
  | none => d
  | some h =>
    let d := modCore d c fun k => if k.sched = 3 then { k.freed with held := none } else { k with held := none }
    match h.w.part with
    | some p => partEnds d c p f 0
    | none => d

/-- Fences a core (R186): cause and reason of R590, the cube, step and masks of the record, and the operation whose mismatch it was. A core
that is fenced already stays as it is. The part of a core that stops or writes its image fails with CORE_FENCED (R472). -/
def fenceCore (d : Dev) (c : CoreId) (cause reason : Nat) (hit : Option Nat) (cube step masks : Nat) : Dev :=
  if (getCore d c).fenced then d
  else
    let k := getCore d c
    let code : FaultCode := if reason ≤ 2 then .closureFence else .coreFenced
    let fails : FaultCode := if k.stopping ∨ k.sched = 2 then .coreFenced else code
    let d := abandonWaits d c
    let d := modCore d c fun k => { k with fenced := true, cause := cause, stopping := false, sched := if k.sched = 2 then 1 else k.sched }
    let d := modSeq d c fun q => { q with st := if q.st = .idle then .idle else .faulted, inflight := [], wait := none }
    let d := modPart d c fun p => if p.seqFault = .none then { p with seqFault := fails, subcode := 0 } else p
    let d := (List.range 4).foldl (fenceCube c hit) d
    let d := fenceChains d c
    let d := fenceQueues d c
    let d := fenceLaunches d c
    let d := logErr d c.die ⟨coreSrc c, 19, code, .contained, 0, [cause, reason, cube, step, masks]⟩
    dropHeld d c .coreFenced

/-- FENCE_REQ (R193): the core is fenced with cause and reason 3; a request during a core reset is ignored (R594). The cube, step and mask fields of
its record, for which no mismatch stands, are 0 (log 154). -/
def execFenceReq (c : CoreId) (s : State) : Host.Outcome State Fault Refusal :=
  runCmd (.fenceReq c) (fun d =>
    let r := regGet d .errCoreRst c.die 0 0
    if fld r 9 9 = 1 ∧ fld r 7 0 = c.core then .next d else .next (fenceCore d c 3 3 none 0 0 0)) s

end Sys2Proof.Machine
end

