-- ==== Sys2Proof/Machine/Cube.lean ====
section
/-!
DEFINITION. The cube at work (04): the contour ramp (R174 to R176), steps with their check, replay and fence (R172, R178 to R185, R303), the drain
(R163, R171, R173, R235, R250), hook launches (R230).
-/

namespace Sys2Proof.Machine

/-- The fault code of a number (R431). -/
def FaultCode.ofNum (n : Nat) : FaultCode :=
  [FaultCode.none, .staleHandle, .badHandle, .addressAbsent, .spaceDenied, .misaligned, .badDescriptor, .featureAbsent, .illegalInstruction,
    .maskDepth, .callDepth, .fetchRange, .stakeDenied, .badImage, .signatureMismatch, .imageAbsent, .shapeGuard, .alreadyClaimed, .operandFault,
    .accUncorrected, .closureFence, .coreFenced, .poisoned, .pageRetired, .streamBusy, .streamIdle, .streamStopped, .tableAbsent,
    .sideMismatch, .kvSealed, .appendFlushed, .kvFull, .kvRange, .keyAbsent, .channelClosed, .slotBusy, .noSlot, .laneMismatch,
    .collectiveFailed, .linkDown, .deadlineMissed].getD n .none

/-! ### Hook programs (R230) -/

/-- The launch of an operation's hook program, if the hook word has one. -/
def hookLaunch (d : Dev) (c : CoreId) (u : Nat) (o : RunOp) (epi : Bool) : Launch :=
  let w := if epi then o.epiWord else o.proWord
  let area := if epi then o.stage else o.pf 5 20 0
  let user := if epi then o.ef 7 63 32 else o.pf 7 63 0
  let n := BitVec.ofNat 64
  ⟨d.serial, fld w 28 8, fld w 6 2,
    [n o.op.da.toNat, n (storeAddr c area).toNat, n (o.e0 + 2 ^ 24 * o.e1), n (o.e2 + 2 ^ 32 * o.tile), n (storeAddr c (hookBlock w)).toNat,
      n user, 0, 0],
    0, fld w 6 2, some (u, o.op.serial), o.tile⟩

/-- A hook launch enters the launch queue (R35, R230); with the queue full it is made later. -/
def hookQueue (d : Dev) (c : CoreId) (u : Nat) (o : RunOp) (epi : Bool) : Dev × RunOp :=
  if 8 ≤ (getCore d c).w.launchQ.length then (d, o)
  else
    let l := hookLaunch d c u o epi
    (modWork (nextSerial d) c fun w => { w with launchQ := w.launchQ ++ [l] }, { o with launched := true })

/-! ### Steps -/

/-- A core's units work: it runs a part and is neither fenced nor halted. -/
def coreGo (d : Dev) (c : CoreId) : Bool :=
  let k := getCore d c
  !k.fenced && !stopped d c.die && decide (k.sched = 1)

/-- An operation of a cube works: the core is neither fenced nor halted nor saved, and where it stops for a pre-emption the operation has to go on
(R187, R464). -/
def cubeGo (d : Dev) (c : CoreId) (o : RunOp) : Bool :=
  coreGo d c && (!(getCore d c).stopping || o.replaying || decide (o.phase ≠ .steps) || decide (3 ≤ o.op.kind))

/-- A step mismatched (R182 to R185): a replay, which loads its A rows again, or the fence that a second mismatch or the replay limit brings. -/
def stepBad (d : Dev) (c : CoreId) (u : Nat) (o : RunOp) (idx rows cols : Nat) : Dev :=
  let masks := rows + 256 * cols
  let r := regGet d .cubeFence c.die c.core 0
  let lim := fld r 15 8
  let w := fld r 31 16 * 64
  let near := ((getCore d c).replays.filter fun t => decide (t / w = d.tick / w)).length
  let d := modCube d c u fun x => { x with cells := none }
  if o.replayed then fenceCore d c 1 1 (some o.op.serial) u idx masks
  else if lim ≠ 0 ∧ w ≠ 0 ∧ lim ≤ near + 1 then fenceCore d c 2 2 (some o.op.serial) u idx masks
  else
    let d := modCore d c fun k => { k with replays := k.replays ++ [d.tick] }
    let d := cubeReg .cubeClosureStat c u 15 0 1 d
    let d := modPart d c fun p => { p with replays := p.replays + 1 }
    let d := logErr d c.die ⟨coreSrc c, 67, .none, .info, 0, [u, idx, masks]⟩
    setRun d c u { o with replayed := true, replaying := true }

/-- An uncorrectable accumulator word in a bank that was read (R163). -/
def accBad (d : Dev) (c : CoreId) (u : Nat) (o : RunOp) (bank : Nat) : Dev :=
  failRun (accLog d c u bank) c u o .accUncorrected

/-- What meets the accumulators in a step or drain: corrected bank errors and bank-conflict stalls are counted (R160, R192), and words in error wait
for their first read (R163). -/
def countUpset (d : Dev) (c : CoreId) (u : Nat) (x : Upset) : Dev :=
  let d := modCube d c u fun k => { k with errs := k.errs ++ (x.ue.map fun n => (n, true)).toList ++ x.weak }
  cubeReg .cubeAccEcc c u 15 0 x.ce (cubeReg .cubeSteps c u 63 48 x.stalls d)

/-- Takes CUBE_CTL.INJECT for a checked step (R188): the XOR mask it brings, and the cube after it. INJECT_REPLAY corrupts the replayed step
and no other. -/
def takeInject (d : Dev) (c : CoreId) (u : Nat) (o : RunOp) : List (Nat × Nat × W32) × Dev :=
  let x := getCube d c u
  if x.inject then ([(0, 0, 0x100000)], setCube d c u { x with inject := false })
  else if x.injectAgain then ((if o.replaying then [(0, 0, 0x100000)] else []), setCube d c u { x with injectAgain := false })
  else ([], d)

/-- A step has committed: COMMITTED counts it, and UNCHECKED if it had an excluded row or column (R181, R190, R191). -/
def stepDone (d : Dev) (c : CoreId) (u : Nat) (skipped : Bool) : Dev :=
  let d := cubeReg .cubeSteps c u 47 0 1 d
  if skipped then cubeReg .cubeClosureStat c u 31 16 1 d else d

/-- Adds step sums to a bank (R136, R137). -/
def commitSums (x : Cube) (int : Bool) (bank : Nat) (t : List (List W32)) : Cube :=
  (List.range 64).foldl (fun x k => accAdd x int bank (k / 8) (k % 8) (at2 t (k / 8) (k % 8))) x

/-- The bank of a step's accumulator add is read (R163): an uncorrectable word ends the operation. -/
def addRead (d : Dev) (c : CoreId) (u : Nat) (o : RunOp) (bank : Nat) (next : Dev → Dev) : Dev :=
  let r := readBanks d c u [bank]
  match r.2 with
  | some b => accBad r.1 c u o b
  | none => next r.1

/-- Gathered rows of an operation (R232): POISONED for their entries of the list, SPACE_DENIED for a row outside the own core store. -/
def gatherFault (d : Dev) (c : CoreId) (o : RunOp) (rows : List Nat) : FaultCode :=
  if !o.gather then .none
  else if rows.any fun i => storePoisoned d c (o.pf 4 20 0 + 4 * i) 4 then .poisoned
  else if rows.any fun i =>
      let x := o.gatherIdx d c i
      decide (x ≠ noRow) && decide (storeBytes < offIn c (o.addr 1) + x * o.fd 4 31 0 + fmtBytes o.fmts.a o.e2) then .spaceDenied
  else .none

/-- The gathered rows that a step checks: every row at the first step, so that a fault there commits no step, then those that it reads (R232). -/
def RunOp.gatherRows (o : RunOp) (x : Cube) (q : Coord) : List Nat :=
  if o.copies then []
  else if o.step = 0 then List.range o.e0
  else ((o.freshRows x q).map fun m => 8 * q.row + m).filter fun i => decide (i < o.e0)

/-- The masks of the elements whose doubled add disagrees (R178). -/
def addMasks (x : Upset) : Nat × Nat :=
  (maskOf ((List.range 8).map fun i => x.adds.any fun s => decide (s.1 % 8 = i)), maskOf ((List.range 8).map fun j => x.adds.any fun s => decide (s.2 % 8 = j)))

/-- A matrix or convolution step (R161, R172, R178 to R182, R240, R241). The doubled add of R178 is compared as the bank is read. -/
def mmaStep (d : Dev) (c : CoreId) (u : Nat) (o : RunOp) (x : Upset) : Dev :=
  let q := o.coord o.step
  let relay := if o.relayIn && !o.copies then relayBlock d c o.op.serial q.row else .ready
  let gf := gatherFault d c o (o.gatherRows (getCube d c u) q)
  match relay with
  | .never => failRun d c u o .operandFault
  | .later => rcount d .cubeHookStat c.die c.core 0 31 16 1
  | .ready =>
    if gf ≠ .none then failRun d c u o gf
    else
      let f := o.fmts
      let k := getCube d c u
      let lb := o.bBlock c q
      let bad (fmt : Nat) (l : List (List (Option Loc))) : Bool := l.any fun r => r.any (locPoisoned d c (fmtBits fmt))
      if bad f.a ((o.freshRows k q).map (o.aRow d c q)) || bad f.b lb then failRun d c u o .poisoned
      else
        let inj := takeInject d c u o
        let rows := o.aRows d c k q
        let r := computeStep o.cls f.a f.b f.ftzIn (x.sums ++ inj.1) rows (lb.map fun l => l.map (locEl d c (fmtBits f.b)))
        let adds := addMasks x
        let d := countUpset inj.2 c u x
        let v := r.verdict
        let bank := o.bankOf q.row q.nb
        if v.rows ≠ 0 ∨ v.cols ≠ 0 then stepBad d c u o o.step v.rows v.cols
        else addRead d c u o bank fun d =>
          if x.adds ≠ [] then stepBad d c u o o.step adds.1 adds.2
          else
          let d := stepDone (modCube d c u fun k =>
            commitSums { k with cells := some ⟨o.op.serial, o.step, rows⟩ } o.isInt bank r.sums) c u v.skipped
          promote (skipPruned d c u { o with step := o.step + 1, replaying := false }) c u

/-- Masks of the rows and columns that upsets meet, for steps whose work is done twice and compared (R303). -/
def upsetMasks (x : Upset) : Nat × Nat :=
  let l := x.sums.filter fun s => decide (s.2.2 ≠ 0)
  let a := addMasks x
  (a.1 ||| maskOf ((List.range 8).map fun i => l.any fun s => decide (s.1 % 8 = i)),
    a.2 ||| maskOf ((List.range 8).map fun j => l.any fun s => decide (s.2.1 % 8 = j)))

/-- The operation after its step, when more steps follow or its steps are over. -/
def imageNext (d : Dev) (c : CoreId) (u : Nat) (o : RunOp) : Dev :=
  let o := { o with step := o.step + 1, replaying := false }
  promote (if o.imageSteps ≤ o.step then afterSteps d c u o else setRun d c u o) c u

/-- A pooling or resampling step (R298, R299, R301, R303). -/
def imageStep (d : Dev) (c : CoreId) (u : Nat) (o : RunOp) (x : Upset) : Dev :=
  let s := o.step
  let m := upsetMasks x
  let d := countUpset d c u x
  if m.1 ≠ 0 ∨ m.2 ≠ 0 then stepBad d c u o s m.1 m.2
  else if o.op.kind = 5 then
    match rsmpStep d c o s with
    | .error f => failRun d c u o f
    | .ok r => imageNext (stepDone r.1 c u false) c u r.2
  else if o.poolMode < 4 then
    let q := o.poolCoord s
    let bank := o.bankOf q.row q.nb
    if poolPoison d c o s then failRun d c u o .poisoned
    else addRead d c u o bank fun d => imageNext (stepDone (modCube d c u (poolTap d c o s)) c u false) c u o
  else
    let g := groupOf o.groupSteps o.groups 0 s
    if g.2 then
      match (if o.poolMode = 4 then groupPartial d c o g.1 else groupFinish d c o g.1) with
      | .error f => failRun d c u o f
      | .ok d => imageNext (stepDone d c u false) c u o
    else imageNext (stepDone d c u false) c u o

/-- A step of an attention operation (R326, R327). -/
def attnStep (d : Dev) (c : CoreId) (u : Nat) (o : RunOp) (x : Upset) : Dev :=
  let st := if o.scoreNext d then o.scoreStep d c o.step else o.valueStep d c o.step
  if st.poison then failRun d c u o .poisoned
  else
    let inj := takeInject d c u o
    let adds := addMasks x
    let r := floatOut (x.sums ++ inj.1) st.a st.b
    let d := countUpset inj.2 c u x
    if r.verdict.rows ≠ 0 ∨ r.verdict.cols ≠ 0 then stepBad d c u o (o.attnIndex d) r.verdict.rows r.verdict.cols
    else addRead (if st.fresh then modCube d c u fun k => accFill k st.bank 1 (some (0x80000000, false)) else d) c u o st.bank fun d =>
      if x.adds ≠ [] then stepBad d c u o (o.attnIndex d) adds.1 adds.2
      else
      let d := modCube d c u fun k => commitSums k false st.bank r.sums
      setRun (stepDone d c u r.verdict.skipped) c u { o.attnAdvance d with replaying := false }

/-- The steps of an operation can begin, its prologue over. -/
def stepsBegin (d : Dev) (c : CoreId) (u : Nat) (o : RunOp) : Dev :=
  let o := { o with phase := .steps }
  rampGo (if o.op.kind = 2 then promote (skipPruned d c u o) c u else setRun d c u o) c u

/-- A step of the operation that runs on a cube. -/
def oneStep (d : Dev) (c : CoreId) (u : Nat) (o : RunOp) (x : Upset) : Dev :=
  let d := rampGo d c u
  match o.op.kind with
  | 1 | 2 => mmaStep d c u o x
  | 3 => attnStep d c u o x
  | _ => imageStep d c u o x

/-- CUBE_STEP (R172): the prologue program's end is taken first (R230). -/
def execCubeStep (c : CoreId) (u : Nat) (x : Upset) (s : State) : Host.Outcome State Fault Refusal :=
  runCmd (.cubeStep c u x) (fun d => orNot "CUBE_STEP" (
    match (getCube d c u).run with
    | none => none
    | some o =>
      if !cubeGo d c o then none
      else if o.phase = .prologue ∧ hookProg o.proWord = true ∧ o.launched = true then
        match takeWake d (.post c u o.op.serial) with
        | none => none
        | some (0, d) => some (stepsBegin d c u o)
        | some (f, d) => some (failRun d c u { o with sub := f / 256 } (FaultCode.ofNum (f % 256)))
      else if o.phase ≠ .steps then none
      else if o.op.kind = 3 ∧ o.attnStepReady d = false then none
      else some (oneStep d c u o x))) s

/-! ### The drain -/

/-- The banks that a drain reads. -/
def RunOp.drainBanks (o : RunOp) (d : Dev) : List Nat :=
  match o.op.kind with
  | 3 => (List.range (cdiv o.e0 8 * cdiv (kvDim d o.kvIdx) 8)).map fun b => o.bankBase + b
  | _ =>
    if o.ksplit.isSome || hookEn o.epiWord then (List.range o.banks).map fun b => o.bankBase + b else o.outBanks

/-- Drains whole banks to the stage as FP32 (R235), row by row, up to bank `lim`, and keeps the marks of the run-time elements (R137). An element
past PLAN_N lies where the next row's elements then go; what would lie beyond the core store is not written (log 179). -/
def stageWrite (d : Dev) (c : CoreId) (u : Nat) (o : RunOp) (lim : Nat) : Dev × RunOp :=
  let x := getCube d c u
  let d := (List.range (8 * cdiv o.planM 8)).foldl (fun d i => (List.range (8 * cdiv o.planN 8)).foldl (fun d j =>
    let b := o.bankOf (i / 8) (j / 8)
    if lim ≤ b ∨ storeBytes < o.stageAt i j + 4 then d
    else
      let v := drainValue d c o o.isInt true j (accGet x o.isInt b (i % 8) (j % 8)).1
      putWords d c (o.stageAt i j) [c32 v]) d) d
  (d, { o with marks := o.markedIn x })

/-- An operation past its drain to the stage goes to its epilogue program or to the converter, and releases the cube (R227, R228). -/
def toConverter (d : Dev) (c : CoreId) (u : Nat) (o : RunOp) : Dev :=
  let prog := hookProg o.epiWord
  let r := if prog then hookQueue d c u { o with launched := false } true else (d, o)
  let o := { r.2 with phase := if prog then .program else .convert }
  let d := modCube r.1 c u fun x => { x with run := none, post := x.post ++ [o] }
  promote (modWork d c fun w => { w with convQ := w.convQ ++ [(u, o.op.serial)] }) c u

/-- The drain of an operation (R173, R235, R250), or of an attention operation's output (R326). -/
def drainOp (d : Dev) (c : CoreId) (u : Nat) (o : RunOp) (x : Upset) : Dev :=
  let d := countUpset d c u x
  let own := readBanks d c u (o.drainBanks d)
  let d := own.1
  let bad := own.2
  let lim := bad.getD 64
  let stop (d : Dev) (next : Dev → Dev) : Dev :=
    match bad with
    | some b => accBad d c u o b
    | none => next d
  if o.op.kind = 3 then stop (attnOutput d c o (getCube d c u) lim) fun d => finishRun d c u o .none
  else match o.ksplit with
    | some (p + 1) =>
      (match bad with
       | some b => accBad d c u o b
       | none =>
         let r := ksplitWrite d c u o (p + 1)
         if r.2 ≠ .none then failRun r.1 c u o r.2
         else finishRun (cubeArrive r.1 c o (o.ef 6 16 0) false) c u o .none)
    | _ =>
      if hookEn o.epiWord then
        let r := stageWrite d c u o lim
        stop r.1 fun d => toConverter d c u r.2
      else stop (drainDirect d c u o lim) fun d => finishRun d c u o .none

/-- CUBE_DRAIN (R173, R229). -/
def execCubeDrain (c : CoreId) (u : Nat) (x : Upset) (s : State) : Host.Outcome State Fault Refusal :=
  runCmd (.cubeDrain c u x) (fun d => orNot "CUBE_DRAIN" (
    match (getCube d c u).run with
    | some o => if o.phase = .drain ∧ cubeGo d c o = true ∧ (o.sidePart = true → xferFree d c = true) then some (drainOp d c u o x) else none
    | none => none)) s

/-! ### The ramp -/

/-- A step of the cube is ready, or an operation is between its last step and the release (R680): null steps are not counted (R175). -/
def cubeBusy (d : Dev) (c : CoreId) (x : Cube) : Bool :=
  match x.run with
  | some o => stepReady d c o || decide (o.phase = .drain)
  | none => !x.released

/-- RAMP_LEVEL_CHANGE (R174, R175): up to level 8 and ACTIVE, or down to IDLE. The power cap holds the level (R612). -/
def execRampLevelChange (c : CoreId) (u : Nat) (s : State) : Host.Outcome State Fault Refusal :=
  runCmd (.rampLevelChange c u) (fun d =>
    let x := getCube d c u
    let cap := rfld d .abwEnvelope 0 0 0 35 32
    if x.ramp = 1 then
      .next (if 8 ≤ x.level then setCube d c u { x with ramp := 2 }
        else if x.level < cap then setCube d c u { x with level := x.level + 1 } else d)
    else if x.ramp = 3 then
      .next (setCube d c u (if x.level ≤ 1 then { x with ramp := 0, level := 0 } else { x with level := x.level - 1 }))
    else .refused (.notEnabled "RAMP_LEVEL_CHANGE")) s

/-- RAMP_HOLD_EXPIRY (R175): RAMP_HOLD null steps have been counted, and the cube ramps down. -/
def execRampHoldExpiry (c : CoreId) (u : Nat) (s : State) : Host.Outcome State Fault Refusal :=
  runCmd (.rampHoldExpiry c u) (fun d =>
    let x := getCube d c u
    whenOn "RAMP_HOLD_EXPIRY" ((decide (x.ramp = 1) || decide (x.ramp = 2)) && !cubeBusy d c x) (setCube d c u { x with ramp := 3 })) s

/-! ### Fence window -/

/-- CUBE_FENCE_WINDOW_END (R184): at a multiple of WINDOW × 64 datum ticks the replays of the window before
are no longer counted. -/
def execCubeFenceWindowEnd (c : CoreId) (s : State) : Host.Outcome State Fault Refusal :=
  runOk c.wf [c.die] (fun d =>
    let w := rfld d .cubeFence c.die c.core 0 31 16 * 64
    whenOn "CUBE_FENCE_WINDOW_END" (decide (w ≠ 0) && decide (d.tick % w = 0)) (modCore d c fun k => { k with replays := k.replays.filter fun t => decide (d.tick ≤ t) })) s

end Sys2Proof.Machine
end

