-- ==== Sys2Proof/Machine/KvEngine.lean ====
section
/-!
DEFINITION. The KV engine (R307 to R310, R315 to R322, R325, R327, R328): token writes, seals, flushes and the export queue, key waits, and the
chunk events of an attention operation.
-/

namespace Sys2Proof.Machine

/-- A field of the token row in a page's staging slot. -/
def putStaged (d : Dev) (idx t : Nat) (v : Bool) (bytes : List Byte) : Dev × Except FaultCode Unit :=
  devWriteAll d (kvSlotAddr d idx (t / kvTokens d idx) + BitVec.ofNat 52 (kvRowOff d idx t v)) bytes

/-- A row of new K or V as the engine stores it (R314, R316, R317): its elements, not yet counted. -/
def tokenRow (d : Dev) (c : CoreId) (o : RunOp) (r : Nat) (v : Bool) : List Rounded × Dev :=
  let f := o.fmts
  let idx := o.kvIdx
  let dim := kvDim d idx
  let off := offIn c (o.addr (if v then 6 else 5)) + r * o.fd 7 31 0
  let xs := kscaleRow d c o (b2n v) (storeRow d c f.b f.ftzIn off dim)
  let xs := if !v && o.bit 0 16 then ropeRow d c o (o.pos0 + r) xs else xs
  convValues d c o (kvForm d idx) f.rnd f.ftzOut f.sat xs

/-- Writes a K or V row of a token to its slot and counts its elements (R154, R316). -/
def writeStaged (d : Dev) (c : CoreId) (idx t : Nat) (v : Bool) (y : List Rounded) : Dev × FaultCode :=
  match putStaged d idx t v (packCodes (fmtBits (kvForm d idx)) (y.map Rounded.code)) with
  | (d, .error f) => (d, f)
  | (d, .ok ()) => (countElems d c y, .none)

/-- Writes token r of an append to its slot (R316): a poisoned row or a failed write gives its code. -/
def writeToken (d : Dev) (c : CoreId) (o : RunOp) (r : Nat) : Dev × FaultCode :=
  let idx := o.kvIdx
  let t := o.pos0 + r
  let len := fmtBytes o.fmts.b (kvDim d idx)
  let at' (k : Nat) : Nat := offIn c (o.addr k) + r * o.fd 7 31 0
  if storePoisoned d c (at' 5) len || storePoisoned d c (at' 6) len then (d, .poisoned)
  else
    let k := tokenRow d c o r false
    let v := tokenRow k.2 c o r true
    let w := writeStaged v.2 c idx t false k.1
    if w.2 ≠ .none then w
    else
      let w := writeStaged w.1 c idx t true v.1
      if w.2 ≠ .none then w else (modKv w.1 idx fun q => { q with bits := tset false q.bits t true }, .none)

/-- Operations that wait for keys beyond the sealed length of a sequence end with KV_RANGE (R325). -/
def sealWaiters (d : Dev) (idx : Nat) : Dev :=
  eachAttn d fun c u o d =>
    if o.kvIdx = idx ∧ o.phase = .keys ∧ o.beyondSeal d = true then failRun d c u o .kvRange else d

/-- An append is complete (R316, R318): the seal, if it has one, and the key phase. -/
def appendDone (d : Dev) (c : CoreId) (u : Nat) (o : RunOp) : Dev :=
  let idx := o.kvIdx
  let len := o.pos0 + o.tokens
  let go (d : Dev) : Dev := promote (attnReady d c u o) c u
  if !o.bit 0 19 then go d
  else if kvSt d idx ≠ 1 then failRun d c u o .kvSealed
  else if len < kvFlushed d idx ∨ (getKv d idx).bits.any (fun p => decide (len ≤ p.1)) then failRun d c u o .kvRange
  else
    let d := kvSet d .kvsState idx 1 0 2
    let d := kvEligible (modKv d idx fun q => { q with sealLen := len }) idx
    go (sealWaiters d idx)

/-- The next token of an append (R316, R328). -/
def appendStep (d : Dev) (c : CoreId) (u : Nat) (o : RunOp) : Dev :=
  let idx := o.kvIdx
  let a := o.att
  let t := o.pos0 + a.tokens
  let p := t / kvTokens d idx
  let dup := decide (t < kvFlushed d idx) || kvBit d idx t
  let past := decide (p < (getKv d idx).next) || kvFilled d idx p
  let die := idx / 4096
  let next (d : Dev) : Dev :=
    let o := { o with attn := some { a with tokens := a.tokens + 1, stalled := false } }
    if a.tokens + 1 = o.tokens then appendDone d c u o else setRun d c u o
  if kvSt d idx = 3 then failRun d c u o .kvSealed
  else if dup && past then next (rcount d .kvsStat die 0 0 47 32 1)
  else if !dup && (!kvInWindow d idx p || kvBusy d idx p) then
    if (getKv d idx).closing then failRun d c u o .kvSealed
    else setRun (rcount d .kvsStat die 0 0 31 0 1) c u { o with attn := some { a with stalled := true } }
  else
    let r := writeToken d c o a.tokens
    if r.2 ≠ .none then failRun r.1 c u o r.2
    else next (kvEligible (if dup then rcount r.1 .kvsStat die 0 0 47 32 1 else r.1) idx)

/-- The attention operation that runs on a cube in a phase. -/
def attnIn (d : Dev) (c : CoreId) (u : Nat) (p : Phase) : Option RunOp :=
  if coreGo d c then (getCube d c u).run.filter fun o => decide (o.op.kind = 3) && decide (o.phase = p) else none

/-- KV_TOKEN_WRITE (R316): the next token is written, rewritten or discarded; one whose slot is not free waits, and the cycle is counted. -/
def execKvTokenWrite (c : CoreId) (u : Nat) (s : State) : Host.Outcome State Fault Refusal :=
  runCmd (.kvTokenWrite c u) (fun d => orNot "KV_TOKEN_WRITE" ((attnIn d c u .append).map (appendStep d c u))) s

/-- KEY_PRESENCE_WAIT_END (R325): every key it needs is present, and the chunks begin. -/
def execKeyPresenceWaitEnd (c : CoreId) (u : Nat) (s : State) : Host.Outcome State Fault Refusal :=
  runCmd (.keyPresenceWaitEnd c u) (fun d => orNot "KEY_PRESENCE_WAIT_END" (
    match attnIn d c u .keys with
    | some o => if o.keysHere d then some (rampGo (setRun d c u { o with phase := .steps }) c u) else none
    | none => none)) s

/-- KEY_WAIT_EXPIRY (R325): KEY_WAIT ticks have passed and a key is still absent. -/
def execKeyWaitExpiry (c : CoreId) (u : Nat) (s : State) : Host.Outcome State Fault Refusal :=
  runCmd (.keyWaitExpiry c u) (fun d => orNot "KEY_WAIT_EXPIRY" (
    match attnIn d c u .keys with
    | some o =>
      match o.att.deadline with
      | some t => if t ≤ d.tick ∧ o.keysHere d = false then some (failRun d c u o .keyAbsent) else none
      | none => none
    | none => none)) s

/-- ATTN_CHUNK_FETCH_DONE (R229, R327): an internal transfer has brought the next chunk to its buffer. -/
def execAttnChunkFetchDone (c : CoreId) (u : Nat) (s : State) : Host.Outcome State Fault Refusal :=
  runCmd (.attnChunkFetchDone c u) (fun d => orNot "ATTN_CHUNK_FETCH_DONE" (
    match attnIn d c u .steps with
    | some o =>
      if o.canFetch d && xferFree d c then
        some (match fetchChunk d c o with
          | (d, .error f) => failRun d c u o f
          | (d, .ok o) => rampGo (setRun d c u o) c u)
      else none
    | none => none)) s

/-- The softmax of the next chunk of an operation (R326): the banks that it reads may hold an uncorrectable word, which ends it (R163). -/
def softmaxTake (d : Dev) (c : CoreId) (u : Nat) (o : RunOp) : Dev :=
  let w := o.workArea d
  let r := softmaxChunk d c o (getCube d c u)
  let own := readBanks (fillFree d c w.1 w.2) c u (softmaxBanks d o r.2)
  match own.2 with
  | some b => accBad own.1 c u o b
  | none => rampGo (setRun (modCube own.1 c u fun x => { x with acc := r.1.acc }) c u r.2) c u

/-- ATTN_CHUNK_SOFTMAX (R326): the scores drain to the work area and the online softmax runs. -/
def execAttnChunkSoftmax (c : CoreId) (u : Nat) (s : State) : Host.Outcome State Fault Refusal :=
  runCmd (.attnChunkSoftmax c u) (fun d => orNot "ATTN_CHUNK_SOFTMAX" (
    match attnIn d c u .steps with
    | some o =>
      if o.canSoftmax then some (softmaxTake d c u o) else none
    | none => none)) s

/-! ### Flushing and export -/

/-- Whether a sequence exports (R320, R322). -/
def kvExports (d : Dev) (idx : Nat) : Bool := decide (kvReg d .kvsExport idx 0 0 = 1) && decide (kvReg d .kvsState idx 2 2 = 0)

/-- The key of the export queue of a sequence's port. -/
def kvPort (d : Dev) (idx : Nat) : Nat := 2 * (idx / 4096) + kvReg d .kvsExport idx 1 1

/-- The flush slots of a die, 0 to 3 (R319). -/
def dieFlushes (d : Dev) (die : Nat) : List Flush := (List.range 4).filterMap fun f => tget none d.kvFlush (4 * die + f)

/-- A failed flush (R319): the sequence is FAULTED, its other pages are not flushed, and the appends that wait complete with KV_SEALED. -/
def flushFault (d : Dev) (idx p : Nat) (f : FaultCode) : Dev :=
  let die := idx / 4096
  let slot := idx % 4096
  let d := kvSet d .kvsState idx 1 0 3
  let h := (handleOf d typeKv idx).toNat
  let d := logErr d die ⟨srcErr, 21, f, .contained, 0, [h, p]⟩
  let d := { d with
    kvReady := tset [] d.kvReady die ((tget [] d.kvReady die).filter fun x => decide (x.1 ≠ slot))
    kvFlush := d.kvFlush.filter fun x => !(decide (x.1 / 4 = die) && (x.2.map fun y => decide (y.slot = slot) && decide (p ≤ y.page)).getD false) }
  eachAttn d fun c u o d =>
    if o.kvIdx = idx ∧ o.phase = .append ∧ o.att.stalled = true then failRun d c u o .kvSealed else d

/-- The tokens of a page below the sealed length; all of them where the sequence is not sealed or the page is not its last (R318). -/
def pageTokens (d : Dev) (idx p : Nat) : Nat :=
  let pt := kvTokens d idx
  let k := getKv d idx
  if kvSt d idx = 2 ∧ p = (k.sealLen - 1) / pt then (k.sealLen - 1) % pt + 1 else pt

/-- The zero tail of a sealed sequence's last page (R318). -/
def zeroTail (d : Dev) (idx p : Nat) : Dev × FaultCode :=
  let n := pageTokens d idx p
  let row := kvDim d idx * kvBytes d idx
  let pt := kvTokens d idx
  if n = pt then (d, .none)
  else [false, true].foldl (fun (r : Dev × FaultCode) v =>
    if r.2 ≠ .none then r
    else match devWriteAll r.1 (kvSlotAddr d idx p + BitVec.ofNat 52 (kvRowOff d idx (p * pt + n) v)) (List.replicate ((pt - n) * row) 0) with
      | (d, .error f) => (d, f)
      | (d, .ok ()) => (d, .none)) (d, .none)

/-- The staging slot of a page waits for slices or links (R370, R410). -/
def slotBusy (d : Dev) (idx p : Nat) : Bool := extentBusy d (idx / 4096) (kvSlotAddr d idx p) (kvPageBytes d idx)

/-- KV_FLUSH_START (R319, R320): the page list entry and the staging slot are read, and the page goes to the export queue if a buffer is free. -/
def flushStart (d : Dev) (die : Nat) : Option Dev :=
  match tget [] d.kvReady die, (List.range 4).find? fun f => (tget none d.kvFlush (4 * die + f)).isNone with
  | (slot, p) :: rest, some f =>
    let idx := die * 4096 + slot
    if slotBusy d idx p ∨ extentBusy d die (kvListAddr d idx p) 8 then none else
    let d := { d with kvReady := tset [] d.kvReady die rest }
    match kvEntry d idx p with
    | (d, .error e) => some (flushFault d idx p e)
    | (d, .ok a) =>
      match zeroTail d idx p with
      | (d, .none) =>
        match devReadAll d (kvSlotAddr d idx p) (kvPageBytes d idx) with
        | (d, .error e) => some (flushFault d idx p e)
        | (d, .ok bytes) =>
          let port := kvPort d idx
          let waits := !(tget [] d.expWait port).isEmpty || (dieFlushes d die).any fun x =>
            !x.copied && kvExports d (die * 4096 + x.slot) && decide (kvPort d (die * 4096 + x.slot) = port)
          let copy := kvExports d idx && !waits && decide ((tget [] d.expQ port).length < 8)
          let d := if copy then { d with expQ := tset [] d.expQ port (tget [] d.expQ port ++ [⟨slot, p, bytes, false⟩]) } else d
          some { d with kvFlush := tset none d.kvFlush (4 * die + f) (some ⟨slot, p, a, bytes, copy⟩) }
      | (d, e) => some (flushFault d idx p e)
  | _, _ => none

/-- KV_FLUSH_START (R319). -/
def execKvFlushStart (die : Nat) (s : State) : Host.Outcome State Fault Refusal :=
  runCmd (.kvFlushStart die) (fun d => if halted d die then .refused (.notEnabled "KV_FLUSH_START") else orNot "KV_FLUSH_START" (flushStart d die)) s

/-- The HBM write of a flush is acknowledged (R319, R321): FLUSHED advances in page order, PAGE_STAKE gets its arrival, and a page that still has
to be copied to the export queue keeps its staging slot. -/
def flushDone (d : Dev) (die f : Nat) : Option Dev :=
  match tget none d.kvFlush (4 * die + f) with
  | none => none
  | some x =>
    let idx := die * 4096 + x.slot
    if x.page ≠ kvFirst d idx ∨ extentBusy d die x.addr x.bytes.length then none
    else
      let d := { d with kvFlush := tset none d.kvFlush (4 * die + f) none }
      match devWriteAll d x.addr x.bytes with
      | (d, .error e) => some (flushFault d idx x.page e)
      | (d, .ok ()) =>
        let pt := kvTokens d idx
        let n := x.page * pt + pageTokens d idx x.page
        let wait := kvExports d idx && !x.copied && !(getKv d idx).closing
        let port := kvPort d idx
        let d := modKv (kvSet d .kvsState idx 31 8 n) idx fun q => { q with
          bits := q.bits.filter fun b => decide (n ≤ b.1)
          held := if wait then q.held ++ [x.page] else q.held }
        let d := if wait then { d with expWait := tset [] d.expWait port (tget [] d.expWait port ++ [(x.slot, x.page)]) } else d
        let st := regGet d .kvsStakes die 0 x.slot
        let d := if fld st 17 17 = 1 then blockArrive d die (BitVec.ofNat 17 (fld st 16 0)) 4 none 1 false else d
        some (kvEligible d idx)

/-- KV_FLUSH_DONE (R319): a flush that is writing finishes on a halted die too (R588). -/
def execKvFlushDone (die slot : Nat) (s : State) : Host.Outcome State Fault Refusal :=
  runCmd (.kvFlushDone die slot) (fun d => orNot "KV_FLUSH_DONE" (flushDone d die slot)) s

/-- EXPORT_QUEUE_COPY (R321): a buffer is free; the oldest page that waits is copied from its staging slot, which is then released. -/
def exportCopy (d : Dev) (die port : Nat) : Option Dev :=
  let key := 2 * die + port
  match tget [] d.expWait key with
  | [] => none
  | (slot, p) :: rest =>
    if 8 ≤ (tget [] d.expQ key).length ∨ slotBusy d (die * 4096 + slot) p then none
    else
      let idx := die * 4096 + slot
      let d := { d with expWait := tset [] d.expWait key rest }
      let free (d : Dev) : Dev := modKv d idx fun q => { q with held := q.held.erase p }
      match devReadAll d (kvSlotAddr d idx p) (kvPageBytes d idx) with
      | (d, .error e) => some (flushFault (free d) idx p e)
      | (d, .ok bytes) => some (free { d with expQ := tset [] d.expQ key (tget [] d.expQ key ++ [⟨slot, p, bytes, false⟩]) })

/-- EXPORT_QUEUE_COPY (R321). -/
def execExportQueueCopy (die port : Nat) (s : State) : Host.Outcome State Fault Refusal :=
  runCmd (.exportQueueCopy die port) (fun d =>
    if halted d die then .refused (.notEnabled "EXPORT_QUEUE_COPY") else orNot "EXPORT_QUEUE_COPY" (exportCopy d die port)) s

end Sys2Proof.Machine
end

