-- ==== Sys2Proof/Machine/Hbm.lean ====
section
/-!
DEFINITION. HBM reads and scrub, lane marking and channel failure (R378 to R383, R388), refresh and thermal throttling (R360, R390,
R391), and the writes to HBM_MAP, RES_SLICE_CFG, RES_HOLD and HBM_RETIRE (R364, R370, R372, R386, R387).
-/

namespace Sys2Proof.Machine

/-- The controller of a channel as an event source (R84). -/
def hbmSrc (chan : Nat) : Nat := 176 + chan / 16

/-- Adds to bits of a channel register. -/
def chanCount (d : Dev) (n : RegName) (die chan hi lo k : Nat) : Dev := rcount d n die (chan / 16) (chan % 16) hi lo k

/-- Writes bits of a channel register. -/
def chanSet (d : Dev) (n : RegName) (die chan hi lo v : Nat) : Dev := rset d n die (chan / 16) (chan % 16) hi lo v

/-- A field of HBM_CHAN. -/
def chanFld (d : Dev) (die chan hi lo : Nat) : Nat := fld (chanReg d .hbmChan die chan) hi lo

/-- A channel becomes FAILING (R388): its failure is logged once. -/
def chanFail (d : Dev) (die chan reason : Nat) : Dev :=
  if chanFld d die chan 1 1 = 1 then d
  else logErr (chanSet d .hbmChan die chan 1 1 1) die ⟨hbmSrc chan, 17, .none, .contained, 0, [chan, reason]⟩

/-- The marked lanes of a channel (R379, R397). -/
def markedLanes (d : Dev) (die chan : Nat) : List Nat :=
  ([chanFld d die chan 12 6, chanFld d die chan 19 13]).take (chanFld d die chan 5 4)

/-- One symbol correction on a pin-lane (R379): the lane's count, its marking at MARK_LIMIT, and the failure of a third (R388). -/
def laneCorrect (die chan : Nat) (d : Dev) (lane : Nat) : Dev :=
  if (markedLanes d die chan).contains lane then d else
  let k := (32 * die + chan) * 128 + lane
  let n := tget 0 d.laneCounts k + 1
  let d := { d with laneCounts := tset 0 d.laneCounts k n }
  if n < rfld d .hbmErrCtl die 0 0 7 0 then d
  else
    let m := chanFld d die chan 5 4
    if 2 ≤ m then chanFail d die chan 2
    else
      let d := if m = 0 then chanSet d .hbmChan die chan 12 6 lane else chanSet d .hbmChan die chan 19 13 lane
      let d := chanSet d .hbmChan die chan 5 4 (m + 1)
      logErr d die ⟨hbmSrc chan, 70, .none, .info, 0, [chan, lane]⟩

/-- An uncorrectable read (R380, R383, R388). -/
def chanUncorrected (d : Dev) (die chan caddr : Nat) : Dev :=
  let d := chanCount d .hbmChanEcc die chan 47 32 1
  let k := 32 * die + chan
  let n := tget 0 d.ueCounts k + 1
  let d := poisonHbm { d with ueCounts := tset 0 d.ueCounts k n } die chan caddr
  if rfld d .hbmErrCtl die 0 0 15 8 ≤ n then chanFail d die chan 1 else d

/-- The decode of one HBM access whose symbols on `lanes` are in error (R378, R380): with f marked lanes decoded as erasures, e further errors
are corrected while 2e + f ≤ 8. A line with the poison signature is recognised first (R383). -/
def hbmDecode (d : Dev) (die chan caddr : Nat) (lanes : List Nat) : Dev :=
  let marked := markedLanes d die chan
  let errs := (lanes.filter fun l => decide (l < 72)).dedup
  let e := (errs.filter fun l => !marked.contains l).length
  if poisonedKey d (lineKey (hbmKey die chan caddr)) then d
  else if errs.isEmpty then d
  else if 2 * e + marked.length ≤ 8 then
    errs.foldl (laneCorrect die chan) (chanCount d .hbmChanEcc die chan 31 0 1)
  else chanUncorrected d die chan caddr

/-- HBM_READ (R380). -/
def execHbmRead (die chan caddr : Nat) (lanes : List Nat) (s : State) : Host.Outcome State Fault Refusal :=
  runCmd (.hbmRead die chan caddr lanes) (fun d =>
    whenOn "HBM_READ" (chanLive d die chan) (hbmDecode d die chan caddr lanes)) s

/-- HBM_SCRUB (R382): the controller reads a line of a live channel; SCRUB_HOURS 0 disables it. -/
def execHbmScrub (die chan caddr : Nat) (lanes : List Nat) (s : State) : Host.Outcome State Fault Refusal :=
  runCmd (.hbmScrub die chan caddr lanes) (fun d =>
    whenOn "HBM_SCRUB" (chanLive d die chan && decide (rfld d .hbmErrCtl die 0 0 31 24 ≠ 0)) (hbmDecode d die chan caddr lanes)) s

/-- HBM_ERR_WINDOW_END (R379, R388): the window's counts start again at a multiple of its length. -/
def execHbmErrWindowEnd (die : Nat) (s : State) : Host.Outcome State Fault Refusal :=
  runCmd (.hbmErrWindowEnd die) (fun d =>
    let len := rfld d .hbmErrCtl die 0 0 23 16 * 2 ^ 16
    whenOn "HBM_ERR_WINDOW_END" (decide (len ≠ 0) && decide (d.tick % len = 0)) { d with
      laneCounts := d.laneCounts.filter fun p => decide (p.1 / 128 / 32 ≠ die)
      ueCounts := d.ueCounts.filter fun p => decide (p.1 / 32 ≠ die) }) s

/-- HBM_REFRESH (R360): a refresh changes nothing software sees. -/
def execHbmRefresh (die stack : Nat) (s : State) : Host.Outcome State Fault Refusal :=
  runCmd (.hbmRefresh die stack) (fun d => .next d) s

/-- A signed byte. -/
def sbyte (b : BitVec 8) : Int := b.toInt

/-- A controller's reading of its stack (R390, R391): LEVEL rises at or above the threshold, falls at or below it less HYST; a change raises a telemetry
event. -/
def stackReading (d : Dev) (die stack : Nat) (temp limit : BitVec 8) : Dev :=
  let level := rfld d .hbmTherm die stack 0 18 16
  let hyst : Int := rfld d .hbmTherm die stack 0 27 24
  let level' := if sbyte limit ≤ sbyte temp then min 7 (level + 1)
    else if sbyte temp ≤ sbyte limit - hyst then level - 1 else level
  let d1 := rset (rset (rset d .hbmTherm die stack 0 7 0 temp.toNat) .hbmTherm die stack 0 15 8 limit.toNat)
    .hbmTherm die stack 0 18 16 level'
  let d2 := if level' = 0 then d1 else rcount d1 .hbmTherm die stack 0 63 32 1
  if level' = level then d2 else
    raiseEvent d2 ⟨9, die, 176 + stack, 10, BitVec.ofNat 64 d.tick, 0, 0,
      BitVec.ofNat 64 (level' + 256 * temp.toNat + 2 ^ 32 * limit.toNat), 0⟩

/-! ### Writes that remap -/

/-- A die is in a rebuild (R456, R476). -/
def rebuilding (d : Dev) (die : Nat) : Bool := decide (rfld d .pclRebuild die 0 0 0 0 = 1)

/-- Clears a die's retirement table (R387). -/
def clearRetire (d : Dev) (die : Nat) : Dev :=
  let lo := regKey .hbmRetire die 0 0
  { d with regs := d.regs.filter fun p => !(decide (lo ≤ p.1) && decide (p.1 < lo + 8 * 4096)) }

/-- A die's map is written (R364, R387): its cache is written back, released and invalidated, and its retirement table cleared. -/
def remapDie (d : Dev) (die : Nat) : Dev := clearRetire (dropLines d fun k => decide (keyDie k = die)) die

/-- A write of HBM_MAP to MODE, to STRIPE_GIB, or to both (R364, R394). A write that would give a stripe beyond a die's capacity is ignored as a
whole. MODE is locked outside the die's rebuild and refuses 3; STRIPE_GIB is locked unless every die is in a rebuild. What is ignored is logged. A
written map is a new map for its die, and a changed stripe one for every die. -/
def hbmMapWrite (d : Dev) (die : Nat) (wrMode wrStripe : Bool) (v : BitVec 32) : Dev :=
  let mode := fld v 1 0
  let s := fld v 14 8
  let all := List.range d.part.dies
  let stripeOpen := all.all (rebuilding d)
  let modeOk := wrMode && rebuilding d die && decide (mode ≠ 3)
  let stripeOk := wrStripe && stripeOpen
  if stripeOk && !(all.all fun x => decide (s * 2 ^ 30 ≤ capacity d x)) then logIgnoredAt d .hbmMap die 0 0 v.toNat
  else
    let d0 := if (wrMode && !modeOk) || (wrStripe && !stripeOk) then logIgnoredAt d .hbmMap die 0 0 v.toNat else d
    let news := all.filter fun x => stripeOk && decide (s ≠ rfld d .hbmMap x 0 0 14 8) || (modeOk || stripeOk) && decide (x = die)
    let d1 := news.foldl remapDie d0
    let d2 := if modeOk then rset d1 .hbmMap die 0 0 1 0 mode else d1
    if stripeOk then all.foldl (fun d x => rset d .hbmMap x 0 0 14 8 s) d2 else d2

/-- HBM_MAP_WRITE (R364). -/
def execHbmMapWrite (die : Nat) (v : BitVec 32) (s : State) : Host.Outcome State Fault Refusal :=
  runCmd (.hbmMapWrite die v) (fun d => .next (hbmMapWrite d die true true v)) s

/-- A write of RES_SLICE_CFG (R370, R399): locked outside a rebuild; otherwise BUSY, the slices change, and every scratch line of the new layout
is zero. -/
def sliceCfgWrite (d : Dev) (die : Nat) (v : BitVec 32) : Dev :=
  if !rebuilding d die then logIgnoredAt d .resSliceCfg die 0 0 v.toNat
  else
    let new := fld v 15 0
    let d := rset (rset d .resSliceCfg die 0 0 15 0 new) .resSliceCfg die 0 0 16 16 1
    let d := dropLines d fun k => decide (keyDie k = die) && Nat.testBit new (keySlice k)
    memClear d (scratchKey die 0 0) (16 * 2 ^ 24)

/-- RES_SLICE_CFG_WRITE (R370). -/
def execResSliceCfgWrite (die : Nat) (v : BitVec 32) (s : State) : Host.Outcome State Fault Refusal :=
  runCmd (.resSliceCfgWrite die v) (fun d => .next (sliceCfgWrite d die v)) s

/-- RELEASE_ALL is written (R372, R400): every held line of the die is released, and RELEASING is set. -/
def releaseAll (d : Dev) (die : Nat) : Dev :=
  rset (releaseLines d fun k => decide (keyDie k = die)) .resHold die 0 0 5 5 1

/-- RELEASE_ALL (R372). -/
def execReleaseAll (die : Nat) (s : State) : Host.Outcome State Fault Refusal :=
  runCmd (.releaseAll die) (fun d => .next (releaseAll d die)) s

/-- RELEASE_ALL_DONE (R400): RELEASING clears. -/
def execReleaseAllDone (die : Nat) (s : State) : Host.Outcome State Fault Refusal :=
  runOk (decide (die < 8)) [die] (fun d =>
    whenOn "RELEASE_ALL_DONE" (decide (rfld d .resHold die 0 0 5 5 = 1)) (rset d .resHold die 0 0 5 5 0)) s

/-- Valid entries of a die's retirement table (R404). -/
def retireCount (d : Dev) (die : Nat) : Nat :=
  let lo := regKey .hbmRetire die 0 0
  (d.regs.filter fun p => decide (lo ≤ p.1) && decide (p.1 < lo + 8 * 4096) && decide (fld p.2 0 0 = 1)).length

/-- A write of a retirement entry (R386, R387, R403); while all 4,096 entries are valid it is ignored and logged. -/
def retireWrite (d : Dev) (die i : Nat) (v : BitVec 64) : Dev :=
  if retireCount d die = 4096 then logIgnoredAt d .hbmRetire die 0 i v.toNat
  else regSet d .hbmRetire die 0 i (BitVec.ofNat 64 (fld v 29 0))

/-- HBM_RETIRE_WRITE (R386, R387). -/
def execHbmRetireWrite (die i : Nat) (v : BitVec 64) (s : State) : Host.Outcome State Fault Refusal :=
  runCmd (.hbmRetireWrite die i v) (fun d => .next (retireWrite d die i v)) s

end Sys2Proof.Machine
end

