-- ==== Sys2Proof/Machine/Control.lean ====
section
/-!
DEFINITION. The control class (R101, R114 to R116), the special registers (R93), the crew launch and its dequeue (R33 to R36), fetch
beyond the text region (R116) and the illegal instruction (R118, R119).
-/

namespace Sys2Proof.Machine

/-- CTL.NOP (R101): nothing but the next instruction. -/
def execCtlNop (a : Agent) (s : State) : Host.Outcome State Fault Refusal :=
  runCmd (.ctlNop a) (issueStep "CTL_NOP" a (.ctlNop a) [] id) s

/-- CTL.HALT (R114): the sequencer stops issuing. -/
def execCtlHalt (c : CoreId) (s : State) : Host.Outcome State Fault Refusal :=
  runCmd (.ctlHalt c) (issue "CTL_HALT" (.seq c) (.ctlHalt c) [] fun d _ =>
    .next (modSeq d c fun q => { q with st := .halted })) s

/-- A crew has ended (R36): its launch has one crew less, and the last makes the launch complete. -/
def crewEnd (d : Dev) (c : CoreId) (serial : Nat) : Dev :=
  match findLaunch (getCore d c).w serial with
  | none => d
  | some l =>
    if l.left ≤ 1 then
      launchDone (modWork d c fun w => { w with launches := w.launches.filter fun x => decide (x.serial ≠ serial) }) c l .none 0
    else modWork d c fun w => { w with
      launches := w.launches.map fun x => if x.serial = serial then { x with left := x.left - 1 } else x }

/-- CTL.EXIT (R115, R36): the crew ends for all its threads and its slot frees. -/
def execCtlExit (c : CoreId) (slot : Nat) (s : State) : Host.Outcome State Fault Refusal :=
  runCmd (.ctlExit c slot) (issue "CTL_EXIT" (.crew c slot) (.ctlExit c slot) [] fun d _ =>
    match getCrew d c slot with
    | none => .refused (.notEnabled "CTL_EXIT")
    | some k => .next (crewEnd (freeSlot d c slot) c k.launch)) s

/-- CTL.FENCE (R50): the sequencer's accesses take effect as they issue, so none is outstanding. -/
def execCtlFence (c : CoreId) (s : State) : Host.Outcome State Fault Refusal :=
  runCmd (.ctlFence c) (issueStep "CTL_FENCE" (.seq c) (.ctlFence c) [] id) s

/-- CTL.BR (R101). -/
def execCtlBr (a : Agent) (o : BsOp) (s : State) : Host.Outcome State Fault Refusal :=
  runCmd (.ctlBr a o) (issue "CTL_BR" a (.ctlBr a o) [] fun d w => .next (branch d a o.off.toInt w)) s

/-- A conditional branch. -/
def branchIf (d : Dev) (a : Agent) (off : W32) (w : W64) (cond : Bool) : Res :=
  .next (if cond then branch d a off.toInt w else stepPc d a)

/-- CTL.BRZ (R101): branch if s[SC] = 0. -/
def execCtlBrz (c : CoreId) (o : BsOp) (s : State) : Host.Outcome State Fault Refusal :=
  runCmd (.ctlBrz c o) (issue "CTL_BRZ" (.seq c) (.ctlBrz c o) [o.sc.toNat] fun d w =>
    branchIf d (.seq c) o.off w (decide (sreg d c o.sc.toNat = 0))) s

/-- CTL.BRNZ (R101): branch if s[SC] ≠ 0. -/
def execCtlBrnz (c : CoreId) (o : BsOp) (s : State) : Host.Outcome State Fault Refusal :=
  runCmd (.ctlBrnz c o) (issue "CTL_BRNZ" (.seq c) (.ctlBrnz c o) [o.sc.toNat] fun d w =>
    branchIf d (.seq c) o.off w (decide (sreg d c o.sc.toNat ≠ 0))) s

/-- Whether a predicate is true in any active thread of the crew in a slot (R38). -/
def predAny (d : Dev) (c : CoreId) (slot p : Nat) : Bool :=
  ((getCrew d c slot).map fun k => decide (k.mask &&& k.pred p ≠ 0)).getD false

/-- CTL.BRP (R101, R38): branch if PD is true in any active thread. -/
def execCtlBrp (c : CoreId) (slot : Nat) (o : BpOp) (s : State) : Host.Outcome State Fault Refusal :=
  runCmd (.ctlBrp c slot o) (issue "CTL_BRP" (.crew c slot) (.ctlBrp c slot o) [] fun d w =>
    branchIf d (.crew c slot) o.off w (predAny d c slot o.pd.toNat)) s

/-- CTL.BRNP (R101): branch if PD is false in every active thread. -/
def execCtlBrnp (c : CoreId) (slot : Nat) (o : BpOp) (s : State) : Host.Outcome State Fault Refusal :=
  runCmd (.ctlBrnp c slot o) (issue "CTL_BRNP" (.crew c slot) (.ctlBrnp c slot o) [] fun d w =>
    branchIf d (.crew c slot) o.off w (!predAny d c slot o.pd.toNat)) s

/-- CTL.CALL (R101, R116): pushes the return address and branches; a full return stack faults with CALL_DEPTH, which is tested
before the target (log 183, DEDUCED). -/
def execCtlCall (c : CoreId) (o : BsOp) (s : State) : Host.Outcome State Fault Refusal :=
  runCmd (.ctlCall c o) (issue "CTL_CALL" (.seq c) (.ctlCall c o) [] fun d w =>
    let q := (getCore d c).w.seq
    let t : Int := (q.pc : Int) + o.off.toInt
    .next (if 16 ≤ q.ret.length then seqFault d c .callDepth 0 q.pc w
      else if 0 ≤ t ∧ t < textLen d c then modSeq d c fun q => { q with ret := (q.pc + 1) :: q.ret, pc := t.toNat }
      else seqFault d c .fetchRange 0 q.pc w)) s

/-- CTL.RET (R101, R116): pops the return address; an empty stack faults with CALL_DEPTH. -/
def execCtlRet (c : CoreId) (s : State) : Host.Outcome State Fault Refusal :=
  runCmd (.ctlRet c) (issue "CTL_RET" (.seq c) (.ctlRet c) [] fun d w =>
    let q := (getCore d c).w.seq
    .next (match q.ret with
      | [] => seqFault d c .callDepth 0 q.pc w
      | r :: rest =>
        if r < textLen d c then modSeq d c fun q => { q with ret := rest, pc := r } else seqFault d c .fetchRange 0 q.pc w)) s

/-- CTL.LAUNCH (R33, R54, R116): the issue-time tests in their order, a stall while eight launches wait (R28), else the launch enters its
queue with s0 to s7 as arguments. -/
def execCtlLaunch (c : CoreId) (o : LnOp) (s : State) : Host.Outcome State Fault Refusal :=
  runCmd (.ctlLaunch c o) (issue "CTL_LAUNCH" (.seq c) (.ctlLaunch c o)
    ((if o.nreg = 1 then [o.ns.toNat] else []) ++ List.range 8) fun d w =>
    let q := (getCore d c).w.seq
    let n := if o.nreg = 1 then (sreg d c o.ns.toNat).toNat else o.n.toNat
    let t : Int := (q.pc : Int) + o.entry.toInt
    let bad := stakeCheck d o.stake (some (parcelOf d c))
    .next (if 64 < n then seqFault d c .illegalInstruction 6 q.pc w
      else if ¬(0 ≤ t ∧ t < textLen d c) then seqFault d c .fetchRange 0 q.pc w
      else if bad ≠ .none then seqFault d c bad 0 q.pc w
      else if 8 ≤ (getCore d c).w.launchQ.length then d
      else
        let l : Launch := ⟨d.serial, t.toNat, n, (List.range 8).map (sreg d c), o.stake, n, none,
          ((sreg d c 7).toNat % 2 ^ 32)⟩
        stepPc (partIssue (nextSerial (modWork d c fun w => { w with launchQ := w.launchQ ++ [l] })) c false) (.seq c))) s

/-- A crew at the start of a launch (R92, R36). -/
def Crew.start (l : Launch) (i : Nat) : Crew := ⟨l.serial, i, l.entry, [], [], BitVec.allOnes 32, [], [], none⟩

/-- The free crew slots, lowest first. -/
def freeSlots (w : Work) : List Nat := (List.range 64).filter fun i => (tget none w.crews i).isNone

/-- LAUNCH_DEQUEUE (R34, R35): the oldest launch leaves the queue when n slots are free and binds the n lowest of them; a launch of no
crews completes at once. -/
def execLaunchDequeue (c : CoreId) (s : State) : Host.Outcome State Fault Refusal :=
  runCmd (.launchDequeue c) (fun d =>
    let k := getCore d c
    match k.w.launchQ with
    | [] => .refused (.notEnabled "LAUNCH_DEQUEUE")
    | l :: rest =>
      let free := freeSlots k.w
      if k.fenced || decide (k.sched ≠ 1) || k.stopping || l.hook.isSome || decide (free.length < l.n) then .refused (.notEnabled "LAUNCH_DEQUEUE")
      else
        let d := modWork d c fun w => { w with launchQ := rest }
        if l.n = 0 then .next (launchDone d c l .none 0)
        else .next (modWork d c fun w => { w with
          launches := w.launches ++ [l]
          crews := ((free.take l.n).zipIdx).foldl (fun t x => tset none t x.1 (some (Crew.start l x.2))) w.crews })) s

/-- CTL.MPUSH (R101, R38): pushes the mask; threads where PD is false become inactive; beyond depth 16 the crew faults. -/
def execCtlMpush (c : CoreId) (slot : Nat) (o : BpOp) (s : State) : Host.Outcome State Fault Refusal :=
  runCmd (.ctlMpush c slot o) (issue "CTL_MPUSH" (.crew c slot) (.ctlMpush c slot o) [] fun d w =>
    match getCrew d c slot with
    | none => .refused (.notEnabled "CTL_MPUSH")
    | some k =>
      .next (if 16 ≤ k.stack.length then crewFault d c slot .maskDepth 0 k.pc w
        else setCrew d c slot (some { k with stack := k.mask :: k.stack, mask := k.mask &&& k.pred o.pd.toNat, pc := k.pc + 1 }))) s

/-- CTL.MELSE (R101, R115): activity within the top mask entry is inverted; an empty stack faults the crew. -/
def execCtlMelse (c : CoreId) (slot : Nat) (s : State) : Host.Outcome State Fault Refusal :=
  runCmd (.ctlMelse c slot) (issue "CTL_MELSE" (.crew c slot) (.ctlMelse c slot) [] fun d w =>
    match getCrew d c slot with
    | none => .refused (.notEnabled "CTL_MELSE")
    | some k =>
      .next (match k.stack with
        | [] => crewFault d c slot .maskDepth 0 k.pc w
        | m :: _ => setCrew d c slot (some { k with mask := m &&& ~~~k.mask, pc := k.pc + 1 }))) s

/-- CTL.MPOP (R101, R115): the mask below the top entry is restored; an empty stack faults the crew. -/
def execCtlMpop (c : CoreId) (slot : Nat) (s : State) : Host.Outcome State Fault Refusal :=
  runCmd (.ctlMpop c slot) (issue "CTL_MPOP" (.crew c slot) (.ctlMpop c slot) [] fun d w =>
    match getCrew d c slot with
    | none => .refused (.notEnabled "CTL_MPOP")
    | some k =>
      .next (match k.stack with
        | [] => crewFault d c slot .maskDepth 0 k.pc w
        | m :: rest => setCrew d c slot (some { k with mask := m, stack := rest, pc := k.pc + 1 }))) s

/-- The running launch of the crew in a slot. -/
def crewLaunch (d : Dev) (c : CoreId) (k : Crew) : Option Launch := findLaunch (getCore d c).w k.launch

/-- The 64-bit value of a special register (R93) that does not depend on the thread. -/
def specValue (d : Dev) (c : CoreId) (spec : Nat) : W64 :=
  let t : W64 := BitVec.ofNat 64 d.tick
  match spec with
  | 0x03 => BitVec.ofNat 64 c.core
  | 0x04 => BitVec.ofNat 64 c.die
  | 0x05 => t
  | 0x06 => t >>> 32
  | 0x07 => featureWord
  | 0x08 => featureWord >>> 32
  | 0x09 => BitVec.ofNat 64 (parcelOf d c)
  | 0x0A => BitVec.ofNat 64 (b2n (((getCore d c).w.part.map PartRun.plumb).getD false))
  | _ => 0

/-- The value of a special register in a lane of a crew (R93). -/
def crewSpecValue (d : Dev) (c : CoreId) (k : Crew) (spec lane : Nat) : W32 :=
  let arg (n : Nat) : W64 := (((crewLaunch d c k).map Launch.args).getD []).getD n 0
  if spec = 0 then BitVec.ofNat 32 lane
  else if spec = 1 then BitVec.ofNat 32 k.idx
  else if spec = 2 then BitVec.ofNat 32 (((crewLaunch d c k).map Launch.n).getD 0)
  else if 0x10 ≤ spec ∧ spec < 0x18 then (arg (spec - 0x10)).setWidth 32
  else if 0x18 ≤ spec ∧ spec < 0x20 then (arg (spec - 0x18) >>> 32).setWidth 32
  else (specValue d c spec).setWidth 32

/-- CTL.RDSPEC (R93): into s[RD] for the sequencer, into v[RD] of every active thread for a crew. -/
def execCtlRdspec (a : Agent) (o : SpOp) (s : State) : Host.Outcome State Fault Refusal :=
  runCmd (.ctlRdspec a o) (issueStep "CTL_RDSPEC" a (.ctlRdspec a o) [o.rd.toNat] fun d =>
    match a with
    | .seq c => setSreg d c o.rd.toNat (specValue d c o.spec.toNat)
    | .crew c slot => modCrew d c slot fun k =>
        k.writeAll k.mask o.rd.toNat (crewSpecValue d c k o.spec.toNat)) s

/-- ILLEGAL_INSTRUCTION (R118, R119): a word the decoder refuses faults its agent with the subcode of the first failing test. -/
def execIllegalInstruction (a : Agent) (w : W64) (s : State) : Host.Outcome State Fault Refusal :=
  runOk a.wf [a.core.die] (fun d =>
    if !agentReady d a || decide (textLen d a.core ≤ agentPc d a) then .refused (.notEnabled "ILLEGAL_INSTRUCTION")
    else match yelreDecode a w with
      | .ok _ => .refused (.notEnabled "ILLEGAL_INSTRUCTION")
      | .error sub => .next (agentFault d a .illegalInstruction sub (agentPc d a) w)) s

/-- FETCH_RANGE (R116): an agent that runs past the last instruction faults at the first fetch beyond the region. -/
def execFetchRange (a : Agent) (s : State) : Host.Outcome State Fault Refusal :=
  runOk a.wf [a.core.die] (fun d =>
    if agentReady d a && decide (textLen d a.core ≤ agentPc d a) then .next (agentFault d a .fetchRange 0 (agentPc d a) 0)
    else .refused (.notEnabled "FETCH_RANGE")) s

end Sys2Proof.Machine
end

