-- ==== Sys2Proof/Machine/Hooks.lean ====
section
/-!
DEFINITION. Fused prologues and epilogues (06): the prologue copy, ledger fetch and correction (R227, R233, R242, R245, R246, R248), hook programs
(R230), the converter (R236, R237, R239, R244), the ledger publish (R243), the stake route (R247) and the K split (R250).
-/

namespace Sys2Proof.Machine

/-! ### Reductions and the ledger -/

/-- The five reductions of R234 over a row or column in index order, by the fixed tree (R237). -/
def reduce (red : Nat) (xs : List FV) : FV :=
  match red with
  | 1 => fixedTree addR zeroV xs
  | 2 => fixedTree addR zeroV (xs.map fun x => mulR x x)
  | 3 => fixedTree FV.max (.inf true) xs
  | 4 => fixedTree FV.min (.inf false) xs
  | _ => fixedTree FV.max zeroV (xs.map FV.abs)

/-- EXP of a difference, or +0 from −infinity (R244, R245). -/
def expDiff (d : Dev) (c : CoreId) (x m : FV) : FV := if x.eqv (.inf true) then zeroV else sfn32 d c .exp (subR x m)

/-- The scale k of a row: the power of two below its largest magnitude (R244). -/
def rowScale (ys : List FV) : FV :=
  let g := reduce 5 ys
  if g.finite && !g.lt (.fin false 1 (-126)) then .fin false 1 g.expo else one

/-- A row's record, its carry, and the values it stores on the carry route (R244). -/
def ledgerRecord (d : Dev) (c : CoreId) (kind : Nat) (ys : List FV) : FV × FV × FV × List FV :=
  if kind = 3 then
    let m := reduce 3 ys
    let z := ys.map fun y => expDiff d c y m
    (m, reduce 1 z, m, z)
  else
    let k := rowScale ys
    let inv := match k with
      | .fin n m e => FV.fin n m (-e)
      | v => v
    (reduce (if kind = 2 then 2 else 1) ys, zeroV, k, ys.map fun y => mulR y inv)

/-- Closes a ledger row over its records in slot order (R245). -/
def closeRow (d : Dev) (c : CoreId) (kind : Nat) (rs : List (FV × FV)) : FV × FV :=
  let comb (x y : FV × FV) : FV × FV :=
    if kind = 3 then
      let m := x.1.max y.1
      (m, addR (mulR x.2 (expDiff d c x.1 m)) (mulR y.2 (expDiff d c y.1 m)))
    else (addR x.1 y.1, zeroV)
  fixedTree comb (zeroV, zeroV) rs

/-- The final factor of a closed row for a carry value (R246). -/
def finalFactor (d : Dev) (c : CoreId) (kind ntot : Nat) (eps : FV) (cl : FV × FV) (k : FV) : FV :=
  match kind with
  | 1 => mulR k (sfn32 d c .rcp cl.1)
  | 2 => mulR k (sfn32 d c .rsqrt (addR (mulR cl.1 (recip32 ntot)) eps))
  | _ => if k.eqv (.inf true) then zeroV else mulR (sfn32 d c .exp (subR k cl.1)) (sfn32 d c .rcp cl.2)

/-- Fetches ledger rows into the core store (R229, R242): for each row its T records, at `off + 8 × (n × T)`. -/
def fetchLedger (d : Dev) (c : CoreId) (base : Addr) (parts off : Nat) (rows : List (Nat × Nat)) : Dev × FaultCode :=
  rows.foldl (fun (r : Dev × FaultCode) x =>
    if r.2 ≠ .none then r
    else match devReadAll r.1 (ledgerAddr base x.1 parts 0) (8 * parts) with
      | (d, .error f) => (d, f)
      | (d, .ok bs) => (storeWrite d c (off + 8 * (x.2 * parts)) bs, .none)) (d, .none)

/-- The T records of row n as fetched. -/
def fetched (d : Dev) (c : CoreId) (parts off n : Nat) : List (FV × FV) :=
  (List.range parts).map fun t => (v32 (word32 d c (off + 8 * (n * parts + t))), v32 (word32 d c (off + 8 * (n * parts + t) + 4)))

/-! ### Prologue -/

/-- Rows of A that the prologue prepares, with their ledger rows (R242, R290); a gathered row of zeros has none. -/
def RunOp.proRows (o : RunOp) (d : Dev) (c : CoreId) : List (Nat × Nat) :=
  ((List.range o.proShape.1).filter fun i => !(o.gather && decide (o.gatherIdx d c i = noRow))).map fun i =>
    (o.pf 2 23 0 + (if o.gather then o.gatherIdx d c i else i), i)

/-- The prologue's next phase once copy, fetch and correction are done: its program or the steps (R227). -/
def proNext (d : Dev) (c : CoreId) (u : Nat) (o : RunOp) : Dev :=
  if !o.copied || (o.correct && !o.corrected) then setRun d c u o
  else if hookProg o.proWord then
    let r := hookQueue d c u o false
    setRun r.1 c u r.2
  else stepsBegin d c u o

/-- The running operation of a cube in its prologue. -/
def inPrologue (d : Dev) (c : CoreId) (u : Nat) : Option RunOp :=
  (getCube d c u).run.filter fun o => decide (o.phase = .prologue) && cubeGo d c o

/-- The relay blocks that a copy of A reads. -/
def relayAll (d : Dev) (c : CoreId) (o : RunOp) : RelaySt :=
  if !o.relayIn then .ready
  else
    let l := (List.range (cdiv o.e0 8)).map (relayBlock d c o.op.serial)
    if l.contains .never then .never else if l.contains .later then .later else .ready

/-- The prologue copy (R233): A in row-major form at PRO_DST. -/
def proCopy (d : Dev) (c : CoreId) (o : RunOp) : Dev × FaultCode :=
  let f := o.fmts.a
  let bits := fmtBits f
  let gf := gatherFault d c o (List.range o.e0)
  if gf ≠ .none then (d, gf)
  else (List.range o.proShape.1).foldl (fun (r : Dev × FaultCode) i =>
    if r.2 ≠ .none then r
    else
      let ls := (List.range o.proShape.2).map fun k => o.srcLoc r.1 c i k
      if ls.any (locPoisoned r.1 c bits) then (r.1, .poisoned)
      else
        let codes := ls.map fun l => (l.map (locBits r.1 c bits)).getD 0
        (putCodes r.1 c (o.pf 5 20 0 + i * o.pf 6 31 0) f 0 codes, .none)) (d, .none)

/-- PROLOGUE_COPY_DONE (R233, R240). -/
def execPrologueCopyDone (c : CoreId) (u : Nat) (s : State) : Host.Outcome State Fault Refusal :=
  runCmd (.prologueCopyDone c u) (fun d => orNot "PROLOGUE_COPY_DONE" (
    match inPrologue d c u with
    | none => none
    | some o =>
      if o.copied then none
      else match relayAll d c o with
        | .later => none
        | .never => some (failRun d c u o .operandFault)
        | .ready =>
          let r := proCopy d c o
          some (if r.2 ≠ .none then failRun r.1 c u o r.2 else proNext r.1 c u { o with copied := true }))) s

/-- LEDGER_FETCH_DONE (R227, R242): the records are read once LSTAKE is complete, so that the fetch acquires the ledger's writes (R248); a wait
with outcome 1 ends the operation (R249). -/
def execLedgerFetchDone (c : CoreId) (u : Nat) (s : State) : Host.Outcome State Fault Refusal :=
  runCmd (.ledgerFetchDone c u) (fun d => orNot "LEDGER_FETCH_DONE" (
    match inPrologue d c u with
    | none => none
    | some o =>
      if !o.correct || o.fetched || !xferFree d c then none
      else match takeWake d (.unit (.cube c u) o.op.serial) with
        | none => none
        | some (0, d) =>
          let r := fetchLedger d c (BitVec.ofNat 52 (o.pf 1 51 0)) (o.pf 0 28 22) (o.pf 5 52 32) (o.proRows d c)
          some (if r.2 ≠ .none then failRun r.1 c u o r.2 else setRun r.1 c u { o with fetched := true, waited := true })
        | some (_, d) => some (failRun d c u o .operandFault))) s

/-- The correction of one row of the prepared A (R248), counted by R153; an output conversion, so that SAT acts on an
infinity (R156; log 153, DEDUCED). -/
def correctRow (d : Dev) (c : CoreId) (o : RunOp) (i : Nat) : Dev :=
  let kind := o.pf 0 4 3
  let parts := o.pf 0 28 22
  let f := o.fmts
  let cl := closeRow d c kind (fetched d c parts (o.pf 5 52 32) i)
  let eps := v32 (BitVec.ofNat 32 (o.pf 3 63 32))
  let gs := (List.range parts).map fun t =>
    finalFactor d c kind (o.pf 3 31 0) eps cl (v32 (word32 d c (o.pf 4 52 32 + (i * parts + t) * 4)))
  let off := o.pf 5 20 0 + i * o.pf 6 31 0
  let xs := storeRow d c f.a f.ftzIn off o.proShape.2
  let ws := (xs.zipIdx).map fun x => mulR x.1 (gs.getD (x.2 / max 1 (o.pf 2 47 24)) .nan)
  let r := convRow d c o f.a 0 f.ftzIn f.sat ws
  putCodes r.2 c off f.a 0 r.1

/-- PROLOGUE_CORRECTION (R248): once the copy and the fetch are done and LSTAKE is complete. -/
def execPrologueCorrection (c : CoreId) (u : Nat) (s : State) : Host.Outcome State Fault Refusal :=
  runCmd (.prologueCorrection c u) (fun d => orNot "PROLOGUE_CORRECTION" (
    match inPrologue d c u with
    | none => none
    | some o =>
      if !o.correct || o.corrected || !o.copied || !o.fetched then none
      else if storePoisoned d c (o.pf 4 52 32) (4 * (o.proShape.1 * o.pf 0 28 22)) then some (failRun d c u o .poisoned)
      else some (proNext ((o.proRows d c).foldl (fun d r => correctRow d c o r.2) d) c u { o with corrected := true }))) s

/-! ### Hook programs -/

/-- An operation of a cube that has a hook program to launch: in its prologue, or past its drain. -/
def hookOwner (d : Dev) (c : CoreId) (u : Nat) : Option (RunOp × Bool) :=
  let x := getCube d c u
  match x.run.filter fun o => decide (o.phase = .prologue) && hookProg o.proWord && o.copied && (!o.correct || o.corrected) with
  | some o => some (o, false)
  | none => (x.post.find? fun o => decide (o.phase = .program)).map fun o => (o, true)

/-- HOOK_PROGRAM_LAUNCH (R230, R227): the launch enters the queue if it has not, and its crews start when it leaves it. -/
def execHookProgramLaunch (c : CoreId) (u : Nat) (s : State) : Host.Outcome State Fault Refusal :=
  runCmd (.hookProgramLaunch c u) (fun d => orNot "HOOK_PROGRAM_LAUNCH" (
    if !coreGo d c then none
    else
      let put (d : Dev) (o : RunOp) (epi : Bool) : Dev := if epi then setPost d c u o else setRun d c u o
      let q : Dev × Bool := match (hookOwner d c u).filter fun x => !x.1.launched with
        | some (o, epi) =>
          let r := hookQueue d c u o epi
          (put r.1 r.2 epi, r.2.launched)
        | none => (d, false)
      let d := q.1
      let w := (getCore d c).w
      match w.launchQ with
      | l :: rest =>
        let free := freeSlots w
        if l.hook.map Prod.fst = some u ∧ l.n ≤ free.length then
          let d := rcount d .cubeHookStat c.die c.core 0 15 0 1
          some (modWork d c fun w => { w with
            launchQ := rest
            launches := w.launches ++ [l]
            crews := ((free.take l.n).zipIdx).foldl (fun t x => tset none t x.1 (some (Crew.start l x.2))) w.crews })
        else if q.2 then some d else none
      | [] => none)) s

/-! ### The converter -/

/-- The values of a stage row within the run-time columns. -/
def stageRow (d : Dev) (c : CoreId) (o : RunOp) (i : Nat) : List FV := (List.range o.e1).map fun j => v32 (word32 d c (o.stageAt i j))

/-- Whether a RELAY_IN operation paired with an earlier producer is still to complete (R239); the operation itself does not count. -/
def relayHeld (d : Dev) (c : CoreId) (o : RunOp) : Bool :=
  o.relayOut && (relayIns d c).any fun s => decide (s < o.op.serial) && (relayPair d c s).isSome

/-- A row's values with the marks of its elements. -/
def RunOp.marked (o : RunOp) (i : Nat) (zs : List FV) : List (FV × Bool) :=
  (zs.zipIdx).map fun z => (z.1, o.marks.contains (i * o.planN + z.2))

/-- The converter takes row i of the stage in its first pass (R236, R244): its reduction, its carry, and C where the route writes it now. It
answers the row's values, and its record. -/
def convertRow (d : Dev) (c : CoreId) (o : RunOp) (i : Nat) : Dev × List FV × (W32 × W32) :=
  let ys := stageRow d c o i
  let r := ledgerRecord d c o.lkind ys
  let d := if o.ef 0 2 0 = 0 then d else putWords d c (o.ef 3 20 0 + 4 * i) [c32 (reduce (o.ef 0 2 0) ys)]
  let d := if o.lkind = 0 ∨ o.stakeRoute = true then d else putWords d c (o.ef 4 20 0 + 4 * i) [c32 r.2.2.1]
  let d := if o.stakeRoute then d else writeRow d c o i (o.marked i (if o.lkind = 0 then ys else r.2.2.2))
  (d, ys, (c32 r.1, c32 r.2.1))

/-- The first converter pass of an operation (R236, R244): its rows, then its column reductions over the values as the rows were read; it
keeps the records for the publish (R243). -/
def convertRows (d : Dev) (c : CoreId) (o : RunOp) : Dev × RunOp :=
  let r := o.rows.foldl (fun (r : Dev × List (List FV) × List (W32 × W32)) i =>
    let x := convertRow r.1 c o i
    (x.1, r.2.1 ++ [x.2.1], r.2.2 ++ [x.2.2])) (d, [], [])
  let d := if o.ef 0 5 3 = 0 then r.1
    else (List.range o.e1).foldl (fun d j =>
      putWords d c (o.ef 3 52 32 + 4 * j) [c32 (reduce (o.ef 0 5 3) (r.2.1.map fun ys => ys.getD j .nan))]) r.1
  (d, { o with records := r.2.2 })

/-- The second pass of the stake route (R247): each row's factor from its closed record. -/
def routeRows (d : Dev) (c : CoreId) (o : RunOp) : Dev :=
  let parts := o.ef 0 34 28
  let eps := v32 (BitVec.ofNat 32 (o.ef 6 63 32))
  o.rows.foldl (fun d i =>
    let cl := closeRow d c o.lkind (fetched d c parts (o.ef 4 52 32) i)
    let ys := stageRow d c o i
    let f : FV := match o.lkind with
      | 1 => sfn32 d c .rcp cl.1
      | 2 => sfn32 d c .rsqrt (addR (mulR cl.1 (recip32 (o.ef 7 31 0))) eps)
      | _ => sfn32 d c .rcp cl.2
    let zs : List FV := ys.map fun y =>
      if o.lkind ≠ 3 then mulR y f else if y.eqv (.inf true) then zeroV else mulR (sfn32 d c .exp (subR y cl.1)) f
    writeRow d c o i (o.marked i zs)) d

/-- The relay's ready mask as a RELAY_OUT operation's rows are written (R239), which may make a step of a consumer ready. -/
def relayDone (d : Dev) (c : CoreId) (o : RunOp) : Dev :=
  if o.relayOut then
    let n := cdiv (((o.rows.map fun i => i + 1).foldl max 0)) 8
    rampAll (modWork d c fun w => { w with relayReady := BitVec.ofNat 64 (2 ^ n - 1), relayOwner := o.op.serial }) c
  else d

/-- Takes an operation out of the converter's queue. -/
def leaveConv (d : Dev) (c : CoreId) (u serial : Nat) : Dev :=
  modWork d c fun w => { w with convQ := w.convQ.filter fun p => decide (p ≠ (u, serial)) }

/-- A cube operation past its drain. -/
def findPost (d : Dev) (c : CoreId) (u serial : Nat) : Option RunOp := (getCube d c u).post.find? fun o => decide (o.op.serial = serial)

/-- The post-drain operation ends by a fault, with the arrivals of R249. -/
def failPost (d : Dev) (c : CoreId) (u : Nat) (o : RunOp) (f : FaultCode) : Dev :=
  promote (endPost (faultArrivals (leaveConv d c u o.op.serial) c o) c u o f) c u

/-- A poisoned word in the stage, or in the fetched records. -/
def stagePoisoned (d : Dev) (c : CoreId) (o : RunOp) : Bool :=
  o.rows.any fun i => storePoisoned d c (o.stageAt i 0) (4 * o.e1)

/-- The converter serves an operation of a cube (R236): its program's outcome first (R230), then its rows. -/
def convertOp (d : Dev) (c : CoreId) (u : Nat) (o : RunOp) : Option Dev :=
  let serve (d : Dev) : Dev :=
    if stagePoisoned d c o then failPost d c u o .poisoned
    else
      let d := leaveConv d c u o.op.serial
      if o.second then promote (endPost (relayDone (routeRows d c o) c o) c u o .none) c u
      else
        let r := convertRows d c o
        let d := if o.stakeRoute then r.1 else relayDone r.1 c o
        if o.lkind = 0 then promote (endPost d c u o .none) c u else setPost d c u { r.2 with phase := .publish }
  match o.phase with
  | .convert => some (serve d)
  | .program =>
    match takeWake d (.post c u o.op.serial) with
    | none => none
    | some (0, d) => some (serve d)
    | some (f, d) => some (failPost d c u { o with sub := f / 256 } (FaultCode.ofNum (f % 256)))
  | _ => none

/-! ### After the converter -/

/-- LEDGER_PUBLISH (R243): the record that the converter formed of each run-time row goes to its slot; then the operation arrives at LSTAKE,
and under the stake route waits. -/
def publish (d : Dev) (c : CoreId) (u : Nat) (o : RunOp) : Dev :=
  let r := (o.rows.zip o.records).foldl (fun (r : Dev × FaultCode) x =>
    if r.2 ≠ .none then r
    else
      match putLedger r.1 (o.ledgerRow x.1) x.2.1 x.2.2 with
      | (d, .error f) => (d, f)
      | (d, .ok ()) => (d, .none)) (d, .none)
  if r.2 ≠ .none then failPost r.1 c u o r.2
  else
    let d := cubeArrive r.1 c o (o.ef 0 27 11) false
    if o.stakeRoute then
      let d := rcount d .cubeHookStat c.die c.core 0 47 32 1
      unitWait (setPost d c u { o with phase := .route }) (.post c u o.op.serial) (BitVec.ofNat 17 (o.ef 0 27 11)) o.op.parcel o.op.serial
    else promote (endPost d c u o .none) c u

/-- The post-drain operation in a phase, and whether the core works. -/
def postIn (d : Dev) (c : CoreId) (u : Nat) (p : Phase) : Option RunOp :=
  if coreGo d c then (getCube d c u).post.find? fun o => decide (o.phase = p) else none

/-- LEDGER_PUBLISH (R229, R243). -/
def execLedgerPublish (c : CoreId) (u : Nat) (s : State) : Host.Outcome State Fault Refusal :=
  runCmd (.ledgerPublish c u) (fun d => orNot "LEDGER_PUBLISH" (((postIn d c u .publish).filter fun _ => xferFree d c).map (publish d c u))) s

/-- STAKE_ROUTE_RESUME (R247): LSTAKE is complete; the records are fetched and the operation re-enters the converter's queue. -/
def execStakeRouteResume (c : CoreId) (u : Nat) (s : State) : Host.Outcome State Fault Refusal :=
  runCmd (.stakeRouteResume c u) (fun d => orNot "STAKE_ROUTE_RESUME" (
    let x := getCube d c u
    match x.post.find? fun o => decide (o.phase = .route) && d.wakes.any fun w => decide (w.w = .post c u o.op.serial) with
    | none => none
    | some o =>
      if !coreGo d c || !xferFree d c then none
      else match takeWake d (.post c u o.op.serial) with
        | none => none
        | some (0, d) =>
          let rows := o.rows.map fun i => (o.ef 2 23 0 + i, i)
          let r := fetchLedger d c (BitVec.ofNat 52 (o.ef 1 51 0)) (o.ef 0 34 28) (o.ef 4 52 32) rows
          some (if r.2 ≠ .none then failPost r.1 c u o r.2
            else promote (modWork (setPost r.1 c u { o with phase := .convert, second := true }) c fun w => { w with
              convQ := w.convQ ++ [(u, o.op.serial)] }) c u)
        | some (_, d) => some (failPost d c u o .operandFault))) s

/-! ### K split -/

/-- Row i of the raw accumulators of part p. -/
def ksplitRow (d : Dev) (o : RunOp) (p i : Nat) : Dev × Except FaultCode (List W32) :=
  let a : Addr := BitVec.ofNat 52 (o.ef 5 51 0) + BitVec.ofNat 52 ((p * o.planM + i) * o.planN * 4)
  match devReadAll d a (4 * o.e1) with
  | (d, .error f) => (d, .error f)
  | (d, .ok bs) => (d, .ok ((List.range o.e1).map fun j => BitVec.ofNat 32 (leNat ((bs.drop (4 * j)).take 4))))

/-- Part 0's accumulators of row i summed with those of the other parts by the fixed tree over p (R250). -/
def ksplitSum (x : Cube) (o : RunOp) (i : Nat) (others : List (List W32)) : Cube :=
  (List.range o.e1).foldl (fun x j =>
    let b := o.bankOf (i / 8) (j / 8)
    let own := accGet x o.isInt b (i % 8) (j % 8)
    let leaves := own :: others.map fun r => (r.getD j 0, false)
    let comb (y z : W32 × Bool) : W32 × Bool :=
      if o.isInt then
        let t := clampInt 32 (y.1.toInt + z.1.toInt)
        (BitVec.ofInt 32 t.1, y.2 || z.2 || t.2)
      else (add32 y.1 z.1, false)
    accSet x b (i % 8) (j % 8) (fixedTree comb own leaves)) x

/-- KSPLIT_COMBINE (R250): KSTAKE is complete; part 0 reads its banks (R163), sums all parts and drains. -/
def execKsplitCombine (c : CoreId) (u : Nat) (s : State) : Host.Outcome State Fault Refusal :=
  runCmd (.ksplitCombine c u) (fun d => orNot "KSPLIT_COMBINE" (
    match (getCube d c u).run with
    | none => none
    | some o =>
      if o.phase ≠ .ksplit ∨ coreGo d c = false ∨ xferFree d c = false then none
      else match takeWake d (.post c u o.op.serial) with
        | none => none
        | some (0, d) =>
          let parts := o.ef 0 53 47
          let own := readBanks d c u (o.drainBanks d)
          let d := own.1
          let r := o.rows.foldl (fun (r : Dev × FaultCode) i =>
            if r.2 ≠ .none then r
            else
              let y := ((List.range (parts - 1)).foldl (fun (y : Dev × Except FaultCode (List (List W32))) p =>
                match y with
                | (d, .error f) => (d, .error f)
                | (d, .ok l) =>
                  match ksplitRow d o (p + 1) i with
                  | (d, .error f) => (d, .error f)
                  | (d, .ok row) => (d, .ok (l ++ [row]))) (r.1, .ok []))
              match y with
              | (d, .error f) => (d, f)
              | (d, .ok l) => (modCube d c u fun x => ksplitSum x o i l, .none)) (d, .none)
          some (match own.2 with
            | some b => accBad d c u o b
            | none => if r.2 ≠ .none then failRun r.1 c u o r.2 else setRun r.1 c u { o with phase := .drain })
        | some (_, d) => some (failRun d c u o .operandFault))) s

end Sys2Proof.Machine
end

