-- ==== Sys2Proof/Machine/Quant.lean ====
section
/-!
DEFINITION. Quantisation (10): QNT.PACK and QNT.UNPACK with block scales, escapes and side lists (R342 to R355), the converter's turn (R228, R354),
the scale loads (R337 to R341) and the baseline table loads (R269 to R275).
-/

namespace Sys2Proof.Machine

/-! ### Issue -/

/-- The quantise queue is full (R354). -/
def quantFull (c : CoreId) (d : Dev) : Bool := decide (4 ≤ (getCore d c).w.quant.length)

/-- An operation enters the quantise queue. -/
def pushQuant (c : CoreId) (d : Dev) (op : Op) : Dev := modWork d c fun w => { w with quant := w.quant ++ [RunOp.new op] }

/-- QNT.PACK (R342). -/
def execQntPack (c : CoreId) (o : DOp) (s : State) : Host.Outcome State Fault Refusal :=
  runCmd (.qntPack c o) (dIssue "QNT_PACK" c (.qntPack c o) o 0x30 1 false (quantFull c) (pushQuant c)) s

/-- QNT.UNPACK (R342). -/
def execQntUnpack (c : CoreId) (o : DOp) (s : State) : Host.Outcome State Fault Refusal :=
  runCmd (.qntUnpack c o) (dIssue "QNT_UNPACK" c (.qntUnpack c o) o 0x31 2 false (quantFull c) (pushQuant c)) s

/-- QNT.SLOAD (R339, R340). -/
def execQntSload (c : CoreId) (o : DOp) (s : State) : Host.Outcome State Fault Refusal :=
  runCmd (.qntSload c o) (dIssue "QNT_SLOAD" c (.qntSload c o) o 0x32 3 false
    (fun d => decide (2 ≤ (getCore d c).w.sloads.length)) (fun d op => modWork d c fun w => { w with sloads := w.sloads ++ [op] })) s

/-- SFN.TLOAD (R272). -/
def execSfnTload (c : CoreId) (o : DOp) (s : State) : Host.Outcome State Fault Refusal :=
  runCmd (.sfnTload c o) (dIssue "SFN_TLOAD" c (.sfnTload c o) o 0x38 0 false
    (fun d => decide (2 ≤ (getCore d c).w.tloads.length)) (fun d op => modWork d c fun w => { w with tloads := w.tloads ++ [op] })) s

/-! ### The quantise queue -/

/-- The front of the quantise queue ends (R29). -/
def endQuant (d : Dev) (c : CoreId) (o : RunOp) (f : FaultCode) (empty : Bool) : Dev :=
  let d := leaveConv (opCleanup d c (o.ended f empty)) c 4 o.op.serial
  opDone (modWork d c fun w => { w with quant := w.quant.filter fun x => decide (x.op.serial ≠ o.op.serial) }) c 8 o.op f empty

/-- Writes the front of the quantise queue. -/
def setQuant (d : Dev) (c : CoreId) (o : RunOp) : Dev :=
  modWork d c fun w => { w with quant := w.quant.map fun x => if x.op.serial = o.op.serial then o else x }

/-- Orders 4 to 8 of R197 for a quantise operation: it takes the active scale-file bank (R338) and its turn at the converter. -/
def quantGo (d : Dev) (c : CoreId) (o : RunOp) : Dev :=
  match readShape d c o with
  | .error f => endQuant d c o f false
  | .ok o =>
    if o.guarded then endQuant d c o .shapeGuard false
    else match claimTile d c o with
      | (d, .error f) => endQuant d c o f false
      | (d, .ok false) => endQuant d c o .alreadyClaimed false
      | (d, .ok true) =>
        if o.zero then endQuant d c o .none true
        else
          let d := setQuant d c { o with phase := .convert, bank := (getCore d c).w.scaleActive }
          modWork d c fun w => { w with convQ := w.convQ ++ [(4, o.op.serial)] }

/-- The front of the quantise queue becomes the head of its unit (R197). -/
def quantTake (d : Dev) (c : CoreId) : Option Dev :=
  match (getCore d c).w.quant with
  | [] => none
  | x :: _ =>
    if !x.op.desc.isEmpty || !unitsRun d c then none
    else match order1 d c x.op with
      | .error f => some (endQuant d c x f false)
      | .ok op =>
        let o := RunOp.new op
        let f := order2 d c o
        if f ≠ .none then some (endQuant d c o f false)
        else match o.wait with
          | none => some (quantGo (setQuant d c o) c o)
          | some id => some (unitWait (setQuant d c o) (.unit (.quant c) op.serial) id op.parcel op.serial)

/-- The operand wait of the quantise queue's front is over. -/
def quantWaitEnd (d : Dev) (c : CoreId) : Option Dev :=
  match (getCore d c).w.quant with
  | [] => none
  | o :: _ =>
    if o.op.desc.isEmpty || decide (o.phase ≠ .operand) || !unitsRun d c then none
    else match takeWake d (.unit (.quant c) o.op.serial) with
      | none => none
      | some (0, d) => some (quantGo d c o)
      | some (_, d) => some (endQuant d c o .operandFault false)

/-! ### Packing -/

/-- EMAX of a block format (R345). -/
def emaxOf (fmt : Nat) : Int := if fmt = 6 then 4 else 2

/-- The escape code of a code format (R347). -/
def escapeCode (fmt : Nat) : Nat :=
  match fmt with
  | 8 => 0x80
  | 3 | 4 => 0xFF
  | 5 | 6 => 0x20
  | _ => 0x8

/-- The scale-file entry of element (row, column) (R342). -/
def RunOp.entry (o : RunOp) (r j : Nat) : Nat := o.fd 6 19 8 + (if o.bit 0 20 then r else j)

/-- A value times its per-channel scale (R344, R351). -/
def chanScaled (d : Dev) (c : CoreId) (o : RunOp) (r j : Nat) (x : FV) : FV :=
  if o.bit 0 19 then mulR x (v32 (scaleAt d c o.bank (o.entry r j))) else x

/-- The rounding codes of a packing operation (R346). -/
def RunOp.packRnd (o : RunOp) : Nat := if o.bit 0 14 then o.fmts.rnd else 1

/-- The conversion of a scaled value to a code format, with the ranges that an escape code leaves (R347). -/
def packOne (fmt : Nat) (esc : Bool) (rnd : Rnd) (ftz sat : Bool) (v : FV) : Rounded :=
  let r := toElem fmt rnd ftz sat false v
  if esc && decide (r.code = escapeCode fmt) then
    (if fmt = 8 then ⟨0x81, true, r.flush⟩
     else if fmt = 9 then ⟨0x9, true, r.flush⟩
     else if isBlockFmt fmt then { r with code := 0 }
     else r)
  else r

/-- The block scale of a block's values that are not escaped (R345). -/
def blockScale (fmt : Nat) (ys : List FV) : Nat :=
  let a := fixedTree FV.max zeroV (ys.map FV.abs)
  match a with
  | .inf _ => 0xFE
  | .fin _ m _ =>
    if m = 0 then 0x7F
    else
      let x := a.expo - emaxOf fmt + 127
      if x < 0 then 0 else if 254 < x then 254 else x.toNat
  | .nan => 0xFF

/-- The candidates of a row (R348), largest magnitude first and then lower column. -/
def candidates (o : RunOp) (fmt : Nat) (nanBlk : Nat → Bool) (ys : List FV) (rs : List Rnd) : List Nat :=
  let th := v32 (BitVec.ofNat 32 (o.fd 6 63 32))
  let f := o.fmts
  let ok (j : Nat) : Bool :=
    let y := ys.getD j .nan
    let mag := y.abs
    let big := !th.isZero && !th.isNan && !mag.lt th
    let clamp := (decide (fmt = 8) || decide (fmt = 9) || decide (fmt = 3) || decide (fmt = 4)) &&
      (packOne fmt true (rs.getD j .rne) f.ftzOut f.sat y).sat
    !y.isNan && !nanBlk j && (big || clamp)
  let l := (List.range ys.length).filter ok
  l.mergeSort fun a b => !(ys.getD a .nan).abs.lt (ys.getD b .nan).abs && (decide (a ≤ b) || (ys.getD b .nan).abs.lt (ys.getD a .nan).abs)

/-- The rounding of each element of a row, with its draw where it is stochastic (R142, R346). -/
def rowRnds (d : Dev) (c : CoreId) (o : RunOp) (rnd n : Nat) : List Rnd × Dev :=
  (List.range n).foldl (fun (acc : List Rnd × Dev) j =>
    let x := rndOf rnd (reducedOn acc.2 c) (fun d => drawConv d c o j) acc.2
    (acc.1 ++ [x.1], x.2)) ([], d)

/-- Packs row r (R344 to R350). -/
def packRow (d : Dev) (c : CoreId) (o : RunOp) (r : Nat) : Dev :=
  let f := o.fmts
  let fmt := f.c
  let blk := isBlockFmt fmt
  let esc := o.bit 0 18
  let xs := storeRow d c f.a f.ftzIn (offIn c (o.addr 1) + r * o.fd 4 31 0) o.e1
  let ys := (xs.zipIdx).map fun x => chanScaled d c o r x.2 x.1
  let rr := rowRnds d c o o.packRnd o.e1
  let d := rr.2
  let blockYs (b : Nat) : List Nat := (List.range (min 32 (o.e1 - 32 * b))).map fun k => 32 * b + k
  let nanBlk (j : Nat) : Bool := blk && (blockYs (j / 32)).any fun k => (ys.getD k .nan).isNan
  let cand := if esc then candidates o fmt nanBlk ys rr.1 else []
  let cap := o.fd 6 26 20
  let gone := (cand.take cap).mergeSort
  let isGone (j : Nat) : Bool := gone.contains j
  let scales := (List.range (if blk then cdiv o.e1 32 else 0)).map fun b =>
    if nanBlk (32 * b) then 0xFF else blockScale fmt (((blockYs b).filter fun j => !isGone j).map fun j => ys.getD j .nan)
  let res := (List.range o.e1).map fun j =>
    let x := if blk then scales.getD (j / 32) 127 else 127
    if isGone j then Rounded.mk (escapeCode fmt) false false
    else if blk && decide (x = 0xFF) then ⟨0, false, false⟩
    else packOne fmt esc (rr.1.getD j .rne) f.ftzOut f.sat ((ys.getD j .nan).scale (127 - (x : Int)))
  let pad := if blk then List.replicate (scales.length * 32 - o.e1) 0 else []
  let d := storeWrite d c (offIn c (o.addr 2) + r * o.fd 4 63 32) (packCodes (fmtBits fmt) (res.map Rounded.code ++ pad))
  let d := if blk then storeWrite d c (offIn c (o.addr 3) + r * cdiv o.plan.2.1 32) (scales.map (BitVec.ofNat 8)) else d
  let d := countOut d c (res.filter Rounded.sat).length (res.filter Rounded.flush).length
  if esc then
    let side := offIn c (o.addr 5)
    let slot := side + cdiv o.plan.1 64 * 64 + r * cap * 8
    let ovf := decide (cap < cand.length)
    let d := storeWrite d c (side + r) [BitVec.ofNat 8 (gone.length + 128 * b2n ovf)]
    let d := (gone.zipIdx).foldl (fun d g =>
      storeWrite d c (slot + 8 * g.2) (leBytes 8 (g.1 + 2 ^ 32 * (c32 (ys.getD g.1 .nan)).toNat))) d
    modPart d c fun p => { p with escapes := satAdd 0xFFFFFFFF p.escapes gone.length, sideOvf := p.sideOvf || ovf }
  else d

/-! ### Unpacking -/

/-- Unpacks row r (R351, R352): an escaped element returns its side value bit for bit where it goes unscaled to FP32, with the draw of its
conversion. -/
def unpackRow (d : Dev) (c : CoreId) (o : RunOp) (r : Nat) : Except FaultCode Dev :=
  let f := o.fmts
  let fmt := f.a
  let blk := isBlockFmt fmt
  let bits := fmtBits fmt
  let esc := o.bit 0 18
  let src := offIn c (o.addr 1) + r * o.fd 4 31 0
  let sc := offIn c (o.addr 3) + r * cdiv o.plan.2.1 32
  let side := offIn c (o.addr 5)
  let cap := o.fd 6 26 20
  let slot := side + cdiv o.plan.1 64 * 64 + r * cap * 8
  let codes := (List.range o.e1).map fun j => storeElem d c src bits j
  let cols := if esc then (List.range o.e1).filter fun j => decide (codes.getD j 0 = escapeCode fmt) else []
  let n := storeNat d c (side + r) 1 % 128
  let listed := (List.range (min n cap)).map fun k => storeNat d c (slot + 8 * k) 3
  if esc && decide (cols.length ≠ n ∨ cols ≠ listed) then .error .sideMismatch
  else
    let y := (codes.zipIdx).foldl (fun (acc : List Nat × Dev) x =>
      let j := x.2
      let e := word32 d c (slot + 8 * cols.findIdx (fun k => decide (k = j)) + 4)
      let out := cols.contains j
      let v := if out then v32 e else blockVal fmt (if blk then storeNat d c (sc + j / 32) 1 else 127) f.ftzIn x.1
      let z := convOne acc.2 c o j f.c f.rnd f.ftzOut f.sat false (chanScaled d c o r j v)
      if out && decide (f.c = 0) && !o.bit 0 19 then (acc.1 ++ [e.toNat], z.2) else (acc.1 ++ [z.1.code], countElem z.2 c z.1 false)) ([], d)
    .ok (putCodes y.2 c (offIn c (o.addr 2) + r * o.fd 4 63 32) f.c 0 y.1)

/-- A row of the source, its scales or its side list holds a poisoned word (R384). -/
def quantPoison (d : Dev) (c : CoreId) (o : RunOp) (r : Nat) : Bool :=
  let f := o.fmts
  let src := storePoisoned d c (offIn c (o.addr 1) + r * o.fd 4 31 0) (fmtBytes f.a o.e1)
  if o.op.kind = 0x30 then src
  else
    let side := offIn c (o.addr 5)
    let cap := o.fd 6 26 20
    src || (isBlockFmt f.a && storePoisoned d c (offIn c (o.addr 3) + r * cdiv o.plan.2.1 32) (cdiv o.e1 32)) ||
      (o.bit 0 18 && (storePoisoned d c (side + r) 1 ||
        storePoisoned d c (side + cdiv o.plan.1 64 * 64 + r * cap * 8) (8 * min cap (storeNat d c (side + r) 1 % 128))))

/-- The converter works on a quantise operation, row by row; a row that fails ends it (R352, R384). -/
def quantRun (d : Dev) (c : CoreId) (o : RunOp) : Dev :=
  let r := (List.range o.e0).foldl (fun (a : Dev × FaultCode) i =>
    if a.2 ≠ .none then a
    else if quantPoison a.1 c o i then (a.1, .poisoned)
    else if o.op.kind = 0x30 then (packRow a.1 c o i, .none)
    else match unpackRow a.1 c o i with
      | .error f => (a.1, f)
      | .ok d => (d, .none)) (d, .none)
  endQuant r.1 c o r.2 false

/-- What the entry of the converter's queue is: a cube operation past its drain, or the quantise queue's front. -/
def convEntry (d : Dev) (c : CoreId) (e : Nat × Nat) : Option RunOp :=
  if e.1 < 4 then findPost d c e.1 e.2 else (getCore d c).w.quant.find? fun o => decide (o.op.serial = e.2)

/-- CONVERTER_PASS (R228, R236, R354): the converter serves the first of its queue that no earlier relay pair holds (R239). -/
def execConverterPass (c : CoreId) (s : State) : Host.Outcome State Fault Refusal :=
  runCmd (.converterPass c) (fun d => orNot "CONVERTER_PASS" (
    if !coreGo d c then none
    else match (getCore d c).w.convQ.find? fun e => !((convEntry d c e).map (relayHeld d c)).getD false with
      | none => none
      | some e =>
        match convEntry d c e with
        | none => none
        | some o => if e.1 < 4 then convertOp d c e.1 o else some (quantRun d c o))) s

/-! ### Scale loads -/

/-- The current scale load ends (R340). -/
def endSload (d : Dev) (c : CoreId) (op : Op) (f : FaultCode) : Dev :=
  opDone (modWork d c fun w => { w with sloads := w.sloads.drop 1, sphase := 0 }) c 9 op f false

/-- The next scale load begins (R339): its checks; a load of nothing is complete. -/
def sloadTake (d : Dev) (c : CoreId) : Option Dev :=
  let w := (getCore d c).w
  match w.sloads with
  | [] => none
  | op :: rest =>
    if w.sphase ≠ 0 ∨ unitsRun d c = false then none
    else match order1 d c op with
      | .error f => some (endSload d c op f)
      | .ok op =>
        let a : Addr := BitVec.ofNat 52 (wfld op.desc 1 51 0)
        let base := wfld op.desc 2 11 0
        let n := wfld op.desc 2 24 12
        let f := firstFault [(decide (4096 < base + n), .badDescriptor), (misBy 16 a.toNat, .misaligned), (!inOwn c a (4 * n), .spaceDenied)]
        if f ≠ .none then some (endSload d c op f)
        else if n = 0 then some (rcount (endSload d c op .none) .qntSfile c.die c.core 0 47 32 1)
        else some (modWork d c fun w => { w with sloads := op :: rest, sphase := 1 })

/-- A bank with n values of the core store from entry `base` on. -/
def loadScales (d : Dev) (c : CoreId) (bank : Tbl W32) (off base n : Nat) : Tbl W32 :=
  (List.range n).foldl (fun t i => tset oneW t (base + i) (word32 d c (off + 4 * i))) bank

/-- SCALE_LOAD_FLIP (R340): the inactive bank gets its copy and the new values, and becomes active. -/
def execScaleLoadFlip (c : CoreId) (s : State) : Host.Outcome State Fault Refusal :=
  runCmd (.scaleLoadFlip c) (fun d => orNot "SCALE_LOAD_FLIP" (
    let w := (getCore d c).w
    match w.sloads with
    | [] => none
    | op :: _ =>
      if w.sphase ≠ 1 ∨ coreGo d c = false then none
      else
        let off := offIn c (BitVec.ofNat 52 (wfld op.desc 1 51 0))
        let n := wfld op.desc 2 24 12
        if storePoisoned d c off (4 * n) then some (endSload d c op .poisoned)
        else
          let b := loadScales d c (if w.scaleActive = 0 then w.scale0 else w.scale1) off (wfld op.desc 2 11 0) n
          some (modWork d c fun w => { w with
            scale0 := if w.scaleActive = 0 then w.scale0 else b
            scale1 := if w.scaleActive = 0 then b else w.scale1
            scaleActive := 1 - w.scaleActive
            scaleGen := w.scaleGen + 1
            sphase := 2 }))) s

/-- An operation carries the bank that is not active (R340). -/
def oldScales (d : Dev) (c : CoreId) : Bool :=
  let w := (getCore d c).w
  ((List.range 4).any fun u =>
    let x := getCube d c u
    (x.post ++ x.run.toList).any fun o => decide (o.phase ≠ .done) && decide (o.bank ≠ w.scaleActive)) ||
    w.quant.any fun o => decide (o.phase = .convert) && decide (o.bank ≠ w.scaleActive)

/-- SCALE_LOAD_DRAIN_END (R340). -/
def execScaleLoadDrainEnd (c : CoreId) (s : State) : Host.Outcome State Fault Refusal :=
  runCmd (.scaleLoadDrainEnd c) (fun d => orNot "SCALE_LOAD_DRAIN_END" (
    let w := (getCore d c).w
    match w.sloads with
    | [] => none
    | op :: _ =>
      if w.sphase ≠ 2 ∨ coreGo d c = false ∨ oldScales d c = true then none
      else some (rcount (endSload d c op .none) .qntSfile c.die c.core 0 47 32 1))) s

/-! ### Baseline table loads -/

/-- The current table load ends (R274). -/
def endTload (d : Dev) (c : CoreId) (op : Op) (f : FaultCode) : Dev :=
  opDone (modWork d c fun w => { w with tloads := w.tloads.drop 1, tphase := 0 }) c 10 op f false

/-- The next table load becomes current (R99, R273). -/
def tloadTake (d : Dev) (c : CoreId) : Option Dev :=
  let w := (getCore d c).w
  match w.tloads with
  | [] => none
  | op :: rest =>
    if w.tphase ≠ 0 ∨ unitsRun d c = false then none
    else match order1 d c op with
      | .error f => some (endTload d c op f)
      | .ok op =>
        let a : Addr := BitVec.ofNat 52 (wfld op.desc 1 51 0)
        let f := firstFault [(misBy 64 a.toNat, .misaligned), (!inOwn c a 20240, .spaceDenied),
          (decide (wfld op.desc 2 31 0 ≠ 20240), .badImage)]
        if f ≠ .none then some (endTload d c op f)
        else some (modWork d c fun w => { w with tloads := op :: rest, tphase := 1 })

/-- The tests of R273 on a baseline image. -/
def baseImageBad (m : List Byte) (expect : Nat) : Bool :=
  decide (bytesNat m 0 4 ≠ 0x42544B46) || decide (bytesNat m 4 1 ≠ 1) || decide (bytesNat m 5 1 ≠ 1) || decide (bytesNat m 6 2 ≠ 0x1FFF) ||
    decide (bytesNat m 8 4 = 0) || (decide (expect ≠ 0) && decide (bytesNat m 8 4 ≠ expect)) || decide (bytesNat m 12 4 ≠ 20240) ||
    ((List.range 13).any fun k => decide (bytesNat m (0x40 + k * 1552 + 5) 1 ≠ 7)) ||
    decide ((m.drop 0x20).take 32 ≠ sha256 (m.drop 0x40))

/-- TABLE_LOAD_FLIP (R273, R274): the image is copied into the inactive bank and checked; a good one becomes active. -/
def execTableLoadFlip (c : CoreId) (s : State) : Host.Outcome State Fault Refusal :=
  runCmd (.tableLoadFlip c) (fun d => orNot "TABLE_LOAD_FLIP" (
    let w := (getCore d c).w
    match w.tloads with
    | [] => none
    | op :: _ =>
      if w.tphase ≠ 1 ∨ coreGo d c = false then none
      else
        let off := offIn c (BitVec.ofNat 52 (wfld op.desc 1 51 0))
        if storePoisoned d c off 20240 then some (endTload d c op .poisoned)
        else
          let m := storeRead d c off 20240
          if baseImageBad m (wfld op.desc 2 63 32) then some (endTload d c op .badImage)
          else
            let next := if w.baseActive = some 0 then 1 else 0
            some (modWork d c fun w => { w with
              base0 := if next = 0 then m else w.base0
              base1 := if next = 1 then m else w.base1
              baseActive := some next
              baseGen := w.baseGen + 1
              tphase := 2 }))) s

/-- TABLE_LOAD_DRAIN_END (R274): every instruction reads its bank as it issues, so none carries the old generation. -/
def execTableLoadDrainEnd (c : CoreId) (s : State) : Host.Outcome State Fault Refusal :=
  runCmd (.tableLoadDrainEnd c) (fun d => orNot "TABLE_LOAD_DRAIN_END" (
    let w := (getCore d c).w
    match w.tloads with
    | [] => none
    | op :: _ =>
      if w.tphase ≠ 2 ∨ coreGo d c = false then none
      else some (rcount (endTload d c op .none) .sfnLoad c.die c.core 0 47 32 1))) s

end Sys2Proof.Machine
end

