-- ==== Sys2Proof/Machine/Schedule.lean ====
section
/-!
DEFINITION. Placement of parts (R458 to R460), pre-emption and context images (R463 to R467), tenants and swaps (R461, R462), rebuilds (R456) and
the cyclic schedule (R468 to R471).
-/

namespace Sys2Proof.Machine

/-! ### Waiting parts (R458) -/

/-- A waiting part: its channel, command, index and PRIORITY, the tick in which its command became ready, and the core that holds its image. -/
structure WaitPart where
  chan : Nat
  num : Nat
  part : Nat
  prio : Nat
  ready : Nat
  resume : Option CoreId
deriving DecidableEq, Repr

/-- The order of R458. -/
def WaitPart.rank (x : WaitPart) : List Nat := [3 - x.prio, if x.resume.isSome then 0 else 1, x.ready, x.chan, x.part]

/-- Bits of a mask of parts. -/
def partBits (m : W32) : List Nat := (List.range 32).filter fun i => m.getLsbD i

/-- The new parts of a channel that wait for a core. -/
def newParts (ch : Nat) (k : Channel) : List WaitPart :=
  (k.cmds.filter fun x => x.started && x.acted && decide (x.op = 1)).flatMap fun x =>
    (partBits x.place).map fun p => ⟨ch, x.num, p, k.prio, x.readyTick, none⟩

/-- The saved parts of a parcel. -/
def heldParts (d : Dev) (p : Nat) : List WaitPart :=
  (parcelCores d (getParcel d p)).filterMap fun c =>
    let k := getCore d c
    match k.held.bind fun h => h.w.part with
    | some r =>
      if r.parcel = p ∧ k.sched ≠ 3 then
        some ⟨r.chan, r.num, r.part, r.prio, ((findCmd d r.chan r.num).map Cmd.readyTick).getD 0, some c⟩
      else none
    | none => none

/-- The waiting parts of a parcel in the order of R458. -/
def waitingParts (d : Dev) (p : Nat) : List WaitPart :=
  let new := (d.chans.filter fun x => decide (x.2.state ≠ 0) && decide (x.2.parcelIdx = p)).flatMap fun x => newParts x.1 x.2
  (heldParts d p ++ new).mergeSort fun a b => !rankLt b.rank a.rank

/-! ### Starting a part (R423, R459) -/

/-- A core is under reset (R591). -/
def coreInReset (d : Dev) (c : CoreId) : Bool :=
  let r := regGet d .errCoreRst c.die 0 0
  decide (fld r 9 9 = 1) && decide (fld r 7 0 = c.core)

/-- A core is free for a part (R423, R477). -/
def coreFree (d : Dev) (c : CoreId) : Bool :=
  let k := getCore d c
  decide (k.sched = 0) && !k.fenced && !coreInReset d c && !stopped d c.die

/-- The scalar registers at entry (R423). -/
def entryRegs (x : Cmd) (part : Nat) : Tbl W64 :=
  ((List.range 6).foldl (fun t i => tset 0 t (2 + i) (x.words.getD (2 + i) 0))
    (tset 0 (tset 0 [] 0 (BitVec.ofNat 64 part)) 1 (BitVec.ofNat 64 x.parts)))

/-- Applies f to every core that differs from its reset state. -/
def mapCores (d : Dev) (f : Core → Core) : Dev :=
  { d with cores := (d.cores.map fun p => (p.1, f p.2)).filter fun p => decide (p.2 ≠ Core.idle) }

/-- The residency tag is taken by a core, and cleared on every other that names the same channel and part (R459). -/
def takeTag (d : Dev) (c : CoreId) (ch part : Nat) : Dev :=
  let d := mapCores d fun k => if k.tagValid ∧ k.tagChan = ch ∧ k.tagPart = part then { k with tagValid := false } else k
  modCore d c fun k => { k with tagValid := true, tagChan := ch, tagPart := part }

/-- The work of a core as a part starts on it (R92, R423, R559, R560): registers and queues as at entry; banks, scale file and baseline stay. -/
def entryWork (w : Work) (x : Cmd) (a0 : Addr) (r : PartRun) : Work :=
  { w with
    seq := ⟨.running, entryRegs x r.part, tset 0 [] 0 a0, r.image.entry, [], [], none⟩
    crews := []
    launchQ := []
    launches := []
    part := some r
    rng := if r.plumb then w.rng else partSources r.seed r.chan r.part
    plumbRng := []
    convRng := []
    relays := [] }

/-- A part starts on a core (R423). -/
def startPart (d : Dev) (c : CoreId) (x : Cmd) (ch part : Nat) : Dev :=
  match x.image with
  | none => d
  | some im =>
    let k := getChan d ch
    let p := getParcel d k.parcelIdx
    let seed := regGet d .pclSeed 0 0 k.parcelIdx
    let b : W32 := BitVec.ofNat 32 (2 ^ part)
    let r : PartRun := ⟨ch, x.num, part, k.prio, k.parcelIdx, p.plumb, decide (x.reassign &&& b ≠ 0), seed, im, d.tick, none, 0, 0, 0, .none, 0, 0,
      .none, 0, 0, 0, 0, 0, false⟩
    let d := setCmd d ch { x with place := x.place &&& ~~~b, running := x.running ||| b }
    let d := rcount d .pclStat 0 0 k.parcelIdx 31 0 1
    let d := if p.plumb then d else countSeeding d c
    let a0 := k.submit + BitVec.ofNat 52 (x.num % 2 ^ k.submitOrder * 64)
    let d := modCore d c fun k => { k with sched := 1, w := entryWork k.w x a0 r }
    takeTag d c ch part

/-! ### Placement (R459, R460) -/

/-- The core of the package whose valid residency tag names a channel and part (R459). -/
def taggedCore (d : Dev) (ch part : Nat) : Option CoreId :=
  (d.cores.find? fun e => e.2.tagValid && decide (e.2.tagChan = ch) && decide (e.2.tagPart = part)).map fun e => ⟨e.1 / 144, e.1 % 144⟩

/-- The core of a part by R459: the first free core of the first entry that has one. -/
def placeNormal (d : Dev) (cores : List CoreId) (ch part : Nat) : Option CoreId :=
  let free := cores.filter (coreFree d)
  let tagged := taggedCore d ch part
  let near : Option CoreId := match tagged with
    | none => none
    | some h =>
      (free.find? fun c => decide (c = h)).or
        ((free.find? fun c => decide (c.die = h.die) && decide (c.core / 12 = h.core / 12)).or
          (free.find? fun c => decide (c.die = h.die)))
  near.or ((free.find? fun c => !(getCore d c).tagValid).or free.head?)

/-- What the dispatcher does with a waiting part: places it on a core, fails it, or leaves it. -/
inductive Place1 where
  | on (c : CoreId)
  | fail
  | wait
deriving DecidableEq, Repr

/-- The placement of one waiting part; `first` tells that no part ordered before it is left waiting (R466). -/
def placeOne (d : Dev) (p : Nat) (x : WaitPart) (first : Bool) : Place1 :=
  let q := getParcel d p
  let cores := parcelCores d q
  match x.resume with
  | some c => if first && coreFree d c then .on c else .wait
  | none =>
    if q.plumb then
      match cores[x.part % max cores.length 1]? with
      | none => .wait
      | some c => if (getCore d c).fenced then .fail else if coreFree d c then .on c else .wait
    else match placeNormal d cores x.chan x.part with
      | some c => .on c
      | none => .wait

/-- Places a part, or begins the reading of its image. -/
def putPart (d : Dev) (x : WaitPart) (c : CoreId) : Dev :=
  match x.resume with
  | some c => modCore d c fun k => { k with sched := 3 }
  | none =>
    match findCmd d x.chan x.num with
    | some y => startPart d c y x.chan x.part
    | none => d

/-- Places the waiting parts of a parcel in order, at most `room` of them: the device, what room is left, and the first part left waiting. -/
def placeParts (p : Nat) : List WaitPart → Dev → Nat → Option WaitPart → Dev × Nat × Option WaitPart
  | [], d, room, left => (d, room, left)
  | x :: rest, d, room, left =>
    if room = 0 then (d, 0, left.or (some x))
    else match placeOne d p x left.isNone with
      | .on c => placeParts p rest (putPart d x c) (room - 1) left
      | .fail => placeParts p rest (partNever d x.chan x.num x.part .coreFenced) room left
      | .wait => placeParts p rest d room (left.or (some x))

/-! ### Pre-emption (R463) -/

/-- A waiting part of one PRIORITY may pre-empt a running part of another (R457). -/
def mayPreempt (w v : Nat) : Bool := (decide (w = 2) && decide (v = 0)) || (decide (w = 3) && decide (v < 3))

/-- 1 ms in datum ticks. -/
def milli : Nat := 20313

/-- A running part that a waiting part may pre-empt, with its PRIORITY and start. -/
def victimOf (d : Dev) (prio : Nat) (c : CoreId) : Option (Nat × Nat × CoreId) :=
  let k := getCore d c
  match k.w.part with
  | some r =>
    if k.sched = 1 ∧ !k.fenced ∧ mayPreempt prio r.prio ∧ ((r.resumed.map fun t => decide (t + milli ≤ d.tick)).getD true) then
      some (r.prio, r.started, c)
    else none
  | none => none

/-- The victim of R463: the lowest PRIORITY, then the latest start. -/
def chooseVictim (l : List (Nat × Nat × CoreId)) : Option CoreId :=
  (l.foldl (fun (best : Option (Nat × Nat × CoreId)) x => match best with
    | none => some x
    | some b => if x.1 < b.1 ∨ (x.1 = b.1 ∧ b.2.1 < x.2.1) then some x else some b) none).map fun x => x.2.2

/-- The highest waiting part of a parcel finds no free core (R463): the victim is chosen, and asked to stop unless its core holds a saved image, CTX_ADDR
is zero or the parcel is shared. A victim that has been asked goes on stopping. -/
def requestPreempt (d : Dev) (p : Nat) (x : WaitPart) : Dev :=
  let q := getParcel d p
  let cores := parcelCores d q
  let able := if q.plumb && x.resume.isNone then cores[x.part % max cores.length 1]?.toList else cores
  match chooseVictim (able.filterMap (victimOf d x.prio)) with
  | some c => if q.ctx = 0 ∨ q.tenants ≠ 0 ∨ (getCore d c).held.isSome then d else modCore d c fun k => { k with stopping := true }
  | none => d

/-- The dispatch of one parcel at a tick boundary. -/
def dispatchParcel (r : Dev × Nat) (p : Nat) : Dev × Nat :=
  let y := placeParts p (waitingParts r.1 p) r.1 r.2 none
  match y.2.2 with
  | some x => (if y.2.1 = 0 then y.1 else requestPreempt y.1 p x, y.2.1)
  | none => (y.1, y.2.1)

/-- DISPATCH_TICK (R458): once a tick the dispatcher places waiting parts, at most 64, parcel by parcel, and requests pre-emptions; notices held back
from an earlier tick go out (R426). -/
def execDispatchTick (s : State) : Host.Outcome State Fault Refusal :=
  runCmd .dispatchTick (fun d =>
    if d.sched.dispatched = some d.tick ∨ halted d 0 then .refused (.notEnabled "DISPATCH_TICK")
    else
      let d := { d with sched := { d.sched with dispatched := some d.tick } }
      let d := ((d.parcels.filter fun p => decide (p.2.state ≠ 0)).map Prod.fst).foldl dispatchParcel (d, 64)
      .next (((d.1.chans.filter fun x => x.2.noticeDue && decide (x.2.noticed ≠ some d.1.tick) && !commandBusy d.1 (homeDie d.1 x.1)).map Prod.fst).foldl sendNotice d.1)) s

/-! ### Stopping and saving (R464, R465) -/

/-- A cube has come to a point where it stops (R464): no operation runs but one between its MMA or convolution steps, and none is past its steps. -/
def Cube.stopped (x : Cube) : Bool :=
  x.post.isEmpty && (match x.run with
    | none => true
    | some o => (decide (o.op.kind = 1) || decide (o.op.kind = 2)) && decide (o.phase = .steps) && !o.replaying)

/-- Every agent and unit of a core has come to where R464 stops it. -/
def coreStopped (k : Core) : Bool :=
  k.w.seq.inflight.isEmpty && (k.w.crews.all fun p => (p.2.map fun x => x.inflight.isEmpty).getD true) &&
    (List.range 4).all (fun u => (tget Cube.empty k.w.cubes u).stopped) &&
    (k.w.quant.all fun o => o.op.desc.isEmpty || decide (o.phase = .operand)) &&
    decide (k.w.tphase = 0) && decide (k.w.sphase = 0) && (k.w.flights.all Flight.stopped) && (k.w.launches.all fun l => l.hook.isNone) && (k.w.launchQ.all fun l => l.hook.isNone)

/-- CORE_STOPPED (R464): the core has stopped; its waits are abandoned and its image is being written. -/
def execCoreStopped (c : CoreId) (s : State) : Host.Outcome State Fault Refusal :=
  runCmd (.coreStopped c) (fun d =>
    let k := getCore d c
    whenOn "CORE_STOPPED" (k.stopping && decide (k.sched = 1) && !partOver k && coreStopped k)
      (modCore (abandonWaits d c) c fun k => { k with sched := 2, stopping := false, w := { k.w with flights := k.w.flights.map Flight.atLine } })) s

/-- The rank of a core in its parcel (R451). -/
def rankOf (d : Dev) (p : Nat) (c : CoreId) : Nat := (parcelCores d (getParcel d p)).findIdx fun x => decide (x = c)

/-- Bytes of the core store in an image (R465). -/
def imageStore (im : Image) : Nat := (im.coreStore + 65535) / 65536 * 65536

/-- The bound crew slots of a core. -/
def boundCrews (w : Work) : List (Nat × Crew) := w.crews.filterMap fun p => p.2.map fun k => (p.1, k)

/-- The cubes with banks in use. -/
def bankCubes (w : Work) : List Nat := (List.range 4).filter fun u => !(tget Cube.empty w.cubes u).acc.isEmpty

/-- Where the crews' sections of a context image begin (R465), after header and sequencer. -/
def imageCrews : Nat := 4096 + 1024

/-- Where the banks' sections begin (R465), after the crews and the queues. -/
def imageBanks (w : Work) : Nat := imageCrews + 8448 * (boundCrews w).length + 16384

/-- Where the section of the streams begins (R465). -/
def imageStreams (w : Work) : Nat := imageBanks w + 16384 * (bankCubes w).length

/-- Where the scale-file section begins (R465). -/
def imageScale (w : Work) : Nat := imageStreams w + 512

/-- Where the section of the active baseline bank begins, if one is active (R465). -/
def imageBase (w : Work) : Nat := imageScale w + 16384

/-- Where the relay's section begins (R465). -/
def imageRelay (w : Work) : Nat := imageBase w + (if w.baseActive.isSome then 20288 else 0)

/-- Where the core-store section begins (R465). -/
def imageCore (w : Work) : Nat := imageRelay w + 64

/-- The length of a context image (R465). -/
def contextBytes (w : Work) (im : Image) : Nat := imageCore w + imageStore im

/-- Where a part's context image lies. -/
def contextAddr (d : Dev) (p : Nat) (c : CoreId) : Addr := (getParcel d p).ctx + BitVec.ofNat 52 (rankOf d p c * (4 * 2 ^ 20))

/-- The address n bytes on. -/
def onward (a : Addr) (n : Nat) : Addr := a + BitVec.ofNat 52 n

/-- A line takes bytes, or is poisoned where its source could not be read (log 157). -/
def lineTake (d : Dev) (a : Addr) (r : Except FaultCode (List Byte)) : Dev :=
  match r with
  | .ok b => (devWrite d a b).1
  | .error _ =>
    match devWrite d a (List.replicate 64 0), resolve d a with
    | (d, .ok ()), some (.store c off) => (List.range 8).foldl (fun d i => setPoison d (storeKey c (off + 8 * i)) true) d
    | (d, .ok ()), some p => setPoison d (lineKey p.key) true
    | (d, _), _ => d

/-- Copies lines from one extent to another. -/
def moveLines (d : Dev) (src dst : Addr) (n : Nat) : Dev :=
  (List.range (n / 64)).foldl (fun d i =>
    let r := devRead d (onward src (64 * i)) 64 false
    lineTake r.1 (onward dst (64 * i)) r.2) d

/-- Writes zeros over lines. -/
def zeroLines (d : Dev) (a : Addr) (n : Nat) : Dev :=
  (List.range (n / 64)).foldl (fun d i => lineTake d (onward a (64 * i)) (.ok (List.replicate 64 0))) d

/-! ### The bytes of a context image (R465)

The manual gives each section's size and what it holds; where in its section a value stands is the model's choice (log 84): in the order listed, little-endian,
the rest of the section free values. -/

/-- Values of n bytes each. -/
def valueBytes (n : Nat) (l : List Nat) : List Byte := l.flatMap (leBytes n)

/-- Value i of those of n bytes each that begin at a byte. -/
def valueAt (b : List Byte) (off n i : Nat) : Nat := bytesNat b (off + n * i) n

/-- The header: die, core, channel, part, PRIORITY, PLUMB, lane count, seed, tick and the section sizes. -/
def headerSection (d : Dev) (c : CoreId) (w : Work) (im : Image) : List Byte :=
  valueBytes 8 ([c.die, c.core] ++
    (w.part.elim [] fun r => [r.chan, r.part, r.prio, b2n r.plumb, lanesOf (getCore d c), r.seed.toNat, d.tick]) ++
    [1024, 8448 * (boundCrews w).length, 16384, 16384 * (bankCubes w).length, 512, 16384, imageRelay w - imageBase w, 64, imageStore im])

/-- The sequencer: its registers, program counter, return stack with its depth, and pending wait. -/
def seqSection (q : Seq) : List Byte :=
  valueBytes 8 ((List.range 32).map (fun i => (tget 0 q.s i).toNat) ++ (List.range 16).map (fun i => (tget 0 q.a i).toNat) ++
    q.pc :: q.ret.length :: q.ret ++ q.wait.elim [] fun r => [r.stake.toNat, r.limit])

/-- The sequencer as read back; its pending wait is the image's typed state. -/
def Seq.back (q : Seq) (b : List Byte) (off : Nat) : Seq :=
  let v := valueAt b off 8
  { q with
    s := (List.range 32).foldl (fun t i => tset 0 t i (BitVec.ofNat 64 (v i))) []
    a := (List.range 16).foldl (fun t i => tset 0 t i (BitVec.ofNat 52 (v (32 + i)))) []
    pc := v 48
    ret := (List.range (min 64 (v 49))).map fun i => v (50 + i) }

/-- The predicates of a thread. -/
def Crew.preds (k : Crew) (t : Nat) : Nat := ((List.range 8).map fun i => 2 ^ i * b2n ((tget 0 k.p i).getLsbD t)).sum

/-- A crew: per thread its registers and predicates; then the mask and its stack, the program counter and the launch. -/
def crewSection (k : Crew) : List Byte :=
  (List.range 32).flatMap (fun t => valueBytes 4 ((List.range 64).map fun r => (k.reg t r).toNat) ++ leBytes 1 (k.preds t)) ++
    valueBytes 4 ([k.mask.toNat, k.pc, k.launch, k.idx, k.stack.length] ++ k.stack.map BitVec.toNat)

/-- A crew as read back; its launch and its pending wait are the image's typed state. -/
def Crew.back (k : Crew) (b : List Byte) (off : Nat) : Crew :=
  let v := valueAt b (off + 32 * 257) 4
  { k with
    v := (List.range 2048).foldl (fun t i => tset 0 t i (BitVec.ofNat 32 (bytesNat b (off + 257 * (i / 64) + 4 * (i % 64)) 4))) []
    p := (List.range 8).foldl (fun t i => tset 0 t i (BitVec.ofNat 32 ((List.range 32).map fun l =>
      2 ^ l * (bytesNat b (off + 257 * l + 256) 1 / 2 ^ i % 2)).sum)) []
    mask := BitVec.ofNat 32 (v 0)
    pc := v 1
    stack := (List.range (min 32 (v 4))).map fun i => BitVec.ofNat 32 (v (5 + i)) }

/-- A cube's banks: every element in order (R163). -/
def bankSection (x : Cube) : List Byte := valueBytes 4 ((List.range 4096).map fun k => (tget none x.acc k).elim 0 fun e => e.1.toNat)

/-- A cube's banks as read back. -/
def Cube.back (x : Cube) (b : List Byte) (off : Nat) : Cube :=
  { x with acc := (List.range 4096).foldl (fun t k =>
      let v : W32 := BitVec.ofNat 32 (valueAt b off 4 k)
      tset none t k (match tget none x.acc k with
        | some e => some (v, e.2)
        | none => if v = 0 then none else some (v, false))) [] }

/-- A stream slot: its state, list, count and first four bases. -/
def streamSection (x : Stream) : List Byte :=
  (valueBytes 8 ([x.state, x.list.toNat, x.count] ++ (x.bases.take 4).map BitVec.toNat) ++ List.replicate 64 0).take 64

/-- A stream slot as read back. -/
def Stream.back (x : Stream) (b : List Byte) (off : Nat) : Stream :=
  let v := valueAt b off 8
  { x with
    state := v 0
    list := BitVec.ofNat 52 (v 1)
    count := v 2
    bases := x.bases.zipIdx.map fun p => if p.2 < 4 then BitVec.ofNat 52 (v (3 + p.2)) else p.1 }

/-- The scale-file section: the active bank's entries in order (R465, R337). -/
def scaleSection (w : Work) : List Byte := (List.range 4096).flatMap fun e => leBytes 4 (tget oneW (if w.scaleActive = 0 then w.scale0 else w.scale1) e).toNat

/-- The image of the active baseline bank. -/
def baseSection (w : Work) : List Byte := w.baseActive.elim [] fun i => if i = 0 then w.base0 else w.base1

/-- Sections, each with its size: their bytes, and free values up to the size. -/
def sectionBytes : List (Nat × List Byte) → Dev → List Byte × Dev
  | [], d => ([], d)
  | x :: rest, d =>
    let f := freeBytes (x.1 - x.2.length) d
    let r := sectionBytes rest f.2
    ((x.2 ++ f.1).take x.1 ++ r.1, r.2)

/-- The sections of a context image before its core store, in order (R465); of the queues the manual gives no bytes (log 84). -/
def imageSections (d : Dev) (c : CoreId) (w : Work) (im : Image) : List (Nat × List Byte) :=
  [(4096, headerSection d c w im), (1024, seqSection w.seq)] ++ (boundCrews w).map (fun p => (8448, crewSection p.2)) ++ [(16384, [])] ++
    (bankCubes w).map (fun u => (16384, bankSection (tget Cube.empty w.cubes u))) ++
    [(512, (List.range 8).flatMap fun s => streamSection (tget Stream.empty w.streams s)), (16384, scaleSection w)] ++
    (if w.baseActive.isSome then [(20288, baseSection w)] else []) ++
    [(64, valueBytes 8 [(regGet d .cubeRelay c.die c.core 0).toNat, w.relayReady.toNat])]

/-- Writes a context image (R465): its sections, and the core store's bytes. -/
def writeImage (d : Dev) (c : CoreId) (a : Addr) (w : Work) (im : Image) : Dev :=
  let r := sectionBytes (imageSections d c w im) d
  let d := (List.range (imageCore w / 64)).foldl (fun d i => lineTake d (onward a (64 * i)) (.ok ((r.1.drop (64 * i)).take 64))) r.2
  moveLines d (storeAddr c 0) (onward a (imageCore w)) (imageStore im)

/-- What a save leaves in the core (R464): banks, scale file and tables as they stand; nothing of the part. -/
def leftWork (w : Work) : Work :=
  { Work.empty with
    base0 := w.base0, base1 := w.base1, baseActive := w.baseActive, baseGen := w.baseGen
    cubes := w.cubes.map fun p => (p.1, { p.2 with queue := [], head := none, run := none })
    scale0 := w.scale0, scale1 := w.scale1, scaleActive := w.scaleActive, scaleGen := w.scaleGen
    streams := w.streams.map fun p => (p.1, { p.2 with state := 0 }) }

/-- The A rows in a cube's cells are no part of an image (R465; log 158): a step after a resume loads its rows again. -/
def Work.noCells (w : Work) : Work := { w with cubes := w.cubes.map fun p => (p.1, { p.2 with cells := none }) }

/-- CONTEXT_IMAGE_WRITTEN (R464, R465): the image is written, the core is FREE with HELD set. -/
def execContextImageWritten (c : CoreId) (s : State) : Host.Outcome State Fault Refusal :=
  runCmd (.contextImageWritten c) (fun d =>
    let k := getCore d c
    match k.w.part with
    | none => .refused (.notEnabled "CONTEXT_IMAGE_WRITTEN")
    | some r =>
      let a := contextAddr d r.parcel c
      if k.sched ≠ 2 ∨ extentBusy d c.die a (contextBytes k.w r.image) then .refused (.notEnabled "CONTEXT_IMAGE_WRITTEN")
      else
        let h : Held := ⟨k.w.noCells, lanesOf k, d.tick, regGet d .cubeRelay c.die c.core 0⟩
        let d := rcount (writeImage d c a k.w r.image) .pclStat 0 0 r.parcel 47 32 1
        .next (freeCore (modCore d c fun k => { k with held := some h, w := { leftWork k.w with part := k.w.part } }) c)) s

/-! ### Restoring (R466, R467) -/

/-- The wait a queue entry of the chain engine makes (R215, R218). -/
def chainStake (x : Chain) : StakeId :=
  if x.op.opc = chnRearm then BitVec.ofNat 17 (wfld x.op.desc 0 37 21) else BitVec.ofNat 17 (wfld x.op.desc 0 29 13)

/-- Makes an agent's wait again (R464), with its whole limit. -/
def remakeAgent (d : Dev) (c : CoreId) (a : Agent) (w : WaitRef) : Dev :=
  let n : WaitRef := { w with deadline := if w.limit = 0 then none else some (d.tick + w.limit) }
  let d := match a with
    | .seq c => modSeq d c fun q => { q with wait := some n }
    | .crew c slot => modCrew d c slot fun k => { k with wait := some n }
  pushAgent d c ⟨.wait (.agent a) w.serial, w.stake, .agent a 0 (agentPc d a) 0 0, some (parcelOf d c)⟩

/-- Makes a core's waits again (R464, R466). -/
def remakeWaits (d : Dev) (c : CoreId) : Dev :=
  let w := (getCore d c).w
  let d := match w.seq.wait with
    | some r => remakeAgent d c (.seq c) r
    | none => d
  let d := w.crews.foldl (fun d p => match p.2.bind Crew.wait with
    | some r => remakeAgent d c (.crew c p.1) r
    | none => d) d
  let d := (List.range 4).foldl (fun d u => match (getCube d c u).head with
    | some o => if o.phase = .operand then
        (match o.wait with
          | some id => unitWait d (.unit (.cube c u) o.op.serial) id o.op.parcel o.op.serial
          | none => d) else d
    | none => d) d
  let d := w.chain.foldl (fun d x => if x.phase = 1 then unitWait d (.unit (.chain c) x.op.serial) (chainStake x) x.op.parcel x.op.serial else d) d
  match w.quant with
  | o :: _ => if o.op.desc.isEmpty ∨ o.phase ≠ .operand then d
    else (match o.wait with
      | some id => unitWait d (.unit (.quant c) o.op.serial) id o.op.parcel o.op.serial
      | none => d)
  | [] => d

/-- The work of an image that has been read back (R465, R466): every section with bytes is as read, the queues and the progress of their work are the image's
typed state (log 84). Of the scale file and the baseline banks the image holds the active bank; the other bank of each stays as the core has it. -/
def imageWork (k h : Work) (b : List Byte) : Work :=
  let sc : Tbl W32 := (List.range 4096).foldl (fun t e => tset oneW t e (BitVec.ofNat 32 (bytesNat b (imageScale h + 4 * e) 4))) []
  let ba := (b.drop (imageBase h)).take (baseSection h).length
  { h with
    seq := h.seq.back b 4096
    crews := (boundCrews h).zipIdx.foldl (fun t p => tset none t p.1.1 (some (p.1.2.back b (imageCrews + 8448 * p.2)))) h.crews
    cubes := (bankCubes h).zipIdx.foldl (fun t p => tset Cube.empty t p.1 ((tget Cube.empty t p.1).back b (imageBanks h + 16384 * p.2))) h.cubes
    streams := (List.range 8).foldl (fun t s => tset Stream.empty t s ((tget Stream.empty t s).back b (imageStreams h + 64 * s))) h.streams
    relayReady := BitVec.ofNat 64 (valueAt b (imageRelay h) 8 1)
    scale0 := if h.scaleActive = 0 then sc else k.scale0
    scale1 := if h.scaleActive = 0 then k.scale1 else sc
    base0 := if h.baseActive = some 0 then ba else k.base0
    base1 := if h.baseActive = some 1 then ba else k.base1
    baseGen := k.baseGen }

/-- Every cube of a core's work holds its level at or below CAP_LEVEL (R612). -/
def Work.capped (w : Work) (cap : Nat) : Work :=
  { w with cubes := (w.cubes.map fun p => (p.1, { p.2 with level := min p.2.level cap })).filter fun p => decide (p.2 ≠ Cube.empty) }

/-- Puts a saved image, as read back, into its core (R466, R467, R562); its cubes stand at or below CAP_LEVEL (R612). -/
def restoreImage (d : Dev) (c : CoreId) (h : Held) (r : PartRun) (b : List Byte) : Dev :=
  let same := decide (lanesOf (getCore d c) = h.lanes)
  let rng := if same then h.w.rng else partRegen r.seed r.chan r.part
  let d := storeWrite d c 0 (b.drop (imageCore h.w))
  let d := regSet d .cubeRelay c.die c.core 0 (BitVec.ofNat 64 (valueAt b (imageRelay h.w) 8 0))
  let w : Work := { imageWork (getCore d c).w h.w b with rng := rng, part := some { r with resumed := some d.tick } }
  let d := modCore d c fun k => { k with held := none, sched := 1, w := w.capped (rfld d .abwEnvelope 0 0 0 35 32) }
  (List.range 4).foldl (fun d u => promote d c u) (remakeWaits d c)

/-- CONTEXT_IMAGE_RESTORED (R466, R467): the part goes on where it stopped, or fails because its image cannot be read back or, in a plumb parcel, because
the lane count changed. -/
def execContextImageRestored (c : CoreId) (s : State) : Host.Outcome State Fault Refusal :=
  runOk c.wf [c.die] (fun d =>
    let k := getCore d c
    match k.held with
    | none => .refused (.notEnabled "CONTEXT_IMAGE_RESTORED")
    | some h =>
      match h.w.part with
      | none => .refused (.notEnabled "CONTEXT_IMAGE_RESTORED")
      | some r =>
        let a := contextAddr d r.parcel c
        let n := contextBytes h.w r.image
        if k.sched ≠ 3 ∨ extentBusy d c.die a n then .refused (.notEnabled "CONTEXT_IMAGE_RESTORED")
        else match devReadAll d a n with
          | (d, .error f) => .next (dropHeld d c f)
          | (d, .ok b) => .next (if r.plumb ∧ lanesOf k ≠ h.lanes then dropHeld d c .laneMismatch else restoreImage d c h r b)) s

/-! ### Tenants (R461, R462) -/

/-- The channel of a tenant of a parcel. -/
def tenantChan (d : Dev) (p t : Nat) : Option Nat :=
  (d.chans.find? fun x => decide (x.2.state ≠ 0) && decide (x.2.parcelIdx = p) && decide (x.2.tenant = t)).map Prod.fst

/-- A tenant's front command is a RUN that waits only for its tenant to be the occupant, and that R458 puts first (R472). -/
def tenantWaits (d : Dev) (p t : Nat) : Bool :=
  match tenantChan d p t with
  | none => false
  | some ch => ((waitingRun d ch).map (runFirst d ch)).getD false

/-- Nothing of the occupant is started (R462). -/
def occupantIdle (d : Dev) (p : Nat) : Bool :=
  match (getParcel d p).occupant with
  | none => true
  | some t => match tenantChan d p t with
    | none => true
    | some ch => (getChan d ch).idle

/-- TENANT_SWAP (R462): the swap to a tenant whose RUN waits begins once nothing of the occupant runs. -/
def execTenantSwap (parcel tenant : Nat) (s : State) : Host.Outcome State Fault Refusal :=
  runCmd (.tenantSwap parcel tenant) (fun d =>
    let q := getParcel d parcel
    whenOn "TENANT_SWAP" (decide (q.state ≠ 0) && decide (tenant < q.tenants) && q.swapping.isNone && decide (q.occupant ≠ some tenant) &&
        tenantWaits d parcel tenant && occupantIdle d parcel)
      (setParcel d parcel { q with swapping := some tenant })) s

/-- The on-chip state of a tenant (R461) by address and length: core stores by rank, then scratch windows by die. -/
def swapExtents (d : Dev) (q : Parcel) : List (Addr × Nat) :=
  (parcelCores d q).map (fun c => (storeAddr c 0, q.swapStore * 65536)) ++
    (parcelDies d q).map fun die => (mkAddr 2 die (q.scratchOff * 65536), q.scratchSize * 65536)

/-- SW of R461: the bytes of one tenant's state. -/
def swapUnit (d : Dev) (q : Parcel) : Nat := ((parcelCores d q).length * q.swapStore + (parcelDies d q).length * q.scratchSize) * 65536

/-- Where the state of tenant t is kept (R461). -/
def swapArea (d : Dev) (q : Parcel) (t : Nat) : Addr := onward q.swap (t * swapUnit d q)

/-- Goes through the on-chip state with the place of each extent in an area. -/
def eachExtent (d : Dev) (q : Parcel) (area : Addr) (f : Dev → Addr → Addr → Nat → Dev) : Dev :=
  ((swapExtents d q).foldl (fun (r : Nat × Dev) e => (r.1 + e.2, f r.2 e.1 (onward area r.1) e.2)) (0, d)).2

/-- Saves the on-chip state to a tenant's area (R462). -/
def saveTenant (d : Dev) (q : Parcel) (t : Nat) : Dev := eachExtent d q (swapArea d q t) fun d chip kept n => moveLines d chip kept n

/-- Restores the on-chip state from a tenant's area, or writes zeros at its first RUN since its channel opened (R462). -/
def restoreTenant (d : Dev) (q : Parcel) (t : Nat) : Dev :=
  eachExtent d q (swapArea d q t) fun d chip kept n => if t ∈ q.visited then moveLines d kept chip n else zeroLines d chip n

/-- Clears TAG_VALID on every core of a parcel. -/
def clearTags (d : Dev) (q : Parcel) : Dev := (parcelCores d q).foldl (fun d c => modCore d c fun k => { k with tagValid := false }) d

/-- The end of a swap (R462). -/
def finishSwap (d : Dev) (p t : Nat) : Dev :=
  let q := getParcel d p
  let d := match q.occupant with
    | some o => saveTenant d q o
    | none => d
  let d := clearTags (restoreTenant d q t) q
  let d := rcount d .pclStat 0 0 p 63 48 1
  setParcel d p { q with occupant := some t, swapping := none, visited := if t ∈ q.visited then q.visited else t :: q.visited }

/-- Some extent that a swap reads or writes waits (R370, R410). -/
def swapBusy (d : Dev) (q : Parcel) (t : Nat) : Bool :=
  let die := (parcelDies d q).headD 0
  (t :: q.occupant.toList).any (fun x => extentBusy d die (swapArea d q x) (swapUnit d q)) ||
    (swapExtents d q).any fun e => extentBusy d die e.1 e.2

/-- SWAP_COMPLETE (R462): the occupant's state is saved, the tenant's restored or zeroed at its first RUN, tags are cleared, and it is the occupant. -/
def execSwapComplete (parcel : Nat) (s : State) : Host.Outcome State Fault Refusal :=
  runCmd (.swapComplete parcel) (fun d =>
    match (getParcel d parcel).swapping with
    | some t => whenOn "SWAP_COMPLETE" (!swapBusy d (getParcel d parcel) t) (finishSwap d parcel t)
    | none => .refused (.notEnabled "SWAP_COMPLETE")) s

/-! ### Rebuilds (R456) -/

/-- An open or closing parcel owns a cluster of a die. -/
def dieOwned (d : Dev) (die : Nat) : Bool :=
  d.parcels.any fun p => decide (p.2.state ≠ 0) && (List.range 12).any fun k => p.2.owns die k

/-- A write of 1 to PCL_REBUILD.ACTIVE (R456, R652): refused and logged while a parcel owns a cluster of the die, or before package ready. -/
def execPclRebuildSet (die : Nat) (s : State) : Host.Outcome State Fault Refusal :=
  runCmd (.pclRebuildSet die) (fun d =>
    .next (if dieOwned d die ∨ !pkgReady d then logIgnoredAt d .pclRebuild die 0 0 1
      else if rebuilding d die then d
      else rset d .pclRebuild die 0 0 1 0 3)) s

/-- REBUILD_MAPOUT_DONE (R456, R387, R389): FAILING channels become MAPPED_OUT and the retirement table is cleared. -/
def execRebuildMapoutDone (die : Nat) (s : State) : Host.Outcome State Fault Refusal :=
  runCmd (.rebuildMapoutDone die) (fun d =>
    whenOn "REBUILD_MAPOUT_DONE" (decide (rfld d .pclRebuild die 0 0 1 1 = 1))
      (let d := (List.range 32).foldl (fun d ch => if chanFld d die ch 1 1 = 1 then chanSet d .hbmChan die ch 2 0 4 else d) d
       rset (remapDie d die) .pclRebuild die 0 0 1 1 0)) s

/-- A write of 0 to PCL_REBUILD.ACTIVE (R456). -/
def execPclRebuildClear (die : Nat) (s : State) : Host.Outcome State Fault Refusal :=
  runCmd (.pclRebuildClear die) (fun d => .next (rset d .pclRebuild die 0 0 0 0 0)) s

/-! ### The cyclic schedule (R468 to R471) -/

/-- TICKS of an entry of the active bank. -/
def slotTicks (d : Dev) (slot : Nat) : Nat := rfld d .schSlot 0 0 (256 * d.sched.bank + slot) 23 0

/-- A class 8 record (R471). -/
def slotEvent (d : Dev) (kind : Nat) : Dev :=
  let ch := if slotFld d 24 24 = 1 then slotFld d 39 32 else 0xFF
  raiseEvent d ⟨8, 0, srcErr, kind, BitVec.ofNat 64 d.tick, d.sched.slot, 0,
    BitVec.ofNat 64 (d.sched.slot + 2 ^ 8 * ch + 2 ^ 16 * d.sched.bank + 2 ^ 32 * d.sched.cycles.toNat), 0⟩

/-- Counts the REAL_TIME commands that still run at the end of their own slot (R470): their parts count as HIGH from then on. -/
def overruns (d : Dev) : Dev :=
  let runs (x : Cmd) : Bool := x.acted && decide (x.running ≠ 0) && !x.overrun
  let late : List (Nat × Nat) := (d.chans.filter fun p =>
      decide (p.2.prio = 3) && decide (slotFld d 24 24 = 1) && decide (slotFld d 39 32 = p.1)).flatMap fun p => (p.2.cmds.filter runs).map fun x => (p.1, x.num)
  late.foldl (fun d e =>
    let d := match findCmd d e.1 e.2 with
      | some x => setCmd d e.1 { x with overrun := true }
      | none => d
    let low (r : PartRun) : PartRun := if r.chan = e.1 ∧ r.num = e.2 then { r with prio := 2 } else r
    let lowW (w : Work) : Work := { w with part := w.part.map low }
    let d := mapCores d fun k => { k with w := lowW k.w, held := k.held.map fun h => { h with w := lowW h.w } }
    slotEvent (rcount d .schStat 0 0 0 31 16 1) 1) d

/-- A slot begins: its EVENT record (R471). -/
def beginSlot (d : Dev) (slot : Nat) : Dev :=
  let d := { d with sched := { d.sched with slot := slot, slotEnd := d.tick + slotTicks d slot } }
  if slotFld d 25 25 = 1 then slotEvent d 0 else d

/-- A cycle begins (R468): a pending switch takes effect, and CYCLES counts it. -/
def beginCycle (d : Dev) : Dev :=
  let s := d.sched
  let bank := if s.switch then 1 - s.bank else s.bank
  beginSlot { d with sched := { s with bank := bank, switch := false, cycles := s.cycles + 1, running := true, starting := false } } 0

/-- COUNT of the active bank. -/
def slotCount (d : Dev) : Nat := if d.sched.bank = 0 then rfld d .schCtl 0 0 0 15 8 else rfld d .schCtl 0 0 0 23 16

/-- The commands that the new slot lets start note their tick (R458, R469). -/
def noteSlot (d : Dev) : Dev := ((d.chans.filter fun p => decide (p.2.prio = 3)).map Prod.fst).foldl noteReady d

/-- SCHEDULE_SLOT_BOUNDARY (R468, R470, R471): the first cycle begins, or the slot ends and the next begins. -/
def execScheduleSlotBoundary (s : State) : Host.Outcome State Fault Refusal :=
  runCmd .scheduleSlotBoundary (fun d =>
    if !schedOn d then .refused (.notEnabled "SCHEDULE_SLOT_BOUNDARY")
    else if !d.sched.running then .next (noteSlot (beginCycle d))
    else if d.tick < d.sched.slotEnd then .refused (.notEnabled "SCHEDULE_SLOT_BOUNDARY")
    else
      let d := overruns d
      .next (noteSlot (if slotCount d ≤ d.sched.slot then beginCycle d else beginSlot d (d.sched.slot + 1)))) s

/-- SCH_SWITCH (R468, R472): the other bank is to be active from the next cycle; a second write in one cycle changes nothing. -/
def execSchSwitch (s : State) : Host.Outcome State Fault Refusal :=
  runCmd .schSwitch (fun d => .next { d with sched := { d.sched with switch := true } }) s

/-- TAG_VALID written 0 (R459, R477). -/
def execTagValidClear (c : CoreId) (s : State) : Host.Outcome State Fault Refusal :=
  runCmd (.tagValidClear c) (fun d => .next (modCore d c fun k => { k with tagValid := false })) s

end Sys2Proof.Machine
end

