-- ==== Sys2Proof/Machine/LinkBase.lean ====
section
/-!
DEFINITION. The link engines' operations and transfers (R495 to R499, R512): ports, roster members (R501), chunks and their CRC, the sending of
chunks, status blocks, and the completion of puts and of KV pages (R320 to R322).
-/

namespace Sys2Proof.Machine

/-! ### Work outside the cores -/

/-- What a completed operation adds to the account of its part (R429, R430). -/
def PartRun.took (p : PartRun) (tick : Nat) (f : FaultCode) (empty : Bool) : PartRun :=
  { p with
    out := p.out - 1
    empties := p.empties + b2n empty
    opFault := if p.opFault = .none then f else p.opFault
    opTick := if p.opFault = .none then tick else p.opTick
    opSub := if p.opFault = .none then 0 else p.opSub }

/-- The channel, command and index of a part. -/
def PartRun.id (p : PartRun) : Nat × Nat × Nat := (p.chan, p.num, p.part)

/-- Accounts an operation that completes outside its core to its part, which may run or be saved. -/
def partTook (d : Dev) (c : CoreId) (id : Option (Nat × Nat × Nat)) (f : FaultCode) (empty : Bool) : Dev :=
  let go (w : Work) : Work := if w.part.map PartRun.id = id then { w with part := w.part.map fun p => p.took d.tick f empty } else w
  modCore d c fun k => { k with w := go k.w, held := k.held.map fun h => { h with w := go h.w } }

/-- The part on a core. -/
def partId (d : Dev) (c : CoreId) : Option (Nat × Nat × Nat) := (getCore d c).w.part.map PartRun.id

/-- An operation that a block of a die has carried out completes (R29): the account and the arrival. -/
def outDone (d : Dev) (die unit : Nat) (c : CoreId) (id : Option (Nat × Nat × Nat)) (op : Op) (f : FaultCode) (empty : Bool) : Dev :=
  blockArrive (partTook d c id f empty) die op.stake unit (some op.parcel) 1 (decide (f ≠ .none))

/-! ### Groups and members (R500, R501) -/

/-- A free group slot. -/
def Group.empty : Group := ⟨0, 0, 0, 0, 0, 0, 0, 0, 0, 0, 0, 0, [], []⟩

/-- Roster group g. -/
def getGroup (d : Dev) (g : Nat) : Group := tget Group.empty d.groups g

/-- Writes a roster group. -/
def setGroup (d : Dev) (g : Nat) (x : Group) : Dev := { d with groups := tset Group.empty d.groups g x }

/-- The entry of a member in the list in memory (R501), where its line can be read. -/
def memberRead (d : Dev) (g i : Nat) : Option W64 :=
  match (devReadAll d ((getGroup d g).members + BitVec.ofNat 52 (8 * i)) 8).2 with
  | .ok b => some (BitVec.ofNat 64 (leNat b))
  | .error _ => none

/-- The entry of a member in the list in memory (R501). -/
def memberWord (d : Dev) (g i : Nat) : W64 := (memberRead d g i).getD 0

/-- An extent of some bytes waits for slices or links (R370, R410). -/
def bytesBusy (d : Dev) (die : Nat) (a : Addr) (n : Nat) : Bool := decide (n ≠ 0) && extentBusy d die a n

/-- The member list of a group waits for slices or links. -/
def listBusy (d : Dev) (die g : Nat) : Bool := bytesBusy d die (getGroup d g).members (8 * (getGroup d g).count)

/-- Reads the whole member list, as a plan does (R502): the fault of a line that cannot be read (R384, R386). -/
def listRead (d : Dev) (g : Nat) : Dev × FaultCode :=
  match devReadAll d (getGroup d g).members (8 * (getGroup d g).count) with
  | (d, .ok _) => (d, .none)
  | (d, .error f) => (d, f)

/-- ZID of a member. -/
def memberZid (d : Dev) (g i : Nat) : Nat := fld (memberWord d g i) 15 0

/-- The die and port that reach a member. -/
def memberPort (d : Dev) (g i : Nat) : Nat × Nat := let w := memberWord d g i; (fld w 18 16, fld w 19 19)

/-- The member of a ZID. -/
def memberOf (d : Dev) (g zid : Nat) : Option Nat := (List.range (getGroup d g).count).find? fun i => decide (memberZid d g i = zid)

/-- The open group of a tag. -/
def groupOfTag (d : Dev) (tag : W32) : Option Nat := (d.groups.find? fun p => decide (p.2.state = 1) && decide (p.2.tag = tag)).map Prod.fst

/-! ### Chunks and CRC-32C (R495) -/

/-- Chunks of a transfer. -/
def Xfer.total (x : Xfer) : Nat := cdiv x.len (chunkSize x.big)

/-- The state of a chunk. -/
def Xfer.chunk (x : Xfer) (c : Nat) : Option ChunkSt := (x.chunks.find? fun p => decide (p.1 = c)).map Prod.snd

/-- Writes the state of a chunk. -/
def Xfer.setChunk (x : Xfer) (c : Nat) (s : ChunkSt) : Xfer := { x with chunks := tset ⟨false, 0, 0, some 0, false⟩ x.chunks c s }

/-- A chunk has been acknowledged. -/
def Xfer.acked (x : Xfer) (c : Nat) : Bool := ((x.chunk c).map ChunkSt.acked).getD false

/-- Every chunk has been acknowledged. -/
def Xfer.allAcked (x : Xfer) : Bool := (List.range x.total).all x.acked

/-- The number of chunks sent and not acknowledged. -/
def Xfer.open (x : Xfer) : Nat := (x.chunks.filter fun p => !p.2.acked).length

/-- A transfer by its port and slot. -/
def Xfer.is (x : Xfer) (die port slot : Nat) : Bool := decide (x.die = die) && decide (x.port = port) && decide (x.slot = slot)

/-- The transfer of a TAG. -/
def findXfer (d : Dev) (die port slot : Nat) : Option Xfer := d.xfers.find? fun x => x.is die port slot

/-- Replaces a transfer. -/
def setXfer (d : Dev) (x : Xfer) : Dev := { d with xfers := d.xfers.map fun y => if y.is x.die x.port x.slot then x else y }

/-- Removes a transfer. -/
def dropXfer (d : Dev) (x : Xfer) : Dev := { d with xfers := d.xfers.filter fun y => !y.is x.die x.port x.slot }

/-- A slot of a port is free: no transfer has it, and no stream of one still leaves (R494). -/
def slotOpen (d : Dev) (die port s : Nat) : Bool :=
  (findXfer d die port s).isNone && (List.range 8).all fun v => decide (((getPort d die port).outOn v).slot ≠ some s)

/-- The lowest free slot of a port, of 256 (R512). -/
def freeXfer (d : Dev) (die port : Nat) : Option Nat := (List.range 256).find? (slotOpen d die port)

/-- Gives free slots to the transfers of a port that wait for one, which stand with numbers from 256 on. -/
def assignSlots (d : Dev) (die port : Nat) : Dev :=
  { d with xfers := (d.xfers.foldl (fun (r : List Xfer × List Nat) x =>
      match decide (x.die = die) && decide (x.port = port) && decide (256 ≤ x.slot), r.2 with
      | true, s :: rest => (r.1 ++ [{ x with slot := s }], rest)
      | _, l => (r.1 ++ [x], l)) ([], (List.range 256).filter (slotOpen d die port))).1 }

/-- The bytes of a chunk, as they leave memory; a header alone has none. -/
def chunkBytes (d : Dev) (x : Xfer) (c : Nat) : Dev × Except FaultCode (List Byte) :=
  let k := chunkSize x.big
  let n := min k (x.len - c * k)
  if x.data.isEmpty then devReadAll d (x.src + BitVec.ofNat 52 (c * k)) n else (d, .ok ((x.data.drop (c * k)).take n))

/-- The put header of a transfer (R495). -/
def Xfer.header (d : Dev) (x : Xfer) : PutHeader :=
  ⟨BitVec.ofNat 16 (zlkId d), BitVec.ofNat 16 x.zid, BitVec.ofNat 12 (512 * x.die + 256 * x.port + x.slot), BitVec.ofNat 2 x.kind, x.big, x.arrive.isSome,
    x.dst, BitVec.ofNat 34 x.len, x.gtag, BitVec.ofNat 32 x.seq, BitVec.ofNat 17 ((x.arrive.map Prod.fst).getD 0),
    BitVec.ofNat 16 ((x.arrive.map Prod.snd).getD 0), BitVec.ofNat 8 x.stage, x.digest⟩

/-- A chunk's bytes leave memory (R495), for the first time or again: what goes on the stream after the header. -/
def sendChunk (d : Dev) (x : Xfer) (c : Nat) (again : Nat) : Dev × Except FaultCode (List Byte) :=
  match chunkBytes d x c with
  | (d, .error f) => (d, .error f)
  | (d, .ok b) =>
    let y := { x.setChunk c ⟨false, d.tick, again, none, false⟩ with bytes := x.bytes + b.length, next := max x.next (c + 1) }
    (send (setXfer d y) (.chunk x.die x.port x.slot c b (crc32c b)), .ok (if x.len = 0 then [] else b ++ trailerBytes c b.length (crc32c b)))

/-! ### What a port sends next (R493, R494) -/

/-- The order in which the streams of a VC leave (R494): puts, pages, collective transfers. -/
def Xfer.turn (x : Xfer) : Nat := if x.kind = 0 then 0 else if x.kind = 2 then 1 else 2

/-- The transfers of a port that have a slot, on a VC. -/
def portXfers (d : Dev) (die port v : Nat) : List Xfer :=
  d.xfers.filter fun x => decide (x.die = die) && decide (x.port = port) && decide (x.vc % 8 = v) && decide (x.slot < 256)

/-- A transfer has chunks that have not left memory, or its header alone. -/
def Xfer.more (x : Xfer) : Bool := decide (x.next < max 1 x.total)

/-- The transfer of a VC whose stream starts next. -/
def nextXfer (d : Dev) (die port v : Nat) : Option Xfer :=
  ((portXfers d die port v).filter Xfer.more).foldl (fun best x =>
    match best with
    | none => some x
    | some b => if x.turn < b.turn then some x else best) none

/-- A chunk of a VC whose next copy is due (R498, R506). -/
def dueChunk (d : Dev) (die port v : Nat) : Option (Xfer × Nat × ChunkSt) :=
  (portXfers d die port v).findSome? fun x => (x.chunks.find? fun p => p.2.due).map fun p => (x, p)

/-- A port's chunks sent and not acknowledged (R512). -/
def portOpen (d : Dev) (die port : Nat) : Nat :=
  ((d.xfers.filter fun x => decide (x.die = die) && decide (x.port = port)).map Xfer.open).sum

/-- A chunk's bytes wait for slices or links (R370, R410). -/
def chunkBusy (d : Dev) (x : Xfer) (c : Nat) : Bool :=
  x.data.isEmpty && extentBusy d x.die (x.src + BitVec.ofNat 52 (c * chunkSize x.big)) (min (chunkSize x.big) (x.len - c * chunkSize x.big))

/-- The page whose bytes end with a chunk (R321). -/
def Xfer.pageEnd (x : Xfer) (c : Nat) : Option (Nat × Nat) := if x.kind = 2 ∧ c + 1 = x.total then some (x.owner % 4096, x.page) else none

/-- Puts a chunk on a VC behind what it holds: the device, or the transfer whose source cannot be read and the code. -/
def stageChunk (d : Dev) (die port v : Nat) (x : Xfer) (c again : Nat) (o : Outgoing) : Except (Dev × Xfer × FaultCode) Dev :=
  match sendChunk d x c again with
  | (d, .error f) => .error (d, { x with next := c }, f)
  | (d, .ok b) => .ok (setPort d die port ((getPort d die port).setOut v { o with bytes := o.bytes ++ b }))

/-- A VC takes bytes (R494, R495), one stream at a time: the next chunk of its stream when less than a body is left; on a free VC a chunk that is sent again,
in a stream of its own (log 159), or the header of the next stream. -/
def stageVc (d : Dev) (die port v : Nat) : Option (Except (Dev × Xfer × FaultCode) Dev) :=
  let p := getPort d die port
  let o := p.outOn v
  match o.slot with
  | some s =>
    if 240 ≤ o.bytes.length then none
    else match findXfer d die port s with
      | none => some (.ok (setPort d die port (p.setOut v { o with slot := none })))
      | some x =>
        if 512 ≤ portOpen d die port ∨ chunkBusy d x x.next then none
        else some (stageChunk d die port v x x.next 0 { o with
          slot := if x.next + 1 < x.total then some s else none, page := x.pageEnd x.next })
  | none =>
    if o.bytes ≠ [] then none
    else match dueChunk d die port v, nextXfer d die port v with
      | some (x, c, st), _ =>
        if chunkBusy d x c then none else some (stageChunk d die port v x c st.resends ⟨none, (x.header d).bytes, x.zid, none⟩)
      | none, some x =>
        if x.len = 0 then some (stageChunk d die port v x 0 0 ⟨none, (x.header d).bytes, x.zid, none⟩)
        else some (.ok (setPort d die port (p.setOut v ⟨some x.slot, (x.header d).bytes, x.zid, none⟩)))
      | none, none => none

/-- The dedicated flits of a VC at the peer (R493, R516). -/
def Port.dedicated (p : Port) (v : Nat) : Nat := 8 * fld p.announced (8 * v + 7) (8 * v)

/-- Data flits of a VC whose credits have not come back. -/
def Port.owed (p : Port) (v : Nat) : Nat := tget 0 p.placed v - tget 0 p.returned v

/-- Shared flits of the peer's buffer in use. -/
def Port.sharedUsed (p : Port) : Nat := ((List.range 8).map fun v => p.owed v - p.dedicated v).sum

/-- Shared flits of the peer's buffer: what of its 2,048 no VC owns. -/
def Port.shared (p : Port) : Nat := 2048 - ((List.range 8).map p.dedicated).sum

/-- A VC holds a dedicated or a shared credit (R493). -/
def Port.credit (p : Port) (v : Nat) : Bool := decide (p.owed v < p.dedicated v) || decide (p.sharedUsed < p.shared)

/-- A VC has a flit ready: a whole body, or the end of a stream. -/
def Outgoing.ready (o : Outgoing) : Bool := decide (240 ≤ o.bytes.length) || (o.slot.isNone && decide (o.bytes ≠ []))

/-- The VC that sends the next data flit, round robin (R494). -/
def Port.pick (p : Port) : Option Nat :=
  ((List.range 8).map fun i => (p.turn + 1 + i) % 8).find? fun v => (p.outOn v).ready && p.credit v

/-- A page leaves its export queue with its last flit (R321). -/
def pageGone (d : Dev) (die port : Nat) (e : Nat × Nat) : Dev :=
  { d with expQ := tmod [] d.expQ (2 * die + port) fun l => l.filter fun x => decide ((x.slot, x.page) ≠ e) }

/-- One flit leaves a port whose replay buffer has room (R485, R487): with the message that waits longest (log 159), else with the next body. -/
def flitOut (d : Dev) (die port : Nat) : Option Dev :=
  let p := getPort d die port
  if 512 ≤ p.replay.length then none
  else match p.msgs, p.pick with
    | m :: rest, _ => some (putFlit (setPort d die port { p with msgs := rest }) die port none false (some m))
    | [], some v =>
      let o := p.outOn v
      let left := o.bytes.drop 240
      let p := { p.setOut v { o with bytes := left } with placed := tset 0 p.placed v (tget 0 p.placed v + 1), turn := v }
      let d := putFlit (setPort d die port p) die port (some (v, o.zid, o.bytes.take 240)) false none
      some (match left, o.page with
        | [], some e => pageGone d die port e
        | _, _ => d)
    | [], none => none

/-- An UP port takes bytes and sends flits as far as it may; stops at a transfer whose source cannot be read. -/
def pumpSend (die port : Nat) : Nat → Dev → Dev × Option (Xfer × FaultCode)
  | 0, d => (d, none)
  | n + 1, d =>
    if portState d die port ≠ 2 then (d, none)
    else match (List.range 8).findSome? fun v => stageVc d die port v with
      | some (.ok d) => pumpSend die port n d
      | some (.error (d, e)) => (d, some e)
      | none => match flitOut d die port with
        | some d => pumpSend die port n d
        | none => (d, none)

/-! ### Status blocks (R499) -/

/-- What a status block tells. -/
structure LinkStatus where
  fault : FaultCode
  cause : Nat
  member : Nat
  first : Option Nat
  total : Nat
  resends : Nat
  final : Nat → Bool
  bytes : Nat

/-- The bitmap of chunks that are not final. -/
def LinkStatus.bitmap (s : LinkStatus) : Nat :=
  let g := cdiv s.total 64
  ((List.range 64).map fun b => if (List.range g).any fun i => decide (b * g + i < s.total) && !s.final (b * g + i) then 2 ^ b else 0).sum

/-- The 32 bytes of a status block. -/
def LinkStatus.block (s : LinkStatus) : List Byte :=
  leBytes 4 (s.fault.num + 2 ^ 8 * s.cause + 2 ^ 16 * s.member) ++ leBytes 4 (s.first.getD 0xFFFFFFFF) ++ leBytes 4 (cdiv s.total 64) ++
    leBytes 4 s.resends ++ leBytes 8 s.bitmap ++ leBytes 8 s.bytes

/-! ### Link-engine queues (R512) -/

/-- The queue of a die's link engine; operations whose transfers run stay in it with phase 3. -/
def getLinks (d : Dev) (die : Nat) : List LinkOp := tget [] d.links die

/-- Writes the queue of a die's link engine. -/
def setLinks (d : Dev) (die : Nat) (l : List LinkOp) : Dev := { d with links := tset [] d.links die l }

/-- Entries that wait to start. -/
def linksQueued (d : Dev) (die : Nat) : List LinkOp := (getLinks d die).filter fun x => decide (x.phase < 3)

/-- A COL.PUT operation. -/
def LinkOp.isPut (x : LinkOp) : Bool := decide (x.op.kind = 0x21)

/-- Replaces an entry. -/
def setLop (d : Dev) (die : Nat) (x : LinkOp) : Dev :=
  setLinks d die ((getLinks d die).map fun y => if y.op.serial = x.op.serial then x else y)

/-- The operation of a transfer, with its die. -/
def findLop (d : Dev) (serial : Nat) : Option (Nat × LinkOp) :=
  (d.links.findSome? fun p => (p.2.find? fun x => decide (x.op.serial = serial)).map fun x => (p.1, x))

/-- The chunk size an operation asks for. -/
def LinkOp.big (x : LinkOp) : Bool := decide (wfld x.op.desc 0 (if x.isPut then 16 else 21) (if x.isPut then 16 else 21) = 1)

/-- STATUS_ADDR of an operation. -/
def LinkOp.status (x : LinkOp) : Addr := BitVec.ofNat 52 (wfld x.op.desc (if x.isPut then 6 else 5) 51 0)

/-- The roster group of an operation. -/
def LinkOp.group (x : LinkOp) : Nat := fld x.op.handle 15 0

/-- An operation leaves the link engine (R496, R499, R509): its status block, which may have to wait for slices or links (R370, R410), and its
completion. -/
def finishLop (d : Dev) (die : Nat) (x : LinkOp) (s : LinkStatus) (empty : Bool) : Dev :=
  let d := setLinks d die ((getLinks d die).filter fun y => decide (y.op.serial ≠ x.op.serial))
  if x.op.desc.isEmpty ∨ x.status = 0 then outDone d die 6 x.core x.part x.op s.fault empty
  else if extentBusy d die x.status 32 then { d with lateLops := d.lateLops ++ [⟨die, x, s.block, s.fault, empty⟩] }
  else outDone (devWriteAll d x.status s.block).1 die 6 x.core x.part x.op s.fault empty

/-- The status blocks that waited for slices or links are written, those that need wait no more, and their operations complete. -/
def lateBlocks (d : Dev) : Dev :=
  d.lateLops.foldl (fun d e =>
    if extentBusy d e.die e.lop.status 32 then { d with lateLops := d.lateLops ++ [e] }
    else outDone (devWriteAll d e.lop.status e.bytes).1 e.die 6 e.lop.core e.lop.part e.lop.op e.fault e.empty) { d with lateLops := [] }

/-- An operation that has failed (R498, R510), and not one that its checks refused, is counted (R522). -/
def countFailed (d : Dev) (die : Nat) (f : FaultCode) : Dev := if f ≠ .none then rcount d .colStat die 0 0 31 16 1 else d

/-- The status of an operation that ends before it sends anything. -/
def LinkStatus.early (f : FaultCode) (cause member total : Nat) : LinkStatus := ⟨f, cause, member, none, total, 0, fun _ => f = .none, 0⟩

/-! ### Pages (R320 to R322) -/

/-- An export fails (R322): EXPORT_FAILED, the record of kind 5, and nothing more of the sequence is exported; its staging slots are released. -/
def exportFail (d : Dev) (idx : Nat) : Dev :=
  if kvReg d .kvsState idx 2 2 = 1 then d
  else
    let die := idx / 4096
    let slot := idx % 4096
    let port := kvReg d .kvsExport idx 1 1
    let d := kvSet d .kvsState idx 2 2 1
    let d := logErr d die ⟨184 + port, 5, .none, .link, 0, [(handleOf d typeKv idx).toNat, kvReg d .kvsState idx 55 32]⟩
    let keep (l : List (Nat × Nat)) : List (Nat × Nat) := l.filter fun e => decide (e.1 ≠ slot)
    let pages := ((tget [] d.expWait (2 * die + port)).filter fun e => decide (e.1 = slot)).map Prod.snd
    let d := modKv d idx fun q => { q with held := q.held.filter fun p => decide (p ∉ pages) }
    { d with
      expWait := tset [] d.expWait (2 * die + port) (keep (tget [] d.expWait (2 * die + port)))
      expQ := tset [] d.expQ (2 * die + port) ((tget [] d.expQ (2 * die + port)).filter fun e => decide (e.slot ≠ slot))
      xfers := d.xfers.filter fun x => !(decide (x.kind = 2) && decide (x.owner = idx)) }

/-- The pages of a sequence that its member holds advance past those acknowledged in order (R320). -/
def exportAdvance (idx : Nat) : Nat → Dev → Dev
  | 0, d => d
  | n + 1, d =>
    let e := kvReg d .kvsState idx 55 32
    match d.xfers.find? fun x => decide (x.kind = 2) && decide (x.owner = idx) && decide (x.page = e) && decide (x.stage = 1) with
    | none => d
    | some x =>
      let d := kvSet (dropXfer d x) .kvsState idx 55 32 (e + 1)
      let d := if kvReg d .kvsStakes idx 49 49 = 1 then
          blockArrive d (idx / 4096) (BitVec.ofNat 17 (kvReg d .kvsStakes idx 48 32)) 4 none 1 false
        else d
      exportAdvance idx n d

/-! ### Puts -/

/-- A put's transfer ends (R498, R499): with a fault it is logged (kind 3). -/
def endPut (d : Dev) (x : Xfer) (f : FaultCode) (cause : Nat) (first : Option Nat) : Dev :=
  let d := dropXfer d x
  match findLop d x.owner with
  | none => d
  | some (die, l) =>
    let d := if f ≠ .none then
        logErr d x.die ⟨184 + x.port, 3, f, .link, 0, [l.op.handle.toNat, x.member, first.getD 0xFFFFFFFF, cause]⟩
      else d
    finishLop (countFailed d die f) die l ⟨f, cause, x.member, first, x.total, x.resends, x.acked, x.bytes⟩ false

end Sys2Proof.Machine
end

