-- ==== Sys2Proof/Machine/Collective.lean ====
section
/-!
DEFINITION. Collectives (R504 to R511): units and leaders, traverses and their transfers, the reducing tree, completion and failure.
-/

namespace Sys2Proof.Machine

/-! ### Units, leaders and participants (R504) -/

/-- Two members share a unit of a level: 1 tray, 2 rack, 3 hall. -/
def sameUnit (d : Dev) (g level i j : Nat) : Bool :=
  let a := memberWord d g i
  let b := memberWord d g j
  let tray := decide (fld a 31 24 = fld b 31 24)
  let rack := decide (fld a 39 32 = fld b 39 32)
  match level with
  | 0 => decide (i = j)
  | 1 => tray && rack
  | 2 => rack
  | _ => true

/-- The members of the unit of member i. -/
def unitOf (d : Dev) (g level i : Nat) : List Nat := (List.range (getGroup d g).count).filter (sameUnit d g level i)

/-- The leader of the unit of member i: ROOT if it lies there, else the lowest index. -/
def leaderOf (d : Dev) (g root level i : Nat) : Nat :=
  let u := unitOf d g level i
  if root ∈ u then root else u.headD i

/-- The participants of the traverse of a level in the unit of member i, in order: the members of a tray, the leaders of a rack's trays, the leaders
of the hall's racks. -/
def participants (d : Dev) (g root level i : Nat) : List Nat :=
  (unitOf d g level i).filter fun j => decide (level ≤ 1) || decide (leaderOf d g root (level - 1) j = j)

/-! ### The descriptor (R505) -/

/-- A field of a collective's descriptor. -/
def LinkOp.f (x : LinkOp) (n hi lo : Nat) : Nat := wfld x.op.desc n hi lo

/-- OP: 0 ALL_REDUCE, 1 ALL_GATHER, 2 BROADCAST, 3 BARRIER. -/
def LinkOp.cop (x : LinkOp) : Nat := x.f 0 14 12

/-- LENGTH. -/
def LinkOp.len (x : LinkOp) : Nat := x.f 2 33 0

/-- DST_ADDR. -/
def LinkOp.dst (x : LinkOp) : Addr := BitVec.ofNat 52 (x.f 1 51 0)

/-- ROOT. -/
def LinkOp.root (x : LinkOp) : Nat := x.f 3 11 0

/-- The bytes of the result. -/
def LinkOp.resultLen (x : LinkOp) (count : Nat) : Nat :=
  match x.cop with
  | 1 => count * x.len
  | 3 => 0
  | _ => x.len

/-- DIGEST (R506). -/
def LinkOp.digest (x : LinkOp) : W32 :=
  crc32c (leBytes 8 (x.f 0 21 12 * 2 ^ 12) ++ leBytes 8 (x.f 1 51 0) ++ leBytes 8 x.len ++ leBytes 8 (x.root + 2 ^ 32 * x.f 3 63 32))

/-- The traverses of an operation in order (R507): level and direction, 0 within the package, 1 up, 2 down. -/
def collStages (cop top : Nat) : List (Nat × Nat) :=
  let ups := (List.range top).map fun l => (l + 1, 1)
  let downs := ((List.range top).map fun l => (l + 1, 2)).reverse
  match cop with
  | 2 => (0, 0) :: downs
  | 3 => ups ++ downs
  | _ => (0, 0) :: ups ++ downs

/-! ### Transfers of a traverse (R507) -/

/-- A transfer of a traverse: the member at the other end, the source here, the destination there, and its length. -/
structure Leg where
  member : Nat
  src : Addr
  dst : Addr
  len : Nat
deriving DecidableEq, Repr

/-- Segment size S of an up traverse of P participants. -/
def segSize (len chunk p : Nat) : Nat := if p = 0 then 0 else cdiv len (p * chunk) * chunk

/-- The length of segment k. -/
def segLen (len s k : Nat) : Nat := min ((k + 1) * s) len - k * s

/-- An offset from an address. -/
def plus (a : Addr) (n : Nat) : Addr := a + BitVec.ofNat 52 n

/-- The legs that member `me` sends in a traverse, and those it receives (with the source's fields unused); `reduced` selects the second half of an
up traverse of ALL_REDUCE. -/
def legs (d : Dev) (x : LinkOp) (me level dir : Nat) (reduced : Bool) : List Leg × List Leg :=
  let g := x.group
  let root := x.root
  let gr := getGroup d g
  let ps := participants d g root level me
  let lead := leaderOf d g root level me
  let others := ps.filter fun j => decide (j ≠ me)
  if dir = 0 ∨ me ∉ ps ∨ ps.length ≤ 1 then ([], [])
  else if dir = 2 then
    let n := x.resultLen gr.count
    if me = lead then (others.map fun j => ⟨j, x.dst, x.dst, n⟩, []) else ([], [⟨lead, x.dst, x.dst, n⟩])
  else match x.cop with
    | 0 =>
      let s := segSize x.len (chunkSize x.big) ps.length
      let k := ps.idxOf me
      let seg (i : Nat) : Nat := segLen x.len s i
      if reduced then
        (if me ≠ lead ∧ seg k ≠ 0 then [⟨lead, plus x.dst (k * s), plus x.dst (k * s), seg k⟩] else [],
         if me = lead then (others.map fun j => (⟨j, x.dst, plus x.dst (ps.idxOf j * s), seg (ps.idxOf j)⟩ : Leg)).filter fun l => decide (l.len ≠ 0) else [])
      else
        ((others.map fun j => (⟨j, plus x.dst (ps.idxOf j * s), plus gr.land (k * s), seg (ps.idxOf j)⟩ : Leg)).filter fun l => decide (l.len ≠ 0),
         if seg k = 0 then [] else others.map fun j => ⟨j, x.dst, plus gr.land (ps.idxOf j * s), seg k⟩)
    | 1 =>
      let at' (m : Nat) : Addr := plus x.dst (m * x.len)
      (if me = lead then [] else (unitOf d g (level - 1) me).map fun m => ⟨lead, at' m, at' m, x.len⟩,
       if me = lead then others.flatMap fun j => (unitOf d g (level - 1) j).map fun m => ⟨j, at' m, at' m, x.len⟩ else [])
    | _ => (if me = lead then [] else [⟨lead, x.dst, x.dst, 0⟩], if me = lead then others.map fun j => ⟨j, x.dst, x.dst, 0⟩ else [])

/-- The legs that a member sends in a collective, and those it receives. -/
def allLegs (d : Dev) (x : LinkOp) : List Leg × List Leg :=
  let gr := getGroup d x.group
  let ls := (collStages x.cop gr.top).flatMap fun t =>
    legs d x gr.self t.1 t.2 false :: (if x.cop = 0 ∧ t.2 = 1 then [legs d x gr.self t.1 t.2 true] else [])
  (ls.flatMap Prod.fst, ls.flatMap Prod.snd)

/-- Every leg that a member sends in a collective. -/
def allSends (d : Dev) (x : LinkOp) : List Leg := (allLegs d x).1

/-- The legs of a collective that need a port (R492, R513): those that it sends or receives over it. -/
def portLegs (d : Dev) (x : LinkOp) (die port : Nat) : List Leg :=
  ((allLegs d x).1 ++ (allLegs d x).2).filter fun l => decide (memberPort d x.group l.member = (die, port))

/-- The landing area that an ALL_REDUCE needs (R507). -/
def landNeed (d : Dev) (x : LinkOp) : Nat :=
  let gr := getGroup d x.group
  if x.cop ≠ 0 then 0
  else ((List.range gr.top).map fun l =>
    let p := (participants d x.group x.root (l + 1) gr.self).length
    if p ≤ 1 ∨ gr.self ∉ participants d x.group x.root (l + 1) gr.self then 0 else p * segSize x.len (chunkSize x.big) p).foldl max 0

/-! ### Reducing (R508) -/

/-- Bytes of an element. -/
def collWidth (fmt : Nat) : Nat := if fmt = 1 ∨ fmt = 2 then 2 else 4

/-- The combination of elements by a reducing tree, rounded once to FMT. -/
def reduceElems (red fmt : Nat) (xs : List Nat) : Nat :=
  if fmt = 10 then
    let i (x : Nat) : Int := sxt 32 x
    let pick (x y : Nat) : Nat := match red with
      | 0 => (x + y) % 2 ^ 32
      | 1 => if i x < i y then y else x
      | _ => if i y < i x then y else x
    fixedTree pick 0 xs
  else
    let f := (floatFmt fmt).getD fp32
    let pick (x y : FV) : FV := match red with
      | 0 => r32 (x.add y)
      | 1 => x.max y
      | _ => x.min y
    (f.round .rne false false false (fixedTree pick (.fin false 0 0) (xs.map f.val))).code

/-- Element i of bytes. -/
def elemAt (b : List Byte) (w i : Nat) : Nat := leNat ((b.drop (i * w)).take w)

/-- Reduces extents of n bytes into a destination. -/
def reduceInto (d : Dev) (red fmt n : Nat) (srcs : List Addr) (dst : Addr) : Dev × FaultCode :=
  let w := collWidth fmt
  let r := srcs.foldl (fun (r : Dev × Except FaultCode (List (List Byte))) a =>
    match r with
    | (d, .error f) => (d, .error f)
    | (d, .ok l) => match devReadAll d a n with
      | (d, .error f) => (d, .error f)
      | (d, .ok b) => (d, .ok (l ++ [b]))) (d, .ok [])
  match r with
  | (d, .error f) => (d, f)
  | (d, .ok ls) =>
    match devWriteAll d dst ((List.range (n / w)).flatMap fun i => leBytes w (reduceElems red fmt (ls.map fun b => elemAt b w i))) with
    | (d, .error f) => (d, f)
    | (d, .ok ()) => (d, .none)

/-- Copies bytes. -/
def copyBytes (d : Dev) (src dst : Addr) (n : Nat) : Dev × FaultCode :=
  match devReadAll d src n with
  | (d, .error f) => (d, f)
  | (d, .ok b) => match devWriteAll d dst b with
    | (d, .error f) => (d, f)
    | (d, .ok ()) => (d, .none)

/-- A collective waits for slices or links (R370, R410): those of the member list, its sources, its result or its landing area. -/
def collBusy (d : Dev) (die : Nat) (x : LinkOp) : Bool :=
  let gr := getGroup d x.group
  listBusy d die x.group || bytesBusy d die x.dst (x.resultLen gr.count) || bytesBusy d die gr.land (landNeed d x) ||
    (List.range (x.f 0 28 25)).any fun i => bytesBusy d die (BitVec.ofNat 52 (x.f (6 + i) 51 0)) x.len

/-- The package traverse (R507). -/
def packageStage (d : Dev) (x : LinkOp) : Dev × FaultCode :=
  let gr := getGroup d x.group
  let src (i : Nat) : Addr := BitVec.ofNat 52 (x.f (6 + i) 51 0)
  match x.cop with
  | 0 => reduceInto d (x.f 0 16 15) (x.f 0 20 17) x.len ((List.range (x.f 0 28 25)).map src) x.dst
  | 1 => copyBytes d (src 0) (plus x.dst (gr.self * x.len)) x.len
  | 2 => if gr.self = x.root then copyBytes d (src 0) x.dst x.len else (d, .none)
  | _ => (d, .none)

/-- The reduction of this member's segment in an up traverse (R507). -/
def reduceSegment (d : Dev) (x : LinkOp) (level : Nat) : Dev × FaultCode :=
  let gr := getGroup d x.group
  let ps := participants d x.group x.root level gr.self
  let s := segSize x.len (chunkSize x.big) ps.length
  let k := ps.idxOf gr.self
  let own := plus x.dst (k * s)
  if segLen x.len s k = 0 then (d, .none)
  else reduceInto d (x.f 0 16 15) (x.f 0 20 17) (segLen x.len s k)
    ((List.range ps.length).map fun i => if i = k then own else plus gr.land (i * s)) own

/-! ### Collectives that run -/

/-- The collective of a die and group. -/
def findColl (d : Dev) (die g : Nat) : Option Coll := d.colls.find? fun c => decide (c.die = die) && decide (c.group = g)

/-- Replaces a collective. -/
def setColl (d : Dev) (c : Coll) : Dev :=
  { d with colls := d.colls.map fun y => if y.lop.op.serial = c.lop.op.serial then c else y }

/-- The traverse a collective has reached. -/
def Coll.traverse (d : Dev) (c : Coll) : Option (Nat × Nat) := (collStages c.lop.cop (getGroup d c.group).top)[c.stage]?

/-- Transfers that a collective still sends. -/
def collXfers (d : Dev) (c : Coll) : List Xfer := d.xfers.filter fun x => decide (x.kind = 1) && decide (x.owner = c.lop.op.serial)

/-- Everything that the current half of the stage sends or receives is done. -/
def halfDone (d : Dev) (c : Coll) : Bool :=
  match c.traverse d with
  | none => true
  | some (level, dir) =>
    c.begun && (collXfers d c).isEmpty &&
      (legs d c.lop (getGroup d c.group).self level dir c.reduced).2.all fun l => decide ((c.stage, l.member, l.dst.toNat) ∈ c.recv)

/-- The stage has a second half to come. -/
def moreHalf (d : Dev) (c : Coll) : Bool :=
  match c.traverse d with
  | none => false
  | some (level, dir) =>
    let gr := getGroup d c.group
    let ps := participants d c.group c.lop.root level gr.self
    decide (c.lop.cop = 0) && decide (dir = 1) && !c.reduced && decide (1 < ps.length) && decide (gr.self ∈ ps)

/-- A traverse in which a member has no part. -/
def idleStage (d : Dev) (x : LinkOp) (t : Nat × Nat) : Bool :=
  let me := (getGroup d x.group).self
  let ps := participants d x.group x.root t.1 me
  decide (t.2 ≠ 0) && (decide (ps.length ≤ 1) || decide (me ∉ ps))

/-- The next stage from i on in which the member has a part. -/
def nextStage (d : Dev) (x : LinkOp) (i : Nat) : Option Nat :=
  let ts := collStages x.cop (getGroup d x.group).top
  ((List.range ts.length).filter fun k => decide (i ≤ k)).find? fun k => !idleStage d x (ts.getD k (0, 0))

/-- A collective's result is final at a chunk on this member (R510): received in a down traverse, or, on the member that leads to the top, complete
once every up traverse is. -/
def collFinal (d : Dev) (c : Coll) (chunk : Nat) : Bool :=
  let ts := collStages c.lop.cop (getGroup d c.group).top
  let me := (getGroup d c.group).self
  let fromStage := ts.findIdx? fun t => decide (t.2 = 2) && decide (me ∈ participants d c.group c.lop.root t.1 me) &&
    decide (leaderOf d c.group c.lop.root t.1 me ≠ me)
  match fromStage with
  | some s => d.inbound.any fun b => decide (b.h.seq.toNat = c.seq) && decide (b.h.kind = 1) && decide (b.h.stage.toNat = s) &&
      decide (b.h.groupTag = (getGroup d c.group).tag) && (b.done || tget false b.got chunk)
  | none => match ts[c.stage]? with
    | some t => decide (t.2 = 2)
    | none => true

/-- The port that a failure of a collective is reported from: that of the member concerned; port 0 where that is the member itself, whose own PORT is not
used (R502; log 194, DESIGN CHOICE). -/
def collSource (d : Dev) (c : Coll) (member : Nat) : Nat :=
  184 + if member = (getGroup d c.group).self then 0 else (memberPort d c.group member).2

/-- ABORT goes to a member by its port, unless that is a Z1 port, which has none (R490, R510), or the member's entry cannot be read. -/
def abortMember (d : Dev) (c : Coll) (i : Nat) : Dev :=
  let dp := memberPort d c.group i
  if (memberRead d c.group i).isNone then d
  else if portZ2 d dp.1 dp.2 then sendMsg d dp.1 dp.2 (.abort (memberZid d c.group i) (getGroup d c.group).tag (BitVec.ofNat 8 c.seq)) else d

/-- The collective ends with a fault (R510): its transfers stop, kind 4 is logged, ABORT goes to every other member unless one came, and it completes. -/
def collFail (d : Dev) (c : Coll) (f : FaultCode) (cause member : Nat) (first : Option Nat) : Dev :=
  let gr := getGroup d c.group
  let live := collXfers d c
  let s : LinkStatus := ⟨f, cause, member, first, cdiv (c.lop.resultLen gr.count) (chunkSize c.lop.big),
    c.resends + (live.map Xfer.resends).sum, collFinal d c, c.bytes + (live.map Xfer.bytes).sum⟩
  let d := { d with
    xfers := d.xfers.filter fun x => !(decide (x.kind = 1) && decide (x.owner = c.lop.op.serial))
    colls := d.colls.filter fun y => decide (y.lop.op.serial ≠ c.lop.op.serial) }
  let d := logErr d c.die ⟨collSource d c member, 4, f, .link, 0, [c.lop.op.handle.toNat, c.seq, member, cause]⟩
  let d := if cause = 10 then d
    else ((List.range gr.count).filter fun i => decide (i ≠ gr.self)).foldl (fun d i => abortMember d c i) d
  finishLop (countFailed d c.die f) c.die c.lop s false

/-- The collective has completed (R509): the group keeps its SEQ and DIGEST for copies that still come (R506). -/
def collDone (d : Dev) (c : Coll) : Dev :=
  let d := { d with colls := d.colls.filter fun y => decide (y.lop.op.serial ≠ c.lop.op.serial) }
  let gr := getGroup d c.group
  let d := setGroup d c.group { gr with ended := (c.seq, c.lop.digest) :: gr.ended }
  finishLop d c.die c.lop ⟨.none, 0, 0, none, cdiv (c.lop.resultLen (getGroup d c.group).count) (chunkSize c.lop.big), c.resends, fun _ => true, c.bytes⟩ false

/-- A collective fails because a line it reads cannot be read (R384, R510). -/
def collUnread (d : Dev) (c : Coll) (f : FaultCode) : Dev :=
  collFail d c (if f = .poisoned then .poisoned else .collectiveFailed) 8 (getGroup d c.group).self none

/-- Completes a collective whose last stage is done (R509); the member list is read to plan what follows a stage (R502). -/
def collTry (d : Dev) (c : Coll) : Dev :=
  if !halfDone d c || moreHalf d c || listBusy d c.die c.group then d
  else match listRead d c.group with
    | (d, .none) => if (nextStage d c.lop (c.stage + 1)).isNone then collDone d c else d
    | (d, f) => collUnread d c f

/-- Queues the transfers of legs. -/
def queueLegs (d : Dev) (c : Coll) (ls : List Leg) : Dev :=
  ls.foldl (fun d l =>
    let dp := memberPort d c.group l.member
    let n := (d.xfers.filter fun x => decide (x.die = dp.1) && decide (x.port = dp.2)).foldl (fun m x => max m (x.slot + 1)) 256
    let x : Xfer := ⟨dp.1, dp.2, n, 1, c.lop.op.serial, c.group, l.member, memberZid d c.group l.member, c.lop.f 0 24 22, c.lop.big, l.src, l.dst, l.len,
      (getGroup d c.group).tag, c.seq, none, c.stage, c.lop.digest, 0, [], 0, [], 0, 0⟩
    { d with xfers := d.xfers ++ [x] }) d

/-- A transfer fails (R498, R510, R322). -/
def failXfer (d : Dev) (x : Xfer) (f : FaultCode) (cause : Nat) (first : Option Nat) : Dev :=
  match x.kind with
  | 0 => endPut d x f cause first
  | 1 => match d.colls.find? fun c => decide (c.lop.op.serial = x.owner) with
    | some c => collFail d c f cause x.member first
    | none => dropXfer d x
  | _ => exportFail d x.owner

/-- More than a port can send at once: 512 flits, the messages that wait, and a chunk and a header for each VC and transfer. -/
def pumpFuel (d : Dev) (die port : Nat) : Nat := 2048 + (getPort d die port).msgs.length + 4 * d.xfers.length

/-- Sends on a port as far as it may; a source that cannot be read fails its transfer (R384, R498). -/
def pumpPort (die port : Nat) : Nat → Dev → Dev
  | 0, d => d
  | n + 1, d =>
    match pumpSend die port (pumpFuel d die port) (assignSlots d die port) with
    | (d, none) => d
    | (d, some (x, f)) => pumpPort die port n (failXfer d x (if f = .poisoned then .poisoned else .collectiveFailed) 8 (some x.next))

/-- Sends on every port of the part. -/
def pumpAll (d : Dev) : Dev :=
  (List.range (2 * d.part.dies)).foldl (fun d k => pumpPort (k / 2) (k % 2) (d.xfers.length + 1) d) d

/-- Completes the collective of a die and group if its last stage is done. -/
def collCheck (d : Dev) (die g : Nat) : Dev :=
  match findColl d die g with
  | some c => collTry d c
  | none => d

/-- Begins a stage of a collective: its package traverse, or its transfers, for whose plan the member list is read (R502). -/
def beginStage (d : Dev) (c : Coll) : Dev :=
  let d := setColl d c
  match c.traverse d with
  | none => collTry d c
  | some (level, dir) =>
    if dir = 0 then
      match packageStage d c.lop with
      | (d, .none) => collTry d c
      | (d, f) => collUnread d c f
    else match listRead d c.group with
      | (d, .none) => collCheck (pumpAll (queueLegs d c (legs d c.lop (getGroup d c.group).self level dir c.reduced).1)) c.die c.group
      | (d, f) => collUnread d c f

/-- COLLECTIVE_TRAVERSE (R507): the stage's second half, or the next stage, begins; it waits for slices and links (R370, R410). -/
def collNext (d : Dev) (c : Coll) : Option Dev :=
  if !halfDone d c || collBusy d c.die c.lop then none
  else if moreHalf d c then
    match c.traverse d with
    | none => none
    | some (level, _) =>
      match reduceSegment d c.lop level with
      | (d, .none) => some (beginStage d { c with reduced := true })
      | (d, f) => some (collUnread d c f)
  else match listRead d c.group with
    | (d, .none) => match nextStage d c.lop (c.stage + 1) with
      | none => some (collTry d c)
      | some s => some (beginStage d { c with stage := s, begun := true, reduced := false })
    | (d, f) => some (collUnread d c f)

end Sys2Proof.Machine
end

