-- ==== Sys2Proof/Machine/Links.lean ====
section
/-!
DEFINITION. Zevan ports (R481 to R494), link puts (R496 to R499), inbound chunks (R497, R506), messages (R486) and the rows of collectives
(R505 to R510).
-/

namespace Sys2Proof.Machine

/-! ### Issue and checks (R496, R505, R512) -/

/-- The link engine's queue is full. -/
def linksFull (c : CoreId) (d : Dev) : Bool := decide (64 ≤ (linksQueued d c.die).length)

/-- An operation enters the link engine's queue. -/
def pushLink (c : CoreId) (d : Dev) (op : Op) : Dev := setLinks d c.die (getLinks d c.die ++ [⟨op, c, partId d c, 0, 0, 0⟩])

/-- COL.RUN (R505, R512). -/
def execColRun (c : CoreId) (o : DOp) (s : State) : Host.Outcome State Fault Refusal :=
  runCmd (.colRun c o) (dIssue "COL_RUN" c (.colRun c o) o 0x20 0 true (linksFull c) (pushLink c)) s

/-- COL.PUT (R496, R512). -/
def execColPut (c : CoreId) (o : DOp) (s : State) : Host.Outcome State Fault Refusal :=
  runCmd (.colPut c o) (dIssue "COL_PUT" c (.colPut c o) o 0x21 1 true (linksFull c) (pushLink c)) s

/-- The stake an operation waits on (R215). -/
def LinkOp.wait (x : LinkOp) : Option StakeId :=
  if x.isPut then (if x.f 0 17 17 = 1 then some (BitVec.ofNat 17 (x.f 0 34 18)) else none)
  else if x.f 0 29 29 = 1 then some (BitVec.ofNat 17 (x.f 0 46 30)) else none

/-- Why a source may not be read: register space, or more than one region. -/
def srcFault (d : Dev) (a : Addr) (n : Nat) : FaultCode :=
  if spaceOf a = 3 then .spaceDenied else if inRegion d a n then .none else .addressAbsent

/-- Reads the entries that an operation's plan needs (R502): a put's own, a collective's whole list; the fault of a line that cannot be read (R384, R386). -/
def planRead (d : Dev) (x : LinkOp) : Dev × FaultCode :=
  if !x.isPut then listRead d x.group
  else if (getGroup d x.group).count ≤ x.f 4 11 0 then (d, .none)
  else match devReadAll d ((getGroup d x.group).members + BitVec.ofNat 52 (8 * x.f 4 11 0)) 8 with
    | (d, .ok _) => (d, .none)
    | (d, .error f) => (d, f)

/-- What an operation's plan reads waits for slices or links (R370, R410). -/
def planBusy (d : Dev) (x : LinkOp) : Bool :=
  if !x.isPut then listBusy d x.core.die x.group
  else decide (x.f 4 11 0 < (getGroup d x.group).count) && extentBusy d x.core.die ((getGroup d x.group).members + BitVec.ofNat 52 (8 * x.f 4 11 0)) 8

/-- The checks of R496. -/
def checkPut (d : Dev) (x : LinkOp) : FaultCode :=
  let gr := getGroup d x.group
  let member := x.f 4 11 0
  let len := x.f 3 33 0
  let src : Addr := BitVec.ofNat 52 (x.f 1 51 0)
  let dp := memberPort d x.group member
  firstFault [
    (decide (gr.count ≤ member) || decide (member = gr.self) || decide (65536 < cdiv len (chunkSize x.big)), .badDescriptor),
    (misBy 64 (x.f 1 51 0) || misBy 64 (x.f 2 51 0) || misBy 32 (x.f 6 51 0), .misaligned),
    (decide (srcFault d src len ≠ .none), srcFault d src len),
    (!portUp d dp.1 dp.2, .linkDown)]

/-- The checks of R505. -/
def checkColl (d : Dev) (x : LinkOp) : FaultCode :=
  let gr := getGroup d x.group
  let op := x.cop
  let nsrc := x.f 0 28 25
  let total := x.resultLen gr.count
  let fmt := x.f 0 20 17
  let src (i : Nat) : Addr := BitVec.ofNat 52 (x.f (6 + i) 51 0)
  let used := if op = 0 then nsrc else if op = 1 ∨ (op = 2 ∧ gr.self = x.root) then 1 else 0
  let srcs := (List.range used).map src
  let win := decide (op = 3) || (decide (gr.inBase.toNat ≤ x.dst.toNat) && decide (x.dst.toNat + total ≤ gr.inBase.toNat + gr.inSize))
  let bad := decide (3 < op) || (decide (op = 0) && (decide (2 < x.f 0 16 15) || !(decide (fmt < 3) || decide (fmt = 10)))) ||
    (if op = 0 then decide (nsrc = 0) || decide (8 < nsrc) else decide (nsrc ≠ 1)) || decide (gr.count ≤ x.root) ||
    decide (x.f 3 63 32 ≠ (gr.seq.toNat + 1) % 2 ^ 32) || decide (65536 < cdiv total (chunkSize x.big)) || decide (gr.landSize < landNeed d x)
  let ports := if bad then [] else (allSends d x).map fun l => memberPort d x.group l.member
  firstFault [
    (bad, .badDescriptor),
    ((decide (op ≠ 3) && (misBy 64 x.dst.toNat || misBy 64 x.len)) || srcs.any (fun a => misBy 64 a.toNat) || misBy 32 (x.f 5 51 0), .misaligned),
    (!win || srcs.any (fun a => decide (srcFault d a x.len = .spaceDenied)), .spaceDenied),
    (srcs.any (fun a => decide (srcFault d a x.len ≠ .none)), .addressAbsent),
    (ports.any (fun p => portUp d p.1 p.2 && !portZ2 d p.1 p.2), .featureAbsent),
    (ports.any (fun p => !portUp d p.1 p.2), .linkDown)]

/-- The chunks of an operation's transfer or result. -/
def LinkOp.total (d : Dev) (x : LinkOp) : Nat :=
  cdiv (if x.isPut then x.f 3 33 0 else x.resultLen (getGroup d x.group).count) (chunkSize x.big)

/-- The member an early end names: a put's own. -/
def LinkOp.member (x : LinkOp) : Nat := if x.isPut then x.f 4 11 0 else 0

/-- An operation that its checks refuse ends before it starts. Its status block counts the chunks that its descriptor asks for; those of an ALL_GATHER
whose handle fails are not known, and count as none (R499; log 195, DESIGN CHOICE). -/
def endEarly (d : Dev) (die : Nat) (x : LinkOp) (f : FaultCode) (cause member : Nat) : Dev :=
  finishLop d die x (LinkStatus.early f cause member
    (if (f = .staleHandle ∨ f = .badHandle) ∧ x.isPut = false ∧ x.cop = 1 then 0 else x.total d)) false

/-- A queued collective as one that runs. -/
def LinkOp.coll (x : LinkOp) (die : Nat) : Coll := ⟨x, die, x.group, x.f 3 63 32, 0, false, false, [], none, 0, 0⟩

/-- An ABORT that came before its collective (R510). -/
def keptAbort (d : Dev) (x : LinkOp) : Option Nat :=
  ((getGroup d x.group).aborts.find? fun a => decide (a.1.toNat = x.f 3 63 32 % 256)).map Prod.snd

/-- The link engine takes the next operation of its queue (R197, R496, R505): a collective consumes its SEQ, refused or not, and fails if an
ABORT for it has come. -/
def linkTake (d : Dev) (die : Nat) : Option Dev :=
  match (getLinks d die).find? fun x => decide (x.phase = 0) with
  | none => none
  | some x =>
    if halted d die then none
    else match order1 d x.core x.op with
      | .error f => some (endEarly d die x f 0 0)
      | .ok op =>
        let x := { x with op := op }
        match checkHandle d typeGroup op.handle with
        | .error f => some (endEarly d die x f 0 x.member)
        | .ok g =>
          if planBusy d x then none else
          let f := match x.wait with
            | some id => stakeCheck d id (some op.parcel)
            | none => .none
          let r := planRead d x
          let f := if f ≠ .none then f else if r.2 ≠ .none then r.2 else if x.isPut then checkPut d x else checkColl d x
          let d := r.1
          let abort := if x.isPut then none else keptAbort d x
          let d := if x.isPut then d
            else
              let gr := getGroup d g
              setGroup d g { gr with seq := BitVec.ofNat 32 (x.f 3 63 32), aborts := gr.aborts.filter fun a => decide (a.1.toNat ≠ x.f 3 63 32 % 256) }
          if f ≠ .none then some (endEarly d die x f (if f = .linkDown then 7 else 0) x.member)
          else match abort with
            | some m => some (collFail d (x.coll die) .collectiveFailed 10 m none)
            | none => match x.wait with
              | some id => some (unitWait (setLop d die { x with phase := 1 }) (.unit (.link die) op.serial) id op.parcel op.serial)
              | none => some (setLop d die { x with phase := 2, ready := d.tick, upto := d.tick })

/-- The operand wait of a link-engine operation is over (R215). -/
def linkWaitEnd (d : Dev) (die : Nat) : Option Dev :=
  (getLinks d die).findSome? fun x =>
    if x.phase ≠ 1 then none
    else match takeWake d (.unit (.link die) x.op.serial) with
      | none => none
      | some (0, d) => some (setLop d die { x with phase := 2, ready := d.tick, upto := d.tick })
      | some (_, d) => some (endEarly d die x .operandFault 0 x.member)

/-! ### Puts and pages -/

/-- Adds a transfer to a port and sends as far as it may. -/
def addXfer (d : Dev) (x : Xfer) : Dev :=
  let d := { d with xfers := d.xfers ++ [x] }
  pumpPort x.die x.port (d.xfers.length + 1) d

/-- A ready put starts (R495, R496). -/
def startPut (d : Dev) (die : Nat) (x : LinkOp) (slot : Nat) : Dev :=
  let len := x.f 3 33 0
  let dp := memberPort d x.group (x.f 4 11 0)
  let arrive := if x.f 0 15 15 = 1 then some (x.f 4 48 32, x.f 5 15 0) else none
  if len = 0 ∧ arrive = none then finishLop d die x (LinkStatus.early .none 0 (x.f 4 11 0) 0) true
  else
    let z2 := portZ2 d dp.1 dp.2
    let t : Xfer := ⟨dp.1, dp.2, slot, 0, x.op.serial, x.group, x.f 4 11 0, memberZid d x.group (x.f 4 11 0), (if z2 then x.f 0 14 12 else x.f 0 14 12 % 4),
      x.big && z2, BitVec.ofNat 52 (x.f 1 51 0), BitVec.ofNat 52 (x.f 2 51 0), len, (getGroup d x.group).tag, 0, arrive, 0, 0, 0, [], 0, [], 0, 0⟩
    addXfer (setLop d die { x with phase := 3 }) t

/-- The next ready put of a die, with a slot of its port (R512); one whose port has gone ends at once. -/
def nextPut (d : Dev) (die : Nat) : Option Dev :=
  (getLinks d die).findSome? fun x =>
    if x.phase ≠ 2 ∨ !x.isPut ∨ planBusy d x then none
    else
      let r := planRead d x
      let d := r.1
      let f := if r.2 ≠ .none then r.2 else checkPut d x
      let dp := memberPort d x.group (x.f 4 11 0)
      if f ≠ .none then some (endEarly d die x f (if f = .linkDown then 7 else 0) x.member)
      else (freeXfer d dp.1 dp.2).map fun s => startPut d die x s

/-- The next page of a die's export queues starts (R320, R321): the first of its queue, which leaves it with its last flit. -/
def nextPage (d : Dev) (die : Nat) : Option Dev :=
  [0, 1].findSome? fun port =>
    let q := tget [] d.expQ (2 * die + port)
    match q.head?.filter fun e => !e.started with
    | none => none
    | some e =>
      let idx := die * 4096 + e.slot
      match checkHandle d typeGroup (BitVec.ofNat 32 (kvReg d .kvsExport idx 63 32)) with
      | .error _ => some (exportFail d idx)
      | .ok g =>
        if listBusy d die g then none else
        let r := listRead d g
        let d := r.1
        let m := kvReg d .kvsExport idx 23 8
        let z2 := portZ2 d die port
        if !portUp d die port ∨ (getGroup d g).count ≤ m ∨ r.2 ≠ .none then some (exportFail d idx)
        else (freeXfer d die port).map fun s =>
          let vc := kvReg d .kvsExport idx 4 2
          addXfer { d with expQ := tset [] d.expQ (2 * die + port) (q.map fun y => if (y.slot, y.page) = (e.slot, e.page) then { y with started := true } else y) }
            ⟨die, port, s, 2, idx, g, m, memberZid d g m, if z2 then vc else vc % 4, z2, 0,
              plus (BitVec.ofNat 52 (kvReg d .kvsRemote idx 51 0)) (e.page * 65536), 65536, (getGroup d g).tag, 0, none, 0, 0, e.page,
              (e.bytes ++ List.replicate 65536 0).take 65536, 0, [], 0, 0⟩

/-- PUT_START (R494 to R496, R320): the next put that is ready starts; where none is, the next page of an export queue. -/
def execPutStart (die : Nat) (s : State) : Host.Outcome State Fault Refusal :=
  runCmd (.putStart die) (fun d =>
    if halted d die then .refused (.notEnabled "PUT_START") else orNot "PUT_START" ((nextPut d die).or (nextPage d die))) s

/-! ### Ports going down (R492) -/

/-- The first chunk that is not acknowledged. -/
def Xfer.first (x : Xfer) : Option Nat := (List.range x.total).find? fun c => !x.acked c

/-- A queued operation with its descriptor, which it may not have read yet. -/
def LinkOp.peek (d : Dev) (x : LinkOp) : LinkOp :=
  if x.phase ≠ 0 then x
  else match order1 d x.core x.op with
    | .ok op => { x with op := op }
    | .error _ => x

/-- An operation needs a port (R492, R513). -/
def LinkOp.over (d : Dev) (x : LinkOp) (die port : Nat) : Bool :=
  if x.op.desc.isEmpty then false
  else if x.isPut then decide (memberPort d x.group (x.f 4 11 0) = (die, port))
  else !(portLegs d x die port).isEmpty

/-- A queued operation fails (R492, R498, R503, R510): a put with kind 3, a collective as one that runs. -/
def failQueued (d : Dev) (e : Nat × LinkOp) (f : FaultCode) (cause port member : Nat) : Dev :=
  if e.2.isPut then
    endEarly (logErr (countFailed d e.1 f) e.1 ⟨184 + port, 3, f, .link, 0, [e.2.op.handle.toNat, e.2.member, 0xFFFFFFFF, cause]⟩) e.1 e.2 f cause e.2.member
  else collFail d (e.2.coll e.1) f cause member none

/-- The transfers and operations that need a port end with LINK_DOWN, and its exports fail (R492, R510, R322): a put queued in whatever state, a
collective that has been accepted. -/
def portLoss (d : Dev) (die port : Nat) : Dev :=
  let uses (x : LinkOp) : Bool := decide (x.phase < 3) && (x.isPut || decide (x.phase ≠ 0)) && x.over d die port
  let colls := d.colls.filter fun c => c.lop.over d die port
  let member (x : LinkOp) : Nat := (portLegs d x die port).head?.elim 0 Leg.member
  let queued := d.links.flatMap fun p => ((p.2.map (LinkOp.peek d)).filter uses).map fun x => (p.1, x)
  let exports := (d.xfers.filter fun x => decide (x.kind = 2) && x.die == die && x.port == port).map Xfer.owner ++
    ((tget [] d.expQ (2 * die + port)).map fun e => die * 4096 + e.slot) ++ ((tget [] d.expWait (2 * die + port)).map fun e => die * 4096 + e.1)
  let puts := d.xfers.filter fun x => decide (x.kind = 0) && x.die == die && x.port == port
  let d := puts.foldl (fun d x => endPut d x .linkDown 7 x.first) d
  let d := colls.foldl (fun d c => collFail d c .linkDown 7 (member c.lop) none) d
  let d := queued.foldl (fun d e => failQueued d e .linkDown 7 port (member e.2)) d
  exports.foldl exportFail d

/-- A port goes DOWN (R492): kind 1 with the reason of R581, and what needs the port ends. -/
def portDown (d : Dev) (die port reason : Nat) : Dev :=
  let d := rset d .zlkStatus die 0 port 5 0 0
  let d := setPort d die port Port.empty
  let d := logErr d die ⟨184 + port, 1, .linkDown, .link, 0, [port, reason]⟩
  portLoss d die port

/-- ZLK_CTL.TRAIN (R489, R652): ignored and logged before package ready or while ZLK_ID is reserved; else the port trains. -/
def execZlkTrain (die port : Nat) (s : State) : Host.Outcome State Fault Refusal :=
  runCmd (.zlkTrain die port) (fun d =>
    let id := zlkId d
    .next (if !pkgReady d ∨ id = 0 ∨ id = 0xFFFF then logIgnoredAt d .zlkCtl die 0 port (rfld d .zlkCtl die 0 port 63 0 + 1)
      else if portState d die port = 1 ∨ portState d die port = 3 then d
      else rset (rset d .zlkStatus die 0 port 2 0 1) .pkgClk die 0 0 3 3 1)) s

/-- ZLK_CTL.STOP (R492): the port goes DOWN. -/
def execZlkStop (die port : Nat) (s : State) : Host.Outcome State Fault Refusal :=
  runCmd (.zlkStop die port) (fun d => .next (if portState d die port = 0 then d else portDown d die port 4)) s

/-- A training ended (R489): versions, ZIDs and credits have been exchanged, and everything counts from the start. -/
def trainEnd (d : Dev) (die port : Nat) (x : TrainResult) : Dev :=
  let common := rfld d .zlkCtl die 0 port 3 2 &&& x.peerVersions.toNat
  let half := decide (rfld d .zlkCtl die 0 port 4 4 = 1)
  let up := decide (common ≠ 0) && ((x.lower && x.upper) || ((x.lower || x.upper) && half))
  if !up then portLoss (rset d .zlkStatus die 0 port 2 0 4) die port
  else
    let d := rset d .zlkStatus die 0 port 5 0
      (2 + 8 * b2n (decide (2 ≤ common)) + 16 * b2n (!(x.lower && x.upper)) + 32 * b2n (!x.lower))
    let d := rset d .zlkStatus die 0 port 15 8 ((if x.lower then 0 else 0x0F) + (if x.upper then 0 else 0xF0))
    let d := rset d .zlkStatus die 0 port 31 16 x.peerZid.toNat
    let d := setPort d die port { Port.empty with announced := x.peerCredits }
    pumpPort die port (d.xfers.length + 1) d

/-- PORT_TRAINING_DONE (R489): UP on eight lanes or, where ALLOW_HALF lets it, on four, at the highest common version; else FAILED. -/
def execPortTrainingDone (die port : Nat) (x : TrainResult) (s : State) : Host.Outcome State Fault Refusal :=
  runCmd (.portTrainingDone die port x) (fun d =>
    whenOn "PORT_TRAINING_DONE" (decide (portState d die port = 1)) (trainEnd d die port x)) s

/-- The lanes an UP port runs on. -/
def activeLanes (d : Dev) (die port : Nat) : Nat :=
  if rfld d .zlkStatus die 0 port 4 4 = 0 then 0xFF else if rfld d .zlkStatus die 0 port 5 5 = 1 then 0xF0 else 0x0F

/-- Lanes of an UP port fail, or none in a replay storm (R491, R492): the port retrains, or goes DOWN where no whole half remains or ALLOW_HALF is
clear. -/
def failLanes (d : Dev) (die port lanes : Nat) : Dev :=
  let bad := lanes &&& activeLanes d die port
  let whole := rfld d .zlkStatus die 0 port 4 4 = 0 ∧ (bad &&& 0x0F = 0 ∨ bad &&& 0xF0 = 0)
  let d := rset d .zlkStatus die 0 port 15 8 (rfld d .zlkStatus die 0 port 15 8 ||| bad)
  if bad ≠ 0 ∧ ¬whole then portDown d die port 1
  else if bad ≠ 0 ∧ rfld d .zlkCtl die 0 port 4 4 = 0 then portDown d die port 2
  else setPort (rset d .zlkStatus die 0 port 2 0 3) die port { getPort d die port with retrain := some d.tick }

/-- LANE_FAILURE (R491, R492): lanes of an UP port lose lock, or (no lane) a replay storm. -/
def execLaneFailure (die port : Nat) (lanes : BitVec 8) (s : State) : Host.Outcome State Fault Refusal :=
  runCmd (.laneFailure die port lanes) (fun d =>
    whenOn "LANE_FAILURE" (decide (portState d die port = 2)) (failLanes d die port lanes.toNat)) s

/-- A collective needs a port. -/
def Coll.over (d : Dev) (c : Coll) (die port : Nat) : Bool := c.lop.over d die port

/-- What a retrain that ends adds to a collective's TIMEOUT (R491): the ticks since the first of the retrains that it waits for began, but for those already
counted. -/
def LinkOp.pause (d : Dev) (x : LinkOp) : Nat :=
  let starts := (List.range (2 * d.part.dies)).filterMap fun k =>
    if portState d (k / 2) (k % 2) = 3 ∧ x.over d (k / 2) (k % 2) = true then (getPort d (k / 2) (k % 2)).retrain else none
  match starts with
  | [] => 0
  | t :: ts => d.tick - max (ts.foldl min t) x.upto

/-- The timers that a retrain paused go on as it ends (R491, R513): those of the port's chunks and of the collectives that need it. -/
def resumeTimers (d : Dev) (die port : Nat) : Dev :=
  match (getPort d die port).retrain with
  | none => d
  | some t =>
    let on (x : Xfer) : Bool := x.die == die && x.port == port
    let late (s : ChunkSt) : ChunkSt := { s with sent := s.sent + (d.tick - max t s.sent) }
    let wait (x : LinkOp) : LinkOp :=
      if !x.isPut ∧ x.phase = 2 ∧ x.over d die port = true then { x with ready := x.ready + x.pause d, upto := d.tick } else x
    setPort { d with
      xfers := d.xfers.map fun x => if on x then { x with chunks := x.chunks.map fun p => (p.1, late p.2) } else x
      links := d.links.map fun p => (p.1, p.2.map wait)
      colls := d.colls.map fun c => if c.over d die port then
          { c with deadline := c.deadline.map fun e => e + c.lop.pause d, lop := { c.lop with upto := d.tick } } else c }
      die port { getPort d die port with retrain := none }

/-- PORT_RETRAIN_DONE (R491, R492): the port is UP again, on the half without a failed lane (kind 2), or DOWN; what the replay
buffer holds is sent again. -/
def execPortRetrainDone (die port : Nat) (ok : Bool) (s : State) : Host.Outcome State Fault Refusal :=
  runCmd (.portRetrainDone die port ok) (fun d =>
    if portState d die port ≠ 3 then .refused (.notEnabled "PORT_RETRAIN_DONE")
    else if !ok then .next (portDown d die port 3)
    else
      let bad := rfld d .zlkStatus die 0 port 15 8
      let d := rset (resumeTimers d die port) .zlkStatus die 0 port 2 0 2
      let d := if bad = 0 ∨ rfld d .zlkStatus die 0 port 4 4 = 1 then d
        else
          let d := rset d .zlkStatus die 0 port 5 4 (if bad &&& 0x0F = 0 then 1 else 3)
          let d := rcount d .zlkErr die 0 port 63 48 1
          logErr d die ⟨184 + port, 2, .none, .link, 0, [port, bad]⟩
      let d := replayFlits d die port
      .next (pumpPort die port (d.xfers.length + 1) d)) s

/-- ZLK_LANE_WINDOW_END (R491): a window of 2^16 ticks ends, and every lane's symbol errors are counted from 0. -/
def execZlkLaneWindowEnd (die port : Nat) (s : State) : Host.Outcome State Fault Refusal :=
  runOk (decide (die < 8) && decide (port < 2)) [die] (fun d =>
    whenOn "ZLK_LANE_WINDOW_END" (decide (d.tick % 2 ^ 16 = 0)) (setPort d die port { getPort d die port with laneErrs := [] })) s

/-! ### Messages (R486, R498) -/

/-- A transfer is complete: its last ACK has come (R497, R509). -/
def xferDone (d : Dev) (x : Xfer) : Dev :=
  match x.kind with
  | 0 => endPut d x .none 0 none
  | 1 => match d.colls.find? fun c => decide (c.lop.op.serial = x.owner) with
    | some c => collCheck (setColl (dropXfer d x) { c with resends := c.resends + x.resends, bytes := c.bytes + x.bytes }) c.die c.group
    | none => dropXfer d x
  | _ => exportAdvance x.owner (d.xfers.length + 1) (setXfer d { x with stage := 1 })

/-- Sends on a port again after a change. -/
def repump (d : Dev) (die port : Nat) : Dev := pumpPort die port (d.xfers.length + 1) d

/-- An ACK (R486, R497): a chunk is acknowledged; LAST completes the transfer. -/
def ackIn (d : Dev) (die port tag chunk : Nat) (last : Bool) : Dev :=
  match findXfer d die port tag with
  | none => d
  | some x =>
    let x := match x.chunk chunk with
      | some st => x.setChunk chunk { st with acked := true, due := false }
      | none => x
    let d := setXfer d x
    repump (if last && x.allAcked then xferDone d x else d) die port

/-- LINK_ACK (R486, R497): an ACK reaches the link engine of its TAG. -/
def execLinkAck (die port tag chunk : Nat) (last : Bool) (s : State) : Host.Outcome State Fault Refusal :=
  runCmd (.linkAck die port tag chunk last) (fun d => .next (ackIn d die port tag chunk last)) s

/-- A chunk's next copy is due, and counted (R498, R499): it leaves when its port is UP (R488) and its VC free. -/
def makeDue (d : Dev) (x : Xfer) (c : Nat) (st : ChunkSt) : Dev :=
  setXfer (rcount d .zlkErr x.die 0 x.port 31 16 1) { x.setChunk c { st with notReady := none, due := true } with resends := x.resends + 1 }

/-- A chunk is to be sent again, or its transfer fails when it has had its resends (R498). -/
def resend (d : Dev) (x : Xfer) (c : Nat) (st : ChunkSt) (cause : Nat) : Dev :=
  if rfld d .zlkCtl x.die 0 x.port 15 8 ≤ st.resends then failXfer d x .collectiveFailed cause (some c)
  else makeDue d x c { st with resends := st.resends + 1 }

/-- A NAK (R486, R498, R506, R510): 1 CRC, 2 NOT_READY, 3 REFUSED, 4 UNROUTABLE, 5 DIGEST. -/
def nakIn (d : Dev) (die port tag chunk reason : Nat) : Dev :=
  match findXfer d die port tag with
  | none => d
  | some x => repump (match reason, x.chunk chunk with
    | 1, some st => if st.due then d else resend d x chunk st 1
    | 2, some st => setXfer d (x.setChunk chunk { st with notReady := some d.tick })
    | 3, _ => failXfer d x .collectiveFailed 3 (some chunk)
    | 4, _ => failXfer d x .collectiveFailed 4 (some chunk)
    | 5, _ => failXfer d x .collectiveFailed 5 (some chunk)
    | _, _ => d) die port

/-- LINK_NAK (R486): a NAK reaches the link engine of its TAG. -/
def execLinkNak (die port tag chunk reason : Nat) (s : State) : Host.Outcome State Fault Refusal :=
  runCmd (.linkNak die port tag chunk reason) (fun d => .next (nakIn d die port tag chunk reason)) s

/-- ACK_TIMEOUT (R498): a chunk has had no answer for ACK_TIMEOUT ticks; timers stand while the port retrains. -/
def execAckTimeout (die port tag chunk : Nat) (s : State) : Host.Outcome State Fault Refusal :=
  runCmd (.ackTimeout die port tag chunk) (fun d =>
    orNot "ACK_TIMEOUT" (match findXfer d die port tag with
      | none => none
      | some x => match x.chunk chunk with
        | none => none
        | some st =>
          if st.acked ∨ st.due ∨ st.notReady.isSome ∨ portState d die port ≠ 2 ∨ d.tick < st.sent + rfld d .zlkCtl die 0 port 31 16 then none
          else some (repump (resend d x chunk st 2) die port))) s

/-- NOT_READY_RESEND (R506): 64 ticks after NOT_READY the chunk is sent again, which no limit counts. -/
def execNotReadyResend (die port tag chunk : Nat) (s : State) : Host.Outcome State Fault Refusal :=
  runCmd (.notReadyResend die port tag chunk) (fun d =>
    orNot "NOT_READY_RESEND" (match findXfer d die port tag with
      | none => none
      | some x => match x.chunk chunk with
        | none => none
        | some st => match st.notReady with
          | none => none
          | some t =>
            if d.tick < t + 64 ∨ portState d die port ≠ 2 then none else some (repump (makeDue d x chunk st) die port))) s

/-- An ABORT (R510): the collective of the tag and SEQ fails with the sender's index; one not yet issued keeps it; a late one is ignored. -/
def abortIn (d : Dev) (groupTag : W32) (seq8 : BitVec 8) (zid : Nat) : Dev :=
  match groupOfTag d groupTag with
  | none => d
  | some g =>
    let m := (memberOf d g zid).getD 0
    match d.colls.find? fun c => decide (c.group = g) && decide (c.seq % 256 = seq8.toNat) with
    | some c => collFail d c .collectiveFailed 10 m none
    | none =>
      match d.links.findSome? fun p => (p.2.find? fun x => !x.isPut && decide (x.phase = 1 ∨ x.phase = 2) && decide (x.group = g) &&
          decide (x.f 3 63 32 % 256 = seq8.toNat)).map fun x => (p.1, x) with
      | some (die, x) => collFail d (x.coll die) .collectiveFailed 10 m none
      | none =>
        let gr := getGroup d g
        let ahead := (seq8.toNat + 256 - gr.seq.toNat % 256) % 256
        if 0 < ahead ∧ ahead < 128 then setGroup d g { gr with aborts := gr.aborts ++ [(seq8, m)] } else d

/-- LINK_ABORT (R510): an ABORT of a member reaches its group. -/
def execLinkAbort (groupTag : BitVec 32) (seq8 : BitVec 8) (fromZid : BitVec 16) (s : State) : Host.Outcome State Fault Refusal :=
  runCmd (.linkAbort groupTag seq8 fromZid) (fun d => .next (abortIn d groupTag seq8 fromZid.toNat)) s

/-! ### Inbound chunks (R497, R506) -/

/-- Answers a chunk with a NAK; a refusal is counted (R517); a Z1 port has no NOT_READY (R490). -/
def nakChunk (d : Dev) (die port : Nat) (h : PutHeader) (chunk reason : Nat) : Dev :=
  let d := if reason = 3 then rcount d .zlkErr die 0 port 47 32 1 else d
  if reason = 2 ∧ portZ2 d die port = false then d else sendMsg d die port (.nak h.srcZid.toNat h.tag.toNat chunk reason)

/-- The transfer that a header belongs to, or a new one: a header that repeats that of a complete transfer is its duplicate (R498). -/
def inboundOf (d : Dev) (h : PutHeader) : Inbound :=
  (d.inbound.find? fun b => decide (b.h = h)).getD ⟨h, [], false, false⟩

/-- Writes the record of an inbound transfer; an earlier transfer of the same tag is forgotten. -/
def setInbound (d : Dev) (b : Inbound) : Dev :=
  { d with inbound := b :: d.inbound.filter fun x => !(decide (x.h.srcZid = b.h.srcZid) && decide (x.h.tag = b.h.tag)) }

/-- Every chunk of an inbound transfer is in: its arrival goes to the hub, which is to apply it before the last ACK (R497), or its collective notes it,
and the last ACK is sent. -/
def inboundDone (d : Dev) (die port g : Nat) (b : Inbound) (chunk : Nat) : Dev :=
  let h := b.h
  let gr := getGroup d g
  let ack (d : Dev) (last : Bool) : Dev := sendMsg d die port (.ack h.srcZid.toNat h.tag.toNat chunk last)
  if b.done then ack d true
  else if b.arriving then ack d false
  else if h.kind = 1 then
    let d := ack (setInbound d { b with done := true }) true
    match d.colls.find? fun c => decide (c.group = g) && decide (c.seq = h.seq.toNat) with
    | some c =>
      let c := { c with recv := c.recv ++ [(h.stage.toNat, (memberOf d g h.srcZid.toNat).getD 0, h.dstAddr.toNat)] }
      collCheck (setColl d c) c.die g
    | none => d
  else if h.arriveEn then
    if d.part.dies ≤ stakeDie h.stake then nakChunk d die port h chunk 3
    else pushPort (setInbound d { b with arriving := true }) 2
      ⟨.arrive h.inc.toNat false, h.stake, .link die port h.srcZid.toNat h.tag.toNat chunk, some (fld gr.parcel 15 0)⟩
  else ack (setInbound d { b with done := true }) true

/-- Why a chunk of a collective is not accepted (R506): NAK DIGEST, or NOT_READY until the collective of its SEQ has reached its STAGE; one that has
completed has reached every stage. -/
def collRefuses (d : Dev) (g : Nat) (h : PutHeader) : Option Nat :=
  let digest (x : W32) (ready : Bool) : Option Nat := if x ≠ h.digest then some 5 else if ready then none else some 2
  if h.kind ≠ 1 then none
  else match d.colls.find? fun c => decide (c.group = g) && decide (c.seq = h.seq.toNat) with
    | some c => digest c.lop.digest (decide (h.stage.toNat ≤ c.stage) && c.begun)
    | none =>
      match d.links.findSome? fun p => p.2.find? fun x => !x.isPut && decide (x.phase = 1 ∨ x.phase = 2) && decide (x.group = g) &&
          decide (x.f 3 63 32 = h.seq.toNat) with
      | some x => digest x.digest false
      | none => match (getGroup d g).ended.find? fun e => decide (e.1 = h.seq.toNat) with
        | some e => digest e.2 true
        | none => some 2

/-- An inbound chunk (R497, R506): refused, written and acknowledged, or written and answered with NAK CRC. -/
def chunkIn (d : Dev) (die port : Nat) (h : PutHeader) (chunk : Nat) (bytes : List Byte) (crc : W32) : Dev :=
  if h.dstZid.toNat ≠ zlkId d then nakChunk d die port h chunk 4
  else match groupOfTag d h.groupTag with
    | none => nakChunk d die port h chunk 3
    | some g =>
      let gr := getGroup d g
      let k := chunkSize h.chunk16
      let a := h.dstAddr.toNat + chunk * k
      let inside := decide (gr.inBase.toNat ≤ a) && decide (a + bytes.length ≤ gr.inBase.toNat + gr.inSize)
      if (memberOf d g h.srcZid.toNat).isNone ∨ (bytes.length ≠ 0 ∧ !inside) then nakChunk d die port h chunk 3
      else match collRefuses d g h with
        | some r => nakChunk d die port h chunk r
        | none =>
          match devWriteAll d (plus h.dstAddr (chunk * k)) bytes with
          | (d, .error _) => nakChunk d die port h chunk 3
          | (d, .ok ()) =>
            if crc32c bytes ≠ crc then nakChunk d die port h chunk 1
            else
              let total := cdiv h.length.toNat k
              let b := inboundOf d h
              let b := { b with got := if chunk < total then tset false b.got chunk true else b.got }
              let d := setInbound d b
              if (List.range total).all fun i => tget false b.got i then inboundDone d die port g b chunk
              else sendMsg d die port (.ack h.srcZid.toNat h.tag.toNat chunk false)

/-- The write of an inbound chunk waits for slices or links (R370, R410). -/
def chunkWaits (d : Dev) (die : Nat) (h : PutHeader) (chunk n : Nat) : Bool :=
  decide (n ≠ 0) && extentBusy d die (plus h.dstAddr (chunk * chunkSize h.chunk16)) n

/-- PUT_CHUNK_RECEIVE (R497): a chunk arrives whole at the link engine, however its flits framed it (log 159). -/
def execPutChunkReceive (die port : Nat) (h : PutHeader) (chunk : Nat) (bytes : List (BitVec 8)) (crc : BitVec 32) (s : State) :
    Host.Outcome State Fault Refusal :=
  runCmd (.putChunkReceive die port h chunk bytes crc) (fun d =>
    if portState d die port ≠ 2 ∨ chunkWaits d die h chunk bytes.length then .refused (.notEnabled "PUT_CHUNK_RECEIVE")
    else .next (repump (chunkIn d die port h chunk bytes crc) die port)) s

/-! ### Flits (R483, R485, R487, R493) -/

/-- A message reaches the link engine that its TAG names (R486), if it is for this package; other MTYPE values are reserved. The sender of an ABORT is
taken to be the link peer (log 159). -/
def messageIn (d : Dev) (die port : Nat) (w : W64) : Dev :=
  let tag := fld w 31 20
  if fld w 15 0 ≠ zlkId d then d
  else match fld w 19 16 with
    | 1 => ackIn d (tag / 512) (tag / 256 % 2) (tag % 256) (fld w 47 32) (decide (fld w 48 48 = 1))
    | 2 => nakIn d (tag / 512) (tag / 256 % 2) (tag % 256) (fld w 47 32) (fld w 51 48)
    | 3 => abortIn d (BitVec.ofNat 32 (fld w 51 20)) (BitVec.ofNat 8 (fld w 59 52)) (rfld d .zlkStatus die 0 port 31 16)
    | _ => d

/-- What the bytes received on a VC hold next (R495): nothing whole yet, a put header, or a chunk (its number, bytes and CRC). -/
inductive Parcelled where
  | none
  | header (h : PutHeader)
  | chunk (h : PutHeader) (c : Nat) (bytes : List Byte) (crc : W32)
deriving DecidableEq, Repr

/-- The chunk at the front of the bytes if it has n bytes: its trailer follows them and says so. -/
def Incoming.chunkOf (x : Incoming) (h : PutHeader) (n : Nat) : Parcelled :=
  let w (k : Nat) : Nat := leNat ((x.bytes.drop (n + 4 * k)).take 4)
  if x.bytes.length < n + 16 ∨ w 1 ≠ n then .none else .chunk h (w 0 % 2 ^ 16) (x.bytes.take n) (BitVec.ofNat 32 (w 2))

/-- What stands at the front of a stream (R495): its header, then the chunk expected; a chunk that is sent again stands in a stream of its own and may be
the last, shorter one (log 159). -/
def Incoming.front (x : Incoming) : Parcelled :=
  match x.h with
  | none => if x.bytes.length < 64 then .none else .header (headerOf x.bytes)
  | some h =>
    if h.length = 0 then .chunk h 0 [] (crc32c [])
    else
      let last := x.chunkOf h (h.chunkLen (h.total - 1))
      if x.again && decide (last ≠ .none) then last else x.chunkOf h (h.chunkLen x.chunk)

/-- Takes what has come whole on a VC (R487, R493, R497): headers, each of which makes its transfer known, and chunks, which are answered UNROUTABLE where a body was for another package. The
rest of a stream's last body is dropped. A chunk whose write must wait stays, with its credits. -/
def takeStream (die port v : Nat) : Nat → Dev → Dev
  | 0, d => d
  | n + 1, d =>
    let p := getPort d die port
    let x := p.incOn v
    match x.front with
    | .none => d
    | .header h =>
      let known := d.inbound.any fun b => decide (b.h = h)
      let e := if known || x.lost then d else setInbound d ⟨h, [], false, false⟩
      takeStream die port v n (setPort e die port (p.setInc v { x with h := some h, chunk := 0, again := known, bytes := x.bytes.drop 64 }))
    | .chunk h c bytes crc =>
      if chunkWaits d die h c bytes.length then d
      else
        let ends := x.again || decide (c ≠ x.chunk) || decide (h.total ≤ c + 1)
        let rest : Incoming := if ends then { Incoming.idle with held := x.held }
          else { x with chunk := c + 1, bytes := x.bytes.drop (bytes.length + 16) }
        let d := setPort d die port (p.setInc v rest)
        takeStream die port v n (if x.lost then nakChunk d die port h c 4 else chunkIn d die port h c bytes crc)

/-- The credits of a VC's bodies go back once they are accepted (R493): a body that holds bytes not yet taken stays in the buffer. The VC's total is to be
sent. -/
def returnCredits (d : Dev) (die port v : Nat) : Dev :=
  let p := getPort d die port
  let x := p.incOn v
  let keep := min x.held (cdiv x.bytes.length 240)
  if keep = x.held then d
  else setPort d die port { p.setInc v { x with held := keep } with
    taken := tset 0 p.taken v (tget 0 p.taken v + (x.held - keep))
    crDue := if v ∈ p.crDue then p.crDue else p.crDue ++ [v] }

/-- Idle flits carry the totals that no other flit has carried (R485, R493). -/
def sendCredits (d : Dev) (die port : Nat) : Dev :=
  if portState d die port ≠ 2 then d else (getPort d die port).crDue.foldl (fun d _ => putFlit d die port none false none) d

/-- A body arrives on a VC. -/
def bodyIn (d : Dev) (die port : Nat) (f : Flit) : Dev :=
  let p := getPort d die port
  let x := p.incOn f.vc
  let x := { x with bytes := x.bytes ++ f.body, held := x.held + 1, lost := x.lost || decide (f.dst ≠ zlkId d) }
  let d := setPort d die port (p.setInc f.vc x)
  returnCredits (takeStream die port f.vc (x.bytes.length + 2) d) die port f.vc

/-- What waited on a port's VCs is tried again. -/
def retryIn (d : Dev) (die port : Nat) : Dev :=
  (List.range 8).foldl (fun d v =>
    let x := (getPort d die port).incOn v
    if x.held = 0 then d else returnCredits (takeStream die port v (x.bytes.length + 2) d) die port v) d

/-- The running totals of a received flit (R485, R487, R493): what the peer has acknowledged leaves the replay buffer, and credits come back, never more than
are out. -/
def totalsIn (p : Port) (f : Flit) : Port :=
  let old := tget 0 p.returned f.crVc
  let more := (f.crTotal + 128 - old % 128) % 128
  { p with
    replay := p.replay.filter fun r => after r.fseq f.ackseq
    returned := if more ≤ p.owed f.crVc then tset 0 p.returned f.crVc (old + more) else p.returned }

/-- The peer has the last ACK of a put, which a flit carried: a header that repeats the put's is from now on a new put (R498; log 159). -/
def forgetPut (d : Dev) (f : Flit) : Dev :=
  let w := f.msg
  if f.msgV = true ∧ fld w 19 16 = 1 ∧ fld w 48 48 = 1 then
    { d with inbound := d.inbound.filter fun b =>
        !(b.done && decide (b.h.kind ≠ 1) && decide (b.h.srcZid.toNat = fld w 15 0) && decide (b.h.tag.toNat = fld w 31 20)) }
  else d

/-- A flit that was decoded (R485, R487): the device, and whether a gap shows. A peer's NAK has the replay buffer sent again; a sequenced flit that comes in
order is taken, one that came before is dropped. -/
def flitIn (die port : Nat) (r : Dev × Bool) (f : Flit) : Dev × Bool :=
  let q := getPort r.1 die port
  let d := (q.replay.filter fun x => !after x.fseq f.ackseq).foldl forgetPut (setPort r.1 die port (totalsIn q f))
  let d := if f.nak then replayFlits (rcount d .zlkErr die 0 port 15 0 1) die port else d
  let p := getPort d die port
  if !f.sequenced then (d, r.2)
  else if f.fseq ≠ p.rx + 1 then (d, r.2 || after f.fseq p.rx)
  else
    let d := setPort d die port { p with rx := f.fseq }
    let d := if f.ftype = 1 then bodyIn d die port f else d
    (if f.msgV then messageIn d die port f.msg else d, r.2)

/-- Symbol errors of each lane in this window (R491). -/
def countLanes (p : Port) (x : FlitGroup) : Port :=
  { p with laneErrs := (List.range 8).foldl (fun t i => tset 0 t i (tget 0 t i + x.lanes.getD i 0)) p.laneErrs }

/-- The lanes whose symbol errors exceed LANE_LIMIT, in units of 1,024 (R491, R514). -/
def lanesOver (d : Dev) (die port : Nat) : Nat :=
  (List.range 8).foldl (fun m i =>
    if rfld d .zlkCtl die 0 port 39 32 * 1024 < tget 0 (getPort d die port).laneErrs i then m + 2 ^ i else m) 0

/-- A group of codewords is received (R483, R487, R491, R518): codewords are counted, the flits of those that are uncorrectable discarded, the others taken
in order; a loss or a gap asks for a replay; what was taken is acknowledged; lanes over their limit fail. -/
def groupIn (d : Dev) (die port : Nat) (x : FlitGroup) : Dev :=
  let bad := (x.errors.filter fun n => decide (15 < n)).length
  let d := rcount d .zlkFec die 0 port 31 0 (x.errors.filter fun n => decide (0 < n) && decide (n ≤ 15)).length
  let d := rcount d .zlkFec die 0 port 63 32 bad
  let d := retryIn (setPort d die port (countLanes (getPort d die port) x)) die port
  let rx := (getPort d die port).rx
  let r := (((List.range x.flits.length).filter x.good).filterMap fun i => x.flits[i]?).foldl (flitIn die port) (d, false)
  let d := if 0 < bad ∨ r.2 then askReplay r.1 die port
    else if (getPort r.1 die port).rx ≠ rx then putFlit r.1 die port none false none else r.1
  let d := sendCredits (repump d die port) die port
  if lanesOver d die port &&& activeLanes d die port = 0 then d else failLanes d die port (lanesOver d die port)

/-- FLIT_RECEIVE (R483, R487): an UP port receives a group of codewords. -/
def execFlitReceive (die port : Nat) (x : FlitGroup) (s : State) : Host.Outcome State Fault Refusal :=
  runCmd (.flitReceive die port x) (fun d => whenOn "FLIT_RECEIVE" (decide (portState d die port = 2)) (groupIn d die port x)) s

/-! ### Collectives -/

/-- How far the SEQ of a collective lies behind the last one of its group. -/
def LinkOp.behind (d : Dev) (x : LinkOp) : Nat := ((getGroup d x.group).seq - BitVec.ofNat 32 (x.f 3 63 32)).toNat

/-- The collectives of a group that wait or are ready, on every die of the member (R506). -/
def waitingColls (d : Dev) (g : Nat) : List LinkOp :=
  d.links.flatMap fun p => p.2.filter fun x => !x.isPut && decide (0 < x.phase ∧ x.phase < 3) && decide (x.group = g)

/-- The collective of a group that is next in a die's queue, if it is ready, first in SEQ order, and none of the group runs (R506). -/
def readyColl (d : Dev) (die g : Nat) : Option LinkOp :=
  match (getLinks d die).find? fun x => !x.isPut && decide (0 < x.phase ∧ x.phase < 3) && decide (x.group = g) with
  | none => none
  | some x => if x.phase = 2 ∧ ((waitingColls d g).all fun y => decide (y.behind d ≤ x.behind d)) = true ∧ (d.colls.find? fun c => decide (c.group = g)) = none ∧ (d.colls.filter fun c => decide (c.die = die)).length < 16 then some x else none

/-- TIMEOUT of a collective, from the end of its wait (R510). -/
def LinkOp.deadline (x : LinkOp) : Option Nat := if x.f 4 31 0 = 0 then none else some (x.ready + x.f 4 31 0)

/-- COLLECTIVE_START (R505, R506): the next collective of a group starts its first stage; one of no bytes completes with EMPTY. It waits for slices and links
(R370, R410). -/
def execCollectiveStart (die group : Nat) (s : State) : Host.Outcome State Fault Refusal :=
  runCmd (.collectiveStart die group) (fun d =>
    orNot "COLLECTIVE_START" (match readyColl d die group with
      | none => none
      | some x =>
        if halted d die ∨ collBusy d die x then none
        else if x.cop ≠ 3 ∧ x.len = 0 then some (finishLop d die x (LinkStatus.early .none 0 0 0) true)
        else match listRead d group with
          | (d, .none) =>
            let c := { x.coll die with begun := true, deadline := x.deadline, stage := (nextStage d x 0).getD 99 }
            some (beginStage (setLop { d with colls := d.colls ++ [c] } die { x with phase := 3 }) c)
          | (d, f) => some (collUnread d (x.coll die) f))) s

/-- COLLECTIVE_TRAVERSE (R507): the collective goes on once its stage is done. -/
def execCollectiveTraverse (die group : Nat) (s : State) : Host.Outcome State Fault Refusal :=
  runCmd (.collectiveTraverse die group) (fun d =>
    orNot "COLLECTIVE_TRAVERSE" ((findColl d die group).bind fun c => collNext d c)) s

/-- A port that an operation needs retrains (R491, R513). -/
def LinkOp.paused (d : Dev) (x : LinkOp) : Bool :=
  (List.range (2 * d.part.dies)).any fun k => decide (portState d (k / 2) (k % 2) = 3) && x.over d (k / 2) (k % 2)

/-- COLLECTIVE_TIMEOUT (R510): TIMEOUT has expired for the group's collective, running or queued; it stands while a port it needs retrains (R491). -/
def execCollectiveTimeout (die group : Nat) (s : State) : Host.Outcome State Fault Refusal :=
  runCmd (.collectiveTimeout die group) (fun d =>
    let late (e : Option Nat) : Bool := (e.map fun t => decide (t ≤ d.tick)).getD false
    let self := (getGroup d group).self
    orNot "COLLECTIVE_TIMEOUT" (match findColl d die group with
      | some c => if late c.deadline ∧ c.lop.paused d = false then some (collFail d c .collectiveFailed 6 self none) else none
      | none =>
        match (getLinks d die).find? fun x => !x.isPut && decide (x.phase = 2) && decide (x.group = group) && late x.deadline && !x.paused d with
        | some x => some (collFail d (x.coll die) .collectiveFailed 6 self none)
        | none => none)) s

/-! ### Registers with behaviour (R513, R516, R519) -/

/-- ZLK_ID (R513, R519): ignored and logged while any port is not DOWN. -/
def execZlkIdWrite (v : BitVec 16) (s : State) : Host.Outcome State Fault Refusal :=
  runCmd (.zlkIdWrite v) (fun d =>
    let busy := (List.range d.part.dies).any fun die => decide (portState d die 0 ≠ 0) || decide (portState d die 1 ≠ 0)
    .next (if busy then logIgnoredAt d .zlkId 0 0 0 v.toNat else rset d .zlkId 0 0 0 15 0 v.toNat)) s

/-- ZLK_VC_CFG (R516): ignored and logged unless the port is DOWN, or where the credits exceed the buffer. -/
def execZlkVcCfgWrite (die port : Nat) (v : BitVec 64) (s : State) : Host.Outcome State Fault Refusal :=
  runCmd (.zlkVcCfgWrite die port v) (fun d =>
    let sum := ((List.range 8).map fun n => fld v (8 * n + 7) (8 * n)).sum
    .next (if portState d die port ≠ 0 ∨ 256 < sum then logIgnoredAt d .zlkVcCfg die 0 port v.toNat else regSet d .zlkVcCfg die 0 port v)) s

/-- The work of a group that closes (R503): its puts and collectives fail with CAUSE 9, and its exports fail. -/
def closeGroup (d : Dev) (g : Nat) : Dev :=
  let h := handleOf d typeGroup g
  let kvs := ((d.objs.filter fun p => p.2.live && decide (p.1 / 2 ^ 16 = typeKv)).map fun p => p.1 % 2 ^ 16).filter fun idx => decide (kvReg d .kvsExport idx 0 0 = 1) && decide (kvReg d .kvsExport idx 63 32 = h.toNat) &&
    decide (kvSt d idx ≠ 0)
  let puts := d.xfers.filter fun x => decide (x.kind = 0) && decide (x.group = g)
  let queued := d.links.flatMap fun p => (p.2.filter fun x => decide (x.phase < 3) && decide (x.op.handle = h)).map fun x => (p.1, x.peek d)
  let colls := d.colls.filter fun c => decide (c.group = g)
  let d := puts.foldl (fun d x => endPut d x .collectiveFailed 9 x.first) d
  let d := colls.foldl (fun d c => collFail d c .collectiveFailed 9 (getGroup d g).self none) d
  let d := queued.foldl (fun d e => failQueued d e .collectiveFailed 9 (memberPort d g e.2.member).2 (getGroup d g).self) d
  kvs.foldl exportFail d

/-! ### Stake operations that answer puts (R62, R497) -/

/-- The port that answers the put of a stake operation. -/
def StakeOp.answers (o : StakeOp) : Option (Nat × Nat) :=
  match o.source with
  | .link die port _ _ _ => some (die, port)
  | _ => none

/-- STAKE_OP_APPLY (R62): one cycle of a hub. Each port of the mask presents one operation; resets are applied
first, in port order, then arrivals, claims, tests and waits in port order (log 148, DESIGN CHOICE: where tests, waits and a second reset stand). Each operation
that leaves an AUTO_RESET stake at or above its goal subtracts TARGET once of its own (R64; log 180, DESIGN CHOICE). The answers to puts leave at once. -/
def execStakeOpApply (die hub : Nat) (ports : BitVec 4) (s : State) : Host.Outcome State Fault Refusal :=
  runCmd (.stakeOpApply die hub ports) (fun d =>
    let x := getHub d die hub
    let sel := ((List.range 4).filter fun p => ports.getLsbD p).filterMap fun p => (portFront d die (x.port p)).map fun o => (p, o)
    let ops := sel.map Prod.snd
    let x' := sel.foldl (fun x s => x.setPort s.1 ((x.port s.1).erase s.2)) x
    let d' := setHub d die hub x'
    let order := ops.filter StakeOp.isReset ++ ops.filter fun o => !o.isReset
    if ops.isEmpty then .refused (.notEnabled "STAKE_OP_APPLY") else .next ((order.filterMap StakeOp.answers).foldl (fun d p => repump d p.1 p.2) (order.foldl applyOp d'))) s

/-! ### What slices and links have held up (R370, R410) -/

/-- What waited for slices or links goes on, as far as it needs wait no more: records, status blocks, collectives, and what the ports receive and send. -/
def resumeWaits (d : Dev) : Dev :=
  let d := lateBlocks (lateCommands d)
  let d := d.colls.foldl (fun d c => collCheck d c.die c.group) d
  pumpAll ((List.range (2 * d.part.dies)).foldl (fun d k => sendCredits (retryIn d (k / 2) (k % 2)) (k / 2) (k % 2)) d)

/-- SLICE_RECONFIG_DONE (R370): BUSY clears, and the requests that waited for the slices go on. -/
def execSliceReconfigDone (die : Nat) (s : State) : Host.Outcome State Fault Refusal :=
  runCmd (.sliceReconfigDone die) (fun d =>
    whenOn "SLICE_RECONFIG_DONE" (decide (rfld d .resSliceCfg die 0 0 16 16 = 1)) (resumeWaits (rset d .resSliceCfg die 0 0 16 16 0))) s

end Sys2Proof.Machine
end

