-- ==== Sys2Proof/Machine/Media.lean ====
section
/-!
DEFINITION. The media engine (15): sessions and their checks (R524 to R531), frames (R532 to R538), the pipes (R544, R545), deadlines (R547)
and records (R548). What a codec makes of a picture or an access unit is the named standards' and takes free values (log 16); what the chapter leaves open besides stands in logs 161 to 169.
-/

namespace Sys2Proof.Machine

/-! ### Sessions -/

/-- A free session slot. -/
def Sess.empty : Sess := ⟨0, [], [], 0, none, [], false, none, [], 0, 0, 0⟩

/-- Session idx, 32 × die + slot (R527). -/
def getSess (d : Dev) (idx : Nat) : Sess := tget Sess.empty d.sess idx

/-- Writes a session. -/
def setSess (d : Dev) (idx : Nat) (x : Sess) : Dev := { d with sess := tset Sess.empty d.sess idx x }

/-- Bits of word w of a parameter block (R528). -/
def Sess.f (x : Sess) (w hi lo : Nat) : Nat := wfld x.words w hi lo

/-- DIR is decode. -/
def Sess.dec (x : Sess) : Bool := decide (x.f 0 0 0 = 1)

/-- CODEC. -/
def Sess.codec (x : Sess) : Nat := x.f 0 2 1

/-- PRIORITY: 0 LIVE, 1 STANDARD, 2 BATCH. -/
def Sess.prio (x : Sess) : Nat := x.f 0 9 8

/-- Bytes of a sample. -/
def Sess.bs (x : Sess) : Nat := if x.f 0 6 6 = 1 then 2 else 1

/-- MONO: 4:0:0. -/
def Sess.mono (x : Sess) : Bool := decide (x.f 0 7 7 = 1)

/-- WIDTH. -/
def Sess.w (x : Sess) : Nat := x.f 1 15 0

/-- HEIGHT. -/
def Sess.h (x : Sess) : Nat := x.f 1 31 16

/-- FRAME_TICKS. -/
def Sess.ticks (x : Sess) : Nat := x.f 1 63 32

/-- NREF. -/
def Sess.nref (x : Sess) : Nat := x.f 4 30 26

/-- RC_MODE: 0 CQP, 1 CBR, 2 VBR. -/
def Sess.rc (x : Sess) : Nat := x.f 4 1 0

/-- The side of a coding block (R523, R542). -/
def Sess.block (x : Sess) : Nat := if x.codec = 0 then 16 else 64

/-- The width over which samples are counted (R523): rounded up to coding blocks for encode; the coded size of the stream for decode. -/
def Sess.padW (x : Sess) : Nat := if x.dec then x.w else cdiv x.w x.block * x.block

/-- The height over which samples are counted (R523). -/
def Sess.padH (x : Sess) : Nat := if x.dec then x.h else cdiv x.h x.block * x.block

/-- The padded luma sample count (R523). -/
def Sess.padded (x : Sess) : Nat := x.padW * x.padH

/-- Blocks of a frame (R542). -/
def Sess.blocks (x : Sess) : Nat := cdiv x.w x.block * cdiv x.h x.block

/-- The largest QP of a codec (R528). -/
def Sess.qpTop (x : Sess) : Nat := if x.codec = 2 then 255 else 51

/-- REF_ADDR. -/
def Sess.refAddr (x : Sess) : Addr := BitVec.ofNat 52 (x.f 2 51 0)

/-- The bytes of the samples of a picture slot (R530). -/
def Sess.picBytes (x : Sess) : Nat := x.padded * (if x.mono then 2 else 3) * x.bs / 2

/-- The bytes of a picture slot (R530). -/
def Sess.slotBytes (x : Sess) : Nat := cdiv (16 * x.picBytes + x.padded) (16 * 65536) * 65536

/-- The bytes a session's reference area needs (R530). -/
def Sess.refNeed (x : Sess) : Nat := (x.nref + 1) * x.slotBytes

/-- The part of a pipe's rate that a LIVE session takes (R523, R529), as a fraction: over the tick of 49.23 ns a grade A pipe runs 64 cycles. -/
def Sess.load (a : Bool) (x : Sess) : Nat × Nat :=
  let per := if x.dec then 512 else if x.codec = 2 then 128 else 256
  if a then (x.padded * 5, per * x.ticks) else (x.padded * 5 * 26, per * x.ticks * 23)

/-- Sum of fractions. -/
def fracAdd (x y : Nat × Nat) : Nat × Nat := (x.1 * y.2 + y.1 * x.2, x.2 * y.2)

/-- LIVE_LOAD of a pipe, as a fraction: its open LIVE sessions (R546). -/
def liveLoad (d : Dev) (die : Nat) (dec : Bool) : Nat × Nat :=
  ((d.sess.filter fun p => decide (p.1 / 32 = die) && decide (p.2.state = 1) && decide (p.2.prio = 0) && decide (p.2.dec = dec)).map fun p =>
    p.2.load d.part.gradeA).foldl fracAdd (0, 1)

/-- LIVE_LOAD per mille, as MED_PIPE shows it (R551). -/
def liveLoadMille (d : Dev) (die : Nat) (dec : Bool) : Nat :=
  let x := liveLoad d die dec
  min 1000 (1000 * x.1 / max 1 x.2)

/-- The block supports a stream's codec, profile, tier, level, size and format (R524, R525). -/
def Sess.supported (x : Sess) : Bool :=
  let p := x.f 0 5 3
  let lvl := x.f 0 23 16
  let b10 := x.f 0 6 6 = 1
  let tier := x.f 0 10 10 = 1
  let dims (n : Nat) : Bool := decide (x.w % 2 = 0) && decide (x.h % 2 = 0) && decide (64 ≤ x.w) && decide (64 ≤ x.h) && decide (x.w ≤ n) && decide (x.h ≤ n)
  let big := decide (x.w * x.h ≤ (if x.dec then 35651584 else 8912896))
  decide (10 ≤ lvl) && (match x.codec with
    | 0 => decide (p ≤ (if x.dec then 3 else 2)) && decide (lvl ≤ 52) && !decide tier && (!decide b10 || decide (p = 3)) && (!x.mono || decide (2 ≤ p)) &&
        dims 4096 && decide (x.blocks ≤ 36864)
    | 1 => decide (p ≤ (if x.dec then 2 else 1)) && decide (lvl ≤ (if x.dec then 61 else 51)) && (!decide b10 || decide (p = 1)) && !x.mono &&
        dims 8192 && big
    | 2 => decide (p = 0) && decide (lvl ≤ (if x.dec then 61 else 51)) && !decide tier && dims 8192 && big
    | _ => false)

/-- The rate-control fields of an encode session stand within R529. -/
def Sess.rcOk (x : Sess) : Bool :=
  decide (x.rc < 3) && decide (x.f 4 17 10 ≤ x.f 4 9 2) && decide (x.f 4 9 2 ≤ x.f 4 25 18) && decide (x.f 4 25 18 ≤ x.qpTop) &&
    decide (1 ≤ x.f 7 18 16) && decide (x.f 7 18 16 ≤ 4) && decide (1 ≤ x.f 7 21 19) && decide (x.f 7 21 19 ≤ 4) &&
    (decide (x.rc = 0) || (decide (x.f 5 31 0 ≠ 0) && decide (x.f 6 31 0 ≠ 0) && decide (x.f 6 63 32 ≤ x.f 6 31 0) &&
      decide (x.f 5 31 0 ≤ Config.levelBitrate x.codec (x.f 0 23 16) (decide (x.f 0 10 10 = 1))))) &&
    (decide (x.rc ≠ 2) || decide (x.f 5 31 0 ≤ x.f 5 63 32))

/-- The checks of an OPEN of a session in slot idx (R529), after those of R415. -/
def sessCheck (d : Dev) (idx : Nat) (x : Sess) : FaultCode :=
  let nref := if x.dec then decide (1 ≤ x.nref) && decide (x.nref ≤ 16) else decide (1 ≤ x.nref) && decide (x.nref ≤ 2)
  let area := decide (x.f 2 51 0 % 65536 = 0) && inRegion d x.refAddr (x.f 3 39 0) && decide (spaceOf x.refAddr ≠ 3) && decide (x.refNeed ≤ x.f 3 39 0)
  if !x.supported || !nref || decide (2 < x.prio) || (!x.dec && !x.rcOk) || (decide (x.prio = 0) && decide (x.ticks = 0)) || !area then .badDescriptor
  else if x.prio = 0 then
    let l := fracAdd (liveLoad d (idx / 32) x.dec) (x.load d.part.gradeA)
    if rfld d .medCtl (idx / 32) 0 0 7 0 * l.2 < 100 * l.1 then .noSlot else .none
  else .none

/-- Opens a session with a parameter block (R528); the rate controller starts at QP_INIT (R542) and INIT_BITS (R541). -/
def openSess (d : Dev) (idx : Nat) (words : List W64) : Dev :=
  let x : Sess := ⟨1, words, [], 0, none, [], false, none, [], 0, 0, 0⟩
  setSess d idx (if x.dec then x else { x with qp := x.f 4 9 2, full := if x.rc = 0 then 0 else x.f 6 63 32 })

/-! ### Frames -/

/-- Bits of word w of a frame descriptor (R533). -/
def Frame.f (x : Frame) (w hi lo : Nat) : Nat := wfld x.op.desc w hi lo

/-- An END. -/
def Frame.isEnd (x : Frame) : Bool := decide (x.f 0 13 12 = 1)

/-- DEADLINE. -/
def Frame.deadline (x : Frame) : Nat := x.f 6 63 0

/-- The deadline has passed (R547). -/
def Frame.passed (x : Frame) (tick : Nat) : Bool := decide (x.deadline ≠ 0) && decide (x.deadline ≤ tick)

/-- An address of a frame descriptor. -/
def Frame.addr (x : Frame) (w : Nat) : Addr := BitVec.ofNat 52 (x.f w 51 0)

/-- Changes frame num of a session. -/
def modFrame (d : Dev) (idx num : Nat) (f : Frame → Frame) : Dev :=
  let s := getSess d idx
  setSess d idx { s with queue := s.queue.map fun y => if y.num = num then f y else y }

/-- Removes a frame from its session's queue. -/
def dropFrame (d : Dev) (idx : Nat) (x : Frame) : Dev :=
  let s := getSess d idx
  setSess d idx { s with queue := s.queue.filter fun y => decide (y.num ≠ x.num) }

/-- A record of class 9 from source 188 (R548). -/
def mediaEvent (d : Dev) (idx : Nat) (x : Frame) (kind : Nat) : Dev :=
  raiseEvent d ⟨9, idx / 32, 188, kind, BitVec.ofNat 64 d.tick, idx, x.num,
    BitVec.ofNat 64 ((handleOf d typeMedia idx).toNat + 2 ^ 32 * x.num), 0⟩

/-- An extent that the block may use lies in memory (R534). -/
def mediaExt (d : Dev) (a : Addr) (n : Nat) : FaultCode :=
  if spaceOf a = 3 ∨ (spaceOf a = 2 ∧ 0x100000000000 ≤ offOf a) then .spaceDenied
  else if inRegion d a n then .none else .addressAbsent

/-- The checks of R534 on a frame of a session. -/
def checkFrame (d : Dev) (s : Sess) (x : Frame) : FaultCode :=
  let pitch := x.f 3 31 0
  let row := s.w * s.bs
  let plane (w rows : Nat) : FaultCode := mediaExt d (x.addr w) (strided rows pitch row)
  let st := if x.f 7 51 0 = 0 then FaultCode.none else mediaExt d (x.addr 7) 32
  let exts := if x.isEnd then [] else
    [plane 1 s.h, (if s.mono then .none else plane 2 (s.h / 2)), mediaExt d (x.addr 4) (x.f 5 31 0), st]
  firstFault [
    (decide (1 < x.f 0 13 12) || (!x.isEnd && (decide (pitch < row) || (!s.dec && decide (x.f 5 31 0 < 4096 + cdiv s.blocks 4)))), .badDescriptor),
    (!x.isEnd && (misBy 64 (x.f 1 51 0) || (!s.mono && misBy 64 (x.f 2 51 0)) || misBy 64 pitch || misBy 64 (x.f 4 51 0) || misBy 32 (x.f 7 51 0)), .misaligned),
    (exts.contains .spaceDenied, .spaceDenied), (exts.contains .addressAbsent, .addressAbsent)]

/-- The status block of a frame of a session (R537): a frame of which nothing has been coded has only its ORDER and FULLNESS; an END writes none. -/
def statusBytes (s : Sess) (x : Frame) (f : FaultCode) : List Byte :=
  let own : List W64 := if x.status.isEmpty && !s.dec then [BitVec.ofNat 64 (2 ^ 16 * (x.num % 65536)), 0, BitVec.ofNat 64 s.full] else x.status
  let w0 := (own.getD 0 0).toNat + f.num + 2 ^ 10 * b2n x.late
  leBytes 8 w0 ++ leBytes 8 (x.f 8 63 0) ++ leBytes 8 (own.getD 1 0).toNat ++ leBytes 8 (own.getD 2 0).toNat

/-- The frame as it completes in a tick (R537, R547, R549): LATE at or after its DEADLINE, but for DEADLINE_MISSED and an END. -/
def Frame.ends (x : Frame) (f : FaultCode) (tick : Nat) : Frame :=
  { x with late := x.late || (x.passed tick && decide (f ≠ .deadlineMissed) && !x.isEnd) }

/-- A frame completes (R29, R537, R547, R548): its status block, the counts of MED_STAT, its arrival; the slot of a closing session is free with
its last frame (R531). -/
def frameDone (d : Dev) (idx : Nat) (y : Frame) (f : FaultCode) : Dev :=
  let x := y.ends f d.tick
  let a := x.addr 7
  let d := if x.late && !y.late then mediaEvent d idx x 2 else d
  let d := if x.op.desc.isEmpty ∨ x.f 7 51 0 = 0 ∨ misBy 32 a.toNat ∨ mediaExt d a 32 ≠ .none ∨ (x.isEnd ∧ f = .none) then d
    else (devWriteAll d a (statusBytes (getSess d idx) x f)).1
  let d := if f = .deadlineMissed then rcount d .medStat (idx / 32) 0 0 15 0 1 else d
  let d := if x.late then rcount d .medStat (idx / 32) 0 0 31 16 1 else d
  outDone (dropFrame d idx x) (idx / 32) 7 x.core x.part x.op f false

/-- CHN.MEDIA enters the chain engine's queue (R532). -/
def chnMedia : Nat := 4

/-- CHN.MEDIA (R208, R532). -/
def execChnMedia (c : CoreId) (o : DOp) (s : State) : Host.Outcome State Fault Refusal :=
  runCmd (.chnMedia c o) (dIssue "CHN_MEDIA" c (.chnMedia c o) o 0x13 chnMedia true (chainFull c) (pushArm c)) s

/-- The session that an entry hands its frame to: it fails R13 to R15, or is closing (R531), or takes the frame. -/
def frameSess (d : Dev) (op : Op) : Except FaultCode Nat :=
  match checkHandle d typeMedia op.handle with
  | .error f => .error f
  | .ok idx => if (getSess d idx).state = 1 then .ok idx else .error .staleHandle

/-- No earlier entry of a core's queue hands a frame to the same handle. -/
def mediaFirst (d : Dev) (c : CoreId) (pos : Nat) (op : Op) : Bool :=
  ((chainQ d c).take pos).all fun y => decide (y.op.opc ≠ chnMedia) || decide (y.op.handle ≠ op.handle)

/-- The queue of a session takes a frame from a core's chain engine (R532, R534): a frame that a check refuses completes at once, by the
header checks of R99 before the handle's. -/
def acceptFrame (d : Dev) (c : CoreId) (x : Chain) : Option Dev :=
  let gone (d : Dev) : Dev := setChainQ d c ((chainQ d c).filter fun y => decide (y.op.serial ≠ x.op.serial))
  match frameSess d x.op with
  | .error f =>
    let r : Op × FaultCode := match order1 d c x.op with
      | .ok op => (op, f)
      | .error g => (x.op, g)
    some (frameDone (gone d) ((x.op.handle.toNat % 65536) % (32 * d.part.dies))
      ⟨r.1, c, partId d c, 2 ^ 32, 0, r.2, none, false, false, false, false, []⟩ r.2)
  | .ok idx =>
    let s := getSess d idx
    if 8 ≤ s.queue.length ∨ halted d (idx / 32) then none
    else
      let fr (op : Op) : Frame := ⟨op, c, partId d c, s.accepted.toNat, d.accepted, .none, none, false, false, false, false, []⟩
      let d := setSess { gone d with accepted := d.accepted + 1 } idx { s with accepted := s.accepted + 1 }
      match order1 d c x.op with
      | .error f => some (frameDone d idx (fr x.op) f)
      | .ok op =>
        let y := fr op
        let wait := if y.f 0 15 15 = 1 then some (BitVec.ofNat 17 (y.f 0 32 16)) else none
        let f := match wait with
          | some id => stakeCheck d id (some op.parcel)
          | none => .none
        let f := if f = .none then checkFrame d s y else f
        if f ≠ .none then some (frameDone d idx y f)
        else
          let s := getSess d idx
          let d := setSess d idx { s with queue := s.queue ++ [{ y with waiting := wait.isSome }] }
          match wait with
          | some id => some (unitWait d (.frame (idx / 32) (idx % 32) y.num) id op.parcel op.serial)
          | none => some d

/-- FRAME_ACCEPT (R532, R534): entry pos of a core's chain engine hands its frame over. -/
def execFrameAccept (c : CoreId) (pos : Nat) (s : State) : Host.Outcome State Fault Refusal :=
  runCmd (.frameAccept c pos) (fun d =>
    orNot "FRAME_ACCEPT" (match (chainQ d c)[pos]? with
      | none => none
      | some x => if x.op.opc = chnMedia ∧ unitsRun d c ∧ mediaFirst d c pos x.op then acceptFrame d c x else none)) s

/-! ### Pipes -/

/-- An idle pipe. -/
def Pipe.empty : Pipe := ⟨none, none, none, none, 0⟩

/-- Pipe q of a die: 0 encode, 1 decode. -/
def getPipe (d : Dev) (die q : Nat) : Pipe := tget Pipe.empty d.pipes (2 * die + q)

/-- Writes a pipe. -/
def setPipe (d : Dev) (die q : Nat) (x : Pipe) : Dev := { d with pipes := tset Pipe.empty d.pipes (2 * die + q) x }

/-- The sessions that a pipe serves, by index. -/
def pipeSess (d : Dev) (die q : Nat) : List Nat :=
  ((List.range 32).map fun s => 32 * die + s).filter fun i => decide ((getSess d i).state ≠ 0) && decide (b2n (getSess d i).dec = q)

/-- The frame of a session that has started. -/
def startedFrame (d : Dev) (idx : Nat) : Option Frame := (getSess d idx).queue.find? Frame.started

/-- The outcome of a frame's wait, if it waits no more: 0, or 1. -/
def frameWake (d : Dev) (idx : Nat) (x : Frame) : Option (Nat × Dev) :=
  if x.waiting then takeWake d (.frame (idx / 32) (idx % 32) x.num) else some (0, d)

/-- The oldest accepted frame of a session, where it waits no more (R534, R544). -/
def readyFrame (d : Dev) (idx : Nat) : Option (Frame × Nat × Dev) :=
  match (getSess d idx).queue with
  | x :: _ => if x.started then none else (frameWake d idx x).map fun r => (x, r.1, r.2)
  | [] => none

/-- The frames among which a pipe chooses (R544): those of readyFrame whose wait ended well; an encode frame whose deadline has passed is not
one of them (R547). -/
def eligible (d : Dev) (die q : Nat) : List (Nat × Frame) :=
  (pipeSess d die q).filterMap fun i =>
    match readyFrame d i with
    | some (x, 0, _) => if x.isEnd || (!(getSess d i).dec && x.passed d.tick) then none else some (i, x)
    | _ => none

/-- The rank of R544 within its priorities: LIVE by DEADLINE and index, the others by acceptance. -/
def frameRank (d : Dev) (p : Nat × Frame) : List Nat :=
  let k := (getSess d p.1).prio
  if k = 0 then [0, b2n (decide (p.2.deadline = 0)), p.2.deadline, p.1] else [k, 0, p.2.order, p.1]

/-- The first of some frames by rank. -/
def bestFrame (d : Dev) (l : List (Nat × Frame)) : Option (Nat × Frame) :=
  l.foldl (fun best p => match best with
    | none => some p
    | some b => if rankLt (frameRank d p) (frameRank d b) then some p else some b) none

/-- A frame is LATE from now on (R547, R548); one that is already stays so. -/
def markLate (d : Dev) (idx : Nat) (x : Frame) : Dev :=
  if x.late then d else mediaEvent (modFrame d idx x.num fun y => { y with late := true }) idx x 2

/-- A frame starts on a pipe; its deadline may have passed already (decode, R547). -/
def startFrame (d : Dev) (die q idx : Nat) (x : Frame) : Dev :=
  let d := match frameWake d idx x with
    | some (_, d) => d
    | none => d
  let d := modFrame d idx x.num fun y => { y with waiting := false, started := true }
  let d := if x.passed d.tick then markLate d idx x else d
  setPipe d die q { getPipe d die q with coding := some idx, work := none, phase := 1 }

/-- The encoder enters MAXQ or SKIP: the records of R548, one of each in a frame (R549), and FALLBACKS counts the frame (R552). -/
def noteStages (d : Dev) (idx : Nat) (x : Frame) (old new : Coder) : Dev :=
  let d := if new.maxq && !old.maxq then mediaEvent d idx x 3 else d
  let d := if new.stage = 2 ∧ old.stage ≠ 2 then mediaEvent d idx x 4 else d
  if old.stage = 0 ∧ new.stage ≠ 0 then rcount d .medStat (idx / 32) 0 0 47 32 1 else d

/-- The remaining blocks of an encode frame are skip blocks (R547). -/
def enterSkip (d : Dev) (idx : Nat) (x : Frame) (p : FramePlan) (stray : Bool) (k : Coder) : Dev × Option MediaWork :=
  let n := { k with stage := 2 }
  (noteStages d idx x k n, some (.enc p stray n))

/-- The held frame of a pipe resumes (R545, R549): RESTORING; an encode frame whose deadline passed meanwhile goes on with skip blocks. -/
def resumeHeld (d : Dev) (die q i : Nat) : Dev :=
  let p := getPipe d die q
  let d := setPipe d die q { p with coding := some i, held := none, work := p.kept, kept := none, phase := 3 }
  match startedFrame d i, p.kept with
  | some x, some (.enc f stray k) =>
    if x.late || x.passed d.tick then
      let r := enterSkip (markLate d i x) i x f stray k
      setPipe r.1 die q { getPipe r.1 die q with work := r.2 }
    else d
  | _, _ => d

/-- PIPE_SELECT (R534, R544): a frame whose wait failed completes with OPERAND_FAULT; otherwise an idle pipe takes a LIVE frame, the frame it
holds, or another. -/
def pipeSelect (d : Dev) (die q : Nat) : Option Dev :=
  if stopped d die ∨ 2 ≤ q then none
  else match (pipeSess d die q).findSome? fun i => (readyFrame d i).bind fun r => if r.2.1 ≠ 0 then some (i, r) else none with
    | some (i, r) => some (frameDone r.2.2 i r.1 .operandFault)
    | none =>
      let p := getPipe d die q
      if p.coding.isSome then none
      else
        match bestFrame d (eligible d die q), p.held with
        | some (i, x), none => some (startFrame d die q i x)
        | some (i, x), some h => some (if (getSess d i).prio = 0 then startFrame d die q i x else resumeHeld d die q h)
        | none, some h => some (resumeHeld d die q h)
        | none, none => none

/-- PIPE_SELECT (R544). -/
def execPipeSelect (die pipe : Nat) (s : State) : Host.Outcome State Fault Refusal :=
  runCmd (.pipeSelect die pipe) (fun d => orNot "PIPE_SELECT" (pipeSelect d die pipe)) s

/-! ### Pictures in memory -/

/-- Reads rows of n bytes; the first line that refuses ends it. -/
def readRows (d : Dev) (rows : List Addr) (n : Nat) : Dev × FaultCode :=
  rows.foldl (fun (r : Dev × FaultCode) a =>
    if r.2 ≠ .none then r
    else match devReadAll r.1 a n with
      | (d, .ok _) => (d, .none)
      | (d, .error f) => (d, f)) (d, .none)

/-- n free samples of bs bytes (R526: bits [15:10] of a 10-bit sample are 0). -/
def freeSamples (n bs : Nat) (d : Dev) : List Byte × Dev :=
  let b := freeBytes (n * bs) d
  if bs = 2 then ((b.1.zipIdx).map fun p => if p.2 % 2 = 1 then p.1 &&& 3 else p.1, b.2) else b

/-- n samples at mid-level, 128 or 512 (R536). -/
def midSamples (n bs : Nat) : List Byte := (List.replicate n (if bs = 2 then [0, 2] else [128])).flatten

/-- Row y of a plane of a frame's picture (R526). -/
def Frame.rowAt (x : Frame) (chroma : Bool) (y : Nat) : Addr := x.addr (if chroma then 2 else 1) + BitVec.ofNat 52 (y * x.f 3 31 0)

/-- The rows of both planes of a picture of h luma rows. -/
def pictureRows (s : Sess) (x : Frame) (h : Nat) : List Addr :=
  (List.range h).map (x.rowAt false) ++ (if s.mono then [] else (List.range (h / 2)).map (x.rowAt true))

/-- Sample col of row y of a plane in a slot of the reference area (R530). -/
def Sess.slotAt (s : Sess) (slot : Nat) (chroma : Bool) (y col : Nat) : Addr :=
  s.refAddr + BitVec.ofNat 52 (slot * s.slotBytes + ((if chroma then s.padded else 0) + y * s.padW + col) * s.bs)

/-- The motion data of 16 × 16 unit i of a slot, 16 bytes each (R530). -/
def Sess.motionAt (s : Sess) (slot i : Nat) : Addr := s.refAddr + BitVec.ofNat 52 (slot * s.slotBytes + s.picBytes + 16 * i)

/-- The slot that the frame being coded takes: the first that no reference holds. -/
def Sess.freeSlot (s : Sess) : Nat := ((List.range (s.nref + 1)).find? fun k => s.refs.all fun r => decide (r.slot ≠ k)).getD 0

/-- Some line of n bytes is poisoned. -/
def extentPoisoned (d : Dev) (a : Addr) (n : Nat) : Bool :=
  (pieces a n (n / 64 + 2)).any fun p => ((resolve d p.1).map fun q => poisoned d q p.2).getD false

/-- A slice that a frame's extents reach is being set up anew (R370). -/
def mediaBusy (d : Dev) (idx : Nat) (x : Frame) : Bool :=
  let s := getSess d idx
  let plane (w rows : Nat) : Bool := extentBusy d (idx / 32) (x.addr w) (strided rows (x.f 3 31 0) (s.w * s.bs))
  plane 1 s.h || (!s.mono && plane 2 (s.h / 2)) || extentBusy d (idx / 32) (x.addr 4) (x.f 5 31 0) || extentBusy d (idx / 32) s.refAddr s.refNeed

/-- The frame that a pipe codes has been coded. -/
def coded (d : Dev) (idx : Nat) (x : Frame) (f : FaultCode) (status : List W64) : Dev :=
  modFrame d idx x.num fun y => { y with coded := true, fault := f, status := status }

/-! ### The search window (R539, R540) -/

/-- The position within 0 to n - 1 that is nearest to z: beyond an edge the samples of the edge repeat. -/
def edgePos (n : Nat) (z : Int) : Nat := min (n - 1) z.toNat

/-- Rows of bytes as they are read. -/
def readEach (d : Dev) (rows : List Addr) (n : Nat) : Dev × Except FaultCode (List (List Byte)) :=
  rows.foldl (fun r a => match r with
    | (d, .error f) => (d, .error f)
    | (d, .ok acc) =>
      match devReadAll d a n with
      | (d, .ok b) => (d, .ok (acc ++ [b]))
      | (d, .error f) => (d, .error f)) (d, .ok [])

/-- n elements of `unit` bytes from column x0 of a row of which elements a to b are given, with those of its ends repeated. -/
def padRow (unit a b : Nat) (x0 : Int) (n : Nat) (row : List Byte) : List Byte :=
  (List.range n).flatMap fun i => (row.drop ((min b (max a (x0 + i).toNat) - a) * unit)).take unit

/-- A part of one plane of a slot, W × H elements of `unit` bytes: n columns from x0 and m rows from y0, with edge replication (R539). -/
def readPart (s : Sess) (slot : Nat) (chroma : Bool) (x0 y0 : Int) (n m : Nat) (d : Dev) : Dev × Except FaultCode (List Byte) :=
  let k := if chroma then 2 else 1
  let w := s.padW / k
  let h := s.padH / k
  let a := edgePos w x0
  let b := edgePos w (x0 + n - 1)
  let top := edgePos h y0
  let rows := (List.range (edgePos h (y0 + m - 1) + 1 - top)).map fun i => s.slotAt slot chroma (top + i) (k * a)
  match readEach d rows ((b + 1 - a) * k * s.bs) with
  | (d, .error f) => (d, .error f)
  | (d, .ok l) => (d, .ok ((List.range m).flatMap fun i => padRow (k * s.bs) a b x0 n (l.getD (edgePos h (y0 + i) - top) [])))

/-- Loads the strip of 64 columns from x0 of every slot of a window, in its rows (R540). -/
def loadStrip (s : Sess) (w : Window) (x0 : Int) (d : Dev) : Dev × Except FaultCode (List Strip) :=
  let m := (w.bottom - w.top).toNat
  w.slots.foldl (fun r k => match r with
    | (d, .error f) => (d, .error f)
    | (d, .ok acc) =>
      match readPart s k false x0 w.top 64 m d with
      | (d, .error f) => (d, .error f)
      | (d, .ok y) =>
        if s.mono then (d, .ok (acc ++ [⟨y, []⟩]))
        else match readPart s k true (x0 / 2) (w.top / 2) 32 (m / 2) d with
          | (d, .ok c) => (d, .ok (acc ++ [⟨y, c⟩]))
          | (d, .error f) => (d, .error f)) (d, .ok [])

/-- The window with one more strip at its right. -/
def Window.grow (s : Sess) (w : Window) (d : Dev) : Dev × Except FaultCode Window :=
  match loadStrip s w (w.first + 64 * w.strips.length) d with
  | (d, .ok l) => (d, .ok { w with strips := w.strips ++ [l] })
  | (d, .error f) => (d, .error f)

/-- n more strips. -/
def Window.fill (s : Sess) : Nat → Window → Dev → Dev × Except FaultCode Window
  | 0, w, d => (d, .ok w)
  | n + 1, w, d =>
    match w.grow s d with
    | (d, .ok w) => Window.fill s n w d
    | (d, .error f) => (d, .error f)

/-- The window's columns are centred on block column col (R539). -/
def Window.centre (s : Sess) (col : Nat) (w : Window) : Window :=
  let sh : Int := 32 * s.f 7 18 16
  let left : Int := s.block * col + s.block / 2 - 32 - sh
  { w with left := left, right := left + 2 * sh + 64 }

/-- The window before the strips of a block row are loaded (R540): over (2 × SV + 64) rows centred on the row (R539). Blocks of 16 need a strip more at
the left, since the window of a block reaches there (log 163). -/
def Sess.rowWindow (s : Sess) (row : Nat) : Window :=
  let sh : Int := 32 * s.f 7 18 16
  let sv : Int := 16 * s.f 7 21 19
  let mid : Int := s.block * row + s.block / 2
  Window.centre s 0 ⟨s.refs.map RefPic.slot, 0, 0, mid - sv - 32, mid + sv + 32, if s.codec = 0 then -sh - 64 else -sh, []⟩

/-- The strips of a window at the start of a row. -/
def Sess.rowStrips (s : Sess) : Nat := s.f 7 18 16 + (if s.codec = 0 then 2 else 1)

/-- A vector in quarter samples that keeps the prediction of the 16 × 16 unit at (ux, uy) inside the window (R539), drawn freely: x, then y. -/
def Window.vector (w : Window) (ux uy : Nat) (d : Dev) : List Byte × Dev :=
  let draw (lo hi : Int) (d : Dev) : Int × Dev :=
    let r := freeBelow d (4 * (hi - lo) + 1).toNat
    (4 * lo + r.1, r.2)
  let x := draw (w.left - ux) (w.right - 16 - ux) d
  let y := draw (w.top - uy) (w.bottom - 16 - uy) x.2
  (leBytes 2 (x.1 % 65536).toNat ++ leBytes 2 (y.1 % 65536).toNat, y.2)

/-- The motion data of a unit: one or two references, each as its place in the list plus 1 (0: none) and its vector, and what else the block
keeps there. A skip block has its first reference. -/
def unitMotion (w : Window) (skip two : Bool) (ux uy : Nat) (d : Dev) : List Byte × Dev :=
  let n := w.slots.length
  let one (must on : Bool) (d : Dev) : List Byte × Dev :=
    let r := freeBelow d (if must then n else n + 1)
    let i := if !on then 0 else if must then r.1 + 1 else r.1
    let v := w.vector ux uy r.2
    if i = 0 then ([0, 0, 0, 0, 0], r.2) else (BitVec.ofNat 8 i :: v.1, v.2)
  let a := one skip true d
  let b := one false (two && decide (a.1.head? ≠ some 0)) a.2
  let c := freeBytes 6 b.2
  (a.1 ++ b.1 ++ c.1, c.2)

/-! ### Rate control (R541, R542) -/

/-- The greatest r with r ^ n ≤ x, below 2 ^ 80. -/
def nroot (n x : Nat) : Nat :=
  (List.range 80).foldr (fun i r => if (r + 2 ^ i) ^ n ≤ x then r + 2 ^ i else r) 0

/-- 2 ^ (e / n) in units of 2 ^ -64, rounded down. -/
def pow2Frac (n : Nat) (e : Int) : Nat :=
  let r := nroot n (2 ^ (64 * n + (e % n).toNat))
  let k := e / (n : Int)
  if 0 ≤ k then r * 2 ^ k.toNat else r / 2 ^ (-k).toNat

/-- est of R542 over some rows at a qp, in units of 2 ^ -64 bits; a row is its qp and its bits in the previous frame of the same type. -/
def Sess.est (s : Sess) (rows : List (Nat × Nat)) (qp : Nat) : Nat :=
  (rows.map fun r => r.2 * pow2Frac (if s.codec = 2 then 32 else 6) ((r.1 : Int) - qp)).sum

/-- Bits that arrive in one frame period at a rate of k kbit/s, as a fraction: FRAME_TICKS of 49.23 ns, or 1/30 s (R542). -/
def Sess.perFrame (s : Sess) (k : Nat) : Nat × Nat := if s.ticks = 0 then (1000 * k, 30) else (k * s.ticks * 64, 1300000)

/-- The qp of the next row (R542), where `all` and `rest` are the rows of the frame and those not yet coded. -/
def Sess.stepQp (s : Sess) (all rest : List (Nat × Nat)) (qp : Nat) : Nat :=
  let t := s.perFrame (s.f 5 31 0)
  let a := 100 * s.est all qp * t.2
  let above (p : Nat) : Bool := decide (p * t.1 * 2 ^ 64 < a)
  let below (p : Nat) : Bool := decide (a < p * t.1 * 2 ^ 64)
  let k : Int := if s.est rest qp = 0 then 0 else if above 125 then 2 else if above 105 then 1 else if below 80 then -2 else if below 95 then -1 else 0
  max (s.f 4 17 10) (min (s.f 4 25 18) (qp + k).toNat)

/-- The bits that the buffer model holds when the frame is removed (R541): INIT_BITS for the first frame coded; after it, what the last left and
what has arrived since at BITRATE (PEAK in VBR), up to CPB_BITS. -/
def Sess.fullness (s : Sess) (num : Nat) : Nat :=
  match s.last with
  | none => s.f 6 63 32
  | some n =>
    let r := s.perFrame (if s.rc = 2 then s.f 5 63 32 else s.f 5 31 0)
    min (s.f 6 31 0) (s.full + r.1 * (num - n) / r.2)

/-- Block columns of a frame. -/
def Sess.cols (s : Sess) : Nat := cdiv s.w s.block

/-- Codes block (row, col) (R542): its bits are free, a skip block's at most 16 and within LIMIT, and a block that would leave too little room for
the rest becomes a skip block. The motion data of its units go to slot `slot`. -/
def codeBlock (s : Sess) (p : FramePlan) (slot row col : Nat) (r : Coder × Dev) : Coder × Dev :=
  let k := r.1
  let n := freeBelow r.2 (2 ^ 32)
  let skip := decide (k.stage = 2) || decide (p.cap < k.used + n.1 + 16 * (s.blocks - (row * s.cols + col) - 1) + 256)
  let m := freeBelow n.2 (min 16 (p.cap - 256 - k.used) + 1)
  let k := { k with
    used := k.used + (if skip then m.1 else n.1)
    stage := if skip then 2 else k.stage
    skips := k.skips + b2n skip
    sum := k.sum + k.qp }
  match k.win with
  | none => (k, m.2)
  | some w =>
    let side := s.block / 16
    (List.range (side * side)).foldl (fun r i =>
      let ux := side * col + i % side
      let uy := side * row + i / side
      let b := unitMotion w skip p.b (16 * ux) (16 * uy) r.2
      match devWriteAll b.2 (s.motionAt slot (uy * (s.padW / 16) + ux)) b.1 with
      | (d, .ok ()) => (r.1, d)
      | (d, .error f) => ({ r.1 with fault := f }, d)) (k, m.2)

/-- The window as the block at col starts: it is centred on the block; at a new 64-sample column the leftmost strip is discarded and the strip for the
next column is loaded (R540). -/
def slideTo (s : Sess) (col : Nat) (r : Coder × Dev) : Coder × Dev :=
  match r.1.win with
  | some w =>
    let w := w.centre s col
    if s.block * col % 64 ≠ 0 then ({ r.1 with win := some w }, r.2)
    else match (if col = 0 then w else { w with first := w.first + 64, strips := w.strips.drop 1 }).grow s r.2 with
      | (d, .ok w) => ({ r.1 with win := some w }, d)
      | (d, .error f) => ({ r.1 with win := some w, fault := f }, d)
  | none => r

/-- A block row starts (R540, R542): the window is filled afresh, and the row controller moves qp or enters MAXQ. -/
def startRow (s : Sess) (p : FramePlan) (row : Nat) (r : Coder × Dev) : Coder × Dev :=
  let k := r.1
  let l : Dev × Except FaultCode (Option Window) := if p.key then (r.2, .ok none)
    else match Window.fill s s.rowStrips (s.rowWindow row) r.2 with
      | (d, .ok w) => (d, .ok (some w))
      | (d, .error f) => (d, .error f)
  let rest := p.prev.drop row
  let qp := if k.stage = 0 ∧ s.rc ≠ 0 then s.stepQp p.prev rest k.qp else k.qp
  let left := 16 * (s.blocks - row * s.cols)
  let maxq := decide (k.stage = 0) && decide (s.rc ≠ 0) && decide (p.cap * 2 ^ 64 < s.est rest qp + (left + k.used + 256) * 2 ^ 64)
  let k : Coder := { k with
    mark := k.used
    qp := if maxq then s.qpTop else qp
    stage := if maxq then 1 else k.stage
    maxq := k.maxq || maxq }
  match l with
  | (d, .ok w) => ({ k with win := w }, d)
  | (d, .error f) => ({ k with fault := f }, d)

/-- Codes the next block of a frame, rows from the top and blocks from left to right (R542). A fault ends the frame. -/
def codeStep (s : Sess) (p : FramePlan) (slot : Nat) (r : Coder × Dev) : Coder × Dev :=
  let row := r.1.pos / s.cols
  let col := r.1.pos % s.cols
  if r.1.fault ≠ .none then r
  else
    let r := if col = 0 then startRow s p row r else r
    if r.1.fault ≠ .none then r
    else
      let r := slideTo s col r
      if r.1.fault ≠ .none then r
      else
        let r := codeBlock s p slot row col r
        let k := r.1
        ({ k with pos := k.pos + 1, rows := if col + 1 = s.cols then k.rows ++ [(k.qp, k.used - k.mark)] else k.rows }, r.2)

/-- The next frame of an encode session is a key frame (R535). -/
def isKey (s : Sess) (x : Frame) : Bool :=
  match s.sinceKey with
  | none => true
  | some n => decide (x.f 0 14 14 = 1) || (decide (s.f 7 15 0 ≠ 0) && decide (n + 1 = s.f 7 15 0))

/-- n free row sizes at QP_INIT: what est is before the first frame of a type that is no key frame is not stated. -/
def freeRows (s : Sess) : Nat → Dev → List (Nat × Nat) × Dev
  | 0, d => ([], d)
  | n + 1, d =>
    let b := freeBelow d (2 ^ 32)
    let r := freeRows s n b.2
    ((s.f 4 9 2, b.1) :: r.1, r.2)

/-- What a frame is coded with (R535, R541, R542): a B frame predicts from two past frames, where the encoder so chooses. -/
def framePlan (s : Sess) (x : Frame) (d : Dev) : FramePlan × Dev :=
  let key := isKey s x
  let f := freeBelow d 2
  let b := !key && decide (s.codec ≠ 0) && decide (s.nref = 2) && decide (s.refs.length = 2) && decide (f.1 = 1)
  let rows := cdiv s.h s.block
  let old := tget [] s.prev (if key then 0 else if b then 2 else 1)
  let prev := if !old.isEmpty then (old, f.2)
    else if key then (List.replicate rows (s.f 4 9 2, s.padW * s.block / 2), f.2) else freeRows s rows f.2
  let bs := 8 * x.f 5 31 0
  (⟨key, b, prev.1, if s.rc = 0 then bs else min (s.fullness x.num) bs⟩, prev.2)

/-- The type of a frame (R537): 0 key, 1 P, 2 B. -/
def FramePlan.type (p : FramePlan) : Nat := if p.key then 0 else if p.b then 2 else 1

/-- The encoder at the start of a frame (R542): qp is that of the previous frame of its type, QP_INIT at first. -/
def Coder.start (s : Sess) (p : FramePlan) : Coder :=
  let qp := if s.rc = 0 then s.f 4 9 2 else (((tget [] s.prev p.type).getLast?).map Prod.fst).getD (s.f 4 9 2)
  ⟨none, 0, 0, qp, 0, false, 0, 0, 0, [], .none⟩

/-! ### The bitstream (R525, R535, R543) -/

/-- The start code of the byte-stream format (R525, log 161). -/
def startCode : List Byte := [0, 0, 0, 1]

/-- A number in n bytes of the OBU format's size field (log 161). -/
def leb (n v : Nat) : List Byte := (List.range n).map fun i => BitVec.ofNat 8 (v / 2 ^ (7 * i) % 128 + 128 * b2n (decide (i + 1 < n)))

/-- The bytes that such a number needs. -/
def lebLen (v : Nat) : Nat := ((List.range 4).filter fun i => decide (2 ^ (7 * (i + 1)) ≤ v)).length + 1

/-- Bytes in which no start code stands: after two zeros none below 4 but the emulation-prevention byte 3 (log 161); z zeros have come before. -/
def escape : Nat → List Byte → List Byte
  | _, [] => []
  | z, b :: l =>
    let c : Byte := if 2 ≤ z ∧ b.toNat < 4 then 3 else b
    c :: escape (if c = 0 then z + 1 else 0) l

/-- The body of a NAL unit: it holds no start code, and its last byte is not 0 (log 161). -/
def nalBody (b : List Byte) : List Byte :=
  let e := escape 0 b
  if e.getLast? = some 0 then e.dropLast ++ [0x80] else e

/-- The body of a header of a session: one and the same for its parameter block, so that it carries what the block says, the buffer model's parameters
too (R535). What the standards put there is free (log 161). -/
def Sess.header (s : Sess) (kind : Nat) : List Byte := (List.range (4 + Config.headerLen kind s.words % 60)).map (Config.headerByte kind s.words)

/-- The headers before a key frame (R535): the parameter sets of H.264 (with NAL reference indication ref) and HEVC, and AV1's sequence header. -/
def Sess.headers (s : Sess) (ref : Nat) : List Byte :=
  let nal (h : List Byte) (kind : Nat) : List Byte := startCode ++ h ++ nalBody (s.header kind)
  match s.codec with
  | 0 => nal [BitVec.ofNat 8 (32 * ref + 7)] 0 ++ nal [BitVec.ofNat 8 (32 * ref + 8)] 1
  | 1 => nal [0x40, 1] 0 ++ nal [0x42, 1] 1 ++ nal [0x44, 1] 2
  | _ => 0x0A :: leb 1 (s.header 0).length ++ s.header 0

/-- What comes before a frame's coded data (R525, R535): the temporal delimiter of AV1, the headers of a key frame, and the start code and the unit's
own header of a slice; `pick` is a free choice of 0 to 5. -/
def Sess.lead (s : Sess) (key : Bool) (pick : Nat) : List Byte :=
  let ref := pick % 3 + 1
  (if s.codec = 2 then [0x12, 0] else []) ++ (if key then s.headers ref else []) ++ (match s.codec with
    | 0 => startCode ++ [BitVec.ofNat 8 (32 * ref + (if key then 5 else 1))]
    | 1 => startCode ++ [if !key then 0x02 else if pick < 3 then 0x26 else 0x28, 1]
    | _ => [0x32])

/-- A coded frame of n bytes: its lead, and its coded data in one slice or frame OBU. -/
def Sess.unitBytes (s : Sess) (lead : List Byte) (n : Nat) (bits : List Byte) : List Byte :=
  let rest := n - lead.length
  if s.codec = 2 then lead ++ leb (lebLen rest) (rest - lebLen rest) ++ bits.take (rest - lebLen rest) else lead ++ nalBody (bits.take rest)

/-- The least filler: a start code, a header, and a closing byte. -/
def fillerMin : Nat := 7

/-- Filler of n bytes (R543): a filler-data NAL unit of H.264 or HEVC, or a padding OBU of AV1. -/
def Sess.filler (s : Sess) (n : Nat) : List Byte :=
  if n = 0 then []
  else match s.codec with
    | 0 => startCode ++ [0x0C] ++ List.replicate (n - 6) 0xFF ++ [0x80]
    | 1 => startCode ++ [0x4C, 1] ++ List.replicate (n - 7) 0xFF ++ [0x80]
    | _ => [0x7A] ++ leb (lebLen n) (n - 1 - lebLen n) ++ List.replicate (n - 2 - lebLen n) 0 ++ [0x80]

/-- The bytes of a coded frame (R542, R543): its bits and at most 256 of closing syntax, but never less than its lead and 8 bytes; and in CBR with
FILLER what keeps the model's buffer from overflowing before the next frame, within BS_SIZE. Answers the bytes without and the bytes of filler. -/
def frameBytes (s : Sess) (x : Frame) (p : FramePlan) (used lead : Nat) (d : Dev) : Nat × Nat × Dev :=
  let m := freeBelow d (min ((used + 256) / 8) (p.cap / 8) - cdiv used 8 + 1)
  let n := max (lead + 8) (min (cdiv used 8 + m.1) (p.cap / 8))
  let f := freeBelow m.2 16
  let r := s.perFrame (s.f 5 31 0)
  let left := s.fullness x.num - 8 * n
  let more := left + cdiv r.1 r.2 - s.f 6 31 0
  let room := min (left / 8) (x.f 5 31 0 - n)
  (n, (if s.rc = 1 ∧ s.f 4 31 31 = 1 ∧ more ≠ 0 ∧ fillerMin ≤ room then min (max fillerMin (cdiv more 8 + f.1)) room else 0), f.2)

/-! ### Encoding -/

/-- Writes the reconstructed picture of the frame to its slot (R530); a key frame's slot has no vectors. -/
def writeSlot (s : Sess) (key : Bool) (d : Dev) : Dev × FaultCode :=
  let k := s.freeSlot
  let b := freeBytes s.picBytes d
  match devWriteAll b.2 (s.slotAt k false 0 0) b.1 with
  | (d, .error f) => (d, f)
  | (d, .ok ()) =>
    if !key then (d, .none)
    else match devWriteAll d (s.motionAt k 0) (List.replicate (s.padded / 16) 0) with
      | (d, .ok ()) => (d, .none)
      | (d, .error f) => (d, f)

/-- The first word of the status block of an encode frame, but for FAULT and LATE (R537). -/
def Coder.word0 (k : Coder) (x : Frame) (p : FramePlan) (filler : Bool) (bytes : Nat) : Nat :=
  2 ^ 8 * p.type + 2 ^ 11 * b2n k.maxq + 2 ^ 12 * b2n (decide (k.stage = 2)) + 2 ^ 13 * b2n filler + 2 ^ 16 * (x.num % 65536) + 2 ^ 32 * bytes

/-- QP_AVG and QP_LAST (R537) in their places: of the blocks coded. -/
def Coder.qps (k : Coder) : Nat := if k.pos = 0 then 0 else 2 ^ 32 * (k.sum / k.pos) + 2 ^ 40 * k.qp

/-- The rate controller's state after a frame, or the part of one, that was coded (R554). -/
def Coder.keep (k : Coder) (s : Sess) : Sess := { s with qp := if k.pos = 0 then s.qp else k.qp, stage := k.stage }

/-- An encode frame ends with a fault: what was coded of it shows in its status block (R537) and in MED_RC (R554); poisoned data makes the session's
next frame a key frame (R538). -/
def encodeFault (d : Dev) (idx : Nat) (x : Frame) (p : FramePlan) (k : Coder) (f : FaultCode) : Dev :=
  let s := k.keep (getSess d idx)
  let d := setSess d idx (if f = .poisoned then { s with sinceKey := none } else s)
  coded d idx x f [BitVec.ofNat 64 (k.word0 x p false 0), BitVec.ofNat 64 k.qps, BitVec.ofNat 64 (s.full + 2 ^ 32 * k.skips)]

/-- A frame has been coded: the session's references, rows and buffer model after it, and its status block (R537). -/
def encodeDone (d : Dev) (idx : Nat) (x : Frame) (p : FramePlan) (k : Coder) (n filler : Nat) : Dev :=
  let s := k.keep (getSess d idx)
  let full := if s.rc = 0 then 0 else s.fullness x.num - 8 * (n + filler)
  let ref : RefPic := ⟨s.freeSlot, s.w, s.h⟩
  let d := setSess d idx { s with
    sinceKey := some (if p.key then 0 else s.sinceKey.getD 0 + 1)
    refs := if p.key then [ref] else (ref :: s.refs).take s.nref
    last := some x.num
    prev := tset [] s.prev p.type k.rows
    full := full }
  coded d idx x .none [BitVec.ofNat 64 (k.word0 x p (decide (filler ≠ 0)) (n + filler)), BitVec.ofNat 64 (s.w + 2 ^ 16 * s.h + k.qps),
    BitVec.ofNat 64 (full + 2 ^ 32 * k.skips)]

/-- The blocks of an encode frame are coded, or a fault has ended it: the bitstream and the reference picture are written (R535, R538, R542, R543). -/
def encodeEnd (d : Dev) (idx : Nat) (x : Frame) (p : FramePlan) (stray : Bool) (k : Coder) : Dev :=
  let s := getSess d idx
  if k.fault ≠ .none then encodeFault d idx x p k k.fault
  else if stray then encodeFault d idx x p k .poisoned
  else
    let h := freeBelow d 6
    let lead := s.lead p.key h.1
    let b := frameBytes s x p k.used lead.length h.2
    let bits := freeBytes b.1 b.2.2
    match devWriteAll bits.2 (x.addr 4) (s.unitBytes lead b.1 bits.1 ++ s.filler b.2.1) with
    | (d, .error f) => encodeFault d idx x p k f
    | (d, .ok ()) =>
      match writeSlot s p.key d with
      | (d, .none) => encodeDone d idx x p k b.1 b.2.1
      | (d, f) => encodeFault d idx x p k f

/-- An encode frame begins (R535, R538, R547): its plan is drawn, a frame that is LATE already enters SKIP, and its source is read. -/
def encodeBegin (d : Dev) (idx : Nat) (x : Frame) : Dev × FramePlan × Bool × Coder :=
  let s := getSess d idx
  let p := framePlan s x d
  let t := freeBelow p.2 2
  let stray := !p.1.key && decide (t.1 = 1) && s.refs.any fun r => extentPoisoned t.2 (s.motionAt r.slot 0) (s.padded / 16)
  let k := Coder.start s p.1
  let k' := { k with stage := if x.late then 2 else 0 }
  let r := readRows (noteStages t.2 idx x k k') (pictureRows s x s.h) (s.w * s.bs)
  (r.1, p.1, stray, { k' with fault := r.2 })

/-! ### Decoding (R536) -/

/-- The samples that conceal n samples of row y of a plane from column col (R536): the co-located ones of the most recent reference picture;
mid-level where there is none, or none there. -/
def concealed (d : Dev) (s : Sess) (chroma : Bool) (y col n : Nat) : Dev × FaultCode × List Byte :=
  match s.refs.head? with
  | none => (d, .none, midSamples n s.bs)
  | some r =>
    let m := if y < (if chroma then r.h / 2 else r.h) then min n (r.w - col) else 0
    match devReadAll d (s.slotAt r.slot chroma y col) (m * s.bs) with
    | (d, .ok b) => (d, .none, b ++ midSamples (n - m) s.bs)
    | (d, .error f) => (d, if f = .poisoned then .none else f, midSamples n s.bs)

/-- A part of a row of a decoded plane of a picture w samples wide: some blocks, by column, each concealed or what the stream codes; with film grain the
picture written is not the reference. Answers the samples written and those of the reference. -/
def decodeRow (d : Dev) (s : Sess) (chroma grain : Bool) (w y : Nat) (blocks : List (Bool × Nat)) : Dev × FaultCode × List Byte × List Byte :=
  blocks.foldl (fun r c =>
    if r.2.1 ≠ .none then r
    else
      let col := c.2 * s.block
      let n := min s.block (w - col)
      if c.1 then
        let b := concealed r.1 s chroma y col n
        (b.1, b.2.1, r.2.2.1 ++ b.2.2, r.2.2.2 ++ b.2.2)
      else
        let b := freeSamples n s.bs r.1
        let g := if grain then freeSamples n s.bs b.2 else b
        (g.2, .none, r.2.2.1 ++ g.1, r.2.2.2 ++ b.1)) (d, .none, [], [])

/-- Writes bytes unless a fault has come before. -/
def writeIf (r : Dev × FaultCode) (a : Addr) (b : List Byte) : Dev × FaultCode :=
  if r.2 ≠ .none then r
  else match devWriteAll r.1 a b with
    | (d, .ok ()) => (d, .none)
    | (d, .error f) => (d, f)

/-- The side of the unit at whose ends a decode frame may be pre-empted (R545): the coding block, and AV1's 128 × 128 superblock. -/
def Sess.unitSide (s : Sess) : Nat := if s.codec = 2 then 128 else s.block

/-- The units of an access unit's picture. -/
def Sess.units (s : Sess) (u : AccessUnit) : Nat := cdiv u.w s.unitSide * cdiv u.h s.unitSide

/-- Decodes one plane of unit i: its blocks go to the frame's picture and to the reference slot. -/
def decodeUnit (s : Sess) (x : Frame) (u : AccessUnit) (hide : List Bool) (i : Nat) (chroma : Bool) (r : Dev × FaultCode) : Dev × FaultCode :=
  let k := if chroma then 2 else 1
  let across := cdiv u.w s.unitSide
  let cols := cdiv u.w s.block
  let c0 := i % across * (s.unitSide / s.block)
  let own := (List.range (s.unitSide / s.block)).filterMap fun c => if c0 + c < cols then some (c0 + c) else none
  let y0 := i / across * s.unitSide / k
  (List.range (min (s.unitSide / k) (u.h / k - y0))).foldl (fun r j =>
    if r.2 ≠ .none then r
    else
      let y := y0 + j
      let b := decodeRow r.1 s chroma u.grain u.w y (own.map fun c => (hide.getD (y * k / s.block * cols + c) false, c))
      writeIf (writeIf (b.1, b.2.1) (x.rowAt chroma y + BitVec.ofNat 52 (c0 * s.block * s.bs)) b.2.2.1)
        (s.slotAt s.freeSlot chroma y (c0 * s.block)) b.2.2.2) r

/-- Decodes unit i of a picture. -/
def decodeStep (s : Sess) (x : Frame) (u : AccessUnit) (hide : List Bool) (r : Dev × FaultCode) (i : Nat) : Dev × FaultCode :=
  let r := decodeUnit s x u hide i false r
  if s.mono then r else decodeUnit s x u hide i true r

/-- Draws which of n blocks are concealed: all, or a free choice that has block k in it. -/
def drawHidden (all : Bool) (k : Option Nat) : Nat → Dev → List Bool × Dev
  | 0, d => ([], d)
  | n + 1, d =>
    let r := drawHidden all k n d
    let b := freeBelow r.2 2
    (r.1 ++ [all || decide (k = some n) || decide (b.1 = 1)], b.2)

/-- Draws an access unit: its picture is even and at least 64 × 64 (R525). -/
def drawUnit (s : Sess) (x : Frame) (d : Dev) : AccessUnit × Dev :=
  let a := freeBelow d 2
  let b := freeBelow a.2 17
  let c := freeBelow b.2 4065
  let e := freeBelow c.2 4065
  let f := freeBelow e.2 3
  let g := freeBelow f.2 65536
  let h := freeBelow g.2 (x.f 5 31 0 + 1)
  let i := freeBelow h.2 2
  let j := freeBelow i.2 2
  let k := freeBelow j.2 2
  let l := freeBelow k.2 (s.nref + 1)
  (⟨decide (a.1 = 1), b.1, 64 + 2 * c.1, 64 + 2 * e.1, f.1, g.1, h.1, decide (i.1 = 1), decide (s.codec = 2) && decide (j.1 = 1), decide (k.1 = 1), l.1⟩, l.2)

/-- The first word of the status block of a decode frame, but for FAULT, LATE and UNSUPPORTED (R537). -/
def AccessUnit.word0 (u : AccessUnit) : Nat := 2 ^ 8 * u.type + 2 ^ 16 * u.order + 2 ^ 32 * u.bytes

/-- An access unit begins to be decoded (R536, R538): one outside the session's limits writes nothing; blocks of a poisoned line of it, or of a reference,
are concealed, and after an END all of a picture before the next key frame. -/
def decodeBegin (d : Dev) (idx : Nat) (x : Frame) : Dev × Option MediaWork :=
  let s := getSess d idx
  match readRows d [x.addr 4] (x.f 5 31 0) with
  | (d, f) =>
    if f ≠ .none ∧ f ≠ .poisoned then (coded d idx x f [], none)
    else
      let u := drawUnit s x d
      let v := u.1
      if v.tool ∨ s.nref < v.need ∨ s.w < v.w ∨ s.h < v.h then (coded u.2 idx x .none [BitVec.ofNat 64 (2 ^ 14 + v.word0), 0, 0], none)
      else
        let n := cdiv v.w s.block * cdiv v.h s.block
        let ref := decide (v.type ≠ 0) && v.stray && s.refs.any fun r => extentPoisoned u.2 (s.slotAt r.slot false 0 0) s.slotBytes
        let one := freeBelow u.2 n
        let hide := drawHidden (s.ended && decide (v.type ≠ 0)) (if f = .poisoned ∨ ref then some one.1 else none) n one.2
        (hide.2, some (.dec v hide.1 0))

/-- The units of a decode frame are decoded (R536, R537): the motion data of its slot are written, and the references follow the stream. -/
def decodeEnd (d : Dev) (idx : Nat) (x : Frame) (v : AccessUnit) (hide : List Bool) : Dev :=
  let s := getSess d idx
  let b := freeBytes (s.padded / 16) d
  match writeIf (b.2, .none) (s.motionAt s.freeSlot 0) b.1 with
  | (d, .none) =>
    let d := setSess d idx { s with
      refs := (if v.ref then [⟨s.freeSlot, v.w, v.h⟩] else []) ++ s.refs.take (min v.keep (s.nref - b2n v.ref))
      ended := s.ended && decide (v.type ≠ 0) }
    coded d idx x .none [BitVec.ofNat 64 v.word0, BitVec.ofNat 64 (v.w + 2 ^ 16 * v.h), BitVec.ofNat 64 (2 ^ 32 * (hide.filter id).length)]
  | (d, f) => coded d idx x f []

/-! ### Coding block by block (R545) -/

/-- The blocks or units of a frame that are yet to be coded. -/
def MediaWork.left (s : Sess) : MediaWork → Nat
  | .enc _ _ k => s.blocks - k.pos
  | .dec u _ pos => s.units u - pos

/-- A frame begins to be coded; none: it has ended. -/
def mediaBegin (d : Dev) (idx : Nat) (x : Frame) : Dev × Option MediaWork :=
  if (getSess d idx).dec then decodeBegin d idx x
  else
    let b := encodeBegin d idx x
    if b.2.2.2.fault ≠ .none then (encodeEnd b.1 idx x b.2.1 b.2.2.1 b.2.2.2, none) else (b.1, some (.enc b.2.1 b.2.2.1 b.2.2.2))

/-- The next n blocks or units of a frame are coded; with the last one, or a fault, it ends: none. -/
def mediaAdvance (d : Dev) (idx : Nat) (x : Frame) (w : MediaWork) (n : Nat) : Dev × Option MediaWork :=
  let s := getSess d idx
  match w with
  | .enc p stray k =>
    let r := (List.range n).foldl (fun r _ => codeStep s p s.freeSlot r) (k, d)
    let d := noteStages r.2 idx x k r.1
    if r.1.fault ≠ .none ∨ r.1.pos = s.blocks then (encodeEnd d idx x p stray r.1, none) else (d, some (.enc p stray r.1))
  | .dec u hide pos =>
    let r := (List.range n).foldl (fun r i => decodeStep s x u hide r (pos + i)) (d, FaultCode.none)
    if r.2 ≠ .none then (coded r.1 idx x r.2 [], none)
    else if pos + n = s.units u then (decodeEnd r.1 idx x u hide, none) else (r.1, some (.dec u hide (pos + n)))

/-- The work of a pipe on its frame x: what it has done of it, or its beginning. An encode frame whose deadline has passed has coded a free number of
blocks before that, and goes on with skip blocks (R547). -/
def mediaWork (d : Dev) (idx : Nat) (x : Frame) (w : Option MediaWork) : Dev × Option MediaWork :=
  let b := if w.isSome then (d, w) else mediaBegin d idx x
  match b with
  | (d, some (.enc p stray k)) =>
    if x.late then enterSkip d idx x p stray k
    else if x.passed d.tick then
      let n := freeBelow (markLate d idx x) ((getSess d idx).blocks - k.pos)
      match mediaAdvance n.2 idx x (.enc p stray k) n.1 with
      | (d, some (.enc p stray k)) => enterSkip d idx x p stray k
      | r => r
    else (d, some (.enc p stray k))
  | r => r

/-- FRAME (R535, R536): the pipe codes its frame to the end. -/
def frameGo (d : Dev) (die q idx : Nat) (x : Frame) : Dev :=
  let b := mediaWork d idx x (getPipe d die q).work
  let d := match b.2 with
    | some w => (mediaAdvance b.1 idx x w (w.left (getSess b.1 idx))).1
    | none => b.1
  setPipe d die q { getPipe d die q with work := none, phase := 1 }

/-- FRAME (R535, R536): the pipe codes its frame, which waits while a slice that its extents reach is being set up anew (R370). -/
def execMediaFrame (die pipe : Nat) (s : State) : Host.Outcome State Fault Refusal :=
  runCmd (.mediaFrame die pipe) (fun d =>
    orNot "FRAME" (match (getPipe d die pipe).coding with
      | none => none
      | some i =>
        match startedFrame d i with
        | some x => if x.coded || stopped d die || mediaBusy d i x then none else some (frameGo d die pipe i x)
        | none => none)) s

/-- A pipe's frame is pre-empted at a block boundary (R545): a free number of its blocks has been coded, none where its extents wait (R370); the pipe
holds it with its state and window, and is SAVING. A frame that ends before that is not pre-empted. -/
def preemptFrame (d : Dev) (die q idx : Nat) (x : Frame) : Dev :=
  let p := getPipe d die q
  let b := if mediaBusy d idx x then (d, p.work) else mediaWork d idx x p.work
  let r := if mediaBusy d idx x then b
    else match b.2 with
      | some w => let n := freeBelow b.1 (w.left (getSess b.1 idx)); mediaAdvance n.2 idx x w n.1
      | none => b
  if (startedFrame r.1 idx).any Frame.coded then setPipe r.1 die q { p with work := none, phase := 1 }
  else mediaEvent (rcount (setPipe r.1 die q ⟨none, some idx, none, r.2, 2⟩) .medStat die 0 0 63 48 1) idx x 5

/-- MEDIA_PREEMPTION (R545): an eligible LIVE frame takes the pipe from a STANDARD or BATCH frame at a block boundary. -/
def execMediaPreemption (die pipe : Nat) (s : State) : Host.Outcome State Fault Refusal :=
  runCmd (.mediaPreemption die pipe) (fun d =>
    let p := getPipe d die pipe
    orNot "MEDIA_PREEMPTION" (match p.coding, p.held with
      | some i, none =>
        match startedFrame d i with
        | some x =>
          if pipe < 2 ∧ (getSess d i).prio ≠ 0 ∧ x.coded = false ∧ stopped d die = false ∧
              (eligible d die pipe).any (fun p => decide ((getSess d p.1).prio = 0)) then some (preemptFrame d die pipe i x)
          else none
        | none => none
      | _, _ => none)) s

/-- The slot of a closing session is free once every frame has completed (R531). -/
def sessIdle (d : Dev) (idx : Nat) : Bool := (getSess d idx).queue.isEmpty

/-- FRAME_COMPLETE (R537, R547, R549): the coded frame of a pipe completes, LATE where its deadline has passed, and the pipe is idle. -/
def execFrameComplete (die pipe : Nat) (s : State) : Host.Outcome State Fault Refusal :=
  runCmd (.frameComplete die pipe) (fun d =>
    orNot "FRAME_COMPLETE" (match (getPipe d die pipe).coding with
      | none => none
      | some i =>
        match startedFrame d i with
        | some x =>
          if !x.coded || decide (2 ≤ pipe) then none
          else
            let d := setPipe d die pipe { getPipe d die pipe with coding := none, phase := 0 }
            some (rcount (frameDone d i x x.fault) .medPipe die 0 pipe 63 32 1)
        | none => none)) s

/-- END (R535): once every earlier frame of its session has completed, an END empties the reference slots. -/
def execMediaEnd (die sess : Nat) (s : State) : Host.Outcome State Fault Refusal :=
  runCmd (.mediaEnd die sess) (fun d =>
    let i := 32 * die + sess
    orNot "END" (match readyFrame d i with
      | some (x, 0, e) => if x.isEnd && !stopped d die then
          some (frameDone (setSess e i { getSess e i with refs := [], sinceKey := none, ended := true }) i x .none) else none
      | some (x, _, e) => if x.isEnd && !stopped d die then some (frameDone e i x .operandFault) else none
      | none => none)) s

/-- The deadline of a frame that has started passes (R547): it is LATE, and an encode frame that a pipe codes goes on with skip blocks after a free number
of blocks; one that is held, or whose extents wait, does so when it goes on. -/
def lateFrame (d : Dev) (idx : Nat) (y : Frame) : Dev :=
  let die := idx / 32
  let p := getPipe d die 0
  if !(getSess d idx).dec && !y.coded && decide (p.coding = some idx) && !mediaBusy d idx y then
    let r := mediaWork d idx y p.work
    let e := setPipe r.1 die 0 { p with work := r.2 }
    match startedFrame e idx with
    | some z => markLate e idx z
    | none => e
  else markLate d idx y

/-- DEADLINE_PASS (R547, R549): an encode frame that has not started completes with DEADLINE_MISSED; any other frame is LATE. -/
def execDeadlinePass (die sess frame : Nat) (s : State) : Host.Outcome State Fault Refusal :=
  runCmd (.deadlinePass die sess frame) (fun d =>
    let i := 32 * die + sess
    let x := getSess d i
    orNot "DEADLINE_PASS" (match x.queue.find? fun y => decide (y.num = frame) with
      | none => none
      | some y =>
        if y.isEnd || y.late || !y.passed d.tick || stopped d die then none
        else if !x.dec && !y.started then
          some (frameDone (mediaEvent (cancelWaits d (.frame die sess frame)) i y 1) i y .deadlineMissed)
        else some (lateFrame d i y))) s

/-! ### Closing and halting -/

/-- The frame that has been coded in part stops: its status block shows how far it came (R537). -/
def stopWork (d : Dev) (idx : Nat) (w : Option MediaWork) (f : FaultCode) : Dev :=
  match startedFrame d idx, w with
  | some x, some (.enc p _ k) => if x.coded then d else encodeFault d idx x p k f
  | _, _ => d

/-- Ends frame num of a session, which will not be coded to its end. -/
def endFrame (f : FaultCode) (idx : Nat) (d : Dev) (num : Nat) : Dev :=
  match (getSess d idx).queue.find? fun x => decide (x.num = num) with
  | some x => frameDone (cancelWaits d (.frame (idx / 32) (idx % 32) num)) idx x f
  | none => d

/-- A CLOSE of a session (R531): its frames that have not started and the one held complete with STALE_HANDLE; one being coded runs on. -/
def closeSess (d : Dev) (idx : Nat) : Dev :=
  let s := getSess d idx
  let die := idx / 32
  let q := b2n s.dec
  let p := getPipe d die q
  let held := decide (p.held = some idx)
  let d := setSess d idx { s with state := 2 }
  let d := if held then
      stopWork (setPipe d die q { p with held := none, kept := none, phase := if p.coding.isNone then 0 else p.phase }) idx p.kept .staleHandle
    else d
  ((s.queue.filter fun x => !x.started || held).map Frame.num).foldl (endFrame .staleHandle idx) d

/-- A pipe of a die that halts stops at its block boundary (R588). -/
def pipeHalt (d : Dev) (die q : Nat) : Dev :=
  let p := getPipe d die q
  let stop (d : Dev) (i : Option Nat) (w : Option MediaWork) : Dev := match i with
    | some i => stopWork d i w .coreFenced
    | none => d
  stop (stop (setPipe d die q Pipe.empty) p.coding p.work) p.held p.kept

/-- The media block of a die halts (R588): its frames complete with CORE_FENCED. -/
def mediaHalt (d : Dev) (die : Nat) : Dev :=
  ((List.range 32).map fun s => 32 * die + s).foldl (fun d i => ((getSess d i).queue.map Frame.num).foldl (endFrame .coreFenced i) d)
    (pipeHalt (pipeHalt d die 0) die 1)

end Sys2Proof.Machine
end

