-- ==== Sys2Proof/Machine/SlhDsa.lean ====
section
/-!
DEFINITION. HMAC-SHA256, and the signature scheme SLH-DSA of FIPS 205 with SHA-256 and 16-byte values, in pure mode with an empty context: the manual names
it for firmware, the identity key, reports and test unlocks (R601, R603, R607, R610) and leaves its steps to that standard (log 17).
-/

namespace Sys2Proof.Machine

/-- HMAC-SHA256 of a message under a key of at most 64 bytes. -/
def hmac (key msg : List Byte) : List Byte :=
  let k := key ++ List.replicate (64 - key.length) 0
  sha256 (k.map (fun x => x ^^^ 0x5C) ++ sha256 (k.map (fun x => x ^^^ 0x36) ++ msg))

/-! ### Parameters and addresses -/

/-- A parameter set: the height of one tree, the layers of trees, and the height and the number of the few-time trees. -/
structure SlhSet where
  height : Nat
  layers : Nat
  forsHeight : Nat
  forsTrees : Nat
deriving DecidableEq, Repr

/-- SLH-DSA-SHA2-128s. -/
def slh128s : SlhSet := ⟨9, 7, 12, 14⟩

/-- SLH-DSA-SHA2-128f. -/
def slh128f : SlhSet := ⟨3, 22, 6, 33⟩

/-- Where a hash is computed: the layer and the tree; the kind of the address; and three words by kind. -/
structure SlhAdrs where
  layer : Nat
  tree : Nat
  kind : Nat
  pair : Nat
  height : Nat
  index : Nat
deriving DecidableEq, Repr

/-- A number in n bytes, most significant first. -/
def beBytes (n v : Nat) : List Byte := (List.range n).map fun i => BitVec.ofNat 8 (v / 256 ^ (n - 1 - i))

/-- The number of a list of bytes, most significant first. -/
def beNat (b : List Byte) : Nat := b.foldl (fun r x => 256 * r + x.toNat) 0

/-- The 22 bytes of an address. -/
def SlhAdrs.bytes (a : SlhAdrs) : List Byte :=
  beBytes 1 a.layer ++ beBytes 8 a.tree ++ beBytes 1 a.kind ++ beBytes 4 a.pair ++ beBytes 4 a.height ++ beBytes 4 a.index

/-- The hash of a value at an address under a public seed: F, H, T and PRF alike. -/
def slhHash (seed : List Byte) (a : SlhAdrs) (m : List Byte) : List Byte := (sha256 (seed ++ List.replicate 48 0 ++ a.bytes ++ m)).take 16

/-- The first n digits of b bits of bytes, most significant first. -/
def slhDigits (b n : Nat) (x : List Byte) : List Nat :=
  let v := beNat x
  (List.range n).map fun i => v / 2 ^ (8 * x.length - b * (i + 1)) % 2 ^ b

/-! ### One-time signatures -/

/-- The 35 digits that sign 16 bytes: 32 of them and three of their checksum. -/
def wotsDigits (m : List Byte) : List Nat :=
  let l := slhDigits 4 32 m
  l ++ slhDigits 4 3 (beBytes 2 (16 * (l.map fun x => 15 - x).sum))

/-- s steps of a chain from step i on. -/
def wotsChain (seed : List Byte) (a : SlhAdrs) (i s : Nat) (x : List Byte) : List Byte :=
  (List.range s).foldl (fun x j => slhHash seed { a with index := i + j } x) x

/-- The public value of 35 chain ends. -/
def wotsRoot (seed : List Byte) (a : SlhAdrs) (ends : List (List Byte)) : List Byte :=
  slhHash seed { a with kind := 1, height := 0, index := 0 } ends.flatten

/-- The start of chain i of a key pair. -/
def wotsStart (sk seed : List Byte) (a : SlhAdrs) (i : Nat) : List Byte := slhHash seed { a with kind := 5, height := i, index := 0 } sk

/-- The public value of a key pair. -/
def wotsPublic (sk seed : List Byte) (a : SlhAdrs) : List Byte :=
  wotsRoot seed a ((List.range 35).map fun i => wotsChain seed { a with kind := 0, height := i } 0 15 (wotsStart sk seed a i))

/-- The one-time signature of 16 bytes. -/
def wotsSign (sk seed : List Byte) (a : SlhAdrs) (m : List Byte) : List Byte :=
  ((wotsDigits m).zipIdx).flatMap fun p => wotsChain seed { a with kind := 0, height := p.2 } 0 p.1 (wotsStart sk seed a p.2)

/-- The public value that a one-time signature of 16 bytes leads to. -/
def wotsFrom (seed : List Byte) (a : SlhAdrs) (sig m : List Byte) : List Byte :=
  wotsRoot seed a (((wotsDigits m).zipIdx).map fun p =>
    wotsChain seed { a with kind := 0, height := p.2 } p.1 (15 - p.1) ((sig.drop (16 * p.2)).take 16))

/-! ### Trees -/

/-- Node i at a height of a tree whose leaves are given; the address names the kind of tree. -/
def slhNode (leaf : Nat → List Byte) (seed : List Byte) (a : SlhAdrs) : Nat → Nat → List Byte
  | 0, i => leaf i
  | z + 1, i => slhHash seed { a with height := z + 1, index := i } (slhNode leaf seed a z (2 * i) ++ slhNode leaf seed a z (2 * i + 1))

/-- The path of leaf i: the siblings from the leaf up. -/
def slhPath (leaf : Nat → List Byte) (seed : List Byte) (a : SlhAdrs) (z i : Nat) : List Byte :=
  (List.range z).flatMap fun j => slhNode leaf seed a j (Nat.xor (i / 2 ^ j) 1)

/-- The root that a leaf and its path lead to. -/
def slhClimb (seed : List Byte) (a : SlhAdrs) (z i : Nat) (leaf path : List Byte) : List Byte :=
  (List.range z).foldl (fun x j =>
    let s := (path.drop (16 * j)).take 16
    slhHash seed { a with height := j + 1, index := i / 2 ^ (j + 1) } (if i / 2 ^ j % 2 = 0 then x ++ s else s ++ x)) leaf

/-- Leaf i of the tree of a layer. -/
def treeLeaf (sk seed : List Byte) (layer tree i : Nat) : List Byte := wotsPublic sk seed ⟨layer, tree, 0, i, 0, 0⟩

/-- The signature of 16 bytes by leaf i of a tree: one-time signature and path. -/
def treeSign (p : SlhSet) (sk seed : List Byte) (layer tree i : Nat) (m : List Byte) : List Byte :=
  wotsSign sk seed ⟨layer, tree, 0, i, 0, 0⟩ m ++ slhPath (treeLeaf sk seed layer tree) seed ⟨layer, tree, 2, 0, 0, 0⟩ p.height i

/-- The root that such a signature leads to. -/
def treeFrom (p : SlhSet) (seed : List Byte) (layer tree i : Nat) (sig m : List Byte) : List Byte :=
  slhClimb seed ⟨layer, tree, 2, 0, 0, 0⟩ p.height i (wotsFrom seed ⟨layer, tree, 0, i, 0, 0⟩ (sig.take 560) m) (sig.drop 560)

/-- Bytes of the signature of one layer. -/
def SlhSet.layerBytes (p : SlhSet) : Nat := 560 + 16 * p.height

/-- Bytes of the few-time signature. -/
def SlhSet.forsBytes (p : SlhSet) : Nat := 16 * p.forsTrees * (p.forsHeight + 1)

/-- Bytes of a signature. -/
def SlhSet.sigBytes (p : SlhSet) : Nat := 16 + p.forsBytes + p.layers * p.layerBytes

/-- The tree of a layer above tree `tree` and leaf `leaf` of layer 0, and the leaf in it. -/
def SlhSet.above (p : SlhSet) (tree leaf layer : Nat) : Nat × Nat :=
  if layer = 0 then (tree, leaf) else (tree / 2 ^ (p.height * layer), tree / 2 ^ (p.height * (layer - 1)) % 2 ^ p.height)

/-- The signatures of all layers over 16 bytes. -/
def layersSign (p : SlhSet) (sk seed : List Byte) (tree leaf : Nat) (m : List Byte) : List Byte :=
  ((List.range p.layers).foldl (fun (r : List Byte × List Byte) l =>
    let t := p.above tree leaf l
    let s := treeSign p sk seed l t.1 t.2 r.2
    (r.1 ++ s, treeFrom p seed l t.1 t.2 s r.2)) ([], m)).1

/-- The root that the signatures of all layers lead to. -/
def layersFrom (p : SlhSet) (seed : List Byte) (tree leaf : Nat) (sig m : List Byte) : List Byte :=
  (List.range p.layers).foldl (fun m l =>
    let t := p.above tree leaf l
    treeFrom p seed l t.1 t.2 ((sig.drop (p.layerBytes * l)).take p.layerBytes) m) m

/-! ### Few-time signatures -/

/-- Secret value i of the few-time trees. -/
def forsSecret (sk seed : List Byte) (a : SlhAdrs) (i : Nat) : List Byte := slhHash seed { a with kind := 6, height := 0, index := i } sk

/-- Leaf i of the few-time trees. -/
def forsLeaf (sk seed : List Byte) (a : SlhAdrs) (i : Nat) : List Byte := slhHash seed { a with height := 0, index := i } (forsSecret sk seed a i)

/-- The few-time signature of a digest. -/
def forsSign (p : SlhSet) (sk seed : List Byte) (a : SlhAdrs) (md : List Byte) : List Byte :=
  ((slhDigits p.forsHeight p.forsTrees md).zipIdx).flatMap fun x =>
    let base := x.2 * 2 ^ p.forsHeight
    forsSecret sk seed a (base + x.1) ++ (List.range p.forsHeight).flatMap fun j =>
      slhNode (forsLeaf sk seed a) seed a j (x.2 * 2 ^ (p.forsHeight - j) + Nat.xor (x.1 / 2 ^ j) 1)

/-- The public value that a few-time signature leads to. -/
def forsFrom (p : SlhSet) (seed : List Byte) (a : SlhAdrs) (sig md : List Byte) : List Byte :=
  let roots := ((slhDigits p.forsHeight p.forsTrees md).zipIdx).map fun x =>
    let s := (sig.drop (16 * (p.forsHeight + 1) * x.2)).take (16 * (p.forsHeight + 1))
    let i := x.2 * 2 ^ p.forsHeight + x.1
    slhClimb seed a p.forsHeight i (slhHash seed { a with height := 0, index := i } (s.take 16)) (s.drop 16)
  slhHash seed { a with kind := 4, height := 0, index := 0 } roots.flatten

/-! ### Keys and signatures -/

/-- What a message's hash selects: the digest that the few-time trees sign, the tree and the leaf. -/
def slhSelect (p : SlhSet) (r seed root m : List Byte) : List Byte × Nat × Nat :=
  let bits := p.height * (p.layers - 1)
  let n1 := (p.forsHeight * p.forsTrees + 7) / 8
  let n2 := (bits + 7) / 8
  let n3 := (p.height + 7) / 8
  let z := r ++ seed ++ sha256 (r ++ seed ++ root ++ m)
  let d := sha256 (z ++ beBytes 4 0) ++ sha256 (z ++ beBytes 4 1)
  (d.take n1, beNat ((d.drop n1).take n2) % 2 ^ bits, beNat ((d.drop (n1 + n2)).take n3) % 2 ^ p.height)

/-- The message that pure mode signs, with an empty context. -/
def slhPure (m : List Byte) : List Byte := 0 :: 0 :: m

/-- PK.root of a key: the root of the top tree. -/
def slhKey (p : SlhSet) (sk seed : List Byte) : List Byte :=
  slhNode (treeLeaf sk seed (p.layers - 1) 0) seed ⟨p.layers - 1, 0, 2, 0, 0, 0⟩ p.height 0

/-- The signature of a message with 16 bytes of randomness. -/
def slhSign (p : SlhSet) (sk prf seed root rnd m : List Byte) : List Byte :=
  let m := slhPure m
  let r := (hmac prf (rnd ++ m)).take 16
  let s := slhSelect p r seed root m
  let a : SlhAdrs := ⟨0, s.2.1, 3, s.2.2, 0, 0⟩
  let f := forsSign p sk seed a s.1
  r ++ f ++ layersSign p sk seed s.2.1 s.2.2 (forsFrom p seed a f s.1)

/-- A signature of a message verifies under a public key. -/
def slhVerify (p : SlhSet) (pk m sig : List Byte) : Bool :=
  let m := slhPure m
  let seed := pk.take 16
  let root := pk.drop 16
  let s := slhSelect p (sig.take 16) seed root m
  let f := forsFrom p seed ⟨0, s.2.1, 3, s.2.2, 0, 0⟩ ((sig.drop 16).take p.forsBytes) s.1
  decide (sig.length = p.sigBytes) && decide (pk.length = 32) && decide (layersFrom p seed s.2.1 s.2.2 (sig.drop (16 + p.forsBytes)) f = root)

end Sys2Proof.Machine
end

