-- ==== Sys2Proof/Machine/Halt.lean ====
section
/-!
DEFINITION. Fatal errors and the package halt (R588), acknowledgement of error entries (R585), lane-group fences (R589) and core resets (R591).
-/

namespace Sys2Proof.Machine

/-! ### The halt (R588) -/

/-- HALTED is set. -/
def setHalted (d : Dev) (die : Nat) : Dev := setRing d die { getRing d die with halted := true }

/-- What stops as a die halts (R588): its cores are fenced with reason 7, its Zevan ports go DOWN, and its media pipes stop. -/
def haltWork (d : Dev) (die : Nat) : Dev :=
  let d := (coresOf die).foldl (fun d c => fenceCore d c 3 7 none 0 0 0) d
  let d := (List.range 2).foldl (fun d p => if portState d die p = 0 then d else portDown d die p 4) d
  alertEdge (mediaHalt d die)

/-- A die halts (R588); a die that has halted stays so. -/
def haltDie (d : Dev) (die : Nat) : Dev := if halted d die then d else haltWork (setHalted d die) die

/-- A FATAL record: the entry, and the halt of the die that holds it in the same cycle (R588): an alert that the entry causes shows HALTED (R615). -/
def logFatal (d : Dev) (die src kind : Nat) (detail : List Nat) : Dev :=
  let e := logErr (setHalted d die) die ⟨src, kind, .none, .fatal, 0, detail⟩
  if halted d die then e else haltWork e die

/-- The halt of another die travels on (R588). -/
def execHaltArrival (die : Nat) (s : State) : Host.Outcome State Fault Refusal :=
  runCmd (.haltArrival die) (fun d =>
    whenOn "HALT_ARRIVAL" (!halted d die && (List.range d.part.dies).any (halted d)) (haltDie d die)) s

/-- A die that no longer hears its neighbours halts on its own (R588). -/
def execHaltOnSilence (die : Nat) (s : State) : Host.Outcome State Fault Refusal :=
  runCmd (.haltOnSilence die) (fun d => whenOn "HALT_ON_SILENCE" (!halted d die) (haltDie d die)) s

/-! ### Words in error on a die (R377, R381, R587) -/

/-- An uncorrectable word in a structure of a core (2 scale file, 3 table bank, 4 unit queue): the record of kind 22, and the core is fenced with
reason 4 (R587, R590). -/
def stateLost (d : Dev) (c : CoreId) (struct index : Nat) : Dev :=
  fenceCore (logErr d c.die ⟨coreSrc c, 22, .poisoned, .contained, 0, [struct, index]⟩) c 3 4 none 0 0 0

/-- The source of a record of kind 33 (R84): the stake hub that the index names, and the die's event logic for every other structure (log 145). -/
def controlSrc (struct index : Nat) : Nat := if struct = 1 then hubSrc index else srcErr

/-- ONDIE_SCRUB (R377, R381, R382, R587): nothing; a corrected word; an uncorrectable word of a scratch or dirty line (poison), of a clean line
(refetch), or of a core store (poison); and, since no other row brings them, uncorrectable words of a core's structures (fence) and of the structures
of kind 33 (FATAL) (log 145). -/
def execOndieScrub (die : Nat) (w : ScrubHit) (s : State) : Host.Outcome State Fault Refusal :=
  runCmd (.ondieScrub die w) (fun d =>
    match w with
    | .clean => .next d
    | .corrected slice bit => whenOn "ONDIE_SCRUB" (decide (slice < 16) && decide (bit < 72)) (rcount d .resSliceStat die 0 slice 47 32 1)
    | .storeCorrected core bit => whenOn "ONDIE_SCRUB" (decide (core < 144) && decide (bit < 72)) d
    | .slice slice a => orNot "ONDIE_SCRUB" (sliceWord d die slice a none)
    | .store core off => whenOn "ONDIE_SCRUB" (decide (core < 144) && decide (off < storeBytes)) (poisonStore d ⟨die, core⟩ off)
    | .state core struct index =>
      whenOn "ONDIE_SCRUB" (decide (core < 144) && decide (2 ≤ struct) && decide (struct ≤ 4)) (stateLost d ⟨die, core⟩ struct index)
    | .control struct index =>
      whenOn "ONDIE_SCRUB" (decide (1 ≤ struct) && decide (struct ≤ 6) && (decide (struct ≠ 1) || decide (index ≤ 12)))
        (logFatal d die (controlSrc struct index) 33 [struct, index])) s

/-! ### Acknowledgement (R585, R598) -/

/-- ERR_ACK with an INDEX (R585): an entry that is not valid stays as it is. -/
def execErrAckIndex (die e : Nat) (s : State) : Host.Outcome State Fault Refusal :=
  runCmd (.errAckIndex die e) (fun d => .next (if (ringEntry (getRing d die) e).valid then ackEntry d die e else d)) s

/-- ERR_ACK with ALL (R585). -/
def execErrAckAll (die : Nat) (s : State) : Host.Outcome State Fault Refusal :=
  runCmd (.errAckAll die) (fun d =>
    .next ((List.range 64).foldl (fun d e => if (ringEntry (getRing d die) e).valid then ackEntry d die e else d) d)) s

/-! ### Lane groups (R589) -/

/-- The bit of a lane group. -/
def groupBit (g : Nat) : BitVec 4 := BitVec.ofNat 4 (2 ^ g)

/-- A lane group is to be fenced (R589): a second group of a core fences the core instead, with reason 5; the fence waits for the core to be FREE.
On a fenced core it is recorded, a second group's too, and waits for a core reset (R594). -/
def fenceGroup (d : Dev) (c : CoreId) (g reason : Nat) : Dev :=
  let k := getCore d c
  let have_ := k.laneFence ||| k.lanePend
  if have_ &&& groupBit g ≠ 0 then d
  else if have_ ≠ 0 ∧ !k.fenced then fenceCore d c 3 5 none 0 0 0
  else
    let d := logErr d c.die ⟨coreSrc c, 20, .none, .contained, 0, [g, reason]⟩
    modCore d c fun k => if k.sched = 0 ∧ !k.fenced then { k with laneFence := k.laneFence ||| groupBit g } else { k with lanePend := k.lanePend ||| groupBit g }

/-- The crews with a thread in an uncorrectable word fault with POISONED (R587), and its group is fenced. -/
def groupPoisoned (d : Dev) (c : CoreId) (g slot : Nat) : Dev :=
  let d := logErr d c.die ⟨coreSrc c, 22, .poisoned, .contained, 0, [1, slot]⟩
  let d := if (getCrew d c slot).isSome then crewFault d c slot .poisoned 0 (agentPc d (.crew c slot)) 0 else d
  fenceGroup d c g 2

/-- LANE_GROUP_FENCE (R589): a group fails a self-test (1), holds an uncorrectable word of a crew slot (2), or has one more corrected error, which
fences it when the window's count reaches LANE_CE_LIMIT (3). -/
def execLaneGroupFence (c : CoreId) (g reason slot : Nat) (s : State) : Host.Outcome State Fault Refusal :=
  runCmd (.laneGroupFence c g reason slot) (fun d =>
    .next (if reason = 2 then groupPoisoned d c g slot
      else if reason = 1 then fenceGroup d c g 1
      else
        let n := tget 0 (getCore d c).laneCe g + 1
        let d := modCore d c fun k => { k with laneCe := tset 0 k.laneCe g n }
        if rfld d .errCtl c.die 0 0 15 8 ≤ n then fenceGroup d c g 3 else d)) s

/-- LANE_CE_WINDOW_END (R589): at a multiple of LANE_WINDOW × 2^20 datum ticks the counts of corrected errors start again. -/
def execLaneCeWindowEnd (c : CoreId) (s : State) : Host.Outcome State Fault Refusal :=
  runOk c.wf [c.die] (fun d =>
    let w := rfld d .errCtl c.die 0 0 23 16 * 2 ^ 20
    whenOn "LANE_CE_WINDOW_END" (decide (w ≠ 0) && decide (d.tick % w = 0)) (modCore d c fun k => { k with laneCe := [] })) s

/-! ### Core reset (R591) -/

/-- The random sources after a self-test (R645): seeded from the fixed seed 1 by the spacing of R560 with q = 0, and 64 draws on. -/
def selfTestRng : Tbl W64 := (List.range 64).map fun l => (l, jump (l * 2 ^ 44 + 64) 1)

/-- A core's self-test ends (R591, R645, R646): any other failure, or a second failing group, fences the core (cause 3); one failing group is
fenced; a group that was to be fenced on a fenced core is fenced now (R594). The answer tells whether the core works. -/
def selfTest (d : Dev) (c : CoreId) (fail : SelfTest) : Dev × Bool :=
  let d := modCore d c fun k => { k with w := { k.w with rng := selfTestRng } }
  let k := getCore d c
  let groups := (fail.groups ||| k.lanePend ||| k.laneFence)
  let count := ((List.range 4).filter fun g => groups.getLsbD g).length
  let new := fail.groups &&& ~~~(k.laneFence ||| k.lanePend)
  let fence (d : Dev) (reason : Nat) : Dev :=
    logErr (modCore d c fun k => { k with fenced := true, cause := 3 }) c.die ⟨coreSrc c, 19, .coreFenced, .contained, 0, [3, reason, 0, 0, 0]⟩
  if fail.other then (fence (modCore d c fun k => { k with lanePend := k.lanePend ||| new }) 6, false)
  else if 1 < count then (fence d (if k.laneFence ||| k.lanePend = 0 then 6 else 5), false)
  else
    let d := (List.range 4).foldl (fun d g => if new.getLsbD g then logErr d c.die ⟨coreSrc c, 20, .none, .contained, 0, [g, 1]⟩ else d) d
    (modCore d c fun k => { k with fenced := false, cause := 0, laneFence := groups, lanePend := 0 }, true)

/-- Every unit of a core stops and is cleared (R591): work in progress completes with CORE_FENCED, stream slots and crew slots are free, and the core
store holds zeros. -/
def clearCore (d : Dev) (c : CoreId) : Dev :=
  let d := abandonWaits (dropHeld d c .coreFenced) c
  let d := (chainQ d c).foldl (fun d x => popChain d c x (if x.fault = .none then .coreFenced else x.fault)) d
  let d := match (getCore d c).w.part with
    | some p => partEnds d c p (if p.seqFault = .none then .coreFenced else p.seqFault) p.subcode
    | none => d
  let d := (List.range 8).foldl (fun d s => closeSlot d typeStream ((c.die * 144 + c.core) * 8 + s)) d
  let d := modCore d c fun k => { k with w := Work.empty, sched := 0, stopping := false, tagValid := false }
  let d := rset d .sfnTable c.die c.core 0 63 32 0
  memClear d (storeKey c 0) storeBytes

/-- ERR_CORE_RST with GO (R591, R594): ignored and logged while the core is RUNNING and not fenced, while a reset is in progress, for a core above 143,
and on a halted package. -/
def execErrCoreRst (die : Nat) (core : BitVec 8) (s : State) : Host.Outcome State Fault Refusal :=
  runCmd (.errCoreRst die core) (fun d =>
    let c : CoreId := ⟨die, core.toNat⟩
    let k := getCore d c
    .next (if 144 ≤ core.toNat ∨ (k.sched = 1 ∧ !k.fenced) ∨ rfld d .errCoreRst die 0 0 9 9 = 1 ∨ halted d die then
        logIgnoredAt d .errCoreRst die 0 0 (core.toNat + 256)
      else rset (rset (clearCore d c) .errCoreRst die 0 0 7 0 core.toNat) .errCoreRst die 0 0 9 9 1)) s

/-- A core reset ends (R591): PASSED tells whether nothing failed; on a die that has halted meanwhile the core stays fenced. -/
def execCoreResetDone (die : Nat) (fail : SelfTest) (s : State) : Host.Outcome State Fault Refusal :=
  runCmd (.coreResetDone die fail) (fun d =>
    let c : CoreId := ⟨die, rfld d .errCoreRst die 0 0 7 0⟩
    let pass := !fail.other && decide (fail.groups &&& ~~~(getCore d c).laneFence = 0)
    let e := rset (rset d .errCoreRst die 0 0 9 9 0) .errCoreRst die 0 0 10 10 (b2n pass)
    whenOn "CORE_RESET_DONE" (decide (rfld d .errCoreRst die 0 0 9 9 = 1)) (if halted d die then e else (selfTest e c fail).1)) s

end Sys2Proof.Machine
end

