-- ==== Sys2Proof/Machine/Views.lean ====
section
/-!
DEFINITION. What a read of a register gives (R23): its stored fields, with write-only fields as zero and with the fields that show state held elsewhere.
-/

namespace Sys2Proof.Machine

/-- A field of a register that shows state: bits hi to lo, and the value, cut at what they hold. -/
abbrev Shown := Nat × Nat × Nat

/-- A word with shown fields put in. -/
def showAll (v : W64) (l : List Shown) : W64 := l.foldl (fun v f => setFld v f.1 f.2.1 f.2.2) v

/-- A word without its write-only fields. -/
def hideWo (n : RegName) (v : W64) : W64 :=
  n.row.fields.foldl (fun v f => if f.acc = .wo then setFld v f.hi f.lo 0 else v) v

/-- Word w (0 to 7) of error entry e (R580). -/
def errWord (d : Dev) (die e w : Nat) : W64 :=
  let x := ringEntry (getRing d die) e
  match w with
  | 0 => BitVec.ofNat 64 (x.sev + 2 ^ 3 * b2n x.valid + 2 ^ 4 * x.cls + 2 ^ 8 * x.src + 2 ^ 16 * x.kind + 2 ^ 24 * x.code + 2 ^ 32 * x.rep + 2 ^ 48 * x.sub)
  | 1 => x.first
  | 2 => x.last
  | k => x.detail.getD (k - 3) 0

/-- The lowest SVN a die accepts (R600, R604): the fused count, or what SVN_COMMIT has burned since. -/
def svnMin (d : Dev) (die : Nat) : Nat :=
  let v := rfld d .abwFw die 0 0 63 48
  if v = 0 then (Config.svnMin die).toNat else v

/-- The highest severity among the valid entries of a ring. -/
def topSev (r : ErrRing) : Nat := ((r.entries.filter fun p => p.2.valid).map fun p => p.2.sev).foldl max 0

/-- A word of a measurement register (R626). -/
def measWord (d : Dev) (j : Nat) : Nat := leNat (((getMeas d (j / 4)).drop (8 * (j % 4))).take 8)

/-- The re-arms queued behind the pass of a stream slot (R224). -/
def streamPending (d : Dev) (c : CoreId) (s : Nat) : Nat :=
  ((((chainQ d c).filter fun x => decide (x.slot = some s)).drop 1).filter fun x => decide (x.op.opc = chnRearm) && decide (x.phase = 0)).length

/-- The fields that show the work of a core. -/
def showCore (d : Dev) (n : RegName) (c : CoreId) (j : Nat) : List Shown :=
  let k := getCore d c
  let w := k.w
  match n with
  | .cubeStatus =>
    let x := getCube d c j
    [(1, 0, x.ramp), (5, 2, x.level), (8, 6, x.queue.length), (15, 9, (x.run.map RunOp.banks).getD 0), (16, 16, b2n ((x.run.map RunOp.replaying).getD false))]
  | .cubeFence => [(0, 0, b2n k.fenced), (2, 1, k.cause)]
  | .chnStatus => [(2, 0, w.flights.length), (7, 3, w.chain.length), (15, 8, linesRd d c w.flights), (22, 16, linesWr w.flights), (23, 23, b2n k.fenced)]
  | .chnStream => [(1, 0, (getStream d c j).state), (6, 2, streamPending d c j)]
  | .cubeRelayReady => [(63, 0, w.relayReady.toNat)]
  | .sfnTable =>
    let b := match w.baseActive with
      | some 0 => w.base0
      | some _ => w.base1
      | none => []
    [(63, 32, bytesNat b 8 4)]
  | .sfnLoad => [(7, 0, w.baseGen.toNat), (9, 8, w.tloads.length), (10, 10, b2n (decide (w.tphase = 2)))]
  | .vecStatus => [(6, 0, w.crews.length), (11, 8, w.launchQ.length)]
  | .qntSfile =>
    [(7, 0, w.scaleGen.toNat), (8, 8, w.scaleActive), (10, 9, w.sloads.length), (11, 11, b2n (decide (w.sphase = 2))), (14, 12, w.quant.length)]
  | .qntScale => [(31, 0, (scaleAt d c w.scaleActive j).toNat)]
  | .coreSched =>
    let own := ownerOf d c
    [(1, 0, k.sched), (2, 2, b2n k.held.isSome), (8, 3, own.getD 0), (9, 9, b2n own.isSome), (16, 10, lanesOf k), (17, 17, b2n k.tagValid),
      (25, 18, k.tagChan), (30, 26, k.tagPart), (33, 32, (w.part.map PartRun.prio).getD 0)]
  | .rngSeed =>
    let p := match w.part with
      | some p => some p
      | none => k.held.bind fun h => h.w.part
    [(63, 0, (p.map fun p => p.seed.toNat).getD 0)]
  | .rngStat => [(48, 48, b2n (plumbOn d c))]
  | _ => []

/-- The fields that show a channel, at its home die (R442 to R445). -/
def showChan (d : Dev) (n : RegName) (ch : Nat) : List Shown :=
  let x := getChan d ch
  match n with
  | .cmdChanCtl => [(1, 0, x.state), (15, 8, (getObj d typeChannel ch).gen.toNat), (20, 16, x.submitOrder), (25, 21, x.complOrder), (63, 32, x.parcel.toNat)]
  | .cmdSubmit => [(31, 0, x.head.toNat), (63, 32, x.tail.toNat)]
  | .cmdCompl => [(31, 0, x.rtail.toNat), (63, 32, x.rhead.toNat)]
  | .cmdChanStat => [(4, 0, x.started)]
  | _ => []

/-- The fields that show other state, of a register of a die: page i, item j. -/
def shown (d : Dev) (n : RegName) (die i j : Nat) : List Shown :=
  match n with
  | .kvsStat => [(59, 56, (tget [] d.expQ (2 * die)).length), (63, 60, (tget [] d.expQ (2 * die + 1)).length)]
  | .resHold => [(63, 32, heldLines d die)]
  | .hbmRetireStat => [(12, 0, retireCount d die)]
  | .cmdAdminResp =>
    [(0, 0, b2n d.admin.busy), (1, 1, b2n d.admin.done), (15, 8, d.admin.fault.num), (63, 32, d.admin.handle.toNat)]
  | .cmdChanCtl | .cmdSubmit | .cmdCompl | .cmdChanStat => if homeDie d j = die then showChan d n j else []
  | .pclState =>
    let x := getParcel d j
    [(1, 0, x.state), (15, 8, (getObj d typeParcel j).gen.toNat), (16, 16, b2n x.plumb), (17, 17, b2n (decide (x.swap ≠ 0))),
      (18, 18, b2n (decide (x.ctx ≠ 0))), (23, 19, x.tenants), (31, 24, x.occupant.getD 0xFF), (42, 32, (parcelCores d x).length)]
  | .pclClustersLo => [(47, 0, (getParcel d j).lo.toNat)]
  | .pclClustersHi => [(47, 0, (getParcel d j).hi.toNat)]
  | .pclRebuild => [(13, 8, (liveList d die).length)]
  | .schCtl => [(1, 1, d.sched.bank), (3, 3, b2n d.sched.switch)]
  | .schStat => [(7, 0, d.sched.slot), (63, 32, d.sched.cycles.toNat)]
  | .rosState =>
    let x := getGroup d j
    [(1, 0, x.state), (15, 8, (getObj d typeGroup j).gen.toNat), (28, 16, x.count), (43, 32, x.self), (45, 44, x.top)]
  | .rosTag => let x := getGroup d j; [(31, 0, x.tag.toNat), (63, 32, x.seq.toNat)]
  | .colStat =>
    [(6, 0, ((getLinks d die).filter fun x => decide (x.phase < 3)).length), (11, 7, (d.colls.filter fun x => decide (x.die = die)).length)]
  | .medPipe =>
    let p := getPipe d die j
    [(1, 0, p.phase), (2, 2, b2n p.held.isSome), (12, 8, p.coding.getD 0 % 32), (25, 16, liveLoadMille d die (decide (j = 1)))]
  | .medSess =>
    let x := getSess d (32 * die + j)
    [(1, 0, x.state), (2, 2, b2n x.dec), (4, 3, x.codec), (6, 5, x.prio), (15, 8, (getObj d typeMedia (32 * die + j)).gen.toNat), (19, 16, x.queue.length),
      (63, 32, x.accepted.toNat)]
  | .medRc => let x := getSess d (32 * die + j); [(7, 0, x.qp), (9, 8, x.stage), (63, 32, x.full)]
  | .errStat =>
    let r := getRing d die
    [(6, 0, (r.entries.filter fun p => p.2.valid).length), (9, 8, topSev r), (10, 10, b2n r.overflow), (11, 11, b2n r.halted), (31, 16, r.dropped),
      (63, 32, r.next.toNat)]
  | .errEntryNum => [(31, 0, (ringEntry (getRing d die) j).num.toNat)]
  | .abwId => [(3, 0, d.part.dies), (4, 4, b2n (!d.part.gradeA)), (15, 8, (Config.stepping die).toNat)]
  | .abwSerial => [(63, 0, (Config.serial 0).toNat)]
  | .abwFw => [(63, 48, svnMin d die)]
  | .abwMeas => [(63, 0, measWord d j)]
  | .pkgTrip => [(0, 0, b2n (tget false d.pkg.trips die))]
  | _ => showCore d n ⟨die, i⟩ j

/-- A register exists on a die: those of the package only on die 0 (R20). -/
def regOn (n : RegName) (die : Nat) : Bool := !n.row.die0 || decide (die = 0)

/-- An entry that a die has (R677): rail 9 is measured on die 0 only. -/
def entryOn (n : RegName) (die j : Nat) : Bool := regOn n die && !(decide (n = .pkgRail) && decide (j = 9) && decide (die ≠ 0))

/-- What a read of a register gives; a package register reads as zero on the other dies. -/
def regView (d : Dev) (n : RegName) (die i j : Nat) : W64 :=
  if entryOn n die j then showAll (hideWo n (regGet d n die i j)) (shown d n die i j) else 0

end Sys2Proof.Machine
end

