-- ==== Sys2Proof/Machine/Mgmt.lean ====
section
/-!
DEFINITION. The Abwick complex of a running package (18): attestation (R601, R605 to R609), test state (R610, R188), the power envelope and
telemetry (R611 to R613), the management interface (R614 to R617) and the station's own faults (R621).
-/

namespace Sys2Proof.Machine

/-! ### Keys -/

/-- The bytes of a 256-bit value, least significant first. -/
def bytes256 (x : BitVec 256) : List Byte := leBytes 32 x.toNat

/-- The ASCII bytes "FK1-ID" (R601). -/
def idInfo : List Byte := [0x46, 0x4B, 0x31, 0x2D, 0x49, 0x44]

/-- The 48 bytes of R601: HKDF-SHA256 (RFC 5869) of die 0's UDS with an empty salt. -/
def idSeeds (svn : Nat) : List Byte :=
  let prk := hmac (List.replicate 32 0) (bytes256 (Config.uds 0))
  let info := idInfo ++ leBytes 2 svn
  let t1 := hmac prk (info ++ [1])
  (t1 ++ hmac prk (t1 ++ info ++ [2])).take 48

/-- PK.root of the identity key (R601). -/
def idRoot (svn : Nat) : List Byte := slhKey slh128f ((idSeeds svn).take 16) ((idSeeds svn).drop 32)

/-- ID_PK: PK.seed and PK.root (R601). -/
def idPk (svn : Nat) : List Byte := (idSeeds svn).drop 32 ++ idRoot svn

/-- The SVN that runs on die 0 (R620). -/
def runningSvn (d : Dev) : Nat := rfld d .abwFw 0 0 0 47 32

/-! ### Reports (R606 to R608) -/

/-- The start-up of a die before its release. -/
def Boot.empty : Boot := ⟨false, false, false, none, [], false, [], false, false, 0, []⟩

/-- The start-up of a die. -/
def getBoot (d : Dev) (die : Nat) : Boot := tget Boot.empty d.boot die

/-- Writes the start-up of a die. -/
def setBoot (d : Dev) (die : Nat) (x : Boot) : Dev := { d with boot := tset Boot.empty d.boot die x }

/-- DIE_MATCH (R606): the dies whose verified header has die 0's digest. -/
def dieMatch (d : Dev) : Nat :=
  ((List.range 8).map fun die => if !(getBoot d die).digest.isEmpty ∧ (getBoot d die).digest = (getBoot d 0).digest then 2 ^ die else 0).sum

/-- Bytes 0x000 to 0x19F of a report (R607). -/
def reportBody (d : Dev) (nonce : List Byte) : List Byte :=
  let st := regView d .abwStation 0 0 0
  let reg (n : RegName) : List Byte := leBytes 8 (regView d n 0 0 0).toNat
  leBytes 4 0x54414B46 ++ [1, BitVec.ofNat 8 (fld st 3 3 + 2 * fld st 4 4)] ++ leBytes 2 17504 ++
    reg .abwId ++ reg .abwFeatures ++ reg .abwPlumbSig ++ reg .abwSerial ++ reg .abwFw ++ leBytes 8 d.tick ++ reg .abwEnvelope ++ nonce ++
    idPk (runningSvn d) ++ (List.range 8).flatMap (getMeas d) ++ [BitVec.ofNat 8 (dieMatch d)] ++ List.replicate 31 0

/-- A report: its body and the signature under the identity key (R607), with 16 bytes of randomness, which the manual does not give (log 17). -/
def report (d : Dev) (body rnd : List Byte) : List Byte :=
  let k := idSeeds (runningSvn d)
  body ++ slhSign slh128f (k.take 16) ((k.drop 16).take 16) (k.drop 32) (idRoot (runningSvn d)) rnd body

/-- ABW_REQ_STAT as a request ends (R628). -/
def reqEnds (d : Dev) (f : FaultCode) : Dev := rset (rset d .abwReqStat 0 0 0 1 1 1) .abwReqStat 0 0 0 15 8 f.num

/-- ADDR of a request is a multiple of 64 in die-local or package-striped memory (R609). -/
def reqAddr (d : Dev) (a : Addr) (n : Nat) : Bool := decide (a.toNat % 64 = 0) && inMemory d a n

/-- ABW_REQ with OP 1 (R608, R609, R617). -/
def execAbwReqAttest (addr : BitVec 52) (s : State) : Host.Outcome State Fault Refusal :=
  runCmd (.abwReqAttest addr) (fun d =>
    .next (if !pkgReady d then reqEnds d .badImage
      else if d.station.signing.isSome then reqEnds d .slotBusy
      else if !reqAddr d addr 17504 then reqEnds d .addressAbsent
      else match devReadAll d (addr + 0x40) 32 with
        | (d, .error f) => reqEnds d f
        | (d, .ok nonce) =>
          rset (rset { d with station := { d.station with signing := some ⟨reportBody d nonce, some addr⟩ } } .abwReqStat 0 0 0 1 0 1) .abwReqStat 0 0 0 15 8 0)) s

/-- ABW_REQ with OP 2 (R605, R609). -/
def execAbwReqExtend (addr : BitVec 52) (slot : BitVec 3) (s : State) : Host.Outcome State Fault Refusal :=
  runCmd (.abwReqExtend addr slot) (fun d =>
    .next (if !pkgReady d then reqEnds d .badImage
      else if slot.toNat < 4 then reqEnds d .badDescriptor
      else if !reqAddr d addr 32 then reqEnds d .addressAbsent
      else match devReadAll d addr 32 with
        | (d, .error f) => reqEnds d f
        | (d, .ok x) => reqEnds (extendMeas d slot.toNat x) .none)) s

/-- The report being signed is complete (R608): it is written, or kept for READ_REPORT. -/
def execReportSigned (s : State) : Host.Outcome State Fault Refusal :=
  runCmd .reportSigned (fun d =>
    orNot "REPORT_SIGNED" (d.station.signing.map fun g =>
      let rnd := freeBytes 16 d
      let bytes := report d g.body rnd.1
      let d := rnd.2
      match g.addr with
      | none => { d with station := { d.station with signing := none, report := bytes } }
      | some a =>
        let r := devWriteAll { d with station := { d.station with signing := none } } a bytes
        rset (reqEnds r.1 (match r.2 with
          | .ok () => .none
          | .error f => f)) .abwReqStat 0 0 0 0 0 0)) s

/-! ### Management commands (R616) -/

/-- The station of die 0 runs, from the release of the dies on. -/
def stationUp (d : Dev) : Bool := d.pkg.released

/-- The answer to a request: STATUS and data. -/
def answer (d : Dev) (status : Nat) (data : List Byte) : Dev := { d with mgmt := { d.mgmt with status := status, data := data } }

/-- The target answers a transfer to its address (R614): at its dynamic address, in SMBus mode, or, until it has seen the broadcast address, a legacy transfer. -/
def mgmtHears (d : Dev) : Bool := stationUp d && (d.mgmt.dyn.isSome || d.mgmt.smbus || !d.mgmt.broadcast)

/-- The first legacy transfer puts the target in SMBus mode (R614). -/
def legacyFirst (d : Dev) : Dev := if d.mgmt.dyn.isNone && !d.mgmt.broadcast then { d with mgmt := { d.mgmt with smbus := true } } else d

/-- Runs a request that the target answers, after the test of package ready where the table asks for it. -/
def mgmtCmd (row : String) (ready : Bool) (f : Dev → Dev) (d : Dev) : Res :=
  whenOn row (mgmtHears d) (let d := legacyFirst d; if ready && !pkgReady d then answer d 4 [] else f d)

/-- GET_IDENT (R616). -/
def execGetIdent (s : State) : Host.Outcome State Fault Refusal :=
  runCmd .getIdent (mgmtCmd "GET_IDENT" false fun d =>
    answer d 0 ([RegName.abwId, .abwSerial, .abwFeatures, .abwPlumbSig, .abwFw, .abwEnvelope].flatMap fun n => leBytes 8 (regView d n 0 0 0).toNat)) s

/-- GET_TELEMETRY (R616): ABW_POWER, CAP_LEVEL in 8 bytes, and HOT of dies 0 to 7. -/
def execGetTelemetry (s : State) : Host.Outcome State Fault Refusal :=
  runCmd .getTelemetry (mgmtCmd "GET_TELEMETRY" false fun d =>
    answer d 0 (leBytes 8 (regView d .abwPower 0 0 0).toNat ++ leBytes 8 (rfld d .abwEnvelope 0 0 0 35 32) ++
      (List.range 8).map fun die => BitVec.ofNat 8 (if die < d.part.dies then rfld d .abwTemp die 0 0 7 0 else 0))) s

/-- GET_ERRORS (R616): ERR_STAT of dies 0 to 7. -/
def execGetErrors (s : State) : Host.Outcome State Fault Refusal :=
  runCmd .getErrors (mgmtCmd "GET_ERRORS" false fun d =>
    answer d 0 ((List.range 8).flatMap fun die => leBytes 8 (if die < d.part.dies then (regView d .errStat die 0 0).toNat else 0))) s

/-- ATTEST (R608, R616, R617). -/
def execAttest (nonce : BitVec 256) (s : State) : Host.Outcome State Fault Refusal :=
  runCmd (.attest nonce) (mgmtCmd "ATTEST" true fun d =>
    if d.station.signing.isSome then answer d 1 []
    else answer { d with station := { d.station with signing := some ⟨reportBody d (bytes256 nonce), none⟩ } } 0 []) s

/-- READ_REPORT (R616). -/
def execReadReport (off : BitVec 32) (len : BitVec 8) (s : State) : Host.Outcome State Fault Refusal :=
  runCmd (.readReport off len) (mgmtCmd "READ_REPORT" true fun d =>
    if d.station.report.isEmpty then answer d 4 []
    else if 240 < len.toNat ∨ 17504 < off.toNat + len.toNat then answer d 3 []
    else answer d 0 ((d.station.report.drop off.toNat).take len.toNat)) s

/-- EXTEND (R605, R616). -/
def execExtend (slot : BitVec 8) (x : BitVec 256) (s : State) : Host.Outcome State Fault Refusal :=
  runCmd (.extend slot x) (mgmtCmd "EXTEND" true fun d =>
    if slot.toNat < 4 ∨ 7 < slot.toNat then answer d 3 [] else answer (extendMeas d slot.toNat (bytes256 x)) 0 []) s

/-- A write to RW-L bits hi to lo of a register waits for the next datum tick (R23, R24): each field on its own, the last write to it
standing. -/
def pendLive (d : Dev) (n : RegName) (die i j hi lo v : Nat) : Dev :=
  { d with live := d.live ++ [⟨regKey n die i j, setFld 0 hi lo (2 ^ (hi + 1 - lo) - 1), setFld 0 hi lo v, d.tick + 1⟩] }

/-- The part's rating in watts (R5, R623). -/
def ratingW (p : Part) : Nat := if p.dies = 8 then 2300 else if p.dies = 4 then 1200 else 650

/-- LIMIT_W lies between 40% and 100% of the rating (R623). -/
def limitOk (d : Dev) (w : Nat) : Bool := decide (40 * ratingW d.part ≤ 100 * w) && decide (w ≤ ratingW d.part)

/-- SET_LIMIT (R616, R623): a value outside the limits is ignored and logged. -/
def execSetLimit (w : BitVec 16) (s : State) : Host.Outcome State Fault Refusal :=
  runCmd (.setLimit w) (mgmtCmd "SET_LIMIT" false fun d =>
    if limitOk d w.toNat then answer (pendLive d .abwEnvelope 0 0 0 27 16 w.toNat) 0 []
    else answer (logIgnoredAt d .abwEnvelope 0 0 0 (w.toNat * 2 ^ 16)) 3 []) s

/-! ### Test state (R610) -/

/-- GET_CHALLENGE (R610): a fresh challenge. -/
def execGetChallenge (s : State) : Host.Outcome State Fault Refusal :=
  runCmd .getChallenge (mgmtCmd "GET_CHALLENGE" false fun d =>
    let b := freeBytes 32 d
    answer { b.2 with station := { b.2.station with challenge := some b.1 } } 0 b.1) s

/-- Bytes of UNLOCK_DATA: the public key and an SLH-DSA-SHA2-128s signature (R610, R602). -/
def unlockSize : Nat := 32 + 7856

/-- UNLOCK_DATA (R610). -/
def execUnlockData (off : BitVec 16) (bytes : List (BitVec 8)) (s : State) : Host.Outcome State Fault Refusal :=
  runCmd (.unlockData off bytes) (mgmtCmd "UNLOCK_DATA" false fun d =>
    if 238 < bytes.length ∨ unlockSize < off.toNat + bytes.length then answer d 3 []
    else answer { d with station := { d.station with
      unlock := (bytes.zipIdx).foldl (fun t b => tset 0 t (off.toNat + b.2) b.1) d.station.unlock } } 0 []) s

/-- The 16-byte event record that extends M2 (R605): type, new value and datum tick. -/
def m2Record (d : Dev) (type v : Nat) : Dev := extendMeas d 2 (sha256 (leBytes 4 type ++ leBytes 4 v ++ leBytes 8 d.tick))

/-- Every die of the part. -/
def allDies (d : Dev) (f : Dev → Nat → Dev) : Dev := (List.range d.part.dies).foldl f d

/-- UNLOCK_GO (R610, R617): the key and the signature over the challenge and SERIAL are checked; the challenge is used up, by a refusal on a halted package
too. -/
def execUnlockGo (s : State) : Host.Outcome State Fault Refusal :=
  runCmd .unlockGo (mgmtCmd "UNLOCK_GO" false fun d =>
    let bytes := (List.range unlockSize).map (tget 0 d.station.unlock)
    let key := bytes.take 32
    let ok := match d.station.challenge with
      | none => false
      | some ch => decide (sha256 key = bytes256 (Config.dbgPkh 0)) && slhVerify slh128s key (ch ++ leBytes 8 (Config.serial 0).toNat) (bytes.drop 32)
    let off := (List.range d.part.dies).any (halted d)
    let d := { d with station := { d.station with challenge := none } }
    if off then answer d 5 []
    else if ok then answer (m2Record (allDies d fun d die => rset d .abwStation die 0 0 4 3 3) 1 1) 0 [] else answer d 5 []) s

/-- SVN_COMMIT (R604): every die's count rises to V; one that is above V already stays. The burn takes up to 2 s (R616), within which a power loss cuts it
short. -/
def execSvnCommit (v : BitVec 16) (s : State) : Host.Outcome State Fault Refusal :=
  runCmd (.svnCommit v) (mgmtCmd "SVN_COMMIT" true fun d =>
    if runningSvn d < v.toNat ∨ v.toNat < svnMin d 0 then answer d 5 []
    else
      let e := { d with station := { d.station with burn := some ⟨d.tick, (List.range d.part.dies).map (svnMin d)⟩ } }
      answer (m2Record (allDies e fun e die => rset e .abwFw die 0 0 63 48 (max (svnMin d die) v.toNat)) 2 v.toNat) 0 []) s

/-- CUBE_CTL.INJECT (R188): locked, and so ignored and logged, outside test state. -/
def execCubeInject (c : CoreId) (u : Nat) (again : Bool) (s : State) : Host.Outcome State Fault Refusal :=
  runCmd (.cubeInject c u again) (fun d =>
    .next (if rfld d .abwStation c.die 0 0 3 3 = 1 then modCube d c u fun x => { x with inject := true, injectAgain := again }
      else logIgnoredAt d .cubeCtl c.die c.core u (1 + 2 * b2n again))) s

/-! ### The I3C target (R614) -/

/-- Runs a common command code: the target is up and not in SMBus mode; it has seen the broadcast address. -/
def cccCmd (row : String) (f : Dev → Dev) (d : Dev) : Res :=
  whenOn row (stationUp d && !d.mgmt.smbus) (f { d with mgmt := { d.mgmt with broadcast := true } })

/-- A command code that a target without a dynamic address does not answer. -/
def cccGet (row : String) (f : Dev → List Byte × Dev) (d : Dev) : Res :=
  cccCmd row (fun d => if d.mgmt.dyn.isNone then d else let r := f d; answer r.2 0 r.1) d

/-- ENEC: bit 0 enables in-band interrupts (R614, R615). -/
def execEnec (events : BitVec 8) (s : State) : Host.Outcome State Fault Refusal :=
  runCmd (.enec events) (cccCmd "ENEC" fun d => if events.getLsbD 0 then { d with mgmt := { d.mgmt with ibi := true } } else d) s

/-- DISEC: bit 0 disables in-band interrupts (R614). -/
def execDisec (events : BitVec 8) (s : State) : Host.Outcome State Fault Refusal :=
  runCmd (.disec events) (cccCmd "DISEC" fun d => if events.getLsbD 0 then { d with mgmt := { d.mgmt with ibi := false } } else d) s

/-- RSTDAA: the dynamic address is given up (R614). -/
def execRstdaa (s : State) : Host.Outcome State Fault Refusal :=
  runCmd .rstdaa (cccCmd "RSTDAA" fun d => { d with mgmt := { d.mgmt with dyn := none } }) s

/-- ENTDAA: a target without a dynamic address takes the one assigned (R614). -/
def execEntdaa (addr : BitVec 7) (s : State) : Host.Outcome State Fault Refusal :=
  runCmd (.entdaa addr) (cccCmd "ENTDAA" fun d => if d.mgmt.dyn.isNone then { d with mgmt := { d.mgmt with dyn := some addr } } else d) s

/-- The static address 0b101_10xx (R614). -/
def staticAddr (d : Dev) : BitVec 7 := BitVec.ofNat 7 (0x58 + d.pkg.maddr.toNat)

/-- SETDASA: the target with this static address and no dynamic one takes an address (R614). -/
def execSetdasa (static addr : BitVec 7) (s : State) : Host.Outcome State Fault Refusal :=
  runCmd (.setdasa static addr) (cccCmd "SETDASA" fun d =>
    if d.mgmt.dyn.isNone ∧ static = staticAddr d then { d with mgmt := { d.mgmt with dyn := some addr } } else d) s

/-- GETPID: the provisional ID, with bit 32 set, most significant byte first (R614). -/
def execGetpid (s : State) : Host.Outcome State Fault Refusal :=
  runCmd .getpid (cccGet "GETPID" fun d => ((leBytes 6 (setFld (Config.provisionalId (Config.serial 0)) 32 32 1).toNat).reverse, d)) s

/-- GETBCR (R614). -/
def execGetbcr (s : State) : Host.Outcome State Fault Refusal :=
  runCmd .getbcr (cccGet "GETBCR" fun d => ([Config.busCharacteristics], d)) s

/-- GETDCR (R614). -/
def execGetdcr (s : State) : Host.Outcome State Fault Refusal :=
  runCmd .getdcr (cccGet "GETDCR" fun d => ([Config.deviceCharacteristics], d)) s

/-- GETSTATUS: two bytes whose contents the manual leaves to the named standard (R614). -/
def execGetstatus (s : State) : Host.Outcome State Fault Refusal :=
  runCmd .getstatus (cccGet "GETSTATUS" fun d => freeBytes 2 d) s

/-- GETMWL (R614). -/
def execGetmwl (s : State) : Host.Outcome State Fault Refusal :=
  runCmd .getmwl (cccGet "GETMWL" fun d => ((leBytes 2 d.mgmt.mwl.toNat).reverse, d)) s

/-- GETMRL (R614). -/
def execGetmrl (s : State) : Host.Outcome State Fault Refusal :=
  runCmd .getmrl (cccGet "GETMRL" fun d => ((leBytes 2 d.mgmt.mrl.toNat).reverse, d)) s

/-- SETMWL (R614). -/
def execSetmwl (v : BitVec 16) (s : State) : Host.Outcome State Fault Refusal :=
  runCmd (.setmwl v) (cccCmd "SETMWL" fun d => { d with mgmt := { d.mgmt with mwl := v } }) s

/-- SETMRL (R614). -/
def execSetmrl (v : BitVec 16) (s : State) : Host.Outcome State Fault Refusal :=
  runCmd (.setmrl v) (cccCmd "SETMRL" fun d => { d with mgmt := { d.mgmt with mrl := v } }) s

/-- The first legacy transfer at the static address, before the broadcast address has been seen, puts the target in SMBus mode (R614). -/
def execSmbusModeEntry (s : State) : Host.Outcome State Fault Refusal :=
  runCmd .smbusModeEntry (fun d =>
    whenOn "SMBUS_MODE_ENTRY" (stationUp d && !d.mgmt.broadcast) { d with mgmt := { d.mgmt with smbus := true } }) s

/-! ### Power, temperature and faults -/

/-- Telemetry of the station (R612, R613). -/
def stationEvent (d : Dev) (die kind pay : Nat) : Dev :=
  raiseEvent d ⟨9, die, srcAbw, kind, BitVec.ofNat 64 d.tick, 0, 0, BitVec.ofNat 64 pay, 0⟩

/-- Every cube holds its level at or below CAP_LEVEL (R612), in saved images too. -/
def capCubes (d : Dev) (cap : Nat) : Dev :=
  mapCores d fun k => { k with w := k.w.capped cap, held := k.held.map fun h => { h with w := h.w.capped cap } }

/-- POWER_CAP_COMPARE (R612, R624): once every 1,024 datum ticks. -/
def execPowerCapCompare (watts : BitVec 16) (s : State) : Host.Outcome State Fault Refusal :=
  runOk true [] (fun d =>
    let w := watts.toNat
    let limit := rfld d .abwEnvelope 0 0 0 27 16
    let cap := rfld d .abwEnvelope 0 0 0 35 32
    let new := if limit < w then max 2 (cap - 1) else if 100 * w < 95 * limit then min 8 (cap + 1) else cap
    let e := rset (rset d .abwPower 0 0 0 15 0 w) .abwPower 0 0 0 31 16 (max w (rfld d .abwPower 0 0 0 31 16))
    let e := if new < 8 then rcount e .abwPower 0 0 0 63 32 1 else e
    let e := capCubes (rset e .abwEnvelope 0 0 0 35 32 new) new
    let e := { e with pkg := { e.pkg with capTick := some d.tick } }
    whenOn "POWER_CAP_COMPARE" (stationUp d && decide (d.tick % 1024 = 0) && decide (d.pkg.capTick ≠ some d.tick)) (if new = cap then e else stationEvent e 0 8 new)) s

/-- A junction reading of a die raises PEAK_C (R679). -/
def junctionPeak (d : Dev) (die : Nat) (t : BitVec 8) : Dev :=
  if sbyte (BitVec.ofNat 8 (rfld d .pkgTrip die 0 0 23 16)) < sbyte t then rset d .pkgTrip die 0 0 23 16 t.toNat else d

/-- TEMP_REFRESH (R613): once every 1,024 datum ticks; a reading that crosses ALARM_C raises a record. The hottest junction reading raises PEAK_C too (R679). -/
def execTempRefresh (die : Nat) (hot : BitVec 8) (s : State) : Host.Outcome State Fault Refusal :=
  runOk (decide (die < 8)) [die] (fun d =>
    let r := regGet d .abwTemp die 0 0
    let alarm := sbyte (BitVec.ofNat 8 (fld r 15 8))
    let was := decide (alarm ≤ sbyte (BitVec.ofNat 8 (fld r 7 0)))
    let e := junctionPeak (rset d .abwTemp die 0 0 7 0 hot.toNat) die hot
    whenOn "TEMP_REFRESH" (stationUp d && decide (d.tick % 1024 = 0))
      (if was = decide (alarm ≤ sbyte hot) then e else stationEvent e die 9 hot.toNat)) s

/-- A cluster of the package is owned by an open parcel. -/
def clusterOwned (d : Dev) (die k : Nat) : Bool := d.parcels.any fun p => decide (p.2.state ≠ 0) && p.2.owns die k

/-- ABW_ENVELOPE.CLUSTERS (R611): a value outside 1 to 12, or one that disables a cluster of an open parcel, is ignored and logged. -/
def execEnvelopeClustersWrite (v : BitVec 4) (s : State) : Host.Outcome State Fault Refusal :=
  runOk true [] (fun d =>
    let n := v.toNat
    .next (if n = 0 ∨ 12 < n ∨ (List.range d.part.dies).any (fun die => (List.range 12).any fun k => decide (n ≤ k) && clusterOwned d die k) then
        logIgnoredAt d .abwEnvelope 0 0 0 n
      else rset d .abwEnvelope 0 0 0 3 0 n)) s

/-- STATION_FAULT (R621, R581, R588): the station status word goes into a FATAL entry of kind 34. -/
def execStationFault (die : Nat) (code : BitVec 8) (s : State) : Host.Outcome State Fault Refusal :=
  runOk (decide (die < 8)) [die] (fun d =>
    let d := rset (rset d .abwStation die 0 0 2 0 4) .abwStation die 0 0 15 8 code.toNat
    .next (logFatal d die srcAbw 34 [(regGet d .abwStation die 0 0).toNat])) s

end Sys2Proof.Machine
end

