-- ==== Sys2Proof/Machine/Admin.lean ====
section
/-!
DEFINITION. The admin requests (R414 to R419): OPEN and CLOSE of channels, streams, media sessions, roster groups, parcels and KV sequences,
with the checks of each type (R416, R417, R452, R502, R529), and their ends.
-/

namespace Sys2Proof.Machine

/-- The request ends (R414): BUSY clears, DONE is set, FAULT and HANDLE are written. -/
def adminEnd (d : Dev) (f : FaultCode) (h : BitVec 32) : Dev :=
  { d with admin := { d.admin with busy := false, done := true, fault := f, handle := h } }

/-- An address in bits 51 to 0 of a word. -/
def wordAddr (ws : List W64) (n : Nat) : Addr := BitVec.ofNat 52 (wfld ws n 51 0)

/-- The 64-byte parameter block at CMD_ADMIN_ARG (R417, R451, R500, R528): aligned to 64, in die-local or package-striped memory. -/
def paramBlock (d : Dev) : Dev × Except FaultCode (List W64) :=
  let a : Addr := BitVec.ofNat 52 (rfld d .cmdAdminArg 0 0 0 51 0)
  if misBy 64 a.toNat || !inMemory d a 64 then (d, .error .badDescriptor)
  else match devReadAll d a 64 with
    | (d, .error f) => (d, .error f)
    | (d, .ok b) => (d, .ok ((List.range 8).map fun i => BitVec.ofNat 64 (bytesNat b (8 * i) 8)))

/-- An extent within one region of memory, scratch or a core store (R21). -/
def areaOk (d : Dev) (a : Addr) (n : Nat) : Bool := decide (spaceOf a ≠ 3) && inRegion d a n

/-! ### Channels (R417) -/

/-- The tenant slot that a channel of a parcel takes (R461): the lowest free one of a shared parcel; 0 in any other. -/
def freeTenant (q : Parcel) : Option Nat :=
  if q.tenants = 0 then some 0 else (List.range q.tenants).find? fun t => !tget false q.slots t

/-- The regions that a loaded image keeps read-only (R124). -/
def Image.regions (x : Image) : List (Addr × Nat) := [(x.text, x.textSize)] ++ (if x.dataSize = 0 then [] else [(x.data, x.dataSize)])

/-- Opens channel ch (R417): its rings, its parcel, a tenant slot (R461) and its image (R427). A doorbell that waits for its tick boundary stays
(R425). -/
def openChan (d : Dev) (ch : Nat) (ws : List W64) : Dev × FaultCode :=
  let so := wfld ws 2 4 0
  let co := wfld ws 2 12 8
  let sub := wordAddr ws 0
  let com := wordAddr ws 1
  let h : BitVec 32 := BitVec.ofNat 32 (wfld ws 3 31 0)
  let ia := wordAddr ws 4
  if decide (so < 4) || decide (16 < so) || decide (co < 4) || decide (16 < co) || misBy 4096 sub.toNat || misBy 4096 com.toNat ||
      !areaOk d sub (2 ^ so * 64) || !areaOk d com (2 ^ co * 32) then (d, .badDescriptor)
  else match checkHandle d typeParcel h with
    | .error f => (d, f)
    | .ok p =>
      match freeTenant (getParcel d p) with
      | none => (d, .noSlot)
      | some t =>
        let r : Dev × Except FaultCode (Option Image) :=
          if ia = 0 then (d, .ok none)
          else match loadImage d (homeDie d ch) ia with
            | (d, .ok x) => (d, .ok (some x))
            | (d, .error f) => (d, .error f)
        match r with
        | (d, .error f) => (d, f)
        | (d, .ok im) =>
          let d := setChan d ch { Channel.empty with
            state := 1, submit := sub, compl := com, submitOrder := so, complOrder := co, prio := wfld ws 2 17 16, parcel := h, tenant := t,
            image := im, fresh := true, doorbell := (getChan d ch).doorbell }
          let d := rset d .cmdChanCtl (homeDie d ch) 0 ch 4 2 (wfld ws 2 20 18)
          (modParcel d p fun q => if q.tenants = 0 then q
            else { q with slots := tset false q.slots t true, visited := q.visited.filter fun x => decide (x ≠ t) }, .none)

/-- A started RUN all of whose parts still wait for their first core (R435; log 156, DEDUCED). -/
def Cmd.waitsForCore (x : Cmd) : Bool := x.started && decide (x.op = 1) && (!x.acted || decide (x.place ≠ 0)) && decide (x.running = 0) && decide (x.passed = 0) && decide (x.failed = 0)

/-- A command that a CLOSE of its channel cancels (R418, R435): it has not started, or it waits for a core. -/
def Cmd.atClose (x : Cmd) : Cmd :=
  if x.started && !x.waitsForCore then x
  else { x with started := false, waiting := false, place := 0, cancel := if x.cancel = .none then .channelClosed else x.cancel }

/-- A CLOSE of a channel (R418, R435): no more commands are read, and those not started or without a core are cancelled with CHANNEL_CLOSED. -/
def closeChan (d : Dev) (ch : Nat) : Dev :=
  let waits := ((getChan d ch).cmds.filter fun x => !x.started).map Cmd.num
  let d := waits.foldl (fun d n => cancelWaits d (.command ch n)) d
  pump (modChan d ch fun k => { k with state := 2, cmds := k.cmds.map Cmd.atClose }) ch

/-- The slot of a closed channel becomes free (R418): its images' regions are writable again (R427), and its tenant slot is free (R461). -/
def freeChan (d : Dev) (ch : Nat) : Dev :=
  let k := getChan d ch
  let p := k.parcelIdx
  let ro := (k.image.toList ++ k.oldImages).flatMap Image.regions
  let d := setChan { d with readonly := ro.foldl List.erase d.readonly } ch { k with state := 0, image := none, oldImages := [] }
  if (getParcel d p).tenants = 0 then d
  else
    modParcel d p fun q => { q with
      slots := tset false q.slots k.tenant false
      occupant := if q.occupant = some k.tenant then none else q.occupant }

/-! ### Streams (R216, R418) -/

/-- The core and slot of a stream index. -/
def streamAt (idx : Nat) : CoreId × Nat := (⟨idx / 1152, idx / 8 % 144⟩, idx % 8)

/-- A CLOSE of a stream (R418): as CHN.STOP. A pass that runs completes first, and the re-arms behind it complete with STREAM_STOPPED; so do those
of a saved part, when it resumes. -/
def closeStream (d : Dev) (idx : Nat) : Dev :=
  let (c, s) := streamAt idx
  let stop (w : Work) : Work :=
    let st := tget Stream.empty w.streams s
    { w with streams := tset Stream.empty w.streams s { st with closing := decide (st.state = 2), state := if st.state = 2 then 2 else 0 } }
  let d := modCore d c fun k => { k with w := stop k.w, held := k.held.map fun h => { h with w := stop h.w } }
  let q := (chainQ d c).filter fun x => decide (x.slot = some s)
  (q.filter fun x => decide (x.op.opc = chnRearm) && decide (x.phase = 0) &&
    decide (q.head?.map (fun y => y.op.serial) ≠ some x.op.serial)).foldl (fun d x => popChain d c x .streamStopped) d

/-- A stream's slot is idle. -/
def streamIdle (d : Dev) (idx : Nat) : Bool :=
  let (c, s) := streamAt idx
  let still (w : Work) : Bool := decide ((tget Stream.empty w.streams s).state = 0)
  still (getCore d c).w && ((getCore d c).held.map fun h => still h.w).getD true

/-! ### Media sessions (R529) and roster groups (R502) -/

/-- Opens a media session. -/
def openMedia (d : Dev) (idx : Nat) (ws : List W64) : Dev × FaultCode :=
  let f := sessCheck d idx { Sess.empty with state := 1, words := ws }
  (if f = .none then openSess d idx ws else d, f)

/-- A group by its parameter block (R500). -/
def groupBlock (ws : List W64) : Group :=
  ⟨1, BitVec.ofNat 32 (wfld ws 0 31 0), wfld ws 0 44 32, wordAddr ws 1, wfld ws 2 11 0, wfld ws 2 13 12, BitVec.ofNat 32 (wfld ws 3 31 0),
    wordAddr ws 4, wfld ws 5 39 0, wordAddr ws 6, wfld ws 7 39 0, 0, [], []⟩

/-- The member list of a group (R501). -/
def memberList (d : Dev) (x : Group) : Dev × Except FaultCode (List W64) :=
  match devReadAll d x.members (8 * x.count) with
  | (d, .error f) => (d, .error f)
  | (d, .ok b) => (d, .ok ((List.range x.count).map fun i => BitVec.ofNat 64 (bytesNat b (8 * i) 8)))

/-- What R502 asks of a group before its member list is read. -/
def groupShapeBad (d : Dev) (x : Group) : Bool :=
  decide (x.tag = 0) || decide (x.count = 0) || decide (4096 < x.count) || decide (x.count ≤ x.self) ||
    misBy 64 x.members.toNat || !areaOk d x.members (8 * x.count) || misBy 65536 x.inBase.toNat || misBy 65536 x.inSize ||
    !areaOk d x.inBase x.inSize || misBy 65536 x.land.toNat || misBy 65536 x.landSize ||
    !(decide (x.inBase.toNat ≤ x.land.toNat) && decide (x.land.toNat + x.landSize ≤ x.inBase.toNat + x.inSize)) ||
    (decide (x.top = 0) && decide (1 < x.count))

/-- All entries agree in bits hi to lo. -/
def allSame (ms : List W64) (hi lo : Nat) : Bool := ms.all fun w => decide (fld w hi lo = fld (ms.headD 0) hi lo)

/-- What R502 asks of the member list. -/
def membersBad (d : Dev) (x : Group) (ms : List W64) : Bool :=
  let zids := ms.map fun w => fld w 15 0
  decide (zids.getD x.self 0 ≠ zlkId d) || !decide zids.Nodup || zids.any (fun z => decide (z = 0) || decide (z = 0xFFFF)) ||
    (List.range x.count).any (fun i => decide (i ≠ x.self) && decide (d.part.dies ≤ fld (ms.getD i 0) 18 16)) ||
    (decide (x.top = 1) && !allSame ms 39 24) || (decide (x.top = 2) && !allSame ms 39 32)

/-- Opens roster group g (R502). -/
def openGroup (d : Dev) (g : Nat) (ws : List W64) : Dev × FaultCode :=
  let x := groupBlock ws
  if groupShapeBad d x then (d, .badDescriptor)
  else match memberList d x with
    | (d, .error f) => (d, f)
    | (d, .ok ms) =>
      if membersBad d x ms then (d, .badDescriptor)
      else match checkHandle d typeParcel x.parcel with
        | .error f => (d, f)
        | .ok _ => if (groupOfTag d x.tag).isSome then (d, .slotBusy) else (setGroup d g x, .none)

/-- Inbound transfers of a group that closes are refused from now on (R503). -/
def dropInbound (d : Dev) (g : Nat) : Dev := { d with inbound := d.inbound.filter fun b => decide (b.h.groupTag ≠ (getGroup d g).tag) }

/-! ### Parcels (R451 to R454) -/

/-- A parcel by its parameter block (R451). -/
def parcelOfBlock (ws : List W64) : Parcel :=
  { Parcel.empty with
    state := 1
    lo := BitVec.ofNat 64 (wfld ws 0 47 0)
    hi := BitVec.ofNat 64 (wfld ws 1 47 0)
    dlo := ws.getD 2 0
    dhi := ws.getD 3 0
    ctx := wordAddr ws 4
    swap := wordAddr ws 5
    tenants := wfld ws 6 4 0
    swapStore := wfld ws 6 9 5
    plumb := decide (wfld ws 6 10 10 = 1)
    scratchOff := wfld ws 7 15 0
    scratchSize := wfld ws 7 31 16 }

/-- Die stake block b of a die belongs to a parcel (R451). -/
def Parcel.ownsBlock (q : Parcel) (die b : Nat) : Bool :=
  if die < 4 then q.dlo.getLsbD (16 * die + b) else q.dhi.getLsbD (16 * (die - 4) + b)

/-- A parcel names a die: by a cluster or a die stake block. -/
def Parcel.names (q : Parcel) (die : Nat) : Bool :=
  (List.range 12).any (fun k => q.owns die k) || (List.range 16).any (fun b => q.ownsBlock die b)

/-- The swap area of a parcel (R461), in bytes. -/
def swapSize (d : Dev) (q : Parcel) : Nat := q.tenants * swapUnit d q

/-- The checks of a parcel's OPEN (R452), with the disabled clusters of R611. -/
def parcelCheck (d : Dev) (q : Parcel) : FaultCode :=
  let off (k : Nat) : Bool := decide (rfld d .abwEnvelope 0 0 0 3 0 ≤ k)
  firstFault [
    ((decide (q.lo = 0) && decide (q.hi = 0)) || ((List.range 8).any fun die => decide (d.part.dies ≤ die) && q.names die) ||
      ((List.range 8).any fun die => (List.range 12).any fun k => q.owns die k && off k), .badDescriptor),
    ((decide (q.tenants = 0) && decide (q.swap ≠ 0)) || (decide (q.tenants ≠ 0) && decide (q.swap = 0)) ||
      (decide (q.ctx ≠ 0) && decide (q.swap ≠ 0)) || decide (16 < q.tenants) || decide (24 < q.swapStore), .badDescriptor),
    ((decide (q.scratchSize ≠ 0) && (parcelDies d q).any fun die => decide (scratchBytes d die < (q.scratchOff + q.scratchSize) * 65536)) ||
      (decide (q.ctx ≠ 0) && (misBy 65536 q.ctx.toNat || !areaOk d q.ctx ((parcelCores d q).length * (4 * 2 ^ 20)))) ||
      (decide (q.swap ≠ 0) && (misBy 65536 q.swap.toNat || !areaOk d q.swap (swapSize d q))), .badDescriptor),
    ((d.parcels.any fun p => decide (p.2.state ≠ 0) && (List.range 8).any fun die =>
        (List.range 12).any (fun k => p.2.owns die k && q.owns die k) || (List.range 16).any (fun b => p.2.ownsBlock die b && q.ownsBlock die b)) ||
      ((List.range 8).any fun die => q.names die && decide (rfld d .pclRebuild die 0 0 0 0 = 1)), .slotBusy)]

/-- Opens parcel p: its entry in the cadastre. -/
def openParcel (d : Dev) (p : Nat) (ws : List W64) : Dev × FaultCode :=
  let q := parcelOfBlock ws
  let f := parcelCheck d q
  (if f = .none then setParcel d p q else d, f)

/-- A stake belongs to a parcel: its hub's cluster, or its die stake block. -/
def Parcel.ownsStake (q : Parcel) (id : StakeId) : Bool :=
  let die := stakeDie id
  if stakeHub id < 12 then q.owns die (stakeHub id) else q.ownsBlock die ((stakeIdx id - 15360) / 64)

/-- The stakes granted to a parcel, highest first. -/
def grantList (d : Dev) (q : Parcel) : List StakeId :=
  (List.range d.part.dies).reverse.flatMap fun die =>
    ((List.range 16).reverse.filter (q.ownsBlock die)).flatMap (fun b =>
      (List.range 64).reverse.map fun i => BitVec.ofNat 17 (die * 16384 + 15360 + b * 64 + i)) ++
    ((List.range 12).reverse.filter (q.owns die)).flatMap fun k =>
      (List.range 1280).reverse.map fun i => BitVec.ofNat 17 (die * 16384 + k * 1280 + i)

/-- Every granted stake as an OPEN leaves it (R453): it names the parcel, and holds nothing else. -/
def grantStakes (d : Dev) (p : Nat) (q : Parcel) : Dev :=
  (grantList d q).foldl (fun d id => setStake d id { Stake.empty with parcel := p })
    { d with stakes := d.stakes.filter fun e => !q.ownsStake (BitVec.ofNat 17 e.1) }

/-- The offset in reservoir scratch of a key of the scratchpad slices of a die (R369). -/
def windowOffset (d : Dev) (die key : Nat) : Option Nat :=
  let k := key - 2 ^ 48
  if key < 2 ^ 48 ∨ 2 ^ 49 ≤ key ∨ k / 2 ^ 28 ≠ die then none
  else
    let sl := scratchSlices d die
    let pos := sl.findIdx fun x => decide (x = k / 2 ^ 24 % 16)
    if pos < sl.length then some (k % 2 ^ 24 / 64 * sl.length * 64 + pos * 64 + k % 64) else none

/-- Writes zero to the scratch window of a parcel on a die (R453). -/
def clearWindow (d : Dev) (q : Parcel) (die : Nat) : Dev :=
  let hit (key : Nat) : Bool := match windowOffset d die key with
    | some o => decide (q.scratchOff * 65536 ≤ o) && decide (o < (q.scratchOff + q.scratchSize) * 65536)
    | none => false
  { d with mem := d.mem.filter fun e => !hit e.1, poison := d.poison.filter fun e => !hit e.1 }

/-- The work of a parcel's OPEN (R453): stakes, core stores, scratch windows and residency tags. -/
def grantParcel (d : Dev) (p : Nat) : Dev :=
  let q := getParcel d p
  let d := grantStakes d p q
  let d := (parcelCores d q).foldl (fun d c => memClear d (storeKey c 0) storeBytes) d
  let d := (parcelDies d q).foldl (fun d die => clearWindow d q die) d
  clearTags d q

/-- A CLOSE of a parcel (R454): every granted stake is disabled, and the context images are discarded. -/
def closeParcel (d : Dev) (p : Nat) : Dev :=
  let q := getParcel d p
  let on := (d.stakes.map fun e => (BitVec.ofNat 17 e.1, e.2)).filter fun e => q.ownsStake e.1 && (e.2.enable || !e.2.waiters.isEmpty)
  let d := on.foldl (fun d e => stakeDisable d e.1) d
  let d := (parcelCores d q).foldl (fun d c => modCore d c fun k => { k with held := none }) d
  setParcel d p { q with state := 2 }

/-! ### KV sequences (R416, R418) -/

/-- The checks of an OPEN of a KV sequence (R416). -/
def kvCheck (d : Dev) (idx : Nat) : FaultCode :=
  let dim := kvDim d idx
  let stages := kvStages d idx
  let st : Addr := BitVec.ofNat 52 (kvReg d .kvsStage idx 51 0)
  let len := kvReg d .kvsGeom idx 63 32
  if decide (4 < kvReg d .kvsGeom idx 2 0) || decide (dim < 16) || decide (256 < dim) || misBy 16 dim || decide (kvForm d idx ∉ [1, 2, 3, 4]) ||
      decide (stages < 2) || decide (16 < stages) || decide (65536 < kvPageBytes d idx) || decide (len = 0) ||
      decide (2 ^ 24 ≤ len * kvTokens d idx) || misBy 8 (kvReg d .kvsList idx 51 0) || misBy 65536 st.toNat ||
      misBy 65536 (kvReg d .kvsRemote idx 51 0) || decide (spaceOf st ≠ 2) || decide (dieOf st ≠ idx / 4096) ||
      decide (0x100000000000 ≤ offOf st) || !inRegion d st (stages * 65536) then .badDescriptor
  else .none

/-- Opens a KV sequence: OPEN, with FLUSHED and EXPORTED 0. -/
def openKv (d : Dev) (idx : Nat) : Dev × FaultCode :=
  let f := kvCheck d idx
  (if f = .none then setKv (kvSet d .kvsState idx 63 0 1) idx Kv.empty else d, f)

/-- A CLOSE of a KV sequence (R418): appends that wait complete with KV_SEALED, operations that wait for keys with KEY_ABSENT, and pages not yet
being flushed or sent are discarded. -/
def closeKv (d : Dev) (idx : Nat) : Dev :=
  let die := idx / 4096
  let slot := idx % 4096
  let mine (e : Nat × Nat) : Bool := decide (e.1 = slot)
  let d := modKv d idx fun q => { q with closing := true, held := [] }
  let d := { d with
    kvReady := tmod [] d.kvReady die fun l => l.filter fun e => !mine e
    expWait := [0, 1].foldl (fun t p => tmod [] t (2 * die + p) fun l => l.filter fun e => !mine e) d.expWait
    expQ := [0, 1].foldl (fun t p => tmod [] t (2 * die + p) fun l => l.filter fun e => decide (e.slot ≠ slot)) d.expQ }
  eachAttn d fun c u o d =>
    if o.kvIdx ≠ idx then d
    else if o.phase = .append ∧ o.att.stalled = true then failRun d c u o .kvSealed
    else if o.phase = .keys then failRun d c u o .keyAbsent
    else d

/-- An attention operation of a core's work uses a sequence. -/
def workUses (w : Work) (idx : Nat) : Bool :=
  w.cubes.any fun e => (e.2.head.toList ++ e.2.run.toList ++ e.2.post).any fun o => decide (o.op.kind = 3) && decide (o.kvIdx = idx)

/-- No accepted operation, flush or export of a closing sequence is under way. -/
def kvIdle (d : Dev) (idx : Nat) : Bool :=
  (d.cores.all fun e => !workUses e.2.w idx && !((e.2.held.map fun h => workUses h.w idx).getD false)) &&
    ((dieFlushes d (idx / 4096)).all fun x => decide (x.slot ≠ idx % 4096)) &&
    d.xfers.all fun x => !(decide (x.kind = 2) && decide (x.owner = idx))

/-! ### Requests -/

/-- A slot is free. -/
def slotFree (d : Dev) (type idx : Nat) : Bool := !(getObj d type idx).live

/-- The checks of R415: the slot that an OPEN takes. -/
def openCheck (d : Dev) (any : Bool) (type index : Nat) : Except FaultCode Nat :=
  let n := tableSize d type
  if n = 0 ∨ (!any ∧ n ≤ index) then .error .badHandle
  else if any ∧ (type = typeStream ∨ type = typeKv) then .error .badDescriptor
  else if !any then (if slotFree d type index then .ok index else .error .slotBusy)
  else match (List.range n).find? (slotFree d type) with
    | some i => .ok i
    | none => .error .noSlot

/-- The checks and the creation of an object of each type (R416). -/
def openType (d : Dev) (type idx : Nat) : Dev × FaultCode :=
  if type = typeStream then
    (let (c, s) := streamAt idx
     (setStream d c s Stream.empty, .none))
  else if type = typeKv then openKv d idx
  else match paramBlock d with
    | (d, .error f) => (d, f)
    | (d, .ok ws) =>
      if type = typeChannel then openChan d idx ws
      else if type = typeMedia then openMedia d idx ws
      else if type = typeGroup then openGroup d idx ws
      else openParcel d idx ws

/-- A write to CMD_ADMIN_REQ that is ignored: before package ready (R652), or while BUSY (R414). -/
def adminIgnored (d : Dev) : Bool := !pkgReady d || d.admin.busy

/-- An OPEN request (R415): one that fails ends at once and changes nothing; any other stays BUSY until OPEN_COMPLETE. -/
def openRequest (d : Dev) (any : Bool) (type index : Nat) : Dev :=
  if adminIgnored d then logIgnoredAt d .cmdAdminReq 0 0 0 (1 + 16 * b2n any + 2 ^ 8 * type + 2 ^ 16 * index)
  else
    let d := { d with admin := { d.admin with busy := true, done := false, close := false } }
    match openCheck d any type index with
    | .error f => adminEnd d f 0
    | .ok idx =>
      match openType d type idx with
      | (d, .none) =>
        let d := openSlot d type idx
        { d with admin := { d.admin with target := handleOf d type idx } }
      | (d, f) => adminEnd d f 0

/-- OPEN (R414, R415): the write waits for a command link that retrains (R410, R435). -/
def execOpenObj (any : Bool) (type : BitVec 8) (index : BitVec 16) (s : State) : Host.Outcome State Fault Refusal :=
  runCmd (.openObj any type index) (fun d => whenOn "OPEN" (!commandBusy d 0) (openRequest d any type.toNat index.toNat)) s

/-- OPEN_COMPLETE (R414, R453): a parcel's stakes and memory are cleared; BUSY clears and the handle is shown. -/
def execOpenComplete (s : State) : Host.Outcome State Fault Refusal :=
  runCmd .openComplete (fun d =>
    let h := d.admin.target
    whenOn "OPEN_COMPLETE" (d.admin.busy && !d.admin.close)
      (adminEnd (if fld h 23 16 = typeParcel then grantParcel d (fld h 15 0) else d) .none h)) s

/-- A channel is OPEN or CLOSING and names a parcel (R454). -/
def parcelInUse (d : Dev) (p : Nat) : Bool := d.chans.any fun e => decide (e.2.state ≠ 0) && decide (e.2.parcelIdx = p)

/-- What a CLOSE does at once, by type (R418). -/
def closeType (d : Dev) (type idx : Nat) : Dev :=
  if type = typeChannel then closeChan d idx
  else if type = typeStream then closeStream d idx
  else if type = typeMedia then closeSess d idx
  else if type = typeGroup then
    (let d := dropInbound (closeGroup d idx) idx
     setGroup d idx { getGroup d idx with state := 2 })
  else if type = typeParcel then closeParcel d idx
  else closeKv d idx

/-- A CLOSE request (R418, R419, R454): from here on the handle is stale; BUSY stays until CLOSE_COMPLETE. -/
def closeRequest (d : Dev) (h : BitVec 32) : Dev :=
  if adminIgnored d then logIgnoredAt d .cmdAdminReq 0 0 0 (2 + 2 ^ 32 * h.toNat)
  else
    let d := { d with admin := { d.admin with busy := true, done := false, close := true, target := h } }
    let type := fld h 23 16
    match checkHandle d type h with
    | .error f => adminEnd d f 0
    | .ok idx =>
      if type = typeParcel ∧ parcelInUse d idx then adminEnd d .slotBusy 0
      else closeSlot (closeType d type idx) type idx

/-- CLOSE (R418): the write waits for a command link that retrains (R410, R435). -/
def execCloseObj (handle : BitVec 32) (s : State) : Host.Outcome State Fault Refusal :=
  runCmd (.closeObj handle) (fun d => whenOn "CLOSE" (!commandBusy d 0) (closeRequest d handle)) s

/-- The work of a closing object has ended (R418, R503, R531). -/
def closeReady (d : Dev) (type idx : Nat) : Bool :=
  if type = typeChannel then
    (let k := getChan d idx
     k.cmds.isEmpty && decide ((getParcel d k.parcelIdx).swapping ≠ some k.tenant))
  else if type = typeStream then streamIdle d idx
  else if type = typeMedia then sessIdle d idx
  else if type = typeGroup then
    d.xfers.all (fun x => decide (x.group ≠ idx)) && d.colls.all (fun c => decide (c.group ≠ idx)) && d.lateLops.all fun e => decide (e.lop.group ≠ idx)
  else if type = typeParcel then true
  else kvIdle d idx

/-- The slot becomes free. -/
def freeType (d : Dev) (type idx : Nat) : Dev :=
  if type = typeChannel then freeChan d idx
  else if type = typeStream then
    (let (c, s) := streamAt idx
     setStream d c s Stream.empty)
  else if type = typeMedia then setSess d idx Sess.empty
  else if type = typeGroup then setGroup d idx Group.empty
  else if type = typeParcel then setParcel d idx Parcel.empty
  else setKv (kvSet d .kvsState idx 1 0 0) idx Kv.empty

/-- CLOSE_COMPLETE (R418): the slot is free, and the request ends. -/
def execCloseComplete (s : State) : Host.Outcome State Fault Refusal :=
  runCmd .closeComplete (fun d =>
    let h := d.admin.target
    let type := fld h 23 16
    let idx := fld h 15 0
    whenOn "CLOSE_COMPLETE" (d.admin.busy && d.admin.close && closeReady d type idx) (adminEnd (freeType d type idx) .none 0)) s

end Sys2Proof.Machine
end

