-- ==== Sys2Proof/Machine/Startup.lean ====
section
/-!
DEFINITION. Start-up and triangulation (19): release, positions, messages, firmware, mesh and HBM training, self-test, the datum tick, silent
dies and package ready (R629 to R656); and the retraining of UCIe links (R410).
-/

namespace Sys2Proof.Machine

/-! ### Time and messages -/

/-- Datum ticks since the release (R630). -/
def sinceRelease (d : Dev) : Nat := d.pkg.elapsed + (d.tick - d.pkg.releasedAt)

/-- Milliseconds since the release: a tick is 256 periods of 5.2 GHz (R669). -/
def releaseMs (d : Dev) : Nat := sinceRelease d * 2 / 40625

/-- The dies that forward a die's messages (R635): those after it on its route to its home die (R408), its parent first. -/
def forwarders (n x : Nat) : List Nat := ((routeLinks n x (homeOf n x)).map Prod.fst ++ [homeOf n x]).drop 1

/-- A die's parent (R635); none: the command die. -/
def parent (n x : Nat) : Option Nat := (forwarders n x).head?

/-- The command die has declared a die silent (R648). -/
def silent (d : Dev) (die : Nat) : Bool := (getBoot d die).silent

/-- A silent die whose parent is the command die or a die that is not silent is MISSING (R648). -/
def missing (d : Dev) (die : Nat) : Bool := silent d die && (parent d.part.dies die).all fun y => !silent d y

/-- A silent die whose parent is MISSING or UNREACHED is UNREACHED (R648). -/
def unreached (d : Dev) (die : Nat) : Bool := silent d die && (parent d.part.dies die).any (silent d)

/-- A die forwards sideband messages: its PLL has locked, and it has not fallen silent (log 197). -/
def forwards (d : Dev) (die : Nat) : Bool := (getBoot d die).locked && !silent d die

/-- The sideband between a die and the command die stands: the die is not silent, and every die on the route forwards (R635, log 197). -/
def reaches (d : Dev) (die : Nat) : Bool := !silent d die && (forwarders d.part.dies die).all (forwards d)

/-- A message of a die to the command die (R634, R635): one whose route passes a die that does not forward never arrives. -/
def sendMessage (d : Dev) (die : Nat) (w : Nat) : Dev :=
  if reaches d die then
    let d := { d with pkg := { d.pkg with messages := BitVec.ofNat 64 w :: d.pkg.messages } }
    setBoot d die { getBoot d die with heard := sinceRelease d }
  else d

/-- PHASE of a die (R655): 0 ROM, 1 FETCH, 2 TRAIN, 3 DONE, 4 FAILED. -/
def bootPhase (d : Dev) (die : Nat) : Nat := rfld d .abwBoot die 0 0 3 0

/-- FAIL of a die (R655). -/
def bootFail (d : Dev) (die : Nat) : Nat := rfld d .abwBoot die 0 0 7 4

/-- A PROGRESS message (R634). -/
def progress (d : Dev) (die : Nat) : Dev :=
  sendMessage d die (2 + 2 ^ 8 * die + 2 ^ 16 * rfld d .abwBoot die 0 0 7 0 + 2 ^ 32 * rfld d .abwStation die 0 0 15 8)

/-- A die's PHASE and FAIL change (R634, R655); DONE_MS is set with DONE or FAILED. -/
def setPhase (d : Dev) (die phase fail : Nat) : Dev :=
  let d := rset (rset d .abwBoot die 0 0 3 0 phase) .abwBoot die 0 0 7 4 fail
  progress (if 3 ≤ phase then rset d .abwBoot die 0 0 55 40 (min 0xFFFE (releaseMs d)) else d) die

/-- READY was written in this tick, and a die fails in it too (R654): the write is ignored and logged after all. -/
def undoReady (d : Dev) : Dev :=
  match d.pkg.readyAt with
  | some (t, old) => if t = d.tick then
      logIgnoredAt (regSet { d with pkg := { d.pkg with readyAt := none } } .abwTri 0 0 0 old) .abwTri 0 0 0 (rfld d .abwTri 0 0 0 24 0)
    else d
  | none => d

/-- A die enters FAILED; one that has failed keeps its first cause. -/
def failDie (d : Dev) (die fail : Nat) : Dev := if bootPhase d die = 4 then d else setPhase (undoReady d) die 4 fail

/-- A die of the package has halted: triangulation does not go on (R654). -/
def triHalted (d : Dev) : Bool := (List.range d.part.dies).any (halted d)

/-- STATE of a station (R621). -/
def stationState (d : Dev) (die : Nat) : Nat := rfld d .abwStation die 0 0 2 0

/-- A station is RUNNING. -/
def stationRuns (d : Dev) (die : Nat) : Bool := decide (stationState d die = 2)

/-! ### The mesh (R407, R408, R640) -/

/-- Hops of a die's path to the command die (R408, R640). -/
def distance (n x : Nat) : Nat :=
  let c := meshCols n
  1 + x % c + (if n = 8 then 0 else x / c)

/-- The wave of a link (R640); none for a module that faces nothing. -/
def linkWave (n x m : Nat) : Option Nat :=
  match facing n x m with
  | .die y => some (max (distance n x) (distance n y))
  | .command => some (distance n x)
  | .none => none

/-- The waves of a part. -/
def waveCount (n : Nat) : Nat := ((List.range n).map (distance n)).foldl max 0

/-- Applies f to both ends of a link, a die and its module. -/
def bothEnds (d : Dev) (die m : Nat) (f : Dev → Nat → Nat → Dev) : Dev :=
  let d := f d die m
  match facing d.part.dies die m with
  | .die y => f d y (farModule m)
  | _ => d

/-- A die that has been declared MISSING or UNREACHED. -/
def lost (d : Dev) (die : Nat) : Bool := missing d die || unreached d die

/-- A link may train: none of its dies has been declared MISSING or UNREACHED (R641). -/
def linkLives (d : Dev) (die m : Nat) : Bool :=
  !lost d die && (match facing d.part.dies die m with
    | .die y => !lost d y
    | .command => true
    | .none => false)

/-- The links of a wave, by a die and module. -/
def waveLinks (d : Dev) (wave : Nat) : List (Nat × Nat) :=
  (List.range d.part.dies).flatMap fun x => ((List.range 4).filter fun m => decide (linkWave d.part.dies x m = some wave) && linkLives d x m).map fun m => (x, m)

/-- A wave has ended: its links are UP or FAILED. -/
def waveEnded (d : Dev) (wave : Nat) : Bool :=
  (waveLinks d wave).all fun l => decide (uciState d l.1 l.2 ≠ 0) && decide (uciState d l.1 l.2 ≠ 1)

/-! ### Completion of a die's phases -/

/-- A die is DONE (R655) once its stacks are trained, its self-test has ended and its links have trained. -/
def doneCheck (d : Dev) (die : Nat) : Dev :=
  let b := getBoot d die
  if bootPhase d die = 2 ∧ b.hbm ∧ b.tested ∧
      ((List.range 4).all fun m => !linkLives d die m || decide (uciState d die m = 2)) then setPhase d die 3 0 else d

/-! ### Release and positions -/

/-- RESET_RELEASE (R630): the command die releases every compute die. -/
def execResetRelease (s : State) : Host.Outcome State Fault Refusal :=
  runOk true [] (fun d =>
    whenOn "RESET_RELEASE" (d.pkg.pwrgd && !d.pkg.reset && !d.pkg.released)
      { d with pkg := { d.pkg with released := true, releasedAt := d.tick, elapsed := 0 } }) s

/-- ROOT_PLL_LOCK (R632, R633): the root PLL locks and the straps are read; an even parity, or a position beyond the part, is a STRAP failure. -/
def execRootPllLock (die : Nat) (straps : BitVec 3) (parity : Bool) (s : State) : Host.Outcome State Fault Refusal :=
  runOk (decide (die < 8)) [die] (fun d =>
    let b := getBoot d die
    let e := rset (rset (setBoot d die { b with locked := true }) .pkgClk die 0 0 0 0 1) .abwId die 0 0 18 16 straps.toNat
    let ones := b2n (straps.getLsbD 0) + b2n (straps.getLsbD 1) + b2n (straps.getLsbD 2) + b2n parity
    whenOn "ROOT_PLL_LOCK" (d.pkg.released && !b.locked) (if ones % 2 = 0 ∨ d.part.dies ≤ straps.toNat then failDie e die 1 else e)) s

/-- POSITION_EXCHANGE (R633): a neighbour's position (none: the command die) is held against R407. -/
def execPositionExchange (die m : Nat) (peer : Option Nat) (s : State) : Host.Outcome State Fault Refusal :=
  runOk (decide (die < 8) && decide (m < 4)) [die] (fun d =>
    let want := facing d.part.dies (rfld d .abwId die 0 0 18 16) m
    let got : Facing := match peer with
      | some y => .die y
      | none => .command
    let e := rset d .uciLink die 0 m 5 5 (b2n peer.isNone)
    whenOn "POSITION_EXCHANGE" (getBoot d die).locked (if want = got then e else failDie e die 1)) s

/-- ANNOUNCE (R634). -/
def execAnnounce (die : Nat) (s : State) : Host.Outcome State Fault Refusal :=
  runOk (decide (die < 8)) [die] (fun d =>
    let b := getBoot d die
    let arg := d.part.dies + 2 ^ 4 * (Config.stepping die).toNat + 2 ^ 12 * b2n (!d.part.gradeA)
    whenOn "ANNOUNCE" (b.locked && !b.announced) (sendMessage (setBoot d die { b with announced := true }) die (1 + 2 ^ 8 * die + 2 ^ 32 * arg))) s

/-- PROGRESS (R634): a die's message at least every 100 ms until the package is ready. -/
def execProgress (die : Nat) (s : State) : Host.Outcome State Fault Refusal :=
  runOk (decide (die < 8)) [die] (fun d => whenOn "PROGRESS" ((getBoot d die).announced && !pkgReady d) (progress d die)) s

/-! ### Firmware (R602, R603, R636 to R639) -/

/-- A station refuses an image (R603, R637): STATE REFUSED with a CODE; it stays in ROM. -/
def refuseFw (d : Dev) (die code : Nat) : Dev :=
  let d := setBoot d die { getBoot d die with fwSize := none }
  setPhase (rset (rset d .abwStation die 0 0 2 0 3) .abwStation die 0 0 15 8 code) die 0 2

/-- FW_BEGIN (R636, R638): a die in the mask whose station is in ROM or REFUSED loads; one that failed its straps, or a package in test mode
(R662), takes none, and a die that the message does not reach hears nothing of it (R635). -/
def fwBegin (mask : BitVec 8) (size : Nat) (d : Dev) (die : Nat) : Dev :=
  let st := stationState d die
  if !mask.getLsbD die || !(decide (st = 0) || decide (st = 3)) || decide (bootPhase d die = 4) || d.pkg.tmode ||
      !(getBoot d die).locked || !reaches d die then d
  else
    let d := setBoot d die { getBoot d die with fwSize := some size, fw := [], gap := false }
    let d := rcount d .abwBoot die 0 0 23 16 1
    setPhase (rset (rset d .abwStation die 0 0 2 0 1) .abwStation die 0 0 15 8 0) die 1 0

/-- FW_BEGIN (R636). -/
def execFwBegin (mask : BitVec 8) (size : Nat) (s : State) : Host.Outcome State Fault Refusal :=
  runOk true [] (fun d => whenOn "FW_BEGIN" (d.pkg.released && !triHalted d) (allDies d (fwBegin mask size))) s

/-- Bytes of an image before its body (R602). -/
def fwBodyOff : Nat := 0x1F30

/-- The checks 1 to 4 of R603 on the bytes before the body; 0: all pass. -/
def headerCode (d : Dev) (die size : Nat) (fw : List Byte) : Nat :=
  let svn := bytesNat fw 0x0C 2
  if bytesNat fw 0 4 ≠ 0x57464B46 ∨ bytesNat fw 4 1 ≠ 1 ∨ 0x780000 < bytesNat fw 0x10 4 ∨ size < fwBodyOff + bytesNat fw 0x10 4 then 1
  else
    let pk := (fw.drop 0x40).take 32
    if sha256 pk ≠ bytes256 (Config.fwPkh die) then 2
    else if svn < svnMin d die ∨ 64 < svn then 3
    else if !slhVerify slh128s pk (fw.take 0x80) ((fw.drop 0x80).take 7856) then 4 else 0

/-- The supply that a die is loading: a die that has failed takes no firmware (R633), and one whose sideband is cut hears none (R635). -/
def supplySize (d : Dev) (die : Nat) : Option Nat :=
  if bootPhase d die = 4 ∨ reaches d die = false then none else (getBoot d die).fwSize

/-- FW_DATA at a loading die (R634, R637): a gap fails check 1; with the header's arrival its checks are made. -/
def fwData (off : Nat) (bytes : List Byte) (d : Dev) (die : Nat) : Dev :=
  let b := getBoot d die
  match supplySize d die with
  | none => d
  | some size =>
    if off ≠ b.fw.length then refuseFw d die 1
    else
      let fw := b.fw ++ bytes
      let d := setBoot d die { b with fw := fw }
      if b.fw.length < fwBodyOff ∧ fwBodyOff ≤ fw.length then
        (let code := headerCode d die size fw
         if code = 0 then d else refuseFw d die code)
      else d

/-- FW_DATA (R634): 64 bytes at an offset that is a multiple of 64. -/
def execFwData (off : Nat) (words : List (BitVec 8)) (s : State) : Host.Outcome State Fault Refusal :=
  runOk true [] (fun d =>
    whenOn "FW_DATA" (d.pkg.released && !triHalted d && decide (words.length = 64) && decide (off % 64 = 0)) (allDies d (fwData off words))) s

/-- The normal table set of a verified body is loaded into every core of a die (R271, R645), and the plumb signature is valid (R568, R569). -/
def loadNormal (d : Dev) (die : Nat) (body : List Byte) : Dev :=
  let img := body.drop (Config.fwTableOff body)
  let id := bytesNat img 8 4
  let d := { d with normal := tset [] d.normal die (img.take (bytesNat img 12 4)) }
  let d := regSet d .abwPlumbSig die 0 0 (BitVec.ofNat 64 (0x0101 + 2 ^ 16 * id + 2 ^ 48 * 1))
  (List.range 144).foldl (fun d c => rset d .sfnTable die c 0 31 0 id) d

/-- A verified die whose header differs from die 0's fails (R639). -/
def matchDies (d : Dev) : Dev :=
  if !stationRuns d 0 then d
  else allDies d fun d die => if stationRuns d die ∧ (getBoot d die).digest ≠ (getBoot d 0).digest then failDie d die 5 else d

/-- Die 0's station runs (R601, R605, R639): M0 and M1 are extended and the identity key is derived. -/
def dieZeroRuns (d : Dev) (body : List Byte) : Dev :=
  let d := extendMeas d 0 (getBoot d 0).digest
  let d := extendMeas d 1 (((body.drop (Config.fwTableOff body)).drop 0x20).take 32)
  let h := sha256 (idPk (runningSvn d))
  (List.range 4).foldl (fun d j => regSet d .abwIdkey 0 0 j (BitVec.ofNat 64 (bytesNat h (8 * j) 8))) d

/-- FW_END at a loading die (R603, R637, R639). Once its station is RUNNING its stacks train (R642): the HBM PLL has locked by then (R670). -/
def fwEnd (d : Dev) (die : Nat) : Dev :=
  let b := getBoot d die
  match supplySize d die with
  | none => d
  | some size =>
    if b.fw.length < size ∨ b.fw.length < fwBodyOff then refuseFw d die 1
    else
      let body := (b.fw.drop fwBodyOff).take (bytesNat b.fw 0x10 4)
      if sha256 body ≠ (b.fw.drop 0x20).take 32 then refuseFw d die 5
      else
        let d := setBoot d die { b with fwSize := none, digest := sha256 (b.fw.take 0x80), fw := [] }
        let d := rset (rset d .abwFw die 0 0 31 0 (bytesNat b.fw 8 4)) .abwFw die 0 0 47 32 (bytesNat b.fw 0x0C 2)
        let d := loadNormal (setPhase (rset (rset d .pkgClk die 0 0 1 1 1) .abwStation die 0 0 2 0 2) die 2 0) die body
        if die = 0 then dieZeroRuns d body else d

/-- FW_END (R637, R639). -/
def execFwEnd (s : State) : Host.Outcome State Fault Refusal :=
  runOk true [] (fun d => whenOn "FW_END" (d.pkg.released && !triHalted d) (matchDies (allDies d fwEnd))) s

/-! ### Training and self-test (R640 to R646) -/

/-- MESH_WAVE_START (R640, R641): the wave before has ended, and the dies of the wave are RUNNING. -/
def execMeshWaveStart (wave : Nat) (s : State) : Host.Outcome State Fault Refusal :=
  runOk (decide (wave < 16)) [] (fun d =>
    let links := waveLinks d wave
    let e := links.foldl (fun d l => bothEnds (rset d .pkgClk l.1 0 0 2 2 1) l.1 l.2 fun d x m => rset d .uciLink x 0 m 2 0 1) d
    whenOn "MESH_WAVE_START" (d.pkg.released && !triHalted d && decide (wave = d.pkg.wave + 1) && decide (wave ≤ waveCount d.part.dies) &&
        waveEnded d d.pkg.wave && links.all fun l => stationRuns d l.1)
      { e with pkg := { e.pkg with wave := wave } }) s

/-- A module comes UP with what its training found (R406, R436). -/
def linkUp (mode : BitVec 1) (half : Bool) (repaired : BitVec 16) (d : Dev) (x m : Nat) : Dev :=
  rset (rset (rset (rset d .uciLink x 0 m 2 0 2) .uciLink x 0 m 3 3 mode.toNat) .uciLink x 0 m 4 4 (b2n half)) .uciLink x 0 m 31 16 repaired.toNat

/-- MESH_LINK_TRAINED (R640, R641): a link of the wave is UP, or FAILED with both of its dies. -/
def execMeshLinkTrained (die m : Nat) (ok : Bool) (mode : BitVec 1) (half : Bool) (repaired : BitVec 16) (s : State) : Host.Outcome State Fault Refusal :=
  runOk (decide (die < 8) && decide (m < 4)) [die] (fun d =>
    whenOn "MESH_LINK_TRAINED" (decide (uciState d die m = 1))
      (if ok then bothEnds (bothEnds d die m (linkUp mode half repaired)) die m fun d x _ => doneCheck d x
       else bothEnds d die m fun d x m => failDie (rset d .uciLink x 0 m 2 0 4) x 4)) s

/-- A channel that training leaves live, or not (R642, R397). -/
def trainChannel (die : Nat) (failed : W32) (d : Dev) (c : Nat) : Dev :=
  if failed.getLsbD c then
    let d := chanSet (chanSet d .hbmChan die c 2 2 1) .hbmChan die c 3 3 1
    logErr (chanSet d .hbmChan die c 0 0 0) die ⟨hbmSrc c, 17, .none, .contained, 0, [c, 3]⟩
  else chanSet d .hbmChan die c 0 0 1

/-- HBM_TRAINING_DONE (R642, R643): the live channels hold zeros; fewer than 16 of them fail the die. -/
def execHbmTrainingDone (die : Nat) (failed : BitVec 32) (s : State) : Host.Outcome State Fault Refusal :=
  runOk (decide (die < 8)) [die] (fun d =>
    let b := getBoot d die
    let e := (List.range 32).foldl (trainChannel die failed) (setBoot d die { b with hbm := true })
    let e := memClear e (hbmKey die 0 0) (32 * 2 ^ 32)
    let n := (liveList e die).length
    let e := rset e .abwBoot die 0 0 13 8 n
    whenOn "HBM_TRAINING_DONE" (stationRuns d die && !b.hbm && !triHalted d) (if n < 16 then failDie e die 3 else doneCheck e die)) s

/-- The start-up self-test of a core that works (R645): its random sources have been seeded and have drawn. -/
def testCore (c : CoreId) (d : Dev) : Dev := modCore d c fun k => { k with w := { k.w with rng := selfTestRng } }

/-- One core's start-up self-test (R645, R646), with the cores and the lane groups it has fenced so far. -/
def startTest (die : Nat) (cores : List (Nat × SelfTest)) (r : Dev × Nat × Nat) (i : Nat) : Dev × Nat × Nat :=
  let c : CoreId := ⟨die, i⟩
  match cores.find? fun p => decide (p.1 = i) with
  | none => (testCore c r.1, r.2)
  | some p =>
    let t := selfTest r.1 c p.2
    (t.1, r.2.1 + b2n (!t.2), r.2.2 + b2n (decide ((getCore t.1 c).laneFence ≠ (getCore r.1 c).laneFence)))

/-- SELF_TEST_DONE (R645, R646, R655): the cores that failed, with what failed in each; the cores and lane groups that this test fences are counted.
A die whose trip gates its clocks (R673) tests nothing. -/
def execSelfTestDone (die : Nat) (cores : List (Nat × SelfTest)) (s : State) : Host.Outcome State Fault Refusal :=
  runOk (decide (die < 8)) [die] (fun d =>
    let b := getBoot d die
    let r := (List.range 144).foldl (startTest die cores) (setBoot d die { b with tested := true }, 0, 0)
    let e := rset (rset r.1 .abwBoot die 0 0 31 24 r.2.1) .abwBoot die 0 0 39 32 r.2.2
    whenOn "SELF_TEST_DONE" (stationRuns d die && !b.tested && !triHalted d && !tripped d die) (doneCheck e die)) s

/-- TICK_ALIGN (R647): after the last wave every die's count is 0 at one boundary. It is the next datum tick for the RW-L writes that wait (R23). -/
def execTickAlign (s : State) : Host.Outcome State Fault Refusal :=
  runOk true [] (fun d =>
    whenOn "TICK_ALIGN" (!d.pkg.aligned && !triHalted d && decide (d.pkg.wave = waveCount d.part.dies) && waveEnded d d.pkg.wave)
      { d with
        tick := 0
        live := d.live.map fun e => { e with since := 0 }
        pkg := { d.pkg with aligned := true, capTick := none, elapsed := sinceRelease d, releasedAt := 0 } }) s

/-! ### Silent dies and package ready (R648 to R650) -/

/-- Ticks of 1.5 s. -/
def silenceTicks : Nat := 30468750

/-- DIE_SILENCE (R648): 1.5 s have passed with no message from a die. -/
def execDieSilence (die : Nat) (s : State) : Host.Outcome State Fault Refusal :=
  runOk (decide (die < 8)) [die] (fun d =>
    let b := getBoot d die
    whenOn "DIE_SILENCE" (d.pkg.released && !pkgReady d && !b.silent && decide (silenceTicks ≤ sinceRelease d - b.heard))
      (allDies (setBoot d die { b with silent := true }) doneCheck)) s

/-- The map that die 0 accepts (R649, R656): PRESENT for the part's dies, ABSENT for the others. -/
def fullMap (n : Nat) : Nat := ((List.range n).map fun x => 2 * 2 ^ (3 * x)).sum

/-- Die 0 accepts READY (R649); a package with a die MISSING or UNREACHED (R650) or halted (R676) never becomes ready. -/
def triOk (d : Dev) (map : Nat) : Bool :=
  decide (map = fullMap d.part.dies) && d.pkg.aligned &&
    ((List.range d.part.dies).all fun die => decide (bootPhase d die = 3) && decide (bootFail d die = 0) && decide (dieMatch d / 2 ^ die % 2 = 1) &&
      !lost d die && !stopped d die)

/-- ABW_TRI with READY (R644, R649): package ready, or ignored and logged. What the register held is kept for the tick: a die that fails in it takes
the write back (R654). -/
def execAbwTriReady (map : BitVec 24) (s : State) : Host.Outcome State Fault Refusal :=
  runOk true [] (fun d =>
    .next (if pkgReady d ∨ !triOk d map.toNat then logIgnoredAt d .abwTri 0 0 0 (map.toNat + 2 ^ 24)
      else rset (rset (rset { d with pkg := { d.pkg with readyAt := some (d.tick, regGet d .abwTri 0 0 0) } } .abwTri 0 0 0 23 0 map.toNat) .abwTri 0 0 0 24 24 1) .abwTri 0 0 0 47 32 (min 0xFFFF (releaseMs d)))) s

/-! ### UCIe links (R410) -/

/-- UCIE_FLIT_REPLAY (R410, R641): once the package is ready, the adapter replays a flit. -/
def execUcieFlitReplay (die m : Nat) (s : State) : Host.Outcome State Fault Refusal :=
  runCmd (.ucieFlitReplay die m) (fun d =>
    whenOn "UCIE_FLIT_REPLAY" (pkgReady d && decide (uciState d die m = 2)) (rcount d .uciLink die 0 m 47 32 1)) s

/-- UCIE_RETRAIN (R410, R641): once the package is ready, a link-level failure begins a retrain at both ends. -/
def execUcieRetrain (die m : Nat) (s : State) : Host.Outcome State Fault Refusal :=
  runCmd (.ucieRetrain die m) (fun d =>
    whenOn "UCIE_RETRAIN" (pkgReady d && decide (uciState d die m = 2)) (bothEnds d die m fun d x m => rcount (rset d .uciLink x 0 m 2 0 3) .uciLink x 0 m 63 48 1)) s

/-- UCIE_RETRAIN_DONE (R410, R641): the link is UP again, and what waited for it goes on; or it is FAILED: after package ready a FATAL record and the halt, before it a failure of both
dies. -/
def execUcieRetrainDone (die m : Nat) (ok : Bool) (mode : BitVec 1) (half : Bool) (repaired : BitVec 16) (s : State) : Host.Outcome State Fault Refusal :=
  runOk (decide (die < 8) && decide (m < 4)) [die] (fun d =>
    let failed := bothEnds d die m fun d x m => rset d .uciLink x 0 m 2 0 4
    whenOn "UCIE_RETRAIN_DONE" (decide (uciState d die m = 3))
      (if ok then resumeWaits (bothEnds d die m (linkUp mode half repaired))
       else if pkgReady d then logFatal failed die (180 + m) 32 [m]
       else bothEnds failed die m fun d x _ => failDie d x 4)) s

end Sys2Proof.Machine
end

