-- ==== Sys2Proof/Machine/Pins.lean ====
section
/-!
DEFINITION. Package signals and resets (R629, R631, R660 to R663), rails (R664 to R666), PLLs (R670), the thermal trip (R673) and the JTAG test port
(R674, R675).
-/

namespace Sys2Proof.Machine

/-! ### Reset -/

/-- A TAP in Test-Logic-Reset (R674). -/
def Tap.reset : Tap := ⟨0x02, 0, 0⟩

/-- The device in package reset (R631): everything is as reset leaves it but for the fuses, the pins and a latched trip with its HBM_TRIP (R673, R679);
the model's own counters go on. -/
def packageReset (d : Dev) (pwrgd reset : Bool) : Dev :=
  let e := { Dev.reset with
    part := d.part
    serial := d.serial
    free := d.free
    pkg := { Dev.reset.pkg with pwrgd := pwrgd, reset := reset, trips := if pwrgd then d.pkg.trips else [] } }
  allDies e fun e die =>
    let e := rset e .abwFw die 0 0 63 48 (rfld d .abwFw die 0 0 63 48)
    if pwrgd then rset e .pkgTrip die 0 0 1 1 (rfld d .pkgTrip die 0 0 1 1) else e

/-- Ticks of 2 s, within which SVN_COMMIT answers (R616). -/
def burnTicks : Nat := 40625000

/-- Power goes from a die while its SVN count is being burned (R604): it is left between the old value and the new one (log 198). -/
def cutBurn (d : Dev) (die : Nat) : Dev :=
  match d.station.burn with
  | some b => if d.tick < b.since + burnTicks then
      let old := b.old.getD die 0
      let k := freeBelow d (rfld d .abwFw die 0 0 63 48 + 1 - old)
      rset k.2 .abwFw die 0 0 63 48 (old + k.1)
    else d
  | none => d

/-- PKG_PWRGD is asserted (R629). -/
def execPkgPwrgdAssert (s : State) : Host.Outcome State Fault Refusal :=
  runOk true [] (fun d => whenOn "PKG_PWRGD_ASSERT" (!d.pkg.pwrgd) { d with pkg := { d.pkg with pwrgd := true } }) s

/-- PKG_PWRGD is deasserted (R661, R665, R673): no state survives, a latched trip clears, and a burn in progress is cut short (R604). -/
def execPkgPwrgdDeassert (s : State) : Host.Outcome State Fault Refusal :=
  runOk true [] (fun d => whenOn "PKG_PWRGD_DEASSERT" d.pkg.pwrgd (packageReset (allDies d cutBurn) false d.pkg.reset)) s

/-- PKG_RESET_N goes active (R630, R631, R661). -/
def execPkgResetAssert (s : State) : Host.Outcome State Fault Refusal :=
  runOk true [] (fun d => whenOn "PKG_RESET_ASSERT" (!d.pkg.reset) (packageReset d d.pkg.pwrgd true)) s

/-- PKG_RESET_N goes inactive, and the straps are sampled (R662). -/
def execPkgResetDeassert (maddr : BitVec 2) (tmode : Bool) (s : State) : Host.Outcome State Fault Refusal :=
  runOk true [] (fun d =>
    whenOn "PKG_RESET_DEASSERT" d.pkg.reset { d with pkg := { d.pkg with reset := false, maddr := maddr, tmode := tmode } }) s

/-! ### Rails, clocks and temperature -/

/-- Nominal voltages of rails 0 to 9 in mV (R664). -/
def railNominal : List Nat := [750, 800, 750, 900, 1100, 400, 1800, 800, 1800, 750]

/-- A sample's distance from nominal, in mV. -/
def railDev (k mv : Nat) : Nat := let n := railNominal.getD k 0; (mv - n) + (n - mv)

/-- A sample of rail k lies outside ±8% (R666). -/
def railOut (k mv : Nat) : Bool := decide (8 * railNominal.getD k 0 < 100 * railDev k mv)

/-- One rail's sample (R666, R677): the second in a row outside ±8% writes a kind 48 entry and halts. -/
def railSample (die : Nat) (d : Dev) (x : BitVec 16 × Nat) : Dev :=
  let mv := x.1.toNat
  let k := x.2
  let out := railOut k mv
  let b := getBoot d die
  let again := out && tget false b.rails k
  let d := setBoot d die { b with rails := tset false b.rails k out }
  let d := rset (rset d .pkgRail die 0 k 15 0 mv) .pkgRail die 0 k 47 32 (max (railDev k mv) (rfld d .pkgRail die 0 k 47 32))
  if again then logFatal (rset d .pkgRail die 0 k 16 16 1) die srcAbw 48 [k] else d

/-- RAIL_SAMPLE (R666): once every 16 datum ticks, rails 0 to 8, and rail 9 on die 0. -/
def execRailSample (die : Nat) (mv : List (BitVec 16)) (s : State) : Host.Outcome State Fault Refusal :=
  runOk (decide (die < 8)) [die] (fun d =>
    whenOn "RAIL_SAMPLE" (d.pkg.pwrgd && decide (d.tick % 16 = 0) && decide (mv.length = if die = 0 then 10 else 9))
      (mv.zipIdx.foldl (railSample die) d)) s

/-- The die of an object slot's key. -/
def objDie (d : Dev) (k : Nat) : Nat :=
  let i := k % 2 ^ 16
  match k / 2 ^ 16 with
  | 1 => homeDie d i
  | 2 => i / 1152
  | 3 => i / 32
  | 6 => i / 4096
  | _ => 0

/-- One die goes into reset (R666): all it holds is lost but its fuses, and it does nothing more until a package reset. -/
def dieReset (d : Dev) (die : Nat) : Dev :=
  let d := cutBurn d die
  let off (k n : Nat) : Bool := decide (k / n ≠ die)
  let chip (k : Nat) : Bool :=
    decide (k < 2 ^ 48) || (if k < 2 ^ 49 then off (k - 2 ^ 48) (16 * 2 ^ 24) else off (k - 2 ^ 49) (144 * 2 ^ 21))
  let zero := decide (die = 0)
  let svn := rfld d .abwFw die 0 0 63 48
  let d := { d with
    regs := d.regs.filter fun p => off p.1 0x20000000
    shadow := d.shadow.filter fun p => off p.1 0x20000000
    live := d.live.filter fun p => off p.key 0x20000000
    mem := d.mem.filter fun p => chip p.1
    poison := d.poison.filter fun p => chip p.1
    cache := d.cache.filter fun p => decide (keyDie p.1 ≠ die)
    laneCounts := d.laneCounts.filter fun p => off p.1 (128 * 32)
    ueCounts := d.ueCounts.filter fun p => off p.1 32
    cores := d.cores.filter fun p => off p.1 144
    stakes := d.stakes.filter fun p => off p.1 16384
    hubs := d.hubs.filter fun p => off p.1 13
    events := d.events.filter fun e => decide (e.die ≠ die)
    objs := d.objs.filter fun p => decide (objDie d p.1 ≠ die)
    chans := d.chans.filter fun p => decide (homeDie d p.1 ≠ die)
    kvs := d.kvs.filter fun p => off p.1 4096
    kvReady := d.kvReady.filter fun p => off p.1 1
    kvFlush := d.kvFlush.filter fun p => off p.1 4
    expWait := d.expWait.filter fun p => off p.1 2
    expQ := d.expQ.filter fun p => off p.1 2
    links := d.links.filter fun p => off p.1 1
    xfers := d.xfers.filter fun x => decide (x.die ≠ die)
    colls := d.colls.filter fun x => decide (x.die ≠ die)
    ports := d.ports.filter fun p => off p.1 2
    sess := d.sess.filter fun p => off p.1 32
    pipes := d.pipes.filter fun p => off p.1 2
    boot := d.boot.filter fun p => off p.1 1
    taps := d.taps.filter fun p => off p.1 1
    normal := d.normal.filter fun p => off p.1 1
    admin := if zero then Dev.reset.admin else d.admin
    parcels := if zero then [] else d.parcels
    sched := if zero then Dev.reset.sched else d.sched
    groups := if zero then [] else d.groups
    meas := if zero then [] else d.meas
    station := if zero then Dev.reset.station else d.station
    mgmt := if zero then Dev.reset.mgmt else d.mgmt }
  rset (setRing d die { ErrRing.empty with halted := true }) .abwFw die 0 0 63 48 svn

/-- Rail 7 falls below 0.70 V (R666): the die enters reset without recording anything. -/
def execRail7Undervoltage (die : Nat) (s : State) : Host.Outcome State Fault Refusal :=
  runOk (decide (die < 8)) [die] (fun d => whenOn "RAIL7_UNDERVOLTAGE" d.pkg.pwrgd (dieReset d die)) s

/-- A die's comparator trips (R673, R679): the trip latches, its clocks are gated (`tripped`), and a kind 49 entry halts the package. A trip that has
latched does not trip again. -/
def tripDie (d : Dev) (die sensor : Nat) (reading : BitVec 8) (hbm : Bool) : Dev :=
  let d := if hbm then d else junctionPeak d die reading
  if tripped d die then d
  else
    let e := { d with pkg := { d.pkg with trips := tset false d.pkg.trips die true } }
    logFatal (if hbm then rset e .pkgTrip die 0 0 1 1 1 else e) die srcAbw 49 [sensor, reading.toNat]

/-- HBM_THERMAL_SAMPLE (R390, R391): once every 4,096 datum ticks a stack is read; a reading of 105 °C or more trips the die (R673), with the stack as the
sensor (log 196). -/
def execHbmThermalSample (die stack : Nat) (temp limit : BitVec 8) (s : State) : Host.Outcome State Fault Refusal :=
  runCmd (.hbmThermalSample die stack temp limit) (fun d =>
    let e := stackReading d die stack temp limit
    whenOn "HBM_THERMAL_SAMPLE" (decide (d.tick % 4096 = 0))
      (if 105 ≤ sbyte temp ∧ d.pkg.released = true then tripDie e die stack temp true else e)) s

/-- THERMAL_TRIP (R673, R679): two samples of a junction sensor at 115 °C or more, or a stack's reading at 105 °C or more. -/
def execThermalTrip (die sensor : Nat) (reading : BitVec 8) (hbm : Bool) (s : State) : Host.Outcome State Fault Refusal :=
  runOk (decide (die < 8) && decide (sensor < 16)) [die] (fun d =>
    let t := sbyte reading
    whenOn "THERMAL_TRIP" (d.pkg.pwrgd && d.pkg.released && decide ((if hbm then 105 else 115) ≤ t)) (tripDie d die sensor reading hbm)) s

/-- PLL_UNLOCK (R670, R678): a PLL that has locked loses lock. -/
def execPllUnlock (die pll : Nat) (s : State) : Host.Outcome State Fault Refusal :=
  runOk (decide (die < 8) && decide (pll < 4)) [die] (fun d =>
    whenOn "PLL_UNLOCK" (decide (rfld d .pkgClk die 0 0 pll pll = 1))
      (logFatal (rcount (rset d .pkgClk die 0 0 pll pll 0) .pkgClk die 0 0 31 16 1) die srcAbw 50 [pll])) s

/-! ### JTAG (R674, R675) -/

/-- The TAP of a die. -/
def getTap (d : Dev) (die : Nat) : Tap := tget Tap.reset d.taps die

/-- Writes a TAP. -/
def setTap (d : Dev) (die : Nat) (x : Tap) : Dev := { d with taps := tset Tap.reset d.taps die x }

/-- The TAPs run (R674). -/
def tapsRun (d : Dev) : Bool := d.pkg.pwrgd && !d.pkg.reset

/-- The boundary register drives die 0's balls. -/
def tapDrives (d : Dev) : Bool := decide ((getTap d 0).ir = 0) || decide ((getTap d 0).ir = 3)

/-- Every output is at high impedance: R661, or HIGHZ. -/
def highImpedance (d : Dev) : Bool := !tapsRun d || decide ((getTap d 0).ir = 4)

/-- PKG_READY at its ball (R649, R660, R663). -/
def ballReady (d : Dev) : Bool :=
  if highImpedance d then false else if tapDrives d then (getTap d 0).update.getLsbD 2 else pkgReady d

/-- PKG_ALERT_N at its ball: true is high, inactive (R586, R660). -/
def ballAlertN (d : Dev) : Bool :=
  if highImpedance d then true else if tapDrives d then (getTap d 0).update.getLsbD 3 else !alertActive d

/-- PKG_THERMTRIP_N at its ball (R660, R673). -/
def ballTripN (d : Dev) : Bool :=
  if highImpedance d then true else if tapDrives d then (getTap d 0).update.getLsbD 4 else d.pkg.trips.all fun p => !p.2

/-- PKG_I3C_SDA at its ball (R660, R674): the boundary register drives it low for an update value of 0; what else pulls the bus low is not known here
(the free value's bit). -/
def ballSda (d : Dev) : Bool := !(tapDrives d && !highImpedance d && !(getTap d 0).update.getLsbD 6) && (freeVal d).getLsbD 1

/-- What the boundary register of a die captures (R674): the levels at die 0's balls, of which the clock of the management bus is not known here; the
other dies' single cell connects to no ball. -/
def capture (d : Dev) (die : Nat) : BitVec 32 × Dev :=
  let v := (freeVal d).toNat
  if die = 0 then
    (BitVec.ofNat 32 (b2n d.pkg.pwrgd + 2 * b2n (!d.pkg.reset) + 4 * b2n (ballReady d) + 8 * b2n (ballAlertN d) + 16 * b2n (ballTripN d) + 32 * (v % 2) +
      64 * b2n (ballSda d) + 128 * d.pkg.maddr.toNat + 512 * b2n d.pkg.tmode), freeNext d)
  else (BitVec.ofNat 32 (v % 2), freeNext d)

/-- The identification of a part (R674). -/
def idcode (d : Dev) (die : Nat) : Nat :=
  (Config.stepping die).toNat % 16 * 2 ^ 28 + (if d.part.dies = 8 then 0xF108 else if d.part.dies = 4 then 0xF104 else 0xF102) * 2 ^ 12 + 0x3A5 * 2 + 1

/-- The length of the data register that a TAP's instruction selects (R674): the boundary, the identification, a private register (32 bits; log 199, DESIGN CHOICE),
or the bypass. -/
def drBits (die : Nat) (ir : BitVec 8) : Nat :=
  if ir.toNat ≤ 1 then (if die = 0 then 10 else 1)
  else if ir = 2 ∨ (8 ≤ ir.toNat ∧ ir.toNat < 16) then 32 else 1

/-- What the data register of a die's TAP captures: the bypass captures 0; what a private register holds is not described (R675). -/
def drCapture (d : Dev) (die : Nat) : BitVec 32 × Dev :=
  let ir := (getTap d die).ir
  if ir.toNat ≤ 1 then capture d die
  else if ir = 2 then (BitVec.ofNat 32 (idcode d die), d)
  else if 8 ≤ ir.toNat ∧ ir.toNat < 16 then ((freeVal d).setWidth 32, freeNext d)
  else (0, d)

/-- The n low bits of a register, in the order in which they leave it. -/
def shiftBits (n v : Nat) : List Bool := (List.range n).map v.testBit

/-- The data register of one TAP in a scan of the chain, and the bits that have left PKG_TDO before it (R674). -/
def scanTap (r : List Bool × Dev) (die : Nat) : List Bool × Dev :=
  let c := drCapture r.2 die
  let t := getTap r.2 die
  (r.1 ++ shiftBits (drBits die t.ir) c.1.toNat, setTap c.2 die { t with dr := c.1 })

/-- Loads an instruction into a die's TAP and scans the data registers (R674): PKG_TDO gives what every instruction register captured, 0b0000_0001 from
the last die to die 0, and then what every data register captured, in the same order. -/
def loadTap (row : String) (die : Nat) (ir : BitVec 8) (d : Dev) : Res :=
  let dies := (List.range d.part.dies).reverse
  let r := dies.foldl scanTap (dies.flatMap fun _ => shiftBits 8 1, setTap d die { getTap d die with ir := ir })
  whenOn row (tapsRun d) { r.2 with pkg := { r.2.pkg with tdo := r.1 } }

/-- Loads an instruction that selects the boundary register; after the capture the bits shifted in become its update values. -/
def loadBoundary (row : String) (die : Nat) (ir : BitVec 8) (bits : BitVec 10) (d : Dev) : Res :=
  match loadTap row die ir d with
  | .next e => .next (setTap e die { getTap e die with update := bits })
  | r => r

/-- PKG_TRST_N: the chain is in Test-Logic-Reset. -/
def execPkgTrst (s : State) : Host.Outcome State Fault Refusal := runOk true [] (fun d => .next { d with taps := [] }) s

/-- EXTEST: die 0's balls follow the boundary register, which captures their levels. A TAP that has EXTEST loaded scans its data register again, and what
PKG_TDI gives then, which the row does not name, becomes the update values (log 200, DESIGN CHOICE). -/
def execExtest (die : Nat) (s : State) : Host.Outcome State Fault Refusal :=
  runOk (decide (die < 8)) [die] (fun d =>
    if (getTap d die).ir = 0 then loadBoundary "EXTEST" die 0x00 ((freeVal d).setWidth 10) (freeNext d) else loadTap "EXTEST" die 0x00 d) s

/-- SAMPLE/PRELOAD: the boundary is captured and the update values are set. -/
def execSamplePreload (die : Nat) (bits : BitVec 10) (s : State) : Host.Outcome State Fault Refusal :=
  runOk (decide (die < 8)) [die] (loadBoundary "SAMPLE_PRELOAD" die 0x01 bits) s

/-- IDCODE. -/
def execIdcode (die : Nat) (s : State) : Host.Outcome State Fault Refusal :=
  runOk (decide (die < 8)) [die] (loadTap "IDCODE" die 0x02) s

/-- CLAMP: die 0's balls follow the boundary register; the data register is the bypass. -/
def execClamp (die : Nat) (s : State) : Host.Outcome State Fault Refusal :=
  runOk (decide (die < 8)) [die] (loadTap "CLAMP" die 0x03) s

/-- HIGHZ. -/
def execHighz (die : Nat) (s : State) : Host.Outcome State Fault Refusal :=
  runOk (decide (die < 8)) [die] (loadTap "HIGHZ" die 0x04) s

/-- BYPASS. -/
def execBypass (die : Nat) (s : State) : Host.Outcome State Fault Refusal :=
  runOk (decide (die < 8)) [die] (loadTap "BYPASS" die 0xFF) s

/-- A private instruction (R675), codes 0x08 to 0x0F: BYPASS unless JTAG_PRIV is set; with it, its data register is not described. -/
def execPrivateJtag (die : Nat) (code : BitVec 8) (s : State) : Host.Outcome State Fault Refusal :=
  runOk (decide (die < 8)) [die] (fun d =>
    if rfld d .abwStation die 0 0 4 4 = 1 ∧ 8 ≤ code.toNat ∧ code.toNat < 16 then
      loadTap "PRIVATE_JTAG" die code d
    else loadTap "PRIVATE_JTAG" die 0xFF d) s

end Sys2Proof.Machine
end

