-- ==== Sys2Proof/Machine/Scalar.lean ====
section
/-!
DEFINITION. The scalar class but for its loads and stores (R102): arithmetic on 64-bit two's-complement values, compares (R112),
immediates and address registers (R91).
-/

namespace Sys2Proof.Machine

/-- The effect of a scalar instruction that computes s[SD] from the registers it reads. -/
def scalarTo (row : String) (c : CoreId) (i : Instr) (reads : List Nat) (sd : Nat) (f : Dev → W64) (d : Dev) : Res :=
  issueStep row (.seq c) i (sd :: reads) (fun d => setSreg d c sd (f d)) d

/-- A scalar instruction of format S3 (R102). -/
def scalar3 (row : String) (c : CoreId) (i : Instr) (o : S3Op) (f : W64 → W64 → W64) (d : Dev) : Res :=
  scalarTo row c i [o.sa.toNat, o.sb.toNat] o.sd.toNat (fun d => f (sreg d c o.sa.toNat) (sreg d c o.sb.toNat)) d

/-- A scalar instruction of format SI (R102): the immediate is signed. -/
def scalarI (row : String) (c : CoreId) (i : Instr) (o : SiOp) (f : W64 → W64 → W64) (d : Dev) : Res :=
  scalarTo row c i [o.sa.toNat] o.sd.toNat (fun d => f (sreg d c o.sa.toNat) (o.imm.signExtend 64)) d

/-- SCL.ADD (R102): SD = SA + SB. -/
def execSclAdd (c : CoreId) (o : S3Op) (s : State) : Host.Outcome State Fault Refusal :=
  runCmd (.sclAdd c o) (scalar3 "SCL_ADD" c (.sclAdd c o) o fun x y => x + y) s

/-- SCL.SUB (R102): SD = SA − SB. -/
def execSclSub (c : CoreId) (o : S3Op) (s : State) : Host.Outcome State Fault Refusal :=
  runCmd (.sclSub c o) (scalar3 "SCL_SUB" c (.sclSub c o) o fun x y => x - y) s

/-- SCL.MUL (R102): SD = low 64 bits of SA × SB. -/
def execSclMul (c : CoreId) (o : S3Op) (s : State) : Host.Outcome State Fault Refusal :=
  runCmd (.sclMul c o) (scalar3 "SCL_MUL" c (.sclMul c o) o fun x y => x * y) s

/-- SCL.MULH (R102): SD = high 64 bits of the signed product. -/
def execSclMulh (c : CoreId) (o : S3Op) (s : State) : Host.Outcome State Fault Refusal :=
  runCmd (.sclMulh c o) (scalar3 "SCL_MULH" c (.sclMulh c o) o fun x y => BitVec.ofInt 64 (x.toInt * y.toInt / 2 ^ 64)) s

/-- SCL.AND (R102): bitwise. -/
def execSclAnd (c : CoreId) (o : S3Op) (s : State) : Host.Outcome State Fault Refusal :=
  runCmd (.sclAnd c o) (scalar3 "SCL_AND" c (.sclAnd c o) o fun x y => x &&& y) s

/-- SCL.OR (R102): bitwise. -/
def execSclOr (c : CoreId) (o : S3Op) (s : State) : Host.Outcome State Fault Refusal :=
  runCmd (.sclOr c o) (scalar3 "SCL_OR" c (.sclOr c o) o fun x y => x ||| y) s

/-- SCL.XOR (R102): bitwise. -/
def execSclXor (c : CoreId) (o : S3Op) (s : State) : Host.Outcome State Fault Refusal :=
  runCmd (.sclXor c o) (scalar3 "SCL_XOR" c (.sclXor c o) o fun x y => x ^^^ y) s

/-- SCL.SHL (R102): shift left by SB[5:0]. -/
def execSclShl (c : CoreId) (o : S3Op) (s : State) : Host.Outcome State Fault Refusal :=
  runCmd (.sclShl c o) (scalar3 "SCL_SHL" c (.sclShl c o) o fun x y => x <<< (y.toNat % 64)) s

/-- SCL.SHR (R102): logical shift right by SB[5:0]. -/
def execSclShr (c : CoreId) (o : S3Op) (s : State) : Host.Outcome State Fault Refusal :=
  runCmd (.sclShr c o) (scalar3 "SCL_SHR" c (.sclShr c o) o fun x y => x >>> (y.toNat % 64)) s

/-- SCL.SAR (R102): arithmetic shift right by SB[5:0]. -/
def execSclSar (c : CoreId) (o : S3Op) (s : State) : Host.Outcome State Fault Refusal :=
  runCmd (.sclSar c o) (scalar3 "SCL_SAR" c (.sclSar c o) o fun x y => x.sshiftRight (y.toNat % 64)) s

/-- SCL.MIN (R102): signed minimum. -/
def execSclMin (c : CoreId) (o : S3Op) (s : State) : Host.Outcome State Fault Refusal :=
  runCmd (.sclMin c o) (scalar3 "SCL_MIN" c (.sclMin c o) o fun x y => if x.slt y then x else y) s

/-- SCL.MAX (R102): signed maximum. -/
def execSclMax (c : CoreId) (o : S3Op) (s : State) : Host.Outcome State Fault Refusal :=
  runCmd (.sclMax c o) (scalar3 "SCL_MAX" c (.sclMax c o) o fun x y => if x.slt y then y else x) s

/-- SCL.CMP (R102): SD = 1 if SA CC SB holds, else 0. -/
def execSclCmp (c : CoreId) (o : S3Op) (s : State) : Host.Outcome State Fault Refusal :=
  runCmd (.sclCmp c o) (scalar3 "SCL_CMP" c (.sclCmp c o) o fun x y => BitVec.ofNat 64 (b2n (intCC o.cc.toNat x y))) s

/-- SCL.ADDI (R102): SD = SA + IMM. -/
def execSclAddi (c : CoreId) (o : SiOp) (s : State) : Host.Outcome State Fault Refusal :=
  runCmd (.sclAddi c o) (scalarI "SCL_ADDI" c (.sclAddi c o) o fun x y => x + y) s

/-- SCL.CMPI (R102): SD = 1 if SA CC IMM holds, else 0. -/
def execSclCmpi (c : CoreId) (o : SiOp) (s : State) : Host.Outcome State Fault Refusal :=
  runCmd (.sclCmpi c o) (scalarI "SCL_CMPI" c (.sclCmpi c o) o fun x y => BitVec.ofNat 64 (b2n (intCC o.cc.toNat x y))) s

/-- SCL.MOVI (R102): SD = IMM[39:0] sign-extended. -/
def execSclMovi (c : CoreId) (o : SwOp) (s : State) : Host.Outcome State Fault Refusal :=
  runCmd (.sclMovi c o) (scalarTo "SCL_MOVI" c (.sclMovi c o) [] o.sd.toNat fun _ => o.imm.signExtend 64) s

/-- SCL.MOVH (R102): SD[63:40] = IMM[23:0]; SD[39:0] unchanged. -/
def execSclMovh (c : CoreId) (o : SwOp) (s : State) : Host.Outcome State Fault Refusal :=
  runCmd (.sclMovh c o) (scalarTo "SCL_MOVH" c (.sclMovh c o) [] o.sd.toNat fun d =>
    setFld (sreg d c o.sd.toNat) 63 40 (fld o.imm 23 0)) s

/-- SCL.MOVA (R102, R91): AD = s[SB]. -/
def execSclMova (c : CoreId) (o : SaOp) (s : State) : Host.Outcome State Fault Refusal :=
  runCmd (.sclMova c o) (issueStep "SCL_MOVA" (.seq c) (.sclMova c o) [o.sb.toNat] fun d =>
    setAreg d c o.ad.toNat ((sreg d c o.sb.toNat).setWidth 52)) s

/-- SCL.MOVS (R102): s[SB] = AA, zero-extended. -/
def execSclMovs (c : CoreId) (o : SaOp) (s : State) : Host.Outcome State Fault Refusal :=
  runCmd (.sclMovs c o) (scalarTo "SCL_MOVS" c (.sclMovs c o) [] o.sb.toNat fun d => (areg d c o.aa.toNat).setWidth 64) s

/-- SCL.ADDA (R102, R91): AD = AA + s[SB], modulo 2^52. -/
def execSclAdda (c : CoreId) (o : SaOp) (s : State) : Host.Outcome State Fault Refusal :=
  runCmd (.sclAdda c o) (issueStep "SCL_ADDA" (.seq c) (.sclAdda c o) [o.sb.toNat] fun d =>
    setAreg d c o.ad.toNat (areg d c o.aa.toNat + (sreg d c o.sb.toNat).setWidth 52)) s

/-- SCL.ADDAI (R102, R91): AD = AA + IMM sign-extended, modulo 2^52. -/
def execSclAddai (c : CoreId) (o : SaOp) (s : State) : Host.Outcome State Fault Refusal :=
  runCmd (.sclAddai c o) (issueStep "SCL_ADDAI" (.seq c) (.sclAddai c o) [] fun d =>
    setAreg d c o.ad.toNat (areg d c o.aa.toNat + o.imm.signExtend 52)) s

end Sys2Proof.Machine
end

