-- ==== Sys2Proof/Machine/RegAccess.lean ====
section
/-!
DEFINITION. Accesses to register space (R20 to R26): what lies at an offset, reads, and writes by access code, with the rows that a register's own
behaviour belongs to; scalar loads and stores (R41, R102, R117, R124); the command die's accesses (R411); and the writes that wait (R23, R24).
-/

namespace Sys2Proof.Machine

/-! ### What lies at an offset -/

/-- What a 32-bit word of register space belongs to: a register (its page and item, and whether the word is its upper half), a word of a stake's
entry (R71 to R75), a hub's count (R76), or a word of an error entry (R597). -/
inductive RegHit where
  | reg (n : RegName) (i j : Nat) (hi : Bool)
  | stake (id : StakeId) (w : Nat)
  | hub (h : Nat)
  | err (e w : Nat)
deriving DecidableEq, Repr

/-- The page of a register's scope that holds an offset, and the offset in it (R20). -/
def scopePage (s : RegScope) (off : Nat) : Option (Nat × Nat) :=
  match s with
  | .core => if off < 0x900000 then some (off / 0x10000, off % 0x10000) else none
  | .hbm => if 0x10000000 ≤ off ∧ off < 0x12000000 then some ((off - 0x10000000) / 0x1000000, off % 0x1000000) else none
  | .block b => if off / 0x1000000 = 16 + b then some (0, off % 0x1000000) else none

/-- The item of a register that holds an offset of its page. -/
def RegName.hit (n : RegName) (off : Nat) : Option RegHit :=
  let r := n.row
  match scopePage r.scope off with
  | none => none
  | some (i, rel) =>
    let k := rel - r.base
    let j := if r.stride = 0 then 0 else k / r.stride
    let w := if r.stride = 0 then k else k % r.stride
    if r.base ≤ rel ∧ j < r.count ∧ w < r.width / 8 then some (.reg n i j (decide (4 ≤ w))) else none

/-- A register stands on a die: those of the package on die 0, a channel's on its home die, CMD_ARRIVE on the home dies (R413). -/
def standsOn (d : Dev) (die : Nat) : RegHit → Bool
  | .reg n _ j _ =>
    match n with
    | .cmdDoorbell | .cmdChanCtl | .cmdSubmit | .cmdCompl | .cmdChanStat => decide (homeDie d j = die)
    | .cmdArrive => decide (die = 0) || (decide (die = 4) && decide (d.part.dies = 8))
    | _ => regOn n die
  | _ => true

/-- The word at an offset, a multiple of 4, of a die's register space. -/
def hitAt (d : Dev) (die off : Nat) : Option RegHit :=
  let stake (idx w : Nat) : RegHit := .stake (BitVec.ofNat 17 (die * 16384 + idx)) w
  if 0x1000000 ≤ off ∧ off < 0x1C00000 then
    let k := (off - 0x1000000) / 0x100000
    let rel := off % 0x100000
    if rel = 0x100 then some (.hub k)
    else if 0x80000 ≤ rel ∧ rel < 0x80000 + 1280 * 16 then some (stake (1280 * k + (rel - 0x80000) / 16) (rel % 16 / 4))
    else none
  else if off = 0x12000100 then some (.hub 12)
  else if 0x12800000 ≤ off ∧ off < 0x12800000 + 1024 * 16 then some (stake (15360 + (off - 0x12800000) / 16) (off % 16 / 4))
  else if 0x17001000 ≤ off ∧ off < 0x17002000 then some (.err ((off - 0x17001000) / 64) (off % 64 / 4))
  else (RegName.all.findSome? fun n => n.hit off).bind fun x => if standsOn d die x then some x else none

/-! ### Reads -/

/-- STK_CTL (R73). -/
def stakeCtlWord (s : Stake) : Nat := b2n s.enable + 2 * b2n s.event + 8 * b2n s.autoReset + 2 ^ 8 * s.parcel

/-- STK_STATUS (R75); with AUTO_RESET a TARGET of 0 counts as 1 here too (R64). -/
def stakeStatus (id : StakeId) (s : Stake) : Nat :=
  let at' (n : Nat) : Bool := s.waiters.any fun x => match waiterCore x.w with
    | some c => !x.remote && decide (c.die = stakeDie id) && decide (stakeHub id < 12) && decide (c.core = 12 * stakeHub id + n)
    | none => false
  b2n s.complete + 2 * b2n s.saturated + 4 * b2n s.faulted + 8 * b2n (s.waiters.any StakeWait.polling) +
    ((List.range 12).map fun n => 2 ^ (16 + n) * b2n (at' n)).sum + 2 ^ 28 * b2n (s.waiters.any fun x => x.remote && !x.polling)

/-- A 32-bit word of register space: zero where no register lies (R20). -/
def regWord (d : Dev) (die off : Nat) : Nat :=
  match hitAt d die off with
  | none => 0
  | some (.reg n i j hi) => if hi then fld (regView d n die i j) 63 32 else fld (regView d n die i j) 31 0
  | some (.stake id w) =>
    let s := getStake d id
    match w with
    | 0 => s.count.toNat
    | 1 => s.target.toNat
    | 2 => stakeCtlWord s
    | _ => stakeStatus id s
  | some (.hub h) => let x := getHub d die h; x.pollWaits + 2 ^ 16 * x.remotePeak
  | some (.err e w) => if w % 2 = 0 then fld (errWord d die e (w / 2)) 31 0 else fld (errWord d die e (w / 2)) 63 32

/-- A register access that reaches a hub is made behind the operations queued at port 3 (R62). -/
def reachHub (d : Dev) (die off : Nat) : Dev :=
  match hitAt d die (off - off % 4) with
  | some (.stake id _) => atHub d id
  | some (.hub h) => servePort3 d die h
  | _ => d

/-- A read of n bytes, aligned to its size, of registers as they stand. -/
def regShow (d : Dev) (die off n : Nat) : Nat :=
  if n = 8 then regWord d die off + 2 ^ 32 * regWord d die (off + 4)
  else nfld (regWord d die (off - off % 4)) (8 * (off % 4) + 8 * n - 1) (8 * (off % 4))

/-- A read of n bytes, aligned to its size. -/
def regRead (d : Dev) (die off n : Nat) : Dev × Nat :=
  let d := reachHub d die off
  (d, regShow d die off n)

/-! ### Writes -/

/-- The effect of a row that a register write performs; where the row cannot come about, nothing happens. -/
def viaRow (f : State → Host.Outcome State Fault Refusal) (d : Dev) : Dev :=
  match f ⟨d, []⟩ with
  | .next s => s.dev
  | _ => d

/-- A word with the bits of M taken from V. -/
def mergeBits (old M V : W64) : W64 := (old &&& ~~~M) ||| (V &&& M)

/-- The bits that wait for a register's boundary, over its stored value. -/
def overlay (t : Tbl PendingWrite) (k : Nat) (v : W64) : W64 :=
  let p := tget ⟨0, 0, 0⟩ t k
  mergeBits v p.mask p.val

/-- The bits that wait for a register's tick, over its stored value, the later write standing (R24). -/
def lateOver (l : List LateWrite) (k : Nat) (v : W64) : W64 :=
  (l.filter fun w => decide (w.key = k)).foldl (fun v w => mergeBits v w.mask w.val) v

/-- The schedule is on and runs from a bank. -/
def bankLocked (d : Dev) (b : Nat) : Bool := schedOn d && decide (d.sched.bank = b)

/-- A field is locked (R25). -/
def fieldLocked (d : Dev) (n : RegName) (die j lo : Nat) : Bool :=
  match n with
  | .kvsList | .kvsGeom | .kvsStage | .kvsExport | .kvsRemote | .kvsStakes =>
    let st := kvSt d (die * 4096 + j)
    decide (st = 1) || decide (st = 2)
  | .cmdEvtCtl => decide (lo < 57) && decide (rfld d .cmdEvtCtl 0 0 0 57 57 = 1)
  | .schCtl => (decide (lo = 8) && bankLocked d 0) || (decide (lo = 16) && bankLocked d 1)
  | .schSlot => bankLocked d (j / 256)
  | .abwTri => decide (lo = 0) && pkgReady d
  | _ => false

/-- A value that its field does not take. -/
def fieldRefuses (d : Dev) (n : RegName) (lo v : Nat) : Bool :=
  match n with
  | .cmdEvtCtl => decide (lo = 52) && (decide (v < 6) || decide (20 < v))
  | .schSlot => decide (lo = 0) && decide (v = 0)
  | .zlkCtl => decide (lo = 2) && decide (v = 0)
  | .resHold => decide (lo = 0) && decide (11 < v)
  | .resArb => decide (lo = 0) && decide (v = 0)
  | .medCtl => decide (100 < v)
  | .errCtl => decide (lo = 0) && decide (3 < v)
  | .abwEnvelope => decide (lo = 16) && !limitOk d v
  | _ => false

/-- A cube is at the boundary of an operation (R23): none runs, or the one that runs has issued no step yet, in its prologue too (log 139, DESIGN
CHOICE). -/
def cubeBetween (d : Dev) (c : CoreId) (u : Nat) : Bool :=
  match (getCube d c u).run with
  | none => true
  | some o => decide (o.step = 0)

/-- The block of an RW-S field runs (R23): its cube or cubes are at work, or, for RES_HOLD, a core of the die runs a part (log 139, DESIGN CHOICE). -/
def blockRuns (d : Dev) (n : RegName) (die i j : Nat) : Bool :=
  match n with
  | .cubeCtl => (getCube d ⟨die, i⟩ j).run.isSome
  | .cubeRelay => (List.range 4).any fun u => (getCube d ⟨die, i⟩ u).run.isSome
  | _ => (coresOf die).any fun c => decide ((getCore d c).sched = 1)

/-- The block of an RW-S field is at an operation boundary (R23); for RES_HOLD every moment is one, since no operation spans two requests of a
slice (log 139, DESIGN CHOICE). -/
def atBoundary (d : Dev) (n : RegName) (die i j : Nat) : Bool :=
  match n with
  | .cubeCtl => cubeBetween d ⟨die, i⟩ j
  | .cubeRelay => (List.range 4).all (cubeBetween d ⟨die, i⟩)
  | _ => true

/-- A write to RW-S bits waits for the operation boundary (R23, R24). -/
def pendShadow (d : Dev) (n : RegName) (die i j hi lo v : Nat) : Dev :=
  let k := regKey n die i j
  let p := tget ⟨0, 0, 0⟩ d.shadow k
  { d with shadow := tset ⟨0, 0, 0⟩ d.shadow k ⟨setFld p.mask hi lo (2 ^ (hi + 1 - lo) - 1), setFld p.val hi lo v, d.tick⟩ }

/-- Writes to RW-S bits that waited and that a write taking effect at once replaces no longer wait (R24). -/
def unpendShadow (d : Dev) (n : RegName) (die i j hi lo : Nat) : Dev :=
  let k := regKey n die i j
  let p := tget ⟨0, 0, 0⟩ d.shadow k
  let m := setFld p.mask hi lo 0
  { d with shadow := tset ⟨0, 0, 0⟩ d.shadow k (if m = 0 then ⟨0, 0, 0⟩ else { p with mask := m }) }

/-- The write of one field by its access code (R23 to R26); the second part tells that something was ignored that has to be logged: every write to a
locked field (R25), and a value that the field does not take. -/
def writeField (n : RegName) (die i j : Nat) (M V : W64) (r : Dev × Bool) (f : RegField) : Dev × Bool :=
  let d := r.1
  let old := regGet d n die i j
  let k := regKey n die i j
  let new (x : W64) : Nat := fld (mergeBits x M V) f.hi f.lo
  if fld M f.hi f.lo = 0 then r
  else match f.acc with
    | .ro | .wo => r
    | .w1c => (regSet d n die i j (old &&& ~~~(setFld 0 f.hi f.lo (fld (V &&& M) f.hi f.lo))), r.2)
    | .rw =>
      if fieldLocked d n die j f.lo then (d, true)
      else if fieldRefuses d n f.lo (new old) then (d, true)
      else (rset d n die i j f.hi f.lo (new old), r.2)
    | .rws =>
      let v := new (overlay d.shadow k old)
      if fieldRefuses d n f.lo v then (d, true)
      else if blockRuns d n die i j then (pendShadow d n die i j f.hi f.lo v, r.2)
      else (rset (unpendShadow d n die i j f.hi f.lo) n die i j f.hi f.lo v, r.2)
    | .rwl =>
      let v := new (lateOver d.live k old)
      if fieldRefuses d n f.lo v then (d, true) else (pendLive d n die i j f.hi f.lo v, r.2)

/-- The write of a register's fields; what is ignored is logged (R25). -/
def writeFields (d : Dev) (n : RegName) (die i j : Nat) (M V : W64) : Dev :=
  let r := n.row.fields.foldl (writeField n die i j M V) (d, false)
  if r.2 then logIgnoredAt r.1 n die i j V.toNat else r.1

/-- A write to a register: bits of M take the values of V. Where a row stands for what a field does, the write performs that row. Before package ready any
write to a register of R652 is ignored and logged; the records of what came before CMD_EVT_CTL.ENABLE is set are never written (R652; log 193, DESIGN CHOICE). -/
def regWrite (d : Dev) (n : RegName) (die i j : Nat) (M V : W64) : Dev :=
  let c : CoreId := ⟨die, i⟩
  let wr (hi lo : Nat) : Bool := decide (fld M hi lo ≠ 0)
  let v (hi lo : Nat) : Nat := fld (V &&& M) hi lo
  let whole : W64 := mergeBits (regGet d n die i j) M V
  let plain (d : Dev) : Dev := writeFields d n die i j M V
  let log (d : Dev) : Dev := logIgnoredAt d n die i j V.toNat
  let early (d : Dev) : Dev := if pkgReady d then d else log d
  let on (b : Bool) (f : State → Host.Outcome State Fault Refusal) (d : Dev) : Dev := if b then viaRow f d else d
  match n with
  | .cubeCtl => on (decide (v 0 0 = 1)) (execCubeInject c j (decide (v 1 1 = 1))) (plain d)
  | .cubeFence => on (decide (v 3 3 = 1)) (execFenceReq c) (plain d)
  | .cubeRelay =>
    let x := mergeBits (overlay d.shadow (regKey n die i j) (regGet d n die i j)) M V
    if 384 < fld x 8 0 + fld x 24 16 then log d else plain d
  | .pkgRail => if entryOn n die j then plain d else d
  | .hbmMap => hbmMapWrite d die (wr 1 0) (wr 14 8) (BitVec.ofNat 32 (fld whole 31 0))
  | .resSliceCfg => on (wr 15 0) (execResSliceCfgWrite die (BitVec.ofNat 32 (fld whole 31 0))) d
  | .resHold => on (decide (v 4 4 = 1)) (execReleaseAll die) (plain d)
  | .hbmRetire => on true (execHbmRetireWrite die j whole) d
  | .cmdDoorbell => if wr 31 0 then doorbellWrite d j (BitVec.ofNat 32 (v 31 0)) else early d
  | .cmdArrive => if wr 16 0 then arriveWrite d die (BitVec.ofNat 17 (v 16 0)) (BitVec.ofNat 16 (v 47 32)) else early d
  | .cmdAdminReq =>
    if !wr 3 0 then early d
    else if v 3 0 = 1 then openRequest d (decide (v 4 4 = 1)) (v 15 8) (v 31 16)
    else if v 3 0 = 2 then closeRequest d (BitVec.ofNat 32 (v 63 32))
    else log d
  | .cmdCompl => if wr 63 32 then complHeadWrite d j (BitVec.ofNat 32 (fld (mergeBits (regView d n die i j) M V) 63 32)) else d
  | .cmdEvtPtr => if wr 63 32 then evtHeadWrite d (BitVec.ofNat 32 (fld whole 63 32)) else d
  | .cmdEvtCtl =>
    let e := plain d
    if rfld d .cmdEvtCtl 0 0 0 57 57 = 0 ∧ rfld e .cmdEvtCtl 0 0 0 57 57 = 1 then { e with events := [] } else e
  | .pclRebuild => if v 0 0 = 1 then viaRow (execPclRebuildSet die) d else on (wr 0 0) (execPclRebuildClear die) d
  | .coreSched => on (wr 17 17 && decide (v 17 17 = 0)) (execTagValidClear c) d
  | .schCtl => on (decide (v 2 2 = 1)) execSchSwitch (plain d)
  | .zlkCtl => on (decide (v 1 1 = 1)) (execZlkStop die j) (on (decide (v 0 0 = 1)) (execZlkTrain die j) (plain d))
  | .zlkVcCfg => on true (execZlkVcCfgWrite die j whole) d
  | .zlkId => on (wr 15 0) (execZlkIdWrite (BitVec.ofNat 16 (fld whole 15 0))) d
  | .errStat =>
    let r := getRing d die
    let x := mergeBits (regView d n die i j) M V
    alertEdge (setRing d die { r with dropped := fld x 31 16, overflow := r.overflow && decide (v 10 10 = 0) })
  | .errAck =>
    if v 6 6 = 1 then viaRow (execErrAckAll die) d else on (wr 5 0) (execErrAckIndex die (v 5 0)) d
  | .errCoreRst => on (decide (v 8 8 = 1)) (execErrCoreRst die (BitVec.ofNat 8 (v 7 0))) d
  | .abwEnvelope =>
    on (wr 3 0) (execEnvelopeClustersWrite (BitVec.ofNat 4 (fld whole 3 0))) (writeFields d n die i j (M &&& ~~~0xF) V)
  | .abwReq =>
    if !wr 53 52 then d
    else if v 53 52 = 1 then viaRow (execAbwReqAttest (BitVec.ofNat 52 (v 51 0))) d
    else if v 53 52 = 2 then viaRow (execAbwReqExtend (BitVec.ofNat 52 (v 51 0)) (BitVec.ofNat 3 (v 56 54))) d
    else log d
  | .abwTri =>
    if v 24 24 = 1 then viaRow (execAbwTriReady (BitVec.ofNat 24 (fld whole 23 0))) d
    else writeFields d n die i j (M &&& ~~~(setFld 0 24 24 1)) V
  | _ => plain d

/-- A write to a word of a stake's entry (R71 to R75): bits of m take the values of v. -/
def stakeWrite (d : Dev) (id : StakeId) (w m v : Nat) : Dev :=
  let d := atHub d id
  let s := getStake d id
  let mix (old : Nat) : W32 := BitVec.ofNat 32 (mergeBits (BitVec.ofNat 64 old) (BitVec.ofNat 64 m) (BitVec.ofNat 64 v)).toNat
  let bits := Nat.land m v
  if m = 0 then d
  else match w with
    | 0 => d
    | 1 => stakeTarget d id (mix s.target.toNat)
    | 2 => stakeCtl d id (mix (stakeCtlWord s))
    | _ => setStake d id { s with saturated := s.saturated && !Nat.testBit bits 1, faulted := s.faulted && !Nat.testBit bits 2 }

/-- A write to one 32-bit word of register space. -/
def wordWrite (d : Dev) (die off m v : Nat) : Dev :=
  match hitAt d die off with
  | none | some (.err _ _) => d
  | some (.reg n i j hi) => let s := if hi then 2 ^ 32 else 1; regWrite d n die i j (BitVec.ofNat 64 (m * s)) (BitVec.ofNat 64 (v * s))
  | some (.stake id w) => stakeWrite d id w m v
  | some (.hub h) =>
    let d := servePort3 d die h
    let x := getHub d die h
    setHub d die h { x with pollWaits := fld (mergeBits (BitVec.ofNat 64 x.pollWaits) (BitVec.ofNat 64 m) (BitVec.ofNat 64 v)) 15 0 }

/-- A write of n bytes, aligned to its size: one write to a 64-bit register, and one to each 32-bit register that it covers. -/
def regStore (d : Dev) (die off n v : Nat) : Dev :=
  if n = 8 then
    match hitAt d die off, hitAt d die (off + 4) with
    | some (.reg n i j false), some (.reg n' i' j' true) =>
      if n = n' ∧ i = i' ∧ j = j' then regWrite d n die i j (BitVec.allOnes 64) (BitVec.ofNat 64 v)
      else wordWrite (wordWrite d die off (2 ^ 32 - 1) (v % 2 ^ 32)) die (off + 4) (2 ^ 32 - 1) (v / 2 ^ 32 % 2 ^ 32)
    | _, _ => wordWrite (wordWrite d die off (2 ^ 32 - 1) (v % 2 ^ 32)) die (off + 4) (2 ^ 32 - 1) (v / 2 ^ 32 % 2 ^ 32)
  else
    let s := 2 ^ (8 * (off % 4))
    wordWrite d die (off - off % 4) ((2 ^ (8 * n) - 1) * s) (v % 2 ^ (8 * n) * s)

/-- REGISTER_WRITE (R20, R23, R25): a write of the command die, which waits for a link that retrains (R410, R435); an address that R21 refuses is not
written. -/
def execRegisterWrite (addr : BitVec 52) (size : Nat) (v : BitVec 64) (s : State) : Host.Outcome State Fault Refusal :=
  runOk (decide (size ∈ [1, 2, 4, 8]) && decide (addr.toNat % size = 0) && decide (addr.toNat / 2 ^ 50 = 3)) [] (fun d =>
    match resolve d addr with
    | some (.reg die off) => whenOn "REGISTER_WRITE" (!commandBusy d die) (regStore d die off size v.toNat)
    | _ => .next d) s

/-! ### Writes that wait (R23, R24) -/

/-- SHADOW_WRITE_APPLY (R23, R24): at its block's operation boundary the bits that wait for a register take effect. -/
def execShadowWriteApply (addr : BitVec 52) (s : State) : Host.Outcome State Fault Refusal :=
  runOk true [] (fun d =>
    match resolve d addr with
    | some (.reg die off) =>
      match hitAt d die (off - off % 4) with
      | some (.reg n i j _) =>
        let k := regKey n die i j
        let p := tget ⟨0, 0, 0⟩ d.shadow k
        whenOn "SHADOW_WRITE_APPLY" (decide (p.mask ≠ 0) && atBoundary d n die i j)
          (regSet { d with shadow := tset ⟨0, 0, 0⟩ d.shadow k ⟨0, 0, 0⟩ } n die i j (mergeBits (regGet d n die i j) p.mask p.val))
      | _ => .refused (.notEnabled "SHADOW_WRITE_APPLY")
    | _ => .refused (.notEnabled "SHADOW_WRITE_APPLY")) s

/-- A register stored by its key. -/
def keySet (d : Dev) (p : LateWrite) : Dev :=
  let k := p.key
  let hit : Option (RegName × Nat × Nat) := RegName.all.findSome? fun n => match n.hit (k % 0x20000000) with
    | some (.reg n i j false) => some (n, i, j)
    | _ => none
  match hit with
  | some (n, i, j) => regSet d n (k / 0x20000000) i j (mergeBits (regGet d n (k / 0x20000000) i j) p.mask p.val)
  | none => d

/-- What SCH_CTL.ENABLE brings as it changes (R468, R479): set, CYCLES counts from 0 and the first cycle begins at a tick boundary; cleared, no slot
runs. -/
def enableEdge (was : Bool) (d : Dev) : Dev :=
  if schedOn d = was then d
  else if was then { d with sched := { d.sched with running := false, starting := false } }
  else { d with sched := { d.sched with running := false, starting := true, slot := 0, cycles := 0 } }

/-- LIVE_WRITE_APPLY (R23, R24, R81): every RW-L write made before this tick takes effect on every die; PKG_ALERT_N follows ALERT_SEV (R586). -/
def execLiveWriteApply (s : State) : Host.Outcome State Fault Refusal :=
  runOk true [] (fun d =>
    let due := d.live.filter fun e => decide (e.since ≤ d.tick)
    let e := due.foldl keySet { d with live := d.live.filter fun e => decide (d.tick < e.since) }
    whenOn "LIVE_WRITE_APPLY" (!due.isEmpty) (alertEdge (enableEdge (schedOn d) e))) s

/-! ### Scalar loads and stores -/

/-- The answer to a scalar load of a core of die x (R41, R117, R21, R384, R386): none while it waits for a link (R410) or for slices (R370). Register space is reached whole, the
stakes' registers too (R41; log 151, DESIGN CHOICE). -/
def scalarRead (d : Dev) (x : Nat) (a : Addr) (n : Nat) : Option (Dev × Except FaultCode Nat) :=
  if misBy n a.toNat then some (d, .error .misaligned)
  else match resolve d a with
    | none => some (d, .error .addressAbsent)
    | some (.reg die off) => if routeBusy d x die then none else let r := regRead d die off n; some (r.1, .ok r.2)
    | some p =>
      if reachBusy d x p then none
      else match devRead d a n false with
        | (d, .error f) => some (d, .error f)
        | (d, .ok b) => some (d, .ok (leNat b))

/-- The effect of a scalar store of a core of die x; the regions of loaded images are read-only (R124). Alignment is tested
first, then whether the address exists, then the region (log 186, DEDUCED). It is visible to every agent at once (log 152, DESIGN CHOICE). -/
def scalarWrite (d : Dev) (x : Nat) (a : Addr) (n v : Nat) : Option (Dev × Except FaultCode Unit) :=
  if misBy n a.toNat then some (d, .error .misaligned)
  else match resolve d a with
    | none => some (d, .error .addressAbsent)
    | some (.reg die off) => if routeBusy d x die then none else some (regStore d die off n v, .ok ())
    | some p =>
      if isReadonly d a n then some (d, .error .spaceDenied)
      else if reachBusy d x p then none
      else some (devWrite d a (leBytes n v))

/-- The address of an SM operand (R94): AR plus the signed byte offset, modulo 2^52 (R91). -/
def smAddr (d : Dev) (c : CoreId) (o : SmOp) : Addr := areg d c o.ar.toNat + o.off.signExtend 52

/-- SIZE in bytes (R94). -/
def smBytes (o : SmOp) : Nat := 2 ^ o.size.toNat

/-- SCL.LD (R41, R94, R102): the loaded value is sign-extended with SX, else zero-extended. -/
def execSclLd (c : CoreId) (o : SmOp) (s : State) : Host.Outcome State Fault Refusal :=
  runCmd (.sclLd c o) (issue "SCL_LD" (.seq c) (.sclLd c o) [o.sd.toNat] fun d w =>
    let n := smBytes o
    match scalarRead d c.die (smAddr d c o) n with
    | none => .next d
    | some (d, .error f) => .next (agentFault d (.seq c) f 0 (agentPc d (.seq c)) w)
    | some (d, .ok v) =>
      .next (stepPc (setSreg d c o.sd.toNat (if o.sx = 1 then BitVec.ofInt 64 (sxt (8 * n) v) else BitVec.ofNat 64 v)) (.seq c))) s

/-- SCL.ST (R41, R94, R102, R124): the low SIZE bytes of SD are stored. -/
def execSclSt (c : CoreId) (o : SmOp) (s : State) : Host.Outcome State Fault Refusal :=
  runCmd (.sclSt c o) (issue "SCL_ST" (.seq c) (.sclSt c o) [o.sd.toNat] fun d w =>
    let n := smBytes o
    match scalarWrite d c.die (smAddr d c o) n ((sreg d c o.sd.toNat).toNat % 2 ^ (8 * n)) with
    | none => .next d
    | some (d, .error f) => .next (agentFault d (.seq c) f 0 (agentPc d (.seq c)) w)
    | some (d, .ok ()) => .next (stepPc d (.seq c))) s

/-! ### The command die (R411) -/

/-- The die that serves an address. -/
def servingDie (d : Dev) (a : Addr) : Nat :=
  match resolve d a with
  | some (.hbm die _ _) | some (.scratch die _ _) | some (.reg die _) => die
  | some (.store c _) => c.die
  | none => dieOf a

/-- An answer to the command die: a refused read returns zeros, and a poisoned one no data. -/
def reply (d : Dev) (f : FaultCode) (data : List Byte) : Dev := { d with reply := some ⟨f, data⟩ }

/-- An access of the command die (R411). -/
def hostAccess (d : Dev) (a : Addr) (n : Nat) (data : Option (List Byte)) : Option Dev :=
  let zeros : List Byte := if data.isSome then [] else List.replicate n 0
  if misBy n a.toNat then some (reply d .misaligned zeros)
  else match resolve d a with
    | none => some (reply d .addressAbsent zeros)
    | some (.reg die off) =>
      if n = 64 then some (reply d .spaceDenied zeros)
      else match data with
        | none => let r := regRead d die off n; some (reply r.1 .none (leBytes n r.2))
        | some b => some (reply (regStore d die off n (leNat b)) .none [])
    | some p =>
      if placeBusy d p then none
      else match data with
        | none =>
          match devRead d a n false with
          | (d, .error f) => some (reply d f (if f = .poisoned then [] else zeros))
          | (d, .ok b) => some (reply d .none b)
        | some b =>
          match devWrite d a b with
          | (d, .error f) => some (reply d f [])
          | (d, .ok ()) => some (reply d .none [])

/-- COMMAND_DIE_ACCESS (R411, R652): before package ready only a die whose mainband path has trained answers; an access waits for a link that
retrains (R410). -/
def execCommandDieAccess (addr : BitVec 52) (size : Nat) (data : Option (List (BitVec 8))) (s : State) : Host.Outcome State Fault Refusal :=
  runCmd (.commandDieAccess addr size data) (fun d =>
    let die := servingDie d addr
    if !pkgReady d && decide (die < d.part.dies) && !pathUp d die || commandBusy d die then .refused (.notEnabled "COMMAND_DIE_ACCESS")
    else orNot "COMMAND_DIE_ACCESS" (hostAccess d addr size data)) s

end Sys2Proof.Machine
end

