-- ==== Sys2Proof/Machine/Units.lean ====
section
/-!
DEFINITION. The front of a unit queue (R197): the unit takes the next descriptor, and the end of its operand wait (R170).
-/

namespace Sys2Proof.Machine

/-- A unit takes the next operation of its queue. -/
def unitTake (d : Dev) : UnitRef → Option Dev
  | .cube c u => cubeTake d c u
  | .chain c => if unitsRun d c then chainStart d c else none
  | .quant c => quantTake d c
  | .tload c => tloadTake d c
  | .sload c => sloadTake d c
  | .link die => linkTake d die

/-- UNIT_DESCRIPTOR_START (R197): the unit reads its descriptor and goes through the orders of R197. -/
def execUnitDescriptorStart (q : UnitRef) (s : State) : Host.Outcome State Fault Refusal :=
  runCmd (.unitDescriptorStart q) (fun d => orNot "UNIT_DESCRIPTOR_START" (unitTake d q)) s

/-- The operand wait of a unit's operation is over; a chain's ends with CHAIN_WAIT_END, and loads have none. -/
def unitWaitEnd (d : Dev) : UnitRef → Option Dev
  | .cube c u => cubeWaitEnd d c u
  | .quant c => quantWaitEnd d c
  | .link die => if halted d die then none else linkWaitEnd d die
  | .chain _ | .tload _ | .sload _ => none

/-- OPERAND_WAIT_END (R170): the wait's outcome is 0 and the operation goes on, or it is 1 and the operation completes with OPERAND_FAULT. -/
def execOperandWaitEnd (q : UnitRef) (s : State) : Host.Outcome State Fault Refusal :=
  runCmd (.operandWaitEnd q) (fun d => orNot "OPERAND_WAIT_END" (unitWaitEnd d q)) s

end Sys2Proof.Machine
end

