-- ==== Sys2Proof/Machine/Dispatch.lean ====
section
/-! DEFINITION. The dispatch: one arm per command, each a call of its meaning. -/

namespace Sys2Proof.Machine

def exec (i : Instr) (s : State) : Host.Outcome State Fault Refusal :=
  match i with
  | .ctlNop a => Sys2Proof.Machine.execCtlNop a s
  | .ctlHalt c => Sys2Proof.Machine.execCtlHalt c s
  | .ctlExit c slot => Sys2Proof.Machine.execCtlExit c slot s
  | .ctlFence c => Sys2Proof.Machine.execCtlFence c s
  | .ctlBr a o => Sys2Proof.Machine.execCtlBr a o s
  | .ctlBrz c o => Sys2Proof.Machine.execCtlBrz c o s
  | .ctlBrnz c o => Sys2Proof.Machine.execCtlBrnz c o s
  | .ctlBrp c slot o => Sys2Proof.Machine.execCtlBrp c slot o s
  | .ctlBrnp c slot o => Sys2Proof.Machine.execCtlBrnp c slot o s
  | .ctlCall c o => Sys2Proof.Machine.execCtlCall c o s
  | .ctlRet c => Sys2Proof.Machine.execCtlRet c s
  | .ctlLaunch c o => Sys2Proof.Machine.execCtlLaunch c o s
  | .ctlMpush c slot o => Sys2Proof.Machine.execCtlMpush c slot o s
  | .ctlMelse c slot => Sys2Proof.Machine.execCtlMelse c slot s
  | .ctlMpop c slot => Sys2Proof.Machine.execCtlMpop c slot s
  | .ctlRdspec a o => Sys2Proof.Machine.execCtlRdspec a o s
  | .sclAdd c o => Sys2Proof.Machine.execSclAdd c o s
  | .sclSub c o => Sys2Proof.Machine.execSclSub c o s
  | .sclMul c o => Sys2Proof.Machine.execSclMul c o s
  | .sclMulh c o => Sys2Proof.Machine.execSclMulh c o s
  | .sclAnd c o => Sys2Proof.Machine.execSclAnd c o s
  | .sclOr c o => Sys2Proof.Machine.execSclOr c o s
  | .sclXor c o => Sys2Proof.Machine.execSclXor c o s
  | .sclShl c o => Sys2Proof.Machine.execSclShl c o s
  | .sclShr c o => Sys2Proof.Machine.execSclShr c o s
  | .sclSar c o => Sys2Proof.Machine.execSclSar c o s
  | .sclMin c o => Sys2Proof.Machine.execSclMin c o s
  | .sclMax c o => Sys2Proof.Machine.execSclMax c o s
  | .sclCmp c o => Sys2Proof.Machine.execSclCmp c o s
  | .sclAddi c o => Sys2Proof.Machine.execSclAddi c o s
  | .sclCmpi c o => Sys2Proof.Machine.execSclCmpi c o s
  | .sclMovi c o => Sys2Proof.Machine.execSclMovi c o s
  | .sclMovh c o => Sys2Proof.Machine.execSclMovh c o s
  | .sclLd c o => Sys2Proof.Machine.execSclLd c o s
  | .sclSt c o => Sys2Proof.Machine.execSclSt c o s
  | .sclMova c o => Sys2Proof.Machine.execSclMova c o s
  | .sclMovs c o => Sys2Proof.Machine.execSclMovs c o s
  | .sclAdda c o => Sys2Proof.Machine.execSclAdda c o s
  | .sclAddai c o => Sys2Proof.Machine.execSclAddai c o s
  | .vecAdd c slot o => Sys2Proof.Machine.execVecAdd c slot o s
  | .vecSub c slot o => Sys2Proof.Machine.execVecSub c slot o s
  | .vecMul c slot o => Sys2Proof.Machine.execVecMul c slot o s
  | .vecFma c slot o => Sys2Proof.Machine.execVecFma c slot o s
  | .vecMin c slot o => Sys2Proof.Machine.execVecMin c slot o s
  | .vecMax c slot o => Sys2Proof.Machine.execVecMax c slot o s
  | .vecAbs c slot o => Sys2Proof.Machine.execVecAbs c slot o s
  | .vecNeg c slot o => Sys2Proof.Machine.execVecNeg c slot o s
  | .vecCmp c slot o => Sys2Proof.Machine.execVecCmp c slot o s
  | .vecSel c slot o => Sys2Proof.Machine.execVecSel c slot o s
  | .vecAnd c slot o => Sys2Proof.Machine.execVecAnd c slot o s
  | .vecOr c slot o => Sys2Proof.Machine.execVecOr c slot o s
  | .vecXor c slot o => Sys2Proof.Machine.execVecXor c slot o s
  | .vecShl c slot o => Sys2Proof.Machine.execVecShl c slot o s
  | .vecShr c slot o => Sys2Proof.Machine.execVecShr c slot o s
  | .vecMov c slot o => Sys2Proof.Machine.execVecMov c slot o s
  | .vecMovi c slot o => Sys2Proof.Machine.execVecMovi c slot o s
  | .vecAddi c slot o => Sys2Proof.Machine.execVecAddi c slot o s
  | .vecFaddi c slot o => Sys2Proof.Machine.execVecFaddi c slot o s
  | .vecFmuli c slot o => Sys2Proof.Machine.execVecFmuli c slot o s
  | .vecLd c slot o => Sys2Proof.Machine.execVecLd c slot o s
  | .vecSt c slot o => Sys2Proof.Machine.execVecSt c slot o s
  | .vecShfl c slot o => Sys2Proof.Machine.execVecShfl c slot o s
  | .vecRand c slot o => Sys2Proof.Machine.execVecRand c slot o s
  | .sfnExp c slot o => Sys2Proof.Machine.execSfnExp c slot o s
  | .sfnExp2 c slot o => Sys2Proof.Machine.execSfnExp2 c slot o s
  | .sfnLog c slot o => Sys2Proof.Machine.execSfnLog c slot o s
  | .sfnLog2 c slot o => Sys2Proof.Machine.execSfnLog2 c slot o s
  | .sfnRcp c slot o => Sys2Proof.Machine.execSfnRcp c slot o s
  | .sfnSqrt c slot o => Sys2Proof.Machine.execSfnSqrt c slot o s
  | .sfnRsqrt c slot o => Sys2Proof.Machine.execSfnRsqrt c slot o s
  | .sfnSin c slot o => Sys2Proof.Machine.execSfnSin c slot o s
  | .sfnCos c slot o => Sys2Proof.Machine.execSfnCos c slot o s
  | .sfnTanh c slot o => Sys2Proof.Machine.execSfnTanh c slot o s
  | .sfnSigm c slot o => Sys2Proof.Machine.execSfnSigm c slot o s
  | .sfnErf c slot o => Sys2Proof.Machine.execSfnErf c slot o s
  | .sfnGelu c slot o => Sys2Proof.Machine.execSfnGelu c slot o s
  | .sfnSilu c slot o => Sys2Proof.Machine.execSfnSilu c slot o s
  | .sfnTload c o => Sys2Proof.Machine.execSfnTload c o s
  | .tableLoadFlip c => Sys2Proof.Machine.execTableLoadFlip c s
  | .tableLoadDrainEnd c => Sys2Proof.Machine.execTableLoadDrainEnd c s
  | .cubeMma c o => Sys2Proof.Machine.execCubeMma c o s
  | .cubeConv c o => Sys2Proof.Machine.execCubeConv c o s
  | .cubeAttn c o => Sys2Proof.Machine.execCubeAttn c o s
  | .cubePool c o => Sys2Proof.Machine.execCubePool c o s
  | .cubeRsmp c o => Sys2Proof.Machine.execCubeRsmp c o s
  | .cubeAclr c o => Sys2Proof.Machine.execCubeAclr c o s
  | .chnArm c o => Sys2Proof.Machine.execChnArm c o s
  | .chnStrm c o => Sys2Proof.Machine.execChnStrm c o s
  | .chnRearm c o => Sys2Proof.Machine.execChnRearm c o s
  | .chnStop c o => Sys2Proof.Machine.execChnStop c o s
  | .chnMedia c o => Sys2Proof.Machine.execChnMedia c o s
  | .stkArrive a o => Sys2Proof.Machine.execStkArrive a o s
  | .stkWait a o => Sys2Proof.Machine.execStkWait a o s
  | .stkTest a o => Sys2Proof.Machine.execStkTest a o s
  | .stkReset a o => Sys2Proof.Machine.execStkReset a o s
  | .stkClaim a o => Sys2Proof.Machine.execStkClaim a o s
  | .colRun c o => Sys2Proof.Machine.execColRun c o s
  | .colPut c o => Sys2Proof.Machine.execColPut c o s
  | .qntCvt c slot o => Sys2Proof.Machine.execQntCvt c slot o s
  | .qntPack c o => Sys2Proof.Machine.execQntPack c o s
  | .qntUnpack c o => Sys2Proof.Machine.execQntUnpack c o s
  | .qntSload c o => Sys2Proof.Machine.execQntSload c o s
  | .scaleLoadFlip c => Sys2Proof.Machine.execScaleLoadFlip c s
  | .scaleLoadDrainEnd c => Sys2Proof.Machine.execScaleLoadDrainEnd c s
  | .stakeOpApply die hub ports => Sys2Proof.Machine.execStakeOpApply die hub ports s
  | .stkWaitTimeout a => Sys2Proof.Machine.execStkWaitTimeout a s
  | .stakePoll w => Sys2Proof.Machine.execStakePoll w s
  | .stkTargetWrite stake v => Sys2Proof.Machine.execStkTargetWrite stake v s
  | .stkCtlReset stake v => Sys2Proof.Machine.execStkCtlReset stake v s
  | .stkCtlEnableClear stake v => Sys2Proof.Machine.execStkCtlEnableClear stake v s
  | .launchDequeue c => Sys2Proof.Machine.execLaunchDequeue c s
  | .unitDescriptorStart q => Sys2Proof.Machine.execUnitDescriptorStart q s
  | .operandWaitEnd q => Sys2Proof.Machine.execOperandWaitEnd q s
  | .cubeStep c u x => Sys2Proof.Machine.execCubeStep c u x s
  | .rampLevelChange c u => Sys2Proof.Machine.execRampLevelChange c u s
  | .rampHoldExpiry c u => Sys2Proof.Machine.execRampHoldExpiry c u s
  | .cubeDrain c u x => Sys2Proof.Machine.execCubeDrain c u x s
  | .prologueCopyDone c u => Sys2Proof.Machine.execPrologueCopyDone c u s
  | .ledgerFetchDone c u => Sys2Proof.Machine.execLedgerFetchDone c u s
  | .prologueCorrection c u => Sys2Proof.Machine.execPrologueCorrection c u s
  | .hookProgramLaunch c u => Sys2Proof.Machine.execHookProgramLaunch c u s
  | .converterPass c => Sys2Proof.Machine.execConverterPass c s
  | .ledgerPublish c u => Sys2Proof.Machine.execLedgerPublish c u s
  | .stakeRouteResume c u => Sys2Proof.Machine.execStakeRouteResume c u s
  | .ksplitCombine c u => Sys2Proof.Machine.execKsplitCombine c u s
  | .attnChunkFetchDone c u => Sys2Proof.Machine.execAttnChunkFetchDone c u s
  | .attnChunkSoftmax c u => Sys2Proof.Machine.execAttnChunkSoftmax c u s
  | .keyPresenceWaitEnd c u => Sys2Proof.Machine.execKeyPresenceWaitEnd c u s
  | .keyWaitExpiry c u => Sys2Proof.Machine.execKeyWaitExpiry c u s
  | .kvTokenWrite c u => Sys2Proof.Machine.execKvTokenWrite c u s
  | .kvFlushStart die => Sys2Proof.Machine.execKvFlushStart die s
  | .kvFlushDone die slot => Sys2Proof.Machine.execKvFlushDone die slot s
  | .exportQueueCopy die port => Sys2Proof.Machine.execExportQueueCopy die port s
  | .chainWaitEnd c pos => Sys2Proof.Machine.execChainWaitEnd c pos s
  | .streamPassStart c slot => Sys2Proof.Machine.execStreamPassStart c slot s
  | .chainEntryAdmit c => Sys2Proof.Machine.execChainEntryAdmit c s
  | .chainEntryComplete c pos => Sys2Proof.Machine.execChainEntryComplete c pos s
  | .sliceRequest die slice q => Sys2Proof.Machine.execSliceRequest die slice q s
  | .hbmRead die chan caddr lanes => Sys2Proof.Machine.execHbmRead die chan caddr lanes s
  | .hbmErrWindowEnd die => Sys2Proof.Machine.execHbmErrWindowEnd die s
  | .hbmRefresh die stack => Sys2Proof.Machine.execHbmRefresh die stack s
  | .hbmScrub die chan caddr lanes => Sys2Proof.Machine.execHbmScrub die chan caddr lanes s
  | .ondieScrub die w => Sys2Proof.Machine.execOndieScrub die w s
  | .hbmThermalSample die stack temp limit => Sys2Proof.Machine.execHbmThermalSample die stack temp limit s
  | .hbmMapWrite die v => Sys2Proof.Machine.execHbmMapWrite die v s
  | .resSliceCfgWrite die v => Sys2Proof.Machine.execResSliceCfgWrite die v s
  | .sliceReconfigDone die => Sys2Proof.Machine.execSliceReconfigDone die s
  | .releaseAll die => Sys2Proof.Machine.execReleaseAll die s
  | .hbmRetireWrite die idx v => Sys2Proof.Machine.execHbmRetireWrite die idx v s
  | .ucieFlitReplay die m => Sys2Proof.Machine.execUcieFlitReplay die m s
  | .ucieRetrain die m => Sys2Proof.Machine.execUcieRetrain die m s
  | .commandDieAccess addr size data => Sys2Proof.Machine.execCommandDieAccess addr size data s
  | .cmdDoorbell chan tail => Sys2Proof.Machine.execCmdDoorbell chan tail s
  | .doorbellLatch chan => Sys2Proof.Machine.execDoorbellLatch chan s
  | .cmdArrive die stake inc => Sys2Proof.Machine.execCmdArrive die stake inc s
  | .openObj any type index => Sys2Proof.Machine.execOpenObj any type index s
  | .closeObj handle => Sys2Proof.Machine.execCloseObj handle s
  | .openComplete => Sys2Proof.Machine.execOpenComplete s
  | .closeComplete => Sys2Proof.Machine.execCloseComplete s
  | .commandRead chan => Sys2Proof.Machine.execCommandRead chan s
  | .commandStart chan => Sys2Proof.Machine.execCommandStart chan s
  | .cmdRun chan => Sys2Proof.Machine.execCmdRun chan s
  | .cmdLoad chan => Sys2Proof.Machine.execCmdLoad chan s
  | .cmdArriveOp chan => Sys2Proof.Machine.execCmdArriveOp chan s
  | .cmdNop chan => Sys2Proof.Machine.execCmdNop chan s
  | .partComplete c => Sys2Proof.Machine.execPartComplete c s
  | .cmdComplHeadWrite chan v => Sys2Proof.Machine.execCmdComplHeadWrite chan v s
  | .eventMergeWrite => Sys2Proof.Machine.execEventMergeWrite s
  | .cmdEvtPtrHeadWrite v => Sys2Proof.Machine.execCmdEvtPtrHeadWrite v s
  | .dispatchTick => Sys2Proof.Machine.execDispatchTick s
  | .coreStopped c => Sys2Proof.Machine.execCoreStopped c s
  | .contextImageWritten c => Sys2Proof.Machine.execContextImageWritten c s
  | .tenantSwap parcel tenant => Sys2Proof.Machine.execTenantSwap parcel tenant s
  | .swapComplete parcel => Sys2Proof.Machine.execSwapComplete parcel s
  | .pclRebuildSet die => Sys2Proof.Machine.execPclRebuildSet die s
  | .rebuildMapoutDone die => Sys2Proof.Machine.execRebuildMapoutDone die s
  | .pclRebuildClear die => Sys2Proof.Machine.execPclRebuildClear die s
  | .scheduleSlotBoundary => Sys2Proof.Machine.execScheduleSlotBoundary s
  | .schSwitch => Sys2Proof.Machine.execSchSwitch s
  | .tagValidClear c => Sys2Proof.Machine.execTagValidClear c s
  | .zlkTrain die port => Sys2Proof.Machine.execZlkTrain die port s
  | .zlkStop die port => Sys2Proof.Machine.execZlkStop die port s
  | .portTrainingDone die port x => Sys2Proof.Machine.execPortTrainingDone die port x s
  | .laneFailure die port lanes => Sys2Proof.Machine.execLaneFailure die port lanes s
  | .portRetrainDone die port ok => Sys2Proof.Machine.execPortRetrainDone die port ok s
  | .flitReceive die port f => Sys2Proof.Machine.execFlitReceive die port f s
  | .linkAck die port tag chunk last => Sys2Proof.Machine.execLinkAck die port tag chunk last s
  | .linkNak die port tag chunk reason => Sys2Proof.Machine.execLinkNak die port tag chunk reason s
  | .linkAbort groupTag seq8 fromZid => Sys2Proof.Machine.execLinkAbort groupTag seq8 fromZid s
  | .putStart die => Sys2Proof.Machine.execPutStart die s
  | .putChunkReceive die port h chunk bytes crc => Sys2Proof.Machine.execPutChunkReceive die port h chunk bytes crc s
  | .ackTimeout die port tag chunk => Sys2Proof.Machine.execAckTimeout die port tag chunk s
  | .notReadyResend die port tag chunk => Sys2Proof.Machine.execNotReadyResend die port tag chunk s
  | .collectiveStart die group => Sys2Proof.Machine.execCollectiveStart die group s
  | .collectiveTraverse die group => Sys2Proof.Machine.execCollectiveTraverse die group s
  | .collectiveTimeout die group => Sys2Proof.Machine.execCollectiveTimeout die group s
  | .zlkIdWrite v => Sys2Proof.Machine.execZlkIdWrite v s
  | .zlkVcCfgWrite die port v => Sys2Proof.Machine.execZlkVcCfgWrite die port v s
  | .frameAccept c pos => Sys2Proof.Machine.execFrameAccept c pos s
  | .mediaFrame die pipe => Sys2Proof.Machine.execMediaFrame die pipe s
  | .mediaEnd die sess => Sys2Proof.Machine.execMediaEnd die sess s
  | .pipeSelect die pipe => Sys2Proof.Machine.execPipeSelect die pipe s
  | .mediaPreemption die pipe => Sys2Proof.Machine.execMediaPreemption die pipe s
  | .deadlinePass die sess frame => Sys2Proof.Machine.execDeadlinePass die sess frame s
  | .frameComplete die pipe => Sys2Proof.Machine.execFrameComplete die pipe s
  | .errAckIndex die e => Sys2Proof.Machine.execErrAckIndex die e s
  | .errAckAll die => Sys2Proof.Machine.execErrAckAll die s
  | .errCoreRst die core => Sys2Proof.Machine.execErrCoreRst die core s
  | .coreResetDone die fail => Sys2Proof.Machine.execCoreResetDone die fail s
  | .haltArrival die => Sys2Proof.Machine.execHaltArrival die s
  | .haltOnSilence die => Sys2Proof.Machine.execHaltOnSilence die s
  | .laneGroupFence c g reason slot => Sys2Proof.Machine.execLaneGroupFence c g reason slot s
  | .cubeInject c u again => Sys2Proof.Machine.execCubeInject c u again s
  | .fenceReq c => Sys2Proof.Machine.execFenceReq c s
  | .abwReqAttest addr => Sys2Proof.Machine.execAbwReqAttest addr s
  | .abwReqExtend addr slot => Sys2Proof.Machine.execAbwReqExtend addr slot s
  | .reportSigned => Sys2Proof.Machine.execReportSigned s
  | .getIdent => Sys2Proof.Machine.execGetIdent s
  | .getTelemetry => Sys2Proof.Machine.execGetTelemetry s
  | .getErrors => Sys2Proof.Machine.execGetErrors s
  | .attest nonce => Sys2Proof.Machine.execAttest nonce s
  | .readReport off len => Sys2Proof.Machine.execReadReport off len s
  | .extend slot x => Sys2Proof.Machine.execExtend slot x s
  | .setLimit w => Sys2Proof.Machine.execSetLimit w s
  | .getChallenge => Sys2Proof.Machine.execGetChallenge s
  | .unlockData off bytes => Sys2Proof.Machine.execUnlockData off bytes s
  | .unlockGo => Sys2Proof.Machine.execUnlockGo s
  | .svnCommit v => Sys2Proof.Machine.execSvnCommit v s
  | .enec events => Sys2Proof.Machine.execEnec events s
  | .disec events => Sys2Proof.Machine.execDisec events s
  | .rstdaa => Sys2Proof.Machine.execRstdaa s
  | .entdaa addr => Sys2Proof.Machine.execEntdaa addr s
  | .setdasa static addr => Sys2Proof.Machine.execSetdasa static addr s
  | .getpid => Sys2Proof.Machine.execGetpid s
  | .getbcr => Sys2Proof.Machine.execGetbcr s
  | .getdcr => Sys2Proof.Machine.execGetdcr s
  | .getstatus => Sys2Proof.Machine.execGetstatus s
  | .getmwl => Sys2Proof.Machine.execGetmwl s
  | .getmrl => Sys2Proof.Machine.execGetmrl s
  | .setmwl v => Sys2Proof.Machine.execSetmwl v s
  | .setmrl v => Sys2Proof.Machine.execSetmrl v s
  | .smbusModeEntry => Sys2Proof.Machine.execSmbusModeEntry s
  | .powerCapCompare watts => Sys2Proof.Machine.execPowerCapCompare watts s
  | .tempRefresh die hot => Sys2Proof.Machine.execTempRefresh die hot s
  | .envelopeClustersWrite v => Sys2Proof.Machine.execEnvelopeClustersWrite v s
  | .resetRelease => Sys2Proof.Machine.execResetRelease s
  | .rootPllLock die straps parity => Sys2Proof.Machine.execRootPllLock die straps parity s
  | .positionExchange die m peer => Sys2Proof.Machine.execPositionExchange die m peer s
  | .announce die => Sys2Proof.Machine.execAnnounce die s
  | .progress die => Sys2Proof.Machine.execProgress die s
  | .fwBegin mask size => Sys2Proof.Machine.execFwBegin mask size s
  | .fwData off words => Sys2Proof.Machine.execFwData off words s
  | .fwEnd => Sys2Proof.Machine.execFwEnd s
  | .meshWaveStart wave => Sys2Proof.Machine.execMeshWaveStart wave s
  | .meshLinkTrained die m ok mode half repaired => Sys2Proof.Machine.execMeshLinkTrained die m ok mode half repaired s
  | .hbmTrainingDone die failed => Sys2Proof.Machine.execHbmTrainingDone die failed s
  | .selfTestDone die cores => Sys2Proof.Machine.execSelfTestDone die cores s
  | .tickAlign => Sys2Proof.Machine.execTickAlign s
  | .dieSilence die => Sys2Proof.Machine.execDieSilence die s
  | .abwTriReady map => Sys2Proof.Machine.execAbwTriReady map s
  | .pkgPwrgdAssert => Sys2Proof.Machine.execPkgPwrgdAssert s
  | .pkgPwrgdDeassert => Sys2Proof.Machine.execPkgPwrgdDeassert s
  | .pkgResetAssert => Sys2Proof.Machine.execPkgResetAssert s
  | .pkgResetDeassert maddr tmode => Sys2Proof.Machine.execPkgResetDeassert maddr tmode s
  | .railSample die mv => Sys2Proof.Machine.execRailSample die mv s
  | .rail7Undervoltage die => Sys2Proof.Machine.execRail7Undervoltage die s
  | .thermalTrip die sensor reading hbm => Sys2Proof.Machine.execThermalTrip die sensor reading hbm s
  | .pllUnlock die pll => Sys2Proof.Machine.execPllUnlock die pll s
  | .pkgTrst => Sys2Proof.Machine.execPkgTrst s
  | .extest die => Sys2Proof.Machine.execExtest die s
  | .samplePreload die bits => Sys2Proof.Machine.execSamplePreload die bits s
  | .idcode die => Sys2Proof.Machine.execIdcode die s
  | .clamp die => Sys2Proof.Machine.execClamp die s
  | .highz die => Sys2Proof.Machine.execHighz die s
  | .bypass die => Sys2Proof.Machine.execBypass die s
  | .privateJtag die code => Sys2Proof.Machine.execPrivateJtag die code s
  | .registerWrite addr size v => Sys2Proof.Machine.execRegisterWrite addr size v s
  | .shadowWriteApply addr => Sys2Proof.Machine.execShadowWriteApply addr s
  | .liveWriteApply => Sys2Proof.Machine.execLiveWriteApply s
  | .illegalInstruction a w => Sys2Proof.Machine.execIllegalInstruction a w s
  | .fetchRange a => Sys2Proof.Machine.execFetchRange a s
  | .contextImageRestored c => Sys2Proof.Machine.execContextImageRestored c s
  | .ucieRetrainDone die m ok mode half repaired => Sys2Proof.Machine.execUcieRetrainDone die m ok mode half repaired s
  | .releaseAllDone die => Sys2Proof.Machine.execReleaseAllDone die s
  | .cubeFenceWindowEnd c => Sys2Proof.Machine.execCubeFenceWindowEnd c s
  | .zlkLaneWindowEnd die port => Sys2Proof.Machine.execZlkLaneWindowEnd die port s
  | .laneCeWindowEnd c => Sys2Proof.Machine.execLaneCeWindowEnd c s
  | .stationFault die code => Sys2Proof.Machine.execStationFault die code s

end Sys2Proof.Machine
end

