-- ==== Sys2Proof/Machine/Step.lean ====
section
/-!
DEFINITION. The step of the block: the command at the front of the queue has its effect; on an empty queue the datum tick advances
(log 2). No word spells a command, since the table's rows have no bits, so `withFetchWord` changes nothing.
-/

namespace Sys2Proof.Machine

/-- What an empty queue does: the datum tick count advances once it is aligned (R81, R647). -/
def idle (s : State) : State := { s with dev := { s.dev with tick := s.dev.tick + 1 } }

/-- One step: the command at the front of the queue, with the rest of the queue left. -/
def step (s : State) : Host.Outcome State Fault Refusal :=
  match s.pending with
  | [] => .next (idle s)
  | c :: rest => exec c { s with pending := rest }

/-- The state with the command a table word spells at the front of its queue; no word spells one. -/
def State.withFetchWord (s : State) (nbits w : Nat) : State :=
  match decodeTableWord nbits w with
  | some c => { s with pending := c :: s.pending }
  | none => s

end Sys2Proof.Machine
end

