-- ==== Sys2Proof/Safety.lean ====
section
/-!
DEFINITION. The terms in which claims about the block are stated: when a command may run, what completing means, what a command
leaves unchanged, and the invariant of every step. Nothing here changes the machine.
-/

namespace Sys2Proof.Machine

/-! ### Completing -/

/-- The operands of a command lie in their fields and the dies it names are the part's (R2, R10). -/
def Fits (i : Instr) (s : State) : Prop := i.wf = true ∧ ∀ x ∈ i.dies, x < s.dev.part.dies

/-- The command completes: it answers a next state with the same queue, and `P` holds of the device then. -/
def Completes (i : Instr) (s : State) (P : Dev → Prop) : Prop := ∃ t : Dev, exec i s = .next { s with dev := t } ∧ P t

/-- An agent may issue an instruction (R60, R116, R118, R125): it is ready and within its text region, no operand test fails, and no register it
names is in flight. -/
def CanIssue (a : Agent) (i : Instr) (regs : List Nat) (d : Dev) : Prop :=
  agentReady d a = true ∧ agentPc d a < textLen d a.core ∧ operandSub i = 0 ∧ ∀ r ∈ regs, r ∉ agentInflight d a

/-- The agent that issues a Yelre instruction; none for every other command. -/
def issuerOf : Instr → Option Agent
  | .ctlNop a => some a
  | .ctlHalt c => some (.seq c)
  | .ctlExit c slot => some (.crew c slot)
  | .ctlFence c => some (.seq c)
  | .ctlBr a _ => some a
  | .ctlBrz c _ => some (.seq c)
  | .ctlBrnz c _ => some (.seq c)
  | .ctlBrp c slot _ => some (.crew c slot)
  | .ctlBrnp c slot _ => some (.crew c slot)
  | .ctlCall c _ => some (.seq c)
  | .ctlRet c => some (.seq c)
  | .ctlLaunch c _ => some (.seq c)
  | .ctlMpush c slot _ => some (.crew c slot)
  | .ctlMelse c slot => some (.crew c slot)
  | .ctlMpop c slot => some (.crew c slot)
  | .ctlRdspec a _ => some a
  | .sclAdd c _ => some (.seq c)
  | .sclSub c _ => some (.seq c)
  | .sclMul c _ => some (.seq c)
  | .sclMulh c _ => some (.seq c)
  | .sclAnd c _ => some (.seq c)
  | .sclOr c _ => some (.seq c)
  | .sclXor c _ => some (.seq c)
  | .sclShl c _ => some (.seq c)
  | .sclShr c _ => some (.seq c)
  | .sclSar c _ => some (.seq c)
  | .sclMin c _ => some (.seq c)
  | .sclMax c _ => some (.seq c)
  | .sclCmp c _ => some (.seq c)
  | .sclAddi c _ => some (.seq c)
  | .sclCmpi c _ => some (.seq c)
  | .sclMovi c _ => some (.seq c)
  | .sclMovh c _ => some (.seq c)
  | .sclLd c _ => some (.seq c)
  | .sclSt c _ => some (.seq c)
  | .sclMova c _ => some (.seq c)
  | .sclMovs c _ => some (.seq c)
  | .sclAdda c _ => some (.seq c)
  | .sclAddai c _ => some (.seq c)
  | .vecAdd c slot _ => some (.crew c slot)
  | .vecSub c slot _ => some (.crew c slot)
  | .vecMul c slot _ => some (.crew c slot)
  | .vecFma c slot _ => some (.crew c slot)
  | .vecMin c slot _ => some (.crew c slot)
  | .vecMax c slot _ => some (.crew c slot)
  | .vecAbs c slot _ => some (.crew c slot)
  | .vecNeg c slot _ => some (.crew c slot)
  | .vecCmp c slot _ => some (.crew c slot)
  | .vecSel c slot _ => some (.crew c slot)
  | .vecAnd c slot _ => some (.crew c slot)
  | .vecOr c slot _ => some (.crew c slot)
  | .vecXor c slot _ => some (.crew c slot)
  | .vecShl c slot _ => some (.crew c slot)
  | .vecShr c slot _ => some (.crew c slot)
  | .vecMov c slot _ => some (.crew c slot)
  | .vecMovi c slot _ => some (.crew c slot)
  | .vecAddi c slot _ => some (.crew c slot)
  | .vecFaddi c slot _ => some (.crew c slot)
  | .vecFmuli c slot _ => some (.crew c slot)
  | .vecLd c slot _ => some (.crew c slot)
  | .vecSt c slot _ => some (.crew c slot)
  | .vecShfl c slot _ => some (.crew c slot)
  | .vecRand c slot _ => some (.crew c slot)
  | .sfnExp c slot _ => some (.crew c slot)
  | .sfnExp2 c slot _ => some (.crew c slot)
  | .sfnLog c slot _ => some (.crew c slot)
  | .sfnLog2 c slot _ => some (.crew c slot)
  | .sfnRcp c slot _ => some (.crew c slot)
  | .sfnSqrt c slot _ => some (.crew c slot)
  | .sfnRsqrt c slot _ => some (.crew c slot)
  | .sfnSin c slot _ => some (.crew c slot)
  | .sfnCos c slot _ => some (.crew c slot)
  | .sfnTanh c slot _ => some (.crew c slot)
  | .sfnSigm c slot _ => some (.crew c slot)
  | .sfnErf c slot _ => some (.crew c slot)
  | .sfnGelu c slot _ => some (.crew c slot)
  | .sfnSilu c slot _ => some (.crew c slot)
  | .sfnTload c _ => some (.seq c)
  | .cubeMma c _ => some (.seq c)
  | .cubeConv c _ => some (.seq c)
  | .cubeAttn c _ => some (.seq c)
  | .cubePool c _ => some (.seq c)
  | .cubeRsmp c _ => some (.seq c)
  | .cubeAclr c _ => some (.seq c)
  | .chnArm c _ => some (.seq c)
  | .chnStrm c _ => some (.seq c)
  | .chnRearm c _ => some (.seq c)
  | .chnStop c _ => some (.seq c)
  | .chnMedia c _ => some (.seq c)
  | .stkArrive a _ => some a
  | .stkWait a _ => some a
  | .stkTest a _ => some a
  | .stkReset a _ => some a
  | .stkClaim a _ => some a
  | .colRun c _ => some (.seq c)
  | .colPut c _ => some (.seq c)
  | .qntCvt c slot _ => some (.crew c slot)
  | .qntPack c _ => some (.seq c)
  | .qntUnpack c _ => some (.seq c)
  | .qntSload c _ => some (.seq c)
  | _ => none

/-! ### What stays unchanged -/

/-- Every byte of memory reads as before. -/
def MemSame (d t : Dev) : Prop := ∀ k, memByte t k = memByte d k

/-- Every byte of memory outside n bytes from place k reads as before. -/
def MemSameBut (k n : Nat) (d t : Dev) : Prop := ∀ j, j < k ∨ k + n ≤ j → memByte t j = memByte d j

/-- Nothing but the core at `c` has changed: no memory byte, register, stake, hub, ring, channel or other core. -/
def OnlyCore (c : CoreId) (d t : Dev) : Prop :=
  { t with cores := d.cores } = d ∧ MemSame d t ∧ ∀ k, k ≠ ckey c → tget Core.idle t.cores k = tget Core.idle d.cores k

/-- The sequencer of a core. -/
def seqOf (d : Dev) (c : CoreId) : Seq := (getCore d c).w.seq

/-- Nothing but the sequencer of the core at `c` has changed. -/
def OnlySeq (c : CoreId) (d t : Dev) : Prop :=
  OnlyCore c d t ∧ getCore t c = { getCore d c with w := { (getCore d c).w with seq := seqOf t c } }

/-- Nothing but the crew in a slot of the core at `c` has changed. -/
def OnlyCrew (c : CoreId) (slot : Nat) (d t : Dev) : Prop :=
  OnlyCore c d t ∧ getCore t c = { getCore d c with w := { (getCore d c).w with crews := (getCore t c).w.crews } } ∧
    ∀ k, k ≠ slot → getCrew t c k = getCrew d c k

/-- The sequencer went on to its next instruction with v in s[r]; all its other registers, its return stack and its wait are as before. -/
def SeqWrote (c : CoreId) (r : Nat) (v : W64) (d t : Dev) : Prop :=
  OnlySeq c d t ∧ seqOf t c = { seqOf d c with pc := (seqOf d c).pc + 1, s := (seqOf t c).s } ∧
    ∀ q, sreg t c q = if q = r then v else sreg d c q

/-- The sequencer went on to its next instruction with v in a[r]; everything else of it is as before. -/
def SeqWroteA (c : CoreId) (r : Nat) (v : Addr) (d t : Dev) : Prop :=
  OnlySeq c d t ∧ seqOf t c = { seqOf d c with pc := (seqOf d c).pc + 1, a := (seqOf t c).a } ∧
    ∀ q, areg t c q = if q = r then v else areg d c q

/-- The crew went on to its next instruction with f of the lane in v[r] of every thread of the mask m; every other register of every thread, the
predicates, the masks and the wait are as before. -/
def CrewWrote (c : CoreId) (slot : Nat) (m : W32) (r : Nat) (f : Crew → Nat → W32) (d t : Dev) : Prop :=
  OnlyCrew c slot d t ∧ ∃ k x, getCrew d c slot = some k ∧ getCrew t c slot = some x ∧ x = { k with pc := k.pc + 1, v := x.v } ∧
    ∀ lane q, lane < 32 → q < 64 → x.reg lane q = if m.getLsbD lane ∧ q = r then f k lane else k.reg lane q

/-- An agent went on to its next instruction and nothing else has changed. -/
def SteppedOnly (a : Agent) (d t : Dev) : Prop :=
  agentPc t a = agentPc d a + 1 ∧ t = setPc d a (agentPc d a + 1) ∧ MemSame d t

/-- The device beyond its cores: without cores, stakes, hubs, wakes, error records, events, registers, PKG_ALERT_N and the model's own counters.
Two devices that agree on it have the same memory, channels, parcels, links, media, station, start-up and pins. -/
def Dev.beyondCores (d : Dev) : Dev :=
  { d with
    cores := [], stakes := [], hubs := [], wakes := [], errs := [], events := [], gap := false, regs := []
    mgmt := Dev.reset.mgmt, serial := 0, free := 0 }

/-- The device beyond its cores and its memory with the poison and the cache lines. -/
def Dev.beyondUnits (d : Dev) : Dev := { d.beyondCores with mem := [], poison := [], cache := [], clock := 0 }

/-- The device beyond all running work: the part, the tick, waiting register writes, the error windows, the admin request, the cadastre and its saved
tenants, the station, start-up, the package's signals, the TAPs and the last reply. -/
def Dev.beyondWork (d : Dev) : Dev :=
  { d.beyondUnits with
    accepted := 0, chans := [], colls := [], expQ := [], expWait := [], groups := [], inbound := [], kvFlush := []
    kvReady := [], kvs := [], lateCmds := [], lateLops := [], links := [], meas := [], objs := [], pipes := [], ports := [], readonly := [], sched := Dev.reset.sched
    sent := [], wire := [], sess := [], xfers := [], notices := [] }

/-- The keys of a table rise. -/
def Rising {α : Type} (t : Tbl α) : Prop := (t.map Prod.fst).Pairwise (· < ·)

/-- The tables that some command filters are in order: memory is in its canonical form, and the keys of the poison marks, cache lines, registers, cores,
stakes and hubs rise. Every step keeps this (StepKeepsInv). -/
def Tidy (d : Dev) : Prop :=
  Memory.wf d.mem = true ∧ Rising d.poison ∧ Rising d.cache ∧ Rising d.regs ∧ Rising d.cores ∧ Rising d.stakes ∧ Rising d.hubs

/-! ### Arrivals and faults -/

/-- A core's unit has sent its arrival with increment inc (R29): the operation stands last in the queue of its hub's port, port 1 from the
hub's own cores and port 2 from elsewhere (R62); a stake on a die the part lacks receives none (R54). -/
def Arrived (c : CoreId) (code parcel inc : Nat) (faulted : Bool) (id : StakeId) (t : Dev) : Prop :=
  stakeDie id < t.part.dies → ∃ q, (getHub t (stakeDie id) (stakeHub id)).port (if ownCore id c then 1 else 2) =
    q ++ [⟨.arrive inc faulted, id, .unit code c.die, some parcel⟩]

/-- The sequencer has faulted (R40): it has stopped with its registers as they were, its part will complete with the code unless it had one
already; its core's queues, units and crews, every other core and all memory are as before. -/
def SeqFaulted (c : CoreId) (f : FaultCode) (sub : Nat) (d t : Dev) : Prop :=
  getCore t c = { getCore d c with w := { (getCore d c).w with
    seq := { seqOf d c with st := .faulted, inflight := [], wait := none }
    part := (getCore d c).w.part.map fun p => if p.seqFault = .none then { p with seqFault := f, subcode := sub } else p } } ∧
    agentReady t (.seq c) = false ∧ (∀ k, k ≠ ckey c → tget Core.idle t.cores k = tget Core.idle d.cores k) ∧
    MemSame d t ∧ t.beyondCores = d.beyondCores

/-- A launch has been stopped by a fault (R39): its crews are gone from their slots, it runs no more, every other crew and launch, the sequencer, the
launch queue, every unit and its queue, every other core and all memory are as before; and the launch, where it is a program's, has arrived at its stake
with FAULTED, and its part keeps the code and the subcode unless it had a fault already (R428). -/
def LaunchStopped (c : CoreId) (launch : Nat) (f : FaultCode) (sub : Nat) (d t : Dev) : Prop :=
  (∀ q, q < 64 → getCrew t c q = if (getCrew d c q).map Crew.launch = some launch then none else getCrew d c q) ∧
    getCore t c = { getCore d c with w := { (getCore d c).w with
      crews := (getCore t c).w.crews
      launches := (getCore d c).w.launches.filter fun l => decide (l.serial ≠ launch)
      plumbRng := (getCore t c).w.plumbRng
      part := (getCore t c).w.part } } ∧
    (∀ k, k ≠ ckey c → tget Core.idle t.cores k = tget Core.idle d.cores k) ∧ MemSame d t ∧ t.beyondCores = d.beyondCores ∧
    ((findLaunch (getCore d c).w launch).all (fun l => l.hook.isSome) = true → (getCore t c).w.part = (getCore d c).w.part) ∧
    ∀ l, findLaunch (getCore d c).w launch = some l → l.hook = none → Arrived c 3 (parcelOf d c) 1 true l.stake t ∧
      (getCore t c).w.part = (getCore d c).w.part.map fun p => { p with
        out := p.out - 1
        opFault := if p.opFault = .none then f else p.opFault
        opTick := if p.opFault = .none then d.tick else p.opTick
        opSub := if p.opFault = .none then sub else p.opSub }

/-- An agent has faulted: a sequencer (R40), or a crew with its launch (R39). -/
def AgentFaulted (a : Agent) (f : FaultCode) (sub : Nat) (d t : Dev) : Prop :=
  match a with
  | .seq c => SeqFaulted c f sub d t
  | .crew c slot => ∀ k, getCrew d c slot = some k → LaunchStopped c k.launch f sub d t

/-- A record has reached the ring of a die (R579, R582, R584): an entry with its source, kind and code counts one repeat more; else the first free entry
holds it with the ring's next number; and a ring without a free entry counts it as dropped. -/
def Logged (die : Nat) (x : ErrInfo) (d t : Dev) : Prop :=
  (∀ e, findEntry (getRing d die) (isRepeat · x) = some e → ringEntry (getRing t die) e = { ringEntry (getRing d die) e with
    rep := min 0xFFFF ((ringEntry (getRing d die) e).rep + 1)
    last := BitVec.ofNat 64 d.tick }) ∧
  (findEntry (getRing d die) (isRepeat · x) = none → ∀ e, findEntry (getRing d die) (fun y => !y.valid) = some e →
    ringEntry (getRing t die) e = ⟨true, x.sev.num, sevClass x.sev x.kind, x.src, x.kind, x.code.num, 0, x.sub, BitVec.ofNat 64 d.tick,
      BitVec.ofNat 64 d.tick, x.detail.map (BitVec.ofNat 64), (getRing d die).next⟩ ∧ (getRing t die).next = (getRing d die).next + 1) ∧
  (findEntry (getRing d die) (isRepeat · x) = none → findEntry (getRing d die) (fun y => !y.valid) = none → x.sev ≠ .fatal →
    (getRing t die).dropped = min 0xFFFF ((getRing d die).dropped + 1) ∧ (getRing t die).overflow = true)

/-! ### Stakes -/

/-- An agent's stake operation stands last in its port of the stake's hub (R62: port 0 from the hub's own cores, port 2 from elsewhere); every other
queue is as before, and beyond the agent's core nothing else has changed. -/
def Sent (a : Agent) (id : StakeId) (act : StakeAct) (d t : Dev) : Prop :=
  (∃ word, getHub t (stakeDie id) (stakeHub id) =
    (getHub d (stakeDie id) (stakeHub id)).setPort (if ownCore id a.core then 0 else 2)
      ((getHub d (stakeDie id) (stakeHub id)).port (if ownCore id a.core then 0 else 2) ++
        [⟨act, id, .agent a (agentRun d a) (agentPc d a) word (agentMask d a), some (parcelOf d a.core)⟩])) ∧
    (∀ k, k ≠ 13 * stakeDie id + stakeHub id → tget Hub.empty t.hubs k = tget Hub.empty d.hubs k) ∧
    OnlyCore a.core { d with hubs := t.hubs, serial := t.serial } t

/-- Of all stakes only `id` may have changed, no memory, and nothing beyond the cores. -/
def StakeOnly (id : StakeId) (d t : Dev) : Prop :=
  (∀ j : StakeId, j ≠ id → getStake t j = getStake d j) ∧ MemSame d t ∧ t.beyondCores = d.beyondCores

/-- An agent's wait has ended with an outcome (R60): s31 of the sequencer holds it, p7 of a crew's active threads says whether it is 0; every other
register is as before. -/
def Woken (a : Agent) (outcome : Nat) (d t : Dev) : Prop :=
  match a with
  | .seq c => seqOf t c = { seqOf d c with s := tset 0 (seqOf d c).s 31 (BitVec.ofNat 64 outcome), wait := none }
  | .crew c slot => ∃ k x, getCrew d c slot = some k ∧ getCrew t c slot = some x ∧ x = { k with p := x.p, wait := none } ∧
      (∀ q, q ≠ 7 → x.pred q = k.pred q) ∧ ∀ lane, lane < 32 →
        (x.pred 7).getLsbD lane = if k.mask.getLsbD lane then decide (outcome = 0) else (k.pred 7).getLsbD lane

/-- A waiter's wait has ended with an outcome (R60, R66): an agent goes on, a unit or a block has its wake. -/
def Ended (w : StakeWait) (outcome : Nat) (d t : Dev) : Prop :=
  match w.w with
  | .agent a => waitLive d (.agent a) w.serial = true → Woken a outcome d t
  | u => ⟨u, outcome⟩ ∈ t.wakes

/-- The hub of a die presents one operation: it stands at the front of port p and no link on its way retrains, and the others of the cycle are
none (R62, R410). -/
def Presents (die hub p : Nat) (op : StakeOp) (rest : List StakeOp) (d : Dev) : Prop :=
  p < 4 ∧ (getHub d die hub).port p = op :: rest ∧ routeBusy d op.die die = false

/-- What adding inc to COUNT leaves (R55, R58, R59, R64): the sum, saturating; and where AUTO_RESET is set and the sum has reached TARGET, the sum less
TARGET (1 for a TARGET of 0). -/
def countAfter (k : Stake) (inc : Nat) : Nat :=
  let goal := if k.autoReset ∧ k.target = 0 then 1 else k.target.toNat
  let total := min (k.count.toNat + inc) 0xFFFFFFFF
  if k.autoReset ∧ goal ≤ total then total - goal else total

/-- Adding inc to COUNT is a completion (R55, R64): the sum has reached TARGET, and the stake has AUTO_RESET or was not complete before. -/
def Reached (k : Stake) (inc : Nat) : Prop :=
  k.goal ≤ min (k.count.toNat + inc) 0xFFFFFFFF ∧ (k.autoReset = true ∨ k.complete = false)

/-- An arrival or claim has added inc to a stake (R55, R58, R59, R60, R64): COUNT, SATURATED and FAULTED are what R58 to R64 give, and a completion ends the
wait of every registered waiter, with outcome 1 where FAULTED is set and 0 where it is not; polling waiters stay, and without a completion all do. -/
def Added (id : StakeId) (inc : Nat) (f : Bool) (d t : Dev) : Prop :=
  (∃ ws, getStake t id = { getStake d id with
    count := BitVec.ofNat 32 (countAfter (getStake d id) inc)
    saturated := (getStake d id).saturated || decide (0xFFFFFFFF < (getStake d id).count.toNat + inc)
    faulted := (getStake d id).faulted || f
    waiters := ws } ∧
    (Reached (getStake d id) inc → ws = (getStake d id).waiters.filter StakeWait.polling) ∧
    (¬Reached (getStake d id) inc → ws = (getStake d id).waiters)) ∧
  (Reached (getStake d id) inc → ∀ w ∈ (getStake d id).waiters, w.polling = false → Ended w (if (getStake d id).faulted || f then 1 else 0) d t) ∧
  (¬Reached (getStake d id) inc → t.wakes = d.wakes)

/-- The reply to a claim or test has reached its agent (R682, R98): the register rd holds v, in the threads of the mask for a crew, and is no longer in flight;
everything else of the agent is as before. -/
def Replied (a : Agent) (rd : Nat) (mask : W32) (v : W64) (d t : Dev) : Prop :=
  match a with
  | .seq c => seqOf t c = { seqOf d c with s := tset 0 (seqOf d c).s rd v, inflight := (seqOf d c).inflight.erase rd }
  | .crew c slot => ∃ k x, getCrew d c slot = some k ∧ getCrew t c slot = some x ∧ x = { k with v := x.v, inflight := k.inflight.erase rd } ∧
      ∀ lane q, lane < 32 → q < 64 → x.reg lane q = if mask.getLsbD lane ∧ q = rd then v.setWidth 32 else k.reg lane q

/-- The agent is there: a sequencer, or a crew in its slot. -/
def There (a : Agent) (d : Dev) : Prop := ∀ c slot, a = .crew c slot → (getCrew d c slot).isSome = true

/-! ### Units -/

/-- A stake accepts operations of a parcel (R52, R53). -/
def StakeGood (d : Dev) (id : StakeId) (parcel : Nat) : Prop :=
  stakeDie id < d.part.dies ∧ (getStake d id).enable = true ∧ (getStake d id).parcel = parcel

/-- The scalar registers a D-format instruction names (R97). -/
def dRegs (o : DOp) (hreg : Bool) : List Nat :=
  (if o.ssel = 1 then [o.sreg.toNat] else []) ++ (if hreg then [o.hreg.toNat] else [])

/-- The sequencer has issued one operation more (R428, R429) and is at its next instruction; nothing else of the work has changed. -/
def Work.issued (w : Work) (descr : Bool) : Work :=
  { w with
    seq := { w.seq with pc := w.seq.pc + 1 }
    part := w.part.map fun p => { p with out := p.out + 1, issued := p.issued + if descr then 1 else 0 } }

/-- A D-format instruction whose completion stake accepts it enters its unit's queue with its address, handle, stake and parcel, and the
sequencer goes on (R28); `put` is what the queue becomes, and nothing else of the device changes. -/
def DQueues (i : CoreId → DOp → Instr) (kind opc : Nat) (hreg : Bool) (full : DOp → Core → Prop) (put : DOp → Op → Work → Work) : Prop :=
  ∀ c o s op, Fits (i c o) s → CanIssue (.seq c) (i c o) (dRegs o hreg) s.dev →
    op = ⟨s.dev.serial, kind, opc, areg s.dev c o.da.toNat, if hreg then (sreg s.dev c o.hreg.toNat).setWidth 32 else 0,
      if o.ssel = 1 then (sreg s.dev c o.sreg.toNat).setWidth 17 else o.stake, parcelOf s.dev c, []⟩ →
    StakeGood s.dev op.stake op.parcel →
    (¬full o (getCore s.dev c) → Completes (i c o) s fun t => OnlyCore c { s.dev with serial := s.dev.serial + 1 } t ∧
      getCore t c = { getCore s.dev c with w := put o op ((getCore s.dev c).w.issued (decide (kind ≠ 0))) }) ∧
    (full o (getCore s.dev c) → exec (i c o) s = .next s)

/-- A D-format instruction whose completion stake is refused faults the sequencer, and nothing enters a queue (R54). -/
def DRefuses (i : CoreId → DOp → Instr) (hreg : Bool) : Prop :=
  ∀ c o s id, Fits (i c o) s → CanIssue (.seq c) (i c o) (dRegs o hreg) s.dev →
    id = (if o.ssel = 1 then (sreg s.dev c o.sreg.toNat).setWidth 17 else o.stake) →
    (s.dev.part.dies ≤ stakeDie id → Completes (i c o) s (SeqFaulted c .addressAbsent 0 s.dev)) ∧
    (stakeDie id < s.dev.part.dies → ¬StakeGood s.dev id (parcelOf s.dev c) → Completes (i c o) s (SeqFaulted c .stakeDenied 0 s.dev))

/-- Work of a core's units went on: no sequencer register and no crew of the core, no other core, and nothing beyond running work has changed. -/
def UnitOnly (c : CoreId) (d t : Dev) : Prop :=
  seqOf t c = seqOf d c ∧ (getCore t c).w.crews = (getCore d c).w.crews ∧
    (∀ k, k ≠ ckey c → tget Core.idle t.cores k = tget Core.idle d.cores k) ∧ t.beyondWork = d.beyondWork

/-- A core has been fenced (R186): it takes no more work, its crews, launches, cube operations and loads are gone, and its sequencer has stopped. -/
def Fenced (c : CoreId) (cause : Nat) (d t : Dev) : Prop :=
  (getCore t c).fenced = true ∧ (getCore t c).cause = cause ∧ (getCore t c).w.crews = [] ∧ (getCore t c).w.launchQ = [] ∧
    (getCore t c).w.launches = [] ∧ (getCore t c).w.quant = [] ∧ (getCore t c).w.tloads = [] ∧ (getCore t c).w.sloads = [] ∧
    (∀ u, u < 4 → (getCube t c u).queue = [] ∧ (getCube t c u).head = none ∧ (getCube t c u).run = none ∧ (getCube t c u).post = [] ∧
      (getCube t c u).acc = (getCube d c u).acc) ∧
    seqOf t c = { seqOf d c with st := if (seqOf d c).st = .idle then .idle else .faulted, inflight := [], wait := none } ∧ t.beyondWork = d.beyondWork

/-- An operation has left a cube, with nothing behind it: the cube holds no operation past its steps, and the one arrival is made, with FAULTED
where `faulted` says so (R29, R228). -/
def CubeEnded (c : CoreId) (u : Nat) (op : Op) (faulted : Bool) (d t : Dev) : Prop :=
  UnitOnly c d t ∧ (getCube t c u).run = none ∧ (getCube t c u).post = [] ∧ Arrived c 1 op.parcel 1 faulted op.stake t

/-- A step sum from a row of A and a column of B as loaded (R135 to R137): floating products, each rounded to FP32, summed by the fixed tree; the exact
sum of INT8 products; the exact sum of INT4 products times the combined block factor, rounded to FP32. -/
def stepSum (cls : StepClass) (fa fb : Nat) (ftz : Bool) (ra rb : List (Option (Nat × Nat))) : W32 :=
  let int : W32 := BitVec.ofInt 32 ((ra.zip rb).map fun x => elInt fa x.1 * elInt fb x.2).sum
  let factor (r : List (Option (Nat × Nat))) : Nat := (((r.find? Option.isSome).join).map Prod.snd).getD 127
  match cls with
  | .int8 => int
  | .int4 => int4Sum (factor ra) (factor rb) int
  | _ => fixedTree add32 0 ((ra.zip rb).map fun x => c32 ((elVal fa ftz x.1).mul (elVal fb ftz x.2)))

/-- An accumulator element after a step sum (R136, R137): the FP32 sum with ties to even, or the INT32 sum, saturating, with its mark kept. -/
def accumulated (int : Bool) (old : W32 × Bool) (sum : W32) : W32 × Bool :=
  let i := old.1.toInt + sum.toInt
  if int then (BitVec.ofInt 32 (max (-2 ^ 31) (min (2 ^ 31 - 1) i)), old.2 || decide (i < -2 ^ 31 ∨ 2 ^ 31 - 1 < i)) else (add32 old.1 sum, false)

/-- Steps 1 and 2 of R171 for element (i, j) of an accumulator: an INT32 element bound for a floating output becomes FP32 with RND, a stochastic RND giving
ties to even; DRAIN_SCALE multiplies by entry SCALE_BASE + j of the scale file, with ties to even. -/
def drained (d : Dev) (c : CoreId) (o : RunOp) (j : Nat) (v : W32) : FV :=
  let x : FV := if o.isInt = true ∧ o.fmts.c = 10 then FV.ofInt v.toInt
    else if o.isInt = true then
      fp32.val (fp32.round (if o.fmts.rnd = 1 then .rna else if o.fmts.rnd = 2 then .rtz else .rne) false false false (FV.ofInt v.toInt)).code
    else v32 v
  match o.drainScale with
  | some b => mulR x (v32 (scaleAt d c o.bank (b + j)))
  | none => x

/-- The excess of one row's check (R180): |r − q| beyond the threshold max(2⁻¹⁸ × m, 2⁻¹²⁶), from the step sums t of the row, its elements a, and by
reduction position the sums and magnitude sums of the other operand. -/
def checkExceeds (t a sums mags : List FV) : Bool :=
  let m := csum ((a.zip mags).map fun x => rck (x.1.abs.mul x.2))
  let floor : FV := .fin false 1 (-126)
  (if (m.scale (-18)).lt floor then floor else m.scale (-18)).lt (rck ((csum t).add (csum ((a.zip sums).map fun x => rck (x.1.mul x.2))).neg)).abs

/-- Records go to their ledger slots one after the other (R242, R243): the device after them, and the code of the first write that fails. -/
def putRecords : Dev → List (Addr × W32 × W32) → Dev × FaultCode
  | d, [] => (d, .none)
  | d, (a, x, y) :: rest =>
    match devWriteAll d a (leBytes 4 x.toNat ++ leBytes 4 y.toNat) with
    | (d, .error f) => (d, f)
    | (d, .ok ()) => putRecords d rest

/-- A cube's unit has an arrival with increment 1 on its way to a stake (R243, R250); a stake on a die the part lacks receives none. -/
def SentTo (c : CoreId) (id : StakeId) (parcel : Nat) (faulted : Bool) (t : Dev) : Prop :=
  stakeDie id < t.part.dies → ⟨.arrive 1 faulted, id, .unit 1 c.die, some parcel⟩ ∈
    (getHub t (stakeDie id) (stakeHub id)).port (if ownCore id c then 1 else 2)

/-! ### Commands -/

/-- A unit of die `die` that is no core's has sent its arrival (R29): the operation stands last in the queue of its hub's port, port 3 on its own die and
port 2 from another (R62). -/
def BlockArrived (die code : Nat) (parcel : Option Nat) (inc : Nat) (faulted : Bool) (id : StakeId) (t : Dev) : Prop :=
  stakeDie id < t.part.dies → ∃ q, (getHub t (stakeDie id) (stakeHub id)).port (if stakeDie id = die then 3 else 2) =
    q ++ [⟨.arrive inc faulted, id, .unit code die, parcel⟩]

/-- The one command of a channel has completed (R426), from the device d with the channel at k: it has left the channel, TAIL is one higher, memory is what
writing its record at the next record number leaves, DONE_STAKE is arrived at, and a RUN has replaced the fence bitmap (R592); no other channel and no core has
changed. -/
def CmdDone (ch : Nat) (k : Channel) (x : Cmd) (cancelled loadBad : Bool) (own : FaultCode) (d t : Dev) : Prop :=
  getChan t ch = { k with
    cmds := []
    rtail := k.rtail + 1
    fence := if x.op = 1 then x.fenceBits else k.fence
    noticed := (getChan t ch).noticed
    noticeDue := (getChan t ch).noticeDue } ∧
  (∀ j, j ≠ ch → getChan t j = getChan d j) ∧ t.cores = d.cores ∧
  MemSame (devWriteAll d (k.compl + BitVec.ofNat 52 (k.rtail.toNat % 2 ^ k.complOrder * 32))
    (recordBytes d.tick x (1 - k.rtail.toNat / 2 ^ k.complOrder % 2 + x.status cancelled loadBad) (x.faultOf own))).1 t ∧
  ∀ id, x.done = some id → BlockArrived (homeDie d ch) 5 (some k.parcelIdx) 1 (decide (x.status cancelled loadBad / 2 % 2 = 1) || cancelled) id t

/-! ### Placement and pre-emption -/

/-- A core holds the valid residency tag of a part of a channel (R459). -/
def TagHeld (d : Dev) (ch part : Nat) (c : CoreId) : Prop :=
  (getCore d c).tagValid = true ∧ (getCore d c).tagChan = ch ∧ (getCore d c).tagPart = part

/-- Entry n of the list of R459, for a part whose tag core h holds, or no core: h itself, a core of its cluster, a core of its die, a core without a valid
tag, any core. -/
def PlaceEntry (d : Dev) (h : Option CoreId) (n : Nat) (c : CoreId) : Prop :=
  match n with
  | 1 => h = some c
  | 2 => ∃ x, h = some x ∧ c.die = x.die ∧ c.core / 12 = x.core / 12
  | 3 => ∃ x, h = some x ∧ c.die = x.die
  | 4 => (getCore d c).tagValid = false
  | _ => True

/-- The core of R459 among those of a parcel in the order of their ranks: a free one of the first entry that has a free one, of the lowest rank within it. -/
def PlacedOn (d : Dev) (cores : List CoreId) (h : Option CoreId) (c : CoreId) : Prop :=
  coreFree d c = true ∧ ∃ n, 1 ≤ n ∧ n ≤ 5 ∧ PlaceEntry d h n c ∧ (∀ m, 1 ≤ m → m < n → ∀ x ∈ cores, coreFree d x = true → ¬PlaceEntry d h m x) ∧
    ∃ pre post, cores = pre ++ c :: post ∧ ∀ x ∈ pre, coreFree d x = true → ¬PlaceEntry d h n x

/-- A part of a PRIORITY may pre-empt the part r that runs on a core (R457, R463): HIGH over BATCH, REAL_TIME over all below it, and not within 1 ms of a
resume. -/
def MayYield (d : Dev) (prio : Nat) (c : CoreId) (r : PartRun) : Prop :=
  (getCore d c).w.part = some r ∧ (getCore d c).sched = 1 ∧ (getCore d c).fenced = false ∧ ((prio = 2 ∧ r.prio = 0) ∨ (prio = 3 ∧ r.prio < 3)) ∧
    ∀ n, r.resumed = some n → n + milli ≤ d.tick

/-- The victim of R463 among the cores of a parcel: the lowest PRIORITY, then the latest start. -/
def Victim (d : Dev) (cores : List CoreId) (prio : Nat) (c : CoreId) : Prop :=
  c ∈ cores ∧ ∃ r, MayYield d prio c r ∧ ∀ x ∈ cores, ∀ y, x ≠ c → MayYield d prio x y → r.prio < y.prio ∨ (r.prio = y.prio ∧ y.started < r.started)

/-! ### Links -/

/-- Work of the link engines and ports went on: no sequencer, no crew, no stake and nothing beyond running work has changed. -/
def LinkWork (d t : Dev) : Prop :=
  (∀ c, seqOf t c = seqOf d c ∧ (getCore t c).w.crews = (getCore d c).w.crews) ∧ t.stakes = d.stakes ∧ t.beyondWork = d.beyondWork

/-- A port has nothing to send: no stream, message or chunk waits on it, and no transfer of it waits for a slot. -/
def PortQuiet (die port : Nat) (d : Dev) : Prop :=
  (getPort d die port).out = [] ∧ (getPort d die port).msgs = [] ∧ (∀ v, v < 8 → dueChunk d die port v = none ∧ nextXfer d die port v = none) ∧
    ∀ x ∈ d.xfers, x.die = die → x.port = port → x.slot < 256

/-- The status block of an operation of a die's link engine, if it asks for one, need not wait for slices or links (R370, R410). -/
def StatusReady (die : Nat) (l : LinkOp) (d : Dev) : Prop := l.status = 0 ∨ extentBusy d die l.status 32 = false

/-- An operation has left a die's link engine (R499): its one arrival is made, with FAULTED where `faulted` says so (R29). -/
def LopDone (die : Nat) (l : LinkOp) (faulted : Bool) (d t : Dev) : Prop :=
  LinkWork d t ∧ (∀ y ∈ getLinks t die, y.op.serial ≠ l.op.serial) ∧ BlockArrived die 6 (some l.op.parcel) 1 faulted l.op.stake t

/-! ### Media -/

/-- A frame has completed (R29, R537): it has left its session's queue and its one arrival is made, with FAULTED for a code; no sequencer, no crew and nothing
beyond running work has changed. -/
def FrameDone (idx : Nat) (x : Frame) (f : FaultCode) (d t : Dev) : Prop :=
  (∀ c, seqOf t c = seqOf d c ∧ (getCore t c).w.crews = (getCore d c).w.crews) ∧ t.beyondWork = d.beyondWork ∧
    (∀ y ∈ (getSess t idx).queue, y.num ≠ x.num) ∧ BlockArrived (idx / 32) 7 (some x.op.parcel) 1 (decide (f ≠ .none)) x.op.stake t

/-- A frame among which pipe q of a die chooses (R544): the oldest accepted frame of session i, not started, whose wait has ended well; no END, and no encode
frame whose deadline has passed (R547). -/
def Choosable (d : Dev) (die q i : Nat) (x : Frame) : Prop :=
  i / 32 = die ∧ (getSess d i).state ≠ 0 ∧ b2n (getSess d i).dec = q ∧ (getSess d i).queue.head? = some x ∧ x.started = false ∧ x.isEnd = false ∧
    ((getSess d i).dec = false → x.passed d.tick = false) ∧
    (x.waiting = true → ∃ e, takeWake d (.frame die (i % 32) x.num) = some (0, e))

/-- The order of R544 between frames of sessions i and j: LIVE first, by DEADLINE, where 0 counts as latest, then by INDEX; then STANDARD, then BATCH,
each in acceptance order. -/
def FrameBefore (d : Dev) (i : Nat) (x : Frame) (j : Nat) (y : Frame) : Prop :=
  (getSess d i).prio < (getSess d j).prio ∨ ((getSess d i).prio = (getSess d j).prio ∧
    if (getSess d i).prio = 0 then (x.deadline ≠ 0 ∧ (y.deadline = 0 ∨ x.deadline < y.deadline)) ∨ (x.deadline = y.deadline ∧ i < j)
    else x.order < y.order)

/-- The frame that a pipe takes of those it may choose (R544). -/
def ChosenFrame (d : Dev) (die q i : Nat) (x : Frame) : Prop :=
  Choosable d die q i x ∧ ∀ j y, Choosable d die q j y → j ≠ i → FrameBefore d i x j y

/-- The 32 bytes of the status block of a frame (R537): FAULT and LATE as they end it, PTS of its descriptor, and the rest as its coding left it. -/
def StatusBlock (x : Frame) (f : FaultCode) (late : Bool) (b : List Byte) : Prop :=
  b.length = 32 ∧ nfld (leNat b) 7 0 = f.num ∧ nfld (leNat b) 10 10 = b2n late ∧ nfld (leNat b) 9 8 = fld (x.status.getD 0 0) 9 8 ∧
    nfld (leNat b) 63 11 = fld (x.status.getD 0 0) 63 11 ∧ nfld (leNat b) 127 64 = x.f 8 63 0 ∧
    nfld (leNat b) 191 128 = (x.status.getD 1 0).toNat ∧ nfld (leNat b) 255 192 = (x.status.getD 2 0).toNat

/-! ### Halts and management -/

/-- A die has halted (R588): its cores are fenced, its ports are DOWN and its pipes idle; every other die keeps its own halt, its port states, pipes and
sessions, and its cores all but the accounts of parts whose work stood on the halted die. -/
def HaltedDie (die : Nat) (d t : Dev) : Prop :=
  halted t die = true ∧ (∀ x, x ≠ die → halted t x = halted d x) ∧
    (∀ core, core < 144 → (getCore t ⟨die, core⟩).fenced = true ∧ (getCore t ⟨die, core⟩).w.crews = [] ∨ (getCore d ⟨die, core⟩).fenced = true) ∧
    portState t die 0 = 0 ∧ portState t die 1 = 0 ∧ getPipe t die 0 = Pipe.empty ∧ getPipe t die 1 = Pipe.empty ∧
    (∀ c, c.die ≠ die → c.core < 144 → getCore t c = { getCore d c with
      w := { (getCore d c).w with part := (getCore t c).w.part }
      held := (getCore t c).held }) ∧
    (∀ x p, x ≠ die → p < 2 → portState t x p = portState d x p ∧ getPipe t x p = getPipe d x p) ∧
    ∀ i, i / 32 ≠ die → getSess t i = getSess d i

/-- The management target answers a transfer to its address (R614): the package is released, and it has a dynamic address, is in SMBus mode, or has not
seen the broadcast address, so that this is its first legacy transfer. -/
def Addressed (d : Dev) : Prop := d.pkg.released = true ∧ (d.mgmt.dyn.isSome = true ∨ d.mgmt.smbus = true ∨ d.mgmt.broadcast = false)

/-! ### Start-up -/

/-- Start-up of the dies went on: registers, the dies' start-up records and the package's messages may have changed, and nothing else. -/
def BootOnly (d t : Dev) : Prop := { t with regs := d.regs, boot := d.boot, pkg := { t.pkg with messages := d.pkg.messages } } = d

/-- A scan through die `die`'s new instruction (R674): the other TAPs keep their instructions and update values, PKG_TDO first gives what the instruction
registers captured, 0b0000_0001 for each die, and nothing else changes but free values. -/
def Scanned (die : Nat) (d t : Dev) : Prop :=
  { t with taps := d.taps, free := d.free, pkg := d.pkg } = d ∧ t.pkg = { d.pkg with tdo := t.pkg.tdo } ∧
    (∀ x, x ≠ die → getTap t x = { getTap d x with dr := (getTap t x).dr }) ∧
    t.pkg.tdo.take (8 * d.part.dies) = (List.range d.part.dies).flatMap fun _ => true :: List.replicate 7 false

/-- READY was not written in this tick (R654). -/
def NotJustReady (d : Dev) : Prop := ∀ x, d.pkg.readyAt = some x → x.1 ≠ d.tick

/-- Die 0 accepts READY with a map (R649): PRESENT (2) for every die of the part and ABSENT (0) for the others, each die DONE without a failure and with die 0's
header digest, the ticks aligned; and no die MISSING, UNREACHED (R650), halted or tripped (R654). -/
def ReadyAccepted (d : Dev) (map : Nat) : Prop :=
  (∀ x, x < 8 → map / 2 ^ (3 * x) % 8 = if x < d.part.dies then 2 else 0) ∧ d.pkg.aligned = true ∧
    ∀ die, die < d.part.dies → bootPhase d die = 3 ∧ bootFail d die = 0 ∧ (getBoot d die).digest ≠ [] ∧ (getBoot d die).digest = (getBoot d 0).digest ∧
      missing d die = false ∧ unreached d die = false ∧ halted d die = false ∧ tripped d die = false

/-- No SVN burn is in progress (R604, R616). -/
def NoBurn (d : Dev) : Prop := ∀ b, d.station.burn = some b → b.since + burnTicks ≤ d.tick

/-- What package reset leaves (R631, R661): everything as at reset but the part, the fuses, the pins and a latched trip. -/
def AfterReset (d t : Dev) : Prop :=
  t.part = d.part ∧ t.tick = 0 ∧ t.mem = [] ∧ t.cores = [] ∧ t.stakes = [] ∧ t.chans = [] ∧ t.parcels = [] ∧ t.errs = [] ∧ t.taps = [] ∧ t.meas = [] ∧
    t.boot = [] ∧ t.pkg.released = false ∧ t.pkg.aligned = false ∧ pkgReady t = false

/-! ### Registers -/

/-- Only registers have changed, with the error records, events and PKG_ALERT_N that the change may raise, poison marks, cache lines and the counts of
the memory controllers: no core, stake, hub, byte of memory or anything beyond. -/
def NotesOnly (d t : Dev) : Prop :=
  t.cores = d.cores ∧ t.stakes = d.stakes ∧ t.hubs = d.hubs ∧ t.wakes = d.wakes ∧ t.mem = d.mem ∧
    { t.beyondUnits with
      laneCounts := []
      ueCounts := [] } = { d.beyondUnits with
      laneCounts := []
      ueCounts := [] }

/-- A write that the block ignores has changed nothing but what NotesOnly names, and die `die` has the record of kind 68 with the register's address and
the value (R25, R581). -/
def Ignored (die addr v : Nat) (d t : Dev) : Prop :=
  NotesOnly d t ∧ Logged die ⟨191, 68, .none, .info, 0, [addr, v]⟩ d t

/-! ### The decoder's tests -/

/-- Who issues the opcodes of a class (R87, R101 to R109): whether the sequencer may, and whether a crew may; none for an opcode that no table lists. -/
def issuersOf (cls op : Nat) : Option (Bool × Bool) :=
  let seq := some (true, false)
  let crew := some (false, true)
  let both := some (true, true)
  match cls with
  | 0 => if op ∈ [0x00, 0x08, 0x20] then both else if op ∈ [0x01, 0x03, 0x09, 0x0A, 0x0D, 0x0E, 0x10] then seq
    else if op ∈ [0x02, 0x0B, 0x0C, 0x18, 0x19, 0x1A] then crew else none
  | 1 => if op ≤ 0x0C ∨ op ∈ [0x10, 0x12, 0x14, 0x15, 0x18, 0x19, 0x20, 0x21, 0x22, 0x23] then seq else none
  | 2 => if op ≤ 0x0E ∨ (0x10 ≤ op ∧ op ≤ 0x14) ∨ op ∈ [0x18, 0x19, 0x1C, 0x1D] then crew else none
  | 3 => if op ≤ 0x0D then crew else if op = 0x20 then seq else none
  | 4 => if op ≤ 0x04 ∨ op = 0x08 then seq else none
  | 5 => if op ≤ 0x04 then seq else none
  | 6 => if op ≤ 0x04 then both else none
  | 7 => if op ≤ 0x01 then seq else none
  | 8 => if op = 0 then crew else if op ≤ 3 then seq else none
  | _ => none

/-- The bits of a field of n bits from bit lo. -/
def fieldBits (lo n : Nat) : W64 := BitVec.ofNat 64 ((2 ^ n - 1) * 2 ^ lo)

/-- The bits of a list of fields. -/
def fieldsBits (l : List (Nat × Nat)) : W64 := l.foldl (fun x p => x ||| fieldBits p.1 p.2) 0

/-- The operand bits that an opcode gives a meaning (R94 to R98, R101 to R109), as fields (lowest bit, length); every other operand bit of a word is reserved
(R89). Which field of a stake a D or K word uses depends on its SSEL, which source of a count or target on NREG or TREG. -/
def operandFields (cls op : Nat) (w : W64) : List (Nat × Nat) :=
  let stake (ssel sreg n : Nat) : List (Nat × Nat) := (ssel, 1) :: if w.getLsbD ssel then [(sreg, n)] else [(0, 17)]
  let v3 (l : List (Nat × Nat)) : List (Nat × Nat) := [(42, 6), (36, 6), (33, 3), (32, 1), (14, 2), (13, 1), (12, 1)] ++ l
  match cls with
  | 0 => if op = 0x08 ∨ op = 0x0D then [(0, 32)] else if op = 0x09 ∨ op = 0x0A then [(43, 5), (0, 32)]
    else if op = 0x0B ∨ op = 0x0C ∨ op = 0x18 then [(43, 3), (0, 32)]
    else if op = 0x10 then [(40, 1), (17, 18), (0, 17), if w.getLsbD 40 then (35, 5) else (41, 7)]
    else if op = 0x20 then [(42, 6), (0, 8)] else []
  | 1 => if op < 0x0C then [(43, 5), (38, 5), (33, 5)] else if op = 0x0C then [(43, 5), (38, 5), (33, 5), (29, 4)]
    else if op = 0x10 then [(43, 5), (38, 5), (0, 32)] else if op = 0x12 then [(43, 5), (38, 5), (34, 4), (0, 32)]
    else if op = 0x14 then [(43, 5), (0, 40)] else if op = 0x15 then [(43, 5), (0, 24)]
    else if op = 0x18 ∨ op = 0x19 then [(43, 5), (39, 4), (37, 2), (36, 1), (0, 36)]
    else if op = 0x20 then [(44, 4), (35, 5)] else if op = 0x21 then [(40, 4), (35, 5)]
    else if op = 0x22 then [(44, 4), (40, 4), (35, 5)] else [(44, 4), (40, 4), (0, 32)]
  | 2 => if op ≤ 0x05 ∨ op = 0x0D ∨ op = 0x0E then v3 [(26, 6), (20, 6), (16, 4)] else if op = 0x06 ∨ op = 0x07 ∨ op = 0x10 then v3 [(16, 4)]
    else if op = 0x08 then [(42, 3), (36, 6), (33, 3), (32, 1), (26, 6), (20, 6), (16, 4), (14, 2), (13, 1), (12, 1), (8, 4)]
    else if op = 0x09 then v3 [(26, 6), (20, 6), (16, 4), (8, 3)] else if op = 0x0A ∨ op = 0x0B ∨ op = 0x0C then v3 [(26, 6), (20, 6)]
    else if op = 0x11 then [(42, 6), (33, 3), (32, 1), (0, 32)] else if op = 0x12 ∨ op = 0x13 ∨ op = 0x14 then [(42, 6), (36, 6), (33, 3), (32, 1), (0, 32)]
    else if op = 0x18 ∨ op = 0x19 then [(42, 6), (36, 6), (33, 3), (32, 1), (30, 2), (29, 1), (0, 24)]
    else if op = 0x1C then v3 [(26, 6), (16, 4)] else [(42, 6), (33, 3), (32, 1), (16, 4), (14, 2), (13, 1), (12, 1)]
  | 3 => if op = 0x20 then (40, 4) :: stake 39 34 5 else v3 [(16, 4), (7, 1)]
  | 4 => if op = 0x08 then (46, 2) :: stake 39 34 5 else [(46, 2), (40, 4)] ++ stake 39 34 5
  | 5 => (if op = 0x03 then [] else [(40, 4)]) ++ (if op = 0x00 then [] else [(29, 5)]) ++ stake 39 34 5
  | 6 => stake 41 35 6 ++ if op = 0x00 ∨ op = 0x01 then [(17, 16)] else if op = 0x02 then [(42, 6)] else if op = 0x04 then [(42, 6), (17, 16)]
    else (34, 1) :: if w.getLsbD 34 then [(42, 6)] else [(17, 16)]
  | 7 => [(40, 4), (29, 5)] ++ stake 39 34 5
  | _ => if op = 0 then [(42, 6), (36, 6), (33, 3), (32, 1), (28, 4), (24, 4), (14, 2), (13, 1), (12, 1)] else (40, 4) :: stake 39 34 5

/-- A number of a field of a word. -/
def wordNum (w : W64) (lo n : Nat) : Nat := (w.extractLsb' lo n).toNat

/-- A field that an opcode uses holds a number out of its range (R118, subcode 6): a launch count above 64, an unknown special register, a register beyond the
sequencer's file, or a reserved condition, size, type or format. -/
def rangeBad (cls op : Nat) (crew : Bool) (w : W64) : Bool :=
  let spec := wordNum w 0 8
  match cls with
  | 0 => if op = 0x10 then decide (w.getLsbD 40 = false ∧ 64 < wordNum w 41 7)
    else decide (op = 0x20 ∧ (¬(spec < 0x0B ∨ (0x10 ≤ spec ∧ spec < 0x20)) ∨ (crew = false ∧ 31 < wordNum w 42 6)))
  | 1 => decide (op = 0x0C ∧ 7 < wordNum w 29 4) || decide (op = 0x12 ∧ 7 < wordNum w 34 4)
  | 2 => if op = 0x18 ∨ op = 0x19 then decide (wordNum w 30 2 = 3) else if op = 0x0D ∨ op = 0x0E then decide (wordNum w 16 4 ≠ 3 ∧ wordNum w 16 4 ≠ 4)
    else if op = 0x08 then decide (4 < wordNum w 16 4 ∨ 7 < wordNum w 8 4)
    else if (0x0A ≤ op ∧ op ≤ 0x0C) ∨ (0x11 ≤ op ∧ op ≤ 0x14) then false else decide (4 < wordNum w 16 4)
  | 3 => decide (op < 0x20 ∧ (2 < wordNum w 16 4 ∨ (op = 0x0D ∧ w.getLsbD 7 = true)))
  | 6 => decide (crew = false ∧ ((w.getLsbD 41 = true ∧ 31 < wordNum w 35 6) ∨
      ((op = 0x02 ∨ op = 0x04 ∨ (op = 0x03 ∧ w.getLsbD 34 = true)) ∧ 31 < wordNum w 42 6)))
  | 8 => decide (op = 0 ∧ (wordNum w 28 4 ∉ [0, 1, 2, 3, 4, 8, 10] ∨ wordNum w 24 4 ∉ [0, 1, 2, 3, 4, 8, 10]))
  | _ => false

/-- The subcode of the first test of R118 that a word fails for an agent, in the order of the table; 0 where it passes them all. -/
def firstFailed (crew : Bool) (w : W64) : Nat :=
  let cls := wordNum w 60 4
  let op := wordNum w 52 8
  if 9 ≤ cls then 1
  else if wordNum w 48 4 ≠ 0 then 2
  else match issuersOf cls op with
    | none => 3
    | some p =>
      if (if crew then p.2 else p.1) = false then 4
      else if cls = 0 ∧ op = 0x20 ∧ crew = false ∧ (wordNum w 0 8 < 3 ∨ (0x10 ≤ wordNum w 0 8 ∧ wordNum w 0 8 < 0x20)) then 4
      else if w &&& fieldBits 0 48 &&& ~~~fieldsBits (operandFields cls op w) ≠ 0 then 5
      else if rangeBad cls op crew w = true then 6 else 0

/-! ### Shapes of statements -/

/-- The branch target of an agent: the offset counts instructions from the branch (R95). -/
def branchTarget (d : Dev) (a : Agent) (off : W32) : Int := (agentPc d a : Int) + off.toInt

/-- A target lies within the text region of the image that runs on the agent's core (R116). -/
def InText (d : Dev) (a : Agent) (t : Int) : Prop := 0 ≤ t ∧ t < textLen d a.core

/-- The agent goes on at instruction `pc` and nothing else changes. -/
def WentTo (a : Agent) (pc : Nat) (d t : Dev) : Prop := agentPc t a = pc ∧ t = setPc d a pc ∧ MemSame d t

/-- The condition CC of R112 on two 64-bit scalars: 0 to 5 signed, 6 and 7 unsigned. -/
def scalarHolds (cc : Nat) (x y : W64) : Bool :=
  match cc with
  | 0 => decide (x.toNat = y.toNat)
  | 1 => decide (x.toNat ≠ y.toNat)
  | 2 => decide (x.toInt < y.toInt)
  | 3 => decide (x.toInt ≤ y.toInt)
  | 4 => decide (y.toInt < x.toInt)
  | 5 => decide (y.toInt ≤ x.toInt)
  | 6 => decide (x.toNat < y.toNat)
  | 7 => decide (y.toNat ≤ x.toNat)
  | _ => false

/-- An S3 instruction completes with f of SA and SB in SD. -/
def ScalarComputes (i : CoreId → S3Op → Instr) (f : S3Op → W64 → W64 → W64) : Prop :=
  ∀ c o s, Fits (i c o) s → CanIssue (.seq c) (i c o) [o.sd.toNat, o.sa.toNat, o.sb.toNat] s.dev →
    Completes (i c o) s (SeqWrote c o.sd.toNat (f o (sreg s.dev c o.sa.toNat) (sreg s.dev c o.sb.toNat)) s.dev)

/-- An SI instruction completes with f of SA and the sign-extended IMM in SD. -/
def ScalarImmComputes (i : CoreId → SiOp → Instr) (f : SiOp → W64 → W64 → W64) : Prop :=
  ∀ c o s, Fits (i c o) s → CanIssue (.seq c) (i c o) [o.sd.toNat, o.sa.toNat] s.dev →
    Completes (i c o) s (SeqWrote c o.sd.toNat (f o (sreg s.dev c o.sa.toNat) (BitVec.ofInt 64 o.imm.toInt)) s.dev)

/-- A special register that both issuers may read (R93): CORE, DIE, TICK, TICK_HI, FEATURES, FEATURES_HI, PARCEL and PLUMB. -/
def specialOf (d : Dev) (c : CoreId) (spec : Nat) : W64 :=
  if spec = 3 then BitVec.ofNat 64 c.core
  else if spec = 4 then BitVec.ofNat 64 c.die
  else if spec = 5 then BitVec.ofNat 64 d.tick
  else if spec = 6 then BitVec.ofNat 64 (d.tick / 2 ^ 32 % 2 ^ 32)
  else if spec = 7 then 0x3FFF
  else if spec = 8 then 0
  else if spec = 9 then BitVec.ofNat 64 (parcelOf d c)
  else if ∃ p, (getCore d c).w.part = some p ∧ p.plumb = true then 1 else 0

/-- The crew went on to its next instruction; in threads of the mask m its register v[r] may have changed; every other register of every thread, its
predicates, masks and wait, every other crew, the sequencer, memory and all beyond the cores are as before. -/
def VecWrites (c : CoreId) (slot : Nat) (m : W32) (r : Nat) (d t : Dev) : Prop :=
  (∃ k x, getCrew d c slot = some k ∧ getCrew t c slot = some x ∧ x = { k with pc := k.pc + 1, v := x.v } ∧
    ∀ lane q, lane < 32 → q < 64 → ¬(m.getLsbD lane = true ∧ q = r) → x.reg lane q = k.reg lane q) ∧
  (∀ q, q ≠ slot → getCrew t c q = getCrew d c q) ∧ seqOf t c = seqOf d c ∧ MemSame d t ∧ t.beyondCores = d.beyondCores

/-- A V3 instruction completes with f of the thread in VD of every executing thread (R255), for operands that meet `cond`. -/
def VecComputes (i : CoreId → Nat → V3Op → Instr) (cond : V3Op → Prop) (f : V3Op → Crew → Nat → W32) : Prop :=
  ∀ c slot o s k, Fits (i c slot o) s → CanIssue (.crew c slot) (i c slot o) [o.vd.toNat, o.va.toNat, o.vb.toNat, o.vc.toNat] s.dev →
    getCrew s.dev c slot = some k → cond o →
    Completes (i c slot o) s (CrewWrote c slot (k.runs o.pred o.pneg) o.vd.toNat (f o) s.dev)

/-- A VI instruction completes with f of VA and IMM in VD of every executing thread. -/
def VecImmComputes (i : CoreId → Nat → ViOp → Instr) (f : W32 → W32 → W32) : Prop :=
  ∀ c slot o s k, Fits (i c slot o) s → CanIssue (.crew c slot) (i c slot o) [o.vd.toNat, o.va.toNat] s.dev →
    getCrew s.dev c slot = some k →
    Completes (i c slot o) s (CrewWrote c slot (k.runs o.pred o.pneg) o.vd.toNat (fun k lane => f (k.reg lane o.va.toNat) o.imm) s.dev)

/-- An integer result of R258: TYPE 3 is INT32, TYPE 4 is UINT32; modulo 2^32, or clamped where SAT is set. -/
def intOf (o : V3Op) (g : Int → Int → Int → Int) (k : Crew) (lane : Nat) : W32 :=
  let val (x : W32) : Int := if o.type = 3 then x.toInt else x.toNat
  let v := g (val (k.reg lane o.va.toNat)) (val (k.reg lane o.vb.toNat)) (val (k.reg lane o.vc.toNat))
  if o.sat = 0 then BitVec.ofInt 32 v
  else if o.type = 3 then BitVec.ofInt 32 (max (-2147483648) (min 2147483647 v)) else BitVec.ofInt 32 (max 0 (min 4294967295 v))

/-- The deterministic rounding modes of R111 and R139. -/
def nearest (rnd : BitVec 2) : Rnd := if rnd = 0 then .rne else if rnd = 1 then .rna else .rtz

/-- A floating result of R256 and R257: g of the exact operands, rounded once to TYPE; a pair's elements one by one. -/
def floatOf (o : V3Op) (g : FV → FV → FV → FV) (k : Crew) (lane : Nat) : W32 :=
  let ftz := decide (o.ftz = 1)
  let one (f : Fmt) (x y z : Nat) : Nat := (f.round (nearest o.rnd) ftz (decide (o.sat = 1)) false (g (f.read ftz x) (f.read ftz y) (f.read ftz z))).code
  let a := (k.reg lane o.va.toNat).toNat
  let b := (k.reg lane o.vb.toNat).toNat
  let e := (k.reg lane o.vc.toNat).toNat
  if o.type = 0 then BitVec.ofNat 32 (one fp32 a b e)
  else
    let f := if o.type = 1 then bf16 else fp16
    BitVec.ofNat 32 (one f (a % 65536) (b % 65536) (e % 65536) + 65536 * one f (a / 65536) (b / 65536) (e / 65536))

/-- A floating result that rounds nothing (R142): g of the operands is the value of a code of TYPE. -/
def floatExact (o : V3Op) (g : FV → FV → FV) (k : Crew) (lane : Nat) : W32 :=
  let one (f : Fmt) (x y : Nat) : Nat := (f.round .rne false false false (g (f.read (decide (o.ftz = 1)) x) (f.read (decide (o.ftz = 1)) y))).code
  let a := (k.reg lane o.va.toNat).toNat
  let b := (k.reg lane o.vb.toNat).toNat
  if o.type = 0 then BitVec.ofNat 32 (one fp32 a b)
  else
    let f := if o.type = 1 then bf16 else fp16
    BitVec.ofNat 32 (one f (a % 65536) (b % 65536) + 65536 * one f (a / 65536) (b / 65536))

/-- A code of n bits with m bits of fraction whose sign bit becomes g of what it was (R259): a subnormal code is read as a zero with FTZ, and a NaN gives the
canonical one (R150). -/
def signCode (n m : Nat) (ftz : Bool) (g : Bool → Bool) (x : Nat) : Nat :=
  let mag := x % 2 ^ (n - 1)
  let inf := 2 ^ (n - 1) - 2 ^ m
  if inf < mag then inf + 2 ^ (m - 1)
  else (if g (decide (2 ^ (n - 1) ≤ x)) then 2 ^ (n - 1) else 0) + if ftz ∧ mag < 2 ^ m then 0 else mag

/-- A floating result that changes the sign bit alone: of the FP32 value, or of each element of a BF16 or FP16 pair. -/
def signOf (o : V3Op) (g : Bool → Bool) (k : Crew) (lane : Nat) : W32 :=
  let a := (k.reg lane o.va.toNat).toNat
  let one (m x : Nat) : Nat := signCode 16 m (decide (o.ftz = 1)) g x
  if o.type = 0 then BitVec.ofNat 32 (signCode 32 23 (decide (o.ftz = 1)) g a)
  else
    let m := if o.type = 1 then 7 else 10
    BitVec.ofNat 32 (one m (a % 65536) + 65536 * one m (a / 65536))

/-- A V3 instruction of TYPE FP32, BF16 or FP16 under a mode that takes no draw. -/
def FloatForm (o : V3Op) : Prop := o.type.toNat < 3 ∧ o.rnd.toNat < 3

/-- A V3 instruction of TYPE INT32 or UINT32. -/
def IntForm (o : V3Op) : Prop := o.type = 3 ∨ o.type = 4

/-- The condition CC of R112 on two 32-bit integers of TYPE INT32 or UINT32. -/
def intHolds (o : V3Op) (x y : W32) : Bool :=
  let lt (u v : W32) : Bool := if o.type = 3 ∧ o.cc.toNat < 6 then decide (u.toInt < v.toInt) else decide (u.toNat < v.toNat)
  match o.cc.toNat with
  | 0 => decide (x = y)
  | 1 => decide (x ≠ y)
  | 2 => lt x y
  | 3 => !lt y x
  | 4 => lt y x
  | 5 => !lt x y
  | 6 => lt x y
  | 7 => !lt x y
  | _ => false

/-- The results that R265 lists for FP32 codes. -/
def sfnListed (f : Sfn) (x : W32) : Option W32 :=
  let mag := x &&& 0x7FFFFFFF
  let neg := decide (mag ≠ x)
  let row (ninf pinf zero : W32) : Option W32 :=
    if 0x7F800000#32 < mag then some 0x7FC00000
    else if x = 0xFF800000#32 then some ninf
    else if x = 0x7F800000#32 then some pinf
    else if mag = 0 then some zero
    else if neg ∧ (f = .log ∨ f = .log2 ∨ f = .sqrt ∨ f = .rsqrt) then some 0x7FC00000
    else if x = 0x3F800000#32 ∧ (f = .log ∨ f = .log2) then some 0
    else none
  match f with
  | .exp | .exp2 => row 0 0x7F800000 0x3F800000
  | .log | .log2 => row 0x7FC00000 0x7F800000 0xFF800000
  | .rcp => row 0x80000000 0 (x ||| 0x7F800000)
  | .sqrt => row 0x7FC00000 0x7F800000 x
  | .rsqrt => row 0x7FC00000 0 (x ||| 0x7F800000)
  | .sin => row 0x7FC00000 0x7FC00000 x
  | .cos => row 0x7FC00000 0x7FC00000 0x3F800000
  | .tanh | .erf => row 0xBF800000 0x3F800000 x
  | .sigm => row 0 0x3F800000 0x3F000000
  | .gelu | .silu => row 0x80000000 0x7F800000 x

/-- A special function completes: VD alone may change, in the executing threads; and under FP32 in normal mode without FTZ, with a mode that takes no draw, an
input that R265 lists gives its listed result. With BASE and no active bank the launch stops with TABLE_ABSENT (R268). -/
def SfnComputes (i : CoreId → Nat → V3Op → Instr) (f : Sfn) : Prop :=
  ∀ c slot o s k, Fits (i c slot o) s → CanIssue (.crew c slot) (i c slot o) [o.va.toNat, o.vd.toNat] s.dev →
    getCrew s.dev c slot = some k →
    ((o.base = 0 ∨ (getCore s.dev c).w.baseActive ≠ none) → Completes (i c slot o) s fun t =>
      VecWrites c slot (k.runs o.pred o.pneg) o.vd.toNat s.dev t ∧
        (o.type = 0 → o.base = 0 → o.ftz = 0 → o.rnd.toNat < 3 → ∀ lane y, lane < 32 → (k.runs o.pred o.pneg).getLsbD lane = true →
          sfnListed f (k.reg lane o.va.toNat) = some y → ∃ x, getCrew t c slot = some x ∧ x.reg lane o.vd.toNat = y)) ∧
    (o.base = 1 → (getCore s.dev c).w.baseActive = none → Completes (i c slot o) s (LaunchStopped c k.launch .tableAbsent 0 s.dev))

/-! ### The invariant -/

/-- What every step keeps: memory and the other tables are in order, and the part is one of those the manual lists (R2). -/
def Inv (s : State) : Prop := Tidy s.dev ∧ (s.dev.part.dies = 2 ∨ s.dev.part.dies = 4 ∨ s.dev.part.dies = 8)

end Sys2Proof.Machine
end

