-- ==== Sys2Proof/Certificates/Slice0/Obligations.lean ====
section
/-!
DEFINITION. The obligations: what the manual's rules say the block does, stated of the model for the provers. Each docstring names the rules;
where a statement rests on a choice of the model it names the log entry.
-/

open Sys2Proof Sys2Proof.Machine

/-- A step runs the command at the front of the queue (chapter 95, Operations table). For every command c and state s, a step of s with c at the front of its queue is exec of c on s with the rest of the queue. -/
def Obligations.StepRunsCommand : Prop :=
  ∀ (c : Instr) (s : State), step { s with pending := c :: s.pending } = exec c s

/-- On an empty queue a step only advances the datum tick (chapter 01, Time (R81): log 2). The model's choice (log 2): a step on an empty queue answers the same state with the tick count one higher, and nothing else changed; any number n of such steps adds n. -/
def Obligations.EmptyQueueTicks : Prop :=
  (∀ s : State, s.pending = [] → step s = .next { s with dev := { s.dev with tick := s.dev.tick + 1 } }) ∧
    ∀ (n : Nat) (s : State), s.pending = [] → Sys2Proof.core.run n s = .next { s with dev := { s.dev with tick := s.dev.tick + n } }

/-- Scalar instructions compute on 64-bit values and write one register (chapter 02, Opcodes (R102); chapter 02, Comparison (R112)). SCL.ADD, SUB, MUL, MULH, AND, OR, XOR, SHL, SHR, SAR, MIN, MAX and CMP, once the sequencer may issue them, complete: s[SD] is the result of R102 on 64-bit two's-complement values (shifts by SB[5:0], signed minimum and maximum, CC of R112), the sequencer is at its next instruction, every other scalar and address register, its stacks and its wait are as before, and so is every other core, register, stake and byte of memory. SCL.ADDI and SCL.CMPI complete with SA and the sign-extended IMM combined into SD; SCL.MOVI with its 40-bit IMM sign-extended; SCL.MOVH with SD[63:40] = IMM[23:0] and SD[39:0] as before. Nothing else changes but the program counter. Concludes that exec answers a next state (Completes) for: sclAdd, sclSub, sclMul, sclMulh, sclAnd, sclOr, sclXor, sclShl, sclShr, sclSar, sclMin, sclMax, sclCmp, sclAddi, sclCmpi, sclMovi, sclMovh. -/
def Obligations.ScalarInstructions : Prop :=
  (ScalarComputes .sclAdd (fun _ x y => x + y) ∧
    ScalarComputes .sclSub (fun _ x y => x - y) ∧
    ScalarComputes .sclMul (fun _ x y => x * y) ∧
    ScalarComputes .sclMulh (fun _ x y => BitVec.ofInt 64 (x.toInt * y.toInt / 2 ^ 64)) ∧
    ScalarComputes .sclAnd (fun _ x y => x &&& y) ∧
    ScalarComputes .sclOr (fun _ x y => x ||| y) ∧
    ScalarComputes .sclXor (fun _ x y => x ^^^ y) ∧
    ScalarComputes .sclShl (fun _ x y => x <<< (y.extractLsb' 0 6).toNat) ∧
    ScalarComputes .sclShr (fun _ x y => x >>> (y.extractLsb' 0 6).toNat) ∧
    ScalarComputes .sclSar (fun _ x y => x.sshiftRight (y.extractLsb' 0 6).toNat) ∧
    ScalarComputes .sclMin (fun _ x y => if x.toInt ≤ y.toInt then x else y) ∧
    ScalarComputes .sclMax (fun _ x y => if x.toInt ≤ y.toInt then y else x) ∧
    ScalarComputes .sclCmp (fun o x y => if scalarHolds o.cc.toNat x y then 1 else 0)) ∧
    (ScalarImmComputes .sclAddi (fun _ x y => x + y) ∧
    ScalarImmComputes .sclCmpi (fun o x y => if scalarHolds o.cc.toNat x y then 1 else 0) ∧
    (∀ c o s, Fits (.sclMovi c o) s → CanIssue (.seq c) (.sclMovi c o) [o.sd.toNat] s.dev →
      Completes (.sclMovi c o) s (SeqWrote c o.sd.toNat (BitVec.ofInt 64 o.imm.toInt) s.dev)) ∧
    ∀ c o s, Fits (.sclMovh c o) s → CanIssue (.seq c) (.sclMovh c o) [o.sd.toNat] s.dev →
      Completes (.sclMovh c o) s fun t => ∃ v, SeqWrote c o.sd.toNat v s.dev t ∧
        v.extractLsb' 40 24 = o.imm.extractLsb' 0 24 ∧ v.extractLsb' 0 40 = (sreg s.dev c o.sd.toNat).extractLsb' 0 40)

/-- No command touches the queue, and one whose operands do not fit is refused (chapter 95, Operations table; log 7 (DESIGN CHOICE): chapter 95, Operations table, which gives the commands and their operands). For every command and state, where exec answers a next state its queue is the queue it was given. The model's choice (log 7), for the manual does not say what such a command does: every command whose operands lie outside their fields is refused as ill-formed; every command that fits its fields but names a compute die the part does not have is refused as naming an absent unit. No state follows. -/
def Obligations.CommandsAndQueue : Prop :=
  (∀ (i : Instr) (s t : State), exec i s = .next t → t.pending = s.pending) ∧
    ((∀ (i : Instr) (s : State), i.wf = false → exec i s = .refused .illFormed) ∧
    ∀ (i : Instr) (s : State), i.wf = true → (∃ x ∈ i.dies, s.dev.part.dies ≤ x) → exec i s = .refused .absentUnit)

/-- Address register arithmetic wraps at 52 bits and touches one register (chapter 02, Registers (R91); chapter 02, Opcodes (R102)). SCL.MOVA keeps bits [51:0] of s[SB] in a[AD]; SCL.ADDA and SCL.ADDAI add modulo 2^52; SCL.MOVS zero-extends a[AA] into s[SB]. Every other register of both files, and everything outside the sequencer, is as before. Concludes that exec answers a next state (Completes) for: sclMova, sclMovs, sclAdda, sclAddai. -/
def Obligations.AddressRegisterMoves : Prop :=
  (∀ c o s, Fits (.sclMova c o) s → CanIssue (.seq c) (.sclMova c o) [o.sb.toNat] s.dev →
      Completes (.sclMova c o) s (SeqWroteA c o.ad.toNat (BitVec.ofNat 52 (sreg s.dev c o.sb.toNat).toNat) s.dev)) ∧
    (∀ c o s, Fits (.sclMovs c o) s → CanIssue (.seq c) (.sclMovs c o) [o.sb.toNat] s.dev →
      Completes (.sclMovs c o) s (SeqWrote c o.sb.toNat (BitVec.ofNat 64 (areg s.dev c o.aa.toNat).toNat) s.dev)) ∧
    (∀ c o s, Fits (.sclAdda c o) s → CanIssue (.seq c) (.sclAdda c o) [o.sb.toNat] s.dev →
      Completes (.sclAdda c o) s (SeqWroteA c o.ad.toNat
        (BitVec.ofNat 52 ((areg s.dev c o.aa.toNat).toNat + (sreg s.dev c o.sb.toNat).toNat)) s.dev)) ∧
    ∀ c o s, Fits (.sclAddai c o) s → CanIssue (.seq c) (.sclAddai c o) [] s.dev →
      Completes (.sclAddai c o) s (SeqWroteA c o.ad.toNat
        (BitVec.ofInt 52 ((areg s.dev c o.aa.toNat).toNat + o.imm.toInt)) s.dev)

/-- Branches go to their target when taken and to the next instruction when not (chapter 02, Opcodes (R101); chapter 02, Operand formats (R95); chapter 01, Divergence (R38)). CTL.BR, BRZ, BRNZ, BRP and BRNP complete with the agent at its target (an offset in instructions from the branch) where the condition holds and the target lies in the text region, and at the next instruction where the condition fails; nothing else changes. BRP is taken if the predicate is true in any active thread, BRNP if it is false in every active thread. Concludes that exec answers a next state (Completes) for: ctlBr, ctlBrz, ctlBrnz, ctlBrp, ctlBrnp. -/
def Obligations.ControlTransfers : Prop :=
  (∀ a o s, Fits (.ctlBr a o) s → CanIssue a (.ctlBr a o) [] s.dev → InText s.dev a (branchTarget s.dev a o.off) →
      Completes (.ctlBr a o) s (WentTo a (branchTarget s.dev a o.off).toNat s.dev)) ∧
    (∀ c o s, Fits (.ctlBrz c o) s → CanIssue (.seq c) (.ctlBrz c o) [o.sc.toNat] s.dev →
      (sreg s.dev c o.sc.toNat = 0 → InText s.dev (.seq c) (branchTarget s.dev (.seq c) o.off)) →
      Completes (.ctlBrz c o) s (WentTo (.seq c) (if sreg s.dev c o.sc.toNat = 0 then (branchTarget s.dev (.seq c) o.off).toNat
        else agentPc s.dev (.seq c) + 1) s.dev)) ∧
    (∀ c o s, Fits (.ctlBrnz c o) s → CanIssue (.seq c) (.ctlBrnz c o) [o.sc.toNat] s.dev →
      (sreg s.dev c o.sc.toNat ≠ 0 → InText s.dev (.seq c) (branchTarget s.dev (.seq c) o.off)) →
      Completes (.ctlBrnz c o) s (WentTo (.seq c) (if sreg s.dev c o.sc.toNat ≠ 0 then (branchTarget s.dev (.seq c) o.off).toNat
        else agentPc s.dev (.seq c) + 1) s.dev)) ∧
    (∀ c slot o s k, Fits (.ctlBrp c slot o) s → CanIssue (.crew c slot) (.ctlBrp c slot o) [] s.dev → getCrew s.dev c slot = some k →
      (k.mask &&& k.pred o.pd.toNat ≠ 0 → InText s.dev (.crew c slot) (branchTarget s.dev (.crew c slot) o.off)) →
      Completes (.ctlBrp c slot o) s (WentTo (.crew c slot) (if k.mask &&& k.pred o.pd.toNat ≠ 0 then
        (branchTarget s.dev (.crew c slot) o.off).toNat else k.pc + 1) s.dev)) ∧
    ∀ c slot o s k, Fits (.ctlBrnp c slot o) s → CanIssue (.crew c slot) (.ctlBrnp c slot o) [] s.dev → getCrew s.dev c slot = some k →
      (k.mask &&& k.pred o.pd.toNat = 0 → InText s.dev (.crew c slot) (branchTarget s.dev (.crew c slot) o.off)) →
      Completes (.ctlBrnp c slot o) s (WentTo (.crew c slot) (if k.mask &&& k.pred o.pd.toNat = 0 then
        (branchTarget s.dev (.crew c slot) o.off).toNat else k.pc + 1) s.dev)

/-- CTL.CALL pushes the next instruction and CTL.RET goes back to it (chapter 02, Opcodes (R101); chapter 02, Control transfer (R116)). CTL.CALL with fewer than 16 return addresses and a target in the text region completes with the next instruction pushed and the sequencer at the target; CTL.RET with a return address in the text region completes at it with the stack popped. All scalar and address registers, and everything outside the sequencer, are as before. Concludes that exec answers a next state (Completes) for: ctlCall, ctlRet. -/
def Obligations.CallAndReturn : Prop :=
  (∀ c o s, Fits (.ctlCall c o) s → CanIssue (.seq c) (.ctlCall c o) [] s.dev → (seqOf s.dev c).ret.length < 16 →
      InText s.dev (.seq c) (branchTarget s.dev (.seq c) o.off) →
      Completes (.ctlCall c o) s fun t => OnlySeq c s.dev t ∧
        seqOf t c = { seqOf s.dev c with pc := (branchTarget s.dev (.seq c) o.off).toNat, ret := ((seqOf s.dev c).pc + 1) :: (seqOf s.dev c).ret }) ∧
    ∀ c s r rest, Fits (.ctlRet c) s → CanIssue (.seq c) (.ctlRet c) [] s.dev → (seqOf s.dev c).ret = r :: rest →
      r < textLen s.dev c →
      Completes (.ctlRet c) s fun t => OnlySeq c s.dev t ∧ seqOf t c = { seqOf s.dev c with pc := r, ret := rest }

/-- CTL.NOP and CTL.FENCE only go on; CTL.HALT stops the sequencer (chapter 02, Opcodes (R101); chapter 02, Control transfer (R114); chapter 01, Ordering (R45, R50): log 152 (DESIGN CHOICE)). CTL.NOP by either issuer and CTL.FENCE complete with the agent at its next instruction and nothing else changed (CTL.FENCE has no access to wait for, since every access of the model takes effect as it issues: log 152, the model's choice). CTL.HALT completes with the sequencer halted at its instruction, every register of it and everything outside it as before, and from then on the sequencer may issue nothing. Concludes that exec answers a next state (Completes) for: ctlNop, ctlHalt, ctlFence. -/
def Obligations.NoEffectInstructions : Prop :=
  (∀ a s, Fits (.ctlNop a) s → CanIssue a (.ctlNop a) [] s.dev → Completes (.ctlNop a) s (WentTo a (agentPc s.dev a + 1) s.dev)) ∧
    (∀ c s, Fits (.ctlFence c) s → CanIssue (.seq c) (.ctlFence c) [] s.dev →
      Completes (.ctlFence c) s (WentTo (.seq c) ((seqOf s.dev c).pc + 1) s.dev)) ∧
    ∀ c s, Fits (.ctlHalt c) s → CanIssue (.seq c) (.ctlHalt c) [] s.dev →
      Completes (.ctlHalt c) s fun t => OnlySeq c s.dev t ∧ seqOf t c = { seqOf s.dev c with st := .halted } ∧
        agentReady t (.seq c) = false

/-- MPUSH, MELSE and MPOP act on the mask stack and the active mask alone (chapter 02, Opcodes (R101); chapter 01, Divergence (R38)). For a crew that may issue: CTL.MPUSH with fewer than 16 entries pushes the active mask and keeps the threads of PD active; CTL.MELSE on a stack that is not empty makes active the threads of the top entry that were not; CTL.MPOP pops the top entry into the active mask. Each completes with the crew at its next instruction and everything else of the crew, of the core and of the device as before. Concludes that exec answers a next state (Completes) for: ctlMpush, ctlMelse, ctlMpop. -/
def Obligations.MaskStack : Prop :=
  (∀ c slot o s k, Fits (.ctlMpush c slot o) s → CanIssue (.crew c slot) (.ctlMpush c slot o) [] s.dev →
      getCrew s.dev c slot = some k → k.stack.length < 16 →
      Completes (.ctlMpush c slot o) s fun t => OnlyCrew c slot s.dev t ∧
        getCrew t c slot = some { k with stack := k.mask :: k.stack, mask := k.mask &&& k.pred o.pd.toNat, pc := k.pc + 1 }) ∧
    (∀ c slot s k m rest, Fits (.ctlMelse c slot) s → CanIssue (.crew c slot) (.ctlMelse c slot) [] s.dev →
      getCrew s.dev c slot = some k → k.stack = m :: rest →
      Completes (.ctlMelse c slot) s fun t => OnlyCrew c slot s.dev t ∧
        getCrew t c slot = some { k with mask := m &&& ~~~k.mask, pc := k.pc + 1 }) ∧
    ∀ c slot s k m rest, Fits (.ctlMpop c slot) s → CanIssue (.crew c slot) (.ctlMpop c slot) [] s.dev →
      getCrew s.dev c slot = some k → k.stack = m :: rest →
      Completes (.ctlMpop c slot) s fun t => OnlyCrew c slot s.dev t ∧
        getCrew t c slot = some { k with mask := m, stack := rest, pc := k.pc + 1 }

/-- CTL.RDSPEC gives each special register its value (chapter 02, Registers (R93); chapter 02, Features (R122)). CTL.RDSPEC of a sequencer writes s[RD] with the special register of R93 it names (CORE, DIE, TICK, TICK_HI, FEATURES, FEATURES_HI, PARCEL, PLUMB). Of a crew it writes v[RD] of every active thread: LANE, CREW_INDEX, CREW_COUNT, the low and high halves of the launch's arguments, and the low 32 bits of the others. Nothing else changes but the program counter. Concludes that exec answers a next state (Completes) for: ctlRdspec. -/
def Obligations.SpecialRegisters : Prop :=
  (∀ c o s, Fits (.ctlRdspec (.seq c) o) s → CanIssue (.seq c) (.ctlRdspec (.seq c) o) [o.rd.toNat] s.dev →
      Completes (.ctlRdspec (.seq c) o) s (SeqWrote c o.rd.toNat (specialOf s.dev c o.spec.toNat) s.dev)) ∧
    ∀ c slot o s k l, Fits (.ctlRdspec (.crew c slot) o) s → CanIssue (.crew c slot) (.ctlRdspec (.crew c slot) o) [o.rd.toNat] s.dev →
      getCrew s.dev c slot = some k → findLaunch (getCore s.dev c).w k.launch = some l → l.args.length = 8 →
      Completes (.ctlRdspec (.crew c slot) o) s (CrewWrote c slot k.mask o.rd.toNat (fun _ lane =>
        if o.spec.toNat = 0 then BitVec.ofNat 32 lane
        else if o.spec.toNat = 1 then BitVec.ofNat 32 k.idx
        else if o.spec.toNat = 2 then BitVec.ofNat 32 l.n
        else if 0x10 ≤ o.spec.toNat ∧ o.spec.toNat < 0x18 then (l.args.getD (o.spec.toNat - 0x10) 0).setWidth 32
        else if 0x18 ≤ o.spec.toNat ∧ o.spec.toNat < 0x20 then (l.args.getD (o.spec.toNat - 0x18) 0).extractLsb' 32 32
        else (specialOf s.dev c o.spec.toNat).setWidth 32) s.dev)

/-- CTL.LAUNCH tests its operands in order and queues the launch with its arguments (chapter 01, Crews (R33, R35); chapter 02, Control transfer (R116); chapter 01, Stakes (R52, R54); log 24 (DEDUCED)). CTL.LAUNCH with a count of at most 64 (N, or s[NS] where NREG is 1), an entry in the text region, a completion stake that exists, is enabled and belongs to the parcel of the part, and a queue of fewer than 8 launches, completes with one launch more at the end of the queue: its entry, n, the values of s0 to s7, its stake and n crews to end. The sequencer is at its next instruction with every register as before; no crew, stake, byte of memory or other core changes. CTL.LAUNCH with s[NS] above 64 faults with ILLEGAL_INSTRUCTION, subcode 6; otherwise with an entry outside the text region it faults with FETCH_RANGE; otherwise with a stake on an absent die with ADDRESS_ABSENT; otherwise with a stake that is disabled or of another parcel with STAKE_DENIED. In each case the sequencer stops by R40 and no launch is queued. With all tests passed and 8 launches queued it waits, and nothing changes (log 24). Concludes that exec answers a next state (Completes) for: ctlLaunch. -/
def Obligations.LaunchIssues : Prop :=
  (∀ c o s n, Fits (.ctlLaunch c o) s →
      CanIssue (.seq c) (.ctlLaunch c o) ((if o.nreg = 1 then [o.ns.toNat] else []) ++ List.range 8) s.dev →
      n = (if o.nreg = 1 then (sreg s.dev c o.ns.toNat).toNat else o.n.toNat) → n ≤ 64 →
      InText s.dev (.seq c) (branchTarget s.dev (.seq c) (BitVec.ofInt 32 o.entry.toInt)) →
      stakeDie o.stake < s.dev.part.dies → (getStake s.dev o.stake).enable = true → (getStake s.dev o.stake).parcel = parcelOf s.dev c →
      (getCore s.dev c).w.launchQ.length < 8 →
      Completes (.ctlLaunch c o) s fun t =>
        (getCore t c).w.launchQ = (getCore s.dev c).w.launchQ ++ [{
          serial := s.dev.serial
          entry := (branchTarget s.dev (.seq c) (BitVec.ofInt 32 o.entry.toInt)).toNat
          n := n
          args := (List.range 8).map (sreg s.dev c)
          stake := o.stake
          left := n
          hook := none
          tile := (sreg s.dev c 7).toNat % 2 ^ 32 }] ∧
        seqOf t c = { seqOf s.dev c with pc := (seqOf s.dev c).pc + 1 } ∧
        (∀ q, getCrew t c q = getCrew s.dev c q) ∧ OnlyCore c { s.dev with serial := s.dev.serial + 1 } t) ∧
    (∀ c o s n t, Fits (.ctlLaunch c o) s →
      CanIssue (.seq c) (.ctlLaunch c o) ((if o.nreg = 1 then [o.ns.toNat] else []) ++ List.range 8) s.dev →
      n = (if o.nreg = 1 then (sreg s.dev c o.ns.toNat).toNat else o.n.toNat) →
      t = branchTarget s.dev (.seq c) (BitVec.ofInt 32 o.entry.toInt) →
      (64 < n → Completes (.ctlLaunch c o) s fun e => SeqFaulted c .illegalInstruction 6 s.dev e ∧ (getCore e c).w.launchQ = (getCore s.dev c).w.launchQ) ∧
      (n ≤ 64 → ¬InText s.dev (.seq c) t →
        Completes (.ctlLaunch c o) s fun e => SeqFaulted c .fetchRange 0 s.dev e ∧ (getCore e c).w.launchQ = (getCore s.dev c).w.launchQ) ∧
      (n ≤ 64 → InText s.dev (.seq c) t → s.dev.part.dies ≤ stakeDie o.stake →
        Completes (.ctlLaunch c o) s fun e => SeqFaulted c .addressAbsent 0 s.dev e ∧ (getCore e c).w.launchQ = (getCore s.dev c).w.launchQ) ∧
      (n ≤ 64 → InText s.dev (.seq c) t → stakeDie o.stake < s.dev.part.dies →
        ((getStake s.dev o.stake).enable = false ∨ (getStake s.dev o.stake).parcel ≠ parcelOf s.dev c) →
        Completes (.ctlLaunch c o) s fun e => SeqFaulted c .stakeDenied 0 s.dev e ∧ (getCore e c).w.launchQ = (getCore s.dev c).w.launchQ) ∧
      (n ≤ 64 → InText s.dev (.seq c) t → stakeDie o.stake < s.dev.part.dies → (getStake s.dev o.stake).enable = true →
        (getStake s.dev o.stake).parcel = parcelOf s.dev c → 8 ≤ (getCore s.dev c).w.launchQ.length → exec (.ctlLaunch c o) s = .next s))

/-- A launch leaves the queue when n slots are free and takes the n lowest of them (chapter 01, Crews (R31, R34, R35, R36); chapter 02, Registers (R92); chapter 06, Hook programs (R230); log 5 (DESIGN CHOICE)). LAUNCH_DEQUEUE on a core that runs, with the oldest queued launch a program's of n crews, 0 < n, and at least n free slots, completes: the launch leaves the queue and runs, the i-th lowest free slot holds its crew i at the entry with all v registers zero, p1 to p7 false, an empty mask stack and all 32 threads active, every other slot is as before, and nothing outside the core changes. With fewer than n free slots no launch leaves the queue, and a hook program's launch leaves it by HOOK_PROGRAM_LAUNCH: LAUNCH_DEQUEUE is then not enabled (log 5, the model's choice). A program's launch of no crews completes at once: it binds no slot and makes its arrival. Concludes that exec answers a next state (Completes) for: launchDequeue. -/
def Obligations.LaunchBinds : Prop :=
  (∀ c s l rest, Fits (.launchDequeue c) s → (getCore s.dev c).w.launchQ = l :: rest → (freeSlots (getCore s.dev c).w).length < l.n →
      exec (.launchDequeue c) s = .refused (.notEnabled "LAUNCH_DEQUEUE")) ∧
    (∀ c s l rest, Fits (.launchDequeue c) s → (getCore s.dev c).w.launchQ = l :: rest → l.hook ≠ none →
      exec (.launchDequeue c) s = .refused (.notEnabled "LAUNCH_DEQUEUE")) ∧
    (∀ c s l rest, Fits (.launchDequeue c) s → (getCore s.dev c).w.launchQ = l :: rest →
      (getCore s.dev c).fenced = false → (getCore s.dev c).sched = 1 → (getCore s.dev c).stopping = false → l.hook = none →
      0 < l.n → l.n ≤ (freeSlots (getCore s.dev c).w).length →
      Completes (.launchDequeue c) s fun t => OnlyCore c s.dev t ∧ seqOf t c = seqOf s.dev c ∧
        (getCore t c).w.launchQ = rest ∧ (getCore t c).w.launches = (getCore s.dev c).w.launches ++ [l] ∧
        (∀ i q, i < l.n → (freeSlots (getCore s.dev c).w)[i]? = some q →
          getCrew t c q = some ⟨l.serial, i, l.entry, [], [], BitVec.allOnes 32, [], [], none⟩) ∧
        ∀ q, q ∉ (freeSlots (getCore s.dev c).w).take l.n → getCrew t c q = getCrew s.dev c q) ∧
    ∀ c s l rest, Fits (.launchDequeue c) s → (getCore s.dev c).w.launchQ = l :: rest →
      (getCore s.dev c).fenced = false → (getCore s.dev c).sched = 1 → (getCore s.dev c).stopping = false → l.hook = none → l.n = 0 →
      Completes (.launchDequeue c) s fun t => (getCore t c).w.launchQ = rest ∧ (∀ q, getCrew t c q = getCrew s.dev c q) ∧
        seqOf t c = seqOf s.dev c ∧ Arrived c 3 (parcelOf s.dev c) 1 false l.stake t ∧ MemSame s.dev t ∧ t.beyondCores = s.dev.beyondCores

/-- CTL.EXIT frees the slot; the last crew of a launch makes its arrival (chapter 01, Crews (R36); chapter 02, Control transfer (R115)). CTL.EXIT completes with the crew's slot free and every other slot and the sequencer as before. Where the launch has more than one crew left, it has one less and goes on; where this was the last, a program's launch runs no more and has arrived at its completion stake without FAULTED. No byte of memory changes, and nothing beyond cores, stakes and error records. Concludes that exec answers a next state (Completes) for: ctlExit. -/
def Obligations.CrewExits : Prop :=
  ∀ c slot s k l, Fits (.ctlExit c slot) s → CanIssue (.crew c slot) (.ctlExit c slot) [] s.dev → getCrew s.dev c slot = some k →
      findLaunch (getCore s.dev c).w k.launch = some l → l.hook = none →
      Completes (.ctlExit c slot) s fun t => getCrew t c slot = none ∧ (∀ q, q ≠ slot → getCrew t c q = getCrew s.dev c q) ∧
        seqOf t c = seqOf s.dev c ∧ MemSame s.dev t ∧ t.beyondCores = s.dev.beyondCores ∧
        (1 < l.left → findLaunch (getCore t c).w k.launch = some { l with left := l.left - 1 }) ∧
        (l.left ≤ 1 → findLaunch (getCore t c).w k.launch = none ∧ Arrived c 3 (parcelOf s.dev c) 1 false l.stake t)

/-- An operand test, a word the decoder refuses and a fetch beyond the text fault the agent (chapter 02, Illegal instructions (R118, R119); chapter 01, Faults (R39, R40); chapter 02, Control transfer (R116); chapter 02, Formats (R86, R87, R88, R89, R94, R95, R96, R97, R98); chapter 02, Opcodes (R101, R102, R103, R104, R105, R106, R107, R108, R109)). For every Yelre instruction and the agent that issues it: where the agent may issue and the instruction fails one of the tests of R118 that its operands can fail, it completes with the agent faulted by ILLEGAL_INSTRUCTION and the subcode of the test: a sequencer has stopped, a crew with its whole launch; no register of another launch, no queue of the core (the launch queue and every unit queue) and no byte of memory has changed. The decoder answers, for every word and either issuer, the subcode of the first test of R118 that the word fails, in the table's order (firstFailed, written from the tables of R87 and R94 to R109): 1 for a class of 9 or above, 2 for a GUARD other than 0, 3 for an opcode its class does not list, 4 for the wrong issuer or a special register that only a crew reads, 5 for a reserved operand bit, 6 for a field out of range; and it accepts a word that fails none. The operand test of an instruction is that of its word. ILLEGAL_INSTRUCTION, for an agent that may issue and a word that the decoder refuses with a subcode, completes with the agent faulted by ILLEGAL_INSTRUCTION with that subcode. FETCH_RANGE, for an agent that is ready and stands beyond the last instruction of the text region, completes with the agent faulted by FETCH_RANGE. Concludes that exec answers a next state (Completes) for: illegalInstruction, fetchRange. -/
def Obligations.IllegalInstructions : Prop :=
  (∀ i a s, issuerOf i = some a → Fits i s → agentReady s.dev a = true → agentPc s.dev a < textLen s.dev a.core → operandSub i ≠ 0 →
      Completes i s fun t => AgentFaulted a .illegalInstruction (operandSub i) s.dev t) ∧
    ((∀ a w s sub, a.wf = true → a.core.die < s.dev.part.dies → agentReady s.dev a = true → agentPc s.dev a < textLen s.dev a.core →
      yelreDecode a w = .error sub →
      Completes (.illegalInstruction a w) s fun t => AgentFaulted a .illegalInstruction sub s.dev t) ∧
    ∀ a s, a.wf = true → a.core.die < s.dev.part.dies → agentReady s.dev a = true → textLen s.dev a.core ≤ agentPc s.dev a →
      Completes (.fetchRange a) s fun t => AgentFaulted a .fetchRange 0 s.dev t) ∧
    ((∀ a w, match firstFailed a.isCrew w with
      | 0 => ∃ i, yelreDecode a w = .ok i
      | n => yelreDecode a w = .error n) ∧
    ∀ i a w, issuerOf i = some a → encode i = some w → operandSub i = firstFailed a.isCrew w)

/-- Mask and return stacks fault when they overflow or run empty (chapter 02, Control transfer (R115, R116); chapter 02, Opcodes (R101); chapter 01, Divergence (R38); chapter 01, Faults (R39, R40); log 183 (DEDUCED)). CTL.MPUSH with 16 entries on the mask stack, and CTL.MELSE and CTL.MPOP on an empty one, stop the launch of the crew with MASK_DEPTH. CTL.CALL on a full return stack and CTL.RET on an empty one stop the sequencer with CALL_DEPTH. A branch that is taken (CTL.BR always; BRZ, BRNZ, BRP and BRNP where their condition holds), a call or a return whose target lies outside the text region stops its agent with FETCH_RANGE. A call on a full return stack is CALL_DEPTH whatever its target (log 183, the model's reading). -/
def Obligations.StackFaults : Prop :=
  (∀ c slot o s k, Fits (.ctlMpush c slot o) s → CanIssue (.crew c slot) (.ctlMpush c slot o) [] s.dev →
      getCrew s.dev c slot = some k → 16 ≤ k.stack.length → Completes (.ctlMpush c slot o) s (AgentFaulted (.crew c slot) .maskDepth 0 s.dev)) ∧
    (∀ c slot s k, Fits (.ctlMelse c slot) s → CanIssue (.crew c slot) (.ctlMelse c slot) [] s.dev →
      getCrew s.dev c slot = some k → k.stack = [] → Completes (.ctlMelse c slot) s (AgentFaulted (.crew c slot) .maskDepth 0 s.dev)) ∧
    (∀ c slot s k, Fits (.ctlMpop c slot) s → CanIssue (.crew c slot) (.ctlMpop c slot) [] s.dev →
      getCrew s.dev c slot = some k → k.stack = [] → Completes (.ctlMpop c slot) s (AgentFaulted (.crew c slot) .maskDepth 0 s.dev)) ∧
    (∀ c o s, Fits (.ctlCall c o) s → CanIssue (.seq c) (.ctlCall c o) [] s.dev → 16 ≤ (seqOf s.dev c).ret.length →
      Completes (.ctlCall c o) s (AgentFaulted (.seq c) .callDepth 0 s.dev)) ∧
    (∀ c s, Fits (.ctlRet c) s → CanIssue (.seq c) (.ctlRet c) [] s.dev → (seqOf s.dev c).ret = [] →
      Completes (.ctlRet c) s (AgentFaulted (.seq c) .callDepth 0 s.dev)) ∧
    (∀ a o s, Fits (.ctlBr a o) s → CanIssue a (.ctlBr a o) [] s.dev → ¬InText s.dev a (branchTarget s.dev a o.off) →
      Completes (.ctlBr a o) s (AgentFaulted a .fetchRange 0 s.dev)) ∧
    (∀ c o s, Fits (.ctlCall c o) s → CanIssue (.seq c) (.ctlCall c o) [] s.dev → (seqOf s.dev c).ret.length < 16 →
      ¬InText s.dev (.seq c) (branchTarget s.dev (.seq c) o.off) → Completes (.ctlCall c o) s (AgentFaulted (.seq c) .fetchRange 0 s.dev)) ∧
    (∀ c s r rest, Fits (.ctlRet c) s → CanIssue (.seq c) (.ctlRet c) [] s.dev → (seqOf s.dev c).ret = r :: rest → textLen s.dev c ≤ r →
      Completes (.ctlRet c) s (AgentFaulted (.seq c) .fetchRange 0 s.dev)) ∧
    (∀ c o s, Fits (.ctlBrz c o) s → CanIssue (.seq c) (.ctlBrz c o) [o.sc.toNat] s.dev → sreg s.dev c o.sc.toNat = 0 →
      ¬InText s.dev (.seq c) (branchTarget s.dev (.seq c) o.off) → Completes (.ctlBrz c o) s (AgentFaulted (.seq c) .fetchRange 0 s.dev)) ∧
    (∀ c o s, Fits (.ctlBrnz c o) s → CanIssue (.seq c) (.ctlBrnz c o) [o.sc.toNat] s.dev → sreg s.dev c o.sc.toNat ≠ 0 →
      ¬InText s.dev (.seq c) (branchTarget s.dev (.seq c) o.off) → Completes (.ctlBrnz c o) s (AgentFaulted (.seq c) .fetchRange 0 s.dev)) ∧
    (∀ c slot o s k, Fits (.ctlBrp c slot o) s → CanIssue (.crew c slot) (.ctlBrp c slot o) [] s.dev → getCrew s.dev c slot = some k →
      k.mask &&& k.pred o.pd.toNat ≠ 0 → ¬InText s.dev (.crew c slot) (branchTarget s.dev (.crew c slot) o.off) →
      Completes (.ctlBrp c slot o) s (AgentFaulted (.crew c slot) .fetchRange 0 s.dev)) ∧
    ∀ c slot o s k, Fits (.ctlBrnp c slot o) s → CanIssue (.crew c slot) (.ctlBrnp c slot o) [] s.dev → getCrew s.dev c slot = some k →
      k.mask &&& k.pred o.pd.toNat = 0 → ¬InText s.dev (.crew c slot) (branchTarget s.dev (.crew c slot) o.off) →
      Completes (.ctlBrnp c slot o) s (AgentFaulted (.crew c slot) .fetchRange 0 s.dev)

/-- An S3 instruction, a conditional branch or an address-register move that names a register in flight waits and changes nothing (chapter 01, Stakes (R682); chapter 02, Timing (R125); log 6 (DEDUCED)). For the sequencer's S3 instructions, CTL.BRZ and CTL.BRNZ, SCL.MOVA, SCL.MOVS and SCL.ADDA: where the agent may issue, the operand tests pass and a register the instruction names is one that a stake reply is still to write, the command answers the state it was given (that the wait shows so is log 6, the model's reading; other forms are not stated here). -/
def Obligations.RegistersInFlight : Prop :=
  (∀ i : CoreId → S3Op → Instr, i ∈ [Instr.sclAdd, .sclSub, .sclMul, .sclMulh, .sclAnd, .sclOr, .sclXor, .sclShl, .sclShr, .sclSar, .sclMin, .sclMax, .sclCmp] →
      ∀ c o s r, Fits (i c o) s → seqReady s.dev c = true → (seqOf s.dev c).pc < textLen s.dev c → operandSub (i c o) = 0 →
        r ∈ [o.sd.toNat, o.sa.toNat, o.sb.toNat] → r ∈ (seqOf s.dev c).inflight → exec (i c o) s = .next s) ∧
    (∀ i : CoreId → BsOp → Instr, i ∈ [Instr.ctlBrz, .ctlBrnz] →
      ∀ c o s, Fits (i c o) s → seqReady s.dev c = true → (seqOf s.dev c).pc < textLen s.dev c → operandSub (i c o) = 0 →
        o.sc.toNat ∈ (seqOf s.dev c).inflight → exec (i c o) s = .next s) ∧
    ∀ i : CoreId → SaOp → Instr, i ∈ [Instr.sclMova, .sclMovs, .sclAdda] →
      ∀ c o s, Fits (i c o) s → seqReady s.dev c = true → (seqOf s.dev c).pc < textLen s.dev c → operandSub (i c o) = 0 →
        o.sb.toNat ∈ (seqOf s.dev c).inflight → exec (i c o) s = .next s

/-- SCL.LD reads SIZE bytes, little-endian, and extends them into SD (chapter 02, Operand formats (R94); chapter 02, Opcodes (R102); chapter 01, Memory spaces (R41); chapter 00, Conventions (R22)). SCL.LD whose address is a multiple of its size and lies in memory (HBM, reservoir scratch or a core store), in no retired frame, with no poisoned unit, and reached by no slice being reconfigured and no link that retrains, completes: byte i of SD is byte i at the address for the SIZE bytes, and the bits above are the sign with SX and 0 without. Every other register and every byte of memory is as before; only the use of cache lines is noted. In register space, with no link on the way retraining, it completes with the bytes that the register shows (of a stake or hub, behind the operations queued at port 3 of its hub), extended in the same way. Concludes that exec answers a next state (Completes) for: sclLd. -/
def Obligations.ScalarLoad : Prop :=
  (∀ c o s p, Fits (.sclLd c o) s → CanIssue (.seq c) (.sclLd c o) [o.sd.toNat] s.dev →
      (smAddr s.dev c o).toNat % 2 ^ o.size.toNat = 0 → resolve s.dev (smAddr s.dev c o) = some p → (∀ x y, p ≠ .reg x y) →
      inRegion s.dev (smAddr s.dev c o) (2 ^ o.size.toNat) = true → retired s.dev (smAddr s.dev c o) p = false →
      poisoned s.dev p (2 ^ o.size.toNat) = false → reachBusy s.dev c.die p = false →
      Completes (.sclLd c o) s fun t => ∃ v, SeqWrote c o.sd.toNat v { s.dev with cache := t.cache, clock := t.clock } t ∧
        (∀ i, i < 2 ^ o.size.toNat → v.extractLsb' (8 * i) 8 = memByte s.dev (p.key + i)) ∧
        ∀ j, 8 * 2 ^ o.size.toNat ≤ j → j < 64 →
          v.getLsbD j = (decide (o.sx = 1) && (memByte s.dev (p.key + 2 ^ o.size.toNat - 1)).getLsbD 7)) ∧
    ∀ c o s die off, Fits (.sclLd c o) s → CanIssue (.seq c) (.sclLd c o) [o.sd.toNat] s.dev → (smAddr s.dev c o).toNat % 2 ^ o.size.toNat = 0 →
      resolve s.dev (smAddr s.dev c o) = some (.reg die off) → routeBusy s.dev c.die die = false →
      Completes (.sclLd c o) s fun t => ∃ v x, x = regShow (reachHub s.dev die off) die off (2 ^ o.size.toNat) ∧
        SeqWrote c o.sd.toNat v (reachHub s.dev die off) t ∧ (∀ i, i < 2 ^ o.size.toNat → v.extractLsb' (8 * i) 8 = BitVec.ofNat 8 (x / 256 ^ i)) ∧
        ∀ j, 8 * 2 ^ o.size.toNat ≤ j → j < 64 → v.getLsbD j = (decide (o.sx = 1) && x.testBit (8 * 2 ^ o.size.toNat - 1))

/-- SCL.ST stores the low SIZE bytes of SD at its address and no other byte (chapter 02, Operand formats (R94); chapter 02, Opcodes (R102); chapter 01, Memory spaces (R41); chapter 00, Conventions (R22)). SCL.ST whose address is a multiple of its size and lies in memory outside the loaded images, in no retired frame, and reached by no slice being reconfigured and no link that retrains, completes: byte i at the address is byte i of SD for the SIZE bytes, every byte of memory outside them reads as before, the sequencer is at its next instruction with every register as before, and no other core, stake or register changes. In register space, with no link on the way retraining, it has the effect of a REGISTER_WRITE of the same address, size and value, and the sequencer is at its next instruction. Concludes that exec answers a next state (Completes) for: sclSt, registerWrite. -/
def Obligations.ScalarStore : Prop :=
  (∀ c o s p, Fits (.sclSt c o) s → CanIssue (.seq c) (.sclSt c o) [o.sd.toNat] s.dev →
      (smAddr s.dev c o).toNat % 2 ^ o.size.toNat = 0 → resolve s.dev (smAddr s.dev c o) = some p → (∀ x y, p ≠ .reg x y) →
      inRegion s.dev (smAddr s.dev c o) (2 ^ o.size.toNat) = true → retired s.dev (smAddr s.dev c o) p = false →
      isReadonly s.dev (smAddr s.dev c o) (2 ^ o.size.toNat) = false → reachBusy s.dev c.die p = false →
      Completes (.sclSt c o) s fun t => seqOf t c = { seqOf s.dev c with pc := (seqOf s.dev c).pc + 1 } ∧
        (∀ i, i < 2 ^ o.size.toNat → memByte t (p.key + i) = (sreg s.dev c o.sd.toNat).extractLsb' (8 * i) 8) ∧
        MemSameBut p.key (2 ^ o.size.toNat) s.dev t ∧
        OnlySeq c { s.dev with mem := t.mem, poison := t.poison, cache := t.cache, clock := t.clock } t) ∧
    ∀ c o s die off e, Fits (.sclSt c o) s → CanIssue (.seq c) (.sclSt c o) [o.sd.toNat] s.dev → (smAddr s.dev c o).toNat % 2 ^ o.size.toNat = 0 →
      resolve s.dev (smAddr s.dev c o) = some (.reg die off) → routeBusy s.dev c.die die = false →
      exec (.registerWrite (smAddr s.dev c o) (2 ^ o.size.toNat) (sreg s.dev c o.sd.toNat)) s = .next { s with dev := e } →
      Completes (.sclSt c o) s fun t => OnlySeq c e t ∧ seqOf t c = { seqOf e c with pc := (seqOf e c).pc + 1 }

/-- A scalar or vector access that fails a test faults its agent and touches no memory (chapter 11, Retirement (R386, R404); chapter 02, Control transfer (R117); chapter 00, Addresses (R21); chapter 02, Program images (R124); chapter 11, Poison (R384); chapter 01, Faults (R40); chapter 01, Memory spaces (R42); chapter 07, Loads and stores (R260)). SCL.LD and SCL.ST: an address that is not a multiple of the size stops the sequencer with MISALIGNED; an aligned address that lies nowhere stops it with ADDRESS_ABSENT; a store into the text or data of a loaded image stops it with SPACE_DENIED; a load of a poisoned line or word of HBM, scratch or a core store stops it with POISONED, and an access in a retired frame with PAGE_RETIRED, which the die's REFUSED counts (where no slice or link on the way is busy). No byte of memory changes. VEC.LD and VEC.ST: where the lowest-numbered failing executing thread addresses beyond the own core store, the launch stops with SPACE_DENIED; where it addresses within it but not a multiple of the size, with MISALIGNED. No byte of memory changes in any thread. -/
def Obligations.AccessFaults : Prop :=
  ((∀ c o s, Fits (.sclLd c o) s → CanIssue (.seq c) (.sclLd c o) [o.sd.toNat] s.dev → (smAddr s.dev c o).toNat % 2 ^ o.size.toNat ≠ 0 →
      Completes (.sclLd c o) s (SeqFaulted c .misaligned 0 s.dev)) ∧
    (∀ c o s, Fits (.sclSt c o) s → CanIssue (.seq c) (.sclSt c o) [o.sd.toNat] s.dev → (smAddr s.dev c o).toNat % 2 ^ o.size.toNat ≠ 0 →
      Completes (.sclSt c o) s (SeqFaulted c .misaligned 0 s.dev)) ∧
    (∀ c o s, Fits (.sclLd c o) s → CanIssue (.seq c) (.sclLd c o) [o.sd.toNat] s.dev → (smAddr s.dev c o).toNat % 2 ^ o.size.toNat = 0 →
      resolve s.dev (smAddr s.dev c o) = none → Completes (.sclLd c o) s (SeqFaulted c .addressAbsent 0 s.dev)) ∧
    (∀ c o s, Fits (.sclSt c o) s → CanIssue (.seq c) (.sclSt c o) [o.sd.toNat] s.dev → (smAddr s.dev c o).toNat % 2 ^ o.size.toNat = 0 →
      resolve s.dev (smAddr s.dev c o) = none → Completes (.sclSt c o) s (SeqFaulted c .addressAbsent 0 s.dev)) ∧
    (∀ c o s p, Fits (.sclSt c o) s → CanIssue (.seq c) (.sclSt c o) [o.sd.toNat] s.dev → (smAddr s.dev c o).toNat % 2 ^ o.size.toNat = 0 →
      resolve s.dev (smAddr s.dev c o) = some p → (∀ x y, p ≠ .reg x y) →
      isReadonly s.dev (smAddr s.dev c o) (2 ^ o.size.toNat) = true → Completes (.sclSt c o) s (SeqFaulted c .spaceDenied 0 s.dev)) ∧
    (∀ c o s p, Fits (.sclLd c o) s → CanIssue (.seq c) (.sclLd c o) [o.sd.toNat] s.dev → (smAddr s.dev c o).toNat % 2 ^ o.size.toNat = 0 →
      resolve s.dev (smAddr s.dev c o) = some p → (∀ x y, p ≠ .reg x y) → inRegion s.dev (smAddr s.dev c o) (2 ^ o.size.toNat) = true →
      retired s.dev (smAddr s.dev c o) p = false → poisoned s.dev p (2 ^ o.size.toNat) = true → reachBusy s.dev c.die p = false →
      Completes (.sclLd c o) s fun t => SeqFaulted c .poisoned 0 { s.dev with cache := t.cache, clock := t.clock } t) ∧
    (∀ c o s die ch ca, Fits (.sclLd c o) s → CanIssue (.seq c) (.sclLd c o) [o.sd.toNat] s.dev → (smAddr s.dev c o).toNat % 2 ^ o.size.toNat = 0 →
      resolve s.dev (smAddr s.dev c o) = some (.hbm die ch ca) → inRegion s.dev (smAddr s.dev c o) (2 ^ o.size.toNat) = true →
      retired s.dev (smAddr s.dev c o) (.hbm die ch ca) = true → reachBusy s.dev c.die (.hbm die ch ca) = false →
      Completes (.sclLd c o) s fun t => SeqFaulted c .pageRetired 0 s.dev t ∧
        rfld t .hbmRetireStat die 0 0 31 16 = min 0xFFFF (rfld s.dev .hbmRetireStat die 0 0 31 16 + 1)) ∧
    ∀ c o s die ch ca, Fits (.sclSt c o) s → CanIssue (.seq c) (.sclSt c o) [o.sd.toNat] s.dev → (smAddr s.dev c o).toNat % 2 ^ o.size.toNat = 0 →
      resolve s.dev (smAddr s.dev c o) = some (.hbm die ch ca) → inRegion s.dev (smAddr s.dev c o) (2 ^ o.size.toNat) = true →
      retired s.dev (smAddr s.dev c o) (.hbm die ch ca) = true → isReadonly s.dev (smAddr s.dev c o) (2 ^ o.size.toNat) = false →
      reachBusy s.dev c.die (.hbm die ch ca) = false → Completes (.sclSt c o) s fun t => SeqFaulted c .pageRetired 0 s.dev t ∧
        rfld t .hbmRetireStat die 0 0 31 16 = min 0xFFFF (rfld s.dev .hbmRetireStat die 0 0 31 16 + 1)) ∧
    (∀ i : CoreId → Nat → VmOp → Instr, i ∈ [Instr.vecLd, .vecSt] →
      ∀ c slot o s k l, Fits (i c slot o) s → CanIssue (.crew c slot) (i c slot o) [o.va.toNat, o.vd.toNat] s.dev →
        getCrew s.dev c slot = some k → l < 32 → (k.runs o.pred o.pneg).getLsbD l = true →
        (storeBytes < vmAddr o k l + 2 ^ o.size.toNat ∨ vmAddr o k l % 2 ^ o.size.toNat ≠ 0) →
        (∀ h, h < l → (k.runs o.pred o.pneg).getLsbD h = true →
          vmAddr o k h + 2 ^ o.size.toNat ≤ storeBytes ∧ vmAddr o k h % 2 ^ o.size.toNat = 0) →
        Completes (i c slot o) s (LaunchStopped c k.launch
          (if storeBytes < vmAddr o k l + 2 ^ o.size.toNat then .spaceDenied else .misaligned) 0 s.dev))

/-- Bitwise, shift, move, select and shuffle instructions write VD bit for bit (chapter 02, Opcodes (R103); chapter 07, Execution (R255, R259)). VEC.AND, OR and XOR combine VA and VB; VEC.SHL and SHR shift the whole register by VB[4:0], SHR arithmetically for INT32; VEC.MOV copies VA; VEC.SEL takes VA where predicate CC[2:0] is true and VB elsewhere; VEC.SHFL takes VA of the thread whose lane is VB[4:0]. Each completes with VD so in every executing thread, and every other register of every thread, the predicates, masks and everything else of the device as before. Concludes that exec answers a next state (Completes) for: vecSel, vecAnd, vecOr, vecXor, vecShl, vecShr, vecMov, vecShfl. -/
def Obligations.VectorBits : Prop :=
  VecComputes .vecAnd (fun _ => True) (fun o k l => k.reg l o.va.toNat &&& k.reg l o.vb.toNat) ∧
    VecComputes .vecOr (fun _ => True) (fun o k l => k.reg l o.va.toNat ||| k.reg l o.vb.toNat) ∧
    VecComputes .vecXor (fun _ => True) (fun o k l => k.reg l o.va.toNat ^^^ k.reg l o.vb.toNat) ∧
    VecComputes .vecShl (fun _ => True) (fun o k l => k.reg l o.va.toNat <<< ((k.reg l o.vb.toNat).extractLsb' 0 5).toNat) ∧
    VecComputes .vecShr (fun o => o.type = 3) (fun o k l => (k.reg l o.va.toNat).sshiftRight ((k.reg l o.vb.toNat).extractLsb' 0 5).toNat) ∧
    VecComputes .vecShr (fun o => o.type = 4) (fun o k l => k.reg l o.va.toNat >>> ((k.reg l o.vb.toNat).extractLsb' 0 5).toNat) ∧
    VecComputes .vecMov (fun _ => True) (fun o k l => k.reg l o.va.toNat) ∧
    VecComputes .vecSel (fun _ => True) (fun o k l =>
      if (k.pred (o.cc.extractLsb' 0 3).toNat).getLsbD l then k.reg l o.va.toNat else k.reg l o.vb.toNat) ∧
    VecComputes .vecShfl (fun _ => True) (fun o k l => k.reg ((k.reg l o.vb.toNat).extractLsb' 0 5).toNat o.va.toNat)

/-- Integer vector arithmetic is exact, then wrapped or clamped (chapter 02, Operand formats (R96); chapter 02, Opcodes (R103); chapter 07, Integer operations (R258, R259); log 33 (DEDUCED)). Under INT32 and UINT32, VEC.ADD, SUB, MUL, FMA, MIN, MAX, ABS and NEG form the exact integer result of their operands and write it modulo 2^32, or clamped to the range of TYPE with SAT, in VD of every executing thread; nothing else changes. (That a saturating VEC.NEG of UINT32 clamps to 0 is the model's reading of R96, log 33.) VEC.MOVI writes IMM, VEC.ADDI adds it modulo 2^32. Concludes that exec answers a next state (Completes) for: vecAdd, vecSub, vecMul, vecFma, vecMin, vecMax, vecAbs, vecNeg, vecMovi, vecAddi. -/
def Obligations.VectorIntegers : Prop :=
  VecComputes .vecAdd IntForm (fun o => intOf o fun x y _ => x + y) ∧
    VecComputes .vecSub IntForm (fun o => intOf o fun x y _ => x - y) ∧
    VecComputes .vecMul IntForm (fun o => intOf o fun x y _ => x * y) ∧
    VecComputes .vecFma IntForm (fun o => intOf o fun x y z => x * y + z) ∧
    VecComputes .vecMin IntForm (fun o => intOf o fun x y _ => if x ≤ y then x else y) ∧
    VecComputes .vecMax IntForm (fun o => intOf o fun x y _ => if x ≤ y then y else x) ∧
    VecComputes .vecAbs IntForm (fun o => intOf o fun x _ _ => if x < 0 then -x else x) ∧
    VecComputes .vecNeg IntForm (fun o => intOf o fun x _ _ => -x) ∧
    VecImmComputes .vecMovi (fun _ y => y) ∧ VecImmComputes .vecAddi (fun x y => x + y)

/-- Floating vector arithmetic rounds once; ABS and NEG change the sign bit alone (chapter 02, Opcodes (R103); chapter 07, Floating operations (R256, R257); chapter 03, Rounding (R139); chapter 07, Floating operations (R259); chapter 03, NaN (R149, R150)). Under FP32, BF16 and FP16 with a mode that takes no draw, VEC.ADD, SUB, MUL and FMA round the exact result of their operands once by RND, each element of a pair on its own; VEC.FADDI and FMULI do so on FP32 with ties to even; VEC.MIN and VEC.MAX give the element they choose by R148 and R150. VD of every executing thread holds the result, and nothing else changes. VEC.ABS clears the sign bit of VA and VEC.NEG inverts it, for every FP32 code that is no NaN (infinities and zeros among them) and for each element of a BF16 or FP16 pair; a subnormal becomes a zero with the sign of the result where FTZ is set, and keeps its other bits where it is clear; a NaN gives the canonical NaN (0x7FC00000, 0x7FC0, 0x7E00). VD of every executing thread holds the result, and nothing else changes. Concludes that exec answers a next state (Completes) for: vecAdd, vecSub, vecMul, vecFma, vecMin, vecMax, vecAbs, vecNeg, vecFaddi, vecFmuli. -/
def Obligations.VectorFloats : Prop :=
  (VecComputes .vecAdd FloatForm (fun o => floatOf o fun x y _ => x.add y) ∧
    VecComputes .vecSub FloatForm (fun o => floatOf o fun x y _ => x.add y.neg) ∧
    VecComputes .vecMul FloatForm (fun o => floatOf o fun x y _ => x.mul y) ∧
    VecComputes .vecFma FloatForm (fun o => floatOf o fun x y z => (x.mul y).add z) ∧
    VecComputes .vecMin (fun o => o.type.toNat < 3) (fun o => floatExact o FV.min) ∧
    VecComputes .vecMax (fun o => o.type.toNat < 3) (fun o => floatExact o FV.max) ∧
    VecImmComputes .vecFaddi (fun x y => BitVec.ofNat 32 (fp32.round .rne false false false ((fp32.val x.toNat).add (fp32.val y.toNat))).code) ∧
    VecImmComputes .vecFmuli (fun x y => BitVec.ofNat 32 (fp32.round .rne false false false ((fp32.val x.toNat).mul (fp32.val y.toNat))).code)) ∧
    (VecComputes .vecAbs (fun o => o.type.toNat < 3) (fun o => signOf o fun _ => false) ∧
    VecComputes .vecNeg (fun o => o.type.toNat < 3) (fun o => signOf o fun neg => !neg))

/-- VEC.CMP writes one predicate in the executing threads (chapter 02, Opcodes (R103); chapter 02, Comparison (R112); chapter 07, Execution (R255)). VEC.CMP on INT32 and UINT32 writes predicate VD[2:0] of each executing thread with whether VA CC VB holds (R112), leaves it in the other threads, and leaves every other predicate, every v register, the masks and the rest of the device as they were; a write to p0 is discarded. On floating types the same holds with the ordered and unordered conditions of R112, for a pair only where both elements meet them. Concludes that exec answers a next state (Completes) for: vecCmp. -/
def Obligations.VectorCompares : Prop :=
  ∀ c slot o s k, Fits (.vecCmp c slot o) s → CanIssue (.crew c slot) (.vecCmp c slot o) [o.va.toNat, o.vb.toNat] s.dev →
      getCrew s.dev c slot = some k →
      Completes (.vecCmp c slot o) s fun t => OnlyCrew c slot s.dev t ∧
        ∃ x, getCrew t c slot = some x ∧ x = { k with pc := k.pc + 1, p := x.p } ∧
          (∀ q, q ≠ (o.vd.extractLsb' 0 3).toNat → x.pred q = k.pred q) ∧ x.pred 0 = k.pred 0 ∧
          ∀ lane, lane < 32 → (o.vd.extractLsb' 0 3).toNat ≠ 0 →
            ((k.runs o.pred o.pneg).getLsbD lane = false →
              (x.pred (o.vd.extractLsb' 0 3).toNat).getLsbD lane = (k.pred (o.vd.extractLsb' 0 3).toNat).getLsbD lane) ∧
            ((k.runs o.pred o.pneg).getLsbD lane = true → IntForm o →
              (x.pred (o.vd.extractLsb' 0 3).toNat).getLsbD lane = intHolds o (k.reg lane o.va.toNat) (k.reg lane o.vb.toNat)) ∧
            ((k.runs o.pred o.pneg).getLsbD lane = true → o.type = 0 →
              (x.pred (o.vd.extractLsb' 0 3).toNat).getLsbD lane =
                floatCC o.cc.toNat (fp32.read (decide (o.ftz = 1)) (k.reg lane o.va.toNat).toNat) (fp32.read (decide (o.ftz = 1)) (k.reg lane o.vb.toNat).toNat)) ∧
            ((k.runs o.pred o.pneg).getLsbD lane = true → ∀ f, o.type = 1 ∧ f = bf16 ∨ o.type = 2 ∧ f = fp16 →
              (x.pred (o.vd.extractLsb' 0 3).toNat).getLsbD lane =
                (floatCC o.cc.toNat (f.read (decide (o.ftz = 1)) ((k.reg lane o.va.toNat).toNat % 65536))
                    (f.read (decide (o.ftz = 1)) ((k.reg lane o.vb.toNat).toNat % 65536)) &&
                  floatCC o.cc.toNat (f.read (decide (o.ftz = 1)) ((k.reg lane o.va.toNat).toNat / 65536))
                    (f.read (decide (o.ftz = 1)) ((k.reg lane o.vb.toNat).toNat / 65536))))

/-- VEC.LD gives each executing thread its bytes of the core store (chapter 02, Operand formats (R96); chapter 02, Opcodes (R103); chapter 01, Memory spaces (R42); chapter 07, Loads and stores (R260)). VEC.LD with every executing thread's address within the own core store, a multiple of the size and on no poisoned word, completes: VD of each executing thread holds the SIZE bytes at its address, little-endian, sign-extended with SX and zero-extended without; every other register of every thread, the core store and everything else are as before. Concludes that exec answers a next state (Completes) for: vecLd. -/
def Obligations.VectorLoad : Prop :=
  ∀ c slot o s k, Fits (.vecLd c slot o) s → CanIssue (.crew c slot) (.vecLd c slot o) [o.va.toNat, o.vd.toNat] s.dev →
      getCrew s.dev c slot = some k →
      (∀ l, l < 32 → (k.runs o.pred o.pneg).getLsbD l = true → vmAddr o k l + 2 ^ o.size.toNat ≤ storeBytes ∧
        vmAddr o k l % 2 ^ o.size.toNat = 0 ∧ storePoisoned s.dev c (vmAddr o k l) (2 ^ o.size.toNat) = false) →
      o.size.toNat < 3 →
      Completes (.vecLd c slot o) s fun t => ∃ f, CrewWrote c slot (k.runs o.pred o.pneg) o.vd.toNat (fun _ => f) s.dev t ∧
        ∀ l, l < 32 → (∀ i, i < 2 ^ o.size.toNat → (f l).extractLsb' (8 * i) 8 = memByte s.dev (storeKey c (vmAddr o k l + i))) ∧
          ∀ j, 8 * 2 ^ o.size.toNat ≤ j → j < 32 →
            (f l).getLsbD j = (decide (o.sx = 1) && (memByte s.dev (storeKey c (vmAddr o k l + 2 ^ o.size.toNat - 1))).getLsbD 7)

/-- VEC.ST writes the bytes of its executing threads; on a shared byte the highest lane stands (R261). VEC.ST with every executing thread's address within the own core store and a multiple of the size completes: each byte of the core store that an executing thread addresses holds the byte of VD of the highest-numbered executing thread that addresses it, and every other byte of memory reads as before. The crew is at its next instruction with every register as before, and nothing but memory and poison changes. Concludes that exec answers a next state (Completes) for: vecSt. -/
def Obligations.VectorStore : Prop :=
  ∀ c slot o s k, Fits (.vecSt c slot o) s → CanIssue (.crew c slot) (.vecSt c slot o) [o.va.toNat, o.vd.toNat] s.dev →
      getCrew s.dev c slot = some k → o.size.toNat < 3 →
      (∀ l, l < 32 → (k.runs o.pred o.pneg).getLsbD l = true →
        vmAddr o k l + 2 ^ o.size.toNat ≤ storeBytes ∧ vmAddr o k l % 2 ^ o.size.toNat = 0) →
      Completes (.vecSt c slot o) s fun t =>
        (∀ l i, l < 32 → (k.runs o.pred o.pneg).getLsbD l = true → i < 2 ^ o.size.toNat →
          (∀ h j, l < h → h < 32 → (k.runs o.pred o.pneg).getLsbD h = true → j < 2 ^ o.size.toNat →
            vmAddr o k h + j ≠ vmAddr o k l + i) →
          memByte t (storeKey c (vmAddr o k l + i)) = (k.reg l o.vd.toNat).extractLsb' (8 * i) 8) ∧
        (∀ q, (∀ l i, l < 32 → (k.runs o.pred o.pneg).getLsbD l = true → i < 2 ^ o.size.toNat → q ≠ storeKey c (vmAddr o k l + i)) →
          memByte t q = memByte s.dev q) ∧
        OnlyCrew c slot { s.dev with mem := t.mem, poison := t.poison } t ∧ getCrew t c slot = some { k with pc := k.pc + 1 }

/-- Special functions write VD alone, and their listed inputs give the listed results (chapter 07, Special functions (R262); chapter 07, Special values (R265); chapter 07, Baseline mode (R268); chapter 03, NaN (R149)). Each of the fourteen SFN functions completes with VD of the executing threads as the only vector register that may change, and no memory changed. Under FP32 in normal mode without FTZ, in a mode that takes no draw, every input that R265 lists (NaN, infinities, zeros, negative inputs of LOG, SQRT and RSQRT, 1 of LOG) gives its listed result. With BASE and no active baseline bank, the launch stops with TABLE_ABSENT. Concludes that exec answers a next state (Completes) for: sfnExp, sfnExp2, sfnLog, sfnLog2, sfnRcp, sfnSqrt, sfnRsqrt, sfnSin, sfnCos, sfnTanh, sfnSigm, sfnErf, sfnGelu, sfnSilu. -/
def Obligations.SpecialFunctions : Prop :=
  SfnComputes .sfnExp .exp ∧ SfnComputes .sfnExp2 .exp2 ∧ SfnComputes .sfnLog .log ∧ SfnComputes .sfnLog2 .log2 ∧ SfnComputes .sfnRcp .rcp ∧
    SfnComputes .sfnSqrt .sqrt ∧ SfnComputes .sfnRsqrt .rsqrt ∧ SfnComputes .sfnSin .sin ∧ SfnComputes .sfnCos .cos ∧ SfnComputes .sfnTanh .tanh ∧
    SfnComputes .sfnSigm .sigm ∧ SfnComputes .sfnErf .erf ∧ SfnComputes .sfnGelu .gelu ∧ SfnComputes .sfnSilu .silu

/-- VEC.RAND gives each executing thread the next draw; QNT.CVT converts exactly where it can (chapter 16, Random sources (R555, R556); chapter 16, Lanes (R561); chapter 07, Execution (R255); chapter 02, Opcodes (R109); chapter 03, Number formats (R128)). VEC.RAND on a core with all its lanes, for a part that is not in plumb mode: VD of an executing thread is the low half of its source's next state exclusive-or the high half, the source (32 × the slot's parity + lane) takes that next state (R555), and the sources of the other threads of that half are as before. No other vector register and no memory changes. QNT.CVT completes with VD of the executing threads as the only vector register that may change and no memory changed. From INT8 to INT32 each executing thread gets the sign extension of VA[7:0]; from INT32 to INT32 VA itself; from INT32 to INT8 the value where INT8 holds it, and with SAT the nearest that INT8 holds, sign-extended to 32 bits (log 153). Concludes that exec answers a next state (Completes) for: vecRand, qntCvt. -/
def Obligations.DrawsAndConversions : Prop :=
  (∀ c slot o s k, Fits (.vecRand c slot o) s → CanIssue (.crew c slot) (.vecRand c slot o) [o.vd.toNat, o.va.toNat, o.vb.toNat, o.vc.toNat] s.dev →
      getCrew s.dev c slot = some k → (∀ p, (getCore s.dev c).w.part = some p → p.plumb = false) → (getCore s.dev c).laneFence = 0 →
      Completes (.vecRand c slot o) s fun t => VecWrites c slot (k.runs o.pred o.pneg) o.vd.toNat s.dev t ∧
        ∃ x, getCrew t c slot = some x ∧ ∀ lane old new, lane < 32 → old = tget 0 (getCore s.dev c).w.rng (32 * (slot % 2) + lane) →
          new = (old <<< 1) ^^^ (old >>> 1) ^^^ (0xB4E25A1D9C0763F9#64 &&& old) →
          ((k.runs o.pred o.pneg).getLsbD lane = true → x.reg lane o.vd.toNat = new.extractLsb' 0 32 ^^^ new.extractLsb' 32 32 ∧
            tget 0 (getCore t c).w.rng (32 * (slot % 2) + lane) = new) ∧
          ((k.runs o.pred o.pneg).getLsbD lane = false → tget 0 (getCore t c).w.rng (32 * (slot % 2) + lane) = old)) ∧
    (∀ c slot o s k, Fits (.qntCvt c slot o) s → CanIssue (.crew c slot) (.qntCvt c slot o) [o.vd.toNat, o.va.toNat] s.dev →
      getCrew s.dev c slot = some k →
      Completes (.qntCvt c slot o) s fun t => VecWrites c slot (k.runs o.pred o.pneg) o.vd.toNat s.dev t ∧
        ∃ x, getCrew t c slot = some x ∧ ∀ lane, lane < 32 → (k.runs o.pred o.pneg).getLsbD lane = true →
          (o.sfmt.toNat = 8 → o.dfmt.toNat = 10 → x.reg lane o.vd.toNat = ((k.reg lane o.va.toNat).setWidth 8).signExtend 32) ∧
          (o.sfmt.toNat = 10 → o.dfmt.toNat = 10 → x.reg lane o.vd.toNat = k.reg lane o.va.toNat) ∧
          (o.sfmt.toNat = 10 → o.dfmt.toNat = 8 → -128 ≤ (k.reg lane o.va.toNat).toInt → (k.reg lane o.va.toNat).toInt ≤ 127 →
            x.reg lane o.vd.toNat = k.reg lane o.va.toNat) ∧
          (o.sfmt.toNat = 10 → o.dfmt.toNat = 8 → o.sat = 1 →
            x.reg lane o.vd.toNat = BitVec.ofInt 32 (max (-128) (min 127 (k.reg lane o.va.toNat).toInt))))

/-- A stake instruction sends one operation to its hub and the agent goes on (chapter 02, Operand formats (R97, R98); chapter 02, Opcodes (R107); chapter 01, Stakes (R52, R56, R60, R62, R682)). For an agent that may issue, with the stake it names (its STAKE field or register) on a die of the part: STK.ARRIVE, STK.RESET, STK.CLAIM, STK.TEST and STK.WAIT complete with one operation more, last in port 0 of the hub for its own cores and in port 2 otherwise. The agent is at its next instruction; ARRIVE and RESET leave everything else of it as it was, TEST and CLAIM mark RD as in flight, WAIT blocks the agent with its deadline IMM16 ticks on (none for 0). A stake on an absent die faults the agent with ADDRESS_ABSENT, and a crew without an active thread only goes on. No other register, queue, stake or byte of memory changes. Concludes that exec answers a next state (Completes) for: stkArrive, stkWait, stkTest, stkReset, stkClaim. -/
def Obligations.StakeInstructions : Prop :=
  (∀ a o s id, Fits (.stkArrive a o) s → CanIssue a (.stkArrive a o) (stkRegs o false) s.dev →
      stkName s.dev a o = some id → stakeDie id < s.dev.part.dies →
      Completes (.stkArrive a o) s fun t => Sent a id (.arrive o.imm.toNat false) s.dev t ∧
        getCore t a.core = getCore (stepPc s.dev a) a.core ∧ t.serial = s.dev.serial) ∧
    (∀ a o s id, Fits (.stkReset a o) s → CanIssue a (.stkReset a o) (stkRegs o (decide (o.treg = 1))) s.dev →
      stkName s.dev a o = some id → stakeDie id < s.dev.part.dies →
      Completes (.stkReset a o) s fun t => Sent a id (.reset (resetTarget s.dev a o)) s.dev t ∧
        getCore t a.core = getCore (stepPc s.dev a) a.core ∧ t.serial = s.dev.serial) ∧
    (∀ a o s id, Fits (.stkClaim a o) s → CanIssue a (.stkClaim a o) (stkRegs o true) s.dev →
      stkName s.dev a o = some id → stakeDie id < s.dev.part.dies →
      Completes (.stkClaim a o) s fun t => Sent a id (.claim o.imm.toNat o.rd.toNat) s.dev t ∧
        getCore t a.core = getCore (stepPc (markInflight s.dev a o.rd.toNat) a) a.core ∧ t.serial = s.dev.serial) ∧
    (∀ a o s id, Fits (.stkTest a o) s → CanIssue a (.stkTest a o) (stkRegs o true) s.dev →
      stkName s.dev a o = some id → stakeDie id < s.dev.part.dies →
      Completes (.stkTest a o) s fun t => Sent a id (.test o.rd.toNat) s.dev t ∧
        getCore t a.core = getCore (stepPc (markInflight s.dev a o.rd.toNat) a) a.core ∧ t.serial = s.dev.serial) ∧
    (∀ a o s id, Fits (.stkWait a o) s → CanIssue a (.stkWait a o) (stkRegs o false) s.dev →
      stkName s.dev a o = some id → stakeDie id < s.dev.part.dies →
      Completes (.stkWait a o) s fun t => Sent a id (.wait (.agent a) s.dev.serial) s.dev t ∧ t.serial = s.dev.serial + 1 ∧
        getCore t a.core = getCore (stepPc (beginWait s.dev a
          ⟨id, if o.imm = 0 then none else some (s.dev.tick + o.imm.toNat), o.imm.toNat, s.dev.serial⟩) a) a.core) ∧
    (∀ i : Agent → KOp → Instr, i ∈ [Instr.stkArrive, .stkReset, .stkClaim, .stkTest, .stkWait] →
      ∀ a o s id, Fits (i a o) s → CanIssue a (i a o) (stkRegs o true) s.dev → stkName s.dev a o = some id → s.dev.part.dies ≤ stakeDie id →
        Completes (i a o) s (AgentFaulted a .addressAbsent 0 s.dev)) ∧
    ∀ i : Agent → KOp → Instr, i ∈ [Instr.stkArrive, .stkReset, .stkClaim, .stkTest, .stkWait] →
      ∀ c slot o s k, Fits (i (.crew c slot) o) s → CanIssue (.crew c slot) (i (.crew c slot) o) (stkRegs o true) s.dev →
        getCrew s.dev c slot = some k → k.mask = 0 → Completes (i (.crew c slot) o) s (SteppedOnly (.crew c slot) s.dev)

/-- A hub applies one operation per port and cycle: what each does to its stake, its waiters and its sender (chapter 01, Stakes (R53, R54, R55, R56, R59, R60, R61, R62, R63, R64, R682); chapter 01, Wakes (R66); chapter 02, Operand formats (R98); chapter 02, Opcodes (R107); chapter 17, Kinds (R581)). STAKE_OP_APPLY with one port presenting an operation. An arrival or claim with increment inc > 0 on a stake that accepts it leaves COUNT + inc, saturating at 0xFFFFFFFF (with SATURATED), less TARGET once where AUTO_RESET is set and TARGET is reached; a faulted arrival sets FAULTED. A completion ends the wait of every registered waiter: an agent goes on with outcome 0, or 1 where FAULTED is set, a unit has its wake; otherwise the waiters stay. A claim also puts COUNT as it stood in RD of the sequencer, or of the active threads of the crew, that made it (one that waits on nothing); STK.TEST puts COUNT there, with the completion bit for a sequencer, and leaves the stake. A reset leaves COUNT 0, the new TARGET, SATURATED and FAULTED clear. TARGET and the STK_CTL fields are otherwise as before; the operation has left its port; no other stake, no memory and nothing beyond the cores changes. An operation that its stake refuses (an absent die, ENABLE clear, another parcel) leaves every COUNT and TARGET: its agent faults with the code, and the arrival of a unit is logged (kind 72). Concludes that exec answers a next state (Completes) for: stakeOpApply. -/
def Obligations.StakeOperations : Prop :=
  (∀ die hub p op rest s inc f, Fits (.stakeOpApply die hub (1#4 <<< p)) s → Presents die hub p op rest s.dev →
      op.act = .arrive inc f → op.answers = none → stakeCheck s.dev op.stake op.parcel = .none → 0 < inc →
      Completes (.stakeOpApply die hub (1#4 <<< p)) s fun t => StakeOnly op.stake s.dev t ∧
        getHub t die hub = (getHub s.dev die hub).setPort p rest ∧ Added op.stake inc f s.dev t ∧
        (¬Reached (getStake s.dev op.stake) inc → t.cores = s.dev.cores)) ∧
    (∀ die hub p op rest s inc rd a run pc word mask, Fits (.stakeOpApply die hub (1#4 <<< p)) s → Presents die hub p op rest s.dev →
      op.act = .claim inc rd → op.source = .agent a run pc word mask → agentRun s.dev a = run → There a s.dev → rd < 64 →
      agentWait s.dev a = none → stakeCheck s.dev op.stake op.parcel = .none → 0 < inc →
      Completes (.stakeOpApply die hub (1#4 <<< p)) s fun t => StakeOnly op.stake s.dev t ∧
        getHub t die hub = (getHub s.dev die hub).setPort p rest ∧ Added op.stake inc false s.dev t ∧
        Replied a rd mask ((getStake s.dev op.stake).count.setWidth 64) s.dev t) ∧
    (∀ die hub p op rest s rd a run pc word mask, Fits (.stakeOpApply die hub (1#4 <<< p)) s → Presents die hub p op rest s.dev →
      op.act = .test rd → op.source = .agent a run pc word mask → agentRun s.dev a = run → There a s.dev → rd < 64 →
      stakeCheck s.dev op.stake op.parcel = .none →
      Completes (.stakeOpApply die hub (1#4 <<< p)) s fun t => OnlyCore a.core { s.dev with hubs := t.hubs } t ∧
        getHub t die hub = (getHub s.dev die hub).setPort p rest ∧
        Replied a rd mask (BitVec.ofNat 64 ((getStake s.dev op.stake).count.toNat +
          if (getStake s.dev op.stake).goal ≤ (getStake s.dev op.stake).count.toNat then 2 ^ 32 else 0)) s.dev t) ∧
    (∀ die hub p op rest s tgt, Fits (.stakeOpApply die hub (1#4 <<< p)) s → Presents die hub p op rest s.dev →
      op.act = .reset tgt → op.answers = none → stakeCheck s.dev op.stake op.parcel = .none →
      Completes (.stakeOpApply die hub (1#4 <<< p)) s fun t => StakeOnly op.stake s.dev t ∧
        getHub t die hub = (getHub s.dev die hub).setPort p rest ∧
        getStake t op.stake = { getStake s.dev op.stake with
          count := 0, target := tgt, saturated := false, faulted := false, waiters := (getStake t op.stake).waiters }) ∧
    (∀ die hub p op rest s f a run pc word mask, Fits (.stakeOpApply die hub (1#4 <<< p)) s → Presents die hub p op rest s.dev →
      op.source = .agent a run pc word mask → agentRun s.dev a = run → There a s.dev → stakeCheck s.dev op.stake op.parcel = f → f ≠ .none →
      Completes (.stakeOpApply die hub (1#4 <<< p)) s fun t => AgentFaulted a f 0 s.dev t ∧
        ∀ j, getStake t j = { getStake s.dev j with waiters := (getStake t j).waiters }) ∧
    ∀ die hub p op rest s f code dx inc b, Fits (.stakeOpApply die hub (1#4 <<< p)) s → Presents die hub p op rest s.dev →
      op.source = .unit code dx → op.act = .arrive inc b → stakeDie op.stake < s.dev.part.dies → stakeCheck s.dev op.stake op.parcel = f → f ≠ .none →
      Completes (.stakeOpApply die hub (1#4 <<< p)) s fun t => t.stakes = s.dev.stakes ∧ t.cores = s.dev.cores ∧ t.wakes = s.dev.wakes ∧ MemSame s.dev t ∧
        t.beyondCores = s.dev.beyondCores ∧ getHub t die hub = (getHub s.dev die hub).setPort p rest ∧
        Logged (stakeDie op.stake) ⟨hubSrc (stakeHub op.stake), 72, f, .info, 0, [op.stake.toNat, code]⟩ s.dev t

/-- An arrival or claim with increment 0 changes nothing and wakes no waiter (R58). STAKE_OP_APPLY with one port presenting an arrival with increment 0 that is not flagged FAULTED, or a claim with increment 0, on a stake that accepts it: every stake, with its waiter set, is as before. For the arrival the port has one operation less and nothing else of the whole device changes; the claim still returns COUNT to the sequencer that made it. STK.ARRIVE with increment 0 is sent to the hub like any other (so its release drain, which this model completes with the instruction, log 152, is performed). Concludes that exec answers a next state (Completes) for: stkArrive, stakeOpApply. -/
def Obligations.ZeroIncrements : Prop :=
  (∀ die hub p op rest s, Fits (.stakeOpApply die hub (1#4 <<< p)) s → Presents die hub p op rest s.dev →
      op.act = .arrive 0 false → op.answers = none → stakeCheck s.dev op.stake op.parcel = .none →
      Completes (.stakeOpApply die hub (1#4 <<< p)) s fun t => t = setHub s.dev die hub ((getHub s.dev die hub).setPort p rest)) ∧
    (∀ die hub p op rest s rd, Fits (.stakeOpApply die hub (1#4 <<< p)) s → Presents die hub p op rest s.dev →
      op.act = .claim 0 rd → op.answers = none → stakeCheck s.dev op.stake op.parcel = .none →
      Completes (.stakeOpApply die hub (1#4 <<< p)) s fun t => (∀ j, getStake t j = getStake s.dev j) ∧ MemSame s.dev t ∧
        t.beyondCores = s.dev.beyondCores ∧ t.wakes = s.dev.wakes) ∧
    (∀ die hub p op rest s rd c run pc word mask, Fits (.stakeOpApply die hub (1#4 <<< p)) s → Presents die hub p op rest s.dev →
      op.act = .claim 0 rd → op.source = .agent (.seq c) run pc word mask → agentRun s.dev (.seq c) = run →
      stakeCheck s.dev op.stake op.parcel = .none →
      Completes (.stakeOpApply die hub (1#4 <<< p)) s fun t => (∀ j, getStake t j = getStake s.dev j) ∧
        OnlySeq c (setHub s.dev die hub ((getHub s.dev die hub).setPort p rest)) t ∧
        sreg t c rd = (getStake s.dev op.stake).count.setWidth 64) ∧
    ∀ a o s id, Fits (.stkArrive a o) s → CanIssue a (.stkArrive a o) (stkRegs o false) s.dev → o.imm = 0 →
      stkName s.dev a o = some id → stakeDie id < s.dev.part.dies →
      Completes (.stkArrive a o) s fun t => Sent a id (.arrive 0 false) s.dev t

/-- A reset acts on the whole cycle: an arrival of the same cycle counts towards the new target (chapter 01, Stakes (R62, R63)). STAKE_OP_APPLY in which two ports, in either order, present a reset and an arrival with increment inc for one stake that accepts both, the new TARGET being above inc: the stake is left with COUNT inc and the new TARGET, whatever COUNT was before; its waiters go on waiting, and no other stake or memory changes. Concludes that exec answers a next state (Completes) for: stakeOpApply. -/
def Obligations.ResetsComeFirst : Prop :=
  ∀ die hub p q x y rp rq s tgt inc, Fits (.stakeOpApply die hub (1#4 <<< p ||| 1#4 <<< q)) s → p ≠ q →
      Presents die hub p x rp s.dev → Presents die hub q y rq s.dev → x.act = .arrive inc false → y.act = .reset tgt → x.answers = none → y.answers = none → x.stake = y.stake →
      stakeCheck s.dev x.stake x.parcel = .none → stakeCheck s.dev y.stake y.parcel = .none → 0 < inc → inc < tgt.toNat →
      Completes (.stakeOpApply die hub (1#4 <<< p ||| 1#4 <<< q)) s fun t => StakeOnly x.stake s.dev t ∧
        getStake t x.stake = { getStake s.dev x.stake with count := BitVec.ofNat 32 inc, target := tgt, saturated := false, faulted := false }

/-- How a wait reaches its hub, ends, times out and polls (chapter 01, Stakes (R60, R61, R62, R64, R67, R68, R74); log 149 (DESIGN CHOICE)). A wait that its agent still makes, presented to a hub: on a complete stake without AUTO_RESET it ends at once with outcome 0, or 1 where FAULTED is set; otherwise the stake holds one waiter more, one of another cluster taking an entry of the hub's remote table, or polling where that table is full. STK_WAIT_TIMEOUT at or past the deadline ends the wait with outcome 2 and takes the waiter from its stake. STAKE_POLL of a polling waiter ends its wait once the stake is complete, and changes nothing while it is enabled and incomplete (on an AUTO_RESET stake too: log 149, the model's choice). Concludes that exec answers a next state (Completes) for: stakeOpApply, stkWaitTimeout, stakePoll. -/
def Obligations.StakeWaits : Prop :=
  (∀ die hub p op rest s a serial, Fits (.stakeOpApply die hub (1#4 <<< p)) s → Presents die hub p op rest s.dev →
      op.act = .wait (.agent a) serial → op.answers = none → waitLive s.dev (.agent a) serial = true → stakeCheck s.dev op.stake op.parcel = .none →
      (getStake s.dev op.stake).complete = true → (getStake s.dev op.stake).autoReset = false →
      Completes (.stakeOpApply die hub (1#4 <<< p)) s fun t => Woken a (if (getStake s.dev op.stake).faulted then 1 else 0) s.dev t ∧
        OnlyCore a.core { s.dev with hubs := t.hubs } t) ∧
    (∀ die hub p op rest s a serial, Fits (.stakeOpApply die hub (1#4 <<< p)) s → Presents die hub p op rest s.dev →
      op.act = .wait (.agent a) serial → op.answers = none → waitLive s.dev (.agent a) serial = true → stakeCheck s.dev op.stake op.parcel = .none →
      ((getStake s.dev op.stake).complete = false ∨ (getStake s.dev op.stake).autoReset = true) →
      Completes (.stakeOpApply die hub (1#4 <<< p)) s fun t => StakeOnly op.stake s.dev t ∧ (∀ c, getCore t c = getCore s.dev c) ∧
        getStake t op.stake = { getStake s.dev op.stake with
          waiters := (getStake s.dev op.stake).waiters ++ [⟨.agent a, isRemote op.stake (.agent a),
            isRemote op.stake (.agent a) && decide ((if stakeHub op.stake = 12 then 512 else 256) ≤
              remoteUsed s.dev (stakeDie op.stake) (stakeHub op.stake)), serial⟩] }) ∧
    (∀ a s w t0, Fits (.stkWaitTimeout a) s → agentWait s.dev a = some w → w.deadline = some t0 → t0 ≤ s.dev.tick →
      Completes (.stkWaitTimeout a) s fun t => Woken a 2 s.dev t ∧ OnlyCore a.core { s.dev with stakes := t.stakes } t ∧
        (∀ j : StakeId, j ≠ w.stake → getStake t j = getStake s.dev j) ∧
        ∀ x, x ∈ (getStake t w.stake).waiters ↔ x ∈ (getStake s.dev w.stake).waiters ∧ x.serial ≠ w.serial) ∧
    (∀ a s id x, Fits (.stakePoll (.agent a)) s → pollingOn s.dev (.agent a) = some (id, x) → x.w = .agent a → (getStake s.dev id).enable = true →
      (getStake s.dev id).complete = true → waitLive s.dev (.agent a) x.serial = true →
      Completes (.stakePoll (.agent a)) s fun t => Woken a (if (getStake s.dev id).faulted then 1 else 0) s.dev t ∧ StakeOnly id s.dev t) ∧
    ∀ w s id x, Fits (.stakePoll w) s → pollingOn s.dev w = some (id, x) → (getStake s.dev id).enable = true →
      (getStake s.dev id).complete = false → exec (.stakePoll w) s = .next s

/-- Writes to STK_TARGET and STK_CTL act on their stake behind the operations queued at its port 3 (chapter 01, Stake registers (R72, R73, R74); chapter 01, Stakes (R53, R62, R63, R64)). For a stake of the part, with d the device once the operations queued at port 3 of its hub have been applied: STK_TARGET_WRITE leaves TARGET as written; where COUNT has reached it, the registered waiters are gone, and with AUTO_RESET COUNT is less by TARGET once. STK_CTL_RESET (a write with bit 2 set) leaves COUNT 0 with TARGET as it stood, SATURATED and FAULTED clear, and the other fields as written. STK_CTL_ENABLE_CLEAR leaves the stake disabled: every agent that waited on it without polling has its outcome 1, no waiter is registered on it, and every new operation on it is refused. In each case no other stake, no memory and nothing beyond the cores changes from d. Concludes that exec answers a next state (Completes) for: stkTargetWrite, stkCtlReset, stkCtlEnableClear. -/
def Obligations.StakeRegisterWrites : Prop :=
  (∀ id v s d, Fits (.stkTargetWrite id v) s → stakeDie id < s.dev.part.dies → d = atHub s.dev id →
      Completes (.stkTargetWrite id v) s fun t => StakeOnly id d t ∧
        getStake t id = { getStake d id with
          target := v
          count := if (getStake d id).autoReset ∧ (if v = 0 then 1 else v) ≤ (getStake d id).count
            then (getStake d id).count - (if v = 0 then 1 else v) else (getStake d id).count
          waiters := if (if (getStake d id).autoReset ∧ v = 0 then 1 else v) ≤ (getStake d id).count
            then (getStake d id).waiters.filter StakeWait.polling else (getStake d id).waiters }) ∧
    (∀ id v s d, Fits (.stkCtlReset id v) s → stakeDie id < s.dev.part.dies → v.getLsbD 2 = true → d = atHub s.dev id →
      Completes (.stkCtlReset id v) s fun t => StakeOnly id d t ∧
        getStake t id = { getStake d id with
          count := 0, saturated := false, faulted := false, enable := v.getLsbD 0, event := v.getLsbD 1, autoReset := v.getLsbD 3
          parcel := (v.extractLsb' 8 6).toNat, waiters := (getStake t id).waiters }) ∧
    ∀ id v s d, Fits (.stkCtlEnableClear id v) s → stakeDie id < s.dev.part.dies → (getStake s.dev id).enable = true → v.getLsbD 0 = false →
      d = atHub s.dev id → (getStake d id).enable = true →
      Completes (.stkCtlEnableClear id v) s fun t => StakeOnly id d t ∧ (getStake t id).enable = false ∧
        (∀ a rem serial, ⟨.agent a, rem, false, serial⟩ ∈ (getStake d id).waiters → waitLive d (.agent a) serial = true → Woken a 1 d t) ∧
        (getStake t id).target = (getStake d id).target ∧ (∀ w ∈ (getStake t id).waiters, w.polling = true) ∧
        ∀ parcel, stakeCheck t id parcel = .stakeDenied

/-- D-format instructions queue one operation with its stake, or stall on a full queue (chapter 01, Cores (R27, R28); chapter 02, Operand formats (R97); chapter 02, Opcodes (R104, R105, R106, R109); chapter 10, Quantise queue (R354); chapter 07, Table loads (R272); chapter 10, Scale file (R340); log 24 (DEDUCED); chapter 05, Streams (R216, R217, R219); chapter 05, Chains (R208); chapter 14, Collectives (R496, R505, R512); chapter 01, Cores (R28, R29)). CUBE.MMA, CONV, ATTN, POOL, RSMP and ACLR enter the queue of the cube they name (4 places), CHN.ARM and CHN.MEDIA the chain engine's (16), QNT.PACK and UNPACK the quantise queue (4), SFN.TLOAD and QNT.SLOAD the table and scale loaders' (2): one entry more at the end, with the descriptor address a[DA], the handle, the completion stake and the parcel. The sequencer is at its next instruction and the part has one operation more to complete (CUBE.ACLR has no descriptor to count). No register, other queue, crew, stake or byte of memory changes. At a full queue the instruction waits and nothing changes; the completion stake is tested first (log 24, the model's reading). CHN.STRM of an IDLE slot queues a pass and makes the slot RUNNING, of any other slot it completes with STREAM_BUSY. CHN.REARM queues a pass of an ARMED slot, and completes with STREAM_IDLE on an IDLE one. CHN.STOP makes an ARMED slot IDLE and completes at once. A handle that is not of one of the core's own slots completes the instruction with its fault. COL.RUN and COL.PUT enter the link engine of the die. In each case the sequencer is at its next instruction; no register, crew or byte of memory changes, and an instruction that completes at once has arrived at its stake, with FAULTED exactly where it failed. Concludes that exec answers a next state (Completes) for: sfnTload, cubeMma, cubeConv, cubeAttn, cubePool, cubeRsmp, cubeAclr, chnArm, chnStrm, chnRearm, chnStop, chnMedia, colRun, colPut, qntPack, qntUnpack, qntSload. -/
def Obligations.OperationsQueued : Prop :=
  (DQueues .cubeMma 1 0 false (fun o k => 4 ≤ (tget Cube.empty k.w.cubes o.unit.toNat).queue.length) (fun o op w => { w with
      cubes := tset Cube.empty w.cubes o.unit.toNat { tget Cube.empty w.cubes o.unit.toNat with
        queue := (tget Cube.empty w.cubes o.unit.toNat).queue ++ [op] } }) ∧
    DQueues .cubeConv 2 1 false (fun o k => 4 ≤ (tget Cube.empty k.w.cubes o.unit.toNat).queue.length) (fun o op w => { w with
      cubes := tset Cube.empty w.cubes o.unit.toNat { tget Cube.empty w.cubes o.unit.toNat with
        queue := (tget Cube.empty w.cubes o.unit.toNat).queue ++ [op] } }) ∧
    DQueues .cubeAttn 3 2 false (fun o k => 4 ≤ (tget Cube.empty k.w.cubes o.unit.toNat).queue.length) (fun o op w => { w with
      cubes := tset Cube.empty w.cubes o.unit.toNat { tget Cube.empty w.cubes o.unit.toNat with
        queue := (tget Cube.empty w.cubes o.unit.toNat).queue ++ [op] } }) ∧
    DQueues .cubePool 4 3 false (fun o k => 4 ≤ (tget Cube.empty k.w.cubes o.unit.toNat).queue.length) (fun o op w => { w with
      cubes := tset Cube.empty w.cubes o.unit.toNat { tget Cube.empty w.cubes o.unit.toNat with
        queue := (tget Cube.empty w.cubes o.unit.toNat).queue ++ [op] } }) ∧
    DQueues .cubeRsmp 5 4 false (fun o k => 4 ≤ (tget Cube.empty k.w.cubes o.unit.toNat).queue.length) (fun o op w => { w with
      cubes := tset Cube.empty w.cubes o.unit.toNat { tget Cube.empty w.cubes o.unit.toNat with
        queue := (tget Cube.empty w.cubes o.unit.toNat).queue ++ [op] } }) ∧
    DQueues .cubeAclr 0 8 false (fun o k => 4 ≤ (tget Cube.empty k.w.cubes o.unit.toNat).queue.length) (fun o op w => { w with
      cubes := tset Cube.empty w.cubes o.unit.toNat { tget Cube.empty w.cubes o.unit.toNat with
        queue := (tget Cube.empty w.cubes o.unit.toNat).queue ++ [op] } }) ∧
    DQueues .chnArm 0x10 0 false (fun _ k => 16 ≤ k.w.chain.length) (fun _ op w => { w with chain := w.chain ++ [⟨op, 0, none, 0, 0, [], 0, 0, .none⟩] }) ∧
    DQueues .chnMedia 0x13 4 true (fun _ k => 16 ≤ k.w.chain.length) (fun _ op w => { w with chain := w.chain ++ [⟨op, 0, none, 0, 0, [], 0, 0, .none⟩] }) ∧
    DQueues .qntPack 0x30 1 false (fun _ k => 4 ≤ k.w.quant.length) (fun _ op w => { w with quant := w.quant ++ [RunOp.new op] }) ∧
    DQueues .qntUnpack 0x31 2 false (fun _ k => 4 ≤ k.w.quant.length) (fun _ op w => { w with quant := w.quant ++ [RunOp.new op] }) ∧
    DQueues .qntSload 0x32 3 false (fun _ k => 2 ≤ k.w.sloads.length) (fun _ op w => { w with sloads := w.sloads ++ [op] }) ∧
    DQueues .sfnTload 0x38 0 false (fun _ k => 2 ≤ k.w.tloads.length) (fun _ op w => { w with tloads := w.tloads ++ [op] })) ∧
    ((∀ c o s op q, Fits (.chnStrm c o) s → CanIssue (.seq c) (.chnStrm c o) (dRegs o true) s.dev → op = dOp s.dev c o 0x11 1 true →
      StakeGood s.dev op.stake op.parcel → (getCore s.dev c).w.chain.length < 16 → streamSlot s.dev c op.handle = .ok q →
      ((getStream s.dev c q).state = 0 → Completes (.chnStrm c o) s fun t => OnlyCore c { s.dev with serial := s.dev.serial + 1 } t ∧
        getCore t c = { getCore s.dev c with w := { (getCore s.dev c).w.issued true with
          chain := (getCore s.dev c).w.chain ++ [⟨op, 0, some q, 0, 0, [], 0, 0, .none⟩]
          streams := tset Stream.empty (getCore s.dev c).w.streams q { getStream s.dev c q with state := 2 } } }) ∧
      ((getStream s.dev c q).state ≠ 0 → Completes (.chnStrm c o) s fun t => Arrived c 2 op.parcel 1 true op.stake t ∧
        seqOf t c = { seqOf s.dev c with pc := (seqOf s.dev c).pc + 1 } ∧ (getCore t c).w.chain = (getCore s.dev c).w.chain ∧
        getStream t c q = getStream s.dev c q ∧ MemSame s.dev t ∧ t.beyondCores = s.dev.beyondCores)) ∧
    (∀ c o s op q, Fits (.chnRearm c o) s → CanIssue (.seq c) (.chnRearm c o) (dRegs o true) s.dev → op = dOp s.dev c o 0x12 2 true →
      StakeGood s.dev op.stake op.parcel → (getCore s.dev c).w.chain.length < 16 → streamSlot s.dev c op.handle = .ok q →
      ((getStream s.dev c q).state ≠ 0 → Completes (.chnRearm c o) s fun t => OnlyCore c { s.dev with serial := s.dev.serial + 1 } t ∧
        getCore t c = { getCore s.dev c with w := { (getCore s.dev c).w.issued true with
          chain := (getCore s.dev c).w.chain ++ [⟨op, 0, some q, 0, 0, [], 0, 0, .none⟩]
          streams := tset Stream.empty (getCore s.dev c).w.streams q { getStream s.dev c q with state := 2 } } }) ∧
      ((getStream s.dev c q).state = 0 → Completes (.chnRearm c o) s fun t => Arrived c 2 op.parcel 1 true op.stake t ∧
        seqOf t c = { seqOf s.dev c with pc := (seqOf s.dev c).pc + 1 } ∧ (getCore t c).w.chain = (getCore s.dev c).w.chain ∧
        getStream t c q = getStream s.dev c q ∧ MemSame s.dev t ∧ t.beyondCores = s.dev.beyondCores)) ∧
    (∀ c o s op q, Fits (.chnStop c o) s → CanIssue (.seq c) (.chnStop c o) (dRegs o true) s.dev → op = dOp s.dev c o 0 3 true →
      StakeGood s.dev op.stake op.parcel → (getCore s.dev c).w.chain.length < 16 → streamSlot s.dev c op.handle = .ok q →
      (getStream s.dev c q).state ≠ 2 → Completes (.chnStop c o) s fun t => Arrived c 2 op.parcel 1 false op.stake t ∧
        seqOf t c = { seqOf s.dev c with pc := (seqOf s.dev c).pc + 1 } ∧ (getCore t c).w.chain = (getCore s.dev c).w.chain ∧
        getStream t c q = { getStream s.dev c q with state := 0 } ∧ MemSame s.dev t ∧ t.beyondCores = s.dev.beyondCores) ∧
    (∀ x : (CoreId → DOp → Instr) × Nat × Nat, x ∈ [(Instr.chnStrm, 0x11, 1), (.chnRearm, 0x12, 2), (.chnStop, 0, 3)] →
      ∀ c o s op f, Fits (x.1 c o) s → CanIssue (.seq c) (x.1 c o) (dRegs o true) s.dev → op = dOp s.dev c o x.2.1 x.2.2 true →
        StakeGood s.dev op.stake op.parcel → (getCore s.dev c).w.chain.length < 16 → streamSlot s.dev c op.handle = .error f →
        f ≠ .none → f ≠ .alreadyClaimed → Completes (x.1 c o) s fun t => Arrived c 2 op.parcel 1 true op.stake t ∧
          seqOf t c = { seqOf s.dev c with pc := (seqOf s.dev c).pc + 1 } ∧ (getCore t c).w.chain = (getCore s.dev c).w.chain ∧
          MemSame s.dev t ∧ t.beyondCores = s.dev.beyondCores) ∧
    ∀ x : (CoreId → DOp → Instr) × Nat × Nat, x ∈ [(Instr.colRun, 0x20, 0), (.colPut, 0x21, 1)] →
      ∀ c o s op, Fits (x.1 c o) s → CanIssue (.seq c) (x.1 c o) (dRegs o true) s.dev → op = dOp s.dev c o x.2.1 x.2.2 true →
        StakeGood s.dev op.stake op.parcel → (linksQueued s.dev c.die).length < 64 → Completes (x.1 c o) s fun t =>
          OnlyCore c { s.dev with serial := s.dev.serial + 1, links := t.links } t ∧
          getCore t c = { getCore s.dev c with w := (getCore s.dev c).w.issued true } ∧
          (∀ q, getLinks t q = if q = c.die then getLinks s.dev q ++ [⟨op, c, partId s.dev c, 0, 0, 0⟩] else getLinks s.dev q))

/-- A unit instruction whose completion stake is refused faults the sequencer (chapter 01, Stakes (R52, R53, R54); chapter 01, Faults (R40); log 24 (DEDUCED)). Every D-format instruction, once it may issue: a completion stake on a die the part lacks faults the sequencer with ADDRESS_ABSENT, and one that is disabled or of another parcel with STAKE_DENIED. Every register, every queue and unit of the core, every other core and every byte of memory is as before. (That the stake is tested before a full queue holds the instruction up is log 24, the model's reading.) -/
def Obligations.CompletionStakesChecked : Prop :=
  (∀ i : CoreId → DOp → Instr, i ∈ [Instr.cubeMma, .cubeConv, .cubeAttn, .cubePool, .cubeRsmp, .cubeAclr, .chnArm, .qntPack, .qntUnpack, .qntSload, .sfnTload] →
      DRefuses i false) ∧
    ∀ i : CoreId → DOp → Instr, i ∈ [Instr.chnStrm, .chnRearm, .chnStop, .chnMedia, .colRun, .colPut] → DRefuses i true

/-- A unit takes the operation at the front of its queue, checks it, waits or ends it (chapter 05, Checks in order (R197); chapter 04, Operand waits (R170); chapter 03, Accumulation (R138); chapter 07, Table loads (R273); chapter 10, Scale file (R339, R340); chapter 01, Cores (R29)). UNIT_DESCRIPTOR_START of an idle cube of a running core (for CUBE.ACLR: one that the operations before have released) completes and takes exactly the front operation off the queue: CUBE.ACLR clears every bank and arrives without FAULTED; one that fails the checks of order 1 ends with FAULTED and leaves the banks; one with a wait stands at the head, its wait on its way to the hub. An idle table or scale loader ends a load whose descriptor fails a check with FAULTED, and otherwise begins it. OPERAND_WAIT_END of a cube's or the quantise queue's operation whose wait ended with an outcome other than 0 ends it with FAULTED. Where the outcome is 0, and the operation takes its shape from its descriptor, passes its guard and claims no tile, it goes on: a cube's operation has passed its checks and waits for the running one; a quantise operation takes the active bank and its turn at the converter. Throughout no sequencer register, no crew, no other core and nothing beyond running work changes. Concludes that exec answers a next state (Completes) for: unitDescriptorStart, operandWaitEnd. -/
def Obligations.UnitsTakeWork : Prop :=
  (∀ c u s op rest, Fits (.unitDescriptorStart (.cube c u)) s → unitsRun s.dev c = true → (getCube s.dev c u).queue = op :: rest →
      (getCube s.dev c u).head = none → (getCube s.dev c u).run = none →
      ((op.kind = 0 → (getCube s.dev c u).released = true) → Completes (.unitDescriptorStart (.cube c u)) s fun t => UnitOnly c s.dev t ∧ (getCube t c u).queue = rest) ∧
      ((getCube s.dev c u).post = [] → op.kind = 0 → Completes (.unitDescriptorStart (.cube c u)) s fun t =>
        CubeEnded c u op false s.dev t ∧ getCube t c u = { getCube s.dev c u with queue := rest, acc := [], errs := [] }) ∧
      (∀ f, (getCube s.dev c u).post = [] → op.kind ≠ 0 → order1 s.dev c op = .error f → f ≠ .none → f ≠ .alreadyClaimed →
        Completes (.unitDescriptorStart (.cube c u)) s fun t =>
          CubeEnded c u op true s.dev t ∧ getCube t c u = { getCube s.dev c u with queue := rest }) ∧
      ∀ x id, op.kind ≠ 0 → order1 s.dev c op = .ok x → order2 s.dev c (readHooks s.dev c (RunOp.new x)) = .none →
        (readHooks s.dev c (RunOp.new x)).wait = some id → Completes (.unitDescriptorStart (.cube c u)) s fun t => UnitOnly c s.dev t ∧
          getCube t c u = { getCube s.dev c u with queue := rest, head := some (readHooks s.dev c (RunOp.new x)) } ∧ MemSame s.dev t ∧
          ∃ q, (getHub t (stakeDie id) (stakeHub id)).port (if ownCore id c then 1 else 2) =
            q ++ [⟨.wait (.unit (.cube c u) op.serial) op.serial, id, .unit 0 c.die, some x.parcel⟩]) ∧
    (∀ c s op rest, Fits (.unitDescriptorStart (.tload c)) s → unitsRun s.dev c = true → (getCore s.dev c).w.tloads = op :: rest →
      (getCore s.dev c).w.tphase = 0 →
      Completes (.unitDescriptorStart (.tload c)) s (fun t => UnitOnly c s.dev t ∧ MemSame s.dev t ∧
        (getCore t c).w.baseActive = (getCore s.dev c).w.baseActive) ∧
      (∀ f, order1 s.dev c op = .error f → f ≠ .none → f ≠ .alreadyClaimed → Completes (.unitDescriptorStart (.tload c)) s fun t =>
        (getCore t c).w.tloads = rest ∧ Arrived c 10 op.parcel 1 true op.stake t) ∧
      ∀ x, order1 s.dev c op = .ok x → wfld x.desc 1 51 0 % 64 = 0 → inOwn c (BitVec.ofNat 52 (wfld x.desc 1 51 0)) 20240 = true →
        wfld x.desc 2 31 0 = 20240 → Completes (.unitDescriptorStart (.tload c)) s fun t =>
          (getCore t c).w.tloads = x :: rest ∧ (getCore t c).w.tphase = 1) ∧
    (∀ c s op rest, Fits (.unitDescriptorStart (.sload c)) s → unitsRun s.dev c = true → (getCore s.dev c).w.sloads = op :: rest →
      (getCore s.dev c).w.sphase = 0 →
      Completes (.unitDescriptorStart (.sload c)) s (fun t => UnitOnly c s.dev t ∧ MemSame s.dev t ∧
        (getCore t c).w.scaleActive = (getCore s.dev c).w.scaleActive) ∧
      ∀ f, order1 s.dev c op = .error f → f ≠ .none → f ≠ .alreadyClaimed → Completes (.unitDescriptorStart (.sload c)) s fun t =>
        (getCore t c).w.sloads = rest ∧ Arrived c 9 op.parcel 1 true op.stake t) ∧
    (∀ c u s o f e, Fits (.operandWaitEnd (.cube c u)) s → unitsRun s.dev c = true → (getCube s.dev c u).head = some o → o.phase = .operand →
      (getCube s.dev c u).run = none → (getCube s.dev c u).post = [] → takeWake s.dev (.unit (.cube c u) o.op.serial) = some (f, e) → f ≠ 0 →
      Completes (.operandWaitEnd (.cube c u)) s fun t => CubeEnded c u o.op true s.dev t ∧
        (getCube t c u).queue = (getCube s.dev c u).queue ∧ (getCube t c u).acc = (getCube s.dev c u).acc ∧ MemSame s.dev t) ∧
    (∀ c u s o x e y, Fits (.operandWaitEnd (.cube c u)) s → unitsRun s.dev c = true → (getCube s.dev c u).head = some o → o.phase = .operand →
      (getCube s.dev c u).run = some y → takeWake s.dev (.unit (.cube c u) o.op.serial) = some (0, e) → o.rtSrc = false →
      x = { o with e0 := o.plan.1, e1 := o.plan.2.1, e2 := o.plan.2.2, tile := 0 } → x.guarded = false → x.claim.1 = 0 →
      Completes (.operandWaitEnd (.cube c u)) s fun t => UnitOnly c s.dev t ∧ MemSame s.dev t ∧
        getCube t c u = { getCube s.dev c u with head := some { x with phase := .passed } }) ∧
    (∀ c s o rest x e, Fits (.operandWaitEnd (.quant c)) s → unitsRun s.dev c = true → (getCore s.dev c).w.quant = o :: rest → o.op.desc ≠ [] →
      o.phase = .operand → takeWake s.dev (.unit (.quant c) o.op.serial) = some (0, e) → o.rtSrc = false →
      x = { o with e0 := o.plan.1, e1 := o.plan.2.1, e2 := o.plan.2.2, tile := 0 } → x.guarded = false → x.claim.1 = 0 → x.zero = false →
      Completes (.operandWaitEnd (.quant c)) s fun t => UnitOnly c s.dev t ∧ MemSame s.dev t ∧
        (getCore t c).w.convQ = (getCore s.dev c).w.convQ ++ [(4, o.op.serial)] ∧
        (getCore t c).w.quant.head? = some { x with phase := .convert, bank := (getCore s.dev c).w.scaleActive }) ∧
    ∀ c s o rest f e, Fits (.operandWaitEnd (.quant c)) s → unitsRun s.dev c = true → (getCore s.dev c).w.quant = o :: rest →
      o.op.desc ≠ [] → o.phase = .operand → takeWake s.dev (.unit (.quant c) o.op.serial) = some (f, e) → f ≠ 0 →
      Completes (.operandWaitEnd (.quant c)) s fun t => UnitOnly c s.dev t ∧ MemSame s.dev t ∧
        (getCore t c).w.quant = (rest.filter fun x => decide (x.op.serial ≠ o.op.serial)) ∧
        Arrived c 8 o.op.parcel 1 true o.op.stake t

/-- A matrix step that passes its check commits once; a mismatch is replayed, and a second fences the core (chapter 04, Steps (R171, R172, R173); chapter 04, Closure check (R178, R179, R180, R181, R182, R183); chapter 03, Products and sums (R135, R136, R137); chapter 04, Core fence (R184, R186)). CUBE_STEP of a matrix operation whose A rows to be loaded and B block are not poisoned and come through no relay or gather. Where the check finds no mismatch, and no uncorrectable word of the bank and no wrong add is met, the step sums are added to their bank, with no upset each the sum of R135 to R137 of its row of A (held in the cells or loaded) and column of B, added by R136 or R137; the cells hold the A rows, the next step is due and no memory changes. Where it finds a mismatch for the first time (and no replay limit is reached), no accumulator changes, the cells are empty and the step will run again; the core notes one replay more, at this tick. Where it finds one in the replay, the core is fenced with cause 1 and no accumulator changes. CUBE_DRAIN of an operation without hooks or K split, with no uncorrectable word in a bank it reads, ends it with its one arrival, the banks as they were; with an RND that draws nothing and rows of C apart, element (i, j) of C is the conversion to C_FMT of the drained element (R171, steps 1 to 3). A check marks exactly the rows and columns that R179, or for finite values R180, has exceed. No sequencer register or other core changes but by the fence. Concludes that exec answers a next state (Completes) for: cubeStep, cubeDrain. -/
def Obligations.CubeStepsAndReplays : Prop :=
  (∀ c u x s o d q k v, Fits (.cubeStep c u x) s → (getCube s.dev c u).run = some o → cubeGo s.dev c o = true → o.phase = .steps → o.op.kind = 1 →
      o.relayIn = false → o.gather = false → d = rampGo s.dev c u → q = o.coord o.step → k = getCube d c u →
      (((o.freshRows k q).map (o.aRow d c q)).any fun r => r.any (locPoisoned d c (fmtBits o.fmts.a))) = false →
      ((o.bBlock c q).any fun r => r.any (locPoisoned d c (fmtBits o.fmts.b))) = false →
      v = computeStep o.cls o.fmts.a o.fmts.b o.fmts.ftzIn (x.sums ++ (takeInject d c u o).1) (o.aRows d c k q)
        ((o.bBlock c q).map fun l => l.map (locEl d c (fmtBits o.fmts.b))) →
      (v.verdict.rows = 0 → v.verdict.cols = 0 → x.ue = none → (∀ e ∈ (getCube s.dev c u).errs ++ x.weak, e.2 = true → e.1 / 32 ≠ o.bankOf q.row q.nb) →
        x.adds = [] → o.step + 1 < o.stepCount → Completes (.cubeStep c u x) s fun t =>
        UnitOnly c s.dev t ∧ MemSame s.dev t ∧ (getCube t c u).run = some { o with step := o.step + 1, replaying := false } ∧
        (getCube t c u).acc = (commitSums (getCube s.dev c u) o.isInt (o.bankOf q.row q.nb) v.sums).acc ∧
        (getCube t c u).cells = some ⟨o.op.serial, o.step, o.aRows d c k q⟩ ∧
        (x.sums ++ (takeInject d c u o).1 = [] → ∀ i j, i < 8 → j < 8 → accGet (getCube t c u) o.isInt (o.bankOf q.row q.nb) i j =
          accumulated o.isInt (accGet (getCube s.dev c u) o.isInt (o.bankOf q.row q.nb) i j)
            (stepSum o.cls o.fmts.a o.fmts.b o.fmts.ftzIn ((o.aRows d c k q).getD i [])
              (((o.bBlock c q).map fun l => l.map (locEl d c (fmtBits o.fmts.b))).getD j [])))) ∧
      (v.verdict.rows ≠ 0 ∨ v.verdict.cols ≠ 0 → o.replayed = false → rfld s.dev .cubeFence c.die c.core 0 15 8 = 0 →
        Completes (.cubeStep c u x) s fun t => UnitOnly c s.dev t ∧ MemSame s.dev t ∧
          (getCube t c u).run = some { o with replayed := true, replaying := true } ∧ (getCube t c u).acc = (getCube s.dev c u).acc ∧
          (getCube t c u).cells = none ∧ (getCore t c).replays = (getCore s.dev c).replays ++ [s.dev.tick]) ∧
      (v.verdict.rows ≠ 0 ∨ v.verdict.cols ≠ 0 → o.replayed = true → Completes (.cubeStep c u x) s (Fenced c 1 s.dev))) ∧
    (∀ c u x s o, Fits (.cubeDrain c u x) s → (getCube s.dev c u).run = some o → cubeGo s.dev c o = true → o.phase = .drain → o.op.kind = 1 →
      o.ksplit = none → hookEn o.epiWord = false → x.ue = none → (∀ e ∈ (getCube s.dev c u).errs ++ x.weak, e.2 = true → e.1 / 32 ∉ o.outBanks) → (getCube s.dev c u).head = none → (getCube s.dev c u).post = [] →
      Completes (.cubeDrain c u x) s fun t => CubeEnded c u o.op false s.dev t ∧ (getCube t c u).queue = (getCube s.dev c u).queue ∧
        (getCube t c u).acc = (getCube s.dev c u).acc ∧
        (o.fmts.rnd < 3 → fmtBits o.fmts.c % 8 = 0 → o.e1 * (fmtBits o.fmts.c / 8) ≤ o.fd 5 31 0 → ∀ i j, i ∈ o.rows → j < o.e1 → o.bankOf (i / 8) (j / 8) < 64 →
          storeElem t c (offIn c (o.addr 3) + i * o.fd 5 31 0) (fmtBits o.fmts.c) j =
            (toElem o.fmts.c (if o.fmts.c = 10 ∨ o.fmts.rnd = 0 then .rne else if o.fmts.rnd = 1 then .rna else .rtz)
              (o.fmts.c ≠ 10 && o.fmts.ftzOut) (o.fmts.c ≠ 10 && o.fmts.sat) true
              (drained s.dev c o j (accGet (getCube s.dev c u) o.isInt (o.bankOf (i / 8) (j / 8)) (i % 8) (j % 8)).1)).code %
              2 ^ fmtBits o.fmts.c)) ∧
    (∀ (a b t : List (List FV)) n i, a.length = 8 → b.length = 8 → t.length = 8 → i < 8 → (∀ r ∈ a ++ b, r.length = n ∧ r.all FV.finite = true) →
      (∀ r ∈ t, r.length = 8 ∧ r.all FV.finite = true) →
      (Nat.testBit (checkFloat a b t).rows i = checkExceeds (t.getD i []) (a.getD i [])
        ((List.range n).map fun p => csum (b.map fun r => r.getD p .nan)) ((List.range n).map fun p => csum (b.map fun r => (r.getD p .nan).abs))) ∧
      (Nat.testBit (checkFloat a b t).cols i = checkExceeds (t.map fun r => r.getD i .nan) (b.getD i [])
        ((List.range n).map fun p => csum (a.map fun r => r.getD p .nan)) ((List.range n).map fun p => csum (a.map fun r => (r.getD p .nan).abs)))) ∧
    ∀ (a b : List (List Int)) (t : List (List W32)) n i, a.length = 8 → b.length = 8 → t.length = 8 → i < 8 → (∀ r ∈ a ++ b, r.length = n) →
      (∀ r ∈ t, r.length = 8) →
      (Nat.testBit (checkInt a b t [] [] (t.map fun r => r.map fun _ => .fin false 0 0)).rows i =
        decide (((t.getD i []).map BitVec.toInt).sum ≠ ((List.range n).map fun p => (a.getD i []).getD p 0 * (b.map fun r => r.getD p 0).sum).sum)) ∧
      (Nat.testBit (checkInt a b t [] [] (t.map fun r => r.map fun _ => .fin false 0 0)).cols i =
        decide ((t.map fun r => (r.getD i 0).toInt).sum ≠ ((List.range n).map fun p => (b.getD i []).getD p 0 * (a.map fun r => r.getD p 0).sum).sum))

/-- The contour ramp moves one level at a time; a fence request fences its core (chapter 04, Contour ramp (R174, R175, R176); chapter 04, Core fence (R184, R186, R193); chapter 17, Resets (R594); chapter 18, Power (R612)). RAMP_LEVEL_CHANGE: a ramping-up cube below level 8 gains one level where the power cap allows and otherwise stays; at level 8 it is ACTIVE; a ramping-down cube loses one level, and from level 1 is IDLE at level 0. RAMP_HOLD_EXPIRY of a cube that is up, has no step ready and is released (R680) begins the ramp down. CUBE_FENCE_WINDOW_END at a multiple of the window forgets the core's replays of earlier ticks. Nothing else of the device changes. FENCE_REQ of a core that is not fenced fences it with cause 3 (R193): its crews, launches, queued and running operations are gone, its sequencer has stopped and its accumulators are as they were; of the core whose reset is under way it does nothing. Concludes that exec answers a next state (Completes) for: rampLevelChange, rampHoldExpiry, fenceReq, cubeFenceWindowEnd. -/
def Obligations.RampsAndFences : Prop :=
  (∀ c u s, Fits (.rampLevelChange c u) s → (getCube s.dev c u).ramp = 1 →
      (8 ≤ (getCube s.dev c u).level → Completes (.rampLevelChange c u) s fun t =>
        t = setCube s.dev c u { getCube s.dev c u with ramp := 2 }) ∧
      ((getCube s.dev c u).level < 8 → (getCube s.dev c u).level < rfld s.dev .abwEnvelope 0 0 0 35 32 →
        Completes (.rampLevelChange c u) s fun t => t = setCube s.dev c u { getCube s.dev c u with level := (getCube s.dev c u).level + 1 }) ∧
      ((getCube s.dev c u).level < 8 → rfld s.dev .abwEnvelope 0 0 0 35 32 ≤ (getCube s.dev c u).level → exec (.rampLevelChange c u) s = .next s)) ∧
    (∀ c u s, Fits (.rampLevelChange c u) s → (getCube s.dev c u).ramp = 3 → Completes (.rampLevelChange c u) s fun t =>
      t = setCube s.dev c u (if (getCube s.dev c u).level ≤ 1 then { getCube s.dev c u with ramp := 0, level := 0 }
        else { getCube s.dev c u with level := (getCube s.dev c u).level - 1 })) ∧
    (∀ c u s, Fits (.rampHoldExpiry c u) s → ((getCube s.dev c u).ramp = 1 ∨ (getCube s.dev c u).ramp = 2) →
      (∀ o, (getCube s.dev c u).run = some o → stepReady s.dev c o = false ∧ o.phase ≠ .drain) →
      ((getCube s.dev c u).run = none → (getCube s.dev c u).released = true) →
      Completes (.rampHoldExpiry c u) s fun t => OnlyCore c s.dev t ∧ getCube t c u = { getCube s.dev c u with ramp := 3 } ∧
        (∀ k, k ≠ u → getCube t c k = getCube s.dev c k) ∧ seqOf t c = seqOf s.dev c) ∧
    (∀ c s, Fits (.cubeFenceWindowEnd c) s → rfld s.dev .cubeFence c.die c.core 0 31 16 ≠ 0 →
      s.dev.tick % (rfld s.dev .cubeFence c.die c.core 0 31 16 * 64) = 0 → Completes (.cubeFenceWindowEnd c) s fun t =>
        OnlyCore c s.dev t ∧ getCore t c = { getCore s.dev c with replays := (getCore s.dev c).replays.filter fun n => decide (s.dev.tick ≤ n) }) ∧
    (∀ c s, Fits (.fenceReq c) s → (getCore s.dev c).fenced = false →
      ¬(rfld s.dev .errCoreRst c.die 0 0 9 9 = 1 ∧ rfld s.dev .errCoreRst c.die 0 0 7 0 = c.core) →
      Completes (.fenceReq c) s (Fenced c 3 s.dev)) ∧
    ∀ c s, Fits (.fenceReq c) s → rfld s.dev .errCoreRst c.die 0 0 9 9 = 1 → rfld s.dev .errCoreRst c.die 0 0 7 0 = c.core →
      exec (.fenceReq c) s = .next s

/-- The phases of a hooked operation follow one another, and a failed wait ends it (chapter 06, Order of work (R227, R228, R230); chapter 06, Prologue (R233, R248); chapter 06, Converter (R236); chapter 06, Ledger (R242, R243, R246, R247, R249); chapter 06, K split (R250); log 153 (DEDUCED)). With the operation alone in its cube (nothing at the head, nothing past its drain but itself): PROLOGUE_COPY_DONE of an operation that still has its rows to correct marks the copy done, the memory being the copy's. With a transfer slot free, LEDGER_FETCH_DONE marks the fetch done once its wait ended with 0; and PROLOGUE_CORRECTION over unpoisoned carries, with no program, corrects the rows in order, each element the conversion to A_FMT, ties to even, of its product with the factor of its segment (R246, R248; that SAT acts on an infinity is log 153), and lets the steps begin. HOOK_PROGRAM_LAUNCH with an empty launch queue and enough free slots starts the program's crews in the lowest free slots. CONVERTER_PASS of the first queued row set moves a publishing operation on to its publish, with one record a row. With a transfer slot free, LEDGER_PUBLISH of an operation without the stake route writes each record to its slot, arrives at LSTAKE and ends the operation, with FAULTED on both exactly where a write failed; KSPLIT_COMBINE sums each element over the parts by the fixed tree (R250) and goes on to the drain, or ends with FAULTED where a part cannot be read. STAKE_ROUTE_RESUME, KSPLIT_COMBINE and LEDGER_FETCH_DONE after a wait that failed, and a correction over a poisoned carry, end the operation with one arrival, with FAULTED. No sequencer register, no other core and nothing beyond running work changes. Concludes that exec answers a next state (Completes) for: prologueCopyDone, ledgerFetchDone, prologueCorrection, hookProgramLaunch, converterPass, ledgerPublish, stakeRouteResume, ksplitCombine. -/
def Obligations.ProloguesAndEpilogues : Prop :=
  (∀ c u s o e, Fits (.prologueCopyDone c u) s → (getCube s.dev c u).run = some o → o.phase = .prologue → cubeGo s.dev c o = true → o.copied = false →
      o.relayIn = false → o.correct = true → o.corrected = false → proCopy s.dev c o = (e, .none) →
      Completes (.prologueCopyDone c u) s fun t => UnitOnly c s.dev t ∧ MemSame e t ∧
        (getCube t c u).run = some { o with copied := true } ∧ (getCube t c u).acc = (getCube s.dev c u).acc) ∧
    (∀ c u s o f e, Fits (.ledgerFetchDone c u) s → (getCube s.dev c u).run = some o → o.phase = .prologue → cubeGo s.dev c o = true →
      o.correct = true → o.fetched = false → xferFree s.dev c = true → takeWake s.dev (.unit (.cube c u) o.op.serial) = some (f, e) →
      (∀ x, f = 0 → fetchLedger e c (BitVec.ofNat 52 (o.pf 1 51 0)) (o.pf 0 28 22) (o.pf 5 52 32) (o.proRows e c) = (x, .none) →
        Completes (.ledgerFetchDone c u) s fun t => UnitOnly c s.dev t ∧ MemSame x t ∧
          (getCube t c u).run = some { o with fetched := true, waited := true }) ∧
      (f ≠ 0 → (getCube s.dev c u).head = none → (getCube s.dev c u).post = [] → Completes (.ledgerFetchDone c u) s fun t =>
        CubeEnded c u o.op true s.dev t ∧ MemSame s.dev t)) ∧
    (∀ c u s o, Fits (.prologueCorrection c u) s → (getCube s.dev c u).run = some o → o.phase = .prologue → cubeGo s.dev c o = true →
      o.correct = true → o.corrected = false → o.copied = true → o.fetched = true →
      (storePoisoned s.dev c (o.pf 4 52 32) (4 * (o.proShape.1 * o.pf 0 28 22)) = false → hookProg o.proWord = false → o.op.kind = 1 →
        Completes (.prologueCorrection c u) s fun t => UnitOnly c s.dev t ∧
          (getCube t c u).run = some { o with corrected := true, phase := .steps } ∧ (getCube t c u).acc = (getCube s.dev c u).acc ∧
          MemSame ((o.proRows s.dev c).foldl (fun d r => correctRow d c o r.2) s.dev) t) ∧
      (storePoisoned s.dev c (o.pf 4 52 32) (4 * (o.proShape.1 * o.pf 0 28 22)) = true → (getCube s.dev c u).head = none →
        (getCube s.dev c u).post = [] → Completes (.prologueCorrection c u) s fun t => CubeEnded c u o.op true s.dev t ∧ MemSame s.dev t)) ∧
    (∀ c u s o l, Fits (.hookProgramLaunch c u) s → coreGo s.dev c = true → hookOwner s.dev c u = some (o, false) → o.launched = false →
      (getCore s.dev c).w.launchQ = [] → l = hookLaunch s.dev c u o false → l.n ≤ (freeSlots (getCore s.dev c).w).length →
      Completes (.hookProgramLaunch c u) s fun t => seqOf t c = seqOf s.dev c ∧ MemSame s.dev t ∧ t.beyondWork = s.dev.beyondWork ∧
        (getCore t c).w.launchQ = [] ∧ (getCore t c).w.launches = (getCore s.dev c).w.launches ++ [l] ∧
        (getCube t c u).run = some { o with launched := true } ∧
        (∀ i q, i < l.n → (freeSlots (getCore s.dev c).w)[i]? = some q →
          getCrew t c q = some ⟨l.serial, i, l.entry, [], [], BitVec.allOnes 32, [], [], none⟩) ∧
        ∀ q, q ∉ (freeSlots (getCore s.dev c).w).take l.n → getCrew t c q = getCrew s.dev c q) ∧
    (∀ c u serial s o rest, Fits (.converterPass c) s → coreGo s.dev c = true → (getCore s.dev c).w.convQ = (u, serial) :: rest → u < 4 →
      findPost s.dev c u serial = some o → o.relayOut = false → o.phase = .convert → o.second = false → o.lkind ≠ 0 →
      stagePoisoned s.dev c o = false → Completes (.converterPass c) s fun t => UnitOnly c s.dev t ∧
        (∃ l, l.length = o.rows.length ∧ findPost t c u serial = some { o with records := l, phase := .publish }) ∧
        (getCore t c).w.convQ = rest.filter fun p => decide (p ≠ (u, serial))) ∧
    (∀ (d : Dev) c (o : RunOp) i off n (gs : Nat → FV), off = o.pf 5 20 0 + i * o.pf 6 31 0 → n = o.proShape.2 →
      (∀ t, gs t = finalFactor d c (o.pf 0 4 3) (o.pf 3 31 0) (v32 (BitVec.ofNat 32 (o.pf 3 63 32)))
        (closeRow d c (o.pf 0 4 3) (fetched d c (o.pf 0 28 22) (o.pf 5 52 32) i)) (v32 (word32 d c (o.pf 4 52 32 + (i * o.pf 0 28 22 + t) * 4)))) →
      (∀ k, k < n → k / max 1 (o.pf 2 47 24) < o.pf 0 28 22) →
      storeRead (correctRow d c o i) c off (cdiv (n * fmtBits o.fmts.a) 8) = packCodes (fmtBits o.fmts.a) ((List.range n).map fun k =>
        (toElem o.fmts.a .rne o.fmts.ftzIn o.fmts.sat true
          (mulR ((storeRow d c o.fmts.a o.fmts.ftzIn off n).getD k .nan) (gs (k / max 1 (o.pf 2 47 24))))).code)) ∧
    (∀ c u s o r f, Fits (.ledgerPublish c u) s → coreGo s.dev c = true → (getCube s.dev c u).post = [o] → o.phase = .publish → o.stakeRoute = false → xferFree s.dev c = true →
      (getCube s.dev c u).run = none → (getCube s.dev c u).head = none →
      putRecords s.dev ((o.rows.zip o.records).map fun x => (o.ledgerRow x.1, x.2.1, x.2.2)) = (r, f) → f ≠ .alreadyClaimed →
      Completes (.ledgerPublish c u) s fun t => CubeEnded c u o.op (decide (f ≠ .none)) s.dev t ∧ MemSame r t ∧
        (f = .none ∨ (o.sidePart = false ∧ o.lkind ≠ 0 ∧ o.second = false) →
          SentTo c (BitVec.ofNat 17 (o.ef 0 27 11)) o.op.parcel (decide (f ≠ .none)) t)) ∧
    (∀ c u s o f e, Fits (.stakeRouteResume c u) s → coreGo s.dev c = true → (getCube s.dev c u).post = [o] → o.phase = .route →
      (getCube s.dev c u).run = none → (getCube s.dev c u).head = none → xferFree s.dev c = true → takeWake s.dev (.post c u o.op.serial) = some (f, e) →
      (f ≠ 0 → Completes (.stakeRouteResume c u) s fun t => CubeEnded c u o.op true s.dev t ∧ MemSame s.dev t) ∧
      (∀ x, f = 0 → fetchLedger e c (BitVec.ofNat 52 (o.ef 1 51 0)) (o.ef 0 34 28) (o.ef 4 52 32) (o.rows.map fun i => (o.ef 2 23 0 + i, i)) = (x, .none) →
        Completes (.stakeRouteResume c u) s fun t => UnitOnly c s.dev t ∧ MemSame x t ∧
          (getCube t c u).post = [{ o with phase := .convert, second := true }] ∧
          (getCore t c).w.convQ = (getCore s.dev c).w.convQ ++ [(u, o.op.serial)])) ∧
    ∀ c u s o f e (bytes : Nat → Nat → List Byte), Fits (.ksplitCombine c u) s → coreGo s.dev c = true → (getCube s.dev c u).run = some o → o.phase = .ksplit →
      xferFree s.dev c = true → takeWake s.dev (.post c u o.op.serial) = some (f, e) → (getCube s.dev c u).head = none → (getCube s.dev c u).post = [] →
      (f ≠ 0 → Completes (.ksplitCombine c u) s fun t => CubeEnded c u o.op true s.dev t ∧ MemSame s.dev t) ∧
      (f = 0 → (∀ x ∈ (getCube s.dev c u).errs, x.2 = true → x.1 / 32 ∉ o.drainBanks s.dev) →
        ((∀ i ∈ o.rows, ∀ p, p + 1 < o.ef 0 53 47 → (devReadAll s.dev (BitVec.ofNat 52 (o.ef 5 51 0) +
            BitVec.ofNat 52 (((p + 1) * o.planM + i) * o.planN * 4)) (4 * o.e1)).2 = .ok (bytes i p)) →
          Completes (.ksplitCombine c u) s fun t => UnitOnly c s.dev t ∧ MemSame s.dev t ∧ (getCube t c u).run = some { o with phase := .drain } ∧
            ∀ i j, i ∈ o.rows → j < o.e1 → o.e1 ≤ o.planN → accGet (getCube t c u) o.isInt (o.bankOf (i / 8) (j / 8)) (i % 8) (j % 8) =
              fixedTree (fun x y => if o.isInt then accumulated true (x.1, x.2 || y.2) y.1 else (add32 x.1 y.1, false))
                (accGet (getCube s.dev c u) o.isInt (o.bankOf (i / 8) (j / 8)) (i % 8) (j % 8))
                (accGet (getCube s.dev c u) o.isInt (o.bankOf (i / 8) (j / 8)) (i % 8) (j % 8) ::
                  (List.range (o.ef 0 53 47 - 1)).map fun p => (BitVec.ofNat 32 (leNat (((bytes i p).drop (4 * j)).take 4)), false))) ∧
        ((∃ i ∈ o.rows, ∃ p, p + 1 < o.ef 0 53 47 ∧ ∀ bs, (devReadAll s.dev (BitVec.ofNat 52 (o.ef 5 51 0) +
            BitVec.ofNat 52 (((p + 1) * o.planM + i) * o.planN * 4)) (4 * o.e1)).2 ≠ .ok bs) →
          Completes (.ksplitCombine c u) s fun t => CubeEnded c u o.op true s.dev t ∧ MemSame s.dev t))

/-- Attention works chunk by chunk; keys that never come end it; pages are flushed in order (chapter 09, Appends (R315, R316); chapter 09, Flushing (R319, R321); chapter 09, Keys (R325); chapter 09, Attention (R310, R324, R326, R327); chapter 04, Accumulators (R163); chapter 17, Halt (R588)). With an attention operation alone in its cube: KV_TOKEN_WRITE of a FAULTED sequence ends it with FAULTED, and a token whose page lies beyond the window of an open sequence waits, holding the cube, with APPEND_STALLS counted; a token not yet present whose page lies in the window, its slot free, is written (its staging slot gets its K and V rows) and is present, and the append goes on to its next token. KEY_PRESENCE_WAIT_END begins its steps; KEY_WAIT_EXPIRY with a key absent ends it with FAULTED. ATTN_CHUNK_FETCH_DONE with a transfer slot free puts each key's K and V row of the chunk in its buffer, byte by byte from the page's staging slot while that holds it and else from HBM (R310); a failed fetch ends the operation. ATTN_CHUNK_SOFTMAX gives each run-time row m, l, f and p as R326 writes them from the scores, and multiplies its O row by an f other than 1; an uncorrectable word of a bank it reads ends the operation (R163). KV_FLUSH_START takes the oldest filled page of the die, no link or slice on its way busy, into the lowest free flush slot with the bytes of its staging slot; KV_FLUSH_DONE frees the slot and arrives at PAGE_STAKE where that is enabled; EXPORT_QUEUE_COPY moves the oldest waiting page to its port's queue. Nothing beyond running work changes. Concludes that exec answers a next state (Completes) for: attnChunkFetchDone, attnChunkSoftmax, keyPresenceWaitEnd, keyWaitExpiry, kvTokenWrite, kvFlushStart, kvFlushDone, exportQueueCopy. -/
def Obligations.AttentionAndKeys : Prop :=
  (∀ c u s o, Fits (.kvTokenWrite c u) s → attnIn s.dev c u .append = some o → (getCube s.dev c u).head = none → (getCube s.dev c u).post = [] →
      kvSt s.dev o.kvIdx = 3 → Completes (.kvTokenWrite c u) s fun t => CubeEnded c u o.op true s.dev t ∧ MemSame s.dev t) ∧
    (∀ c u s o p, Fits (.kvTokenWrite c u) s → attnIn s.dev c u .append = some o → kvSt s.dev o.kvIdx ≠ 3 →
      p = (o.pos0 + o.att.tokens) / kvTokens s.dev o.kvIdx → ¬(o.pos0 + o.att.tokens < kvFlushed s.dev o.kvIdx) →
      kvBit s.dev o.kvIdx (o.pos0 + o.att.tokens) = false → kvInWindow s.dev o.kvIdx p = false → (getKv s.dev o.kvIdx).closing = false →
      Completes (.kvTokenWrite c u) s fun t => UnitOnly c s.dev t ∧ MemSame s.dev t ∧
        (getCube t c u).run = some { o with attn := some { o.att with stalled := true } } ∧
        rfld t .kvsStat (o.kvIdx / 4096) 0 0 31 0 = min 0xFFFFFFFF (rfld s.dev .kvsStat (o.kvIdx / 4096) 0 0 31 0 + 1)) ∧
    (∀ c u s o r i x, Fits (.kvTokenWrite c u) s → attnIn s.dev c u .append = some o → i = o.kvIdx → x = o.pos0 + o.att.tokens → kvSt s.dev i ≠ 3 →
      ¬(x < kvFlushed s.dev i) → kvBit s.dev i x = false → kvInWindow s.dev i (x / kvTokens s.dev i) = true →
      kvBusy s.dev i (x / kvTokens s.dev i) = false → writeToken s.dev c o o.att.tokens = (r, .none) → o.att.tokens + 1 ≠ o.tokens →
      Completes (.kvTokenWrite c u) s fun t => UnitOnly c s.dev t ∧ MemSame r t ∧ kvBit t i x = true ∧
        (getCube t c u).run = some { o with attn := some { o.att with tokens := o.att.tokens + 1, stalled := false } }) ∧
    (∀ c u s o, Fits (.keyPresenceWaitEnd c u) s → attnIn s.dev c u .keys = some o → o.keysHere s.dev = true →
      Completes (.keyPresenceWaitEnd c u) s fun t => OnlyCore c s.dev t ∧ seqOf t c = seqOf s.dev c ∧
        (getCube t c u).run = some { o with phase := .steps } ∧ (getCube t c u).acc = (getCube s.dev c u).acc) ∧
    (∀ c u s o x, Fits (.keyWaitExpiry c u) s → attnIn s.dev c u .keys = some o → o.keysHere s.dev = false → o.att.deadline = some x → x ≤ s.dev.tick →
      (getCube s.dev c u).head = none → (getCube s.dev c u).post = [] →
      Completes (.keyWaitExpiry c u) s fun t => CubeEnded c u o.op true s.dev t ∧ MemSame s.dev t) ∧
    (∀ c u s o, Fits (.attnChunkFetchDone c u) s → attnIn s.dev c u .steps = some o → o.canFetch s.dev = true → xferFree s.dev c = true →
      (∀ e x, fetchChunk s.dev c o = (e, .ok x) → Completes (.attnChunkFetchDone c u) s fun t =>
        UnitOnly c s.dev t ∧ MemSame e t ∧ (getCube t c u).run = some { o with attn := some { o.att with fetched := o.att.fetched + 1 } } ∧
        ∀ n j v i a b die ch ca, (o.chunkKeys (o.att.chunks.getD o.att.fetched 0))[n]? = some j → i < kvDim s.dev o.kvIdx * kvBytes s.dev o.kvIdx →
          (if kvStaged s.dev o.kvIdx j then a = kvSlotAddr s.dev o.kvIdx (j / kvTokens s.dev o.kvIdx)
            else (∃ y, kvEntry s.dev o.kvIdx (j / kvTokens s.dev o.kvIdx) = (y, .ok a)) ∧
              spaceOf (kvListAddr s.dev o.kvIdx (j / kvTokens s.dev o.kvIdx)) < 2) →
          b = a + BitVec.ofNat 52 (kvRowOff s.dev o.kvIdx j v + i) → resolve s.dev b = some (.hbm die ch ca) →
          memByte t (storeKey c (o.bufRow s.dev o.att.fetched n v + i)) = memByte s.dev (hbmKey die ch ca)) ∧
      (∀ e f, fetchChunk s.dev c o = (e, .error f) → f ≠ .none → f ≠ .alreadyClaimed → (getCube s.dev c u).head = none →
        (getCube s.dev c u).post = [] → Completes (.attnChunkFetchDone c u) s (CubeEnded c u o.op true s.dev))) ∧
    (∀ c u s o q, Fits (.attnChunkSoftmax c u) s → attnIn s.dev c u .steps = some o → o.canSoftmax = true →
      q = (softmaxChunk s.dev c o (getCube s.dev c u)).2 →
      ((∀ e ∈ (getCube s.dev c u).errs, e.2 = true → e.1 / 32 ∉ softmaxBanks s.dev o q) →
        Completes (.attnChunkSoftmax c u) s fun t => UnitOnly c s.dev t ∧ (getCube t c u).run = some q ∧
          q = { o with attn := some { o.att with softmaxed := o.att.softmaxed + 1, m := q.att.m, l := q.att.l, f := q.att.f, p := q.att.p } } ∧
          ∀ i sc m2 f, i < o.e0 →
            (∀ j, sc j = if o.masked s.dev c i (64 * o.att.chunks.getD o.att.softmaxed 0 + j) then FV.inf true
              else mulR (v32 (accGet (getCube s.dev c u) false (o.sBank s.dev o.att.softmaxed (i / 8) (j / 8)) (i % 8) (j % 8)).1)
                (v32 (BitVec.ofNat 32 (o.fd 7 63 32)))) →
            m2 = (v32 (o.att.m.getD i 0)).max (fixedTree FV.max (.inf true) ((List.range 64).map sc)) →
            f = (if (v32 (o.att.m.getD i 0)).eqv (.inf true) then zeroV else sfn32 s.dev c .exp (subR (v32 (o.att.m.getD i 0)) m2)) →
            q.att.m.getD i 0 = c32 m2 ∧ q.att.f.getD i 0 = c32 f ∧
            q.att.p.getD i [] = ((List.range 64).map fun j => if (sc j).eqv (.inf true) then 0
              else (toElem (kvForm s.dev o.kvIdx) .rne false false true (sfn32 s.dev c .exp (subR (sc j) m2))).code) ∧
            q.att.l.getD i 0 = c32 (addR (mulR (v32 (o.att.l.getD i 0)) f)
              (fixedTree addR zeroV ((q.att.p.getD i []).map (elemVal (kvForm s.dev o.kvIdx) false)))) ∧
            ∀ e, e < kvDim s.dev o.kvIdx → (accGet (getCube t c u) false (o.oBank s.dev (i / 8) (e / 8)) (i % 8) (e % 8)).1 =
              (if isOne (v32 (c32 f)) then (accGet (getCube s.dev c u) false (o.oBank s.dev (i / 8) (e / 8)) (i % 8) (e % 8)).1
                else c32 (mulR (v32 (accGet (getCube s.dev c u) false (o.oBank s.dev (i / 8) (e / 8)) (i % 8) (e % 8)).1) (v32 (c32 f))))) ∧
      ((∃ e ∈ (getCube s.dev c u).errs, e.2 = true ∧ e.1 / 32 ∈ softmaxBanks s.dev o q) → (getCube s.dev c u).head = none →
        (getCube s.dev c u).post = [] → Completes (.attnChunkSoftmax c u) s (CubeEnded c u o.op true s.dev))) ∧
    (∀ die s slot p rest f e1 e2 e3 a bytes, Fits (.kvFlushStart die) s → halted s.dev die = false → tget [] s.dev.kvReady die = (slot, p) :: rest →
      f < 4 → tget none s.dev.kvFlush (4 * die + f) = none → (∀ g, g < f → tget none s.dev.kvFlush (4 * die + g) ≠ none) → slotBusy s.dev (die * 4096 + slot) p = false →
      extentBusy s.dev die (kvListAddr s.dev (die * 4096 + slot) p) 8 = false →
      kvEntry { s.dev with kvReady := tset [] s.dev.kvReady die rest } (die * 4096 + slot) p = (e1, .ok a) →
      zeroTail e1 (die * 4096 + slot) p = (e2, .none) →
      devReadAll e2 (kvSlotAddr e2 (die * 4096 + slot) p) (kvPageBytes e2 (die * 4096 + slot)) = (e3, .ok bytes) →
      Completes (.kvFlushStart die) s fun t => tget [] t.kvReady die = rest ∧ (∀ c, getCore t c = getCore s.dev c) ∧ MemSame e3 t ∧
        t.beyondWork = s.dev.beyondWork ∧ ∃ copied, tget none t.kvFlush (4 * die + f) = some ⟨slot, p, a, bytes, copied⟩) ∧
    (∀ die f s x e, Fits (.kvFlushDone die f) s → tget none s.dev.kvFlush (4 * die + f) = some x →
      x.page = kvFirst s.dev (die * 4096 + x.slot) → extentBusy s.dev die x.addr x.bytes.length = false →
      devWriteAll { s.dev with kvFlush := tset none s.dev.kvFlush (4 * die + f) none } x.addr x.bytes = (e, .ok ()) →
      Completes (.kvFlushDone die f) s fun t => tget none t.kvFlush (4 * die + f) = none ∧ (∀ c, getCore t c = getCore s.dev c) ∧ MemSame e t ∧
        t.beyondWork = s.dev.beyondWork ∧
        (rfld s.dev .kvsStakes die 0 x.slot 17 17 = 1 → stakeDie (BitVec.ofNat 17 (rfld s.dev .kvsStakes die 0 x.slot 16 0)) < s.dev.part.dies →
          ∃ p q, (getHub t (stakeDie (BitVec.ofNat 17 (rfld s.dev .kvsStakes die 0 x.slot 16 0)))
              (stakeHub (BitVec.ofNat 17 (rfld s.dev .kvsStakes die 0 x.slot 16 0)))).port p =
            q ++ [⟨.arrive 1 false, BitVec.ofNat 17 (rfld s.dev .kvsStakes die 0 x.slot 16 0), .unit 4 die, none⟩])) ∧
    ∀ die port s slot p rest e bytes, Fits (.exportQueueCopy die port) s → halted s.dev die = false →
      tget [] s.dev.expWait (2 * die + port) = (slot, p) :: rest → (tget [] s.dev.expQ (2 * die + port)).length < 8 → slotBusy s.dev (die * 4096 + slot) p = false →
      devReadAll { s.dev with expWait := tset [] s.dev.expWait (2 * die + port) rest } (kvSlotAddr s.dev (die * 4096 + slot) p)
        (kvPageBytes s.dev (die * 4096 + slot)) = (e, .ok bytes) →
      Completes (.exportQueueCopy die port) s fun t => tget [] t.expWait (2 * die + port) = rest ∧
        tget [] t.expQ (2 * die + port) = tget [] s.dev.expQ (2 * die + port) ++ [⟨slot, p, bytes, false⟩] ∧
        (∀ c, getCore t c = getCore s.dev c) ∧ MemSame s.dev t ∧ t.beyondWork = s.dev.beyondWork

/-- Chain entries enter flight in order and the chain ends with its last one (chapter 05, Chains (R202, R203, R206, R207, R208, R211); chapter 05, Waits (R215); chapter 05, Streams (R217, R218)). CHAIN_WAIT_END after a wait that ended with 0 lets a chain with entries run; after another outcome a chain that is no stream pass ends with FAULTED. STREAM_PASS_START of a slot whose front is a re-arm whose descriptor passes its checks and waits for nothing gives the slot its new bases (R218) and the pass runs. CHAIN_ENTRY_ADMIT with fewer than 6 entries in flight, and no internal transfer that waits for a slot, brings the next entry of the first ready chain into flight where it passes R206; where it fails, a chain with nothing in flight ends with FAULTED. CHAIN_ENTRY_COMPLETE, the core not saving or restoring, takes an entry whose walk is over out of flight; the last entry of a chain ends it with its arrival. No sequencer register, crew or other core changes, no memory, and nothing beyond running work. Concludes that exec answers a next state (Completes) for: chainWaitEnd, streamPassStart, chainEntryAdmit, chainEntryComplete. -/
def Obligations.ChainsAndStreams : Prop :=
  (∀ c pos s x f e, Fits (.chainWaitEnd c pos) s → (getCore s.dev c).w.chain[pos]? = some x → x.phase = 1 →
      takeWake s.dev (.unit (.chain c) x.op.serial) = some (f, e) →
      (f = 0 → x.count ≠ 0 → Completes (.chainWaitEnd c pos) s fun t => UnitOnly c s.dev t ∧ MemSame s.dev t ∧
        (getCore t c).w.chain = (getCore s.dev c).w.chain.map fun y => if y.op.serial = x.op.serial then { x with phase := 2 } else y) ∧
      (f ≠ 0 → x.slot = none → Completes (.chainWaitEnd c pos) s fun t => UnitOnly c s.dev t ∧ MemSame s.dev t ∧
        (getCore t c).w.chain = ((getCore s.dev c).w.chain.filter fun y => decide (y.op.serial ≠ x.op.serial)) ∧
        Arrived c 2 x.op.parcel 1 true x.op.stake t)) ∧
    (∀ c slot s x op, Fits (.streamPassStart c slot) s → unitsRun s.dev c = true →
      ((getCore s.dev c).w.chain.find? fun y => decide (y.slot = some slot)) = some x → x.op.opc = 2 → x.phase = 0 →
      order1 s.dev c x.op = .ok op → wfld op.desc 0 15 12 &&& wfld op.desc 0 19 16 = 0 → wfld op.desc 0 20 20 = 0 →
      (getStream s.dev c slot).count ≠ 0 →
      Completes (.streamPassStart c slot) s fun t => UnitOnly c s.dev t ∧ MemSame s.dev t ∧
        getStream t c slot = { getStream s.dev c slot with bases := (getStream t c slot).bases } ∧
        (∀ i, i < 4 → (getStream t c slot).bases.getD i 0 =
          if Nat.testBit (wfld op.desc 0 15 12) i then BitVec.ofNat 52 (wfld op.desc (1 + i) 51 0)
          else if Nat.testBit (wfld op.desc 0 19 16) i then (getStream s.dev c slot).bases.getD i 0 + BitVec.ofNat 52 (wfld op.desc (1 + i) 51 0)
          else (getStream s.dev c slot).bases.getD i 0) ∧
        ∃ y ∈ (getCore t c).w.chain, y.op = op ∧ y.phase = 2 ∧ y.slot = some slot ∧ y.list = (getStream s.dev c slot).list ∧
          y.count = (getStream s.dev c slot).count ∧ y.bases = (getStream t c slot).bases) ∧
    (∀ c s x, Fits (.chainEntryAdmit c) s → unitsRun s.dev c = true → (getCore s.dev c).w.flights.length < 6 → transferWaits s.dev c = false →
      (getCore s.dev c).w.chain.find? (entryReady s.dev c) = some x →
      (∀ e, readEntry s.dev c x.list x.entered = .ok e → checkEntry s.dev e x.bases x.op.parcel = .none →
        Completes (.chainEntryAdmit c) s fun t => OnlyCore c s.dev t ∧ getCore t c = { getCore s.dev c with w := { (getCore s.dev c).w with
          chain := (getCore s.dev c).w.chain.map fun y => if y.op.serial = x.op.serial then { x with entered := x.entered + 1 } else y
          flights := (getCore s.dev c).w.flights ++ [⟨x.op.serial, x.entered, e, x.bases, fetchRun e 0, 0, none, 0, 0, [], .none⟩] } }) ∧
      (∀ e, readEntry s.dev c x.list x.entered = .ok e → checkEntry s.dev e x.bases x.op.parcel ≠ .none →
        checkEntry s.dev e x.bases x.op.parcel ≠ .alreadyClaimed → x.slot = none → (∀ y ∈ (getCore s.dev c).w.flights, y.chain ≠ x.op.serial) →
        Completes (.chainEntryAdmit c) s fun t => UnitOnly c s.dev t ∧ MemSame s.dev t ∧ (getCore t c).w.flights = (getCore s.dev c).w.flights ∧
          (getCore t c).w.chain = ((getCore s.dev c).w.chain.filter fun y => decide (y.op.serial ≠ x.op.serial)) ∧
          Arrived c 2 x.op.parcel 1 true x.op.stake t)) ∧
    ∀ c pos s x y, Fits (.chainEntryComplete c pos) s → (getCore s.dev c).w.flights[pos]? = some x → x.over = true → (getCore s.dev c).sched < 2 →
      ((getCore s.dev c).w.chain.find? fun y => decide (y.op.serial = x.chain)) = some y →
      (y.finished + 1 < y.count → y.fault = .none → Completes (.chainEntryComplete c pos) s fun t => UnitOnly c s.dev t ∧ MemSame s.dev t ∧
        (getCore t c).w.flights = (getCore s.dev c).w.flights.eraseIdx pos ∧
        (getCore t c).w.chain = (getCore s.dev c).w.chain.map fun z => if z.op.serial = y.op.serial then { y with finished := y.finished + 1 } else z) ∧
      (y.finished + 1 = y.count → y.fault = .none → y.phase = 2 → y.slot = none → (getCore s.dev c).w.flights = [x] →
        Completes (.chainEntryComplete c pos) s fun t => UnitOnly c s.dev t ∧ MemSame s.dev t ∧ (getCore t c).w.flights = [] ∧
          (getCore t c).w.chain = ((getCore s.dev c).w.chain.filter fun z => decide (z.op.serial ≠ y.op.serial)) ∧
          Arrived c 2 y.op.parcel 1 false y.op.stake t)

/-- A table or scale load becomes active in one step, and completes when the old bank is no longer read (chapter 07, Table loads (R272, R273, R274); chapter 10, Scale file (R337, R339, R340)). TABLE_LOAD_FLIP of a load under way over unpoisoned bytes: an image that passes the tests of R273 is copied whole into the inactive baseline bank, which becomes active with BASE_GEN one higher, and the other bank is as before; one that fails them ends the load with FAULTED and changes no bank. SCALE_LOAD_FLIP copies the active scale-file bank into the other with the N new values from BASE on, and makes it active with its generation one higher. TABLE_LOAD_DRAIN_END and SCALE_LOAD_DRAIN_END then end the load with its arrival, the banks as they are. No register of any agent and no memory changes. Concludes that exec answers a next state (Completes) for: tableLoadFlip, tableLoadDrainEnd, scaleLoadFlip, scaleLoadDrainEnd. -/
def Obligations.LoadsFlip : Prop :=
  (∀ c s op rest m, Fits (.tableLoadFlip c) s → coreGo s.dev c = true → (getCore s.dev c).w.tloads = op :: rest → (getCore s.dev c).w.tphase = 1 →
      storePoisoned s.dev c (offIn c (BitVec.ofNat 52 (wfld op.desc 1 51 0))) 20240 = false →
      m = storeRead s.dev c (offIn c (BitVec.ofNat 52 (wfld op.desc 1 51 0))) 20240 →
      (baseImageBad m (wfld op.desc 2 63 32) = false → Completes (.tableLoadFlip c) s fun t => OnlyCore c s.dev t ∧
        getCore t c = { getCore s.dev c with w := { (getCore s.dev c).w with
          base0 := if (getCore s.dev c).w.baseActive = some 0 then (getCore s.dev c).w.base0 else m
          base1 := if (getCore s.dev c).w.baseActive = some 0 then m else (getCore s.dev c).w.base1
          baseActive := some (if (getCore s.dev c).w.baseActive = some 0 then 1 else 0)
          baseGen := (getCore s.dev c).w.baseGen + 1
          tphase := 2 } }) ∧
      (baseImageBad m (wfld op.desc 2 63 32) = true → Completes (.tableLoadFlip c) s fun t => UnitOnly c s.dev t ∧ MemSame s.dev t ∧
        (getCore t c).w.baseActive = (getCore s.dev c).w.baseActive ∧ (getCore t c).w.base0 = (getCore s.dev c).w.base0 ∧
        (getCore t c).w.base1 = (getCore s.dev c).w.base1 ∧ (getCore t c).w.tloads = rest ∧ Arrived c 10 op.parcel 1 true op.stake t)) ∧
    (∀ c s op rest, Fits (.tableLoadDrainEnd c) s → coreGo s.dev c = true → (getCore s.dev c).w.tloads = op :: rest → (getCore s.dev c).w.tphase = 2 →
      Completes (.tableLoadDrainEnd c) s fun t => UnitOnly c s.dev t ∧ MemSame s.dev t ∧ (getCore t c).w.tloads = rest ∧
        (getCore t c).w.tphase = 0 ∧ (getCore t c).w.baseActive = (getCore s.dev c).w.baseActive ∧ Arrived c 10 op.parcel 1 false op.stake t) ∧
    (∀ c s op rest off base n, Fits (.scaleLoadFlip c) s → coreGo s.dev c = true → (getCore s.dev c).w.sloads = op :: rest →
      (getCore s.dev c).w.sphase = 1 → off = offIn c (BitVec.ofNat 52 (wfld op.desc 1 51 0)) → base = wfld op.desc 2 11 0 → n = wfld op.desc 2 24 12 →
      storePoisoned s.dev c off (4 * n) = false →
      Completes (.scaleLoadFlip c) s fun t => OnlyCore c s.dev t ∧ (getCore t c).w.scaleActive = 1 - (getCore s.dev c).w.scaleActive ∧
        (getCore t c).w.scaleGen = (getCore s.dev c).w.scaleGen + 1 ∧ (getCore t c).w.sphase = 2 ∧ seqOf t c = seqOf s.dev c ∧
        ((getCore s.dev c).w.scaleActive < 2 → ∀ e, scaleAt t c (1 - (getCore s.dev c).w.scaleActive) e =
          (if base ≤ e ∧ e < base + n then BitVec.ofNat 32 (storeNat s.dev c (off + 4 * (e - base)) 4)
            else scaleAt s.dev c (getCore s.dev c).w.scaleActive e) ∧
          scaleAt t c (getCore s.dev c).w.scaleActive e = scaleAt s.dev c (getCore s.dev c).w.scaleActive e)) ∧
    ∀ c s op rest, Fits (.scaleLoadDrainEnd c) s → coreGo s.dev c = true → (getCore s.dev c).w.sloads = op :: rest → (getCore s.dev c).w.sphase = 2 →
      oldScales s.dev c = false → Completes (.scaleLoadDrainEnd c) s fun t => UnitOnly c s.dev t ∧ MemSame s.dev t ∧
        (getCore t c).w.sloads = rest ∧ (getCore t c).w.sphase = 0 ∧ (getCore t c).w.scaleActive = (getCore s.dev c).w.scaleActive ∧
        Arrived c 9 op.parcel 1 false op.stake t

/-- An HBM access corrects what its code can, marks a failing lane and poisons what it cannot correct (chapter 11, Errors (R378, R379, R380, R381, R382, R383); chapter 11, Refresh and heat (R360, R390, R391); chapter 20, Thermal trip (R673)). HBM_READ and HBM_SCRUB of a live channel, on a line without poison, with f marked lanes and e further ones in error: with no lane in error nothing changes; one further lane with 2 + f at most 8 is corrected, counted, and (at MARK_LIMIT, with fewer than two marked) marked; with 2e + f above 8 the line's bytes are zero, it is poisoned, and the uncorrectable count is one higher. A read of a poisoned line changes nothing. HBM_ERR_WINDOW_END starts the die's counts again and keeps the others. ONDIE_SCRUB poisons an uncorrectable word of a scratch line or core store, and only counts for a clean cache line. HBM_REFRESH changes nothing. HBM_THERMAL_SAMPLE raises LEVEL by one at or above the threshold (7 at most), lowers it at or below it less HYST; at 105 °C or more, out of package reset, the die trips, and halts if it had not tripped. No other byte of memory and no core changes. Concludes that exec answers a next state (Completes) for: hbmRead, hbmErrWindowEnd, hbmRefresh, hbmScrub, ondieScrub, hbmThermalSample. -/
def Obligations.MemoryErrors : Prop :=
  (∀ i : Nat → Nat → Nat → List Nat → Instr, i ∈ [Instr.hbmRead, .hbmScrub] → ∀ die chan caddr lanes s m errs e,
      Fits (i die chan caddr lanes) s → chanLive s.dev die chan = true → rfld s.dev .hbmErrCtl die 0 0 31 24 ≠ 0 →
      m = markedLanes s.dev die chan → errs = (lanes.filter fun l => decide (l < 72)).dedup → e = (errs.filter fun l => !m.contains l).length →
      (errs = [] ∨ poisonedKey s.dev (lineKey (hbmKey die chan caddr)) = true → exec (i die chan caddr lanes) s = .next s) ∧
      (∀ l, errs = [l] → l ∉ m → m.length ≤ 6 → poisonedKey s.dev (lineKey (hbmKey die chan caddr)) = false →
        Completes (i die chan caddr lanes) s fun t => NotesOnly s.dev t ∧ t.poison = s.dev.poison ∧
          tget 0 t.laneCounts ((32 * die + chan) * 128 + l) = tget 0 s.dev.laneCounts ((32 * die + chan) * 128 + l) + 1 ∧
          (rfld s.dev .hbmErrCtl die 0 0 7 0 ≤ tget 0 s.dev.laneCounts ((32 * die + chan) * 128 + l) + 1 → chanFld s.dev die chan 5 4 < 2 →
            markedLanes t die chan = m ++ [l]) ∧
          (tget 0 s.dev.laneCounts ((32 * die + chan) * 128 + l) + 1 < rfld s.dev .hbmErrCtl die 0 0 7 0 → markedLanes t die chan = m)) ∧
      (8 < 2 * e + m.length → errs ≠ [] → poisonedKey s.dev (lineKey (hbmKey die chan caddr)) = false →
        Completes (i die chan caddr lanes) s fun t => NotesOnly { s.dev with mem := t.mem } t ∧
          MemSameBut (lineKey (hbmKey die chan caddr)) 64 s.dev t ∧ (∀ k, k < 64 → memByte t (lineKey (hbmKey die chan caddr) + k) = 0) ∧
          t.poison = tset false s.dev.poison (lineKey (hbmKey die chan caddr)) true ∧
          rfld t .hbmChanEcc die (chan / 16) (chan % 16) 47 32 = min 0xFFFF (rfld s.dev .hbmChanEcc die (chan / 16) (chan % 16) 47 32 + 1))) ∧
    (∀ die s, Fits (.hbmErrWindowEnd die) s → rfld s.dev .hbmErrCtl die 0 0 23 16 ≠ 0 → s.dev.tick % (rfld s.dev .hbmErrCtl die 0 0 23 16 * 2 ^ 16) = 0 →
      Completes (.hbmErrWindowEnd die) s fun t => t = { s.dev with laneCounts := t.laneCounts, ueCounts := t.ueCounts } ∧
        (∀ k, tget 0 t.laneCounts k = if k / 128 / 32 = die then 0 else tget 0 s.dev.laneCounts k) ∧
        ∀ k, tget 0 t.ueCounts k = if k / 32 = die then 0 else tget 0 s.dev.ueCounts k) ∧
    (∀ die stack s, Fits (.hbmRefresh die stack) s → exec (.hbmRefresh die stack) s = .next s) ∧
    (∀ die s, Fits (.ondieScrub die .clean) s → exec (.ondieScrub die .clean) s = .next s) ∧
    (∀ die core off s, Fits (.ondieScrub die (.store core off)) s → core < 144 → off < storeBytes →
      Completes (.ondieScrub die (.store core off)) s fun t => NotesOnly s.dev t ∧
        ∀ k, poisonedKey t k = (decide (k = storeKey ⟨die, core⟩ (off - off % 8)) || poisonedKey s.dev k)) ∧
    (∀ die slice a sl off s, Fits (.ondieScrub die (.slice slice a)) s → resolve s.dev a = some (.scratch die sl off) → sl = slice →
      Completes (.ondieScrub die (.slice slice a)) s fun t => NotesOnly s.dev t ∧
        ∀ k, poisonedKey t k = (decide (k = lineKey (scratchKey die slice off)) || poisonedKey s.dev k)) ∧
    (∀ die slice a ch ca l s, Fits (.ondieScrub die (.slice slice a)) s → resolve s.dev a = some (.hbm die ch ca) → homeSlice ch = slice →
      tget none s.dev.cache (lineKey (hbmKey die ch ca)) = some l → l.dirty = false →
      Completes (.ondieScrub die (.slice slice a)) s fun t => { t with regs := s.dev.regs } = s.dev ∧
        rfld t .resSliceStat die 0 slice 63 48 = min 0xFFFF (rfld s.dev .resSliceStat die 0 slice 63 48 + 1)) ∧
    ∀ die stack temp limit s, Fits (.hbmThermalSample die stack temp limit) s → s.dev.tick % 4096 = 0 →
      Completes (.hbmThermalSample die stack temp limit) s fun t =>
        (temp.toInt < 105 ∨ s.dev.pkg.released = false → NotesOnly s.dev t) ∧
        (105 ≤ temp.toInt → s.dev.pkg.released = true → tripped t die = true ∧ (tripped s.dev die = false → halted t die = true)) ∧
        rfld t .hbmTherm die stack 0 7 0 = temp.toNat ∧ rfld t .hbmTherm die stack 0 15 8 = limit.toNat ∧
        rfld t .hbmTherm die stack 0 18 16 =
          (if limit.toInt ≤ temp.toInt then min 7 (rfld s.dev .hbmTherm die stack 0 18 16 + 1)
           else if temp.toInt ≤ limit.toInt - (rfld s.dev .hbmTherm die stack 0 27 24 : Nat) then rfld s.dev .hbmTherm die stack 0 18 16 - 1
           else rfld s.dev .hbmTherm die stack 0 18 16)

/-- Slices, maps and retirement change as their registers allow (chapter 11, Reservoir (R365, R370, R371, R372, R374); chapter 11, HBM map (R364); chapter 11, Retirement (R386, R387); chapter 05, Walks (R205, R210)). SLICE_REQUEST: a write of a line piece stores exactly its bytes and a read changes none, on a slice not being reconfigured; a stalled request only counts its cycles; a chain entry's next formed line, else its next read, where its move succeeds, advances the entry alone. HBM_MAP_WRITE outside a rebuild leaves MODE and STRIPE_GIB as they are; in the die's rebuild, STRIPE_GIB within every die's capacity, it sets a MODE other than 3, with no line of the die left in the cache. RES_SLICE_CFG_WRITE outside a rebuild leaves the register as it is; in one it sets the slices and BUSY and every scratch byte of the die reads as an unwritten one. SLICE_RECONFIG_DONE clears BUSY. RELEASE_ALL sets RELEASING and leaves no line of the die held, RELEASE_ALL_DONE clears it. HBM_RETIRE_WRITE stores bits 29:0 unless all 4,096 entries are valid. No core changes but by a chain entry. Concludes that exec answers a next state (Completes) for: sliceRequest, hbmMapWrite, resSliceCfgWrite, sliceReconfigDone, releaseAll, hbmRetireWrite, releaseAllDone. -/
def Obligations.MemoryConfiguration : Prop :=
  (∀ die slice cls a bytes s p, Fits (.sliceRequest die slice (.write cls a bytes)) s → bytes.length ≤ 64 - a.toNat % 64 → sliceOf s.dev a = some (die, slice) →
      resolve s.dev a = some p → placeBusy s.dev p = false → inRegion s.dev a bytes.length = true → retired s.dev a p = false →
      Completes (.sliceRequest die slice (.write cls a bytes)) s fun t => MemSameBut p.key bytes.length s.dev t ∧
        (∀ i, i < bytes.length → memByte t (p.key + i) = bytes.getD i 0) ∧
        { t with mem := s.dev.mem, poison := s.dev.poison, cache := s.dev.cache, clock := s.dev.clock } = s.dev) ∧
    (∀ die slice cls a hold s p, Fits (.sliceRequest die slice (.read cls a hold)) s → sliceOf s.dev a = some (die, slice) → resolve s.dev a = some p →
      placeBusy s.dev p = false → Completes (.sliceRequest die slice (.read cls a hold)) s fun t => NotesOnly s.dev t ∧ t.poison = s.dev.poison) ∧
    (∀ die slice cls n s, Fits (.sliceRequest die slice (.stalled cls n)) s → Completes (.sliceRequest die slice (.stalled cls n)) s fun t =>
      { t with regs := s.dev.regs } = s.dev ∧
        rfld t .resSliceStat die 0 slice 31 0 = min 0xFFFFFFFF (rfld s.dev .resSliceStat die 0 slice 31 0 + n)) ∧
    (∀ die slice c pos s x e, Fits (.sliceRequest die slice (.chainLine c pos)) s → c.wf = true → c.die < s.dev.part.dies →
      (getCore s.dev c).w.flights[pos]? = some x → (getCore s.dev c).sched < 2 → x.fault = .none →
      (∀ p, x.writePiece = some p → servedAt s.dev die slice c.die (some p.1) = true → linesWr ((getCore s.dev c).w.flights.take pos) < 64 →
        serveWrite s.dev c x p = (e, .ok ()) →
        Completes (.sliceRequest die slice (.chainLine c pos)) s fun t => MemSame e t ∧ UnitOnly c s.dev t ∧
          (getCore t c).w.flights = (getCore s.dev c).w.flights.set pos (x.wroteOn p.2.1 (p.2.1 + p.2.2)) ∧
          (getCore t c).w.chain = (getCore s.dev c).w.chain) ∧
      (∀ v a bs, x.writePiece = none → x.run < entRuns x.e → (getCore s.dev c).stopping = false →
        linesRd s.dev c ((getCore s.dev c).w.flights.take pos) < 128 → x.index s.dev c = .ok v → x.src s.dev v = .ok a →
        servedAt s.dev die slice c.die (x.readPiece a).1 = true → serveRead s.dev c x (x.readPiece a) = (e, .ok bs) →
        Completes (.sliceRequest die slice (.chainLine c pos)) s fun t => MemSame s.dev t ∧ UnitOnly c s.dev t ∧
          (getCore t c).w.flights = (getCore s.dev c).w.flights.set pos { x.readOn (some v) (x.readPiece a).2 with buf := x.buf ++ bs } ∧
          (getCore t c).w.chain = (getCore s.dev c).w.chain)) ∧
    (∀ die v s, Fits (.hbmMapWrite die v) s → (∀ x, x < s.dev.part.dies → rebuilding s.dev x = false) →
      Completes (.hbmMapWrite die v) s fun t => NotesOnly s.dev t ∧ t.cache = s.dev.cache ∧
        rfld t .hbmMap die 0 0 1 0 = rfld s.dev .hbmMap die 0 0 1 0 ∧ rfld t .hbmMap die 0 0 14 8 = rfld s.dev .hbmMap die 0 0 14 8) ∧
    (∀ die v s, Fits (.hbmMapWrite die v) s → Tidy s.dev → rebuilding s.dev die = true → v.extractLsb' 0 2 ≠ 3 →
      (∀ x, x < s.dev.part.dies → (v.extractLsb' 8 7).toNat * 2 ^ 30 ≤ capacity s.dev x) →
      Completes (.hbmMapWrite die v) s fun t => NotesOnly s.dev t ∧ rfld t .hbmMap die 0 0 1 0 = (v.extractLsb' 0 2).toNat ∧
        (∀ k, keyDie k = die → tget none t.cache k = none) ∧ ∀ i, i < 4096 → rfld t .hbmRetire die 0 i 0 0 = 0) ∧
    (∀ die v s, Fits (.resSliceCfgWrite die v) s → rebuilding s.dev die = false → Completes (.resSliceCfgWrite die v) s fun t =>
      NotesOnly s.dev t ∧ rfld t .resSliceCfg die 0 0 16 0 = rfld s.dev .resSliceCfg die 0 0 16 0) ∧
    (∀ die v s, Fits (.resSliceCfgWrite die v) s → Tidy s.dev → rebuilding s.dev die = true → Completes (.resSliceCfgWrite die v) s fun t =>
      rfld t .resSliceCfg die 0 0 15 0 = (v.extractLsb' 0 16).toNat ∧ rfld t .resSliceCfg die 0 0 16 16 = 1 ∧
      (∀ slice off, slice < 16 → off < 2 ^ 24 → memByte t (scratchKey die slice off) = unlisted) ∧
      (∀ k, k < scratchKey die 0 0 ∨ scratchKey die 0 0 + 16 * 2 ^ 24 ≤ k → memByte t k = memByte s.dev k) ∧
      { t with mem := s.dev.mem, poison := s.dev.poison, cache := s.dev.cache, regs := s.dev.regs } = s.dev) ∧
    (∀ die s, Fits (.sliceReconfigDone die) s → rfld s.dev .resSliceCfg die 0 0 16 16 = 1 → Completes (.sliceReconfigDone die) s fun t =>
      { t with regs := s.dev.regs } = s.dev ∧ rfld t .resSliceCfg die 0 0 16 16 = 0 ∧
        rfld t .resSliceCfg die 0 0 15 0 = rfld s.dev .resSliceCfg die 0 0 15 0) ∧
    (∀ die s, Fits (.releaseAll die) s → Completes (.releaseAll die) s fun t => rfld t .resHold die 0 0 5 5 = 1 ∧
      { t with regs := s.dev.regs, cache := s.dev.cache } = s.dev ∧ heldLines t die = 0 ∧
      ∀ k, (tget none t.cache k).isSome = (tget none s.dev.cache k).isSome) ∧
    (∀ die s, Fits (.releaseAllDone die) s → rfld s.dev .resHold die 0 0 5 5 = 1 → Completes (.releaseAllDone die) s fun t =>
      { t with regs := s.dev.regs } = s.dev ∧ rfld t .resHold die 0 0 5 5 = 0) ∧
    ∀ die n v s, Fits (.hbmRetireWrite die n v) s →
      (retireCount s.dev die ≠ 4096 → Completes (.hbmRetireWrite die n v) s fun t => { t with regs := s.dev.regs } = s.dev ∧
        regGet t .hbmRetire die 0 n = v &&& 0x3FFFFFFF) ∧
      (retireCount s.dev die = 4096 → Completes (.hbmRetireWrite die n v) s fun t => NotesOnly s.dev t ∧
        regGet t .hbmRetire die 0 n = regGet s.dev .hbmRetire die 0 n)

/-- Doorbells bring commands; each is read, started, acts and leaves one record (chapter 12, Reading (R420, R421, R422); chapter 12, Running (R423, R424, R427); chapter 12, Doorbells (R425, R437); chapter 12, Completion (R426, R428, R429, R430); chapter 12, Registers (R438, R444); chapter 02, Images (R121, R124); chapter 11, Slices (R370); chapter 17, Fences (R592); chapter 18, Measurements (R605)). While no link on the way to the home die retrains (R410), CMD_COMPL.HEAD moves up to TAIL and no further, and CMD_DOORBELL after package ready waits in its channel, before it changes registers and records alone. DOORBELL_LATCH in a later tick takes a TAIL that R425 accepts and drops any other. CMD_ARRIVE at an enabled stake puts an arrival in port 2 of its hub. COMMAND_READ of a channel with nothing read takes the line at HEAD: a refused command completes as cancelled with its code, any other waits there, with the tick noted where it meets every condition. COMMAND_START of the only command, without a wait, starts it with the channel's image; a RUN without an image completes with IMAGE_ABSENT. RUN puts its parts, or those of PART_MASK, up for placing. LOAD of an image that R121 accepts replaces the channel's image, extends M3 and makes its regions read-only; a refused LOAD keeps the image and completes as FAILED with the code. ARRIVE makes its arrival and NOP does nothing; both complete. Where the command was the channel's only one, and its record need not wait for slices or links, its completion is CmdDone: one record, TAIL one higher, the arrival at DONE_STAKE; a NOP whose record has to wait is kept for it. Concludes that exec answers a next state (Completes) for: cmdDoorbell, doorbellLatch, cmdArrive, commandRead, commandStart, cmdRun, cmdLoad, cmdArriveOp, cmdNop, cmdComplHeadWrite. -/
def Obligations.ChannelCommands : Prop :=
  (∀ ch v s, Fits (.cmdDoorbell ch v) s → commandBusy s.dev (homeDie s.dev ch) = false → (pkgReady s.dev = true → Completes (.cmdDoorbell ch v) s fun t =>
        { t with chans := s.dev.chans } = s.dev ∧ (∀ j, j ≠ ch → getChan t j = getChan s.dev j) ∧
        getChan t ch = { getChan s.dev ch with doorbell := some (v, s.dev.tick) }) ∧
      (pkgReady s.dev = false → Completes (.cmdDoorbell ch v) s (NotesOnly s.dev))) ∧
    (∀ ch v k tk s, Fits (.doorbellLatch ch) s → k = getChan s.dev ch → k.doorbell = some (v, tk) → tk < s.dev.tick →
      (∀ good, good = decide (k.state = 1 ∧ (v - k.head).toNat ≤ 2 ^ k.submitOrder ∧ (k.tail - k.head).toNat ≤ (v - k.head).toNat) →
        Completes (.doorbellLatch ch) s fun t => NotesOnly { s.dev with chans := t.chans } t ∧ (∀ j, j ≠ ch → getChan t j = getChan s.dev j) ∧
          getChan t ch = { k with
            doorbell := none
            tail := if good = true then v else k.tail })) ∧
    (∀ die id inc s, Fits (.cmdArrive die id inc) s → (die = 0 ∨ s.dev.part.dies = 8 ∧ die = 4) → commandBusy s.dev die = false →
      (pkgReady s.dev = true → stakeDie id < s.dev.part.dies → (getStake s.dev id).enable = true → Completes (.cmdArrive die id inc) s fun t =>
        { t with hubs := s.dev.hubs } = s.dev ∧ ∃ q, (getHub t (stakeDie id) (stakeHub id)).port 2 = q ++ [⟨.arrive inc.toNat false, id, .unit 5 die, none⟩]) ∧
      (pkgReady s.dev = false ∨ s.dev.part.dies ≤ stakeDie id ∨ (getStake s.dev id).enable = false →
        Completes (.cmdArrive die id inc) s (NotesOnly s.dev))) ∧
    (∀ ch k s e b x, Fits (.commandRead ch) s → k = getChan s.dev ch → k.state = 1 → k.head ≠ k.tail → k.cmds = [] →
      extentBusy s.dev (homeDie s.dev ch) k.headAddr 64 = false →
      devRead s.dev (k.submit + BitVec.ofNat 52 (k.head.toNat % 2 ^ k.submitOrder * 64)) 64 false = (e, .ok b) →
      x = Cmd.new k.head.toNat ((List.range 8).map fun i => BitVec.ofNat 64 (bytesNat b (8 * i) 8)) .none →
      (cmdRefusal e ch x = .none → x.wait = none → Completes (.commandRead ch) s fun t => { t with chans := e.chans } = e ∧ MemSame s.dev t ∧
        ∃ n, (n = 0 ∨ n = s.dev.tick) ∧ getChan t ch = { k with
          head := k.head + 1
          cmds := [{ x with readyTick := n }] }) ∧
      (cmdRefusal e ch x ≠ .none → k.room = true → recordWaits s.dev ch = false → Completes (.commandRead ch) s fun t =>
        CmdDone ch { k with
          head := k.head + 1
          lastLoad := decide (x.op = 2) } { x with cancel := cmdRefusal e ch x } true false (cmdRefusal e ch x) e t)) ∧
    (∀ ch k s x, Fits (.commandStart ch) s → k = getChan s.dev ch → k.cmds = [x] → x.started = false → mayStart s.dev ch x = true → x.wait = none →
      tenantReady s.dev ch x = true →
      (x.op ≠ 1 ∨ k.image ≠ none → Completes (.commandStart ch) s fun t => { t with chans := s.dev.chans } = s.dev ∧
        (∀ j, j ≠ ch → getChan t j = getChan s.dev j) ∧ getChan t ch = { k with
          cmds := [{ x with
            started := true
            waiting := false
            readyTick := if x.readyTick = 0 then s.dev.tick else x.readyTick
            image := k.image }]
          lastLoad := decide (x.op = 2) }) ∧
      (x.op = 1 → k.image = none → recordWaits s.dev ch = false → Completes (.commandStart ch) s fun t =>
        CmdDone ch { k with lastLoad := false } { x with
          cancel := .imageAbsent
          waiting := false } true false .imageAbsent s.dev t)) ∧
    (∀ ch k s x, Fits (.cmdRun ch) s → k = getChan s.dev ch → toAct s.dev ch 1 = some x → k.cmds = [x] → Completes (.cmdRun ch) s fun t =>
      { t with chans := s.dev.chans } = s.dev ∧ (∀ j, j ≠ ch → getChan t j = getChan s.dev j) ∧ getChan t ch = { k with cmds := [{ x with
        acted := true
        place := if x.masked then x.partMask else BitVec.ofNat 32 (2 ^ x.parts - 1)
        reassign := if x.masked ∧ (getParcel s.dev k.parcelIdx).plumb = false then k.fence &&& x.partMask else 0 }] }) ∧
    (∀ ch k s x e im digest, Fits (.cmdLoad ch) s → k = getChan s.dev ch → toAct s.dev ch 2 = some x → k.cmds = [x] → recordWaits s.dev ch = false →
      imageBusy s.dev (homeDie s.dev ch) (BitVec.ofNat 52 (x.fld 2 51 0)) = false →
      readImage s.dev (BitVec.ofNat 52 (x.fld 2 51 0)) = (e, .ok (im, digest)) → Completes (.cmdLoad ch) s fun t =>
        CmdDone ch { k with
          image := some im
          oldImages := k.oldImages ++ k.image.toList } x false false .none e t ∧
        getMeas t 3 = sha256 (getMeas s.dev 3 ++ digest) ∧ (im.text, im.textSize) ∈ t.readonly) ∧
    (∀ ch k s x e f m, Fits (.cmdLoad ch) s → k = getChan s.dev ch → toAct s.dev ch 2 = some x → k.cmds = [x] → f ≠ .none → recordWaits s.dev ch = false →
      imageBusy s.dev (homeDie s.dev ch) (BitVec.ofNat 52 (x.fld 2 51 0)) = false →
      readImage s.dev (BitVec.ofNat 52 (x.fld 2 51 0)) = (e, .error (f, m)) → Completes (.cmdLoad ch) s fun t =>
        CmdDone ch k x false true f e t ∧ t.meas = s.dev.meas ∧ t.readonly = s.dev.readonly) ∧
    (∀ ch k s x, Fits (.cmdArriveOp ch) s → k = getChan s.dev ch → toAct s.dev ch 3 = some x → k.cmds = [x] → x.done = none → recordWaits s.dev ch = false →
      Completes (.cmdArriveOp ch) s fun t => CmdDone ch k x false false .none s.dev t ∧
        BlockArrived (homeDie s.dev ch) 5 (some k.parcelIdx) (x.fld 2 47 32) false (BitVec.ofNat 17 (x.fld 2 16 0)) t) ∧
    (∀ ch k s x, Fits (.cmdNop ch) s → k = getChan s.dev ch → toAct s.dev ch 4 = some x → k.cmds = [x] →
      (recordWaits s.dev ch = false → Completes (.cmdNop ch) s (CmdDone ch k x false false .none s.dev)) ∧
      (recordWaits s.dev ch = true → Completes (.cmdNop ch) s fun t =>
        t.lateCmds = s.dev.lateCmds ++ [⟨ch, x.num, false, false, .none⟩] ∧ { t with chans := s.dev.chans, lateCmds := s.dev.lateCmds } = s.dev ∧
          (∀ j, j ≠ ch → getChan t j = getChan s.dev j) ∧ getChan t ch = { k with cmds := [{ x with
            acted := true
            waiting := false
            place := 0 }] })) ∧
    ∀ ch k v s, Fits (.cmdComplHeadWrite ch v) s → k = getChan s.dev ch → k.cmds = [] → commandBusy s.dev (homeDie s.dev ch) = false →
      ((v - k.rhead).toNat ≤ (k.rtail - k.rhead).toNat → Completes (.cmdComplHeadWrite ch v) s fun t => { t with chans := s.dev.chans } = s.dev ∧
        (∀ j, j ≠ ch → getChan t j = getChan s.dev j) ∧ getChan t ch = { k with rhead := v }) ∧
      ((k.rtail - k.rhead).toNat < (v - k.rhead).toNat → Completes (.cmdComplHeadWrite ch v) s (NotesOnly s.dev))

/-- Objects open and close by one request at a time; a part ends its core's work; events are written in order (chapter 12, Objects (R414, R415, R416, R418, R419); chapter 13, Parcels (R453, R454); chapter 12, Running (R423); chapter 12, Completion (R429, R430); chapter 12, Links and coinciding events (R410, R435); chapter 12, Events (R432, R433, R447, R448); chapter 17, Fences (R592); log 27 (DEDUCED); log 131 (DEDUCED); log 132 (DEDUCED)). While no command link retrains (R410, R435): OPEN and CLOSE while BUSY or before package ready change registers and records alone; an OPEN that fails a check of R415 ends with its code (FAULT and HANDLE by log 131), and one whose type creates the object takes the slot with the next generation and stays BUSY; OPEN_COMPLETE ends it with its handle, a parcel's after the cleared state of R453 (by log 132 at this event: granted stakes cleared and the parcel's, core stores zero). A CLOSE of a bad or stale handle ends with its code; any other makes the handle stale at once and stays BUSY, and CLOSE_COMPLETE ends it. PART_COMPLETE frees the core and adds the part to its command, and where it was the last part of its channel's only command the RUN completes. EVENT_MERGE_WRITE (nothing on the way to the ring busy) takes the first event of an ended tick: dropped where records are off (log 27) or its class is filtered, else written at TAIL with its phase and GAP, TAIL one higher and GAP clear. CMD_EVT_PTR.HEAD moves up to TAIL and no further. Concludes that exec answers a next state (Completes) for: openObj, closeObj, openComplete, closeComplete, partComplete, eventMergeWrite, cmdEvtPtrHeadWrite. -/
def Obligations.ObjectsPartsAndEvents : Prop :=
  (∀ any ty ix s, Fits (.openObj any ty ix) s → commandBusy s.dev 0 = false → (adminIgnored s.dev = true → Completes (.openObj any ty ix) s (NotesOnly s.dev)) ∧
      (∀ f, adminIgnored s.dev = false → openCheck s.dev any ty.toNat ix.toNat = .error f → Completes (.openObj any ty ix) s fun t =>
        t = { s.dev with admin := { s.dev.admin with
          busy := false
          done := true
          close := false
          fault := f
          handle := 0 } }) ∧
      (∀ d i e, adminIgnored s.dev = false → openCheck s.dev any ty.toNat ix.toNat = .ok i → d = { s.dev with admin := { s.dev.admin with
          busy := true
          done := false
          close := false } } → openType d ty.toNat i = (e, .none) → Completes (.openObj any ty ix) s fun t =>
        { t with objs := e.objs, admin := e.admin } = e ∧ getObj t ty.toNat i = ⟨nextGen (getObj s.dev ty.toNat i).gen, true⟩ ∧
          t.admin = { d.admin with target := handleOf t ty.toNat i })) ∧
    (∀ s, Fits .openComplete s → Tidy s.dev → s.dev.admin.busy = true → s.dev.admin.close = false → Completes .openComplete s fun t =>
      t.admin = { s.dev.admin with
        busy := false
        done := true
        fault := .none
        handle := s.dev.admin.target } ∧
      (fld s.dev.admin.target 23 16 ≠ typeParcel → { t with admin := s.dev.admin } = s.dev) ∧
      ∀ p q, fld s.dev.admin.target 23 16 = typeParcel → p = fld s.dev.admin.target 15 0 → q = getParcel s.dev p →
        (∀ id : StakeId, stakeDie id < s.dev.part.dies → getStake t id = if q.ownsStake id then { Stake.empty with parcel := p } else getStake s.dev id) ∧
        (∀ c off, c ∈ parcelCores s.dev q → off < storeBytes → memByte t (storeKey c off) = 0) ∧
        ∀ c, c ∈ parcelCores s.dev q → (getCore t c).tagValid = false) ∧
    (∀ h s, Fits (.closeObj h) s → commandBusy s.dev 0 = false → (adminIgnored s.dev = true → Completes (.closeObj h) s (NotesOnly s.dev)) ∧
      (∀ f, adminIgnored s.dev = false → checkHandle s.dev (fld h 23 16) h = .error f → Completes (.closeObj h) s fun t =>
        t = { s.dev with admin := { s.dev.admin with
          busy := false
          done := true
          close := true
          target := h
          fault := f
          handle := 0 } }) ∧
      (∀ i, adminIgnored s.dev = false → checkHandle s.dev (fld h 23 16) h = .ok i → (fld h 23 16 = typeParcel → parcelInUse s.dev i = false) →
        Completes (.closeObj h) s fun t => getObj t (fld h 23 16) i = { getObj s.dev (fld h 23 16) i with live := false } ∧
          checkHandle t (fld h 23 16) h = .error .staleHandle ∧ t.admin.busy = true ∧ t.admin.close = true ∧ t.admin.target = h)) ∧
    (∀ s h, Fits .closeComplete s → h = s.dev.admin.target → s.dev.admin.busy = true → s.dev.admin.close = true →
      closeReady s.dev (fld h 23 16) (fld h 15 0) = true → Completes .closeComplete s fun t =>
        t.admin = { s.dev.admin with
          busy := false
          done := true
          fault := .none
          handle := 0 } ∧ MemSame s.dev t ∧ t.stakes = s.dev.stakes ∧
        (fld h 23 16 = typeChannel → (getChan t (fld h 15 0)).state = 0) ∧ (fld h 23 16 = typeParcel → getParcel t (fld h 15 0) = Parcel.empty)) ∧
    (∀ c s p x y, Fits (.partComplete c) s → (getCore s.dev c).w.part = some p → partOver (getCore s.dev c) = true →
      findCmd s.dev p.chan p.num = some x → y = x.addPart c p p.seqFault p.subcode →
      Completes (.partComplete c) s fun t => (getCore t c).sched = 0 ∧ (getCore t c).w.part = none ∧ (getCore t c).w.crews = (getCore s.dev c).w.crews ∧
        agentReady t (.seq c) = false ∧ (∀ k, k ≠ ckey c → tget Core.idle t.cores k = tget Core.idle s.dev.cores k) ∧
        (y.place ≠ 0 ∨ y.running ≠ 0 → MemSame s.dev t ∧ findCmd t p.chan p.num = some y ∧ { t with cores := s.dev.cores, chans := s.dev.chans } = s.dev) ∧
        ∀ k d, k = getChan s.dev p.chan → k.cmds = [x] → y.acted = true → y.place = 0 → y.running = 0 → recordWaits s.dev p.chan = false →
          d = { s.dev with cores := t.cores } → CmdDone p.chan k y false false .none d t) ∧
    (∀ s e d, Fits .eventMergeWrite s → firstEvent s.dev.events = some e → e.tick.toNat < s.dev.tick → evtRingFull s.dev = false → routeBusy s.dev e.die 0 = false →
      d = { s.dev with events := s.dev.events.erase e } →
      (rfld s.dev .cmdEvtCtl 0 0 0 57 57 = 0 ∨ classPasses s.dev e.cls = false → Completes .eventMergeWrite s fun t => t = d) ∧
      (∀ r a x p, rfld s.dev .cmdEvtCtl 0 0 0 57 57 = 1 → classPasses s.dev e.cls = true → r = rfld s.dev .cmdEvtPtr 0 0 0 31 0 →
        a = BitVec.ofNat 52 (rfld s.dev .cmdEvtCtl 0 0 0 51 0 + r % 2 ^ rfld s.dev .cmdEvtCtl 0 0 0 56 52 * 32) →
        extentBusy s.dev 0 a 32 = false → devWrite d a (eventBytes (decide (r / 2 ^ rfld s.dev .cmdEvtCtl 0 0 0 56 52 % 2 = 0)) s.dev.gap e) = (x, .ok ()) →
        resolve x a = some p → poisoned x p 32 = false → Completes .eventMergeWrite s fun t =>
          { t with regs := x.regs, gap := x.gap } = x ∧ t.gap = false ∧ rfld t .cmdEvtPtr 0 0 0 31 0 = (r + 1) % 2 ^ 32 ∧
            rfld t .cmdEvtPtr 0 0 0 63 32 = rfld s.dev .cmdEvtPtr 0 0 0 63 32)) ∧
    ∀ v s, Fits (.cmdEvtPtrHeadWrite v) s → commandBusy s.dev 0 = false → ∀ head tail : W32, head = BitVec.ofNat 32 (rfld s.dev .cmdEvtPtr 0 0 0 63 32) →
      tail = BitVec.ofNat 32 (rfld s.dev .cmdEvtPtr 0 0 0 31 0) →
      ((v - head).toNat ≤ (tail - head).toNat → Completes (.cmdEvtPtrHeadWrite v) s fun t => { t with regs := s.dev.regs } = s.dev ∧
        rfld t .cmdEvtPtr 0 0 0 63 32 = v.toNat ∧ rfld t .cmdEvtPtr 0 0 0 31 0 = tail.toNat) ∧
      ((tail - head).toNat < (v - head).toNat → Completes (.cmdEvtPtrHeadWrite v) s (NotesOnly s.dev))

/-- Parts start on free cores with their entry state; a pre-empted part is saved and goes on where it stopped (chapter 12, Running (R423); chapter 13, Placement (R458, R459, R460); chapter 13, Pre-emption (R457, R463, R464, R465, R466, R467); chapter 13, Registers (R477); log 84 (DESIGN CHOICE); log 158 (DEDUCED); log 176 (DEDUCED); log 177 (DEDUCED)). DISPATCH_TICK with one open parcel and one part waiting in it, outside plumb parcels: where R459 names a core (a free one of the first entry of its list that has one, of the lowest rank), the part starts there with s0 to s7, a0 and the pc as R423 says, every other register zero and no crew, and is counted as running and no longer as waiting; where no core is free and R463 names a victim (the lowest PRIORITY that R457 lets it pre-empt, then the latest start) that holds no image, that core alone is asked to stop (log 176 on who asks). CORE_STOPPED, once every agent and unit has stopped, marks the core as saving with its work as it was, its chain entries back at their last line. CONTEXT_IMAGE_WRITTEN, nothing on its way busy, keeps that work (but the A rows in the cells: the model's choice, log 158) in the core's image, writes the image to memory and frees the core. CONTEXT_IMAGE_RESTORED of an image that can be read and with the same lane count takes the sequencer's and crews' registers, masks and program counters from the image's bytes (their places in it: log 84), which for the bytes that the save wrote are what they were, puts the launches back (the agents' waits alone begin anew), and in the core store the bytes of the image's last section; where the read fails, or the lane count differs in a plumb parcel, the image is dropped. TAG_VALID_CLEAR clears the core's tag alone. Concludes that exec answers a next state (Completes) for: dispatchTick, coreStopped, contextImageWritten, tagValidClear, contextImageRestored. -/
def Obligations.PlacementAndContexts : Prop :=
  (∀ s p q x y im c b h, Fits .dispatchTick s → Tidy s.dev → s.dev.sched.dispatched ≠ some s.dev.tick → halted s.dev 0 = false →
      s.dev.parcels = [(p, q)] → q.state ≠ 0 → q.plumb = false → (∀ e ∈ s.dev.chans, e.2.noticeDue = false) → waitingParts s.dev p = [x] → x.resume = none →
      (∀ z : CoreId, z.core < 144 → (TagHeld s.dev x.chan x.part z ↔ h = some z)) → PlacedOn s.dev (parcelCores s.dev q) h c → findCmd s.dev x.chan x.num = some y → y.image = some im → x.part < 32 →
      (getChan s.dev x.chan).parcelIdx = p → b = BitVec.ofNat 32 (2 ^ x.part) →
      Completes .dispatchTick s fun t => (getCore t c).sched = 1 ∧ (seqOf t c).st = .running ∧ (seqOf t c).pc = im.entry ∧ (seqOf t c).ret = [] ∧
        sreg t c 0 = BitVec.ofNat 64 x.part ∧ sreg t c 1 = BitVec.ofNat 64 y.parts ∧ (∀ i, i < 6 → sreg t c (2 + i) = y.words.getD (2 + i) 0) ∧
        (∀ i, 8 ≤ i → i < 32 → sreg t c i = 0) ∧ (∀ i, areg t c i = if i = 0
          then (getChan s.dev x.chan).submit + BitVec.ofNat 52 (y.num % 2 ^ (getChan s.dev x.chan).submitOrder * 64) else 0) ∧
        (∀ slot, getCrew t c slot = none) ∧ (getCore t c).tagValid = true ∧ (getCore t c).tagChan = x.chan ∧ (getCore t c).tagPart = x.part ∧
        (∃ r, (getCore t c).w.part = some r ∧ r.chan = x.chan ∧ r.num = y.num ∧ r.part = x.part ∧ r.image = im ∧ r.parcel = p ∧ r.out = 0 ∧ r.seqFault = .none) ∧
        (∀ k, k ≠ ckey c → { tget Core.idle t.cores k with tagValid := false } = { tget Core.idle s.dev.cores k with tagValid := false }) ∧
        findCmd t x.chan x.num = some { y with
          place := y.place &&& ~~~b
          running := y.running ||| b } ∧ MemSame s.dev t ∧ t.sched = { s.dev.sched with dispatched := some s.dev.tick } ∧
        rfld t .pclStat 0 0 p 31 0 = min 0xFFFFFFFF (rfld s.dev .pclStat 0 0 p 31 0 + 1)) ∧
    (∀ s p q x c, Fits .dispatchTick s → Tidy s.dev → s.dev.sched.dispatched ≠ some s.dev.tick → halted s.dev 0 = false →
      s.dev.parcels = [(p, q)] → q.state ≠ 0 → q.plumb = false → (∀ e ∈ s.dev.chans, e.2.noticeDue = false) → waitingParts s.dev p = [x] → x.resume = none →
      (∀ z ∈ parcelCores s.dev q, coreFree s.dev z = false) → q.ctx ≠ 0 → q.tenants = 0 → (getCore s.dev c).held = none →
      Victim s.dev (parcelCores s.dev q) x.prio c → Completes .dispatchTick s fun t =>
        OnlyCore c { s.dev with sched := t.sched } t ∧ getCore t c = { getCore s.dev c with stopping := true }) ∧
    (∀ c s, Fits (.coreStopped c) s → Tidy s.dev → (getCore s.dev c).stopping = true → (getCore s.dev c).sched = 1 → partOver (getCore s.dev c) = false →
      coreStopped (getCore s.dev c) = true → Completes (.coreStopped c) s fun t => getCore t c = { getCore s.dev c with
          stopping := false
          sched := 2
          w := { (getCore s.dev c).w with flights := (getCore s.dev c).w.flights.map Flight.atLine } } ∧ OnlyCore c { s.dev with stakes := t.stakes, hubs := t.hubs, wakes := t.wakes } t ∧
        (∀ id : StakeId, (getStake t id).count = (getStake s.dev id).count) ∧ ∀ w, w ∈ t.wakes → w ∈ s.dev.wakes) ∧
    (∀ c s r, Fits (.contextImageWritten c) s → Tidy s.dev → (getCore s.dev c).w.part = some r → (getCore s.dev c).sched = 2 →
      extentBusy s.dev c.die (contextAddr s.dev r.parcel c) (contextBytes (getCore s.dev c).w r.image) = false →
      Completes (.contextImageWritten c) s fun t => (getCore t c).sched = 0 ∧ (getCore t c).w.part = none ∧ (getCore t c).w.crews = [] ∧
        (getCore t c).held = some ⟨(getCore s.dev c).w.noCells, lanesOf (getCore s.dev c), s.dev.tick, regGet s.dev .cubeRelay c.die c.core 0⟩ ∧
        (∀ k, k ≠ ckey c → tget Core.idle t.cores k = tget Core.idle s.dev.cores k) ∧
        MemSame (writeImage s.dev c (contextAddr s.dev r.parcel c) (getCore s.dev c).w r.image) t ∧
        rfld t .pclStat 0 0 r.parcel 47 32 = min 0xFFFF (rfld s.dev .pclStat 0 0 r.parcel 47 32 + 1)) ∧
    (∀ c s h r a n e, Fits (.contextImageRestored c) s → Tidy s.dev → (getCore s.dev c).held = some h → h.w.part = some r → (getCore s.dev c).sched = 3 →
      a = contextAddr s.dev r.parcel c → n = contextBytes h.w r.image → extentBusy s.dev c.die a n = false →
      (∀ b, devReadAll s.dev a n = (e, .ok b) → lanesOf (getCore s.dev c) = h.lanes →
        (∀ u, u < 4 → (tget Cube.empty h.w.cubes u).head = none) →
        Completes (.contextImageRestored c) s fun t => (getCore t c).sched = 1 ∧ (getCore t c).held = none ∧
          ((seqOf t c).wait.isSome = h.w.seq.wait.isSome) ∧ (seqOf t c).st = h.w.seq.st ∧ (seqOf t c).pc = bytesNat b (4096 + 8 * 48) 8 ∧
          (∀ i, i < 32 → sreg t c i = BitVec.ofNat 64 (bytesNat b (4096 + 8 * i) 8)) ∧
          (∀ i, i < 16 → areg t c i = BitVec.ofNat 52 (bytesNat b (4096 + 8 * (32 + i)) 8)) ∧
          (Rising h.w.crews → ∀ m q k, (boundCrews h.w)[m]? = some (q, k) → ∃ x, getCrew t c q = some x ∧ x.launch = k.launch ∧
            (∀ lane v, lane < 32 → v < 64 → x.reg lane v = BitVec.ofNat 32 (bytesNat b (5120 + 8448 * m + 257 * lane + 4 * v) 4)) ∧
            x.mask = BitVec.ofNat 32 (bytesNat b (5120 + 8448 * m + 8224) 4) ∧ x.pc = bytesNat b (5120 + 8448 * m + 8228) 4) ∧
          (∀ d y, b.take (imageCore h.w) = (sectionBytes (imageSections d c h.w r.image) y).1 →
            (∀ i, i < 32 → sreg t c i = tget 0 h.w.seq.s i) ∧ (∀ i, i < 16 → areg t c i = tget 0 h.w.seq.a i) ∧
            (h.w.seq.pc < 2 ^ 64 → (seqOf t c).pc = h.w.seq.pc) ∧
            (Rising h.w.crews → ∀ q k, (q, k) ∈ boundCrews h.w → ∃ x, getCrew t c q = some x ∧ x.mask = k.mask ∧ (k.pc < 2 ^ 32 → x.pc = k.pc) ∧
              (∀ lane v, lane < 32 → v < 64 → x.reg lane v = k.reg lane v) ∧
              ∀ p lane, p < 8 → lane < 32 → (x.pred p).getLsbD lane = (k.pred p).getLsbD lane)) ∧
          (getCore t c).w.part = some { r with resumed := some s.dev.tick } ∧ (getCore t c).w.launchQ = h.w.launchQ ∧ (getCore t c).w.launches = h.w.launches ∧
          (∀ i, i < imageStore r.image → memByte t (storeKey c i) = b.getD (imageCore h.w + i) 0) ∧
          MemSameBut (storeKey c 0) (imageStore r.image) s.dev t ∧
          ∀ k, k ≠ ckey c → tget Core.idle t.cores k = tget Core.idle s.dev.cores k) ∧
      ∀ y, devReadAll s.dev a n = (e, y) → ((∃ f, y = .error f) ∨ r.plumb = true ∧ lanesOf (getCore s.dev c) ≠ h.lanes →
        Completes (.contextImageRestored c) s fun t => (getCore t c).held = none ∧ (getCore t c).sched = 0 ∧ (getCore t c).w = (getCore s.dev c).w ∧
          ∀ k, k ≠ ckey c → tget Core.idle t.cores k = tget Core.idle s.dev.cores k)) ∧
    ∀ c s, Fits (.tagValidClear c) s → Completes (.tagValidClear c) s fun t => OnlyCore c s.dev t ∧ getCore t c = { getCore s.dev c with tagValid := false }

/-- Tenants swap whole, rebuilds map failing channels out, and the schedule runs its slots in order (chapter 13, Tenants (R461, R462); chapter 13, Rebuilds (R456); chapter 11, Retirement (R387, R389); chapter 13, Schedule (R468, R470, R471, R472); chapter 00, Ignored writes (R25); chapter 17, Records (R581)). TENANT_SWAP of a waiting tenant, with nothing of the occupant started, marks the swap and nothing else. SWAP_COMPLETE makes the tenant the occupant, saves the old occupant's state to its area, brings the tenant's from its own, clears the tags, and at the tenant's first RUN its cores' stores and scratch windows read zero (without an old occupant no other byte changes); no sequencer or crew changes. A write of 1 to PCL_REBUILD.ACTIVE is refused and logged while a parcel owns a cluster of the die, and else sets ACTIVE and BUSY. REBUILD_MAPOUT_DONE clears BUSY, leaves every FAILING channel MAPPED_OUT and no retired frame; a write of 0 clears ACTIVE. SCHEDULE_SLOT_BOUNDARY begins the first cycle at entry 0, or once the slot has ended goes on to the next entry, and after the last to entry 0 of a new cycle; a switch asked for by SCH_SWITCH takes effect there. At the end of its slot, a REAL_TIME command whose parts still run adds 1 to OVERRUNS, raises a record of class 8 with KIND 1, and its parts count as HIGH (R470). Concludes that exec answers a next state (Completes) for: tenantSwap, swapComplete, pclRebuildSet, rebuildMapoutDone, pclRebuildClear, scheduleSlotBoundary, schSwitch. -/
def Obligations.SwapsRebuildsAndSchedule : Prop :=
  (∀ p tn s q, Fits (.tenantSwap p tn) s → q = getParcel s.dev p → q.state ≠ 0 → tn < q.tenants → q.swapping = none → q.occupant ≠ some tn →
      tenantWaits s.dev p tn = true → occupantIdle s.dev p = true → Completes (.tenantSwap p tn) s fun t => { t with parcels := s.dev.parcels } = s.dev ∧
        getParcel t p = { q with swapping := some tn } ∧ ∀ j, j ≠ p → getParcel t j = getParcel s.dev j) ∧
    (∀ p tn s q, Fits (.swapComplete p) s → Tidy s.dev → q = getParcel s.dev p → q.swapping = some tn → swapBusy s.dev q tn = false → Completes (.swapComplete p) s fun t =>
      (getParcel t p).occupant = some tn ∧ (getParcel t p).swapping = none ∧ tn ∈ (getParcel t p).visited ∧
        (∀ o, q.occupant = some o → MemSame (restoreTenant (saveTenant s.dev q o) q tn) t) ∧
        (q.occupant = none → MemSame (restoreTenant s.dev q tn) t) ∧
        (tn ∉ q.visited → ∀ e i x, e ∈ swapExtents s.dev q → i < e.2 → resolve s.dev (onward e.1 i) = some x → (∀ y z, x ≠ .reg y z) →
          (∀ y z w, x ≠ .hbm y z w) → memByte t x.key = 0) ∧
        (tn ∉ q.visited → q.occupant = none → ∀ j,
          (∀ e i x, e ∈ swapExtents s.dev q → i < e.2 → resolve s.dev (onward e.1 i) = some x → x.key ≠ j) → memByte t j = memByte s.dev j) ∧
        (∀ c, c ∈ parcelCores s.dev q → (getCore t c).tagValid = false) ∧
        (∀ k, { tget Core.idle t.cores k with tagValid := false } = { tget Core.idle s.dev.cores k with tagValid := false }) ∧
        rfld t .pclStat 0 0 p 63 48 = min 0xFFFF (rfld s.dev .pclStat 0 0 p 63 48 + 1)) ∧
    (∀ die s, Fits (.pclRebuildSet die) s →
      (dieOwned s.dev die = true ∨ pkgReady s.dev = false → Completes (.pclRebuildSet die) s fun t => Ignored die (regAddr .pclRebuild die 0 0) 1 s.dev t ∧
        rfld t .pclRebuild die 0 0 1 0 = rfld s.dev .pclRebuild die 0 0 1 0) ∧
      (dieOwned s.dev die = false → pkgReady s.dev = true → rebuilding s.dev die = false → Completes (.pclRebuildSet die) s fun t =>
        { t with regs := s.dev.regs } = s.dev ∧ rfld t .pclRebuild die 0 0 0 0 = 1 ∧ rfld t .pclRebuild die 0 0 1 1 = 1) ∧
      (dieOwned s.dev die = false → pkgReady s.dev = true → rebuilding s.dev die = true → exec (.pclRebuildSet die) s = .next s)) ∧
    (∀ die s, Fits (.rebuildMapoutDone die) s → Tidy s.dev → rfld s.dev .pclRebuild die 0 0 1 1 = 1 → Completes (.rebuildMapoutDone die) s fun t =>
      NotesOnly s.dev t ∧ rfld t .pclRebuild die 0 0 1 1 = 0 ∧ rfld t .pclRebuild die 0 0 0 0 = rfld s.dev .pclRebuild die 0 0 0 0 ∧
        retireCount t die = 0 ∧ (∀ ch, ch < 32 → chanFld s.dev die ch 1 1 = 1 → chanFld t die ch 2 0 = 4) ∧
        ∀ ch, ch < 32 → chanFld s.dev die ch 1 1 = 0 → chanFld t die ch 2 0 = chanFld s.dev die ch 2 0) ∧
    (∀ die s, Fits (.pclRebuildClear die) s → Completes (.pclRebuildClear die) s fun t => { t with regs := s.dev.regs } = s.dev ∧
      rfld t .pclRebuild die 0 0 0 0 = 0 ∧ rfld t .pclRebuild die 0 0 1 1 = rfld s.dev .pclRebuild die 0 0 1 1) ∧
    (∀ s, Fits .scheduleSlotBoundary s → schedOn s.dev = true → s.dev.sched.running = false → Completes .scheduleSlotBoundary s fun t =>
      NotesOnly { s.dev with
        sched := t.sched
        chans := t.chans } t ∧ t.sched.running = true ∧ t.sched.slot = 0 ∧ t.sched.cycles = s.dev.sched.cycles + 1 ∧
        t.sched.switch = false ∧ t.sched.bank = (if s.dev.sched.switch = true then 1 - s.dev.sched.bank else s.dev.sched.bank) ∧
        t.sched.slotEnd = s.dev.tick + slotTicks t 0) ∧
    (∀ s, Fits .scheduleSlotBoundary s → schedOn s.dev = true → s.dev.sched.running = true → s.dev.sched.slotEnd ≤ s.dev.tick →
      (∀ e ∈ s.dev.chans, e.2.prio ≠ 3) → Completes .scheduleSlotBoundary s fun t => NotesOnly { s.dev with sched := t.sched } t ∧
        t.sched.running = true ∧ t.sched.slotEnd = s.dev.tick + slotTicks t t.sched.slot ∧
        (s.dev.sched.slot < slotCount s.dev → t.sched.slot = s.dev.sched.slot + 1 ∧ t.sched.bank = s.dev.sched.bank ∧ t.sched.cycles = s.dev.sched.cycles ∧
          t.sched.switch = s.dev.sched.switch) ∧
        (slotCount s.dev ≤ s.dev.sched.slot → t.sched.slot = 0 ∧ t.sched.cycles = s.dev.sched.cycles + 1 ∧ t.sched.switch = false ∧
          t.sched.bank = (if s.dev.sched.switch = true then 1 - s.dev.sched.bank else s.dev.sched.bank))) ∧
    (∀ s ch x, Fits .scheduleSlotBoundary s → Tidy s.dev → Rising s.dev.chans → schedOn s.dev = true → s.dev.sched.running = true →
      s.dev.sched.slotEnd ≤ s.dev.tick → slotFld s.dev 24 24 = 1 → slotFld s.dev 39 32 = ch → (getChan s.dev ch).prio = 3 → (getChan s.dev ch).cmds = [x] →
      x.acted = true → x.running ≠ 0 → x.overrun = false → evtRingFull s.dev = false → Completes .scheduleSlotBoundary s fun t =>
        rfld t .schStat 0 0 0 31 16 = min 0xFFFF (rfld s.dev .schStat 0 0 0 31 16 + 1) ∧
        (⟨8, 0, 191, 1, BitVec.ofNat 64 s.dev.tick, s.dev.sched.slot, 0, BitVec.ofNat 64 (s.dev.sched.slot + 2 ^ 8 * ch + 2 ^ 16 * s.dev.sched.bank +
          2 ^ 32 * s.dev.sched.cycles.toNat), 0⟩ : Event) ∈ t.events ∧
        ∀ c, (getCore t c).w.part = (getCore s.dev c).w.part.map fun r => { r with prio := if r.chan = ch ∧ r.num = x.num then 2 else r.prio }) ∧
    ∀ s, Fits .schSwitch s → Completes .schSwitch s fun t => t = { s.dev with sched := { s.dev.sched with switch := true } }

/-- Ports train, retrain and go down; flits in order are taken and all others asked for again (chapter 14, Ports (R488, R489, R491, R492, R513); chapter 14, Flits (R483, R485, R486, R487, R493); chapter 14, Registers (R515, R516, R519)). ZLK_TRAIN of a port that is neither training nor retraining starts its training; before package ready or without a ZID it is ignored and logged (kind 68). PORT_TRAINING_DONE brings the port UP at the highest common version on the whole lanes, or on one half where ALLOW_HALF is set, else FAILED; UPPER tells which half runs. ZLK_STOP of a port that is not DOWN leaves it DOWN with no put of it under way. LANE_FAILURE of an UP port leads to a retrain, or to DOWN where no whole half remains or ALLOW_HALF is clear; PORT_RETRAIN_DONE to UP, on the half without a failed lane, or to DOWN. ZLK_LANE_WINDOW_END starts the lanes' counts again. FLIT_RECEIVE on a port with nothing to send and lanes within their limit: a group with an uncorrectable codeword and no flit whole counts its codewords and asks for a replay; of a good group with one sequenced flit, one ahead of its turn asks for a replay, one behind is dropped, and one in turn is taken and acknowledged: a message for another package does nothing more, an ACK marks its chunk, a body that begins a put makes the put known and holds its credit while its chunk is not whole, and a header alone for another package is answered UNROUTABLE while its credit goes back. ZLK_ID and ZLK_VC_CFG take a value only while the ports, or the port, are DOWN, and else are ignored and logged (kind 68). No sequencer, crew or stake changes in any of them. Concludes that exec answers a next state (Completes) for: zlkTrain, zlkStop, portTrainingDone, laneFailure, portRetrainDone, flitReceive, zlkIdWrite, zlkVcCfgWrite, zlkLaneWindowEnd. -/
def Obligations.LinkPorts : Prop :=
  (∀ die p s, Fits (.zlkTrain die p) s →
      (pkgReady s.dev = false ∨ zlkId s.dev = 0 ∨ zlkId s.dev = 0xFFFF → Completes (.zlkTrain die p) s fun t =>
        Ignored die (regAddr .zlkCtl die 0 p) (rfld s.dev .zlkCtl die 0 p 63 0 + 1) s.dev t ∧
        portState t die p = portState s.dev die p) ∧
      (pkgReady s.dev = true → zlkId s.dev ≠ 0 → zlkId s.dev ≠ 0xFFFF → portState s.dev die p ≠ 1 → portState s.dev die p ≠ 3 →
        Completes (.zlkTrain die p) s fun t => { t with regs := s.dev.regs } = s.dev ∧ portState t die p = 1)) ∧
    (∀ die p s, Fits (.zlkStop die p) s → (portState s.dev die p = 0 → exec (.zlkStop die p) s = .next s) ∧
      (portState s.dev die p ≠ 0 → Completes (.zlkStop die p) s fun t => LinkWork s.dev t ∧ portState t die p = 0 ∧
        ∀ x ∈ t.xfers, ¬(x.kind = 0 ∧ x.die = die ∧ x.port = p))) ∧
    (∀ die p x s common half, Fits (.portTrainingDone die p x) s → portState s.dev die p = 1 →
      common = rfld s.dev .zlkCtl die 0 p 3 2 &&& x.peerVersions.toNat → half = rfld s.dev .zlkCtl die 0 p 4 4 →
      (common ≠ 0 → (x.lower = true ∧ x.upper = true ∨ half = 1 ∧ (x.lower = true ∨ x.upper = true)) → Completes (.portTrainingDone die p x) s fun t =>
        LinkWork s.dev t ∧ portState t die p = 2 ∧ (portZ2 t die p = decide (2 ≤ common)) ∧ rfld t .zlkStatus die 0 p 31 16 = x.peerZid.toNat ∧
          rfld t .zlkStatus die 0 p 4 4 = (if x.lower = true ∧ x.upper = true then 0 else 1) ∧
          rfld t .zlkStatus die 0 p 5 5 = (if x.lower = true then 0 else 1)) ∧
      (common = 0 ∨ (x.lower = false ∧ x.upper = false) ∨ (half = 0 ∧ (x.lower = false ∨ x.upper = false)) → Completes (.portTrainingDone die p x) s fun t =>
        LinkWork s.dev t ∧ portState t die p = 4)) ∧
    (∀ die p lanes s bad, Fits (.laneFailure die p lanes) s → portState s.dev die p = 2 → bad = lanes.toNat &&& activeLanes s.dev die p →
      (bad = 0 ∨ rfld s.dev .zlkStatus die 0 p 4 4 = 0 ∧ (bad &&& 0x0F = 0 ∨ bad &&& 0xF0 = 0) ∧ rfld s.dev .zlkCtl die 0 p 4 4 = 1 →
        Completes (.laneFailure die p lanes) s fun t => LinkWork s.dev t ∧ portState t die p = 3 ∧ t.xfers = s.dev.xfers ∧ MemSame s.dev t) ∧
      (bad ≠ 0 → (rfld s.dev .zlkStatus die 0 p 4 4 ≠ 0 ∨ (bad &&& 0x0F ≠ 0 ∧ bad &&& 0xF0 ≠ 0) ∨ rfld s.dev .zlkCtl die 0 p 4 4 = 0) →
        Completes (.laneFailure die p lanes) s fun t => LinkWork s.dev t ∧ portState t die p = 0)) ∧
    (∀ die p s, Fits (.portRetrainDone die p true) s → portState s.dev die p = 3 → Completes (.portRetrainDone die p true) s fun t =>
      LinkWork s.dev t ∧ portState t die p = 2 ∧ (rfld s.dev .zlkStatus die 0 p 15 8 ≠ 0 → rfld t .zlkStatus die 0 p 4 4 = 1 ∧
          (rfld s.dev .zlkStatus die 0 p 4 4 = 0 → rfld t .zlkStatus die 0 p 5 5 = if rfld s.dev .zlkStatus die 0 p 15 8 &&& 0x0F = 0 then 0 else 1)) ∧
        (rfld s.dev .zlkStatus die 0 p 15 8 = 0 → rfld t .zlkStatus die 0 p 4 4 = rfld s.dev .zlkStatus die 0 p 4 4)) ∧
    (∀ die p s, Fits (.portRetrainDone die p false) s → portState s.dev die p = 3 → Completes (.portRetrainDone die p false) s fun t =>
      LinkWork s.dev t ∧ portState t die p = 0) ∧
    (∀ die p s, Fits (.zlkLaneWindowEnd die p) s → die < 8 → p < 2 → s.dev.tick % 65536 = 0 → Completes (.zlkLaneWindowEnd die p) s fun t =>
      { t with ports := s.dev.ports } = s.dev ∧ getPort t die p = { getPort s.dev die p with laneErrs := [] } ∧
        ∀ k, k ≠ 2 * die + p → tget Port.empty t.ports k = tget Port.empty s.dev.ports k) ∧
    (∀ die p x s k bad, Fits (.flitReceive die p x) s → portState s.dev die p = 2 → PortQuiet die p s.dev → k = getPort s.dev die p →
      (∀ v, v < 8 → (k.incOn v).held = 0) → k.crDue = [] →
      (∀ i, i < 8 → tget 0 k.laneErrs i + x.lanes.getD i 0 ≤ rfld s.dev .zlkCtl die 0 p 39 32 * 1024) →
      bad = (x.errors.filter fun n => decide (15 < n)).length →
      (0 < bad → (∀ i, i < 10 → x.good i = false) → Completes (.flitReceive die p x) s fun t => LinkWork s.dev t ∧ MemSame s.dev t ∧
        t.sent = .replay die p k.rx :: s.dev.sent ∧ (getPort t die p).rx = k.rx ∧
        rfld t .zlkFec die 0 p 31 0 = min 0xFFFFFFFF (rfld s.dev .zlkFec die 0 p 31 0 + (x.errors.filter fun n => decide (0 < n) && decide (n ≤ 15)).length) ∧
        rfld t .zlkFec die 0 p 63 32 = min 0xFFFFFFFF (rfld s.dev .zlkFec die 0 p 63 32 + bad)) ∧
      (∀ f rest, bad = 0 → x.flits = f :: rest → (∀ g ∈ rest, g.sequenced = false ∧ g.nak = false) → f.nak = false → f.sequenced = true →
        (f.fseq ≠ k.rx + 1 → Completes (.flitReceive die p x) s fun t => LinkWork s.dev t ∧ MemSame s.dev t ∧ (getPort t die p).rx = k.rx ∧
          t.xfers = s.dev.xfers ∧ t.sent = if after f.fseq k.rx = true then .replay die p k.rx :: s.dev.sent else s.dev.sent) ∧
        (f.fseq = k.rx + 1 → f.ftype ≠ 1 → fld f.msg 15 0 ≠ zlkId s.dev → Completes (.flitReceive die p x) s fun t => LinkWork s.dev t ∧
          MemSame s.dev t ∧ (getPort t die p).rx = f.fseq ∧ t.sent = s.dev.sent ∧ t.xfers = s.dev.xfers ∧
          ∃ g, t.wire = (die, p, g) :: s.dev.wire ∧ g.ackseq = f.fseq ∧ g.sequenced = false) ∧
        (∀ n c y st, f.fseq = k.rx + 1 → f.ftype ≠ 1 → n < 256 → c < 2 ^ 16 →
          f.msg = BitVec.ofNat 64 (zlkId s.dev + 2 ^ 16 + 2 ^ 20 * (512 * die + 256 * p + n) + 2 ^ 32 * c) →
          findXfer s.dev die p n = some y → y.chunk c = some st → Completes (.flitReceive die p x) s fun t => LinkWork s.dev t ∧ MemSame s.dev t ∧
            (getPort t die p).rx = f.fseq ∧ findXfer t die p n = some (y.setChunk c { st with
              acked := true
              due := false })) ∧
        (∀ h, f.fseq = k.rx + 1 → f.ftype = 1 → f.msgV = false → k.incOn f.vc = Incoming.idle → h = headerOf f.body → 160 < h.chunkLen 0 →
          (∀ b ∈ s.dev.inbound, b.h ≠ h) → k.replay = [] → Completes (.flitReceive die p x) s fun t => LinkWork s.dev t ∧ MemSame s.dev t ∧
            (getPort t die p).rx = f.fseq ∧ t.sent = s.dev.sent ∧
            t.inbound = (if f.dst ≠ zlkId s.dev then s.dev.inbound
              else ⟨h, [], false, false⟩ :: s.dev.inbound.filter fun b => !(decide (b.h.srcZid = h.srcZid) && decide (b.h.tag = h.tag))) ∧
            (getPort t die p).incOn f.vc = ⟨some h, 0, false, f.body.drop 64, decide (f.dst ≠ zlkId s.dev), 1⟩ ∧
            tget 0 (getPort t die p).taken f.vc = tget 0 k.taken f.vc) ∧
        (∀ h, f.fseq = k.rx + 1 → f.ftype = 1 → f.msgV = false → k.incOn f.vc = Incoming.idle → h = headerOf f.body → h.length = 0 →
          f.dst ≠ zlkId s.dev → k.replay = [] → Completes (.flitReceive die p x) s fun t => LinkWork s.dev t ∧ MemSame s.dev t ∧
            (getPort t die p).rx = f.fseq ∧ t.sent = .nak h.srcZid.toNat h.tag.toNat 0 4 :: s.dev.sent ∧ t.inbound = s.dev.inbound ∧
            (getPort t die p).incOn f.vc = Incoming.idle ∧ tget 0 (getPort t die p).taken f.vc = tget 0 k.taken f.vc + 1))) ∧
    (∀ v s, Fits (.zlkIdWrite v) s →
      ((∀ die p, die < s.dev.part.dies → p < 2 → portState s.dev die p = 0) → Completes (.zlkIdWrite v) s fun t =>
        { t with regs := s.dev.regs } = s.dev ∧ zlkId t = v.toNat) ∧
      ((∃ die p, die < s.dev.part.dies ∧ p < 2 ∧ portState s.dev die p ≠ 0) → Completes (.zlkIdWrite v) s fun t =>
        Ignored 0 (regAddr .zlkId 0 0 0) v.toNat s.dev t ∧ zlkId t = zlkId s.dev)) ∧
    ∀ die p v s sum, Fits (.zlkVcCfgWrite die p v) s → sum = ((List.range 8).map fun n => fld v (8 * n + 7) (8 * n)).sum →
      (portState s.dev die p = 0 → sum ≤ 256 → Completes (.zlkVcCfgWrite die p v) s fun t => { t with regs := s.dev.regs } = s.dev ∧
        regGet t .zlkVcCfg die 0 p = v) ∧
      (portState s.dev die p ≠ 0 ∨ 256 < sum → Completes (.zlkVcCfgWrite die p v) s fun t =>
        Ignored die (regAddr .zlkVcCfg die 0 p) v.toNat s.dev t ∧
        regGet t .zlkVcCfg die 0 p = regGet s.dev .zlkVcCfg die 0 p)

/-- Chunks are acknowledged, sent again or refused; transfers and collectives end with one completion (chapter 14, Transfers (R486, R494, R495, R496, R497, R498, R499); chapter 14, Collectives (R505, R506, R507, R509, R510); chapter 14, Engine (R512)). With nothing else to send on the port, and slices and links ready: LINK_ACK marks its chunk; the LAST of a put with every chunk marked ends the put without a fault. LINK_NAK of REFUSED, UNROUTABLE or DIGEST ends a put with FAULTED, NOT_READY marks the chunk, and CRC sends it again while resends remain, as ACK_TIMEOUT does; NOT_READY_RESEND does so 64 ticks after. An answer for no transfer changes nothing. PUT_START of a put that fails R496 ends it with FAULTED, a put of nothing completes with EMPTY, and any other becomes a transfer; with its port UP one of at most a chunk, or of an arrival alone, sends its chunk at once, in a stream that its header begins. PUT_CHUNK_RECEIVE answers a wrong ZID with UNROUTABLE and an unknown group with REFUSED, writing nothing; a good chunk of an unfinished put is written and acknowledged, one of a wrong CRC answered with CRC, and the last chunk of a put with an arrival sends the arrival to its hub; STAKE_OP_APPLY of that arrival counts it and sends ACK LAST. COLLECTIVE_START of no bytes completes; with no level above the package it completes with its result written, or with FAULTED. COLLECTIVE_TRAVERSE after the last stage completes it. LINK_ABORT and COLLECTIVE_TIMEOUT (no port of its paused) end a running collective with FAULTED. No sequencer or crew changes, nor a stake but by STAKE_OP_APPLY. Concludes that exec answers a next state (Completes) for: stakeOpApply, linkAck, linkNak, linkAbort, putStart, putChunkReceive, ackTimeout, notReadyResend, collectiveStart, collectiveTraverse, collectiveTimeout. -/
def Obligations.TransfersAndCollectives : Prop :=
  (∀ die p tag chunk last s, Fits (.linkAck die p tag chunk last) s → findXfer s.dev die p tag = none → exec (.linkAck die p tag chunk last) s = .next s) ∧
    (∀ die p tag chunk s x st, Fits (.linkAck die p tag chunk false) s → PortQuiet die p s.dev → findXfer s.dev die p tag = some x → x.chunk chunk = some st →
      Completes (.linkAck die p tag chunk false) s fun t => { t with xfers := s.dev.xfers } = s.dev ∧
        findXfer t die p tag = some (x.setChunk chunk { st with
          acked := true
          due := false })) ∧
    (∀ die p tag chunk s x st k l, Fits (.linkAck die p tag chunk true) s → PortQuiet die p s.dev → findXfer s.dev die p tag = some x → x.kind = 0 →
      x.chunk chunk = some st → (x.setChunk chunk { st with
        acked := true
        due := false }).allAcked = true → findLop s.dev x.owner = some (k, l) → StatusReady k l s.dev →
      Completes (.linkAck die p tag chunk true) s fun t => LopDone k l false s.dev t ∧ findXfer t die p tag = none ∧ (l.status = 0 → MemSame s.dev t)) ∧
    (∀ die p tag chunk reason s x k l, Fits (.linkNak die p tag chunk reason) s → PortQuiet die p s.dev → findXfer s.dev die p tag = some x → x.kind = 0 →
      reason ∈ [3, 4, 5] → findLop s.dev x.owner = some (k, l) → StatusReady k l s.dev → Completes (.linkNak die p tag chunk reason) s fun t =>
        LopDone k l true s.dev t ∧ findXfer t die p tag = none ∧ (l.status = 0 → MemSame s.dev t)) ∧
    (∀ die p tag chunk s x st, Fits (.linkNak die p tag chunk 2) s → PortQuiet die p s.dev → findXfer s.dev die p tag = some x → x.chunk chunk = some st →
      Completes (.linkNak die p tag chunk 2) s fun t => { t with xfers := s.dev.xfers } = s.dev ∧
        findXfer t die p tag = some (x.setChunk chunk { st with notReady := some s.dev.tick })) ∧
    (∀ i die p tag chunk s x st e b, i ∈ [Instr.linkNak die p tag chunk 1, .ackTimeout die p tag chunk] → Fits i s → PortQuiet die p s.dev →
      findXfer s.dev die p tag = some x → x.chunk chunk = some st → st.resends < rfld s.dev .zlkCtl die 0 p 15 8 → st.acked = false → st.due = false → st.notReady = none → chunkBusy s.dev x chunk = false →
      portState s.dev die p = 2 → st.sent + rfld s.dev .zlkCtl die 0 p 31 16 ≤ s.dev.tick → chunkBytes s.dev x chunk = (e, .ok b) → chunk < x.next →
      Completes i s fun t => LinkWork s.dev t ∧ MemSame s.dev t ∧ t.sent = .chunk die p tag chunk b (crc32c b) :: s.dev.sent ∧
        findXfer t die p tag = some { x.setChunk chunk ⟨false, s.dev.tick, st.resends + 1, none, false⟩ with
          resends := x.resends + 1
          bytes := x.bytes + b.length }) ∧
    (∀ die p tag chunk s x st w e b, Fits (.notReadyResend die p tag chunk) s → PortQuiet die p s.dev → chunkBusy s.dev x chunk = false → findXfer s.dev die p tag = some x → x.chunk chunk = some st →
      st.notReady = some w → w + 64 ≤ s.dev.tick → portState s.dev die p = 2 → chunkBytes s.dev x chunk = (e, .ok b) →
      Completes (.notReadyResend die p tag chunk) s fun t => LinkWork s.dev t ∧ MemSame s.dev t ∧
        t.sent = .chunk die p tag chunk b (crc32c b) :: s.dev.sent) ∧
    (∀ die s l dp e, Fits (.putStart die) s → halted s.dev die = false → getLinks s.dev die = [l] → l.phase = 2 → l.isPut = true →
      StatusReady die l s.dev → planBusy s.dev l = false → planRead s.dev l = (e, .none) → dp = memberPort e l.group (l.f 4 11 0) →
      (checkPut e l ≠ .none → Completes (.putStart die) s fun t => LopDone die l true s.dev t ∧ t.xfers = s.dev.xfers) ∧
      (∀ k, checkPut e l = .none → freeXfer s.dev dp.1 dp.2 = some k →
        (l.f 3 33 0 = 0 → l.f 0 15 15 = 0 → Completes (.putStart die) s fun t => LopDone die l false s.dev t ∧ t.xfers = s.dev.xfers) ∧
        (l.f 3 33 0 ≠ 0 → portState s.dev dp.1 dp.2 = 3 → (∀ x ∈ s.dev.xfers, x.slot < 256) → Completes (.putStart die) s fun t =>
          LinkWork s.dev t ∧ MemSame s.dev t ∧
          getLinks t die = [{ l with phase := 3 }] ∧ ∃ x, t.xfers = s.dev.xfers ++ [x] ∧ x.die = dp.1 ∧ x.port = dp.2 ∧ x.slot = k ∧ x.owner = l.op.serial ∧
            x.src.toNat = l.f 1 51 0 ∧ x.dst.toNat = l.f 2 51 0 ∧ x.len = l.f 3 33 0 ∧ x.next = 0) ∧
        (∀ src e2 b, l.f 3 33 0 ≤ 4096 → l.f 3 33 0 ≠ 0 ∨ l.f 0 15 15 = 1 → portState s.dev dp.1 dp.2 = 2 → PortQuiet dp.1 dp.2 s.dev →
          portOpen s.dev dp.1 dp.2 < 512 → src = BitVec.ofNat 52 (l.f 1 51 0) → extentBusy s.dev dp.1 src (l.f 3 33 0) = false →
          devReadAll e src (l.f 3 33 0) = (e2, .ok b) → Completes (.putStart die) s fun t => LinkWork s.dev t ∧ MemSame s.dev t ∧
            getLinks t die = [{ l with phase := 3 }] ∧ t.sent = .chunk dp.1 dp.2 k 0 b (crc32c b) :: s.dev.sent ∧
            ∃ x, t.xfers = s.dev.xfers ++ [x] ∧ x.die = dp.1 ∧ x.port = dp.2 ∧ x.slot = k ∧ x.owner = l.op.serial ∧ x.len = l.f 3 33 0 ∧ x.next = 1 ∧
              x.zid = memberZid e l.group (l.f 4 11 0) ∧ x.arrive = (if l.f 0 15 15 = 1 then some (l.f 4 48 32, l.f 5 15 0) else none) ∧
              x.chunk 0 = some ⟨false, s.dev.tick, 0, none, false⟩ ∧
              ((getPort s.dev dp.1 dp.2).replay.length < 512 → (getPort s.dev dp.1 dp.2).credit (x.vc % 8) = true →
                ∃ w f, t.wire = w ++ (dp.1, dp.2, f) :: s.dev.wire ∧ f.ftype = 1 ∧ f.vc = x.vc % 8 ∧ f.dst = x.zid % 2 ^ 16 ∧
                  f.body.take 64 = (x.header s.dev).bytes)))) ∧
    (∀ die p h chunk bytes crc s, Fits (.putChunkReceive die p h chunk bytes crc) s → portState s.dev die p = 2 → PortQuiet die p s.dev →
      chunkWaits s.dev die h chunk bytes.length = false →
      (h.dstZid.toNat ≠ zlkId s.dev → Completes (.putChunkReceive die p h chunk bytes crc) s fun t =>
        LinkWork s.dev t ∧ MemSame s.dev t ∧ t.inbound = s.dev.inbound ∧ t.sent = .nak h.srcZid.toNat h.tag.toNat chunk 4 :: s.dev.sent ∧
        ((getPort s.dev die p).replay.length < 512 → ∃ g, t.wire = (die, p, g) :: s.dev.wire ∧ g.msgV = true ∧
          some g.msg = (LinkMsg.nak h.srcZid.toNat h.tag.toNat chunk 4).word)) ∧
      (h.dstZid.toNat = zlkId s.dev → groupOfTag s.dev h.groupTag = none → Completes (.putChunkReceive die p h chunk bytes crc) s fun t =>
        LinkWork s.dev t ∧ MemSame s.dev t ∧ t.inbound = s.dev.inbound ∧ t.sent = .nak h.srcZid.toNat h.tag.toNat chunk 3 :: s.dev.sent) ∧
      (∀ g gr k e, h.dstZid.toNat = zlkId s.dev → groupOfTag s.dev h.groupTag = some g → gr = getGroup s.dev g → k = chunkSize h.chunk16 →
        gr.inBase.toNat ≤ h.dstAddr.toNat + chunk * k → h.dstAddr.toNat + chunk * k + bytes.length ≤ gr.inBase.toNat + gr.inSize →
        (memberOf s.dev g h.srcZid.toNat).isSome = true → h.kind = 0 → devWriteAll s.dev (plus h.dstAddr (chunk * k)) bytes = (e, .ok ()) →
        (crc32c bytes ≠ crc → Completes (.putChunkReceive die p h chunk bytes crc) s fun t => LinkWork s.dev t ∧ MemSame e t ∧
          t.sent = .nak h.srcZid.toNat h.tag.toNat chunk 1 :: s.dev.sent ∧ t.inbound = s.dev.inbound) ∧
        (crc32c bytes = crc → (∃ j, j < cdiv h.length.toNat k ∧ j ≠ chunk ∧ tget false (inboundOf s.dev h).got j = false) →
          Completes (.putChunkReceive die p h chunk bytes crc) s fun t => LinkWork s.dev t ∧ MemSame e t ∧
            t.sent = .ack h.srcZid.toNat h.tag.toNat chunk false :: s.dev.sent) ∧
        (crc32c bytes = crc → (∀ j, j < cdiv h.length.toNat k → j = chunk ∨ tget false (inboundOf s.dev h).got j = true) → h.arriveEn = true →
          (inboundOf s.dev h).done = false → (inboundOf s.dev h).arriving = false → stakeDie h.stake < s.dev.part.dies →
          Completes (.putChunkReceive die p h chunk bytes crc) s fun t => LinkWork s.dev t ∧ MemSame e t ∧ t.sent = s.dev.sent ∧
            (inboundOf t h).arriving = true ∧ ∃ q, (getHub t (stakeDie h.stake) (stakeHub h.stake)).port 2 =
              q ++ [⟨.arrive h.inc.toNat false, h.stake, .link die p h.srcZid.toNat h.tag.toNat chunk, some (fld gr.parcel 15 0)⟩]))) ∧
    (∀ die hub p op rest s inc dx px zid tag chunk, Fits (.stakeOpApply die hub (1#4 <<< p)) s → Presents die hub p op rest s.dev →
      op.act = .arrive inc false → op.source = .link dx px zid tag chunk → PortQuiet dx px s.dev →
      (stakeCheck s.dev op.stake op.parcel = .none → 0 < inc → Completes (.stakeOpApply die hub (1#4 <<< p)) s fun t =>
        t.sent = .ack zid tag chunk true :: s.dev.sent ∧ (getStake t op.stake).count.toNat = countAfter (getStake s.dev op.stake) inc) ∧
      (stakeCheck s.dev op.stake op.parcel ≠ .none → Completes (.stakeOpApply die hub (1#4 <<< p)) s fun t =>
        t.sent = .nak zid tag chunk 3 :: s.dev.sent ∧ t.stakes = s.dev.stakes)) ∧
    (∀ die g s x, Fits (.collectiveStart die g) s → readyColl s.dev die g = some x → halted s.dev die = false →
      collBusy s.dev die x = false → StatusReady die x s.dev →
      (x.cop ≠ 3 → x.len = 0 → Completes (.collectiveStart die g) s (LopDone die x false s.dev)) ∧
      (∀ m e f, listRead s.dev g = (m, .none) → x.len ≠ 0 → x.cop < 3 → (getGroup s.dev g).top = 0 → (∀ y ∈ s.dev.xfers, y.owner ≠ x.op.serial) → packageStage s.dev x = (e, f) →
        Completes (.collectiveStart die g) s fun t => LopDone die x (decide (f ≠ .none)) s.dev t ∧ (x.status = 0 → MemSame e t))) ∧
    (∀ die g s c, Fits (.collectiveTraverse die g) s → findColl s.dev die g = some c → halfDone s.dev c = true →
      collBusy s.dev c.die c.lop = false → Completes (.collectiveTraverse die g) s (LinkWork s.dev) ∧
      (∀ m, listRead s.dev c.group = (m, .none) → StatusReady c.die c.lop s.dev → moreHalf s.dev c = false → nextStage s.dev c.lop (c.stage + 1) = none → Completes (.collectiveTraverse die g) s fun t =>
        LopDone c.die c.lop false s.dev t ∧ (c.lop.status = 0 → MemSame s.dev t))) ∧
    (∀ die g s c n, Fits (.collectiveTimeout die g) s → findColl s.dev die g = some c → c.deadline = some n → n ≤ s.dev.tick →
      c.lop.paused s.dev = false → StatusReady c.die c.lop s.dev →
      Completes (.collectiveTimeout die g) s fun t => LopDone c.die c.lop true s.dev t ∧ ∀ y ∈ t.colls, y.lop.op.serial ≠ c.lop.op.serial) ∧
    ∀ tag q z s, Fits (.linkAbort tag q z) s → (groupOfTag s.dev tag = none → exec (.linkAbort tag q z) s = .next s) ∧
      ∀ g c, groupOfTag s.dev tag = some g → s.dev.colls.find? (fun c => decide (c.group = g) && decide (c.seq % 256 = q.toNat)) = some c → StatusReady c.die c.lop s.dev →
        Completes (.linkAbort tag q z) s fun t => LopDone c.die c.lop true s.dev t ∧ (c.lop.status = 0 → MemSame s.dev t) ∧ t.sent = s.dev.sent

/-- Frames are accepted, chosen, coded and completed in order; deadlines drop or mark them (chapter 15, Frames (R532, R533, R534, R535, R536, R537, R538); chapter 15, Rate control (R541, R542); chapter 15, Pipes (R544, R545); chapter 15, Deadlines (R547, R549); log 16 (DESIGN CHOICE); log 168 (DESIGN CHOICE); log 169 (DEDUCED)). FRAME_ACCEPT of an entry with a stale handle completes it with its code; with a free place in its session's queue it takes the frame, or completes it with the code of a check of R534. PIPE_SELECT completes a frame whose wait failed with OPERAND_FAULT; an idle pipe starts the first frame by the order of R544, or goes on with the frame it holds unless a LIVE one is ready, by skip blocks where an encode frame's deadline has passed. MEDIA_PREEMPTION for a LIVE frame holds the frame being coded after some blocks (log 168), unless it ends first. FRAME codes the pipe's frame to its end (log 168), where no slice that it reaches is being set up anew: an encode frame begun by it without a fault has no more bytes than BS_SIZE, its type, number and size stand in its status, and under CQP every block has QP_INIT. FRAME_COMPLETE completes it, with its status block (R537), LATE at or after its deadline (log 169), and frees the pipe. END empties the reference slots and completes. DEADLINE_PASS ends an encode frame that has not started with DEADLINE_MISSED and marks any other LATE; one being encoded goes on by skip blocks after a free number of blocks (log 168). (The coded bytes and samples are free values, log 16, and are not stated.) Concludes that exec answers a next state (Completes) for: frameAccept, mediaFrame, mediaEnd, pipeSelect, mediaPreemption, deadlinePass, frameComplete. -/
def Obligations.MediaFrames : Prop :=
  (∀ c pos s x op f, Fits (.frameAccept c pos) s → (chainQ s.dev c)[pos]? = some x → x.op.opc = chnMedia → unitsRun s.dev c = true →
      mediaFirst s.dev c pos x.op = true → frameSess s.dev x.op = .error f → order1 s.dev c x.op = .ok op → f ≠ .none →
      Completes (.frameAccept c pos) s fun t => (∀ y ∈ chainQ t c, y.op.serial ≠ x.op.serial) ∧
        ∃ i y, y.op = op ∧ FrameDone i y f s.dev t) ∧
    (∀ c pos s x op i y, Fits (.frameAccept c pos) s → (chainQ s.dev c)[pos]? = some x → x.op.opc = chnMedia → unitsRun s.dev c = true →
      mediaFirst s.dev c pos x.op = true → frameSess s.dev x.op = .ok i → order1 s.dev c x.op = .ok op → (getSess s.dev i).queue.length < 8 →
      halted s.dev (i / 32) = false → y = ⟨op, c, partId s.dev c, (getSess s.dev i).accepted.toNat, s.dev.accepted, .none, none, false, false, false, false, []⟩ →
      y.f 0 15 15 = 0 → (checkFrame s.dev (getSess s.dev i) y = .none → Completes (.frameAccept c pos) s fun t =>
        getSess t i = { getSess s.dev i with
          accepted := (getSess s.dev i).accepted + 1
          queue := (getSess s.dev i).queue ++ [y] } ∧ (∀ y ∈ chainQ t c, y.op.serial ≠ x.op.serial) ∧ LinkWork s.dev t ∧ MemSame s.dev t ∧
        t.accepted = s.dev.accepted + 1) ∧
      (checkFrame s.dev (getSess s.dev i) y ≠ .none → Completes (.frameAccept c pos) s fun t =>
        FrameDone i y (checkFrame s.dev (getSess s.dev i) y) s.dev t ∧ (getSess t i).accepted = (getSess s.dev i).accepted + 1 ∧
          ∀ y ∈ chainQ t c, y.op.serial ≠ x.op.serial)) ∧
    (∀ die q s i x n e, Fits (.pipeSelect die q) s → stopped s.dev die = false → q < 2 → pipeSess s.dev die q = [i] →
      readyFrame s.dev i = some (x, n, e) → n ≠ 0 → Completes (.pipeSelect die q) s (FrameDone i x .operandFault s.dev)) ∧
    (∀ die q s, Fits (.pipeSelect die q) s → stopped s.dev die = false → q < 2 →
      (∀ i r, i ∈ pipeSess s.dev die q → readyFrame s.dev i = some r → r.2.1 = 0) → (getPipe s.dev die q).coding = none →
      (∀ i x, ChosenFrame s.dev die q i x → ((getPipe s.dev die q).held = none ∨ (getSess s.dev i).prio = 0) →
        Completes (.pipeSelect die q) s fun t => getPipe t die q = { getPipe s.dev die q with
          coding := some i
          work := none
          phase := 1 } ∧ LinkWork s.dev t ∧ MemSame s.dev t ∧ (getSess t i).queue.head? = some { x with
            waiting := false
            started := true
            late := x.late || x.passed s.dev.tick }) ∧
      (∀ h, (getPipe s.dev die q).held = some h →
        (∀ i x, Choosable s.dev die q i x → (getSess s.dev i).prio ≠ 0) →
        ((∀ x f r k, startedFrame s.dev h = some x → (getPipe s.dev die q).kept = some (.enc f r k) → x.late = false ∧ x.passed s.dev.tick = false) →
          Completes (.pipeSelect die q) s fun t => getPipe t die q = { getPipe s.dev die q with
            coding := some h
            held := none
            work := (getPipe s.dev die q).kept
            kept := none
            phase := 3 } ∧ { t with pipes := s.dev.pipes } = s.dev) ∧
        (∀ x f r k, startedFrame s.dev h = some x → (getPipe s.dev die q).kept = some (.enc f r k) → (x.late = true ∨ x.passed s.dev.tick = true) →
          Completes (.pipeSelect die q) s fun t => getPipe t die q = { getPipe s.dev die q with
            coding := some h
            held := none
            work := some (.enc f r { k with stage := 2 })
            kept := none
            phase := 3 } ∧ LinkWork s.dev t ∧ MemSame s.dev t ∧ rfld t .medStat (h / 32) 0 0 47 32 =
              if k.stage = 0 then min 0xFFFF (rfld s.dev .medStat (h / 32) 0 0 47 32 + 1) else rfld s.dev .medStat (h / 32) 0 0 47 32))) ∧
    (∀ die q s i x p, Fits (.mediaPreemption die q) s → p = getPipe s.dev die q → p.coding = some i → p.held = none → startedFrame s.dev i = some x → q < 2 →
      (getSess s.dev i).prio ≠ 0 → x.coded = false → stopped s.dev die = false → (∃ j y, Choosable s.dev die q j y ∧ (getSess s.dev j).prio = 0) →
      Completes (.mediaPreemption die q) s (fun t => LinkWork s.dev t ∧ ((∃ w, getPipe t die q = ⟨none, some i, none, w, 2⟩ ∧
          (startedFrame t i).any Frame.coded = false ∧ rfld t .medStat die 0 0 63 48 = min 0xFFFF (rfld s.dev .medStat die 0 0 63 48 + 1)) ∨
        (getPipe t die q = { p with
          work := none
          phase := 1 } ∧ (startedFrame t i).any Frame.coded = true ∧ rfld t .medStat die 0 0 63 48 = rfld s.dev .medStat die 0 0 63 48))) ∧
      (mediaBusy s.dev i x = true → Completes (.mediaPreemption die q) s fun t => MemSame s.dev t ∧ getPipe t die q = ⟨none, some i, none, p.work, 2⟩)) ∧
    (∀ die q s i x e, Fits (.mediaFrame die q) s → (getPipe s.dev die q).coding = some i → startedFrame s.dev i = some x → x.coded = false →
      stopped s.dev die = false → mediaBusy s.dev i x = false → e = getSess s.dev i → Completes (.mediaFrame die q) s fun t => LinkWork s.dev t ∧
        getPipe t die q = { getPipe s.dev die q with
          work := none
          phase := 1 } ∧
        ∃ y, startedFrame t i = some y ∧ y = { x with
          coded := true
          late := y.late
          fault := y.fault
          status := y.status } ∧ (x.late = true → y.late = true) ∧
          ((getPipe s.dev die q).work = none → e.dec = false → y.fault = .none → 4096 ≤ x.f 5 31 0 → e.blocks ≠ 0 →
            fld (y.status.getD 0 0) 63 32 ≤ x.f 5 31 0 ∧ fld (y.status.getD 0 0) 31 16 = x.num % 65536 ∧
            (fld (y.status.getD 0 0) 9 8 = 0 ↔ isKey e x = true) ∧ fld (y.status.getD 1 0) 31 0 = e.w + 2 ^ 16 * e.h ∧
            (e.rc = 0 → (getSess t i).qp = e.f 4 9 2 ∧ fld (y.status.getD 0 0) 11 11 = 0 ∧ fld (y.status.getD 2 0) 31 0 = 0 ∧
              fld (y.status.getD 1 0) 63 32 = e.f 4 9 2 + 2 ^ 8 * e.f 4 9 2))) ∧
    (∀ die q s i x, Fits (.frameComplete die q) s → (getPipe s.dev die q).coding = some i → startedFrame s.dev i = some x → x.coded = true → q < 2 →
      Completes (.frameComplete die q) s fun t => FrameDone i x x.fault s.dev t ∧ getPipe t die q = { getPipe s.dev die q with
        coding := none
        phase := 0 } ∧
        rfld t .medPipe die 0 q 63 32 = min 0xFFFFFFFF (rfld s.dev .medPipe die 0 q 63 32 + 1) ∧
        (x.isEnd = false → x.fault ≠ .deadlineMissed → x.op.desc ≠ [] → x.status ≠ [] → fld (x.status.getD 0 0) 7 0 = 0 → fld (x.status.getD 0 0) 10 10 = 0 →
          x.f 7 51 0 ≠ 0 → (x.addr 7).toNat % 32 = 0 → mediaExt s.dev (x.addr 7) 32 = .none →
          ∃ b, StatusBlock x x.fault (x.late || x.passed s.dev.tick) b ∧ MemSame (devWriteAll s.dev (x.addr 7) b).1 t)) ∧
    (∀ die k s x n e, Fits (.mediaEnd die k) s → readyFrame s.dev (32 * die + k) = some (x, n, e) → x.isEnd = true → stopped s.dev die = false →
      (n = 0 → Completes (.mediaEnd die k) s fun t => FrameDone (32 * die + k) x .none s.dev t ∧ (getSess t (32 * die + k)).refs = [] ∧ (getSess t (32 * die + k)).ended = true ∧
        (getSess t (32 * die + k)).sinceKey = none ∧ MemSame s.dev t) ∧
      (n ≠ 0 → Completes (.mediaEnd die k) s fun t => FrameDone (32 * die + k) x .operandFault s.dev t ∧
        (getSess t (32 * die + k)).refs = (getSess s.dev (32 * die + k)).refs)) ∧
    ∀ die k n s i y, Fits (.deadlinePass die k n) s → i = 32 * die + k → (getSess s.dev i).queue.find? (fun y => decide (y.num = n)) = some y →
      y.isEnd = false → y.late = false → y.passed s.dev.tick = true → stopped s.dev die = false →
      ((getSess s.dev i).dec = false → y.started = false → Completes (.deadlinePass die k n) s fun t => FrameDone i y .deadlineMissed s.dev t ∧
        rfld t .medStat (i / 32) 0 0 15 0 = min 0xFFFF (rfld s.dev .medStat (i / 32) 0 0 15 0 + 1)) ∧
      ((getSess s.dev i).dec = true ∨ (y.started = true ∧ (y.coded = true ∨ (getPipe s.dev die 0).coding ≠ some i ∨ mediaBusy s.dev i y = true)) →
        Completes (.deadlinePass die k n) s fun t => LinkWork s.dev t ∧ MemSame s.dev t ∧
        (getSess t i).queue.find? (fun y => decide (y.num = n)) = some { y with late := true }) ∧
      ((getSess s.dev i).dec = false → startedFrame s.dev i = some y → y.coded = false → (getPipe s.dev die 0).coding = some i →
        mediaBusy s.dev i y = false → (∀ u l m, (getPipe s.dev die 0).work ≠ some (.dec u l m)) → Completes (.deadlinePass die k n) s fun t =>
        LinkWork s.dev t ∧ ∃ z, startedFrame t i = some z ∧ z.num = n ∧ z.late = true ∧
          (z.coded = false → ∃ f r c, (getPipe t die 0).work = some (.enc f r c) ∧ c.stage = 2))

/-- Records, acknowledgements, core resets, lane fences and halts (chapter 17, Records (R579, R582, R584, R585); chapter 17, Halts (R588); chapter 17, Lanes (R589); chapter 17, Core reset (R591, R594); chapter 18, Station (R621); chapter 04, Injection (R188); chapter 19, Self-test (R645); chapter 00, Ignored writes (R25)). ERR_ACK with an index clears VALID of a valid entry alone and changes nothing for any other; with ALL it clears every entry of the ring. ERR_CORE_RST of a core above 143, of a running core that is not fenced, while one is in progress or on a halted die is ignored and logged (kind 68); else the core's work is gone, its store reads zero and BUSY is set. CORE_RESET_DONE clears BUSY; a clean self-test unfences the core, leaves its random sources as R645 seeds and draws them and sets PASSED, another failure or two groups leave it fenced. A lane group that fails self-test is fenced at once on a free core and later on a running one, a fenced group stays, and a second one fences the core, or waits on a fenced one for its reset. LANE_CE_WINDOW_END clears the counts. HALT_ARRIVAL and HALT_ON_SILENCE fence every core of the die, take its ports down and idle its pipes; every other die keeps its cores, but for the accounts of parts with work on the halted die, its port states, pipes and sessions. STATION_FAULT leaves state FAULT with its code, records kind 34 and halts the die. CUBE_INJECT arms a cube in test state, and is ignored and logged outside it. Concludes that exec answers a next state (Completes) for: errAckIndex, errAckAll, errCoreRst, coreResetDone, haltArrival, haltOnSilence, laneGroupFence, cubeInject, laneCeWindowEnd, stationFault. -/
def Obligations.ErrorsResetsAndHalts : Prop :=
  (∀ die e s, Fits (.errAckIndex die e) s → ((ringEntry (getRing s.dev die) e).valid = false → exec (.errAckIndex die e) s = .next s) ∧
      ((ringEntry (getRing s.dev die) e).valid = true → Completes (.errAckIndex die e) s fun t =>
        { t with errs := s.dev.errs, mgmt := s.dev.mgmt } = s.dev ∧ (∀ x, x ≠ die → getRing t x = getRing s.dev x) ∧
          ∀ j, ringEntry (getRing t die) j = if j = e then { ringEntry (getRing s.dev die) e with valid := false } else ringEntry (getRing s.dev die) j)) ∧
    (∀ die s, Fits (.errAckAll die) s → Completes (.errAckAll die) s fun t => { t with errs := s.dev.errs, mgmt := s.dev.mgmt } = s.dev ∧
      (∀ x, x ≠ die → getRing t x = getRing s.dev x) ∧ ∀ j, j < 64 → ringEntry (getRing t die) j = { ringEntry (getRing s.dev die) j with valid := false }) ∧
    (∀ die (core : BitVec 8) s c, Fits (.errCoreRst die core) s → c = CoreId.mk die core.toNat →
      (144 ≤ core.toNat ∨ ((getCore s.dev c).sched = 1 ∧ (getCore s.dev c).fenced = false) ∨ rfld s.dev .errCoreRst die 0 0 9 9 = 1 ∨ halted s.dev die = true →
        Completes (.errCoreRst die core) s (Ignored die (regAddr .errCoreRst die 0 0) (core.toNat + 256) s.dev)) ∧
      (core.toNat < 144 → ((getCore s.dev c).sched ≠ 1 ∨ (getCore s.dev c).fenced = true) → rfld s.dev .errCoreRst die 0 0 9 9 = 0 → halted s.dev die = false →
        Completes (.errCoreRst die core) s fun t => (getCore t c).w = Work.empty ∧ (getCore t c).held = none ∧ (getCore t c).sched = 0 ∧
          (getCore t c).tagValid = false ∧ (getCore t c).fenced = (getCore s.dev c).fenced ∧ (∀ i, i < storeBytes → memByte t (storeKey c i) = 0) ∧
          (∀ k, k ≠ ckey c → tget Core.idle t.cores k = tget Core.idle s.dev.cores k) ∧ rfld t .errCoreRst die 0 0 9 9 = 1 ∧
          rfld t .errCoreRst die 0 0 7 0 = core.toNat)) ∧
    (∀ die f s c, Fits (.coreResetDone die f) s → rfld s.dev .errCoreRst die 0 0 9 9 = 1 → c = CoreId.mk die (rfld s.dev .errCoreRst die 0 0 7 0) →
      Completes (.coreResetDone die f) s (fun t => rfld t .errCoreRst die 0 0 9 9 = 0 ∧ MemSame s.dev t ∧
        ∀ k, k ≠ ckey c → tget Core.idle t.cores k = tget Core.idle s.dev.cores k) ∧
      (halted s.dev die = false → f.other = false → f.groups = 0 → (getCore s.dev c).laneFence = 0 → (getCore s.dev c).lanePend = 0 →
        Completes (.coreResetDone die f) s fun t => rfld t .errCoreRst die 0 0 10 10 = 1 ∧ getCore t c = { getCore s.dev c with
          fenced := false
          cause := 0
          w := { (getCore s.dev c).w with rng := (getCore t c).w.rng } } ∧
          ∀ l, l < 64 → tget 0 (getCore t c).w.rng l = jump (l * 2 ^ 44 + 64) 1) ∧
      (halted s.dev die = false → (f.other = true ∨ ∃ g h, g < h ∧ f.groups.getLsbD g = true ∧ f.groups.getLsbD h = true) →
        Completes (.coreResetDone die f) s fun t => (getCore t c).fenced = true ∧ (getCore t c).cause = 3 ∧ (getCore t c).w = { (getCore s.dev c).w with rng := (getCore t c).w.rng })) ∧
    (∀ c g slot s b have', Fits (.laneGroupFence c g 1 slot) s → b = BitVec.ofNat 4 (2 ^ g) → have' = (getCore s.dev c).laneFence ||| (getCore s.dev c).lanePend →
      (have' &&& b ≠ 0 → exec (.laneGroupFence c g 1 slot) s = .next s) ∧
      (have' = 0 → (getCore s.dev c).sched = 0 → (getCore s.dev c).fenced = false → Completes (.laneGroupFence c g 1 slot) s fun t =>
        getCore t c = { getCore s.dev c with laneFence := b } ∧ NotesOnly { s.dev with cores := t.cores } t) ∧
      (have' = 0 → ((getCore s.dev c).sched ≠ 0 ∨ (getCore s.dev c).fenced = true) → Completes (.laneGroupFence c g 1 slot) s fun t =>
        getCore t c = { getCore s.dev c with lanePend := b } ∧ NotesOnly { s.dev with cores := t.cores } t) ∧
      (have' ≠ 0 → have' &&& b = 0 → (getCore s.dev c).fenced = false → Completes (.laneGroupFence c g 1 slot) s (Fenced c 3 s.dev)) ∧
      (have' ≠ 0 → have' &&& b = 0 → (getCore s.dev c).fenced = true → Completes (.laneGroupFence c g 1 slot) s fun t =>
        getCore t c = { getCore s.dev c with lanePend := (getCore s.dev c).lanePend ||| b } ∧ NotesOnly { s.dev with cores := t.cores } t)) ∧
    (∀ c g slot s, Fits (.laneGroupFence c g 3 slot) s → tget 0 (getCore s.dev c).laneCe g + 1 < rfld s.dev .errCtl c.die 0 0 15 8 →
      Completes (.laneGroupFence c g 3 slot) s fun t => OnlyCore c s.dev t ∧ tget 0 (getCore t c).laneCe g = tget 0 (getCore s.dev c).laneCe g + 1) ∧
    (∀ c s w, Fits (.laneCeWindowEnd c) s → c.wf = true → c.die < s.dev.part.dies → w = rfld s.dev .errCtl c.die 0 0 23 16 * 2 ^ 20 → w ≠ 0 →
      s.dev.tick % w = 0 → Completes (.laneCeWindowEnd c) s fun t => OnlyCore c s.dev t ∧ getCore t c = { getCore s.dev c with laneCe := [] }) ∧
    (∀ die s, Fits (.haltArrival die) s → halted s.dev die = false → (∃ x, x < s.dev.part.dies ∧ halted s.dev x = true) →
      Completes (.haltArrival die) s (HaltedDie die s.dev)) ∧
    (∀ die s, Fits (.haltOnSilence die) s → halted s.dev die = false → Completes (.haltOnSilence die) s (HaltedDie die s.dev)) ∧
    (∀ die code s, Fits (.stationFault die code) s → die < s.dev.part.dies → Completes (.stationFault die code) s fun t => halted t die = true ∧
      rfld t .abwStation die 0 0 2 0 = 4 ∧ rfld t .abwStation die 0 0 15 8 = code.toNat ∧
      ∀ e, (∀ j, j < 64 → ¬((ringEntry (getRing s.dev die) j).valid = true ∧ (ringEntry (getRing s.dev die) j).kind = 34)) →
        findEntry (getRing s.dev die) (fun y => !y.valid) = some e → (ringEntry (getRing t die) e).valid = true ∧
          (ringEntry (getRing t die) e).kind = 34 ∧ (ringEntry (getRing t die) e).sev = 3 ∧ (ringEntry (getRing t die) e).src = 190) ∧
    ∀ c u again s, Fits (.cubeInject c u again) s → (rfld s.dev .abwStation c.die 0 0 3 3 = 1 → Completes (.cubeInject c u again) s fun t => OnlyCore c s.dev t ∧
        getCube t c u = { getCube s.dev c u with
          inject := true
          injectAgain := again }) ∧
      (rfld s.dev .abwStation c.die 0 0 3 3 ≠ 1 → Completes (.cubeInject c u again) s
        (Ignored c.die (regAddr .cubeCtl c.die c.core u) (1 + 2 * b2n again) s.dev))

/-- Management requests answer from registers, change what they name and refuse what they may not do (chapter 18, Firmware (R604); chapter 18, Measurements (R605); chapter 18, Reports (R606, R607, R608, R609); chapter 18, Test state (R610); chapter 18, Power (R611, R612, R613); chapter 18, Commands (R614, R616, R617, R623, R628); chapter 20, Temperatures (R679); log 17 (DESIGN CHOICE); log 111 (DEDUCED); log 112 (DEDUCED); log 113 (DEDUCED); log 116 (DEDUCED)). To a target that is addressed (R614), GET_IDENT, GET_TELEMETRY, GET_ERRORS and READ_REPORT change the answer alone (and a first legacy transfer the SMBus mode), and their data are the registers or report bytes that R616 lists. Before package ready, READ_REPORT, ATTEST, EXTEND and SVN_COMMIT answer NOT_READY. ATTEST and ABW_REQ OP 1 begin a report over the nonce, or answer that one is being signed (log 111); REPORT_SIGNED keeps it or writes it. EXTEND and ABW_REQ OP 2 extend M4 to M7 by the digest and refuse M0 to M3. SET_LIMIT waits for the next tick within 40% to 100% of the rating; outside it is refused and logged (log 113). GET_CHALLENGE gives a fresh challenge, UNLOCK_DATA stores bytes, UNLOCK_GO without a challenge or on a halted package is refused and with a good key and signature sets test state on every die and extends M2 (its record by log 112); it uses the challenge up. SVN_COMMIT between die 0's count and the running SVN raises every die's count to it (shown by log 116), and refuses any other. CAP_LEVEL follows the measured power once in its tick and caps every cube, those of saved images too; HOT takes the reading, which raises PEAK_C; CLUSTERS takes 1 to 12 where no owned cluster is disabled, and else is ignored and logged. Concludes that exec answers a next state (Completes) for: abwReqAttest, abwReqExtend, reportSigned, getIdent, getTelemetry, getErrors, attest, readReport, extend, setLimit, getChallenge, unlockData, unlockGo, svnCommit, powerCapCompare, tempRefresh, envelopeClustersWrite. -/
def Obligations.StationAndManagement : Prop :=
  (∀ s, Fits .getIdent s → Addressed s.dev → Completes .getIdent s fun t => { t with mgmt := s.dev.mgmt } = s.dev ∧ t.mgmt.status = 0 ∧
      t.mgmt.smbus = (s.dev.mgmt.smbus || (s.dev.mgmt.dyn.isNone && !s.dev.mgmt.broadcast)) ∧
      t.mgmt.data = [RegName.abwId, .abwSerial, .abwFeatures, .abwPlumbSig, .abwFw, .abwEnvelope].flatMap fun n => leBytes 8 (regView s.dev n 0 0 0).toNat) ∧
    (∀ s, Fits .getTelemetry s → Addressed s.dev → Completes .getTelemetry s fun t => { t with mgmt := s.dev.mgmt } = s.dev ∧ t.mgmt.status = 0 ∧
      t.mgmt.data.length = 24 ∧ t.mgmt.data.take 8 = leBytes 8 (regView s.dev .abwPower 0 0 0).toNat ∧
      ∀ die, die < s.dev.part.dies → die < 8 → (t.mgmt.data.getD (16 + die) 0).toNat = rfld s.dev .abwTemp die 0 0 7 0) ∧
    (∀ s, Fits .getErrors s → Addressed s.dev → Completes .getErrors s fun t => { t with mgmt := s.dev.mgmt } = s.dev ∧ t.mgmt.status = 0 ∧
      ∀ die, die < s.dev.part.dies → die < 8 → (t.mgmt.data.drop (8 * die)).take 8 = leBytes 8 (regView s.dev .errStat die 0 0).toNat) ∧
    (∀ i s, (∃ a b c d, i ∈ [Instr.readReport a b, .attest c, .extend d c, .svnCommit (a.setWidth 16)]) → Fits i s → Addressed s.dev → pkgReady s.dev = false →
      Completes i s fun t => { t with mgmt := s.dev.mgmt } = s.dev ∧ t.mgmt.status = 4 ∧ t.mgmt.data = []) ∧
    (∀ off len s, Fits (.readReport off len) s → Addressed s.dev → pkgReady s.dev = true → s.dev.station.report ≠ [] →
      (len.toNat ≤ 240 → off.toNat + len.toNat ≤ 17504 → Completes (.readReport off len) s fun t => { t with mgmt := s.dev.mgmt } = s.dev ∧ t.mgmt.status = 0 ∧
        t.mgmt.data = (s.dev.station.report.drop off.toNat).take len.toNat) ∧
      (240 < len.toNat ∨ 17504 < off.toNat + len.toNat → Completes (.readReport off len) s fun t => { t with mgmt := s.dev.mgmt } = s.dev ∧ t.mgmt.status = 3)) ∧
    (∀ n s, Fits (.attest n) s → Addressed s.dev → pkgReady s.dev = true →
      (s.dev.station.signing = none → Completes (.attest n) s fun t => { t with mgmt := s.dev.mgmt, station := s.dev.station } = s.dev ∧ t.mgmt.status = 0 ∧
        t.station = { s.dev.station with signing := some ⟨reportBody s.dev (bytes256 n), none⟩ }) ∧
      (s.dev.station.signing ≠ none → Completes (.attest n) s fun t => { t with mgmt := s.dev.mgmt } = s.dev ∧ t.mgmt.status = 1)) ∧
    (∀ a s e b, Fits (.abwReqAttest a) s → pkgReady s.dev = true → reqAddr s.dev a 17504 = true → devReadAll s.dev (a + 0x40) 32 = (e, .ok b) →
      (s.dev.station.signing = none → Completes (.abwReqAttest a) s fun t => MemSame s.dev t ∧ rfld t .abwReqStat 0 0 0 1 0 = 1 ∧
        t.station = { s.dev.station with signing := some ⟨reportBody e b, some a⟩ }) ∧
      (s.dev.station.signing ≠ none → Completes (.abwReqAttest a) s fun t => { t with regs := s.dev.regs } = s.dev ∧
        rfld t .abwReqStat 0 0 0 15 8 = FaultCode.slotBusy.num)) ∧
    (∀ s g, Fits .reportSigned s → s.dev.station.signing = some g →
      (g.addr = none → Completes .reportSigned s fun t => { t with station := s.dev.station, free := s.dev.free } = s.dev ∧
        ∃ rnd, rnd.length = 16 ∧ t.station = { s.dev.station with
          signing := none
          report := report s.dev g.body rnd }) ∧
      (∀ a, g.addr = some a → Completes .reportSigned s fun t => (∃ rnd, rnd.length = 16 ∧ MemSame (devWriteAll s.dev a (report s.dev g.body rnd)).1 t) ∧
        t.station = { s.dev.station with signing := none } ∧ rfld t .abwReqStat 0 0 0 1 0 = 2)) ∧
    (∀ k x s, Fits (.extend k x) s → Addressed s.dev → pkgReady s.dev = true →
      (4 ≤ k.toNat → k.toNat < 8 → Completes (.extend k x) s fun t => { t with mgmt := s.dev.mgmt, meas := s.dev.meas } = s.dev ∧ t.mgmt.status = 0 ∧
        ∀ i, getMeas t i = if i = k.toNat then sha256 (getMeas s.dev i ++ bytes256 x) else getMeas s.dev i) ∧
      (k.toNat < 4 ∨ 8 ≤ k.toNat → Completes (.extend k x) s fun t => { t with mgmt := s.dev.mgmt } = s.dev ∧ t.mgmt.status = 3)) ∧
    (∀ a k s e b, Fits (.abwReqExtend a k) s → pkgReady s.dev = true →
      (4 ≤ k.toNat → reqAddr s.dev a 32 = true → devReadAll s.dev a 32 = (e, .ok b) → Completes (.abwReqExtend a k) s fun t => MemSame s.dev t ∧
        rfld t .abwReqStat 0 0 0 15 8 = 0 ∧ ∀ i, getMeas t i = if i = k.toNat then sha256 (getMeas s.dev i ++ b) else getMeas s.dev i) ∧
      (k.toNat < 4 → Completes (.abwReqExtend a k) s fun t => { t with regs := s.dev.regs } = s.dev ∧ rfld t .abwReqStat 0 0 0 15 8 = FaultCode.badDescriptor.num)) ∧
    (∀ w s, Fits (.setLimit w) s → Addressed s.dev →
      (limitOk s.dev w.toNat = true → Completes (.setLimit w) s fun t => { t with mgmt := s.dev.mgmt, live := s.dev.live } = s.dev ∧ t.mgmt.status = 0 ∧
        t.live = s.dev.live ++ [⟨regKey .abwEnvelope 0 0 0, setFld 0 27 16 0xFFF, setFld 0 27 16 w.toNat, s.dev.tick + 1⟩]) ∧
      (limitOk s.dev w.toNat = false → Completes (.setLimit w) s fun t =>
        Ignored 0 (regAddr .abwEnvelope 0 0 0) (w.toNat * 2 ^ 16) s.dev t ∧ t.mgmt.status = 3)) ∧
    (∀ s, Fits .getChallenge s → Addressed s.dev → Completes .getChallenge s fun t =>
      { t with mgmt := s.dev.mgmt, station := s.dev.station, free := s.dev.free } = s.dev ∧ t.mgmt.status = 0 ∧ t.mgmt.data.length = 32 ∧
        t.station = { s.dev.station with challenge := some t.mgmt.data }) ∧
    (∀ off b s, Fits (.unlockData off b) s → Addressed s.dev → b.length ≤ 238 → off.toNat + b.length ≤ unlockSize →
      Completes (.unlockData off b) s fun t => { t with mgmt := s.dev.mgmt, station := s.dev.station } = s.dev ∧ t.mgmt.status = 0 ∧
        (∀ i, i < b.length → tget 0 t.station.unlock (off.toNat + i) = b.getD i 0) ∧ t.station.challenge = s.dev.station.challenge ∧
        t.station.signing = s.dev.station.signing ∧ t.station.report = s.dev.station.report) ∧
    (∀ s, Fits .unlockGo s → Addressed s.dev → (∀ die, die < s.dev.part.dies → halted s.dev die = false) →
      (s.dev.station.challenge = none → Completes .unlockGo s fun t => { t with mgmt := s.dev.mgmt } = s.dev ∧ t.mgmt.status = 5) ∧
      ∀ ch b, s.dev.station.challenge = some ch → b = (List.range unlockSize).map (tget 0 s.dev.station.unlock) →
        sha256 (b.take 32) = bytes256 (Config.dbgPkh 0) → slhVerify slh128s (b.take 32) (ch ++ leBytes 8 (Config.serial 0).toNat) (b.drop 32) = true →
        Completes .unlockGo s fun t => t.mgmt.status = 0 ∧ t.station.challenge = none ∧ MemSame s.dev t ∧ t.cores = s.dev.cores ∧
          (∀ die, die < s.dev.part.dies → rfld t .abwStation die 0 0 3 3 = 1) ∧
          getMeas t 2 = sha256 (getMeas s.dev 2 ++ sha256 (leBytes 4 1 ++ leBytes 4 1 ++ leBytes 8 s.dev.tick))) ∧
    (∀ s, Fits .unlockGo s → Addressed s.dev → (∃ die, die < s.dev.part.dies ∧ halted s.dev die = true) →
      Completes .unlockGo s fun t => { t with mgmt := s.dev.mgmt, station := s.dev.station } = s.dev ∧ t.mgmt.status = 5 ∧
        t.station = { s.dev.station with challenge := none }) ∧
    (∀ v s, Fits (.svnCommit v) s → Addressed s.dev → pkgReady s.dev = true →
      (v.toNat ≤ runningSvn s.dev → svnMin s.dev 0 ≤ v.toNat → Completes (.svnCommit v) s fun t => t.mgmt.status = 0 ∧ t.cores = s.dev.cores ∧ MemSame s.dev t ∧
        (∀ die, die < s.dev.part.dies → rfld t .abwFw die 0 0 63 48 = max (svnMin s.dev die) v.toNat) ∧
        getMeas t 2 = sha256 (getMeas s.dev 2 ++ sha256 (leBytes 4 2 ++ leBytes 4 v.toNat ++ leBytes 8 s.dev.tick))) ∧
      (runningSvn s.dev < v.toNat ∨ v.toNat < svnMin s.dev 0 → Completes (.svnCommit v) s fun t => { t with mgmt := s.dev.mgmt } = s.dev ∧ t.mgmt.status = 5)) ∧
    (∀ (w : BitVec 16) s limit cap new, Fits (.powerCapCompare w) s → stationUp s.dev = true → s.dev.tick % 1024 = 0 → s.dev.pkg.capTick ≠ some s.dev.tick → limit = rfld s.dev .abwEnvelope 0 0 0 27 16 →
      cap = rfld s.dev .abwEnvelope 0 0 0 35 32 →
      new = (if limit < w.toNat then max 2 (cap - 1) else if 100 * w.toNat < 95 * limit then min 8 (cap + 1) else cap) → Completes (.powerCapCompare w) s fun t =>
        rfld t .abwEnvelope 0 0 0 35 32 = new ∧ rfld t .abwPower 0 0 0 15 0 = w.toNat ∧ MemSame s.dev t ∧
          { t with pkg := s.dev.pkg }.beyondCores = s.dev.beyondCores ∧ t.pkg = { s.dev.pkg with capTick := some s.dev.tick } ∧
          (∀ c u, (getCube t c u).level ≤ new) ∧ ∀ c h u, (getCore t c).held = some h → (tget Cube.empty h.w.cubes u).level ≤ new) ∧
    (∀ die hot s, Fits (.tempRefresh die hot) s → die < s.dev.part.dies → stationUp s.dev = true → s.dev.tick % 1024 = 0 → Completes (.tempRefresh die hot) s fun t =>
      NotesOnly s.dev t ∧ rfld t .abwTemp die 0 0 7 0 = hot.toNat ∧ rfld t .pkgTrip die 0 0 23 16 =
        if (BitVec.ofNat 8 (rfld s.dev .pkgTrip die 0 0 23 16)).toInt < hot.toInt then hot.toNat else rfld s.dev .pkgTrip die 0 0 23 16) ∧
    ∀ v s, Fits (.envelopeClustersWrite v) s →
      (v.toNat ≠ 0 → v.toNat ≤ 12 → (∀ die k, die < s.dev.part.dies → v.toNat ≤ k → k < 12 → clusterOwned s.dev die k = false) →
        Completes (.envelopeClustersWrite v) s fun t => { t with regs := s.dev.regs } = s.dev ∧ rfld t .abwEnvelope 0 0 0 3 0 = v.toNat) ∧
      (v.toNat = 0 ∨ 12 < v.toNat ∨ (∃ die k, die < s.dev.part.dies ∧ v.toNat ≤ k ∧ k < 12 ∧ clusterOwned s.dev die k = true) →
        Completes (.envelopeClustersWrite v) s fun t =>
          Ignored 0 (regAddr .abwEnvelope 0 0 0) v.toNat s.dev t ∧ rfld t .abwEnvelope 0 0 0 3 0 = rfld s.dev .abwEnvelope 0 0 0 3 0)

/-- The I3C target keeps its address, its interrupt enable and its lengths (chapter 18, Target (R614, R615); log 17 (DESIGN CHOICE); log 118 (DEDUCED); log 119 (DESIGN CHOICE)). With the station up and the target not in SMBus mode: ENEC and DISEC with bit 0 enable and disable in-band interrupts, RSTDAA gives up the dynamic address, ENTDAA and a SETDASA that names the static address 0b101_10xx give one to a target that has none, SETMWL and SETMRL set the lengths, and GETPID, GETBCR, GETDCR, GETSTATUS, GETMWL and GETMRL of a target with a dynamic address answer six, one, one, two, two and two bytes. Each marks the broadcast address as seen and changes nothing else. SMBUS_MODE_ENTRY before it has been seen puts the target in SMBus mode. (What a target without a dynamic address or in SMBus mode does with a common command code follows log 118; which bytes GETSTATUS (log 119), GETBCR and GETDCR (log 17) answer is left to the named standard and is not stated; GETPID's value is derived by an open function, log 17.) Concludes that exec answers a next state (Completes) for: enec, disec, rstdaa, entdaa, setdasa, getpid, getbcr, getdcr, getstatus, getmwl, getmrl, setmwl, setmrl, smbusModeEntry. -/
def Obligations.I3cTarget : Prop :=
  (∀ e s, Fits (.enec e) s → stationUp s.dev = true → s.dev.mgmt.smbus = false → Completes (.enec e) s fun t => t = { s.dev with mgmt := { s.dev.mgmt with
        broadcast := true
        ibi := s.dev.mgmt.ibi || e.getLsbD 0 } }) ∧
    (∀ e s, Fits (.disec e) s → stationUp s.dev = true → s.dev.mgmt.smbus = false → Completes (.disec e) s fun t => t = { s.dev with mgmt := { s.dev.mgmt with
        broadcast := true
        ibi := s.dev.mgmt.ibi && !e.getLsbD 0 } }) ∧
    (∀ s, Fits .rstdaa s → stationUp s.dev = true → s.dev.mgmt.smbus = false → Completes .rstdaa s fun t => t = { s.dev with mgmt := { s.dev.mgmt with
        broadcast := true
        dyn := none } }) ∧
    (∀ a s, Fits (.entdaa a) s → stationUp s.dev = true → s.dev.mgmt.smbus = false → Completes (.entdaa a) s fun t => t = { s.dev with mgmt := { s.dev.mgmt with
        broadcast := true
        dyn := if s.dev.mgmt.dyn = none then some a else s.dev.mgmt.dyn } }) ∧
    (∀ x a s, Fits (.setdasa x a) s → stationUp s.dev = true → s.dev.mgmt.smbus = false → Completes (.setdasa x a) s fun t => t = { s.dev with mgmt := { s.dev.mgmt with
        broadcast := true
        dyn := if s.dev.mgmt.dyn = none ∧ x.toNat = 0x58 + s.dev.pkg.maddr.toNat then some a else s.dev.mgmt.dyn } }) ∧
    (∀ v s, Fits (.setmwl v) s → stationUp s.dev = true → s.dev.mgmt.smbus = false → Completes (.setmwl v) s fun t => t = { s.dev with mgmt := { s.dev.mgmt with
        broadcast := true
        mwl := v } }) ∧
    (∀ v s, Fits (.setmrl v) s → stationUp s.dev = true → s.dev.mgmt.smbus = false → Completes (.setmrl v) s fun t => t = { s.dev with mgmt := { s.dev.mgmt with
        broadcast := true
        mrl := v } }) ∧
    (∀ i n s, (i, n) ∈ [(Instr.getpid, 6), (.getbcr, 1), (.getdcr, 1), (.getstatus, 2), (.getmwl, 2), (.getmrl, 2)] → Fits i s → stationUp s.dev = true →
      s.dev.mgmt.smbus = false → (s.dev.mgmt.dyn = none → Completes i s fun t => t = { s.dev with mgmt := { s.dev.mgmt with broadcast := true } }) ∧
      (s.dev.mgmt.dyn ≠ none → Completes i s fun t => { t with mgmt := s.dev.mgmt, free := s.dev.free } = s.dev ∧ t.mgmt = { s.dev.mgmt with
          broadcast := true
          status := 0
          data := t.mgmt.data } ∧ t.mgmt.data.length = n ∧ (i = .getmwl → t.mgmt.data = (leBytes 2 s.dev.mgmt.mwl.toNat).reverse) ∧
        (i = .getmrl → t.mgmt.data = (leBytes 2 s.dev.mgmt.mrl.toNat).reverse) ∧ (i = .getpid → (t.mgmt.data.getD 1 0).getLsbD 0 = true))) ∧
    ∀ s, Fits .smbusModeEntry s → stationUp s.dev = true → s.dev.mgmt.broadcast = false → Completes .smbusModeEntry s fun t =>
      t = { s.dev with mgmt := { s.dev.mgmt with smbus := true } }

/-- Dies lock, announce, load verified firmware, train and test before the package is ready (chapter 19, Release (R630, R631, R632, R633, R634, R635); chapter 19, Firmware (R636, R637, R638, R639); chapter 18, Firmware (R602, R603); chapter 19, Training (R640, R641, R642, R643); chapter 19, Self-test (R645, R646, R647); chapter 19, Ready (R648, R649, R650, R654); chapter 12, UCIe (R407, R410, R436); chapter 20, Clocks (R670); log 121 (DEDUCED); log 125 (DEDUCED); log 129 (DEDUCED); log 197 (DEDUCED)). RESET_RELEASE releases the dies. ROOT_PLL_LOCK with odd parity and a position within the part takes the position, else the die fails with STRAP, as does a POSITION_EXCHANGE that R407 does not give. ANNOUNCE and PROGRESS send their messages, which arrive where every die on the route forwards (log 197). On a package without a halt: FW_BEGIN makes the named waiting stations that it reaches LOADING. FW_DATA at the expected offset appends, at any other refuses the image with CODE 1. FW_END of a short image refuses it with 1, of a body with another digest with 5, else the station runs with the image's version and SVN and its HBM PLL has locked; die 0 then extends M0 (once, log 129). MESH_WAVE_START trains the links of the next wave, MESH_LINK_TRAINED brings both ends UP or FAILED. HBM_TRAINING_DONE leaves the good channels live with memory zero and fails a die with fewer than 16. SELF_TEST_DONE fences the cores that fail, counts the cores and lane groups that it fences, and leaves the others with sources seeded and drawn as R645 says. TICK_ALIGN sets the tick to 0, from which waiting RW-L writes count. DIE_SILENCE makes a die MISSING, or UNREACHED behind a silent parent. ABW_TRI with READY is accepted under the conditions of R649 and R650 alone, else ignored and logged; a die that fails in the same tick takes it back (R654). After package ready UCIe replays and retrains are counted, and a retrain ends UP, or FAILED with a halt. Concludes that exec answers a next state (Completes) for: ucieFlitReplay, ucieRetrain, resetRelease, rootPllLock, positionExchange, announce, progress, fwBegin, fwData, fwEnd, meshWaveStart, meshLinkTrained, hbmTrainingDone, selfTestDone, tickAlign, dieSilence, abwTriReady, ucieRetrainDone. -/
def Obligations.StartUp : Prop :=
  (∀ s, Fits .resetRelease s → s.dev.pkg.pwrgd = true → s.dev.pkg.reset = false → s.dev.pkg.released = false → Completes .resetRelease s fun t =>
      t = { s.dev with pkg := { s.dev.pkg with
        released := true
        releasedAt := s.dev.tick
        elapsed := 0 } }) ∧
    (∀ die (x : BitVec 3) y s ones, Fits (.rootPllLock die x y) s → die < 8 → die < s.dev.part.dies → s.dev.pkg.released = true → (getBoot s.dev die).locked = false →
      ones = b2n (x.getLsbD 0) + b2n (x.getLsbD 1) + b2n (x.getLsbD 2) + b2n y → NotJustReady s.dev → Completes (.rootPllLock die x y) s fun t => BootOnly s.dev t ∧
        (getBoot t die).locked = true ∧ rfld t .abwId die 0 0 18 16 = x.toNat ∧
        (ones % 2 = 1 → x.toNat < s.dev.part.dies → bootPhase t die = bootPhase s.dev die) ∧
        (ones % 2 = 0 ∨ s.dev.part.dies ≤ x.toNat → bootPhase s.dev die ≠ 4 → bootPhase t die = 4 ∧ bootFail t die = 1)) ∧
    (∀ die m p s, Fits (.positionExchange die m p) s → die < 8 → m < 4 → die < s.dev.part.dies → (getBoot s.dev die).locked = true →
      NotJustReady s.dev → Completes (.positionExchange die m p) s fun t => BootOnly s.dev t ∧ rfld t .uciLink die 0 m 5 5 = (if p = none then 1 else 0) ∧
        (facing s.dev.part.dies (rfld s.dev .abwId die 0 0 18 16) m = p.elim Facing.command Facing.die → bootPhase t die = bootPhase s.dev die) ∧
        (facing s.dev.part.dies (rfld s.dev .abwId die 0 0 18 16) m ≠ p.elim Facing.command Facing.die → bootPhase s.dev die ≠ 4 →
          bootPhase t die = 4 ∧ bootFail t die = 1)) ∧
    (∀ die m p s old, Fits (.positionExchange die m p) s → die < 8 → m < 4 → die < s.dev.part.dies → (getBoot s.dev die).locked = true →
      facing s.dev.part.dies (rfld s.dev .abwId die 0 0 18 16) m ≠ p.elim Facing.command Facing.die → bootPhase s.dev die ≠ 4 →
      s.dev.pkg.readyAt = some (s.dev.tick, old) → Completes (.positionExchange die m p) s fun t => bootPhase t die = 4 ∧ bootFail t die = 1 ∧
        regGet t .abwTri 0 0 0 = old ∧ Logged 0 ⟨191, 68, .none, .info, 0, [regAddr .abwTri 0 0 0, rfld s.dev .abwTri 0 0 0 24 0]⟩ s.dev t) ∧
    (∀ die s, Fits (.announce die) s → die < 8 → die < s.dev.part.dies → (getBoot s.dev die).locked = true → (getBoot s.dev die).announced = false →
      Completes (.announce die) s fun t => BootOnly s.dev t ∧ (getBoot t die).announced = true ∧ t.regs = s.dev.regs ∧
        (reaches s.dev die = true → ∃ w, t.pkg.messages = w :: s.dev.pkg.messages ∧ fld w 7 0 = 1 ∧ fld w 15 8 = die) ∧
        (reaches s.dev die = false → t.pkg = s.dev.pkg)) ∧
    (∀ die s, Fits (.progress die) s → die < 8 → die < s.dev.part.dies → (getBoot s.dev die).announced = true → pkgReady s.dev = false →
      Completes (.progress die) s fun t => BootOnly s.dev t ∧ t.regs = s.dev.regs ∧ (reaches s.dev die = false → t = s.dev) ∧
        (reaches s.dev die = true → ∃ w, t.pkg.messages = w :: s.dev.pkg.messages ∧ fld w 7 0 = 2 ∧ fld w 15 8 = die ∧
          fld w 19 16 = bootPhase s.dev die ∧ fld w 23 20 = bootFail s.dev die)) ∧
    (∀ mask n s, Fits (.fwBegin mask n) s → s.dev.pkg.released = true → triHalted s.dev = false → s.dev.part.dies ≤ 8 → Completes (.fwBegin mask n) s fun t => BootOnly s.dev t ∧
      ∀ x, x < s.dev.part.dies →
        (mask.getLsbD x = true → stationState s.dev x = 0 ∨ stationState s.dev x = 3 → bootPhase s.dev x ≠ 4 → s.dev.pkg.tmode = false →
          (getBoot s.dev x).locked = true → reaches s.dev x = true → stationState t x = 1 ∧ bootPhase t x = 1 ∧ (getBoot t x).fwSize = some n ∧ (getBoot t x).fw = []) ∧
        (mask.getLsbD x = false ∨ reaches s.dev x = false → stationState t x = stationState s.dev x ∧ getBoot t x = getBoot s.dev x)) ∧
    (∀ off b s, Fits (.fwData off b) s → s.dev.pkg.released = true → triHalted s.dev = false → b.length = 64 → off % 64 = 0 → s.dev.part.dies ≤ 8 → Completes (.fwData off b) s fun t =>
      BootOnly s.dev t ∧ ∀ x n, x < s.dev.part.dies → (getBoot s.dev x).fwSize = some n → bootPhase s.dev x ≠ 4 → reaches s.dev x = true →
        (off ≠ (getBoot s.dev x).fw.length → stationState t x = 3 ∧ rfld t .abwStation x 0 0 15 8 = 1 ∧ bootPhase t x = 0 ∧ (getBoot t x).fwSize = none) ∧
        (off = (getBoot s.dev x).fw.length → off + 64 < fwBodyOff ∨ fwBodyOff ≤ off → (getBoot t x).fw = (getBoot s.dev x).fw ++ b ∧ (getBoot t x).fwSize = some n ∧
          stationState t x = stationState s.dev x)) ∧
    (∀ s, Fits .fwEnd s → s.dev.pkg.released = true → triHalted s.dev = false → s.dev.part.dies ≤ 8 → Completes .fwEnd s fun t => t.cores = s.dev.cores ∧ MemSame s.dev t ∧
      ∀ x n fw body, x < s.dev.part.dies → (getBoot s.dev x).fwSize = some n → bootPhase s.dev x ≠ 4 → reaches s.dev x = true → fw = (getBoot s.dev x).fw → body = (fw.drop fwBodyOff).take (bytesNat fw 0x10 4) →
        (fw.length < n ∨ fw.length < fwBodyOff → stationState t x = 3 ∧ rfld t .abwStation x 0 0 15 8 = 1) ∧
        (n ≤ fw.length → fwBodyOff ≤ fw.length → sha256 body ≠ (fw.drop 0x20).take 32 → stationState t x = 3 ∧ rfld t .abwStation x 0 0 15 8 = 5) ∧
        (n ≤ fw.length → fwBodyOff ≤ fw.length → sha256 body = (fw.drop 0x20).take 32 → stationState t x = 2 ∧ rfld t .abwFw x 0 0 31 0 = bytesNat fw 8 4 ∧
          rfld t .abwFw x 0 0 47 32 = bytesNat fw 0x0C 2 ∧ (getBoot t x).digest = sha256 (fw.take 0x80) ∧ rfld t .pkgClk x 0 0 1 1 = 1 ∧
          (x = 0 → getMeas t 0 = sha256 (getMeas s.dev 0 ++ sha256 (fw.take 0x80))))) ∧
    (∀ w s, Fits (.meshWaveStart w) s → w < 16 → s.dev.pkg.released = true → triHalted s.dev = false → w = s.dev.pkg.wave + 1 → w ≤ waveCount s.dev.part.dies →
      waveEnded s.dev s.dev.pkg.wave = true → (∀ l ∈ waveLinks s.dev w, stationRuns s.dev l.1 = true) → Completes (.meshWaveStart w) s fun t =>
        { t with regs := s.dev.regs, pkg := s.dev.pkg } = s.dev ∧ t.pkg = { s.dev.pkg with wave := w } ∧ ∀ l ∈ waveLinks s.dev w, uciState t l.1 l.2 = 1) ∧
    (∀ die m ok mode half rep s, Fits (.meshLinkTrained die m ok mode half rep) s → die < 8 → m < 4 → die < s.dev.part.dies → uciState s.dev die m = 1 →
      NotJustReady s.dev → Completes (.meshLinkTrained die m ok mode half rep) s fun t => BootOnly s.dev t ∧ uciState t die m = (if ok = true then 2 else 4) ∧
        (∀ y, facing s.dev.part.dies die m = .die y → uciState t y (farModule m) = if ok = true then 2 else 4) ∧
        (ok = false → bootPhase s.dev die ≠ 4 → bootPhase t die = 4 ∧ bootFail t die = 4)) ∧
    (∀ die f s, Fits (.hbmTrainingDone die f) s → die < 8 → die < s.dev.part.dies → stationRuns s.dev die = true → (getBoot s.dev die).hbm = false → triHalted s.dev = false →
      Completes (.hbmTrainingDone die f) s fun t => t.cores = s.dev.cores ∧ (getBoot t die).hbm = true ∧
        (∀ c, c < 32 → chanFld t die c 0 0 = if f.getLsbD c = true then 0 else 1) ∧ (∀ i, i < 32 * 2 ^ 32 → memByte t (hbmKey die 0 0 + i) = 0) ∧
        rfld t .abwBoot die 0 0 13 8 = (liveList t die).length ∧
        ((liveList t die).length < 16 → bootPhase s.dev die ≠ 4 → bootPhase t die = 4 ∧ bootFail t die = 3)) ∧
    (∀ die l s, Fits (.selfTestDone die l) s → die < 8 → die < s.dev.part.dies → stationRuns s.dev die = true → (getBoot s.dev die).tested = false →
      triHalted s.dev = false → tripped s.dev die = false →
      Completes (.selfTestDone die l) s fun t => MemSame s.dev t ∧ (getBoot t die).tested = true ∧
        (∀ c p, c < 144 → l.find? (fun p => decide (p.1 = c)) = some p → p.2.other = true → (getCore t ⟨die, c⟩).fenced = true ∧ (getCore t ⟨die, c⟩).cause = 3) ∧
        (∀ c, c < 144 → l.find? (fun p => decide (p.1 = c)) = none → getCore t ⟨die, c⟩ = { getCore s.dev ⟨die, c⟩ with
          w := { (getCore s.dev ⟨die, c⟩).w with rng := (getCore t ⟨die, c⟩).w.rng } } ∧
          ∀ k, k < 64 → tget 0 (getCore t ⟨die, c⟩).w.rng k = jump (k * 2 ^ 44 + 64) 1) ∧
        rfld t .abwBoot die 0 0 31 24 = ((coresOf die).filter fun c => (l.any fun p => decide (p.1 = c.core)) && (getCore t c).fenced).length ∧
        rfld t .abwBoot die 0 0 39 32 = ((coresOf die).filter fun c => decide ((getCore t c).laneFence ≠ (getCore s.dev c).laneFence)).length) ∧
    (∀ s, Fits .tickAlign s → s.dev.pkg.aligned = false → s.dev.pkg.wave = waveCount s.dev.part.dies → waveEnded s.dev s.dev.pkg.wave = true →
      triHalted s.dev = false → Completes .tickAlign s fun t => { t with tick := s.dev.tick, pkg := s.dev.pkg, live := s.dev.live } = s.dev ∧ t.tick = 0 ∧
        t.pkg.aligned = true ∧ t.live = s.dev.live.map fun e => { e with since := 0 }) ∧
    (∀ die s, Fits (.dieSilence die) s → die < 8 → die < s.dev.part.dies → s.dev.pkg.released = true → pkgReady s.dev = false → silent s.dev die = false →
      silenceTicks ≤ sinceRelease s.dev - (getBoot s.dev die).heard → Completes (.dieSilence die) s fun t => BootOnly s.dev t ∧ silent t die = true ∧
        (∀ y, parent s.dev.part.dies die = some y → (silent s.dev y = false → missing t die = true ∧ unreached t die = false) ∧
          (silent s.dev y = true → missing t die = false ∧ unreached t die = true)) ∧
        (parent s.dev.part.dies die = none → missing t die = true ∧ unreached t die = false)) ∧
    (∀ m s, Fits (.abwTriReady m) s → s.dev.part.dies ≤ 8 → (pkgReady s.dev = false → ReadyAccepted s.dev m.toNat → Completes (.abwTriReady m) s fun t =>
        { t with regs := s.dev.regs, pkg := s.dev.pkg } = s.dev ∧ t.pkg = { s.dev.pkg with readyAt := t.pkg.readyAt } ∧ pkgReady t = true ∧
          rfld t .abwTri 0 0 0 23 0 = m.toNat) ∧
      (pkgReady s.dev = true ∨ ¬ReadyAccepted s.dev m.toNat → Completes (.abwTriReady m) s fun t =>
        Ignored 0 (regAddr .abwTri 0 0 0) (m.toNat + 2 ^ 24) s.dev t ∧ pkgReady t = pkgReady s.dev)) ∧
    (∀ die m s, Fits (.ucieFlitReplay die m) s → pkgReady s.dev = true → uciState s.dev die m = 2 → Completes (.ucieFlitReplay die m) s fun t => { t with regs := s.dev.regs } = s.dev ∧
      rfld t .uciLink die 0 m 47 32 = min 0xFFFF (rfld s.dev .uciLink die 0 m 47 32 + 1)) ∧
    (∀ die m s, Fits (.ucieRetrain die m) s → pkgReady s.dev = true → uciState s.dev die m = 2 → Completes (.ucieRetrain die m) s fun t =>
      { t with regs := s.dev.regs } = s.dev ∧ uciState t die m = 3 ∧
      rfld t .uciLink die 0 m 63 48 = min 0xFFFF (rfld s.dev .uciLink die 0 m 63 48 + 1) ∧
      ∀ y, facing s.dev.part.dies die m = .die y → uciState t y (farModule m) = 3 ∧
        rfld t .uciLink y 0 (farModule m) 63 48 = min 0xFFFF (rfld s.dev .uciLink y 0 (farModule m) 63 48 + 1)) ∧
    ∀ die m ok mode half rep s, Fits (.ucieRetrainDone die m ok mode half rep) s → die < 8 → m < 4 → die < s.dev.part.dies → uciState s.dev die m = 3 →
      (ok = true → Completes (.ucieRetrainDone die m ok mode half rep) s fun t => uciState t die m = 2 ∧ rfld t .uciLink die 0 m 4 4 = b2n half ∧
        rfld t .uciLink die 0 m 31 16 = rep.toNat ∧ (∀ y, facing s.dev.part.dies die m = .die y → uciState t y (farModule m) = 2) ∧
        (s.dev.lateCmds = [] → s.dev.lateLops = [] → s.dev.colls = [] → s.dev.xfers = [] → s.dev.ports = [] → { t with regs := s.dev.regs } = s.dev)) ∧
      (ok = false → pkgReady s.dev = true → Completes (.ucieRetrainDone die m ok mode half rep) s fun t => uciState t die m = 4 ∧ halted t die = true) ∧
      (ok = false → pkgReady s.dev = false → bootPhase s.dev die ≠ 4 → NotJustReady s.dev → Completes (.ucieRetrainDone die m ok mode half rep) s fun t => BootOnly s.dev t ∧
        uciState t die m = 4 ∧ bootPhase t die = 4 ∧ bootFail t die = 4)

/-- Reset and power pins clear the device but its fuses; faults of rails, heat and clocks halt; TAPs keep their instruction (chapter 19, Reset (R629, R630, R631); chapter 20, Pins and rails (R661, R662, R664, R666); chapter 20, Clocks (R670); chapter 20, Heat (R673); chapter 20, JTAG (R674, R675); chapter 18, SVN (R604); log 124 (DESIGN CHOICE); log 126 (PRESUMED); log 127 (DESIGN CHOICE); log 198 (DESIGN CHOICE); log 199 (DESIGN CHOICE); log 200 (DESIGN CHOICE)). PKG_PWRGD_DEASSERT and PKG_RESET_ASSERT leave everything as at reset but the part, each die's SVN count (a burn that loses power is left between the old and the new value, log 198) and, while PKG_PWRGD holds, a latched trip with its HBM_TRIP; their opposites change the pin, and the end of reset samples the straps. RAIL_SAMPLE stores the readings, and the second in a row outside 8% halts its die. RAIL7_UNDERVOLTAGE empties the cores, core stores and scratch of its die, halts it and leaves the cores of every other die. THERMAL_TRIP at its threshold latches the trip, once, and halts; PLL_UNLOCK clears the lock and halts. PKG_TRST resets the TAPs alone. EXTEST, SAMPLE_PRELOAD, IDCODE, CLAMP, HIGHZ and BYPASS load their instruction into the TAP of one die and change nothing else but what the data registers of the chain capture and what PKG_TDO gives, first 0b0000_0001 of every TAP: BYPASS, CLAMP and HIGHZ capture 0 (log 126), IDCODE the part and the manufacturer, EXTEST and SAMPLE_PRELOAD the levels at die 0's balls; SAMPLE_PRELOAD sets the update values, and EXTEST keeps them where it is not loaded yet (what a later scan under it sets is free, log 200). PRIVATE_JTAG is BYPASS outside test state. (SCL, a released SDA and private registers are free values, logs 127 and 199, and are not stated; a die without rail 7 follows log 124.) Concludes that exec answers a next state (Completes) for: pkgPwrgdAssert, pkgPwrgdDeassert, pkgResetAssert, pkgResetDeassert, railSample, rail7Undervoltage, thermalTrip, pllUnlock, pkgTrst, extest, samplePreload, idcode, clamp, highz, bypass, privateJtag. -/
def Obligations.PinsAndTaps : Prop :=
  (∀ s, Fits .pkgPwrgdAssert s → s.dev.pkg.pwrgd = false → Completes .pkgPwrgdAssert s fun t => t = { s.dev with pkg := { s.dev.pkg with pwrgd := true } }) ∧
    (∀ s, Fits .pkgPwrgdDeassert s → s.dev.pkg.pwrgd = true → s.dev.part.dies ≤ 8 → Completes .pkgPwrgdDeassert s fun t => AfterReset s.dev t ∧
      (NoBurn s.dev → ∀ die, die < s.dev.part.dies → rfld t .abwFw die 0 0 63 48 = rfld s.dev .abwFw die 0 0 63 48) ∧
      (∀ b die, s.dev.station.burn = some b → die < s.dev.part.dies → b.old.getD die 0 ≤ rfld s.dev .abwFw die 0 0 63 48 →
        b.old.getD die 0 ≤ rfld t .abwFw die 0 0 63 48 ∧ rfld t .abwFw die 0 0 63 48 ≤ rfld s.dev .abwFw die 0 0 63 48) ∧
      t.pkg.pwrgd = false ∧ t.pkg.reset = s.dev.pkg.reset ∧ t.pkg.trips = []) ∧
    (∀ s, Fits .pkgResetAssert s → s.dev.pkg.reset = false → s.dev.part.dies ≤ 8 → Completes .pkgResetAssert s fun t => AfterReset s.dev t ∧
      (∀ die, die < s.dev.part.dies → rfld t .abwFw die 0 0 63 48 = rfld s.dev .abwFw die 0 0 63 48 ∧
        (s.dev.pkg.pwrgd = true → rfld t .pkgTrip die 0 0 1 1 = rfld s.dev .pkgTrip die 0 0 1 1)) ∧
      t.pkg.pwrgd = s.dev.pkg.pwrgd ∧ t.pkg.reset = true ∧ (s.dev.pkg.pwrgd = true → t.pkg.trips = s.dev.pkg.trips)) ∧
    (∀ a m s, Fits (.pkgResetDeassert a m) s → s.dev.pkg.reset = true → Completes (.pkgResetDeassert a m) s fun t => t = { s.dev with pkg := { s.dev.pkg with
      reset := false
      maddr := a
      tmode := m } }) ∧
    (∀ die mv s, Fits (.railSample die mv) s → die < 8 → die < s.dev.part.dies → s.dev.pkg.pwrgd = true → s.dev.tick % 16 = 0 →
      mv.length = (if die = 0 then 10 else 9) → Completes (.railSample die mv) s (fun t => ∀ k, k < mv.length →
        rfld t .pkgRail die 0 k 15 0 = (mv.getD k 0).toNat ∧ tget false (getBoot t die).rails k = railOut k (mv.getD k 0).toNat) ∧
      ((∀ k, k < mv.length → railOut k (mv.getD k 0).toNat = false) → Completes (.railSample die mv) s fun t =>
        { t with regs := s.dev.regs, boot := s.dev.boot } = s.dev) ∧
      ((∃ k, k < mv.length ∧ railOut k (mv.getD k 0).toNat = true ∧ tget false (getBoot s.dev die).rails k = true) →
        Completes (.railSample die mv) s fun t => halted t die = true)) ∧
    (∀ die s, Fits (.rail7Undervoltage die) s → Tidy s.dev → die < 8 → die < s.dev.part.dies → s.dev.pkg.pwrgd = true → Completes (.rail7Undervoltage die) s fun t =>
      halted t die = true ∧ (NoBurn s.dev → rfld t .abwFw die 0 0 63 48 = rfld s.dev .abwFw die 0 0 63 48) ∧ (∀ c, c < 144 → getCore t ⟨die, c⟩ = Core.idle) ∧
        (∀ c i, c < 144 → i < storeBytes → memByte t (storeKey ⟨die, c⟩ i) = 0) ∧ (∀ k i, k < 16 → i < 2 ^ 24 → memByte t (scratchKey die k i) = 0) ∧
        ∀ x c, x ≠ die → c < 144 → getCore t ⟨x, c⟩ = getCore s.dev ⟨x, c⟩) ∧
    (∀ die k (r : BitVec 8) h s, Fits (.thermalTrip die k r h) s → die < 8 → k < 16 → die < s.dev.part.dies → s.dev.pkg.pwrgd = true → s.dev.pkg.released = true →
      (if h = true then 105 else 115) ≤ r.toInt →
      (tripped s.dev die = false → Completes (.thermalTrip die k r h) s fun t => halted t die = true ∧ tripped t die = true ∧
        (h = true → rfld t .pkgTrip die 0 0 1 1 = 1)) ∧
      (tripped s.dev die = true → Completes (.thermalTrip die k r h) s fun t => { t with regs := s.dev.regs } = s.dev)) ∧
    (∀ die p s, Fits (.pllUnlock die p) s → die < 8 → p < 4 → die < s.dev.part.dies → rfld s.dev .pkgClk die 0 0 p p = 1 → Completes (.pllUnlock die p) s fun t =>
      halted t die = true ∧ rfld t .pkgClk die 0 0 p p = 0) ∧
    (∀ s, Fits .pkgTrst s → Completes .pkgTrst s fun t => t = { s.dev with taps := [] }) ∧
    (∀ i die ir s, (i, ir) ∈ [(Instr.idcode die, 0x02#8), (.clamp die, 0x03), (.highz die, 0x04), (.bypass die, 0xFF)] → Fits i s → die < 8 →
      die < s.dev.part.dies → tapsRun s.dev = true → Completes i s fun t => Scanned die s.dev t ∧
        getTap t die = { getTap s.dev die with
          ir := ir
          dr := (getTap t die).dr } ∧ ((ir = 0x03 ∨ ir = 0x04 ∨ ir = 0xFF) → (getTap t die).dr = 0) ∧
        (ir = 0x02 → (getTap t die).dr.toNat % 2 ^ 28 =
          (if s.dev.part.dies = 8 then 0xF108 else if s.dev.part.dies = 4 then 0xF104 else 0xF102) * 2 ^ 12 + 0x3A5 * 2 + 1)) ∧
    (∀ i die b ir s, (i, ir) ∈ [(Instr.extest die, 0x00#8), (.samplePreload die b, 0x01)] → Fits i s → die < 8 → die < s.dev.part.dies → tapsRun s.dev = true →
      Completes i s fun t => Scanned die s.dev t ∧ (getTap t die).ir = ir ∧ (ir = 0x01 → (getTap t die).update = b) ∧
        (ir = 0x00 → (getTap s.dev die).ir ≠ 0 → (getTap t die).update = (getTap s.dev die).update) ∧
        (die = 0 → ∀ x u, x = (getTap t 0).dr → u = (getTap s.dev 0).update → x.getLsbD 0 = true ∧ x.getLsbD 1 = true ∧
          x.extractLsb' 7 2 = s.dev.pkg.maddr ∧ x.getLsbD 9 = s.dev.pkg.tmode ∧
          (ir = 0x01 → x.getLsbD 2 = pkgReady s.dev ∧ x.getLsbD 3 = !alertActive s.dev ∧ x.getLsbD 4 = s.dev.pkg.trips.all fun p => !p.2) ∧
          (ir = 0x00 → x.getLsbD 2 = u.getLsbD 2 ∧ x.getLsbD 3 = u.getLsbD 3 ∧ x.getLsbD 4 = u.getLsbD 4 ∧ (u.getLsbD 6 = false → x.getLsbD 6 = false)))) ∧
    ∀ die code s, Fits (.privateJtag die code) s → die < 8 → die < s.dev.part.dies → tapsRun s.dev = true → Completes (.privateJtag die code) s fun t =>
      Scanned die s.dev t ∧ (rfld s.dev .abwStation die 0 0 4 4 = 0 → (getTap t die).ir = 0xFF ∧ (getTap t die).dr = 0) ∧
        (rfld s.dev .abwStation die 0 0 4 4 = 1 → 8 ≤ code.toNat → code.toNat < 16 → (getTap t die).ir = code)

/-- Register writes act by their access codes; waiting bits apply in time; the command die reads and writes (chapter 00, Registers (R20, R21, R23, R24, R25); chapter 12, Command die (R410, R411); chapter 13, Schedule (R468); chapter 17, Core reset (R585, R591); log 139 (DESIGN CHOICE)). REGISTER_WRITE of an address that is no register of the part changes nothing, nor does one of a register whose fields are all RO. A whole write of CMD_ADMIN_ARG (RW) takes effect at once, one of MED_CTL within its range (RW-L) waits for the next tick, and one of a field that is locked (SCH_SLOT of the running bank) is ignored and logged (kind 68). A 1 clears a W1C bit (CHN_FAULT.VALID, CMD_EVT_STAT.OVERFLOW) and a 0 leaves it; WO fields act as their rows (ERR_ACK, ERR_CORE_RST); an RW-S field (RAMP_HOLD) waits while its cube runs (log 139), else takes effect at once. REGISTER_WRITE waits while the link of its die retrains. SHADOW_WRITE_APPLY at the block's boundary puts the waiting bits in place, and LIVE_WRITE_APPLY every bit whose tick has come. COMMAND_DIE_ACCESS, while no link on its way retrains, of an address that is not a multiple of its size answers MISALIGNED and of no place ADDRESS_ABSENT, with zeros for a read and nothing changed but the answer; a register read answers its bytes, one of a stake's behind the operations queued at port 3 of its hub, a register write acts as REGISTER_WRITE, 64 bytes of registers answer SPACE_DENIED, and a memory access reads or writes as the memory does. Concludes that exec answers a next state (Completes) for: commandDieAccess, errAckAll, errCoreRst, registerWrite, shadowWriteApply, liveWriteApply. -/
def Obligations.RegistersAndHost : Prop :=
  (∀ a n v s, Fits (.registerWrite a n v) s → n ∈ [1, 2, 4, 8] → a.toNat % n = 0 → a.toNat / 2 ^ 50 = 3 → resolve s.dev a = none → exec (.registerWrite a n v) s = .next s) ∧
    (∀ (a : Addr) v s die off r i j, Fits (.registerWrite a 8 v) s → a.toNat % 8 = 0 → a.toNat / 2 ^ 50 = 3 → resolve s.dev a = some (.reg die off) → commandBusy s.dev die = false →
      hitAt s.dev die off = some (.reg r i j false) → hitAt s.dev die (off + 4) = some (.reg r i j true) →
      (r ∈ [RegName.abwId, .abwSerial, .abwFeatures, .zlkStatus, .medPipe, .pclStat] → (∀ f ∈ r.row.fields, f.acc = .ro) → exec (.registerWrite a 8 v) s = .next s) ∧
      (r = .cmdAdminArg → Completes (.registerWrite a 8 v) s fun t => { t with regs := s.dev.regs } = s.dev ∧ rfld t r die i j 51 0 = (v.extractLsb' 0 52).toNat) ∧
      (r = .schSlot → bankLocked s.dev (j / 256) = true → Completes (.registerWrite a 8 v) s fun t =>
        Ignored die (regAddr .schSlot die i j) v.toNat s.dev t ∧ regGet t r die i j = regGet s.dev r die i j) ∧
      (r = .cmdEvtStat → Completes (.registerWrite a 8 v) s fun t => { t with regs := s.dev.regs } = s.dev ∧ rfld t r die i j 31 0 = (v.extractLsb' 0 32).toNat ∧
        rfld t r die i j 32 32 = if v.getLsbD 32 = true then 0 else rfld s.dev r die i j 32 32)) ∧
    (∀ (a : Addr) v s die off r i j, Fits (.registerWrite a 4 v) s → a.toNat % 4 = 0 → a.toNat / 2 ^ 50 = 3 → resolve s.dev a = some (.reg die off) → off % 4 = 0 →
      hitAt s.dev die off = some (.reg r i j false) → commandBusy s.dev die = false →
      (r = .chnFault → Completes (.registerWrite a 4 v) s fun t => { t with regs := s.dev.regs } = s.dev ∧
        regGet t r die i j = if v.getLsbD 0 = true then regGet s.dev r die i j &&& ~~~1#64 else regGet s.dev r die i j) ∧
      (r = .errAck → Fits (.errAckAll die) s → v.getLsbD 6 = true → exec (.registerWrite a 4 v) s = exec (.errAckAll die) s) ∧
      (r = .errCoreRst → Fits (.errCoreRst die (v.extractLsb' 0 8)) s → (v.getLsbD 8 = true → exec (.registerWrite a 4 v) s = exec (.errCoreRst die (v.extractLsb' 0 8)) s) ∧
        (v.getLsbD 8 = false → exec (.registerWrite a 4 v) s = .next s)) ∧
      (r = .cubeCtl → v.getLsbD 0 = false →
        ((getCube s.dev ⟨die, i⟩ j).run = none → Completes (.registerWrite a 4 v) s fun t => { t with regs := s.dev.regs, shadow := s.dev.shadow } = s.dev ∧
          rfld t r die i j 15 8 = (v.extractLsb' 8 8).toNat ∧ fld (tget ⟨0, 0, 0⟩ t.shadow (regKey r die i j)).mask 15 8 = 0) ∧
        ((getCube s.dev ⟨die, i⟩ j).run ≠ none → Completes (.registerWrite a 4 v) s fun t => { t with shadow := s.dev.shadow } = s.dev ∧
          fld (tget ⟨0, 0, 0⟩ t.shadow (regKey r die i j)).mask 15 8 = 0xFF ∧
          fld (tget ⟨0, 0, 0⟩ t.shadow (regKey r die i j)).val 15 8 = (v.extractLsb' 8 8).toNat))) ∧
    (∀ (a : Addr) (v : BitVec 64) s die off i j, Fits (.registerWrite a 4 v) s → a.toNat % 4 = 0 → a.toNat / 2 ^ 50 = 3 → resolve s.dev a = some (.reg die off) → off % 4 = 0 →
      hitAt s.dev die off = some (.reg .medCtl i j false) → v.toNat ≤ 100 → commandBusy s.dev die = false → Completes (.registerWrite a 4 v) s fun t => { t with live := s.dev.live } = s.dev ∧
        t.live = s.dev.live ++ [⟨regKey .medCtl die i j, setFld 0 7 0 0xFF, setFld 0 7 0 v.toNat, s.dev.tick + 1⟩]) ∧
    (∀ a s die off r i j hi p, Fits (.shadowWriteApply a) s → resolve s.dev a = some (.reg die off) → hitAt s.dev die (off - off % 4) = some (.reg r i j hi) →
      p = tget ⟨0, 0, 0⟩ s.dev.shadow (regKey r die i j) → p.mask ≠ 0 → atBoundary s.dev r die i j = true → Completes (.shadowWriteApply a) s fun t =>
        { t with regs := s.dev.regs, shadow := s.dev.shadow } = s.dev ∧ regGet t r die i j = ((regGet s.dev r die i j &&& ~~~p.mask) ||| (p.val &&& p.mask)) ∧
          tget ⟨0, 0, 0⟩ t.shadow (regKey r die i j) = ⟨0, 0, 0⟩) ∧
    (∀ s, Fits .liveWriteApply s → (∃ e ∈ s.dev.live, e.since ≤ s.dev.tick) → Completes .liveWriteApply s fun t => NotesOnly { s.dev with
        live := t.live
        sched := t.sched } t ∧ t.live = s.dev.live.filter (fun e => decide (s.dev.tick < e.since)) ∧
      ∀ die p, die < 8 → p.key = regKey .medCtl die 0 0 → s.dev.live = [p] →
        regGet t .medCtl die 0 0 = ((regGet s.dev .medCtl die 0 0 &&& ~~~p.mask) ||| (p.val &&& p.mask))) ∧
    (∀ a n x s, Fits (.commandDieAccess a n x) s → pkgReady s.dev = true → commandBusy s.dev (servingDie s.dev a) = false →
      (a.toNat % n ≠ 0 → n ≠ 0 → Completes (.commandDieAccess a n x) s fun t => { t with reply := s.dev.reply } = s.dev ∧
        t.reply = some ⟨.misaligned, if x.isSome = true then [] else List.replicate n 0⟩) ∧
      (a.toNat % n = 0 → resolve s.dev a = none → Completes (.commandDieAccess a n x) s fun t => { t with reply := s.dev.reply } = s.dev ∧
        t.reply = some ⟨.addressAbsent, if x.isSome = true then [] else List.replicate n 0⟩) ∧
      (∀ die off, a.toNat % n = 0 → resolve s.dev a = some (.reg die off) → n ≠ 64 → x = none → Completes (.commandDieAccess a n x) s fun t =>
        t = { reachHub s.dev die off with reply := some ⟨.none, leBytes n (regShow (reachHub s.dev die off) die off n)⟩ } ∧
          ∀ r i j hi, hitAt s.dev die (off - off % 4) = some (.reg r i j hi) → reachHub s.dev die off = s.dev) ∧
      (∀ die off b, a.toNat % n = 0 → resolve s.dev a = some (.reg die off) → n ≠ 64 → x = some b → Fits (.registerWrite a n (BitVec.ofNat 64 (leNat b))) s →
        a.toNat / 2 ^ 50 = 3 → leNat b < 2 ^ 64 → ∀ t, exec (.registerWrite a n (BitVec.ofNat 64 (leNat b))) s = .next { s with dev := t } →
          commandBusy s.dev die = false → exec (.commandDieAccess a n x) s = .next { s with dev := { t with reply := some ⟨.none, []⟩ } }) ∧
      (∀ die off, a.toNat % n = 0 → resolve s.dev a = some (.reg die off) → n = 64 → Completes (.commandDieAccess a n x) s fun t =>
        t = { s.dev with reply := some ⟨.spaceDenied, if x.isSome = true then [] else List.replicate n 0⟩ }) ∧
      (∀ p e b, a.toNat % n = 0 → resolve s.dev a = some p → (∀ die off, p ≠ .reg die off) → placeBusy s.dev p = false → x = none →
        devRead s.dev a n false = (e, .ok b) → Completes (.commandDieAccess a n x) s fun t => t = { e with reply := some ⟨.none, b⟩ } ∧ MemSame s.dev t) ∧
      ∀ p e b, a.toNat % n = 0 → resolve s.dev a = some p → (∀ die off, p ≠ .reg die off) → placeBusy s.dev p = false → x = some b →
        devWrite s.dev a b = (e, .ok ()) → Completes (.commandDieAccess a n x) s fun t => t = { e with reply := some ⟨.none, []⟩ } ∧ MemSameBut p.key b.length s.dev t)

/-- What reset leaves, and that the invariant holds there (chapter 19, Reset (R631); chapter 18, Measurements (R605); chapter 01, Hub registers (R76); chapter 11, Retirement (R387); chapter 18, Temperature (R613)). After reset the invariant of StepKeepsInv holds; no command waits, package ready has not come, every stake is disabled with COUNT and TARGET 0 and no waiter, no core has a crew, a launch or a running sequencer, no die has halted, the eight measurement registers are zero, the alarm threshold of every die is 95 °C, POLL_WAITS and REMOTE_PEAK of every hub are 0 and no entry of a retirement table is valid. (The bytes of memory and the scalar registers at reset are the model's choice and are not stated.) -/
def Obligations.ResetState : Prop :=
  Machine.Inv State.reset ∧ State.reset.pending = [] ∧ pkgReady State.reset.dev = false ∧
    (∀ id : StakeId, getStake State.reset.dev id = ⟨0, 0, false, false, false, 0, false, false, []⟩) ∧
    (∀ c slot, getCrew State.reset.dev c slot = none ∧ (getCore State.reset.dev c).w.launches = [] ∧
      (getCore State.reset.dev c).w.launchQ = [] ∧ agentReady State.reset.dev (.seq c) = false) ∧
    (∀ die, halted State.reset.dev die = false) ∧ (∀ i, getMeas State.reset.dev i = List.replicate 32 0) ∧
    (∀ die, die < 8 → rfld State.reset.dev .abwTemp die 0 0 15 8 = 95) ∧
    (∀ die h, die < 8 → h < 13 → (getHub State.reset.dev die h).pollWaits = 0 ∧ (getHub State.reset.dev die h).remotePeak = 0) ∧
    ∀ die, die < 8 → retireCount State.reset.dev die = 0

/-- The decoder gives back every Yelre instruction from its word, and keeps every bit of a word it accepts (chapter 02, Formats (R88, R89, R94, R95, R96, R97); chapter 02, Opcodes (R101 to R109); chapter 02, Illegal instructions (R118)). For every Yelre instruction, with every operand at every value that passes the operand tests of R118, and the agent that issues it: the decoder reads the instruction from the word that encodes it. And whenever the decoder accepts a word for an agent, the instruction's own encoding is that word, bit for bit, the agent issues it, and its operands pass the tests. No word has two meanings for one agent. -/
def Obligations.EncodingRoundTrip : Prop :=
  (∀ (i : Instr) w a, encode i = some w → issuerOf i = some a → operandSub i = 0 → yelreDecode a w = .ok i) ∧
    ∀ a w i, yelreDecode a w = .ok i → encode i = some w ∧ issuerOf i = some a ∧ operandSub i = 0

/-- Every step keeps memory and tables in order and the part a part of the manual (chapter 00, Parts (R2); chapter 01, Memory spaces (R42)). From every state whose memory is in its canonical form, whose poison marks, cache lines, registers, cores, stakes and hubs are listed by rising keys, and whose part has 2, 4 or 8 compute dies, whatever command stands at the front of the queue: if the step answers a next state, all of this holds there. (The forms are the model's own, and the statements that take Tidy as a premise rely on them; the counts of dies are R2's.) -/
def Obligations.StepKeepsInv : Prop :=
  ∀ s t : State, Machine.Inv s → step s = .next t → Inv t
end

