-- ==== Sys2Proof/Laws/Table.lean ====
section
/-!
SUPPORT. The laws of sparse storage: a read after a write, and that a write keeps the canonical form.
-/

namespace Sys2Proof.Machine

variable {α : Type}

/-- The default is read below the first key. -/
theorem tget_of_lt_head (d w : α) (t : Tbl α) {j k : Nat} (h : k < j) : tget d ((j, w) :: t) k = d := by
  simp [tget, h]

/-- Dropping the keys up to k changes no read above k. -/
theorem tget_dropWhile (d : α) (t : Tbl α) {k q : Nat} (h : k < q) :
    tget d (t.dropWhile fun e => decide (e.1 ≤ k)) q = tget d t q := by
  induction t with
  | nil => rfl
  | cons e t ih =>
    obtain ⟨j, w⟩ := e
    by_cases hj : j ≤ k
    · simp [hj, ih, tget, show ¬q < j by omega, show ¬q = j by omega]
    · simp [hj]

/-- Below every key left after dropping those up to k, the default is read. -/
theorem tget_dropWhile_le (d : α) (t : Tbl α) {k q : Nat} (h : q ≤ k) :
    tget d (t.dropWhile fun e => decide (e.1 ≤ k)) q = d := by
  induction t with
  | nil => rfl
  | cons e t ih =>
    obtain ⟨j, w⟩ := e
    by_cases hj : j ≤ k
    · simp [hj, ih]
    · simp [hj, tget, show q < j by omega]

variable [DecidableEq α]

/-- A read after a write: the value written at its key, what was there before at every other. -/
theorem tget_tset (d : α) (t : Tbl α) (k : Nat) (v : α) (q : Nat) :
    tget d (tset d t k v) q = if q = k then v else tget d t q := by
  induction t with
  | nil =>
    by_cases hv : v = d
    · simp [tset, tget, hv]
    · simp only [tset, hv, if_false, tget]
      split <;> split <;> simp_all
  | cons e t ih =>
    obtain ⟨j, w⟩ := e
    by_cases hkj : k < j
    · simp only [tset, hkj, if_true]
      by_cases hv : v = d
      · simp only [hv, if_true]
        by_cases hq : q = k
        · simp [hq, tget, hkj]
        · simp [hq]
      · simp only [hv, if_false, tget]
        split <;> split <;> simp_all <;> omega
    · by_cases hk : k = j
      · subst hk
        simp only [tset, lt_irrefl, if_false, if_true]
        by_cases hv : v = d
        · simp only [hv, if_true]
          by_cases hq : q = k
          · simp [hq, tget_dropWhile_le]
          · by_cases hlt : q < k
            · simp [hq, tget, hlt, tget_dropWhile_le d t (Nat.le_of_lt hlt)]
            · simp [hq, tget, hlt, tget_dropWhile d t (show k < q by omega)]
        · simp only [hv, if_false, tget]
          by_cases hlt : q < k
          · simp [hlt, show ¬q = k by omega]
          · by_cases hq : q = k
            · simp [hq]
            · simp [hlt, hq, tget_dropWhile d t (show k < q by omega)]
      · simp only [tset, hkj, hk, if_false, tget, ih]
        split <;> split <;> simp_all <;> omega

/-- The value just written is read. -/
@[simp] theorem tget_tset_self (d : α) (t : Tbl α) (k : Nat) (v : α) : tget d (tset d t k v) k = v := by
  simp [tget_tset]

/-- A write elsewhere changes no read. -/
theorem tget_tset_ne (d : α) (t : Tbl α) {k q : Nat} (v : α) (h : q ≠ k) : tget d (tset d t k v) q = tget d t q := by
  simp [tget_tset, h]

/-- Writing back what is read at a key changes no read. -/
theorem tget_tmod (d : α) (t : Tbl α) (k : Nat) (f : α → α) (q : Nat) :
    tget d (tmod d t k f) q = if q = k then f (tget d t k) else tget d t q := by
  simp [tmod, tget_tset]

/-- A canonical table: its first entry is no default, and every later key is larger. -/
theorem twf_cons {d w : α} {j : Nat} {t : Tbl α} : twf d ((j, w) :: t) = true ↔ w ≠ d ∧ (∀ e ∈ t, j < e.1) ∧ twf d t = true := by
  induction t generalizing j w with
  | nil => simp [twf]
  | cons e t ih =>
    obtain ⟨k, x⟩ := e
    have ih' := ih (j := k) (w := x)
    simp only [twf, Bool.and_eq_true, decide_eq_true_eq, List.mem_cons, forall_eq_or_imp]
    constructor
    · rintro ⟨⟨hw, hjk⟩, ht⟩
      refine ⟨hw, ⟨hjk, fun e he => ?_⟩, ht⟩
      exact lt_trans hjk ((ih'.1 ht).2.1 e he)
    · rintro ⟨hw, ⟨hjk, -⟩, ht⟩
      exact ⟨⟨hw, hjk⟩, ht⟩

/-- A part of a canonical table is canonical. -/
theorem twf_filter (d : α) (t : Tbl α) (p : Nat × α → Bool) (h : twf d t = true) : twf d (t.filter p) = true := by
  induction t with
  | nil => rfl
  | cons e t ih =>
    obtain ⟨j, w⟩ := e
    rw [twf_cons] at h
    by_cases hp : p (j, w) = true
    · rw [List.filter_cons_of_pos hp, twf_cons]
      exact ⟨h.1, fun e he => h.2.1 e (List.mem_filter.1 he).1, ih h.2.2⟩
    · rw [List.filter_cons_of_neg hp]
      exact ih h.2.2

/-- Dropping keys from the front keeps the canonical form. -/
theorem twf_dropWhile (d : α) (t : Tbl α) (p : Nat × α → Bool) (h : twf d t = true) : twf d (t.dropWhile p) = true := by
  induction t with
  | nil => rfl
  | cons e t ih =>
    obtain ⟨j, w⟩ := e
    have h' := twf_cons.1 h
    simp only [List.dropWhile_cons]
    split
    · exact ih h'.2.2
    · exact h

/-- Every key of a table after a write is the written one or was there before. -/
theorem mem_tset {d : α} {t : Tbl α} {k : Nat} {v : α} {e : Nat × α} (h : e ∈ tset d t k v) : e = (k, v) ∨ e ∈ t := by
  induction t with
  | nil =>
    simp only [tset] at h
    split at h <;> simp_all
  | cons x t ih =>
    obtain ⟨j, w⟩ := x
    simp only [tset] at h
    split at h
    · split at h <;> simp_all
    · split at h
      · split at h
        · exact .inr (List.mem_cons_of_mem _ (List.dropWhile_sublist _ |>.subset h))
        · rcases List.mem_cons.1 h with h | h
          · exact .inl h
          · exact .inr (List.mem_cons_of_mem _ (List.dropWhile_sublist _ |>.subset h))
      · rcases List.mem_cons.1 h with h | h
        · exact .inr (h ▸ List.mem_cons_self)
        · rcases ih h with h | h
          · exact .inl h
          · exact .inr (List.mem_cons_of_mem _ h)

/-- A write keeps the canonical form. -/
theorem twf_tset (d : α) (t : Tbl α) (k : Nat) (v : α) (h : twf d t = true) : twf d (tset d t k v) = true := by
  induction t with
  | nil =>
    simp only [tset]
    split <;> simp_all [twf]
  | cons x t ih =>
    obtain ⟨j, w⟩ := x
    have h' := twf_cons.1 h
    simp only [tset]
    split
    · split
      · exact h
      · rename_i hkj hv
        rw [twf_cons]
        refine ⟨hv, fun e he => ?_, h⟩
        rcases List.mem_cons.1 he with rfl | he
        · exact hkj
        · exact lt_trans hkj (h'.2.1 e he)
    · rename_i hkj
      split
      · rename_i hk
        subst hk
        split
        · exact twf_dropWhile d t _ h'.2.2
        · rename_i hv
          rw [twf_cons]
          exact ⟨hv, fun e he => h'.2.1 e (List.dropWhile_sublist _ |>.subset he), twf_dropWhile d t _ h'.2.2⟩
      · rename_i hk
        rw [twf_cons]
        refine ⟨h'.1, fun e he => ?_, ih h'.2.2⟩
        rcases mem_tset he with rfl | he
        · simp only; omega
        · exact h'.2.1 e he

end Sys2Proof.Machine
end

