-- ==== Sys2Proof/Laws/State.lean ====
section
/-!
SUPPORT. The laws of the device record: what each plain update leaves of every other field (by rfl), and the read of what it wrote.
-/

namespace Sys2Proof.Machine

/-! ### setCore -/

@[simp] theorem setCore_part (d : Dev) (c : CoreId) (k : Core) : (setCore d c k).part = d.part := rfl
@[simp] theorem setCore_tick (d : Dev) (c : CoreId) (k : Core) : (setCore d c k).tick = d.tick := rfl
@[simp] theorem setCore_regs (d : Dev) (c : CoreId) (k : Core) : (setCore d c k).regs = d.regs := rfl
@[simp] theorem setCore_shadow (d : Dev) (c : CoreId) (k : Core) : (setCore d c k).shadow = d.shadow := rfl
@[simp] theorem setCore_live (d : Dev) (c : CoreId) (k : Core) : (setCore d c k).live = d.live := rfl
@[simp] theorem setCore_mem (d : Dev) (c : CoreId) (k : Core) : (setCore d c k).mem = d.mem := rfl
@[simp] theorem setCore_poison (d : Dev) (c : CoreId) (k : Core) : (setCore d c k).poison = d.poison := rfl
@[simp] theorem setCore_cache (d : Dev) (c : CoreId) (k : Core) : (setCore d c k).cache = d.cache := rfl
@[simp] theorem setCore_clock (d : Dev) (c : CoreId) (k : Core) : (setCore d c k).clock = d.clock := rfl
@[simp] theorem setCore_laneCounts (d : Dev) (c : CoreId) (k : Core) : (setCore d c k).laneCounts = d.laneCounts := rfl
@[simp] theorem setCore_ueCounts (d : Dev) (c : CoreId) (k : Core) : (setCore d c k).ueCounts = d.ueCounts := rfl
@[simp] theorem setCore_readonly (d : Dev) (c : CoreId) (k : Core) : (setCore d c k).readonly = d.readonly := rfl
@[simp] theorem setCore_stakes (d : Dev) (c : CoreId) (k : Core) : (setCore d c k).stakes = d.stakes := rfl
@[simp] theorem setCore_hubs (d : Dev) (c : CoreId) (k : Core) : (setCore d c k).hubs = d.hubs := rfl
@[simp] theorem setCore_wakes (d : Dev) (c : CoreId) (k : Core) : (setCore d c k).wakes = d.wakes := rfl
@[simp] theorem setCore_errs (d : Dev) (c : CoreId) (k : Core) : (setCore d c k).errs = d.errs := rfl
@[simp] theorem setCore_events (d : Dev) (c : CoreId) (k : Core) : (setCore d c k).events = d.events := rfl
@[simp] theorem setCore_gap (d : Dev) (c : CoreId) (k : Core) : (setCore d c k).gap = d.gap := rfl
@[simp] theorem setCore_objs (d : Dev) (c : CoreId) (k : Core) : (setCore d c k).objs = d.objs := rfl
@[simp] theorem setCore_chans (d : Dev) (c : CoreId) (k : Core) : (setCore d c k).chans = d.chans := rfl
@[simp] theorem setCore_admin (d : Dev) (c : CoreId) (k : Core) : (setCore d c k).admin = d.admin := rfl
@[simp] theorem setCore_parcels (d : Dev) (c : CoreId) (k : Core) : (setCore d c k).parcels = d.parcels := rfl
@[simp] theorem setCore_sched (d : Dev) (c : CoreId) (k : Core) : (setCore d c k).sched = d.sched := rfl
@[simp] theorem setCore_notices (d : Dev) (c : CoreId) (k : Core) : (setCore d c k).notices = d.notices := rfl
@[simp] theorem setCore_meas (d : Dev) (c : CoreId) (k : Core) : (setCore d c k).meas = d.meas := rfl
@[simp] theorem setCore_normal (d : Dev) (c : CoreId) (k : Core) : (setCore d c k).normal = d.normal := rfl
@[simp] theorem setCore_kvs (d : Dev) (c : CoreId) (k : Core) : (setCore d c k).kvs = d.kvs := rfl
@[simp] theorem setCore_kvReady (d : Dev) (c : CoreId) (k : Core) : (setCore d c k).kvReady = d.kvReady := rfl
@[simp] theorem setCore_kvFlush (d : Dev) (c : CoreId) (k : Core) : (setCore d c k).kvFlush = d.kvFlush := rfl
@[simp] theorem setCore_expWait (d : Dev) (c : CoreId) (k : Core) : (setCore d c k).expWait = d.expWait := rfl
@[simp] theorem setCore_expQ (d : Dev) (c : CoreId) (k : Core) : (setCore d c k).expQ = d.expQ := rfl
@[simp] theorem setCore_links (d : Dev) (c : CoreId) (k : Core) : (setCore d c k).links = d.links := rfl
@[simp] theorem setCore_lateCmds (d : Dev) (c : CoreId) (k : Core) : (setCore d c k).lateCmds = d.lateCmds := rfl
@[simp] theorem setCore_lateLops (d : Dev) (c : CoreId) (k : Core) : (setCore d c k).lateLops = d.lateLops := rfl
@[simp] theorem setCore_xfers (d : Dev) (c : CoreId) (k : Core) : (setCore d c k).xfers = d.xfers := rfl
@[simp] theorem setCore_inbound (d : Dev) (c : CoreId) (k : Core) : (setCore d c k).inbound = d.inbound := rfl
@[simp] theorem setCore_colls (d : Dev) (c : CoreId) (k : Core) : (setCore d c k).colls = d.colls := rfl
@[simp] theorem setCore_groups (d : Dev) (c : CoreId) (k : Core) : (setCore d c k).groups = d.groups := rfl
@[simp] theorem setCore_ports (d : Dev) (c : CoreId) (k : Core) : (setCore d c k).ports = d.ports := rfl
@[simp] theorem setCore_sent (d : Dev) (c : CoreId) (k : Core) : (setCore d c k).sent = d.sent := rfl
@[simp] theorem setCore_wire (d : Dev) (c : CoreId) (k : Core) : (setCore d c k).wire = d.wire := rfl
@[simp] theorem setCore_sess (d : Dev) (c : CoreId) (k : Core) : (setCore d c k).sess = d.sess := rfl
@[simp] theorem setCore_pipes (d : Dev) (c : CoreId) (k : Core) : (setCore d c k).pipes = d.pipes := rfl
@[simp] theorem setCore_accepted (d : Dev) (c : CoreId) (k : Core) : (setCore d c k).accepted = d.accepted := rfl
@[simp] theorem setCore_station (d : Dev) (c : CoreId) (k : Core) : (setCore d c k).station = d.station := rfl
@[simp] theorem setCore_mgmt (d : Dev) (c : CoreId) (k : Core) : (setCore d c k).mgmt = d.mgmt := rfl
@[simp] theorem setCore_boot (d : Dev) (c : CoreId) (k : Core) : (setCore d c k).boot = d.boot := rfl
@[simp] theorem setCore_pkg (d : Dev) (c : CoreId) (k : Core) : (setCore d c k).pkg = d.pkg := rfl
@[simp] theorem setCore_taps (d : Dev) (c : CoreId) (k : Core) : (setCore d c k).taps = d.taps := rfl
@[simp] theorem setCore_reply (d : Dev) (c : CoreId) (k : Core) : (setCore d c k).reply = d.reply := rfl
@[simp] theorem setCore_serial (d : Dev) (c : CoreId) (k : Core) : (setCore d c k).serial = d.serial := rfl
@[simp] theorem setCore_free (d : Dev) (c : CoreId) (k : Core) : (setCore d c k).free = d.free := rfl

/-! ### regSet -/

@[simp] theorem regSet_part (d : Dev) (n : RegName) (die i j : Nat) (v : W64) : (regSet d n die i j v).part = d.part := rfl
@[simp] theorem regSet_tick (d : Dev) (n : RegName) (die i j : Nat) (v : W64) : (regSet d n die i j v).tick = d.tick := rfl
@[simp] theorem regSet_shadow (d : Dev) (n : RegName) (die i j : Nat) (v : W64) : (regSet d n die i j v).shadow = d.shadow := rfl
@[simp] theorem regSet_live (d : Dev) (n : RegName) (die i j : Nat) (v : W64) : (regSet d n die i j v).live = d.live := rfl
@[simp] theorem regSet_mem (d : Dev) (n : RegName) (die i j : Nat) (v : W64) : (regSet d n die i j v).mem = d.mem := rfl
@[simp] theorem regSet_poison (d : Dev) (n : RegName) (die i j : Nat) (v : W64) : (regSet d n die i j v).poison = d.poison := rfl
@[simp] theorem regSet_cache (d : Dev) (n : RegName) (die i j : Nat) (v : W64) : (regSet d n die i j v).cache = d.cache := rfl
@[simp] theorem regSet_clock (d : Dev) (n : RegName) (die i j : Nat) (v : W64) : (regSet d n die i j v).clock = d.clock := rfl
@[simp] theorem regSet_laneCounts (d : Dev) (n : RegName) (die i j : Nat) (v : W64) : (regSet d n die i j v).laneCounts = d.laneCounts := rfl
@[simp] theorem regSet_ueCounts (d : Dev) (n : RegName) (die i j : Nat) (v : W64) : (regSet d n die i j v).ueCounts = d.ueCounts := rfl
@[simp] theorem regSet_readonly (d : Dev) (n : RegName) (die i j : Nat) (v : W64) : (regSet d n die i j v).readonly = d.readonly := rfl
@[simp] theorem regSet_cores (d : Dev) (n : RegName) (die i j : Nat) (v : W64) : (regSet d n die i j v).cores = d.cores := rfl
@[simp] theorem regSet_stakes (d : Dev) (n : RegName) (die i j : Nat) (v : W64) : (regSet d n die i j v).stakes = d.stakes := rfl
@[simp] theorem regSet_hubs (d : Dev) (n : RegName) (die i j : Nat) (v : W64) : (regSet d n die i j v).hubs = d.hubs := rfl
@[simp] theorem regSet_wakes (d : Dev) (n : RegName) (die i j : Nat) (v : W64) : (regSet d n die i j v).wakes = d.wakes := rfl
@[simp] theorem regSet_errs (d : Dev) (n : RegName) (die i j : Nat) (v : W64) : (regSet d n die i j v).errs = d.errs := rfl
@[simp] theorem regSet_events (d : Dev) (n : RegName) (die i j : Nat) (v : W64) : (regSet d n die i j v).events = d.events := rfl
@[simp] theorem regSet_gap (d : Dev) (n : RegName) (die i j : Nat) (v : W64) : (regSet d n die i j v).gap = d.gap := rfl
@[simp] theorem regSet_objs (d : Dev) (n : RegName) (die i j : Nat) (v : W64) : (regSet d n die i j v).objs = d.objs := rfl
@[simp] theorem regSet_chans (d : Dev) (n : RegName) (die i j : Nat) (v : W64) : (regSet d n die i j v).chans = d.chans := rfl
@[simp] theorem regSet_admin (d : Dev) (n : RegName) (die i j : Nat) (v : W64) : (regSet d n die i j v).admin = d.admin := rfl
@[simp] theorem regSet_parcels (d : Dev) (n : RegName) (die i j : Nat) (v : W64) : (regSet d n die i j v).parcels = d.parcels := rfl
@[simp] theorem regSet_sched (d : Dev) (n : RegName) (die i j : Nat) (v : W64) : (regSet d n die i j v).sched = d.sched := rfl
@[simp] theorem regSet_notices (d : Dev) (n : RegName) (die i j : Nat) (v : W64) : (regSet d n die i j v).notices = d.notices := rfl
@[simp] theorem regSet_meas (d : Dev) (n : RegName) (die i j : Nat) (v : W64) : (regSet d n die i j v).meas = d.meas := rfl
@[simp] theorem regSet_normal (d : Dev) (n : RegName) (die i j : Nat) (v : W64) : (regSet d n die i j v).normal = d.normal := rfl
@[simp] theorem regSet_kvs (d : Dev) (n : RegName) (die i j : Nat) (v : W64) : (regSet d n die i j v).kvs = d.kvs := rfl
@[simp] theorem regSet_kvReady (d : Dev) (n : RegName) (die i j : Nat) (v : W64) : (regSet d n die i j v).kvReady = d.kvReady := rfl
@[simp] theorem regSet_kvFlush (d : Dev) (n : RegName) (die i j : Nat) (v : W64) : (regSet d n die i j v).kvFlush = d.kvFlush := rfl
@[simp] theorem regSet_expWait (d : Dev) (n : RegName) (die i j : Nat) (v : W64) : (regSet d n die i j v).expWait = d.expWait := rfl
@[simp] theorem regSet_expQ (d : Dev) (n : RegName) (die i j : Nat) (v : W64) : (regSet d n die i j v).expQ = d.expQ := rfl
@[simp] theorem regSet_links (d : Dev) (n : RegName) (die i j : Nat) (v : W64) : (regSet d n die i j v).links = d.links := rfl
@[simp] theorem regSet_lateCmds (d : Dev) (n : RegName) (die i j : Nat) (v : W64) : (regSet d n die i j v).lateCmds = d.lateCmds := rfl
@[simp] theorem regSet_lateLops (d : Dev) (n : RegName) (die i j : Nat) (v : W64) : (regSet d n die i j v).lateLops = d.lateLops := rfl
@[simp] theorem regSet_xfers (d : Dev) (n : RegName) (die i j : Nat) (v : W64) : (regSet d n die i j v).xfers = d.xfers := rfl
@[simp] theorem regSet_inbound (d : Dev) (n : RegName) (die i j : Nat) (v : W64) : (regSet d n die i j v).inbound = d.inbound := rfl
@[simp] theorem regSet_colls (d : Dev) (n : RegName) (die i j : Nat) (v : W64) : (regSet d n die i j v).colls = d.colls := rfl
@[simp] theorem regSet_groups (d : Dev) (n : RegName) (die i j : Nat) (v : W64) : (regSet d n die i j v).groups = d.groups := rfl
@[simp] theorem regSet_ports (d : Dev) (n : RegName) (die i j : Nat) (v : W64) : (regSet d n die i j v).ports = d.ports := rfl
@[simp] theorem regSet_sent (d : Dev) (n : RegName) (die i j : Nat) (v : W64) : (regSet d n die i j v).sent = d.sent := rfl
@[simp] theorem regSet_wire (d : Dev) (n : RegName) (die i j : Nat) (v : W64) : (regSet d n die i j v).wire = d.wire := rfl
@[simp] theorem regSet_sess (d : Dev) (n : RegName) (die i j : Nat) (v : W64) : (regSet d n die i j v).sess = d.sess := rfl
@[simp] theorem regSet_pipes (d : Dev) (n : RegName) (die i j : Nat) (v : W64) : (regSet d n die i j v).pipes = d.pipes := rfl
@[simp] theorem regSet_accepted (d : Dev) (n : RegName) (die i j : Nat) (v : W64) : (regSet d n die i j v).accepted = d.accepted := rfl
@[simp] theorem regSet_station (d : Dev) (n : RegName) (die i j : Nat) (v : W64) : (regSet d n die i j v).station = d.station := rfl
@[simp] theorem regSet_mgmt (d : Dev) (n : RegName) (die i j : Nat) (v : W64) : (regSet d n die i j v).mgmt = d.mgmt := rfl
@[simp] theorem regSet_boot (d : Dev) (n : RegName) (die i j : Nat) (v : W64) : (regSet d n die i j v).boot = d.boot := rfl
@[simp] theorem regSet_pkg (d : Dev) (n : RegName) (die i j : Nat) (v : W64) : (regSet d n die i j v).pkg = d.pkg := rfl
@[simp] theorem regSet_taps (d : Dev) (n : RegName) (die i j : Nat) (v : W64) : (regSet d n die i j v).taps = d.taps := rfl
@[simp] theorem regSet_reply (d : Dev) (n : RegName) (die i j : Nat) (v : W64) : (regSet d n die i j v).reply = d.reply := rfl
@[simp] theorem regSet_serial (d : Dev) (n : RegName) (die i j : Nat) (v : W64) : (regSet d n die i j v).serial = d.serial := rfl
@[simp] theorem regSet_free (d : Dev) (n : RegName) (die i j : Nat) (v : W64) : (regSet d n die i j v).free = d.free := rfl

/-! ### rset -/

@[simp] theorem rset_part (d : Dev) (n : RegName) (die i j hi lo v : Nat) : (rset d n die i j hi lo v).part = d.part := rfl
@[simp] theorem rset_tick (d : Dev) (n : RegName) (die i j hi lo v : Nat) : (rset d n die i j hi lo v).tick = d.tick := rfl
@[simp] theorem rset_shadow (d : Dev) (n : RegName) (die i j hi lo v : Nat) : (rset d n die i j hi lo v).shadow = d.shadow := rfl
@[simp] theorem rset_live (d : Dev) (n : RegName) (die i j hi lo v : Nat) : (rset d n die i j hi lo v).live = d.live := rfl
@[simp] theorem rset_mem (d : Dev) (n : RegName) (die i j hi lo v : Nat) : (rset d n die i j hi lo v).mem = d.mem := rfl
@[simp] theorem rset_poison (d : Dev) (n : RegName) (die i j hi lo v : Nat) : (rset d n die i j hi lo v).poison = d.poison := rfl
@[simp] theorem rset_cache (d : Dev) (n : RegName) (die i j hi lo v : Nat) : (rset d n die i j hi lo v).cache = d.cache := rfl
@[simp] theorem rset_clock (d : Dev) (n : RegName) (die i j hi lo v : Nat) : (rset d n die i j hi lo v).clock = d.clock := rfl
@[simp] theorem rset_laneCounts (d : Dev) (n : RegName) (die i j hi lo v : Nat) : (rset d n die i j hi lo v).laneCounts = d.laneCounts := rfl
@[simp] theorem rset_ueCounts (d : Dev) (n : RegName) (die i j hi lo v : Nat) : (rset d n die i j hi lo v).ueCounts = d.ueCounts := rfl
@[simp] theorem rset_readonly (d : Dev) (n : RegName) (die i j hi lo v : Nat) : (rset d n die i j hi lo v).readonly = d.readonly := rfl
@[simp] theorem rset_cores (d : Dev) (n : RegName) (die i j hi lo v : Nat) : (rset d n die i j hi lo v).cores = d.cores := rfl
@[simp] theorem rset_stakes (d : Dev) (n : RegName) (die i j hi lo v : Nat) : (rset d n die i j hi lo v).stakes = d.stakes := rfl
@[simp] theorem rset_hubs (d : Dev) (n : RegName) (die i j hi lo v : Nat) : (rset d n die i j hi lo v).hubs = d.hubs := rfl
@[simp] theorem rset_wakes (d : Dev) (n : RegName) (die i j hi lo v : Nat) : (rset d n die i j hi lo v).wakes = d.wakes := rfl
@[simp] theorem rset_errs (d : Dev) (n : RegName) (die i j hi lo v : Nat) : (rset d n die i j hi lo v).errs = d.errs := rfl
@[simp] theorem rset_events (d : Dev) (n : RegName) (die i j hi lo v : Nat) : (rset d n die i j hi lo v).events = d.events := rfl
@[simp] theorem rset_gap (d : Dev) (n : RegName) (die i j hi lo v : Nat) : (rset d n die i j hi lo v).gap = d.gap := rfl
@[simp] theorem rset_objs (d : Dev) (n : RegName) (die i j hi lo v : Nat) : (rset d n die i j hi lo v).objs = d.objs := rfl
@[simp] theorem rset_chans (d : Dev) (n : RegName) (die i j hi lo v : Nat) : (rset d n die i j hi lo v).chans = d.chans := rfl
@[simp] theorem rset_admin (d : Dev) (n : RegName) (die i j hi lo v : Nat) : (rset d n die i j hi lo v).admin = d.admin := rfl
@[simp] theorem rset_parcels (d : Dev) (n : RegName) (die i j hi lo v : Nat) : (rset d n die i j hi lo v).parcels = d.parcels := rfl
@[simp] theorem rset_sched (d : Dev) (n : RegName) (die i j hi lo v : Nat) : (rset d n die i j hi lo v).sched = d.sched := rfl
@[simp] theorem rset_notices (d : Dev) (n : RegName) (die i j hi lo v : Nat) : (rset d n die i j hi lo v).notices = d.notices := rfl
@[simp] theorem rset_meas (d : Dev) (n : RegName) (die i j hi lo v : Nat) : (rset d n die i j hi lo v).meas = d.meas := rfl
@[simp] theorem rset_normal (d : Dev) (n : RegName) (die i j hi lo v : Nat) : (rset d n die i j hi lo v).normal = d.normal := rfl
@[simp] theorem rset_kvs (d : Dev) (n : RegName) (die i j hi lo v : Nat) : (rset d n die i j hi lo v).kvs = d.kvs := rfl
@[simp] theorem rset_kvReady (d : Dev) (n : RegName) (die i j hi lo v : Nat) : (rset d n die i j hi lo v).kvReady = d.kvReady := rfl
@[simp] theorem rset_kvFlush (d : Dev) (n : RegName) (die i j hi lo v : Nat) : (rset d n die i j hi lo v).kvFlush = d.kvFlush := rfl
@[simp] theorem rset_expWait (d : Dev) (n : RegName) (die i j hi lo v : Nat) : (rset d n die i j hi lo v).expWait = d.expWait := rfl
@[simp] theorem rset_expQ (d : Dev) (n : RegName) (die i j hi lo v : Nat) : (rset d n die i j hi lo v).expQ = d.expQ := rfl
@[simp] theorem rset_links (d : Dev) (n : RegName) (die i j hi lo v : Nat) : (rset d n die i j hi lo v).links = d.links := rfl
@[simp] theorem rset_lateCmds (d : Dev) (n : RegName) (die i j hi lo v : Nat) : (rset d n die i j hi lo v).lateCmds = d.lateCmds := rfl
@[simp] theorem rset_lateLops (d : Dev) (n : RegName) (die i j hi lo v : Nat) : (rset d n die i j hi lo v).lateLops = d.lateLops := rfl
@[simp] theorem rset_xfers (d : Dev) (n : RegName) (die i j hi lo v : Nat) : (rset d n die i j hi lo v).xfers = d.xfers := rfl
@[simp] theorem rset_inbound (d : Dev) (n : RegName) (die i j hi lo v : Nat) : (rset d n die i j hi lo v).inbound = d.inbound := rfl
@[simp] theorem rset_colls (d : Dev) (n : RegName) (die i j hi lo v : Nat) : (rset d n die i j hi lo v).colls = d.colls := rfl
@[simp] theorem rset_groups (d : Dev) (n : RegName) (die i j hi lo v : Nat) : (rset d n die i j hi lo v).groups = d.groups := rfl
@[simp] theorem rset_ports (d : Dev) (n : RegName) (die i j hi lo v : Nat) : (rset d n die i j hi lo v).ports = d.ports := rfl
@[simp] theorem rset_sent (d : Dev) (n : RegName) (die i j hi lo v : Nat) : (rset d n die i j hi lo v).sent = d.sent := rfl
@[simp] theorem rset_wire (d : Dev) (n : RegName) (die i j hi lo v : Nat) : (rset d n die i j hi lo v).wire = d.wire := rfl
@[simp] theorem rset_sess (d : Dev) (n : RegName) (die i j hi lo v : Nat) : (rset d n die i j hi lo v).sess = d.sess := rfl
@[simp] theorem rset_pipes (d : Dev) (n : RegName) (die i j hi lo v : Nat) : (rset d n die i j hi lo v).pipes = d.pipes := rfl
@[simp] theorem rset_accepted (d : Dev) (n : RegName) (die i j hi lo v : Nat) : (rset d n die i j hi lo v).accepted = d.accepted := rfl
@[simp] theorem rset_station (d : Dev) (n : RegName) (die i j hi lo v : Nat) : (rset d n die i j hi lo v).station = d.station := rfl
@[simp] theorem rset_mgmt (d : Dev) (n : RegName) (die i j hi lo v : Nat) : (rset d n die i j hi lo v).mgmt = d.mgmt := rfl
@[simp] theorem rset_boot (d : Dev) (n : RegName) (die i j hi lo v : Nat) : (rset d n die i j hi lo v).boot = d.boot := rfl
@[simp] theorem rset_pkg (d : Dev) (n : RegName) (die i j hi lo v : Nat) : (rset d n die i j hi lo v).pkg = d.pkg := rfl
@[simp] theorem rset_taps (d : Dev) (n : RegName) (die i j hi lo v : Nat) : (rset d n die i j hi lo v).taps = d.taps := rfl
@[simp] theorem rset_reply (d : Dev) (n : RegName) (die i j hi lo v : Nat) : (rset d n die i j hi lo v).reply = d.reply := rfl
@[simp] theorem rset_serial (d : Dev) (n : RegName) (die i j hi lo v : Nat) : (rset d n die i j hi lo v).serial = d.serial := rfl
@[simp] theorem rset_free (d : Dev) (n : RegName) (die i j hi lo v : Nat) : (rset d n die i j hi lo v).free = d.free := rfl

/-! ### nextSerial -/

@[simp] theorem nextSerial_part (d : Dev) : (nextSerial d).part = d.part := rfl
@[simp] theorem nextSerial_tick (d : Dev) : (nextSerial d).tick = d.tick := rfl
@[simp] theorem nextSerial_regs (d : Dev) : (nextSerial d).regs = d.regs := rfl
@[simp] theorem nextSerial_shadow (d : Dev) : (nextSerial d).shadow = d.shadow := rfl
@[simp] theorem nextSerial_live (d : Dev) : (nextSerial d).live = d.live := rfl
@[simp] theorem nextSerial_mem (d : Dev) : (nextSerial d).mem = d.mem := rfl
@[simp] theorem nextSerial_poison (d : Dev) : (nextSerial d).poison = d.poison := rfl
@[simp] theorem nextSerial_cache (d : Dev) : (nextSerial d).cache = d.cache := rfl
@[simp] theorem nextSerial_clock (d : Dev) : (nextSerial d).clock = d.clock := rfl
@[simp] theorem nextSerial_laneCounts (d : Dev) : (nextSerial d).laneCounts = d.laneCounts := rfl
@[simp] theorem nextSerial_ueCounts (d : Dev) : (nextSerial d).ueCounts = d.ueCounts := rfl
@[simp] theorem nextSerial_readonly (d : Dev) : (nextSerial d).readonly = d.readonly := rfl
@[simp] theorem nextSerial_cores (d : Dev) : (nextSerial d).cores = d.cores := rfl
@[simp] theorem nextSerial_stakes (d : Dev) : (nextSerial d).stakes = d.stakes := rfl
@[simp] theorem nextSerial_hubs (d : Dev) : (nextSerial d).hubs = d.hubs := rfl
@[simp] theorem nextSerial_wakes (d : Dev) : (nextSerial d).wakes = d.wakes := rfl
@[simp] theorem nextSerial_errs (d : Dev) : (nextSerial d).errs = d.errs := rfl
@[simp] theorem nextSerial_events (d : Dev) : (nextSerial d).events = d.events := rfl
@[simp] theorem nextSerial_gap (d : Dev) : (nextSerial d).gap = d.gap := rfl
@[simp] theorem nextSerial_objs (d : Dev) : (nextSerial d).objs = d.objs := rfl
@[simp] theorem nextSerial_chans (d : Dev) : (nextSerial d).chans = d.chans := rfl
@[simp] theorem nextSerial_admin (d : Dev) : (nextSerial d).admin = d.admin := rfl
@[simp] theorem nextSerial_parcels (d : Dev) : (nextSerial d).parcels = d.parcels := rfl
@[simp] theorem nextSerial_sched (d : Dev) : (nextSerial d).sched = d.sched := rfl
@[simp] theorem nextSerial_notices (d : Dev) : (nextSerial d).notices = d.notices := rfl
@[simp] theorem nextSerial_meas (d : Dev) : (nextSerial d).meas = d.meas := rfl
@[simp] theorem nextSerial_normal (d : Dev) : (nextSerial d).normal = d.normal := rfl
@[simp] theorem nextSerial_kvs (d : Dev) : (nextSerial d).kvs = d.kvs := rfl
@[simp] theorem nextSerial_kvReady (d : Dev) : (nextSerial d).kvReady = d.kvReady := rfl
@[simp] theorem nextSerial_kvFlush (d : Dev) : (nextSerial d).kvFlush = d.kvFlush := rfl
@[simp] theorem nextSerial_expWait (d : Dev) : (nextSerial d).expWait = d.expWait := rfl
@[simp] theorem nextSerial_expQ (d : Dev) : (nextSerial d).expQ = d.expQ := rfl
@[simp] theorem nextSerial_links (d : Dev) : (nextSerial d).links = d.links := rfl
@[simp] theorem nextSerial_lateCmds (d : Dev) : (nextSerial d).lateCmds = d.lateCmds := rfl
@[simp] theorem nextSerial_lateLops (d : Dev) : (nextSerial d).lateLops = d.lateLops := rfl
@[simp] theorem nextSerial_xfers (d : Dev) : (nextSerial d).xfers = d.xfers := rfl
@[simp] theorem nextSerial_inbound (d : Dev) : (nextSerial d).inbound = d.inbound := rfl
@[simp] theorem nextSerial_colls (d : Dev) : (nextSerial d).colls = d.colls := rfl
@[simp] theorem nextSerial_groups (d : Dev) : (nextSerial d).groups = d.groups := rfl
@[simp] theorem nextSerial_ports (d : Dev) : (nextSerial d).ports = d.ports := rfl
@[simp] theorem nextSerial_sent (d : Dev) : (nextSerial d).sent = d.sent := rfl
@[simp] theorem nextSerial_wire (d : Dev) : (nextSerial d).wire = d.wire := rfl
@[simp] theorem nextSerial_sess (d : Dev) : (nextSerial d).sess = d.sess := rfl
@[simp] theorem nextSerial_pipes (d : Dev) : (nextSerial d).pipes = d.pipes := rfl
@[simp] theorem nextSerial_accepted (d : Dev) : (nextSerial d).accepted = d.accepted := rfl
@[simp] theorem nextSerial_station (d : Dev) : (nextSerial d).station = d.station := rfl
@[simp] theorem nextSerial_mgmt (d : Dev) : (nextSerial d).mgmt = d.mgmt := rfl
@[simp] theorem nextSerial_boot (d : Dev) : (nextSerial d).boot = d.boot := rfl
@[simp] theorem nextSerial_pkg (d : Dev) : (nextSerial d).pkg = d.pkg := rfl
@[simp] theorem nextSerial_taps (d : Dev) : (nextSerial d).taps = d.taps := rfl
@[simp] theorem nextSerial_reply (d : Dev) : (nextSerial d).reply = d.reply := rfl
@[simp] theorem nextSerial_free (d : Dev) : (nextSerial d).free = d.free := rfl

/-! ### freeNext -/

@[simp] theorem freeNext_part (d : Dev) : (freeNext d).part = d.part := rfl
@[simp] theorem freeNext_tick (d : Dev) : (freeNext d).tick = d.tick := rfl
@[simp] theorem freeNext_regs (d : Dev) : (freeNext d).regs = d.regs := rfl
@[simp] theorem freeNext_shadow (d : Dev) : (freeNext d).shadow = d.shadow := rfl
@[simp] theorem freeNext_live (d : Dev) : (freeNext d).live = d.live := rfl
@[simp] theorem freeNext_mem (d : Dev) : (freeNext d).mem = d.mem := rfl
@[simp] theorem freeNext_poison (d : Dev) : (freeNext d).poison = d.poison := rfl
@[simp] theorem freeNext_cache (d : Dev) : (freeNext d).cache = d.cache := rfl
@[simp] theorem freeNext_clock (d : Dev) : (freeNext d).clock = d.clock := rfl
@[simp] theorem freeNext_laneCounts (d : Dev) : (freeNext d).laneCounts = d.laneCounts := rfl
@[simp] theorem freeNext_ueCounts (d : Dev) : (freeNext d).ueCounts = d.ueCounts := rfl
@[simp] theorem freeNext_readonly (d : Dev) : (freeNext d).readonly = d.readonly := rfl
@[simp] theorem freeNext_cores (d : Dev) : (freeNext d).cores = d.cores := rfl
@[simp] theorem freeNext_stakes (d : Dev) : (freeNext d).stakes = d.stakes := rfl
@[simp] theorem freeNext_hubs (d : Dev) : (freeNext d).hubs = d.hubs := rfl
@[simp] theorem freeNext_wakes (d : Dev) : (freeNext d).wakes = d.wakes := rfl
@[simp] theorem freeNext_errs (d : Dev) : (freeNext d).errs = d.errs := rfl
@[simp] theorem freeNext_events (d : Dev) : (freeNext d).events = d.events := rfl
@[simp] theorem freeNext_gap (d : Dev) : (freeNext d).gap = d.gap := rfl
@[simp] theorem freeNext_objs (d : Dev) : (freeNext d).objs = d.objs := rfl
@[simp] theorem freeNext_chans (d : Dev) : (freeNext d).chans = d.chans := rfl
@[simp] theorem freeNext_admin (d : Dev) : (freeNext d).admin = d.admin := rfl
@[simp] theorem freeNext_parcels (d : Dev) : (freeNext d).parcels = d.parcels := rfl
@[simp] theorem freeNext_sched (d : Dev) : (freeNext d).sched = d.sched := rfl
@[simp] theorem freeNext_notices (d : Dev) : (freeNext d).notices = d.notices := rfl
@[simp] theorem freeNext_meas (d : Dev) : (freeNext d).meas = d.meas := rfl
@[simp] theorem freeNext_normal (d : Dev) : (freeNext d).normal = d.normal := rfl
@[simp] theorem freeNext_kvs (d : Dev) : (freeNext d).kvs = d.kvs := rfl
@[simp] theorem freeNext_kvReady (d : Dev) : (freeNext d).kvReady = d.kvReady := rfl
@[simp] theorem freeNext_kvFlush (d : Dev) : (freeNext d).kvFlush = d.kvFlush := rfl
@[simp] theorem freeNext_expWait (d : Dev) : (freeNext d).expWait = d.expWait := rfl
@[simp] theorem freeNext_expQ (d : Dev) : (freeNext d).expQ = d.expQ := rfl
@[simp] theorem freeNext_links (d : Dev) : (freeNext d).links = d.links := rfl
@[simp] theorem freeNext_lateCmds (d : Dev) : (freeNext d).lateCmds = d.lateCmds := rfl
@[simp] theorem freeNext_lateLops (d : Dev) : (freeNext d).lateLops = d.lateLops := rfl
@[simp] theorem freeNext_xfers (d : Dev) : (freeNext d).xfers = d.xfers := rfl
@[simp] theorem freeNext_inbound (d : Dev) : (freeNext d).inbound = d.inbound := rfl
@[simp] theorem freeNext_colls (d : Dev) : (freeNext d).colls = d.colls := rfl
@[simp] theorem freeNext_groups (d : Dev) : (freeNext d).groups = d.groups := rfl
@[simp] theorem freeNext_ports (d : Dev) : (freeNext d).ports = d.ports := rfl
@[simp] theorem freeNext_sent (d : Dev) : (freeNext d).sent = d.sent := rfl
@[simp] theorem freeNext_wire (d : Dev) : (freeNext d).wire = d.wire := rfl
@[simp] theorem freeNext_sess (d : Dev) : (freeNext d).sess = d.sess := rfl
@[simp] theorem freeNext_pipes (d : Dev) : (freeNext d).pipes = d.pipes := rfl
@[simp] theorem freeNext_accepted (d : Dev) : (freeNext d).accepted = d.accepted := rfl
@[simp] theorem freeNext_station (d : Dev) : (freeNext d).station = d.station := rfl
@[simp] theorem freeNext_mgmt (d : Dev) : (freeNext d).mgmt = d.mgmt := rfl
@[simp] theorem freeNext_boot (d : Dev) : (freeNext d).boot = d.boot := rfl
@[simp] theorem freeNext_pkg (d : Dev) : (freeNext d).pkg = d.pkg := rfl
@[simp] theorem freeNext_taps (d : Dev) : (freeNext d).taps = d.taps := rfl
@[simp] theorem freeNext_reply (d : Dev) : (freeNext d).reply = d.reply := rfl
@[simp] theorem freeNext_serial (d : Dev) : (freeNext d).serial = d.serial := rfl

/-! ### setStake -/

@[simp] theorem setStake_part (d : Dev) (id : StakeId) (x : Stake) : (setStake d id x).part = d.part := rfl
@[simp] theorem setStake_tick (d : Dev) (id : StakeId) (x : Stake) : (setStake d id x).tick = d.tick := rfl
@[simp] theorem setStake_regs (d : Dev) (id : StakeId) (x : Stake) : (setStake d id x).regs = d.regs := rfl
@[simp] theorem setStake_shadow (d : Dev) (id : StakeId) (x : Stake) : (setStake d id x).shadow = d.shadow := rfl
@[simp] theorem setStake_live (d : Dev) (id : StakeId) (x : Stake) : (setStake d id x).live = d.live := rfl
@[simp] theorem setStake_mem (d : Dev) (id : StakeId) (x : Stake) : (setStake d id x).mem = d.mem := rfl
@[simp] theorem setStake_poison (d : Dev) (id : StakeId) (x : Stake) : (setStake d id x).poison = d.poison := rfl
@[simp] theorem setStake_cache (d : Dev) (id : StakeId) (x : Stake) : (setStake d id x).cache = d.cache := rfl
@[simp] theorem setStake_clock (d : Dev) (id : StakeId) (x : Stake) : (setStake d id x).clock = d.clock := rfl
@[simp] theorem setStake_laneCounts (d : Dev) (id : StakeId) (x : Stake) : (setStake d id x).laneCounts = d.laneCounts := rfl
@[simp] theorem setStake_ueCounts (d : Dev) (id : StakeId) (x : Stake) : (setStake d id x).ueCounts = d.ueCounts := rfl
@[simp] theorem setStake_readonly (d : Dev) (id : StakeId) (x : Stake) : (setStake d id x).readonly = d.readonly := rfl
@[simp] theorem setStake_cores (d : Dev) (id : StakeId) (x : Stake) : (setStake d id x).cores = d.cores := rfl
@[simp] theorem setStake_hubs (d : Dev) (id : StakeId) (x : Stake) : (setStake d id x).hubs = d.hubs := rfl
@[simp] theorem setStake_wakes (d : Dev) (id : StakeId) (x : Stake) : (setStake d id x).wakes = d.wakes := rfl
@[simp] theorem setStake_errs (d : Dev) (id : StakeId) (x : Stake) : (setStake d id x).errs = d.errs := rfl
@[simp] theorem setStake_events (d : Dev) (id : StakeId) (x : Stake) : (setStake d id x).events = d.events := rfl
@[simp] theorem setStake_gap (d : Dev) (id : StakeId) (x : Stake) : (setStake d id x).gap = d.gap := rfl
@[simp] theorem setStake_objs (d : Dev) (id : StakeId) (x : Stake) : (setStake d id x).objs = d.objs := rfl
@[simp] theorem setStake_chans (d : Dev) (id : StakeId) (x : Stake) : (setStake d id x).chans = d.chans := rfl
@[simp] theorem setStake_admin (d : Dev) (id : StakeId) (x : Stake) : (setStake d id x).admin = d.admin := rfl
@[simp] theorem setStake_parcels (d : Dev) (id : StakeId) (x : Stake) : (setStake d id x).parcels = d.parcels := rfl
@[simp] theorem setStake_sched (d : Dev) (id : StakeId) (x : Stake) : (setStake d id x).sched = d.sched := rfl
@[simp] theorem setStake_notices (d : Dev) (id : StakeId) (x : Stake) : (setStake d id x).notices = d.notices := rfl
@[simp] theorem setStake_meas (d : Dev) (id : StakeId) (x : Stake) : (setStake d id x).meas = d.meas := rfl
@[simp] theorem setStake_normal (d : Dev) (id : StakeId) (x : Stake) : (setStake d id x).normal = d.normal := rfl
@[simp] theorem setStake_kvs (d : Dev) (id : StakeId) (x : Stake) : (setStake d id x).kvs = d.kvs := rfl
@[simp] theorem setStake_kvReady (d : Dev) (id : StakeId) (x : Stake) : (setStake d id x).kvReady = d.kvReady := rfl
@[simp] theorem setStake_kvFlush (d : Dev) (id : StakeId) (x : Stake) : (setStake d id x).kvFlush = d.kvFlush := rfl
@[simp] theorem setStake_expWait (d : Dev) (id : StakeId) (x : Stake) : (setStake d id x).expWait = d.expWait := rfl
@[simp] theorem setStake_expQ (d : Dev) (id : StakeId) (x : Stake) : (setStake d id x).expQ = d.expQ := rfl
@[simp] theorem setStake_links (d : Dev) (id : StakeId) (x : Stake) : (setStake d id x).links = d.links := rfl
@[simp] theorem setStake_lateCmds (d : Dev) (id : StakeId) (x : Stake) : (setStake d id x).lateCmds = d.lateCmds := rfl
@[simp] theorem setStake_lateLops (d : Dev) (id : StakeId) (x : Stake) : (setStake d id x).lateLops = d.lateLops := rfl
@[simp] theorem setStake_xfers (d : Dev) (id : StakeId) (x : Stake) : (setStake d id x).xfers = d.xfers := rfl
@[simp] theorem setStake_inbound (d : Dev) (id : StakeId) (x : Stake) : (setStake d id x).inbound = d.inbound := rfl
@[simp] theorem setStake_colls (d : Dev) (id : StakeId) (x : Stake) : (setStake d id x).colls = d.colls := rfl
@[simp] theorem setStake_groups (d : Dev) (id : StakeId) (x : Stake) : (setStake d id x).groups = d.groups := rfl
@[simp] theorem setStake_ports (d : Dev) (id : StakeId) (x : Stake) : (setStake d id x).ports = d.ports := rfl
@[simp] theorem setStake_sent (d : Dev) (id : StakeId) (x : Stake) : (setStake d id x).sent = d.sent := rfl
@[simp] theorem setStake_wire (d : Dev) (id : StakeId) (x : Stake) : (setStake d id x).wire = d.wire := rfl
@[simp] theorem setStake_sess (d : Dev) (id : StakeId) (x : Stake) : (setStake d id x).sess = d.sess := rfl
@[simp] theorem setStake_pipes (d : Dev) (id : StakeId) (x : Stake) : (setStake d id x).pipes = d.pipes := rfl
@[simp] theorem setStake_accepted (d : Dev) (id : StakeId) (x : Stake) : (setStake d id x).accepted = d.accepted := rfl
@[simp] theorem setStake_station (d : Dev) (id : StakeId) (x : Stake) : (setStake d id x).station = d.station := rfl
@[simp] theorem setStake_mgmt (d : Dev) (id : StakeId) (x : Stake) : (setStake d id x).mgmt = d.mgmt := rfl
@[simp] theorem setStake_boot (d : Dev) (id : StakeId) (x : Stake) : (setStake d id x).boot = d.boot := rfl
@[simp] theorem setStake_pkg (d : Dev) (id : StakeId) (x : Stake) : (setStake d id x).pkg = d.pkg := rfl
@[simp] theorem setStake_taps (d : Dev) (id : StakeId) (x : Stake) : (setStake d id x).taps = d.taps := rfl
@[simp] theorem setStake_reply (d : Dev) (id : StakeId) (x : Stake) : (setStake d id x).reply = d.reply := rfl
@[simp] theorem setStake_serial (d : Dev) (id : StakeId) (x : Stake) : (setStake d id x).serial = d.serial := rfl
@[simp] theorem setStake_free (d : Dev) (id : StakeId) (x : Stake) : (setStake d id x).free = d.free := rfl

/-! ### setHub -/

@[simp] theorem setHub_part (d : Dev) (die h : Nat) (x : Hub) : (setHub d die h x).part = d.part := rfl
@[simp] theorem setHub_tick (d : Dev) (die h : Nat) (x : Hub) : (setHub d die h x).tick = d.tick := rfl
@[simp] theorem setHub_regs (d : Dev) (die h : Nat) (x : Hub) : (setHub d die h x).regs = d.regs := rfl
@[simp] theorem setHub_shadow (d : Dev) (die h : Nat) (x : Hub) : (setHub d die h x).shadow = d.shadow := rfl
@[simp] theorem setHub_live (d : Dev) (die h : Nat) (x : Hub) : (setHub d die h x).live = d.live := rfl
@[simp] theorem setHub_mem (d : Dev) (die h : Nat) (x : Hub) : (setHub d die h x).mem = d.mem := rfl
@[simp] theorem setHub_poison (d : Dev) (die h : Nat) (x : Hub) : (setHub d die h x).poison = d.poison := rfl
@[simp] theorem setHub_cache (d : Dev) (die h : Nat) (x : Hub) : (setHub d die h x).cache = d.cache := rfl
@[simp] theorem setHub_clock (d : Dev) (die h : Nat) (x : Hub) : (setHub d die h x).clock = d.clock := rfl
@[simp] theorem setHub_laneCounts (d : Dev) (die h : Nat) (x : Hub) : (setHub d die h x).laneCounts = d.laneCounts := rfl
@[simp] theorem setHub_ueCounts (d : Dev) (die h : Nat) (x : Hub) : (setHub d die h x).ueCounts = d.ueCounts := rfl
@[simp] theorem setHub_readonly (d : Dev) (die h : Nat) (x : Hub) : (setHub d die h x).readonly = d.readonly := rfl
@[simp] theorem setHub_cores (d : Dev) (die h : Nat) (x : Hub) : (setHub d die h x).cores = d.cores := rfl
@[simp] theorem setHub_stakes (d : Dev) (die h : Nat) (x : Hub) : (setHub d die h x).stakes = d.stakes := rfl
@[simp] theorem setHub_wakes (d : Dev) (die h : Nat) (x : Hub) : (setHub d die h x).wakes = d.wakes := rfl
@[simp] theorem setHub_errs (d : Dev) (die h : Nat) (x : Hub) : (setHub d die h x).errs = d.errs := rfl
@[simp] theorem setHub_events (d : Dev) (die h : Nat) (x : Hub) : (setHub d die h x).events = d.events := rfl
@[simp] theorem setHub_gap (d : Dev) (die h : Nat) (x : Hub) : (setHub d die h x).gap = d.gap := rfl
@[simp] theorem setHub_objs (d : Dev) (die h : Nat) (x : Hub) : (setHub d die h x).objs = d.objs := rfl
@[simp] theorem setHub_chans (d : Dev) (die h : Nat) (x : Hub) : (setHub d die h x).chans = d.chans := rfl
@[simp] theorem setHub_admin (d : Dev) (die h : Nat) (x : Hub) : (setHub d die h x).admin = d.admin := rfl
@[simp] theorem setHub_parcels (d : Dev) (die h : Nat) (x : Hub) : (setHub d die h x).parcels = d.parcels := rfl
@[simp] theorem setHub_sched (d : Dev) (die h : Nat) (x : Hub) : (setHub d die h x).sched = d.sched := rfl
@[simp] theorem setHub_notices (d : Dev) (die h : Nat) (x : Hub) : (setHub d die h x).notices = d.notices := rfl
@[simp] theorem setHub_meas (d : Dev) (die h : Nat) (x : Hub) : (setHub d die h x).meas = d.meas := rfl
@[simp] theorem setHub_normal (d : Dev) (die h : Nat) (x : Hub) : (setHub d die h x).normal = d.normal := rfl
@[simp] theorem setHub_kvs (d : Dev) (die h : Nat) (x : Hub) : (setHub d die h x).kvs = d.kvs := rfl
@[simp] theorem setHub_kvReady (d : Dev) (die h : Nat) (x : Hub) : (setHub d die h x).kvReady = d.kvReady := rfl
@[simp] theorem setHub_kvFlush (d : Dev) (die h : Nat) (x : Hub) : (setHub d die h x).kvFlush = d.kvFlush := rfl
@[simp] theorem setHub_expWait (d : Dev) (die h : Nat) (x : Hub) : (setHub d die h x).expWait = d.expWait := rfl
@[simp] theorem setHub_expQ (d : Dev) (die h : Nat) (x : Hub) : (setHub d die h x).expQ = d.expQ := rfl
@[simp] theorem setHub_links (d : Dev) (die h : Nat) (x : Hub) : (setHub d die h x).links = d.links := rfl
@[simp] theorem setHub_lateCmds (d : Dev) (die h : Nat) (x : Hub) : (setHub d die h x).lateCmds = d.lateCmds := rfl
@[simp] theorem setHub_lateLops (d : Dev) (die h : Nat) (x : Hub) : (setHub d die h x).lateLops = d.lateLops := rfl
@[simp] theorem setHub_xfers (d : Dev) (die h : Nat) (x : Hub) : (setHub d die h x).xfers = d.xfers := rfl
@[simp] theorem setHub_inbound (d : Dev) (die h : Nat) (x : Hub) : (setHub d die h x).inbound = d.inbound := rfl
@[simp] theorem setHub_colls (d : Dev) (die h : Nat) (x : Hub) : (setHub d die h x).colls = d.colls := rfl
@[simp] theorem setHub_groups (d : Dev) (die h : Nat) (x : Hub) : (setHub d die h x).groups = d.groups := rfl
@[simp] theorem setHub_ports (d : Dev) (die h : Nat) (x : Hub) : (setHub d die h x).ports = d.ports := rfl
@[simp] theorem setHub_sent (d : Dev) (die h : Nat) (x : Hub) : (setHub d die h x).sent = d.sent := rfl
@[simp] theorem setHub_wire (d : Dev) (die h : Nat) (x : Hub) : (setHub d die h x).wire = d.wire := rfl
@[simp] theorem setHub_sess (d : Dev) (die h : Nat) (x : Hub) : (setHub d die h x).sess = d.sess := rfl
@[simp] theorem setHub_pipes (d : Dev) (die h : Nat) (x : Hub) : (setHub d die h x).pipes = d.pipes := rfl
@[simp] theorem setHub_accepted (d : Dev) (die h : Nat) (x : Hub) : (setHub d die h x).accepted = d.accepted := rfl
@[simp] theorem setHub_station (d : Dev) (die h : Nat) (x : Hub) : (setHub d die h x).station = d.station := rfl
@[simp] theorem setHub_mgmt (d : Dev) (die h : Nat) (x : Hub) : (setHub d die h x).mgmt = d.mgmt := rfl
@[simp] theorem setHub_boot (d : Dev) (die h : Nat) (x : Hub) : (setHub d die h x).boot = d.boot := rfl
@[simp] theorem setHub_pkg (d : Dev) (die h : Nat) (x : Hub) : (setHub d die h x).pkg = d.pkg := rfl
@[simp] theorem setHub_taps (d : Dev) (die h : Nat) (x : Hub) : (setHub d die h x).taps = d.taps := rfl
@[simp] theorem setHub_reply (d : Dev) (die h : Nat) (x : Hub) : (setHub d die h x).reply = d.reply := rfl
@[simp] theorem setHub_serial (d : Dev) (die h : Nat) (x : Hub) : (setHub d die h x).serial = d.serial := rfl
@[simp] theorem setHub_free (d : Dev) (die h : Nat) (x : Hub) : (setHub d die h x).free = d.free := rfl

/-! ### setRing -/

@[simp] theorem setRing_part (d : Dev) (die : Nat) (r : ErrRing) : (setRing d die r).part = d.part := rfl
@[simp] theorem setRing_tick (d : Dev) (die : Nat) (r : ErrRing) : (setRing d die r).tick = d.tick := rfl
@[simp] theorem setRing_regs (d : Dev) (die : Nat) (r : ErrRing) : (setRing d die r).regs = d.regs := rfl
@[simp] theorem setRing_shadow (d : Dev) (die : Nat) (r : ErrRing) : (setRing d die r).shadow = d.shadow := rfl
@[simp] theorem setRing_live (d : Dev) (die : Nat) (r : ErrRing) : (setRing d die r).live = d.live := rfl
@[simp] theorem setRing_mem (d : Dev) (die : Nat) (r : ErrRing) : (setRing d die r).mem = d.mem := rfl
@[simp] theorem setRing_poison (d : Dev) (die : Nat) (r : ErrRing) : (setRing d die r).poison = d.poison := rfl
@[simp] theorem setRing_cache (d : Dev) (die : Nat) (r : ErrRing) : (setRing d die r).cache = d.cache := rfl
@[simp] theorem setRing_clock (d : Dev) (die : Nat) (r : ErrRing) : (setRing d die r).clock = d.clock := rfl
@[simp] theorem setRing_laneCounts (d : Dev) (die : Nat) (r : ErrRing) : (setRing d die r).laneCounts = d.laneCounts := rfl
@[simp] theorem setRing_ueCounts (d : Dev) (die : Nat) (r : ErrRing) : (setRing d die r).ueCounts = d.ueCounts := rfl
@[simp] theorem setRing_readonly (d : Dev) (die : Nat) (r : ErrRing) : (setRing d die r).readonly = d.readonly := rfl
@[simp] theorem setRing_cores (d : Dev) (die : Nat) (r : ErrRing) : (setRing d die r).cores = d.cores := rfl
@[simp] theorem setRing_stakes (d : Dev) (die : Nat) (r : ErrRing) : (setRing d die r).stakes = d.stakes := rfl
@[simp] theorem setRing_hubs (d : Dev) (die : Nat) (r : ErrRing) : (setRing d die r).hubs = d.hubs := rfl
@[simp] theorem setRing_wakes (d : Dev) (die : Nat) (r : ErrRing) : (setRing d die r).wakes = d.wakes := rfl
@[simp] theorem setRing_events (d : Dev) (die : Nat) (r : ErrRing) : (setRing d die r).events = d.events := rfl
@[simp] theorem setRing_gap (d : Dev) (die : Nat) (r : ErrRing) : (setRing d die r).gap = d.gap := rfl
@[simp] theorem setRing_objs (d : Dev) (die : Nat) (r : ErrRing) : (setRing d die r).objs = d.objs := rfl
@[simp] theorem setRing_chans (d : Dev) (die : Nat) (r : ErrRing) : (setRing d die r).chans = d.chans := rfl
@[simp] theorem setRing_admin (d : Dev) (die : Nat) (r : ErrRing) : (setRing d die r).admin = d.admin := rfl
@[simp] theorem setRing_parcels (d : Dev) (die : Nat) (r : ErrRing) : (setRing d die r).parcels = d.parcels := rfl
@[simp] theorem setRing_sched (d : Dev) (die : Nat) (r : ErrRing) : (setRing d die r).sched = d.sched := rfl
@[simp] theorem setRing_notices (d : Dev) (die : Nat) (r : ErrRing) : (setRing d die r).notices = d.notices := rfl
@[simp] theorem setRing_meas (d : Dev) (die : Nat) (r : ErrRing) : (setRing d die r).meas = d.meas := rfl
@[simp] theorem setRing_normal (d : Dev) (die : Nat) (r : ErrRing) : (setRing d die r).normal = d.normal := rfl
@[simp] theorem setRing_kvs (d : Dev) (die : Nat) (r : ErrRing) : (setRing d die r).kvs = d.kvs := rfl
@[simp] theorem setRing_kvReady (d : Dev) (die : Nat) (r : ErrRing) : (setRing d die r).kvReady = d.kvReady := rfl
@[simp] theorem setRing_kvFlush (d : Dev) (die : Nat) (r : ErrRing) : (setRing d die r).kvFlush = d.kvFlush := rfl
@[simp] theorem setRing_expWait (d : Dev) (die : Nat) (r : ErrRing) : (setRing d die r).expWait = d.expWait := rfl
@[simp] theorem setRing_expQ (d : Dev) (die : Nat) (r : ErrRing) : (setRing d die r).expQ = d.expQ := rfl
@[simp] theorem setRing_links (d : Dev) (die : Nat) (r : ErrRing) : (setRing d die r).links = d.links := rfl
@[simp] theorem setRing_lateCmds (d : Dev) (die : Nat) (r : ErrRing) : (setRing d die r).lateCmds = d.lateCmds := rfl
@[simp] theorem setRing_lateLops (d : Dev) (die : Nat) (r : ErrRing) : (setRing d die r).lateLops = d.lateLops := rfl
@[simp] theorem setRing_xfers (d : Dev) (die : Nat) (r : ErrRing) : (setRing d die r).xfers = d.xfers := rfl
@[simp] theorem setRing_inbound (d : Dev) (die : Nat) (r : ErrRing) : (setRing d die r).inbound = d.inbound := rfl
@[simp] theorem setRing_colls (d : Dev) (die : Nat) (r : ErrRing) : (setRing d die r).colls = d.colls := rfl
@[simp] theorem setRing_groups (d : Dev) (die : Nat) (r : ErrRing) : (setRing d die r).groups = d.groups := rfl
@[simp] theorem setRing_ports (d : Dev) (die : Nat) (r : ErrRing) : (setRing d die r).ports = d.ports := rfl
@[simp] theorem setRing_sent (d : Dev) (die : Nat) (r : ErrRing) : (setRing d die r).sent = d.sent := rfl
@[simp] theorem setRing_wire (d : Dev) (die : Nat) (r : ErrRing) : (setRing d die r).wire = d.wire := rfl
@[simp] theorem setRing_sess (d : Dev) (die : Nat) (r : ErrRing) : (setRing d die r).sess = d.sess := rfl
@[simp] theorem setRing_pipes (d : Dev) (die : Nat) (r : ErrRing) : (setRing d die r).pipes = d.pipes := rfl
@[simp] theorem setRing_accepted (d : Dev) (die : Nat) (r : ErrRing) : (setRing d die r).accepted = d.accepted := rfl
@[simp] theorem setRing_station (d : Dev) (die : Nat) (r : ErrRing) : (setRing d die r).station = d.station := rfl
@[simp] theorem setRing_mgmt (d : Dev) (die : Nat) (r : ErrRing) : (setRing d die r).mgmt = d.mgmt := rfl
@[simp] theorem setRing_boot (d : Dev) (die : Nat) (r : ErrRing) : (setRing d die r).boot = d.boot := rfl
@[simp] theorem setRing_pkg (d : Dev) (die : Nat) (r : ErrRing) : (setRing d die r).pkg = d.pkg := rfl
@[simp] theorem setRing_taps (d : Dev) (die : Nat) (r : ErrRing) : (setRing d die r).taps = d.taps := rfl
@[simp] theorem setRing_reply (d : Dev) (die : Nat) (r : ErrRing) : (setRing d die r).reply = d.reply := rfl
@[simp] theorem setRing_serial (d : Dev) (die : Nat) (r : ErrRing) : (setRing d die r).serial = d.serial := rfl
@[simp] theorem setRing_free (d : Dev) (die : Nat) (r : ErrRing) : (setRing d die r).free = d.free := rfl

/-! ### memPut -/

@[simp] theorem memPut_part (d : Dev) (k : Nat) (bs : List Byte) : (memPut d k bs).part = d.part := rfl
@[simp] theorem memPut_tick (d : Dev) (k : Nat) (bs : List Byte) : (memPut d k bs).tick = d.tick := rfl
@[simp] theorem memPut_regs (d : Dev) (k : Nat) (bs : List Byte) : (memPut d k bs).regs = d.regs := rfl
@[simp] theorem memPut_shadow (d : Dev) (k : Nat) (bs : List Byte) : (memPut d k bs).shadow = d.shadow := rfl
@[simp] theorem memPut_live (d : Dev) (k : Nat) (bs : List Byte) : (memPut d k bs).live = d.live := rfl
@[simp] theorem memPut_poison (d : Dev) (k : Nat) (bs : List Byte) : (memPut d k bs).poison = d.poison := rfl
@[simp] theorem memPut_cache (d : Dev) (k : Nat) (bs : List Byte) : (memPut d k bs).cache = d.cache := rfl
@[simp] theorem memPut_clock (d : Dev) (k : Nat) (bs : List Byte) : (memPut d k bs).clock = d.clock := rfl
@[simp] theorem memPut_laneCounts (d : Dev) (k : Nat) (bs : List Byte) : (memPut d k bs).laneCounts = d.laneCounts := rfl
@[simp] theorem memPut_ueCounts (d : Dev) (k : Nat) (bs : List Byte) : (memPut d k bs).ueCounts = d.ueCounts := rfl
@[simp] theorem memPut_readonly (d : Dev) (k : Nat) (bs : List Byte) : (memPut d k bs).readonly = d.readonly := rfl
@[simp] theorem memPut_cores (d : Dev) (k : Nat) (bs : List Byte) : (memPut d k bs).cores = d.cores := rfl
@[simp] theorem memPut_stakes (d : Dev) (k : Nat) (bs : List Byte) : (memPut d k bs).stakes = d.stakes := rfl
@[simp] theorem memPut_hubs (d : Dev) (k : Nat) (bs : List Byte) : (memPut d k bs).hubs = d.hubs := rfl
@[simp] theorem memPut_wakes (d : Dev) (k : Nat) (bs : List Byte) : (memPut d k bs).wakes = d.wakes := rfl
@[simp] theorem memPut_errs (d : Dev) (k : Nat) (bs : List Byte) : (memPut d k bs).errs = d.errs := rfl
@[simp] theorem memPut_events (d : Dev) (k : Nat) (bs : List Byte) : (memPut d k bs).events = d.events := rfl
@[simp] theorem memPut_gap (d : Dev) (k : Nat) (bs : List Byte) : (memPut d k bs).gap = d.gap := rfl
@[simp] theorem memPut_objs (d : Dev) (k : Nat) (bs : List Byte) : (memPut d k bs).objs = d.objs := rfl
@[simp] theorem memPut_chans (d : Dev) (k : Nat) (bs : List Byte) : (memPut d k bs).chans = d.chans := rfl
@[simp] theorem memPut_admin (d : Dev) (k : Nat) (bs : List Byte) : (memPut d k bs).admin = d.admin := rfl
@[simp] theorem memPut_parcels (d : Dev) (k : Nat) (bs : List Byte) : (memPut d k bs).parcels = d.parcels := rfl
@[simp] theorem memPut_sched (d : Dev) (k : Nat) (bs : List Byte) : (memPut d k bs).sched = d.sched := rfl
@[simp] theorem memPut_notices (d : Dev) (k : Nat) (bs : List Byte) : (memPut d k bs).notices = d.notices := rfl
@[simp] theorem memPut_meas (d : Dev) (k : Nat) (bs : List Byte) : (memPut d k bs).meas = d.meas := rfl
@[simp] theorem memPut_normal (d : Dev) (k : Nat) (bs : List Byte) : (memPut d k bs).normal = d.normal := rfl
@[simp] theorem memPut_kvs (d : Dev) (k : Nat) (bs : List Byte) : (memPut d k bs).kvs = d.kvs := rfl
@[simp] theorem memPut_kvReady (d : Dev) (k : Nat) (bs : List Byte) : (memPut d k bs).kvReady = d.kvReady := rfl
@[simp] theorem memPut_kvFlush (d : Dev) (k : Nat) (bs : List Byte) : (memPut d k bs).kvFlush = d.kvFlush := rfl
@[simp] theorem memPut_expWait (d : Dev) (k : Nat) (bs : List Byte) : (memPut d k bs).expWait = d.expWait := rfl
@[simp] theorem memPut_expQ (d : Dev) (k : Nat) (bs : List Byte) : (memPut d k bs).expQ = d.expQ := rfl
@[simp] theorem memPut_links (d : Dev) (k : Nat) (bs : List Byte) : (memPut d k bs).links = d.links := rfl
@[simp] theorem memPut_lateCmds (d : Dev) (k : Nat) (bs : List Byte) : (memPut d k bs).lateCmds = d.lateCmds := rfl
@[simp] theorem memPut_lateLops (d : Dev) (k : Nat) (bs : List Byte) : (memPut d k bs).lateLops = d.lateLops := rfl
@[simp] theorem memPut_xfers (d : Dev) (k : Nat) (bs : List Byte) : (memPut d k bs).xfers = d.xfers := rfl
@[simp] theorem memPut_inbound (d : Dev) (k : Nat) (bs : List Byte) : (memPut d k bs).inbound = d.inbound := rfl
@[simp] theorem memPut_colls (d : Dev) (k : Nat) (bs : List Byte) : (memPut d k bs).colls = d.colls := rfl
@[simp] theorem memPut_groups (d : Dev) (k : Nat) (bs : List Byte) : (memPut d k bs).groups = d.groups := rfl
@[simp] theorem memPut_ports (d : Dev) (k : Nat) (bs : List Byte) : (memPut d k bs).ports = d.ports := rfl
@[simp] theorem memPut_sent (d : Dev) (k : Nat) (bs : List Byte) : (memPut d k bs).sent = d.sent := rfl
@[simp] theorem memPut_wire (d : Dev) (k : Nat) (bs : List Byte) : (memPut d k bs).wire = d.wire := rfl
@[simp] theorem memPut_sess (d : Dev) (k : Nat) (bs : List Byte) : (memPut d k bs).sess = d.sess := rfl
@[simp] theorem memPut_pipes (d : Dev) (k : Nat) (bs : List Byte) : (memPut d k bs).pipes = d.pipes := rfl
@[simp] theorem memPut_accepted (d : Dev) (k : Nat) (bs : List Byte) : (memPut d k bs).accepted = d.accepted := rfl
@[simp] theorem memPut_station (d : Dev) (k : Nat) (bs : List Byte) : (memPut d k bs).station = d.station := rfl
@[simp] theorem memPut_mgmt (d : Dev) (k : Nat) (bs : List Byte) : (memPut d k bs).mgmt = d.mgmt := rfl
@[simp] theorem memPut_boot (d : Dev) (k : Nat) (bs : List Byte) : (memPut d k bs).boot = d.boot := rfl
@[simp] theorem memPut_pkg (d : Dev) (k : Nat) (bs : List Byte) : (memPut d k bs).pkg = d.pkg := rfl
@[simp] theorem memPut_taps (d : Dev) (k : Nat) (bs : List Byte) : (memPut d k bs).taps = d.taps := rfl
@[simp] theorem memPut_reply (d : Dev) (k : Nat) (bs : List Byte) : (memPut d k bs).reply = d.reply := rfl
@[simp] theorem memPut_serial (d : Dev) (k : Nat) (bs : List Byte) : (memPut d k bs).serial = d.serial := rfl
@[simp] theorem memPut_free (d : Dev) (k : Nat) (bs : List Byte) : (memPut d k bs).free = d.free := rfl

/-! ### setPoison -/

@[simp] theorem setPoison_part (d : Dev) (k : Nat) (b : Bool) : (setPoison d k b).part = d.part := rfl
@[simp] theorem setPoison_tick (d : Dev) (k : Nat) (b : Bool) : (setPoison d k b).tick = d.tick := rfl
@[simp] theorem setPoison_regs (d : Dev) (k : Nat) (b : Bool) : (setPoison d k b).regs = d.regs := rfl
@[simp] theorem setPoison_shadow (d : Dev) (k : Nat) (b : Bool) : (setPoison d k b).shadow = d.shadow := rfl
@[simp] theorem setPoison_live (d : Dev) (k : Nat) (b : Bool) : (setPoison d k b).live = d.live := rfl
@[simp] theorem setPoison_mem (d : Dev) (k : Nat) (b : Bool) : (setPoison d k b).mem = d.mem := rfl
@[simp] theorem setPoison_cache (d : Dev) (k : Nat) (b : Bool) : (setPoison d k b).cache = d.cache := rfl
@[simp] theorem setPoison_clock (d : Dev) (k : Nat) (b : Bool) : (setPoison d k b).clock = d.clock := rfl
@[simp] theorem setPoison_laneCounts (d : Dev) (k : Nat) (b : Bool) : (setPoison d k b).laneCounts = d.laneCounts := rfl
@[simp] theorem setPoison_ueCounts (d : Dev) (k : Nat) (b : Bool) : (setPoison d k b).ueCounts = d.ueCounts := rfl
@[simp] theorem setPoison_readonly (d : Dev) (k : Nat) (b : Bool) : (setPoison d k b).readonly = d.readonly := rfl
@[simp] theorem setPoison_cores (d : Dev) (k : Nat) (b : Bool) : (setPoison d k b).cores = d.cores := rfl
@[simp] theorem setPoison_stakes (d : Dev) (k : Nat) (b : Bool) : (setPoison d k b).stakes = d.stakes := rfl
@[simp] theorem setPoison_hubs (d : Dev) (k : Nat) (b : Bool) : (setPoison d k b).hubs = d.hubs := rfl
@[simp] theorem setPoison_wakes (d : Dev) (k : Nat) (b : Bool) : (setPoison d k b).wakes = d.wakes := rfl
@[simp] theorem setPoison_errs (d : Dev) (k : Nat) (b : Bool) : (setPoison d k b).errs = d.errs := rfl
@[simp] theorem setPoison_events (d : Dev) (k : Nat) (b : Bool) : (setPoison d k b).events = d.events := rfl
@[simp] theorem setPoison_gap (d : Dev) (k : Nat) (b : Bool) : (setPoison d k b).gap = d.gap := rfl
@[simp] theorem setPoison_objs (d : Dev) (k : Nat) (b : Bool) : (setPoison d k b).objs = d.objs := rfl
@[simp] theorem setPoison_chans (d : Dev) (k : Nat) (b : Bool) : (setPoison d k b).chans = d.chans := rfl
@[simp] theorem setPoison_admin (d : Dev) (k : Nat) (b : Bool) : (setPoison d k b).admin = d.admin := rfl
@[simp] theorem setPoison_parcels (d : Dev) (k : Nat) (b : Bool) : (setPoison d k b).parcels = d.parcels := rfl
@[simp] theorem setPoison_sched (d : Dev) (k : Nat) (b : Bool) : (setPoison d k b).sched = d.sched := rfl
@[simp] theorem setPoison_notices (d : Dev) (k : Nat) (b : Bool) : (setPoison d k b).notices = d.notices := rfl
@[simp] theorem setPoison_meas (d : Dev) (k : Nat) (b : Bool) : (setPoison d k b).meas = d.meas := rfl
@[simp] theorem setPoison_normal (d : Dev) (k : Nat) (b : Bool) : (setPoison d k b).normal = d.normal := rfl
@[simp] theorem setPoison_kvs (d : Dev) (k : Nat) (b : Bool) : (setPoison d k b).kvs = d.kvs := rfl
@[simp] theorem setPoison_kvReady (d : Dev) (k : Nat) (b : Bool) : (setPoison d k b).kvReady = d.kvReady := rfl
@[simp] theorem setPoison_kvFlush (d : Dev) (k : Nat) (b : Bool) : (setPoison d k b).kvFlush = d.kvFlush := rfl
@[simp] theorem setPoison_expWait (d : Dev) (k : Nat) (b : Bool) : (setPoison d k b).expWait = d.expWait := rfl
@[simp] theorem setPoison_expQ (d : Dev) (k : Nat) (b : Bool) : (setPoison d k b).expQ = d.expQ := rfl
@[simp] theorem setPoison_links (d : Dev) (k : Nat) (b : Bool) : (setPoison d k b).links = d.links := rfl
@[simp] theorem setPoison_lateCmds (d : Dev) (k : Nat) (b : Bool) : (setPoison d k b).lateCmds = d.lateCmds := rfl
@[simp] theorem setPoison_lateLops (d : Dev) (k : Nat) (b : Bool) : (setPoison d k b).lateLops = d.lateLops := rfl
@[simp] theorem setPoison_xfers (d : Dev) (k : Nat) (b : Bool) : (setPoison d k b).xfers = d.xfers := rfl
@[simp] theorem setPoison_inbound (d : Dev) (k : Nat) (b : Bool) : (setPoison d k b).inbound = d.inbound := rfl
@[simp] theorem setPoison_colls (d : Dev) (k : Nat) (b : Bool) : (setPoison d k b).colls = d.colls := rfl
@[simp] theorem setPoison_groups (d : Dev) (k : Nat) (b : Bool) : (setPoison d k b).groups = d.groups := rfl
@[simp] theorem setPoison_ports (d : Dev) (k : Nat) (b : Bool) : (setPoison d k b).ports = d.ports := rfl
@[simp] theorem setPoison_sent (d : Dev) (k : Nat) (b : Bool) : (setPoison d k b).sent = d.sent := rfl
@[simp] theorem setPoison_wire (d : Dev) (k : Nat) (b : Bool) : (setPoison d k b).wire = d.wire := rfl
@[simp] theorem setPoison_sess (d : Dev) (k : Nat) (b : Bool) : (setPoison d k b).sess = d.sess := rfl
@[simp] theorem setPoison_pipes (d : Dev) (k : Nat) (b : Bool) : (setPoison d k b).pipes = d.pipes := rfl
@[simp] theorem setPoison_accepted (d : Dev) (k : Nat) (b : Bool) : (setPoison d k b).accepted = d.accepted := rfl
@[simp] theorem setPoison_station (d : Dev) (k : Nat) (b : Bool) : (setPoison d k b).station = d.station := rfl
@[simp] theorem setPoison_mgmt (d : Dev) (k : Nat) (b : Bool) : (setPoison d k b).mgmt = d.mgmt := rfl
@[simp] theorem setPoison_boot (d : Dev) (k : Nat) (b : Bool) : (setPoison d k b).boot = d.boot := rfl
@[simp] theorem setPoison_pkg (d : Dev) (k : Nat) (b : Bool) : (setPoison d k b).pkg = d.pkg := rfl
@[simp] theorem setPoison_taps (d : Dev) (k : Nat) (b : Bool) : (setPoison d k b).taps = d.taps := rfl
@[simp] theorem setPoison_reply (d : Dev) (k : Nat) (b : Bool) : (setPoison d k b).reply = d.reply := rfl
@[simp] theorem setPoison_serial (d : Dev) (k : Nat) (b : Bool) : (setPoison d k b).serial = d.serial := rfl
@[simp] theorem setPoison_free (d : Dev) (k : Nat) (b : Bool) : (setPoison d k b).free = d.free := rfl

/-! ### setChan -/

@[simp] theorem setChan_part (d : Dev) (ch : Nat) (x : Channel) : (setChan d ch x).part = d.part := rfl
@[simp] theorem setChan_tick (d : Dev) (ch : Nat) (x : Channel) : (setChan d ch x).tick = d.tick := rfl
@[simp] theorem setChan_regs (d : Dev) (ch : Nat) (x : Channel) : (setChan d ch x).regs = d.regs := rfl
@[simp] theorem setChan_shadow (d : Dev) (ch : Nat) (x : Channel) : (setChan d ch x).shadow = d.shadow := rfl
@[simp] theorem setChan_live (d : Dev) (ch : Nat) (x : Channel) : (setChan d ch x).live = d.live := rfl
@[simp] theorem setChan_mem (d : Dev) (ch : Nat) (x : Channel) : (setChan d ch x).mem = d.mem := rfl
@[simp] theorem setChan_poison (d : Dev) (ch : Nat) (x : Channel) : (setChan d ch x).poison = d.poison := rfl
@[simp] theorem setChan_cache (d : Dev) (ch : Nat) (x : Channel) : (setChan d ch x).cache = d.cache := rfl
@[simp] theorem setChan_clock (d : Dev) (ch : Nat) (x : Channel) : (setChan d ch x).clock = d.clock := rfl
@[simp] theorem setChan_laneCounts (d : Dev) (ch : Nat) (x : Channel) : (setChan d ch x).laneCounts = d.laneCounts := rfl
@[simp] theorem setChan_ueCounts (d : Dev) (ch : Nat) (x : Channel) : (setChan d ch x).ueCounts = d.ueCounts := rfl
@[simp] theorem setChan_readonly (d : Dev) (ch : Nat) (x : Channel) : (setChan d ch x).readonly = d.readonly := rfl
@[simp] theorem setChan_cores (d : Dev) (ch : Nat) (x : Channel) : (setChan d ch x).cores = d.cores := rfl
@[simp] theorem setChan_stakes (d : Dev) (ch : Nat) (x : Channel) : (setChan d ch x).stakes = d.stakes := rfl
@[simp] theorem setChan_hubs (d : Dev) (ch : Nat) (x : Channel) : (setChan d ch x).hubs = d.hubs := rfl
@[simp] theorem setChan_wakes (d : Dev) (ch : Nat) (x : Channel) : (setChan d ch x).wakes = d.wakes := rfl
@[simp] theorem setChan_errs (d : Dev) (ch : Nat) (x : Channel) : (setChan d ch x).errs = d.errs := rfl
@[simp] theorem setChan_events (d : Dev) (ch : Nat) (x : Channel) : (setChan d ch x).events = d.events := rfl
@[simp] theorem setChan_gap (d : Dev) (ch : Nat) (x : Channel) : (setChan d ch x).gap = d.gap := rfl
@[simp] theorem setChan_objs (d : Dev) (ch : Nat) (x : Channel) : (setChan d ch x).objs = d.objs := rfl
@[simp] theorem setChan_admin (d : Dev) (ch : Nat) (x : Channel) : (setChan d ch x).admin = d.admin := rfl
@[simp] theorem setChan_parcels (d : Dev) (ch : Nat) (x : Channel) : (setChan d ch x).parcels = d.parcels := rfl
@[simp] theorem setChan_sched (d : Dev) (ch : Nat) (x : Channel) : (setChan d ch x).sched = d.sched := rfl
@[simp] theorem setChan_notices (d : Dev) (ch : Nat) (x : Channel) : (setChan d ch x).notices = d.notices := rfl
@[simp] theorem setChan_meas (d : Dev) (ch : Nat) (x : Channel) : (setChan d ch x).meas = d.meas := rfl
@[simp] theorem setChan_normal (d : Dev) (ch : Nat) (x : Channel) : (setChan d ch x).normal = d.normal := rfl
@[simp] theorem setChan_kvs (d : Dev) (ch : Nat) (x : Channel) : (setChan d ch x).kvs = d.kvs := rfl
@[simp] theorem setChan_kvReady (d : Dev) (ch : Nat) (x : Channel) : (setChan d ch x).kvReady = d.kvReady := rfl
@[simp] theorem setChan_kvFlush (d : Dev) (ch : Nat) (x : Channel) : (setChan d ch x).kvFlush = d.kvFlush := rfl
@[simp] theorem setChan_expWait (d : Dev) (ch : Nat) (x : Channel) : (setChan d ch x).expWait = d.expWait := rfl
@[simp] theorem setChan_expQ (d : Dev) (ch : Nat) (x : Channel) : (setChan d ch x).expQ = d.expQ := rfl
@[simp] theorem setChan_links (d : Dev) (ch : Nat) (x : Channel) : (setChan d ch x).links = d.links := rfl
@[simp] theorem setChan_lateCmds (d : Dev) (ch : Nat) (x : Channel) : (setChan d ch x).lateCmds = d.lateCmds := rfl
@[simp] theorem setChan_lateLops (d : Dev) (ch : Nat) (x : Channel) : (setChan d ch x).lateLops = d.lateLops := rfl
@[simp] theorem setChan_xfers (d : Dev) (ch : Nat) (x : Channel) : (setChan d ch x).xfers = d.xfers := rfl
@[simp] theorem setChan_inbound (d : Dev) (ch : Nat) (x : Channel) : (setChan d ch x).inbound = d.inbound := rfl
@[simp] theorem setChan_colls (d : Dev) (ch : Nat) (x : Channel) : (setChan d ch x).colls = d.colls := rfl
@[simp] theorem setChan_groups (d : Dev) (ch : Nat) (x : Channel) : (setChan d ch x).groups = d.groups := rfl
@[simp] theorem setChan_ports (d : Dev) (ch : Nat) (x : Channel) : (setChan d ch x).ports = d.ports := rfl
@[simp] theorem setChan_sent (d : Dev) (ch : Nat) (x : Channel) : (setChan d ch x).sent = d.sent := rfl
@[simp] theorem setChan_wire (d : Dev) (ch : Nat) (x : Channel) : (setChan d ch x).wire = d.wire := rfl
@[simp] theorem setChan_sess (d : Dev) (ch : Nat) (x : Channel) : (setChan d ch x).sess = d.sess := rfl
@[simp] theorem setChan_pipes (d : Dev) (ch : Nat) (x : Channel) : (setChan d ch x).pipes = d.pipes := rfl
@[simp] theorem setChan_accepted (d : Dev) (ch : Nat) (x : Channel) : (setChan d ch x).accepted = d.accepted := rfl
@[simp] theorem setChan_station (d : Dev) (ch : Nat) (x : Channel) : (setChan d ch x).station = d.station := rfl
@[simp] theorem setChan_mgmt (d : Dev) (ch : Nat) (x : Channel) : (setChan d ch x).mgmt = d.mgmt := rfl
@[simp] theorem setChan_boot (d : Dev) (ch : Nat) (x : Channel) : (setChan d ch x).boot = d.boot := rfl
@[simp] theorem setChan_pkg (d : Dev) (ch : Nat) (x : Channel) : (setChan d ch x).pkg = d.pkg := rfl
@[simp] theorem setChan_taps (d : Dev) (ch : Nat) (x : Channel) : (setChan d ch x).taps = d.taps := rfl
@[simp] theorem setChan_reply (d : Dev) (ch : Nat) (x : Channel) : (setChan d ch x).reply = d.reply := rfl
@[simp] theorem setChan_serial (d : Dev) (ch : Nat) (x : Channel) : (setChan d ch x).serial = d.serial := rfl
@[simp] theorem setChan_free (d : Dev) (ch : Nat) (x : Channel) : (setChan d ch x).free = d.free := rfl

/-! ### setParcel -/

@[simp] theorem setParcel_part (d : Dev) (p : Nat) (x : Parcel) : (setParcel d p x).part = d.part := rfl
@[simp] theorem setParcel_tick (d : Dev) (p : Nat) (x : Parcel) : (setParcel d p x).tick = d.tick := rfl
@[simp] theorem setParcel_regs (d : Dev) (p : Nat) (x : Parcel) : (setParcel d p x).regs = d.regs := rfl
@[simp] theorem setParcel_shadow (d : Dev) (p : Nat) (x : Parcel) : (setParcel d p x).shadow = d.shadow := rfl
@[simp] theorem setParcel_live (d : Dev) (p : Nat) (x : Parcel) : (setParcel d p x).live = d.live := rfl
@[simp] theorem setParcel_mem (d : Dev) (p : Nat) (x : Parcel) : (setParcel d p x).mem = d.mem := rfl
@[simp] theorem setParcel_poison (d : Dev) (p : Nat) (x : Parcel) : (setParcel d p x).poison = d.poison := rfl
@[simp] theorem setParcel_cache (d : Dev) (p : Nat) (x : Parcel) : (setParcel d p x).cache = d.cache := rfl
@[simp] theorem setParcel_clock (d : Dev) (p : Nat) (x : Parcel) : (setParcel d p x).clock = d.clock := rfl
@[simp] theorem setParcel_laneCounts (d : Dev) (p : Nat) (x : Parcel) : (setParcel d p x).laneCounts = d.laneCounts := rfl
@[simp] theorem setParcel_ueCounts (d : Dev) (p : Nat) (x : Parcel) : (setParcel d p x).ueCounts = d.ueCounts := rfl
@[simp] theorem setParcel_readonly (d : Dev) (p : Nat) (x : Parcel) : (setParcel d p x).readonly = d.readonly := rfl
@[simp] theorem setParcel_cores (d : Dev) (p : Nat) (x : Parcel) : (setParcel d p x).cores = d.cores := rfl
@[simp] theorem setParcel_stakes (d : Dev) (p : Nat) (x : Parcel) : (setParcel d p x).stakes = d.stakes := rfl
@[simp] theorem setParcel_hubs (d : Dev) (p : Nat) (x : Parcel) : (setParcel d p x).hubs = d.hubs := rfl
@[simp] theorem setParcel_wakes (d : Dev) (p : Nat) (x : Parcel) : (setParcel d p x).wakes = d.wakes := rfl
@[simp] theorem setParcel_errs (d : Dev) (p : Nat) (x : Parcel) : (setParcel d p x).errs = d.errs := rfl
@[simp] theorem setParcel_events (d : Dev) (p : Nat) (x : Parcel) : (setParcel d p x).events = d.events := rfl
@[simp] theorem setParcel_gap (d : Dev) (p : Nat) (x : Parcel) : (setParcel d p x).gap = d.gap := rfl
@[simp] theorem setParcel_objs (d : Dev) (p : Nat) (x : Parcel) : (setParcel d p x).objs = d.objs := rfl
@[simp] theorem setParcel_chans (d : Dev) (p : Nat) (x : Parcel) : (setParcel d p x).chans = d.chans := rfl
@[simp] theorem setParcel_admin (d : Dev) (p : Nat) (x : Parcel) : (setParcel d p x).admin = d.admin := rfl
@[simp] theorem setParcel_sched (d : Dev) (p : Nat) (x : Parcel) : (setParcel d p x).sched = d.sched := rfl
@[simp] theorem setParcel_notices (d : Dev) (p : Nat) (x : Parcel) : (setParcel d p x).notices = d.notices := rfl
@[simp] theorem setParcel_meas (d : Dev) (p : Nat) (x : Parcel) : (setParcel d p x).meas = d.meas := rfl
@[simp] theorem setParcel_normal (d : Dev) (p : Nat) (x : Parcel) : (setParcel d p x).normal = d.normal := rfl
@[simp] theorem setParcel_kvs (d : Dev) (p : Nat) (x : Parcel) : (setParcel d p x).kvs = d.kvs := rfl
@[simp] theorem setParcel_kvReady (d : Dev) (p : Nat) (x : Parcel) : (setParcel d p x).kvReady = d.kvReady := rfl
@[simp] theorem setParcel_kvFlush (d : Dev) (p : Nat) (x : Parcel) : (setParcel d p x).kvFlush = d.kvFlush := rfl
@[simp] theorem setParcel_expWait (d : Dev) (p : Nat) (x : Parcel) : (setParcel d p x).expWait = d.expWait := rfl
@[simp] theorem setParcel_expQ (d : Dev) (p : Nat) (x : Parcel) : (setParcel d p x).expQ = d.expQ := rfl
@[simp] theorem setParcel_links (d : Dev) (p : Nat) (x : Parcel) : (setParcel d p x).links = d.links := rfl
@[simp] theorem setParcel_lateCmds (d : Dev) (p : Nat) (x : Parcel) : (setParcel d p x).lateCmds = d.lateCmds := rfl
@[simp] theorem setParcel_lateLops (d : Dev) (p : Nat) (x : Parcel) : (setParcel d p x).lateLops = d.lateLops := rfl
@[simp] theorem setParcel_xfers (d : Dev) (p : Nat) (x : Parcel) : (setParcel d p x).xfers = d.xfers := rfl
@[simp] theorem setParcel_inbound (d : Dev) (p : Nat) (x : Parcel) : (setParcel d p x).inbound = d.inbound := rfl
@[simp] theorem setParcel_colls (d : Dev) (p : Nat) (x : Parcel) : (setParcel d p x).colls = d.colls := rfl
@[simp] theorem setParcel_groups (d : Dev) (p : Nat) (x : Parcel) : (setParcel d p x).groups = d.groups := rfl
@[simp] theorem setParcel_ports (d : Dev) (p : Nat) (x : Parcel) : (setParcel d p x).ports = d.ports := rfl
@[simp] theorem setParcel_sent (d : Dev) (p : Nat) (x : Parcel) : (setParcel d p x).sent = d.sent := rfl
@[simp] theorem setParcel_wire (d : Dev) (p : Nat) (x : Parcel) : (setParcel d p x).wire = d.wire := rfl
@[simp] theorem setParcel_sess (d : Dev) (p : Nat) (x : Parcel) : (setParcel d p x).sess = d.sess := rfl
@[simp] theorem setParcel_pipes (d : Dev) (p : Nat) (x : Parcel) : (setParcel d p x).pipes = d.pipes := rfl
@[simp] theorem setParcel_accepted (d : Dev) (p : Nat) (x : Parcel) : (setParcel d p x).accepted = d.accepted := rfl
@[simp] theorem setParcel_station (d : Dev) (p : Nat) (x : Parcel) : (setParcel d p x).station = d.station := rfl
@[simp] theorem setParcel_mgmt (d : Dev) (p : Nat) (x : Parcel) : (setParcel d p x).mgmt = d.mgmt := rfl
@[simp] theorem setParcel_boot (d : Dev) (p : Nat) (x : Parcel) : (setParcel d p x).boot = d.boot := rfl
@[simp] theorem setParcel_pkg (d : Dev) (p : Nat) (x : Parcel) : (setParcel d p x).pkg = d.pkg := rfl
@[simp] theorem setParcel_taps (d : Dev) (p : Nat) (x : Parcel) : (setParcel d p x).taps = d.taps := rfl
@[simp] theorem setParcel_reply (d : Dev) (p : Nat) (x : Parcel) : (setParcel d p x).reply = d.reply := rfl
@[simp] theorem setParcel_serial (d : Dev) (p : Nat) (x : Parcel) : (setParcel d p x).serial = d.serial := rfl
@[simp] theorem setParcel_free (d : Dev) (p : Nat) (x : Parcel) : (setParcel d p x).free = d.free := rfl

/-! ### setBoot -/

@[simp] theorem setBoot_part (d : Dev) (die : Nat) (x : Boot) : (setBoot d die x).part = d.part := rfl
@[simp] theorem setBoot_tick (d : Dev) (die : Nat) (x : Boot) : (setBoot d die x).tick = d.tick := rfl
@[simp] theorem setBoot_regs (d : Dev) (die : Nat) (x : Boot) : (setBoot d die x).regs = d.regs := rfl
@[simp] theorem setBoot_shadow (d : Dev) (die : Nat) (x : Boot) : (setBoot d die x).shadow = d.shadow := rfl
@[simp] theorem setBoot_live (d : Dev) (die : Nat) (x : Boot) : (setBoot d die x).live = d.live := rfl
@[simp] theorem setBoot_mem (d : Dev) (die : Nat) (x : Boot) : (setBoot d die x).mem = d.mem := rfl
@[simp] theorem setBoot_poison (d : Dev) (die : Nat) (x : Boot) : (setBoot d die x).poison = d.poison := rfl
@[simp] theorem setBoot_cache (d : Dev) (die : Nat) (x : Boot) : (setBoot d die x).cache = d.cache := rfl
@[simp] theorem setBoot_clock (d : Dev) (die : Nat) (x : Boot) : (setBoot d die x).clock = d.clock := rfl
@[simp] theorem setBoot_laneCounts (d : Dev) (die : Nat) (x : Boot) : (setBoot d die x).laneCounts = d.laneCounts := rfl
@[simp] theorem setBoot_ueCounts (d : Dev) (die : Nat) (x : Boot) : (setBoot d die x).ueCounts = d.ueCounts := rfl
@[simp] theorem setBoot_readonly (d : Dev) (die : Nat) (x : Boot) : (setBoot d die x).readonly = d.readonly := rfl
@[simp] theorem setBoot_cores (d : Dev) (die : Nat) (x : Boot) : (setBoot d die x).cores = d.cores := rfl
@[simp] theorem setBoot_stakes (d : Dev) (die : Nat) (x : Boot) : (setBoot d die x).stakes = d.stakes := rfl
@[simp] theorem setBoot_hubs (d : Dev) (die : Nat) (x : Boot) : (setBoot d die x).hubs = d.hubs := rfl
@[simp] theorem setBoot_wakes (d : Dev) (die : Nat) (x : Boot) : (setBoot d die x).wakes = d.wakes := rfl
@[simp] theorem setBoot_errs (d : Dev) (die : Nat) (x : Boot) : (setBoot d die x).errs = d.errs := rfl
@[simp] theorem setBoot_events (d : Dev) (die : Nat) (x : Boot) : (setBoot d die x).events = d.events := rfl
@[simp] theorem setBoot_gap (d : Dev) (die : Nat) (x : Boot) : (setBoot d die x).gap = d.gap := rfl
@[simp] theorem setBoot_objs (d : Dev) (die : Nat) (x : Boot) : (setBoot d die x).objs = d.objs := rfl
@[simp] theorem setBoot_chans (d : Dev) (die : Nat) (x : Boot) : (setBoot d die x).chans = d.chans := rfl
@[simp] theorem setBoot_admin (d : Dev) (die : Nat) (x : Boot) : (setBoot d die x).admin = d.admin := rfl
@[simp] theorem setBoot_parcels (d : Dev) (die : Nat) (x : Boot) : (setBoot d die x).parcels = d.parcels := rfl
@[simp] theorem setBoot_sched (d : Dev) (die : Nat) (x : Boot) : (setBoot d die x).sched = d.sched := rfl
@[simp] theorem setBoot_notices (d : Dev) (die : Nat) (x : Boot) : (setBoot d die x).notices = d.notices := rfl
@[simp] theorem setBoot_meas (d : Dev) (die : Nat) (x : Boot) : (setBoot d die x).meas = d.meas := rfl
@[simp] theorem setBoot_normal (d : Dev) (die : Nat) (x : Boot) : (setBoot d die x).normal = d.normal := rfl
@[simp] theorem setBoot_kvs (d : Dev) (die : Nat) (x : Boot) : (setBoot d die x).kvs = d.kvs := rfl
@[simp] theorem setBoot_kvReady (d : Dev) (die : Nat) (x : Boot) : (setBoot d die x).kvReady = d.kvReady := rfl
@[simp] theorem setBoot_kvFlush (d : Dev) (die : Nat) (x : Boot) : (setBoot d die x).kvFlush = d.kvFlush := rfl
@[simp] theorem setBoot_expWait (d : Dev) (die : Nat) (x : Boot) : (setBoot d die x).expWait = d.expWait := rfl
@[simp] theorem setBoot_expQ (d : Dev) (die : Nat) (x : Boot) : (setBoot d die x).expQ = d.expQ := rfl
@[simp] theorem setBoot_links (d : Dev) (die : Nat) (x : Boot) : (setBoot d die x).links = d.links := rfl
@[simp] theorem setBoot_lateCmds (d : Dev) (die : Nat) (x : Boot) : (setBoot d die x).lateCmds = d.lateCmds := rfl
@[simp] theorem setBoot_lateLops (d : Dev) (die : Nat) (x : Boot) : (setBoot d die x).lateLops = d.lateLops := rfl
@[simp] theorem setBoot_xfers (d : Dev) (die : Nat) (x : Boot) : (setBoot d die x).xfers = d.xfers := rfl
@[simp] theorem setBoot_inbound (d : Dev) (die : Nat) (x : Boot) : (setBoot d die x).inbound = d.inbound := rfl
@[simp] theorem setBoot_colls (d : Dev) (die : Nat) (x : Boot) : (setBoot d die x).colls = d.colls := rfl
@[simp] theorem setBoot_groups (d : Dev) (die : Nat) (x : Boot) : (setBoot d die x).groups = d.groups := rfl
@[simp] theorem setBoot_ports (d : Dev) (die : Nat) (x : Boot) : (setBoot d die x).ports = d.ports := rfl
@[simp] theorem setBoot_sent (d : Dev) (die : Nat) (x : Boot) : (setBoot d die x).sent = d.sent := rfl
@[simp] theorem setBoot_wire (d : Dev) (die : Nat) (x : Boot) : (setBoot d die x).wire = d.wire := rfl
@[simp] theorem setBoot_sess (d : Dev) (die : Nat) (x : Boot) : (setBoot d die x).sess = d.sess := rfl
@[simp] theorem setBoot_pipes (d : Dev) (die : Nat) (x : Boot) : (setBoot d die x).pipes = d.pipes := rfl
@[simp] theorem setBoot_accepted (d : Dev) (die : Nat) (x : Boot) : (setBoot d die x).accepted = d.accepted := rfl
@[simp] theorem setBoot_station (d : Dev) (die : Nat) (x : Boot) : (setBoot d die x).station = d.station := rfl
@[simp] theorem setBoot_mgmt (d : Dev) (die : Nat) (x : Boot) : (setBoot d die x).mgmt = d.mgmt := rfl
@[simp] theorem setBoot_pkg (d : Dev) (die : Nat) (x : Boot) : (setBoot d die x).pkg = d.pkg := rfl
@[simp] theorem setBoot_taps (d : Dev) (die : Nat) (x : Boot) : (setBoot d die x).taps = d.taps := rfl
@[simp] theorem setBoot_reply (d : Dev) (die : Nat) (x : Boot) : (setBoot d die x).reply = d.reply := rfl
@[simp] theorem setBoot_serial (d : Dev) (die : Nat) (x : Boot) : (setBoot d die x).serial = d.serial := rfl
@[simp] theorem setBoot_free (d : Dev) (die : Nat) (x : Boot) : (setBoot d die x).free = d.free := rfl

/-! ### Reads after writes -/

/-- Cores of the part have keys of their own. -/
theorem ckey_inj {c e : CoreId} (hc : c.wf = true) (he : e.wf = true) : ckey c = ckey e ↔ c = e := by
  obtain ⟨a, b⟩ := c
  obtain ⟨x, y⟩ := e
  simp only [CoreId.wf, Bool.and_eq_true, decide_eq_true_eq] at hc he
  simp only [ckey, CoreId.mk.injEq]
  omega

@[simp] theorem getCore_setCore (d : Dev) (c : CoreId) (k : Core) : getCore (setCore d c k) c = k := by
  simp [getCore, setCore]

theorem cores_setCore (d : Dev) (c : CoreId) (k : Core) {q : Nat} (h : q ≠ ckey c) :
    tget Core.idle (setCore d c k).cores q = tget Core.idle d.cores q := by
  simp [setCore, tget_tset_ne _ _ _ h]

@[simp] theorem getCore_modCore (d : Dev) (c : CoreId) (f : Core → Core) : getCore (modCore d c f) c = f (getCore d c) := by
  simp [modCore]

@[simp] theorem getCore_modWork (d : Dev) (c : CoreId) (f : Work → Work) :
    getCore (modWork d c f) c = { getCore d c with w := f (getCore d c).w } := by
  simp [modWork]

@[simp] theorem getCore_modSeq (d : Dev) (c : CoreId) (f : Seq → Seq) :
    getCore (modSeq d c f) c = { getCore d c with w := { (getCore d c).w with seq := f (getCore d c).w.seq } } := by
  simp [modSeq]

@[simp] theorem getCore_setCrew (d : Dev) (c : CoreId) (slot : Nat) (k : Option Crew) :
    getCore (setCrew d c slot k) c =
      { getCore d c with w := { (getCore d c).w with crews := tset none (getCore d c).w.crews slot k } } := by
  simp [setCrew]

theorem getCrew_setCrew (d : Dev) (c : CoreId) (slot : Nat) (k : Option Crew) (q : Nat) :
    getCrew (setCrew d c slot k) c q = if q = slot then k else getCrew d c q := by
  simp [getCrew, tget_tset]

@[simp] theorem getCrew_setCrew_self (d : Dev) (c : CoreId) (slot : Nat) (k : Option Crew) :
    getCrew (setCrew d c slot k) c slot = k := by
  simp [getCrew_setCrew]

@[simp] theorem regGet_regSet_self (d : Dev) (n : RegName) (die i j : Nat) (v : W64) :
    regGet (regSet d n die i j v) n die i j = v := by
  simp [regGet, regSet]

@[simp] theorem getStake_setStake_self (d : Dev) (id : StakeId) (x : Stake) : getStake (setStake d id x) id = x := by
  simp [getStake, setStake]

theorem getStake_setStake (d : Dev) (id e : StakeId) (x : Stake) :
    getStake (setStake d id x) e = if e = id then x else getStake d e := by
  simp [getStake, setStake, tget_tset, BitVec.toNat_inj]

@[simp] theorem getHub_setHub_self (d : Dev) (die h : Nat) (x : Hub) : getHub (setHub d die h x) die h = x := by
  simp [getHub, setHub]

@[simp] theorem getChan_setChan_self (d : Dev) (ch : Nat) (x : Channel) : getChan (setChan d ch x) ch = x := by
  simp [getChan, setChan]

@[simp] theorem getParcel_setParcel_self (d : Dev) (p : Nat) (x : Parcel) : getParcel (setParcel d p x) p = x := by
  simp [getParcel, setParcel]

@[simp] theorem getRing_setRing_self (d : Dev) (die : Nat) (r : ErrRing) : getRing (setRing d die r) die = r := by
  simp [getRing, setRing]

/-! ### Updates of one core, written as plain updates -/

/-- A change of one core changes no other core and nothing else. -/
theorem modCore_only (d : Dev) (c : CoreId) (f : Core → Core) :
    { modCore d c f with cores := d.cores } = d ∧ ∀ q, q ≠ ckey c → tget Core.idle (modCore d c f).cores q = tget Core.idle d.cores q :=
  ⟨rfl, fun _ h => cores_setCore d c _ h⟩

end Sys2Proof.Machine
end

