-- ==== Sys2Proof/Laws/Agents.lean ====
section
/-!
SUPPORT. The laws of running a command and of issuing an instruction: what `runOk`, `issue` and `issueStep` answer, and what going on to the
next instruction leaves unchanged.
-/

namespace Sys2Proof.Machine

/-! ### Running a command -/

/-- `runOk` answers what the effect answers, with the queue put back, once the operands fit and the dies are the part's. -/
theorem runOk_of {wf : Bool} {dies : List Nat} {f : Dev → Res} {s : State} (hw : wf = true) (hd : ∀ x ∈ dies, x < s.dev.part.dies) :
    runOk wf dies f s = match f s.dev with
      | .next d => .next { s with dev := d }
      | .fault r => .fault r
      | .refused r => .refused r := by
  have : (dies.all fun x => decide (x < s.dev.part.dies)) = true := by simpa using hd
  cases h : f s.dev <;> simp [runOk, hw, this, h]

/-- A command whose effect is a next device completes with it. -/
theorem runOk_next {wf : Bool} {dies : List Nat} {f : Dev → Res} {s : State} {t : Dev} (hw : wf = true)
    (hd : ∀ x ∈ dies, x < s.dev.part.dies) (h : f s.dev = .next t) : runOk wf dies f s = .next { s with dev := t } := by
  rw [runOk_of hw hd, h]

/-- The same for `runCmd`. -/
theorem runCmd_next {i : Instr} {f : Dev → Res} {s : State} {t : Dev} (hf : Fits i s) (h : f s.dev = .next t) :
    runCmd i f s = .next { s with dev := t } := runOk_next hf.1 hf.2 h

/-- Whatever `runOk` answers, a next state has the queue it was given. -/
theorem runOk_pending {wf : Bool} {dies : List Nat} {f : Dev → Res} {s t : State} (h : runOk wf dies f s = .next t) :
    t.pending = s.pending := by
  unfold runOk at h
  split at h <;> try cases h
  split at h <;> try cases h
  split at h <;> cases h
  rfl

/-- Where `runOk` answers a next state, its effect gave that state's device. -/
theorem runOk_inv {wf : Bool} {dies : List Nat} {f : Dev → Res} {s t : State} (h : runOk wf dies f s = .next t) :
    f s.dev = .next t.dev ∧ t = { s with dev := t.dev } := by
  unfold runOk at h
  split at h <;> try cases h
  split at h <;> try cases h
  split at h <;> cases h
  exact ⟨‹_›, rfl⟩

/-- A command run by `runCmd` completes with what its effect answers. -/
theorem completes_of {i : Instr} {f : Dev → Res} {s : State} {t : Dev} {P : Dev → Prop} (h : exec i s = runCmd i f s) (hf : Fits i s)
    (e : f s.dev = .next t) (p : P t) : Completes i s P := ⟨t, h.trans (runCmd_next hf e), p⟩

/-- An event that can come about has its effect. -/
@[simp] theorem whenOn_true (row : String) (d : Dev) : whenOn row true d = .next d := rfl

@[simp] theorem orNot_some (row : String) (d : Dev) : orNot row (some d) = .next d := rfl

/-! ### Issuing -/

/-- An instruction that may issue has its effect. -/
theorem issue_of {a : Agent} {i : Instr} {regs : List Nat} {d : Dev} (row : String) (f : Dev → W64 → Res) (h : CanIssue a i regs d) :
    issue row a i regs f d = f d ((encode i).getD 0) := by
  obtain ⟨hr, hp, ho, hi⟩ := h
  have : (regs.any fun r => decide (r ∈ agentInflight d a)) = false := by simpa using hi
  simp [issue, hr, ho, this, show ¬textLen d a.core ≤ agentPc d a by omega]

/-- An instruction that always leaves its agent after it. -/
theorem issueStep_of {a : Agent} {i : Instr} {regs : List Nat} {d : Dev} (row : String) (f : Dev → Dev) (h : CanIssue a i regs d) :
    issueStep row a i regs f d = .next (stepPc (f d) a) := issue_of row _ h

/-- An operand test that fails is taken as an illegal instruction (R118, R119). -/
theorem issue_operand {a : Agent} {i : Instr} {regs : List Nat} {d : Dev} (row : String) (f : Dev → W64 → Res) (hr : agentReady d a = true)
    (hp : agentPc d a < textLen d a.core) (ho : operandSub i ≠ 0) :
    issue row a i regs f d = .next (agentFault d a .illegalInstruction (operandSub i) (agentPc d a) ((encode i).getD 0)) := by
  simp [issue, hr, ho, show ¬textLen d a.core ≤ agentPc d a by omega]

/-- An instruction that names a register in flight waits: nothing changes (R682). -/
theorem issue_inflight {a : Agent} {i : Instr} {regs : List Nat} {d : Dev} (row : String) (f : Dev → W64 → Res) (hr : agentReady d a = true)
    (hp : agentPc d a < textLen d a.core) (ho : operandSub i = 0) (hi : ∃ r ∈ regs, r ∈ agentInflight d a) :
    issue row a i regs f d = .next d := by
  have : (regs.any fun r => decide (r ∈ agentInflight d a)) = true := by simpa using hi
  simp [issue, hr, ho, this, show ¬textLen d a.core ≤ agentPc d a by omega]

/-- An agent that is not ready, or that stands beyond its text region, issues nothing. -/
theorem issue_refused {a : Agent} {i : Instr} {regs : List Nat} {d : Dev} (row : String) (f : Dev → W64 → Res)
    (h : agentReady d a = false ∨ textLen d a.core ≤ agentPc d a) : issue row a i regs f d = .refused (.notEnabled row) := by
  rcases h with h | h <;> simp [issue, h]

/-! ### Changes of one core -/

theorem OnlyCore.refl (c : CoreId) (d : Dev) : OnlyCore c d d := ⟨rfl, fun _ => rfl, fun _ _ => rfl⟩

/-- Changes of one core compose. -/
theorem OnlyCore.trans {c : CoreId} {d e t : Dev} (h : OnlyCore c d e) (g : OnlyCore c e t) : OnlyCore c d t := by
  refine ⟨?_, fun k => (g.2.1 k).trans (h.2.1 k), fun k hk => (g.2.2 k hk).trans (h.2.2 k hk)⟩
  have he := h.1
  have ht := g.1
  rw [← he, ← ht]

/-- Writing one core changes nothing else. -/
theorem setCore_onlyCore (d : Dev) (c : CoreId) (k : Core) : OnlyCore c d (setCore d c k) :=
  ⟨rfl, fun _ => rfl, fun _ h => cores_setCore d c k h⟩

theorem modCore_onlyCore (d : Dev) (c : CoreId) (f : Core → Core) : OnlyCore c d (modCore d c f) := setCore_onlyCore d c _

theorem modSeq_onlyCore (d : Dev) (c : CoreId) (f : Seq → Seq) : OnlyCore c d (modSeq d c f) := setCore_onlyCore d c _

theorem setCrew_onlyCore (d : Dev) (c : CoreId) (slot : Nat) (k : Option Crew) : OnlyCore c d (setCrew d c slot k) := setCore_onlyCore d c _

/-- Going on to the next instruction changes only the issuing core. -/
theorem stepPc_onlyCore (d : Dev) (a : Agent) : OnlyCore a.core d (stepPc d a) := by
  cases a with
  | seq c => exact modSeq_onlyCore d c _
  | crew c slot => exact setCrew_onlyCore d c slot _

/-- A write of a scalar register, then the next instruction. -/
theorem setSreg_step (d : Dev) (c : CoreId) (r : Nat) (v : W64) : SeqWrote c r v d (stepPc (setSreg d c r v) (.seq c)) := by
  have hc : OnlyCore c d (stepPc (setSreg d c r v) (.seq c)) :=
    (modSeq_onlyCore d c _).trans (stepPc_onlyCore (setSreg d c r v) (.seq c))
  refine ⟨⟨hc, ?_⟩, ?_, fun q => ?_⟩
  · simp [stepPc, setPc, agentPc, setSreg, seqOf]
  · simp [stepPc, setPc, agentPc, setSreg, seqOf]
  · simp [stepPc, setPc, agentPc, setSreg, sreg, tget_tset]

/-- A write of an address register, then the next instruction. -/
theorem setAreg_step (d : Dev) (c : CoreId) (r : Nat) (v : Addr) : SeqWroteA c r v d (stepPc (setAreg d c r v) (.seq c)) := by
  have hc : OnlyCore c d (stepPc (setAreg d c r v) (.seq c)) :=
    (modSeq_onlyCore d c _).trans (stepPc_onlyCore (setAreg d c r v) (.seq c))
  refine ⟨⟨hc, ?_⟩, ?_, fun q => ?_⟩
  · simp [stepPc, setPc, agentPc, setAreg, seqOf]
  · simp [stepPc, setPc, agentPc, setAreg, seqOf]
  · simp [stepPc, setPc, agentPc, setAreg, areg, tget_tset]

/-- A change of the sequencer alone. -/
theorem modSeq_onlySeq (d : Dev) (c : CoreId) (f : Seq → Seq) : OnlySeq c d (modSeq d c f) ∧ seqOf (modSeq d c f) c = f (seqOf d c) := by
  refine ⟨⟨modSeq_onlyCore d c f, ?_⟩, ?_⟩ <;> simp [seqOf]

/-- A write to a bound crew slot changes that crew alone. -/
theorem setCrew_onlyCrew (d : Dev) (c : CoreId) (slot : Nat) (k : Option Crew) :
    OnlyCrew c slot d (setCrew d c slot k) ∧ getCrew (setCrew d c slot k) c slot = k := by
  refine ⟨⟨setCrew_onlyCore d c slot k, ?_, fun q h => ?_⟩, getCrew_setCrew_self d c slot k⟩
  · simp
  · simp [getCrew_setCrew, h]

/-- A ready crew is bound to its slot. -/
theorem ready_crew {d : Dev} {a : Agent} (h : agentReady d a = true) : ∀ c slot, a = .crew c slot → (getCrew d c slot).isSome := by
  rintro c slot rfl
  simp only [agentReady, crewReady] at h
  cases hk : getCrew d c slot <;> simp_all

/-- Setting the program counter of an agent does that alone. -/
theorem setPc_wentTo (a : Agent) (d : Dev) (pc : Nat) (h : ∀ c slot, a = .crew c slot → (getCrew d c slot).isSome) :
    WentTo a pc d (setPc d a pc) := by
  refine ⟨?_, rfl, fun _ => ?_⟩
  · cases a with
    | seq c => simp [setPc, agentPc]
    | crew c slot =>
      obtain ⟨k, hk⟩ := Option.isSome_iff_exists.1 (h c slot rfl)
      simp [setPc, agentPc, hk]
  · cases a <;> rfl

end Sys2Proof.Machine
end

