-- ==== Sys2Proof/Laws/Beyond.lean ====
section
/-!
SUPPORT. What the parts of a device that work leaves alone are: from the narrower of Safety.lean's three remainders follow the wider ones, and a fold
keeps a remainder that each of its steps keeps.
-/

namespace Sys2Proof.Machine

theorem beyondUnits_of_beyondCores {d t : Dev} (h : t.beyondCores = d.beyondCores) : t.beyondUnits = d.beyondUnits := by
  simp only [Dev.beyondUnits, h]

theorem beyondWork_of_beyondUnits {d t : Dev} (h : t.beyondUnits = d.beyondUnits) : t.beyondWork = d.beyondWork := by
  simp only [Dev.beyondWork, h]

theorem beyondWork_of_beyondCores {d t : Dev} (h : t.beyondCores = d.beyondCores) : t.beyondWork = d.beyondWork :=
  beyondWork_of_beyondUnits (beyondUnits_of_beyondCores h)

/-- Beyond the cores lies all of memory. -/
theorem memSame_of_beyondCores {d t : Dev} (h : t.beyondCores = d.beyondCores) : MemSame d t := by
  have : t.mem = d.mem := (congrArg Dev.mem h : t.beyondCores.mem = d.beyondCores.mem)
  intro k
  simp only [memByte, this]

section
variable {α β : Type}
@[simp] theorem beyondCores_foldl {g : Dev → α → Dev} (h : ∀ d x, (g d x).beyondCores = d.beyondCores) (l : List α) (d : Dev) : (l.foldl g d).beyondCores = d.beyondCores := by
  induction l generalizing d with
  | nil => rfl
  | cons a l ih => exact (ih _).trans (h _ _)
@[simp] theorem beyondUnits_foldl {g : Dev → α → Dev} (h : ∀ d x, (g d x).beyondUnits = d.beyondUnits) (l : List α) (d : Dev) : (l.foldl g d).beyondUnits = d.beyondUnits := by
  induction l generalizing d with
  | nil => rfl
  | cons a l ih => exact (ih _).trans (h _ _)
@[simp] theorem beyondWork_foldl {g : Dev → α → Dev} (h : ∀ d x, (g d x).beyondWork = d.beyondWork) (l : List α) (d : Dev) : (l.foldl g d).beyondWork = d.beyondWork := by
  induction l generalizing d with
  | nil => rfl
  | cons a l ih => exact (ih _).trans (h _ _)
theorem beyondCores_foldl1 {g : Dev × β → α → Dev × β} (h : ∀ d x, (g d x).1.beyondCores = d.1.beyondCores) (l : List α) (d : Dev × β) : (l.foldl g d).1.beyondCores = d.1.beyondCores := by
  induction l generalizing d with
  | nil => rfl
  | cons a l ih => exact (ih _).trans (h _ _)
theorem beyondUnits_foldl1 {g : Dev × β → α → Dev × β} (h : ∀ d x, (g d x).1.beyondUnits = d.1.beyondUnits) (l : List α) (d : Dev × β) : (l.foldl g d).1.beyondUnits = d.1.beyondUnits := by
  induction l generalizing d with
  | nil => rfl
  | cons a l ih => exact (ih _).trans (h _ _)
theorem beyondWork_foldl1 {g : Dev × β → α → Dev × β} (h : ∀ d x, (g d x).1.beyondWork = d.1.beyondWork) (l : List α) (d : Dev × β) : (l.foldl g d).1.beyondWork = d.1.beyondWork := by
  induction l generalizing d with
  | nil => rfl
  | cons a l ih => exact (ih _).trans (h _ _)
theorem beyondCores_foldl2 {g : β × Dev → α → β × Dev} (h : ∀ d x, (g d x).2.beyondCores = d.2.beyondCores) (l : List α) (d : β × Dev) : (l.foldl g d).2.beyondCores = d.2.beyondCores := by
  induction l generalizing d with
  | nil => rfl
  | cons a l ih => exact (ih _).trans (h _ _)
theorem beyondUnits_foldl2 {g : β × Dev → α → β × Dev} (h : ∀ d x, (g d x).2.beyondUnits = d.2.beyondUnits) (l : List α) (d : β × Dev) : (l.foldl g d).2.beyondUnits = d.2.beyondUnits := by
  induction l generalizing d with
  | nil => rfl
  | cons a l ih => exact (ih _).trans (h _ _)
theorem beyondWork_foldl2 {g : β × Dev → α → β × Dev} (h : ∀ d x, (g d x).2.beyondWork = d.2.beyondWork) (l : List α) (d : β × Dev) : (l.foldl g d).2.beyondWork = d.2.beyondWork := by
  induction l generalizing d with
  | nil => rfl
  | cons a l ih => exact (ih _).trans (h _ _)
end
end Sys2Proof.Machine
end

