-- ==== Sys2Proof/Laws/Bytes.lean ====
section
/-!
SUPPORT. What a write of bytes leaves in memory, and the length of a digest.
-/

namespace Sys2Proof.Machine

/-- Bytes written from place k + o on stand there; every other place reads as before. -/
theorem tget_writes (bs : List Byte) (m : Tbl Byte) (k o q : Nat) :
    tget unlisted ((bs.zipIdx o).foldl (fun m b => tset unlisted m (k + b.2) b.1) m) q =
      if k + o ≤ q ∧ q < k + o + bs.length then bs.getD (q - (k + o)) 0 else tget unlisted m q := by
  induction bs generalizing m o with
  | nil => simp
  | cons b bs ih =>
    rw [List.zipIdx_cons, List.foldl_cons, ih, tget_tset]
    by_cases h : q = k + o
    · subst h; simp
    · by_cases g : k + (o + 1) ≤ q ∧ q < k + (o + 1) + bs.length
      · have e : q - (k + o) = q - (k + (o + 1)) + 1 := by omega
        rw [if_pos g, if_pos (by simp only [List.length_cons]; omega), e, List.getD_cons_succ]
      · rw [if_neg g, if_neg h, if_neg (by simp only [List.length_cons]; omega)]

/-- A byte after a write of bytes. -/
theorem memByte_memPut (d : Dev) (k : Nat) (bs : List Byte) (q : Nat) :
    memByte (memPut d k bs) q = if k ≤ q ∧ q < k + bs.length then bs.getD (q - k) 0 else memByte d q :=
  tget_writes bs d.mem k 0 q

/-- Bytes written are read back. -/
theorem memBytes_memPut (d : Dev) (k : Nat) (bs : List Byte) : memBytes (memPut d k bs) k bs.length = bs := by
  refine List.ext_getElem (by simp [memBytes]) fun i _ h => ?_
  simp only [memBytes, List.getElem_map, List.getElem_range, memByte_memPut]
  rw [if_pos ⟨by omega, by omega⟩, Nat.add_sub_cancel_left, List.getD_eq_getElem _ _ h]

/-- A round keeps the number of words. -/
theorem shaRound_length (h : List W32) (kw : W32) : (shaRound h kw).length = h.length := by
  unfold shaRound; split <;> rfl

/-- So does a block. -/
theorem shaBlock_length (h : List W32) (b : List Byte) : (shaBlock h b).length = h.length := by
  have fold (l : List W32) (g : List W32) : (l.foldl shaRound g).length = g.length := by
    induction l generalizing g with
    | nil => rfl
    | cons x l ih => rw [List.foldl_cons, ih, shaRound_length]
  simp [shaBlock, fold]

/-- A digest has 32 bytes. -/
theorem sha256_length (m : List Byte) : (sha256 m).length = 32 := by
  have fold (l : List (List Byte)) (g : List W32) : (l.foldl shaBlock g).length = g.length := by
    induction l generalizing g with
    | nil => rfl
    | cons x l ih => rw [List.foldl_cons, ih, shaBlock_length]
  have n : ((shaBlocks (shaPad m)).foldl shaBlock shaInit).length = 8 := by rw [fold]; decide +kernel
  simp [sha256, List.length_flatMap, n]

end Sys2Proof.Machine
end

