-- ==== Sys2Proof/Laws/Exec.lean ====
section
/-!
SUPPORT. Every command runs through `runOk`: with its operands tested by `Instr.wf`, its dies by `Instr.dies`, and its queue put back.
-/

namespace Sys2Proof.Machine

/-- What every command is: an effect run by `runOk` under its own tests. -/
theorem exec_runOk (i : Instr) (s : State) : ∃ f, exec i s = runOk i.wf i.dies f s := by
  cases i
  case ctlNop => exact ⟨_, by delta exec execCtlNop; rfl⟩
  case ctlHalt => exact ⟨_, by delta exec execCtlHalt; rfl⟩
  case ctlExit => exact ⟨_, by delta exec execCtlExit; rfl⟩
  case ctlFence => exact ⟨_, by delta exec execCtlFence; rfl⟩
  case ctlBr => exact ⟨_, by delta exec execCtlBr; rfl⟩
  case ctlBrz => exact ⟨_, by delta exec execCtlBrz; rfl⟩
  case ctlBrnz => exact ⟨_, by delta exec execCtlBrnz; rfl⟩
  case ctlBrp => exact ⟨_, by delta exec execCtlBrp; rfl⟩
  case ctlBrnp => exact ⟨_, by delta exec execCtlBrnp; rfl⟩
  case ctlCall => exact ⟨_, by delta exec execCtlCall; rfl⟩
  case ctlRet => exact ⟨_, by delta exec execCtlRet; rfl⟩
  case ctlLaunch => exact ⟨_, by delta exec execCtlLaunch; rfl⟩
  case ctlMpush => exact ⟨_, by delta exec execCtlMpush; rfl⟩
  case ctlMelse => exact ⟨_, by delta exec execCtlMelse; rfl⟩
  case ctlMpop => exact ⟨_, by delta exec execCtlMpop; rfl⟩
  case ctlRdspec => exact ⟨_, by delta exec execCtlRdspec; rfl⟩
  case sclAdd => exact ⟨_, by delta exec execSclAdd; rfl⟩
  case sclSub => exact ⟨_, by delta exec execSclSub; rfl⟩
  case sclMul => exact ⟨_, by delta exec execSclMul; rfl⟩
  case sclMulh => exact ⟨_, by delta exec execSclMulh; rfl⟩
  case sclAnd => exact ⟨_, by delta exec execSclAnd; rfl⟩
  case sclOr => exact ⟨_, by delta exec execSclOr; rfl⟩
  case sclXor => exact ⟨_, by delta exec execSclXor; rfl⟩
  case sclShl => exact ⟨_, by delta exec execSclShl; rfl⟩
  case sclShr => exact ⟨_, by delta exec execSclShr; rfl⟩
  case sclSar => exact ⟨_, by delta exec execSclSar; rfl⟩
  case sclMin => exact ⟨_, by delta exec execSclMin; rfl⟩
  case sclMax => exact ⟨_, by delta exec execSclMax; rfl⟩
  case sclCmp => exact ⟨_, by delta exec execSclCmp; rfl⟩
  case sclAddi => exact ⟨_, by delta exec execSclAddi; rfl⟩
  case sclCmpi => exact ⟨_, by delta exec execSclCmpi; rfl⟩
  case sclMovi => exact ⟨_, by delta exec execSclMovi; rfl⟩
  case sclMovh => exact ⟨_, by delta exec execSclMovh; rfl⟩
  case sclLd => exact ⟨_, by delta exec execSclLd; rfl⟩
  case sclSt => exact ⟨_, by delta exec execSclSt; rfl⟩
  case sclMova => exact ⟨_, by delta exec execSclMova; rfl⟩
  case sclMovs => exact ⟨_, by delta exec execSclMovs; rfl⟩
  case sclAdda => exact ⟨_, by delta exec execSclAdda; rfl⟩
  case sclAddai => exact ⟨_, by delta exec execSclAddai; rfl⟩
  case vecAdd => exact ⟨_, by delta exec execVecAdd; rfl⟩
  case vecSub => exact ⟨_, by delta exec execVecSub; rfl⟩
  case vecMul => exact ⟨_, by delta exec execVecMul; rfl⟩
  case vecFma => exact ⟨_, by delta exec execVecFma; rfl⟩
  case vecMin => exact ⟨_, by delta exec execVecMin; rfl⟩
  case vecMax => exact ⟨_, by delta exec execVecMax; rfl⟩
  case vecAbs => exact ⟨_, by delta exec execVecAbs; rfl⟩
  case vecNeg => exact ⟨_, by delta exec execVecNeg; rfl⟩
  case vecCmp => exact ⟨_, by delta exec execVecCmp; rfl⟩
  case vecSel => exact ⟨_, by delta exec execVecSel; rfl⟩
  case vecAnd => exact ⟨_, by delta exec execVecAnd; rfl⟩
  case vecOr => exact ⟨_, by delta exec execVecOr; rfl⟩
  case vecXor => exact ⟨_, by delta exec execVecXor; rfl⟩
  case vecShl => exact ⟨_, by delta exec execVecShl; rfl⟩
  case vecShr => exact ⟨_, by delta exec execVecShr; rfl⟩
  case vecMov => exact ⟨_, by delta exec execVecMov; rfl⟩
  case vecMovi => exact ⟨_, by delta exec execVecMovi; rfl⟩
  case vecAddi => exact ⟨_, by delta exec execVecAddi; rfl⟩
  case vecFaddi => exact ⟨_, by delta exec execVecFaddi; rfl⟩
  case vecFmuli => exact ⟨_, by delta exec execVecFmuli; rfl⟩
  case vecLd => exact ⟨_, by delta exec execVecLd; rfl⟩
  case vecSt => exact ⟨_, by delta exec execVecSt; rfl⟩
  case vecShfl => exact ⟨_, by delta exec execVecShfl; rfl⟩
  case vecRand => exact ⟨_, by delta exec execVecRand; rfl⟩
  case sfnExp => exact ⟨_, by delta exec execSfnExp; rfl⟩
  case sfnExp2 => exact ⟨_, by delta exec execSfnExp2; rfl⟩
  case sfnLog => exact ⟨_, by delta exec execSfnLog; rfl⟩
  case sfnLog2 => exact ⟨_, by delta exec execSfnLog2; rfl⟩
  case sfnRcp => exact ⟨_, by delta exec execSfnRcp; rfl⟩
  case sfnSqrt => exact ⟨_, by delta exec execSfnSqrt; rfl⟩
  case sfnRsqrt => exact ⟨_, by delta exec execSfnRsqrt; rfl⟩
  case sfnSin => exact ⟨_, by delta exec execSfnSin; rfl⟩
  case sfnCos => exact ⟨_, by delta exec execSfnCos; rfl⟩
  case sfnTanh => exact ⟨_, by delta exec execSfnTanh; rfl⟩
  case sfnSigm => exact ⟨_, by delta exec execSfnSigm; rfl⟩
  case sfnErf => exact ⟨_, by delta exec execSfnErf; rfl⟩
  case sfnGelu => exact ⟨_, by delta exec execSfnGelu; rfl⟩
  case sfnSilu => exact ⟨_, by delta exec execSfnSilu; rfl⟩
  case sfnTload => exact ⟨_, by delta exec execSfnTload; rfl⟩
  case tableLoadFlip => exact ⟨_, by delta exec execTableLoadFlip; rfl⟩
  case tableLoadDrainEnd => exact ⟨_, by delta exec execTableLoadDrainEnd; rfl⟩
  case cubeMma => exact ⟨_, by delta exec execCubeMma; rfl⟩
  case cubeConv => exact ⟨_, by delta exec execCubeConv; rfl⟩
  case cubeAttn => exact ⟨_, by delta exec execCubeAttn; rfl⟩
  case cubePool => exact ⟨_, by delta exec execCubePool; rfl⟩
  case cubeRsmp => exact ⟨_, by delta exec execCubeRsmp; rfl⟩
  case cubeAclr => exact ⟨_, by delta exec execCubeAclr; rfl⟩
  case chnArm => exact ⟨_, by delta exec execChnArm; rfl⟩
  case chnStrm => exact ⟨_, by delta exec execChnStrm; rfl⟩
  case chnRearm => exact ⟨_, by delta exec execChnRearm; rfl⟩
  case chnStop => exact ⟨_, by delta exec execChnStop; rfl⟩
  case chnMedia => exact ⟨_, by delta exec execChnMedia; rfl⟩
  case stkArrive => exact ⟨_, by delta exec execStkArrive; rfl⟩
  case stkWait => exact ⟨_, by delta exec execStkWait; rfl⟩
  case stkTest => exact ⟨_, by delta exec execStkTest; rfl⟩
  case stkReset => exact ⟨_, by delta exec execStkReset; rfl⟩
  case stkClaim => exact ⟨_, by delta exec execStkClaim; rfl⟩
  case colRun => exact ⟨_, by delta exec execColRun; rfl⟩
  case colPut => exact ⟨_, by delta exec execColPut; rfl⟩
  case qntCvt => exact ⟨_, by delta exec execQntCvt; rfl⟩
  case qntPack => exact ⟨_, by delta exec execQntPack; rfl⟩
  case qntUnpack => exact ⟨_, by delta exec execQntUnpack; rfl⟩
  case qntSload => exact ⟨_, by delta exec execQntSload; rfl⟩
  case scaleLoadFlip => exact ⟨_, by delta exec execScaleLoadFlip; rfl⟩
  case scaleLoadDrainEnd => exact ⟨_, by delta exec execScaleLoadDrainEnd; rfl⟩
  case stakeOpApply => exact ⟨_, by delta exec execStakeOpApply; rfl⟩
  case stkWaitTimeout => exact ⟨_, by delta exec execStkWaitTimeout; rfl⟩
  case stakePoll => exact ⟨_, by delta exec execStakePoll; rfl⟩
  case stkTargetWrite => exact ⟨_, by delta exec execStkTargetWrite; rfl⟩
  case stkCtlReset => exact ⟨_, by delta exec execStkCtlReset; rfl⟩
  case stkCtlEnableClear => exact ⟨_, by delta exec execStkCtlEnableClear; rfl⟩
  case launchDequeue => exact ⟨_, by delta exec execLaunchDequeue; rfl⟩
  case unitDescriptorStart => exact ⟨_, by delta exec execUnitDescriptorStart; rfl⟩
  case operandWaitEnd => exact ⟨_, by delta exec execOperandWaitEnd; rfl⟩
  case cubeStep => exact ⟨_, by delta exec execCubeStep; rfl⟩
  case rampLevelChange => exact ⟨_, by delta exec execRampLevelChange; rfl⟩
  case rampHoldExpiry => exact ⟨_, by delta exec execRampHoldExpiry; rfl⟩
  case cubeDrain => exact ⟨_, by delta exec execCubeDrain; rfl⟩
  case prologueCopyDone => exact ⟨_, by delta exec execPrologueCopyDone; rfl⟩
  case ledgerFetchDone => exact ⟨_, by delta exec execLedgerFetchDone; rfl⟩
  case prologueCorrection => exact ⟨_, by delta exec execPrologueCorrection; rfl⟩
  case hookProgramLaunch => exact ⟨_, by delta exec execHookProgramLaunch; rfl⟩
  case converterPass => exact ⟨_, by delta exec execConverterPass; rfl⟩
  case ledgerPublish => exact ⟨_, by delta exec execLedgerPublish; rfl⟩
  case stakeRouteResume => exact ⟨_, by delta exec execStakeRouteResume; rfl⟩
  case ksplitCombine => exact ⟨_, by delta exec execKsplitCombine; rfl⟩
  case attnChunkFetchDone => exact ⟨_, by delta exec execAttnChunkFetchDone; rfl⟩
  case attnChunkSoftmax => exact ⟨_, by delta exec execAttnChunkSoftmax; rfl⟩
  case keyPresenceWaitEnd => exact ⟨_, by delta exec execKeyPresenceWaitEnd; rfl⟩
  case keyWaitExpiry => exact ⟨_, by delta exec execKeyWaitExpiry; rfl⟩
  case kvTokenWrite => exact ⟨_, by delta exec execKvTokenWrite; rfl⟩
  case kvFlushStart => exact ⟨_, by delta exec execKvFlushStart; rfl⟩
  case kvFlushDone => exact ⟨_, by delta exec execKvFlushDone; rfl⟩
  case exportQueueCopy => exact ⟨_, by delta exec execExportQueueCopy; rfl⟩
  case chainWaitEnd => exact ⟨_, by delta exec execChainWaitEnd; rfl⟩
  case streamPassStart => exact ⟨_, by delta exec execStreamPassStart; rfl⟩
  case chainEntryAdmit => exact ⟨_, by delta exec execChainEntryAdmit; rfl⟩
  case chainEntryComplete => exact ⟨_, by delta exec execChainEntryComplete; rfl⟩
  case sliceRequest => exact ⟨_, by delta exec execSliceRequest; rfl⟩
  case hbmRead => exact ⟨_, by delta exec execHbmRead; rfl⟩
  case hbmErrWindowEnd => exact ⟨_, by delta exec execHbmErrWindowEnd; rfl⟩
  case hbmRefresh => exact ⟨_, by delta exec execHbmRefresh; rfl⟩
  case hbmScrub => exact ⟨_, by delta exec execHbmScrub; rfl⟩
  case ondieScrub => exact ⟨_, by delta exec execOndieScrub; rfl⟩
  case hbmThermalSample => exact ⟨_, by delta exec execHbmThermalSample; rfl⟩
  case hbmMapWrite => exact ⟨_, by delta exec execHbmMapWrite; rfl⟩
  case resSliceCfgWrite => exact ⟨_, by delta exec execResSliceCfgWrite; rfl⟩
  case sliceReconfigDone => exact ⟨_, by delta exec execSliceReconfigDone; rfl⟩
  case releaseAll => exact ⟨_, by delta exec execReleaseAll; rfl⟩
  case hbmRetireWrite => exact ⟨_, by delta exec execHbmRetireWrite; rfl⟩
  case ucieFlitReplay => exact ⟨_, by delta exec execUcieFlitReplay; rfl⟩
  case ucieRetrain => exact ⟨_, by delta exec execUcieRetrain; rfl⟩
  case commandDieAccess => exact ⟨_, by delta exec execCommandDieAccess; rfl⟩
  case cmdDoorbell => exact ⟨_, by delta exec execCmdDoorbell; rfl⟩
  case doorbellLatch => exact ⟨_, by delta exec execDoorbellLatch; rfl⟩
  case cmdArrive => exact ⟨_, by delta exec execCmdArrive; rfl⟩
  case openObj => exact ⟨_, by delta exec execOpenObj; rfl⟩
  case closeObj => exact ⟨_, by delta exec execCloseObj; rfl⟩
  case openComplete => exact ⟨_, by delta exec execOpenComplete; rfl⟩
  case closeComplete => exact ⟨_, by delta exec execCloseComplete; rfl⟩
  case commandRead => exact ⟨_, by delta exec execCommandRead; rfl⟩
  case commandStart => exact ⟨_, by delta exec execCommandStart; rfl⟩
  case cmdRun => exact ⟨_, by delta exec execCmdRun; rfl⟩
  case cmdLoad => exact ⟨_, by delta exec execCmdLoad; rfl⟩
  case cmdArriveOp => exact ⟨_, by delta exec execCmdArriveOp; rfl⟩
  case cmdNop => exact ⟨_, by delta exec execCmdNop; rfl⟩
  case partComplete => exact ⟨_, by delta exec execPartComplete; rfl⟩
  case cmdComplHeadWrite => exact ⟨_, by delta exec execCmdComplHeadWrite; rfl⟩
  case eventMergeWrite => exact ⟨_, by delta exec execEventMergeWrite; rfl⟩
  case cmdEvtPtrHeadWrite => exact ⟨_, by delta exec execCmdEvtPtrHeadWrite; rfl⟩
  case dispatchTick => exact ⟨_, by delta exec execDispatchTick; rfl⟩
  case coreStopped => exact ⟨_, by delta exec execCoreStopped; rfl⟩
  case contextImageWritten => exact ⟨_, by delta exec execContextImageWritten; rfl⟩
  case tenantSwap => exact ⟨_, by delta exec execTenantSwap; rfl⟩
  case swapComplete => exact ⟨_, by delta exec execSwapComplete; rfl⟩
  case pclRebuildSet => exact ⟨_, by delta exec execPclRebuildSet; rfl⟩
  case rebuildMapoutDone => exact ⟨_, by delta exec execRebuildMapoutDone; rfl⟩
  case pclRebuildClear => exact ⟨_, by delta exec execPclRebuildClear; rfl⟩
  case scheduleSlotBoundary => exact ⟨_, by delta exec execScheduleSlotBoundary; rfl⟩
  case schSwitch => exact ⟨_, by delta exec execSchSwitch; rfl⟩
  case tagValidClear => exact ⟨_, by delta exec execTagValidClear; rfl⟩
  case zlkTrain => exact ⟨_, by delta exec execZlkTrain; rfl⟩
  case zlkStop => exact ⟨_, by delta exec execZlkStop; rfl⟩
  case portTrainingDone => exact ⟨_, by delta exec execPortTrainingDone; rfl⟩
  case laneFailure => exact ⟨_, by delta exec execLaneFailure; rfl⟩
  case portRetrainDone => exact ⟨_, by delta exec execPortRetrainDone; rfl⟩
  case flitReceive => exact ⟨_, by delta exec execFlitReceive; rfl⟩
  case linkAck => exact ⟨_, by delta exec execLinkAck; rfl⟩
  case linkNak => exact ⟨_, by delta exec execLinkNak; rfl⟩
  case linkAbort => exact ⟨_, by delta exec execLinkAbort; rfl⟩
  case putStart => exact ⟨_, by delta exec execPutStart; rfl⟩
  case putChunkReceive => exact ⟨_, by delta exec execPutChunkReceive; rfl⟩
  case ackTimeout => exact ⟨_, by delta exec execAckTimeout; rfl⟩
  case notReadyResend => exact ⟨_, by delta exec execNotReadyResend; rfl⟩
  case collectiveStart => exact ⟨_, by delta exec execCollectiveStart; rfl⟩
  case collectiveTraverse => exact ⟨_, by delta exec execCollectiveTraverse; rfl⟩
  case collectiveTimeout => exact ⟨_, by delta exec execCollectiveTimeout; rfl⟩
  case zlkIdWrite => exact ⟨_, by delta exec execZlkIdWrite; rfl⟩
  case zlkVcCfgWrite => exact ⟨_, by delta exec execZlkVcCfgWrite; rfl⟩
  case frameAccept => exact ⟨_, by delta exec execFrameAccept; rfl⟩
  case mediaFrame => exact ⟨_, by delta exec execMediaFrame; rfl⟩
  case mediaEnd => exact ⟨_, by delta exec execMediaEnd; rfl⟩
  case pipeSelect => exact ⟨_, by delta exec execPipeSelect; rfl⟩
  case mediaPreemption => exact ⟨_, by delta exec execMediaPreemption; rfl⟩
  case deadlinePass => exact ⟨_, by delta exec execDeadlinePass; rfl⟩
  case frameComplete => exact ⟨_, by delta exec execFrameComplete; rfl⟩
  case errAckIndex => exact ⟨_, by delta exec execErrAckIndex; rfl⟩
  case errAckAll => exact ⟨_, by delta exec execErrAckAll; rfl⟩
  case errCoreRst => exact ⟨_, by delta exec execErrCoreRst; rfl⟩
  case coreResetDone => exact ⟨_, by delta exec execCoreResetDone; rfl⟩
  case haltArrival => exact ⟨_, by delta exec execHaltArrival; rfl⟩
  case haltOnSilence => exact ⟨_, by delta exec execHaltOnSilence; rfl⟩
  case laneGroupFence => exact ⟨_, by delta exec execLaneGroupFence; rfl⟩
  case cubeInject => exact ⟨_, by delta exec execCubeInject; rfl⟩
  case fenceReq => exact ⟨_, by delta exec execFenceReq; rfl⟩
  case abwReqAttest => exact ⟨_, by delta exec execAbwReqAttest; rfl⟩
  case abwReqExtend => exact ⟨_, by delta exec execAbwReqExtend; rfl⟩
  case reportSigned => exact ⟨_, by delta exec execReportSigned; rfl⟩
  case getIdent => exact ⟨_, by delta exec execGetIdent; rfl⟩
  case getTelemetry => exact ⟨_, by delta exec execGetTelemetry; rfl⟩
  case getErrors => exact ⟨_, by delta exec execGetErrors; rfl⟩
  case attest => exact ⟨_, by delta exec execAttest; rfl⟩
  case readReport => exact ⟨_, by delta exec execReadReport; rfl⟩
  case extend => exact ⟨_, by delta exec execExtend; rfl⟩
  case setLimit => exact ⟨_, by delta exec execSetLimit; rfl⟩
  case getChallenge => exact ⟨_, by delta exec execGetChallenge; rfl⟩
  case unlockData => exact ⟨_, by delta exec execUnlockData; rfl⟩
  case unlockGo => exact ⟨_, by delta exec execUnlockGo; rfl⟩
  case svnCommit => exact ⟨_, by delta exec execSvnCommit; rfl⟩
  case enec => exact ⟨_, by delta exec execEnec; rfl⟩
  case disec => exact ⟨_, by delta exec execDisec; rfl⟩
  case rstdaa => exact ⟨_, by delta exec execRstdaa; rfl⟩
  case entdaa => exact ⟨_, by delta exec execEntdaa; rfl⟩
  case setdasa => exact ⟨_, by delta exec execSetdasa; rfl⟩
  case getpid => exact ⟨_, by delta exec execGetpid; rfl⟩
  case getbcr => exact ⟨_, by delta exec execGetbcr; rfl⟩
  case getdcr => exact ⟨_, by delta exec execGetdcr; rfl⟩
  case getstatus => exact ⟨_, by delta exec execGetstatus; rfl⟩
  case getmwl => exact ⟨_, by delta exec execGetmwl; rfl⟩
  case getmrl => exact ⟨_, by delta exec execGetmrl; rfl⟩
  case setmwl => exact ⟨_, by delta exec execSetmwl; rfl⟩
  case setmrl => exact ⟨_, by delta exec execSetmrl; rfl⟩
  case smbusModeEntry => exact ⟨_, by delta exec execSmbusModeEntry; rfl⟩
  case powerCapCompare => exact ⟨_, by delta exec execPowerCapCompare; rfl⟩
  case tempRefresh => exact ⟨_, by delta exec execTempRefresh; rfl⟩
  case envelopeClustersWrite => exact ⟨_, by delta exec execEnvelopeClustersWrite; rfl⟩
  case resetRelease => exact ⟨_, by delta exec execResetRelease; rfl⟩
  case rootPllLock => exact ⟨_, by delta exec execRootPllLock; rfl⟩
  case positionExchange => exact ⟨_, by delta exec execPositionExchange; rfl⟩
  case announce => exact ⟨_, by delta exec execAnnounce; rfl⟩
  case progress => exact ⟨_, by delta exec execProgress; rfl⟩
  case fwBegin => exact ⟨_, by delta exec execFwBegin; rfl⟩
  case fwData => exact ⟨_, by delta exec execFwData; rfl⟩
  case fwEnd => exact ⟨_, by delta exec execFwEnd; rfl⟩
  case meshWaveStart => exact ⟨_, by delta exec execMeshWaveStart; rfl⟩
  case meshLinkTrained => exact ⟨_, by delta exec execMeshLinkTrained; rfl⟩
  case hbmTrainingDone => exact ⟨_, by delta exec execHbmTrainingDone; rfl⟩
  case selfTestDone => exact ⟨_, by delta exec execSelfTestDone; rfl⟩
  case tickAlign => exact ⟨_, by delta exec execTickAlign; rfl⟩
  case dieSilence => exact ⟨_, by delta exec execDieSilence; rfl⟩
  case abwTriReady => exact ⟨_, by delta exec execAbwTriReady; rfl⟩
  case pkgPwrgdAssert => exact ⟨_, by delta exec execPkgPwrgdAssert; rfl⟩
  case pkgPwrgdDeassert => exact ⟨_, by delta exec execPkgPwrgdDeassert; rfl⟩
  case pkgResetAssert => exact ⟨_, by delta exec execPkgResetAssert; rfl⟩
  case pkgResetDeassert => exact ⟨_, by delta exec execPkgResetDeassert; rfl⟩
  case railSample => exact ⟨_, by delta exec execRailSample; rfl⟩
  case rail7Undervoltage => exact ⟨_, by delta exec execRail7Undervoltage; rfl⟩
  case thermalTrip => exact ⟨_, by delta exec execThermalTrip; rfl⟩
  case pllUnlock => exact ⟨_, by delta exec execPllUnlock; rfl⟩
  case pkgTrst => exact ⟨_, by delta exec execPkgTrst; rfl⟩
  case extest => exact ⟨_, by delta exec execExtest; rfl⟩
  case samplePreload => exact ⟨_, by delta exec execSamplePreload; rfl⟩
  case idcode => exact ⟨_, by delta exec execIdcode; rfl⟩
  case clamp => exact ⟨_, by delta exec execClamp; rfl⟩
  case highz => exact ⟨_, by delta exec execHighz; rfl⟩
  case bypass => exact ⟨_, by delta exec execBypass; rfl⟩
  case privateJtag => exact ⟨_, by delta exec execPrivateJtag; rfl⟩
  case registerWrite => exact ⟨_, by delta exec execRegisterWrite; rfl⟩
  case shadowWriteApply => exact ⟨_, by delta exec execShadowWriteApply; rfl⟩
  case liveWriteApply => exact ⟨_, by delta exec execLiveWriteApply; rfl⟩
  case illegalInstruction => exact ⟨_, by delta exec execIllegalInstruction; rfl⟩
  case fetchRange => exact ⟨_, by delta exec execFetchRange; rfl⟩
  case contextImageRestored => exact ⟨_, by delta exec execContextImageRestored; rfl⟩
  case ucieRetrainDone => exact ⟨_, by delta exec execUcieRetrainDone; rfl⟩
  case releaseAllDone => exact ⟨_, by delta exec execReleaseAllDone; rfl⟩
  case cubeFenceWindowEnd => exact ⟨_, by delta exec execCubeFenceWindowEnd; rfl⟩
  case zlkLaneWindowEnd => exact ⟨_, by delta exec execZlkLaneWindowEnd; rfl⟩
  case laneCeWindowEnd => exact ⟨_, by delta exec execLaneCeWindowEnd; rfl⟩
  case stationFault => exact ⟨_, by delta exec execStationFault; rfl⟩

end Sys2Proof.Machine
end

