-- ==== Sys2Proof/Laws/Faults.lean ====
section
/-!
SUPPORT. What logging, arriving and faulting do to the cores: records and stake operations leave every core alone, a faulting sequencer stops
(R40), and a faulting crew takes its launch with it (R39).
-/

namespace Sys2Proof.Machine

/-! ### Records, arrivals and waits leave the cores alone -/

@[simp] theorem getRing_cores (d : Dev) (die : Nat) (r : ErrRing) : (setRing d die r).cores = d.cores := rfl

theorem raiseEvent_cores (d : Dev) (e : Event) : (raiseEvent d e).cores = d.cores := by
  unfold raiseEvent
  split <;> rfl

theorem alertEdge_cores (d : Dev) : (alertEdge d).cores = d.cores := by
  unfold alertEdge
  dsimp only
  split <;> rfl

theorem recordErr_cores (d : Dev) (die : Nat) (x : ErrInfo) : (recordErr d die x).cores = d.cores := by
  unfold recordErr
  dsimp only
  split
  · rfl
  · split
    · exact raiseEvent_cores _ _
    · split
      · exact raiseEvent_cores _ _
      · rfl

@[simp] theorem logErr_cores (d : Dev) (die : Nat) (x : ErrInfo) : (logErr d die x).cores = d.cores :=
  (alertEdge_cores _).trans (recordErr_cores d die x)

@[simp] theorem getCore_logErr (d : Dev) (die : Nat) (x : ErrInfo) (c : CoreId) : getCore (logErr d die x) c = getCore d c := by
  simp only [getCore, logErr_cores]

@[simp] theorem getCore_cancelWaits (d : Dev) (w : Waiter) (c : CoreId) : getCore (cancelWaits d w) c = getCore d c := rfl

@[simp] theorem getCore_rcount (d : Dev) (n : RegName) (die i j hi lo k : Nat) (c : CoreId) : getCore (rcount d n die i j hi lo k) c = getCore d c := rfl

@[simp] theorem getCore_pushPort (d : Dev) (p : Nat) (op : StakeOp) (c : CoreId) : getCore (pushPort d p op) c = getCore d c := rfl

@[simp] theorem getCore_unitArrive (d : Dev) (c e : CoreId) (id : StakeId) (code parcel inc : Nat) (f : Bool) :
    getCore (unitArrive d c id code parcel inc f) e = getCore d e := by
  unfold unitArrive logRefused
  split
  · split <;> simp
  · rfl

/-! ### Arrivals -/

theorem port_setPort (x : Hub) (p : Nat) (q : List StakeOp) : (x.setPort p q).port p = q := by
  rcases p with _ | _ | _ | p <;> rfl

theorem raiseEvent_part (d : Dev) (e : Event) : (raiseEvent d e).part = d.part := by
  unfold raiseEvent
  split <;> rfl

@[simp] theorem logErr_part (d : Dev) (die : Nat) (x : ErrInfo) : (logErr d die x).part = d.part := by
  unfold logErr alertEdge recordErr takeEntry
  dsimp only
  repeat' split
  all_goals first | rfl | exact raiseEvent_part _ _

/-- A fault of the sequencer touches only its registers of control and its part. -/
theorem seqFault_core (d : Dev) (c : CoreId) (f : FaultCode) (sub pc : Nat) (w : W64) :
    getCore (seqFault d c f sub pc w) c = { getCore d c with w := { (getCore d c).w with
      seq := { seqOf d c with st := .faulted, inflight := [], wait := none }
      part := (getCore d c).w.part.map fun p => if p.seqFault = .none then { p with seqFault := f, subcode := sub } else p } } := by
  simp [seqFault, modPart, seqOf]

/-- A unit's arrival stands last at its port (R29, R62). -/
theorem unitArrive_arrived (d : Dev) (c : CoreId) (id : StakeId) (code parcel inc : Nat) (f : Bool) :
    Arrived c code parcel inc f id (unitArrive d c id code parcel inc f) := by
  intro h
  have hd : stakeDie id < d.part.dies := by
    unfold unitArrive logRefused at h
    split at h
    · split at h <;> simpa using h
    · exact h
  refine ⟨(getHub d (stakeDie id) (stakeHub id)).port (if ownCore id c then 1 else 2), ?_⟩
  simp only [unitArrive, show ¬d.part.dies ≤ stakeDie id by omega, if_false, pushUnit, pushPort, getHub_setHub_self, port_setPort]

/-! ### The frames of logging and waiting -/

theorem raiseEvent_beyond (d : Dev) (e : Event) : (raiseEvent d e).beyondCores = d.beyondCores := by
  unfold raiseEvent
  split <;> rfl

theorem logErr_beyond (d : Dev) (die : Nat) (x : ErrInfo) : (logErr d die x).beyondCores = d.beyondCores := by
  unfold logErr alertEdge recordErr takeEntry
  dsimp only
  repeat' split
  all_goals first | rfl | exact raiseEvent_beyond _ _

theorem cancelWaits_beyond (d : Dev) (w : Waiter) : (cancelWaits d w).beyondCores = d.beyondCores := rfl

theorem modCore_beyond (d : Dev) (c : CoreId) (f : Core → Core) : (modCore d c f).beyondCores = d.beyondCores := rfl

theorem pushPort_beyond (d : Dev) (p : Nat) (op : StakeOp) : (pushPort d p op).beyondCores = d.beyondCores := rfl

theorem unitArrive_beyond (d : Dev) (c : CoreId) (id : StakeId) (code parcel inc : Nat) (f : Bool) :
    (unitArrive d c id code parcel inc f).beyondCores = d.beyondCores := by
  unfold unitArrive logRefused
  repeat' split
  all_goals first | rfl | exact logErr_beyond _ _ _

/-! ### Sequencer faults (R40) -/

theorem seqFault_spec (d : Dev) (c : CoreId) (f : FaultCode) (sub pc : Nat) (w : W64) : SeqFaulted c f sub d (seqFault d c f sub pc w) := by
  have hb : (seqFault d c f sub pc w).beyondCores = d.beyondCores := by
    unfold seqFault
    exact logErr_beyond _ _ _
  have hc := seqFault_core d c f sub pc w
  refine ⟨hc, by simp [agentReady, seqReady, hc], fun k hk => ?_, memSame_of_beyondCores hb, hb⟩
  simp only [seqFault, logErr_cores, modPart, modSeq, modWork, modCore, setCore, cancelWaits]
  rw [tget_tset_ne _ _ _ hk, tget_tset_ne _ _ _ hk]

/-! ### Crew faults (R39) -/

@[simp] theorem getCore_freeSlot (d : Dev) (c : CoreId) (slot : Nat) : getCore (freeSlot d c slot) c = { getCore d c with w := { (getCore d c).w with
    crews := tset none (getCore d c).w.crews slot none
    plumbRng := (getCore d c).w.plumbRng.filter fun p => decide (p.1 / 32 ≠ slot) } } := by
  simp [freeSlot]

/-- Freeing slots frees exactly them, and keeps the rest of the core but for the streams of plumb mode. -/
theorem freeSlots_core (c : CoreId) (l : List Nat) (d : Dev) :
    let t := l.foldl (fun d s => freeSlot d c s) d
    getCore t c = { getCore d c with w := { (getCore d c).w with crews := (getCore t c).w.crews, plumbRng := (getCore t c).w.plumbRng } } ∧
      (∀ q, getCrew t c q = if q ∈ l then none else getCrew d c q) ∧ t.beyondCores = d.beyondCores ∧
      ∀ k, k ≠ ckey c → tget Core.idle t.cores k = tget Core.idle d.cores k := by
  induction l generalizing d with
  | nil => exact ⟨rfl, fun q => by simp, rfl, fun _ _ => rfl⟩
  | cons a l ih =>
    obtain ⟨h1, h2, h3, h4⟩ := ih (freeSlot d c a)
    refine ⟨?_, fun q => ?_, h3.trans rfl, fun k hk => (h4 k hk).trans (cores_setCore _ c _ hk)⟩
    · simp only [List.foldl_cons]
      rw [h1]
      simp
    · simp only [List.foldl_cons, h2, List.mem_cons]
      have : getCrew (freeSlot d c a) c q = if q = a then none else getCrew d c q := by simp [getCrew, tget_tset]
      rw [this]
      by_cases e : q = a <;> by_cases m : q ∈ l <;> simp [e, m]

theorem mem_launchSlots {w : Work} {serial q : Nat} (hq : q < 64) :
    q ∈ launchSlots w serial ↔ (tget none w.crews q).map Crew.launch = some serial := by
  simp [launchSlots, hq]

theorem launchDone_core (d : Dev) (c : CoreId) (l : Launch) (f : FaultCode) (sub : Nat) :
    getCore (launchDone d c l f sub) c = if l.hook.isSome then getCore d c else getCore (partDone d c f sub false) c := by
  unfold launchDone
  rcases l.hook with _ | ⟨u, n⟩
  · simp
  · rfl

theorem launchDone_beyond (d : Dev) (c : CoreId) (l : Launch) (f : FaultCode) (sub : Nat) :
    (launchDone d c l f sub).beyondCores = d.beyondCores := by
  unfold launchDone
  split
  · rfl
  · exact unitArrive_beyond _ _ _ _ _ _ _

theorem unitArrive_cores (d : Dev) (c : CoreId) (id : StakeId) (code parcel inc : Nat) (f : Bool) :
    (unitArrive d c id code parcel inc f).cores = d.cores := by
  unfold unitArrive logRefused
  repeat' split
  all_goals first | rfl | exact logErr_cores _ _ _

theorem launchDone_other (d : Dev) (c : CoreId) (l : Launch) (f : FaultCode) (sub : Nat) {k : Nat} (hk : k ≠ ckey c) :
    tget Core.idle (launchDone d c l f sub).cores k = tget Core.idle d.cores k := by
  unfold launchDone
  split
  · rfl
  · rw [unitArrive_cores]
    exact cores_setCore _ c _ hk

theorem findLaunch_filter (w : Work) (serial : Nat) :
    findLaunch { w with launches := w.launches.filter fun l => decide (l.serial ≠ serial) } serial = none := by
  simp [findLaunch]

theorem crewFaultAt_spec {d : Dev} {c : CoreId} {slot : Nat} {k : Crew} (f : FaultCode) (sub pc : Nat) (w : W64) (lane : Nat)
    (hf : f ≠ .none) (hk : getCrew d c slot = some k) : LaunchStopped c k.launch f sub d (crewFaultAt d c slot f sub pc w lane) := by
  unfold crewFaultAt
  simp only [hk]
  generalize h0 : rcount (logErr d c.die ⟨coreSrc c, 64, f, .info, sub, [k.idx + 2 ^ 32 * lane, pcAddr d c pc, w.toNat]⟩) .vecStatus c.die c.core 0 31 16 1 = d0
  have c0 : getCore d0 c = getCore d c := by rw [← h0]; simp
  have b0 : d0.beyondCores = d.beyondCores := by rw [← h0]; exact logErr_beyond d _ _
  have o0 : d0.cores = d.cores := by rw [← h0]; exact logErr_cores d _ _
  obtain ⟨h1, h2, h3, h6⟩ := freeSlots_core c (launchSlots (getCore d c).w k.launch) d0
  generalize h4 : (launchSlots (getCore d c).w k.launch).foldl (fun d s => freeSlot d c s) d0 = d1 at h1 h2 h3 h6
  generalize h5 : (modWork d1 c fun w => { w with launches := w.launches.filter fun l => decide (l.serial ≠ k.launch) }) = d2
  have c2 : getCore d2 c = { getCore d1 c with w := { (getCore d1 c).w with
      launches := (getCore d c).w.launches.filter fun l => decide (l.serial ≠ k.launch) } } := by
    rw [← h5, getCore_modWork, h1, c0]
  have o2 : ∀ q, q ≠ ckey c → tget Core.idle d2.cores q = tget Core.idle d.cores q := by
    intro q hq
    rw [← h5, ← o0, ← h6 q hq]
    exact cores_setCore _ c _ hq
  have b2 : d2.beyondCores = d.beyondCores := by rw [← h5]; exact (h3.trans b0)
  have t2 : d2.tick = d.tick := (congrArg Dev.tick b2 : d2.beyondCores.tick = d.beyondCores.tick)
  have hp : (getCore d2 c).w.part = (getCore d c).w.part := by rw [c2]; simp only; rw [h1, c0]
  have hw : getCore d2 c = { getCore d c with w := { (getCore d c).w with
      crews := (getCore d2 c).w.crews
      launches := (getCore d c).w.launches.filter fun l => decide (l.serial ≠ k.launch)
      plumbRng := (getCore d2 c).w.plumbRng } } := by
    rw [c2, h1, c0]
  have hcr : ∀ q, q < 64 → getCrew d2 c q = if (getCrew d c q).map Crew.launch = some k.launch then none else getCrew d c q := by
    intro q hq
    have e : getCrew d2 c q = getCrew d1 c q := by simp only [getCrew]; rw [c2]
    rw [e, h2]
    simp only [mem_launchSlots hq, getCrew, c0]
    exact if_congr Iff.rfl rfl rfl
  rcases hfl : findLaunch (getCore d c).w k.launch with _ | l
  · refine ⟨hcr, ?_, o2, memSame_of_beyondCores b2, b2, fun _ => hp, ?_⟩
    · rw [hp]; exact hw
    · intro l h; rw [hfl] at h; cases h
  · have b3 : (launchDone d2 c l f sub).beyondCores = d.beyondCores := (launchDone_beyond _ _ _ _ _).trans b2
    have cd := launchDone_core d2 c l f sub
    have cq : ∃ p, getCore (launchDone d2 c l f sub) c = { getCore d2 c with w := { (getCore d2 c).w with part := p } } := by
      rw [cd]; split
      · exact ⟨(getCore d2 c).w.part, rfl⟩
      · exact ⟨_, by simp [partDone, modPart]; rfl⟩
    obtain ⟨p, hp'⟩ := cq
    refine ⟨fun q hq => ?_, ?_, fun q hq => (launchDone_other _ _ _ _ _ hq).trans (o2 q hq), memSame_of_beyondCores b3, b3, ?_, ?_⟩
    · rw [← hcr q hq]; simp only [getCrew]; rw [hp']
    · rw [hp', hw]
    · intro h
      rw [hfl] at h
      rw [cd, show l.hook.isSome = true from h, if_pos rfl]
      exact hp
    · intro l' hl' hh
      rw [hfl] at hl'
      cases hl'
      refine ⟨?_, ?_⟩
      · unfold launchDone
        simp only [hh]
        have : parcelOf d2 c = parcelOf d c := by simp only [parcelOf, hp]
        rw [this, show decide (f ≠ .none) = true by simpa using hf]
        exact unitArrive_arrived _ _ _ _ _ _ _
      · rw [cd]
        simp only [hh, Option.isSome_none, Bool.false_eq_true, if_false, partDone, modPart, getCore_modWork, hp, t2, b2n]
        rfl

/-- A fault of an agent (R39, R40). -/
theorem agentFault_spec {d : Dev} {a : Agent} (f : FaultCode) (sub pc : Nat) (w : W64) (hf : f ≠ .none) :
    AgentFaulted a f sub d (agentFault d a f sub pc w) := by
  cases a with
  | seq c => exact seqFault_spec d c f sub pc w
  | crew c slot => exact fun k hk => crewFaultAt_spec f sub pc w 0 hf hk

end Sys2Proof.Machine
end

