-- ==== Sys2Proof/Tests/Slice0.lean ====
section
/-!
SUPPORT. Small tests, each about one command on a small state, and for every statement with hypotheses states and operands that meet them.
-/

namespace Sys2Proof.Tests

section

set_option Elab.async false

open Sys2Proof Sys2Proof.Machine

theorem fits {i : Instr} {s : State} (h : i.wf = true ∧ ∀ x ∈ i.dies, x < s.dev.part.dies) : Fits i s := h

theorem issues {a : Agent} {i : Instr} {regs : List Nat} {d : Dev} (h : agentReady d a = true ∧ agentPc d a < textLen d a.core ∧ operandSub i = 0 ∧
    ∀ r ∈ regs, r ∉ agentInflight d a) : CanIssue a i regs d := h

/-- Core 0 of die 0. -/
def tc : CoreId := ⟨0, 0⟩

def tSeq : Agent := .seq tc

def tCrewA : Agent := .crew tc 0

/-- A crew of launch 1 with all threads active. -/
def tCrew : Crew := ⟨1, 0, 0, [], [], 0xFFFFFFFF, [], [], none⟩

def tLaunch : Launch := ⟨1, 0, 1, [0, 0, 0, 0, 0, 0, 0, 0], 0, 1, none, 0⟩

def tPart : PartRun := ⟨0, 0, 0, 0, 0, false, false, 0, ⟨0, 512, 0, 0, 0, 0⟩, 0, none, 0, 0, 0, .none, 0, 0, .none, 0, 0, 0, 0, 0, false⟩

/-- A core at work: its sequencer runs a part with 64 instructions of text, and slot 0 holds a crew of a running launch. -/
def tWork : Work :=
  { Work.empty with
    seq := { Work.empty.seq with st := .running }
    crews := [(0, some tCrew)]
    launches := [tLaunch]
    part := some tPart }

/-- The device after reset with core 0 of die 0 at work, its work changed by f. -/
def tDev (f : Work → Work) : Dev := { Dev.reset with cores := [(0, { Core.idle with sched := 1, w := f tWork })] }

def tOn (f : Work → Work) : State := ⟨tDev f, []⟩

def t0 : State := tOn id

/-- The same with the sequencer or the crew of slot 0 changed. -/
def tSeqOn (f : Seq → Seq) : State := tOn fun w => { w with seq := f w.seq }

def tCrewOn (f : Crew → Crew) : State := tOn fun w => { w with crews := [(0, some (f tCrew))] }

/-- The same with something beyond the core changed. -/
def tAnd (f : Work → Work) (g : Dev → Dev) : State := ⟨g (tDev f), []⟩

def tOp : Op := ⟨1, 1, 0, 0, 0, 0, 0, []⟩

/-- An operation that a cube has taken. -/
def tRun (f : RunOp → RunOp) : RunOp := f (RunOp.new tOp)

/-- Cube 0 as given. -/
def tCube (x : Cube) : State := tOn fun w => { w with cubes := [(0, x)] }

/-- Cube 0 as given, with an outcome for the waits of operation 1. -/
def tCubeWoken (x : Cube) (outcome : Nat) : State :=
  tAnd (fun w => { w with cubes := [(0, x)] }) fun d => { d with wakes := [⟨.unit (.cube tc 0) 1, outcome⟩, ⟨.post tc 0 1, outcome⟩] }

/-- Bytes of the core store of core 0 from its offset 0. -/
def tStore (ws : List Nat) (d : Dev) : Dev := memPut d (storeKey tc 0) (ws.flatMap (leBytes 8))

/-- Channel 0 of die 0 is live. -/
def tHbm (d : Dev) : Dev := { d with regs := [(regKey .hbmChan 0 0 0, 1)] }

/-- KV sequence 0 of die 0: STATE, 16 tokens a page, D = 1 and BF16, two staging pages at address 0x10000 of die 0. -/
def tKv (state : Nat) (d : Dev) : Dev :=
  rset (rset (rset (rset (rset (tHbm d) .kvsState 0 0 0 1 0 state) .kvsGeom 0 0 0 11 3 1) .kvsGeom 0 0 0 15 12 1) .kvsGeom 0 0 0 20 16 2)
    .kvsStage 0 0 0 51 0 0x10000

def tAttnOp : Op := ⟨1, 3, 2, 0, 0, 0, 0, [0, 0, 0, 0, 0, 0x8100000000000, 0x8100000000040, 0, 0x10, 0x4000000000]⟩

/-- An attention operation of the cube. -/
def tAttn (f : RunOp → RunOp) : RunOp := f (RunOp.new tAttnOp)

/-- Channel 0 as given, on a package that is ready. -/
def tChan (k : Channel) (d : Dev) : Dev := { rset (tHbm d) .abwTri 0 0 0 24 24 1 with chans := [(0, k)] }

/-- A command with one word. -/
def tCmd (w : W64) : Cmd := Cmd.new 0 [w] .none


/-- A flit with a header and a body of zeros; a good group of codewords whose first flit is given. -/
def tFlit (head : BitVec 128) : Flit := ⟨head, List.replicate 240 0⟩

def tGroup (errors : Nat) (f : Flit) : FlitGroup := ⟨List.replicate 4 errors, List.replicate 8 0, f :: List.replicate 9 (tFlit 0)⟩

/-- A transfer of one chunk in slot 5 of a port of die 0, in state st. -/
def tXfer (port : Nat) (st : ChunkSt) : Xfer := ⟨0, port, 5, 0, 9, 0, 0, 7, 0, false, 0, 0, 64, 0, 0, none, 0, 0, 0, [], 1, [(0, st)], 0, 0⟩

def tPut (desc : List W64) : LinkOp := ⟨⟨9, 0x21, 1, 0, 0, 0, 0, desc⟩, tc, none, 2, 0, 0⟩

/-- A collective of 64 bytes, of operation 9. -/
def tCollOp (desc : List W64) : LinkOp := ⟨⟨9, 0x20, 0, 0, 0, 0, 0, desc⟩, tc, none, 2, 0, 0⟩

def tColl : Coll := ⟨tCollOp [0x2000, 0, 64], 0, 0, 0, 0, true, false, [], some 0, 0, 0⟩

def tGroup0 : Group := { Group.empty with state := 1, count := 2, self := 1, inSize := 4096 }

/-- A flight of one run of eight bytes within the core store. -/
def tFlight (f : Flight → Flight) : Flight :=
  f ⟨1, 0, [0x8100000001000, 0x8100000002000, 0x80008, 0x10001, 0x1000100000000, 0, 0x10001], [], 0, 0, none, 0, 0, [], .none⟩

def tCubeOp (w : W64) : Op := ⟨1, 1, 0, 0, 0, 0, 0, [0x101, 0x8100000001000, 0x8100000001000, 0x8100000001000, 0, 0, 0, 0, 0xA88, w]⟩

/-- The bytes that a read answered. -/
def tBytes (r : Except FaultCode (List Byte)) : List Byte := match r with
  | .ok b => b
  | .error _ => []

theorem read_ok {r : Dev × Except FaultCode (List Byte)} (h : (match r.2 with
    | .ok _ => true
    | .error _ => false) = true) : r = (r.1, .ok (tBytes r.2)) := by
  obtain ⟨d, b | b⟩ := r
  · cases h
  · rfl

/-- The device that an outcome answers. -/
def tNext (r : Host.Outcome State Fault Refusal) : Dev := match r with
  | .next t => t.dev
  | _ => Dev.reset

theorem next_ok {r : Host.Outcome State Fault Refusal} {s : State} (h : (match r with
    | .next t => decide (t.pending = s.pending)
    | _ => false) = true) : r = .next { s with dev := tNext r } := by
  obtain ⟨t⟩ | _ | _ := r
  · obtain ⟨d, p⟩ := t
    obtain ⟨e, q⟩ := s
    simp only [decide_eq_true_eq] at h
    subst h
    rfl
  · cases h
  · cases h

/-- The functions of a baseline image, of 32 segments each, all zeros. -/
def tBanks : List Byte := (List.replicate 13 (([0, 0, 0, 0, 0, 7] : List Byte) ++ List.replicate 1546 0)).flatten

/-- A baseline image of set 1. -/
def tImage : List Byte := leBytes 4 0x42544B46 ++ [1, 1, 0xFF, 0x1F, 1, 0, 0, 0, 0x10, 0x4F, 0, 0] ++ List.replicate 16 0 ++ (sha256 tBanks ++ tBanks)

theorem image_good : baseImageBad tImage 0 = false ∧ tImage.length = 20240 := by
  have hb : tBanks.length = 20176 := by decide +kernel
  obtain ⟨hd, e⟩ : ∃ hd : List Byte, hd = leBytes 4 0x42544B46 ++ [1, 1, 0xFF, 0x1F, 1, 0, 0, 0, 0x10, 0x4F, 0, 0] ++ List.replicate 16 0 := ⟨_, rfl⟩
  have hl : hd.length = 32 := by subst e; decide
  have m : tImage = hd ++ (sha256 tBanks ++ tBanks) := by subst e; rfl
  have up (n k : Nat) (h : n + k ≤ 32) : bytesNat tImage n k = bytesNat hd n k := by
    rw [m, bytesNat, bytesNat, List.drop_append_of_le_length (by omega), List.take_append_of_le_length (by rw [List.length_drop]; omega)]
  have on (n k : Nat) : bytesNat tImage (64 + n) k = bytesNat tBanks n k := by
    rw [bytesNat, bytesNat, m, ← List.append_assoc, List.drop_append]
    simp [hl, sha256_length, List.drop_eq_nil_of_le]
  have dig : (tImage.drop 0x20).take 32 = sha256 tBanks ∧ tImage.drop 0x40 = tBanks := by
    rw [m]
    constructor
    · rw [List.drop_left' hl, List.take_left' (sha256_length _)]
    · rw [← List.append_assoc, List.drop_left' (by simp [hl, sha256_length])]
  refine ⟨?_, by rw [m]; simp [hl, hb, sha256_length]⟩
  have segs : ((List.range 13).any fun k => decide (bytesNat tImage (0x40 + k * 1552 + 5) 1 ≠ 7)) = false := by
    have : ((List.range 13).any fun k => decide (bytesNat tBanks (k * 1552 + 5) 1 ≠ 7)) = false := by decide +kernel
    have e (k : Nat) : bytesNat tImage (0x40 + k * 1552 + 5) 1 = bytesNat tBanks (k * 1552 + 5) 1 := by rw [Nat.add_assoc, on]
    simp only [e]
    exact this
  unfold baseImageBad
  rw [segs, dig.1, dig.2, up 0 4 (by omega), up 4 1 (by omega), up 5 1 (by omega), up 6 2 (by omega), up 8 4 (by omega), up 12 4 (by omega)]
  subst e
  simp
  decide

/-- A parcel of cluster 0 of die 0 whose core 0 runs a part and whose other cores are fenced, and a part of higher PRIORITY that waits. -/
def tVict : State := tAnd id fun d =>
  { tChan { Channel.empty with state := 1, prio := 3, cmds := [{ tCmd 1 with started := true, acted := true, place := 1, image := some ⟨0, 8, 0, 0, 0, 0⟩ }] } d with
    cores := d.cores ++ (List.range 11).map (fun i => (i + 1, { Core.idle with fenced := true })), parcels := [(0, { Parcel.empty with state := 1, lo := 1, ctx := 64 })] }

theorem tVict_victim : Victim tVict.dev (parcelCores tVict.dev { Parcel.empty with state := 1, lo := 1, ctx := 64 }) 3 tc := by
  have h : ∀ x ∈ parcelCores tVict.dev { Parcel.empty with state := 1, lo := 1, ctx := 64 }, x ≠ tc → (getCore tVict.dev x).w.part = none := by decide +kernel
  refine ⟨by decide +kernel, tPart, ⟨by decide +kernel, by decide +kernel, by decide +kernel, .inr (by decide), fun n h => nomatch h⟩, ?_⟩
  intro x hx y hne hy
  exact absurd (hy.1.symm.trans (h x hx hne)) (by simp)

/-- The same parcel with no core at work and a part that waits. -/
def tWait : State := tAnd id fun d =>
  { tChan { Channel.empty with state := 1, cmds := [{ tCmd 1 with started := true, acted := true, place := 1, image := some ⟨0, 8, 0, 0, 0, 0⟩ }] } d with
    cores := [], parcels := [(0, { Parcel.empty with state := 1, lo := 1 })] }

theorem tWait_placed : PlacedOn tWait.dev (parcelCores tWait.dev { Parcel.empty with state := 1, lo := 1 }) none tc := by
  refine ⟨by decide +kernel, 4, by decide, by decide, rfl, ?_, [], (parcelCores tWait.dev { Parcel.empty with state := 1, lo := 1 }).tail, by decide +kernel,
    fun x h => nomatch h⟩
  intro m h1 h2 x _ _ hp
  obtain rfl | rfl | rfl : m = 1 ∨ m = 2 ∨ m = 3 := by omega
  all_goals simp [PlaceEntry] at hp

theorem tWait_tags (z : CoreId) : ¬TagHeld tWait.dev 0 0 z := fun h => nomatch (show false = true from h.1)

/-- A list as a table, and what it gives. -/
def tTable (l : List Byte) : Tbl Byte := l.zipIdx.map fun x => (x.2, x.1)

theorem tget_zip (l : List Byte) (k i : Nat) (h : i < l.length) : tget 0 ((l.zipIdx k).map fun x => (x.2, x.1)) (k + i) = l.getD i 0 := by
  induction l generalizing k i with
  | nil => simp at h
  | cons b l ih =>
    rw [List.zipIdx_cons, List.map_cons, tget, if_neg (by omega)]
    obtain _ | i := i
    · simp
    · rw [if_neg (by omega), show k + (i + 1) = k + 1 + i by omega, ih (k + 1) i (by simpa using h)]
      simp

theorem tTable_list (l : List Byte) : (List.range l.length).map (tget 0 (tTable l)) = l := by
  apply List.ext_getElem
  · simp
  · intro i h1 h2
    have := tget_zip l 0 i h2
    rw [Nat.zero_add] at this
    simp only [tTable, List.getElem_map, List.getElem_range]
    exact this.trans (by simp [h2])

/-- A frame with descriptor words and flags. -/
def tFrame (desc : List W64) (f : Frame → Frame) : Frame :=
  f ⟨⟨1, 0x13, 4, 0, 0, 0, 0, desc⟩, tc, none, 0, 0, .none, none, false, false, false, false, []⟩

/-- Session 0 of die 0 is open with its parameter words and frames; pipe 0 is as given. -/
def tMed (words : List W64) (q : List Frame) (p : Pipe) : State :=
  tAnd id fun d => { tHbm d with sess := [(0, { Sess.empty with state := 1, words := words, queue := q })], pipes := [(0, p)] }

theorem tMed_choose {words : List W64} {y x : Frame} {p : Pipe} {i : Nat} (h : Choosable (tMed words [y] p).dev 0 0 i x) : i = 0 ∧ x = y := by
  obtain ⟨_, h, _, hq, _⟩ := h
  obtain rfl | hi := Nat.eq_zero_or_pos i
  · exact ⟨rfl, (Option.some.inj hq).symm⟩
  · exact absurd (show (getSess (tMed words [y] p).dev i).state = 0 from by
      have e : (getSess (tMed words [y] p).dev i) = Sess.empty := by
        show tget Sess.empty [(0, _)] i = _
        rw [tget, if_neg (by omega), if_neg (by omega), tget]
      rw [e]; rfl) h

/-- A die that receives firmware. -/
def tBoot (b : List Byte) : Boot := { Boot.empty with locked := true, fwSize := some fwBodyOff, fw := b }

/-- Die 0 has a whole image of an empty body, die 1 nothing of it, and die 2 one with another digest. -/
def tFw : State := tAnd id fun d => { d with pkg := { d.pkg with released := true }, boot := [(0, tBoot (List.replicate 32 0 ++ sha256 [] ++
  List.replicate (fwBodyOff - 64) 0)), (1, tBoot []), (2, tBoot (List.replicate fwBodyOff 0))] }

/-! ### Operands that do not fit -/

theorem test_wf_cores : (∀ i ∈ [Instr.ctlHalt ⟨8, 0⟩, .ctlHalt ⟨0, 144⟩, .ctlNop (.crew ⟨0, 0⟩ 64), .ctlExit ⟨0, 0⟩ 64, .coreStopped ⟨0, 144⟩,
    .operandWaitEnd (.cube ⟨0, 0⟩ 4), .operandWaitEnd (.chain ⟨0, 144⟩), .operandWaitEnd (.link 8), .stakePoll (.frame 8 0 0), .stakePoll (.frame 0 32 0),
    .stakePoll (.command 256 0), .stakePoll (.post ⟨0, 0⟩ 4 0), .stakeOpApply 8 0 1, .stakeOpApply 0 13 1, .ledgerPublish ⟨0, 0⟩ 4, .chainWaitEnd ⟨0, 0⟩ 16,
    .streamPassStart ⟨0, 0⟩ 8, .chainEntryComplete ⟨0, 0⟩ 16, .cubeInject ⟨0, 0⟩ 4 false, .laneGroupFence ⟨0, 0⟩ 4 1 0, .laneGroupFence ⟨0, 0⟩ 0 0 0,
    .laneGroupFence ⟨0, 0⟩ 0 4 0, .laneGroupFence ⟨0, 0⟩ 0 1 64], i.wf = false) ∧
    Instr.wf (.laneGroupFence ⟨7, 143⟩ 3 3 63) = true := by decide

theorem test_wf_memory : (∀ i ∈ [Instr.kvFlushDone 0 4, .kvFlushDone 8 0, .exportQueueCopy 0 2, .sliceRequest 0 16 (.stalled 0 0), .hbmRead 0 32 0 [],
    .hbmRead 0 0 3221225472 [], .hbmRefresh 0 2, .hbmScrub 8 0 0 [], .hbmThermalSample 0 2 0 0, .hbmRetireWrite 0 4096 0, .ondieScrub 8 .clean,
    .releaseAll 8, .ucieRetrain 0 4, .commandDieAccess 0 3 none, .commandDieAccess 0 4 (some [0])], i.wf = false) ∧
    Instr.wf (.commandDieAccess 0 64 none) = true := by decide

theorem test_wf_blocks : (∀ i ∈ [Instr.cmdDoorbell 256 0, .cmdNop 256, .cmdArrive 8 0 0, .tenantSwap 64 0, .tenantSwap 0 16, .swapComplete 64, .pclRebuildSet 8,
    .zlkTrain 0 2, .zlkTrain 8 0, .flitReceive 0 0 ⟨[], [], []⟩, .linkAck 0 0 4096 0 false, .linkNak 0 0 0 0 256, .putStart 8, .collectiveStart 0 256,
    .frameAccept ⟨0, 0⟩ 16, .mediaFrame 0 2, .mediaEnd 0 32, .pipeSelect 8 0, .deadlinePass 0 32 0, .errAckIndex 0 64, .errAckAll 8, .haltArrival 8], i.wf = false) ∧
    Instr.wf (.linkNak 7 1 4095 0 255) = true := by decide

theorem test_wf_package : (∀ i ∈ [Instr.tempRefresh 8 0, .rootPllLock 8 0 false, .positionExchange 0 4 none, .announce 8, .meshWaveStart 16,
    .meshLinkTrained 0 4 true 0 false 0, .hbmTrainingDone 8 0, .dieSilence 8, .railSample 8 [], .thermalTrip 0 16 0 false, .pllUnlock 0 4, .idcode 8], i.wf = false) ∧
    Instr.wf (.thermalTrip 7 15 0 true) = true := by decide

/-! ### Words of the manual -/

/-- R119 (2.4): the epilogue launch of the worked example. -/
theorem test_word_launch : yelreDecode tSeq 0x0100040000308F02 = .ok (.ctlLaunch tc ⟨2, 0, 0, 24, 0x8F02⟩) := by decide +kernel

/-- The first cube operation of the worked example. -/
theorem test_word_mma : yelreDecode tSeq 0x4000830000008F01 = .ok (.cubeMma tc ⟨2, 3, 0, 0, 0, 0x8F01⟩) := by decide +kernel

/-- The claim of the worked example. -/
theorem test_word_claim : yelreDecode tSeq 0x604010000002BC00 = .ok (.stkClaim tSeq ⟨4, 0, 0, 0, 1, 0xBC00⟩) := by decide +kernel

/-- The same word with a reserved bit set is illegal with subcode 2. -/
theorem test_word_reserved : yelreDecode tSeq 0x604110000002BC00 = .error 2 := by decide +kernel

/-! ### One step -/

/-- An empty queue advances the tick (the model's choice, log 2). -/
theorem test_idle : step t0 = .next { t0 with dev := { t0.dev with tick := 1 } } := rfl

/-- 2^64 - 1 + 1 wraps to 0. -/
theorem test_add_wraps : (match exec (.sclAdd tc ⟨2, 0, 1, 0⟩) (tSeqOn fun q => { q with s := [(0, 1), (1, 0xFFFFFFFFFFFFFFFF)] }) with
    | .next s => sreg s.dev tc 2 == 0
    | _ => false) = true := by decide +kernel

/-- CRC-32C of the digits 1 to 9 is E3069283. -/
theorem test_crc : crc32c [0x31, 0x32, 0x33, 0x34, 0x35, 0x36, 0x37, 0x38, 0x39] = 0xE3069283 := by decide +kernel

/-! ### The hypotheses of the statements can be met -/

theorem test_meets_EmptyQueueTicks :
    (∃ (s : State), s.pending = []) ∧
    (∃ (n : Nat), ∃ (s : State), s.pending = []) :=
  ⟨⟨t0, by decide +kernel⟩,
   ⟨1, t0, by decide +kernel⟩⟩

theorem test_meets_ScalarInstructions :
    (∃ c o s, ∀ i ∈ [Instr.sclAdd, .sclSub, .sclMul, .sclMulh, .sclAnd, .sclOr, .sclXor, .sclShl, .sclShr, .sclSar, .sclMin, .sclMax, .sclCmp],
      Fits (i c o) s ∧ CanIssue (.seq c) (i c o) [o.sd.toNat, o.sa.toNat, o.sb.toNat] s.dev) ∧
    (∃ c o s, ∀ i ∈ [Instr.sclAddi, .sclCmpi], Fits (i c o) s ∧ CanIssue (.seq c) (i c o) [o.sd.toNat, o.sa.toNat] s.dev) ∧
    (∃ c o, ∃ (s : State), Fits (.sclMovi c o) s ∧ CanIssue (.seq c) (.sclMovi c o) [o.sd.toNat] s.dev) ∧
    (∃ c o, ∃ (s : State), Fits (.sclMovh c o) s ∧ CanIssue (.seq c) (.sclMovh c o) [o.sd.toNat] s.dev) :=
  ⟨⟨tc, ⟨31, 0, 31, 0⟩, t0, by unfold Fits CanIssue; decide +kernel⟩,
   ⟨tc, ⟨31, 0, 0, 0x80000000⟩, t0, by unfold Fits CanIssue; decide +kernel⟩,
   ⟨tc, ⟨31, 0x8000000000⟩, t0, fits (by decide +kernel), issues (by decide +kernel)⟩,
   ⟨tc, ⟨31, 0xFFFFF⟩, t0, fits (by decide +kernel), issues (by decide +kernel)⟩⟩

theorem test_meets_CommandsAndQueue :
    (∃ (i : Instr), ∃ (s : State), ∃ (t : State), exec i s = .next t) ∧
    (∃ (i : Instr), ∃ (s : State), i.wf = false) ∧
    (∃ (i : Instr), ∃ (s : State), i.wf = true ∧ (∃ x ∈ i.dies, s.dev.part.dies ≤ x)) :=
  ⟨⟨.ctlNop tSeq, t0, tSeqOn fun q => { q with pc := 1 }, rfl⟩,
   ⟨.ctlHalt ⟨0, 144⟩, t0, by decide +kernel⟩,
   ⟨.ctlHalt ⟨2, 0⟩, ⟨{ t0.dev with part := ⟨2, true⟩ }, []⟩, by and_intros <;> decide +kernel⟩⟩

theorem test_meets_AddressRegisterMoves :
    (∃ c o, ∃ (s : State), Fits (.sclMova c o) s ∧ CanIssue (.seq c) (.sclMova c o) [o.sb.toNat] s.dev) ∧
    (∃ c o, ∃ (s : State), Fits (.sclMovs c o) s ∧ CanIssue (.seq c) (.sclMovs c o) [o.sb.toNat] s.dev) ∧
    (∃ c o, ∃ (s : State), Fits (.sclAdda c o) s ∧ CanIssue (.seq c) (.sclAdda c o) [o.sb.toNat] s.dev) ∧
    (∃ c o, ∃ (s : State), Fits (.sclAddai c o) s ∧ CanIssue (.seq c) (.sclAddai c o) [] s.dev) :=
  ⟨⟨tc, ⟨15, 0, 31, 0⟩, t0, fits (by decide +kernel), issues (by decide +kernel)⟩,
   ⟨tc, ⟨0, 15, 31, 0⟩, t0, fits (by decide +kernel), issues (by decide +kernel)⟩,
   ⟨tc, ⟨15, 15, 0, 0⟩, t0, fits (by decide +kernel), issues (by decide +kernel)⟩,
   ⟨tc, ⟨15, 15, 0, 0xFFFFFFFF⟩, t0, fits (by decide +kernel), issues (by decide +kernel)⟩⟩

theorem test_meets_ControlTransfers :
    (∃ a o, ∃ (s : State), Fits (.ctlBr a o) s ∧ CanIssue a (.ctlBr a o) [] s.dev ∧ InText s.dev a (branchTarget s.dev a o.off)) ∧
    (∃ c o, ∃ (s : State), Fits (.ctlBrz c o) s ∧ CanIssue (.seq c) (.ctlBrz c o) [o.sc.toNat] s.dev ∧
      (sreg s.dev c o.sc.toNat = 0 → InText s.dev (.seq c) (branchTarget s.dev (.seq c) o.off))) ∧
    (∃ c o, ∃ (s : State), Fits (.ctlBrnz c o) s ∧ CanIssue (.seq c) (.ctlBrnz c o) [o.sc.toNat] s.dev ∧
      (sreg s.dev c o.sc.toNat ≠ 0 → InText s.dev (.seq c) (branchTarget s.dev (.seq c) o.off))) ∧
    (∃ c slot o, ∃ (s : State), ∃ k, Fits (.ctlBrp c slot o) s ∧ CanIssue (.crew c slot) (.ctlBrp c slot o) [] s.dev ∧ getCrew s.dev c slot = some k ∧
      (k.mask &&& k.pred o.pd.toNat ≠ 0 → InText s.dev (.crew c slot) (branchTarget s.dev (.crew c slot) o.off))) ∧
    (∃ c slot o, ∃ (s : State), ∃ k, Fits (.ctlBrnp c slot o) s ∧ CanIssue (.crew c slot) (.ctlBrnp c slot o) [] s.dev ∧ getCrew s.dev c slot = some k ∧
      (k.mask &&& k.pred o.pd.toNat = 0 → InText s.dev (.crew c slot) (branchTarget s.dev (.crew c slot) o.off))) :=
  ⟨⟨tCrewA, ⟨0, 63⟩, t0, fits (by decide +kernel), issues (by decide +kernel), by unfold InText; decide +kernel⟩,
   ⟨tc, ⟨31, 63⟩, t0, fits (by decide +kernel), issues (by decide +kernel), by unfold InText; decide +kernel⟩,
   ⟨tc, ⟨31, 63⟩, t0, fits (by decide +kernel), issues (by decide +kernel), by unfold InText; decide +kernel⟩,
   ⟨tc, 0, ⟨7, 63⟩, t0, tCrew, fits (by decide +kernel), issues (by decide +kernel), by decide +kernel, by unfold InText; decide +kernel⟩,
   ⟨tc, 0, ⟨7, 63⟩, t0, tCrew, fits (by decide +kernel), issues (by decide +kernel), by decide +kernel, by unfold InText; decide +kernel⟩⟩

theorem test_meets_CallAndReturn :
    (∃ c o, ∃ (s : State), Fits (.ctlCall c o) s ∧ CanIssue (.seq c) (.ctlCall c o) [] s.dev ∧ (seqOf s.dev c).ret.length < 16 ∧
      InText s.dev (.seq c) (branchTarget s.dev (.seq c) o.off)) ∧
    (∃ c, ∃ (s : State), ∃ r rest, Fits (.ctlRet c) s ∧ CanIssue (.seq c) (.ctlRet c) [] s.dev ∧ (seqOf s.dev c).ret = r :: rest ∧ r < textLen s.dev c) :=
  ⟨⟨tc, ⟨0, 63⟩, tSeqOn fun q => { q with ret := List.replicate 15 0 }, fits (by decide +kernel), issues (by decide +kernel), by decide +kernel,
    by unfold InText; decide +kernel⟩,
   ⟨tc, tSeqOn fun q => { q with ret := [63] }, 63, [], fits (by decide +kernel), issues (by decide +kernel), by and_intros <;> decide +kernel⟩⟩

theorem test_meets_NoEffectInstructions :
    (∃ a, ∃ (s : State), Fits (.ctlNop a) s ∧ CanIssue a (.ctlNop a) [] s.dev) ∧
    (∃ c, ∃ (s : State), Fits (.ctlFence c) s ∧ CanIssue (.seq c) (.ctlFence c) [] s.dev) ∧
    (∃ c, ∃ (s : State), Fits (.ctlHalt c) s ∧ CanIssue (.seq c) (.ctlHalt c) [] s.dev) :=
  ⟨⟨tCrewA, t0, fits (by decide +kernel), issues (by decide +kernel)⟩,
   ⟨tc, t0, fits (by decide +kernel), issues (by decide +kernel)⟩,
   ⟨tc, t0, fits (by decide +kernel), issues (by decide +kernel)⟩⟩

theorem test_meets_MaskStack :
    (∃ c slot o, ∃ (s : State), ∃ k, Fits (.ctlMpush c slot o) s ∧ CanIssue (.crew c slot) (.ctlMpush c slot o) [] s.dev ∧ getCrew s.dev c slot = some k ∧
      k.stack.length < 16) ∧
    (∃ c slot, ∃ (s : State), ∃ k m rest, Fits (.ctlMelse c slot) s ∧ CanIssue (.crew c slot) (.ctlMelse c slot) [] s.dev ∧
      getCrew s.dev c slot = some k ∧ k.stack = m :: rest) ∧
    (∃ c slot, ∃ (s : State), ∃ k m rest, Fits (.ctlMpop c slot) s ∧ CanIssue (.crew c slot) (.ctlMpop c slot) [] s.dev ∧ getCrew s.dev c slot = some k ∧
      k.stack = m :: rest) :=
  ⟨⟨tc, 0, ⟨7, 1⟩, tCrewOn fun k => { k with stack := List.replicate 15 0 }, { tCrew with stack := List.replicate 15 0 }, fits (by decide +kernel),
    issues (by decide +kernel), by and_intros <;> decide +kernel⟩,
   ⟨tc, 0, tCrewOn fun k => { k with stack := [1] }, { tCrew with stack := [1] }, 1, [], fits (by decide +kernel), issues (by decide +kernel), by and_intros <;> decide +kernel⟩,
   ⟨tc, 0, tCrewOn fun k => { k with stack := [1] }, { tCrew with stack := [1] }, 1, [], fits (by decide +kernel), issues (by decide +kernel), by and_intros <;> decide +kernel⟩⟩

theorem test_meets_SpecialRegisters :
    (∃ c o, ∃ (s : State), Fits (.ctlRdspec (.seq c) o) s ∧ CanIssue (.seq c) (.ctlRdspec (.seq c) o) [o.rd.toNat] s.dev) ∧
    (∃ c slot o, ∃ (s : State), ∃ k l, Fits (.ctlRdspec (.crew c slot) o) s ∧ CanIssue (.crew c slot) (.ctlRdspec (.crew c slot) o) [o.rd.toNat] s.dev ∧
      getCrew s.dev c slot = some k ∧ findLaunch (getCore s.dev c).w k.launch = some l ∧ l.args.length = 8) :=
  ⟨⟨tc, ⟨31, 10⟩, t0, fits (by decide +kernel), issues (by decide +kernel)⟩,
   ⟨tc, 0, ⟨63, 23⟩, t0, tCrew, tLaunch, fits (by decide +kernel), issues (by decide +kernel), by and_intros <;> decide +kernel⟩⟩

theorem test_meets_LaunchIssues :
    (∃ c o, ∃ (s : State), ∃ n, Fits (.ctlLaunch c o) s ∧
      CanIssue (.seq c) (.ctlLaunch c o) ((if o.nreg = 1 then [o.ns.toNat] else []) ++ List.range 8) s.dev ∧
      n = (if o.nreg = 1 then (sreg s.dev c o.ns.toNat).toNat else o.n.toNat) ∧ n ≤ 64 ∧
      InText s.dev (.seq c) (branchTarget s.dev (.seq c) (BitVec.ofInt 32 o.entry.toInt)) ∧ stakeDie o.stake < s.dev.part.dies ∧
      (getStake s.dev o.stake).enable = true ∧ (getStake s.dev o.stake).parcel = parcelOf s.dev c ∧ (getCore s.dev c).w.launchQ.length < 8) ∧
    (∃ c o, ∃ (s : State), ∃ n t, Fits (.ctlLaunch c o) s ∧
      CanIssue (.seq c) (.ctlLaunch c o) ((if o.nreg = 1 then [o.ns.toNat] else []) ++ List.range 8) s.dev ∧
      n = (if o.nreg = 1 then (sreg s.dev c o.ns.toNat).toNat else o.n.toNat) ∧ t = branchTarget s.dev (.seq c) (BitVec.ofInt 32 o.entry.toInt) ∧
      64 < n) ∧
    (∃ c o, ∃ (s : State), ∃ n t, Fits (.ctlLaunch c o) s ∧
      CanIssue (.seq c) (.ctlLaunch c o) ((if o.nreg = 1 then [o.ns.toNat] else []) ++ List.range 8) s.dev ∧
      n = (if o.nreg = 1 then (sreg s.dev c o.ns.toNat).toNat else o.n.toNat) ∧ t = branchTarget s.dev (.seq c) (BitVec.ofInt 32 o.entry.toInt) ∧
      n ≤ 64 ∧ ¬InText s.dev (.seq c) t) ∧
    (∃ c o, ∃ (s : State), ∃ n t, Fits (.ctlLaunch c o) s ∧
      CanIssue (.seq c) (.ctlLaunch c o) ((if o.nreg = 1 then [o.ns.toNat] else []) ++ List.range 8) s.dev ∧
      n = (if o.nreg = 1 then (sreg s.dev c o.ns.toNat).toNat else o.n.toNat) ∧ t = branchTarget s.dev (.seq c) (BitVec.ofInt 32 o.entry.toInt) ∧
      n ≤ 64 ∧ InText s.dev (.seq c) t ∧ s.dev.part.dies ≤ stakeDie o.stake) ∧
    (∃ c o, ∃ (s : State), ∃ n t, Fits (.ctlLaunch c o) s ∧
      CanIssue (.seq c) (.ctlLaunch c o) ((if o.nreg = 1 then [o.ns.toNat] else []) ++ List.range 8) s.dev ∧
      n = (if o.nreg = 1 then (sreg s.dev c o.ns.toNat).toNat else o.n.toNat) ∧ t = branchTarget s.dev (.seq c) (BitVec.ofInt 32 o.entry.toInt) ∧
      n ≤ 64 ∧ InText s.dev (.seq c) t ∧ stakeDie o.stake < s.dev.part.dies ∧
      ((getStake s.dev o.stake).enable = false ∨ (getStake s.dev o.stake).parcel ≠ parcelOf s.dev c)) ∧
    (∃ c o, ∃ (s : State), ∃ n t, Fits (.ctlLaunch c o) s ∧
      CanIssue (.seq c) (.ctlLaunch c o) ((if o.nreg = 1 then [o.ns.toNat] else []) ++ List.range 8) s.dev ∧
      n = (if o.nreg = 1 then (sreg s.dev c o.ns.toNat).toNat else o.n.toNat) ∧ t = branchTarget s.dev (.seq c) (BitVec.ofInt 32 o.entry.toInt) ∧
      n ≤ 64 ∧ InText s.dev (.seq c) t ∧ stakeDie o.stake < s.dev.part.dies ∧ (getStake s.dev o.stake).enable = true ∧
      (getStake s.dev o.stake).parcel = parcelOf s.dev c ∧ 8 ≤ (getCore s.dev c).w.launchQ.length) :=
  ⟨⟨tc, ⟨64, 0, 0, 63, 0⟩, tAnd id fun d => { d with stakes := [(0, { Stake.empty with enable := true })] }, 64, fits (by decide +kernel),
    issues (by decide +kernel), by decide +kernel, by decide +kernel, by unfold InText; decide +kernel, by and_intros <;> decide +kernel⟩,
   ⟨tc, ⟨0, 1, 8, 63, 0⟩, tSeqOn fun q => { q with s := [(8, 65)] }, 65, 63, fits (by decide +kernel), issues (by decide +kernel), by and_intros <;> decide +kernel⟩,
   ⟨tc, ⟨64, 0, 0, 64, 0⟩, t0, 64, 64, fits (by decide +kernel), issues (by decide +kernel), by decide +kernel, by decide +kernel, by decide +kernel,
    by unfold InText; decide +kernel⟩,
   ⟨tc, ⟨0, 1, 0, 63, 0x1FFFF⟩, tAnd id fun d => { d with part := ⟨4, true⟩ }, 0, 63, fits (by decide +kernel), issues (by decide +kernel),
    by decide +kernel, by decide +kernel, by decide +kernel, by unfold InText; decide +kernel, by decide +kernel⟩,
   ⟨tc, ⟨0, 0, 0, 63, 0⟩, t0, 0, 63, fits (by decide +kernel), issues (by decide +kernel), by decide +kernel, by decide +kernel, by decide +kernel,
    by unfold InText; decide +kernel, by and_intros <;> decide +kernel⟩,
   ⟨tc, ⟨1, 0, 0, 63, 0⟩, tAnd (fun w => { w with launchQ := List.replicate 8 tLaunch }) fun d => { d with stakes := [(0, { Stake.empty with enable := true })] },
    1, 63, fits (by decide +kernel), issues (by decide +kernel), by decide +kernel, by decide +kernel, by decide +kernel,
    by unfold InText; decide +kernel, by and_intros <;> decide +kernel⟩⟩

theorem test_meets_LaunchBinds :
    (∃ c, ∃ (s : State), ∃ l rest, Fits (.launchDequeue c) s ∧ (getCore s.dev c).w.launchQ = l :: rest ∧ (freeSlots (getCore s.dev c).w).length < l.n) ∧
    (∃ c, ∃ (s : State), ∃ l rest, Fits (.launchDequeue c) s ∧ (getCore s.dev c).w.launchQ = l :: rest ∧ l.hook ≠ none) ∧
    (∃ c, ∃ (s : State), ∃ l rest, Fits (.launchDequeue c) s ∧ (getCore s.dev c).w.launchQ = l :: rest ∧ (getCore s.dev c).fenced = false ∧
      (getCore s.dev c).sched = 1 ∧ (getCore s.dev c).stopping = false ∧ l.hook = none ∧ 0 < l.n ∧ l.n ≤ (freeSlots (getCore s.dev c).w).length) ∧
    (∃ c, ∃ (s : State), ∃ l rest, Fits (.launchDequeue c) s ∧ (getCore s.dev c).w.launchQ = l :: rest ∧ (getCore s.dev c).fenced = false ∧
      (getCore s.dev c).sched = 1 ∧ (getCore s.dev c).stopping = false ∧ l.hook = none ∧ l.n = 0) :=
  ⟨⟨tc, tOn fun w => { w with launchQ := [{ tLaunch with n := 64 }] }, { tLaunch with n := 64 }, [], fits (by decide +kernel), by and_intros <;> decide +kernel⟩,
   ⟨tc, tOn fun w => { w with launchQ := [{ tLaunch with hook := some (0, 1) }] }, { tLaunch with hook := some (0, 1) }, [], fits (by decide +kernel), by and_intros <;> decide +kernel⟩,
   ⟨tc, tOn fun w => { w with launchQ := [{ tLaunch with n := 63 }] }, { tLaunch with n := 63 }, [], fits (by decide +kernel), by and_intros <;> decide +kernel⟩,
   ⟨tc, tOn fun w => { w with launchQ := [{ tLaunch with n := 0 }] }, { tLaunch with n := 0 }, [], fits (by decide +kernel), by and_intros <;> decide +kernel⟩⟩

theorem test_meets_CrewExits :
    ∃ c slot, ∃ (s : State), ∃ k l, Fits (.ctlExit c slot) s ∧ CanIssue (.crew c slot) (.ctlExit c slot) [] s.dev ∧ getCrew s.dev c slot = some k ∧
      findLaunch (getCore s.dev c).w k.launch = some l ∧ l.hook = none :=
  ⟨tc, 0, t0, tCrew, tLaunch, fits (by decide +kernel), issues (by decide +kernel), by and_intros <;> decide +kernel⟩

theorem test_meets_IllegalInstructions :
    (∃ i a, ∃ (s : State), issuerOf i = some a ∧ Fits i s ∧ agentReady s.dev a = true ∧ agentPc s.dev a < textLen s.dev a.core ∧ operandSub i ≠ 0) ∧
    (∃ a w, ∃ (s : State), ∃ sub, a.wf = true ∧ a.core.die < s.dev.part.dies ∧ agentReady s.dev a = true ∧ agentPc s.dev a < textLen s.dev a.core ∧
      yelreDecode a w = .error sub) ∧
    (∃ a, ∃ (s : State), a.wf = true ∧ a.core.die < s.dev.part.dies ∧ agentReady s.dev a = true ∧ textLen s.dev a.core ≤ agentPc s.dev a) ∧
    (∃ i a w, issuerOf i = some a ∧ encode i = some w) :=
  ⟨⟨.ctlLaunch tc ⟨65, 0, 0, 0, 0⟩, tSeq, t0, by decide +kernel, fits (by decide +kernel), by and_intros <;> decide +kernel⟩,
   ⟨tSeq, 0xFFFFFFFFFFFFFFFF, t0, 1, by and_intros <;> decide +kernel⟩,
   ⟨tSeq, tSeqOn fun q => { q with pc := 64 }, by and_intros <;> decide +kernel⟩,
   ⟨.ctlLaunch tc ⟨2, 0, 0, 24, 0x8F02⟩, tSeq, 0x0100040000308F02, by and_intros <;> decide +kernel⟩⟩

theorem test_meets_StackFaults :
    (∃ c slot o, ∃ (s : State), ∃ k, Fits (.ctlMpush c slot o) s ∧ CanIssue (.crew c slot) (.ctlMpush c slot o) [] s.dev ∧ getCrew s.dev c slot = some k ∧
      16 ≤ k.stack.length) ∧
    (∃ c slot, ∃ (s : State), ∃ k, Fits (.ctlMelse c slot) s ∧ CanIssue (.crew c slot) (.ctlMelse c slot) [] s.dev ∧ getCrew s.dev c slot = some k ∧
      k.stack = []) ∧
    (∃ c slot, ∃ (s : State), ∃ k, Fits (.ctlMpop c slot) s ∧ CanIssue (.crew c slot) (.ctlMpop c slot) [] s.dev ∧ getCrew s.dev c slot = some k ∧
      k.stack = []) ∧
    (∃ c o, ∃ (s : State), Fits (.ctlCall c o) s ∧ CanIssue (.seq c) (.ctlCall c o) [] s.dev ∧ 16 ≤ (seqOf s.dev c).ret.length) ∧
    (∃ c, ∃ (s : State), Fits (.ctlRet c) s ∧ CanIssue (.seq c) (.ctlRet c) [] s.dev ∧ (seqOf s.dev c).ret = []) ∧
    (∃ a o, ∃ (s : State), Fits (.ctlBr a o) s ∧ CanIssue a (.ctlBr a o) [] s.dev ∧ ¬InText s.dev a (branchTarget s.dev a o.off)) ∧
    (∃ c o, ∃ (s : State), Fits (.ctlCall c o) s ∧ CanIssue (.seq c) (.ctlCall c o) [] s.dev ∧ (seqOf s.dev c).ret.length < 16 ∧
      ¬InText s.dev (.seq c) (branchTarget s.dev (.seq c) o.off)) ∧
    (∃ c, ∃ (s : State), ∃ r rest, Fits (.ctlRet c) s ∧ CanIssue (.seq c) (.ctlRet c) [] s.dev ∧ (seqOf s.dev c).ret = r :: rest ∧ textLen s.dev c ≤ r) ∧
    (∃ c o, ∃ (s : State), Fits (.ctlBrz c o) s ∧ CanIssue (.seq c) (.ctlBrz c o) [o.sc.toNat] s.dev ∧ sreg s.dev c o.sc.toNat = 0 ∧
      ¬InText s.dev (.seq c) (branchTarget s.dev (.seq c) o.off)) ∧
    (∃ c o, ∃ (s : State), Fits (.ctlBrnz c o) s ∧ CanIssue (.seq c) (.ctlBrnz c o) [o.sc.toNat] s.dev ∧ sreg s.dev c o.sc.toNat ≠ 0 ∧
      ¬InText s.dev (.seq c) (branchTarget s.dev (.seq c) o.off)) ∧
    (∃ c slot o, ∃ (s : State), ∃ k, Fits (.ctlBrp c slot o) s ∧ CanIssue (.crew c slot) (.ctlBrp c slot o) [] s.dev ∧ getCrew s.dev c slot = some k ∧
      k.mask &&& k.pred o.pd.toNat ≠ 0 ∧ ¬InText s.dev (.crew c slot) (branchTarget s.dev (.crew c slot) o.off)) ∧
    (∃ c slot o, ∃ (s : State), ∃ k, Fits (.ctlBrnp c slot o) s ∧ CanIssue (.crew c slot) (.ctlBrnp c slot o) [] s.dev ∧ getCrew s.dev c slot = some k ∧
      k.mask &&& k.pred o.pd.toNat = 0 ∧ ¬InText s.dev (.crew c slot) (branchTarget s.dev (.crew c slot) o.off)) :=
  ⟨⟨tc, 0, ⟨1, 0⟩, tCrewOn fun k => { k with stack := List.replicate 16 0 }, { tCrew with stack := List.replicate 16 0 }, fits (by decide +kernel),
    issues (by decide +kernel), by and_intros <;> decide +kernel⟩,
   ⟨tc, 0, t0, tCrew, fits (by decide +kernel), issues (by decide +kernel), by and_intros <;> decide +kernel⟩,
   ⟨tc, 0, t0, tCrew, fits (by decide +kernel), issues (by decide +kernel), by and_intros <;> decide +kernel⟩,
   ⟨tc, ⟨0, 0⟩, tSeqOn fun q => { q with ret := List.replicate 16 0 }, fits (by decide +kernel), issues (by decide +kernel), by decide +kernel⟩,
   ⟨tc, t0, fits (by decide +kernel), issues (by decide +kernel), by decide +kernel⟩,
   ⟨tSeq, ⟨0, 64⟩, t0, fits (by decide +kernel), issues (by decide +kernel), by unfold InText; decide +kernel⟩,
   ⟨tc, ⟨0, 0xFFFFFFFF⟩, t0, fits (by decide +kernel), issues (by decide +kernel), by decide +kernel, by unfold InText; decide +kernel⟩,
   ⟨tc, tSeqOn fun q => { q with ret := [64] }, 64, [], fits (by decide +kernel), issues (by decide +kernel), by and_intros <;> decide +kernel⟩,
   ⟨tc, ⟨0, 64⟩, t0, fits (by decide +kernel), issues (by decide +kernel), by decide +kernel, by unfold InText; decide +kernel⟩,
   ⟨tc, ⟨0, 64⟩, tSeqOn fun q => { q with s := [(0, 1)] }, fits (by decide +kernel), issues (by decide +kernel), by decide +kernel,
    by unfold InText; decide +kernel⟩,
   ⟨tc, 0, ⟨0, 64⟩, tCrewOn (fun k => { k with p := [(0, 2)] }), { tCrew with p := [(0, 2)] }, fits (by decide +kernel), issues (by decide +kernel),
    by decide +kernel, by decide +kernel, by unfold InText; decide +kernel⟩,
   ⟨tc, 0, ⟨1, 0xFFFFFFFF⟩, t0, tCrew, fits (by decide +kernel), issues (by decide +kernel), by decide +kernel, by decide +kernel,
    by unfold InText; decide +kernel⟩⟩

theorem test_meets_RegistersInFlight :
    (∃ (i : CoreId → S3Op → Instr), i ∈ [Instr.sclAdd, .sclSub, .sclMul, .sclMulh, .sclAnd, .sclOr, .sclXor, .sclShl, .sclShr, .sclSar, .sclMin, .sclMax,
      .sclCmp] ∧ ∃ c o, ∃ (s : State), ∃ r, Fits (i c o) s ∧ seqReady s.dev c = true ∧ (seqOf s.dev c).pc < textLen s.dev c ∧
      operandSub (i c o) = 0 ∧ r ∈ [o.sd.toNat, o.sa.toNat, o.sb.toNat] ∧ r ∈ (seqOf s.dev c).inflight) ∧
    (∃ (i : CoreId → BsOp → Instr), i ∈ [Instr.ctlBrz, .ctlBrnz] ∧ ∃ c o, ∃ (s : State), Fits (i c o) s ∧ seqReady s.dev c = true ∧
      (seqOf s.dev c).pc < textLen s.dev c ∧ operandSub (i c o) = 0 ∧ o.sc.toNat ∈ (seqOf s.dev c).inflight) ∧
    (∃ (i : CoreId → SaOp → Instr), i ∈ [Instr.sclMova, .sclMovs, .sclAdda] ∧ ∃ c o, ∃ (s : State), Fits (i c o) s ∧ seqReady s.dev c = true ∧
      (seqOf s.dev c).pc < textLen s.dev c ∧ operandSub (i c o) = 0 ∧ o.sb.toNat ∈ (seqOf s.dev c).inflight) :=
  ⟨⟨.sclAdd, List.mem_cons_self, tc, ⟨5, 0, 0, 0⟩, tSeqOn fun q => { q with inflight := [5] }, 5, fits (by decide +kernel), by and_intros <;> decide +kernel⟩,
   ⟨.ctlBrz, List.mem_cons_self, tc, ⟨5, 0⟩, tSeqOn fun q => { q with inflight := [5] }, fits (by decide +kernel), by and_intros <;> decide +kernel⟩,
   ⟨.sclMova, List.mem_cons_self, tc, ⟨0, 0, 5, 0⟩, tSeqOn fun q => { q with inflight := [5] }, fits (by decide +kernel), by and_intros <;> decide +kernel⟩⟩

theorem test_meets_ScalarLoad :
    (∃ c o, ∃ (s : State), ∃ p, Fits (.sclLd c o) s ∧ CanIssue (.seq c) (.sclLd c o) [o.sd.toNat] s.dev ∧
      (smAddr s.dev c o).toNat % 2 ^ o.size.toNat = 0 ∧ resolve s.dev (smAddr s.dev c o) = some p ∧ (∀ x y, p ≠ .reg x y) ∧
      inRegion s.dev (smAddr s.dev c o) (2 ^ o.size.toNat) = true ∧ retired s.dev (smAddr s.dev c o) p = false ∧
      poisoned s.dev p (2 ^ o.size.toNat) = false ∧ reachBusy s.dev c.die p = false) ∧
    (∃ c o, ∃ (s : State), ∃ die off, Fits (.sclLd c o) s ∧ CanIssue (.seq c) (.sclLd c o) [o.sd.toNat] s.dev ∧
      (smAddr s.dev c o).toNat % 2 ^ o.size.toNat = 0 ∧ resolve s.dev (smAddr s.dev c o) = some (.reg die off) ∧ routeBusy s.dev c.die die = false) :=
  ⟨⟨tc, ⟨31, 1, 3, 0, 0⟩, tSeqOn fun q => { q with a := [(1, storeAddr tc 0x17FFF8)] }, .store tc 0x17FFF8, fits (by decide +kernel),
    issues (by decide +kernel), by decide +kernel, by decide +kernel, (by intro _ _ h; cases h), by and_intros <;> decide +kernel⟩,
   ⟨tc, ⟨31, 1, 3, 0, 0⟩, (tSeqOn fun q => { q with a := [(1, BitVec.ofNat 52 (regAddr .kvsGeom 0 0 0))] }), 0, (regOff .kvsGeom 0 0),
    fits (by decide +kernel), issues (by decide +kernel), by and_intros <;> decide +kernel⟩⟩

theorem test_meets_ScalarStore :
    (∃ c o, ∃ (s : State), ∃ p, Fits (.sclSt c o) s ∧ CanIssue (.seq c) (.sclSt c o) [o.sd.toNat] s.dev ∧
      (smAddr s.dev c o).toNat % 2 ^ o.size.toNat = 0 ∧ resolve s.dev (smAddr s.dev c o) = some p ∧ (∀ x y, p ≠ .reg x y) ∧
      inRegion s.dev (smAddr s.dev c o) (2 ^ o.size.toNat) = true ∧ retired s.dev (smAddr s.dev c o) p = false ∧
      isReadonly s.dev (smAddr s.dev c o) (2 ^ o.size.toNat) = false ∧ reachBusy s.dev c.die p = false) ∧
    (∃ c o, ∃ (s : State), ∃ die off e, Fits (.sclSt c o) s ∧ CanIssue (.seq c) (.sclSt c o) [o.sd.toNat] s.dev ∧
      (smAddr s.dev c o).toNat % 2 ^ o.size.toNat = 0 ∧ resolve s.dev (smAddr s.dev c o) = some (.reg die off) ∧ routeBusy s.dev c.die die = false ∧
      exec (.registerWrite (smAddr s.dev c o) (2 ^ o.size.toNat) (sreg s.dev c o.sd.toNat)) s = .next { s with dev := e }) :=
  ⟨⟨tc, ⟨31, 1, 3, 0, 0⟩, tSeqOn fun q => { q with a := [(1, storeAddr tc 0x17FFF8)] }, .store tc 0x17FFF8, fits (by decide +kernel),
    issues (by decide +kernel), by decide +kernel, by decide +kernel, (by intro _ _ h; cases h), by and_intros <;> decide +kernel⟩,
   ⟨tc, ⟨31, 1, 3, 0, 0⟩, (tSeqOn fun q => { q with a := [(1, BitVec.ofNat 52 (regAddr .kvsGeom 0 0 0))] }), 0, (regOff .kvsGeom 0 0),
    tNext (exec (.registerWrite (BitVec.ofNat 52 (regAddr .kvsGeom 0 0 0)) 8 0) (tSeqOn fun q => { q with a := [(1, BitVec.ofNat 52 (regAddr .kvsGeom 0 0 0))] })),
    fits (by decide +kernel), issues (by decide +kernel), by decide +kernel, by decide +kernel, by decide +kernel, next_ok (by decide +kernel)⟩⟩

theorem test_meets_AccessFaults :
    (∃ c o, ∃ (s : State), Fits (.sclLd c o) s ∧ CanIssue (.seq c) (.sclLd c o) [o.sd.toNat] s.dev ∧ (smAddr s.dev c o).toNat % 2 ^ o.size.toNat ≠ 0) ∧
    (∃ c o, ∃ (s : State), Fits (.sclSt c o) s ∧ CanIssue (.seq c) (.sclSt c o) [o.sd.toNat] s.dev ∧ (smAddr s.dev c o).toNat % 2 ^ o.size.toNat ≠ 0) ∧
    (∃ c o, ∃ (s : State), Fits (.sclLd c o) s ∧ CanIssue (.seq c) (.sclLd c o) [o.sd.toNat] s.dev ∧ (smAddr s.dev c o).toNat % 2 ^ o.size.toNat = 0 ∧
      resolve s.dev (smAddr s.dev c o) = none) ∧
    (∃ c o, ∃ (s : State), Fits (.sclSt c o) s ∧ CanIssue (.seq c) (.sclSt c o) [o.sd.toNat] s.dev ∧ (smAddr s.dev c o).toNat % 2 ^ o.size.toNat = 0 ∧
      resolve s.dev (smAddr s.dev c o) = none) ∧
    (∃ c o, ∃ (s : State), ∃ p, Fits (.sclSt c o) s ∧ CanIssue (.seq c) (.sclSt c o) [o.sd.toNat] s.dev ∧
      (smAddr s.dev c o).toNat % 2 ^ o.size.toNat = 0 ∧ resolve s.dev (smAddr s.dev c o) = some p ∧ (∀ x y, p ≠ .reg x y) ∧
      isReadonly s.dev (smAddr s.dev c o) (2 ^ o.size.toNat) = true) ∧
    (∃ c o, ∃ (s : State), ∃ p, Fits (.sclLd c o) s ∧ CanIssue (.seq c) (.sclLd c o) [o.sd.toNat] s.dev ∧
      (smAddr s.dev c o).toNat % 2 ^ o.size.toNat = 0 ∧ resolve s.dev (smAddr s.dev c o) = some p ∧ (∀ x y, p ≠ .reg x y) ∧
      inRegion s.dev (smAddr s.dev c o) (2 ^ o.size.toNat) = true ∧ retired s.dev (smAddr s.dev c o) p = false ∧
      poisoned s.dev p (2 ^ o.size.toNat) = true ∧ reachBusy s.dev c.die p = false) ∧
    (∃ c o, ∃ (s : State), ∃ die ch ca, Fits (.sclLd c o) s ∧ CanIssue (.seq c) (.sclLd c o) [o.sd.toNat] s.dev ∧
      (smAddr s.dev c o).toNat % 2 ^ o.size.toNat = 0 ∧ resolve s.dev (smAddr s.dev c o) = some (.hbm die ch ca) ∧
      inRegion s.dev (smAddr s.dev c o) (2 ^ o.size.toNat) = true ∧ retired s.dev (smAddr s.dev c o) (.hbm die ch ca) = true ∧
      reachBusy s.dev c.die (.hbm die ch ca) = false) ∧
    (∃ c o, ∃ (s : State), ∃ die ch ca, Fits (.sclSt c o) s ∧ CanIssue (.seq c) (.sclSt c o) [o.sd.toNat] s.dev ∧
      (smAddr s.dev c o).toNat % 2 ^ o.size.toNat = 0 ∧ resolve s.dev (smAddr s.dev c o) = some (.hbm die ch ca) ∧
      inRegion s.dev (smAddr s.dev c o) (2 ^ o.size.toNat) = true ∧ retired s.dev (smAddr s.dev c o) (.hbm die ch ca) = true ∧
      isReadonly s.dev (smAddr s.dev c o) (2 ^ o.size.toNat) = false ∧ reachBusy s.dev c.die (.hbm die ch ca) = false) ∧
    (∃ (i : CoreId → Nat → VmOp → Instr), i ∈ [Instr.vecLd, .vecSt] ∧ ∃ c slot o, ∃ (s : State), ∃ k l, Fits (i c slot o) s ∧
      CanIssue (.crew c slot) (i c slot o) [o.va.toNat, o.vd.toNat] s.dev ∧ getCrew s.dev c slot = some k ∧ l < 32 ∧
      (k.runs o.pred o.pneg).getLsbD l = true ∧ (storeBytes < vmAddr o k l + 2 ^ o.size.toNat ∨ vmAddr o k l % 2 ^ o.size.toNat ≠ 0) ∧ (∀ h,
      h < l → (k.runs o.pred o.pneg).getLsbD h = true → vmAddr o k h + 2 ^ o.size.toNat ≤ storeBytes ∧ vmAddr o k h % 2 ^ o.size.toNat = 0)) :=
  ⟨⟨tc, ⟨0, 1, 3, 0, 7⟩, tSeqOn fun q => { q with a := [(1, storeAddr tc 0x17FFF8)] }, fits (by decide +kernel), issues (by decide +kernel),
    by decide +kernel⟩,
   ⟨tc, ⟨0, 1, 3, 0, 7⟩, tSeqOn fun q => { q with a := [(1, storeAddr tc 0x17FFF8)] }, fits (by decide +kernel), issues (by decide +kernel),
    by decide +kernel⟩,
   ⟨tc, ⟨0, 1, 3, 0, 8⟩, tSeqOn fun q => { q with a := [(1, storeAddr tc 0x17FFF8)] }, fits (by decide +kernel), issues (by decide +kernel), by and_intros <;> decide +kernel⟩,
   ⟨tc, ⟨0, 1, 3, 0, 8⟩, tSeqOn fun q => { q with a := [(1, storeAddr tc 0x17FFF8)] }, fits (by decide +kernel), issues (by decide +kernel), by and_intros <;> decide +kernel⟩,
   ⟨tc, ⟨0, 1, 3, 0, 0⟩, tAnd (fun w => { w with seq := { w.seq with a := [(1, 64)] } }) fun d => { d with regs := [(regKey .hbmChan 0 0 0, 1)], readonly := [(64, 8)] },
    .hbm 0 0 64, fits (by decide +kernel), issues (by decide +kernel), by decide +kernel, by decide +kernel, (by intro _ _ h; cases h),
    by decide +kernel⟩,
   ⟨tc, ⟨0, 1, 3, 0, 0⟩, tAnd (fun w => { w with seq := { w.seq with a := [(1, storeAddr tc 0x17FFF8)] } }) (fun d => { d with poison := [(storeKey tc 0x17FFF8, true)] }),
    .store tc 0x17FFF8, fits (by decide +kernel), issues (by decide +kernel), by decide +kernel, by decide +kernel, (by intro _ _ h; cases h), by and_intros <;> decide +kernel⟩,
   ⟨tc, ⟨0, 1, 3, 0, 0⟩, tAnd (fun w => { w with seq := { w.seq with a := [(1, 64)] } }) fun d => { d with regs := [(regKey .hbmChan 0 0 0, 1), (regKey .hbmRetire 0 0 0, 1)] },
    0, 0, 64, fits (by decide +kernel), issues (by decide +kernel), by and_intros <;> decide +kernel⟩,
   ⟨tc, ⟨0, 1, 3, 0, 0⟩, tAnd (fun w => { w with seq := { w.seq with a := [(1, 64)] } }) fun d => { d with regs := [(regKey .hbmChan 0 0 0, 1), (regKey .hbmRetire 0 0 0, 1)] },
    0, 0, 64, fits (by decide +kernel), issues (by decide +kernel), by and_intros <;> decide +kernel⟩,
   ⟨.vecSt, List.mem_cons_of_mem _ List.mem_cons_self, tc, 0, ⟨0, 0, 0, 0, 2, 0, 0x180000⟩, t0, tCrew, 0, fits (by decide +kernel),
    issues (by decide +kernel), by and_intros <;> decide +kernel⟩⟩

theorem test_meets_VectorBits :
    (∃ c slot o s k, getCrew s.dev c slot = some k ∧ ∀ i ∈ [Instr.vecAnd, .vecOr, .vecXor], Fits (i c slot o) s ∧
      CanIssue (.crew c slot) (i c slot o) [o.vd.toNat, o.va.toNat, o.vb.toNat, o.vc.toNat] s.dev) ∧
    (∃ c slot o s k, getCrew s.dev c slot = some k ∧ ∀ i ∈ [Instr.vecShl], Fits (i c slot o) s ∧ CanIssue (.crew c slot) (i c slot o) [o.vd.toNat,
      o.va.toNat, o.vb.toNat, o.vc.toNat] s.dev) ∧
    (∃ c slot o s k, getCrew s.dev c slot = some k ∧ o.type = 3 ∧ ∀ i ∈ [Instr.vecShr], Fits (i c slot o) s ∧
      CanIssue (.crew c slot) (i c slot o) [o.vd.toNat, o.va.toNat, o.vb.toNat, o.vc.toNat] s.dev) ∧
    (∃ c slot o s k, getCrew s.dev c slot = some k ∧ o.type = 4 ∧ ∀ i ∈ [Instr.vecShr], Fits (i c slot o) s ∧
      CanIssue (.crew c slot) (i c slot o) [o.vd.toNat, o.va.toNat, o.vb.toNat, o.vc.toNat] s.dev) ∧
    (∃ c slot o s k, getCrew s.dev c slot = some k ∧ ∀ i ∈ [Instr.vecMov], Fits (i c slot o) s ∧ CanIssue (.crew c slot) (i c slot o) [o.vd.toNat,
      o.va.toNat, o.vb.toNat, o.vc.toNat] s.dev) ∧
    (∃ c slot o s k, getCrew s.dev c slot = some k ∧ ∀ i ∈ [Instr.vecSel], Fits (i c slot o) s ∧ CanIssue (.crew c slot) (i c slot o) [o.vd.toNat,
      o.va.toNat, o.vb.toNat, o.vc.toNat] s.dev) ∧
    (∃ c slot o s k, getCrew s.dev c slot = some k ∧ ∀ i ∈ [Instr.vecShfl], Fits (i c slot o) s ∧ CanIssue (.crew c slot) (i c slot o) [o.vd.toNat,
      o.va.toNat, o.vb.toNat, o.vc.toNat] s.dev) :=
  ⟨⟨tc, 0, ⟨63, 62, 7, 1, 61, 60, 0, 0, 0, 0, 0, 0⟩, t0, tCrew, by decide +kernel, by unfold Fits CanIssue; decide +kernel⟩,
   ⟨tc, 0, ⟨63, 62, 7, 1, 61, 0, 4, 0, 0, 0, 0, 0⟩, t0, tCrew, by decide +kernel, by unfold Fits CanIssue; decide +kernel⟩,
   ⟨tc, 0, ⟨63, 62, 7, 1, 61, 0, 3, 0, 0, 0, 0, 0⟩, t0, tCrew, by decide +kernel, by decide +kernel, by unfold Fits CanIssue; decide +kernel⟩,
   ⟨tc, 0, ⟨63, 62, 7, 1, 61, 0, 4, 0, 0, 0, 0, 0⟩, t0, tCrew, by decide +kernel, by decide +kernel, by unfold Fits CanIssue; decide +kernel⟩,
   ⟨tc, 0, ⟨63, 62, 7, 1, 0, 0, 2, 0, 0, 0, 0, 0⟩, t0, tCrew, by decide +kernel, by unfold Fits CanIssue; decide +kernel⟩,
   ⟨tc, 0, ⟨63, 62, 7, 1, 61, 60, 0, 0, 0, 0, 7, 0⟩, t0, tCrew, by decide +kernel, by unfold Fits CanIssue; decide +kernel⟩,
   ⟨tc, 0, ⟨63, 62, 7, 1, 61, 0, 0, 0, 0, 0, 0, 0⟩, t0, tCrew, by decide +kernel, by unfold Fits CanIssue; decide +kernel⟩⟩

theorem test_meets_VectorIntegers :
    (∃ c slot o s k, getCrew s.dev c slot = some k ∧ (o.type = 3 ∨ o.type = 4) ∧ ∀ i ∈ [Instr.vecAdd, .vecSub, .vecMul, .vecFma, .vecMin, .vecMax],
      Fits (i c slot o) s ∧ CanIssue (.crew c slot) (i c slot o) [o.vd.toNat, o.va.toNat, o.vb.toNat, o.vc.toNat] s.dev) ∧
    (∃ c slot o s k, getCrew s.dev c slot = some k ∧ (o.type = 3 ∨ o.type = 4) ∧ ¬(o.type = 4 ∧ o.sat = 1) ∧ ∀ i ∈ [Instr.vecAbs, .vecNeg],
      Fits (i c slot o) s ∧ CanIssue (.crew c slot) (i c slot o) [o.vd.toNat, o.va.toNat, o.vb.toNat, o.vc.toNat] s.dev) ∧
    (∃ c slot o s k, getCrew s.dev c slot = some k ∧ ∀ i ∈ [Instr.vecMovi], Fits (i c slot o) s ∧ CanIssue (.crew c slot) (i c slot o) [o.vd.toNat,
      o.va.toNat] s.dev) ∧
    (∃ c slot o s k, getCrew s.dev c slot = some k ∧ ∀ i ∈ [Instr.vecAddi], Fits (i c slot o) s ∧ CanIssue (.crew c slot) (i c slot o) [o.vd.toNat,
      o.va.toNat] s.dev) :=
  ⟨⟨tc, 0, ⟨63, 62, 7, 1, 61, 60, 4, 0, 0, 1, 0, 0⟩, t0, tCrew, by decide +kernel, by decide +kernel, by unfold Fits CanIssue; decide +kernel⟩,
   ⟨tc, 0, ⟨63, 62, 7, 1, 0, 0, 3, 0, 0, 1, 0, 0⟩, t0, tCrew, by decide +kernel, by decide +kernel, by unfold Fits CanIssue; decide +kernel⟩,
   ⟨tc, 0, ⟨63, 0, 7, 1, 0xFFFFFFFF⟩, t0, tCrew, by decide +kernel, by unfold Fits CanIssue; decide +kernel⟩,
   ⟨tc, 0, ⟨63, 63, 7, 1, 0xFFFFFFFF⟩, t0, tCrew, by decide +kernel, by unfold Fits CanIssue; decide +kernel⟩⟩

theorem test_meets_VectorFloats :
    (∃ c slot o s k, getCrew s.dev c slot = some k ∧ o.type.toNat < 3 ∧ o.rnd.toNat < 3 ∧ ∀ i ∈ [Instr.vecAdd, .vecSub, .vecMul, .vecFma],
      Fits (i c slot o) s ∧ CanIssue (.crew c slot) (i c slot o) [o.vd.toNat, o.va.toNat, o.vb.toNat, o.vc.toNat] s.dev) ∧
    (∃ c slot o s k, getCrew s.dev c slot = some k ∧ o.type.toNat < 3 ∧ ∀ i ∈ [Instr.vecMin, .vecMax], Fits (i c slot o) s ∧
      CanIssue (.crew c slot) (i c slot o) [o.vd.toNat, o.va.toNat, o.vb.toNat, o.vc.toNat] s.dev) ∧
    (∃ c slot o s k, getCrew s.dev c slot = some k ∧ ∀ i ∈ [Instr.vecFaddi, .vecFmuli], Fits (i c slot o) s ∧
      CanIssue (.crew c slot) (i c slot o) [o.vd.toNat, o.va.toNat] s.dev) ∧
    (∃ c slot o s k, getCrew s.dev c slot = some k ∧ o.type = 0 ∧ o.ftz = 0 ∧ ∀ i ∈ [Instr.vecAbs, .vecNeg], Fits (i c slot o) s ∧
      CanIssue (.crew c slot) (i c slot o) [o.vd.toNat, o.va.toNat, o.vb.toNat, o.vc.toNat] s.dev) :=
  ⟨⟨tc, 0, ⟨63, 62, 7, 1, 61, 60, 2, 2, 0, 0, 0, 0⟩, t0, tCrew, by decide +kernel, by decide +kernel, by unfold Fits CanIssue; decide +kernel⟩,
   ⟨tc, 0, ⟨63, 62, 7, 1, 61, 60, 2, 0, 0, 0, 0, 0⟩, t0, tCrew, by decide +kernel, by decide +kernel, by unfold Fits CanIssue; decide +kernel⟩,
   ⟨tc, 0, ⟨63, 63, 7, 1, 0xFFFFFFFF⟩, t0, tCrew, by decide +kernel, by unfold Fits CanIssue; decide +kernel⟩,
   ⟨tc, 0, ⟨63, 62, 7, 1, 0, 0, 0, 0, 0, 0, 0, 0⟩, t0, tCrew, by decide +kernel, by decide +kernel, by unfold Fits CanIssue; decide +kernel⟩⟩

theorem test_meets_VectorCompares :
    ∃ c slot o, ∃ (s : State), ∃ k, Fits (.vecCmp c slot o) s ∧ CanIssue (.crew c slot) (.vecCmp c slot o) [o.va.toNat, o.vb.toNat] s.dev ∧
      getCrew s.dev c slot = some k :=
  ⟨tc, 0, ⟨7, 62, 7, 1, 61, 60, 4, 0, 0, 0, 7, 0⟩, t0, tCrew, fits (by decide +kernel), issues (by decide +kernel), by decide +kernel⟩

theorem test_meets_VectorLoad :
    ∃ c slot o, ∃ (s : State), ∃ k, Fits (.vecLd c slot o) s ∧ CanIssue (.crew c slot) (.vecLd c slot o) [o.va.toNat, o.vd.toNat] s.dev ∧
      getCrew s.dev c slot = some k ∧ (∀ l, l < 32 → (k.runs o.pred o.pneg).getLsbD l = true → vmAddr o k l + 2 ^ o.size.toNat ≤ storeBytes ∧
      vmAddr o k l % 2 ^ o.size.toNat = 0 ∧ storePoisoned s.dev c (vmAddr o k l) (2 ^ o.size.toNat) = false) ∧ o.size.toNat < 3 :=
  ⟨tc, 0, ⟨63, 62, 0, 0, 2, 0, 0x17FFFC⟩, t0, tCrew, fits (by decide +kernel), issues (by decide +kernel), by and_intros <;> decide +kernel⟩

theorem test_meets_VectorStore :
    ∃ c slot o, ∃ (s : State), ∃ k, Fits (.vecSt c slot o) s ∧ CanIssue (.crew c slot) (.vecSt c slot o) [o.va.toNat, o.vd.toNat] s.dev ∧
      getCrew s.dev c slot = some k ∧ o.size.toNat < 3 ∧ (∀ l,
      l < 32 → (k.runs o.pred o.pneg).getLsbD l = true → vmAddr o k l + 2 ^ o.size.toNat ≤ storeBytes ∧ vmAddr o k l % 2 ^ o.size.toNat = 0) :=
  ⟨tc, 0, ⟨63, 62, 0, 0, 2, 0, 0x17FFFC⟩, t0, tCrew, fits (by decide +kernel), issues (by decide +kernel), by and_intros <;> decide +kernel⟩

theorem test_meets_SpecialFunctions :
    (∃ c slot o s k, getCrew s.dev c slot = some k ∧ o.type = 0 ∧ o.base = 0 ∧ o.ftz = 0 ∧ o.rnd.toNat < 3 ∧ (k.runs o.pred o.pneg).getLsbD 31 = true ∧
      k.reg 31 o.va.toNat = 0 ∧ ∀ i ∈ [Instr.sfnExp, .sfnExp2, .sfnLog, .sfnLog2, .sfnRcp, .sfnSqrt, .sfnRsqrt, .sfnSin, .sfnCos, .sfnTanh, .sfnSigm,
      .sfnErf, .sfnGelu, .sfnSilu], Fits (i c slot o) s ∧ CanIssue (.crew c slot) (i c slot o) [o.va.toNat, o.vd.toNat] s.dev) ∧
    (∃ c slot o s k, getCrew s.dev c slot = some k ∧ o.base = 1 ∧ (getCore s.dev c).w.baseActive = none ∧ ∀ i ∈ [Instr.sfnExp, .sfnExp2, .sfnLog,
      .sfnLog2, .sfnRcp, .sfnSqrt, .sfnRsqrt, .sfnSin, .sfnCos, .sfnTanh, .sfnSigm, .sfnErf, .sfnGelu], Fits (i c slot o) s ∧
      CanIssue (.crew c slot) (i c slot o) [o.va.toNat, o.vd.toNat] s.dev) ∧
    (∃ c slot o s k, getCrew s.dev c slot = some k ∧ o.base = 1 ∧ (getCore s.dev c).w.baseActive ≠ none ∧ ∀ i ∈ [Instr.sfnExp, .sfnExp2, .sfnLog,
      .sfnLog2, .sfnRcp, .sfnSqrt, .sfnRsqrt, .sfnSin, .sfnCos, .sfnTanh, .sfnSigm, .sfnErf, .sfnGelu], Fits (i c slot o) s ∧
      CanIssue (.crew c slot) (i c slot o) [o.va.toNat, o.vd.toNat] s.dev) :=
  ⟨⟨tc, 0, ⟨63, 62, 0, 0, 0, 0, 0, 0, 0, 0, 0, 0⟩, t0, tCrew, by decide +kernel, by decide +kernel, by unfold Fits CanIssue; decide +kernel⟩,
   ⟨tc, 0, ⟨63, 62, 7, 1, 0, 0, 0, 0, 0, 0, 0, 1⟩, t0, tCrew, by decide +kernel, by decide +kernel, by unfold Fits CanIssue; decide +kernel⟩,
   ⟨tc, 0, ⟨63, 62, 7, 1, 0, 0, 0, 0, 0, 0, 0, 1⟩, tOn fun w => { w with baseActive := some 0 }, tCrew, by decide +kernel, by decide +kernel,
    by unfold Fits CanIssue; decide +kernel⟩⟩

theorem test_meets_DrawsAndConversions :
    (∃ c slot o, ∃ (s : State), ∃ k, Fits (.vecRand c slot o) s ∧ CanIssue (.crew c slot) (.vecRand c slot o) [o.vd.toNat, o.va.toNat, o.vb.toNat,
      o.vc.toNat] s.dev ∧ getCrew s.dev c slot = some k ∧ (∀ p, (getCore s.dev c).w.part = some p → p.plumb = false) ∧ (getCore s.dev c).laneFence = 0) ∧
    (∃ c slot o, ∃ (s : State), ∃ k, Fits (.qntCvt c slot o) s ∧ CanIssue (.crew c slot) (.qntCvt c slot o) [o.vd.toNat, o.va.toNat] s.dev ∧
      getCrew s.dev c slot = some k) :=
  ⟨⟨tc, 0, ⟨63, 0, 7, 1, 0, 0, 4, 0, 0, 0, 0, 0⟩, t0, tCrew, fits (by decide +kernel), issues (by decide +kernel), by decide +kernel,
    fun _ h => by cases h; rfl, by decide +kernel⟩,
   ⟨tc, 0, ⟨63, 62, 0, 0, 0, 2, 0, 0, 0⟩, t0, tCrew, fits (by decide +kernel), issues (by decide +kernel), by decide +kernel⟩⟩

theorem test_meets_StakeInstructions :
    (∃ a o, ∃ (s : State), ∃ id, Fits (.stkArrive a o) s ∧ CanIssue a (.stkArrive a o) (stkRegs o false) s.dev ∧ stkName s.dev a o = some id ∧
      stakeDie id < s.dev.part.dies) ∧
    (∃ a o, ∃ (s : State), ∃ id, Fits (.stkReset a o) s ∧ CanIssue a (.stkReset a o) (stkRegs o (decide (o.treg = 1))) s.dev ∧
      stkName s.dev a o = some id ∧ stakeDie id < s.dev.part.dies) ∧
    (∃ a o, ∃ (s : State), ∃ id, Fits (.stkClaim a o) s ∧ CanIssue a (.stkClaim a o) (stkRegs o true) s.dev ∧ stkName s.dev a o = some id ∧
      stakeDie id < s.dev.part.dies) ∧
    (∃ a o, ∃ (s : State), ∃ id, Fits (.stkTest a o) s ∧ CanIssue a (.stkTest a o) (stkRegs o true) s.dev ∧ stkName s.dev a o = some id ∧
      stakeDie id < s.dev.part.dies) ∧
    (∃ a o, ∃ (s : State), ∃ id, Fits (.stkWait a o) s ∧ CanIssue a (.stkWait a o) (stkRegs o false) s.dev ∧ stkName s.dev a o = some id ∧
      stakeDie id < s.dev.part.dies) ∧
    (∃ (i : Agent → KOp → Instr), i ∈ [Instr.stkArrive, .stkReset, .stkClaim, .stkTest, .stkWait] ∧ ∃ a o, ∃ (s : State), ∃ id, Fits (i a o) s ∧
      CanIssue a (i a o) (stkRegs o true) s.dev ∧ stkName s.dev a o = some id ∧ s.dev.part.dies ≤ stakeDie id) ∧
    (∃ (i : Agent → KOp → Instr), i ∈ [Instr.stkArrive, .stkReset, .stkClaim, .stkTest, .stkWait] ∧ ∃ c slot o, ∃ (s : State), ∃ k,
      Fits (i (.crew c slot) o) s ∧ CanIssue (.crew c slot) (i (.crew c slot) o) (stkRegs o true) s.dev ∧ getCrew s.dev c slot = some k ∧ k.mask = 0) :=
  ⟨⟨tCrewA, ⟨0, 0, 0, 0, 65535, 0x1FFFF⟩, t0, 0x1FFFF, fits (by decide +kernel), issues (by decide +kernel), by and_intros <;> decide +kernel⟩,
   ⟨tSeq, ⟨0, 0, 0, 0, 65535, 0x1FFFF⟩, t0, 0x1FFFF, fits (by decide +kernel), issues (by decide +kernel), by and_intros <;> decide +kernel⟩,
   ⟨tSeq, ⟨31, 1, 30, 0, 0, 0⟩, t0, 0, fits (by decide +kernel), issues (by decide +kernel), by and_intros <;> decide +kernel⟩,
   ⟨tSeq, ⟨31, 0, 0, 0, 0, 0x1FFFF⟩, t0, 0x1FFFF, fits (by decide +kernel), issues (by decide +kernel), by and_intros <;> decide +kernel⟩,
   ⟨tSeq, ⟨0, 0, 0, 0, 65535, 0x1FFFF⟩, t0, 0x1FFFF, fits (by decide +kernel), issues (by decide +kernel), by and_intros <;> decide +kernel⟩,
   ⟨.stkArrive, List.mem_cons_self, tSeq, ⟨0, 0, 0, 0, 0, 0x10000⟩, tAnd id fun d => { d with part := ⟨4, true⟩ }, 0x10000, fits (by decide +kernel),
    issues (by decide +kernel), by and_intros <;> decide +kernel⟩,
   ⟨.stkArrive, List.mem_cons_self, tc, 0, ⟨0, 0, 0, 0, 0, 0⟩, tCrewOn fun k => { k with mask := 0 }, { tCrew with mask := 0 },
    fits (by decide +kernel), issues (by decide +kernel), by and_intros <;> decide +kernel⟩⟩

theorem test_meets_StakeOperations :
    (∃ die hub p op rest, ∃ (s : State), ∃ inc f, Fits (.stakeOpApply die hub (1#4 <<< p)) s ∧ Presents die hub p op rest s.dev ∧ op.act = .arrive inc f ∧
      op.answers = none ∧ stakeCheck s.dev op.stake op.parcel = .none ∧ 0 < inc) ∧
    (∃ die hub p op rest, ∃ (s : State), ∃ inc rd a run pc word mask, Fits (.stakeOpApply die hub (1#4 <<< p)) s ∧ Presents die hub p op rest s.dev ∧
      op.act = .claim inc rd ∧ op.source = .agent a run pc word mask ∧ agentRun s.dev a = run ∧ There a s.dev ∧ rd < 64 ∧ agentWait s.dev a = none ∧
      stakeCheck s.dev op.stake op.parcel = .none ∧ 0 < inc) ∧
    (∃ die hub p op rest, ∃ (s : State), ∃ rd a run pc word mask, Fits (.stakeOpApply die hub (1#4 <<< p)) s ∧ Presents die hub p op rest s.dev ∧
      op.act = .test rd ∧ op.source = .agent a run pc word mask ∧ agentRun s.dev a = run ∧ There a s.dev ∧ rd < 64 ∧
      stakeCheck s.dev op.stake op.parcel = .none) ∧
    (∃ die hub p op rest, ∃ (s : State), ∃ tgt, Fits (.stakeOpApply die hub (1#4 <<< p)) s ∧ Presents die hub p op rest s.dev ∧ op.act = .reset tgt ∧
      op.answers = none ∧ stakeCheck s.dev op.stake op.parcel = .none) ∧
    (∃ die hub p op rest, ∃ (s : State), ∃ f a run pc word mask, Fits (.stakeOpApply die hub (1#4 <<< p)) s ∧ Presents die hub p op rest s.dev ∧
      op.source = .agent a run pc word mask ∧ agentRun s.dev a = run ∧ There a s.dev ∧ stakeCheck s.dev op.stake op.parcel = f ∧ f ≠ .none) ∧
    (∃ die hub p op rest, ∃ (s : State), ∃ f code dx inc b, Fits (.stakeOpApply die hub (1#4 <<< p)) s ∧ Presents die hub p op rest s.dev ∧
      op.source = .unit code dx ∧ op.act = .arrive inc b ∧ stakeDie op.stake < s.dev.part.dies ∧ stakeCheck s.dev op.stake op.parcel = f ∧ f ≠ .none) :=
  ⟨⟨0, 0, 0, ⟨.arrive 0xFFFFFFFF true, 0, .unit 1 0, some 0⟩, [], tAnd (id) fun d => { d with stakes := [(0, { Stake.empty with enable := true })], hubs := [(0, { Hub.empty with q0 := [⟨.arrive 0xFFFFFFFF true, 0, .unit 1 0, some 0⟩] })] },
    0xFFFFFFFF, true, fits (by decide +kernel), by unfold Presents; decide +kernel, by and_intros <;> decide +kernel⟩,
   ⟨0, 0, 0, ⟨.claim 1 31, 0, .agent tSeq 0 0 0 1, some 0⟩, [], tAnd id fun d => { d with stakes := [(0, { Stake.empty with enable := true })], hubs := [(0, { Hub.empty with q0 := [⟨.claim 1 31, 0, .agent tSeq 0 0 0 1, some 0⟩] })] },
    1, 31, tSeq, 0, 0, 0, 1, fits (by decide +kernel), by unfold Presents; decide +kernel, by decide +kernel, by decide +kernel, by decide +kernel,
    (by intro _ _ h; cases h), by and_intros <;> decide +kernel⟩,
   ⟨0, 0, 3, ⟨.test 31, 0, .agent tSeq 0 0 0 1, some 0⟩, [], tAnd id fun d => { d with stakes := [(0, { Stake.empty with enable := true })], hubs := [(0, { Hub.empty with q3 := [⟨.test 31, 0, .agent tSeq 0 0 0 1, some 0⟩] })] },
    31, tSeq, 0, 0, 0, 1, fits (by decide +kernel), by unfold Presents; decide +kernel, by decide +kernel, by decide +kernel, by decide +kernel,
    (by intro _ _ h; cases h), by and_intros <;> decide +kernel⟩,
   ⟨0, 0, 0, ⟨.reset 7, 0, .agent tSeq 0 0 0 1, some 0⟩, [], tAnd (id) fun d => { d with stakes := [(0, { Stake.empty with enable := true })], hubs := [(0, { Hub.empty with q0 := [⟨.reset 7, 0, .agent tSeq 0 0 0 1, some 0⟩] })] },
    7, fits (by decide +kernel), by unfold Presents; decide +kernel, by and_intros <;> decide +kernel⟩,
   ⟨0, 0, 0, ⟨.reset 7, 0, .agent tSeq 0 0 0 1, some 0⟩, [], tAnd id fun d => { d with stakes := [(0, { Stake.empty with enable := false })], hubs := [(0, { Hub.empty with q0 := [⟨.reset 7, 0, .agent tSeq 0 0 0 1, some 0⟩] })] },
    .stakeDenied, tSeq, 0, 0, 0, 1, fits (by decide +kernel), by unfold Presents; decide +kernel, by decide +kernel, by decide +kernel,
    (by intro _ _ h; cases h), by and_intros <;> decide +kernel⟩,
   ⟨0, 0, 1, ⟨.arrive 1 false, 0, .unit 1 0, some 0⟩, [], tAnd id fun d => { d with hubs := [(0, { Hub.empty with q1 := [⟨.arrive 1 false, 0, .unit 1 0, some 0⟩] })] },
    .stakeDenied, 1, 0, 1, false, fits (by decide +kernel), by unfold Presents; decide +kernel, by and_intros <;> decide +kernel⟩⟩

theorem test_meets_ZeroIncrements :
    (∃ die hub p op rest, ∃ (s : State), Fits (.stakeOpApply die hub (1#4 <<< p)) s ∧ Presents die hub p op rest s.dev ∧ op.act = .arrive 0 false ∧
      op.answers = none ∧ stakeCheck s.dev op.stake op.parcel = .none) ∧
    (∃ die hub p op rest, ∃ (s : State), ∃ rd, Fits (.stakeOpApply die hub (1#4 <<< p)) s ∧ Presents die hub p op rest s.dev ∧ op.act = .claim 0 rd ∧
      op.answers = none ∧ stakeCheck s.dev op.stake op.parcel = .none) ∧
    (∃ die hub p op rest, ∃ (s : State), ∃ rd c run pc word mask, Fits (.stakeOpApply die hub (1#4 <<< p)) s ∧ Presents die hub p op rest s.dev ∧
      op.act = .claim 0 rd ∧ op.source = .agent (.seq c) run pc word mask ∧ agentRun s.dev (.seq c) = run ∧
      stakeCheck s.dev op.stake op.parcel = .none) ∧
    (∃ a o, ∃ (s : State), ∃ id, Fits (.stkArrive a o) s ∧ CanIssue a (.stkArrive a o) (stkRegs o false) s.dev ∧ o.imm = 0 ∧ stkName s.dev a o = some id ∧
      stakeDie id < s.dev.part.dies) :=
  ⟨⟨0, 0, 1, ⟨.arrive 0 false, 0, .unit 1 0, some 0⟩, [], tAnd (id) fun d => { d with stakes := [(0, { Stake.empty with enable := true })], hubs := [(0, { Hub.empty with q1 := [⟨.arrive 0 false, 0, .unit 1 0, some 0⟩] })] },
    fits (by decide +kernel), by unfold Presents; decide +kernel, by and_intros <;> decide +kernel⟩,
   ⟨0, 0, 1, ⟨.claim 0 31, 0, .agent tSeq 0 0 0 1, some 0⟩, [], tAnd (id) fun d => { d with stakes := [(0, { Stake.empty with enable := true })], hubs := [(0, { Hub.empty with q1 := [⟨.claim 0 31, 0, .agent tSeq 0 0 0 1, some 0⟩] })] },
    31, fits (by decide +kernel), by unfold Presents; decide +kernel, by and_intros <;> decide +kernel⟩,
   ⟨0, 0, 1, ⟨.claim 0 31, 0, .agent tSeq 0 0 0 1, some 0⟩, [], tAnd (id) fun d => { d with stakes := [(0, { Stake.empty with enable := true })], hubs := [(0, { Hub.empty with q1 := [⟨.claim 0 31, 0, .agent tSeq 0 0 0 1, some 0⟩] })] },
    31, tc, 0, 0, 0, 1, fits (by decide +kernel), by unfold Presents; decide +kernel, by and_intros <;> decide +kernel⟩,
   ⟨tSeq, ⟨0, 0, 0, 0, 0, 0x1FFFF⟩, t0, 0x1FFFF, fits (by decide +kernel), issues (by decide +kernel), by and_intros <;> decide +kernel⟩⟩

theorem test_meets_ResetsComeFirst :
    ∃ die hub p q x y rp rq, ∃ (s : State), ∃ tgt inc, Fits (.stakeOpApply die hub (1#4 <<< p ||| 1#4 <<< q)) s ∧ p ≠ q ∧ Presents die hub p x rp s.dev ∧
      Presents die hub q y rq s.dev ∧ x.act = .arrive inc false ∧ y.act = .reset tgt ∧ x.answers = none ∧ y.answers = none ∧ x.stake = y.stake ∧
      stakeCheck s.dev x.stake x.parcel = .none ∧ stakeCheck s.dev y.stake y.parcel = .none ∧ 0 < inc ∧ inc < tgt.toNat :=
  ⟨0, 0, 3, 0, ⟨.arrive 6 false, 0, .unit 1 0, some 0⟩, ⟨.reset 7, 0, .unit 1 0, some 0⟩, [], [], tAnd id fun d => { d with stakes := [(0, { Stake.empty with enable := true })], hubs := [(0, { Hub.empty with q0 := [⟨.reset 7, 0, .unit 1 0, some 0⟩], q3 := [⟨.arrive 6 false, 0, .unit 1 0, some 0⟩] })] },
    7, 6, fits (by decide +kernel), by decide +kernel, by unfold Presents; decide +kernel, by unfold Presents; decide +kernel, by and_intros <;> decide +kernel⟩

theorem test_meets_StakeWaits :
    (∃ die hub p op rest, ∃ (s : State), ∃ a serial, Fits (.stakeOpApply die hub (1#4 <<< p)) s ∧ Presents die hub p op rest s.dev ∧
      op.act = .wait (.agent a) serial ∧ op.answers = none ∧ waitLive s.dev (.agent a) serial = true ∧ stakeCheck s.dev op.stake op.parcel = .none ∧
      (getStake s.dev op.stake).complete = true ∧ (getStake s.dev op.stake).autoReset = false) ∧
    (∃ die hub p op rest, ∃ (s : State), ∃ a serial, Fits (.stakeOpApply die hub (1#4 <<< p)) s ∧ Presents die hub p op rest s.dev ∧
      op.act = .wait (.agent a) serial ∧ op.answers = none ∧ waitLive s.dev (.agent a) serial = true ∧ stakeCheck s.dev op.stake op.parcel = .none ∧
      ((getStake s.dev op.stake).complete = false ∨ (getStake s.dev op.stake).autoReset = true)) ∧
    (∃ a, ∃ (s : State), ∃ w t0, Fits (.stkWaitTimeout a) s ∧ agentWait s.dev a = some w ∧ w.deadline = some t0 ∧ t0 ≤ s.dev.tick) ∧
    (∃ a, ∃ (s : State), ∃ id x, Fits (.stakePoll (.agent a)) s ∧ pollingOn s.dev (.agent a) = some (id, x) ∧ x.w = .agent a ∧
      (getStake s.dev id).enable = true ∧ (getStake s.dev id).complete = true ∧ waitLive s.dev (.agent a) x.serial = true) ∧
    (∃ w, ∃ (s : State), ∃ id x, Fits (.stakePoll w) s ∧ pollingOn s.dev w = some (id, x) ∧ (getStake s.dev id).enable = true ∧
      (getStake s.dev id).complete = false) :=
  ⟨⟨0, 0, 0, ⟨.wait (.agent tSeq) 1, 0, .agent tSeq 0 0 0 1, some 0⟩, [], tAnd (fun w => { w with seq := { w.seq with wait := some ⟨0, some 0, 5, 1⟩ } }) fun d => { d with stakes := [(0, { Stake.empty with enable := true })], hubs := [(0, { Hub.empty with q0 := [⟨.wait (.agent tSeq) 1, 0, .agent tSeq 0 0 0 1, some 0⟩] })] },
    tSeq, 1, fits (by decide +kernel), by unfold Presents; decide +kernel, by and_intros <;> decide +kernel⟩,
   ⟨0, 0, 0, ⟨.wait (.agent tSeq) 1, 0, .agent tSeq 0 0 0 1, some 0⟩, [], tAnd (fun w => { w with seq := { w.seq with wait := some ⟨0, some 0, 5, 1⟩ } }) fun d => { d with stakes := [(0, { Stake.empty with enable := true, target := 1 })], hubs := [(0, { Hub.empty with q0 := [⟨.wait (.agent tSeq) 1, 0, .agent tSeq 0 0 0 1, some 0⟩] })] },
    tSeq, 1, fits (by decide +kernel), by unfold Presents; decide +kernel, by and_intros <;> decide +kernel⟩,
   ⟨tSeq, tOn fun w => { w with seq := { w.seq with wait := some ⟨0, some 0, 5, 1⟩ } }, ⟨0, some 0, 5, 1⟩, 0, fits (by decide +kernel), by and_intros <;> decide +kernel⟩,
   ⟨tSeq, tAnd (fun w => { w with seq := { w.seq with wait := some ⟨0, some 0, 5, 1⟩ } }) fun d => { d with stakes := [(0, { Stake.empty with enable := true, target := 0, waiters := [⟨.agent tSeq, true, true, 1⟩] })] },
    0, ⟨.agent tSeq, true, true, 1⟩, fits (by decide +kernel), by and_intros <;> decide +kernel⟩,
   ⟨.agent tSeq, tAnd (fun w => { w with seq := { w.seq with wait := some ⟨0, some 0, 5, 1⟩ } }) fun d => { d with stakes := [(0, { Stake.empty with enable := true, target := 1, waiters := [⟨.agent tSeq, true, true, 1⟩] })] },
    0, ⟨.agent tSeq, true, true, 1⟩, fits (by decide +kernel), by and_intros <;> decide +kernel⟩⟩

theorem test_meets_StakeRegisterWrites :
    (∃ id v, ∃ (s : State), ∃ d, Fits (.stkTargetWrite id v) s ∧ stakeDie id < s.dev.part.dies ∧ d = atHub s.dev id) ∧
    (∃ id v, ∃ (s : State), ∃ d, Fits (.stkCtlReset id v) s ∧ stakeDie id < s.dev.part.dies ∧ v.getLsbD 2 = true ∧ d = atHub s.dev id) ∧
    (∃ id v, ∃ (s : State), ∃ d, Fits (.stkCtlEnableClear id v) s ∧ stakeDie id < s.dev.part.dies ∧ (getStake s.dev id).enable = true ∧
      v.getLsbD 0 = false ∧ d = atHub s.dev id ∧ (getStake d id).enable = true) :=
  ⟨⟨0x1FFFF, 0xFFFFFFFF, t0, _, fits (by decide +kernel), by and_intros <;> first | decide +kernel | rfl⟩,
   ⟨0x1FFFF, 4, t0, _, fits (by decide +kernel), by and_intros <;> first | decide +kernel | rfl⟩,
   ⟨0, 0, tAnd id fun d => { d with stakes := [(0, { Stake.empty with enable := true })] }, _, fits (by decide +kernel), by and_intros <;> first | decide +kernel | rfl⟩⟩

theorem test_meets_OperationsQueued :
    (∃ c o s op, ∀ i ∈ [Instr.cubeMma, .cubeConv, .cubeAttn, .cubePool, .cubeRsmp], Fits (i c o) s ∧ CanIssue (.seq c) (i c o) (dRegs o false) s.dev ∧
      StakeGood s.dev (op : Op).stake op.parcel ∧ op.stake = o.stake ∧ op.parcel = parcelOf s.dev c) ∧
    (∃ c o s op, ∀ i ∈ [Instr.cubeAclr], Fits (i c o) s ∧ CanIssue (.seq c) (i c o) (dRegs o false) s.dev ∧ StakeGood s.dev (op : Op).stake op.parcel ∧
      op.stake = o.stake ∧ op.parcel = parcelOf s.dev c) ∧
    (∃ c o s op, ∀ i ∈ [Instr.chnArm, .qntPack, .qntUnpack, .qntSload, .sfnTload], Fits (i c o) s ∧ CanIssue (.seq c) (i c o) (dRegs o false) s.dev ∧
      StakeGood s.dev (op : Op).stake op.parcel ∧ op.stake = o.stake ∧ op.parcel = parcelOf s.dev c) ∧
    (∃ c o s op, ∀ i ∈ [Instr.chnMedia], Fits (i c o) s ∧ CanIssue (.seq c) (i c o) (dRegs o true) s.dev ∧ StakeGood s.dev (op : Op).stake op.parcel ∧
      op.stake = o.stake ∧ op.parcel = parcelOf s.dev c) ∧
    (∃ c o, ∃ (s : State), ∃ op q, Fits (.chnStrm c o) s ∧ CanIssue (.seq c) (.chnStrm c o) (dRegs o true) s.dev ∧ op = dOp s.dev c o 0x11 1 true ∧
      StakeGood s.dev op.stake op.parcel ∧ (getCore s.dev c).w.chain.length < 16 ∧ streamSlot s.dev c op.handle = .ok q ∧
      (getStream s.dev c q).state = 0) ∧
    (∃ c o, ∃ (s : State), ∃ op q, Fits (.chnStrm c o) s ∧ CanIssue (.seq c) (.chnStrm c o) (dRegs o true) s.dev ∧ op = dOp s.dev c o 0x11 1 true ∧
      StakeGood s.dev op.stake op.parcel ∧ (getCore s.dev c).w.chain.length < 16 ∧ streamSlot s.dev c op.handle = .ok q ∧
      (getStream s.dev c q).state ≠ 0) ∧
    (∃ c o, ∃ (s : State), ∃ op q, Fits (.chnRearm c o) s ∧ CanIssue (.seq c) (.chnRearm c o) (dRegs o true) s.dev ∧ op = dOp s.dev c o 0x12 2 true ∧
      StakeGood s.dev op.stake op.parcel ∧ (getCore s.dev c).w.chain.length < 16 ∧ streamSlot s.dev c op.handle = .ok q ∧
      (getStream s.dev c q).state ≠ 0) ∧
    (∃ c o, ∃ (s : State), ∃ op q, Fits (.chnRearm c o) s ∧ CanIssue (.seq c) (.chnRearm c o) (dRegs o true) s.dev ∧ op = dOp s.dev c o 0x12 2 true ∧
      StakeGood s.dev op.stake op.parcel ∧ (getCore s.dev c).w.chain.length < 16 ∧ streamSlot s.dev c op.handle = .ok q ∧
      (getStream s.dev c q).state = 0) ∧
    (∃ c o, ∃ (s : State), ∃ op q, Fits (.chnStop c o) s ∧ CanIssue (.seq c) (.chnStop c o) (dRegs o true) s.dev ∧ op = dOp s.dev c o 0 3 true ∧
      StakeGood s.dev op.stake op.parcel ∧ (getCore s.dev c).w.chain.length < 16 ∧ streamSlot s.dev c op.handle = .ok q ∧
      (getStream s.dev c q).state ≠ 2) ∧
    (∃ (x : (CoreId → DOp → Instr) × Nat × Nat), x ∈ [(Instr.chnStrm, 0x11, 1), (.chnRearm, 0x12, 2), (.chnStop, 0, 3)] ∧ ∃ c o, ∃ (s : State), ∃ op f,
      Fits (x.1 c o) s ∧ CanIssue (.seq c) (x.1 c o) (dRegs o true) s.dev ∧ op = dOp s.dev c o x.2.1 x.2.2 true ∧
      StakeGood s.dev op.stake op.parcel ∧ (getCore s.dev c).w.chain.length < 16 ∧ streamSlot s.dev c op.handle = .error f ∧ f ≠ .none ∧
      f ≠ .alreadyClaimed) ∧
    (∃ (x : (CoreId → DOp → Instr) × Nat × Nat), x ∈ [(Instr.colRun, 0x20, 0), (.colPut, 0x21, 1)] ∧ ∃ c o, ∃ (s : State), ∃ op, Fits (x.1 c o) s ∧
      CanIssue (.seq c) (x.1 c o) (dRegs o true) s.dev ∧ op = dOp s.dev c o x.2.1 x.2.2 true ∧ StakeGood s.dev op.stake op.parcel ∧
      (linksQueued s.dev c.die).length < 64) :=
  ⟨⟨tc, ⟨3, 15, 0, 0, 0, 0⟩, tAnd id fun d => { d with stakes := [(0, { Stake.empty with enable := true })] }, ⟨1, 1, 0, 0, 0, 0, 0, []⟩,
    by unfold Fits CanIssue StakeGood; decide +kernel⟩,
   ⟨tc, ⟨3, 0, 0, 0, 0, 0⟩, tAnd id fun d => { d with stakes := [(0, { Stake.empty with enable := true })] }, ⟨1, 0, 8, 0, 0, 0, 0, []⟩,
    by unfold Fits CanIssue StakeGood; decide +kernel⟩,
   ⟨tc, ⟨0, 15, 0, 0, 0, 0⟩, tAnd id fun d => { d with stakes := [(0, { Stake.empty with enable := true })] }, ⟨1, 0x10, 0, 0, 0, 0, 0, []⟩,
    by unfold Fits CanIssue StakeGood; decide +kernel⟩,
   ⟨tc, ⟨0, 15, 0, 0, 31, 0⟩, tAnd id fun d => { d with stakes := [(0, { Stake.empty with enable := true })] }, ⟨1, 0x13, 4, 0, 0, 0, 0, []⟩,
    by unfold Fits CanIssue StakeGood; decide +kernel⟩,
   ⟨tc, ⟨0, 15, 0, 0, 31, 0⟩, tAnd (fun w => { w with seq := { w.seq with s := [(31, 0x01020000)] }, streams := [(0, { Stream.empty with state := 0 })] }) fun d => { d with stakes := [(0, { Stake.empty with enable := true })], objs := [(2 * 2 ^ 16, ⟨1, true⟩)] },
    _, 0, fits (by decide +kernel), issues (by decide +kernel), rfl, by unfold StakeGood; decide +kernel, by and_intros <;> decide +kernel⟩,
   ⟨tc, ⟨0, 15, 0, 0, 31, 0⟩, tAnd (fun w => { w with seq := { w.seq with s := [(31, 0x01020000)] }, streams := [(0, { Stream.empty with state := 1 })] }) fun d => { d with stakes := [(0, { Stake.empty with enable := true })], objs := [(2 * 2 ^ 16, ⟨1, true⟩)] },
    _, 0, fits (by decide +kernel), issues (by decide +kernel), rfl, by unfold StakeGood; decide +kernel, by and_intros <;> decide +kernel⟩,
   ⟨tc, ⟨0, 15, 0, 0, 31, 0⟩, tAnd (fun w => { w with seq := { w.seq with s := [(31, 0x01020000)] }, streams := [(0, { Stream.empty with state := 1 })] }) fun d => { d with stakes := [(0, { Stake.empty with enable := true })], objs := [(2 * 2 ^ 16, ⟨1, true⟩)] },
    _, 0, fits (by decide +kernel), issues (by decide +kernel), rfl, by unfold StakeGood; decide +kernel, by and_intros <;> decide +kernel⟩,
   ⟨tc, ⟨0, 15, 0, 0, 31, 0⟩, tAnd (fun w => { w with seq := { w.seq with s := [(31, 0x01020000)] }, streams := [(0, { Stream.empty with state := 0 })] }) fun d => { d with stakes := [(0, { Stake.empty with enable := true })], objs := [(2 * 2 ^ 16, ⟨1, true⟩)] },
    _, 0, fits (by decide +kernel), issues (by decide +kernel), rfl, by unfold StakeGood; decide +kernel, by and_intros <;> decide +kernel⟩,
   ⟨tc, ⟨0, 0, 0, 0, 31, 0⟩, tAnd (fun w => { w with seq := { w.seq with s := [(31, 0x01020000)] }, streams := [(0, { Stream.empty with state := 1 })] }) fun d => { d with stakes := [(0, { Stake.empty with enable := true })], objs := [(2 * 2 ^ 16, ⟨1, true⟩)] },
    _, 0, fits (by decide +kernel), issues (by decide +kernel), rfl, by unfold StakeGood; decide +kernel, by and_intros <;> decide +kernel⟩,
   ⟨(.chnStrm, 0x11, 1), List.mem_cons_self, tc, ⟨0, 15, 0, 0, 31, 0⟩, tAnd id fun d => { d with stakes := [(0, { Stake.empty with enable := true })] },
    _, .badHandle, fits (by decide +kernel), issues (by decide +kernel), rfl, by unfold StakeGood; decide +kernel, by and_intros <;> decide +kernel⟩,
   ⟨(.colRun, 0x20, 0), List.mem_cons_self, tc, ⟨0, 15, 0, 0, 31, 0⟩, tAnd id fun d => { d with stakes := [(0, { Stake.empty with enable := true })] },
    _, fits (by decide +kernel), issues (by decide +kernel), rfl, by unfold StakeGood; decide +kernel, by decide +kernel⟩⟩

theorem test_meets_CompletionStakesChecked :
    ((∃ c o s, ∀ i ∈ [Instr.cubeMma, .cubeConv, .cubeAttn, .cubePool, .cubeRsmp, .chnArm, .qntPack, .qntUnpack, .qntSload, .sfnTload], Fits (i c o) s ∧
      CanIssue (.seq c) (i c o) (dRegs o false) s.dev ∧ s.dev.part.dies ≤ stakeDie o.stake) ∧ ∃ c o s, ∀ i ∈ [Instr.cubeMma, .cubeConv, .cubeAttn,
      .cubePool, .cubeRsmp, .chnArm, .qntPack, .qntUnpack, .qntSload, .sfnTload], Fits (i c o) s ∧ CanIssue (.seq c) (i c o) (dRegs o false) s.dev ∧
      stakeDie o.stake < s.dev.part.dies ∧ ¬StakeGood s.dev o.stake (parcelOf s.dev c)) ∧
    ((∃ c o s, ∀ i ∈ [Instr.chnStrm, .chnRearm, .chnMedia, .colRun, .colPut], Fits (i c o) s ∧ CanIssue (.seq c) (i c o) (dRegs o true) s.dev ∧
      s.dev.part.dies ≤ stakeDie o.stake) ∧ ∃ c o s, ∀ i ∈ [Instr.chnStrm, .chnRearm, .chnMedia, .colRun, .colPut], Fits (i c o) s ∧
      CanIssue (.seq c) (i c o) (dRegs o true) s.dev ∧ stakeDie o.stake < s.dev.part.dies ∧ ¬StakeGood s.dev o.stake (parcelOf s.dev c)) :=
  ⟨⟨⟨tc, ⟨0, 15, 0, 0, 0, 0x10000⟩, tAnd id fun d => { d with part := ⟨4, true⟩ }, by unfold Fits CanIssue; decide +kernel⟩, ⟨tc, ⟨0, 15, 0, 0, 0, 0⟩,
    t0, by unfold Fits CanIssue StakeGood; decide +kernel⟩⟩,
   ⟨⟨tc, ⟨0, 15, 0, 0, 31, 0x10000⟩, tAnd id fun d => { d with part := ⟨4, true⟩ }, by unfold Fits CanIssue; decide +kernel⟩, ⟨tc, ⟨0, 15, 0, 0, 31, 0⟩,
    t0, by unfold Fits CanIssue StakeGood; decide +kernel⟩⟩⟩

theorem test_meets_UnitsTakeWork :
    (∃ c u, ∃ (s : State), ∃ op rest, Fits (.unitDescriptorStart (.cube c u)) s ∧ unitsRun s.dev c = true ∧ (getCube s.dev c u).queue = op :: rest ∧
      (getCube s.dev c u).head = none ∧ (getCube s.dev c u).run = none ∧ (op.kind = 0 → (getCube s.dev c u).released = true)) ∧
    (∃ c u, ∃ (s : State), ∃ op rest, Fits (.unitDescriptorStart (.cube c u)) s ∧ unitsRun s.dev c = true ∧ (getCube s.dev c u).queue = op :: rest ∧
      (getCube s.dev c u).head = none ∧ (getCube s.dev c u).run = none ∧ (getCube s.dev c u).post = [] ∧ op.kind = 0) ∧
    (∃ c u, ∃ (s : State), ∃ op rest, Fits (.unitDescriptorStart (.cube c u)) s ∧ unitsRun s.dev c = true ∧ (getCube s.dev c u).queue = op :: rest ∧
      (getCube s.dev c u).head = none ∧ (getCube s.dev c u).run = none ∧ ∃ f, (getCube s.dev c u).post = [] ∧ op.kind ≠ 0 ∧
      order1 s.dev c op = .error f ∧ f ≠ .none ∧ f ≠ .alreadyClaimed) ∧
    (∃ c u, ∃ (s : State), ∃ op rest, Fits (.unitDescriptorStart (.cube c u)) s ∧ unitsRun s.dev c = true ∧ (getCube s.dev c u).queue = op :: rest ∧
      (getCube s.dev c u).head = none ∧ (getCube s.dev c u).run = none ∧ ∃ x id, op.kind ≠ 0 ∧ order1 s.dev c op = .ok x ∧
      order2 s.dev c (readHooks s.dev c (RunOp.new x)) = .none ∧ (readHooks s.dev c (RunOp.new x)).wait = some id) ∧
    (∃ c, ∃ (s : State), ∃ op rest, Fits (.unitDescriptorStart (.tload c)) s ∧ unitsRun s.dev c = true ∧ (getCore s.dev c).w.tloads = op :: rest ∧
      (getCore s.dev c).w.tphase = 0) ∧
    (∃ c, ∃ (s : State), ∃ op rest, Fits (.unitDescriptorStart (.tload c)) s ∧ unitsRun s.dev c = true ∧ (getCore s.dev c).w.tloads = op :: rest ∧
      (getCore s.dev c).w.tphase = 0 ∧ ∃ f, order1 s.dev c op = .error f ∧ f ≠ .none ∧ f ≠ .alreadyClaimed) ∧
    (∃ c, ∃ (s : State), ∃ op rest, Fits (.unitDescriptorStart (.tload c)) s ∧ unitsRun s.dev c = true ∧ (getCore s.dev c).w.tloads = op :: rest ∧
      (getCore s.dev c).w.tphase = 0 ∧ ∃ x, order1 s.dev c op = .ok x ∧ wfld x.desc 1 51 0 % 64 = 0 ∧
      inOwn c (BitVec.ofNat 52 (wfld x.desc 1 51 0)) 20240 = true ∧ wfld x.desc 2 31 0 = 20240) ∧
    (∃ c, ∃ (s : State), ∃ op rest, Fits (.unitDescriptorStart (.sload c)) s ∧ unitsRun s.dev c = true ∧ (getCore s.dev c).w.sloads = op :: rest ∧
      (getCore s.dev c).w.sphase = 0) ∧
    (∃ c, ∃ (s : State), ∃ op rest, Fits (.unitDescriptorStart (.sload c)) s ∧ unitsRun s.dev c = true ∧ (getCore s.dev c).w.sloads = op :: rest ∧
      (getCore s.dev c).w.sphase = 0 ∧ ∃ f, order1 s.dev c op = .error f ∧ f ≠ .none ∧ f ≠ .alreadyClaimed) ∧
    (∃ c u, ∃ (s : State), ∃ o f e, Fits (.operandWaitEnd (.cube c u)) s ∧ unitsRun s.dev c = true ∧ (getCube s.dev c u).head = some o ∧
      o.phase = .operand ∧ (getCube s.dev c u).run = none ∧ (getCube s.dev c u).post = [] ∧ takeWake s.dev (.unit (.cube c u) o.op.serial) = some (f,
      e) ∧ f ≠ 0) ∧
    (∃ c u, ∃ (s : State), ∃ o x e y, Fits (.operandWaitEnd (.cube c u)) s ∧ unitsRun s.dev c = true ∧ (getCube s.dev c u).head = some o ∧
      o.phase = .operand ∧ (getCube s.dev c u).run = some y ∧ takeWake s.dev (.unit (.cube c u) o.op.serial) = some (0, e) ∧ o.rtSrc = false ∧
      x = { o with e0 := o.plan.1, e1 := o.plan.2.1, e2 := o.plan.2.2, tile := 0 } ∧ x.guarded = false ∧ x.claim.1 = 0) ∧
    (∃ c, ∃ (s : State), ∃ o rest x e, Fits (.operandWaitEnd (.quant c)) s ∧ unitsRun s.dev c = true ∧ (getCore s.dev c).w.quant = o :: rest ∧
      o.op.desc ≠ [] ∧ o.phase = .operand ∧ takeWake s.dev (.unit (.quant c) o.op.serial) = some (0, e) ∧ o.rtSrc = false ∧
      x = { o with e0 := o.plan.1, e1 := o.plan.2.1, e2 := o.plan.2.2, tile := 0 } ∧ x.guarded = false ∧ x.claim.1 = 0 ∧ x.zero = false) ∧
    (∃ c, ∃ (s : State), ∃ o rest f e, Fits (.operandWaitEnd (.quant c)) s ∧ unitsRun s.dev c = true ∧ (getCore s.dev c).w.quant = o :: rest ∧
      o.op.desc ≠ [] ∧ o.phase = .operand ∧ takeWake s.dev (.unit (.quant c) o.op.serial) = some (f, e) ∧ f ≠ 0) :=
  ⟨⟨tc, 3, tOn fun w => { w with cubes := [(3, { Cube.empty with queue := [tOp] })] }, tOp, [], fits (by decide +kernel), by and_intros <;> decide +kernel⟩,
   ⟨tc, 0, tCube { Cube.empty with queue := [⟨1, 0, 8, 0, 0, 0, 0, []⟩] }, ⟨1, 0, 8, 0, 0, 0, 0, []⟩, [], fits (by decide +kernel), by and_intros <;> decide +kernel⟩,
   ⟨tc, 0, tCube { Cube.empty with queue := [tOp] }, tOp, [], fits (by decide +kernel), by decide +kernel, by decide +kernel, by decide +kernel,
    by decide +kernel, .spaceDenied, by and_intros <;> first | decide +kernel | rfl⟩,
   ⟨tc, 0, tAnd (fun w => { w with cubes := [(0, { Cube.empty with queue := [⟨1, 1, 0, storeAddr tc 0, 0, 0, 0, []⟩] })] }) fun d => tStore [0x20101,
    0x8100000001000, 0x8100000001000, 0x8100000001000, 0, 0, 0, 0, 0x111, 0x1001001] { d with stakes := [(0, { Stake.empty with enable := true })] },
    ⟨1, 1, 0, storeAddr tc 0, 0, 0, 0, []⟩, [], fits (by decide +kernel), by decide +kernel, by decide +kernel, by decide +kernel, by decide +kernel,
    { (⟨1, 1, 0, storeAddr tc 0, 0, 0, 0, []⟩ : Op) with desc := storeWords (tAnd id (tStore [0x20101, 0x8100000001000, 0x8100000001000, 0x8100000001000, 0, 0, 0, 0, 0x111, 0x1001001])).dev tc 0 16 },
    0, by and_intros <;> decide +kernel⟩,
   ⟨tc, tOn fun w => { w with tloads := [⟨1, 0x38, 0, storeAddr tc 0, 0, 0, 0, []⟩] }, ⟨1, 0x38, 0, storeAddr tc 0, 0, 0, 0, []⟩, [],
    fits (by decide +kernel), by and_intros <;> decide +kernel⟩,
   ⟨tc, tOn fun w => { w with tloads := [⟨1, 0x38, 0, storeAddr tc 0, 0, 0, 0, []⟩] }, ⟨1, 0x38, 0, storeAddr tc 0, 0, 0, 0, []⟩, [],
    fits (by decide +kernel), by decide +kernel, by decide +kernel, by decide +kernel, .badDescriptor, by and_intros <;> decide +kernel⟩,
   ⟨tc, tAnd (fun w => { w with tloads := [⟨1, 0x38, 0, storeAddr tc 0, 0, 0, 0, []⟩] }) fun d => tStore [0x138, 0x8100000001000, 20240] d, ⟨1, 0x38, 0,
    storeAddr tc 0, 0, 0, 0, []⟩, [], fits (by decide +kernel), by decide +kernel, by decide +kernel, by decide +kernel, { (⟨1, 0x38, 0, storeAddr tc 0, 0, 0, 0, []⟩ : Op) with desc := storeWords (tAnd id (tStore [0x138, 0x8100000001000, 20240])).dev tc 0 16 }, by and_intros <;> decide +kernel⟩,
   ⟨tc, tOn fun w => { w with sloads := [⟨1, 0x38, 0, storeAddr tc 0, 0, 0, 0, []⟩] }, ⟨1, 0x38, 0, storeAddr tc 0, 0, 0, 0, []⟩, [],
    fits (by decide +kernel), by and_intros <;> decide +kernel⟩,
   ⟨tc, tOn fun w => { w with sloads := [⟨1, 0x38, 0, storeAddr tc 0, 0, 0, 0, []⟩] }, ⟨1, 0x38, 0, storeAddr tc 0, 0, 0, 0, []⟩, [],
    fits (by decide +kernel), by decide +kernel, by decide +kernel, by decide +kernel, .badDescriptor, by and_intros <;> decide +kernel⟩,
   ⟨tc, 0, tCubeWoken { Cube.empty with head := some (tRun id) } 1, tRun id, 1, _, fits (by decide +kernel), by and_intros <;> first | decide +kernel | rfl⟩,
   ⟨tc, 0, tCubeWoken { Cube.empty with head := some (tRun id), run := some (tRun id) } 0, tRun id, _, _, tRun id, fits (by decide +kernel), by and_intros <;> first | decide +kernel | rfl⟩,
   ⟨tc, tAnd (fun w => { w with quant := [RunOp.new ⟨1, 0x30, 1, 0, 0, 0, 0, [0, 0, 0, 0, 0, 0, 0, 0x0001000000001]⟩] }) fun d => { d with wakes := [⟨.unit (.quant tc) 1, 0⟩] },
    RunOp.new ⟨1, 0x30, 1, 0, 0, 0, 0, [0, 0, 0, 0, 0, 0, 0, 0x0001000000001]⟩, [], _, _, fits (by decide +kernel), by and_intros <;> first | decide +kernel | rfl⟩,
   ⟨tc, tAnd (fun w => { w with quant := [RunOp.new ⟨1, 0x30, 1, 0, 0, 0, 0, [0, 0, 0, 0, 0, 0, 0, 0x0001000000001]⟩] }) fun d => { d with wakes := [⟨.unit (.quant tc) 1, 1⟩] },
    RunOp.new ⟨1, 0x30, 1, 0, 0, 0, 0, [0, 0, 0, 0, 0, 0, 0, 0x0001000000001]⟩, [], 1, _, fits (by decide +kernel), by and_intros <;> first | decide +kernel | rfl⟩⟩

theorem test_meets_CubeStepsAndReplays :
    (∃ c u x, ∃ (s : State), ∃ o d q k v, Fits (.cubeStep c u x) s ∧ (getCube s.dev c u).run = some o ∧ cubeGo s.dev c o = true ∧ o.phase = .steps ∧
      o.op.kind = 1 ∧ o.relayIn = false ∧ o.gather = false ∧ d = rampGo s.dev c u ∧ q = o.coord o.step ∧ k = getCube d c u ∧
      ((((o.freshRows k q).map (o.aRow d c q)).any fun r => r.any (locPoisoned d c (fmtBits o.fmts.a))) = false) ∧
      (((o.bBlock c q).any fun r => r.any (locPoisoned d c (fmtBits o.fmts.b))) = false) ∧
      (v = computeStep o.cls o.fmts.a o.fmts.b o.fmts.ftzIn (x.sums ++ (takeInject d c u o).1) (o.aRows d c k q) ((o.bBlock c q).map fun l => l.map (locEl d c (fmtBits o.fmts.b)))) ∧
      v.verdict.rows = 0 ∧ v.verdict.cols = 0 ∧ x.ue = none ∧ (∀ e ∈ (getCube s.dev c u).errs ++ x.weak,
      e.2 = true → e.1 / 32 ≠ o.bankOf q.row q.nb) ∧ x.adds = [] ∧ o.step + 1 < o.stepCount) ∧
    (∃ c u x, ∃ (s : State), ∃ o d q k v, Fits (.cubeStep c u x) s ∧ (getCube s.dev c u).run = some o ∧ cubeGo s.dev c o = true ∧ o.phase = .steps ∧
      o.op.kind = 1 ∧ o.relayIn = false ∧ o.gather = false ∧ d = rampGo s.dev c u ∧ q = o.coord o.step ∧ k = getCube d c u ∧
      ((((o.freshRows k q).map (o.aRow d c q)).any fun r => r.any (locPoisoned d c (fmtBits o.fmts.a))) = false) ∧
      (((o.bBlock c q).any fun r => r.any (locPoisoned d c (fmtBits o.fmts.b))) = false) ∧
      (v = computeStep o.cls o.fmts.a o.fmts.b o.fmts.ftzIn (x.sums ++ (takeInject d c u o).1) (o.aRows d c k q) ((o.bBlock c q).map fun l => l.map (locEl d c (fmtBits o.fmts.b)))) ∧
      (v.verdict.rows ≠ 0 ∨ v.verdict.cols ≠ 0) ∧ o.replayed = false ∧ rfld s.dev .cubeFence c.die c.core 0 15 8 = 0) ∧
    (∃ c u x, ∃ (s : State), ∃ o d q k v, Fits (.cubeStep c u x) s ∧ (getCube s.dev c u).run = some o ∧ cubeGo s.dev c o = true ∧ o.phase = .steps ∧
      o.op.kind = 1 ∧ o.relayIn = false ∧ o.gather = false ∧ d = rampGo s.dev c u ∧ q = o.coord o.step ∧ k = getCube d c u ∧
      ((((o.freshRows k q).map (o.aRow d c q)).any fun r => r.any (locPoisoned d c (fmtBits o.fmts.a))) = false) ∧
      (((o.bBlock c q).any fun r => r.any (locPoisoned d c (fmtBits o.fmts.b))) = false) ∧
      (v = computeStep o.cls o.fmts.a o.fmts.b o.fmts.ftzIn (x.sums ++ (takeInject d c u o).1) (o.aRows d c k q) ((o.bBlock c q).map fun l => l.map (locEl d c (fmtBits o.fmts.b)))) ∧
      (v.verdict.rows ≠ 0 ∨ v.verdict.cols ≠ 0) ∧ o.replayed = true) ∧
    (∃ c u x, ∃ (s : State), ∃ o, Fits (.cubeDrain c u x) s ∧ (getCube s.dev c u).run = some o ∧ cubeGo s.dev c o = true ∧ o.phase = .drain ∧
      o.op.kind = 1 ∧ o.ksplit = none ∧ hookEn o.epiWord = false ∧ x.ue = none ∧ (∀ e ∈ (getCube s.dev c u).errs ++ x.weak,
      e.2 = true → e.1 / 32 ∉ o.outBanks) ∧ (getCube s.dev c u).head = none ∧ (getCube s.dev c u).post = []) ∧
    (∃ (a : List (List FV)), ∃ (b : List (List FV)), ∃ (t : List (List FV)), ∃ n i, a.length = 8 ∧ b.length = 8 ∧ t.length = 8 ∧ i < 8 ∧ (∀ r ∈ a ++ b,
      r.length = n ∧ r.all FV.finite = true) ∧ (∀ r ∈ t, r.length = 8 ∧ r.all FV.finite = true)) ∧
    (∃ (a : List (List Int)), ∃ (b : List (List Int)), ∃ (t : List (List W32)), ∃ n i, a.length = 8 ∧ b.length = 8 ∧ t.length = 8 ∧ i < 8 ∧ (∀ r ∈ a ++ b,
      r.length = n) ∧ (∀ r ∈ t, r.length = 8)) :=
  ⟨⟨tc, 0, ⟨[], [], none, 0, 0, []⟩, tCube { Cube.empty with run := some (tRun fun o => { o with op := tCubeOp 0x11001001, phase := .steps, e0 := 1, e1 := 1, e2 := 17 }) },
    (tRun fun o => { o with op := tCubeOp 0x11001001, phase := .steps, e0 := 1, e1 := 1, e2 := 17 }), _, _, _, _, fits (by decide +kernel),
    by decide +kernel, by decide +kernel, by decide +kernel, by decide +kernel, by decide +kernel, (by decide +kernel), rfl, rfl, rfl,
    by decide +kernel, by decide +kernel, rfl, by decide +kernel, by decide +kernel, by decide +kernel, (by intro e h; cases h), by and_intros <;> decide +kernel⟩,
   ⟨tc, 0, ⟨[(0, 0, 1)], [], none, 0, 0, []⟩, tAnd (fun w => { w with cubes := [(0, { Cube.empty with run := some (tRun fun o => { o with op := tCubeOp 0x01001001, phase := .steps, e0 := 1, e1 := 1, e2 := 1 }) })] }) fun d => rset d .cubeFence 0 0 0 15 8 0,
    (tRun fun o => { o with op := tCubeOp 0x01001001, phase := .steps, e0 := 1, e1 := 1, e2 := 1 }), _, _, _, _, fits (by decide +kernel), by and_intros <;> first | decide +kernel | rfl⟩,
   ⟨tc, 0, ⟨[(7, 7, 1)], [], none, 0, 0, []⟩, tCube { Cube.empty with run := some (tRun fun o => { o with op := tCubeOp 0x01001001, phase := .steps, e0 := 1, e1 := 1, e2 := 1, replayed := true, replaying := true }) },
    (tRun fun o => { o with op := tCubeOp 0x01001001, phase := .steps, e0 := 1, e1 := 1, e2 := 1, replayed := true, replaying := true }), _, _, _, _,
    fits (by decide +kernel), by and_intros <;> first | decide +kernel | rfl⟩,
   ⟨tc, 3, ⟨[], [], none, 0, 0, []⟩, tOn fun w => { w with cubes := [(3, { Cube.empty with run := some (tRun fun o => { o with phase := .drain }) })] },
    (tRun fun o => { o with phase := .drain }), fits (by decide +kernel), by decide +kernel, by decide +kernel, by decide +kernel, by decide +kernel,
    by decide +kernel, (by decide +kernel), by decide +kernel, (by intro e h; cases h), by and_intros <;> decide +kernel⟩,
   ⟨List.replicate 8 [.fin false 1 0], List.replicate 8 [.fin false 1 0], List.replicate 8 (List.replicate 8 (.fin false 1 0)), 1, 7, by and_intros <;> decide +kernel⟩,
   ⟨List.replicate 8 [1], List.replicate 8 [2], List.replicate 8 (List.replicate 8 2), 1, 7, by and_intros <;> decide +kernel⟩⟩

theorem test_meets_RampsAndFences :
    (∃ c u, ∃ (s : State), Fits (.rampLevelChange c u) s ∧ (getCube s.dev c u).ramp = 1 ∧ 8 ≤ (getCube s.dev c u).level) ∧
    (∃ c u, ∃ (s : State), Fits (.rampLevelChange c u) s ∧ (getCube s.dev c u).ramp = 1 ∧ (getCube s.dev c u).level < 8 ∧
      (getCube s.dev c u).level < rfld s.dev .abwEnvelope 0 0 0 35 32) ∧
    (∃ c u, ∃ (s : State), Fits (.rampLevelChange c u) s ∧ (getCube s.dev c u).ramp = 1 ∧ (getCube s.dev c u).level < 8 ∧
      rfld s.dev .abwEnvelope 0 0 0 35 32 ≤ (getCube s.dev c u).level) ∧
    (∃ c u, ∃ (s : State), Fits (.rampLevelChange c u) s ∧ (getCube s.dev c u).ramp = 3) ∧
    (∃ c u, ∃ (s : State), Fits (.rampHoldExpiry c u) s ∧ ((getCube s.dev c u).ramp = 1 ∨ (getCube s.dev c u).ramp = 2) ∧ (∀ o,
      (getCube s.dev c u).run = some o → stepReady s.dev c o = false ∧ o.phase ≠ .drain) ∧
      ((getCube s.dev c u).run = none → (getCube s.dev c u).released = true)) ∧
    (∃ c, ∃ (s : State), Fits (.cubeFenceWindowEnd c) s ∧ rfld s.dev .cubeFence c.die c.core 0 31 16 ≠ 0 ∧
      s.dev.tick % (rfld s.dev .cubeFence c.die c.core 0 31 16 * 64) = 0) ∧
    (∃ c, ∃ (s : State), Fits (.fenceReq c) s ∧ (getCore s.dev c).fenced = false ∧ (¬(rfld s.dev .errCoreRst c.die 0 0 9 9 = 1 ∧
      rfld s.dev .errCoreRst c.die 0 0 7 0 = c.core))) ∧
    (∃ c, ∃ (s : State), Fits (.fenceReq c) s ∧ rfld s.dev .errCoreRst c.die 0 0 9 9 = 1 ∧ rfld s.dev .errCoreRst c.die 0 0 7 0 = c.core) :=
  ⟨⟨tc, 0, tCube { Cube.empty with ramp := 1, level := 8 }, fits (by decide +kernel), by and_intros <;> decide +kernel⟩,
   ⟨tc, 0, tAnd (fun w => { w with cubes := [(0, { Cube.empty with ramp := 1, level := 7 })] }) fun d => rset d .abwEnvelope 0 0 0 35 32 8,
    fits (by decide +kernel), by and_intros <;> decide +kernel⟩,
   ⟨tc, 0, tAnd (fun w => { w with cubes := [(0, { Cube.empty with ramp := 1, level := 7 })] }) fun d => rset d .abwEnvelope 0 0 0 35 32 7,
    fits (by decide +kernel), by and_intros <;> decide +kernel⟩,
   ⟨tc, 0, tCube { Cube.empty with ramp := 3, level := 1 }, fits (by decide +kernel), by decide +kernel⟩,
   ⟨tc, 0, tCube { Cube.empty with ramp := 2, level := 8, run := some (tRun id) }, fits (by decide +kernel), by decide +kernel,
    fun o h => by cases h; exact ⟨by decide, by decide⟩, fun h => nomatch h⟩,
   ⟨tc, tAnd id fun d => rset d .cubeFence 0 0 0 31 16 1, fits (by decide +kernel), by and_intros <;> decide +kernel⟩,
   ⟨tc, t0, fits (by decide +kernel), by and_intros <;> decide +kernel⟩,
   ⟨tc, tAnd id fun d => rset d .errCoreRst 0 0 0 9 9 1, fits (by decide +kernel), by and_intros <;> decide +kernel⟩⟩

theorem test_meets_ProloguesAndEpilogues :
    (∃ c u, ∃ (s : State), ∃ o e, Fits (.prologueCopyDone c u) s ∧ (getCube s.dev c u).run = some o ∧ o.phase = .prologue ∧ cubeGo s.dev c o = true ∧
      o.copied = false ∧ o.relayIn = false ∧ o.correct = true ∧ o.corrected = false ∧ proCopy s.dev c o = (e, .none)) ∧
    (∃ c u, ∃ (s : State), ∃ o f e, Fits (.ledgerFetchDone c u) s ∧ (getCube s.dev c u).run = some o ∧ o.phase = .prologue ∧ cubeGo s.dev c o = true ∧
      o.correct = true ∧ o.fetched = false ∧ xferFree s.dev c = true ∧ takeWake s.dev (.unit (.cube c u) o.op.serial) = some (f, e) ∧ ∃ x, f = 0 ∧
      fetchLedger e c (BitVec.ofNat 52 (o.pf 1 51 0)) (o.pf 0 28 22) (o.pf 5 52 32) (o.proRows e c) = (x, .none)) ∧
    (∃ c u, ∃ (s : State), ∃ o f e, Fits (.ledgerFetchDone c u) s ∧ (getCube s.dev c u).run = some o ∧ o.phase = .prologue ∧ cubeGo s.dev c o = true ∧
      o.correct = true ∧ o.fetched = false ∧ xferFree s.dev c = true ∧ takeWake s.dev (.unit (.cube c u) o.op.serial) = some (f, e) ∧ f ≠ 0 ∧
      (getCube s.dev c u).head = none ∧ (getCube s.dev c u).post = []) ∧
    (∃ c u, ∃ (s : State), ∃ o, Fits (.prologueCorrection c u) s ∧ (getCube s.dev c u).run = some o ∧ o.phase = .prologue ∧ cubeGo s.dev c o = true ∧
      o.correct = true ∧ o.corrected = false ∧ o.copied = true ∧ o.fetched = true ∧
      storePoisoned s.dev c (o.pf 4 52 32) (4 * (o.proShape.1 * o.pf 0 28 22)) = false ∧ hookProg o.proWord = false ∧ o.op.kind = 1) ∧
    (∃ c u, ∃ (s : State), ∃ o, Fits (.prologueCorrection c u) s ∧ (getCube s.dev c u).run = some o ∧ o.phase = .prologue ∧ cubeGo s.dev c o = true ∧
      o.correct = true ∧ o.corrected = false ∧ o.copied = true ∧ o.fetched = true ∧
      storePoisoned s.dev c (o.pf 4 52 32) (4 * (o.proShape.1 * o.pf 0 28 22)) = true ∧ (getCube s.dev c u).head = none ∧
      (getCube s.dev c u).post = []) ∧
    (∃ c u, ∃ (s : State), ∃ o l, Fits (.hookProgramLaunch c u) s ∧ coreGo s.dev c = true ∧ hookOwner s.dev c u = some (o, false) ∧ o.launched = false ∧
      (getCore s.dev c).w.launchQ = [] ∧ l = hookLaunch s.dev c u o false ∧ l.n ≤ (freeSlots (getCore s.dev c).w).length) ∧
    (∃ c u serial, ∃ (s : State), ∃ o rest, Fits (.converterPass c) s ∧ coreGo s.dev c = true ∧ (getCore s.dev c).w.convQ = (u, serial) :: rest ∧ u < 4 ∧
      findPost s.dev c u serial = some o ∧ o.relayOut = false ∧ o.phase = .convert ∧ o.second = false ∧ o.lkind ≠ 0 ∧ stagePoisoned s.dev c o = false) ∧
    (∃ (d : Dev), ∃ c, ∃ (o : RunOp), ∃ i off n, ∃ (gs : Nat → FV), off = o.pf 5 20 0 + i * o.pf 6 31 0 ∧ n = o.proShape.2 ∧ (∀ t,
      gs t = finalFactor d c (o.pf 0 4 3) (o.pf 3 31 0) (v32 (BitVec.ofNat 32 (o.pf 3 63 32))) (closeRow d c (o.pf 0 4 3) (fetched d c (o.pf 0 28 22) (o.pf 5 52 32) i)) (v32 (word32 d c (o.pf 4 52 32 + (i * o.pf 0 28 22 + t) * 4)))) ∧
      (∀ k, k < n → k / max 1 (o.pf 2 47 24) < o.pf 0 28 22)) ∧
    (∃ c u, ∃ (s : State), ∃ o r f, Fits (.ledgerPublish c u) s ∧ coreGo s.dev c = true ∧ (getCube s.dev c u).post = [o] ∧ o.phase = .publish ∧
      o.stakeRoute = false ∧ xferFree s.dev c = true ∧ (getCube s.dev c u).run = none ∧ (getCube s.dev c u).head = none ∧
      (putRecords s.dev ((o.rows.zip o.records).map fun x => (o.ledgerRow x.1, x.2.1, x.2.2)) = (r, f)) ∧ f ≠ .alreadyClaimed) ∧
    (∃ c u, ∃ (s : State), ∃ o f e, Fits (.stakeRouteResume c u) s ∧ coreGo s.dev c = true ∧ (getCube s.dev c u).post = [o] ∧ o.phase = .route ∧
      (getCube s.dev c u).run = none ∧ (getCube s.dev c u).head = none ∧ xferFree s.dev c = true ∧ takeWake s.dev (.post c u o.op.serial) = some (f,
      e) ∧ f ≠ 0) ∧
    (∃ c u, ∃ (s : State), ∃ o f e, Fits (.stakeRouteResume c u) s ∧ coreGo s.dev c = true ∧ (getCube s.dev c u).post = [o] ∧ o.phase = .route ∧
      (getCube s.dev c u).run = none ∧ (getCube s.dev c u).head = none ∧ xferFree s.dev c = true ∧ takeWake s.dev (.post c u o.op.serial) = some (f,
      e) ∧ ∃ x, f = 0 ∧ (fetchLedger e c (BitVec.ofNat 52 (o.ef 1 51 0)) (o.ef 0 34 28) (o.ef 4 52 32) (o.rows.map fun i => (o.ef 2 23 0 + i,
      i)) = (x, .none))) ∧
    (∃ c u, ∃ (s : State), ∃ o f e, ∃ (bytes : Nat → Nat → List Byte), Fits (.ksplitCombine c u) s ∧ coreGo s.dev c = true ∧
      (getCube s.dev c u).run = some o ∧ o.phase = .ksplit ∧ xferFree s.dev c = true ∧ takeWake s.dev (.post c u o.op.serial) = some (f, e) ∧
      (getCube s.dev c u).head = none ∧ (getCube s.dev c u).post = [] ∧ f ≠ 0) ∧
    (∃ c u, ∃ (s : State), ∃ o f e, ∃ (bytes : Nat → Nat → List Byte), Fits (.ksplitCombine c u) s ∧ coreGo s.dev c = true ∧
      (getCube s.dev c u).run = some o ∧ o.phase = .ksplit ∧ xferFree s.dev c = true ∧ takeWake s.dev (.post c u o.op.serial) = some (f, e) ∧
      (getCube s.dev c u).head = none ∧ (getCube s.dev c u).post = [] ∧ f = 0 ∧ (∀ x ∈ (getCube s.dev c u).errs,
      x.2 = true → x.1 / 32 ∉ o.drainBanks s.dev) ∧ (∀ i ∈ o.rows, ∀ p,
      p + 1 < o.ef 0 53 47 → (devReadAll s.dev (BitVec.ofNat 52 (o.ef 5 51 0) + BitVec.ofNat 52 (((p + 1) * o.planM + i) * o.planN * 4)) (4 * o.e1)).2 = .ok (bytes i p))) ∧
    (∃ c u, ∃ (s : State), ∃ o f e, ∃ (bytes : Nat → Nat → List Byte), Fits (.ksplitCombine c u) s ∧ coreGo s.dev c = true ∧
      (getCube s.dev c u).run = some o ∧ o.phase = .ksplit ∧ xferFree s.dev c = true ∧ takeWake s.dev (.post c u o.op.serial) = some (f, e) ∧
      (getCube s.dev c u).head = none ∧ (getCube s.dev c u).post = [] ∧ f = 0 ∧ (∀ x ∈ (getCube s.dev c u).errs,
      x.2 = true → x.1 / 32 ∉ o.drainBanks s.dev) ∧ (∃ i ∈ o.rows, ∃ p, p + 1 < o.ef 0 53 47 ∧ ∀ bs,
      (devReadAll s.dev (BitVec.ofNat 52 (o.ef 5 51 0) + BitVec.ofNat 52 (((p + 1) * o.planM + i) * o.planN * 4)) (4 * o.e1)).2 ≠ .ok bs)) :=
  ⟨⟨tc, 0, tCube { Cube.empty with run := some (tRun fun o => { o with phase := .prologue, pro := [2] }) }, (tRun fun o => { o with phase := .prologue, pro := [2] }),
    _, fits (by decide +kernel), by and_intros <;> first | decide +kernel | rfl⟩,
   ⟨tc, 0, tCubeWoken { Cube.empty with run := some (tRun fun o => { o with phase := .prologue, pro := [2] }) } 0,
    (tRun fun o => { o with phase := .prologue, pro := [2] }), 0, _, fits (by decide +kernel), by decide +kernel, by decide +kernel,
    by decide +kernel, by decide +kernel, by decide +kernel, (by decide +kernel), rfl, _, by and_intros <;> first | decide +kernel | rfl⟩,
   ⟨tc, 0, tCubeWoken { Cube.empty with run := some (tRun fun o => { o with phase := .prologue, pro := [2] }) } 2,
    (tRun fun o => { o with phase := .prologue, pro := [2] }), 2, _, fits (by decide +kernel), by and_intros <;> first | decide +kernel | rfl⟩,
   ⟨tc, 0, tCube { Cube.empty with run := some (tRun fun o => { o with phase := .prologue, pro := [2], copied := true, fetched := true }) },
    (tRun fun o => { o with phase := .prologue, pro := [2], copied := true, fetched := true }), fits (by decide +kernel), by and_intros <;> decide +kernel⟩,
   ⟨tc, 0, tAnd (fun w => { w with cubes := [(0, { Cube.empty with run := some (tRun fun o => { o with phase := .prologue, pro := [2 + 2 ^ 22], copied := true, fetched := true, e0 := 1 }) })] }) fun d => { d with poison := [(storeKey tc 0, true)] },
    (tRun fun o => { o with phase := .prologue, pro := [2 + 2 ^ 22], copied := true, fetched := true, e0 := 1 }), fits (by decide +kernel), by and_intros <;> decide +kernel⟩,
   ⟨tc, 0, tCube { Cube.empty with run := some (tRun fun o => { o with phase := .prologue, op := ⟨1, 1, 0, 0, 0, 0, 0, [0, 0, 0, 0, 0, 0, 0, 0, 0, 0, 0, 7]⟩, copied := true }) },
    (tRun fun o => { o with phase := .prologue, op := ⟨1, 1, 0, 0, 0, 0, 0, [0, 0, 0, 0, 0, 0, 0, 0, 0, 0, 0, 7]⟩, copied := true }), _,
    fits (by decide +kernel), by and_intros <;> first | decide +kernel | rfl⟩,
   ⟨tc, 0, 1, tOn fun w => { w with convQ := [(0, 1)], cubes := [(0, { Cube.empty with post := [(tRun fun o => { o with phase := .convert, epi := [64] })] })] },
    (tRun fun o => { o with phase := .convert, epi := [64] }), [], fits (by decide +kernel), by and_intros <;> decide +kernel⟩,
   ⟨t0.dev, tc, (tRun fun o => { o with op := tCubeOp 0x11001001, phase := .prologue, pro := [2 + 2 ^ 22], e0 := 1, e2 := 1, copied := true, fetched := true }),
    0, _, _, _, rfl, rfl, fun _ => rfl, by decide +kernel⟩,
   ⟨tc, 0, tCube { Cube.empty with post := [(tRun fun o => { o with phase := .publish, epi := [64] })] }, (tRun fun o => { o with phase := .publish, epi := [64] }),
    _, .none, fits (by decide +kernel), by and_intros <;> first | decide +kernel | rfl⟩,
   ⟨tc, 0, tCubeWoken { Cube.empty with post := [(tRun fun o => { o with phase := .route })] } 1, (tRun fun o => { o with phase := .route }), 1, _,
    fits (by decide +kernel), by and_intros <;> first | decide +kernel | rfl⟩,
   ⟨tc, 0, tCubeWoken { Cube.empty with post := [(tRun fun o => { o with phase := .route })] } 0, (tRun fun o => { o with phase := .route }), 0, _,
    fits (by decide +kernel), by decide +kernel, by decide +kernel, by decide +kernel, by decide +kernel, by decide +kernel, (by decide +kernel), rfl,
    _, by and_intros <;> first | decide +kernel | rfl⟩,
   ⟨tc, 0, tCubeWoken { Cube.empty with run := some (tRun fun o => { o with phase := .ksplit }) } 2, (tRun fun o => { o with phase := .ksplit }), 2, _,
    fun _ _ => [], fits (by decide +kernel), by and_intros <;> first | decide +kernel | rfl⟩,
   ⟨tc, 0, tCubeWoken { Cube.empty with run := some (tRun fun o => { o with phase := .ksplit }) } 0, (tRun fun o => { o with phase := .ksplit }), 0, _,
    fun _ _ => [], fits (by decide +kernel), by decide +kernel, by decide +kernel, by decide +kernel, by decide +kernel, rfl, by decide +kernel,
    by decide +kernel, by decide +kernel, (by intro e h; cases h), (by intro i h; cases h)⟩,
   ⟨tc, 0, tCubeWoken { Cube.empty with run := some (tRun fun o => { o with op := tCubeOp 0x01001001, phase := .ksplit, e0 := 1, e1 := 1, epi := [2 ^ 48, 0, 0, 0, 0, 0x1000] }) } 0,
    (tRun fun o => { o with op := tCubeOp 0x01001001, phase := .ksplit, e0 := 1, e1 := 1, epi := [2 ^ 48, 0, 0, 0, 0, 0x1000] }), 0, _,
    fun _ _ => [], fits (by decide +kernel), by decide +kernel, by decide +kernel, by decide +kernel, by decide +kernel, rfl, by decide +kernel,
    by decide +kernel, by decide +kernel, (by intro e h; cases h), ⟨0, by decide +kernel, 0, by decide +kernel, fun bs h => by cases h⟩⟩⟩

theorem test_meets_AttentionAndKeys :
    (∃ c u, ∃ (s : State), ∃ o, Fits (.kvTokenWrite c u) s ∧ attnIn s.dev c u .append = some o ∧ (getCube s.dev c u).head = none ∧
      (getCube s.dev c u).post = [] ∧ kvSt s.dev o.kvIdx = 3) ∧
    (∃ c u, ∃ (s : State), ∃ o p, Fits (.kvTokenWrite c u) s ∧ attnIn s.dev c u .append = some o ∧ kvSt s.dev o.kvIdx ≠ 3 ∧
      p = (o.pos0 + o.att.tokens) / kvTokens s.dev o.kvIdx ∧ ¬(o.pos0 + o.att.tokens < kvFlushed s.dev o.kvIdx) ∧
      kvBit s.dev o.kvIdx (o.pos0 + o.att.tokens) = false ∧ kvInWindow s.dev o.kvIdx p = false ∧ (getKv s.dev o.kvIdx).closing = false) ∧
    (∃ c u, ∃ (s : State), ∃ o r i x, Fits (.kvTokenWrite c u) s ∧ attnIn s.dev c u .append = some o ∧ i = o.kvIdx ∧ x = o.pos0 + o.att.tokens ∧
      kvSt s.dev i ≠ 3 ∧ ¬(x < kvFlushed s.dev i) ∧ kvBit s.dev i x = false ∧ kvInWindow s.dev i (x / kvTokens s.dev i) = true ∧
      kvBusy s.dev i (x / kvTokens s.dev i) = false ∧ writeToken s.dev c o o.att.tokens = (r, .none) ∧ o.att.tokens + 1 ≠ o.tokens) ∧
    (∃ c u, ∃ (s : State), ∃ o, Fits (.keyPresenceWaitEnd c u) s ∧ attnIn s.dev c u .keys = some o ∧ o.keysHere s.dev = true) ∧
    (∃ c u, ∃ (s : State), ∃ o x, Fits (.keyWaitExpiry c u) s ∧ attnIn s.dev c u .keys = some o ∧ o.keysHere s.dev = false ∧ o.att.deadline = some x ∧
      x ≤ s.dev.tick ∧ (getCube s.dev c u).head = none ∧ (getCube s.dev c u).post = []) ∧
    (∃ c u, ∃ (s : State), ∃ o, Fits (.attnChunkFetchDone c u) s ∧ attnIn s.dev c u .steps = some o ∧ o.canFetch s.dev = true ∧ xferFree s.dev c = true ∧
      ∃ e x, fetchChunk s.dev c o = (e, .ok x)) ∧
    (∃ c u, ∃ (s : State), ∃ o, Fits (.attnChunkFetchDone c u) s ∧ attnIn s.dev c u .steps = some o ∧ o.canFetch s.dev = true ∧ xferFree s.dev c = true ∧
      ∃ e f, fetchChunk s.dev c o = (e, .error f) ∧ f ≠ .none ∧ f ≠ .alreadyClaimed ∧ (getCube s.dev c u).head = none ∧ (getCube s.dev c u).post = []) ∧
    (∃ c u, ∃ (s : State), ∃ o q, Fits (.attnChunkSoftmax c u) s ∧ attnIn s.dev c u .steps = some o ∧ o.canSoftmax = true ∧
      q = (softmaxChunk s.dev c o (getCube s.dev c u)).2 ∧ (∀ e ∈ (getCube s.dev c u).errs, e.2 = true → e.1 / 32 ∉ softmaxBanks s.dev o q)) ∧
    (∃ c u, ∃ (s : State), ∃ o q, Fits (.attnChunkSoftmax c u) s ∧ attnIn s.dev c u .steps = some o ∧ o.canSoftmax = true ∧
      q = (softmaxChunk s.dev c o (getCube s.dev c u)).2 ∧ (∃ e ∈ (getCube s.dev c u).errs, e.2 = true ∧ e.1 / 32 ∈ softmaxBanks s.dev o q) ∧
      (getCube s.dev c u).head = none ∧ (getCube s.dev c u).post = []) ∧
    (∃ die, ∃ (s : State), ∃ slot p rest f e1 e2 e3 a bytes, Fits (.kvFlushStart die) s ∧ halted s.dev die = false ∧ tget [] s.dev.kvReady die = (slot,
      p) :: rest ∧ f < 4 ∧ tget none s.dev.kvFlush (4 * die + f) = none ∧ (∀ g, g < f → tget none s.dev.kvFlush (4 * die + g) ≠ none) ∧
      slotBusy s.dev (die * 4096 + slot) p = false ∧ extentBusy s.dev die (kvListAddr s.dev (die * 4096 + slot) p) 8 = false ∧
      kvEntry { s.dev with kvReady := tset [] s.dev.kvReady die rest } (die * 4096 + slot) p = (e1, .ok a) ∧ zeroTail e1 (die * 4096 + slot) p = (e2,
      .none) ∧ devReadAll e2 (kvSlotAddr e2 (die * 4096 + slot) p) (kvPageBytes e2 (die * 4096 + slot)) = (e3, .ok bytes)) ∧
    (∃ die f, ∃ (s : State), ∃ x e, Fits (.kvFlushDone die f) s ∧ tget none s.dev.kvFlush (4 * die + f) = some x ∧
      x.page = kvFirst s.dev (die * 4096 + x.slot) ∧ extentBusy s.dev die x.addr x.bytes.length = false ∧
      devWriteAll { s.dev with kvFlush := tset none s.dev.kvFlush (4 * die + f) none } x.addr x.bytes = (e, .ok ())) ∧
    (∃ die port, ∃ (s : State), ∃ slot p rest e bytes, Fits (.exportQueueCopy die port) s ∧ halted s.dev die = false ∧
      tget [] s.dev.expWait (2 * die + port) = (slot, p) :: rest ∧ (tget [] s.dev.expQ (2 * die + port)).length < 8 ∧
      slotBusy s.dev (die * 4096 + slot) p = false ∧
      devReadAll { s.dev with expWait := tset [] s.dev.expWait (2 * die + port) rest } (kvSlotAddr s.dev (die * 4096 + slot) p) (kvPageBytes s.dev (die * 4096 + slot)) = (e,
      .ok bytes)) :=
  ⟨⟨tc, 0, tAnd (fun w => { w with cubes := [(0, { Cube.empty with run := some (tAttn fun o => { o with phase := .append, e0 := 1 }) })] }) (tKv 3),
    (tAttn fun o => { o with phase := .append, e0 := 1 }), fits (by decide +kernel), by and_intros <;> decide +kernel⟩,
   ⟨tc, 0, tAnd (fun w => { w with cubes := [(0, { Cube.empty with run := some (tAttn fun o => { o with phase := .append, e0 := 1, op := { tAttnOp with desc := [0, 0, 0, 0, 0, 0, 0, 0, 0, 32] } }) })] }) (tKv 1),
    (tAttn fun o => { o with phase := .append, e0 := 1, op := { tAttnOp with desc := [0, 0, 0, 0, 0, 0, 0, 0, 0, 32] } }), 2,
    fits (by decide +kernel), by and_intros <;> decide +kernel⟩,
   ⟨tc, 0, tAnd (fun w => { w with cubes := [(0, { Cube.empty with run := some (tAttn fun o => { o with phase := .append, e0 := 2, op := { tAttnOp with desc := 0x4000000000 :: tAttnOp.desc.tail } }) })] }) (tKv 1),
    (tAttn fun o => { o with phase := .append, e0 := 2, op := { tAttnOp with desc := 0x4000000000 :: tAttnOp.desc.tail } }),
    (writeToken (tAnd (fun w => { w with cubes := [(0, { Cube.empty with run := some (tAttn fun o => { o with phase := .append, e0 := 2, op := { tAttnOp with desc := 0x4000000000 :: tAttnOp.desc.tail } }) })] }) (tKv 1)).dev tc (tAttn fun o => { o with phase := .append, e0 := 2, op := { tAttnOp with desc := 0x4000000000 :: tAttnOp.desc.tail } }) 0).1,
    0, 0, fits (by decide +kernel), by and_intros <;> decide +kernel⟩,
   ⟨tc, 0, tCube { Cube.empty with run := some (tAttn fun o => { o with phase := .keys }) }, (tAttn fun o => { o with phase := .keys }),
    fits (by decide +kernel), by and_intros <;> decide +kernel⟩,
   ⟨tc, 0, tCube { Cube.empty with run := some (tAttn fun o => { o with phase := .keys, e1 := 1, attn := some { Attn.empty with chunks := [0], deadline := some 0 } }) },
    (tAttn fun o => { o with phase := .keys, e1 := 1, attn := some { Attn.empty with chunks := [0], deadline := some 0 } }), 0,
    fits (by decide +kernel), by and_intros <;> decide +kernel⟩,
   ⟨tc, 0, tCube { Cube.empty with run := some (tAttn fun o => { o with phase := .steps, attn := some { Attn.empty with chunks := [0] } }) },
    (tAttn fun o => { o with phase := .steps, attn := some { Attn.empty with chunks := [0] } }), fits (by decide +kernel), by decide +kernel,
    by decide +kernel, by decide +kernel, _, _, rfl⟩,
   ⟨tc, 0, tCube { Cube.empty with run := some (tAttn fun o => { o with phase := .steps, e1 := 1, attn := some { Attn.empty with chunks := [0] } }) },
    (tAttn fun o => { o with phase := .steps, e1 := 1, attn := some { Attn.empty with chunks := [0] } }), fits (by decide +kernel),
    by decide +kernel, by decide +kernel, by decide +kernel,
    (fetchChunk (tCube { Cube.empty with run := some (tAttn fun o => { o with phase := .steps, e1 := 1, attn := some { Attn.empty with chunks := [0] } }) }).dev tc (tAttn fun o => { o with phase := .steps, e1 := 1, attn := some { Attn.empty with chunks := [0] } })).1,
    .addressAbsent, by and_intros <;> decide +kernel⟩,
   ⟨tc, 0, tCube { Cube.empty with run := some (tAttn fun o => { o with phase := .steps, e0 := 1, e1 := 1, attn := some { Attn.empty with chunks := [0], fetched := 1, scored := 1 } }) },
    (tAttn fun o => { o with phase := .steps, e0 := 1, e1 := 1, attn := some { Attn.empty with chunks := [0], fetched := 1, scored := 1 } }), _,
    fits (by decide +kernel), by decide +kernel, by decide +kernel, rfl, (by intro e h; cases h)⟩,
   ⟨tc, 0, tCube { Cube.empty with run := some (tAttn fun o => { o with phase := .steps, e0 := 1, e1 := 1, attn := some { Attn.empty with chunks := [0], fetched := 1, scored := 1 } }), errs := [(224, true)] },
    (tAttn fun o => { o with phase := .steps, e0 := 1, e1 := 1, attn := some { Attn.empty with chunks := [0], fetched := 1, scored := 1 } }), _,
    fits (by decide +kernel), by decide +kernel, by decide +kernel, rfl, ⟨(224, true), by and_intros <;> first | decide +kernel | rfl⟩, by and_intros <;> decide +kernel⟩,
   ⟨0, tAnd id fun d => { tKv 1 d with kvReady := [(0, [(0, 0)])] }, 0, 0, [], 0, (kvEntry { tKv 1 (tDev id) with kvReady := [] } 0 0).1,
    (zeroTail (kvEntry { tKv 1 (tDev id) with kvReady := [] } 0 0).1 0 0).1,
    (devReadAll (zeroTail (kvEntry { tKv 1 (tDev id) with kvReady := [] } 0 0).1 0 0).1 0x10000 64).1, 0, List.replicate 64 0,
    fits (by decide +kernel), by and_intros <;> decide +kernel⟩,
   ⟨0, 3, tAnd id fun d => { tKv 1 d with kvFlush := [(3, some ⟨0, 0, 0, [1], true⟩)] }, ⟨0, 0, 0, [1], true⟩, (devWriteAll (tKv 1 (tDev id)) 0 [1]).1,
    fits (by decide +kernel), by and_intros <;> decide +kernel⟩,
   ⟨0, 1, tAnd id fun d => { tKv 1 d with expWait := [(1, [(0, 0)])] }, 0, 0, [], (devReadAll (tKv 1 (tDev id)) 0x10000 64).1, List.replicate 64 0,
    fits (by decide +kernel), by and_intros <;> decide +kernel⟩⟩

theorem test_meets_ChainsAndStreams :
    (∃ c pos, ∃ (s : State), ∃ x f e, Fits (.chainWaitEnd c pos) s ∧ (getCore s.dev c).w.chain[pos]? = some x ∧ x.phase = 1 ∧
      takeWake s.dev (.unit (.chain c) x.op.serial) = some (f, e) ∧ f = 0 ∧ x.count ≠ 0) ∧
    (∃ c pos, ∃ (s : State), ∃ x f e, Fits (.chainWaitEnd c pos) s ∧ (getCore s.dev c).w.chain[pos]? = some x ∧ x.phase = 1 ∧
      takeWake s.dev (.unit (.chain c) x.op.serial) = some (f, e) ∧ f ≠ 0 ∧ x.slot = none) ∧
    (∃ c slot, ∃ (s : State), ∃ x op, Fits (.streamPassStart c slot) s ∧ unitsRun s.dev c = true ∧
      (((getCore s.dev c).w.chain.find? fun y => decide (y.slot = some slot)) = some x) ∧ x.op.opc = 2 ∧ x.phase = 0 ∧ order1 s.dev c x.op = .ok op ∧
      wfld op.desc 0 15 12 &&& wfld op.desc 0 19 16 = 0 ∧ wfld op.desc 0 20 20 = 0 ∧ (getStream s.dev c slot).count ≠ 0) ∧
    (∃ c, ∃ (s : State), ∃ x, Fits (.chainEntryAdmit c) s ∧ unitsRun s.dev c = true ∧ (getCore s.dev c).w.flights.length < 6 ∧
      transferWaits s.dev c = false ∧ (getCore s.dev c).w.chain.find? (entryReady s.dev c) = some x ∧ ∃ e,
      readEntry s.dev c x.list x.entered = .ok e ∧ checkEntry s.dev e x.bases x.op.parcel = .none) ∧
    (∃ c, ∃ (s : State), ∃ x, Fits (.chainEntryAdmit c) s ∧ unitsRun s.dev c = true ∧ (getCore s.dev c).w.flights.length < 6 ∧
      transferWaits s.dev c = false ∧ (getCore s.dev c).w.chain.find? (entryReady s.dev c) = some x ∧ ∃ e,
      readEntry s.dev c x.list x.entered = .ok e ∧ checkEntry s.dev e x.bases x.op.parcel ≠ .none ∧
      checkEntry s.dev e x.bases x.op.parcel ≠ .alreadyClaimed ∧ x.slot = none ∧ (∀ y ∈ (getCore s.dev c).w.flights, y.chain ≠ x.op.serial)) ∧
    (∃ c pos, ∃ (s : State), ∃ x y, Fits (.chainEntryComplete c pos) s ∧ (getCore s.dev c).w.flights[pos]? = some x ∧ x.over = true ∧
      (getCore s.dev c).sched < 2 ∧ (((getCore s.dev c).w.chain.find? fun y => decide (y.op.serial = x.chain)) = some y) ∧ y.finished + 1 < y.count ∧
      y.fault = .none) ∧
    (∃ c pos, ∃ (s : State), ∃ x y, Fits (.chainEntryComplete c pos) s ∧ (getCore s.dev c).w.flights[pos]? = some x ∧ x.over = true ∧
      (getCore s.dev c).sched < 2 ∧ (((getCore s.dev c).w.chain.find? fun y => decide (y.op.serial = x.chain)) = some y) ∧ y.finished + 1 = y.count ∧
      y.fault = .none ∧ y.phase = 2 ∧ y.slot = none ∧ (getCore s.dev c).w.flights = [x]) :=
  ⟨⟨tc, 0, tAnd (fun w => { w with chain := [(⟨⟨1, 0x10, 0, 0, 0, 0, 0, []⟩, 1, none, 0, 1, [], 0, 0, .none⟩ : Chain)] }) fun d => { d with wakes := [⟨.unit (.chain tc) 1, 0⟩] },
    (⟨⟨1, 0x10, 0, 0, 0, 0, 0, []⟩, 1, none, 0, 1, [], 0, 0, .none⟩ : Chain), 0, _, fits (by decide +kernel), by and_intros <;> first | decide +kernel | rfl⟩,
   ⟨tc, 0, tAnd (fun w => { w with chain := [(⟨⟨1, 0x10, 0, 0, 0, 0, 0, []⟩, 1, none, 0, 1, [], 0, 0, .none⟩ : Chain)] }) fun d => { d with wakes := [⟨.unit (.chain tc) 1, 1⟩] },
    (⟨⟨1, 0x10, 0, 0, 0, 0, 0, []⟩, 1, none, 0, 1, [], 0, 0, .none⟩ : Chain), 1, _, fits (by decide +kernel), by and_intros <;> first | decide +kernel | rfl⟩,
   ⟨tc, 0, tAnd (fun w => { w with chain := [(⟨⟨1, 0x12, 2, storeAddr tc 0, 0, 0, 0, []⟩, 0, some 0, 0, 0, [], 0, 0, .none⟩ : Chain)], streams := [(0, { Stream.empty with state := 1, count := 1 })] }) (tStore [0x112]),
    (⟨⟨1, 0x12, 2, storeAddr tc 0, 0, 0, 0, []⟩, 0, some 0, 0, 0, [], 0, 0, .none⟩ : Chain), ⟨1, 0x12, 2, storeAddr tc 0, 0, 0, 0,
    storeWords (tAnd id (tStore [0x112])).dev tc 0 16⟩, fits (by decide +kernel), by and_intros <;> decide +kernel⟩,
   ⟨tc, tAnd (fun w => { w with chain := [(⟨⟨1, 0x10, 0, 0, 0, 0, 0, []⟩, 2, none, storeAddr tc 0, 1, [], 0, 0, .none⟩ : Chain)] }) (tStore [0, 0,
    0x8100000001000, 0x8100000002000]), (⟨⟨1, 0x10, 0, 0, 0, 0, 0, []⟩, 2, none, storeAddr tc 0, 1, [], 0, 0, .none⟩ : Chain),
    fits (by decide +kernel), by decide +kernel, by decide +kernel, by decide +kernel, by decide +kernel, storeWords (tAnd id (tStore [0, 0,
    0x8100000001000, 0x8100000002000])).dev tc 0 8, by and_intros <;> decide +kernel⟩,
   ⟨tc, tAnd (fun w => { w with chain := [(⟨⟨1, 0x10, 0, 0, 0, 0, 0, []⟩, 2, none, storeAddr tc 0, 1, [], 0, 0, .none⟩ : Chain)] }) (tStore [0x70000000000000]),
    (⟨⟨1, 0x10, 0, 0, 0, 0, 0, []⟩, 2, none, storeAddr tc 0, 1, [], 0, 0, .none⟩ : Chain), fits (by decide +kernel), by decide +kernel,
    by decide +kernel, by decide +kernel, by decide +kernel, storeWords (tAnd id (tStore [0x70000000000000])).dev tc 0 8, by and_intros <;> decide +kernel⟩,
   ⟨tc, 0, tOn fun w => { w with chain := [(⟨⟨1, 0x10, 0, 0, 0, 0, 0, []⟩, 2, none, 0, 2, [], 0, 0, .none⟩ : Chain)], flights := [⟨1, 0, [], [], 0, 0, none, 0, 0, [], .none⟩] },
    ⟨1, 0, [], [], 0, 0, none, 0, 0, [], .none⟩, (⟨⟨1, 0x10, 0, 0, 0, 0, 0, []⟩, 2, none, 0, 2, [], 0, 0, .none⟩ : Chain), fits (by decide +kernel), by and_intros <;> decide +kernel⟩,
   ⟨tc, 0, tOn fun w => { w with chain := [(⟨⟨1, 0x10, 0, 0, 0, 0, 0, []⟩, 2, none, 0, 1, [], 0, 0, .none⟩ : Chain)], flights := [⟨1, 0, [], [], 0, 0, none, 0, 0, [], .none⟩] },
    ⟨1, 0, [], [], 0, 0, none, 0, 0, [], .none⟩, (⟨⟨1, 0x10, 0, 0, 0, 0, 0, []⟩, 2, none, 0, 1, [], 0, 0, .none⟩ : Chain), fits (by decide +kernel), by and_intros <;> decide +kernel⟩⟩

theorem test_meets_LoadsFlip :
    (∃ c, ∃ (s : State), ∃ op rest m, Fits (.tableLoadFlip c) s ∧ coreGo s.dev c = true ∧ (getCore s.dev c).w.tloads = op :: rest ∧
      (getCore s.dev c).w.tphase = 1 ∧ storePoisoned s.dev c (offIn c (BitVec.ofNat 52 (wfld op.desc 1 51 0))) 20240 = false ∧
      m = storeRead s.dev c (offIn c (BitVec.ofNat 52 (wfld op.desc 1 51 0))) 20240 ∧ baseImageBad m (wfld op.desc 2 63 32) = false) ∧
    (∃ c, ∃ (s : State), ∃ op rest m, Fits (.tableLoadFlip c) s ∧ coreGo s.dev c = true ∧ (getCore s.dev c).w.tloads = op :: rest ∧
      (getCore s.dev c).w.tphase = 1 ∧ storePoisoned s.dev c (offIn c (BitVec.ofNat 52 (wfld op.desc 1 51 0))) 20240 = false ∧
      m = storeRead s.dev c (offIn c (BitVec.ofNat 52 (wfld op.desc 1 51 0))) 20240 ∧ baseImageBad m (wfld op.desc 2 63 32) = true) ∧
    (∃ c, ∃ (s : State), ∃ op rest, Fits (.tableLoadDrainEnd c) s ∧ coreGo s.dev c = true ∧ (getCore s.dev c).w.tloads = op :: rest ∧
      (getCore s.dev c).w.tphase = 2) ∧
    (∃ c, ∃ (s : State), ∃ op rest off base n, Fits (.scaleLoadFlip c) s ∧ coreGo s.dev c = true ∧ (getCore s.dev c).w.sloads = op :: rest ∧
      (getCore s.dev c).w.sphase = 1 ∧ off = offIn c (BitVec.ofNat 52 (wfld op.desc 1 51 0)) ∧ base = wfld op.desc 2 11 0 ∧
      n = wfld op.desc 2 24 12 ∧ storePoisoned s.dev c off (4 * n) = false) ∧
    (∃ c, ∃ (s : State), ∃ op rest, Fits (.scaleLoadDrainEnd c) s ∧ coreGo s.dev c = true ∧ (getCore s.dev c).w.sloads = op :: rest ∧
      (getCore s.dev c).w.sphase = 2 ∧ oldScales s.dev c = false) :=
  ⟨⟨tc, (tAnd (fun w => { w with tloads := [⟨1, 6, 0, 0, 0, 0, 0, [0, 0x8100000000000, 0]⟩], tphase := 1 }) fun d => memPut d (storeKey tc 0) tImage),
    ⟨1, 6, 0, 0, 0, 0, 0, [0, 0x8100000000000, 0]⟩, [], tImage, fits (by decide +kernel), by decide +kernel, by decide +kernel, by decide +kernel,
    by decide +kernel, (by rw [show offIn tc _ = 0 by decide +kernel, storeRead, ← image_good.2]; exact (memBytes_memPut _ _ _).symm), image_good.1⟩,
   ⟨tc, tOn fun w => { w with tloads := [⟨1, 0x38, 0, storeAddr tc 0, 0, 0, 0, [0x138, 0x8100000001000, 20240]⟩], tphase := 1 }, ⟨1, 0x38, 0,
    storeAddr tc 0, 0, 0, 0, [0x138, 0x8100000001000, 20240]⟩, [], _, fits (by decide +kernel), by and_intros <;> first | decide +kernel | rfl⟩,
   ⟨tc, tOn fun w => { w with tloads := [⟨1, 0x38, 0, storeAddr tc 0, 0, 0, 0, [0x138, 0x8100000001000, 20240]⟩], tphase := 2 }, ⟨1, 0x38, 0,
    storeAddr tc 0, 0, 0, 0, [0x138, 0x8100000001000, 20240]⟩, [], fits (by decide +kernel), by and_intros <;> decide +kernel⟩,
   ⟨tc, tOn (fun w => { w with sloads := [⟨1, 0x32, 3, storeAddr tc 0, 0, 0, 0, [0x132, 0x8100000001000, 0xFFF + 2 ^ 12]⟩], sphase := 1 }), ⟨1, 0x32, 3,
    storeAddr tc 0, 0, 0, 0, [0x132, 0x8100000001000, 0xFFF + 2 ^ 12]⟩, [], 0x1000, 0xFFF, 1, fits (by decide +kernel), by and_intros <;> decide +kernel⟩,
   ⟨tc, tOn (fun w => { w with sloads := [⟨1, 0x32, 3, storeAddr tc 0, 0, 0, 0, [0x132, 0x8100000001000, 0xFFF + 2 ^ 12]⟩], sphase := 2 }), ⟨1, 0x32, 3,
    storeAddr tc 0, 0, 0, 0, [0x132, 0x8100000001000, 0xFFF + 2 ^ 12]⟩, [], fits (by decide +kernel), by and_intros <;> decide +kernel⟩⟩

theorem test_meets_MemoryErrors :
    (∃ (i : Nat → Nat → Nat → List Nat → Instr), i ∈ [Instr.hbmRead, .hbmScrub] ∧ ∃ die chan caddr lanes, ∃ (s : State), ∃ m errs e,
      Fits (i die chan caddr lanes) s ∧ chanLive s.dev die chan = true ∧ rfld s.dev .hbmErrCtl die 0 0 31 24 ≠ 0 ∧ m = markedLanes s.dev die chan ∧
      (errs = (lanes.filter fun l => decide (l < 72)).dedup) ∧ (e = (errs.filter fun l => !m.contains l).length) ∧
      (errs = [] ∨ poisonedKey s.dev (lineKey (hbmKey die chan caddr)) = true)) ∧
    (∃ (i : Nat → Nat → Nat → List Nat → Instr), i ∈ [Instr.hbmRead, .hbmScrub] ∧ ∃ die chan caddr lanes, ∃ (s : State), ∃ m errs e,
      Fits (i die chan caddr lanes) s ∧ chanLive s.dev die chan = true ∧ rfld s.dev .hbmErrCtl die 0 0 31 24 ≠ 0 ∧ m = markedLanes s.dev die chan ∧
      (errs = (lanes.filter fun l => decide (l < 72)).dedup) ∧ (e = (errs.filter fun l => !m.contains l).length) ∧ ∃ l, errs = [l] ∧ l ∉ m ∧
      m.length ≤ 6 ∧ poisonedKey s.dev (lineKey (hbmKey die chan caddr)) = false) ∧
    (∃ (i : Nat → Nat → Nat → List Nat → Instr), i ∈ [Instr.hbmRead, .hbmScrub] ∧ ∃ die chan caddr lanes, ∃ (s : State), ∃ m errs e,
      Fits (i die chan caddr lanes) s ∧ chanLive s.dev die chan = true ∧ rfld s.dev .hbmErrCtl die 0 0 31 24 ≠ 0 ∧ m = markedLanes s.dev die chan ∧
      (errs = (lanes.filter fun l => decide (l < 72)).dedup) ∧ (e = (errs.filter fun l => !m.contains l).length) ∧ 8 < 2 * e + m.length ∧ errs ≠ [] ∧
      poisonedKey s.dev (lineKey (hbmKey die chan caddr)) = false) ∧
    (∃ die, ∃ (s : State), Fits (.hbmErrWindowEnd die) s ∧ rfld s.dev .hbmErrCtl die 0 0 23 16 ≠ 0 ∧
      s.dev.tick % (rfld s.dev .hbmErrCtl die 0 0 23 16 * 2 ^ 16) = 0) ∧
    (∃ die stack, ∃ (s : State), Fits (.hbmRefresh die stack) s) ∧
    (∃ die, ∃ (s : State), Fits (.ondieScrub die .clean) s) ∧
    (∃ die core off, ∃ (s : State), Fits (.ondieScrub die (.store core off)) s ∧ core < 144 ∧ off < storeBytes) ∧
    (∃ die slice a sl off, ∃ (s : State), Fits (.ondieScrub die (.slice slice a)) s ∧ resolve s.dev a = some (.scratch die sl off) ∧ sl = slice) ∧
    (∃ die slice a ch ca l, ∃ (s : State), Fits (.ondieScrub die (.slice slice a)) s ∧ resolve s.dev a = some (.hbm die ch ca) ∧ homeSlice ch = slice ∧
      tget none s.dev.cache (lineKey (hbmKey die ch ca)) = some l ∧ l.dirty = false) ∧
    (∃ die stack temp limit, ∃ (s : State), Fits (.hbmThermalSample die stack temp limit) s ∧ s.dev.tick % 4096 = 0) :=
  ⟨⟨.hbmRead, List.mem_cons_self, 0, 0, 3221225471, [], tAnd id fun d => rset (tHbm d) .hbmErrCtl 0 0 0 31 24 255, _, _, _, fits (by decide +kernel), by and_intros <;> first | decide +kernel | rfl⟩,
   ⟨.hbmScrub, List.mem_cons_of_mem _ List.mem_cons_self, 0, 0, 3221225471, [71, 72], tAnd id fun d => rset (tHbm d) .hbmErrCtl 0 0 0 31 24 255, _,
    [71], _, fits (by decide +kernel), by decide +kernel, by decide +kernel, rfl, by decide +kernel, rfl, 71, by and_intros <;> decide +kernel⟩,
   ⟨.hbmRead, List.mem_cons_self, 0, 0, 0, [0, 1, 2, 3, 4], tAnd id fun d => rset (tHbm d) .hbmErrCtl 0 0 0 31 24 255, _, [0, 1, 2, 3, 4], 5,
    fits (by decide +kernel), by and_intros <;> first | decide +kernel | rfl⟩,
   ⟨7, tAnd id fun d => rset d .hbmErrCtl 7 0 0 23 16 1, fits (by decide +kernel), by and_intros <;> decide +kernel⟩,
   ⟨0, 1, t0, fits (by decide +kernel)⟩,
   ⟨0, t0, fits (by decide +kernel)⟩,
   ⟨0, 143, 0x17FFFF, t0, fits (by decide +kernel), by and_intros <;> decide +kernel⟩,
   ⟨0, 15, mkAddr 2 0 0, 15, 0, tAnd id fun d => rset d .resSliceCfg 0 0 0 15 0 0x8000, fits (by decide +kernel), by and_intros <;> decide +kernel⟩,
   ⟨0, 0, 64, 0, 64, ⟨false, false, 1⟩, tAnd id fun d => { tHbm d with cache := [(64, some ⟨false, false, 1⟩)] }, fits (by decide +kernel), by and_intros <;> decide +kernel⟩,
   ⟨0, 1, 125, 125, t0, fits (by decide +kernel), by decide +kernel⟩⟩

theorem test_meets_MemoryConfiguration :
    (∃ die slice cls a bytes, ∃ (s : State), ∃ p, Fits (.sliceRequest die slice (.write cls a bytes)) s ∧ bytes.length ≤ 64 - a.toNat % 64 ∧
      sliceOf s.dev a = some (die, slice) ∧ resolve s.dev a = some p ∧ placeBusy s.dev p = false ∧ inRegion s.dev a bytes.length = true ∧
      retired s.dev a p = false) ∧
    (∃ die slice cls a hold, ∃ (s : State), ∃ p, Fits (.sliceRequest die slice (.read cls a hold)) s ∧ sliceOf s.dev a = some (die, slice) ∧
      resolve s.dev a = some p ∧ placeBusy s.dev p = false) ∧
    (∃ die slice cls n, ∃ (s : State), Fits (.sliceRequest die slice (.stalled cls n)) s) ∧
    (∃ die slice c pos, ∃ (s : State), ∃ x e, Fits (.sliceRequest die slice (.chainLine c pos)) s ∧ c.wf = true ∧ c.die < s.dev.part.dies ∧
      (getCore s.dev c).w.flights[pos]? = some x ∧ (getCore s.dev c).sched < 2 ∧ x.fault = .none ∧ ∃ p, x.writePiece = some p ∧
      servedAt s.dev die slice c.die (some p.1) = true ∧ linesWr ((getCore s.dev c).w.flights.take pos) < 64 ∧ serveWrite s.dev c x p = (e, .ok ())) ∧
    (∃ die slice c pos, ∃ (s : State), ∃ x e, Fits (.sliceRequest die slice (.chainLine c pos)) s ∧ c.wf = true ∧ c.die < s.dev.part.dies ∧
      (getCore s.dev c).w.flights[pos]? = some x ∧ (getCore s.dev c).sched < 2 ∧ x.fault = .none ∧ ∃ v a bs, x.writePiece = none ∧
      x.run < entRuns x.e ∧ (getCore s.dev c).stopping = false ∧ linesRd s.dev c ((getCore s.dev c).w.flights.take pos) < 128 ∧
      x.index s.dev c = .ok v ∧ x.src s.dev v = .ok a ∧ servedAt s.dev die slice c.die (x.readPiece a).1 = true ∧
      serveRead s.dev c x (x.readPiece a) = (e, .ok bs)) ∧
    (∃ die v, ∃ (s : State), Fits (.hbmMapWrite die v) s ∧ (∀ x, x < s.dev.part.dies → rebuilding s.dev x = false)) ∧
    (∃ die v, ∃ (s : State), Fits (.hbmMapWrite die v) s ∧ Tidy s.dev ∧ rebuilding s.dev die = true ∧ v.extractLsb' 0 2 ≠ 3 ∧ (∀ x,
      x < s.dev.part.dies → (v.extractLsb' 8 7).toNat * 2 ^ 30 ≤ capacity s.dev x)) ∧
    (∃ die v, ∃ (s : State), Fits (.resSliceCfgWrite die v) s ∧ rebuilding s.dev die = false) ∧
    (∃ die v, ∃ (s : State), Fits (.resSliceCfgWrite die v) s ∧ Tidy s.dev ∧ rebuilding s.dev die = true) ∧
    (∃ die, ∃ (s : State), Fits (.sliceReconfigDone die) s ∧ rfld s.dev .resSliceCfg die 0 0 16 16 = 1) ∧
    (∃ die, ∃ (s : State), Fits (.releaseAll die) s) ∧
    (∃ die, ∃ (s : State), Fits (.releaseAllDone die) s ∧ rfld s.dev .resHold die 0 0 5 5 = 1) ∧
    (∃ die n v, ∃ (s : State), Fits (.hbmRetireWrite die n v) s ∧ retireCount s.dev die ≠ 4096) ∧
    (∃ die n v, ∃ (s : State), Fits (.hbmRetireWrite die n v) s ∧ retireCount s.dev die = 4096) :=
  ⟨⟨0, 0, 1, 1, List.replicate 63 1, tAnd id fun d => tHbm d, .hbm 0 0 1, fits (by decide +kernel), by and_intros <;> decide +kernel⟩,
   ⟨0, 0, 1, 0, true, tAnd id fun d => tHbm d, .hbm 0 0 0, fits (by decide +kernel), by and_intros <;> decide +kernel⟩,
   ⟨0, 15, 1, 5, t0, fits (by decide +kernel)⟩,
   ⟨0, 15, tc, 0, (tOn fun w => { w with flights := [tFlight fun x => { x with run := 1, buf := [1, 2, 3, 4, 5, 6, 7, 8] }] }),
    (tFlight fun x => { x with run := 1, buf := [1, 2, 3, 4, 5, 6, 7, 8] }),
    (serveWrite (tOn fun w => { w with flights := [tFlight fun x => { x with run := 1, buf := [1, 2, 3, 4, 5, 6, 7, 8] }] }).dev tc (tFlight fun x => { x with run := 1, buf := [1, 2, 3, 4, 5, 6, 7, 8] }) (0x8100000002000,
    8, 0)).1, fits (by decide +kernel), by decide +kernel, by decide +kernel, by decide +kernel, by decide +kernel, by decide +kernel,
    (0x8100000002000, 8, 0), by and_intros <;> decide +kernel⟩,
   ⟨0, 15, tc, 0, (tOn fun w => { w with flights := [tFlight id] }), (tFlight id),
    (serveRead (tOn fun w => { w with flights := [tFlight id] }).dev tc (tFlight id) (some 0x8100000001000, 8)).1, fits (by decide +kernel),
    by decide +kernel, by decide +kernel, by decide +kernel, by decide +kernel, by decide +kernel, 0, some 0x8100000001000, List.replicate 8 0, by and_intros <;> decide +kernel⟩,
   ⟨0, 1, t0, fits (by decide +kernel), by decide +kernel⟩,
   ⟨0, 2, tAnd id fun d => rset d .pclRebuild 0 0 0 0 0 1, fits (by decide +kernel), by unfold Tidy Rising; decide +kernel, by and_intros <;> decide +kernel⟩,
   ⟨7, 0xFFFF, t0, fits (by decide +kernel), by decide +kernel⟩,
   ⟨7, 0xFFFF, tAnd id fun d => rset d .pclRebuild 7 0 0 0 0 1, fits (by decide +kernel), by unfold Tidy Rising; decide +kernel, by decide +kernel⟩,
   ⟨0, tAnd id fun d => rset d .resSliceCfg 0 0 0 16 16 1, fits (by decide +kernel), by decide +kernel⟩,
   ⟨7, t0, fits (by decide +kernel)⟩,
   ⟨0, tAnd id fun d => rset d .resHold 0 0 0 5 5 1, fits (by decide +kernel), by decide +kernel⟩,
   ⟨7, 4095, 1, t0, fits (by decide +kernel), by decide +kernel⟩,
   ⟨0, 0, 5, tAnd id fun d => { d with regs := (List.range 4096).map fun i => (regKey .hbmRetire 0 0 0 + 8 * (i % 4096), 1) }, fits (by decide +kernel),
    by decide +kernel⟩⟩

theorem test_meets_ChannelCommands :
    (∃ ch v, ∃ (s : State), Fits (.cmdDoorbell ch v) s ∧ commandBusy s.dev (homeDie s.dev ch) = false ∧ pkgReady s.dev = true) ∧
    (∃ ch v, ∃ (s : State), Fits (.cmdDoorbell ch v) s ∧ commandBusy s.dev (homeDie s.dev ch) = false ∧ pkgReady s.dev = false) ∧
    (∃ ch v k tk, ∃ (s : State), Fits (.doorbellLatch ch) s ∧ k = getChan s.dev ch ∧ k.doorbell = some (v, tk) ∧ tk < s.dev.tick ∧ ∃ good,
      (good = decide (k.state = 1 ∧ (v - k.head).toNat ≤ 2 ^ k.submitOrder ∧ (k.tail - k.head).toNat ≤ (v - k.head).toNat))) ∧
    (∃ die id inc, ∃ (s : State), Fits (.cmdArrive die id inc) s ∧ (die = 0 ∨ s.dev.part.dies = 8 ∧ die = 4) ∧ commandBusy s.dev die = false ∧
      pkgReady s.dev = true ∧ stakeDie id < s.dev.part.dies ∧ (getStake s.dev id).enable = true) ∧
    (∃ die id inc, ∃ (s : State), Fits (.cmdArrive die id inc) s ∧ (die = 0 ∨ s.dev.part.dies = 8 ∧ die = 4) ∧ commandBusy s.dev die = false ∧
      (pkgReady s.dev = false ∨ s.dev.part.dies ≤ stakeDie id ∨ (getStake s.dev id).enable = false)) ∧
    (∃ ch k, ∃ (s : State), ∃ e b x, Fits (.commandRead ch) s ∧ k = getChan s.dev ch ∧ k.state = 1 ∧ k.head ≠ k.tail ∧ k.cmds = [] ∧
      extentBusy s.dev (homeDie s.dev ch) k.headAddr 64 = false ∧
      devRead s.dev (k.submit + BitVec.ofNat 52 (k.head.toNat % 2 ^ k.submitOrder * 64)) 64 false = (e, .ok b) ∧
      (x = Cmd.new k.head.toNat ((List.range 8).map fun i => BitVec.ofNat 64 (bytesNat b (8 * i) 8)) .none) ∧ cmdRefusal e ch x = .none ∧
      x.wait = none) ∧
    (∃ ch k, ∃ (s : State), ∃ e b x, Fits (.commandRead ch) s ∧ k = getChan s.dev ch ∧ k.state = 1 ∧ k.head ≠ k.tail ∧ k.cmds = [] ∧
      extentBusy s.dev (homeDie s.dev ch) k.headAddr 64 = false ∧
      devRead s.dev (k.submit + BitVec.ofNat 52 (k.head.toNat % 2 ^ k.submitOrder * 64)) 64 false = (e, .ok b) ∧
      (x = Cmd.new k.head.toNat ((List.range 8).map fun i => BitVec.ofNat 64 (bytesNat b (8 * i) 8)) .none) ∧ cmdRefusal e ch x ≠ .none ∧
      k.room = true ∧ recordWaits s.dev ch = false) ∧
    (∃ ch k, ∃ (s : State), ∃ x, Fits (.commandStart ch) s ∧ k = getChan s.dev ch ∧ k.cmds = [x] ∧ x.started = false ∧ mayStart s.dev ch x = true ∧
      x.wait = none ∧ tenantReady s.dev ch x = true ∧ (x.op ≠ 1 ∨ k.image ≠ none)) ∧
    (∃ ch k, ∃ (s : State), ∃ x, Fits (.commandStart ch) s ∧ k = getChan s.dev ch ∧ k.cmds = [x] ∧ x.started = false ∧ mayStart s.dev ch x = true ∧
      x.wait = none ∧ tenantReady s.dev ch x = true ∧ x.op = 1 ∧ k.image = none ∧ recordWaits s.dev ch = false) ∧
    (∃ ch k, ∃ (s : State), ∃ x, Fits (.cmdRun ch) s ∧ k = getChan s.dev ch ∧ toAct s.dev ch 1 = some x ∧ k.cmds = [x]) ∧
    (∃ ch k, ∃ (s : State), ∃ x e im digest, Fits (.cmdLoad ch) s ∧ k = getChan s.dev ch ∧ toAct s.dev ch 2 = some x ∧ k.cmds = [x] ∧
      recordWaits s.dev ch = false ∧ imageBusy s.dev (homeDie s.dev ch) (BitVec.ofNat 52 (x.fld 2 51 0)) = false ∧
      readImage s.dev (BitVec.ofNat 52 (x.fld 2 51 0)) = (e, .ok (im, digest))) ∧
    (∃ ch k, ∃ (s : State), ∃ x e f m, Fits (.cmdLoad ch) s ∧ k = getChan s.dev ch ∧ toAct s.dev ch 2 = some x ∧ k.cmds = [x] ∧ f ≠ .none ∧
      recordWaits s.dev ch = false ∧ imageBusy s.dev (homeDie s.dev ch) (BitVec.ofNat 52 (x.fld 2 51 0)) = false ∧
      readImage s.dev (BitVec.ofNat 52 (x.fld 2 51 0)) = (e, .error (f, m))) ∧
    (∃ ch k, ∃ (s : State), ∃ x, Fits (.cmdArriveOp ch) s ∧ k = getChan s.dev ch ∧ toAct s.dev ch 3 = some x ∧ k.cmds = [x] ∧ x.done = none ∧
      recordWaits s.dev ch = false) ∧
    (∃ ch k, ∃ (s : State), ∃ x, Fits (.cmdNop ch) s ∧ k = getChan s.dev ch ∧ toAct s.dev ch 4 = some x ∧ k.cmds = [x] ∧ recordWaits s.dev ch = false) ∧
    (∃ ch k, ∃ (s : State), ∃ x, Fits (.cmdNop ch) s ∧ k = getChan s.dev ch ∧ toAct s.dev ch 4 = some x ∧ k.cmds = [x] ∧ recordWaits s.dev ch = true) ∧
    (∃ ch k v, ∃ (s : State), Fits (.cmdComplHeadWrite ch v) s ∧ k = getChan s.dev ch ∧ k.cmds = [] ∧ commandBusy s.dev (homeDie s.dev ch) = false ∧
      (v - k.rhead).toNat ≤ (k.rtail - k.rhead).toNat) ∧
    (∃ ch k v, ∃ (s : State), Fits (.cmdComplHeadWrite ch v) s ∧ k = getChan s.dev ch ∧ k.cmds = [] ∧ commandBusy s.dev (homeDie s.dev ch) = false ∧
      (k.rtail - k.rhead).toNat < (v - k.rhead).toNat) :=
  ⟨⟨255, 1, tAnd id fun d => rset d .abwTri 0 0 0 24 24 1, fits (by decide +kernel), by and_intros <;> decide +kernel⟩,
   ⟨255, 1, t0, fits (by decide +kernel), by and_intros <;> decide +kernel⟩,
   ⟨0, 16, { Channel.empty with state := 1, submitOrder := 4, doorbell := some (16, 0) }, 0, tAnd id fun d => { tChan { Channel.empty with state := 1, submitOrder := 4, doorbell := some (16, 0) } d with tick := 1 },
    fits (by decide +kernel), by decide +kernel, by decide +kernel, by decide +kernel, true, by decide +kernel⟩,
   ⟨4, 0, 0xFFFF, tAnd id fun d => { rset d .abwTri 0 0 0 24 24 1 with stakes := [(0, { Stake.empty with enable := true })] }, fits (by decide +kernel), by and_intros <;> decide +kernel⟩,
   ⟨0, 0, 1, t0, fits (by decide +kernel), by and_intros <;> decide +kernel⟩,
   ⟨0, { Channel.empty with state := 1, tail := 1, compl := 0x1000 }, (tAnd id fun d => memPut (tChan { Channel.empty with state := 1, tail := 1, compl := 0x1000 } d) 0 [4]),
    (devRead (tAnd id fun d => memPut (tChan { Channel.empty with state := 1, tail := 1, compl := 0x1000 } d) 0 [4]).dev 0 64 false).1,
    4 :: List.replicate 63 0, Cmd.new 0 [4, 0, 0, 0, 0, 0, 0, 0] .none, fits (by decide +kernel), by and_intros <;> decide +kernel⟩,
   ⟨0, { Channel.empty with state := 1, tail := 1, compl := 0x1000 }, (tAnd id fun d => memPut (tChan { Channel.empty with state := 1, tail := 1, compl := 0x1000 } d) 0 [9]),
    (devRead (tAnd id fun d => memPut (tChan { Channel.empty with state := 1, tail := 1, compl := 0x1000 } d) 0 [9]).dev 0 64 false).1,
    9 :: List.replicate 63 0, Cmd.new 0 [9, 0, 0, 0, 0, 0, 0, 0] .none, fits (by decide +kernel), by and_intros <;> decide +kernel⟩,
   ⟨0, { Channel.empty with state := 1, cmds := [tCmd 4] }, tAnd id (tChan { Channel.empty with state := 1, cmds := [tCmd 4] }), tCmd 4,
    fits (by decide +kernel), by and_intros <;> decide +kernel⟩,
   ⟨0, { Channel.empty with state := 1, cmds := [tCmd 1] }, tAnd id (tChan { Channel.empty with state := 1, cmds := [tCmd 1] }), tCmd 1,
    fits (by decide +kernel), by and_intros <;> decide +kernel⟩,
   ⟨0, { Channel.empty with state := 1, cmds := [{ tCmd 1 with started := true }] }, tAnd id (tChan { Channel.empty with state := 1, cmds := [{ tCmd 1 with started := true }] }),
    { tCmd 1 with started := true }, fits (by decide +kernel), by and_intros <;> decide +kernel⟩,
   ⟨0, { Channel.empty with state := 1, cmds := [{ Cmd.new 0 [2, 0, 0] .none with started := true }], compl := 0x1000 },
    (tAnd id fun d => memPut (tChan { Channel.empty with state := 1, cmds := [{ Cmd.new 0 [2, 0, 0] .none with started := true }], compl := 0x1000 } d) 0 (leBytes 64 (0x31594B46 + 2 ^ 32 * 0x00800101 + 2 ^ 192 * 128 + 2 ^ 224 * 8) ++ (leBytes 32 0xaf5570f5a1810b7af78caf4bc70a660f0df51e42baf91d4de5b2328de0e83dfc).reverse)),
    { Cmd.new 0 [2, 0, 0] .none with started := true }, (readImage (tAnd id fun d => memPut (tChan { Channel.empty with state := 1, cmds := [{ Cmd.new 0 [2, 0, 0] .none with started := true }], compl := 0x1000 } d) 0 (leBytes 64 (0x31594B46 + 2 ^ 32 * 0x00800101 + 2 ^ 192 * 128 + 2 ^ 224 * 8) ++ (leBytes 32 0xaf5570f5a1810b7af78caf4bc70a660f0df51e42baf91d4de5b2328de0e83dfc).reverse)).dev 0).1,
    ⟨128, 8, 0, 0, 0, 0⟩, (leBytes 32 0xaf5570f5a1810b7af78caf4bc70a660f0df51e42baf91d4de5b2328de0e83dfc).reverse, fits (by decide +kernel), by and_intros <;> decide +kernel⟩,
   ⟨0, { Channel.empty with state := 1, cmds := [{ Cmd.new 0 [2, 0, 0] .none with started := true }], compl := 0x1000 },
    (tAnd id (tChan { Channel.empty with state := 1, cmds := [{ Cmd.new 0 [2, 0, 0] .none with started := true }], compl := 0x1000 })),
    { Cmd.new 0 [2, 0, 0] .none with started := true }, (readImage (tAnd id (tChan { Channel.empty with state := 1, cmds := [{ Cmd.new 0 [2, 0, 0] .none with started := true }], compl := 0x1000 })).dev 0).1,
    .badImage, 0, fits (by decide +kernel), by and_intros <;> decide +kernel⟩,
   ⟨0, { Channel.empty with state := 1, cmds := [{ tCmd 3 with started := true }] }, tAnd id (tChan { Channel.empty with state := 1, cmds := [{ tCmd 3 with started := true }] }),
    { tCmd 3 with started := true }, fits (by decide +kernel), by and_intros <;> decide +kernel⟩,
   ⟨0, { Channel.empty with state := 1, cmds := [{ tCmd 4 with started := true }] }, tAnd id (tChan { Channel.empty with state := 1, cmds := [{ tCmd 4 with started := true }] }),
    { tCmd 4 with started := true }, fits (by decide +kernel), by and_intros <;> decide +kernel⟩,
   ⟨0, { Channel.empty with state := 1, cmds := [{ tCmd 4 with started := true }] }, tAnd id (fun d => { tChan ({ Channel.empty with state := 1, cmds := [{ tCmd 4 with started := true }] }) d with lateCmds := [⟨0, 0, false, false, .none⟩] }),
    { tCmd 4 with started := true }, fits (by decide +kernel), by and_intros <;> decide +kernel⟩,
   ⟨0, { Channel.empty with state := 1, rtail := 5 }, 5, tAnd id (tChan { Channel.empty with state := 1, rtail := 5 }), fits (by decide +kernel), by and_intros <;> decide +kernel⟩,
   ⟨0, { Channel.empty with state := 1, rtail := 5 }, 6, tAnd id (tChan { Channel.empty with state := 1, rtail := 5 }), fits (by decide +kernel), by and_intros <;> decide +kernel⟩⟩

theorem test_meets_ObjectsPartsAndEvents :
    (∃ any ty ix, ∃ (s : State), Fits (.openObj any ty ix) s ∧ commandBusy s.dev 0 = false ∧ adminIgnored s.dev = true) ∧
    (∃ any ty ix, ∃ (s : State), Fits (.openObj any ty ix) s ∧ commandBusy s.dev 0 = false ∧ ∃ f, adminIgnored s.dev = false ∧
      openCheck s.dev any ty.toNat ix.toNat = .error f) ∧
    (∃ any ty ix, ∃ (s : State), Fits (.openObj any ty ix) s ∧ commandBusy s.dev 0 = false ∧ ∃ d i e, adminIgnored s.dev = false ∧
      openCheck s.dev any ty.toNat ix.toNat = .ok i ∧ d = { s.dev with admin := { s.dev.admin with busy := true, done := false, close := false } } ∧
      openType d ty.toNat i = (e, .none)) ∧
    (∃ (s : State), Fits .openComplete s ∧ Tidy s.dev ∧ s.dev.admin.busy = true ∧ s.dev.admin.close = false) ∧
    (∃ h, ∃ (s : State), Fits (.closeObj h) s ∧ commandBusy s.dev 0 = false ∧ adminIgnored s.dev = true) ∧
    (∃ h, ∃ (s : State), Fits (.closeObj h) s ∧ commandBusy s.dev 0 = false ∧ ∃ f, adminIgnored s.dev = false ∧
      checkHandle s.dev (fld h 23 16) h = .error f) ∧
    (∃ h, ∃ (s : State), Fits (.closeObj h) s ∧ commandBusy s.dev 0 = false ∧ ∃ i, adminIgnored s.dev = false ∧
      checkHandle s.dev (fld h 23 16) h = .ok i ∧ (fld h 23 16 = typeParcel → parcelInUse s.dev i = false)) ∧
    (∃ (s : State), ∃ h, Fits .closeComplete s ∧ h = s.dev.admin.target ∧ s.dev.admin.busy = true ∧ s.dev.admin.close = true ∧
      closeReady s.dev (fld h 23 16) (fld h 15 0) = true) ∧
    (∃ c, ∃ (s : State), ∃ p x y, Fits (.partComplete c) s ∧ (getCore s.dev c).w.part = some p ∧ partOver (getCore s.dev c) = true ∧
      findCmd s.dev p.chan p.num = some x ∧ y = x.addPart c p p.seqFault p.subcode) ∧
    (∃ (s : State), ∃ e d, Fits .eventMergeWrite s ∧ firstEvent s.dev.events = some e ∧ e.tick.toNat < s.dev.tick ∧ evtRingFull s.dev = false ∧
      routeBusy s.dev e.die 0 = false ∧ d = { s.dev with events := s.dev.events.erase e } ∧
      (rfld s.dev .cmdEvtCtl 0 0 0 57 57 = 0 ∨ classPasses s.dev e.cls = false)) ∧
    (∃ (s : State), ∃ e d, Fits .eventMergeWrite s ∧ firstEvent s.dev.events = some e ∧ e.tick.toNat < s.dev.tick ∧ evtRingFull s.dev = false ∧
      routeBusy s.dev e.die 0 = false ∧ d = { s.dev with events := s.dev.events.erase e } ∧ ∃ r a x p, rfld s.dev .cmdEvtCtl 0 0 0 57 57 = 1 ∧
      classPasses s.dev e.cls = true ∧ r = rfld s.dev .cmdEvtPtr 0 0 0 31 0 ∧
      a = BitVec.ofNat 52 (rfld s.dev .cmdEvtCtl 0 0 0 51 0 + r % 2 ^ rfld s.dev .cmdEvtCtl 0 0 0 56 52 * 32) ∧ extentBusy s.dev 0 a 32 = false ∧
      devWrite d a (eventBytes (decide (r / 2 ^ rfld s.dev .cmdEvtCtl 0 0 0 56 52 % 2 = 0)) s.dev.gap e) = (x, .ok ()) ∧ resolve x a = some p ∧
      poisoned x p 32 = false) ∧
    (∃ v, ∃ (s : State), Fits (.cmdEvtPtrHeadWrite v) s ∧ commandBusy s.dev 0 = false ∧ ∃ (head : W32), ∃ (tail : W32),
      head = BitVec.ofNat 32 (rfld s.dev .cmdEvtPtr 0 0 0 63 32) ∧ tail = BitVec.ofNat 32 (rfld s.dev .cmdEvtPtr 0 0 0 31 0) ∧
      (v - head).toNat ≤ (tail - head).toNat) ∧
    (∃ v, ∃ (s : State), Fits (.cmdEvtPtrHeadWrite v) s ∧ commandBusy s.dev 0 = false ∧ ∃ (head : W32), ∃ (tail : W32),
      head = BitVec.ofNat 32 (rfld s.dev .cmdEvtPtr 0 0 0 63 32) ∧ tail = BitVec.ofNat 32 (rfld s.dev .cmdEvtPtr 0 0 0 31 0) ∧
      (tail - head).toNat < (v - head).toNat) :=
  ⟨⟨false, 2, 0, t0, fits (by decide +kernel), by and_intros <;> decide +kernel⟩,
   ⟨true, 2, 0, tAnd id fun d => rset d .abwTri 0 0 0 24 24 1, fits (by decide +kernel), by decide +kernel, .badDescriptor, by and_intros <;> decide +kernel⟩,
   ⟨false, 2, 9215, tAnd id fun d => rset d .abwTri 0 0 0 24 24 1, fits (by decide +kernel), by decide +kernel, _, 9215,
    (openType { (tAnd id fun d => rset d .abwTri 0 0 0 24 24 1).dev with admin := { Dev.reset.admin with busy := true, done := false, close := false } } 2 9215).1, by and_intros <;> first | decide +kernel | rfl⟩,
   ⟨tAnd id fun d => { rset d .abwTri 0 0 0 24 24 1 with admin := { Dev.reset.admin with busy := true } }, fits (by decide +kernel),
    by unfold Tidy Rising; decide +kernel, by and_intros <;> decide +kernel⟩,
   ⟨0, t0, fits (by decide +kernel), by and_intros <;> decide +kernel⟩,
   ⟨0, tAnd id fun d => rset d .abwTri 0 0 0 24 24 1, fits (by decide +kernel), by decide +kernel, .badHandle, by and_intros <;> decide +kernel⟩,
   ⟨0x01020000, tAnd id fun d => { rset d .abwTri 0 0 0 24 24 1 with objs := [(2 * 2 ^ 16, ⟨1, true⟩)] }, fits (by decide +kernel), by decide +kernel,
    0, by and_intros <;> decide +kernel⟩,
   ⟨tAnd id fun d => { rset d .abwTri 0 0 0 24 24 1 with admin := { Dev.reset.admin with busy := true, close := true, target := 0x01020000 } },
    0x01020000, fits (by decide +kernel), by and_intros <;> decide +kernel⟩,
   ⟨tc, tAnd (fun w => { w with seq := { w.seq with st := .faulted }, part := some { tPart with seqFault := .poisoned } }) (tChan { Channel.empty with state := 1, cmds := [{ tCmd 1 with started := true, acted := true, running := 1 }] }),
    { tPart with seqFault := .poisoned }, { tCmd 1 with started := true, acted := true, running := 1 }, _, fits (by decide +kernel), by and_intros <;> first | decide +kernel | rfl⟩,
   ⟨tAnd id fun d => { tHbm d with tick := 1, events := [⟨2, 0, 0, 0, 0, 0, 0, 0, 0⟩] }, ⟨2, 0, 0, 0, 0, 0, 0, 0, 0⟩, _, fits (by decide +kernel), by and_intros <;> first | decide +kernel | rfl⟩,
   ⟨tAnd id fun d => { rset (tHbm d) .cmdEvtCtl 0 0 0 57 57 1 with tick := 1, events := [⟨2, 0, 0, 0, 0, 0, 0, 0, 0⟩] }, ⟨2, 0, 0, 0, 0, 0, 0, 0, 0⟩,
    { (tAnd id fun d => { rset (tHbm d) .cmdEvtCtl 0 0 0 57 57 1 with tick := 1, events := [⟨2, 0, 0, 0, 0, 0, 0, 0, 0⟩] }).dev with events := [] },
    fits (by decide +kernel), by decide +kernel, by decide +kernel, by decide +kernel, by decide +kernel, by decide +kernel, 0, 0,
    (devWrite { (tAnd id fun d => { rset (tHbm d) .cmdEvtCtl 0 0 0 57 57 1 with tick := 1, events := [⟨2, 0, 0, 0, 0, 0, 0, 0, 0⟩] }).dev with events := [] } 0 (eventBytes true false ⟨2,
    0, 0, 0, 0, 0, 0, 0, 0⟩)).1, .hbm 0 0 0, by and_intros <;> decide +kernel⟩,
   ⟨3, tAnd id fun d => rset (rset d .cmdEvtPtr 0 0 0 63 32 1) .cmdEvtPtr 0 0 0 31 0 3, fits (by decide +kernel), by decide +kernel, 1, 3, by and_intros <;> decide +kernel⟩,
   ⟨4, tAnd id fun d => rset (rset d .cmdEvtPtr 0 0 0 63 32 1) .cmdEvtPtr 0 0 0 31 0 3, fits (by decide +kernel), by decide +kernel, 1, 3, by and_intros <;> decide +kernel⟩⟩

theorem test_meets_PlacementAndContexts :
    (∃ (s : State), ∃ p q x y im c b h, Fits .dispatchTick s ∧ Tidy s.dev ∧ s.dev.sched.dispatched ≠ some s.dev.tick ∧ halted s.dev 0 = false ∧
      s.dev.parcels = [(p, q)] ∧ q.state ≠ 0 ∧ q.plumb = false ∧ (∀ e ∈ s.dev.chans, e.2.noticeDue = false) ∧ waitingParts s.dev p = [x] ∧
      x.resume = none ∧ (∀ z : CoreId, z.core < 144 → (TagHeld s.dev x.chan x.part z ↔ h = some z)) ∧ PlacedOn s.dev (parcelCores s.dev q) h c ∧
      findCmd s.dev x.chan x.num = some y ∧ y.image = some im ∧ x.part < 32 ∧ (getChan s.dev x.chan).parcelIdx = p ∧ b = BitVec.ofNat 32 (2 ^ x.part)) ∧
    (∃ (s : State), ∃ p q x c, Fits .dispatchTick s ∧ Tidy s.dev ∧ s.dev.sched.dispatched ≠ some s.dev.tick ∧ halted s.dev 0 = false ∧
      s.dev.parcels = [(p, q)] ∧ q.state ≠ 0 ∧ q.plumb = false ∧ (∀ e ∈ s.dev.chans, e.2.noticeDue = false) ∧ waitingParts s.dev p = [x] ∧
      x.resume = none ∧ (∀ z ∈ parcelCores s.dev q, coreFree s.dev z = false) ∧ q.ctx ≠ 0 ∧ q.tenants = 0 ∧ (getCore s.dev c).held = none ∧
      Victim s.dev (parcelCores s.dev q) x.prio c) ∧
    (∃ c, ∃ (s : State), Fits (.coreStopped c) s ∧ Tidy s.dev ∧ (getCore s.dev c).stopping = true ∧ (getCore s.dev c).sched = 1 ∧
      partOver (getCore s.dev c) = false ∧ coreStopped (getCore s.dev c) = true) ∧
    (∃ c, ∃ (s : State), ∃ r, Fits (.contextImageWritten c) s ∧ Tidy s.dev ∧ (getCore s.dev c).w.part = some r ∧ (getCore s.dev c).sched = 2 ∧
      extentBusy s.dev c.die (contextAddr s.dev r.parcel c) (contextBytes (getCore s.dev c).w r.image) = false) ∧
    (∃ c, ∃ (s : State), ∃ h r a n e, Fits (.contextImageRestored c) s ∧ Tidy s.dev ∧ (getCore s.dev c).held = some h ∧ h.w.part = some r ∧
      (getCore s.dev c).sched = 3 ∧ a = contextAddr s.dev r.parcel c ∧ n = contextBytes h.w r.image ∧ extentBusy s.dev c.die a n = false ∧ ∃ b,
      devReadAll s.dev a n = (e, .ok b) ∧ lanesOf (getCore s.dev c) = h.lanes ∧ (∀ u, u < 4 → (tget Cube.empty h.w.cubes u).head = none)) ∧
    (∃ c, ∃ (s : State), ∃ h r a n e, Fits (.contextImageRestored c) s ∧ Tidy s.dev ∧ (getCore s.dev c).held = some h ∧ h.w.part = some r ∧
      (getCore s.dev c).sched = 3 ∧ a = contextAddr s.dev r.parcel c ∧ n = contextBytes h.w r.image ∧ extentBusy s.dev c.die a n = false ∧ ∃ y,
      devReadAll s.dev a n = (e, y) ∧ ((∃ f, y = .error f) ∨ r.plumb = true ∧ lanesOf (getCore s.dev c) ≠ h.lanes)) ∧
    (∃ c, ∃ (s : State), Fits (.tagValidClear c) s) :=
  ⟨⟨tWait, 0, { Parcel.empty with state := 1, lo := 1 }, ⟨0, 0, 0, 0, 0, none⟩, { tCmd 1 with started := true, acted := true, place := 1, image := some ⟨0, 8, 0, 0, 0, 0⟩ },
    ⟨0, 8, 0, 0, 0, 0⟩, tc, 1, none, fits (by decide +kernel), by unfold Tidy Rising; decide +kernel, by decide +kernel, by decide +kernel,
    by decide +kernel, by decide +kernel, by decide +kernel, (by decide +kernel), by decide +kernel, by decide +kernel,
    fun z _ => ⟨fun h => absurd h (tWait_tags z), fun h => nomatch h⟩, tWait_placed, by and_intros <;> decide +kernel⟩,
   ⟨tVict, 0, { Parcel.empty with state := 1, lo := 1, ctx := 64 }, ⟨0, 0, 0, 3, 0, none⟩, tc, fits (by decide +kernel),
    by unfold Tidy Rising; decide +kernel, by decide +kernel, by decide +kernel, by decide +kernel, by decide +kernel, by decide +kernel,
    (by decide +kernel), by decide +kernel, by decide +kernel, by decide +kernel, by decide +kernel, by decide +kernel, (by decide +kernel), tVict_victim⟩,
   ⟨tc, tAnd id fun d => { d with cores := [(0, { Core.idle with w := tWork, sched := 1, stopping := true })] }, fits (by decide +kernel),
    by unfold Tidy Rising; decide +kernel, by and_intros <;> decide +kernel⟩,
   ⟨tc, tAnd id fun d => { d with cores := [(0, { Core.idle with w := tWork, sched := 2 })] }, tPart, fits (by decide +kernel),
    by unfold Tidy Rising; decide +kernel, by and_intros <;> decide +kernel⟩,
   ⟨tc, tAnd id fun d => { d with cores := [(0, { Core.idle with w := Work.empty, sched := 3, held := some ⟨{ tWork with crews := [] }, 64, 0, 0⟩ })], parcels := [(0, { Parcel.empty with ctx := storeAddr tc 0 })] },
    ⟨{ tWork with crews := [] }, 64, 0, 0⟩, tPart, _, _, (devReadAll (tAnd id fun d => { d with cores := [(0, { Core.idle with w := Work.empty, sched := 3, held := some ⟨{ tWork with crews := [] }, 64, 0, 0⟩ })], parcels := [(0, { Parcel.empty with ctx := storeAddr tc 0 })] }).dev (storeAddr tc 0) 38464).1,
    fits (by decide +kernel), by unfold Tidy Rising; decide +kernel, by decide +kernel, by decide +kernel, by decide +kernel, rfl, rfl,
    by decide +kernel, tBytes (devReadAll (tAnd id fun d => { d with cores := [(0, { Core.idle with w := Work.empty, sched := 3, held := some ⟨{ tWork with crews := [] }, 64, 0, 0⟩ })], parcels := [(0, { Parcel.empty with ctx := storeAddr tc 0 })] }).dev (storeAddr tc 0) 38464).2,
    read_ok (by decide +kernel), by and_intros <;> decide +kernel⟩,
   ⟨tc, tAnd id fun d => { d with cores := [(0, { Core.idle with w := Work.empty, sched := 3, held := some ⟨{ tWork with crews := [], part := some { tPart with plumb := true } }, 48, 0, 0⟩ })] },
    ⟨{ tWork with crews := [], part := some { tPart with plumb := true } }, 48, 0, 0⟩, { tPart with plumb := true }, _, _,
    (tAnd id fun d => { d with cores := [(0, { Core.idle with w := Work.empty, sched := 3, held := some ⟨{ tWork with crews := [], part := some { tPart with plumb := true } }, 48, 0, 0⟩ })] }).dev,
    fits (by decide +kernel), by unfold Tidy Rising; decide +kernel, by decide +kernel, by decide +kernel, by decide +kernel, rfl, rfl,
    by decide +kernel, .error .addressAbsent, by decide +kernel, .inr (by decide +kernel)⟩,
   ⟨tc, t0, fits (by decide +kernel)⟩⟩

theorem test_meets_SwapsRebuildsAndSchedule :
    (∃ p tn, ∃ (s : State), ∃ q, Fits (.tenantSwap p tn) s ∧ q = getParcel s.dev p ∧ q.state ≠ 0 ∧ tn < q.tenants ∧ q.swapping = none ∧
      q.occupant ≠ some tn ∧ tenantWaits s.dev p tn = true ∧ occupantIdle s.dev p = true) ∧
    (∃ p tn, ∃ (s : State), ∃ q, Fits (.swapComplete p) s ∧ Tidy s.dev ∧ q = getParcel s.dev p ∧ q.swapping = some tn ∧ swapBusy s.dev q tn = false) ∧
    (∃ die, ∃ (s : State), Fits (.pclRebuildSet die) s ∧ (dieOwned s.dev die = true ∨ pkgReady s.dev = false)) ∧
    (∃ die, ∃ (s : State), Fits (.pclRebuildSet die) s ∧ dieOwned s.dev die = false ∧ pkgReady s.dev = true ∧ rebuilding s.dev die = false) ∧
    (∃ die, ∃ (s : State), Fits (.pclRebuildSet die) s ∧ dieOwned s.dev die = false ∧ pkgReady s.dev = true ∧ rebuilding s.dev die = true) ∧
    (∃ die, ∃ (s : State), Fits (.rebuildMapoutDone die) s ∧ Tidy s.dev ∧ rfld s.dev .pclRebuild die 0 0 1 1 = 1) ∧
    (∃ die, ∃ (s : State), Fits (.pclRebuildClear die) s) ∧
    (∃ (s : State), Fits .scheduleSlotBoundary s ∧ schedOn s.dev = true ∧ s.dev.sched.running = false) ∧
    (∃ (s : State), Fits .scheduleSlotBoundary s ∧ schedOn s.dev = true ∧ s.dev.sched.running = true ∧ s.dev.sched.slotEnd ≤ s.dev.tick ∧
      (∀ e ∈ s.dev.chans, e.2.prio ≠ 3)) ∧
    (∃ (s : State), ∃ ch x, Fits .scheduleSlotBoundary s ∧ Tidy s.dev ∧ Rising s.dev.chans ∧ schedOn s.dev = true ∧ s.dev.sched.running = true ∧
      s.dev.sched.slotEnd ≤ s.dev.tick ∧ slotFld s.dev 24 24 = 1 ∧ slotFld s.dev 39 32 = ch ∧ (getChan s.dev ch).prio = 3 ∧
      (getChan s.dev ch).cmds = [x] ∧ x.acted = true ∧ x.running ≠ 0 ∧ x.overrun = false ∧ evtRingFull s.dev = false) ∧
    (∃ (s : State), Fits .schSwitch s) :=
  ⟨⟨0, 1, tAnd id fun d => { tChan { Channel.empty with state := 1, tenant := 1, cmds := [tCmd 1], image := some ⟨0, 512, 0, 0, 0, 0⟩ } d with parcels := [(0, { Parcel.empty with state := 1, tenants := 2, occupant := some 0 })] },
    { Parcel.empty with state := 1, tenants := 2, occupant := some 0 }, fits (by decide +kernel), by and_intros <;> decide +kernel⟩,
   ⟨0, 1, tAnd id fun d => { d with parcels := [(0, { Parcel.empty with state := 1, tenants := 2, occupant := some 0, swapping := some 1 })] },
    { Parcel.empty with state := 1, tenants := 2, occupant := some 0, swapping := some 1 }, fits (by decide +kernel),
    by unfold Tidy Rising; decide +kernel, by and_intros <;> decide +kernel⟩,
   ⟨7, t0, fits (by decide +kernel), by decide +kernel⟩,
   ⟨7, tAnd id fun d => rset d .abwTri 0 0 0 24 24 1, fits (by decide +kernel), by and_intros <;> decide +kernel⟩,
   ⟨7, tAnd id fun d => rset (rset d .abwTri 0 0 0 24 24 1) .pclRebuild 7 0 0 0 0 1, fits (by decide +kernel), by and_intros <;> decide +kernel⟩,
   ⟨0, tAnd id fun d => rset d .pclRebuild 0 0 0 1 1 1, fits (by decide +kernel), by unfold Tidy Rising; decide +kernel, by decide +kernel⟩,
   ⟨7, t0, fits (by decide +kernel)⟩,
   ⟨tAnd id fun d => rset d .schCtl 0 0 0 0 0 1, fits (by decide +kernel), by and_intros <;> decide +kernel⟩,
   ⟨tAnd id fun d => { rset d .schCtl 0 0 0 0 0 1 with sched := { Dev.reset.sched with running := true } }, fits (by decide +kernel), by and_intros <;> decide +kernel⟩,
   ⟨tAnd id fun d => { rset (rset d .schCtl 0 0 0 0 0 1) .schSlot 0 0 0 24 24 1 with chans := [(0, { Channel.empty with state := 1, prio := 3, cmds := [{ tCmd 1 with started := true, acted := true, running := 1 }] })], sched := { Dev.reset.sched with running := true } },
    0, { tCmd 1 with started := true, acted := true, running := 1 }, fits (by decide +kernel), by unfold Tidy Rising; decide +kernel,
    (by unfold Rising; decide +kernel), by and_intros <;> decide +kernel⟩,
   ⟨t0, fits (by decide +kernel)⟩⟩

theorem test_meets_LinkPorts :
    (∃ die p, ∃ (s : State), Fits (.zlkTrain die p) s ∧ (pkgReady s.dev = false ∨ zlkId s.dev = 0 ∨ zlkId s.dev = 0xFFFF)) ∧
    (∃ die p, ∃ (s : State), Fits (.zlkTrain die p) s ∧ pkgReady s.dev = true ∧ zlkId s.dev ≠ 0 ∧ zlkId s.dev ≠ 0xFFFF ∧ portState s.dev die p ≠ 1 ∧
      portState s.dev die p ≠ 3) ∧
    (∃ die p, ∃ (s : State), Fits (.zlkStop die p) s ∧ portState s.dev die p = 0) ∧
    (∃ die p, ∃ (s : State), Fits (.zlkStop die p) s ∧ portState s.dev die p ≠ 0) ∧
    (∃ die p x, ∃ (s : State), ∃ common half, Fits (.portTrainingDone die p x) s ∧ portState s.dev die p = 1 ∧
      common = rfld s.dev .zlkCtl die 0 p 3 2 &&& x.peerVersions.toNat ∧ half = rfld s.dev .zlkCtl die 0 p 4 4 ∧ common ≠ 0 ∧ (x.lower = true ∧
      x.upper = true ∨ half = 1 ∧ (x.lower = true ∨ x.upper = true))) ∧
    (∃ die p x, ∃ (s : State), ∃ common half, Fits (.portTrainingDone die p x) s ∧ portState s.dev die p = 1 ∧
      common = rfld s.dev .zlkCtl die 0 p 3 2 &&& x.peerVersions.toNat ∧ half = rfld s.dev .zlkCtl die 0 p 4 4 ∧ (common = 0 ∨ (x.lower = false ∧
      x.upper = false) ∨ (half = 0 ∧ (x.lower = false ∨ x.upper = false)))) ∧
    (∃ die p lanes, ∃ (s : State), ∃ bad, Fits (.laneFailure die p lanes) s ∧ portState s.dev die p = 2 ∧ bad = lanes.toNat &&& activeLanes s.dev die p ∧
      (bad = 0 ∨ rfld s.dev .zlkStatus die 0 p 4 4 = 0 ∧ (bad &&& 0x0F = 0 ∨ bad &&& 0xF0 = 0) ∧ rfld s.dev .zlkCtl die 0 p 4 4 = 1)) ∧
    (∃ die p lanes, ∃ (s : State), ∃ bad, Fits (.laneFailure die p lanes) s ∧ portState s.dev die p = 2 ∧ bad = lanes.toNat &&& activeLanes s.dev die p ∧
      bad ≠ 0 ∧ (rfld s.dev .zlkStatus die 0 p 4 4 ≠ 0 ∨ (bad &&& 0x0F ≠ 0 ∧ bad &&& 0xF0 ≠ 0) ∨ rfld s.dev .zlkCtl die 0 p 4 4 = 0)) ∧
    (∃ die p, ∃ (s : State), Fits (.portRetrainDone die p true) s ∧ portState s.dev die p = 3) ∧
    (∃ die p, ∃ (s : State), Fits (.portRetrainDone die p false) s ∧ portState s.dev die p = 3) ∧
    (∃ die p, ∃ (s : State), Fits (.zlkLaneWindowEnd die p) s ∧ die < 8 ∧ p < 2 ∧ s.dev.tick % 65536 = 0) ∧
    (∃ die p x, ∃ (s : State), ∃ k bad, Fits (.flitReceive die p x) s ∧ portState s.dev die p = 2 ∧ PortQuiet die p s.dev ∧ k = getPort s.dev die p ∧
      (∀ v, v < 8 → (k.incOn v).held = 0) ∧ k.crDue = [] ∧ (∀ i,
      i < 8 → tget 0 k.laneErrs i + x.lanes.getD i 0 ≤ rfld s.dev .zlkCtl die 0 p 39 32 * 1024) ∧
      (bad = (x.errors.filter fun n => decide (15 < n)).length) ∧ 0 < bad ∧ (∀ i, i < 10 → x.good i = false)) ∧
    (∃ die p x, ∃ (s : State), ∃ k bad, Fits (.flitReceive die p x) s ∧ portState s.dev die p = 2 ∧ PortQuiet die p s.dev ∧ k = getPort s.dev die p ∧
      (∀ v, v < 8 → (k.incOn v).held = 0) ∧ k.crDue = [] ∧ (∀ i,
      i < 8 → tget 0 k.laneErrs i + x.lanes.getD i 0 ≤ rfld s.dev .zlkCtl die 0 p 39 32 * 1024) ∧
      (bad = (x.errors.filter fun n => decide (15 < n)).length) ∧ ∃ f rest, bad = 0 ∧ x.flits = f :: rest ∧ (∀ g ∈ rest, g.sequenced = false ∧
      g.nak = false) ∧ f.nak = false ∧ f.sequenced = true ∧ f.fseq ≠ k.rx + 1) ∧
    (∃ die p x, ∃ (s : State), ∃ k bad, Fits (.flitReceive die p x) s ∧ portState s.dev die p = 2 ∧ PortQuiet die p s.dev ∧ k = getPort s.dev die p ∧
      (∀ v, v < 8 → (k.incOn v).held = 0) ∧ k.crDue = [] ∧ (∀ i,
      i < 8 → tget 0 k.laneErrs i + x.lanes.getD i 0 ≤ rfld s.dev .zlkCtl die 0 p 39 32 * 1024) ∧
      (bad = (x.errors.filter fun n => decide (15 < n)).length) ∧ ∃ f rest, bad = 0 ∧ x.flits = f :: rest ∧ (∀ g ∈ rest, g.sequenced = false ∧
      g.nak = false) ∧ f.nak = false ∧ f.sequenced = true ∧ f.fseq = k.rx + 1 ∧ f.ftype ≠ 1 ∧ fld f.msg 15 0 ≠ zlkId s.dev) ∧
    (∃ die p x, ∃ (s : State), ∃ k bad, Fits (.flitReceive die p x) s ∧ portState s.dev die p = 2 ∧ PortQuiet die p s.dev ∧ k = getPort s.dev die p ∧
      (∀ v, v < 8 → (k.incOn v).held = 0) ∧ k.crDue = [] ∧ (∀ i,
      i < 8 → tget 0 k.laneErrs i + x.lanes.getD i 0 ≤ rfld s.dev .zlkCtl die 0 p 39 32 * 1024) ∧
      (bad = (x.errors.filter fun n => decide (15 < n)).length) ∧ ∃ f rest, bad = 0 ∧ x.flits = f :: rest ∧ (∀ g ∈ rest, g.sequenced = false ∧
      g.nak = false) ∧ f.nak = false ∧ f.sequenced = true ∧ ∃ n c y st, f.fseq = k.rx + 1 ∧ f.ftype ≠ 1 ∧ n < 256 ∧ c < 2 ^ 16 ∧
      f.msg = BitVec.ofNat 64 (zlkId s.dev + 2 ^ 16 + 2 ^ 20 * (512 * die + 256 * p + n) + 2 ^ 32 * c) ∧ findXfer s.dev die p n = some y ∧
      y.chunk c = some st) ∧
    (∃ die p x, ∃ (s : State), ∃ k bad, Fits (.flitReceive die p x) s ∧ portState s.dev die p = 2 ∧ PortQuiet die p s.dev ∧ k = getPort s.dev die p ∧
      (∀ v, v < 8 → (k.incOn v).held = 0) ∧ k.crDue = [] ∧ (∀ i,
      i < 8 → tget 0 k.laneErrs i + x.lanes.getD i 0 ≤ rfld s.dev .zlkCtl die 0 p 39 32 * 1024) ∧
      (bad = (x.errors.filter fun n => decide (15 < n)).length) ∧ ∃ f rest, bad = 0 ∧ x.flits = f :: rest ∧ (∀ g ∈ rest, g.sequenced = false ∧
      g.nak = false) ∧ f.nak = false ∧ f.sequenced = true ∧ ∃ h, f.fseq = k.rx + 1 ∧ f.ftype = 1 ∧ f.msgV = false ∧ k.incOn f.vc = Incoming.idle ∧
      h = headerOf f.body ∧ 160 < h.chunkLen 0 ∧ (∀ b ∈ s.dev.inbound, b.h ≠ h) ∧ k.replay = []) ∧
    (∃ die p x, ∃ (s : State), ∃ k bad, Fits (.flitReceive die p x) s ∧ portState s.dev die p = 2 ∧ PortQuiet die p s.dev ∧ k = getPort s.dev die p ∧
      (∀ v, v < 8 → (k.incOn v).held = 0) ∧ k.crDue = [] ∧ (∀ i,
      i < 8 → tget 0 k.laneErrs i + x.lanes.getD i 0 ≤ rfld s.dev .zlkCtl die 0 p 39 32 * 1024) ∧
      (bad = (x.errors.filter fun n => decide (15 < n)).length) ∧ ∃ f rest, bad = 0 ∧ x.flits = f :: rest ∧ (∀ g ∈ rest, g.sequenced = false ∧
      g.nak = false) ∧ f.nak = false ∧ f.sequenced = true ∧ ∃ h, f.fseq = k.rx + 1 ∧ f.ftype = 1 ∧ f.msgV = false ∧ k.incOn f.vc = Incoming.idle ∧
      h = headerOf f.body ∧ h.length = 0 ∧ f.dst ≠ zlkId s.dev ∧ k.replay = []) ∧
    (∃ v, ∃ (s : State), Fits (.zlkIdWrite v) s ∧ (∀ die p, die < s.dev.part.dies → p < 2 → portState s.dev die p = 0)) ∧
    (∃ v, ∃ (s : State), Fits (.zlkIdWrite v) s ∧ (∃ die p, die < s.dev.part.dies ∧ p < 2 ∧ portState s.dev die p ≠ 0)) ∧
    (∃ die p v, ∃ (s : State), ∃ sum, Fits (.zlkVcCfgWrite die p v) s ∧ (sum = ((List.range 8).map fun n => fld v (8 * n + 7) (8 * n)).sum) ∧
      portState s.dev die p = 0 ∧ sum ≤ 256) ∧
    (∃ die p v, ∃ (s : State), ∃ sum, Fits (.zlkVcCfgWrite die p v) s ∧ (sum = ((List.range 8).map fun n => fld v (8 * n + 7) (8 * n)).sum) ∧
      (portState s.dev die p ≠ 0 ∨ 256 < sum)) :=
  ⟨⟨7, 1, t0, fits (by decide +kernel), by decide +kernel⟩,
   ⟨7, 1, tAnd id fun d => rset (rset d .abwTri 0 0 0 24 24 1) .zlkId 0 0 0 15 0 0xFFFE, fits (by decide +kernel), by and_intros <;> decide +kernel⟩,
   ⟨7, 1, t0, fits (by decide +kernel), by decide +kernel⟩,
   ⟨0, 1, tAnd id fun d => rset (d) .zlkStatus 0 0 1 2 0 4, fits (by decide +kernel), by decide +kernel⟩,
   ⟨0, 1, ⟨true, true, 3, 5, 0⟩, tAnd id fun d => rset d .zlkStatus 0 0 1 2 0 1, _, _, fits (by decide +kernel), by and_intros <;> first | decide +kernel | rfl⟩,
   ⟨0, 1, ⟨true, false, 0, 5, 0⟩, tAnd id fun d => rset d .zlkStatus 0 0 1 2 0 1, _, _, fits (by decide +kernel), by and_intros <;> first | decide +kernel | rfl⟩,
   ⟨0, 1, 0xF0, tAnd id fun d => rset (rset (d) .zlkStatus 0 0 1 2 0 2) .zlkCtl 0 0 1 4 4 1, 0xF0, fits (by decide +kernel), by and_intros <;> decide +kernel⟩,
   ⟨0, 1, 0x18, tAnd id fun d => rset (d) .zlkStatus 0 0 1 2 0 2, 0x18, fits (by decide +kernel), by and_intros <;> decide +kernel⟩,
   ⟨0, 1, tAnd id fun d => rset (d) .zlkStatus 0 0 1 2 0 3, fits (by decide +kernel), by decide +kernel⟩,
   ⟨0, 1, tAnd id fun d => rset (d) .zlkStatus 0 0 1 2 0 3, fits (by decide +kernel), by decide +kernel⟩,
   ⟨7, 1, t0, fits (by decide +kernel), by and_intros <;> decide +kernel⟩,
   ⟨0, 1, tGroup 16 (tFlit 0), tAnd id fun d => rset d .zlkStatus 0 0 1 2 0 2, _, _, fits (by decide +kernel), by decide +kernel,
    by unfold PortQuiet; decide +kernel, by and_intros <;> first | decide +kernel | rfl⟩,
   ⟨0, 1, tGroup 15 (tFlit 65), tAnd id fun d => rset d .zlkStatus 0 0 1 2 0 2, _, _, fits (by decide +kernel), by decide +kernel,
    by unfold PortQuiet; decide +kernel, rfl, by decide +kernel, by decide +kernel, by decide +kernel, rfl, tFlit 65, List.replicate 9 (tFlit 0), by and_intros <;> first | decide +kernel | rfl⟩,
   ⟨0, 1, tGroup 15 (tFlit 0x10000001000000020), tAnd id fun d => rset d .zlkStatus 0 0 1 2 0 2, _, _, fits (by decide +kernel), by decide +kernel,
    by unfold PortQuiet; decide +kernel, rfl, by decide +kernel, by decide +kernel, by decide +kernel, rfl, tFlit 0x10000001000000020,
    List.replicate 9 (tFlit 0), by and_intros <;> first | decide +kernel | rfl⟩,
   ⟨0, 1, tGroup 15 (tFlit 0x105100000000001000000020), tAnd id fun d => { rset d .zlkStatus 0 0 1 2 0 2 with xfers := [tXfer 1 ⟨false, 0, 0, none, false⟩] },
    _, _, fits (by decide +kernel), by decide +kernel, by unfold PortQuiet; decide +kernel, rfl, by decide +kernel, by decide +kernel,
    by decide +kernel, rfl, tFlit 0x105100000000001000000020, List.replicate 9 (tFlit 0), by decide +kernel, rfl, by decide +kernel,
    by decide +kernel, by decide +kernel, 5, 0, tXfer 1 ⟨false, 0, 0, none, false⟩, ⟨false, 0, 0, none, false⟩, by and_intros <;> decide +kernel⟩,
   ⟨0, 1, tGroup 15 ⟨41, List.replicate 17 0 ++ 0x20 :: List.replicate 222 0⟩, tAnd id fun d => rset d .zlkStatus 0 0 1 2 0 2, _, _,
    fits (by decide +kernel), by decide +kernel, by unfold PortQuiet; decide +kernel, rfl, by decide +kernel, by decide +kernel, by decide +kernel,
    rfl, ⟨41, List.replicate 17 0 ++ 0x20 :: List.replicate 222 0⟩, List.replicate 9 (tFlit 0), by decide +kernel, rfl, by decide +kernel,
    by decide +kernel, by decide +kernel, _, by and_intros <;> first | decide +kernel | rfl⟩,
   ⟨0, 1, tGroup 15 ⟨1407374883553321, List.replicate 240 0⟩, tAnd id fun d => rset d .zlkStatus 0 0 1 2 0 2, _, _, fits (by decide +kernel),
    by decide +kernel, by unfold PortQuiet; decide +kernel, rfl, by decide +kernel, by decide +kernel, by decide +kernel, rfl, ⟨1407374883553321,
    List.replicate 240 0⟩, List.replicate 9 (tFlit 0), by decide +kernel, rfl, by decide +kernel, by decide +kernel, by decide +kernel, _, by and_intros <;> first | decide +kernel | rfl⟩,
   ⟨1, t0, fits (by decide +kernel), fun die p hd hp => (by decide +kernel : ∀ die < 8, ∀ p < 2, portState t0.dev die p = 0) die hd p hp⟩,
   ⟨1, tAnd id fun d => rset (d) .zlkStatus 7 0 1 2 0 4, fits (by decide +kernel), ⟨7, 1, by decide +kernel⟩⟩,
   ⟨7, 1, 256, t0, _, fits (by decide +kernel), by and_intros <;> first | decide +kernel | rfl⟩,
   ⟨7, 1, 0xFFFF, t0, _, fits (by decide +kernel), by and_intros <;> first | decide +kernel | rfl⟩⟩

theorem test_meets_TransfersAndCollectives :
    (∃ die p tag chunk last, ∃ (s : State), Fits (.linkAck die p tag chunk last) s ∧ findXfer s.dev die p tag = none) ∧
    (∃ die p tag chunk, ∃ (s : State), ∃ x st, Fits (.linkAck die p tag chunk false) s ∧ PortQuiet die p s.dev ∧ findXfer s.dev die p tag = some x ∧
      x.chunk chunk = some st) ∧
    (∃ die p tag chunk, ∃ (s : State), ∃ x st k l, Fits (.linkAck die p tag chunk true) s ∧ PortQuiet die p s.dev ∧ findXfer s.dev die p tag = some x ∧
      x.kind = 0 ∧ x.chunk chunk = some st ∧ (x.setChunk chunk { st with acked := true, due := false }).allAcked = true ∧
      findLop s.dev x.owner = some (k, l) ∧ StatusReady k l s.dev) ∧
    (∃ die p tag chunk reason, ∃ (s : State), ∃ x k l, Fits (.linkNak die p tag chunk reason) s ∧ PortQuiet die p s.dev ∧
      findXfer s.dev die p tag = some x ∧ x.kind = 0 ∧ reason ∈ [3, 4, 5] ∧ findLop s.dev x.owner = some (k, l) ∧ StatusReady k l s.dev) ∧
    (∃ die p tag chunk, ∃ (s : State), ∃ x st, Fits (.linkNak die p tag chunk 2) s ∧ PortQuiet die p s.dev ∧ findXfer s.dev die p tag = some x ∧
      x.chunk chunk = some st) ∧
    (∃ i die p tag chunk, ∃ (s : State), ∃ x st e b, i ∈ [Instr.linkNak die p tag chunk 1, .ackTimeout die p tag chunk] ∧ Fits i s ∧
      PortQuiet die p s.dev ∧ findXfer s.dev die p tag = some x ∧ x.chunk chunk = some st ∧ st.resends < rfld s.dev .zlkCtl die 0 p 15 8 ∧
      st.acked = false ∧ st.due = false ∧ st.notReady = none ∧ chunkBusy s.dev x chunk = false ∧ portState s.dev die p = 2 ∧
      st.sent + rfld s.dev .zlkCtl die 0 p 31 16 ≤ s.dev.tick ∧ chunkBytes s.dev x chunk = (e, .ok b) ∧ chunk < x.next) ∧
    (∃ die p tag chunk, ∃ (s : State), ∃ x st w e b, Fits (.notReadyResend die p tag chunk) s ∧ PortQuiet die p s.dev ∧ chunkBusy s.dev x chunk = false ∧
      findXfer s.dev die p tag = some x ∧ x.chunk chunk = some st ∧ st.notReady = some w ∧ w + 64 ≤ s.dev.tick ∧ portState s.dev die p = 2 ∧
      chunkBytes s.dev x chunk = (e, .ok b)) ∧
    (∃ die, ∃ (s : State), ∃ l dp e, Fits (.putStart die) s ∧ halted s.dev die = false ∧ getLinks s.dev die = [l] ∧ l.phase = 2 ∧ l.isPut = true ∧
      StatusReady die l s.dev ∧ planBusy s.dev l = false ∧ planRead s.dev l = (e, .none) ∧ dp = memberPort e l.group (l.f 4 11 0) ∧
      checkPut e l ≠ .none) ∧
    (∃ die, ∃ (s : State), ∃ l dp e, Fits (.putStart die) s ∧ halted s.dev die = false ∧ getLinks s.dev die = [l] ∧ l.phase = 2 ∧ l.isPut = true ∧
      StatusReady die l s.dev ∧ planBusy s.dev l = false ∧ planRead s.dev l = (e, .none) ∧ dp = memberPort e l.group (l.f 4 11 0) ∧ ∃ k,
      checkPut e l = .none ∧ freeXfer s.dev dp.1 dp.2 = some k ∧ l.f 3 33 0 = 0 ∧ l.f 0 15 15 = 0) ∧
    (∃ die, ∃ (s : State), ∃ l dp e, Fits (.putStart die) s ∧ halted s.dev die = false ∧ getLinks s.dev die = [l] ∧ l.phase = 2 ∧ l.isPut = true ∧
      StatusReady die l s.dev ∧ planBusy s.dev l = false ∧ planRead s.dev l = (e, .none) ∧ dp = memberPort e l.group (l.f 4 11 0) ∧ ∃ k,
      checkPut e l = .none ∧ freeXfer s.dev dp.1 dp.2 = some k ∧ l.f 3 33 0 ≠ 0 ∧ portState s.dev dp.1 dp.2 = 3 ∧ (∀ x ∈ s.dev.xfers, x.slot < 256)) ∧
    (∃ die, ∃ (s : State), ∃ l dp e, Fits (.putStart die) s ∧ halted s.dev die = false ∧ getLinks s.dev die = [l] ∧ l.phase = 2 ∧ l.isPut = true ∧
      StatusReady die l s.dev ∧ planBusy s.dev l = false ∧ planRead s.dev l = (e, .none) ∧ dp = memberPort e l.group (l.f 4 11 0) ∧ ∃ k,
      checkPut e l = .none ∧ freeXfer s.dev dp.1 dp.2 = some k ∧ ∃ src e2 b, l.f 3 33 0 ≤ 4096 ∧ (l.f 3 33 0 ≠ 0 ∨ l.f 0 15 15 = 1) ∧
      portState s.dev dp.1 dp.2 = 2 ∧ PortQuiet dp.1 dp.2 s.dev ∧ portOpen s.dev dp.1 dp.2 < 512 ∧ src = BitVec.ofNat 52 (l.f 1 51 0) ∧
      extentBusy s.dev dp.1 src (l.f 3 33 0) = false ∧ devReadAll e src (l.f 3 33 0) = (e2, .ok b)) ∧
    (∃ die p h chunk bytes crc, ∃ (s : State), Fits (.putChunkReceive die p h chunk bytes crc) s ∧ portState s.dev die p = 2 ∧ PortQuiet die p s.dev ∧
      chunkWaits s.dev die h chunk bytes.length = false ∧ h.dstZid.toNat ≠ zlkId s.dev) ∧
    (∃ die p h chunk bytes crc, ∃ (s : State), Fits (.putChunkReceive die p h chunk bytes crc) s ∧ portState s.dev die p = 2 ∧ PortQuiet die p s.dev ∧
      chunkWaits s.dev die h chunk bytes.length = false ∧ h.dstZid.toNat = zlkId s.dev ∧ groupOfTag s.dev h.groupTag = none) ∧
    (∃ die p h chunk bytes crc, ∃ (s : State), Fits (.putChunkReceive die p h chunk bytes crc) s ∧ portState s.dev die p = 2 ∧ PortQuiet die p s.dev ∧
      chunkWaits s.dev die h chunk bytes.length = false ∧ ∃ g gr k e, h.dstZid.toNat = zlkId s.dev ∧ groupOfTag s.dev h.groupTag = some g ∧
      gr = getGroup s.dev g ∧ k = chunkSize h.chunk16 ∧ gr.inBase.toNat ≤ h.dstAddr.toNat + chunk * k ∧
      h.dstAddr.toNat + chunk * k + bytes.length ≤ gr.inBase.toNat + gr.inSize ∧ (memberOf s.dev g h.srcZid.toNat).isSome = true ∧ h.kind = 0 ∧
      devWriteAll s.dev (plus h.dstAddr (chunk * k)) bytes = (e, .ok ()) ∧ crc32c bytes ≠ crc) ∧
    (∃ die p h chunk bytes crc, ∃ (s : State), Fits (.putChunkReceive die p h chunk bytes crc) s ∧ portState s.dev die p = 2 ∧ PortQuiet die p s.dev ∧
      chunkWaits s.dev die h chunk bytes.length = false ∧ ∃ g gr k e, h.dstZid.toNat = zlkId s.dev ∧ groupOfTag s.dev h.groupTag = some g ∧
      gr = getGroup s.dev g ∧ k = chunkSize h.chunk16 ∧ gr.inBase.toNat ≤ h.dstAddr.toNat + chunk * k ∧
      h.dstAddr.toNat + chunk * k + bytes.length ≤ gr.inBase.toNat + gr.inSize ∧ (memberOf s.dev g h.srcZid.toNat).isSome = true ∧ h.kind = 0 ∧
      devWriteAll s.dev (plus h.dstAddr (chunk * k)) bytes = (e, .ok ()) ∧ crc32c bytes = crc ∧ (∃ j, j < cdiv h.length.toNat k ∧ j ≠ chunk ∧
      tget false (inboundOf s.dev h).got j = false)) ∧
    (∃ die p h chunk bytes crc, ∃ (s : State), Fits (.putChunkReceive die p h chunk bytes crc) s ∧ portState s.dev die p = 2 ∧ PortQuiet die p s.dev ∧
      chunkWaits s.dev die h chunk bytes.length = false ∧ ∃ g gr k e, h.dstZid.toNat = zlkId s.dev ∧ groupOfTag s.dev h.groupTag = some g ∧
      gr = getGroup s.dev g ∧ k = chunkSize h.chunk16 ∧ gr.inBase.toNat ≤ h.dstAddr.toNat + chunk * k ∧
      h.dstAddr.toNat + chunk * k + bytes.length ≤ gr.inBase.toNat + gr.inSize ∧ (memberOf s.dev g h.srcZid.toNat).isSome = true ∧ h.kind = 0 ∧
      devWriteAll s.dev (plus h.dstAddr (chunk * k)) bytes = (e, .ok ()) ∧ crc32c bytes = crc ∧ (∀ j,
      j < cdiv h.length.toNat k → j = chunk ∨ tget false (inboundOf s.dev h).got j = true) ∧ h.arriveEn = true ∧ (inboundOf s.dev h).done = false ∧
      (inboundOf s.dev h).arriving = false ∧ stakeDie h.stake < s.dev.part.dies) ∧
    (∃ die hub p op rest, ∃ (s : State), ∃ inc dx px zid tag chunk, Fits (.stakeOpApply die hub (1#4 <<< p)) s ∧ Presents die hub p op rest s.dev ∧
      op.act = .arrive inc false ∧ op.source = .link dx px zid tag chunk ∧ PortQuiet dx px s.dev ∧ stakeCheck s.dev op.stake op.parcel = .none ∧
      0 < inc) ∧
    (∃ die hub p op rest, ∃ (s : State), ∃ inc dx px zid tag chunk, Fits (.stakeOpApply die hub (1#4 <<< p)) s ∧ Presents die hub p op rest s.dev ∧
      op.act = .arrive inc false ∧ op.source = .link dx px zid tag chunk ∧ PortQuiet dx px s.dev ∧ stakeCheck s.dev op.stake op.parcel ≠ .none) ∧
    (∃ die g, ∃ (s : State), ∃ x, Fits (.collectiveStart die g) s ∧ readyColl s.dev die g = some x ∧ halted s.dev die = false ∧
      collBusy s.dev die x = false ∧ StatusReady die x s.dev ∧ x.cop ≠ 3 ∧ x.len = 0) ∧
    (∃ die g, ∃ (s : State), ∃ x, Fits (.collectiveStart die g) s ∧ readyColl s.dev die g = some x ∧ halted s.dev die = false ∧
      collBusy s.dev die x = false ∧ StatusReady die x s.dev ∧ ∃ m e f, listRead s.dev g = (m, .none) ∧ x.len ≠ 0 ∧ x.cop < 3 ∧
      (getGroup s.dev g).top = 0 ∧ (∀ y ∈ s.dev.xfers, y.owner ≠ x.op.serial) ∧ packageStage s.dev x = (e, f)) ∧
    (∃ die g, ∃ (s : State), ∃ c, Fits (.collectiveTraverse die g) s ∧ findColl s.dev die g = some c ∧ halfDone s.dev c = true ∧
      collBusy s.dev c.die c.lop = false) ∧
    (∃ die g, ∃ (s : State), ∃ c, Fits (.collectiveTraverse die g) s ∧ findColl s.dev die g = some c ∧ halfDone s.dev c = true ∧
      collBusy s.dev c.die c.lop = false ∧ ∃ m, listRead s.dev c.group = (m, .none) ∧ StatusReady c.die c.lop s.dev ∧ moreHalf s.dev c = false ∧
      nextStage s.dev c.lop (c.stage + 1) = none) ∧
    (∃ die g, ∃ (s : State), ∃ c n, Fits (.collectiveTimeout die g) s ∧ findColl s.dev die g = some c ∧ c.deadline = some n ∧ n ≤ s.dev.tick ∧
      c.lop.paused s.dev = false ∧ StatusReady c.die c.lop s.dev) ∧
    (∃ tag q z, ∃ (s : State), Fits (.linkAbort tag q z) s ∧ groupOfTag s.dev tag = none) ∧
    (∃ tag q z, ∃ (s : State), Fits (.linkAbort tag q z) s ∧ ∃ g c, groupOfTag s.dev tag = some g ∧
      (s.dev.colls.find? (fun c => decide (c.group = g) && decide (c.seq % 256 = q.toNat)) = some c) ∧ StatusReady c.die c.lop s.dev) :=
  ⟨⟨7, 1, 255, 0, false, t0, fits (by decide +kernel), by decide +kernel⟩,
   ⟨0, 0, 5, 0, tAnd id fun d => { tHbm d with xfers := [tXfer 0 ⟨false, 0, 0, none, false⟩] }, (tXfer 0 ⟨false, 0, 0, none, false⟩), ⟨false, 0, 0,
    none, false⟩, fits (by decide +kernel), by unfold PortQuiet; decide +kernel, by and_intros <;> decide +kernel⟩,
   ⟨0, 0, 5, 0, tAnd id fun d => { tHbm d with xfers := [tXfer 0 ⟨false, 0, 0, none, false⟩], links := [(0, [tPut []])] }, (tXfer 0 ⟨false, 0, 0, none,
    false⟩), ⟨false, 0, 0, none, false⟩, 0, (tPut []), fits (by decide +kernel), by unfold PortQuiet; decide +kernel, by decide +kernel,
    by decide +kernel, by decide +kernel, by decide +kernel, by decide +kernel, by unfold StatusReady; decide +kernel⟩,
   ⟨0, 0, 5, 0, 5, tAnd id fun d => { tHbm d with xfers := [tXfer 0 ⟨false, 0, 0, none, false⟩], links := [(0, [tPut []])] }, (tXfer 0 ⟨false, 0, 0,
    none, false⟩), 0, (tPut []), fits (by decide +kernel), by unfold PortQuiet; decide +kernel, by decide +kernel, by decide +kernel,
    by decide +kernel, by decide +kernel, by unfold StatusReady; decide +kernel⟩,
   ⟨0, 0, 5, 0, tAnd id fun d => { tHbm d with xfers := [tXfer 0 ⟨false, 0, 0, none, false⟩] }, (tXfer 0 ⟨false, 0, 0, none, false⟩), ⟨false, 0, 0,
    none, false⟩, fits (by decide +kernel), by unfold PortQuiet; decide +kernel, by and_intros <;> decide +kernel⟩,
   ⟨.linkNak 0 0 5 0 1, 0, 0, 5, 0,
    (tAnd id fun d => { rset (rset (rset (tHbm d) .zlkCtl 0 0 0 15 8 1) .zlkCtl 0 0 0 31 16 0) .zlkStatus 0 0 0 2 0 2 with xfers := [tXfer 0 ⟨false, 0, 0, none, false⟩], tick := 64 }),
    (tXfer 0 ⟨false, 0, 0, none, false⟩), ⟨false, 0, 0, none, false⟩,
    (chunkBytes (tAnd id fun d => { rset (rset (rset (tHbm d) .zlkCtl 0 0 0 15 8 1) .zlkCtl 0 0 0 31 16 0) .zlkStatus 0 0 0 2 0 2 with xfers := [tXfer 0 ⟨false, 0, 0, none, false⟩], tick := 64 }).dev (tXfer 0 ⟨false,
    0, 0, none, false⟩) 0).1, List.replicate 64 0, by decide +kernel, fits (by decide +kernel), by unfold PortQuiet; decide +kernel, by and_intros <;> decide +kernel⟩,
   ⟨0, 0, 5, 0,
    (tAnd id fun d => { rset (rset (rset (tHbm d) .zlkCtl 0 0 0 15 8 1) .zlkCtl 0 0 0 31 16 0) .zlkStatus 0 0 0 2 0 2 with xfers := [tXfer 0 ⟨false, 0, 0, some 0, false⟩], tick := 64 }),
    (tXfer 0 ⟨false, 0, 0, some 0, false⟩), ⟨false, 0, 0, some 0, false⟩, 0,
    (chunkBytes (tAnd id fun d => { rset (rset (rset (tHbm d) .zlkCtl 0 0 0 15 8 1) .zlkCtl 0 0 0 31 16 0) .zlkStatus 0 0 0 2 0 2 with xfers := [tXfer 0 ⟨false, 0, 0, some 0, false⟩], tick := 64 }).dev (tXfer 0 ⟨false,
    0, 0, some 0, false⟩) 0).1, List.replicate 64 0, fits (by decide +kernel), by unfold PortQuiet; decide +kernel, by and_intros <;> decide +kernel⟩,
   ⟨0, (tAnd id fun d => { tHbm d with links := [(0, [tPut []])], groups := [(0, tGroup0)] }), tPut [], _,
    (planRead (tAnd id fun d => { tHbm d with links := [(0, [tPut []])], groups := [(0, tGroup0)] }).dev (tPut [])).1, fits (by decide +kernel),
    by decide +kernel, by decide +kernel, by decide +kernel, by decide +kernel, by unfold StatusReady; decide +kernel, by and_intros <;> first | decide +kernel | rfl⟩,
   ⟨0, (tAnd id fun d => { rset (tHbm d) .zlkStatus 0 0 0 2 0 2 with links := [(0, [tPut []])], groups := [(0, tGroup0)] }), tPut [], (0, 0),
    (planRead (tAnd id fun d => { rset (tHbm d) .zlkStatus 0 0 0 2 0 2 with links := [(0, [tPut []])], groups := [(0, tGroup0)] }).dev (tPut [])).1,
    fits (by decide +kernel), by decide +kernel, by decide +kernel, by decide +kernel, by decide +kernel, by unfold StatusReady; decide +kernel,
    by decide +kernel, by decide +kernel, by decide +kernel, 0, by and_intros <;> decide +kernel⟩,
   ⟨0, (tAnd id fun d => { rset (tHbm d) .zlkStatus 0 0 0 2 0 3 with links := [(0, [tPut [0, 0, 0, 64]])], groups := [(0, tGroup0)] }), tPut [0, 0, 0,
    64], (0, 0), (planRead (tAnd id fun d => { rset (tHbm d) .zlkStatus 0 0 0 2 0 3 with links := [(0, [tPut [0, 0, 0, 64]])], groups := [(0, tGroup0)] }).dev (tPut [0,
    0, 0, 64])).1, fits (by decide +kernel), by decide +kernel, by decide +kernel, by decide +kernel, by decide +kernel,
    by unfold StatusReady; decide +kernel, by decide +kernel, by decide +kernel, by decide +kernel, 0, by and_intros <;> decide +kernel⟩,
   ⟨0, (tAnd id fun d => { rset (tHbm d) .zlkStatus 0 0 0 2 0 2 with links := [(0, [(tPut [0x8000, 0, 0, 64])])], groups := [(0, tGroup0)] }),
    (tPut [0x8000, 0, 0, 64]), (0, 0), (planRead (tAnd id fun d => { rset (tHbm d) .zlkStatus 0 0 0 2 0 2 with links := [(0, [(tPut [0x8000, 0, 0, 64])])], groups := [(0, tGroup0)] }).dev (tPut [0x8000,
    0, 0, 64])).1, fits (by decide +kernel), by decide +kernel, by decide +kernel, by decide +kernel, by decide +kernel,
    by unfold StatusReady; decide +kernel, by decide +kernel, by decide +kernel, by decide +kernel, 0, by decide +kernel, by decide +kernel, 0,
    (devReadAll (planRead (tAnd id fun d => { rset (tHbm d) .zlkStatus 0 0 0 2 0 2 with links := [(0, [(tPut [0x8000, 0, 0, 64])])], groups := [(0, tGroup0)] }).dev (tPut [0x8000,
    0, 0, 64])).1 0 64).1, List.replicate 64 0, by decide +kernel, by decide +kernel, by decide +kernel, by unfold PortQuiet; decide +kernel, by and_intros <;> decide +kernel⟩,
   ⟨0, 0, ⟨0, 1, 5, 0, false, false, 0, 8192, 0, 0, 0, 0, 0, 0⟩, 0, [1], 0, tAnd id fun d => rset (d) .zlkStatus 0 0 0 2 0 2, fits (by decide +kernel),
    by decide +kernel, by unfold PortQuiet; decide +kernel, by and_intros <;> decide +kernel⟩,
   ⟨0, 0, ⟨0, 0, 5, 0, false, false, 0, 8192, 0, 0, 0, 0, 0, 0⟩, 0, [1], 0, tAnd id fun d => rset (d) .zlkStatus 0 0 0 2 0 2, fits (by decide +kernel),
    by decide +kernel, by unfold PortQuiet; decide +kernel, by and_intros <;> decide +kernel⟩,
   ⟨0, 0, ⟨0, 0, 5, 0, false, false, 0, 8192, 0, 0, 0, 0, 0, 0⟩, 0, [1], 0, (tAnd id fun d => { rset (tHbm d) .zlkStatus 0 0 0 2 0 2 with groups := [(0, tGroup0)] }),
    fits (by decide +kernel), by decide +kernel, by unfold PortQuiet; decide +kernel, by decide +kernel, 0, tGroup0, 4096,
    (devWriteAll (tAnd id fun d => { rset (tHbm d) .zlkStatus 0 0 0 2 0 2 with groups := [(0, tGroup0)] }).dev 0 [1]).1, by and_intros <;> decide +kernel⟩,
   ⟨0, 0, ⟨0, 0, 5, 0, false, false, 0, 8192, 0, 0, 0, 0, 0, 0⟩, 0, [1], 0xA016D052,
    (tAnd id fun d => { rset (tHbm d) .zlkStatus 0 0 0 2 0 2 with groups := [(0, tGroup0)] }), fits (by decide +kernel), by decide +kernel,
    by unfold PortQuiet; decide +kernel, by decide +kernel, 0, tGroup0, 4096,
    (devWriteAll (tAnd id fun d => { rset (tHbm d) .zlkStatus 0 0 0 2 0 2 with groups := [(0, tGroup0)] }).dev 0 [1]).1, by decide +kernel,
    by decide +kernel, by decide +kernel, by decide +kernel, by decide +kernel, (by decide +kernel), by decide +kernel, by decide +kernel,
    by decide +kernel, by decide +kernel, ⟨1, by decide +kernel⟩⟩,
   ⟨0, 0, ⟨0, 0, 5, 0, false, true, 0, 1, 0, 0, 0, 0, 0, 0⟩, 0, [1], 0xA016D052,
    (tAnd id fun d => { rset (tHbm d) .zlkStatus 0 0 0 2 0 2 with groups := [(0, tGroup0)] }), fits (by decide +kernel), by decide +kernel,
    by unfold PortQuiet; decide +kernel, by decide +kernel, 0, tGroup0, 4096,
    (devWriteAll (tAnd id fun d => { rset (tHbm d) .zlkStatus 0 0 0 2 0 2 with groups := [(0, tGroup0)] }).dev 0 [1]).1, by and_intros <;> decide +kernel⟩,
   ⟨0, 0, 3, ⟨.arrive 1 false, 0, .link 0 0 1 5 0, some 0⟩, [], tAnd id fun d => { d with stakes := [(0, { Stake.empty with enable := true })], hubs := [(0, { Hub.empty with q3 := [⟨.arrive 1 false, 0, .link 0 0 1 5 0, some 0⟩] })] },
    1, 0, 0, 1, 5, 0, fits (by decide +kernel), by unfold Presents; decide +kernel, by decide +kernel, by decide +kernel,
    by unfold PortQuiet; decide +kernel, by and_intros <;> decide +kernel⟩,
   ⟨0, 0, 3, ⟨.arrive 1 false, 0, .link 0 0 1 5 0, some 0⟩, [], tAnd id fun d => { d with hubs := [(0, { Hub.empty with q3 := [⟨.arrive 1 false, 0, .link 0 0 1 5 0, some 0⟩] })] },
    1, 0, 0, 1, 5, 0, fits (by decide +kernel), by unfold Presents; decide +kernel, by decide +kernel, by decide +kernel,
    by unfold PortQuiet; decide +kernel, by decide +kernel⟩,
   ⟨0, 0, tAnd id fun d => { d with links := [(0, [tCollOp []])] }, (tCollOp []), fits (by decide +kernel), by decide +kernel, by decide +kernel,
    by decide +kernel, by unfold StatusReady; decide +kernel, by and_intros <;> decide +kernel⟩,
   ⟨0, 0, (tAnd id fun d => { tHbm d with links := [(0, [(tCollOp [0x2000, 0, 64])])], groups := [(0, { Group.empty with self := 1 })] }),
    (tCollOp [0x2000, 0, 64]), fits (by decide +kernel), by decide +kernel, by decide +kernel, by decide +kernel,
    by unfold StatusReady; decide +kernel, (listRead (tAnd id fun d => { tHbm d with links := [(0, [(tCollOp [0x2000, 0, 64])])], groups := [(0, { Group.empty with self := 1 })] }).dev 0).1,
    _, _, by and_intros <;> first | decide +kernel | rfl⟩,
   ⟨0, 0, (tAnd id fun d => { tHbm d with colls := [tColl], groups := [(0, { Group.empty with self := 1 })] }), tColl, fits (by decide +kernel), by and_intros <;> decide +kernel⟩,
   ⟨0, 0, (tAnd id fun d => { tHbm d with colls := [tColl], groups := [(0, { Group.empty with self := 1 })] }), tColl, fits (by decide +kernel),
    by decide +kernel, by decide +kernel, by decide +kernel, (listRead (tAnd id fun d => { tHbm d with colls := [tColl], groups := [(0, { Group.empty with self := 1 })] }).dev 0).1,
    by decide +kernel, by unfold StatusReady; decide +kernel, by and_intros <;> decide +kernel⟩,
   ⟨0, 0, tAnd id fun d => { d with colls := [tColl] }, tColl, 0, fits (by decide +kernel), by decide +kernel, by decide +kernel, by decide +kernel,
    by decide +kernel, by unfold StatusReady; decide +kernel⟩,
   ⟨0, 0, 0, t0, fits (by decide +kernel), by decide +kernel⟩,
   ⟨0, 0, 0, tAnd id fun d => { d with colls := [tColl], groups := [(0, tGroup0)] }, fits (by decide +kernel), 0, tColl, by decide +kernel,
    by decide +kernel, by unfold StatusReady; decide +kernel⟩⟩

theorem test_meets_MediaFrames :
    (∃ c pos, ∃ (s : State), ∃ x op f, Fits (.frameAccept c pos) s ∧ (chainQ s.dev c)[pos]? = some x ∧ x.op.opc = chnMedia ∧ unitsRun s.dev c = true ∧
      mediaFirst s.dev c pos x.op = true ∧ frameSess s.dev x.op = .error f ∧ order1 s.dev c x.op = .ok op ∧ f ≠ .none) ∧
    (∃ c pos, ∃ (s : State), ∃ x op i y, Fits (.frameAccept c pos) s ∧ (chainQ s.dev c)[pos]? = some x ∧ x.op.opc = chnMedia ∧ unitsRun s.dev c = true ∧
      mediaFirst s.dev c pos x.op = true ∧ frameSess s.dev x.op = .ok i ∧ order1 s.dev c x.op = .ok op ∧ (getSess s.dev i).queue.length < 8 ∧
      halted s.dev (i / 32) = false ∧ y = ⟨op, c, partId s.dev c, (getSess s.dev i).accepted.toNat, s.dev.accepted, .none, none, false, false, false,
      false, []⟩ ∧ y.f 0 15 15 = 0 ∧ checkFrame s.dev (getSess s.dev i) y = .none) ∧
    (∃ c pos, ∃ (s : State), ∃ x op i y, Fits (.frameAccept c pos) s ∧ (chainQ s.dev c)[pos]? = some x ∧ x.op.opc = chnMedia ∧ unitsRun s.dev c = true ∧
      mediaFirst s.dev c pos x.op = true ∧ frameSess s.dev x.op = .ok i ∧ order1 s.dev c x.op = .ok op ∧ (getSess s.dev i).queue.length < 8 ∧
      halted s.dev (i / 32) = false ∧ y = ⟨op, c, partId s.dev c, (getSess s.dev i).accepted.toNat, s.dev.accepted, .none, none, false, false, false,
      false, []⟩ ∧ y.f 0 15 15 = 0 ∧ checkFrame s.dev (getSess s.dev i) y ≠ .none) ∧
    (∃ die q, ∃ (s : State), ∃ i x n e, Fits (.pipeSelect die q) s ∧ stopped s.dev die = false ∧ q < 2 ∧ pipeSess s.dev die q = [i] ∧
      readyFrame s.dev i = some (x, n, e) ∧ n ≠ 0) ∧
    (∃ die q, ∃ (s : State), Fits (.pipeSelect die q) s ∧ stopped s.dev die = false ∧ q < 2 ∧ (∀ i r,
      i ∈ pipeSess s.dev die q → readyFrame s.dev i = some r → r.2.1 = 0) ∧ (getPipe s.dev die q).coding = none ∧ ∃ i x,
      ChosenFrame s.dev die q i x ∧ ((getPipe s.dev die q).held = none ∨ (getSess s.dev i).prio = 0)) ∧
    (∃ die q, ∃ (s : State), Fits (.pipeSelect die q) s ∧ stopped s.dev die = false ∧ q < 2 ∧ (∀ i r,
      i ∈ pipeSess s.dev die q → readyFrame s.dev i = some r → r.2.1 = 0) ∧ (getPipe s.dev die q).coding = none ∧ ∃ h,
      (getPipe s.dev die q).held = some h ∧ (∀ i x, Choosable s.dev die q i x → (getSess s.dev i).prio ≠ 0) ∧ (∀ x f r k,
      startedFrame s.dev h = some x → (getPipe s.dev die q).kept = some (.enc f r k) → x.late = false ∧ x.passed s.dev.tick = false)) ∧
    (∃ die q, ∃ (s : State), Fits (.pipeSelect die q) s ∧ stopped s.dev die = false ∧ q < 2 ∧ (∀ i r,
      i ∈ pipeSess s.dev die q → readyFrame s.dev i = some r → r.2.1 = 0) ∧ (getPipe s.dev die q).coding = none ∧ ∃ h,
      (getPipe s.dev die q).held = some h ∧ (∀ i x, Choosable s.dev die q i x → (getSess s.dev i).prio ≠ 0) ∧ ∃ x f r k,
      startedFrame s.dev h = some x ∧ (getPipe s.dev die q).kept = some (.enc f r k) ∧ (x.late = true ∨ x.passed s.dev.tick = true)) ∧
    (∃ die q, ∃ (s : State), ∃ i x p, Fits (.mediaPreemption die q) s ∧ p = getPipe s.dev die q ∧ p.coding = some i ∧ p.held = none ∧
      startedFrame s.dev i = some x ∧ q < 2 ∧ (getSess s.dev i).prio ≠ 0 ∧ x.coded = false ∧ stopped s.dev die = false ∧ (∃ j y,
      Choosable s.dev die q j y ∧ (getSess s.dev j).prio = 0)) ∧
    (∃ die q, ∃ (s : State), ∃ i x p, Fits (.mediaPreemption die q) s ∧ p = getPipe s.dev die q ∧ p.coding = some i ∧ p.held = none ∧
      startedFrame s.dev i = some x ∧ q < 2 ∧ (getSess s.dev i).prio ≠ 0 ∧ x.coded = false ∧ stopped s.dev die = false ∧ (∃ j y,
      Choosable s.dev die q j y ∧ (getSess s.dev j).prio = 0) ∧ mediaBusy s.dev i x = true) ∧
    (∃ die q, ∃ (s : State), ∃ i x e, Fits (.mediaFrame die q) s ∧ (getPipe s.dev die q).coding = some i ∧ startedFrame s.dev i = some x ∧
      x.coded = false ∧ stopped s.dev die = false ∧ mediaBusy s.dev i x = false ∧ e = getSess s.dev i) ∧
    (∃ die q, ∃ (s : State), ∃ i x, Fits (.frameComplete die q) s ∧ (getPipe s.dev die q).coding = some i ∧ startedFrame s.dev i = some x ∧
      x.coded = true ∧ q < 2) ∧
    (∃ die k, ∃ (s : State), ∃ x n e, Fits (.mediaEnd die k) s ∧ readyFrame s.dev (32 * die + k) = some (x, n, e) ∧ x.isEnd = true ∧
      stopped s.dev die = false ∧ n = 0) ∧
    (∃ die k, ∃ (s : State), ∃ x n e, Fits (.mediaEnd die k) s ∧ readyFrame s.dev (32 * die + k) = some (x, n, e) ∧ x.isEnd = true ∧
      stopped s.dev die = false ∧ n ≠ 0) ∧
    (∃ die k n, ∃ (s : State), ∃ i y, Fits (.deadlinePass die k n) s ∧ i = 32 * die + k ∧
      ((getSess s.dev i).queue.find? (fun y => decide (y.num = n)) = some y) ∧ y.isEnd = false ∧ y.late = false ∧ y.passed s.dev.tick = true ∧
      stopped s.dev die = false ∧ (getSess s.dev i).dec = false ∧ y.started = false) ∧
    (∃ die k n, ∃ (s : State), ∃ i y, Fits (.deadlinePass die k n) s ∧ i = 32 * die + k ∧
      ((getSess s.dev i).queue.find? (fun y => decide (y.num = n)) = some y) ∧ y.isEnd = false ∧ y.late = false ∧ y.passed s.dev.tick = true ∧
      stopped s.dev die = false ∧ ((getSess s.dev i).dec = true ∨ (y.started = true ∧
      (y.coded = true ∨ (getPipe s.dev die 0).coding ≠ some i ∨ mediaBusy s.dev i y = true)))) ∧
    (∃ die k n, ∃ (s : State), ∃ i y, Fits (.deadlinePass die k n) s ∧ i = 32 * die + k ∧
      ((getSess s.dev i).queue.find? (fun y => decide (y.num = n)) = some y) ∧ y.isEnd = false ∧ y.late = false ∧ y.passed s.dev.tick = true ∧
      stopped s.dev die = false ∧ (getSess s.dev i).dec = false ∧ startedFrame s.dev i = some y ∧ y.coded = false ∧
      (getPipe s.dev die 0).coding = some i ∧ mediaBusy s.dev i y = false ∧ (∀ u l m, (getPipe s.dev die 0).work ≠ some (.dec u l m))) :=
  ⟨⟨tc, 0, tAnd (fun w => { w with chain := [(⟨⟨1, 0x13, 4, storeAddr tc 0, 0, 0, 0, []⟩, 0, none, 0, 0, [], 0, 0, .none⟩ : Chain)] }) (tStore [0x113]),
    (⟨⟨1, 0x13, 4, storeAddr tc 0, 0, 0, 0, []⟩, 0, none, 0, 0, [], 0, 0, .none⟩ : Chain), ⟨1, 0x13, 4, storeAddr tc 0, 0, 0, 0,
    storeWords (tAnd id (tStore [0x113])).dev tc 0 16⟩, .badHandle, fits (by decide +kernel), by and_intros <;> decide +kernel⟩,
   ⟨tc, 0, tAnd (fun w => { w with chain := [(⟨⟨1, 0x13, 4, storeAddr tc 0, 0x01030000, 0, 0, []⟩, 0, none, 0, 0, [], 0, 0, .none⟩ : Chain)] }) (fun d => tStore [0x1113] { d with objs := [(3 * 2 ^ 16, ⟨1, true⟩)], sess := [(0, { Sess.empty with state := 1, words := [], queue := [] })] }),
    (⟨⟨1, 0x13, 4, storeAddr tc 0, 0x01030000, 0, 0, []⟩, 0, none, 0, 0, [], 0, 0, .none⟩ : Chain), ⟨1, 0x13, 4, storeAddr tc 0, 0x01030000, 0, 0,
    storeWords (tAnd id (tStore [0x1113])).dev tc 0 16⟩, 0, ⟨⟨1, 0x13, 4, storeAddr tc 0, 0x01030000, 0, 0,
    storeWords (tAnd id (tStore [0x1113])).dev tc 0 16⟩, tc, some (0, 0, 0), 0, 0, .none, none, false, false, false, false, []⟩,
    fits (by decide +kernel), by and_intros <;> decide +kernel⟩,
   ⟨tc, 0, tAnd (fun w => { w with chain := [(⟨⟨1, 0x13, 4, storeAddr tc 0, 0x01030000, 0, 0, []⟩, 0, none, 0, 0, [], 0, 0, .none⟩ : Chain)] }) (fun d => tStore [0x2113] { d with objs := [(3 * 2 ^ 16, ⟨1, true⟩)], sess := [(0, { Sess.empty with state := 1, words := [], queue := [] })] }),
    (⟨⟨1, 0x13, 4, storeAddr tc 0, 0x01030000, 0, 0, []⟩, 0, none, 0, 0, [], 0, 0, .none⟩ : Chain), ⟨1, 0x13, 4, storeAddr tc 0, 0x01030000, 0, 0,
    storeWords (tAnd id (tStore [0x2113])).dev tc 0 16⟩, 0, ⟨⟨1, 0x13, 4, storeAddr tc 0, 0x01030000, 0, 0,
    storeWords (tAnd id (tStore [0x2113])).dev tc 0 16⟩, tc, some (0, 0, 0), 0, 0, .none, none, false, false, false, false, []⟩,
    fits (by decide +kernel), by and_intros <;> decide +kernel⟩,
   ⟨0, 0, (tAnd id fun d => { d with sess := [(0, { Sess.empty with state := 1, words := [], queue := [⟨⟨1, 0x13, 4, 0, 0, 0, 0, []⟩, tc, none, 0, 0, .none, none, true, false, false, false, []⟩] })], wakes := [⟨.frame 0 0 0, 1⟩] }),
    0, ⟨⟨1, 0x13, 4, 0, 0, 0, 0, []⟩, tc, none, 0, 0, .none, none, true, false, false, false, []⟩, 1, _, fits (by decide +kernel), by and_intros <;> first | decide +kernel | rfl⟩,
   ⟨0, 0, tMed [] [(tFrame [] id)] Pipe.empty, fits (by decide +kernel), by decide +kernel, by decide +kernel,
    (by intro i r hi hr; rw [show pipeSess _ 0 0 = [0] by decide +kernel] at hi; obtain rfl := List.mem_singleton.mp hi; cases hr; rfl),
    by decide +kernel, 0, (tFrame [] id), ⟨⟨rfl, by decide, rfl, rfl, rfl, by decide, fun _ => by decide, fun h => nomatch h⟩,
    fun j y h hj => absurd (tMed_choose h).1 hj⟩, by decide +kernel⟩,
   ⟨0, 0, tMed [0x100] [(tFrame [] (fun x => { x with started := true }))] ⟨none, some 0, none, none, 2⟩, fits (by decide +kernel), by decide +kernel,
    by decide +kernel,
    (by intro i r hi hr; rw [show pipeSess _ 0 0 = [0] by decide +kernel] at hi; obtain rfl := List.mem_singleton.mp hi; cases hr),
    by decide +kernel, 0, by decide +kernel, fun i x h => by obtain ⟨rfl, rfl⟩ := tMed_choose h; exact absurd h.2.2.2.2.1 (by decide),
    fun x f r k _ h => nomatch h⟩,
   ⟨0, 0, tMed [0x100] [(tFrame [] (fun x => { x with started := true, late := true }))] ⟨none, some 0, none, some (.enc ⟨false, false, [],
    0⟩ false ⟨none, 0, 0, 20, 0, false, 0, 0, 0, [], .none⟩), 2⟩, fits (by decide +kernel), by decide +kernel, by decide +kernel,
    (by intro i r hi hr; rw [show pipeSess _ 0 0 = [0] by decide +kernel] at hi; obtain rfl := List.mem_singleton.mp hi; cases hr),
    by decide +kernel, 0, by decide +kernel, fun i x h => by obtain ⟨rfl, rfl⟩ := tMed_choose h; exact absurd h.2.2.2.2.1 (by decide),
    (tFrame [] (fun x => { x with started := true, late := true })), ⟨false, false, [], 0⟩, false, ⟨none, 0, 0, 20, 0, false, 0, 0, 0, [], .none⟩, by and_intros <;> decide +kernel⟩,
   ⟨0, 0, (tAnd id fun d => { d with sess := [(0, { Sess.empty with state := 1, words := [0x100], queue := [(tFrame [] (fun x => { x with started := true }))] }), (1, { Sess.empty with state := 1, queue := [(tFrame [] id)] })], pipes := [(0, ⟨some 0, none, none, none, 1⟩)] }),
    0, (tFrame [] (fun x => { x with started := true })), _, fits (by decide +kernel), rfl, by decide +kernel, by decide +kernel, by decide +kernel,
    by decide +kernel, by decide +kernel, (by decide +kernel), by decide +kernel, ⟨1, (tFrame [] id), ⟨rfl, by decide, rfl, rfl, rfl, by decide,
    fun _ => by decide, fun h => nomatch h⟩, rfl⟩⟩,
   ⟨0, 0, (tAnd id fun d => { rset (tHbm d) .resSliceCfg 0 0 0 16 16 1 with sess := [(0, { Sess.empty with state := 1, words := [0x100], queue := [(tFrame [] (fun x => { x with started := true }))] }), (1, { Sess.empty with state := 1, queue := [(tFrame [] id)] })], pipes := [(0, ⟨some 0, none, none, none, 1⟩)] }),
    0, (tFrame [] (fun x => { x with started := true })), _, fits (by decide +kernel), rfl, by decide +kernel, by decide +kernel, by decide +kernel,
    by decide +kernel, by decide +kernel, (by decide +kernel), by decide +kernel, ⟨1, (tFrame [] id), ⟨rfl, by decide, rfl, rfl, rfl, by decide,
    fun _ => by decide, fun h => nomatch h⟩, rfl⟩, by decide +kernel⟩,
   ⟨0, 0, (tMed [] [(tFrame [] (fun x => { x with started := true }))] ⟨some 0, none, none, none, 1⟩), 0,
    (tFrame [] (fun x => { x with started := true })), _, fits (by decide +kernel), by and_intros <;> first | decide +kernel | rfl⟩,
   ⟨0, 0, (tAnd id fun d => { d with sess := [(31, { Sess.empty with state := 1, words := [], queue := [⟨⟨1, 0x13, 4, 0, 0, 0, 0, []⟩, tc, none, 0, 0, .none, none, false, true, true, false, []⟩] })], pipes := [(0, ⟨some 31, none, none, none, 1⟩)] }),
    31, ⟨⟨1, 0x13, 4, 0, 0, 0, 0, []⟩, tc, none, 0, 0, .none, none, false, true, true, false, []⟩, fits (by decide +kernel), by and_intros <;> decide +kernel⟩,
   ⟨0, 31, (tAnd id fun d => { d with sess := [(31, { Sess.empty with state := 1, words := [], queue := [⟨⟨1, 0x13, 4, 0, 0, 0, 0, [0x1000]⟩, tc, none, 0, 0, .none, none, false, false, false, false, []⟩] })] }),
    ⟨⟨1, 0x13, 4, 0, 0, 0, 0, [0x1000]⟩, tc, none, 0, 0, .none, none, false, false, false, false, []⟩, 0, _, fits (by decide +kernel), by and_intros <;> first | decide +kernel | rfl⟩,
   ⟨0, 31, (tAnd id fun d => { d with sess := [(31, { Sess.empty with state := 1, words := [], queue := [⟨⟨1, 0x13, 4, 0, 0, 0, 0, [0x1000]⟩, tc, none, 0, 0, .none, none, true, false, false, false, []⟩] })], wakes := [⟨.frame 0 31 0, 2⟩] }),
    ⟨⟨1, 0x13, 4, 0, 0, 0, 0, [0x1000]⟩, tc, none, 0, 0, .none, none, true, false, false, false, []⟩, 2, _, fits (by decide +kernel), by and_intros <;> first | decide +kernel | rfl⟩,
   ⟨0, 31, 3, (tAnd id fun d => { d with sess := [(31, { Sess.empty with state := 1, queue := [(tFrame [0, 0, 0, 0, 0, 0, 1] fun x => { x with num := 3 })] })], pipes := [], tick := 1 }),
    31, (tFrame [0, 0, 0, 0, 0, 0, 1] fun x => { x with num := 3 }), fits (by decide +kernel), by and_intros <;> decide +kernel⟩,
   ⟨0, 31, 3, (tAnd id fun d => { d with sess := [(31, { Sess.empty with state := 1, queue := [(tFrame [0, 0, 0, 0, 0, 0, 1] fun x => { x with num := 3, started := true })] })], pipes := [], tick := 1 }),
    31, (tFrame [0, 0, 0, 0, 0, 0, 1] fun x => { x with num := 3, started := true }), fits (by decide +kernel), by and_intros <;> decide +kernel⟩,
   ⟨0, 31, 3, (tAnd id fun d => { d with sess := [(31, { Sess.empty with state := 1, queue := [(tFrame [0, 0, 0, 0, 0, 0, 1] fun x => { x with num := 3, started := true })] })], pipes := [(0, ⟨some 31, none, none, none, 1⟩)], tick := 1 }),
    31, (tFrame [0, 0, 0, 0, 0, 0, 1] fun x => { x with num := 3, started := true }), fits (by decide +kernel), by decide +kernel, by decide +kernel,
    by decide +kernel, by decide +kernel, by decide +kernel, (by decide +kernel), by decide +kernel, by decide +kernel, by decide +kernel,
    by decide +kernel, by decide +kernel, fun _ _ _ h => nomatch h⟩⟩

theorem test_meets_ErrorsResetsAndHalts :
    (∃ die e, ∃ (s : State), Fits (.errAckIndex die e) s ∧ (ringEntry (getRing s.dev die) e).valid = false) ∧
    (∃ die e, ∃ (s : State), Fits (.errAckIndex die e) s ∧ (ringEntry (getRing s.dev die) e).valid = true) ∧
    (∃ die, ∃ (s : State), Fits (.errAckAll die) s) ∧
    (∃ die, ∃ (core : BitVec 8), ∃ (s : State), ∃ c, Fits (.errCoreRst die core) s ∧ c = CoreId.mk die core.toNat ∧
      (144 ≤ core.toNat ∨ ((getCore s.dev c).sched = 1 ∧
      (getCore s.dev c).fenced = false) ∨ rfld s.dev .errCoreRst die 0 0 9 9 = 1 ∨ halted s.dev die = true)) ∧
    (∃ die, ∃ (core : BitVec 8), ∃ (s : State), ∃ c, Fits (.errCoreRst die core) s ∧ c = CoreId.mk die core.toNat ∧ core.toNat < 144 ∧
      ((getCore s.dev c).sched ≠ 1 ∨ (getCore s.dev c).fenced = true) ∧ rfld s.dev .errCoreRst die 0 0 9 9 = 0 ∧ halted s.dev die = false) ∧
    (∃ die f, ∃ (s : State), ∃ c, Fits (.coreResetDone die f) s ∧ rfld s.dev .errCoreRst die 0 0 9 9 = 1 ∧
      c = CoreId.mk die (rfld s.dev .errCoreRst die 0 0 7 0)) ∧
    (∃ die f, ∃ (s : State), ∃ c, Fits (.coreResetDone die f) s ∧ rfld s.dev .errCoreRst die 0 0 9 9 = 1 ∧
      c = CoreId.mk die (rfld s.dev .errCoreRst die 0 0 7 0) ∧ halted s.dev die = false ∧ f.other = false ∧ f.groups = 0 ∧
      (getCore s.dev c).laneFence = 0 ∧ (getCore s.dev c).lanePend = 0) ∧
    (∃ die f, ∃ (s : State), ∃ c, Fits (.coreResetDone die f) s ∧ rfld s.dev .errCoreRst die 0 0 9 9 = 1 ∧
      c = CoreId.mk die (rfld s.dev .errCoreRst die 0 0 7 0) ∧ halted s.dev die = false ∧ (f.other = true ∨ ∃ g h, g < h ∧
      f.groups.getLsbD g = true ∧ f.groups.getLsbD h = true)) ∧
    (∃ c g slot, ∃ (s : State), ∃ b have', Fits (.laneGroupFence c g 1 slot) s ∧ b = BitVec.ofNat 4 (2 ^ g) ∧
      have' = (getCore s.dev c).laneFence ||| (getCore s.dev c).lanePend ∧ have' &&& b ≠ 0) ∧
    (∃ c g slot, ∃ (s : State), ∃ b have', Fits (.laneGroupFence c g 1 slot) s ∧ b = BitVec.ofNat 4 (2 ^ g) ∧
      have' = (getCore s.dev c).laneFence ||| (getCore s.dev c).lanePend ∧ have' = 0 ∧ (getCore s.dev c).sched = 0 ∧ (getCore s.dev c).fenced = false) ∧
    (∃ c g slot, ∃ (s : State), ∃ b have', Fits (.laneGroupFence c g 1 slot) s ∧ b = BitVec.ofNat 4 (2 ^ g) ∧
      have' = (getCore s.dev c).laneFence ||| (getCore s.dev c).lanePend ∧ have' = 0 ∧ ((getCore s.dev c).sched ≠ 0 ∨ (getCore s.dev c).fenced = true)) ∧
    (∃ c g slot, ∃ (s : State), ∃ b have', Fits (.laneGroupFence c g 1 slot) s ∧ b = BitVec.ofNat 4 (2 ^ g) ∧
      have' = (getCore s.dev c).laneFence ||| (getCore s.dev c).lanePend ∧ have' ≠ 0 ∧ have' &&& b = 0 ∧ (getCore s.dev c).fenced = false) ∧
    (∃ c g slot, ∃ (s : State), ∃ b have', Fits (.laneGroupFence c g 1 slot) s ∧ b = BitVec.ofNat 4 (2 ^ g) ∧
      have' = (getCore s.dev c).laneFence ||| (getCore s.dev c).lanePend ∧ have' ≠ 0 ∧ have' &&& b = 0 ∧ (getCore s.dev c).fenced = true) ∧
    (∃ c g slot, ∃ (s : State), Fits (.laneGroupFence c g 3 slot) s ∧ tget 0 (getCore s.dev c).laneCe g + 1 < rfld s.dev .errCtl c.die 0 0 15 8) ∧
    (∃ c, ∃ (s : State), ∃ w, Fits (.laneCeWindowEnd c) s ∧ c.wf = true ∧ c.die < s.dev.part.dies ∧ w = rfld s.dev .errCtl c.die 0 0 23 16 * 2 ^ 20 ∧
      w ≠ 0 ∧ s.dev.tick % w = 0) ∧
    (∃ die, ∃ (s : State), Fits (.haltArrival die) s ∧ halted s.dev die = false ∧ (∃ x, x < s.dev.part.dies ∧ halted s.dev x = true)) ∧
    (∃ die, ∃ (s : State), Fits (.haltOnSilence die) s ∧ halted s.dev die = false) ∧
    (∃ die code, ∃ (s : State), Fits (.stationFault die code) s ∧ die < s.dev.part.dies) ∧
    (∃ c u again, ∃ (s : State), Fits (.cubeInject c u again) s ∧ rfld s.dev .abwStation c.die 0 0 3 3 = 1) ∧
    (∃ c u again, ∃ (s : State), Fits (.cubeInject c u again) s ∧ rfld s.dev .abwStation c.die 0 0 3 3 ≠ 1) :=
  ⟨⟨7, 63, t0, fits (by decide +kernel), by decide +kernel⟩,
   ⟨0, 63, tAnd id fun d => { d with errs := [(0, { ErrRing.empty with entries := [(63, { ErrEntry.empty with valid := true })] })] },
    fits (by decide +kernel), by decide +kernel⟩,
   ⟨7, t0, fits (by decide +kernel)⟩,
   ⟨7, 144, t0, _, fits (by decide +kernel), by and_intros <;> first | decide +kernel | rfl⟩,
   ⟨7, 143, t0, ⟨7, 143⟩, fits (by decide +kernel), by and_intros <;> decide +kernel⟩,
   ⟨0, ⟨0, false⟩, tAnd id fun d => rset d .errCoreRst 0 0 0 9 9 1, _, fits (by decide +kernel), by and_intros <;> first | decide +kernel | rfl⟩,
   ⟨0, ⟨0, false⟩, tAnd id fun d => rset d .errCoreRst 0 0 0 9 9 1, tc, fits (by decide +kernel), by and_intros <;> decide +kernel⟩,
   ⟨0, ⟨3, false⟩, tAnd id fun d => rset d .errCoreRst 0 0 0 9 9 1, tc, fits (by decide +kernel), by decide +kernel, by decide +kernel,
    by decide +kernel, Or.inr ⟨0, 1, by decide, by decide, by decide⟩⟩,
   ⟨tc, 3, 0, tAnd id fun d => { d with cores := [(0, { Core.idle with sched := 0, laneFence := 8, lanePend := 0 })] }, 8, 8, fits (by decide +kernel), by and_intros <;> decide +kernel⟩,
   ⟨tc, 3, 0, tAnd id fun d => { d with cores := [(0, { Core.idle with sched := 0, laneFence := 0, lanePend := 0 })] }, 8, 0, fits (by decide +kernel), by and_intros <;> decide +kernel⟩,
   ⟨tc, 3, 0, tAnd id fun d => { d with cores := [(0, { Core.idle with sched := 1, laneFence := 0, lanePend := 0 })] }, 8, 0, fits (by decide +kernel), by and_intros <;> decide +kernel⟩,
   ⟨tc, 3, 0, tAnd id fun d => { d with cores := [(0, { Core.idle with sched := 0, laneFence := 0, lanePend := 1 })] }, 8, 1, fits (by decide +kernel), by and_intros <;> decide +kernel⟩,
   ⟨tc, 3, 0, tAnd id (fun d => { d with cores := [(0, { Core.idle with fenced := true, laneFence := 1 })] }), 8, 1, fits (by decide +kernel), by and_intros <;> decide +kernel⟩,
   ⟨tc, 3, 0, tAnd id fun d => rset d .errCtl 0 0 0 15 8 2, fits (by decide +kernel), by decide +kernel⟩,
   ⟨tc, tAnd id fun d => rset d .errCtl 0 0 0 23 16 1, _, fits (by decide +kernel), by and_intros <;> first | decide +kernel | rfl⟩,
   ⟨7, tAnd id fun d => { d with errs := [(0, { ErrRing.empty with halted := true })] }, fits (by decide +kernel), by decide +kernel, ⟨0,
    by decide +kernel⟩⟩,
   ⟨7, t0, fits (by decide +kernel), by decide +kernel⟩,
   ⟨7, 1, t0, fits (by decide +kernel), by decide +kernel⟩,
   ⟨tc, 3, true, tAnd id fun d => rset d .abwStation 0 0 0 3 3 1, fits (by decide +kernel), by decide +kernel⟩,
   ⟨tc, 3, false, t0, fits (by decide +kernel), by decide +kernel⟩⟩

theorem test_meets_StationAndManagement :
    (∃ (s : State), Fits .getIdent s ∧ Addressed s.dev) ∧
    (∃ (s : State), Fits .getTelemetry s ∧ Addressed s.dev) ∧
    (∃ (s : State), Fits .getErrors s ∧ Addressed s.dev) ∧
    (∃ i, ∃ (s : State), (∃ a b c d, i ∈ [Instr.readReport a b, .attest c, .extend d c, .svnCommit (a.setWidth 16)]) ∧ Fits i s ∧ Addressed s.dev ∧
      pkgReady s.dev = false) ∧
    (∃ off len, ∃ (s : State), Fits (.readReport off len) s ∧ Addressed s.dev ∧ pkgReady s.dev = true ∧ s.dev.station.report ≠ [] ∧ len.toNat ≤ 240 ∧
      off.toNat + len.toNat ≤ 17504) ∧
    (∃ off len, ∃ (s : State), Fits (.readReport off len) s ∧ Addressed s.dev ∧ pkgReady s.dev = true ∧ s.dev.station.report ≠ [] ∧
      (240 < len.toNat ∨ 17504 < off.toNat + len.toNat)) ∧
    (∃ n, ∃ (s : State), Fits (.attest n) s ∧ Addressed s.dev ∧ pkgReady s.dev = true ∧ s.dev.station.signing = none) ∧
    (∃ n, ∃ (s : State), Fits (.attest n) s ∧ Addressed s.dev ∧ pkgReady s.dev = true ∧ s.dev.station.signing ≠ none) ∧
    (∃ a, ∃ (s : State), ∃ e b, Fits (.abwReqAttest a) s ∧ pkgReady s.dev = true ∧ reqAddr s.dev a 17504 = true ∧ devReadAll s.dev (a + 0x40) 32 = (e,
      .ok b) ∧ s.dev.station.signing = none) ∧
    (∃ a, ∃ (s : State), ∃ e b, Fits (.abwReqAttest a) s ∧ pkgReady s.dev = true ∧ reqAddr s.dev a 17504 = true ∧ devReadAll s.dev (a + 0x40) 32 = (e,
      .ok b) ∧ s.dev.station.signing ≠ none) ∧
    (∃ (s : State), ∃ g, Fits .reportSigned s ∧ s.dev.station.signing = some g ∧ g.addr = none) ∧
    (∃ (s : State), ∃ g, Fits .reportSigned s ∧ s.dev.station.signing = some g ∧ ∃ a, g.addr = some a) ∧
    (∃ k x, ∃ (s : State), Fits (.extend k x) s ∧ Addressed s.dev ∧ pkgReady s.dev = true ∧ 4 ≤ k.toNat ∧ k.toNat < 8) ∧
    (∃ k x, ∃ (s : State), Fits (.extend k x) s ∧ Addressed s.dev ∧ pkgReady s.dev = true ∧ (k.toNat < 4 ∨ 8 ≤ k.toNat)) ∧
    (∃ a k, ∃ (s : State), ∃ e b, Fits (.abwReqExtend a k) s ∧ pkgReady s.dev = true ∧ 4 ≤ k.toNat ∧ reqAddr s.dev a 32 = true ∧
      devReadAll s.dev a 32 = (e, .ok b)) ∧
    (∃ a k s, Fits (.abwReqExtend a k) s ∧ pkgReady s.dev = true ∧ k.toNat < 4) ∧
    (∃ w, ∃ (s : State), Fits (.setLimit w) s ∧ Addressed s.dev ∧ limitOk s.dev w.toNat = true) ∧
    (∃ w, ∃ (s : State), Fits (.setLimit w) s ∧ Addressed s.dev ∧ limitOk s.dev w.toNat = false) ∧
    (∃ (s : State), Fits .getChallenge s ∧ Addressed s.dev) ∧
    (∃ off b, ∃ (s : State), Fits (.unlockData off b) s ∧ Addressed s.dev ∧ b.length ≤ 238 ∧ off.toNat + b.length ≤ unlockSize) ∧
    (∃ (s : State), Fits .unlockGo s ∧ Addressed s.dev ∧ (∀ die, die < s.dev.part.dies → halted s.dev die = false) ∧ s.dev.station.challenge = none) ∧
    (∀ key sig,
      key.length = 32 → sig.length = 7856 → sha256 key = bytes256 (Config.dbgPkh 0) → slhVerify slh128s key (List.replicate 8 0 ++ leBytes 8 (Config.serial 0).toNat) sig = true → ∃ s,
      Fits .unlockGo s ∧ Addressed s.dev ∧ (∀ die, die < s.dev.part.dies → halted s.dev die = false) ∧ ∃ ch b, s.dev.station.challenge = some ch ∧
      b = (List.range unlockSize).map (tget 0 s.dev.station.unlock) ∧ sha256 (b.take 32) = bytes256 (Config.dbgPkh 0) ∧
      slhVerify slh128s (b.take 32) (ch ++ leBytes 8 (Config.serial 0).toNat) (b.drop 32) = true) ∧
    (∃ (s : State), Fits .unlockGo s ∧ Addressed s.dev ∧ (∃ die, die < s.dev.part.dies ∧ halted s.dev die = true)) ∧
    (∃ v, ∃ (s : State), Fits (.svnCommit v) s ∧ Addressed s.dev ∧ pkgReady s.dev = true ∧ v.toNat ≤ runningSvn s.dev ∧ svnMin s.dev 0 ≤ v.toNat) ∧
    (∃ v, ∃ (s : State), Fits (.svnCommit v) s ∧ Addressed s.dev ∧ pkgReady s.dev = true ∧ (runningSvn s.dev < v.toNat ∨ v.toNat < svnMin s.dev 0)) ∧
    (∃ (w : BitVec 16), ∃ (s : State), ∃ limit cap new, Fits (.powerCapCompare w) s ∧ stationUp s.dev = true ∧ s.dev.tick % 1024 = 0 ∧
      s.dev.pkg.capTick ≠ some s.dev.tick ∧ limit = rfld s.dev .abwEnvelope 0 0 0 27 16 ∧ cap = rfld s.dev .abwEnvelope 0 0 0 35 32 ∧
      new = (if limit < w.toNat then max 2 (cap - 1) else if 100 * w.toNat < 95 * limit then min 8 (cap + 1) else cap)) ∧
    (∃ die hot, ∃ (s : State), Fits (.tempRefresh die hot) s ∧ die < s.dev.part.dies ∧ stationUp s.dev = true ∧ s.dev.tick % 1024 = 0) ∧
    (∃ v, ∃ (s : State), Fits (.envelopeClustersWrite v) s ∧ v.toNat ≠ 0 ∧ v.toNat ≤ 12 ∧ (∀ die k,
      die < s.dev.part.dies → v.toNat ≤ k → k < 12 → clusterOwned s.dev die k = false)) ∧
    (∃ v, ∃ (s : State), Fits (.envelopeClustersWrite v) s ∧ (v.toNat = 0 ∨ 12 < v.toNat ∨ (∃ die k, die < s.dev.part.dies ∧ v.toNat ≤ k ∧ k < 12 ∧
      clusterOwned s.dev die k = true))) :=
  ⟨⟨tAnd id fun d => { d with pkg := { d.pkg with released := true } }, fits (by decide +kernel), by unfold Addressed; decide +kernel⟩,
   ⟨tAnd id fun d => { d with pkg := { d.pkg with released := true } }, fits (by decide +kernel), by unfold Addressed; decide +kernel⟩,
   ⟨tAnd id fun d => { d with pkg := { d.pkg with released := true } }, fits (by decide +kernel), by unfold Addressed; decide +kernel⟩,
   ⟨.readReport 0 0, tAnd id fun d => { d with pkg := { d.pkg with released := true } }, ⟨0, 0, 0, 0, List.mem_cons_self⟩, fits (by decide +kernel),
    by unfold Addressed; decide +kernel, by decide +kernel⟩,
   ⟨17264, 240, tAnd id fun d => { rset (tHbm d) .abwTri 0 0 0 24 24 1 with pkg := { d.pkg with released := true }, station := { d.station with report := [0] } },
    fits (by decide +kernel), by unfold Addressed; decide +kernel, by and_intros <;> decide +kernel⟩,
   ⟨17265, 240, tAnd id fun d => { rset (tHbm d) .abwTri 0 0 0 24 24 1 with pkg := { d.pkg with released := true }, station := { d.station with report := [0] } },
    fits (by decide +kernel), by unfold Addressed; decide +kernel, by and_intros <;> decide +kernel⟩,
   ⟨0, tAnd id fun d => { rset (tHbm d) .abwTri 0 0 0 24 24 1 with pkg := { d.pkg with released := true } }, fits (by decide +kernel),
    by unfold Addressed; decide +kernel, by and_intros <;> decide +kernel⟩,
   ⟨0, tAnd id fun d => { rset (tHbm d) .abwTri 0 0 0 24 24 1 with pkg := { d.pkg with released := true }, station := { d.station with signing := some ⟨[], none⟩ } },
    fits (by decide +kernel), by unfold Addressed; decide +kernel, by and_intros <;> decide +kernel⟩,
   ⟨0, (tAnd id fun d => { rset (tHbm d) .abwTri 0 0 0 24 24 1 with pkg := { d.pkg with released := true } }),
    (devReadAll (tAnd id fun d => { rset (tHbm d) .abwTri 0 0 0 24 24 1 with pkg := { d.pkg with released := true } }).dev 0x40 32).1,
    List.replicate 32 0, fits (by decide +kernel), by and_intros <;> decide +kernel⟩,
   ⟨0, (tAnd id fun d => { rset (tHbm d) .abwTri 0 0 0 24 24 1 with pkg := { d.pkg with released := true }, station := { d.station with signing := some ⟨[], none⟩ } }),
    (devReadAll (tAnd id fun d => { rset (tHbm d) .abwTri 0 0 0 24 24 1 with pkg := { d.pkg with released := true }, station := { d.station with signing := some ⟨[], none⟩ } }).dev 0x40 32).1,
    List.replicate 32 0, fits (by decide +kernel), by and_intros <;> decide +kernel⟩,
   ⟨tAnd id fun d => { rset (tHbm d) .abwTri 0 0 0 24 24 1 with pkg := { d.pkg with released := true }, station := { d.station with signing := some ⟨[], none⟩ } },
    ⟨[], none⟩, fits (by decide +kernel), by and_intros <;> decide +kernel⟩,
   ⟨tAnd id fun d => { rset (tHbm d) .abwTri 0 0 0 24 24 1 with pkg := { d.pkg with released := true }, station := { d.station with signing := some ⟨[], some 0⟩ } },
    ⟨[], some 0⟩, fits (by decide +kernel), by decide +kernel, 0, by decide +kernel⟩,
   ⟨7, 0, tAnd id fun d => { rset (tHbm d) .abwTri 0 0 0 24 24 1 with pkg := { d.pkg with released := true } }, fits (by decide +kernel),
    by unfold Addressed; decide +kernel, by and_intros <;> decide +kernel⟩,
   ⟨8, 0, tAnd id fun d => { rset (tHbm d) .abwTri 0 0 0 24 24 1 with pkg := { d.pkg with released := true } }, fits (by decide +kernel),
    by unfold Addressed; decide +kernel, by and_intros <;> decide +kernel⟩,
   ⟨0, 4, (tAnd id fun d => { rset (tHbm d) .abwTri 0 0 0 24 24 1 with pkg := { d.pkg with released := true } }),
    (devReadAll (tAnd id fun d => { rset (tHbm d) .abwTri 0 0 0 24 24 1 with pkg := { d.pkg with released := true } }).dev 0 32).1,
    List.replicate 32 0, fits (by decide +kernel), by and_intros <;> decide +kernel⟩,
   ⟨0, 3, tAnd id fun d => rset d .abwTri 0 0 0 24 24 1, fits (by decide +kernel), by and_intros <;> decide +kernel⟩,
   ⟨2300, tAnd id fun d => { d with pkg := { d.pkg with released := true } }, fits (by decide +kernel), by unfold Addressed; decide +kernel,
    by decide +kernel⟩,
   ⟨919, tAnd id fun d => { d with pkg := { d.pkg with released := true } }, fits (by decide +kernel), by unfold Addressed; decide +kernel,
    by decide +kernel⟩,
   ⟨tAnd id fun d => { d with pkg := { d.pkg with released := true } }, fits (by decide +kernel), by unfold Addressed; decide +kernel⟩,
   ⟨7650, List.replicate 238 0, tAnd id fun d => { d with pkg := { d.pkg with released := true } }, fits (by decide +kernel),
    by unfold Addressed; decide +kernel, by and_intros <;> decide +kernel⟩,
   ⟨tAnd id fun d => { d with pkg := { d.pkg with released := true } }, fits (by decide +kernel), by unfold Addressed; decide +kernel,
    fun die h => (by decide +kernel : ∀ die < 8, halted Dev.reset die = false) die h, by decide +kernel⟩,
   fun key sig hk hs h1 h2 => ⟨tAnd id fun d => { d with pkg := { d.pkg with released := true }, station := { d.station with challenge := some (List.replicate 8 0), unlock := tTable (key ++ sig) } },
    fits ⟨rfl, fun _ h => nomatch h⟩, ⟨rfl, .inr (.inr rfl)⟩, fun die h => (by decide +kernel : ∀ die < 8, halted Dev.reset die = false) die h, _,
    key ++ sig, rfl, ((show (key ++ sig).length = unlockSize by simp [hk, hs, unlockSize]) ▸ tTable_list (key ++ sig)).symm,
    by rwa [List.take_left' hk], by rw [List.take_left' hk]; rwa [List.drop_left' hk]⟩,
   ⟨tAnd id fun d => { d with pkg := { d.pkg with released := true }, errs := [(7, { ErrRing.empty with halted := true })] }, fits (by decide +kernel),
    by unfold Addressed; decide +kernel, ⟨7, by decide +kernel⟩⟩,
   ⟨2,
    tAnd id fun d => { rset (rset (rset d .abwTri 0 0 0 24 24 1) .abwFw 0 0 0 63 48 1) .abwFw 0 0 0 47 32 2 with pkg := { d.pkg with released := true } },
    fits (by decide +kernel), by unfold Addressed; decide +kernel, by and_intros <;> decide +kernel⟩,
   ⟨2,
    tAnd id fun d => { rset (rset (rset d .abwTri 0 0 0 24 24 1) .abwFw 0 0 0 63 48 1) .abwFw 0 0 0 47 32 1 with pkg := { d.pkg with released := true } },
    fits (by decide +kernel), by unfold Addressed; decide +kernel, by and_intros <;> decide +kernel⟩,
   ⟨2300, tAnd id fun d => { d with pkg := { d.pkg with released := true } }, _, _, _, fits (by decide +kernel), by and_intros <;> first | decide +kernel | rfl⟩,
   ⟨7, 0x80, tAnd id fun d => { d with pkg := { d.pkg with released := true } }, fits (by decide +kernel), by and_intros <;> decide +kernel⟩,
   ⟨12, t0, fits (by decide +kernel), by decide +kernel, by decide +kernel, fun _ k _ h1 h2 => absurd h2 (Nat.not_lt.mpr h1)⟩,
   ⟨13, t0, fits (by decide +kernel), Or.inr (Or.inl (by decide))⟩⟩

theorem test_meets_I3cTarget :
    (∃ e, ∃ (s : State), Fits (.enec e) s ∧ stationUp s.dev = true ∧ s.dev.mgmt.smbus = false) ∧
    (∃ e, ∃ (s : State), Fits (.disec e) s ∧ stationUp s.dev = true ∧ s.dev.mgmt.smbus = false) ∧
    (∃ (s : State), Fits .rstdaa s ∧ stationUp s.dev = true ∧ s.dev.mgmt.smbus = false) ∧
    (∃ a, ∃ (s : State), Fits (.entdaa a) s ∧ stationUp s.dev = true ∧ s.dev.mgmt.smbus = false) ∧
    (∃ x a, ∃ (s : State), Fits (.setdasa x a) s ∧ stationUp s.dev = true ∧ s.dev.mgmt.smbus = false) ∧
    (∃ v, ∃ (s : State), Fits (.setmwl v) s ∧ stationUp s.dev = true ∧ s.dev.mgmt.smbus = false) ∧
    (∃ v, ∃ (s : State), Fits (.setmrl v) s ∧ stationUp s.dev = true ∧ s.dev.mgmt.smbus = false) ∧
    (∃ i n, ∃ (s : State), (i, n) ∈ [(Instr.getpid, 6), (.getbcr, 1), (.getdcr, 1), (.getstatus, 2), (.getmwl, 2), (.getmrl, 2)] ∧ Fits i s ∧
      stationUp s.dev = true ∧ s.dev.mgmt.smbus = false ∧ s.dev.mgmt.dyn = none) ∧
    (∃ i n, ∃ (s : State), (i, n) ∈ [(Instr.getpid, 6), (.getbcr, 1), (.getdcr, 1), (.getstatus, 2), (.getmwl, 2), (.getmrl, 2)] ∧ Fits i s ∧
      stationUp s.dev = true ∧ s.dev.mgmt.smbus = false ∧ s.dev.mgmt.dyn ≠ none) ∧
    (∃ (s : State), Fits .smbusModeEntry s ∧ stationUp s.dev = true ∧ s.dev.mgmt.broadcast = false) :=
  ⟨⟨1, tAnd id fun d => { d with pkg := { d.pkg with released := true } }, fits (by decide +kernel), by and_intros <;> decide +kernel⟩,
   ⟨1, tAnd id fun d => { d with pkg := { d.pkg with released := true } }, fits (by decide +kernel), by and_intros <;> decide +kernel⟩,
   ⟨tAnd id fun d => { d with pkg := { d.pkg with released := true } }, fits (by decide +kernel), by and_intros <;> decide +kernel⟩,
   ⟨0x7F, tAnd id fun d => { d with pkg := { d.pkg with released := true } }, fits (by decide +kernel), by and_intros <;> decide +kernel⟩,
   ⟨1, 1, tAnd id fun d => { d with pkg := { d.pkg with released := true } }, fits (by decide +kernel), by and_intros <;> decide +kernel⟩,
   ⟨1, tAnd id fun d => { d with pkg := { d.pkg with released := true } }, fits (by decide +kernel), by and_intros <;> decide +kernel⟩,
   ⟨1, tAnd id fun d => { d with pkg := { d.pkg with released := true } }, fits (by decide +kernel), by and_intros <;> decide +kernel⟩,
   ⟨.getpid, 6, tAnd id fun d => { d with pkg := { d.pkg with released := true } }, List.mem_cons_self, fits (by decide +kernel), by and_intros <;> decide +kernel⟩,
   ⟨.getpid, 6, tAnd id fun d => { d with pkg := { d.pkg with released := true }, mgmt := { d.mgmt with dyn := some 8 } }, List.mem_cons_self,
    fits (by decide +kernel), by and_intros <;> decide +kernel⟩,
   ⟨tAnd id fun d => { d with pkg := { d.pkg with released := true } }, fits (by decide +kernel), by and_intros <;> decide +kernel⟩⟩

theorem test_meets_StartUp :
    (∃ (s : State), Fits .resetRelease s ∧ s.dev.pkg.pwrgd = true ∧ s.dev.pkg.reset = false ∧ s.dev.pkg.released = false) ∧
    (∃ die, ∃ (x : BitVec 3), ∃ y, ∃ (s : State), ∃ ones, Fits (.rootPllLock die x y) s ∧ die < 8 ∧ die < s.dev.part.dies ∧ s.dev.pkg.released = true ∧
      (getBoot s.dev die).locked = false ∧ ones = b2n (x.getLsbD 0) + b2n (x.getLsbD 1) + b2n (x.getLsbD 2) + b2n y ∧ NotJustReady s.dev) ∧
    (∃ die m p, ∃ (s : State), Fits (.positionExchange die m p) s ∧ die < 8 ∧ m < 4 ∧ die < s.dev.part.dies ∧ (getBoot s.dev die).locked = true ∧
      NotJustReady s.dev) ∧
    (∃ die m p, ∃ (s : State), ∃ old, Fits (.positionExchange die m p) s ∧ die < 8 ∧ m < 4 ∧ die < s.dev.part.dies ∧ (getBoot s.dev die).locked = true ∧
      facing s.dev.part.dies (rfld s.dev .abwId die 0 0 18 16) m ≠ p.elim Facing.command Facing.die ∧ bootPhase s.dev die ≠ 4 ∧
      s.dev.pkg.readyAt = some (s.dev.tick, old)) ∧
    (∃ die, ∃ (s : State), Fits (.announce die) s ∧ die < 8 ∧ die < s.dev.part.dies ∧ (getBoot s.dev die).locked = true ∧
      (getBoot s.dev die).announced = false) ∧
    (∃ die, ∃ (s : State), Fits (.progress die) s ∧ die < 8 ∧ die < s.dev.part.dies ∧ (getBoot s.dev die).announced = true ∧ pkgReady s.dev = false) ∧
    (∃ mask, ∃ n s x, Fits (.fwBegin mask n) s ∧ s.dev.pkg.released = true ∧ triHalted s.dev = false ∧ s.dev.part.dies ≤ 8 ∧ x < s.dev.part.dies ∧
      mask.getLsbD x = true ∧ stationState s.dev x = 0 ∧ bootPhase s.dev x ≠ 4 ∧ s.dev.pkg.tmode = false ∧ (getBoot s.dev x).locked = true ∧
      reaches s.dev x = true) ∧
    (∃ off b s, Fits (.fwData off b) s ∧ s.dev.pkg.released = true ∧ triHalted s.dev = false ∧ b.length = 64 ∧ off % 64 = 0 ∧ s.dev.part.dies ≤ 8 ∧ ∀ x,
      x < 3 → (getBoot s.dev x).fwSize = some fwBodyOff ∧ bootPhase s.dev x ≠ 4 ∧ reaches s.dev x = true ∧ (x = 1 ↔ off = (getBoot s.dev x).fw.length)) ∧
    (∃ s, Fits .fwEnd s ∧ s.dev.pkg.released = true ∧ triHalted s.dev = false ∧ s.dev.part.dies ≤ 8 ∧ (∀ x,
      x < 3 → (getBoot s.dev x).fwSize = some fwBodyOff ∧ bootPhase s.dev x ≠ 4 ∧ reaches s.dev x = true) ∧ (getBoot s.dev 1).fw.length < fwBodyOff ∧
      ∀ x ∈ [0, 2], fwBodyOff ≤ (getBoot s.dev x).fw.length ∧
      (x = 0 ↔ sha256 (((getBoot s.dev x).fw.drop fwBodyOff).take (bytesNat (getBoot s.dev x).fw 0x10 4)) = ((getBoot s.dev x).fw.drop 0x20).take 32)) ∧
    (∃ w, ∃ (s : State), Fits (.meshWaveStart w) s ∧ w < 16 ∧ s.dev.pkg.released = true ∧ triHalted s.dev = false ∧ w = s.dev.pkg.wave + 1 ∧
      w ≤ waveCount s.dev.part.dies ∧ waveEnded s.dev s.dev.pkg.wave = true ∧ (∀ l ∈ waveLinks s.dev w, stationRuns s.dev l.1 = true)) ∧
    (∃ die m ok mode half rep, ∃ (s : State), Fits (.meshLinkTrained die m ok mode half rep) s ∧ die < 8 ∧ m < 4 ∧ die < s.dev.part.dies ∧
      uciState s.dev die m = 1 ∧ NotJustReady s.dev) ∧
    (∃ die f, ∃ (s : State), Fits (.hbmTrainingDone die f) s ∧ die < 8 ∧ die < s.dev.part.dies ∧ stationRuns s.dev die = true ∧
      (getBoot s.dev die).hbm = false ∧ triHalted s.dev = false) ∧
    (∃ die l, ∃ (s : State), Fits (.selfTestDone die l) s ∧ die < 8 ∧ die < s.dev.part.dies ∧ stationRuns s.dev die = true ∧
      (getBoot s.dev die).tested = false ∧ triHalted s.dev = false ∧ tripped s.dev die = false) ∧
    (∃ (s : State), Fits .tickAlign s ∧ s.dev.pkg.aligned = false ∧ s.dev.pkg.wave = waveCount s.dev.part.dies ∧ waveEnded s.dev s.dev.pkg.wave = true ∧
      triHalted s.dev = false) ∧
    (∃ die, ∃ (s : State), Fits (.dieSilence die) s ∧ die < 8 ∧ die < s.dev.part.dies ∧ s.dev.pkg.released = true ∧ pkgReady s.dev = false ∧
      silent s.dev die = false ∧ silenceTicks ≤ sinceRelease s.dev - (getBoot s.dev die).heard) ∧
    (∃ m, ∃ (s : State), Fits (.abwTriReady m) s ∧ s.dev.part.dies ≤ 8 ∧ pkgReady s.dev = false ∧ ReadyAccepted s.dev m.toNat) ∧
    (∃ m, ∃ (s : State), Fits (.abwTriReady m) s ∧ s.dev.part.dies ≤ 8 ∧ (pkgReady s.dev = true ∨ ¬ReadyAccepted s.dev m.toNat)) ∧
    (∃ die m, ∃ (s : State), Fits (.ucieFlitReplay die m) s ∧ pkgReady s.dev = true ∧ uciState s.dev die m = 2) ∧
    (∃ die m, ∃ (s : State), Fits (.ucieRetrain die m) s ∧ pkgReady s.dev = true ∧ uciState s.dev die m = 2) ∧
    (∃ die m ok mode half rep, ∃ (s : State), Fits (.ucieRetrainDone die m ok mode half rep) s ∧ die < 8 ∧ m < 4 ∧ die < s.dev.part.dies ∧
      uciState s.dev die m = 3 ∧ ok = true) ∧
    (∃ die m ok mode half rep, ∃ (s : State), Fits (.ucieRetrainDone die m ok mode half rep) s ∧ die < 8 ∧ m < 4 ∧ die < s.dev.part.dies ∧
      uciState s.dev die m = 3 ∧ ok = false ∧ pkgReady s.dev = true) ∧
    (∃ die m ok mode half rep, ∃ (s : State), Fits (.ucieRetrainDone die m ok mode half rep) s ∧ die < 8 ∧ m < 4 ∧ die < s.dev.part.dies ∧
      uciState s.dev die m = 3 ∧ ok = false ∧ pkgReady s.dev = false ∧ bootPhase s.dev die ≠ 4 ∧ NotJustReady s.dev) :=
  ⟨⟨t0, fits (by decide +kernel), by and_intros <;> decide +kernel⟩,
   ⟨7, 7, true, tAnd id fun d => { d with pkg := { d.pkg with released := true } }, 4, fits (by decide +kernel), by decide +kernel, by decide +kernel,
    by decide +kernel, by decide +kernel, by decide +kernel, fun x h => nomatch h⟩,
   ⟨7, 3, some 5, tAnd id fun d => { d with boot := [(7, { Boot.empty with locked := true })] }, fits (by decide +kernel), by decide +kernel,
    by decide +kernel, by decide +kernel, by decide +kernel, fun x h => nomatch h⟩,
   ⟨7, 3, some 5, tAnd id (fun d => { d with boot := [(7, { Boot.empty with locked := true })], pkg := { d.pkg with readyAt := some (0, 0) } }), 0,
    fits (by decide +kernel), by and_intros <;> decide +kernel⟩,
   ⟨7, tAnd id fun d => { d with boot := [(7, { Boot.empty with locked := true })] }, fits (by decide +kernel), by and_intros <;> decide +kernel⟩,
   ⟨7, tAnd id fun d => { d with boot := [(7, { Boot.empty with announced := true })] }, fits (by decide +kernel), by and_intros <;> decide +kernel⟩,
   ⟨0xFF, 64, tAnd id fun d => { d with pkg := { d.pkg with released := true }, boot := [(0, { Boot.empty with locked := true })] }, 0,
    fits (by decide +kernel), by and_intros <;> decide +kernel⟩,
   ⟨0, List.replicate 64 0, tFw, fits (by decide +kernel), by and_intros <;> decide +kernel⟩,
   ⟨tFw, fits (by decide +kernel), by and_intros <;> decide +kernel⟩,
   ⟨1, tAnd id fun d => (List.range 8).foldl (fun d x => rset d .abwStation x 0 0 2 0 2) { d with pkg := { d.pkg with released := true } },
    fits (by decide +kernel), by and_intros <;> decide +kernel⟩,
   ⟨7, 3, true, 2, true, 0, tAnd id fun d => rset d .uciLink 7 0 3 2 0 1, fits (by decide +kernel), by decide +kernel, by decide +kernel,
    by decide +kernel, by decide +kernel, fun x h => nomatch h⟩,
   ⟨7, 0xFFFF, tAnd id fun d => rset d .abwStation 7 0 0 2 0 2, fits (by decide +kernel), by and_intros <;> decide +kernel⟩,
   ⟨7, [], tAnd id fun d => rset d .abwStation 7 0 0 2 0 2, fits (by decide +kernel), by and_intros <;> decide +kernel⟩,
   ⟨tAnd id fun d => (List.range 8).foldl (fun d x => (List.range 4).foldl (fun d m => rset d .uciLink x 0 m 2 0 2) d) { d with pkg := { d.pkg with wave := waveCount 8 } },
    fits (by decide +kernel), by and_intros <;> decide +kernel⟩,
   ⟨7, tAnd id fun d => { d with pkg := { d.pkg with released := true, elapsed := silenceTicks } }, fits (by decide +kernel), by and_intros <;> decide +kernel⟩,
   ⟨BitVec.ofNat _ (fullMap 8),
    tAnd id fun d => (List.range 8).foldl (fun d x => rset d .abwBoot x 0 0 3 0 3) { d with pkg := { d.pkg with aligned := true }, boot := (List.range 8).map fun x => (x, { Boot.empty with digest := [1] }) },
    fits (by decide +kernel), by decide +kernel, by decide +kernel, by unfold ReadyAccepted; decide +kernel⟩,
   ⟨0, t0, fits (by decide +kernel), by decide +kernel, .inr fun h => absurd (h.1 0 (by decide)) (by decide)⟩,
   ⟨7, 3, tAnd id fun d => rset (rset d .abwTri 0 0 0 24 24 1) .uciLink 7 0 3 2 0 2, fits (by decide +kernel), by and_intros <;> decide +kernel⟩,
   ⟨7, 3, tAnd id fun d => rset (rset d .abwTri 0 0 0 24 24 1) .uciLink 7 0 3 2 0 2, fits (by decide +kernel), by and_intros <;> decide +kernel⟩,
   ⟨7, 3, true, 2, true, 0, tAnd id fun d => rset d .uciLink 7 0 3 2 0 3, fits (by decide +kernel), by and_intros <;> decide +kernel⟩,
   ⟨7, 3, false, 2, true, 0, tAnd id fun d => rset (rset d .uciLink 7 0 3 2 0 3) .abwTri 0 0 0 24 24 1, fits (by decide +kernel), by and_intros <;> decide +kernel⟩,
   ⟨7, 3, false, 2, true, 0, tAnd id fun d => rset d .uciLink 7 0 3 2 0 3, fits (by decide +kernel), by decide +kernel, by decide +kernel,
    by decide +kernel, by decide +kernel, by decide +kernel, (by decide +kernel), by decide +kernel, fun x h => nomatch h⟩⟩

theorem test_meets_PinsAndTaps :
    (∃ (s : State), Fits .pkgPwrgdAssert s ∧ s.dev.pkg.pwrgd = false) ∧
    (∃ (s : State), Fits .pkgPwrgdDeassert s ∧ s.dev.pkg.pwrgd = true ∧ s.dev.part.dies ≤ 8) ∧
    (∃ (s : State), Fits .pkgResetAssert s ∧ s.dev.pkg.reset = false ∧ s.dev.part.dies ≤ 8) ∧
    (∃ a m, ∃ (s : State), Fits (.pkgResetDeassert a m) s ∧ s.dev.pkg.reset = true) ∧
    (∃ die mv, ∃ (s : State), Fits (.railSample die mv) s ∧ die < 8 ∧ die < s.dev.part.dies ∧ s.dev.pkg.pwrgd = true ∧ s.dev.tick % 16 = 0 ∧
      mv.length = (if die = 0 then 10 else 9)) ∧
    (∃ die mv, ∃ (s : State), Fits (.railSample die mv) s ∧ die < 8 ∧ die < s.dev.part.dies ∧ s.dev.pkg.pwrgd = true ∧ s.dev.tick % 16 = 0 ∧
      mv.length = (if die = 0 then 10 else 9) ∧ (∀ k, k < mv.length → railOut k (mv.getD k 0).toNat = false)) ∧
    (∃ die mv, ∃ (s : State), Fits (.railSample die mv) s ∧ die < 8 ∧ die < s.dev.part.dies ∧ s.dev.pkg.pwrgd = true ∧ s.dev.tick % 16 = 0 ∧
      mv.length = (if die = 0 then 10 else 9) ∧ (∃ k, k < mv.length ∧ railOut k (mv.getD k 0).toNat = true ∧
      tget false (getBoot s.dev die).rails k = true)) ∧
    (∃ die, ∃ (s : State), Fits (.rail7Undervoltage die) s ∧ Tidy s.dev ∧ die < 8 ∧ die < s.dev.part.dies ∧ s.dev.pkg.pwrgd = true) ∧
    (∃ die k, ∃ (r : BitVec 8), ∃ h, ∃ (s : State), Fits (.thermalTrip die k r h) s ∧ die < 8 ∧ k < 16 ∧ die < s.dev.part.dies ∧ s.dev.pkg.pwrgd = true ∧
      s.dev.pkg.released = true ∧ (if h = true then 105 else 115) ≤ r.toInt ∧ tripped s.dev die = false) ∧
    (∃ die k, ∃ (r : BitVec 8), ∃ h, ∃ (s : State), Fits (.thermalTrip die k r h) s ∧ die < 8 ∧ k < 16 ∧ die < s.dev.part.dies ∧ s.dev.pkg.pwrgd = true ∧
      s.dev.pkg.released = true ∧ (if h = true then 105 else 115) ≤ r.toInt ∧ tripped s.dev die = true) ∧
    (∃ die p, ∃ (s : State), Fits (.pllUnlock die p) s ∧ die < 8 ∧ p < 4 ∧ die < s.dev.part.dies ∧ rfld s.dev .pkgClk die 0 0 p p = 1) ∧
    (∃ (s : State), Fits .pkgTrst s) ∧
    (∃ i die ir, ∃ (s : State), (i, ir) ∈ [(Instr.idcode die, 0x02#8), (.clamp die, 0x03), (.highz die, 0x04), (.bypass die, 0xFF)] ∧ Fits i s ∧ die < 8 ∧
      die < s.dev.part.dies ∧ tapsRun s.dev = true) ∧
    (∃ i die b ir, ∃ (s : State), (i, ir) ∈ [(Instr.extest die, 0x00#8), (.samplePreload die b, 0x01)] ∧ Fits i s ∧ die < 8 ∧ die < s.dev.part.dies ∧
      tapsRun s.dev = true) ∧
    (∃ die code, ∃ (s : State), Fits (.privateJtag die code) s ∧ die < 8 ∧ die < s.dev.part.dies ∧ tapsRun s.dev = true) :=
  ⟨⟨tAnd id fun d => { d with pkg := { d.pkg with pwrgd := false } }, fits (by decide +kernel), by decide +kernel⟩,
   ⟨t0, fits (by decide +kernel), by and_intros <;> decide +kernel⟩,
   ⟨t0, fits (by decide +kernel), by and_intros <;> decide +kernel⟩,
   ⟨3, true, tAnd id fun d => { d with pkg := { d.pkg with reset := true } }, fits (by decide +kernel), by decide +kernel⟩,
   ⟨0, [750, 800, 750, 900, 1100, 400, 1800, 800, 1800, 750], t0, fits (by decide +kernel), by and_intros <;> decide +kernel⟩,
   ⟨0, [750, 800, 750, 900, 1100, 400, 1800, 800, 1800, 750], t0, fits (by decide +kernel), by and_intros <;> decide +kernel⟩,
   ⟨7, [750, 800, 750, 900, 1100, 400, 1800, 800, 0], tAnd id fun d => { d with boot := [(7, { Boot.empty with rails := [(8, true)] })] },
    fits (by decide +kernel), by decide +kernel, by decide +kernel, by decide +kernel, by decide +kernel, by decide +kernel, ⟨8, by decide +kernel⟩⟩,
   ⟨7, t0, fits (by decide +kernel), by unfold Tidy Rising; decide +kernel, by and_intros <;> decide +kernel⟩,
   ⟨7, 15, 105, true, tAnd id fun d => { d with pkg := { d.pkg with released := true, pwrgd := true } }, fits (by decide +kernel), by and_intros <;> decide +kernel⟩,
   ⟨7, 15, 105, true, tAnd id fun d => { d with pkg := { d.pkg with released := true, pwrgd := true, trips := [(7, true)] } }, fits (by decide +kernel), by and_intros <;> decide +kernel⟩,
   ⟨7, 3, tAnd id fun d => rset d .pkgClk 7 0 0 3 3 1, fits (by decide +kernel), by and_intros <;> decide +kernel⟩,
   ⟨t0, fits (by decide +kernel)⟩,
   ⟨.bypass 7, 7, 0xFF, tAnd id fun d => { d with pkg := { d.pkg with pwrgd := true, reset := false } }, by decide +kernel, fits (by decide +kernel), by and_intros <;> decide +kernel⟩,
   ⟨.extest 7, 7, 0x3FF, 0x00, tAnd id fun d => { d with pkg := { d.pkg with pwrgd := true, reset := false } }, List.mem_cons_self,
    fits (by decide +kernel), by and_intros <;> decide +kernel⟩,
   ⟨7, 5, t0, fits (by decide +kernel), by and_intros <;> decide +kernel⟩⟩

theorem test_meets_RegistersAndHost :
    (∃ a n v, ∃ (s : State), Fits (.registerWrite a n v) s ∧ n ∈ [1, 2, 4, 8] ∧ a.toNat % n = 0 ∧ a.toNat / 2 ^ 50 = 3 ∧ resolve s.dev a = none) ∧
    (∃ (a : Addr), ∃ v, ∃ (s : State), ∃ die off r i j, Fits (.registerWrite a 8 v) s ∧ a.toNat % 8 = 0 ∧ a.toNat / 2 ^ 50 = 3 ∧
      resolve s.dev a = some (.reg die off) ∧ commandBusy s.dev die = false ∧ hitAt s.dev die off = some (.reg r i j false) ∧
      hitAt s.dev die (off + 4) = some (.reg r i j true) ∧ r ∈ [RegName.abwId, .abwSerial, .abwFeatures, .zlkStatus, .medPipe, .pclStat] ∧
      (∀ f ∈ r.row.fields, f.acc = .ro)) ∧
    (∃ (a : Addr), ∃ v, ∃ (s : State), ∃ die off r i j, Fits (.registerWrite a 8 v) s ∧ a.toNat % 8 = 0 ∧ a.toNat / 2 ^ 50 = 3 ∧
      resolve s.dev a = some (.reg die off) ∧ commandBusy s.dev die = false ∧ hitAt s.dev die off = some (.reg r i j false) ∧
      hitAt s.dev die (off + 4) = some (.reg r i j true) ∧ r = .cmdAdminArg) ∧
    (∃ (a : Addr), ∃ v, ∃ (s : State), ∃ die off r i j, Fits (.registerWrite a 8 v) s ∧ a.toNat % 8 = 0 ∧ a.toNat / 2 ^ 50 = 3 ∧
      resolve s.dev a = some (.reg die off) ∧ commandBusy s.dev die = false ∧ hitAt s.dev die off = some (.reg r i j false) ∧
      hitAt s.dev die (off + 4) = some (.reg r i j true) ∧ r = .schSlot ∧ bankLocked s.dev (j / 256) = true) ∧
    (∃ (a : Addr), ∃ v, ∃ (s : State), ∃ die off r i j, Fits (.registerWrite a 8 v) s ∧ a.toNat % 8 = 0 ∧ a.toNat / 2 ^ 50 = 3 ∧
      resolve s.dev a = some (.reg die off) ∧ commandBusy s.dev die = false ∧ hitAt s.dev die off = some (.reg r i j false) ∧
      hitAt s.dev die (off + 4) = some (.reg r i j true) ∧ r = .cmdEvtStat) ∧
    (∃ (a : Addr), ∃ v, ∃ (s : State), ∃ die off r i j, Fits (.registerWrite a 4 v) s ∧ a.toNat % 4 = 0 ∧ a.toNat / 2 ^ 50 = 3 ∧
      resolve s.dev a = some (.reg die off) ∧ off % 4 = 0 ∧ hitAt s.dev die off = some (.reg r i j false) ∧ commandBusy s.dev die = false ∧
      r = .chnFault) ∧
    (∃ (a : Addr), ∃ v, ∃ (s : State), ∃ die off r i j, Fits (.registerWrite a 4 v) s ∧ a.toNat % 4 = 0 ∧ a.toNat / 2 ^ 50 = 3 ∧
      resolve s.dev a = some (.reg die off) ∧ off % 4 = 0 ∧ hitAt s.dev die off = some (.reg r i j false) ∧ commandBusy s.dev die = false ∧
      r = .errAck ∧ Fits (.errAckAll die) s ∧ v.getLsbD 6 = true) ∧
    (∃ (a : Addr), ∃ v, ∃ (s : State), ∃ die off r i j, Fits (.registerWrite a 4 v) s ∧ a.toNat % 4 = 0 ∧ a.toNat / 2 ^ 50 = 3 ∧
      resolve s.dev a = some (.reg die off) ∧ off % 4 = 0 ∧ hitAt s.dev die off = some (.reg r i j false) ∧ commandBusy s.dev die = false ∧
      r = .errCoreRst ∧ Fits (.errCoreRst die (v.extractLsb' 0 8)) s ∧ v.getLsbD 8 = true) ∧
    (∃ (a : Addr), ∃ v, ∃ (s : State), ∃ die off r i j, Fits (.registerWrite a 4 v) s ∧ a.toNat % 4 = 0 ∧ a.toNat / 2 ^ 50 = 3 ∧
      resolve s.dev a = some (.reg die off) ∧ off % 4 = 0 ∧ hitAt s.dev die off = some (.reg r i j false) ∧ commandBusy s.dev die = false ∧
      r = .errCoreRst ∧ Fits (.errCoreRst die (v.extractLsb' 0 8)) s ∧ v.getLsbD 8 = false) ∧
    (∃ (a : Addr), ∃ v, ∃ (s : State), ∃ die off r i j, Fits (.registerWrite a 4 v) s ∧ a.toNat % 4 = 0 ∧ a.toNat / 2 ^ 50 = 3 ∧
      resolve s.dev a = some (.reg die off) ∧ off % 4 = 0 ∧ hitAt s.dev die off = some (.reg r i j false) ∧ commandBusy s.dev die = false ∧
      r = .cubeCtl ∧ v.getLsbD 0 = false ∧ (getCube s.dev ⟨die, i⟩ j).run = none) ∧
    (∃ (a : Addr), ∃ v, ∃ (s : State), ∃ die off r i j, Fits (.registerWrite a 4 v) s ∧ a.toNat % 4 = 0 ∧ a.toNat / 2 ^ 50 = 3 ∧
      resolve s.dev a = some (.reg die off) ∧ off % 4 = 0 ∧ hitAt s.dev die off = some (.reg r i j false) ∧ commandBusy s.dev die = false ∧
      r = .cubeCtl ∧ v.getLsbD 0 = false ∧ (getCube s.dev ⟨die, i⟩ j).run ≠ none) ∧
    (∃ (a : Addr), ∃ (v : BitVec 64), ∃ (s : State), ∃ die off i j, Fits (.registerWrite a 4 v) s ∧ a.toNat % 4 = 0 ∧ a.toNat / 2 ^ 50 = 3 ∧
      resolve s.dev a = some (.reg die off) ∧ off % 4 = 0 ∧ hitAt s.dev die off = some (.reg .medCtl i j false) ∧ v.toNat ≤ 100 ∧
      commandBusy s.dev die = false) ∧
    (∃ a, ∃ (s : State), ∃ die off r i j hi p, Fits (.shadowWriteApply a) s ∧ resolve s.dev a = some (.reg die off) ∧
      hitAt s.dev die (off - off % 4) = some (.reg r i j hi) ∧ p = tget ⟨0, 0, 0⟩ s.dev.shadow (regKey r die i j) ∧ p.mask ≠ 0 ∧
      atBoundary s.dev r die i j = true) ∧
    (∃ (s : State), Fits .liveWriteApply s ∧ (∃ e ∈ s.dev.live, e.since ≤ s.dev.tick)) ∧
    (∃ a n x, ∃ (s : State), Fits (.commandDieAccess a n x) s ∧ pkgReady s.dev = true ∧ commandBusy s.dev (servingDie s.dev a) = false ∧ a.toNat % n ≠ 0 ∧
      n ≠ 0) ∧
    (∃ a n x, ∃ (s : State), Fits (.commandDieAccess a n x) s ∧ pkgReady s.dev = true ∧ commandBusy s.dev (servingDie s.dev a) = false ∧ a.toNat % n = 0 ∧
      resolve s.dev a = none) ∧
    (∃ a n x, ∃ (s : State), Fits (.commandDieAccess a n x) s ∧ pkgReady s.dev = true ∧ commandBusy s.dev (servingDie s.dev a) = false ∧ ∃ die off,
      a.toNat % n = 0 ∧ resolve s.dev a = some (.reg die off) ∧ n ≠ 64 ∧ x = none) ∧
    (∃ a n x, ∃ (s : State), Fits (.commandDieAccess a n x) s ∧ pkgReady s.dev = true ∧ commandBusy s.dev (servingDie s.dev a) = false ∧ ∃ die off b,
      a.toNat % n = 0 ∧ resolve s.dev a = some (.reg die off) ∧ n ≠ 64 ∧ x = some b ∧ Fits (.registerWrite a n (BitVec.ofNat 64 (leNat b))) s ∧
      a.toNat / 2 ^ 50 = 3 ∧ leNat b < 2 ^ 64 ∧ ∃ t, exec (.registerWrite a n (BitVec.ofNat 64 (leNat b))) s = .next { s with dev := t } ∧
      commandBusy s.dev die = false) ∧
    (∃ a n x, ∃ (s : State), Fits (.commandDieAccess a n x) s ∧ pkgReady s.dev = true ∧ commandBusy s.dev (servingDie s.dev a) = false ∧ ∃ die off,
      a.toNat % n = 0 ∧ resolve s.dev a = some (.reg die off) ∧ n = 64) ∧
    (∃ a n x, ∃ (s : State), Fits (.commandDieAccess a n x) s ∧ pkgReady s.dev = true ∧ commandBusy s.dev (servingDie s.dev a) = false ∧ ∃ p e b,
      a.toNat % n = 0 ∧ resolve s.dev a = some p ∧ (∀ die off, p ≠ .reg die off) ∧ placeBusy s.dev p = false ∧ x = none ∧
      devRead s.dev a n false = (e, .ok b)) ∧
    (∃ a n x, ∃ (s : State), Fits (.commandDieAccess a n x) s ∧ pkgReady s.dev = true ∧ commandBusy s.dev (servingDie s.dev a) = false ∧ ∃ p e b,
      a.toNat % n = 0 ∧ resolve s.dev a = some p ∧ (∀ die off, p ≠ .reg die off) ∧ placeBusy s.dev p = false ∧ x = some b ∧ devWrite s.dev a b = (e,
      .ok ())) :=
  ⟨⟨mkAddr 3 0 0x900000, 8, 1, t0, fits (by decide +kernel), by and_intros <;> decide +kernel⟩,
   ⟨BitVec.ofNat 52 (regAddr .abwId 0 0 0), 1, t0, 0, offOf (BitVec.ofNat 52 (regAddr .abwId 0 0 0)), .abwId, 0, 0, fits (by decide +kernel), by and_intros <;> decide +kernel⟩,
   ⟨BitVec.ofNat 52 (regAddr .cmdAdminArg 0 0 0), 1, t0, 0, offOf (BitVec.ofNat 52 (regAddr .cmdAdminArg 0 0 0)), .cmdAdminArg, 0, 0,
    fits (by decide +kernel), by and_intros <;> decide +kernel⟩,
   ⟨BitVec.ofNat 52 (regAddr .schSlot 0 0 0), 1, tAnd id fun d => rset d .schCtl 0 0 0 0 0 1, 0, offOf (BitVec.ofNat 52 (regAddr .schSlot 0 0 0)),
    .schSlot, 0, 0, fits (by decide +kernel), by and_intros <;> decide +kernel⟩,
   ⟨BitVec.ofNat 52 (regAddr .cmdEvtStat 0 0 0), 1, t0, 0, offOf (BitVec.ofNat 52 (regAddr .cmdEvtStat 0 0 0)), .cmdEvtStat, 0, 0,
    fits (by decide +kernel), by and_intros <;> decide +kernel⟩,
   ⟨BitVec.ofNat 52 (regAddr .chnFault 0 0 0), 1, t0, 0, offOf (BitVec.ofNat 52 (regAddr .chnFault 0 0 0)), .chnFault, 0, 0, fits (by decide +kernel), by and_intros <;> decide +kernel⟩,
   ⟨BitVec.ofNat 52 (regAddr .errAck 0 0 0), 64, t0, 0, offOf (BitVec.ofNat 52 (regAddr .errAck 0 0 0)), .errAck, 0, 0, fits (by decide +kernel),
    by decide +kernel, by decide +kernel, by decide +kernel, by decide +kernel, by decide +kernel, (by decide +kernel), by decide +kernel,
    fits (by decide +kernel), by decide +kernel⟩,
   ⟨BitVec.ofNat 52 (regAddr .errCoreRst 0 0 0), 399, t0, 0, offOf (BitVec.ofNat 52 (regAddr .errCoreRst 0 0 0)), .errCoreRst, 0, 0,
    fits (by decide +kernel), by decide +kernel, by decide +kernel, by decide +kernel, by decide +kernel, by decide +kernel, (by decide +kernel),
    by decide +kernel, fits (by decide +kernel), by decide +kernel⟩,
   ⟨BitVec.ofNat 52 (regAddr .errCoreRst 0 0 0), 143, t0, 0, offOf (BitVec.ofNat 52 (regAddr .errCoreRst 0 0 0)), .errCoreRst, 0, 0,
    fits (by decide +kernel), by decide +kernel, by decide +kernel, by decide +kernel, by decide +kernel, by decide +kernel, (by decide +kernel),
    by decide +kernel, fits (by decide +kernel), by decide +kernel⟩,
   ⟨BitVec.ofNat 52 (regAddr .cubeCtl 0 0 0), 1280, t0, 0, offOf (BitVec.ofNat 52 (regAddr .cubeCtl 0 0 0)), .cubeCtl, 0, 0, fits (by decide +kernel), by and_intros <;> decide +kernel⟩,
   ⟨BitVec.ofNat 52 (regAddr .cubeCtl 0 0 0), 1280, tCube { Cube.empty with run := some (tRun id) }, 0,
    offOf (BitVec.ofNat 52 (regAddr .cubeCtl 0 0 0)), .cubeCtl, 0, 0, fits (by decide +kernel), by and_intros <;> decide +kernel⟩,
   ⟨BitVec.ofNat 52 (regAddr .medCtl 0 0 0), 100, t0, 0, offOf (BitVec.ofNat 52 (regAddr .medCtl 0 0 0)), 0, 0, fits (by decide +kernel), by and_intros <;> decide +kernel⟩,
   ⟨BitVec.ofNat 52 (regAddr .cubeCtl 0 0 3), tAnd id fun d => { d with shadow := [(regKey .cubeCtl 0 0 3, ⟨1, 1, 0⟩)] }, 0,
    offOf (BitVec.ofNat 52 (regAddr .cubeCtl 0 0 3)), .cubeCtl, 0, 3, false, ⟨1, 1, 0⟩, fits (by decide +kernel), by and_intros <;> decide +kernel⟩,
   ⟨tAnd id fun d => { d with tick := 1, live := [⟨0, 1, 1, 0⟩] }, fits (by decide +kernel), by decide +kernel⟩,
   ⟨1, 8, none, tAnd id fun d => rset d .abwTri 0 0 0 24 24 1, fits (by decide +kernel), by and_intros <;> decide +kernel⟩,
   ⟨0, 8, none, tAnd id fun d => rset d .abwTri 0 0 0 24 24 1, fits (by decide +kernel), by and_intros <;> decide +kernel⟩,
   ⟨BitVec.ofNat 52 (regAddr .abwId 0 0 0), 8, none, tAnd id fun d => rset d .abwTri 0 0 0 24 24 1, fits (by decide +kernel), by decide +kernel,
    by decide +kernel, 0, offOf (BitVec.ofNat 52 (regAddr .abwId 0 0 0)), by and_intros <;> decide +kernel⟩,
   ⟨BitVec.ofNat 52 (regAddr .kvsGeom 0 0 0), 8, some (List.replicate 8 0), tAnd id (fun d => rset d .abwTri 0 0 0 24 24 1), fits (by decide +kernel),
    by decide +kernel, by decide +kernel, 0, offOf (BitVec.ofNat 52 (regAddr .kvsGeom 0 0 0)), List.replicate 8 0, by decide +kernel,
    by decide +kernel, by decide +kernel, by decide +kernel, fits (by decide +kernel), by decide +kernel, by decide +kernel,
    tNext (exec (.registerWrite (BitVec.ofNat 52 (regAddr .kvsGeom 0 0 0)) 8 0) (tAnd id (fun d => rset d .abwTri 0 0 0 24 24 1))),
    next_ok (by decide +kernel), by decide +kernel⟩,
   ⟨BitVec.ofNat 52 (3 * 2 ^ 50), 64, none, tAnd id (fun d => rset d .abwTri 0 0 0 24 24 1), fits (by decide +kernel), by decide +kernel,
    by decide +kernel, 0, 0, by and_intros <;> decide +kernel⟩,
   ⟨storeAddr tc 0, 8, none, (tAnd id fun d => rset d .abwTri 0 0 0 24 24 1), fits (by decide +kernel), by decide +kernel, by decide +kernel,
    .store tc 0, (devRead (tAnd id fun d => rset d .abwTri 0 0 0 24 24 1).dev (storeAddr tc 0) 8 false).1, List.replicate 8 0, by decide +kernel,
    by decide +kernel, (by intro _ _ h; cases h), by and_intros <;> decide +kernel⟩,
   ⟨storeAddr tc 0, 8, some (List.replicate 8 1), (tAnd id fun d => rset d .abwTri 0 0 0 24 24 1), fits (by decide +kernel), by decide +kernel,
    by decide +kernel, .store tc 0, (devWrite (tAnd id fun d => rset d .abwTri 0 0 0 24 24 1).dev (storeAddr tc 0) (List.replicate 8 1)).1,
    List.replicate 8 1, by decide +kernel, by decide +kernel, (by intro _ _ h; cases h), by and_intros <;> decide +kernel⟩⟩

theorem test_meets_ResetState :
    (∃ die, die < 8) ∧
    (∃ die h, die < 8 ∧ h < 13) ∧
    (∃ die, die < 8) :=
  ⟨⟨7, by decide +kernel⟩,
   ⟨7, 12, by and_intros <;> decide +kernel⟩,
   ⟨7, by decide +kernel⟩⟩

theorem test_meets_EncodingRoundTrip :
    (∃ (i : Instr), ∃ w a, encode i = some w ∧ issuerOf i = some a ∧ operandSub i = 0) ∧
    (∃ a w i, yelreDecode a w = .ok i) :=
  ⟨⟨.ctlHalt tc, _, .seq tc, by and_intros <;> first | decide +kernel | rfl⟩,
   ⟨.seq tc, 0x0100040000308F02, .ctlLaunch tc ⟨2, 0, 0, 24, 0x8F02⟩, by decide +kernel⟩⟩

theorem test_meets_StepKeepsInv :
    ∃ (s : State), ∃ (t : State), Machine.Inv s ∧ step s = .next t :=
  ⟨State.reset, ⟨{ Dev.reset with tick := 1 }, []⟩, (by unfold Machine.Inv Tidy Rising; decide +kernel), rfl⟩

end

end Sys2Proof.Tests
end

section
/-!
SUPPORT. What every operation keeps: the invariant of StepKeepsInv, on the device alone. One lemma per operation of the model, in the order of the
model's files; each is proved from the lemmas of the operations it calls.
-/

namespace Sys2Proof.Machine

/-! ### Tables whose keys rise -/

section
variable {α β : Type}

/-- Keys rise in a table whose keys are some of those of a table in which they do. -/
theorem Rising.of_sublist {t : Tbl α} {u : Tbl β} (h : Rising t) (s : (u.map Prod.fst).Sublist (t.map Prod.fst)) : Rising u :=
  List.Pairwise.sublist s h

theorem Rising.filter {t : Tbl α} (h : Rising t) (p : Nat × α → Bool) : Rising (t.filter p) :=
  h.of_sublist (List.filter_sublist.map _)

/-- Values may change where the keys stay. -/
theorem Rising.map {t : Tbl α} (h : Rising t) {f : Nat × α → Nat × α} (hf : ∀ p, (f p).1 = p.1) : Rising (t.map f) := by
  have keys : (t.map f).map Prod.fst = t.map Prod.fst := by simp [hf]
  exact h.of_sublist (keys ▸ List.Sublist.refl _)

theorem Rising.mapVal {t : Tbl α} (h : Rising t) (f : Nat × α → α) : Rising (t.map fun p => (p.1, f p)) := h.map fun _ => rfl

theorem rising_cons {p : Nat × α} {t : Tbl α} : Rising (p :: t) ↔ (∀ q ∈ t, p.1 < q.1) ∧ Rising t := by
  simp [Rising, List.pairwise_cons]

/-- A write keeps the keys rising. -/
theorem Rising.tset [DecidableEq α] {d v : α} {k : Nat} {t : Tbl α} (h : Rising t) : Rising (tset d t k v) := by
  induction t with
  | nil => unfold Machine.tset; split <;> simp [Rising]
  | cons e t ih =>
    obtain ⟨j, w⟩ := e
    obtain ⟨hj, ht⟩ := rising_cons.1 h
    have rest : Rising (t.dropWhile fun e => decide (e.1 ≤ k)) := ht.of_sublist ((List.dropWhile_sublist _).map _)
    unfold Machine.tset
    split
    · split
      · exact h
      · exact rising_cons.2 ⟨List.forall_mem_cons.2 ⟨‹k < j›, fun q hq => lt_trans ‹k < j› (hj q hq)⟩, h⟩
    · split
      · subst k
        dsimp only
        split
        · exact rest
        · exact rising_cons.2 ⟨fun q hq => hj q ((List.dropWhile_sublist _).subset hq), rest⟩
      · refine rising_cons.2 ⟨fun q hq => ?_, ih ht⟩
        rcases mem_tset hq with rfl | hq
        · simp only; omega
        · exact hj q hq

end

/-! ### Results that carry a value -/

section
variable {α β σ φ ρ ε : Type}

/-- What an option holds, if it holds anything, has P. -/
def OnSome (P : α → Prop) (o : Option α) : Prop := ∀ a, o = some a → P a

/-- What a computation answers, if it does not fail, has P. -/
def OnOk (P : α → Prop) (r : Except ε α) : Prop := ∀ a, r = .ok a → P a

/-- The next state of an outcome, if there is one, has P. -/
def OnNext (P : σ → Prop) (o : Host.Outcome σ φ ρ) : Prop := ∀ s, o = .next s → P s

theorem OnSome.none {P : α → Prop} : OnSome P none := nofun
theorem OnSome.some {P : α → Prop} {a : α} (h : P a) : OnSome P (some a) := fun _ e => Option.some.inj e ▸ h
theorem OnOk.error {P : α → Prop} {x : ε} : OnOk P (Except.error x) := nofun
theorem OnOk.ok {P : α → Prop} {a : α} (h : P a) : OnOk P (Except.ok a : Except ε α) := fun _ e => Except.ok.inj e ▸ h
theorem OnNext.refused {P : σ → Prop} {r : ρ} : OnNext P (.refused r : Host.Outcome σ φ ρ) := nofun
theorem OnNext.next {P : σ → Prop} {s : σ} (h : P s) : OnNext P (.next s : Host.Outcome σ φ ρ) := fun _ e => Host.Outcome.next.inj e ▸ h

theorem OnSome.map {P : β → Prop} {f : α → β} {o : Option α} (h : ∀ a, P (f a)) : OnSome P (o.map f) := by
  cases o with
  | none => exact .none
  | some a => exact .some (h a)

theorem OnSome.bind {P : β → Prop} {f : α → Option β} {o : Option α} (h : ∀ a, OnSome P (f a)) : OnSome P (o.bind f) := by
  cases o with
  | none => exact .none
  | some a => exact h a

theorem OnSome.map_of {P : α → Prop} {Q : β → Prop} {f : α → β} {o : Option α} (ho : OnSome P o) (h : ∀ a, P a → Q (f a)) : OnSome Q (o.map f) := by
  cases o with
  | none => exact .none
  | some a => exact .some (h a (ho a rfl))

theorem OnSome.bind_of {P : α → Prop} {Q : β → Prop} {f : α → Option β} {o : Option α} (ho : OnSome P o) (h : ∀ a, P a → OnSome Q (f a)) :
    OnSome Q (o.bind f) := by
  cases o with
  | none => exact .none
  | some a => exact h a (ho a rfl)

theorem OnSome.findSome? {P : β → Prop} {f : α → Option β} {l : List α} (h : ∀ a, OnSome P (f a)) : OnSome P (l.findSome? f) := by
  intro b e
  obtain ⟨a, -, ha⟩ := List.exists_of_findSome?_eq_some e
  exact h a b ha

end

/-! ### The invariant on the device -/

/-- The invariant of every step (Inv), as it speaks of the device: its tables are in order, and its part has 2, 4 or 8 compute dies (R2). -/
def InOrder (d : Dev) : Prop := Tidy d ∧ (d.part.dies = 2 ∨ d.part.dies = 4 ∨ d.part.dies = 8)

theorem inv_iff_inOrder {s : State} : Inv s ↔ InOrder s.dev := Iff.rfl

/-- The device that a computation leaves, whether it fails or not, is in order. -/
def InOrderEither {α : Type} : Except (Dev × α) Dev → Prop
  | .ok d => InOrder d
  | .error e => InOrder e.1

namespace InOrder

/-- Only the part, memory, poison marks, cache lines, registers, cores, stakes and hubs matter: every other field may change. -/
theorem upd {d : Dev} {
    tick shadow live clock laneCounts ueCounts readonly wakes errs events gap objs chans admin parcels sched notices meas normal kvs kvReady
    kvFlush expWait expQ links lateCmds lateLops xfers inbound colls groups ports sent wire sess pipes accepted station mgmt boot pkg taps reply
    serial free} (h : InOrder d) :
    InOrder { d with
      tick := tick, shadow := shadow, live := live, clock := clock, laneCounts := laneCounts, ueCounts := ueCounts, readonly := readonly,
      wakes := wakes, errs := errs, events := events, gap := gap, objs := objs, chans := chans, admin := admin, parcels := parcels,
      sched := sched, notices := notices, meas := meas, normal := normal, kvs := kvs, kvReady := kvReady, kvFlush := kvFlush,
      expWait := expWait, expQ := expQ, links := links, lateCmds := lateCmds, lateLops := lateLops, xfers := xfers, inbound := inbound,
      colls := colls, groups := groups, ports := ports, sent := sent, wire := wire, sess := sess, pipes := pipes, accepted := accepted,
      station := station, mgmt := mgmt, boot := boot, pkg := pkg, taps := taps, reply := reply, serial := serial, free := free } := h

section
variable {α β γ : Type} {d : Dev}

theorem ite {c : Prop} [Decidable c] {d e : Dev} (hd : InOrder d) (he : InOrder e) : InOrder (if c then d else e) := by
  split
  · exact hd
  · exact he

/-- A step that may be taken. -/
theorem when {c : Prop} [Decidable c] {d e : Dev} (h : InOrder d) (f : InOrder d → InOrder e) : InOrder (if c then e else d) := .ite (f h) h

theorem whenNot {c : Prop} [Decidable c] {d e : Dev} (h : InOrder d) (f : InOrder d → InOrder e) : InOrder (if c then d else e) := .ite h (f h)

theorem of_fst {p : Dev × α} {d : Dev} {a : α} (e : p = (d, a)) (h : InOrder p.1) : InOrder d := by rwa [e] at h
theorem of_snd {p : α × Dev} {d : Dev} {a : α} (e : p = (a, d)) (h : InOrder p.2) : InOrder d := by rwa [e] at h

theorem foldl {f : Dev → α → Dev} {l : List α} {d : Dev} (hf : ∀ d a, InOrder d → InOrder (f d a)) (h : InOrder d) : InOrder (l.foldl f d) :=
  List.foldlRecOn l f h fun d hd a _ => hf d a hd

theorem foldl_fst {f : Dev × β → α → Dev × β} {l : List α} {r : Dev × β} (hf : ∀ r a, InOrder r.1 → InOrder (f r a).1) (h : InOrder r.1) :
    InOrder (l.foldl f r).1 :=
  List.foldlRecOn (motive := fun r => InOrder r.1) l f h fun r hr a _ => hf r a hr

theorem foldl_snd {f : β × Dev → α → β × Dev} {l : List α} {r : β × Dev} (hf : ∀ r a, InOrder r.2 → InOrder (f r a).2) (h : InOrder r.2) :
    InOrder (l.foldl f r).2 :=
  List.foldlRecOn (motive := fun r => InOrder r.2) l f h fun r hr a _ => hf r a hr

theorem foldl_snd_snd {f : β × γ × Dev → α → β × γ × Dev} {l : List α} {r : β × γ × Dev} (hf : ∀ r a, InOrder r.2.2 → InOrder (f r a).2.2)
    (h : InOrder r.2.2) : InOrder (l.foldl f r).2.2 :=
  List.foldlRecOn (motive := fun r => InOrder r.2.2) l f h fun r hr a _ => hf r a hr

/-! A change of one table keeps the order where the changed table is in order. -/

theorem setMem (h : InOrder d) {m : List Host.Cell} (w : Memory.wf m = true) : InOrder { d with mem := m } := ⟨⟨w, h.1.2⟩, h.2⟩

theorem setPoison (h : InOrder d) {t : Tbl Bool} (r : Rising t) : InOrder { d with poison := t } := by
  obtain ⟨⟨hm, -, hrest⟩, hp⟩ := h
  exact ⟨⟨hm, r, hrest⟩, hp⟩

theorem setCache (h : InOrder d) {t : Tbl (Option CacheLine)} (r : Rising t) : InOrder { d with cache := t } := by
  obtain ⟨⟨hm, hpo, -, hrest⟩, hp⟩ := h
  exact ⟨⟨hm, hpo, r, hrest⟩, hp⟩

theorem setRegs (h : InOrder d) {t : Tbl W64} (r : Rising t) : InOrder { d with regs := t } := by
  obtain ⟨⟨hm, hpo, hca, -, hrest⟩, hp⟩ := h
  exact ⟨⟨hm, hpo, hca, r, hrest⟩, hp⟩

theorem setCores (h : InOrder d) {t : Tbl Core} (r : Rising t) : InOrder { d with cores := t } := by
  obtain ⟨⟨hm, hpo, hca, hr, -, hrest⟩, hp⟩ := h
  exact ⟨⟨hm, hpo, hca, hr, r, hrest⟩, hp⟩

theorem setStakes (h : InOrder d) {t : Tbl Stake} (r : Rising t) : InOrder { d with stakes := t } := by
  obtain ⟨⟨hm, hpo, hca, hr, hco, -, hh⟩, hp⟩ := h
  exact ⟨⟨hm, hpo, hca, hr, hco, r, hh⟩, hp⟩

theorem setHubs (h : InOrder d) {t : Tbl Hub} (r : Rising t) : InOrder { d with hubs := t } := by
  obtain ⟨⟨hm, hpo, hca, hr, hco, hs, -⟩, hp⟩ := h
  exact ⟨⟨hm, hpo, hca, hr, hco, hs, r⟩, hp⟩

theorem mem_wf (h : InOrder d) : Memory.wf d.mem = true := h.1.1

theorem poison_rising (h : InOrder d) : Rising d.poison := by
  obtain ⟨⟨-, hpo, -⟩, -⟩ := h
  exact hpo

theorem cache_rising (h : InOrder d) : Rising d.cache := by
  obtain ⟨⟨-, -, hca, -⟩, -⟩ := h
  exact hca

theorem regs_rising (h : InOrder d) : Rising d.regs := by
  obtain ⟨⟨-, -, -, hr, -⟩, -⟩ := h
  exact hr

theorem cores_rising (h : InOrder d) : Rising d.cores := by
  obtain ⟨⟨-, -, -, -, hco, -⟩, -⟩ := h
  exact hco

theorem stakes_rising (h : InOrder d) : Rising d.stakes := by
  obtain ⟨⟨-, -, -, -, -, hs, -⟩, -⟩ := h
  exact hs

theorem hubs_rising (h : InOrder d) : Rising d.hubs := by
  obtain ⟨⟨-, -, -, -, -, -, hh⟩, -⟩ := h
  exact hh

end

end InOrder

variable {d : Dev} {c : CoreId} {s : State}

/-! ### Ops -/

theorem inOrder_setCore {k : Core} (h : InOrder d) : InOrder (setCore d c k) := h.setCores h.cores_rising.tset
theorem inOrder_modCore {f : Core → Core} (h : InOrder d) : InOrder (modCore d c f) := inOrder_setCore h
theorem inOrder_modWork {f : Work → Work} (h : InOrder d) : InOrder (modWork d c f) := inOrder_modCore h
theorem inOrder_modSeq {f : Seq → Seq} (h : InOrder d) : InOrder (modSeq d c f) := inOrder_modWork h
theorem inOrder_setCrew {slot : Nat} {k : Option Crew} (h : InOrder d) : InOrder (setCrew d c slot k) :=
  inOrder_modWork h
theorem inOrder_modPart {f : PartRun → PartRun} (h : InOrder d) : InOrder (modPart d c f) := inOrder_modWork h
theorem inOrder_regSet {n : RegName} {die i j : Nat} {v : W64} (h : InOrder d) : InOrder (regSet d n die i j v) :=
  h.setRegs h.regs_rising.tset
theorem inOrder_rset {n : RegName} {die i j hi lo v : Nat} (h : InOrder d) : InOrder (rset d n die i j hi lo v) :=
  inOrder_regSet h
theorem inOrder_rcount {n : RegName} {die i j hi lo k : Nat} (h : InOrder d) : InOrder (rcount d n die i j hi lo k) :=
  inOrder_rset h
theorem inOrder_nextSerial (h : InOrder d) : InOrder (nextSerial d) := .upd h
theorem inOrder_freeNext (h : InOrder d) : InOrder (freeNext d) := .upd h

theorem inOrder_freeBytes {n : Nat} (h : InOrder d) : InOrder (freeBytes n d).2 := by
  induction n generalizing d with
  | zero => exact h
  | succ n ih => exact ih (inOrder_freeNext h)

theorem inOrder_whenOn {row : String} {c : Bool} (h : InOrder d) : OnNext InOrder (whenOn row c d) := by
  dsimp only [whenOn]
  split
  · exact .next h
  · exact .refused

theorem inOrder_orNot {row : String} {o : Option Dev} (h : OnSome InOrder o) : OnNext InOrder (orNot row o) := by
  cases o with
  | none => exact .refused
  | some d => exact .next (h d rfl)

/-! ### Errors -/

theorem inOrder_setRing {die : Nat} {r : ErrRing} (h : InOrder d) : InOrder (setRing d die r) := .upd h
theorem inOrder_evtDrop (h : InOrder d) : InOrder (evtDrop d) := .upd (inOrder_rset (inOrder_rcount h))
theorem inOrder_raiseEvent {e : Event} (h : InOrder d) : InOrder (raiseEvent d e) :=
  .ite (inOrder_evtDrop h) (.upd h)
theorem inOrder_takeEntry {die e : Nat} {x : ErrInfo} (h : InOrder d) : InOrder (takeEntry d die e x) :=
  inOrder_raiseEvent (inOrder_setRing h)
theorem inOrder_alertEdge (h : InOrder d) : InOrder (alertEdge d) := .ite (.upd h) (.upd h)

theorem inOrder_recordErr {die : Nat} {x : ErrInfo} (h : InOrder d) : InOrder (recordErr d die x) := by
  dsimp only [recordErr]
  split
  · exact inOrder_setRing h
  · split
    · exact inOrder_takeEntry h
    · split
      · exact inOrder_takeEntry (inOrder_setRing h)
      · exact inOrder_setRing h

theorem inOrder_logErr {die : Nat} {x : ErrInfo} (h : InOrder d) : InOrder (logErr d die x) :=
  inOrder_alertEdge (inOrder_recordErr h)
theorem inOrder_logIgnored {die addr v : Nat} (h : InOrder d) : InOrder (logIgnored d die addr v) :=
  inOrder_logErr h
theorem inOrder_logIgnoredAt {n : RegName} {die i j v : Nat} (h : InOrder d) : InOrder (logIgnoredAt d n die i j v) :=
  inOrder_logIgnored h
theorem inOrder_ackEntry {die e : Nat} (h : InOrder d) : InOrder (ackEntry d die e) :=
  inOrder_alertEdge (inOrder_setRing h)

/-! ### Stakes -/

theorem inOrder_setStake {id : StakeId} {s : Stake} (h : InOrder d) : InOrder (setStake d id s) :=
  h.setStakes h.stakes_rising.tset
theorem inOrder_setHub {die h : Nat} {x : Hub} (hd : InOrder d) : InOrder (setHub d die h x) :=
  hd.setHubs hd.hubs_rising.tset

theorem inOrder_wakeAgent {a : Agent} {serial outcome : Nat} (h : InOrder d) : InOrder (wakeAgent d a serial outcome) := by
  dsimp only [wakeAgent]
  split
  · exact .ite (inOrder_modSeq h) h
  · split
    · exact .ite (inOrder_setCrew h) h
    · exact h

theorem inOrder_wakeWaiter {outcome : Nat} {w : StakeWait} (h : InOrder d) : InOrder (wakeWaiter d outcome w) := by
  dsimp only [wakeWaiter]
  split
  · exact inOrder_wakeAgent h
  · exact .upd h

theorem inOrder_wakeAll {id : StakeId} {outcome : Nat} (h : InOrder d) : InOrder (wakeAll d id outcome) :=
  .foldl (fun _ _ h1 => inOrder_wakeWaiter h1) (inOrder_setStake h)
theorem inOrder_completion {id : StakeId} (h : InOrder d) : InOrder (completion d id) :=
  .when (inOrder_wakeAll (.ite (inOrder_raiseEvent h) h)) inOrder_setStake
theorem inOrder_stakeAdd {id : StakeId} {inc : Nat} (h : InOrder d) : InOrder (stakeAdd d id inc) :=
  .ite h (.when (.ite (inOrder_logErr (inOrder_setStake h)) (inOrder_setStake h)) inOrder_completion)
theorem inOrder_stakeTarget {id : StakeId} {v : W32} (h : InOrder d) : InOrder (stakeTarget d id v) :=
  .ite (inOrder_completion (inOrder_setStake h)) (.ite (inOrder_wakeAll (inOrder_setStake h)) (inOrder_setStake h))
theorem inOrder_stakeReset {id : StakeId} {target : W32} (h : InOrder d) : InOrder (stakeReset d id target) :=
  .ite (inOrder_wakeAll (.ite (inOrder_raiseEvent (inOrder_setStake h)) (inOrder_setStake h))) (inOrder_setStake h)
theorem inOrder_stakeDisable {id : StakeId} (h : InOrder d) : InOrder (stakeDisable d id) :=
  inOrder_setStake (inOrder_wakeAll h)
theorem inOrder_registerWait {id : StakeId} {w : Waiter} {serial : Nat} (h : InOrder d) : InOrder (registerWait d id w serial) :=
  .ite (inOrder_setHub (inOrder_setStake h)) (.ite (inOrder_setHub (inOrder_setStake h)) (inOrder_setStake h))
theorem inOrder_dropWaiter {id : StakeId} {serial : Nat} (h : InOrder d) : InOrder (dropWaiter d id serial) :=
  inOrder_setStake h
theorem inOrder_logRefused {id : StakeId} {unit die : Nat} {f : FaultCode} (h : InOrder d) : InOrder (logRefused d id unit die f) :=
  .ite (inOrder_logErr h) (inOrder_logErr h)
theorem inOrder_pushPort {p : Nat} {op : StakeOp} (h : InOrder d) : InOrder (pushPort d p op) :=
  inOrder_setHub h
theorem inOrder_pushAgent {op : StakeOp} (h : InOrder d) : InOrder (pushAgent d c op) := inOrder_pushPort h
theorem inOrder_pushUnit {op : StakeOp} (h : InOrder d) : InOrder (pushUnit d c op) := inOrder_pushPort h
theorem inOrder_pushBlock {die : Nat} {op : StakeOp} (h : InOrder d) : InOrder (pushBlock d die op) :=
  inOrder_pushPort h

theorem inOrder_unitArrive {id : StakeId} {code parcel inc : Nat} {faulted : Bool}
    (h : InOrder d) : InOrder (unitArrive d c id code parcel inc faulted) :=
  .ite (inOrder_logRefused h) (inOrder_pushUnit h)

theorem inOrder_blockArrive {die : Nat} {id : StakeId} {code : Nat} {parcel : Option Nat} {inc : Nat} {faulted : Bool}
    (h : InOrder d) : InOrder (blockArrive d die id code parcel inc faulted) :=
  .ite (inOrder_logRefused h) (inOrder_pushBlock h)

theorem inOrder_unitWait {w : Waiter} {id : StakeId} {parcel serial : Nat} (h : InOrder d) : InOrder (unitWait d w id parcel serial) := by
  dsimp only [unitWait]
  split
  · exact inOrder_pushUnit h
  · exact inOrder_pushBlock h

theorem inOrder_takeWake {w : Waiter} (h : InOrder d) : OnSome (fun p => InOrder p.2) (takeWake d w) := by
  dsimp only [takeWake]
  split
  · exact .some (.upd h)
  · exact .none

theorem inOrder_cancelWaits {w : Waiter} (h : InOrder d) : InOrder (cancelWaits d w) := by
  obtain ⟨⟨hm, hpo, hca, hr, hco, hs, hh⟩, hp⟩ := h
  exact ⟨⟨hm, hpo, hca, hr, hco, (hs.mapVal _).filter _, (hh.mapVal _).filter _⟩, hp⟩

/-! ### Memory -/

theorem inOrder_memPut {k : Nat} {bs : List Byte} (h : InOrder d) : InOrder (memPut d k bs) :=
  h.setMem (List.foldlRecOn (motive := fun m => Memory.wf m = true) bs.zipIdx _ h.mem_wf fun m hm b _ => twf_tset unlisted m (k + b.2) b.1 hm)
theorem inOrder_setPoison {k : Nat} {b : Bool} (h : InOrder d) : InOrder (setPoison d k b) :=
  h.setPoison h.poison_rising.tset
theorem inOrder_clearPoison {p : Place} {n : Nat} (h : InOrder d) : InOrder (clearPoison d p n) :=
  .foldl (fun _ _ h1 => .ite (inOrder_setPoison h1) h1) h

theorem inOrder_touchLine {p : Place} {write hold : Bool} (h : InOrder d) : InOrder (touchLine d p write hold) := by
  dsimp only [touchLine]
  split
  · refine .ite h (.ite (h.upd.setCache h.cache_rising.tset) ?_)
    split
    · exact h.upd.setCache h.cache_rising.tset.tset
    · exact h.upd
  · exact h

theorem inOrder_dropLines {f : Nat → Bool} (h : InOrder d) : InOrder (dropLines d f) :=
  h.setCache (h.cache_rising.filter _)
theorem inOrder_releaseLines {f : Nat → Bool} (h : InOrder d) : InOrder (releaseLines d f) :=
  h.setCache (h.cache_rising.map fun p => by split <;> rfl)

theorem inOrder_countRefused {p : Place} (h : InOrder d) : InOrder (countRefused d p) := by
  dsimp only [countRefused]
  split
  · exact inOrder_rcount h
  · exact h

theorem inOrder_devRead {a : Addr} {n : Nat} {hold : Bool} (h : InOrder d) : InOrder (devRead d a n hold).1 := by
  dsimp only [devRead]
  split
  · exact h
  · exact h
  · split
    · exact h
    · split
      · exact inOrder_countRefused h
      · split
        · exact inOrder_touchLine h
        · exact inOrder_touchLine h

theorem inOrder_devWrite {a : Addr} {bs : List Byte} (h : InOrder d) : InOrder (devWrite d a bs).1 := by
  dsimp only [devWrite]
  split
  · exact h
  · exact h
  · split
    · exact h
    · split
      · exact inOrder_countRefused h
      · exact inOrder_memPut (inOrder_clearPoison (inOrder_touchLine h))

theorem inOrder_devReadAll {a : Addr} {n : Nat} (h : InOrder d) : InOrder (devReadAll d a n).1 := by
  refine .foldl_fst (fun _ _ h1 => ?_) h
  split
  · exact h1
  · split
    · rename_i e
      exact .of_fst e (inOrder_devRead h1)
    · rename_i e
      exact .of_fst e (inOrder_devRead h1)

theorem inOrder_devWriteAll {a : Addr} {bs : List Byte} (h : InOrder d) : InOrder (devWriteAll d a bs).1 := by
  refine .foldl_fst (fun _ _ h1 => ?_) h
  split
  · exact h1
  · exact inOrder_devWrite h1

theorem inOrder_storeWrite {off : Nat} {bs : List Byte} (h : InOrder d) : InOrder (storeWrite d c off bs) :=
  inOrder_memPut (inOrder_clearPoison h)

theorem inOrder_memClear {lo n : Nat} (h : InOrder d) : InOrder (memClear d lo n) := by
  obtain ⟨⟨hm, hpo, hrest⟩, hp⟩ := h
  exact ⟨⟨twf_filter unlisted _ _ hm, hpo.filter _, hrest⟩, hp⟩

theorem inOrder_poisonLine {die chan caddr src : Nat} (h : InOrder d) : InOrder (poisonLine d die chan caddr src) :=
  .ite h (inOrder_logErr (inOrder_setPoison h))
theorem inOrder_poisonHbm {die chan caddr : Nat} (h : InOrder d) : InOrder (poisonHbm d die chan caddr) :=
  .ite h (inOrder_poisonLine (inOrder_memPut h))
theorem inOrder_poisonScratch {die slice off : Nat} (h : InOrder d) : InOrder (poisonScratch d die slice off) :=
  .ite h (inOrder_logErr (inOrder_setPoison h))
theorem inOrder_poisonStore {off : Nat} (h : InOrder d) : InOrder (poisonStore d c off) :=
  .ite h (inOrder_logErr (inOrder_setPoison h))

theorem inOrder_sliceWord {die slice : Nat} {a : Addr} {bit : Option Nat} (h : InOrder d) : OnSome InOrder (sliceWord d die slice a bit) := by
  dsimp only [sliceWord]
  split
  · exact .none
  · split
    · exact .some (.ite (inOrder_rcount h) (inOrder_poisonScratch h))
    · exact .map fun _ => .ite (inOrder_rcount h) (.ite (inOrder_poisonLine h) (inOrder_rcount h))
    · exact .none

/-! ### Objects -/

theorem inOrder_setObj {type idx : Nat} {o : Obj} (h : InOrder d) : InOrder (setObj d type idx o) := .upd h
theorem inOrder_openSlot {type idx : Nat} (h : InOrder d) : InOrder (openSlot d type idx) := inOrder_setObj h
theorem inOrder_closeSlot {type idx : Nat} (h : InOrder d) : InOrder (closeSlot d type idx) :=
  inOrder_setObj h

/-! ### Agents -/

theorem inOrder_runOk {wf : Bool} {dies : List Nat} {f : Dev → Res} (hf : ∀ d, InOrder d → OnNext InOrder (f d)) (h : Inv s) :
    OnNext Inv (runOk wf dies f s) :=
  fun _ e => hf s.dev h _ (runOk_inv e).1

theorem inOrder_runCmd {i : Instr} {f : Dev → Res} (hf : ∀ e, InOrder e → OnNext InOrder (f e)) (h : Inv s) : OnNext Inv (runCmd i f s) :=
  inOrder_runOk (fun _ h1 => hf _ h1) h
theorem inOrder_partDone {f : FaultCode} {sub : Nat} {empty : Bool} (h : InOrder d) : InOrder (partDone d c f sub empty) :=
  inOrder_modPart h
theorem inOrder_partIssue {descr : Bool} (h : InOrder d) : InOrder (partIssue d c descr) := inOrder_modPart h

theorem inOrder_opDoneSub {unit : Nat} {op : Op} {f : FaultCode} {sub : Nat} {empty : Bool}
    (h : InOrder d) : InOrder (opDoneSub d c unit op f sub empty) :=
  inOrder_unitArrive (inOrder_partDone h)

theorem inOrder_opDone {unit : Nat} {op : Op} {f : FaultCode} {empty : Bool} (h : InOrder d) : InOrder (opDone d c unit op f empty) :=
  inOrder_opDoneSub h

theorem inOrder_launchDone {l : Launch} {f : FaultCode} {sub : Nat} (h : InOrder d) : InOrder (launchDone d c l f sub) := by
  dsimp only [launchDone]
  split
  · exact .upd h
  · exact inOrder_unitArrive (inOrder_partDone h)

theorem inOrder_seqFault {f : FaultCode} {sub pc : Nat} {word : W64} (h : InOrder d) : InOrder (seqFault d c f sub pc word) :=
  inOrder_logErr (inOrder_modPart (inOrder_modSeq (inOrder_cancelWaits h)))
theorem inOrder_freeSlot {slot : Nat} (h : InOrder d) : InOrder (freeSlot d c slot) :=
  inOrder_modWork (inOrder_cancelWaits h)

theorem inOrder_crewFaultAt {slot : Nat} {f : FaultCode} {sub pc : Nat} {word : W64} {lane : Nat}
    (h : InOrder d) : InOrder (crewFaultAt d c slot f sub pc word lane) := by
  dsimp only [crewFaultAt]
  split
  · exact h
  · split
    · exact inOrder_launchDone (inOrder_modWork (.foldl (fun _ _ h1 => inOrder_freeSlot h1) (inOrder_rcount (inOrder_logErr h))))
    · exact inOrder_modWork (.foldl (fun _ _ h1 => inOrder_freeSlot h1) (inOrder_rcount (inOrder_logErr h)))

theorem inOrder_crewFault {slot : Nat} {f : FaultCode} {sub pc : Nat} {word : W64} (h : InOrder d) : InOrder (crewFault d c slot f sub pc word) :=
  inOrder_crewFaultAt h

theorem inOrder_agentFault {a : Agent} {f : FaultCode} {sub pc : Nat} {word : W64} (h : InOrder d) : InOrder (agentFault d a f sub pc word) := by
  dsimp only [agentFault]
  split
  · exact inOrder_seqFault h
  · exact inOrder_crewFault h

theorem inOrder_setPc {a : Agent} {pc : Nat} (h : InOrder d) : InOrder (setPc d a pc) := by
  dsimp only [setPc]
  split
  · exact inOrder_modSeq h
  · exact inOrder_setCrew h

theorem inOrder_stepPc {a : Agent} (h : InOrder d) : InOrder (stepPc d a) := inOrder_setPc h
theorem inOrder_branch {a : Agent} {off : Int} {word : W64} (h : InOrder d) : InOrder (branch d a off word) :=
  .ite (inOrder_setPc h) (inOrder_agentFault h)

theorem inOrder_issue {row : String} {a : Agent} {i : Instr} {regs : List Nat} {f : Dev → W64 → Res}
    (hf : ∀ e x, InOrder e → OnNext InOrder (f e x)) (h : InOrder d) : OnNext InOrder (issue row a i regs f d) := by
  dsimp only [issue]
  split
  · exact .refused
  · split
    · exact .next (inOrder_agentFault h)
    · split
      · exact .next h
      · exact hf _ _ h

theorem inOrder_issueStep {row : String} {a : Agent} {i : Instr} {regs : List Nat} {f : Dev → Dev} (hf : ∀ e, InOrder e → InOrder (f e))
    (h : InOrder d) : OnNext InOrder (issueStep row a i regs f d) :=
  inOrder_issue (fun _ _ h1 => .next (inOrder_stepPc (hf _ h1))) h

theorem inOrder_setSreg {r : Nat} {v : W64} (h : InOrder d) : InOrder (setSreg d c r v) := inOrder_modSeq h
theorem inOrder_setAreg {r : Nat} {v : Addr} (h : InOrder d) : InOrder (setAreg d c r v) := inOrder_modSeq h
theorem inOrder_modCrew {slot : Nat} {f : Crew → Crew} (h : InOrder d) : InOrder (modCrew d c slot f) :=
  inOrder_setCrew h

/-! ### Rng -/

theorem inOrder_countDraws {n : Nat} (h : InOrder d) : InOrder (countDraws d c n) := inOrder_rcount h
theorem inOrder_countSeeding (h : InOrder d) : InOrder (countSeeding d c) := inOrder_rcount h
theorem inOrder_drawSource {s : Nat} (h : InOrder d) : InOrder (drawSource d c s).2 :=
  inOrder_countDraws (inOrder_modWork h)

theorem inOrder_drawThread {slot t : Nat} (h : InOrder d) : InOrder (drawThread d c slot t).2 := by
  dsimp only [drawThread]
  split
  · exact inOrder_countDraws (.ite (inOrder_countSeeding (inOrder_modWork h)) (inOrder_modWork h))
  · exact inOrder_drawSource h

theorem inOrder_rndOf {rnd : Nat} {reduced : Bool} {draw : Dev → W32 × Dev} (hf : ∀ e, InOrder e → InOrder (draw e).2)
    (h : InOrder d) : InOrder (rndOf rnd reduced draw d).2 := by
  dsimp only [rndOf]
  split
  · exact h
  · exact h
  · exact h
  · exact hf _ h

/-! ### Wire -/

theorem inOrder_setPort {die p : Nat} {x : Port} (h : InOrder d) : InOrder (setPort d die p x) := .upd h
theorem inOrder_send {m : LinkMsg} (h : InOrder d) : InOrder (send d m) := .upd h
theorem inOrder_sendMsg {die port : Nat} {m : LinkMsg} (h : InOrder d) : InOrder (sendMsg d die port m) :=
  inOrder_send (inOrder_setPort h)

theorem inOrder_makeFlit {p : Port} {data : Option (Nat × Nat × List Byte)} {nak : Bool} {msg : Option W64}
    (h : InOrder d) : InOrder (makeFlit d p data nak msg).2 :=
  .ite (inOrder_freeBytes h) (inOrder_freeNext (inOrder_freeBytes h))

theorem inOrder_putFlit {die port : Nat} {data : Option (Nat × Nat × List Byte)} {nak : Bool} {msg : Option W64}
    (h : InOrder d) : InOrder (putFlit d die port data nak msg) :=
  .upd (inOrder_setPort (inOrder_makeFlit h))

theorem inOrder_askReplay {die port : Nat} (h : InOrder d) : InOrder (askReplay d die port) :=
  inOrder_putFlit (inOrder_send h)
theorem inOrder_replayFlits {die port : Nat} (h : InOrder d) : InOrder (replayFlits d die port) := .upd h

/-! ### StakeOps -/

theorem inOrder_markInflight {a : Agent} {r : Nat} (h : InOrder d) : InOrder (markInflight d a r) := by
  dsimp only [markInflight]
  split
  · exact inOrder_modSeq h
  · exact inOrder_modCrew h

theorem inOrder_beginWait {a : Agent} {w : WaitRef} (h : InOrder d) : InOrder (beginWait d a w) := by
  dsimp only [beginWait]
  split
  · exact inOrder_modSeq h
  · exact inOrder_modCrew h

theorem inOrder_stkIssue {row : String} {a : Agent} {i : Instr} {o : KOp} {rd : Bool} {act : Dev → StakeAct} {after : Dev → StakeId → Dev}
    (hf : ∀ e x, InOrder e → InOrder (after e x)) (h : InOrder d) : OnNext InOrder (stkIssue row a i o rd act after d) := by
  refine inOrder_issue (fun _ _ h1 => ?_) h
  split
  · exact .next (inOrder_stepPc h1)
  · split
    · exact .next (inOrder_agentFault h1)
    · exact .next (inOrder_stepPc (hf _ _ (inOrder_pushAgent h1)))

theorem inv_execStkArrive {a : Agent} {o : KOp} (h : Inv s) : OnNext Inv (execStkArrive a o s) :=
  inOrder_runCmd (fun _ h1 => inOrder_stkIssue (fun _ _ h2 => h2) h1) h
theorem inv_execStkWait {a : Agent} {o : KOp} (h : Inv s) : OnNext Inv (execStkWait a o s) :=
  inOrder_runCmd (fun _ h1 => inOrder_stkIssue (fun _ _ h2 => inOrder_nextSerial (inOrder_beginWait h2)) h1) h
theorem inv_execStkTest {a : Agent} {o : KOp} (h : Inv s) : OnNext Inv (execStkTest a o s) :=
  inOrder_runCmd (fun _ h1 => inOrder_stkIssue (fun _ _ h2 => inOrder_markInflight h2) h1) h
theorem inv_execStkReset {a : Agent} {o : KOp} (h : Inv s) : OnNext Inv (execStkReset a o s) :=
  inOrder_runCmd (fun _ h1 => inOrder_stkIssue (fun _ _ h2 => h2) h1) h
theorem inv_execStkClaim {a : Agent} {o : KOp} (h : Inv s) : OnNext Inv (execStkClaim a o s) :=
  inOrder_runCmd (fun _ h1 => inOrder_stkIssue (fun _ _ h2 => inOrder_markInflight h2) h1) h

theorem inOrder_replyAgent {a : Agent} {run rd : Nat} {mask : W32} {v : W64} (h : InOrder d) : InOrder (replyAgent d a run rd mask v) := by
  refine .ite h ?_
  split
  · exact inOrder_modSeq h
  · exact inOrder_modCrew h

theorem inOrder_answerPut {die port zid tag chunk : Nat} {ok : Bool} (h : InOrder d) : InOrder (answerPut d die port zid tag chunk ok) :=
  .ite (inOrder_sendMsg (.upd h)) (inOrder_sendMsg (inOrder_rcount (.upd h)))

theorem inOrder_refuseOp {op : StakeOp} {f : FaultCode} (h : InOrder d) : InOrder (refuseOp d op f) := by
  dsimp only [refuseOp]
  split
  · exact .ite (inOrder_agentFault h) h
  · split
    · exact inOrder_wakeWaiter h
    · exact inOrder_logRefused h
  · exact inOrder_answerPut h

theorem inOrder_applyOp {op : StakeOp} (h : InOrder d) : InOrder (applyOp d op) := by
  refine .ite (inOrder_refuseOp h) ?_
  split
  · dsimp only
    split
    · exact inOrder_answerPut (inOrder_stakeAdd (.ite (inOrder_setStake h) h))
    · exact inOrder_stakeAdd (.ite (inOrder_setStake h) h)
  · exact inOrder_stakeReset h
  · refine inOrder_stakeAdd ?_
    split
    · exact inOrder_replyAgent h
    · exact h
  · split
    · exact inOrder_replyAgent h
    · exact inOrder_replyAgent h
    · exact h
  · exact .ite h (.ite (inOrder_wakeWaiter h) (inOrder_registerWait h))

theorem inOrder_servePort3 {die w : Nat} (h : InOrder d) : InOrder (servePort3 d die w) :=
  .foldl (fun _ _ h1 => inOrder_applyOp h1) (inOrder_setHub h)

theorem inv_execStkWaitTimeout {a : Agent} (h : Inv s) : OnNext Inv (execStkWaitTimeout a s) := by
  refine inOrder_runCmd (fun _ h1 => ?_) h
  split
  · exact .refused
  · split
    · exact .next (inOrder_wakeAgent (inOrder_dropWaiter h1))
    · exact .refused

theorem inv_execStakePoll {w : Waiter} (h : Inv s) : OnNext Inv (execStakePoll w s) := by
  refine inOrder_runCmd (fun _ h1 => ?_) h
  split
  · exact .refused
  · exact .next (.ite (inOrder_wakeWaiter (inOrder_setStake h1)) (.ite (inOrder_wakeWaiter (inOrder_setStake h1)) h1))

theorem inOrder_stakeCtl {id : StakeId} {v : W32} (h : InOrder d) : InOrder (stakeCtl d id v) :=
  .when (inOrder_setStake (.ite (inOrder_stakeDisable h) h)) inOrder_stakeReset
theorem inOrder_atHub {id : StakeId} (h : InOrder d) : InOrder (atHub d id) := inOrder_servePort3 h
theorem inv_execStkTargetWrite {id : StakeId} {v : W32} (h : Inv s) : OnNext Inv (execStkTargetWrite id v s) :=
  inOrder_runCmd (fun _ h1 => inOrder_whenOn (inOrder_stakeTarget (inOrder_atHub h1))) h
theorem inv_execStkCtlReset {id : StakeId} {v : W32} (h : Inv s) : OnNext Inv (execStkCtlReset id v s) :=
  inOrder_runCmd (fun _ h1 => inOrder_whenOn (inOrder_stakeCtl (inOrder_atHub h1))) h
theorem inv_execStkCtlEnableClear {id : StakeId} {v : W32} (h : Inv s) : OnNext Inv (execStkCtlEnableClear id v s) :=
  inOrder_runCmd (fun _ h1 => inOrder_whenOn (inOrder_stakeCtl (inOrder_atHub h1))) h

/-! ### Parts -/

theorem inOrder_setChan {ch : Nat} {x : Channel} (h : InOrder d) : InOrder (setChan d ch x) := .upd h
theorem inOrder_modChan {ch : Nat} {f : Channel → Channel} (h : InOrder d) : InOrder (modChan d ch f) :=
  inOrder_setChan h
theorem inOrder_setParcel {p : Nat} {x : Parcel} (h : InOrder d) : InOrder (setParcel d p x) := .upd h
theorem inOrder_modParcel {p : Nat} {f : Parcel → Parcel} (h : InOrder d) : InOrder (modParcel d p f) :=
  inOrder_setParcel h
theorem inOrder_setCmd {ch : Nat} {x : Cmd} (h : InOrder d) : InOrder (setCmd d ch x) := inOrder_modChan h
theorem inOrder_extendMeas {i : Nat} {x : List Byte} (h : InOrder d) : InOrder (extendMeas d i x) := .upd h

theorem inOrder_readImage {a : Addr} (h : InOrder d) : InOrder (readImage d a).1 := by
  dsimp only [readImage]
  split
  · exact h
  · split
    · rename_i e1
      exact .of_fst e1 (inOrder_devReadAll h)
    · rename_i e1
      split
      · exact .of_fst e1 (inOrder_devReadAll h)
      · split
        · exact .of_fst e1 (inOrder_devReadAll h)
        · split
          · exact .of_fst e1 (inOrder_devReadAll h)
          · split
            · rename_i e5
              exact .of_fst e5 (inOrder_devReadAll (.of_fst e1 (inOrder_devReadAll h)))
            · rename_i e5
              split
              · exact .of_fst e5 (inOrder_devReadAll (.of_fst e1 (inOrder_devReadAll h)))
              · exact .of_fst e5 (inOrder_devReadAll (.of_fst e1 (inOrder_devReadAll h)))

theorem inOrder_loadImage {die : Nat} {a : Addr} (h : InOrder d) : InOrder (loadImage d die a).1 := by
  dsimp only [loadImage]
  split
  · rename_i e
    exact .when (.of_fst e (inOrder_readImage h)) inOrder_logErr
  · rename_i e
    exact inOrder_extendMeas (.upd (.of_fst e (inOrder_readImage h)))

theorem inOrder_sendNotice {ch : Nat} (h : InOrder d) : InOrder (sendNotice d ch) :=
  .ite (inOrder_setChan h) (.upd (inOrder_setChan h))

theorem inOrder_recordCmd {ch : Nat} {x : Cmd} {cancelled loadBad : Bool} {own : FaultCode}
    (h : InOrder d) : InOrder (recordCmd d ch x cancelled loadBad own) := by
  refine .ite (inOrder_sendNotice (inOrder_rcount (inOrder_modChan ?_))) (inOrder_rcount (inOrder_modChan ?_))
  · split
    · exact inOrder_blockArrive (.ite (inOrder_raiseEvent (inOrder_devWriteAll h)) (inOrder_devWriteAll h))
    · exact .ite (inOrder_raiseEvent (inOrder_devWriteAll h)) (inOrder_devWriteAll h)
  · split
    · exact inOrder_blockArrive (.ite (inOrder_raiseEvent (inOrder_devWriteAll h)) (inOrder_devWriteAll h))
    · exact .ite (inOrder_raiseEvent (inOrder_devWriteAll h)) (inOrder_devWriteAll h)

theorem inOrder_completeCmd {ch : Nat} {x : Cmd} {cancelled loadBad : Bool} {own : FaultCode}
    (h : InOrder d) : InOrder (completeCmd d ch x cancelled loadBad own) :=
  .ite (.upd (inOrder_setCmd h)) (inOrder_recordCmd h)

theorem inOrder_commandWait {ch num : Nat} {id : StakeId} (h : InOrder d) : InOrder (commandWait d ch num id) :=
  inOrder_nextSerial (inOrder_pushBlock h)
theorem inOrder_takePlace {ch : Nat} {c : Cmd} (h : InOrder d) : InOrder (takePlace d ch c) :=
  inOrder_modChan h

theorem inOrder_settle {ch n : Nat} (h : InOrder d) : InOrder (settle d ch n) := by
  induction n generalizing d with
  | zero => exact h
  | succ n ih =>
    dsimp only [settle]
    split
    · exact h
    · refine .ite (.ite (ih (inOrder_completeCmd (inOrder_takePlace h))) h) ?_
      split
      · exact .ite h (inOrder_commandWait (inOrder_setCmd h))
      · exact h

theorem inOrder_noteReady {ch : Nat} (h : InOrder d) : InOrder (noteReady d ch) := by
  dsimp only [noteReady]
  split
  · exact .ite (inOrder_setCmd h) h
  · exact h

theorem inOrder_pump {ch : Nat} (h : InOrder d) : InOrder (pump d ch) := inOrder_noteReady (inOrder_settle h)

theorem inOrder_lateCommands (h : InOrder d) : InOrder (lateCommands d) := by
  refine .foldl (fun _ _ h1 => inOrder_pump h1) (.foldl (fun _ _ h1 => ?_) (.upd h))
  split
  · exact h1
  · exact .ite (.upd h1) (inOrder_recordCmd h1)

theorem inOrder_checkRun {ch num : Nat} (h : InOrder d) : InOrder (checkRun d ch num) := by
  dsimp only [checkRun]
  split
  · exact h
  · exact .ite (inOrder_pump (inOrder_completeCmd h)) h

theorem inOrder_partEnds {p : PartRun} {f : FaultCode} {sub : Nat} (h : InOrder d) : InOrder (partEnds d c p f sub) := by
  dsimp only [partEnds]
  split
  · exact h
  · exact inOrder_checkRun (inOrder_setCmd h)

theorem inOrder_partNever {ch num part : Nat} {f : FaultCode} (h : InOrder d) : InOrder (partNever d ch num part f) := by
  dsimp only [partNever]
  split
  · exact h
  · exact inOrder_checkRun (inOrder_setCmd h)

theorem inOrder_freeCore (h : InOrder d) : InOrder (freeCore d c) := inOrder_modCore h

theorem inv_execPartComplete (h : Inv s) : OnNext Inv (execPartComplete c s) := by
  refine inOrder_runCmd (fun _ h1 => ?_) h
  dsimp only
  split
  · exact inOrder_whenOn (inOrder_partEnds (inOrder_freeCore h1))
  · exact .refused

/-! ### Commands -/

theorem inOrder_badDoorbell {chan : Nat} {tail : W32} (h : InOrder d) : InOrder (badDoorbell d chan tail) :=
  inOrder_rcount (inOrder_logIgnoredAt h)
theorem inOrder_doorbellWrite {chan : Nat} {tail : BitVec 32} (h : InOrder d) : InOrder (doorbellWrite d chan tail) :=
  .ite (inOrder_badDoorbell h) (inOrder_modChan h)
theorem inv_execCmdDoorbell {chan : Nat} {tail : BitVec 32} (h : Inv s) : OnNext Inv (execCmdDoorbell chan tail s) :=
  inOrder_runCmd (fun _ h1 => inOrder_whenOn (inOrder_doorbellWrite h1)) h
theorem inOrder_latchDoorbell {chan : Nat} {tail : W32} (h : InOrder d) : InOrder (latchDoorbell d chan tail) :=
  .whenNot (inOrder_badDoorbell (inOrder_setChan h)) fun h2 => .ite h2 (.when (inOrder_modChan (inOrder_setChan h)) inOrder_raiseEvent)

theorem inv_execDoorbellLatch {chan : Nat} (h : Inv s) : OnNext Inv (execDoorbellLatch chan s) := by
  refine inOrder_runCmd (fun _ h1 => ?_) h
  split
  · exact inOrder_whenOn (inOrder_latchDoorbell h1)
  · exact .refused

theorem inOrder_arriveWrite {die : Nat} {stake : BitVec 17} {inc : BitVec 16} (h : InOrder d) : InOrder (arriveWrite d die stake inc) :=
  .ite (inOrder_logIgnoredAt h) (inOrder_pushPort h)

theorem inv_execCmdArrive {die : Nat} {stake : BitVec 17} {inc : BitVec 16} (h : Inv s) : OnNext Inv (execCmdArrive die stake inc s) := by
  refine inOrder_runCmd (fun _ h1 => ?_) h
  split
  · exact .refused
  · split
    · exact .next (inOrder_arriveWrite h1)
    · exact .refused

theorem inOrder_readCommand {ch : Nat} (h : InOrder d) : InOrder (readCommand d ch) :=
  inOrder_pump (inOrder_modChan (inOrder_devRead h))
theorem inv_execCommandRead {chan : Nat} (h : Inv s) : OnNext Inv (execCommandRead chan s) :=
  inOrder_runCmd (fun _ h1 => inOrder_whenOn (inOrder_readCommand h1)) h
theorem inOrder_startCommand {ch : Nat} {x : Cmd} (h : InOrder d) : InOrder (startCommand d ch x) :=
  .ite (inOrder_pump (inOrder_setCmd h)) (inOrder_pump (inOrder_takePlace (inOrder_setCmd h)))

theorem inv_execCommandStart {chan : Nat} (h : Inv s) : OnNext Inv (execCommandStart chan s) := by
  refine inOrder_runCmd (fun _ h1 => ?_) h
  split
  · exact .refused
  · split
    · exact .refused
    · split
      · exact inOrder_whenOn (inOrder_startCommand h1)
      · split
        · exact inOrder_whenOn (inOrder_startCommand h1)
        · rename_i e31 _
          split
          · exact .next (inOrder_startCommand (inOrder_takeWake h1 _ e31))
          · exact .next (inOrder_pump (inOrder_setCmd (inOrder_takeWake h1 _ e31)))
        · rename_i e32 _
          exact .next (inOrder_pump (inOrder_setCmd (inOrder_takeWake h1 _ e32)))
        · exact .refused

theorem inv_execCmdRun {chan : Nat} (h : Inv s) : OnNext Inv (execCmdRun chan s) := by
  refine inOrder_runCmd (fun _ h1 => ?_) h
  split
  · exact .refused
  · exact .next (inOrder_setCmd h1)

theorem inv_execCmdLoad {chan : Nat} (h : Inv s) : OnNext Inv (execCmdLoad chan s) := by
  refine inOrder_runCmd (fun _ h1 => ?_) h
  split
  · exact .refused
  · split
    · exact .refused
    · split
      · rename_i e2
        exact .next (inOrder_pump (inOrder_completeCmd (.of_fst e2 (inOrder_loadImage h1))))
      · rename_i e2
        exact .next (inOrder_pump (inOrder_completeCmd (inOrder_modChan (.of_fst e2 (inOrder_loadImage h1)))))

theorem inv_execCmdArriveOp {chan : Nat} (h : Inv s) : OnNext Inv (execCmdArriveOp chan s) := by
  refine inOrder_runCmd (fun _ h1 => ?_) h
  split
  · exact .refused
  · exact .next (inOrder_pump (inOrder_completeCmd (inOrder_blockArrive h1)))

theorem inv_execCmdNop {chan : Nat} (h : Inv s) : OnNext Inv (execCmdNop chan s) := by
  refine inOrder_runCmd (fun _ h1 => ?_) h
  split
  · exact .refused
  · exact .next (inOrder_pump (inOrder_completeCmd h1))

theorem inOrder_complHeadWrite {chan : Nat} {v : BitVec 32} (h : InOrder d) : InOrder (complHeadWrite d chan v) :=
  .ite (inOrder_logIgnoredAt h) (inOrder_pump (inOrder_setChan h))
theorem inv_execCmdComplHeadWrite {chan : Nat} {v : BitVec 32} (h : Inv s) : OnNext Inv (execCmdComplHeadWrite chan v s) :=
  inOrder_runCmd (fun _ h1 => inOrder_whenOn (inOrder_complHeadWrite h1)) h

theorem inOrder_writeEvent {e : Event} (h : InOrder d) : InOrder (writeEvent d e) := by
  dsimp only [writeEvent]
  split
  · rename_i e1
    exact inOrder_evtDrop (inOrder_logErr (.of_fst e1 (inOrder_devWrite h)))
  · rename_i e1
    exact .ite (inOrder_evtDrop (inOrder_logErr (.of_fst e1 (inOrder_devWrite h)))) (inOrder_rset (.upd (.of_fst e1 (inOrder_devWrite h))))

theorem inv_execEventMergeWrite (h : Inv s) : OnNext Inv (execEventMergeWrite s) := by
  refine inOrder_runCmd (fun _ h1 => ?_) h
  split
  · exact .refused
  · dsimp only
    split
    · exact .refused
    · split
      · exact .next (.upd h1)
      · exact inOrder_whenOn (inOrder_writeEvent (.upd h1))

theorem inOrder_evtHeadWrite {v : BitVec 32} (h : InOrder d) : InOrder (evtHeadWrite d v) :=
  .ite (inOrder_logIgnoredAt h) (inOrder_regSet h)
theorem inv_execCmdEvtPtrHeadWrite {v : BitVec 32} (h : Inv s) : OnNext Inv (execCmdEvtPtrHeadWrite v s) :=
  inOrder_runCmd (fun _ h1 => inOrder_whenOn (inOrder_evtHeadWrite h1)) h

/-! ### UnitOps -/

theorem inOrder_dIssue {row : String} {i : Instr} {o : DOp} {kind opc : Nat} {hreg : Bool} {full : Dev → Bool} {push : Dev → Op → Dev}
    (hf : ∀ e x, InOrder e → InOrder (push e x)) (h : InOrder d) : OnNext InOrder (dIssue row c i o kind opc hreg full push d) :=
  inOrder_issue (fun _ _ h1 => .next (.ite (inOrder_seqFault h1) (.ite h1 (inOrder_stepPc (hf _ _ (inOrder_partIssue (inOrder_nextSerial h1))))))) h

theorem inOrder_setCube {u : Nat} {x : Cube} (h : InOrder d) : InOrder (setCube d c u x) := inOrder_modWork h
theorem inOrder_modCube {u : Nat} {f : Cube → Cube} (h : InOrder d) : InOrder (modCube d c u f) :=
  inOrder_setCube h
theorem inOrder_cubeReg {n : RegName} {u hi lo k : Nat} (h : InOrder d) : InOrder (cubeReg n c u hi lo k d) :=
  inOrder_rcount h
theorem inOrder_opCleanup {o : RunOp} (h : InOrder d) : InOrder (opCleanup d c o) := inOrder_modWork h

theorem inOrder_flushPost {u n : Nat} (h : InOrder d) : InOrder (flushPost d c u n) := by
  induction n generalizing d with
  | zero => exact h
  | succ n ih =>
    dsimp only [flushPost]
    split
    · exact .ite (ih (inOrder_opDoneSub (inOrder_modCube h))) h
    · exact h

theorem inOrder_flushCube {u : Nat} (h : InOrder d) : InOrder (flushCube d c u) := inOrder_flushPost h
theorem inOrder_endRun {u : Nat} {o : RunOp} {f : FaultCode} {empty : Bool} (h : InOrder d) : InOrder (endRun d c u o f empty) :=
  inOrder_flushCube (inOrder_opCleanup (inOrder_modCube h))
theorem inOrder_endHead {u : Nat} {o : RunOp} {f : FaultCode} {empty : Bool} (h : InOrder d) : InOrder (endHead d c u o f empty) :=
  .ite (inOrder_modCube (inOrder_opCleanup h)) (inOrder_flushCube (inOrder_modCube (inOrder_opCleanup h)))
theorem inOrder_setPost {u : Nat} {o : RunOp} (h : InOrder d) : InOrder (setPost d c u o) := inOrder_modCube h
theorem inOrder_endPost {u : Nat} {o : RunOp} {f : FaultCode} (h : InOrder d) : InOrder (endPost d c u o f) :=
  inOrder_flushCube (inOrder_setPost (inOrder_opCleanup h))
theorem inOrder_setRun {u : Nat} {o : RunOp} (h : InOrder d) : InOrder (setRun d c u o) := inOrder_modCube h
theorem inOrder_rampReady {u : Nat} (h : InOrder d) : InOrder (rampReady d c u) := inOrder_modCube h
theorem inOrder_countOut {sat flush : Nat} (h : InOrder d) : InOrder (countOut d c sat flush) :=
  inOrder_modPart h

theorem inOrder_drawConv {o : RunOp} {j : Nat} (h : InOrder d) : InOrder (drawConv d c o j).2 := by
  dsimp only [drawConv]
  split
  · exact inOrder_countDraws (.ite (inOrder_countSeeding (inOrder_modWork h)) (inOrder_modWork h))
  · exact inOrder_drawSource h

theorem inOrder_countElem {r : Rounded} {marked : Bool} (h : InOrder d) : InOrder (countElem d c r marked) :=
  inOrder_countOut h

theorem inOrder_convOne {o : RunOp} {j fmt rnd : Nat} {ftz sat clampInf : Bool} {v : FV}
    (h : InOrder d) : InOrder (convOne d c o j fmt rnd ftz sat clampInf v).2 :=
  inOrder_rndOf (fun _ h1 => inOrder_drawConv h1) h

theorem inOrder_convValues {o : RunOp} {fmt rnd : Nat} {ftz sat : Bool} {vs : List FV} (h : InOrder d) :
    InOrder (convValues d c o fmt rnd ftz sat vs).2 := by
  refine .foldl_snd (fun _ _ h1 => ?_) h
  dsimp only
  exact inOrder_convOne h1

theorem inOrder_countElems {rs : List Rounded} (h : InOrder d) : InOrder (countElems d c rs) :=
  .foldl (fun _ _ h1 => inOrder_countElem h1) h
theorem inOrder_convRow {o : RunOp} {fmt rnd : Nat} {ftz sat : Bool} {vs : List FV} (h : InOrder d) : InOrder (convRow d c o fmt rnd ftz sat vs).2 :=
  inOrder_countElems (inOrder_convValues h)
theorem inOrder_putCodes {off fmt i0 : Nat} {codes : List Nat} (h : InOrder d) : InOrder (putCodes d c off fmt i0 codes) :=
  inOrder_storeWrite h
theorem inOrder_putWords {off : Nat} {ws : List W32} (h : InOrder d) : InOrder (putWords d c off ws) :=
  inOrder_storeWrite h
theorem inOrder_readBanks {u : Nat} {banks : List Nat} (h : InOrder d) : InOrder (readBanks d c u banks).1 :=
  inOrder_cubeReg (inOrder_modCube h)

theorem inOrder_drainConv {o : RunOp} {staged : Bool} {j : Nat} {v : FV} (h : InOrder d) : InOrder (drainConv d c o staged j v).2 := by
  dsimp only [drainConv]
  split
  · exact h
  · exact inOrder_convOne h

theorem inOrder_writeRow {o : RunOp} {i : Nat} {vs : List (FV × Bool)} (h : InOrder d) : InOrder (writeRow d c o i vs) :=
  .foldl (fun _ _ h1 => inOrder_putCodes (inOrder_countElem (inOrder_drainConv h1))) h

theorem inOrder_holdRead {a : Addr} {n : Nat} {hold : Bool} (h : InOrder d) : InOrder (holdRead d c a n hold).1 := by
  dsimp only [holdRead]
  split
  · rename_i e
    exact .when (.of_fst e (inOrder_devRead h)) inOrder_rcount
  · exact inOrder_devRead h

theorem inOrder_fillFree {off n : Nat} (h : InOrder d) : InOrder (fillFree d c off n) :=
  .foldl (fun _ _ h1 => inOrder_freeNext (inOrder_storeWrite h1)) h

/-! ### Operands -/

theorem inOrder_roundElems {slot t rnd : Nat} {ftz sat : Bool} {vs : List FV} {lane : Nat}
    (h : InOrder d) : InOrder (roundElems c slot t rnd ftz sat vs lane d).2 :=
  .foldl_snd (fun _ _ h1 => inOrder_rndOf (fun _ h2 => inOrder_drawThread h2) h1) h

theorem inOrder_overLanes {slot : Nat} {m : W32} {f : LaneFn} {write : Crew → Nat → W32 → Crew} (h : InOrder d)
    (hf : ∀ e x y, InOrder e → InOrder (f e x y).2) : InOrder (overLanes d c slot m f write) := by
  dsimp only [overLanes]
  split
  · exact h
  · refine inOrder_setCrew (.foldl_snd (fun _ _ h1 => ?_) h)
    split
    · exact hf _ _ _ h1
    · exact h1

theorem inOrder_vecTo {row : String} {slot : Nat} {i : Instr} {pred : BitVec 3} {pneg : BitVec 1} {reads : List Nat} {vd : Nat} {f : LaneFn}
    (hf : ∀ e x y, InOrder e → InOrder (f e x y).2) (h : InOrder d) : OnNext InOrder (vecTo row c slot i pred pneg reads vd f d) :=
  inOrder_issueStep (fun _ h1 => inOrder_overLanes h1 (fun _ _ _ h2 => hf _ _ _ h2)) h

theorem inOrder_floatLane {slot : Nat} {o : V3Op} {g : List FV → FV} {k : Crew} {lane : Nat}
    (h : InOrder d) : InOrder (floatLane c slot o g d k lane).2 :=
  inOrder_roundElems h

theorem inOrder_floatBits {o : V3Op} {g : Fmt → List FV → Nat} {k : Crew} {lane : Nat} (h : InOrder d) : InOrder (floatBits o g d k lane).2 :=
  h
theorem inOrder_intLane {o : V3Op} {g : List Int → Int} {k : Crew} {lane : Nat} (h : InOrder d) : InOrder (intLane o g d k lane).2 :=
  h

theorem inOrder_arithLane {slot : Nat} {o : V3Op} {g : List FV → FV} {w : List Int → Int} {k : Crew} {lane : Nat}
    (h : InOrder d) : InOrder (arithLane c slot o g w d k lane).2 := by
  dsimp only [arithLane]
  split
  · exact inOrder_floatLane h
  · exact inOrder_intLane h

/-! ### Vector -/

theorem inOrder_vec3 {row : String} {slot : Nat} {i : Instr} {o : V3Op} {f : LaneFn} (hf : ∀ e x y, InOrder e → InOrder (f e x y).2) (h : InOrder d) :
    OnNext InOrder (vec3 row c slot i o f d) :=
  inOrder_vecTo (fun _ _ _ h1 => hf _ _ _ h1) h

theorem inv_execVecAdd {slot : Nat} {o : V3Op} (h : Inv s) : OnNext Inv (execVecAdd c slot o s) :=
  inOrder_runCmd (fun _ h1 => inOrder_vec3 (fun _ _ _ h2 => inOrder_arithLane h2) h1) h
theorem inv_execVecSub {slot : Nat} {o : V3Op} (h : Inv s) : OnNext Inv (execVecSub c slot o s) :=
  inOrder_runCmd (fun _ h1 => inOrder_vec3 (fun _ _ _ h2 => inOrder_arithLane h2) h1) h
theorem inv_execVecMul {slot : Nat} {o : V3Op} (h : Inv s) : OnNext Inv (execVecMul c slot o s) :=
  inOrder_runCmd (fun _ h1 => inOrder_vec3 (fun _ _ _ h2 => inOrder_arithLane h2) h1) h
theorem inv_execVecFma {slot : Nat} {o : V3Op} (h : Inv s) : OnNext Inv (execVecFma c slot o s) :=
  inOrder_runCmd (fun _ h1 => inOrder_vec3 (fun _ _ _ h2 => inOrder_arithLane h2) h1) h

theorem inv_execVecMin {slot : Nat} {o : V3Op} (h : Inv s) : OnNext Inv (execVecMin c slot o s) := by
  refine inOrder_runCmd (fun _ h1 => inOrder_vec3 (fun _ _ _ h2 => ?_) h1) h
  split
  · exact inOrder_floatBits h2
  · exact inOrder_intLane h2

theorem inv_execVecMax {slot : Nat} {o : V3Op} (h : Inv s) : OnNext Inv (execVecMax c slot o s) := by
  refine inOrder_runCmd (fun _ h1 => inOrder_vec3 (fun _ _ _ h2 => ?_) h1) h
  split
  · exact inOrder_floatBits h2
  · exact inOrder_intLane h2

theorem inv_execVecAbs {slot : Nat} {o : V3Op} (h : Inv s) : OnNext Inv (execVecAbs c slot o s) := by
  refine inOrder_runCmd (fun _ h1 => inOrder_vec3 (fun _ _ _ h2 => ?_) h1) h
  split
  · exact inOrder_floatBits h2
  · exact inOrder_intLane h2

theorem inv_execVecNeg {slot : Nat} {o : V3Op} (h : Inv s) : OnNext Inv (execVecNeg c slot o s) := by
  refine inOrder_runCmd (fun _ h1 => inOrder_vec3 (fun _ _ _ h2 => ?_) h1) h
  split
  · exact inOrder_floatBits h2
  · exact inOrder_intLane h2

theorem inv_execVecCmp {slot : Nat} {o : V3Op} (h : Inv s) : OnNext Inv (execVecCmp c slot o s) :=
  inOrder_runCmd (fun _ h1 => inOrder_issueStep (fun _ h2 => inOrder_modCrew h2) h1) h
theorem inv_execVecSel {slot : Nat} {o : V3Op} (h : Inv s) : OnNext Inv (execVecSel c slot o s) :=
  inOrder_runCmd (fun _ h1 => inOrder_vec3 (fun _ _ _ h2 => h2) h1) h
theorem inOrder_bitLane {o : V3Op} {g : W32 → W32 → W32} {k : Crew} {lane : Nat} (h : InOrder d) : InOrder (bitLane o g d k lane).2 :=
  h
theorem inv_execVecAnd {slot : Nat} {o : V3Op} (h : Inv s) : OnNext Inv (execVecAnd c slot o s) :=
  inOrder_runCmd (fun _ h1 => inOrder_vec3 (fun _ _ _ h2 => inOrder_bitLane h2) h1) h
theorem inv_execVecOr {slot : Nat} {o : V3Op} (h : Inv s) : OnNext Inv (execVecOr c slot o s) :=
  inOrder_runCmd (fun _ h1 => inOrder_vec3 (fun _ _ _ h2 => inOrder_bitLane h2) h1) h
theorem inv_execVecXor {slot : Nat} {o : V3Op} (h : Inv s) : OnNext Inv (execVecXor c slot o s) :=
  inOrder_runCmd (fun _ h1 => inOrder_vec3 (fun _ _ _ h2 => inOrder_bitLane h2) h1) h
theorem inv_execVecShl {slot : Nat} {o : V3Op} (h : Inv s) : OnNext Inv (execVecShl c slot o s) :=
  inOrder_runCmd (fun _ h1 => inOrder_vec3 (fun _ _ _ h2 => inOrder_bitLane h2) h1) h
theorem inv_execVecShr {slot : Nat} {o : V3Op} (h : Inv s) : OnNext Inv (execVecShr c slot o s) :=
  inOrder_runCmd (fun _ h1 => inOrder_vec3 (fun _ _ _ h2 => inOrder_bitLane h2) h1) h
theorem inv_execVecMov {slot : Nat} {o : V3Op} (h : Inv s) : OnNext Inv (execVecMov c slot o s) :=
  inOrder_runCmd (fun _ h1 => inOrder_vec3 (fun _ _ _ h2 => inOrder_bitLane h2) h1) h

theorem inOrder_vecImm {row : String} {slot : Nat} {i : Instr} {o : ViOp} {g : W32 → W32 → W32} (h : InOrder d) :
    OnNext InOrder (vecImm row c slot i o g d) :=
  inOrder_vecTo (fun _ _ _ h1 => h1) h

theorem inv_execVecMovi {slot : Nat} {o : ViOp} (h : Inv s) : OnNext Inv (execVecMovi c slot o s) :=
  inOrder_runCmd (fun _ h1 => inOrder_vecImm h1) h
theorem inv_execVecAddi {slot : Nat} {o : ViOp} (h : Inv s) : OnNext Inv (execVecAddi c slot o s) :=
  inOrder_runCmd (fun _ h1 => inOrder_vecImm h1) h
theorem inv_execVecFaddi {slot : Nat} {o : ViOp} (h : Inv s) : OnNext Inv (execVecFaddi c slot o s) :=
  inOrder_runCmd (fun _ h1 => inOrder_vecImm h1) h
theorem inv_execVecFmuli {slot : Nat} {o : ViOp} (h : Inv s) : OnNext Inv (execVecFmuli c slot o s) :=
  inOrder_runCmd (fun _ h1 => inOrder_vecImm h1) h
theorem inv_execVecShfl {slot : Nat} {o : V3Op} (h : Inv s) : OnNext Inv (execVecShfl c slot o s) :=
  inOrder_runCmd (fun _ h1 => inOrder_vec3 (fun _ _ _ h2 => h2) h1) h
theorem inv_execVecRand {slot : Nat} {o : V3Op} (h : Inv s) : OnNext Inv (execVecRand c slot o s) :=
  inOrder_runCmd (fun _ h1 => inOrder_vec3 (fun _ _ _ h2 => inOrder_drawThread h2) h1) h

theorem inv_execVecLd {slot : Nat} {o : VmOp} (h : Inv s) : OnNext Inv (execVecLd c slot o s) := by
  refine inOrder_runCmd (fun _ h1 => inOrder_issue (fun _ _ h2 => ?_) h1) h
  split
  · exact .refused
  · exact .next (.ite (inOrder_crewFaultAt h2) (.ite (inOrder_crewFault h2) (inOrder_stepPc (inOrder_overLanes h2 (fun _ _ _ h3 => h3)))))

theorem inv_execVecSt {slot : Nat} {o : VmOp} (h : Inv s) : OnNext Inv (execVecSt c slot o s) := by
  refine inOrder_runCmd (fun _ h1 => inOrder_issue (fun _ _ h2 => ?_) h1) h
  split
  · exact .refused
  · exact .next (.ite (inOrder_crewFaultAt h2) (inOrder_stepPc (.foldl (fun _ _ h3 => .ite (inOrder_storeWrite h3) h3) h2)))

theorem inOrder_countRange {sat flush : Nat} (h : InOrder d) : InOrder (countRange d c sat flush) :=
  inOrder_modPart h

theorem inOrder_cvtLane {slot : Nat} {o : QOp} {k : Crew} {lane : Nat} (h : InOrder d) : InOrder (cvtLane c slot o d k lane).2 := by
  dsimp only [cvtLane]
  split
  · split
    · split
      · exact h
      · exact h
    · split
      · exact h
      · exact h
  · exact inOrder_countRange (inOrder_rndOf (fun _ h1 => inOrder_drawThread h1) h)

theorem inv_execQntCvt {slot : Nat} {o : QOp} (h : Inv s) : OnNext Inv (execQntCvt c slot o s) :=
  inOrder_runCmd (fun _ h1 => inOrder_vecTo (fun _ _ _ h2 => inOrder_cvtLane h2) h1) h

/-! ### Sfn -/

theorem inOrder_sfnLane {f : Sfn} {slot : Nat} {o : V3Op} {k : Crew} {lane : Nat} (h : InOrder d) : InOrder (sfnLane f c slot o d k lane).2 :=
  inOrder_roundElems h

theorem inOrder_sfnIssue {row : String} {f : Sfn} {slot : Nat} {i : Instr} {o : V3Op} (h : InOrder d) :
    OnNext InOrder (sfnIssue row f c slot i o d) := by
  refine inOrder_issue (fun _ _ h1 => ?_) h
  split
  · exact .next (inOrder_crewFault h1)
  · exact .next (inOrder_stepPc (inOrder_overLanes h1 (fun _ _ _ h2 => inOrder_sfnLane h2)))

theorem inv_execSfnExp {slot : Nat} {o : V3Op} (h : Inv s) : OnNext Inv (execSfnExp c slot o s) :=
  inOrder_runCmd (fun _ h1 => inOrder_sfnIssue h1) h
theorem inv_execSfnExp2 {slot : Nat} {o : V3Op} (h : Inv s) : OnNext Inv (execSfnExp2 c slot o s) :=
  inOrder_runCmd (fun _ h1 => inOrder_sfnIssue h1) h
theorem inv_execSfnLog {slot : Nat} {o : V3Op} (h : Inv s) : OnNext Inv (execSfnLog c slot o s) :=
  inOrder_runCmd (fun _ h1 => inOrder_sfnIssue h1) h
theorem inv_execSfnLog2 {slot : Nat} {o : V3Op} (h : Inv s) : OnNext Inv (execSfnLog2 c slot o s) :=
  inOrder_runCmd (fun _ h1 => inOrder_sfnIssue h1) h
theorem inv_execSfnRcp {slot : Nat} {o : V3Op} (h : Inv s) : OnNext Inv (execSfnRcp c slot o s) :=
  inOrder_runCmd (fun _ h1 => inOrder_sfnIssue h1) h
theorem inv_execSfnSqrt {slot : Nat} {o : V3Op} (h : Inv s) : OnNext Inv (execSfnSqrt c slot o s) :=
  inOrder_runCmd (fun _ h1 => inOrder_sfnIssue h1) h
theorem inv_execSfnRsqrt {slot : Nat} {o : V3Op} (h : Inv s) : OnNext Inv (execSfnRsqrt c slot o s) :=
  inOrder_runCmd (fun _ h1 => inOrder_sfnIssue h1) h
theorem inv_execSfnSin {slot : Nat} {o : V3Op} (h : Inv s) : OnNext Inv (execSfnSin c slot o s) :=
  inOrder_runCmd (fun _ h1 => inOrder_sfnIssue h1) h
theorem inv_execSfnCos {slot : Nat} {o : V3Op} (h : Inv s) : OnNext Inv (execSfnCos c slot o s) :=
  inOrder_runCmd (fun _ h1 => inOrder_sfnIssue h1) h
theorem inv_execSfnTanh {slot : Nat} {o : V3Op} (h : Inv s) : OnNext Inv (execSfnTanh c slot o s) :=
  inOrder_runCmd (fun _ h1 => inOrder_sfnIssue h1) h
theorem inv_execSfnSigm {slot : Nat} {o : V3Op} (h : Inv s) : OnNext Inv (execSfnSigm c slot o s) :=
  inOrder_runCmd (fun _ h1 => inOrder_sfnIssue h1) h
theorem inv_execSfnErf {slot : Nat} {o : V3Op} (h : Inv s) : OnNext Inv (execSfnErf c slot o s) :=
  inOrder_runCmd (fun _ h1 => inOrder_sfnIssue h1) h
theorem inv_execSfnGelu {slot : Nat} {o : V3Op} (h : Inv s) : OnNext Inv (execSfnGelu c slot o s) :=
  inOrder_runCmd (fun _ h1 => inOrder_sfnIssue h1) h
theorem inv_execSfnSilu {slot : Nat} {o : V3Op} (h : Inv s) : OnNext Inv (execSfnSilu c slot o s) :=
  inOrder_runCmd (fun _ h1 => inOrder_sfnIssue h1) h

/-! ### Kv -/

theorem inOrder_setKv {idx : Nat} {k : Kv} (h : InOrder d) : InOrder (setKv d idx k) := .upd h
theorem inOrder_modKv {idx : Nat} {f : Kv → Kv} (h : InOrder d) : InOrder (modKv d idx f) := inOrder_setKv h
theorem inOrder_kvSet {n : RegName} {idx hi lo v : Nat} (h : InOrder d) : InOrder (kvSet d n idx hi lo v) :=
  inOrder_rset h

theorem inOrder_kvEntry {idx p : Nat} (h : InOrder d) : InOrder (kvEntry d idx p).1 := by
  dsimp only [kvEntry]
  split
  · rename_i e
    exact .of_fst e (inOrder_devReadAll h)
  · rename_i e
    split
    · exact .of_fst e (inOrder_devReadAll h)
    · split
      · exact .of_fst e (inOrder_devReadAll h)
      · exact .of_fst e (inOrder_devReadAll h)

theorem inOrder_kvScan {idx n : Nat} (h : InOrder d) : InOrder (kvScan d idx n) := by
  induction n generalizing d with
  | zero => exact h
  | succ n ih => exact .ite (ih (.upd (inOrder_setKv h))) h

theorem inOrder_kvEligible {idx : Nat} (h : InOrder d) : InOrder (kvEligible d idx) := inOrder_kvScan h
theorem inOrder_prepareQ {o : RunOp} (h : InOrder d) : InOrder (prepareQ d c o).2 :=
  .foldl_snd (fun _ _ h1 => inOrder_convRow h1) h

theorem inOrder_attnKeys {u : Nat} {o : RunOp} (h : InOrder d) : InOrder (attnKeys d c u o) :=
  .ite (inOrder_endRun (inOrder_modCube h)) (.ite (inOrder_setRun (inOrder_modCube h)) (.ite (inOrder_setRun (inOrder_modCube h))
    (.ite (inOrder_endRun (inOrder_modCube h)) (inOrder_setRun (inOrder_rcount (inOrder_modCube h))))))

theorem inOrder_attnReady {u : Nat} {o : RunOp} (h : InOrder d) : InOrder (attnReady d c u o) :=
  .ite (.ite (inOrder_endRun h) (inOrder_attnKeys (inOrder_fillFree (inOrder_prepareQ h)))) (inOrder_attnKeys (inOrder_fillFree h))
theorem inOrder_attnStart {u : Nat} {o : RunOp} (h : InOrder d) : InOrder (attnStart d c u o) :=
  .ite (.ite (inOrder_endRun h) (inOrder_setRun h)) (inOrder_attnReady h)

theorem inOrder_eachAttn {f : CoreId → Nat → RunOp → Dev → Dev} (h : InOrder d)
    (hf : ∀ x y z e, InOrder e → InOrder (f x y z e)) : InOrder (eachAttn d f) := by
  refine .foldl (fun _ _ h1 => .foldl (fun _ _ h2 => ?_) h1) h
  split
  · exact .ite (hf _ _ _ _ h2) h2
  · exact h2

/-! ### Pool -/

theorem inOrder_putRecord {o : RunOp} {g : Nat} {ws : List W32} (h : InOrder d) : InOrder (putRecord d c o g ws) :=
  inOrder_putWords h

theorem inOrder_groupPartial {o : RunOp} {g : Nat} (h : InOrder d) : OnOk InOrder (groupPartial d c o g) := by
  dsimp only [groupPartial]
  split
  · exact .error
  · exact .ok (inOrder_putRecord h)

theorem inOrder_groupFinish {o : RunOp} {g : Nat} (h : InOrder d) : OnOk InOrder (groupFinish d c o g) := by
  dsimp only [groupFinish]
  split
  · exact .error
  · exact .ok (inOrder_putRecord h)

theorem inOrder_rsmpStep {o : RunOp} {s : Nat} (h : InOrder d) : OnOk (fun p => InOrder p.1) (rsmpStep d c o s) := by
  dsimp only [rsmpStep]
  split
  · exact .error
  · split
    · split
      · exact .error
      · exact .ok (.foldl (fun _ _ h1 => inOrder_putCodes (inOrder_countElem (inOrder_convOne h1))) h)
    · split
      · exact .error
      · exact .ok (.foldl (fun _ _ h1 => inOrder_putCodes (inOrder_countElem (inOrder_convOne h1))) h)

/-! ### Attn -/

theorem inOrder_fetchKey {idx j : Nat} {hold : Bool} (h : InOrder d) : InOrder (fetchKey d c idx j hold).1 := by
  dsimp only [fetchKey]
  split
  · rename_i e
    refine .of_fst e ?_
    split
    · exact h
    · exact inOrder_kvEntry h
  · rename_i e
    split
    · rename_i e1
      refine .of_fst e1 (.foldl_fst (fun _ _ h1 => ?_) (.of_fst e ?_))
      · split
        · exact h1
        · split
          · rename_i e2
            exact .of_fst e2 (inOrder_holdRead h1)
          · rename_i e2
            exact .of_fst e2 (inOrder_holdRead h1)
      · split
        · exact h
        · exact inOrder_kvEntry h
    · rename_i e1
      split
      · rename_i e2
        refine .of_fst e2 (.foldl_fst (fun _ _ h1 => ?_) (.of_fst e1 (.foldl_fst (fun _ _ h1 => ?_) (.of_fst e ?_))))
        · split
          · exact h1
          · split
            · rename_i e3
              exact .of_fst e3 (inOrder_holdRead h1)
            · rename_i e3
              exact .of_fst e3 (inOrder_holdRead h1)
        · split
          · exact h1
          · split
            · rename_i e3
              exact .of_fst e3 (inOrder_holdRead h1)
            · rename_i e3
              exact .of_fst e3 (inOrder_holdRead h1)
        · split
          · exact h
          · exact inOrder_kvEntry h
      · rename_i e2
        refine .of_fst e2 (.foldl_fst (fun _ _ h1 => ?_) (.of_fst e1 (.foldl_fst (fun _ _ h1 => ?_) (.of_fst e ?_))))
        · split
          · exact h1
          · split
            · rename_i e3
              exact .of_fst e3 (inOrder_holdRead h1)
            · rename_i e3
              exact .of_fst e3 (inOrder_holdRead h1)
        · split
          · exact h1
          · split
            · rename_i e3
              exact .of_fst e3 (inOrder_holdRead h1)
            · rename_i e3
              exact .of_fst e3 (inOrder_holdRead h1)
        · split
          · exact h
          · exact inOrder_kvEntry h

theorem inOrder_fetchChunk {o : RunOp} (h : InOrder d) : InOrder (fetchChunk d c o).1 := by
  dsimp only [fetchChunk]
  split
  · refine .foldl_fst (fun _ _ h1 => ?_) h
    split
    · exact h1
    · split
      · rename_i e2
        exact .of_fst e2 (inOrder_fetchKey h1)
      · rename_i e2
        exact inOrder_storeWrite (inOrder_storeWrite (.of_fst e2 (inOrder_fetchKey h1)))
  · refine .foldl_fst (fun _ _ h1 => ?_) h
    split
    · exact h1
    · split
      · rename_i e2
        exact .of_fst e2 (inOrder_fetchKey h1)
      · rename_i e2
        exact inOrder_storeWrite (inOrder_storeWrite (.of_fst e2 (inOrder_fetchKey h1)))

theorem inOrder_attnOutput {o : RunOp} {x : Cube} {lim : Nat} (h : InOrder d) : InOrder (attnOutput d c o x lim) :=
  .foldl (fun _ _ h1 => .foldl (fun _ _ h2 => .ite h2 (inOrder_putCodes (inOrder_countElem (inOrder_convOne h2)))) h1) h

/-! ### Chain -/

theorem inOrder_setStream {s : Nat} {x : Stream} (h : InOrder d) : InOrder (setStream d c s x) :=
  inOrder_modWork h
theorem inOrder_setChainQ {q : List Chain} (h : InOrder d) : InOrder (setChainQ d c q) := inOrder_modWork h
theorem inOrder_setChain {x : Chain} (h : InOrder d) : InOrder (setChain d c x) := inOrder_setChainQ h
theorem inOrder_popChain {x : Chain} {f : FaultCode} (h : InOrder d) : InOrder (popChain d c x f) :=
  inOrder_opDone (inOrder_setChainQ h)
theorem inOrder_stopRearms {s : Nat} (h : InOrder d) : InOrder (stopRearms d c s) :=
  .foldl (fun _ _ h1 => inOrder_popChain h1) h

theorem inOrder_slotNext {s : Nat} {idle : Bool} {n : Nat} (h : InOrder d) : InOrder (slotNext d c s idle n) := by
  induction n generalizing d idle with
  | zero => exact h
  | succ n ih =>
    dsimp only [slotNext]
    split
    · exact inOrder_setStream h
    · exact .ite (ih (inOrder_popChain h)) (.ite (ih (inOrder_popChain h)) (.ite (ih (inOrder_popChain h)) (inOrder_setStream h)))

theorem inOrder_slotFreed {s : Nat} (h : InOrder d) : InOrder (slotFreed d c s) :=
  .ite (inOrder_setStream h) (inOrder_slotNext h)

theorem inOrder_endChain {x : Chain} {f : FaultCode} (h : InOrder d) : InOrder (endChain d c x f) := by
  dsimp only [endChain]
  split
  · exact inOrder_popChain h
  · exact inOrder_slotFreed (.ite (inOrder_rcount (inOrder_popChain h)) (inOrder_stopRearms (inOrder_popChain h)))

theorem inOrder_chainRun {x : Chain} (h : InOrder d) : InOrder (chainRun d c x) :=
  .ite (inOrder_endChain h) (inOrder_setChain h)

theorem inOrder_chainBegin {x : Chain} {wait : Option StakeId} (h : InOrder d) : InOrder (chainBegin d c x wait) := by
  dsimp only [chainBegin]
  split
  · exact inOrder_chainRun h
  · exact inOrder_unitWait (inOrder_setChain h)

theorem inOrder_pushArm {op : Op} (h : InOrder d) : InOrder (pushArm c d op) := inOrder_setChainQ h

theorem inOrder_pushStream {op : Op} (h : InOrder d) : InOrder (pushStream c d op) := by
  dsimp only [pushStream]
  split
  · exact inOrder_opDone h
  · exact .ite (.ite (inOrder_setChainQ (inOrder_setStream h)) (inOrder_opDone h))
      (.ite (.ite (inOrder_opDone h) (inOrder_setChainQ (inOrder_setStream h)))
        (.ite (inOrder_setChainQ (.foldl (fun _ _ h1 => inOrder_popChain h1) h)) (inOrder_opDone (inOrder_setStream h))))

theorem inv_execChnArm {o : DOp} (h : Inv s) : OnNext Inv (execChnArm c o s) :=
  inOrder_runCmd (fun _ h1 => inOrder_dIssue (fun _ _ h2 => inOrder_pushArm h2) h1) h
theorem inv_execChnStrm {o : DOp} (h : Inv s) : OnNext Inv (execChnStrm c o s) :=
  inOrder_runCmd (fun _ h1 => inOrder_dIssue (fun _ _ h2 => inOrder_pushStream h2) h1) h
theorem inv_execChnRearm {o : DOp} (h : Inv s) : OnNext Inv (execChnRearm c o s) :=
  inOrder_runCmd (fun _ h1 => inOrder_dIssue (fun _ _ h2 => inOrder_pushStream h2) h1) h
theorem inv_execChnStop {o : DOp} (h : Inv s) : OnNext Inv (execChnStop c o s) :=
  inOrder_runCmd (fun _ h1 => inOrder_dIssue (fun _ _ h2 => inOrder_pushStream h2) h1) h

theorem inOrder_chainStart (h : InOrder d) : OnSome InOrder (chainStart d c) := by
  unfold chainStart
  split
  · exact .none
  · split
    · rename_i x _ _ _ _
      cases x.slot with
      | none => exact .some (inOrder_popChain h)
      | some s => exact .some (inOrder_slotNext (inOrder_popChain (inOrder_stopRearms h)))
    · dsimp only
      split
      · exact .some (.ite (inOrder_popChain h) (inOrder_chainBegin (inOrder_setChain h)))
      · exact .some (.ite (inOrder_slotNext (inOrder_popChain (inOrder_stopRearms h))) (inOrder_chainBegin (inOrder_setChain (inOrder_setStream h))))

theorem inOrder_passStart {s : Nat} (h : InOrder d) : OnSome InOrder (passStart d c s) := by
  dsimp only [passStart]
  split
  · exact .none
  · split
    · exact .none
    · split
      · exact .some (inOrder_slotFreed (inOrder_popChain h))
      · split
        · split
          · exact .some (inOrder_slotFreed (inOrder_popChain h))
          · exact .some (inOrder_chainBegin (inOrder_setChain (inOrder_setStream h)))
        · split
          · exact .some (inOrder_slotFreed (inOrder_popChain h))
          · exact .some (inOrder_chainBegin (inOrder_setChain (inOrder_setStream h)))

theorem inv_execStreamPassStart {slot : Nat} (h : Inv s) : OnNext Inv (execStreamPassStart c slot s) := by
  refine inOrder_runCmd (fun _ h1 => inOrder_orNot ?_) h
  split
  · exact inOrder_passStart h1
  · exact .none

theorem inv_execChainWaitEnd {pos : Nat} (h : Inv s) : OnNext Inv (execChainWaitEnd c pos s) := by
  refine inOrder_runCmd (fun _ h1 => inOrder_orNot ?_) h
  split
  · exact .none
  · split
    · exact .none
    · split
      · exact .none
      · rename_i e2
        exact .some (.ite (inOrder_chainRun (inOrder_takeWake h1 _ e2)) (inOrder_endChain (inOrder_takeWake h1 _ e2)))

theorem inOrder_entryFault {x : Chain} {idx : Nat} {f : FaultCode} (h : InOrder d) : InOrder (entryFault d c x idx f) :=
  .ite h (inOrder_setChain (.ite (inOrder_logErr h) (inOrder_regSet (inOrder_logErr h))))

theorem inOrder_chainCheck {serial : Nat} (h : InOrder d) : InOrder (chainCheck d c serial) := by
  dsimp only [chainCheck]
  split
  · exact h
  · exact .ite (inOrder_endChain h) h

theorem inv_execChainEntryAdmit (h : Inv s) : OnNext Inv (execChainEntryAdmit c s) := by
  refine inOrder_runCmd (fun _ h1 => ?_) h
  dsimp only
  split
  · exact .refused
  · refine inOrder_orNot ?_
    split
    · exact .none
    · split
      · exact .some (inOrder_chainCheck (inOrder_entryFault h1))
      · split
        · exact .some (inOrder_chainCheck (inOrder_entryFault h1))
        · exact .some (inOrder_modWork (inOrder_setChain h1))

theorem inOrder_countKib {rd wr : Nat} (h : InOrder d) : InOrder (countKib d c rd wr) :=
  inOrder_rcount (inOrder_rcount (inOrder_modCore h))

theorem inOrder_releaseLine {a : Addr} (h : InOrder d) : InOrder (releaseLine d a).1 := by
  dsimp only [releaseLine]
  split
  · split
    · exact inOrder_countRefused h
    · split
      · exact inOrder_releaseLines h
      · exact h
  · exact h

theorem inOrder_serveRead {x : Flight} {p : Option Addr × Nat} (h : InOrder d) : InOrder (serveRead d c x p).1 := by
  dsimp only [serveRead]
  split
  · exact h
  · split
    · split
      · rename_i e2
        exact .of_fst e2 (inOrder_releaseLine h)
      · rename_i e2
        exact .of_fst e2 (inOrder_releaseLine h)
    · split
      · rename_i e2
        exact inOrder_countKib (.of_fst e2 (inOrder_holdRead h))
      · exact inOrder_holdRead h

theorem inOrder_serveWrite {x : Flight} {p : Addr × Nat × Nat} (h : InOrder d) : InOrder (serveWrite d c x p).1 := by
  dsimp only [serveWrite]
  split
  · exact h
  · split
    · rename_i e1
      exact .of_fst e1 (inOrder_devWrite h)
    · rename_i e1
      exact inOrder_countKib (.of_fst e1 (inOrder_devWrite h))

theorem inOrder_setFlight {pos : Nat} {x : Flight} (h : InOrder d) : InOrder (setFlight d c pos x) :=
  inOrder_modWork h

theorem inOrder_chainFaults {x : Flight} {f : FaultCode} (h : InOrder d) : InOrder (chainFaults d c x f) := by
  dsimp only [chainFaults]
  split
  · exact inOrder_entryFault h
  · exact h

theorem inOrder_flightGone {pos : Nat} {x : Flight} (h : InOrder d) : InOrder (flightGone d c pos x) :=
  inOrder_chainCheck (inOrder_modWork h)
theorem inOrder_settleFlight {pos : Nat} {x : Flight} (h : InOrder d) : InOrder (settleFlight d c pos x) :=
  .ite (inOrder_flightGone h) (inOrder_setFlight h)
theorem inOrder_readFault {pos : Nat} {x : Flight} {f : FaultCode} (h : InOrder d) : InOrder (readFault d c pos x f) :=
  inOrder_settleFlight (inOrder_chainFaults h)

theorem inOrder_chainWrite {die slice : Nat} {pos : Nat} {x : Flight} (h : InOrder d) : OnSome InOrder (chainWrite d die slice c pos x) := by
  dsimp only [chainWrite]
  split
  · exact .none
  · split
    · exact .none
    · split
      · rename_i e2
        exact .some (inOrder_flightGone (inOrder_chainFaults (.of_fst e2 (inOrder_serveWrite h))))
      · rename_i e2
        exact .some (inOrder_settleFlight (.of_fst e2 (inOrder_serveWrite h)))

theorem inOrder_chainRead {die slice : Nat} {pos : Nat} {x : Flight} (h : InOrder d) : OnSome InOrder (chainRead d die slice c pos x) := by
  dsimp only [chainRead]
  split
  · exact .none
  · split
    · exact .some (inOrder_readFault h)
    · split
      · exact .some (inOrder_readFault h)
      · split
        · exact .none
        · split
          · rename_i e4
            exact .some (inOrder_readFault (.of_fst e4 (inOrder_serveRead h)))
          · rename_i e4
            exact .some (inOrder_setFlight (.of_fst e4 (inOrder_serveRead h)))

theorem inOrder_chainLine {die slice : Nat} {pos : Nat} (h : InOrder d) : OnSome InOrder (chainLine d die slice c pos) := by
  dsimp only [chainLine]
  split
  · exact .none
  · split
    · exact .none
    · split
      · rename_i e2
        exact .some (inOrder_chainWrite h _ e2)
      · exact inOrder_chainRead h

theorem inOrder_sliceAccess {die slice : Nat} {a : Addr} {f : Dev → Dev} (h : InOrder d) (hf : ∀ e, InOrder e → InOrder (f e)) :
    OnSome InOrder (sliceAccess d die slice a f) := by
  dsimp only [sliceAccess]
  split
  · exact .some (hf _ h)
  · exact .none

theorem inv_execSliceRequest {die slice : Nat} {q : SliceReq} (h : Inv s) : OnNext Inv (execSliceRequest die slice q s) := by
  refine inOrder_runCmd (fun _ h1 => inOrder_orNot ?_) h
  split
  · split
    · exact inOrder_chainLine h1
    · exact .none
  · exact inOrder_sliceAccess h1 (fun _ h2 => inOrder_devRead h2)
  · split
    · exact inOrder_sliceAccess h1 (fun _ h2 => inOrder_devWrite h2)
    · exact .none
  · split
    · exact inOrder_sliceWord h1
    · exact .none
  · exact .some (inOrder_rcount h1)

theorem inv_execChainEntryComplete {pos : Nat} (h : Inv s) : OnNext Inv (execChainEntryComplete c pos s) := by
  refine inOrder_runCmd (fun _ h1 => inOrder_orNot ?_) h
  split
  · exact .none
  · split
    · exact .none
    · dsimp only
      split
      · exact .some (inOrder_modWork h1)
      · exact .some (inOrder_chainCheck (inOrder_setChain (.ite (inOrder_unitArrive (inOrder_modWork h1)) (inOrder_modWork h1))))

/-! ### CubeFlow -/

theorem inOrder_pushCube {o : DOp} {op : Op} (h : InOrder d) : InOrder (pushCube c o d op) :=
  inOrder_modCube h
theorem inv_execCubeMma {o : DOp} (h : Inv s) : OnNext Inv (execCubeMma c o s) :=
  inOrder_runCmd (fun _ h1 => inOrder_dIssue (fun _ _ h2 => inOrder_pushCube h2) h1) h
theorem inv_execCubeConv {o : DOp} (h : Inv s) : OnNext Inv (execCubeConv c o s) :=
  inOrder_runCmd (fun _ h1 => inOrder_dIssue (fun _ _ h2 => inOrder_pushCube h2) h1) h
theorem inv_execCubeAttn {o : DOp} (h : Inv s) : OnNext Inv (execCubeAttn c o s) :=
  inOrder_runCmd (fun _ h1 => inOrder_dIssue (fun _ _ h2 => inOrder_pushCube h2) h1) h
theorem inv_execCubePool {o : DOp} (h : Inv s) : OnNext Inv (execCubePool c o s) :=
  inOrder_runCmd (fun _ h1 => inOrder_dIssue (fun _ _ h2 => inOrder_pushCube h2) h1) h
theorem inv_execCubeRsmp {o : DOp} (h : Inv s) : OnNext Inv (execCubeRsmp c o s) :=
  inOrder_runCmd (fun _ h1 => inOrder_dIssue (fun _ _ h2 => inOrder_pushCube h2) h1) h
theorem inv_execCubeAclr {o : DOp} (h : Inv s) : OnNext Inv (execCubeAclr c o s) :=
  inOrder_runCmd (fun _ h1 => inOrder_dIssue (fun _ _ h2 => inOrder_pushCube h2) h1) h

theorem inOrder_claimTile {o : RunOp} (h : InOrder d) : InOrder (claimTile d c o).1 := by
  dsimp only [claimTile]
  split
  · exact h
  · split
    · rename_i e1
      exact .of_fst e1 (inOrder_devReadAll h)
    · rename_i e1
      split
      · exact inOrder_rcount (.of_fst e1 (inOrder_devReadAll h))
      · split
        · rename_i e3
          exact .of_fst e3 (inOrder_devWriteAll (.of_fst e1 (inOrder_devReadAll h)))
        · rename_i e3
          exact .of_fst e3 (inOrder_devWriteAll (.of_fst e1 (inOrder_devReadAll h)))

theorem inOrder_putLedger {a : Addr} {x y : W32} (h : InOrder d) : InOrder (putLedger d a x y).1 :=
  inOrder_devWriteAll h
theorem inOrder_cubeArrive {o : RunOp} {id : Nat} {faulted : Bool} (h : InOrder d) : InOrder (cubeArrive d c o id faulted) :=
  inOrder_unitArrive h
theorem inOrder_faultArrivals {o : RunOp} (h : InOrder d) : InOrder (faultArrivals d c o) :=
  .ite (inOrder_cubeArrive h) (.ite (inOrder_cubeArrive h) h)

theorem inOrder_zeroHooks {o : RunOp} (h : InOrder d) : InOrder (zeroHooks d c o).1 := by
  unfold zeroHooks
  split
  · exact h
  · extract_lets rows cols put d1 d2 d3 soft d4 r
    have hput {e : Dev} {red off : Nat} {l : List Nat} (he : InOrder e) : InOrder (put e red off l) :=
      .ite he (.foldl (fun _ _ h1 => inOrder_putWords h1) he)
    have h3 : InOrder d3 := .when (hput (hput h)) inOrder_modWork
    have h4 : InOrder d4 := .ite h3 (.foldl (fun _ _ h1 => inOrder_putWords h1) h3)
    split
    · exact h3
    · refine inOrder_cubeArrive (.foldl_fst (fun _ _ h1 => ?_) h4)
      split
      · exact h1
      · split
        · rename_i e
          exact InOrder.of_fst e (inOrder_putLedger h1)
        · rename_i e
          exact InOrder.of_fst e (inOrder_putLedger h1)

theorem inOrder_drainDirect {u : Nat} {o : RunOp} {lim : Nat} (h : InOrder d) : InOrder (drainDirect d c u o lim) :=
  .foldl (fun _ _ h1 => .foldl (fun _ _ h2 => .ite h2 (inOrder_putCodes (inOrder_countElem (inOrder_drainConv h2)))) h1) h

theorem inOrder_ksplitPut {o : RunOp} {p : Nat} {row : Nat → List W32} {marked : Nat → Nat}
    (h : InOrder d) : InOrder (ksplitPut d c o p row marked).1 := by
  refine .foldl_fst (fun _ _ h1 => ?_) h
  split
  · exact h1
  · split
    · rename_i e1
      exact .of_fst e1 (inOrder_devWriteAll h1)
    · rename_i e1
      exact inOrder_countOut (.of_fst e1 (inOrder_devWriteAll h1))

theorem inOrder_ksplitWrite {u : Nat} {o : RunOp} {p : Nat} (h : InOrder d) : InOrder (ksplitWrite d c u o p).1 :=
  inOrder_ksplitPut h
theorem inOrder_accLog {u bank : Nat} (h : InOrder d) : InOrder (accLog d c u bank) := inOrder_logErr h

theorem inOrder_readThen {u : Nat} {banks : List Nat} {drain : Dev → Nat → Dev × FaultCode} (h : InOrder d)
    (hf : ∀ e x, InOrder e → InOrder (drain e x).1) : InOrder (readThen d c u banks drain).1 := by
  dsimp only [readThen]
  split
  · exact inOrder_accLog (hf _ _ (inOrder_readBanks h))
  · exact hf _ _ (inOrder_readBanks h)

theorem inOrder_zeroPart {u : Nat} {o : RunOp} (h : InOrder d) : InOrder (zeroPart d c u o).1 := by
  refine inOrder_cubeArrive ?_
  split
  · split
    · refine inOrder_readThen h (fun _ _ h1 => ?_)
      split
      · exact h1
      · exact inOrder_ksplitWrite h1
    · exact inOrder_ksplitPut h
  · exact h

theorem inOrder_zeroBody {u : Nat} {o : RunOp} (h : InOrder d) : InOrder (zeroBody d c u o).1 := by
  dsimp only [zeroBody]
  split
  · split
    · exact h
    · split
      · split
        · exact h
        · exact inOrder_readThen h (fun _ _ h1 => inOrder_drainDirect h1)
      · split
        · exact inOrder_modCube h
        · exact .foldl (fun _ _ h1 => .foldl (fun _ _ h2 => inOrder_putCodes h2) h1) h
  · exact .ite (.foldl (fun _ _ h1 => inOrder_putRecord h1) h) h
  · exact h

theorem inOrder_afterSteps {u : Nat} {o : RunOp} (h : InOrder d) : InOrder (afterSteps d c u o) :=
  .ite (inOrder_endRun h) (.ite (inOrder_unitWait (inOrder_setRun h)) (.ite (inOrder_endRun h) (inOrder_setRun h)))
theorem inOrder_skipPruned {u : Nat} {o : RunOp} (h : InOrder d) : InOrder (skipPruned d c u o) :=
  .ite (inOrder_afterSteps (.ite h (inOrder_cubeReg h))) (inOrder_setRun (.ite h (inOrder_cubeReg h)))
theorem inOrder_startBanks {u : Nat} {o : RunOp} (h : InOrder d) : InOrder (startBanks d c u o) :=
  .ite h (inOrder_modCube h)
theorem inOrder_prologueStart {u : Nat} {o : RunOp} (h : InOrder d) : InOrder (prologueStart d c u o) :=
  .ite (inOrder_unitWait (inOrder_rcount (inOrder_setRun h))) (inOrder_setRun h)
theorem inOrder_rampGo {u : Nat} (h : InOrder d) : InOrder (rampGo d c u) := .ite (inOrder_rampReady h) h
theorem inOrder_rampAll (h : InOrder d) : InOrder (rampAll d c) := .foldl (fun _ _ h1 => inOrder_rampGo h1) h

theorem inOrder_cubeStart {u : Nat} {o : RunOp} (h : InOrder d) : InOrder (cubeStart d c u o) := by
  unfold cubeStart
  extract_lets d1 o1 b r _ d2
  have h1 : InOrder d1 := inOrder_modCube h
  have h2 : InOrder d2 := inOrder_startBanks h1
  have hb : InOrder b.1 := inOrder_zeroBody h1
  have hr : InOrder r.1 := by
    unfold r
    split
    · exact inOrder_zeroPart h1
    · split
      · exact inOrder_faultArrivals hb
      · exact inOrder_zeroHooks hb
  exact .ite (.when (inOrder_endRun hr) inOrder_rampAll) (.ite (inOrder_attnStart h1) (.ite (inOrder_rampGo (inOrder_setRun h1))
    (.ite (inOrder_endRun (inOrder_faultArrivals h1))
      (.ite (inOrder_prologueStart h2) (.ite (inOrder_rampGo (inOrder_skipPruned h2)) (inOrder_rampGo (inOrder_setRun h2)))))))

theorem inOrder_promote {u : Nat} (h : InOrder d) : InOrder (promote d c u) := by
  dsimp only [promote]
  split
  · exact .ite (inOrder_flushCube (inOrder_modCube h)) (.ite (inOrder_cubeStart h) h)
  · exact h

theorem inOrder_finishRun {u : Nat} {o : RunOp} {f : FaultCode} (h : InOrder d) : InOrder (finishRun d c u o f) :=
  inOrder_promote (inOrder_endRun h)
theorem inOrder_failRun {u : Nat} {o : RunOp} {f : FaultCode} (h : InOrder d) : InOrder (failRun d c u o f) :=
  inOrder_finishRun (inOrder_faultArrivals h)
theorem inOrder_failHead {u : Nat} {o : RunOp} {f : FaultCode} (h : InOrder d) : InOrder (failHead d c u o f) :=
  inOrder_endHead (inOrder_faultArrivals h)

theorem inOrder_headGo {u : Nat} {o : RunOp} (h : InOrder d) : InOrder (headGo d c u o) := by
  dsimp only [headGo]
  split
  · exact inOrder_failHead h
  · refine .ite (inOrder_failHead h) ?_
    split
    · rename_i e1
      exact inOrder_failHead (.of_fst e1 (inOrder_claimTile h))
    · rename_i e1
      exact inOrder_endHead (.of_fst e1 (inOrder_claimTile h))
    · rename_i e1
      exact inOrder_promote (inOrder_modCube (.of_fst e1 (inOrder_claimTile h)))

theorem inOrder_cubeTake {u : Nat} (h : InOrder d) : OnSome InOrder (cubeTake d c u) := by
  dsimp only [cubeTake]
  split
  · exact .none
  · split
    · exact .none
    · split
      · split
        · exact .none
        · exact .some (inOrder_endHead (inOrder_modCube (inOrder_modCube h)))
      · split
        · exact .some (inOrder_endHead (inOrder_modCube h))
        · split
          · exact .some (inOrder_failHead (inOrder_modCube h))
          · split
            · exact .some (inOrder_headGo (inOrder_modCube (inOrder_modCube h)))
            · exact .some (inOrder_unitWait (inOrder_modCube (inOrder_modCube h)))

theorem inOrder_cubeWaitEnd {u : Nat} (h : InOrder d) : OnSome InOrder (cubeWaitEnd d c u) := by
  dsimp only [cubeWaitEnd]
  split
  · exact .none
  · split
    · exact .none
    · split
      · exact .none
      · rename_i e2
        exact .some (inOrder_headGo (inOrder_takeWake h _ e2))
      · rename_i e22
        exact .some (inOrder_failHead (inOrder_takeWake h _ e22))

/-! ### Fence -/

theorem inOrder_abandonWaits (h : InOrder d) : InOrder (abandonWaits d c) :=
  .foldl (fun _ _ h1 => inOrder_cancelWaits h1) h
theorem inOrder_fenceCube {hit : Option Nat} {u : Nat} (h : InOrder d) : InOrder (fenceCube c hit d u) :=
  .foldl (fun _ _ h1 => inOrder_opDoneSub h1) (inOrder_setCube (.foldl (fun _ _ h1 => inOrder_faultArrivals h1) h))
theorem inOrder_fenceChains (h : InOrder d) : InOrder (fenceChains d c) :=
  inOrder_modWork (.foldl (fun _ _ h1 => .ite (.ite (inOrder_setChain h1) h1) (inOrder_popChain h1)) h)
theorem inOrder_fenceLaunches (h : InOrder d) : InOrder (fenceLaunches d c) :=
  .foldl (fun _ _ h1 => inOrder_launchDone h1) (inOrder_modWork h)
theorem inOrder_fenceQueues (h : InOrder d) : InOrder (fenceQueues d c) :=
  .foldl (fun _ _ h1 => inOrder_opDone h1) (.foldl (fun _ _ h1 => inOrder_opDone h1) (.foldl (fun _ _ h1 => inOrder_opDone h1) (inOrder_modWork h)))

theorem inOrder_dropHeld {f : FaultCode} (h : InOrder d) : InOrder (dropHeld d c f) := by
  dsimp only [dropHeld]
  split
  · exact h
  · split
    · exact inOrder_partEnds (inOrder_modCore h)
    · exact inOrder_modCore h

theorem inOrder_fenceCore {cause reason : Nat} {hit : Option Nat} {cube step masks : Nat}
    (h : InOrder d) : InOrder (fenceCore d c cause reason hit cube step masks) :=
  .ite h (inOrder_dropHeld (inOrder_logErr (inOrder_fenceLaunches
    (inOrder_fenceQueues (inOrder_fenceChains (.foldl (fun _ _ h1 => inOrder_fenceCube h1)
      (inOrder_modPart (inOrder_modSeq (inOrder_modCore (inOrder_abandonWaits h))))))))))

theorem inv_execFenceReq (h : Inv s) : OnNext Inv (execFenceReq c s) := by
  refine inOrder_runCmd (fun _ h1 => ?_) h
  dsimp only
  split
  · exact .next h1
  · exact .next (inOrder_fenceCore h1)

/-! ### Cube -/

theorem inOrder_hookQueue {u : Nat} {o : RunOp} {epi : Bool} (h : InOrder d) : InOrder (hookQueue d c u o epi).1 := by
  dsimp only [hookQueue]
  split
  · exact h
  · exact inOrder_modWork (inOrder_nextSerial h)

theorem inOrder_stepBad {u : Nat} {o : RunOp} {idx rows cols : Nat} (h : InOrder d) : InOrder (stepBad d c u o idx rows cols) :=
  .ite (inOrder_fenceCore (inOrder_modCube h)) (.ite (inOrder_fenceCore (inOrder_modCube h))
    (inOrder_setRun (inOrder_logErr (inOrder_modPart (inOrder_cubeReg (inOrder_modCore (inOrder_modCube h)))))))

theorem inOrder_accBad {u : Nat} {o : RunOp} {bank : Nat} (h : InOrder d) : InOrder (accBad d c u o bank) :=
  inOrder_failRun (inOrder_accLog h)
theorem inOrder_countUpset {u : Nat} {x : Upset} (h : InOrder d) : InOrder (countUpset d c u x) :=
  inOrder_cubeReg (inOrder_cubeReg (inOrder_modCube h))

theorem inOrder_takeInject {u : Nat} {o : RunOp} (h : InOrder d) : InOrder (takeInject d c u o).2 := by
  dsimp only [takeInject]
  split
  · exact inOrder_setCube h
  · split
    · exact inOrder_setCube h
    · exact h

theorem inOrder_stepDone {u : Nat} {skipped : Bool} (h : InOrder d) : InOrder (stepDone d c u skipped) :=
  .ite (inOrder_cubeReg (inOrder_cubeReg h)) (inOrder_cubeReg h)

theorem inOrder_addRead {u : Nat} {o : RunOp} {bank : Nat} {next : Dev → Dev} (h : InOrder d)
    (hf : ∀ e, InOrder e → InOrder (next e)) : InOrder (addRead d c u o bank next) := by
  dsimp only [addRead]
  split
  · exact inOrder_accBad (inOrder_readBanks h)
  · exact hf _ (inOrder_readBanks h)

theorem inOrder_mmaStep {u : Nat} {o : RunOp} {x : Upset} (h : InOrder d) : InOrder (mmaStep d c u o x) := by
  dsimp only [mmaStep]
  split
  · exact inOrder_failRun h
  · exact inOrder_rcount h
  · exact .ite (inOrder_failRun h) (.ite (inOrder_failRun h) (.ite (inOrder_stepBad (inOrder_countUpset (inOrder_takeInject h)))
      (inOrder_addRead (inOrder_countUpset (inOrder_takeInject h))
        (fun _ h1 => .ite (inOrder_stepBad h1) (inOrder_promote (inOrder_skipPruned (inOrder_stepDone (inOrder_modCube h1))))))))

theorem inOrder_imageNext {u : Nat} {o : RunOp} (h : InOrder d) : InOrder (imageNext d c u o) :=
  inOrder_promote (.ite (inOrder_afterSteps h) (inOrder_setRun h))

theorem inOrder_imageStep {u : Nat} {o : RunOp} {x : Upset} (h : InOrder d) : InOrder (imageStep d c u o x) := by
  have hd : InOrder (countUpset d c u x) := inOrder_countUpset h
  unfold imageStep
  extract_lets
  refine .ite (inOrder_stepBad hd) (.ite ?_ (.ite (.ite (inOrder_failRun hd)
    (inOrder_addRead hd fun _ h1 => inOrder_imageNext (inOrder_stepDone (inOrder_modCube h1)))) (.ite ?_ (inOrder_imageNext (inOrder_stepDone hd)))))
  · split
    · exact inOrder_failRun hd
    · rename_i e
      exact inOrder_imageNext (inOrder_stepDone (inOrder_rsmpStep hd _ e))
  · have sums {g : Nat} : OnOk InOrder (if o.poolMode = 4 then groupPartial (countUpset d c u x) c o g else groupFinish (countUpset d c u x) c o g) :=
      by
      split
      · exact inOrder_groupPartial hd
      · exact inOrder_groupFinish hd
    split
    · exact inOrder_failRun hd
    · rename_i e
      exact inOrder_imageNext (inOrder_stepDone (sums _ e))

theorem inOrder_attnStep {u : Nat} {o : RunOp} {x : Upset} (h : InOrder d) : InOrder (attnStep d c u o x) :=
  .ite (inOrder_failRun h) (.ite (inOrder_stepBad (inOrder_countUpset (inOrder_takeInject h)))
    (inOrder_addRead (.when (inOrder_countUpset (inOrder_takeInject h)) inOrder_modCube)
      (fun _ h1 => .ite (inOrder_stepBad h1) (inOrder_setRun (inOrder_stepDone (inOrder_modCube h1))))))

theorem inOrder_stepsBegin {u : Nat} {o : RunOp} (h : InOrder d) : InOrder (stepsBegin d c u o) :=
  inOrder_rampGo (.ite (inOrder_promote (inOrder_skipPruned h)) (inOrder_setRun h))

theorem inOrder_oneStep {u : Nat} {o : RunOp} {x : Upset} (h : InOrder d) : InOrder (oneStep d c u o x) := by
  dsimp only [oneStep]
  split
  · exact inOrder_mmaStep (inOrder_rampGo h)
  · exact inOrder_mmaStep (inOrder_rampGo h)
  · exact inOrder_attnStep (inOrder_rampGo h)
  · exact inOrder_imageStep (inOrder_rampGo h)

theorem inv_execCubeStep {u : Nat} {x : Upset} (h : Inv s) : OnNext Inv (execCubeStep c u x s) := by
  refine inOrder_runCmd (fun _ h1 => inOrder_orNot ?_) h
  split
  · exact .none
  · split
    · exact .none
    · split
      · split
        · exact .none
        · rename_i e3
          exact .some (inOrder_stepsBegin (inOrder_takeWake h1 _ e3))
        · rename_i e32
          exact .some (inOrder_failRun (inOrder_takeWake h1 _ e32))
      · split
        · exact .none
        · split
          · exact .none
          · exact .some (inOrder_oneStep h1)

theorem inOrder_stageWrite {u : Nat} {o : RunOp} {lim : Nat} (h : InOrder d) : InOrder (stageWrite d c u o lim).1 :=
  .foldl (fun _ _ h1 => .foldl (fun _ _ h2 => .ite h2 (inOrder_putWords h2)) h1) h

theorem inOrder_toConverter {u : Nat} {o : RunOp} (h : InOrder d) : InOrder (toConverter d c u o) := by
  refine inOrder_promote (inOrder_modWork (inOrder_modCube ?_))
  split
  · exact inOrder_hookQueue h
  · exact h

theorem inOrder_drainOp {u : Nat} {o : RunOp} {x : Upset} (h : InOrder d) : InOrder (drainOp d c u o x) := by
  refine .ite ?_ ?_
  · split
    · exact inOrder_accBad (inOrder_attnOutput (inOrder_readBanks (inOrder_countUpset h)))
    · exact inOrder_finishRun (inOrder_attnOutput (inOrder_readBanks (inOrder_countUpset h)))
  · split
    · split
      · exact inOrder_accBad (inOrder_readBanks (inOrder_countUpset h))
      · exact .ite (inOrder_failRun (inOrder_ksplitWrite (inOrder_readBanks (inOrder_countUpset h))))
          (inOrder_finishRun (inOrder_cubeArrive (inOrder_ksplitWrite (inOrder_readBanks (inOrder_countUpset h)))))
    · refine .ite ?_ ?_
      · dsimp only
        split
        · exact inOrder_accBad (inOrder_stageWrite (inOrder_readBanks (inOrder_countUpset h)))
        · exact inOrder_toConverter (inOrder_stageWrite (inOrder_readBanks (inOrder_countUpset h)))
      · dsimp only
        split
        · exact inOrder_accBad (inOrder_drainDirect (inOrder_readBanks (inOrder_countUpset h)))
        · exact inOrder_finishRun (inOrder_drainDirect (inOrder_readBanks (inOrder_countUpset h)))

theorem inv_execCubeDrain {u : Nat} {x : Upset} (h : Inv s) : OnNext Inv (execCubeDrain c u x s) := by
  refine inOrder_runCmd (fun _ h1 => inOrder_orNot ?_) h
  split
  · split
    · exact .some (inOrder_drainOp h1)
    · exact .none
  · exact .none

theorem inv_execRampLevelChange {u : Nat} (h : Inv s) : OnNext Inv (execRampLevelChange c u s) := by
  refine inOrder_runCmd (fun _ h1 => ?_) h
  dsimp only
  split
  · exact .next (.ite (inOrder_setCube h1) (.ite (inOrder_setCube h1) h1))
  · split
    · exact .next (inOrder_setCube h1)
    · exact .refused

theorem inv_execRampHoldExpiry {u : Nat} (h : Inv s) : OnNext Inv (execRampHoldExpiry c u s) :=
  inOrder_runCmd (fun _ h1 => inOrder_whenOn (inOrder_setCube h1)) h
theorem inv_execCubeFenceWindowEnd (h : Inv s) : OnNext Inv (execCubeFenceWindowEnd c s) :=
  inOrder_runOk (fun _ h1 => inOrder_whenOn (inOrder_modCore h1)) h

/-! ### KvEngine -/

theorem inOrder_putStaged {idx t : Nat} {v : Bool} {bytes : List Byte} (h : InOrder d) : InOrder (putStaged d idx t v bytes).1 :=
  inOrder_devWriteAll h
theorem inOrder_tokenRow {o : RunOp} {r : Nat} {v : Bool} (h : InOrder d) : InOrder (tokenRow d c o r v).2 :=
  inOrder_convValues h

theorem inOrder_writeStaged {idx t : Nat} {v : Bool} {y : List Rounded} (h : InOrder d) : InOrder (writeStaged d c idx t v y).1 := by
  dsimp only [writeStaged]
  split
  · rename_i e
    exact .of_fst e (inOrder_putStaged h)
  · rename_i e
    exact inOrder_countElems (.of_fst e (inOrder_putStaged h))

theorem inOrder_writeToken {o : RunOp} {r : Nat} (h : InOrder d) : InOrder (writeToken d c o r).1 := by
  dsimp only [writeToken]
  split
  · exact h
  · split
    · exact inOrder_writeStaged (inOrder_tokenRow (inOrder_tokenRow h))
    · split
      · exact inOrder_writeStaged (inOrder_writeStaged (inOrder_tokenRow (inOrder_tokenRow h)))
      · exact inOrder_modKv (inOrder_writeStaged (inOrder_writeStaged (inOrder_tokenRow (inOrder_tokenRow h))))

theorem inOrder_sealWaiters {idx : Nat} (h : InOrder d) : InOrder (sealWaiters d idx) :=
  inOrder_eachAttn h (fun _ _ _ _ h1 => .ite (inOrder_failRun h1) h1)

theorem inOrder_appendDone {u : Nat} {o : RunOp} (h : InOrder d) : InOrder (appendDone d c u o) :=
  .ite (inOrder_promote (inOrder_attnReady h)) (.ite (inOrder_failRun h)
    (.ite (inOrder_failRun h) (inOrder_promote (inOrder_attnReady (inOrder_sealWaiters (inOrder_kvEligible (inOrder_modKv (inOrder_kvSet h))))))))

theorem inOrder_appendStep {u : Nat} {o : RunOp} (h : InOrder d) : InOrder (appendStep d c u o) :=
  .ite (inOrder_failRun h) (.ite (.ite (inOrder_appendDone (inOrder_rcount h)) (inOrder_setRun (inOrder_rcount h)))
    (.ite (.ite (inOrder_failRun h) (inOrder_setRun (inOrder_rcount h))) (.ite (inOrder_failRun (inOrder_writeToken h))
      (have h1 := inOrder_kvEligible (.when (inOrder_writeToken h) inOrder_rcount)
       .ite (inOrder_appendDone h1) (inOrder_setRun h1)))))

theorem inv_execKvTokenWrite {u : Nat} (h : Inv s) : OnNext Inv (execKvTokenWrite c u s) :=
  inOrder_runCmd (fun _ h1 => inOrder_orNot (.map fun _ => inOrder_appendStep h1)) h

theorem inv_execKeyPresenceWaitEnd {u : Nat} (h : Inv s) : OnNext Inv (execKeyPresenceWaitEnd c u s) := by
  refine inOrder_runCmd (fun _ h1 => inOrder_orNot ?_) h
  split
  · split
    · exact .some (inOrder_rampGo (inOrder_setRun h1))
    · exact .none
  · exact .none

theorem inv_execKeyWaitExpiry {u : Nat} (h : Inv s) : OnNext Inv (execKeyWaitExpiry c u s) := by
  refine inOrder_runCmd (fun _ h1 => inOrder_orNot ?_) h
  split
  · split
    · split
      · exact .some (inOrder_failRun h1)
      · exact .none
    · exact .none
  · exact .none

theorem inv_execAttnChunkFetchDone {u : Nat} (h : Inv s) : OnNext Inv (execAttnChunkFetchDone c u s) := by
  refine inOrder_runCmd (fun _ h1 => inOrder_orNot ?_) h
  split
  · split
    · refine .some ?_
      split
      · rename_i e2
        exact inOrder_failRun (.of_fst e2 (inOrder_fetchChunk h1))
      · rename_i e2
        exact inOrder_rampGo (inOrder_setRun (.of_fst e2 (inOrder_fetchChunk h1)))
    · exact .none
  · exact .none

theorem inOrder_softmaxTake {u : Nat} {o : RunOp} (h : InOrder d) : InOrder (softmaxTake d c u o) := by
  dsimp only [softmaxTake]
  split
  · exact inOrder_accBad (inOrder_readBanks (inOrder_fillFree h))
  · exact inOrder_rampGo (inOrder_setRun (inOrder_modCube (inOrder_readBanks (inOrder_fillFree h))))

theorem inv_execAttnChunkSoftmax {u : Nat} (h : Inv s) : OnNext Inv (execAttnChunkSoftmax c u s) := by
  refine inOrder_runCmd (fun _ h1 => inOrder_orNot ?_) h
  split
  · split
    · exact .some (inOrder_softmaxTake h1)
    · exact .none
  · exact .none

theorem inOrder_flushFault {idx p : Nat} {f : FaultCode} (h : InOrder d) : InOrder (flushFault d idx p f) := by
  unfold flushFault
  exact inOrder_eachAttn (.upd (inOrder_logErr (inOrder_kvSet h))) fun _ _ _ _ h1 => .ite (inOrder_failRun h1) h1

theorem inOrder_zeroTail {idx p : Nat} (h : InOrder d) : InOrder (zeroTail d idx p).1 := by
  dsimp only [zeroTail]
  split
  · exact h
  · refine .foldl_fst (fun _ _ h1 => ?_) h
    split
    · exact h1
    · split
      · rename_i e2
        exact .of_fst e2 (inOrder_devWriteAll h1)
      · rename_i e2
        exact .of_fst e2 (inOrder_devWriteAll h1)

theorem inOrder_flushStart {die : Nat} (h : InOrder d) : OnSome InOrder (flushStart d die) := by
  dsimp only [flushStart]
  split
  · split
    · exact .none
    · split
      · rename_i e3
        exact .some (inOrder_flushFault (.of_fst e3 (inOrder_kvEntry (.upd h))))
      · rename_i e3
        split
        · rename_i e4
          split
          · rename_i e5
            exact .some (inOrder_flushFault (.of_fst e5 (inOrder_devReadAll (.of_fst e4 (inOrder_zeroTail (.of_fst e3 (inOrder_kvEntry (.upd h))))))))
          · rename_i e5
            exact .some (.upd (.when (.of_fst e5 (inOrder_devReadAll (.of_fst e4 (inOrder_zeroTail (.of_fst e3 (inOrder_kvEntry (.upd h)))))))
              fun h1 => .upd h1))
        · rename_i e42
          exact .some (inOrder_flushFault (.of_fst e42 (inOrder_zeroTail (.of_fst e3 (inOrder_kvEntry (.upd h))))))
  · exact .none

theorem inv_execKvFlushStart {die : Nat} (h : Inv s) : OnNext Inv (execKvFlushStart die s) := by
  refine inOrder_runCmd (fun _ h1 => ?_) h
  split
  · exact .refused
  · exact inOrder_orNot (inOrder_flushStart h1)

theorem inOrder_flushDone {die f : Nat} (h : InOrder d) : OnSome InOrder (flushDone d die f) := by
  dsimp only [flushDone]
  split
  · exact .none
  · split
    · exact .none
    · split
      · rename_i e2
        exact .some (inOrder_flushFault (.of_fst e2 (inOrder_devWriteAll (.upd h))))
      · rename_i e2
        exact .some (inOrder_kvEligible (.when (.when (inOrder_modKv (inOrder_kvSet (.of_fst e2 (inOrder_devWriteAll (.upd h))))) fun h1 => .upd h1)
          inOrder_blockArrive))

theorem inv_execKvFlushDone {die slot : Nat} (h : Inv s) : OnNext Inv (execKvFlushDone die slot s) :=
  inOrder_runCmd (fun _ h1 => inOrder_orNot (inOrder_flushDone h1)) h

theorem inOrder_exportCopy {die port : Nat} (h : InOrder d) : OnSome InOrder (exportCopy d die port) := by
  dsimp only [exportCopy]
  split
  · exact .none
  · split
    · exact .none
    · split
      · rename_i e2
        exact .some (inOrder_flushFault (inOrder_modKv (.of_fst e2 (inOrder_devReadAll (.upd h)))))
      · rename_i e2
        exact .some (inOrder_modKv (.upd (.of_fst e2 (inOrder_devReadAll (.upd h)))))

theorem inv_execExportQueueCopy {die port : Nat} (h : Inv s) : OnNext Inv (execExportQueueCopy die port s) := by
  refine inOrder_runCmd (fun _ h1 => ?_) h
  split
  · exact .refused
  · exact inOrder_orNot (inOrder_exportCopy h1)

/-! ### Hbm -/

theorem inOrder_chanCount {n : RegName} {die chan hi lo k : Nat} (h : InOrder d) : InOrder (chanCount d n die chan hi lo k) :=
  inOrder_rcount h
theorem inOrder_chanSet {n : RegName} {die chan hi lo v : Nat} (h : InOrder d) : InOrder (chanSet d n die chan hi lo v) :=
  inOrder_rset h
theorem inOrder_chanFail {die chan reason : Nat} (h : InOrder d) : InOrder (chanFail d die chan reason) :=
  .ite h (inOrder_logErr (inOrder_chanSet h))

theorem inOrder_laneCorrect {die chan : Nat} {lane : Nat} (h : InOrder d) : InOrder (laneCorrect die chan d lane) :=
  .ite h (.ite (.upd h) (.ite (inOrder_chanFail (.upd h)) (inOrder_logErr
    (inOrder_chanSet (.ite (inOrder_chanSet (.upd h)) (inOrder_chanSet (.upd h)))))))

theorem inOrder_chanUncorrected {die chan caddr : Nat} (h : InOrder d) : InOrder (chanUncorrected d die chan caddr) :=
  .when (inOrder_poisonHbm (.upd (inOrder_chanCount h))) inOrder_chanFail
theorem inOrder_hbmDecode {die chan caddr : Nat} {lanes : List Nat} (h : InOrder d) : InOrder (hbmDecode d die chan caddr lanes) :=
  .ite h (.ite h (.ite (.foldl (fun _ _ h1 => inOrder_laneCorrect h1) (inOrder_chanCount h)) (inOrder_chanUncorrected h)))
theorem inv_execHbmRead {die chan caddr : Nat} {lanes : List Nat} (h : Inv s) : OnNext Inv (execHbmRead die chan caddr lanes s) :=
  inOrder_runCmd (fun _ h1 => inOrder_whenOn (inOrder_hbmDecode h1)) h
theorem inv_execHbmScrub {die chan caddr : Nat} {lanes : List Nat} (h : Inv s) : OnNext Inv (execHbmScrub die chan caddr lanes s) :=
  inOrder_runCmd (fun _ h1 => inOrder_whenOn (inOrder_hbmDecode h1)) h
theorem inv_execHbmErrWindowEnd {die : Nat} (h : Inv s) : OnNext Inv (execHbmErrWindowEnd die s) :=
  inOrder_runCmd (fun _ h1 => inOrder_whenOn (.upd h1)) h
theorem inv_execHbmRefresh {die stack : Nat} (h : Inv s) : OnNext Inv (execHbmRefresh die stack s) :=
  inOrder_runCmd (fun _ h1 => .next h1) h
theorem inOrder_stackReading {die stack : Nat} {temp limit : BitVec 8} (h : InOrder d) : InOrder (stackReading d die stack temp limit) :=
  .whenNot (.whenNot (inOrder_rset (inOrder_rset (inOrder_rset h))) inOrder_rcount) inOrder_raiseEvent
theorem inOrder_clearRetire {die : Nat} (h : InOrder d) : InOrder (clearRetire d die) :=
  h.setRegs (h.regs_rising.filter _)
theorem inOrder_remapDie {die : Nat} (h : InOrder d) : InOrder (remapDie d die) :=
  inOrder_clearRetire (inOrder_dropLines h)

theorem inOrder_hbmMapWrite {die : Nat} {wrMode wrStripe : Bool} {v : BitVec 32} (h : InOrder d) : InOrder (hbmMapWrite d die wrMode wrStripe v) :=
  .ite (inOrder_logIgnoredAt h) (.when (.when (.foldl (fun _ _ h1 => inOrder_remapDie h1) (.ite (inOrder_logIgnoredAt h) h)) inOrder_rset) fun h3 =>
    .foldl (fun _ _ h1 => inOrder_rset h1) h3)

theorem inv_execHbmMapWrite {die : Nat} {v : BitVec 32} (h : Inv s) : OnNext Inv (execHbmMapWrite die v s) :=
  inOrder_runCmd (fun _ h1 => .next (inOrder_hbmMapWrite h1)) h
theorem inOrder_sliceCfgWrite {die : Nat} {v : BitVec 32} (h : InOrder d) : InOrder (sliceCfgWrite d die v) :=
  .ite (inOrder_logIgnoredAt h) (inOrder_memClear (inOrder_dropLines (inOrder_rset (inOrder_rset h))))
theorem inv_execResSliceCfgWrite {die : Nat} {v : BitVec 32} (h : Inv s) : OnNext Inv (execResSliceCfgWrite die v s) :=
  inOrder_runCmd (fun _ h1 => .next (inOrder_sliceCfgWrite h1)) h
theorem inOrder_releaseAll {die : Nat} (h : InOrder d) : InOrder (releaseAll d die) :=
  inOrder_rset (inOrder_releaseLines h)
theorem inv_execReleaseAll {die : Nat} (h : Inv s) : OnNext Inv (execReleaseAll die s) :=
  inOrder_runCmd (fun _ h1 => .next (inOrder_releaseAll h1)) h
theorem inv_execReleaseAllDone {die : Nat} (h : Inv s) : OnNext Inv (execReleaseAllDone die s) :=
  inOrder_runOk (fun _ h1 => inOrder_whenOn (inOrder_rset h1)) h
theorem inOrder_retireWrite {die i : Nat} {v : BitVec 64} (h : InOrder d) : InOrder (retireWrite d die i v) :=
  .ite (inOrder_logIgnoredAt h) (inOrder_regSet h)
theorem inv_execHbmRetireWrite {die i : Nat} {v : BitVec 64} (h : Inv s) : OnNext Inv (execHbmRetireWrite die i v s) :=
  inOrder_runCmd (fun _ h1 => .next (inOrder_retireWrite h1)) h

/-! ### Control -/

theorem inv_execCtlNop {a : Agent} (h : Inv s) : OnNext Inv (execCtlNop a s) :=
  inOrder_runCmd (fun _ h1 => inOrder_issueStep (fun _ h2 => h2) h1) h
theorem inv_execCtlHalt (h : Inv s) : OnNext Inv (execCtlHalt c s) :=
  inOrder_runCmd (fun _ h1 => inOrder_issue (fun _ _ h2 => .next (inOrder_modSeq h2)) h1) h

theorem inOrder_crewEnd {serial : Nat} (h : InOrder d) : InOrder (crewEnd d c serial) := by
  dsimp only [crewEnd]
  split
  · exact h
  · exact .ite (inOrder_launchDone (inOrder_modWork h)) (inOrder_modWork h)

theorem inv_execCtlExit {slot : Nat} (h : Inv s) : OnNext Inv (execCtlExit c slot s) := by
  refine inOrder_runCmd (fun _ h1 => inOrder_issue (fun _ _ h2 => ?_) h1) h
  split
  · exact .refused
  · exact .next (inOrder_crewEnd (inOrder_freeSlot h2))

theorem inv_execCtlFence (h : Inv s) : OnNext Inv (execCtlFence c s) :=
  inOrder_runCmd (fun _ h1 => inOrder_issueStep (fun _ h2 => h2) h1) h
theorem inv_execCtlBr {a : Agent} {o : BsOp} (h : Inv s) : OnNext Inv (execCtlBr a o s) :=
  inOrder_runCmd (fun _ h1 => inOrder_issue (fun _ _ h2 => .next (inOrder_branch h2)) h1) h
theorem inOrder_branchIf {a : Agent} {off : W32} {w : W64} {cond : Bool} (h : InOrder d) : OnNext InOrder (branchIf d a off w cond) :=
  .next (.ite (inOrder_branch h) (inOrder_stepPc h))
theorem inv_execCtlBrz {o : BsOp} (h : Inv s) : OnNext Inv (execCtlBrz c o s) :=
  inOrder_runCmd (fun _ h1 => inOrder_issue (fun _ _ h2 => inOrder_branchIf h2) h1) h
theorem inv_execCtlBrnz {o : BsOp} (h : Inv s) : OnNext Inv (execCtlBrnz c o s) :=
  inOrder_runCmd (fun _ h1 => inOrder_issue (fun _ _ h2 => inOrder_branchIf h2) h1) h
theorem inv_execCtlBrp {slot : Nat} {o : BpOp} (h : Inv s) : OnNext Inv (execCtlBrp c slot o s) :=
  inOrder_runCmd (fun _ h1 => inOrder_issue (fun _ _ h2 => inOrder_branchIf h2) h1) h
theorem inv_execCtlBrnp {slot : Nat} {o : BpOp} (h : Inv s) : OnNext Inv (execCtlBrnp c slot o s) :=
  inOrder_runCmd (fun _ h1 => inOrder_issue (fun _ _ h2 => inOrder_branchIf h2) h1) h
theorem inv_execCtlCall {o : BsOp} (h : Inv s) : OnNext Inv (execCtlCall c o s) :=
  inOrder_runCmd (fun _ h1 => inOrder_issue (fun _ _ h2 => .next (.ite (inOrder_seqFault h2) (.ite (inOrder_modSeq h2) (inOrder_seqFault h2)))) h1) h

theorem inv_execCtlRet (h : Inv s) : OnNext Inv (execCtlRet c s) := by
  refine inOrder_runCmd (fun _ h1 => inOrder_issue (fun _ _ h2 => .next ?_) h1) h
  split
  · exact inOrder_seqFault h2
  · exact .ite (inOrder_modSeq h2) (inOrder_seqFault h2)

theorem inv_execCtlLaunch {o : LnOp} (h : Inv s) : OnNext Inv (execCtlLaunch c o s) :=
  inOrder_runCmd (fun _ h1 => inOrder_issue (fun _ _ h2 => .next
    (.ite (inOrder_seqFault h2) (.ite (inOrder_seqFault h2) (.ite (inOrder_seqFault h2)
      (.ite h2 (inOrder_stepPc (inOrder_partIssue (inOrder_nextSerial (inOrder_modWork h2))))))))) h1) h

theorem inv_execLaunchDequeue (h : Inv s) : OnNext Inv (execLaunchDequeue c s) := by
  refine inOrder_runCmd (fun _ h1 => ?_) h
  dsimp only
  split
  · exact .refused
  · split
    · exact .refused
    · split
      · exact .next (inOrder_launchDone (inOrder_modWork h1))
      · exact .next (inOrder_modWork (inOrder_modWork h1))

theorem inv_execCtlMpush {slot : Nat} {o : BpOp} (h : Inv s) : OnNext Inv (execCtlMpush c slot o s) := by
  refine inOrder_runCmd (fun _ h1 => inOrder_issue (fun _ _ h2 => ?_) h1) h
  split
  · exact .refused
  · exact .next (.ite (inOrder_crewFault h2) (inOrder_setCrew h2))

theorem inv_execCtlMelse {slot : Nat} (h : Inv s) : OnNext Inv (execCtlMelse c slot s) := by
  refine inOrder_runCmd (fun _ h1 => inOrder_issue (fun _ _ h2 => ?_) h1) h
  split
  · exact .refused
  · refine .next ?_
    split
    · exact inOrder_crewFault h2
    · exact inOrder_setCrew h2

theorem inv_execCtlMpop {slot : Nat} (h : Inv s) : OnNext Inv (execCtlMpop c slot s) := by
  refine inOrder_runCmd (fun _ h1 => inOrder_issue (fun _ _ h2 => ?_) h1) h
  split
  · exact .refused
  · refine .next ?_
    split
    · exact inOrder_crewFault h2
    · exact inOrder_setCrew h2

theorem inv_execCtlRdspec {a : Agent} {o : SpOp} (h : Inv s) : OnNext Inv (execCtlRdspec a o s) := by
  refine inOrder_runCmd (fun _ h1 => inOrder_issueStep (fun _ h2 => ?_) h1) h
  split
  · exact inOrder_setSreg h2
  · exact inOrder_modCrew h2

theorem inv_execIllegalInstruction {a : Agent} {w : W64} (h : Inv s) : OnNext Inv (execIllegalInstruction a w s) := by
  refine inOrder_runOk (fun _ h1 => ?_) h
  split
  · exact .refused
  · split
    · exact .refused
    · exact .next (inOrder_agentFault h1)

theorem inv_execFetchRange {a : Agent} (h : Inv s) : OnNext Inv (execFetchRange a s) := by
  refine inOrder_runOk (fun _ h1 => ?_) h
  split
  · exact .next (inOrder_agentFault h1)
  · exact .refused

/-! ### Hooks -/

theorem inOrder_fetchLedger {base : Addr} {parts off : Nat} {rows : List (Nat × Nat)}
    (h : InOrder d) : InOrder (fetchLedger d c base parts off rows).1 := by
  refine .foldl_fst (fun _ _ h1 => ?_) h
  split
  · exact h1
  · split
    · rename_i e1
      exact .of_fst e1 (inOrder_devReadAll h1)
    · rename_i e1
      exact inOrder_storeWrite (.of_fst e1 (inOrder_devReadAll h1))

theorem inOrder_proNext {u : Nat} {o : RunOp} (h : InOrder d) : InOrder (proNext d c u o) :=
  .ite (inOrder_setRun h) (.ite (inOrder_setRun (inOrder_hookQueue h)) (inOrder_stepsBegin h))

theorem inOrder_proCopy {o : RunOp} (h : InOrder d) : InOrder (proCopy d c o).1 := by
  dsimp only [proCopy]
  split
  · exact h
  · refine .foldl_fst (fun _ _ h1 => ?_) h
    split
    · exact h1
    · split
      · exact h1
      · exact inOrder_putCodes h1

theorem inv_execPrologueCopyDone {u : Nat} (h : Inv s) : OnNext Inv (execPrologueCopyDone c u s) := by
  refine inOrder_runCmd (fun _ h1 => inOrder_orNot ?_) h
  split
  · exact .none
  · split
    · exact .none
    · split
      · exact .none
      · exact .some (inOrder_failRun h1)
      · exact .some (.ite (inOrder_failRun (inOrder_proCopy h1)) (inOrder_proNext (inOrder_proCopy h1)))

theorem inv_execLedgerFetchDone {u : Nat} (h : Inv s) : OnNext Inv (execLedgerFetchDone c u s) := by
  refine inOrder_runCmd (fun _ h1 => inOrder_orNot ?_) h
  split
  · exact .none
  · split
    · exact .none
    · split
      · exact .none
      · rename_i e2
        exact .some (.ite (inOrder_failRun (inOrder_fetchLedger (inOrder_takeWake h1 _ e2)))
          (inOrder_setRun (inOrder_fetchLedger (inOrder_takeWake h1 _ e2))))
      · rename_i e22
        exact .some (inOrder_failRun (inOrder_takeWake h1 _ e22))

theorem inOrder_correctRow {o : RunOp} {i : Nat} (h : InOrder d) : InOrder (correctRow d c o i) :=
  inOrder_putCodes (inOrder_convRow h)

theorem inv_execPrologueCorrection {u : Nat} (h : Inv s) : OnNext Inv (execPrologueCorrection c u s) := by
  refine inOrder_runCmd (fun _ h1 => inOrder_orNot ?_) h
  split
  · exact .none
  · split
    · exact .none
    · split
      · exact .some (inOrder_failRun h1)
      · exact .some (inOrder_proNext (.foldl (fun _ _ h2 => inOrder_correctRow h2) h1))

theorem inv_execHookProgramLaunch {u : Nat} (h : Inv s) : OnNext Inv (execHookProgramLaunch c u s) := by
  refine inOrder_runCmd (fun _ h1 => inOrder_orNot ?_) h
  split
  · exact .none
  · dsimp only
    split
    · split
      · split
        · split
          · exact .some (inOrder_modWork (inOrder_rcount (inOrder_setPost (inOrder_hookQueue h1))))
          · split
            · exact .some (inOrder_setPost (inOrder_hookQueue h1))
            · exact .none
        · split
          · exact .some (inOrder_modWork (inOrder_rcount (inOrder_setRun (inOrder_hookQueue h1))))
          · split
            · exact .some (inOrder_setRun (inOrder_hookQueue h1))
            · exact .none
      · split
        · exact .some (inOrder_modWork (inOrder_rcount h1))
        · split
          · exact .some h1
          · exact .none
    · exact .none

theorem inOrder_convertRow {o : RunOp} {i : Nat} (h : InOrder d) : InOrder (convertRow d c o i).1 :=
  .whenNot (.whenNot (.ite h (inOrder_putWords h)) inOrder_putWords) inOrder_writeRow
theorem inOrder_convertRows {o : RunOp} (h : InOrder d) : InOrder (convertRows d c o).1 :=
  .whenNot (.foldl_fst (fun _ _ h1 => inOrder_convertRow h1) h) fun h2 => .foldl (fun _ _ h1 => inOrder_putWords h1) h2
theorem inOrder_routeRows {o : RunOp} (h : InOrder d) : InOrder (routeRows d c o) :=
  .foldl (fun _ _ h1 => inOrder_writeRow h1) h
theorem inOrder_relayDone {o : RunOp} (h : InOrder d) : InOrder (relayDone d c o) :=
  .ite (inOrder_rampAll (inOrder_modWork h)) h
theorem inOrder_leaveConv {u serial : Nat} (h : InOrder d) : InOrder (leaveConv d c u serial) :=
  inOrder_modWork h
theorem inOrder_failPost {u : Nat} {o : RunOp} {f : FaultCode} (h : InOrder d) : InOrder (failPost d c u o f) :=
  inOrder_promote (inOrder_endPost (inOrder_faultArrivals (inOrder_leaveConv h)))

theorem inOrder_convertOp {u : Nat} {o : RunOp} (h : InOrder d) : OnSome InOrder (convertOp d c u o) := by
  unfold convertOp
  extract_lets serve
  have hs {e : Dev} (he : InOrder e) : InOrder (serve e) := by
    have rows := inOrder_convertRows (c := c) (o := o) (inOrder_leaveConv (c := c) (u := u) (serial := o.op.serial) he)
    exact .ite (inOrder_failPost he) (.ite (inOrder_promote (inOrder_endPost (inOrder_relayDone (inOrder_routeRows (inOrder_leaveConv he)))))
      (.ite (inOrder_promote (inOrder_endPost (.whenNot rows inOrder_relayDone))) (inOrder_setPost (.whenNot rows inOrder_relayDone))))
  split
  · exact .some (hs h)
  · split
    · exact .none
    · rename_i e
      exact .some (hs (inOrder_takeWake h _ e))
    · rename_i e
      exact .some (inOrder_failPost (inOrder_takeWake h _ e))
  · exact .none

theorem inOrder_publish {u : Nat} {o : RunOp} (h : InOrder d) : InOrder (publish d c u o) := by
  refine .ite (inOrder_failPost (.foldl_fst (fun _ _ h1 => ?_) h))
    (.ite (inOrder_unitWait (inOrder_setPost (inOrder_rcount (inOrder_cubeArrive (.foldl_fst (fun _ _ h1 => ?_) h)))))
      (inOrder_promote (inOrder_endPost (inOrder_cubeArrive (.foldl_fst (fun _ _ h1 => ?_) h)))))
  · split
    · exact h1
    · split
      · rename_i e1
        exact .of_fst e1 (inOrder_putLedger h1)
      · rename_i e1
        exact .of_fst e1 (inOrder_putLedger h1)
  · split
    · exact h1
    · split
      · rename_i e1
        exact .of_fst e1 (inOrder_putLedger h1)
      · rename_i e1
        exact .of_fst e1 (inOrder_putLedger h1)
  · split
    · exact h1
    · split
      · rename_i e1
        exact .of_fst e1 (inOrder_putLedger h1)
      · rename_i e1
        exact .of_fst e1 (inOrder_putLedger h1)

theorem inv_execLedgerPublish {u : Nat} (h : Inv s) : OnNext Inv (execLedgerPublish c u s) :=
  inOrder_runCmd (fun _ h1 => inOrder_orNot (.map fun _ => inOrder_publish h1)) h

theorem inv_execStakeRouteResume {u : Nat} (h : Inv s) : OnNext Inv (execStakeRouteResume c u s) := by
  refine inOrder_runCmd (fun _ h1 => inOrder_orNot ?_) h
  dsimp only
  split
  · exact .none
  · split
    · exact .none
    · split
      · exact .none
      · rename_i e2
        exact .some (.ite (inOrder_failPost (inOrder_fetchLedger (inOrder_takeWake h1 _ e2)))
          (inOrder_promote (inOrder_modWork (inOrder_setPost (inOrder_fetchLedger (inOrder_takeWake h1 _ e2))))))
      · rename_i e22
        exact .some (inOrder_failPost (inOrder_takeWake h1 _ e22))

theorem inOrder_ksplitRow {o : RunOp} {p i : Nat} (h : InOrder d) : InOrder (ksplitRow d o p i).1 := by
  dsimp only [ksplitRow]
  split
  · rename_i e
    exact .of_fst e (inOrder_devReadAll h)
  · rename_i e
    exact .of_fst e (inOrder_devReadAll h)

theorem inv_execKsplitCombine {u : Nat} (h : Inv s) : OnNext Inv (execKsplitCombine c u s) := by
  refine inOrder_runCmd (fun _ h1 => inOrder_orNot ?_) h
  split
  · exact .none
  · split
    · exact .none
    · split
      · exact .none
      · rename_i e2
        refine .some ?_
        split
        · exact inOrder_accBad (inOrder_readBanks (inOrder_takeWake h1 _ e2))
        · refine .ite (inOrder_failRun (.foldl_fst (fun _ _ h2 => ?_) (inOrder_readBanks (inOrder_takeWake h1 _ e2))))
            (inOrder_setRun (.foldl_fst (fun _ _ h2 => ?_) (inOrder_readBanks (inOrder_takeWake h1 _ e2))))
          · split
            · exact h2
            · dsimp only
              split
              · rename_i e5
                refine .of_fst e5 (.foldl_fst (fun _ _ h3 => ?_) h2)
                split
                · exact h3
                · split
                  · rename_i e6
                    exact .of_fst e6 (inOrder_ksplitRow h3)
                  · rename_i e6
                    exact .of_fst e6 (inOrder_ksplitRow h3)
              · rename_i e5
                refine inOrder_modCube (.of_fst e5 (.foldl_fst (fun _ _ h3 => ?_) h2))
                split
                · exact h3
                · split
                  · rename_i e6
                    exact .of_fst e6 (inOrder_ksplitRow h3)
                  · rename_i e6
                    exact .of_fst e6 (inOrder_ksplitRow h3)
          · split
            · exact h2
            · dsimp only
              split
              · rename_i e5
                refine .of_fst e5 (.foldl_fst (fun _ _ h3 => ?_) h2)
                split
                · exact h3
                · split
                  · rename_i e6
                    exact .of_fst e6 (inOrder_ksplitRow h3)
                  · rename_i e6
                    exact .of_fst e6 (inOrder_ksplitRow h3)
              · rename_i e5
                refine inOrder_modCube (.of_fst e5 (.foldl_fst (fun _ _ h3 => ?_) h2))
                split
                · exact h3
                · split
                  · rename_i e6
                    exact .of_fst e6 (inOrder_ksplitRow h3)
                  · rename_i e6
                    exact .of_fst e6 (inOrder_ksplitRow h3)
      · rename_i e22
        exact .some (inOrder_failRun (inOrder_takeWake h1 _ e22))

/-! ### Quant -/

theorem inOrder_pushQuant {op : Op} (h : InOrder d) : InOrder (pushQuant c d op) := inOrder_modWork h
theorem inv_execQntPack {o : DOp} (h : Inv s) : OnNext Inv (execQntPack c o s) :=
  inOrder_runCmd (fun _ h1 => inOrder_dIssue (fun _ _ h2 => inOrder_pushQuant h2) h1) h
theorem inv_execQntUnpack {o : DOp} (h : Inv s) : OnNext Inv (execQntUnpack c o s) :=
  inOrder_runCmd (fun _ h1 => inOrder_dIssue (fun _ _ h2 => inOrder_pushQuant h2) h1) h
theorem inv_execQntSload {o : DOp} (h : Inv s) : OnNext Inv (execQntSload c o s) :=
  inOrder_runCmd (fun _ h1 => inOrder_dIssue (fun _ _ h2 => inOrder_modWork h2) h1) h
theorem inv_execSfnTload {o : DOp} (h : Inv s) : OnNext Inv (execSfnTload c o s) :=
  inOrder_runCmd (fun _ h1 => inOrder_dIssue (fun _ _ h2 => inOrder_modWork h2) h1) h
theorem inOrder_endQuant {o : RunOp} {f : FaultCode} {empty : Bool} (h : InOrder d) : InOrder (endQuant d c o f empty) :=
  inOrder_opDone (inOrder_modWork (inOrder_leaveConv (inOrder_opCleanup h)))
theorem inOrder_setQuant {o : RunOp} (h : InOrder d) : InOrder (setQuant d c o) := inOrder_modWork h

theorem inOrder_quantGo {o : RunOp} (h : InOrder d) : InOrder (quantGo d c o) := by
  dsimp only [quantGo]
  split
  · exact inOrder_endQuant h
  · refine .ite (inOrder_endQuant h) ?_
    split
    · rename_i e1
      exact inOrder_endQuant (.of_fst e1 (inOrder_claimTile h))
    · rename_i e1
      exact inOrder_endQuant (.of_fst e1 (inOrder_claimTile h))
    · rename_i e1
      exact .ite (inOrder_endQuant (.of_fst e1 (inOrder_claimTile h))) (inOrder_modWork (inOrder_setQuant (.of_fst e1 (inOrder_claimTile h))))

theorem inOrder_quantTake (h : InOrder d) : OnSome InOrder (quantTake d c) := by
  dsimp only [quantTake]
  split
  · exact .none
  · split
    · exact .none
    · split
      · exact .some (inOrder_endQuant h)
      · split
        · exact .some (inOrder_endQuant h)
        · split
          · exact .some (inOrder_quantGo (inOrder_setQuant h))
          · exact .some (inOrder_unitWait (inOrder_setQuant h))

theorem inOrder_quantWaitEnd (h : InOrder d) : OnSome InOrder (quantWaitEnd d c) := by
  dsimp only [quantWaitEnd]
  split
  · exact .none
  · split
    · exact .none
    · split
      · exact .none
      · rename_i e2
        exact .some (inOrder_quantGo (inOrder_takeWake h _ e2))
      · rename_i e22
        exact .some (inOrder_endQuant (inOrder_takeWake h _ e22))

theorem inOrder_rowRnds {o : RunOp} {rnd n : Nat} (h : InOrder d) : InOrder (rowRnds d c o rnd n).2 :=
  .foldl_snd (fun _ _ h1 => inOrder_rndOf (fun _ h2 => inOrder_drawConv h2) h1) h

theorem inOrder_packRow {o : RunOp} {r : Nat} (h : InOrder d) : InOrder (packRow d c o r) :=
  .when (inOrder_countOut (.when (inOrder_storeWrite (inOrder_rowRnds h)) inOrder_storeWrite)) fun h2 => inOrder_modPart
    (.foldl (fun _ _ h1 => inOrder_storeWrite h1) (inOrder_storeWrite h2))

theorem inOrder_unpackRow {o : RunOp} {r : Nat} (h : InOrder d) : OnOk InOrder (unpackRow d c o r) := by
  unfold unpackRow
  extract_lets
  split
  · exact .error
  · refine .ok (inOrder_putCodes (.foldl_snd (fun _ _ h1 => ?_) h))
    dsimp only
    split
    · dsimp only
      exact inOrder_convOne h1
    · exact inOrder_countElem (inOrder_convOne h1)

theorem inOrder_quantRun {o : RunOp} (h : InOrder d) : InOrder (quantRun d c o) := by
  refine inOrder_endQuant (.foldl_fst (fun _ _ h1 => ?_) h)
  split
  · exact h1
  · split
    · exact h1
    · split
      · exact inOrder_packRow h1
      · split
        · exact h1
        · rename_i e3
          exact inOrder_unpackRow h1 _ e3

theorem inv_execConverterPass (h : Inv s) : OnNext Inv (execConverterPass c s) := by
  refine inOrder_runCmd (fun _ h1 => inOrder_orNot ?_) h
  split
  · exact .none
  · split
    · exact .none
    · split
      · exact .none
      · split
        · exact inOrder_convertOp h1
        · exact .some (inOrder_quantRun h1)

theorem inOrder_endSload {op : Op} {f : FaultCode} (h : InOrder d) : InOrder (endSload d c op f) :=
  inOrder_opDone (inOrder_modWork h)

theorem inOrder_sloadTake (h : InOrder d) : OnSome InOrder (sloadTake d c) := by
  dsimp only [sloadTake]
  split
  · exact .none
  · split
    · exact .none
    · split
      · exact .some (inOrder_endSload h)
      · split
        · exact .some (inOrder_endSload h)
        · split
          · exact .some (inOrder_rcount (inOrder_endSload h))
          · exact .some (inOrder_modWork h)

theorem inv_execScaleLoadFlip (h : Inv s) : OnNext Inv (execScaleLoadFlip c s) := by
  refine inOrder_runCmd (fun _ h1 => inOrder_orNot ?_) h
  dsimp only
  split
  · exact .none
  · split
    · exact .none
    · split
      · exact .some (inOrder_endSload h1)
      · exact .some (inOrder_modWork h1)

theorem inv_execScaleLoadDrainEnd (h : Inv s) : OnNext Inv (execScaleLoadDrainEnd c s) := by
  refine inOrder_runCmd (fun _ h1 => inOrder_orNot ?_) h
  dsimp only
  split
  · exact .none
  · split
    · exact .none
    · exact .some (inOrder_rcount (inOrder_endSload h1))

theorem inOrder_endTload {op : Op} {f : FaultCode} (h : InOrder d) : InOrder (endTload d c op f) :=
  inOrder_opDone (inOrder_modWork h)

theorem inOrder_tloadTake (h : InOrder d) : OnSome InOrder (tloadTake d c) := by
  dsimp only [tloadTake]
  split
  · exact .none
  · split
    · exact .none
    · split
      · exact .some (inOrder_endTload h)
      · split
        · exact .some (inOrder_endTload h)
        · exact .some (inOrder_modWork h)

theorem inv_execTableLoadFlip (h : Inv s) : OnNext Inv (execTableLoadFlip c s) := by
  refine inOrder_runCmd (fun _ h1 => inOrder_orNot ?_) h
  dsimp only
  split
  · exact .none
  · split
    · exact .none
    · split
      · exact .some (inOrder_endTload h1)
      · split
        · exact .some (inOrder_endTload h1)
        · exact .some (inOrder_modWork h1)

theorem inv_execTableLoadDrainEnd (h : Inv s) : OnNext Inv (execTableLoadDrainEnd c s) := by
  refine inOrder_runCmd (fun _ h1 => inOrder_orNot ?_) h
  dsimp only
  split
  · exact .none
  · split
    · exact .none
    · exact .some (inOrder_rcount (inOrder_endTload h1))

/-! ### Schedule -/

theorem inOrder_mapCores {f : Core → Core} (h : InOrder d) : InOrder (mapCores d f) :=
  h.setCores ((h.cores_rising.mapVal _).filter _)
theorem inOrder_takeTag {ch part : Nat} (h : InOrder d) : InOrder (takeTag d c ch part) :=
  inOrder_modCore (inOrder_mapCores h)

theorem inOrder_startPart {x : Cmd} {ch part : Nat} (h : InOrder d) : InOrder (startPart d c x ch part) := by
  dsimp only [startPart]
  split
  · exact h
  · exact inOrder_takeTag (inOrder_modCore (.whenNot (inOrder_rcount (inOrder_setCmd h)) inOrder_countSeeding))

theorem inOrder_putPart {x : WaitPart} (h : InOrder d) : InOrder (putPart d x c) := by
  dsimp only [putPart]
  split
  · exact inOrder_modCore h
  · split
    · exact inOrder_startPart h
    · exact h

theorem inOrder_placeParts {p : Nat} {l : List WaitPart} {room : Nat} {left : Option WaitPart} (h : InOrder d) :
    InOrder (placeParts p l d room left).1 := by
  induction l generalizing d room left with
  | nil => exact h
  | cons x l ih =>
    dsimp only [placeParts]
    split
    · exact h
    · split
      · exact ih (inOrder_putPart h)
      · exact ih (inOrder_partNever h)
      · exact ih h

theorem inOrder_requestPreempt {p : Nat} {x : WaitPart} (h : InOrder d) : InOrder (requestPreempt d p x) := by
  dsimp only [requestPreempt]
  split
  · exact .ite h (inOrder_modCore h)
  · exact h

theorem inOrder_dispatchParcel {r : Dev × Nat} {p : Nat} (h : InOrder r.1) : InOrder (dispatchParcel r p).1 := by
  dsimp only [dispatchParcel]
  split
  · exact .ite (inOrder_placeParts h) (inOrder_requestPreempt (inOrder_placeParts h))
  · exact inOrder_placeParts h

theorem inv_execDispatchTick (h : Inv s) : OnNext Inv (execDispatchTick s) := by
  refine inOrder_runCmd (fun _ h1 => ?_) h
  split
  · exact .refused
  · exact .next (.foldl (fun _ _ h2 => inOrder_sendNotice h2) (.foldl_fst (fun _ _ h2 => inOrder_dispatchParcel h2) (.upd h1)))

theorem inv_execCoreStopped (h : Inv s) : OnNext Inv (execCoreStopped c s) :=
  inOrder_runCmd (fun _ h1 => inOrder_whenOn (inOrder_modCore (inOrder_abandonWaits h1))) h

theorem inOrder_lineTake {a : Addr} {r : Except FaultCode (List Byte)} (h : InOrder d) : InOrder (lineTake d a r) := by
  dsimp only [lineTake]
  split
  · exact inOrder_devWrite h
  · split
    · rename_i e1 _
      exact .foldl (fun _ _ h1 => inOrder_setPoison h1) (.of_fst e1 (inOrder_devWrite h))
    · rename_i e2 _
      exact inOrder_setPoison (.of_fst e2 (inOrder_devWrite h))
    · rename_i e1 _ _
      exact .of_fst e1 (inOrder_devWrite h)

theorem inOrder_moveLines {src dst : Addr} {n : Nat} (h : InOrder d) : InOrder (moveLines d src dst n) :=
  .foldl (fun _ _ h1 => inOrder_lineTake (inOrder_devRead h1)) h
theorem inOrder_zeroLines {a : Addr} {n : Nat} (h : InOrder d) : InOrder (zeroLines d a n) :=
  .foldl (fun _ _ h1 => inOrder_lineTake h1) h

theorem inOrder_sectionBytes {l : List (Nat × List Byte)} (h : InOrder d) : InOrder (sectionBytes l d).2 := by
  induction l generalizing d with
  | nil => exact h
  | cons x l ih => exact ih (inOrder_freeBytes h)

theorem inOrder_writeImage {a : Addr} {w : Work} {im : Image} (h : InOrder d) : InOrder (writeImage d c a w im) :=
  inOrder_moveLines (.foldl (fun _ _ h1 => inOrder_lineTake h1) (inOrder_sectionBytes h))

theorem inv_execContextImageWritten (h : Inv s) : OnNext Inv (execContextImageWritten c s) := by
  refine inOrder_runCmd (fun _ h1 => ?_) h
  dsimp only
  split
  · exact .refused
  · split
    · exact .refused
    · exact .next (inOrder_freeCore (inOrder_modCore (inOrder_rcount (inOrder_writeImage h1))))

theorem inOrder_remakeAgent {a : Agent} {w : WaitRef} (h : InOrder d) : InOrder (remakeAgent d c a w) := by
  refine inOrder_pushAgent ?_
  split
  · exact inOrder_modSeq h
  · exact inOrder_modCrew h

theorem inOrder_remakeWaits (h : InOrder d) : InOrder (remakeWaits d c) := by
  dsimp only [remakeWaits]
  split
  · refine .ite (.foldl (fun _ _ h1 => .ite (inOrder_unitWait h1) h1) (.foldl (fun _ _ h1 => ?_) (.foldl (fun _ _ h1 => ?_) ?_))) ?_
    · split
      · refine .ite ?_ h1
        split
        · exact inOrder_unitWait h1
        · exact h1
      · exact h1
    · split
      · exact inOrder_remakeAgent h1
      · exact h1
    · split
      · exact inOrder_remakeAgent h
      · exact h
    · split
      · refine inOrder_unitWait (.foldl (fun _ _ h1 => .ite (inOrder_unitWait h1) h1) (.foldl (fun _ _ h1 => ?_) (.foldl (fun _ _ h1 => ?_) ?_)))
        · split
          · refine .ite ?_ h1
            split
            · exact inOrder_unitWait h1
            · exact h1
          · exact h1
        · split
          · exact inOrder_remakeAgent h1
          · exact h1
        · split
          · exact inOrder_remakeAgent h
          · exact h
      · refine .foldl (fun _ _ h1 => .ite (inOrder_unitWait h1) h1) (.foldl (fun _ _ h1 => ?_) (.foldl (fun _ _ h1 => ?_) ?_))
        · split
          · refine .ite ?_ h1
            split
            · exact inOrder_unitWait h1
            · exact h1
          · exact h1
        · split
          · exact inOrder_remakeAgent h1
          · exact h1
        · split
          · exact inOrder_remakeAgent h
          · exact h
  · refine .foldl (fun _ _ h1 => .ite (inOrder_unitWait h1) h1) (.foldl (fun _ _ h1 => ?_) (.foldl (fun _ _ h1 => ?_) ?_))
    · split
      · refine .ite ?_ h1
        split
        · exact inOrder_unitWait h1
        · exact h1
      · exact h1
    · split
      · exact inOrder_remakeAgent h1
      · exact h1
    · split
      · exact inOrder_remakeAgent h
      · exact h

theorem inOrder_restoreImage {w : Held} {r : PartRun} {b : List Byte} (h : InOrder d) : InOrder (restoreImage d c w r b) :=
  .foldl (fun _ _ h1 => inOrder_promote h1) (inOrder_remakeWaits (inOrder_modCore (inOrder_regSet (inOrder_storeWrite h))))

theorem inv_execContextImageRestored (h : Inv s) : OnNext Inv (execContextImageRestored c s) := by
  refine inOrder_runOk (fun _ h1 => ?_) h
  dsimp only
  split
  · exact .refused
  · split
    · exact .refused
    · split
      · exact .refused
      · split
        · rename_i e3
          exact .next (inOrder_dropHeld (.of_fst e3 (inOrder_devReadAll h1)))
        · rename_i e3
          exact .next (.ite (inOrder_dropHeld (.of_fst e3 (inOrder_devReadAll h1))) (inOrder_restoreImage (.of_fst e3 (inOrder_devReadAll h1))))

theorem inv_execTenantSwap {parcel tenant : Nat} (h : Inv s) : OnNext Inv (execTenantSwap parcel tenant s) :=
  inOrder_runCmd (fun _ h1 => inOrder_whenOn (inOrder_setParcel h1)) h

theorem inOrder_eachExtent {q : Parcel} {area : Addr} {f : Dev → Addr → Addr → Nat → Dev} (h : InOrder d)
    (hf : ∀ e x y z, InOrder e → InOrder (f e x y z)) : InOrder (eachExtent d q area f) :=
  .foldl_snd (fun _ _ h1 => hf _ _ _ _ h1) h

theorem inOrder_saveTenant {q : Parcel} {t : Nat} (h : InOrder d) : InOrder (saveTenant d q t) :=
  inOrder_eachExtent h (fun _ _ _ _ h1 => inOrder_moveLines h1)
theorem inOrder_restoreTenant {q : Parcel} {t : Nat} (h : InOrder d) : InOrder (restoreTenant d q t) :=
  inOrder_eachExtent h (fun _ _ _ _ h1 => .ite (inOrder_moveLines h1) (inOrder_zeroLines h1))
theorem inOrder_clearTags {q : Parcel} (h : InOrder d) : InOrder (clearTags d q) :=
  .foldl (fun _ _ h1 => inOrder_modCore h1) h

theorem inOrder_finishSwap {p t : Nat} (h : InOrder d) : InOrder (finishSwap d p t) := by
  refine inOrder_setParcel (inOrder_rcount (inOrder_clearTags (inOrder_restoreTenant ?_)))
  split
  · exact inOrder_saveTenant h
  · exact h

theorem inv_execSwapComplete {parcel : Nat} (h : Inv s) : OnNext Inv (execSwapComplete parcel s) := by
  refine inOrder_runCmd (fun _ h1 => ?_) h
  split
  · exact inOrder_whenOn (inOrder_finishSwap h1)
  · exact .refused

theorem inv_execPclRebuildSet {die : Nat} (h : Inv s) : OnNext Inv (execPclRebuildSet die s) :=
  inOrder_runCmd (fun _ h1 => .next (.ite (inOrder_logIgnoredAt h1) (.ite h1 (inOrder_rset h1)))) h
theorem inv_execRebuildMapoutDone {die : Nat} (h : Inv s) : OnNext Inv (execRebuildMapoutDone die s) :=
  inOrder_runCmd (fun _ h1 => inOrder_whenOn (inOrder_rset (inOrder_remapDie (.foldl (fun _ _ h2 => .ite (inOrder_chanSet h2) h2) h1)))) h
theorem inv_execPclRebuildClear {die : Nat} (h : Inv s) : OnNext Inv (execPclRebuildClear die s) :=
  inOrder_runCmd (fun _ h1 => .next (inOrder_rset h1)) h
theorem inOrder_slotEvent {kind : Nat} (h : InOrder d) : InOrder (slotEvent d kind) := inOrder_raiseEvent h

theorem inOrder_overruns (h : InOrder d) : InOrder (overruns d) := by
  refine .foldl (fun _ _ h1 => inOrder_slotEvent (inOrder_rcount (inOrder_mapCores ?_))) h
  split
  · exact inOrder_setCmd h1
  · exact h1

theorem inOrder_beginSlot {slot : Nat} (h : InOrder d) : InOrder (beginSlot d slot) :=
  .ite (inOrder_slotEvent (.upd h)) (.upd h)
theorem inOrder_beginCycle (h : InOrder d) : InOrder (beginCycle d) := inOrder_beginSlot (.upd h)
theorem inOrder_noteSlot (h : InOrder d) : InOrder (noteSlot d) :=
  .foldl (fun _ _ h1 => inOrder_noteReady h1) h

theorem inv_execScheduleSlotBoundary (h : Inv s) : OnNext Inv (execScheduleSlotBoundary s) := by
  refine inOrder_runCmd (fun _ h1 => ?_) h
  split
  · exact .refused
  · split
    · exact .next (inOrder_noteSlot (inOrder_beginCycle h1))
    · split
      · exact .refused
      · exact .next (inOrder_noteSlot (.ite (inOrder_beginCycle (inOrder_overruns h1)) (inOrder_beginSlot (inOrder_overruns h1))))

theorem inv_execSchSwitch (h : Inv s) : OnNext Inv (execSchSwitch s) :=
  inOrder_runCmd (fun _ h1 => .next (.upd h1)) h
theorem inv_execTagValidClear (h : Inv s) : OnNext Inv (execTagValidClear c s) :=
  inOrder_runCmd (fun _ h1 => .next (inOrder_modCore h1)) h

/-! ### LinkBase -/

theorem inOrder_partTook {id : Option (Nat × Nat × Nat)} {f : FaultCode} {empty : Bool} (h : InOrder d) : InOrder (partTook d c id f empty) :=
  inOrder_modCore h

theorem inOrder_outDone {die unit : Nat} {id : Option (Nat × Nat × Nat)} {op : Op} {f : FaultCode} {empty : Bool}
    (h : InOrder d) : InOrder (outDone d die unit c id op f empty) :=
  inOrder_blockArrive (inOrder_partTook h)

theorem inOrder_setGroup {g : Nat} {x : Group} (h : InOrder d) : InOrder (setGroup d g x) := .upd h

theorem inOrder_listRead {g : Nat} (h : InOrder d) : InOrder (listRead d g).1 := by
  dsimp only [listRead]
  split
  · rename_i e
    exact .of_fst e (inOrder_devReadAll h)
  · rename_i e
    exact .of_fst e (inOrder_devReadAll h)

theorem inOrder_setXfer {x : Xfer} (h : InOrder d) : InOrder (setXfer d x) := .upd h
theorem inOrder_dropXfer {x : Xfer} (h : InOrder d) : InOrder (dropXfer d x) := .upd h
theorem inOrder_assignSlots {die port : Nat} (h : InOrder d) : InOrder (assignSlots d die port) := .upd h

theorem inOrder_chunkBytes {x : Xfer} {c : Nat} (h : InOrder d) : InOrder (chunkBytes d x c).1 := by
  dsimp only [chunkBytes]
  split
  · exact inOrder_devReadAll h
  · exact h

theorem inOrder_sendChunk {x : Xfer} {c again : Nat} (h : InOrder d) : InOrder (sendChunk d x c again).1 := by
  dsimp only [sendChunk]
  split
  · rename_i e
    exact .of_fst e (inOrder_chunkBytes h)
  · rename_i e
    exact inOrder_send (inOrder_setXfer (.of_fst e (inOrder_chunkBytes h)))

theorem inOrder_stageChunk {die port v : Nat} {x : Xfer} {c resends : Nat} {o : Outgoing} (h : InOrder d) :
    InOrderEither (stageChunk d die port v x c resends o) := by
  unfold stageChunk
  split
  · rename_i e
    exact InOrder.of_fst e (inOrder_sendChunk h)
  · rename_i e
    exact inOrder_setPort (.of_fst e (inOrder_sendChunk h))

theorem inOrder_stageVc {die port v : Nat} (h : InOrder d) : OnSome InOrderEither (stageVc d die port v) := by
  dsimp only [stageVc]
  split
  · split
    · exact .none
    · split
      · exact .some (inOrder_setPort (d := d) h)
      · split
        · exact .none
        · exact .some (inOrder_stageChunk h)
  · split
    · exact .none
    · split
      · split
        · exact .none
        · exact .some (inOrder_stageChunk h)
      · split
        · exact .some (inOrder_stageChunk h)
        · exact .some (inOrder_setPort (d := d) h)
      · exact .none

theorem inOrder_pageGone {die port : Nat} {e : Nat × Nat} (h : InOrder d) : InOrder (pageGone d die port e) :=
  .upd h

theorem inOrder_flitOut {die port : Nat} (h : InOrder d) : OnSome InOrder (flitOut d die port) := by
  dsimp only [flitOut]
  split
  · exact .none
  · split
    · exact .some (inOrder_putFlit (inOrder_setPort h))
    · refine .some ?_
      split
      · exact inOrder_pageGone (inOrder_putFlit (inOrder_setPort h))
      · exact inOrder_putFlit (inOrder_setPort h)
    · exact .none

theorem inOrder_pumpSend {die port n : Nat} (h : InOrder d) : InOrder (pumpSend die port n d).1 := by
  induction n generalizing d with
  | zero => exact h
  | succ n ih =>
    have staged : OnSome InOrderEither ((List.range 8).findSome? fun v => stageVc d die port v) := .findSome? fun _ => inOrder_stageVc h
    dsimp only [pumpSend]
    split
    · exact h
    · split
      · rename_i e
        exact ih (staged _ e)
      · rename_i e
        exact staged _ e
      · split
        · rename_i e
          exact ih (inOrder_flitOut h _ e)
        · exact h

theorem inOrder_setLinks {die : Nat} {l : List LinkOp} (h : InOrder d) : InOrder (setLinks d die l) := .upd h
theorem inOrder_setLop {die : Nat} {x : LinkOp} (h : InOrder d) : InOrder (setLop d die x) :=
  inOrder_setLinks h
theorem inOrder_finishLop {die : Nat} {x : LinkOp} {s : LinkStatus} {empty : Bool} (h : InOrder d) : InOrder (finishLop d die x s empty) :=
  .ite (inOrder_outDone (inOrder_setLinks h)) (.ite (.upd (inOrder_setLinks h)) (inOrder_outDone (inOrder_devWriteAll (inOrder_setLinks h))))
theorem inOrder_lateBlocks (h : InOrder d) : InOrder (lateBlocks d) :=
  .foldl (fun _ _ h1 => .ite (.upd h1) (inOrder_outDone (inOrder_devWriteAll h1))) (.upd h)
theorem inOrder_countFailed {die : Nat} {f : FaultCode} (h : InOrder d) : InOrder (countFailed d die f) :=
  .ite (inOrder_rcount h) h
theorem inOrder_exportFail {idx : Nat} (h : InOrder d) : InOrder (exportFail d idx) :=
  .ite h (.upd (inOrder_modKv (inOrder_logErr (inOrder_kvSet h))))

theorem inOrder_exportAdvance {idx n : Nat} (h : InOrder d) : InOrder (exportAdvance idx n d) := by
  induction n generalizing d with
  | zero => exact h
  | succ n ih =>
    dsimp only [exportAdvance]
    split
    · exact h
    · exact ih (.ite (inOrder_blockArrive (inOrder_kvSet (inOrder_dropXfer h))) (inOrder_kvSet (inOrder_dropXfer h)))

theorem inOrder_endPut {x : Xfer} {f : FaultCode} {cause : Nat} {first : Option Nat} (h : InOrder d) : InOrder (endPut d x f cause first) := by
  dsimp only [endPut]
  split
  · exact inOrder_dropXfer h
  · exact inOrder_finishLop (inOrder_countFailed (.ite (inOrder_logErr (inOrder_dropXfer h)) (inOrder_dropXfer h)))

/-! ### Collective -/

theorem inOrder_reduceInto {red fmt n : Nat} {srcs : List Addr} {dst : Addr} (h : InOrder d) : InOrder (reduceInto d red fmt n srcs dst).1 := by
  dsimp only [reduceInto]
  split
  · rename_i e
    refine .of_fst e (.foldl_fst (fun _ _ h1 => ?_) h)
    split
    · exact h1
    · split
      · rename_i e1
        exact .of_fst e1 (inOrder_devReadAll h1)
      · rename_i e1
        exact .of_fst e1 (inOrder_devReadAll h1)
  · rename_i e
    split
    · rename_i e1
      refine .of_fst e1 (inOrder_devWriteAll (.of_fst e (.foldl_fst (fun _ _ h1 => ?_) h)))
      split
      · exact h1
      · split
        · rename_i e2
          exact .of_fst e2 (inOrder_devReadAll h1)
        · rename_i e2
          exact .of_fst e2 (inOrder_devReadAll h1)
    · rename_i e1
      refine .of_fst e1 (inOrder_devWriteAll (.of_fst e (.foldl_fst (fun _ _ h1 => ?_) h)))
      split
      · exact h1
      · split
        · rename_i e2
          exact .of_fst e2 (inOrder_devReadAll h1)
        · rename_i e2
          exact .of_fst e2 (inOrder_devReadAll h1)

theorem inOrder_copyBytes {src dst : Addr} {n : Nat} (h : InOrder d) : InOrder (copyBytes d src dst n).1 := by
  dsimp only [copyBytes]
  split
  · rename_i e
    exact .of_fst e (inOrder_devReadAll h)
  · rename_i e
    split
    · rename_i e1
      exact .of_fst e1 (inOrder_devWriteAll (.of_fst e (inOrder_devReadAll h)))
    · rename_i e1
      exact .of_fst e1 (inOrder_devWriteAll (.of_fst e (inOrder_devReadAll h)))

theorem inOrder_packageStage {x : LinkOp} (h : InOrder d) : InOrder (packageStage d x).1 := by
  dsimp only [packageStage]
  split
  · exact inOrder_reduceInto h
  · exact inOrder_copyBytes h
  · split
    · exact inOrder_copyBytes h
    · exact h
  · exact h

theorem inOrder_reduceSegment {x : LinkOp} {level : Nat} (h : InOrder d) : InOrder (reduceSegment d x level).1 := by
  dsimp only [reduceSegment]
  split
  · exact h
  · exact inOrder_reduceInto h

theorem inOrder_setColl {c : Coll} (h : InOrder d) : InOrder (setColl d c) := .upd h
theorem inOrder_abortMember {c : Coll} {i : Nat} (h : InOrder d) : InOrder (abortMember d c i) :=
  .ite h (.ite (inOrder_sendMsg h) h)

theorem inOrder_collFail {c : Coll} {f : FaultCode} {cause member : Nat} {first : Option Nat}
    (h : InOrder d) : InOrder (collFail d c f cause member first) :=
  inOrder_finishLop (inOrder_countFailed (.ite (inOrder_logErr (.upd h)) (.foldl (fun _ _ h1 => inOrder_abortMember h1) (inOrder_logErr (.upd h)))))

theorem inOrder_collDone {c : Coll} (h : InOrder d) : InOrder (collDone d c) :=
  inOrder_finishLop (inOrder_setGroup (.upd h))
theorem inOrder_collUnread {c : Coll} {f : FaultCode} (h : InOrder d) : InOrder (collUnread d c f) :=
  inOrder_collFail h

theorem inOrder_collTry {c : Coll} (h : InOrder d) : InOrder (collTry d c) := by
  refine .ite h ?_
  split
  · rename_i e
    exact .when (.of_fst e (inOrder_listRead h)) inOrder_collDone
  · rename_i e2
    exact inOrder_collUnread (.of_fst e2 (inOrder_listRead h))

theorem inOrder_queueLegs {c : Coll} {ls : List Leg} (h : InOrder d) : InOrder (queueLegs d c ls) :=
  .foldl (fun _ _ h1 => .upd h1) h

theorem inOrder_failXfer {x : Xfer} {f : FaultCode} {cause : Nat} {first : Option Nat} (h : InOrder d) : InOrder (failXfer d x f cause first) := by
  dsimp only [failXfer]
  split
  · exact inOrder_endPut h
  · split
    · exact inOrder_collFail h
    · exact inOrder_dropXfer h
  · exact inOrder_exportFail h

theorem inOrder_pumpPort {die port n : Nat} (h : InOrder d) : InOrder (pumpPort die port n d) := by
  induction n generalizing d with
  | zero => exact h
  | succ n ih =>
    have sent := inOrder_pumpSend (die := die) (port := port) (n := pumpFuel d die port) (inOrder_assignSlots (die := die) (port := port) h)
    dsimp only [pumpPort]
    split
    · rename_i e
      exact .of_fst e sent
    · rename_i e
      exact ih (inOrder_failXfer (.of_fst e sent))

theorem inOrder_pumpAll (h : InOrder d) : InOrder (pumpAll d) := .foldl (fun _ _ h1 => inOrder_pumpPort h1) h

theorem inOrder_collCheck {die g : Nat} (h : InOrder d) : InOrder (collCheck d die g) := by
  dsimp only [collCheck]
  split
  · exact inOrder_collTry h
  · exact h

theorem inOrder_beginStage {c : Coll} (h : InOrder d) : InOrder (beginStage d c) := by
  dsimp only [beginStage]
  split
  · exact inOrder_collTry (inOrder_setColl h)
  · refine .ite ?_ ?_
    · split
      · rename_i e1
        exact inOrder_collTry (.of_fst e1 (inOrder_packageStage (inOrder_setColl h)))
      · rename_i e12
        exact inOrder_collUnread (.of_fst e12 (inOrder_packageStage (inOrder_setColl h)))
    · split
      · rename_i e1
        exact inOrder_collCheck (inOrder_pumpAll (inOrder_queueLegs (.of_fst e1 (inOrder_listRead (inOrder_setColl h)))))
      · rename_i e12
        exact inOrder_collUnread (.of_fst e12 (inOrder_listRead (inOrder_setColl h)))

theorem inOrder_collNext {c : Coll} (h : InOrder d) : OnSome InOrder (collNext d c) := by
  dsimp only [collNext]
  split
  · exact .none
  · split
    · split
      · exact .none
      · split
        · rename_i e3
          exact .some (inOrder_beginStage (.of_fst e3 (inOrder_reduceSegment h)))
        · rename_i e32
          exact .some (inOrder_collUnread (.of_fst e32 (inOrder_reduceSegment h)))
    · split
      · rename_i e2
        split
        · exact .some (inOrder_collTry (.of_fst e2 (inOrder_listRead h)))
        · exact .some (inOrder_beginStage (.of_fst e2 (inOrder_listRead h)))
      · rename_i e22
        exact .some (inOrder_collUnread (.of_fst e22 (inOrder_listRead h)))

/-! ### Links -/

theorem inOrder_pushLink {op : Op} (h : InOrder d) : InOrder (pushLink c d op) := inOrder_setLinks h
theorem inv_execColRun {o : DOp} (h : Inv s) : OnNext Inv (execColRun c o s) :=
  inOrder_runCmd (fun _ h1 => inOrder_dIssue (fun _ _ h2 => inOrder_pushLink h2) h1) h
theorem inv_execColPut {o : DOp} (h : Inv s) : OnNext Inv (execColPut c o s) :=
  inOrder_runCmd (fun _ h1 => inOrder_dIssue (fun _ _ h2 => inOrder_pushLink h2) h1) h

theorem inOrder_planRead {x : LinkOp} (h : InOrder d) : InOrder (planRead d x).1 := by
  dsimp only [planRead]
  split
  · exact inOrder_listRead h
  · split
    · exact h
    · split
      · rename_i e2
        exact .of_fst e2 (inOrder_devReadAll h)
      · rename_i e2
        exact .of_fst e2 (inOrder_devReadAll h)

theorem inOrder_endEarly {die : Nat} {x : LinkOp} {f : FaultCode} {cause member : Nat} (h : InOrder d) : InOrder (endEarly d die x f cause member) :=
  inOrder_finishLop h

theorem inOrder_linkTake {die : Nat} (h : InOrder d) : OnSome InOrder (linkTake d die) := by
  dsimp only [linkTake]
  split
  · exact .none
  · split
    · exact .none
    · split
      · exact .some (inOrder_endEarly h)
      · split
        · exact .some (inOrder_endEarly h)
        · split
          · exact .none
          · split
            · split
              · exact .some (inOrder_endEarly (.ite (inOrder_planRead h) (inOrder_setGroup (inOrder_planRead h))))
              · split
                · exact .some (inOrder_endEarly (.ite (inOrder_planRead h) (inOrder_setGroup (inOrder_planRead h))))
                · split
                  · split
                    · exact .some (inOrder_endEarly (inOrder_planRead h))
                    · exact .some (inOrder_unitWait (inOrder_setLop (inOrder_planRead h)))
                  · split
                    · exact .some (inOrder_endEarly (inOrder_setGroup (inOrder_planRead h)))
                    · split
                      · exact .some (inOrder_collFail (inOrder_setGroup (inOrder_planRead h)))
                      · exact .some (inOrder_unitWait (inOrder_setLop (inOrder_setGroup (inOrder_planRead h))))
            · split
              · exact .some (inOrder_endEarly (.ite (inOrder_planRead h) (inOrder_setGroup (inOrder_planRead h))))
              · split
                · exact .some (inOrder_endEarly (.ite (inOrder_planRead h) (inOrder_setGroup (inOrder_planRead h))))
                · split
                  · split
                    · exact .some (inOrder_endEarly (inOrder_planRead h))
                    · exact .some (inOrder_setLop (inOrder_planRead h))
                  · split
                    · exact .some (inOrder_endEarly (inOrder_setGroup (inOrder_planRead h)))
                    · split
                      · exact .some (inOrder_collFail (inOrder_setGroup (inOrder_planRead h)))
                      · exact .some (inOrder_setLop (inOrder_setGroup (inOrder_planRead h)))

theorem inOrder_linkWaitEnd {die : Nat} (h : InOrder d) : OnSome InOrder (linkWaitEnd d die) := by
  refine .findSome? fun _ => ?_
  split
  · exact .none
  · split
    · exact .none
    · rename_i e1
      exact .some (inOrder_setLop (inOrder_takeWake h _ e1))
    · rename_i e12
      exact .some (inOrder_endEarly (inOrder_takeWake h _ e12))

theorem inOrder_addXfer {x : Xfer} (h : InOrder d) : InOrder (addXfer d x) := inOrder_pumpPort (.upd h)
theorem inOrder_startPut {die : Nat} {x : LinkOp} {slot : Nat} (h : InOrder d) : InOrder (startPut d die x slot) :=
  .ite (inOrder_finishLop h) (inOrder_addXfer (inOrder_setLop h))

theorem inOrder_nextPut {die : Nat} (h : InOrder d) : OnSome InOrder (nextPut d die) := by
  refine .findSome? fun _ => ?_
  split
  · exact .none
  · dsimp only
    split
    · exact .some (inOrder_endEarly (inOrder_planRead h))
    · split
      · exact .some (inOrder_endEarly (inOrder_planRead h))
      · exact .map fun _ => inOrder_startPut (inOrder_planRead h)

theorem inOrder_nextPage {die : Nat} (h : InOrder d) : OnSome InOrder (nextPage d die) := by
  refine .findSome? fun _ => ?_
  dsimp only
  split
  · exact .none
  · split
    · exact .some (inOrder_exportFail h)
    · split
      · exact .none
      · split
        · exact .some (inOrder_exportFail (inOrder_listRead h))
        · exact .map fun _ => inOrder_addXfer (.upd (inOrder_listRead h))

theorem inv_execPutStart {die : Nat} (h : Inv s) : OnNext Inv (execPutStart die s) := by
  refine inOrder_runCmd (fun d h1 => ?_) h
  split
  · exact .refused
  · refine inOrder_orNot ?_
    cases e : nextPut d die with
    | none => exact inOrder_nextPage h1
    | some t => exact .some (inOrder_nextPut h1 _ e)

theorem inOrder_failQueued {e : Nat × LinkOp} {f : FaultCode} {cause port member : Nat}
    (h : InOrder d) : InOrder (failQueued d e f cause port member) :=
  .ite (inOrder_endEarly (inOrder_logErr (inOrder_countFailed h))) (inOrder_collFail h)

theorem inOrder_portLoss {die port : Nat} (h : InOrder d) : InOrder (portLoss d die port) :=
  .foldl (fun _ _ h1 => inOrder_exportFail h1) (.foldl (fun _ _ h1 => inOrder_failQueued h1) (.foldl (fun _ _ h1 => inOrder_collFail h1)
    (.foldl (fun _ _ h1 => inOrder_endPut h1) h)))

theorem inOrder_portDown {die port reason : Nat} (h : InOrder d) : InOrder (portDown d die port reason) :=
  inOrder_portLoss (inOrder_logErr (inOrder_setPort (inOrder_rset h)))
theorem inv_execZlkTrain {die port : Nat} (h : Inv s) : OnNext Inv (execZlkTrain die port s) :=
  inOrder_runCmd (fun _ h1 => .next (.ite (inOrder_logIgnoredAt h1) (.ite h1 (inOrder_rset (inOrder_rset h1))))) h
theorem inv_execZlkStop {die port : Nat} (h : Inv s) : OnNext Inv (execZlkStop die port s) :=
  inOrder_runCmd (fun _ h1 => .next (.ite h1 (inOrder_portDown h1))) h
theorem inOrder_trainEnd {die port : Nat} {x : TrainResult} (h : InOrder d) : InOrder (trainEnd d die port x) :=
  .ite (inOrder_portLoss (inOrder_rset h)) (inOrder_pumpPort (inOrder_setPort (inOrder_rset (inOrder_rset (inOrder_rset h)))))
theorem inv_execPortTrainingDone {die port : Nat} {x : TrainResult} (h : Inv s) : OnNext Inv (execPortTrainingDone die port x s) :=
  inOrder_runCmd (fun _ h1 => inOrder_whenOn (inOrder_trainEnd h1)) h
theorem inOrder_failLanes {die port lanes : Nat} (h : InOrder d) : InOrder (failLanes d die port lanes) :=
  .ite (inOrder_portDown (inOrder_rset h)) (.ite (inOrder_portDown (inOrder_rset h)) (inOrder_setPort (inOrder_rset (inOrder_rset h))))
theorem inv_execLaneFailure {die port : Nat} {lanes : BitVec 8} (h : Inv s) : OnNext Inv (execLaneFailure die port lanes s) :=
  inOrder_runCmd (fun _ h1 => inOrder_whenOn (inOrder_failLanes h1)) h

theorem inOrder_resumeTimers {die port : Nat} (h : InOrder d) : InOrder (resumeTimers d die port) := by
  dsimp only [resumeTimers]
  split
  · exact h
  · exact inOrder_setPort (.upd h)

theorem inv_execPortRetrainDone {die port : Nat} {ok : Bool} (h : Inv s) : OnNext Inv (execPortRetrainDone die port ok s) := by
  refine inOrder_runCmd (fun _ h1 => ?_) h
  split
  · exact .refused
  · split
    · exact .next (inOrder_portDown h1)
    · exact .next (inOrder_pumpPort (inOrder_replayFlits (.whenNot (inOrder_rset (inOrder_resumeTimers h1)) fun h2 => inOrder_logErr
        (inOrder_rcount (inOrder_rset h2)))))

theorem inv_execZlkLaneWindowEnd {die port : Nat} (h : Inv s) : OnNext Inv (execZlkLaneWindowEnd die port s) :=
  inOrder_runOk (fun _ h1 => inOrder_whenOn (inOrder_setPort h1)) h

theorem inOrder_xferDone {x : Xfer} (h : InOrder d) : InOrder (xferDone d x) := by
  dsimp only [xferDone]
  split
  · exact inOrder_endPut h
  · split
    · exact inOrder_collCheck (inOrder_setColl (inOrder_dropXfer h))
    · exact inOrder_dropXfer h
  · exact inOrder_exportAdvance (inOrder_setXfer h)

theorem inOrder_repump {die port : Nat} (h : InOrder d) : InOrder (repump d die port) := inOrder_pumpPort h

theorem inOrder_ackIn {die port tag chunk : Nat} {last : Bool} (h : InOrder d) : InOrder (ackIn d die port tag chunk last) := by
  dsimp only [ackIn]
  split
  · exact h
  · exact inOrder_repump (.ite (inOrder_xferDone (inOrder_setXfer h)) (inOrder_setXfer h))

theorem inv_execLinkAck {die port tag chunk : Nat} {last : Bool} (h : Inv s) : OnNext Inv (execLinkAck die port tag chunk last s) :=
  inOrder_runCmd (fun _ h1 => .next (inOrder_ackIn h1)) h
theorem inOrder_makeDue {x : Xfer} {c : Nat} {st : ChunkSt} (h : InOrder d) : InOrder (makeDue d x c st) :=
  inOrder_setXfer (inOrder_rcount h)
theorem inOrder_resend {x : Xfer} {c : Nat} {st : ChunkSt} {cause : Nat} (h : InOrder d) : InOrder (resend d x c st cause) :=
  .ite (inOrder_failXfer h) (inOrder_makeDue h)

theorem inOrder_nakIn {die port tag chunk reason : Nat} (h : InOrder d) : InOrder (nakIn d die port tag chunk reason) := by
  dsimp only [nakIn]
  split
  · exact h
  · refine inOrder_repump ?_
    split
    · exact .ite h (inOrder_resend h)
    · exact inOrder_setXfer h
    · exact inOrder_failXfer h
    · exact inOrder_failXfer h
    · exact inOrder_failXfer h
    · exact h

theorem inv_execLinkNak {die port tag chunk reason : Nat} (h : Inv s) : OnNext Inv (execLinkNak die port tag chunk reason s) :=
  inOrder_runCmd (fun _ h1 => .next (inOrder_nakIn h1)) h

theorem inv_execAckTimeout {die port tag chunk : Nat} (h : Inv s) : OnNext Inv (execAckTimeout die port tag chunk s) := by
  refine inOrder_runCmd (fun _ h1 => inOrder_orNot ?_) h
  split
  · exact .none
  · split
    · exact .none
    · split
      · exact .none
      · exact .some (inOrder_repump (inOrder_resend h1))

theorem inv_execNotReadyResend {die port tag chunk : Nat} (h : Inv s) : OnNext Inv (execNotReadyResend die port tag chunk s) := by
  refine inOrder_runCmd (fun _ h1 => inOrder_orNot ?_) h
  split
  · exact .none
  · split
    · exact .none
    · split
      · exact .none
      · split
        · exact .none
        · exact .some (inOrder_repump (inOrder_makeDue h1))

theorem inOrder_abortIn {groupTag : W32} {seq8 : BitVec 8} {zid : Nat} (h : InOrder d) : InOrder (abortIn d groupTag seq8 zid) := by
  dsimp only [abortIn]
  split
  · exact h
  · split
    · exact inOrder_collFail h
    · split
      · exact inOrder_collFail h
      · exact .ite (inOrder_setGroup h) h

theorem inv_execLinkAbort {groupTag : BitVec 32} {seq8 : BitVec 8} {fromZid : BitVec 16} (h : Inv s) :
    OnNext Inv (execLinkAbort groupTag seq8 fromZid s) :=
  inOrder_runCmd (fun _ h1 => .next (inOrder_abortIn h1)) h

theorem inOrder_nakChunk {die port : Nat} {w : PutHeader} {chunk reason : Nat} (h : InOrder d) : InOrder (nakChunk d die port w chunk reason) :=
  .whenNot (.ite (inOrder_rcount h) h) inOrder_sendMsg
theorem inOrder_setInbound {b : Inbound} (h : InOrder d) : InOrder (setInbound d b) := .upd h

theorem inOrder_inboundDone {die port g : Nat} {b : Inbound} {chunk : Nat} (h : InOrder d) : InOrder (inboundDone d die port g b chunk) := by
  refine .ite (inOrder_sendMsg h) (.ite (inOrder_sendMsg h) (.ite ?_ (.ite (.ite (inOrder_nakChunk h) (inOrder_pushPort (inOrder_setInbound h)))
    (inOrder_sendMsg (inOrder_setInbound h)))))
  dsimp only
  split
  · exact inOrder_collCheck (inOrder_setColl (inOrder_sendMsg (inOrder_setInbound h)))
  · exact inOrder_sendMsg (inOrder_setInbound h)

theorem inOrder_chunkIn {die port : Nat} {w : PutHeader} {chunk : Nat} {bytes : List Byte} {crc : W32}
    (h : InOrder d) : InOrder (chunkIn d die port w chunk bytes crc) := by
  refine .ite (inOrder_nakChunk h) ?_
  split
  · exact inOrder_nakChunk h
  · refine .ite (inOrder_nakChunk h) ?_
    split
    · exact inOrder_nakChunk h
    · split
      · rename_i e2
        exact inOrder_nakChunk (.of_fst e2 (inOrder_devWriteAll h))
      · rename_i e2
        exact .ite (inOrder_nakChunk (.of_fst e2 (inOrder_devWriteAll h)))
          (.ite (inOrder_inboundDone (inOrder_setInbound (.of_fst e2 (inOrder_devWriteAll h))))
            (inOrder_sendMsg (inOrder_setInbound (.of_fst e2 (inOrder_devWriteAll h)))))

theorem inv_execPutChunkReceive {die port : Nat} {w : PutHeader} {chunk : Nat} {bytes : List (BitVec 8)} {crc : BitVec 32} (h : Inv s) :
    OnNext Inv (execPutChunkReceive die port w chunk bytes crc s) := by
  refine inOrder_runCmd (fun _ h1 => ?_) h
  split
  · exact .refused
  · exact .next (inOrder_repump (inOrder_chunkIn h1))

theorem inOrder_messageIn {die port : Nat} {w : W64} (h : InOrder d) : InOrder (messageIn d die port w) := by
  refine .ite h ?_
  split
  · exact inOrder_ackIn h
  · exact inOrder_nakIn h
  · exact inOrder_abortIn h
  · exact h

theorem inOrder_takeStream {die port v n : Nat} (h : InOrder d) : InOrder (takeStream die port v n d) := by
  induction n generalizing d with
  | zero => exact h
  | succ n ih =>
    dsimp only [takeStream]
    split
    · exact h
    · exact ih (inOrder_setPort (.ite h (inOrder_setInbound h)))
    · exact .ite h (ih (.ite (inOrder_nakChunk (inOrder_setPort h)) (inOrder_chunkIn (inOrder_setPort h))))

theorem inOrder_returnCredits {die port v : Nat} (h : InOrder d) : InOrder (returnCredits d die port v) :=
  .ite h (inOrder_setPort h)
theorem inOrder_sendCredits {die port : Nat} (h : InOrder d) : InOrder (sendCredits d die port) :=
  .ite h (.foldl (fun _ _ h1 => inOrder_putFlit h1) h)
theorem inOrder_bodyIn {die port : Nat} {f : Flit} (h : InOrder d) : InOrder (bodyIn d die port f) :=
  inOrder_returnCredits (inOrder_takeStream (inOrder_setPort h))
theorem inOrder_retryIn {die port : Nat} (h : InOrder d) : InOrder (retryIn d die port) :=
  .foldl (fun _ _ h1 => .ite h1 (inOrder_returnCredits (inOrder_takeStream h1))) h
theorem inOrder_forgetPut {f : Flit} (h : InOrder d) : InOrder (forgetPut d f) := .ite (.upd h) h

theorem inOrder_flitIn {die port : Nat} {r : Dev × Bool} {f : Flit} (h : InOrder r.1) : InOrder (flitIn die port r f).1 := by
  dsimp only [flitIn]
  split
  · exact .when (.foldl (fun _ _ h1 => inOrder_forgetPut h1) (inOrder_setPort h)) fun h2 => inOrder_replayFlits (inOrder_rcount h2)
  · split
    · split
      · exact inOrder_replayFlits (inOrder_rcount (.foldl (fun _ _ h1 => inOrder_forgetPut h1) (inOrder_setPort h)))
      · exact .when (.when (inOrder_setPort (inOrder_replayFlits (inOrder_rcount (.foldl (fun _ _ h1 => inOrder_forgetPut h1) (inOrder_setPort h)))))
          inOrder_bodyIn) inOrder_messageIn
    · split
      · exact .foldl (fun _ _ h1 => inOrder_forgetPut h1) (inOrder_setPort h)
      · exact .when (.when (inOrder_setPort (.foldl (fun _ _ h1 => inOrder_forgetPut h1) (inOrder_setPort h))) inOrder_bodyIn) inOrder_messageIn

theorem inOrder_groupIn {die port : Nat} {x : FlitGroup} (h : InOrder d) : InOrder (groupIn d die port x) := by
  unfold groupIn
  extract_lets _ d1 d2 d3 _ r d4 d5
  have h1 : InOrder d1 := inOrder_rcount h
  have h2 : InOrder d2 := inOrder_rcount h1
  have h3 : InOrder d3 := inOrder_retryIn (inOrder_setPort h2)
  clear_value d3
  have hr : InOrder r.1 := .foldl_fst (fun _ _ he => inOrder_flitIn he) h3
  have h4 : InOrder d4 := .ite (inOrder_askReplay hr) (.ite (inOrder_putFlit hr) hr)
  have h5 : InOrder d5 := inOrder_sendCredits (inOrder_repump h4)
  exact .ite h5 (inOrder_failLanes h5)

theorem inv_execFlitReceive {die port : Nat} {x : FlitGroup} (h : Inv s) : OnNext Inv (execFlitReceive die port x s) :=
  inOrder_runCmd (fun _ h1 => inOrder_whenOn (inOrder_groupIn h1)) h

theorem inv_execCollectiveStart {die group : Nat} (h : Inv s) : OnNext Inv (execCollectiveStart die group s) := by
  refine inOrder_runCmd (fun _ h1 => inOrder_orNot ?_) h
  split
  · exact .none
  · split
    · exact .none
    · split
      · exact .some (inOrder_finishLop h1)
      · split
        · rename_i e3
          exact .some (inOrder_beginStage (inOrder_setLop (.upd (.of_fst e3 (inOrder_listRead h1)))))
        · rename_i e32
          exact .some (inOrder_collUnread (.of_fst e32 (inOrder_listRead h1)))

theorem inv_execCollectiveTraverse {die group : Nat} (h : Inv s) : OnNext Inv (execCollectiveTraverse die group s) :=
  inOrder_runCmd (fun _ h1 => inOrder_orNot (.bind fun _ => inOrder_collNext h1)) h

theorem inv_execCollectiveTimeout {die group : Nat} (h : Inv s) : OnNext Inv (execCollectiveTimeout die group s) := by
  refine inOrder_runCmd (fun _ h1 => inOrder_orNot ?_) h
  split
  · split
    · exact .some (inOrder_collFail h1)
    · exact .none
  · split
    · exact .some (inOrder_collFail h1)
    · exact .none

theorem inv_execZlkIdWrite {v : BitVec 16} (h : Inv s) : OnNext Inv (execZlkIdWrite v s) :=
  inOrder_runCmd (fun _ h1 => .next (.ite (inOrder_logIgnoredAt h1) (inOrder_rset h1))) h
theorem inv_execZlkVcCfgWrite {die port : Nat} {v : BitVec 64} (h : Inv s) : OnNext Inv (execZlkVcCfgWrite die port v s) :=
  inOrder_runCmd (fun _ h1 => .next (.ite (inOrder_logIgnoredAt h1) (inOrder_regSet h1))) h

theorem inOrder_closeGroup {g : Nat} (h : InOrder d) : InOrder (closeGroup d g) :=
  .foldl (fun _ _ h1 => inOrder_exportFail h1) (.foldl (fun _ _ h1 => inOrder_failQueued h1) (.foldl (fun _ _ h1 => inOrder_collFail h1)
    (.foldl (fun _ _ h1 => inOrder_endPut h1) h)))

theorem inv_execStakeOpApply {die hub : Nat} {ports : BitVec 4} (h : Inv s) : OnNext Inv (execStakeOpApply die hub ports s) := by
  refine inOrder_runCmd (fun _ h1 => ?_) h
  dsimp only
  split
  · exact .refused
  · exact .next (.foldl (fun _ _ h2 => inOrder_repump h2) (.foldl (fun _ _ h2 => inOrder_applyOp h2) (inOrder_setHub h1)))

theorem inOrder_resumeWaits (h : InOrder d) : InOrder (resumeWaits d) :=
  inOrder_pumpAll (.foldl (fun _ _ h1 => inOrder_sendCredits (inOrder_retryIn h1)) (.foldl (fun _ _ h1 => inOrder_collCheck h1)
    (inOrder_lateBlocks (inOrder_lateCommands h))))

theorem inv_execSliceReconfigDone {die : Nat} (h : Inv s) : OnNext Inv (execSliceReconfigDone die s) :=
  inOrder_runCmd (fun _ h1 => inOrder_whenOn (inOrder_resumeWaits (inOrder_rset h1))) h

/-! ### Media -/

theorem inOrder_setSess {idx : Nat} {x : Sess} (h : InOrder d) : InOrder (setSess d idx x) := .upd h
theorem inOrder_openSess {idx : Nat} {words : List W64} (h : InOrder d) : InOrder (openSess d idx words) :=
  inOrder_setSess h
theorem inOrder_modFrame {idx num : Nat} {f : Frame → Frame} (h : InOrder d) : InOrder (modFrame d idx num f) :=
  inOrder_setSess h
theorem inOrder_dropFrame {idx : Nat} {x : Frame} (h : InOrder d) : InOrder (dropFrame d idx x) :=
  inOrder_setSess h
theorem inOrder_mediaEvent {idx : Nat} {x : Frame} {kind : Nat} (h : InOrder d) : InOrder (mediaEvent d idx x kind) :=
  inOrder_raiseEvent h
theorem inOrder_frameDone {idx : Nat} {y : Frame} {f : FaultCode} (h : InOrder d) : InOrder (frameDone d idx y f) :=
  inOrder_outDone (inOrder_dropFrame (.when (.when (.whenNot (.ite (inOrder_mediaEvent h) h) inOrder_devWriteAll) inOrder_rcount) inOrder_rcount))
theorem inv_execChnMedia {o : DOp} (h : Inv s) : OnNext Inv (execChnMedia c o s) :=
  inOrder_runCmd (fun _ h1 => inOrder_dIssue (fun _ _ h2 => inOrder_pushArm h2) h1) h

theorem inOrder_acceptFrame {x : Chain} (h : InOrder d) : OnSome InOrder (acceptFrame d c x) := by
  dsimp only [acceptFrame]
  split
  · exact .some (inOrder_frameDone (inOrder_setChainQ h))
  · split
    · exact .none
    · split
      · exact .some (inOrder_frameDone (inOrder_setSess (.upd (inOrder_setChainQ h))))
      · split
        · split
          · split
            · split
              · exact .some (inOrder_frameDone (inOrder_setSess (.upd (inOrder_setChainQ h))))
              · exact .some (inOrder_unitWait (inOrder_setSess (inOrder_setSess (.upd (inOrder_setChainQ h)))))
            · exact .some (inOrder_frameDone (inOrder_setSess (.upd (inOrder_setChainQ h))))
          · split
            · split
              · exact .some (inOrder_frameDone (inOrder_setSess (.upd (inOrder_setChainQ h))))
              · exact .some (inOrder_setSess (inOrder_setSess (.upd (inOrder_setChainQ h))))
            · exact .some (inOrder_frameDone (inOrder_setSess (.upd (inOrder_setChainQ h))))
        · split
          · split
            · split
              · exact .some (inOrder_frameDone (inOrder_setSess (.upd (inOrder_setChainQ h))))
              · exact .some (inOrder_unitWait (inOrder_setSess (inOrder_setSess (.upd (inOrder_setChainQ h)))))
            · exact .some (inOrder_frameDone (inOrder_setSess (.upd (inOrder_setChainQ h))))
          · split
            · split
              · exact .some (inOrder_frameDone (inOrder_setSess (.upd (inOrder_setChainQ h))))
              · exact .some (inOrder_setSess (inOrder_setSess (.upd (inOrder_setChainQ h))))
            · exact .some (inOrder_frameDone (inOrder_setSess (.upd (inOrder_setChainQ h))))

theorem inv_execFrameAccept {pos : Nat} (h : Inv s) : OnNext Inv (execFrameAccept c pos s) := by
  refine inOrder_runCmd (fun _ h1 => inOrder_orNot ?_) h
  split
  · exact .none
  · split
    · exact inOrder_acceptFrame h1
    · exact .none

theorem inOrder_setPipe {die q : Nat} {x : Pipe} (h : InOrder d) : InOrder (setPipe d die q x) := .upd h

theorem inOrder_frameWake {idx : Nat} {x : Frame} (h : InOrder d) : OnSome (fun p => InOrder p.2) (frameWake d idx x) := by
  dsimp only [frameWake]
  split
  · exact inOrder_takeWake h
  · exact .some h

theorem inOrder_readyFrame {idx : Nat} (h : InOrder d) : OnSome (fun p => InOrder p.2.2) (readyFrame d idx) := by
  unfold readyFrame
  split
  · split
    · exact .none
    · exact .map_of (inOrder_frameWake h) fun _ h1 => h1
  · exact .none

theorem inOrder_markLate {idx : Nat} {x : Frame} (h : InOrder d) : InOrder (markLate d idx x) :=
  .ite h (inOrder_mediaEvent (inOrder_modFrame h))

theorem inOrder_startFrame {die q idx : Nat} {x : Frame} (h : InOrder d) : InOrder (startFrame d die q idx x) := by
  refine inOrder_setPipe (.ite (inOrder_markLate (inOrder_modFrame ?_)) (inOrder_modFrame ?_))
  · split
    · rename_i e
      exact inOrder_frameWake h _ e
    · exact h
  · split
    · rename_i e
      exact inOrder_frameWake h _ e
    · exact h

theorem inOrder_noteStages {idx : Nat} {x : Frame} {old new : Coder} (h : InOrder d) : InOrder (noteStages d idx x old new) :=
  .when (.when (.ite (inOrder_mediaEvent h) h) inOrder_mediaEvent) inOrder_rcount

theorem inOrder_enterSkip {idx : Nat} {x : Frame} {p : FramePlan} {stray : Bool} {k : Coder}
    (h : InOrder d) : InOrder (enterSkip d idx x p stray k).1 :=
  inOrder_noteStages h

theorem inOrder_resumeHeld {die q i : Nat} (h : InOrder d) : InOrder (resumeHeld d die q i) := by
  dsimp only [resumeHeld]
  split
  · exact .ite (inOrder_setPipe (inOrder_enterSkip (inOrder_markLate (inOrder_setPipe h)))) (inOrder_setPipe h)
  · exact inOrder_setPipe h

theorem inOrder_pipeSelect {die q : Nat} (h : InOrder d) : OnSome InOrder (pipeSelect d die q) := by
  have late {l : List Nat} : OnSome (fun p : Nat × Frame × Nat × Dev => InOrder p.2.2.2)
      (l.findSome? fun i => (readyFrame d i).bind fun r => if r.2.1 ≠ 0 then some (i, r) else none) := by
    refine .findSome? fun _ => .bind_of (inOrder_readyFrame h) fun _ h1 => ?_
    split
    · exact .some h1
    · exact .none
  dsimp only [pipeSelect]
  split
  · exact .none
  · split
    · rename_i e
      exact .some (inOrder_frameDone (late _ e))
    · split
      · exact .none
      · split
        · exact .some (inOrder_startFrame h)
        · exact .some (.ite (inOrder_startFrame h) (inOrder_resumeHeld h))
        · exact .some (inOrder_resumeHeld h)
        · exact .none

theorem inv_execPipeSelect {die pipe : Nat} (h : Inv s) : OnNext Inv (execPipeSelect die pipe s) :=
  inOrder_runCmd (fun _ h1 => inOrder_orNot (inOrder_pipeSelect h1)) h

theorem inOrder_readRows {rows : List Addr} {n : Nat} (h : InOrder d) : InOrder (readRows d rows n).1 := by
  refine .foldl_fst (fun _ _ h1 => ?_) h
  split
  · exact h1
  · split
    · rename_i e1
      exact .of_fst e1 (inOrder_devReadAll h1)
    · rename_i e1
      exact .of_fst e1 (inOrder_devReadAll h1)

theorem inOrder_freeSamples {n bs : Nat} (h : InOrder d) : InOrder (freeSamples n bs d).2 := by
  dsimp only [freeSamples]
  split
  · exact inOrder_freeBytes h
  · exact inOrder_freeBytes h

theorem inOrder_coded {idx : Nat} {x : Frame} {f : FaultCode} {status : List W64} (h : InOrder d) : InOrder (coded d idx x f status) :=
  inOrder_modFrame h

theorem inOrder_readEach {rows : List Addr} {n : Nat} (h : InOrder d) : InOrder (readEach d rows n).1 := by
  refine .foldl_fst (fun _ _ h1 => ?_) h
  split
  · exact h1
  · split
    · rename_i e
      exact .of_fst e (inOrder_devReadAll h1)
    · rename_i e
      exact .of_fst e (inOrder_devReadAll h1)

theorem inOrder_readPart {s : Sess} {slot : Nat} {chroma : Bool} {x0 y0 : Int} {n m : Nat}
    (h : InOrder d) : InOrder (readPart s slot chroma x0 y0 n m d).1 := by
  dsimp only [readPart]
  split
  · rename_i e
    exact .of_fst e (inOrder_readEach h)
  · rename_i e
    exact .of_fst e (inOrder_readEach h)

theorem inOrder_loadStrip {s : Sess} {w : Window} {x0 : Int} (h : InOrder d) : InOrder (loadStrip s w x0 d).1 := by
  refine .foldl_fst (fun _ _ h1 => ?_) h
  split
  · exact h1
  · split
    · rename_i e
      exact .of_fst e (inOrder_readPart h1)
    · rename_i e
      split
      · exact .of_fst e (inOrder_readPart h1)
      · split
        · rename_i e2
          exact .of_fst e2 (inOrder_readPart (.of_fst e (inOrder_readPart h1)))
        · rename_i e2
          exact .of_fst e2 (inOrder_readPart (.of_fst e (inOrder_readPart h1)))

theorem inOrder_windowGrow {s : Sess} {w : Window} (h : InOrder d) : InOrder (Window.grow s w d).1 := by
  dsimp only [Window.grow]
  split
  · rename_i e
    exact .of_fst e (inOrder_loadStrip h)
  · rename_i e
    exact .of_fst e (inOrder_loadStrip h)

theorem inOrder_windowFill {s : Sess} {n : Nat} {w : Window} (h : InOrder d) : InOrder (Window.fill s n w d).1 := by
  induction n generalizing w d with
  | zero => exact h
  | succ n ih =>
    dsimp only [Window.fill]
    split
    · rename_i e
      exact ih (.of_fst e (inOrder_windowGrow h))
    · rename_i e
      exact InOrder.of_fst e (inOrder_windowGrow h)

theorem inOrder_windowVector {w : Window} {ux uy : Nat} (h : InOrder d) : InOrder (Window.vector w ux uy d).2 :=
  inOrder_freeNext (inOrder_freeNext h)

theorem inOrder_unitMotion {w : Window} {skip two : Bool} {ux uy : Nat} (h : InOrder d) : InOrder (unitMotion w skip two ux uy d).2 := by
  have one {n i : Nat} {v : List Byte × Dev} {e : Dev} (he : InOrder e) (hv : InOrder v.2) :
      InOrder (if i = 0 then ([0, 0, 0, 0, 0], e) else (BitVec.ofNat 8 i :: v.1, v.2)).2 := by
    split
    · exact he
    · exact hv
  unfold unitMotion
  exact inOrder_freeBytes (one (n := 0) (inOrder_freeNext (one (n := 0) (inOrder_freeNext h) (inOrder_windowVector (inOrder_freeNext h))))
    (inOrder_windowVector (inOrder_freeNext (one (n := 0) (inOrder_freeNext h) (inOrder_windowVector (inOrder_freeNext h))))))

theorem inOrder_codeBlock {s : Sess} {p : FramePlan} {slot row col : Nat} {r : Coder × Dev}
    (h : InOrder r.2) : InOrder (codeBlock s p slot row col r).2 := by
  dsimp only [codeBlock]
  split
  · exact inOrder_freeNext (inOrder_freeNext h)
  · refine .foldl_snd (fun _ _ h1 => ?_) (inOrder_freeNext (inOrder_freeNext h))
    split
    · rename_i e1
      refine .of_fst e1 (inOrder_devWriteAll (inOrder_unitMotion ?_))
      exact h1
    · rename_i e1
      refine .of_fst e1 (inOrder_devWriteAll (inOrder_unitMotion ?_))
      exact h1

theorem inOrder_slideTo {s : Sess} {col : Nat} {r : Coder × Dev} (h : InOrder r.2) : InOrder (slideTo s col r).2 := by
  dsimp only [slideTo]
  split
  · split
    · exact h
    · split
      · rename_i e2
        exact .of_fst e2 (inOrder_windowGrow h)
      · rename_i e2
        exact .of_fst e2 (inOrder_windowGrow h)
  · exact h

theorem inOrder_startRow {s : Sess} {p : FramePlan} {row : Nat} {r : Coder × Dev} (h : InOrder r.2) : InOrder (startRow s p row r).2 := by
  dsimp only [startRow]
  split
  · rename_i e
    refine .of_fst e ?_
    split
    · exact h
    · split
      · rename_i e2
        exact .of_fst e2 (inOrder_windowFill h)
      · rename_i e2
        exact .of_fst e2 (inOrder_windowFill h)
  · rename_i e
    refine .of_fst e ?_
    split
    · exact h
    · split
      · rename_i e2
        exact .of_fst e2 (inOrder_windowFill h)
      · rename_i e2
        exact .of_fst e2 (inOrder_windowFill h)

theorem inOrder_codeStep {s : Sess} {p : FramePlan} {slot : Nat} {r : Coder × Dev} (h : InOrder r.2) : InOrder (codeStep s p slot r).2 := by
  dsimp only [codeStep]
  split
  · exact h
  · split
    · split
      · exact inOrder_startRow h
      · split
        · exact inOrder_slideTo (inOrder_startRow h)
        · exact inOrder_codeBlock (inOrder_slideTo (inOrder_startRow h))
    · split
      · exact inOrder_slideTo h
      · exact inOrder_codeBlock (inOrder_slideTo h)

theorem inOrder_freeRows {s : Sess} {n : Nat} (h : InOrder d) : InOrder (freeRows s n d).2 := by
  induction n generalizing d with
  | zero => exact h
  | succ n ih => exact ih (inOrder_freeNext h)

theorem inOrder_framePlan {s : Sess} {x : Frame} (h : InOrder d) : InOrder (framePlan s x d).2 := by
  dsimp only [framePlan]
  split
  · split
    · exact inOrder_freeNext h
    · exact inOrder_freeNext h
  · split
    · split
      · exact inOrder_freeNext h
      · exact inOrder_freeRows (inOrder_freeNext h)
    · split
      · exact inOrder_freeNext h
      · exact inOrder_freeRows (inOrder_freeNext h)

theorem inOrder_frameBytes {s : Sess} {x : Frame} {p : FramePlan} {used lead : Nat} (h : InOrder d) : InOrder (frameBytes s x p used lead d).2.2 :=
  inOrder_freeNext (inOrder_freeNext h)

theorem inOrder_writeSlot {s : Sess} {key : Bool} (h : InOrder d) : InOrder (writeSlot s key d).1 := by
  dsimp only [writeSlot]
  split
  · rename_i e
    exact .of_fst e (inOrder_devWriteAll (inOrder_freeBytes h))
  · rename_i e
    split
    · exact .of_fst e (inOrder_devWriteAll (inOrder_freeBytes h))
    · split
      · rename_i e2
        exact .of_fst e2 (inOrder_devWriteAll (.of_fst e (inOrder_devWriteAll (inOrder_freeBytes h))))
      · rename_i e2
        exact .of_fst e2 (inOrder_devWriteAll (.of_fst e (inOrder_devWriteAll (inOrder_freeBytes h))))

theorem inOrder_encodeFault {idx : Nat} {x : Frame} {p : FramePlan} {k : Coder} {f : FaultCode}
    (h : InOrder d) : InOrder (encodeFault d idx x p k f) :=
  inOrder_coded (inOrder_setSess h)

theorem inOrder_encodeDone {idx : Nat} {x : Frame} {p : FramePlan} {k : Coder} {n filler : Nat}
    (h : InOrder d) : InOrder (encodeDone d idx x p k n filler) :=
  inOrder_coded (inOrder_setSess h)

theorem inOrder_encodeEnd {idx : Nat} {x : Frame} {p : FramePlan} {stray : Bool} {k : Coder}
    (h : InOrder d) : InOrder (encodeEnd d idx x p stray k) := by
  refine .ite (inOrder_encodeFault h) (.ite (inOrder_encodeFault h) ?_)
  dsimp only
  split
  · rename_i e
    exact inOrder_encodeFault (.of_fst e (inOrder_devWriteAll (inOrder_freeBytes (inOrder_frameBytes (inOrder_freeNext h)))))
  · rename_i e
    split
    · rename_i e1
      exact inOrder_encodeDone (.of_fst e1 (inOrder_writeSlot
        (.of_fst e (inOrder_devWriteAll (inOrder_freeBytes (inOrder_frameBytes (inOrder_freeNext h)))))))
    · rename_i e12
      exact inOrder_encodeFault (.of_fst e12 (inOrder_writeSlot
        (.of_fst e (inOrder_devWriteAll (inOrder_freeBytes (inOrder_frameBytes (inOrder_freeNext h)))))))

theorem inOrder_encodeBegin {idx : Nat} {x : Frame} (h : InOrder d) : InOrder (encodeBegin d idx x).1 :=
  inOrder_readRows (inOrder_noteStages (inOrder_freeNext (inOrder_framePlan h)))

theorem inOrder_concealed {s : Sess} {chroma : Bool} {y col n : Nat} (h : InOrder d) : InOrder (concealed d s chroma y col n).1 := by
  dsimp only [concealed]
  split
  · exact h
  · split
    · rename_i e1
      exact .of_fst e1 (inOrder_devReadAll h)
    · rename_i e1
      exact .of_fst e1 (inOrder_devReadAll h)

theorem inOrder_decodeRow {s : Sess} {chroma grain : Bool} {w y : Nat} {blocks : List (Bool × Nat)}
    (h : InOrder d) : InOrder (decodeRow d s chroma grain w y blocks).1 := by
  refine .foldl_fst (fun _ _ h1 => ?_) h
  split
  · exact h1
  · dsimp only
    split
    · exact inOrder_concealed h1
    · split
      · exact inOrder_freeSamples (inOrder_freeSamples h1)
      · exact inOrder_freeSamples h1

theorem inOrder_writeIf {r : Dev × FaultCode} {a : Addr} {b : List Byte} (h : InOrder r.1) : InOrder (writeIf r a b).1 := by
  dsimp only [writeIf]
  split
  · exact h
  · split
    · rename_i e1
      exact .of_fst e1 (inOrder_devWriteAll h)
    · rename_i e1
      exact .of_fst e1 (inOrder_devWriteAll h)

theorem inOrder_decodeUnit {s : Sess} {x : Frame} {u : AccessUnit} {hide : List Bool} {i : Nat} {chroma : Bool} {r : Dev × FaultCode}
    (h : InOrder r.1) : InOrder (decodeUnit s x u hide i chroma r).1 := by
  refine .foldl_fst (fun _ _ h1 => ?_) h
  split
  · exact h1
  · exact inOrder_writeIf (inOrder_writeIf (inOrder_decodeRow h1))

theorem inOrder_decodeStep {s : Sess} {x : Frame} {u : AccessUnit} {hide : List Bool} {r : Dev × FaultCode} {i : Nat}
    (h : InOrder r.1) : InOrder (decodeStep s x u hide r i).1 := by
  dsimp only [decodeStep]
  split
  · exact inOrder_decodeUnit h
  · exact inOrder_decodeUnit (inOrder_decodeUnit h)

theorem inOrder_drawHidden {all : Bool} {k : Option Nat} {n : Nat} (h : InOrder d) : InOrder (drawHidden all k n d).2 := by
  induction n with
  | zero => exact h
  | succ n ih => exact inOrder_freeNext ih

theorem inOrder_drawUnit {s : Sess} {x : Frame} (h : InOrder d) : InOrder (drawUnit s x d).2 :=
  inOrder_freeNext (inOrder_freeNext (inOrder_freeNext (inOrder_freeNext
    (inOrder_freeNext (inOrder_freeNext (inOrder_freeNext (inOrder_freeNext (inOrder_freeNext (inOrder_freeNext (inOrder_freeNext h))))))))))

theorem inOrder_decodeBegin {idx : Nat} {x : Frame} (h : InOrder d) : InOrder (decodeBegin d idx x).1 := by
  dsimp only [decodeBegin]
  split
  · exact inOrder_coded (inOrder_readRows h)
  · split
    · exact inOrder_coded (inOrder_drawUnit (inOrder_readRows h))
    · exact inOrder_drawHidden (inOrder_freeNext (inOrder_drawUnit (inOrder_readRows h)))

theorem inOrder_decodeEnd {idx : Nat} {x : Frame} {v : AccessUnit} {hide : List Bool} (h : InOrder d) : InOrder (decodeEnd d idx x v hide) := by
  dsimp only [decodeEnd]
  split
  · rename_i e
    exact inOrder_coded (inOrder_setSess (.of_fst e (inOrder_writeIf (inOrder_freeBytes h))))
  · rename_i e2
    exact inOrder_coded (.of_fst e2 (inOrder_writeIf (inOrder_freeBytes h)))

theorem inOrder_mediaBegin {idx : Nat} {x : Frame} (h : InOrder d) : InOrder (mediaBegin d idx x).1 := by
  dsimp only [mediaBegin]
  split
  · exact inOrder_decodeBegin h
  · split
    · exact inOrder_encodeEnd (inOrder_encodeBegin h)
    · exact inOrder_encodeBegin h

theorem inOrder_mediaAdvance {idx : Nat} {x : Frame} {w : MediaWork} {n : Nat} (h : InOrder d) : InOrder (mediaAdvance d idx x w n).1 := by
  dsimp only [mediaAdvance]
  split
  · split
    · exact inOrder_encodeEnd (inOrder_noteStages (.foldl_snd (fun _ _ h1 => inOrder_codeStep h1) h))
    · exact inOrder_noteStages (.foldl_snd (fun _ _ h1 => inOrder_codeStep h1) h)
  · split
    · exact inOrder_coded (.foldl_fst (fun _ _ h1 => inOrder_decodeStep h1) h)
    · split
      · exact inOrder_decodeEnd (.foldl_fst (fun _ _ h1 => inOrder_decodeStep h1) h)
      · exact .foldl_fst (fun _ _ h1 => inOrder_decodeStep h1) h

theorem inOrder_mediaWork {idx : Nat} {x : Frame} {w : Option MediaWork} (h : InOrder d) : InOrder (mediaWork d idx x w).1 := by
  dsimp only [mediaWork]
  split
  · rename_i e
    split
    · refine inOrder_enterSkip (.of_fst e ?_)
      split
      · exact h
      · exact inOrder_mediaBegin h
    · split
      · split
        · rename_i e3
          refine inOrder_enterSkip (.of_fst e3 (inOrder_mediaAdvance (inOrder_freeNext (inOrder_markLate (.of_fst e ?_)))))
          split
          · exact h
          · exact inOrder_mediaBegin h
        · refine inOrder_mediaAdvance (inOrder_freeNext (inOrder_markLate (.of_fst e ?_)))
          split
          · exact h
          · exact inOrder_mediaBegin h
      · refine .of_fst e ?_
        split
        · exact h
        · exact inOrder_mediaBegin h
  · split
    · exact h
    · exact inOrder_mediaBegin h

theorem inOrder_frameGo {die q idx : Nat} {x : Frame} (h : InOrder d) : InOrder (frameGo d die q idx x) := by
  refine inOrder_setPipe ?_
  split
  · exact inOrder_mediaAdvance (inOrder_mediaWork h)
  · exact inOrder_mediaWork h

theorem inv_execMediaFrame {die pipe : Nat} (h : Inv s) : OnNext Inv (execMediaFrame die pipe s) := by
  refine inOrder_runCmd (fun _ h1 => inOrder_orNot ?_) h
  split
  · exact .none
  · split
    · split
      · exact .none
      · exact .some (inOrder_frameGo h1)
    · exact .none

theorem inOrder_preemptFrame {die q idx : Nat} {x : Frame} (h : InOrder d) : InOrder (preemptFrame d die q idx x) := by
  refine .ite (inOrder_setPipe ?_) (inOrder_mediaEvent (inOrder_rcount (inOrder_setPipe ?_)))
  · split
    · exact h
    · split
      · exact inOrder_mediaAdvance (inOrder_freeNext (inOrder_mediaWork h))
      · exact inOrder_mediaWork h
  · split
    · exact h
    · split
      · exact inOrder_mediaAdvance (inOrder_freeNext (inOrder_mediaWork h))
      · exact inOrder_mediaWork h

theorem inv_execMediaPreemption {die pipe : Nat} (h : Inv s) : OnNext Inv (execMediaPreemption die pipe s) := by
  refine inOrder_runCmd (fun _ h1 => inOrder_orNot ?_) h
  split
  · split
    · split
      · exact .some (inOrder_preemptFrame h1)
      · exact .none
    · exact .none
  · exact .none

theorem inv_execFrameComplete {die pipe : Nat} (h : Inv s) : OnNext Inv (execFrameComplete die pipe s) := by
  refine inOrder_runCmd (fun _ h1 => inOrder_orNot ?_) h
  split
  · exact .none
  · split
    · split
      · exact .none
      · exact .some (inOrder_rcount (inOrder_frameDone (inOrder_setPipe h1)))
    · exact .none

theorem inv_execMediaEnd {die sess : Nat} (h : Inv s) : OnNext Inv (execMediaEnd die sess s) := by
  refine inOrder_runCmd (fun _ h1 => inOrder_orNot ?_) h
  split
  · rename_i e
    split
    · exact .some (inOrder_frameDone (inOrder_setSess (inOrder_readyFrame h1 _ e)))
    · exact .none
  · rename_i e2
    split
    · exact .some (inOrder_frameDone (inOrder_readyFrame h1 _ e2))
    · exact .none
  · exact .none

theorem inOrder_lateFrame {idx : Nat} {y : Frame} (h : InOrder d) : InOrder (lateFrame d idx y) := by
  refine .ite ?_ (inOrder_markLate h)
  split
  · exact inOrder_markLate (inOrder_setPipe (inOrder_mediaWork h))
  · exact inOrder_setPipe (inOrder_mediaWork h)

theorem inv_execDeadlinePass {die sess frame : Nat} (h : Inv s) : OnNext Inv (execDeadlinePass die sess frame s) := by
  refine inOrder_runCmd (fun _ h1 => inOrder_orNot ?_) h
  split
  · exact .none
  · split
    · exact .none
    · split
      · exact .some (inOrder_frameDone (inOrder_mediaEvent (inOrder_cancelWaits h1)))
      · exact .some (inOrder_lateFrame h1)

theorem inOrder_stopWork {idx : Nat} {w : Option MediaWork} {f : FaultCode} (h : InOrder d) : InOrder (stopWork d idx w f) := by
  dsimp only [stopWork]
  split
  · exact .ite h (inOrder_encodeFault h)
  · exact h

theorem inOrder_endFrame {f : FaultCode} {idx : Nat} {num : Nat} (h : InOrder d) : InOrder (endFrame f idx d num) := by
  dsimp only [endFrame]
  split
  · exact inOrder_frameDone (inOrder_cancelWaits h)
  · exact h

theorem inOrder_closeSess {idx : Nat} (h : InOrder d) : InOrder (closeSess d idx) :=
  .foldl (fun _ _ h1 => inOrder_endFrame h1) (.ite (inOrder_stopWork (inOrder_setPipe (inOrder_setSess h))) (inOrder_setSess h))

theorem inOrder_pipeHalt {die q : Nat} (h : InOrder d) : InOrder (pipeHalt d die q) := by
  dsimp only [pipeHalt]
  split
  · refine inOrder_stopWork ?_
    split
    · exact inOrder_stopWork (inOrder_setPipe h)
    · exact inOrder_setPipe h
  · split
    · exact inOrder_stopWork (inOrder_setPipe h)
    · exact inOrder_setPipe h

theorem inOrder_mediaHalt {die : Nat} (h : InOrder d) : InOrder (mediaHalt d die) :=
  .foldl (fun _ _ h1 => .foldl (fun _ _ h2 => inOrder_endFrame h2) h1) (inOrder_pipeHalt (inOrder_pipeHalt h))

/-! ### Halt -/

theorem inOrder_setHalted {die : Nat} (h : InOrder d) : InOrder (setHalted d die) := inOrder_setRing h

theorem inOrder_haltWork {die : Nat} (h : InOrder d) : InOrder (haltWork d die) := by
  unfold haltWork
  exact inOrder_alertEdge (inOrder_mediaHalt (.foldl (fun _ _ h1 => .ite h1 (inOrder_portDown h1)) (.foldl (fun _ _ h1 => inOrder_fenceCore h1) h)))

theorem inOrder_haltDie {die : Nat} (h : InOrder d) : InOrder (haltDie d die) :=
  .ite h (inOrder_haltWork (inOrder_setHalted h))
theorem inOrder_logFatal {die src kind : Nat} {detail : List Nat} (h : InOrder d) : InOrder (logFatal d die src kind detail) :=
  .whenNot (inOrder_logErr (inOrder_setHalted h)) inOrder_haltWork
theorem inv_execHaltArrival {die : Nat} (h : Inv s) : OnNext Inv (execHaltArrival die s) :=
  inOrder_runCmd (fun _ h1 => inOrder_whenOn (inOrder_haltDie h1)) h
theorem inv_execHaltOnSilence {die : Nat} (h : Inv s) : OnNext Inv (execHaltOnSilence die s) :=
  inOrder_runCmd (fun _ h1 => inOrder_whenOn (inOrder_haltDie h1)) h
theorem inOrder_stateLost {struct index : Nat} (h : InOrder d) : InOrder (stateLost d c struct index) :=
  inOrder_fenceCore (inOrder_logErr h)

theorem inv_execOndieScrub {die : Nat} {w : ScrubHit} (h : Inv s) : OnNext Inv (execOndieScrub die w s) := by
  refine inOrder_runCmd (fun _ h1 => ?_) h
  split
  · exact .next h1
  · exact inOrder_whenOn (inOrder_rcount h1)
  · exact inOrder_whenOn h1
  · exact inOrder_orNot (inOrder_sliceWord h1)
  · exact inOrder_whenOn (inOrder_poisonStore h1)
  · exact inOrder_whenOn (inOrder_stateLost h1)
  · exact inOrder_whenOn (inOrder_logFatal h1)

theorem inv_execErrAckIndex {die e : Nat} (h : Inv s) : OnNext Inv (execErrAckIndex die e s) :=
  inOrder_runCmd (fun _ h1 => .next (.ite (inOrder_ackEntry h1) h1)) h
theorem inv_execErrAckAll {die : Nat} (h : Inv s) : OnNext Inv (execErrAckAll die s) :=
  inOrder_runCmd (fun _ h1 => .next (.foldl (fun _ _ h2 => .ite (inOrder_ackEntry h2) h2) h1)) h
theorem inOrder_fenceGroup {g reason : Nat} (h : InOrder d) : InOrder (fenceGroup d c g reason) :=
  .ite h (.ite (inOrder_fenceCore h) (inOrder_modCore (inOrder_logErr h)))
theorem inOrder_groupPoisoned {g slot : Nat} (h : InOrder d) : InOrder (groupPoisoned d c g slot) :=
  inOrder_fenceGroup (.ite (inOrder_crewFault (inOrder_logErr h)) (inOrder_logErr h))

theorem inv_execLaneGroupFence {g reason slot : Nat} (h : Inv s) : OnNext Inv (execLaneGroupFence c g reason slot s) :=
  inOrder_runCmd (fun _ h1 => .next (.ite (inOrder_groupPoisoned h1)
    (.ite (inOrder_fenceGroup h1) (.ite (inOrder_fenceGroup (inOrder_modCore h1)) (inOrder_modCore h1))))) h

theorem inv_execLaneCeWindowEnd (h : Inv s) : OnNext Inv (execLaneCeWindowEnd c s) :=
  inOrder_runOk (fun _ h1 => inOrder_whenOn (inOrder_modCore h1)) h

theorem inOrder_selfTest {fail : SelfTest} (h : InOrder d) : InOrder (selfTest d c fail).1 := by
  dsimp only [selfTest]
  split
  · exact inOrder_logErr (inOrder_modCore (inOrder_modCore (inOrder_modCore h)))
  · split
    · exact inOrder_logErr (inOrder_modCore (inOrder_modCore h))
    · exact inOrder_modCore (.foldl (fun _ _ h1 => .ite (inOrder_logErr h1) h1) (inOrder_modCore h))

theorem inOrder_clearCore (h : InOrder d) : InOrder (clearCore d c) := by
  refine inOrder_memClear (inOrder_rset (inOrder_modCore (.foldl (fun _ _ h1 => inOrder_closeSlot h1) ?_)))
  split
  · exact inOrder_partEnds (.foldl (fun _ _ h1 => inOrder_popChain h1) (inOrder_abandonWaits (inOrder_dropHeld h)))
  · exact .foldl (fun _ _ h1 => inOrder_popChain h1) (inOrder_abandonWaits (inOrder_dropHeld h))

theorem inv_execErrCoreRst {die : Nat} {core : BitVec 8} (h : Inv s) : OnNext Inv (execErrCoreRst die core s) :=
  inOrder_runCmd (fun _ h1 => .next (.ite (inOrder_logIgnoredAt h1) (inOrder_rset (inOrder_rset (inOrder_clearCore h1))))) h
theorem inv_execCoreResetDone {die : Nat} {fail : SelfTest} (h : Inv s) : OnNext Inv (execCoreResetDone die fail s) :=
  inOrder_runCmd (fun _ h1 => inOrder_whenOn (.whenNot (inOrder_rset (inOrder_rset h1)) inOrder_selfTest)) h

/-! ### Mgmt -/

theorem inOrder_setBoot {die : Nat} {x : Boot} (h : InOrder d) : InOrder (setBoot d die x) := .upd h
theorem inOrder_reqEnds {f : FaultCode} (h : InOrder d) : InOrder (reqEnds d f) :=
  inOrder_rset (inOrder_rset h)

theorem inv_execAbwReqAttest {addr : BitVec 52} (h : Inv s) : OnNext Inv (execAbwReqAttest addr s) := by
  refine inOrder_runCmd (fun _ h1 => .next (.ite (inOrder_reqEnds h1) (.ite (inOrder_reqEnds h1) (.ite (inOrder_reqEnds h1) ?_)))) h
  split
  · rename_i e
    exact inOrder_reqEnds (.of_fst e (inOrder_devReadAll h1))
  · rename_i e
    exact inOrder_rset (inOrder_rset (.upd (.of_fst e (inOrder_devReadAll h1))))

theorem inv_execAbwReqExtend {addr : BitVec 52} {slot : BitVec 3} (h : Inv s) : OnNext Inv (execAbwReqExtend addr slot s) := by
  refine inOrder_runCmd (fun _ h1 => .next (.ite (inOrder_reqEnds h1) (.ite (inOrder_reqEnds h1) (.ite (inOrder_reqEnds h1) ?_)))) h
  split
  · rename_i e
    exact inOrder_reqEnds (.of_fst e (inOrder_devReadAll h1))
  · rename_i e
    exact inOrder_reqEnds (inOrder_extendMeas (.of_fst e (inOrder_devReadAll h1)))

theorem inv_execReportSigned (h : Inv s) : OnNext Inv (execReportSigned s) := by
  refine inOrder_runCmd (fun _ h1 => inOrder_orNot (.map fun _ => ?_)) h
  dsimp only
  split
  · exact .upd (inOrder_freeBytes h1)
  · exact inOrder_rset (inOrder_reqEnds (inOrder_devWriteAll (.upd (inOrder_freeBytes h1))))

theorem inOrder_answer {status : Nat} {data : List Byte} (h : InOrder d) : InOrder (answer d status data) :=
  .upd h
theorem inOrder_legacyFirst (h : InOrder d) : InOrder (legacyFirst d) := .ite (.upd h) h

theorem inOrder_mgmtCmd {row : String} {ready : Bool} {f : Dev → Dev} (hf : ∀ e, InOrder e → InOrder (f e)) (h : InOrder d) :
    OnNext InOrder (mgmtCmd row ready f d) :=
  inOrder_whenOn (.ite (inOrder_answer (inOrder_legacyFirst h)) (hf _ (inOrder_legacyFirst h)))

theorem inv_execGetIdent (h : Inv s) : OnNext Inv (execGetIdent s) :=
  inOrder_runCmd (fun _ h1 => inOrder_mgmtCmd (fun _ h2 => inOrder_answer h2) h1) h
theorem inv_execGetTelemetry (h : Inv s) : OnNext Inv (execGetTelemetry s) :=
  inOrder_runCmd (fun _ h1 => inOrder_mgmtCmd (fun _ h2 => inOrder_answer h2) h1) h
theorem inv_execGetErrors (h : Inv s) : OnNext Inv (execGetErrors s) :=
  inOrder_runCmd (fun _ h1 => inOrder_mgmtCmd (fun _ h2 => inOrder_answer h2) h1) h
theorem inv_execAttest {nonce : BitVec 256} (h : Inv s) : OnNext Inv (execAttest nonce s) :=
  inOrder_runCmd (fun _ h1 => inOrder_mgmtCmd (fun _ h2 => .ite (inOrder_answer h2) (inOrder_answer (.upd h2))) h1) h
theorem inv_execReadReport {off : BitVec 32} {len : BitVec 8} (h : Inv s) : OnNext Inv (execReadReport off len s) :=
  inOrder_runCmd (fun _ h1 => inOrder_mgmtCmd (fun _ h2 => .ite (inOrder_answer h2) (.ite (inOrder_answer h2) (inOrder_answer h2))) h1) h
theorem inv_execExtend {slot : BitVec 8} {x : BitVec 256} (h : Inv s) : OnNext Inv (execExtend slot x s) :=
  inOrder_runCmd (fun _ h1 => inOrder_mgmtCmd (fun _ h2 => .ite (inOrder_answer h2) (inOrder_answer (inOrder_extendMeas h2))) h1) h
theorem inOrder_pendLive {n : RegName} {die i j hi lo v : Nat} (h : InOrder d) : InOrder (pendLive d n die i j hi lo v) :=
  .upd h

theorem inv_execSetLimit {w : BitVec 16} (h : Inv s) : OnNext Inv (execSetLimit w s) :=
  inOrder_runCmd (fun _ h1 => inOrder_mgmtCmd (fun _ h2 => .ite (inOrder_answer (inOrder_pendLive h2)) (inOrder_answer (inOrder_logIgnoredAt h2))) h1)
    h

theorem inv_execGetChallenge (h : Inv s) : OnNext Inv (execGetChallenge s) :=
  inOrder_runCmd (fun _ h1 => inOrder_mgmtCmd (fun _ h2 => inOrder_answer (.upd (inOrder_freeBytes h2))) h1) h
theorem inv_execUnlockData {off : BitVec 16} {bytes : List (BitVec 8)} (h : Inv s) : OnNext Inv (execUnlockData off bytes s) :=
  inOrder_runCmd (fun _ h1 => inOrder_mgmtCmd (fun _ h2 => .ite (inOrder_answer h2) (inOrder_answer (.upd h2))) h1) h
theorem inOrder_m2Record {type v : Nat} (h : InOrder d) : InOrder (m2Record d type v) := inOrder_extendMeas h
theorem inOrder_allDies {f : Dev → Nat → Dev} (h : InOrder d) (hf : ∀ e x, InOrder e → InOrder (f e x)) : InOrder (allDies d f) :=
  .foldl (fun _ _ h1 => hf _ _ h1) h

theorem inv_execUnlockGo (h : Inv s) : OnNext Inv (execUnlockGo s) :=
  inOrder_runCmd (fun _ h1 => inOrder_mgmtCmd (fun _ h2 => .ite (inOrder_answer (.upd h2))
    (.ite (inOrder_answer (inOrder_m2Record (inOrder_allDies (.upd h2) (fun _ _ h3 => inOrder_rset h3)))) (inOrder_answer (.upd h2)))) h1) h

theorem inv_execSvnCommit {v : BitVec 16} (h : Inv s) : OnNext Inv (execSvnCommit v s) :=
  inOrder_runCmd (fun _ h1 => inOrder_mgmtCmd (fun _ h2 => .ite (inOrder_answer h2)
    (inOrder_answer (inOrder_m2Record (inOrder_allDies (.upd h2) (fun _ _ h3 => inOrder_rset h3))))) h1) h

theorem inv_execCubeInject {u : Nat} {again : Bool} (h : Inv s) : OnNext Inv (execCubeInject c u again s) :=
  inOrder_runCmd (fun _ h1 => .next (.ite (inOrder_modCube h1) (inOrder_logIgnoredAt h1))) h
theorem inOrder_cccCmd {row : String} {f : Dev → Dev} (hf : ∀ e, InOrder e → InOrder (f e)) (h : InOrder d) : OnNext InOrder (cccCmd row f d) :=
  inOrder_whenOn (hf _ (.upd h))

theorem inOrder_cccGet {row : String} {f : Dev → List Byte × Dev} (hf : ∀ e, InOrder e → InOrder (f e).2) (h : InOrder d) :
    OnNext InOrder (cccGet row f d) :=
  inOrder_cccCmd (fun _ h1 => .ite h1 (inOrder_answer (hf _ h1))) h

theorem inv_execEnec {events : BitVec 8} (h : Inv s) : OnNext Inv (execEnec events s) :=
  inOrder_runCmd (fun _ h1 => inOrder_cccCmd (fun _ h2 => .ite (.upd h2) h2) h1) h
theorem inv_execDisec {events : BitVec 8} (h : Inv s) : OnNext Inv (execDisec events s) :=
  inOrder_runCmd (fun _ h1 => inOrder_cccCmd (fun _ h2 => .ite (.upd h2) h2) h1) h
theorem inv_execRstdaa (h : Inv s) : OnNext Inv (execRstdaa s) :=
  inOrder_runCmd (fun _ h1 => inOrder_cccCmd (fun _ h2 => .upd h2) h1) h
theorem inv_execEntdaa {addr : BitVec 7} (h : Inv s) : OnNext Inv (execEntdaa addr s) :=
  inOrder_runCmd (fun _ h1 => inOrder_cccCmd (fun _ h2 => .ite (.upd h2) h2) h1) h
theorem inv_execSetdasa {static addr : BitVec 7} (h : Inv s) : OnNext Inv (execSetdasa static addr s) :=
  inOrder_runCmd (fun _ h1 => inOrder_cccCmd (fun _ h2 => .ite (.upd h2) h2) h1) h
theorem inv_execGetpid (h : Inv s) : OnNext Inv (execGetpid s) :=
  inOrder_runCmd (fun _ h1 => inOrder_cccGet (fun _ h2 => h2) h1) h
theorem inv_execGetbcr (h : Inv s) : OnNext Inv (execGetbcr s) :=
  inOrder_runCmd (fun _ h1 => inOrder_cccGet (fun _ h2 => h2) h1) h
theorem inv_execGetdcr (h : Inv s) : OnNext Inv (execGetdcr s) :=
  inOrder_runCmd (fun _ h1 => inOrder_cccGet (fun _ h2 => h2) h1) h
theorem inv_execGetstatus (h : Inv s) : OnNext Inv (execGetstatus s) :=
  inOrder_runCmd (fun _ h1 => inOrder_cccGet (fun _ h2 => inOrder_freeBytes h2) h1) h
theorem inv_execGetmwl (h : Inv s) : OnNext Inv (execGetmwl s) :=
  inOrder_runCmd (fun _ h1 => inOrder_cccGet (fun _ h2 => h2) h1) h
theorem inv_execGetmrl (h : Inv s) : OnNext Inv (execGetmrl s) :=
  inOrder_runCmd (fun _ h1 => inOrder_cccGet (fun _ h2 => h2) h1) h
theorem inv_execSetmwl {v : BitVec 16} (h : Inv s) : OnNext Inv (execSetmwl v s) :=
  inOrder_runCmd (fun _ h1 => inOrder_cccCmd (fun _ h2 => .upd h2) h1) h
theorem inv_execSetmrl {v : BitVec 16} (h : Inv s) : OnNext Inv (execSetmrl v s) :=
  inOrder_runCmd (fun _ h1 => inOrder_cccCmd (fun _ h2 => .upd h2) h1) h
theorem inv_execSmbusModeEntry (h : Inv s) : OnNext Inv (execSmbusModeEntry s) :=
  inOrder_runCmd (fun _ h1 => inOrder_whenOn (.upd h1)) h
theorem inOrder_stationEvent {die kind pay : Nat} (h : InOrder d) : InOrder (stationEvent d die kind pay) :=
  inOrder_raiseEvent h
theorem inOrder_capCubes {cap : Nat} (h : InOrder d) : InOrder (capCubes d cap) := inOrder_mapCores h

theorem inv_execPowerCapCompare {watts : BitVec 16} (h : Inv s) : OnNext Inv (execPowerCapCompare watts s) :=
  inOrder_runOk (fun _ h1 => inOrder_whenOn (.whenNot (.upd (inOrder_capCubes (inOrder_rset (.when (inOrder_rset (inOrder_rset h1)) inOrder_rcount))))
    inOrder_stationEvent)) h

theorem inOrder_junctionPeak {die : Nat} {t : BitVec 8} (h : InOrder d) : InOrder (junctionPeak d die t) :=
  .ite (inOrder_rset h) h
theorem inv_execTempRefresh {die : Nat} {hot : BitVec 8} (h : Inv s) : OnNext Inv (execTempRefresh die hot s) :=
  inOrder_runOk (fun _ h1 => inOrder_whenOn (.whenNot (inOrder_junctionPeak (inOrder_rset h1)) inOrder_stationEvent)) h
theorem inv_execEnvelopeClustersWrite {v : BitVec 4} (h : Inv s) : OnNext Inv (execEnvelopeClustersWrite v s) :=
  inOrder_runOk (fun _ h1 => .next (.ite (inOrder_logIgnoredAt h1) (inOrder_rset h1))) h
theorem inv_execStationFault {die : Nat} {code : BitVec 8} (h : Inv s) : OnNext Inv (execStationFault die code s) :=
  inOrder_runOk (fun _ h1 => .next (inOrder_logFatal (inOrder_rset (inOrder_rset h1)))) h

/-! ### Admin -/

theorem inOrder_adminEnd {f : FaultCode} {w : BitVec 32} (h : InOrder d) : InOrder (adminEnd d f w) := .upd h

theorem inOrder_paramBlock (h : InOrder d) : InOrder (paramBlock d).1 := by
  dsimp only [paramBlock]
  split
  · exact h
  · split
    · rename_i e1
      exact .of_fst e1 (inOrder_devReadAll h)
    · rename_i e1
      exact .of_fst e1 (inOrder_devReadAll h)

theorem inOrder_openChan {ch : Nat} {ws : List W64} (h : InOrder d) : InOrder (openChan d ch ws).1 := by
  dsimp only [openChan]
  split
  · exact h
  · split
    · exact h
    · split
      · exact h
      · split
        · rename_i e3
          refine .of_fst e3 ?_
          split
          · exact h
          · split
            · rename_i e5
              exact .of_fst e5 (inOrder_loadImage h)
            · rename_i e5
              exact .of_fst e5 (inOrder_loadImage h)
        · rename_i e3
          refine inOrder_modParcel (inOrder_rset (inOrder_setChan (.of_fst e3 ?_)))
          split
          · exact h
          · split
            · rename_i e5
              exact .of_fst e5 (inOrder_loadImage h)
            · rename_i e5
              exact .of_fst e5 (inOrder_loadImage h)

theorem inOrder_closeChan {ch : Nat} (h : InOrder d) : InOrder (closeChan d ch) :=
  inOrder_pump (inOrder_modChan (.foldl (fun _ _ h1 => inOrder_cancelWaits h1) h))
theorem inOrder_freeChan {ch : Nat} (h : InOrder d) : InOrder (freeChan d ch) :=
  .ite (inOrder_setChan (.upd h)) (inOrder_modParcel (inOrder_setChan (.upd h)))
theorem inOrder_closeStream {idx : Nat} (h : InOrder d) : InOrder (closeStream d idx) :=
  .foldl (fun _ _ h1 => inOrder_popChain h1) (inOrder_modCore h)
theorem inOrder_openMedia {idx : Nat} {ws : List W64} (h : InOrder d) : InOrder (openMedia d idx ws).1 :=
  .ite (inOrder_openSess h) h

theorem inOrder_memberList {x : Group} (h : InOrder d) : InOrder (memberList d x).1 := by
  dsimp only [memberList]
  split
  · rename_i e
    exact .of_fst e (inOrder_devReadAll h)
  · rename_i e
    exact .of_fst e (inOrder_devReadAll h)

theorem inOrder_openGroup {g : Nat} {ws : List W64} (h : InOrder d) : InOrder (openGroup d g ws).1 := by
  dsimp only [openGroup]
  split
  · exact h
  · split
    · rename_i e1
      exact .of_fst e1 (inOrder_memberList h)
    · rename_i e1
      split
      · exact .of_fst e1 (inOrder_memberList h)
      · split
        · exact .of_fst e1 (inOrder_memberList h)
        · split
          · exact .of_fst e1 (inOrder_memberList h)
          · exact inOrder_setGroup (.of_fst e1 (inOrder_memberList h))

theorem inOrder_dropInbound {g : Nat} (h : InOrder d) : InOrder (dropInbound d g) := .upd h
theorem inOrder_openParcel {p : Nat} {ws : List W64} (h : InOrder d) : InOrder (openParcel d p ws).1 :=
  .ite (inOrder_setParcel h) h
theorem inOrder_grantStakes {p : Nat} {q : Parcel} (h : InOrder d) : InOrder (grantStakes d p q) :=
  .foldl (fun _ _ h1 => inOrder_setStake h1) (h.setStakes (h.stakes_rising.filter _))

theorem inOrder_clearWindow {q : Parcel} {die : Nat} (h : InOrder d) : InOrder (clearWindow d q die) := by
  obtain ⟨⟨hm, hpo, hrest⟩, hp⟩ := h
  exact ⟨⟨twf_filter unlisted _ _ hm, hpo.filter _, hrest⟩, hp⟩

theorem inOrder_grantParcel {p : Nat} (h : InOrder d) : InOrder (grantParcel d p) :=
  inOrder_clearTags (.foldl (fun _ _ h1 => inOrder_clearWindow h1) (.foldl (fun _ _ h1 => inOrder_memClear h1) (inOrder_grantStakes h)))
theorem inOrder_closeParcel {p : Nat} (h : InOrder d) : InOrder (closeParcel d p) :=
  inOrder_setParcel (.foldl (fun _ _ h1 => inOrder_modCore h1) (.foldl (fun _ _ h1 => inOrder_stakeDisable h1) h))
theorem inOrder_openKv {idx : Nat} (h : InOrder d) : InOrder (openKv d idx).1 :=
  .ite (inOrder_setKv (inOrder_kvSet h)) h

theorem inOrder_closeKv {idx : Nat} (h : InOrder d) : InOrder (closeKv d idx) := by
  unfold closeKv
  exact inOrder_eachAttn (.upd (inOrder_modKv h)) fun _ _ _ _ h1 => .ite h1 (.ite (inOrder_failRun h1) (.ite (inOrder_failRun h1) h1))

theorem inOrder_openType {type idx : Nat} (h : InOrder d) : InOrder (openType d type idx).1 := by
  dsimp only [openType]
  split
  · exact inOrder_setStream h
  · split
    · exact inOrder_openKv h
    · split
      · rename_i e2
        exact .of_fst e2 (inOrder_paramBlock h)
      · rename_i e2
        split
        · exact inOrder_openChan (.of_fst e2 (inOrder_paramBlock h))
        · split
          · exact inOrder_openMedia (.of_fst e2 (inOrder_paramBlock h))
          · split
            · exact inOrder_openGroup (.of_fst e2 (inOrder_paramBlock h))
            · exact inOrder_openParcel (.of_fst e2 (inOrder_paramBlock h))

theorem inOrder_openRequest {any : Bool} {type index : Nat} (h : InOrder d) : InOrder (openRequest d any type index) := by
  refine .ite (inOrder_logIgnoredAt h) ?_
  dsimp only
  split
  · exact inOrder_adminEnd (.upd h)
  · split
    · rename_i e1
      exact .upd (inOrder_openSlot (.of_fst e1 (inOrder_openType (.upd h))))
    · rename_i e12
      exact inOrder_adminEnd (.of_fst e12 (inOrder_openType (.upd h)))

theorem inv_execOpenObj {any : Bool} {type : BitVec 8} {index : BitVec 16} (h : Inv s) : OnNext Inv (execOpenObj any type index s) :=
  inOrder_runCmd (fun _ h1 => inOrder_whenOn (inOrder_openRequest h1)) h
theorem inv_execOpenComplete (h : Inv s) : OnNext Inv (execOpenComplete s) :=
  inOrder_runCmd (fun _ h1 => inOrder_whenOn (inOrder_adminEnd (.ite (inOrder_grantParcel h1) h1))) h

theorem inOrder_closeType {type idx : Nat} (h : InOrder d) : InOrder (closeType d type idx) :=
  .ite (inOrder_closeChan h) (.ite (inOrder_closeStream h) (.ite (inOrder_closeSess h)
    (.ite (inOrder_setGroup (inOrder_dropInbound (inOrder_closeGroup h))) (.ite (inOrder_closeParcel h) (inOrder_closeKv h)))))

theorem inOrder_closeRequest {w : BitVec 32} (h : InOrder d) : InOrder (closeRequest d w) := by
  refine .ite (inOrder_logIgnoredAt h) ?_
  dsimp only
  split
  · exact inOrder_adminEnd (.upd h)
  · exact .ite (inOrder_adminEnd (.upd h)) (inOrder_closeSlot (inOrder_closeType (.upd h)))

theorem inv_execCloseObj {handle : BitVec 32} (h : Inv s) : OnNext Inv (execCloseObj handle s) :=
  inOrder_runCmd (fun _ h1 => inOrder_whenOn (inOrder_closeRequest h1)) h

theorem inOrder_freeType {type idx : Nat} (h : InOrder d) : InOrder (freeType d type idx) :=
  .ite (inOrder_freeChan h) (.ite (inOrder_setStream h) (.ite (inOrder_setSess h)
    (.ite (inOrder_setGroup h) (.ite (inOrder_setParcel h) (inOrder_setKv (inOrder_kvSet h))))))

theorem inv_execCloseComplete (h : Inv s) : OnNext Inv (execCloseComplete s) :=
  inOrder_runCmd (fun _ h1 => inOrder_whenOn (inOrder_adminEnd (inOrder_freeType h1))) h

/-! ### Startup -/

theorem inOrder_sendMessage {die w : Nat} (h : InOrder d) : InOrder (sendMessage d die w) :=
  .ite (inOrder_setBoot (.upd h)) h
theorem inOrder_progress {die : Nat} (h : InOrder d) : InOrder (progress d die) := inOrder_sendMessage h
theorem inOrder_setPhase {die phase fail : Nat} (h : InOrder d) : InOrder (setPhase d die phase fail) :=
  inOrder_progress (.when (inOrder_rset (inOrder_rset h)) inOrder_rset)

theorem inOrder_undoReady (h : InOrder d) : InOrder (undoReady d) := by
  dsimp only [undoReady]
  split
  · exact .ite (inOrder_logIgnoredAt (inOrder_regSet (.upd h))) h
  · exact h

theorem inOrder_failDie {die fail : Nat} (h : InOrder d) : InOrder (failDie d die fail) :=
  .ite h (inOrder_setPhase (inOrder_undoReady h))

theorem inOrder_bothEnds {die m : Nat} {f : Dev → Nat → Nat → Dev} (h : InOrder d)
    (hf : ∀ e x y, InOrder e → InOrder (f e x y)) : InOrder (bothEnds d die m f) := by
  dsimp only [bothEnds]
  split
  · exact hf _ _ _ (hf _ _ _ h)
  · exact hf _ _ _ h

theorem inOrder_doneCheck {die : Nat} (h : InOrder d) : InOrder (doneCheck d die) :=
  .ite (inOrder_setPhase h) h
theorem inv_execResetRelease (h : Inv s) : OnNext Inv (execResetRelease s) :=
  inOrder_runOk (fun _ h1 => inOrder_whenOn (.upd h1)) h
theorem inv_execRootPllLock {die : Nat} {straps : BitVec 3} {parity : Bool} (h : Inv s) : OnNext Inv (execRootPllLock die straps parity s) :=
  inOrder_runOk (fun _ h1 => inOrder_whenOn (.when (inOrder_rset (inOrder_rset (inOrder_setBoot h1))) inOrder_failDie)) h
theorem inv_execPositionExchange {die m : Nat} {peer : Option Nat} (h : Inv s) : OnNext Inv (execPositionExchange die m peer s) :=
  inOrder_runOk (fun _ h1 => inOrder_whenOn (.ite (inOrder_rset h1) (inOrder_failDie (inOrder_rset h1)))) h
theorem inv_execAnnounce {die : Nat} (h : Inv s) : OnNext Inv (execAnnounce die s) :=
  inOrder_runOk (fun _ h1 => inOrder_whenOn (inOrder_sendMessage (inOrder_setBoot h1))) h
theorem inv_execProgress {die : Nat} (h : Inv s) : OnNext Inv (execProgress die s) :=
  inOrder_runOk (fun _ h1 => inOrder_whenOn (inOrder_progress h1)) h
theorem inOrder_refuseFw {die code : Nat} (h : InOrder d) : InOrder (refuseFw d die code) :=
  inOrder_setPhase (inOrder_rset (inOrder_rset (inOrder_setBoot h)))
theorem inOrder_fwBegin {mask : BitVec 8} {size : Nat} {die : Nat} (h : InOrder d) : InOrder (fwBegin mask size d die) :=
  .ite h (inOrder_setPhase (inOrder_rset (inOrder_rset (inOrder_rcount (inOrder_setBoot h)))))
theorem inv_execFwBegin {mask : BitVec 8} {size : Nat} (h : Inv s) : OnNext Inv (execFwBegin mask size s) :=
  inOrder_runOk (fun _ h1 => inOrder_whenOn (inOrder_allDies h1 (fun _ _ h2 => inOrder_fwBegin h2))) h

theorem inOrder_fwData {off : Nat} {bytes : List Byte} {die : Nat} (h : InOrder d) : InOrder (fwData off bytes d die) := by
  dsimp only [fwData]
  split
  · exact h
  · exact .ite (inOrder_refuseFw h) (.ite (.ite (inOrder_setBoot h) (inOrder_refuseFw (inOrder_setBoot h))) (inOrder_setBoot h))

theorem inv_execFwData {off : Nat} {words : List (BitVec 8)} (h : Inv s) : OnNext Inv (execFwData off words s) :=
  inOrder_runOk (fun _ h1 => inOrder_whenOn (inOrder_allDies h1 (fun _ _ h2 => inOrder_fwData h2))) h
theorem inOrder_loadNormal {die : Nat} {body : List Byte} (h : InOrder d) : InOrder (loadNormal d die body) :=
  .foldl (fun _ _ h1 => inOrder_rset h1) (inOrder_regSet (.upd h))
theorem inOrder_matchDies (h : InOrder d) : InOrder (matchDies d) :=
  .ite h (inOrder_allDies h (fun _ _ h1 => .ite (inOrder_failDie h1) h1))
theorem inOrder_dieZeroRuns {body : List Byte} (h : InOrder d) : InOrder (dieZeroRuns d body) :=
  .foldl (fun _ _ h1 => inOrder_regSet h1) (inOrder_extendMeas (inOrder_extendMeas h))

theorem inOrder_fwEnd {die : Nat} (h : InOrder d) : InOrder (fwEnd d die) := by
  dsimp only [fwEnd]
  split
  · exact h
  · exact .ite (inOrder_refuseFw h) (.ite (inOrder_refuseFw h)
      (.when (inOrder_loadNormal (inOrder_setPhase (inOrder_rset (inOrder_rset (inOrder_rset (inOrder_rset (inOrder_setBoot h)))))))
        inOrder_dieZeroRuns))

theorem inv_execFwEnd (h : Inv s) : OnNext Inv (execFwEnd s) :=
  inOrder_runOk (fun _ h1 => inOrder_whenOn (inOrder_matchDies (inOrder_allDies h1 (fun _ _ h2 => inOrder_fwEnd h2)))) h
theorem inv_execMeshWaveStart {wave : Nat} (h : Inv s) : OnNext Inv (execMeshWaveStart wave s) :=
  inOrder_runOk (fun _ h1 => inOrder_whenOn (.upd (.foldl (fun _ _ h2 => inOrder_bothEnds (inOrder_rset h2) (fun _ _ _ h3 => inOrder_rset h3)) h1))) h

theorem inOrder_linkUp {mode : BitVec 1} {half : Bool} {repaired : BitVec 16} {x m : Nat}
    (h : InOrder d) : InOrder (linkUp mode half repaired d x m) :=
  inOrder_rset (inOrder_rset (inOrder_rset (inOrder_rset h)))

theorem inv_execMeshLinkTrained {die m : Nat} {ok : Bool} {mode : BitVec 1} {half : Bool} {repaired : BitVec 16} (h : Inv s) :
    OnNext Inv (execMeshLinkTrained die m ok mode half repaired s) :=
  inOrder_runOk (fun _ h1 => inOrder_whenOn (.ite (inOrder_bothEnds (inOrder_bothEnds h1 (fun _ _ _ h2 => inOrder_linkUp h2))
    (fun _ _ _ h2 => inOrder_doneCheck h2)) (inOrder_bothEnds h1 (fun _ _ _ h2 => inOrder_failDie (inOrder_rset h2))))) h

theorem inOrder_trainChannel {die : Nat} {failed : W32} {c : Nat} (h : InOrder d) : InOrder (trainChannel die failed d c) :=
  .ite (inOrder_logErr (inOrder_chanSet (inOrder_chanSet (inOrder_chanSet h)))) (inOrder_chanSet h)

theorem inv_execHbmTrainingDone {die : Nat} {failed : BitVec 32} (h : Inv s) : OnNext Inv (execHbmTrainingDone die failed s) :=
  inOrder_runOk (fun _ h1 => inOrder_whenOn (.ite (inOrder_failDie
    (inOrder_rset (inOrder_memClear (.foldl (fun _ _ h2 => inOrder_trainChannel h2) (inOrder_setBoot h1)))))
      (inOrder_doneCheck (inOrder_rset (inOrder_memClear (.foldl (fun _ _ h2 => inOrder_trainChannel h2) (inOrder_setBoot h1))))))) h

theorem inOrder_testCore (h : InOrder d) : InOrder (testCore c d) := inOrder_modCore h

theorem inOrder_startTest {die : Nat} {cores : List (Nat × SelfTest)} {r : Dev × Nat × Nat} {i : Nat}
    (h : InOrder r.1) : InOrder (startTest die cores r i).1 := by
  dsimp only [startTest]
  split
  · exact inOrder_testCore h
  · exact inOrder_selfTest h

theorem inv_execSelfTestDone {die : Nat} {cores : List (Nat × SelfTest)} (h : Inv s) : OnNext Inv (execSelfTestDone die cores s) :=
  inOrder_runOk (fun _ h1 => inOrder_whenOn (inOrder_doneCheck
    (inOrder_rset (inOrder_rset (.foldl_fst (fun _ _ h2 => inOrder_startTest h2) (inOrder_setBoot h1)))))) h

theorem inv_execTickAlign (h : Inv s) : OnNext Inv (execTickAlign s) :=
  inOrder_runOk (fun _ h1 => inOrder_whenOn (.upd h1)) h
theorem inv_execDieSilence {die : Nat} (h : Inv s) : OnNext Inv (execDieSilence die s) :=
  inOrder_runOk (fun _ h1 => inOrder_whenOn (inOrder_allDies (inOrder_setBoot h1) (fun _ _ h2 => inOrder_doneCheck h2))) h
theorem inv_execAbwTriReady {map : BitVec 24} (h : Inv s) : OnNext Inv (execAbwTriReady map s) :=
  inOrder_runOk (fun _ h1 => .next (.ite (inOrder_logIgnoredAt h1) (inOrder_rset (inOrder_rset (inOrder_rset (.upd h1)))))) h
theorem inv_execUcieFlitReplay {die m : Nat} (h : Inv s) : OnNext Inv (execUcieFlitReplay die m s) :=
  inOrder_runCmd (fun _ h1 => inOrder_whenOn (inOrder_rcount h1)) h
theorem inv_execUcieRetrain {die m : Nat} (h : Inv s) : OnNext Inv (execUcieRetrain die m s) :=
  inOrder_runCmd (fun _ h1 => inOrder_whenOn (inOrder_bothEnds h1 (fun _ _ _ h2 => inOrder_rcount (inOrder_rset h2)))) h

theorem inv_execUcieRetrainDone {die m : Nat} {ok : Bool} {mode : BitVec 1} {half : Bool} {repaired : BitVec 16} (h : Inv s) :
    OnNext Inv (execUcieRetrainDone die m ok mode half repaired s) :=
  inOrder_runOk (fun _ h1 => inOrder_whenOn (.ite (inOrder_resumeWaits (inOrder_bothEnds h1 (fun _ _ _ h2 => inOrder_linkUp h2)))
    (.ite (inOrder_logFatal (inOrder_bothEnds h1 (fun _ _ _ h2 => inOrder_rset h2)))
      (inOrder_bothEnds (inOrder_bothEnds h1 (fun _ _ _ h2 => inOrder_rset h2)) (fun _ _ _ h2 => inOrder_failDie h2))))) h

/-! ### Pins -/

theorem inOrder_packageReset {pwrgd reset : Bool} (h : InOrder d) : InOrder (packageReset d pwrgd reset) := by
  have empty : InOrder { Dev.reset with part := d.part } :=
    ⟨⟨rfl, List.Pairwise.nil, List.Pairwise.nil, List.Pairwise.nil, List.Pairwise.nil, List.Pairwise.nil, List.Pairwise.nil⟩, h.2⟩
  exact inOrder_allDies (.upd empty) fun _ _ h1 => .ite (inOrder_rset (inOrder_rset h1)) (inOrder_rset h1)

theorem inOrder_cutBurn {die : Nat} (h : InOrder d) : InOrder (cutBurn d die) := by
  dsimp only [cutBurn]
  split
  · exact .ite (inOrder_rset (inOrder_freeNext h)) h
  · exact h

theorem inv_execPkgPwrgdAssert (h : Inv s) : OnNext Inv (execPkgPwrgdAssert s) :=
  inOrder_runOk (fun _ h1 => inOrder_whenOn (.upd h1)) h
theorem inv_execPkgPwrgdDeassert (h : Inv s) : OnNext Inv (execPkgPwrgdDeassert s) :=
  inOrder_runOk (fun _ h1 => inOrder_whenOn (inOrder_packageReset (inOrder_allDies h1 (fun _ _ h2 => inOrder_cutBurn h2)))) h
theorem inv_execPkgResetAssert (h : Inv s) : OnNext Inv (execPkgResetAssert s) :=
  inOrder_runOk (fun _ h1 => inOrder_whenOn (inOrder_packageReset h1)) h
theorem inv_execPkgResetDeassert {maddr : BitVec 2} {tmode : Bool} (h : Inv s) : OnNext Inv (execPkgResetDeassert maddr tmode s) :=
  inOrder_runOk (fun _ h1 => inOrder_whenOn (.upd h1)) h
theorem inOrder_railSample {die : Nat} {x : BitVec 16 × Nat} (h : InOrder d) : InOrder (railSample die d x) :=
  .when (inOrder_rset (inOrder_rset (inOrder_setBoot h))) fun h1 => inOrder_logFatal (inOrder_rset h1)
theorem inv_execRailSample {die : Nat} {mv : List (BitVec 16)} (h : Inv s) : OnNext Inv (execRailSample die mv s) :=
  inOrder_runOk (fun _ h1 => inOrder_whenOn (.foldl (fun _ _ h2 => inOrder_railSample h2) h1)) h

theorem inOrder_dieReset {die : Nat} (h : InOrder d) : InOrder (dieReset d die) := by
  obtain ⟨⟨hm, hpo, hca, hr, hco, hs, hh⟩, hp⟩ := inOrder_cutBurn (die := die) h
  refine inOrder_rset (inOrder_setRing ?_)
  exact ⟨⟨twf_filter unlisted _ _ hm, hpo.filter _, hca.filter _, hr.filter _, hco.filter _, hs.filter _, hh.filter _⟩, hp⟩

theorem inv_execRail7Undervoltage {die : Nat} (h : Inv s) : OnNext Inv (execRail7Undervoltage die s) :=
  inOrder_runOk (fun _ h1 => inOrder_whenOn (inOrder_dieReset h1)) h
theorem inOrder_tripDie {die sensor : Nat} {reading : BitVec 8} {hbm : Bool} (h : InOrder d) : InOrder (tripDie d die sensor reading hbm) :=
  .whenNot (.ite h (inOrder_junctionPeak h)) fun h2 => inOrder_logFatal (.when (.upd h2) inOrder_rset)
theorem inv_execHbmThermalSample {die stack : Nat} {temp limit : BitVec 8} (h : Inv s) : OnNext Inv (execHbmThermalSample die stack temp limit s) :=
  inOrder_runCmd (fun _ h1 => inOrder_whenOn (.ite (inOrder_tripDie (inOrder_stackReading h1)) (inOrder_stackReading h1))) h

theorem inv_execThermalTrip {die sensor : Nat} {reading : BitVec 8} {hbm : Bool} (h : Inv s) :
    OnNext Inv (execThermalTrip die sensor reading hbm s) :=
  inOrder_runOk (fun _ h1 => inOrder_whenOn (inOrder_tripDie h1)) h

theorem inv_execPllUnlock {die pll : Nat} (h : Inv s) : OnNext Inv (execPllUnlock die pll s) :=
  inOrder_runOk (fun _ h1 => inOrder_whenOn (inOrder_logFatal (inOrder_rcount (inOrder_rset h1)))) h
theorem inOrder_setTap {die : Nat} {x : Tap} (h : InOrder d) : InOrder (setTap d die x) := .upd h

theorem inOrder_capture {die : Nat} (h : InOrder d) : InOrder (capture d die).2 := by
  dsimp only [capture]
  split
  · exact inOrder_freeNext h
  · exact inOrder_freeNext h

theorem inOrder_drCapture {die : Nat} (h : InOrder d) : InOrder (drCapture d die).2 := by
  dsimp only [drCapture]
  split
  · exact inOrder_capture h
  · split
    · exact h
    · split
      · exact inOrder_freeNext h
      · exact h

theorem inOrder_scanTap {r : List Bool × Dev} {die : Nat} (h : InOrder r.2) : InOrder (scanTap r die).2 :=
  inOrder_setTap (inOrder_drCapture h)
theorem inOrder_loadTap {row : String} {die : Nat} {ir : BitVec 8} (h : InOrder d) : OnNext InOrder (loadTap row die ir d) :=
  inOrder_whenOn (.upd (.foldl_snd (fun _ _ h1 => inOrder_scanTap h1) (inOrder_setTap h)))

theorem inOrder_loadBoundary {row : String} {die : Nat} {ir : BitVec 8} {bits : BitVec 10} (h : InOrder d) :
    OnNext InOrder (loadBoundary row die ir bits d) := by
  dsimp only [loadBoundary]
  split
  · rename_i e
    exact .next (inOrder_setTap (inOrder_loadTap h _ e))
  · exact inOrder_loadTap h

theorem inv_execPkgTrst (h : Inv s) : OnNext Inv (execPkgTrst s) :=
  inOrder_runOk (fun _ h1 => .next (.upd h1)) h

theorem inv_execExtest {die : Nat} (h : Inv s) : OnNext Inv (execExtest die s) := by
  refine inOrder_runOk (fun _ h1 => ?_) h
  split
  · exact inOrder_loadBoundary (inOrder_freeNext h1)
  · exact inOrder_loadTap h1

theorem inv_execSamplePreload {die : Nat} {bits : BitVec 10} (h : Inv s) : OnNext Inv (execSamplePreload die bits s) :=
  inOrder_runOk (fun _ h1 => inOrder_loadBoundary h1) h
theorem inv_execIdcode {die : Nat} (h : Inv s) : OnNext Inv (execIdcode die s) :=
  inOrder_runOk (fun _ h1 => inOrder_loadTap h1) h
theorem inv_execClamp {die : Nat} (h : Inv s) : OnNext Inv (execClamp die s) :=
  inOrder_runOk (fun _ h1 => inOrder_loadTap h1) h
theorem inv_execHighz {die : Nat} (h : Inv s) : OnNext Inv (execHighz die s) :=
  inOrder_runOk (fun _ h1 => inOrder_loadTap h1) h
theorem inv_execBypass {die : Nat} (h : Inv s) : OnNext Inv (execBypass die s) :=
  inOrder_runOk (fun _ h1 => inOrder_loadTap h1) h

theorem inv_execPrivateJtag {die : Nat} {code : BitVec 8} (h : Inv s) : OnNext Inv (execPrivateJtag die code s) := by
  refine inOrder_runOk (fun _ h1 => ?_) h
  split
  · exact inOrder_loadTap h1
  · exact inOrder_loadTap h1

/-! ### Scalar -/

theorem inOrder_scalarTo {row : String} {i : Instr} {reads : List Nat} {sd : Nat} {f : Dev → W64} (h : InOrder d) :
    OnNext InOrder (scalarTo row c i reads sd f d) :=
  inOrder_issueStep (fun _ h1 => inOrder_setSreg h1) h

theorem inOrder_scalar3 {row : String} {i : Instr} {o : S3Op} {f : W64 → W64 → W64} (h : InOrder d) : OnNext InOrder (scalar3 row c i o f d) :=
  inOrder_scalarTo h
theorem inOrder_scalarI {row : String} {i : Instr} {o : SiOp} {f : W64 → W64 → W64} (h : InOrder d) : OnNext InOrder (scalarI row c i o f d) :=
  inOrder_scalarTo h
theorem inv_execSclAdd {o : S3Op} (h : Inv s) : OnNext Inv (execSclAdd c o s) :=
  inOrder_runCmd (fun _ h1 => inOrder_scalar3 h1) h
theorem inv_execSclSub {o : S3Op} (h : Inv s) : OnNext Inv (execSclSub c o s) :=
  inOrder_runCmd (fun _ h1 => inOrder_scalar3 h1) h
theorem inv_execSclMul {o : S3Op} (h : Inv s) : OnNext Inv (execSclMul c o s) :=
  inOrder_runCmd (fun _ h1 => inOrder_scalar3 h1) h
theorem inv_execSclMulh {o : S3Op} (h : Inv s) : OnNext Inv (execSclMulh c o s) :=
  inOrder_runCmd (fun _ h1 => inOrder_scalar3 h1) h
theorem inv_execSclAnd {o : S3Op} (h : Inv s) : OnNext Inv (execSclAnd c o s) :=
  inOrder_runCmd (fun _ h1 => inOrder_scalar3 h1) h
theorem inv_execSclOr {o : S3Op} (h : Inv s) : OnNext Inv (execSclOr c o s) :=
  inOrder_runCmd (fun _ h1 => inOrder_scalar3 h1) h
theorem inv_execSclXor {o : S3Op} (h : Inv s) : OnNext Inv (execSclXor c o s) :=
  inOrder_runCmd (fun _ h1 => inOrder_scalar3 h1) h
theorem inv_execSclShl {o : S3Op} (h : Inv s) : OnNext Inv (execSclShl c o s) :=
  inOrder_runCmd (fun _ h1 => inOrder_scalar3 h1) h
theorem inv_execSclShr {o : S3Op} (h : Inv s) : OnNext Inv (execSclShr c o s) :=
  inOrder_runCmd (fun _ h1 => inOrder_scalar3 h1) h
theorem inv_execSclSar {o : S3Op} (h : Inv s) : OnNext Inv (execSclSar c o s) :=
  inOrder_runCmd (fun _ h1 => inOrder_scalar3 h1) h
theorem inv_execSclMin {o : S3Op} (h : Inv s) : OnNext Inv (execSclMin c o s) :=
  inOrder_runCmd (fun _ h1 => inOrder_scalar3 h1) h
theorem inv_execSclMax {o : S3Op} (h : Inv s) : OnNext Inv (execSclMax c o s) :=
  inOrder_runCmd (fun _ h1 => inOrder_scalar3 h1) h
theorem inv_execSclCmp {o : S3Op} (h : Inv s) : OnNext Inv (execSclCmp c o s) :=
  inOrder_runCmd (fun _ h1 => inOrder_scalar3 h1) h
theorem inv_execSclAddi {o : SiOp} (h : Inv s) : OnNext Inv (execSclAddi c o s) :=
  inOrder_runCmd (fun _ h1 => inOrder_scalarI h1) h
theorem inv_execSclCmpi {o : SiOp} (h : Inv s) : OnNext Inv (execSclCmpi c o s) :=
  inOrder_runCmd (fun _ h1 => inOrder_scalarI h1) h
theorem inv_execSclMovi {o : SwOp} (h : Inv s) : OnNext Inv (execSclMovi c o s) :=
  inOrder_runCmd (fun _ h1 => inOrder_scalarTo h1) h
theorem inv_execSclMovh {o : SwOp} (h : Inv s) : OnNext Inv (execSclMovh c o s) :=
  inOrder_runCmd (fun _ h1 => inOrder_scalarTo h1) h
theorem inv_execSclMova {o : SaOp} (h : Inv s) : OnNext Inv (execSclMova c o s) :=
  inOrder_runCmd (fun _ h1 => inOrder_issueStep (fun _ h2 => inOrder_setAreg h2) h1) h
theorem inv_execSclMovs {o : SaOp} (h : Inv s) : OnNext Inv (execSclMovs c o s) :=
  inOrder_runCmd (fun _ h1 => inOrder_scalarTo h1) h
theorem inv_execSclAdda {o : SaOp} (h : Inv s) : OnNext Inv (execSclAdda c o s) :=
  inOrder_runCmd (fun _ h1 => inOrder_issueStep (fun _ h2 => inOrder_setAreg h2) h1) h
theorem inv_execSclAddai {o : SaOp} (h : Inv s) : OnNext Inv (execSclAddai c o s) :=
  inOrder_runCmd (fun _ h1 => inOrder_issueStep (fun _ h2 => inOrder_setAreg h2) h1) h

/-! ### RegAccess -/

theorem inOrder_reachHub {die off : Nat} (h : InOrder d) : InOrder (reachHub d die off) := by
  dsimp only [reachHub]
  split
  · exact inOrder_atHub h
  · exact inOrder_servePort3 h
  · exact h

theorem inOrder_viaRow {f : State → Host.Outcome State Fault Refusal} (hf : ∀ s, Inv s → OnNext Inv (f s)) (h : InOrder d) :
    InOrder (viaRow f d) := by
  unfold viaRow
  split
  · rename_i e
    exact hf ⟨d, []⟩ h _ e
  · exact h

theorem inOrder_pendShadow {n : RegName} {die i j hi lo v : Nat} (h : InOrder d) : InOrder (pendShadow d n die i j hi lo v) :=
  .upd h
theorem inOrder_unpendShadow {n : RegName} {die i j hi lo : Nat} (h : InOrder d) : InOrder (unpendShadow d n die i j hi lo) :=
  .upd h

theorem inOrder_writeField {n : RegName} {die i j : Nat} {M V : W64} {r : Dev × Bool} {f : RegField}
    (h : InOrder r.1) : InOrder (writeField n die i j M V r f).1 := by
  dsimp only [writeField]
  split
  · exact h
  · split
    · exact h
    · exact h
    · exact inOrder_regSet h
    · split
      · exact h
      · split
        · exact h
        · exact inOrder_rset h
    · split
      · exact h
      · split
        · exact inOrder_pendShadow h
        · exact inOrder_rset (inOrder_unpendShadow h)
    · split
      · exact h
      · exact inOrder_pendLive h

theorem inOrder_writeFields {n : RegName} {die i j : Nat} {M V : W64} (h : InOrder d) : InOrder (writeFields d n die i j M V) :=
  .when (.foldl_fst (fun _ _ h1 => inOrder_writeField h1) h) inOrder_logIgnoredAt

theorem inOrder_regWrite {n : RegName} {die i j : Nat} {M V : W64} (h : InOrder d) : InOrder (regWrite d n die i j M V) := by
  dsimp only [regWrite]
  split
  · exact .ite (inOrder_viaRow (fun _ h1 => inv_execCubeInject h1) (inOrder_writeFields h)) (inOrder_writeFields h)
  · exact .ite (inOrder_viaRow (fun _ h1 => inv_execFenceReq h1) (inOrder_writeFields h)) (inOrder_writeFields h)
  · exact .ite (inOrder_logIgnoredAt h) (inOrder_writeFields h)
  · exact .ite (inOrder_writeFields h) h
  · exact inOrder_hbmMapWrite h
  · exact .ite (inOrder_viaRow (fun _ h1 => inv_execResSliceCfgWrite h1) h) h
  · exact .ite (inOrder_viaRow (fun _ h1 => inv_execReleaseAll h1) (inOrder_writeFields h)) (inOrder_writeFields h)
  · exact .ite (inOrder_viaRow (fun _ h1 => inv_execHbmRetireWrite h1) h) h
  · exact .ite (inOrder_doorbellWrite h) (.ite h (inOrder_logIgnoredAt h))
  · exact .ite (inOrder_arriveWrite h) (.ite h (inOrder_logIgnoredAt h))
  · exact .ite (.ite h (inOrder_logIgnoredAt h)) (.ite (inOrder_openRequest h) (.ite (inOrder_closeRequest h) (inOrder_logIgnoredAt h)))
  · exact .ite (inOrder_complHeadWrite h) h
  · exact .ite (inOrder_evtHeadWrite h) h
  · exact .ite (.upd (inOrder_writeFields h)) (inOrder_writeFields h)
  · exact .ite (inOrder_viaRow (fun _ h1 => inv_execPclRebuildSet h1) h) (.ite (inOrder_viaRow (fun _ h1 => inv_execPclRebuildClear h1) h) h)
  · exact .ite (inOrder_viaRow (fun _ h1 => inv_execTagValidClear h1) h) h
  · exact .ite (inOrder_viaRow (fun _ h1 => inv_execSchSwitch h1) (inOrder_writeFields h)) (inOrder_writeFields h)
  · exact .when (.ite (inOrder_viaRow (fun _ h1 => inv_execZlkTrain h1) (inOrder_writeFields h)) (inOrder_writeFields h)) fun h2 => inOrder_viaRow
      (fun _ h1 => inv_execZlkStop h1) h2
  · exact .ite (inOrder_viaRow (fun _ h1 => inv_execZlkVcCfgWrite h1) h) h
  · exact .ite (inOrder_viaRow (fun _ h1 => inv_execZlkIdWrite h1) h) h
  · exact inOrder_alertEdge (inOrder_setRing h)
  · exact .ite (inOrder_viaRow (fun _ h1 => inv_execErrAckAll h1) h) (.ite (inOrder_viaRow (fun _ h1 => inv_execErrAckIndex h1) h) h)
  · exact .ite (inOrder_viaRow (fun _ h1 => inv_execErrCoreRst h1) h) h
  · exact .ite (inOrder_viaRow (fun _ h1 => inv_execEnvelopeClustersWrite h1) (inOrder_writeFields h)) (inOrder_writeFields h)
  · exact .ite h (.ite (inOrder_viaRow (fun _ h1 => inv_execAbwReqAttest h1) h) (.ite (inOrder_viaRow (fun _ h1 => inv_execAbwReqExtend h1) h)
      (inOrder_logIgnoredAt h)))
  · exact .ite (inOrder_viaRow (fun _ h1 => inv_execAbwTriReady h1) h) (inOrder_writeFields h)
  · exact inOrder_writeFields h

theorem inOrder_stakeWrite {id : StakeId} {w m v : Nat} (h : InOrder d) : InOrder (stakeWrite d id w m v) := by
  refine .ite (inOrder_atHub h) ?_
  split
  · exact inOrder_atHub h
  · exact inOrder_stakeTarget (inOrder_atHub h)
  · exact inOrder_stakeCtl (inOrder_atHub h)
  · exact inOrder_setStake (inOrder_atHub h)

theorem inOrder_wordWrite {die off m v : Nat} (h : InOrder d) : InOrder (wordWrite d die off m v) := by
  dsimp only [wordWrite]
  split
  · exact h
  · exact h
  · exact inOrder_regWrite h
  · exact inOrder_stakeWrite h
  · exact inOrder_setHub (inOrder_servePort3 h)

theorem inOrder_regStore {die off n v : Nat} (h : InOrder d) : InOrder (regStore d die off n v) := by
  refine .ite ?_ (inOrder_wordWrite h)
  split
  · exact .ite (inOrder_regWrite h) (inOrder_wordWrite (inOrder_wordWrite h))
  · exact inOrder_wordWrite (inOrder_wordWrite h)

theorem inv_execRegisterWrite {addr : BitVec 52} {size : Nat} {v : BitVec 64} (h : Inv s) : OnNext Inv (execRegisterWrite addr size v s) := by
  refine inOrder_runOk (fun _ h1 => ?_) h
  split
  · exact inOrder_whenOn (inOrder_regStore h1)
  · exact .next h1

theorem inv_execShadowWriteApply {addr : BitVec 52} (h : Inv s) : OnNext Inv (execShadowWriteApply addr s) := by
  refine inOrder_runOk (fun _ h1 => ?_) h
  split
  · split
    · exact inOrder_whenOn (inOrder_regSet (.upd h1))
    · exact .refused
  · exact .refused

theorem inOrder_keySet {p : LateWrite} (h : InOrder d) : InOrder (keySet d p) := by
  dsimp only [keySet]
  split
  · exact inOrder_regSet h
  · exact h

theorem inOrder_enableEdge {was : Bool} (h : InOrder d) : InOrder (enableEdge was d) :=
  .ite h (.ite (.upd h) (.upd h))
theorem inv_execLiveWriteApply (h : Inv s) : OnNext Inv (execLiveWriteApply s) :=
  inOrder_runOk (fun _ h1 => inOrder_whenOn (inOrder_alertEdge (inOrder_enableEdge (.foldl (fun _ _ h2 => inOrder_keySet h2) (.upd h1))))) h

theorem inOrder_scalarRead {x : Nat} {a : Addr} {n : Nat} (h : InOrder d) : OnSome (fun p => InOrder p.1) (scalarRead d x a n) := by
  dsimp only [scalarRead]
  split
  · exact .some h
  · split
    · exact .some h
    · split
      · exact .none
      · exact .some (inOrder_reachHub h)
    · split
      · exact .none
      · split
        · rename_i e2
          exact .some (.of_fst e2 (inOrder_devRead h))
        · rename_i e2
          exact .some (.of_fst e2 (inOrder_devRead h))

theorem inOrder_scalarWrite {x : Nat} {a : Addr} {n v : Nat} (h : InOrder d) : OnSome (fun p => InOrder p.1) (scalarWrite d x a n v) := by
  dsimp only [scalarWrite]
  split
  · exact .some h
  · split
    · exact .some h
    · split
      · exact .none
      · exact .some (inOrder_regStore h)
    · split
      · exact .some h
      · split
        · exact .none
        · exact .some (inOrder_devWrite h)

theorem inv_execSclLd {o : SmOp} (h : Inv s) : OnNext Inv (execSclLd c o s) := by
  refine inOrder_runCmd (fun _ h1 => inOrder_issue (fun _ _ h2 => ?_) h1) h
  dsimp only
  split
  · exact .next h2
  · rename_i e
    exact .next (inOrder_agentFault (inOrder_scalarRead h2 _ e))
  · rename_i e
    exact .next (inOrder_stepPc (inOrder_setSreg (inOrder_scalarRead h2 _ e)))

theorem inv_execSclSt {o : SmOp} (h : Inv s) : OnNext Inv (execSclSt c o s) := by
  refine inOrder_runCmd (fun _ h1 => inOrder_issue (fun _ _ h2 => ?_) h1) h
  dsimp only
  split
  · exact .next h2
  · rename_i e
    exact .next (inOrder_agentFault (inOrder_scalarWrite h2 _ e))
  · rename_i e
    exact .next (inOrder_stepPc (inOrder_scalarWrite h2 _ e))

theorem inOrder_reply {f : FaultCode} {data : List Byte} (h : InOrder d) : InOrder (reply d f data) := .upd h

theorem inOrder_hostAccess {a : Addr} {n : Nat} {data : Option (List Byte)} (h : InOrder d) : OnSome InOrder (hostAccess d a n data) := by
  dsimp only [hostAccess]
  split
  · exact .some (inOrder_reply h)
  · split
    · exact .some (inOrder_reply h)
    · split
      · exact .some (inOrder_reply h)
      · split
        · exact .some (inOrder_reply (inOrder_reachHub h))
        · exact .some (inOrder_reply (inOrder_regStore h))
    · split
      · exact .none
      · split
        · split
          · rename_i e2
            exact .some (inOrder_reply (.of_fst e2 (inOrder_devRead h)))
          · rename_i e2
            exact .some (inOrder_reply (.of_fst e2 (inOrder_devRead h)))
        · split
          · rename_i e2
            exact .some (inOrder_reply (.of_fst e2 (inOrder_devWrite h)))
          · rename_i e2
            exact .some (inOrder_reply (.of_fst e2 (inOrder_devWrite h)))

theorem inv_execCommandDieAccess {addr : BitVec 52} {size : Nat} {data : Option (List (BitVec 8))} (h : Inv s) :
    OnNext Inv (execCommandDieAccess addr size data s) := by
  refine inOrder_runCmd (fun _ h1 => ?_) h
  dsimp only
  split
  · exact .refused
  · exact inOrder_orNot (inOrder_hostAccess h1)

/-! ### Units -/

theorem inOrder_unitTake {x : UnitRef} (h : InOrder d) : OnSome InOrder (unitTake d x) := by
  dsimp only [unitTake]
  split
  · exact inOrder_cubeTake h
  · split
    · exact inOrder_chainStart h
    · exact .none
  · exact inOrder_quantTake h
  · exact inOrder_tloadTake h
  · exact inOrder_sloadTake h
  · exact inOrder_linkTake h

theorem inv_execUnitDescriptorStart {q : UnitRef} (h : Inv s) : OnNext Inv (execUnitDescriptorStart q s) :=
  inOrder_runCmd (fun _ h1 => inOrder_orNot (inOrder_unitTake h1)) h

theorem inOrder_unitWaitEnd {x : UnitRef} (h : InOrder d) : OnSome InOrder (unitWaitEnd d x) := by
  dsimp only [unitWaitEnd]
  split
  · exact inOrder_cubeWaitEnd h
  · exact inOrder_quantWaitEnd h
  · split
    · exact .none
    · exact inOrder_linkWaitEnd h
  · exact .none
  · exact .none
  · exact .none

theorem inv_execOperandWaitEnd {q : UnitRef} (h : Inv s) : OnNext Inv (execOperandWaitEnd q s) :=
  inOrder_runCmd (fun _ h1 => inOrder_orNot (inOrder_unitWaitEnd h1)) h

/-! ### Every command, and the step -/

/-- Every command leaves a device that is in order. -/
theorem inv_exec {i : Instr} {s : State} (h : Inv s) : OnNext Inv (exec i s) := by
  cases i with
  | ctlNop => exact inv_execCtlNop h
  | ctlHalt => exact inv_execCtlHalt h
  | ctlExit => exact inv_execCtlExit h
  | ctlFence => exact inv_execCtlFence h
  | ctlBr => exact inv_execCtlBr h
  | ctlBrz => exact inv_execCtlBrz h
  | ctlBrnz => exact inv_execCtlBrnz h
  | ctlBrp => exact inv_execCtlBrp h
  | ctlBrnp => exact inv_execCtlBrnp h
  | ctlCall => exact inv_execCtlCall h
  | ctlRet => exact inv_execCtlRet h
  | ctlLaunch => exact inv_execCtlLaunch h
  | ctlMpush => exact inv_execCtlMpush h
  | ctlMelse => exact inv_execCtlMelse h
  | ctlMpop => exact inv_execCtlMpop h
  | ctlRdspec => exact inv_execCtlRdspec h
  | sclAdd => exact inv_execSclAdd h
  | sclSub => exact inv_execSclSub h
  | sclMul => exact inv_execSclMul h
  | sclMulh => exact inv_execSclMulh h
  | sclAnd => exact inv_execSclAnd h
  | sclOr => exact inv_execSclOr h
  | sclXor => exact inv_execSclXor h
  | sclShl => exact inv_execSclShl h
  | sclShr => exact inv_execSclShr h
  | sclSar => exact inv_execSclSar h
  | sclMin => exact inv_execSclMin h
  | sclMax => exact inv_execSclMax h
  | sclCmp => exact inv_execSclCmp h
  | sclAddi => exact inv_execSclAddi h
  | sclCmpi => exact inv_execSclCmpi h
  | sclMovi => exact inv_execSclMovi h
  | sclMovh => exact inv_execSclMovh h
  | sclLd => exact inv_execSclLd h
  | sclSt => exact inv_execSclSt h
  | sclMova => exact inv_execSclMova h
  | sclMovs => exact inv_execSclMovs h
  | sclAdda => exact inv_execSclAdda h
  | sclAddai => exact inv_execSclAddai h
  | vecAdd => exact inv_execVecAdd h
  | vecSub => exact inv_execVecSub h
  | vecMul => exact inv_execVecMul h
  | vecFma => exact inv_execVecFma h
  | vecMin => exact inv_execVecMin h
  | vecMax => exact inv_execVecMax h
  | vecAbs => exact inv_execVecAbs h
  | vecNeg => exact inv_execVecNeg h
  | vecCmp => exact inv_execVecCmp h
  | vecSel => exact inv_execVecSel h
  | vecAnd => exact inv_execVecAnd h
  | vecOr => exact inv_execVecOr h
  | vecXor => exact inv_execVecXor h
  | vecShl => exact inv_execVecShl h
  | vecShr => exact inv_execVecShr h
  | vecMov => exact inv_execVecMov h
  | vecMovi => exact inv_execVecMovi h
  | vecAddi => exact inv_execVecAddi h
  | vecFaddi => exact inv_execVecFaddi h
  | vecFmuli => exact inv_execVecFmuli h
  | vecLd => exact inv_execVecLd h
  | vecSt => exact inv_execVecSt h
  | vecShfl => exact inv_execVecShfl h
  | vecRand => exact inv_execVecRand h
  | sfnExp => exact inv_execSfnExp h
  | sfnExp2 => exact inv_execSfnExp2 h
  | sfnLog => exact inv_execSfnLog h
  | sfnLog2 => exact inv_execSfnLog2 h
  | sfnRcp => exact inv_execSfnRcp h
  | sfnSqrt => exact inv_execSfnSqrt h
  | sfnRsqrt => exact inv_execSfnRsqrt h
  | sfnSin => exact inv_execSfnSin h
  | sfnCos => exact inv_execSfnCos h
  | sfnTanh => exact inv_execSfnTanh h
  | sfnSigm => exact inv_execSfnSigm h
  | sfnErf => exact inv_execSfnErf h
  | sfnGelu => exact inv_execSfnGelu h
  | sfnSilu => exact inv_execSfnSilu h
  | sfnTload => exact inv_execSfnTload h
  | tableLoadFlip => exact inv_execTableLoadFlip h
  | tableLoadDrainEnd => exact inv_execTableLoadDrainEnd h
  | cubeMma => exact inv_execCubeMma h
  | cubeConv => exact inv_execCubeConv h
  | cubeAttn => exact inv_execCubeAttn h
  | cubePool => exact inv_execCubePool h
  | cubeRsmp => exact inv_execCubeRsmp h
  | cubeAclr => exact inv_execCubeAclr h
  | chnArm => exact inv_execChnArm h
  | chnStrm => exact inv_execChnStrm h
  | chnRearm => exact inv_execChnRearm h
  | chnStop => exact inv_execChnStop h
  | chnMedia => exact inv_execChnMedia h
  | stkArrive => exact inv_execStkArrive h
  | stkWait => exact inv_execStkWait h
  | stkTest => exact inv_execStkTest h
  | stkReset => exact inv_execStkReset h
  | stkClaim => exact inv_execStkClaim h
  | colRun => exact inv_execColRun h
  | colPut => exact inv_execColPut h
  | qntCvt => exact inv_execQntCvt h
  | qntPack => exact inv_execQntPack h
  | qntUnpack => exact inv_execQntUnpack h
  | qntSload => exact inv_execQntSload h
  | scaleLoadFlip => exact inv_execScaleLoadFlip h
  | scaleLoadDrainEnd => exact inv_execScaleLoadDrainEnd h
  | stakeOpApply => exact inv_execStakeOpApply h
  | stkWaitTimeout => exact inv_execStkWaitTimeout h
  | stakePoll => exact inv_execStakePoll h
  | stkTargetWrite => exact inv_execStkTargetWrite h
  | stkCtlReset => exact inv_execStkCtlReset h
  | stkCtlEnableClear => exact inv_execStkCtlEnableClear h
  | launchDequeue => exact inv_execLaunchDequeue h
  | unitDescriptorStart => exact inv_execUnitDescriptorStart h
  | operandWaitEnd => exact inv_execOperandWaitEnd h
  | cubeStep => exact inv_execCubeStep h
  | rampLevelChange => exact inv_execRampLevelChange h
  | rampHoldExpiry => exact inv_execRampHoldExpiry h
  | cubeDrain => exact inv_execCubeDrain h
  | prologueCopyDone => exact inv_execPrologueCopyDone h
  | ledgerFetchDone => exact inv_execLedgerFetchDone h
  | prologueCorrection => exact inv_execPrologueCorrection h
  | hookProgramLaunch => exact inv_execHookProgramLaunch h
  | converterPass => exact inv_execConverterPass h
  | ledgerPublish => exact inv_execLedgerPublish h
  | stakeRouteResume => exact inv_execStakeRouteResume h
  | ksplitCombine => exact inv_execKsplitCombine h
  | attnChunkFetchDone => exact inv_execAttnChunkFetchDone h
  | attnChunkSoftmax => exact inv_execAttnChunkSoftmax h
  | keyPresenceWaitEnd => exact inv_execKeyPresenceWaitEnd h
  | keyWaitExpiry => exact inv_execKeyWaitExpiry h
  | kvTokenWrite => exact inv_execKvTokenWrite h
  | kvFlushStart => exact inv_execKvFlushStart h
  | kvFlushDone => exact inv_execKvFlushDone h
  | exportQueueCopy => exact inv_execExportQueueCopy h
  | chainWaitEnd => exact inv_execChainWaitEnd h
  | streamPassStart => exact inv_execStreamPassStart h
  | chainEntryAdmit => exact inv_execChainEntryAdmit h
  | chainEntryComplete => exact inv_execChainEntryComplete h
  | sliceRequest => exact inv_execSliceRequest h
  | hbmRead => exact inv_execHbmRead h
  | hbmErrWindowEnd => exact inv_execHbmErrWindowEnd h
  | hbmRefresh => exact inv_execHbmRefresh h
  | hbmScrub => exact inv_execHbmScrub h
  | ondieScrub => exact inv_execOndieScrub h
  | hbmThermalSample => exact inv_execHbmThermalSample h
  | hbmMapWrite => exact inv_execHbmMapWrite h
  | resSliceCfgWrite => exact inv_execResSliceCfgWrite h
  | sliceReconfigDone => exact inv_execSliceReconfigDone h
  | releaseAll => exact inv_execReleaseAll h
  | hbmRetireWrite => exact inv_execHbmRetireWrite h
  | ucieFlitReplay => exact inv_execUcieFlitReplay h
  | ucieRetrain => exact inv_execUcieRetrain h
  | commandDieAccess => exact inv_execCommandDieAccess h
  | cmdDoorbell => exact inv_execCmdDoorbell h
  | doorbellLatch => exact inv_execDoorbellLatch h
  | cmdArrive => exact inv_execCmdArrive h
  | openObj => exact inv_execOpenObj h
  | closeObj => exact inv_execCloseObj h
  | openComplete => exact inv_execOpenComplete h
  | closeComplete => exact inv_execCloseComplete h
  | commandRead => exact inv_execCommandRead h
  | commandStart => exact inv_execCommandStart h
  | cmdRun => exact inv_execCmdRun h
  | cmdLoad => exact inv_execCmdLoad h
  | cmdArriveOp => exact inv_execCmdArriveOp h
  | cmdNop => exact inv_execCmdNop h
  | partComplete => exact inv_execPartComplete h
  | cmdComplHeadWrite => exact inv_execCmdComplHeadWrite h
  | eventMergeWrite => exact inv_execEventMergeWrite h
  | cmdEvtPtrHeadWrite => exact inv_execCmdEvtPtrHeadWrite h
  | dispatchTick => exact inv_execDispatchTick h
  | coreStopped => exact inv_execCoreStopped h
  | contextImageWritten => exact inv_execContextImageWritten h
  | tenantSwap => exact inv_execTenantSwap h
  | swapComplete => exact inv_execSwapComplete h
  | pclRebuildSet => exact inv_execPclRebuildSet h
  | rebuildMapoutDone => exact inv_execRebuildMapoutDone h
  | pclRebuildClear => exact inv_execPclRebuildClear h
  | scheduleSlotBoundary => exact inv_execScheduleSlotBoundary h
  | schSwitch => exact inv_execSchSwitch h
  | tagValidClear => exact inv_execTagValidClear h
  | zlkTrain => exact inv_execZlkTrain h
  | zlkStop => exact inv_execZlkStop h
  | portTrainingDone => exact inv_execPortTrainingDone h
  | laneFailure => exact inv_execLaneFailure h
  | portRetrainDone => exact inv_execPortRetrainDone h
  | flitReceive => exact inv_execFlitReceive h
  | linkAck => exact inv_execLinkAck h
  | linkNak => exact inv_execLinkNak h
  | linkAbort => exact inv_execLinkAbort h
  | putStart => exact inv_execPutStart h
  | putChunkReceive => exact inv_execPutChunkReceive h
  | ackTimeout => exact inv_execAckTimeout h
  | notReadyResend => exact inv_execNotReadyResend h
  | collectiveStart => exact inv_execCollectiveStart h
  | collectiveTraverse => exact inv_execCollectiveTraverse h
  | collectiveTimeout => exact inv_execCollectiveTimeout h
  | zlkIdWrite => exact inv_execZlkIdWrite h
  | zlkVcCfgWrite => exact inv_execZlkVcCfgWrite h
  | frameAccept => exact inv_execFrameAccept h
  | mediaFrame => exact inv_execMediaFrame h
  | mediaEnd => exact inv_execMediaEnd h
  | pipeSelect => exact inv_execPipeSelect h
  | mediaPreemption => exact inv_execMediaPreemption h
  | deadlinePass => exact inv_execDeadlinePass h
  | frameComplete => exact inv_execFrameComplete h
  | errAckIndex => exact inv_execErrAckIndex h
  | errAckAll => exact inv_execErrAckAll h
  | errCoreRst => exact inv_execErrCoreRst h
  | coreResetDone => exact inv_execCoreResetDone h
  | haltArrival => exact inv_execHaltArrival h
  | haltOnSilence => exact inv_execHaltOnSilence h
  | laneGroupFence => exact inv_execLaneGroupFence h
  | cubeInject => exact inv_execCubeInject h
  | fenceReq => exact inv_execFenceReq h
  | abwReqAttest => exact inv_execAbwReqAttest h
  | abwReqExtend => exact inv_execAbwReqExtend h
  | reportSigned => exact inv_execReportSigned h
  | getIdent => exact inv_execGetIdent h
  | getTelemetry => exact inv_execGetTelemetry h
  | getErrors => exact inv_execGetErrors h
  | attest => exact inv_execAttest h
  | readReport => exact inv_execReadReport h
  | extend => exact inv_execExtend h
  | setLimit => exact inv_execSetLimit h
  | getChallenge => exact inv_execGetChallenge h
  | unlockData => exact inv_execUnlockData h
  | unlockGo => exact inv_execUnlockGo h
  | svnCommit => exact inv_execSvnCommit h
  | enec => exact inv_execEnec h
  | disec => exact inv_execDisec h
  | rstdaa => exact inv_execRstdaa h
  | entdaa => exact inv_execEntdaa h
  | setdasa => exact inv_execSetdasa h
  | getpid => exact inv_execGetpid h
  | getbcr => exact inv_execGetbcr h
  | getdcr => exact inv_execGetdcr h
  | getstatus => exact inv_execGetstatus h
  | getmwl => exact inv_execGetmwl h
  | getmrl => exact inv_execGetmrl h
  | setmwl => exact inv_execSetmwl h
  | setmrl => exact inv_execSetmrl h
  | smbusModeEntry => exact inv_execSmbusModeEntry h
  | powerCapCompare => exact inv_execPowerCapCompare h
  | tempRefresh => exact inv_execTempRefresh h
  | envelopeClustersWrite => exact inv_execEnvelopeClustersWrite h
  | resetRelease => exact inv_execResetRelease h
  | rootPllLock => exact inv_execRootPllLock h
  | positionExchange => exact inv_execPositionExchange h
  | announce => exact inv_execAnnounce h
  | progress => exact inv_execProgress h
  | fwBegin => exact inv_execFwBegin h
  | fwData => exact inv_execFwData h
  | fwEnd => exact inv_execFwEnd h
  | meshWaveStart => exact inv_execMeshWaveStart h
  | meshLinkTrained => exact inv_execMeshLinkTrained h
  | hbmTrainingDone => exact inv_execHbmTrainingDone h
  | selfTestDone => exact inv_execSelfTestDone h
  | tickAlign => exact inv_execTickAlign h
  | dieSilence => exact inv_execDieSilence h
  | abwTriReady => exact inv_execAbwTriReady h
  | pkgPwrgdAssert => exact inv_execPkgPwrgdAssert h
  | pkgPwrgdDeassert => exact inv_execPkgPwrgdDeassert h
  | pkgResetAssert => exact inv_execPkgResetAssert h
  | pkgResetDeassert => exact inv_execPkgResetDeassert h
  | railSample => exact inv_execRailSample h
  | rail7Undervoltage => exact inv_execRail7Undervoltage h
  | thermalTrip => exact inv_execThermalTrip h
  | pllUnlock => exact inv_execPllUnlock h
  | pkgTrst => exact inv_execPkgTrst h
  | extest => exact inv_execExtest h
  | samplePreload => exact inv_execSamplePreload h
  | idcode => exact inv_execIdcode h
  | clamp => exact inv_execClamp h
  | highz => exact inv_execHighz h
  | bypass => exact inv_execBypass h
  | privateJtag => exact inv_execPrivateJtag h
  | registerWrite => exact inv_execRegisterWrite h
  | shadowWriteApply => exact inv_execShadowWriteApply h
  | liveWriteApply => exact inv_execLiveWriteApply h
  | illegalInstruction => exact inv_execIllegalInstruction h
  | fetchRange => exact inv_execFetchRange h
  | contextImageRestored => exact inv_execContextImageRestored h
  | ucieRetrainDone => exact inv_execUcieRetrainDone h
  | releaseAllDone => exact inv_execReleaseAllDone h
  | cubeFenceWindowEnd => exact inv_execCubeFenceWindowEnd h
  | zlkLaneWindowEnd => exact inv_execZlkLaneWindowEnd h
  | laneCeWindowEnd => exact inv_execLaneCeWindowEnd h
  | stationFault => exact inv_execStationFault h

/-- Settles O60: the step runs the command at the front of the queue (inv_exec), or on an empty queue advances the tick. -/
theorem stepKeepsInv : Obligations.StepKeepsInv := by
  intro s t h e
  unfold step at e
  split at e
  · cases e
    exact InOrder.upd h
  · rename_i i rest _
    exact inv_exec (s := { s with pending := rest }) h t e

end Sys2Proof.Machine
end

section
/-!
SUPPORT. Register writes and the command die: the bits of fields and merged words, a write of one field by each access code, a write that reaches one
register, and the answers to the command die.
-/

namespace Sys2Proof.Machine

/-! ### Bits of a field -/

section
variable {n : Nat} {x y : BitVec n} {hi lo k v : Nat}

theorem testBit_fld : (fld x hi lo).testBit k = (decide (k < hi + 1 - lo) && x.getLsbD (lo + k)) := by
  simp [fld, BitVec.getLsbD, Nat.testBit_mod_two_pow, Nat.testBit_div_two_pow, Nat.add_comm]

/-- Words that agree on the bits of a field agree on the field. -/
theorem fld_congr (h : ∀ k, lo ≤ k → k ≤ hi → x.getLsbD k = y.getLsbD k) : fld x hi lo = fld y hi lo := by
  refine Nat.eq_of_testBit_eq fun k => ?_
  simp only [testBit_fld]
  by_cases hk : k < hi + 1 - lo
  · rw [h (lo + k) (by omega) (by omega)]
  · simp [hk]

theorem getLsbD_setFld (hk : k < n) :
    (setFld x hi lo v).getLsbD k = if lo ≤ k ∧ k ≤ hi then v.testBit (k - lo) else x.getLsbD k := by
  simp only [setFld, BitVec.getLsbD_or, BitVec.getLsbD_and, BitVec.getLsbD_not, BitVec.getLsbD_ofNat, Nat.mul_comm _ (2 ^ lo),
    Nat.testBit_two_pow_mul, Nat.testBit_two_pow_sub_one, Nat.testBit_mod_two_pow, hk]
  by_cases hl : lo ≤ k
  · by_cases hh : k ≤ hi
    · simp [hl, hh, show k - lo < hi + 1 - lo by omega]
    · simp [hl, hh, show ¬k - lo < hi + 1 - lo by omega]
  · simp [hl]

theorem fld_setFld (h : hi < n) : fld (setFld x hi lo v) hi lo = v % 2 ^ (hi + 1 - lo) := by
  refine Nat.eq_of_testBit_eq fun k => ?_
  rw [testBit_fld, Nat.testBit_mod_two_pow]
  by_cases hk : k < hi + 1 - lo
  · rw [getLsbD_setFld (by omega), if_pos (by omega), Nat.add_sub_cancel_left]
  · simp [hk]

theorem fld_lt : fld x hi lo < 2 ^ (hi + 1 - lo) := Nat.mod_lt _ (Nat.two_pow_pos _)

theorem fld_setFld_fld {m : Nat} {z : BitVec m} (h : hi < n) : fld (setFld x hi lo (fld z hi lo)) hi lo = fld z hi lo := by
  rw [fld_setFld h, Nat.mod_eq_of_lt fld_lt]

theorem fld_eq_extract : fld x hi lo = (x.extractLsb' lo (hi + 1 - lo)).toNat := by
  simp [fld, BitVec.extractLsb'_toNat, Nat.shiftRight_eq_div_pow]

theorem fld_bit : fld x k k = if x.getLsbD k = true then 1 else 0 := by
  rw [fld, BitVec.getLsbD, Nat.testBit_eq_decide_div_mod_eq, show k + 1 - k = 1 by omega, pow_one]
  have := Nat.mod_two_eq_zero_or_one (x.toNat / 2 ^ k)
  split <;> simp_all

theorem fld_bit_one (h : x.getLsbD k = true) : fld x k k = 1 := by rw [fld_bit, if_pos h]

theorem fld_bit_zero (h : x.getLsbD k = false) : fld x k k = 0 := by rw [fld_bit, h, if_neg Bool.false_ne_true]

end

/-! ### Merged words -/

theorem getLsbD_mergeBits (x M V : W64) (k : Nat) : (mergeBits x M V).getLsbD k = if M.getLsbD k = true then V.getLsbD k else x.getLsbD k := by
  by_cases hk : k < 64
  · simp only [mergeBits, BitVec.getLsbD_or, BitVec.getLsbD_and, BitVec.getLsbD_not, hk, decide_true, Bool.true_and]
    cases M.getLsbD k <;> simp
  · simp [BitVec.getLsbD_of_ge _ k (Nat.le_of_not_lt hk)]

theorem mergeBits_allOnes (x V : W64) : mergeBits x (BitVec.allOnes 64) V = V :=
  BitVec.eq_of_getLsbD_eq fun k hk => by
    rw [getLsbD_mergeBits, BitVec.getLsbD_allOnes, decide_eq_true hk, if_pos rfl]

/-- The mask of a write of the low half of a register. -/
def lowMask : W64 := 0xFFFFFFFF

/-- The value of a write of the low half of a register. -/
def lowHalf (v : W64) : W64 := BitVec.ofNat 64 (v.toNat % 2 ^ 32)

theorem getLsbD_lowMask (k : Nat) : lowMask.getLsbD k = decide (k < 32) := by
  rw [show lowMask = BitVec.ofNat 64 (2 ^ 32 - 1) from rfl, BitVec.getLsbD_ofNat, Nat.testBit_two_pow_sub_one]
  by_cases hk : k < 32 <;> simp [hk]; omega

theorem getLsbD_lowHalf (v : W64) (k : Nat) : (lowHalf v).getLsbD k = (decide (k < 32) && v.getLsbD k) := by
  rw [lowHalf, BitVec.getLsbD_ofNat, Nat.testBit_mod_two_pow, ← BitVec.getLsbD]
  by_cases hk : k < 32 <;> simp [hk]; omega

theorem fld_mergeBits_low {x v : W64} {hi lo : Nat} (h : hi < 32) : fld (mergeBits x lowMask (lowHalf v)) hi lo = fld v hi lo :=
  fld_congr fun k _ hk => by
    have : k < 32 := by omega
    simp [getLsbD_mergeBits, getLsbD_lowMask, getLsbD_lowHalf, this]

theorem fld_lowHalf_and {v : W64} {hi lo : Nat} (h : hi < 32) : fld (lowHalf v &&& lowMask) hi lo = fld v hi lo :=
  fld_congr fun k _ hk => by
    have : k < 32 := by omega
    simp [getLsbD_lowMask, getLsbD_lowHalf, this]

/-! ### Writes of one field, by access code (R23 to R26) -/

section
variable {n : RegName} {die i j : Nat} {M V : W64} {r : Dev × Bool} {f : RegField}

theorem writeField_of_ro (h : f.acc = .ro) : writeField n die i j M V r f = r := by
  simp only [writeField, h]
  exact ite_self _

theorem writeField_of_wo (h : f.acc = .wo) : writeField n die i j M V r f = r := by
  simp only [writeField, h]
  exact ite_self _

variable (hm : fld M f.hi f.lo ≠ 0)
include hm

theorem writeField_of_w1c (h : f.acc = .w1c) : writeField n die i j M V r f =
    (regSet r.1 n die i j (regGet r.1 n die i j &&& ~~~(setFld 0 f.hi f.lo (fld (V &&& M) f.hi f.lo))), r.2) := by
  simp only [writeField, h, hm, if_false]

theorem writeField_of_locked (h : f.acc = .rw) (hl : fieldLocked r.1 n die j f.lo = true) :
    writeField n die i j M V r f = (r.1, true) := by
  simp only [writeField, h, hm, hl, if_false, if_true]

theorem writeField_of_rw (h : f.acc = .rw) (hl : fieldLocked r.1 n die j f.lo = false) {v : Nat}
    (hv : fld (mergeBits (regGet r.1 n die i j) M V) f.hi f.lo = v) (hr : fieldRefuses r.1 n f.lo v = false) :
    writeField n die i j M V r f = (rset r.1 n die i j f.hi f.lo v, r.2) := by
  subst hv
  simp [writeField, h, hm, hl, hr]

/-- An RW-S field takes its value at once while its block does not run. -/
theorem writeField_of_rws_idle (h : f.acc = .rws) {v : Nat}
    (hv : fld (mergeBits (overlay r.1.shadow (regKey n die i j) (regGet r.1 n die i j)) M V) f.hi f.lo = v)
    (hr : fieldRefuses r.1 n f.lo v = false) (hb : blockRuns r.1 n die i j = false) :
    writeField n die i j M V r f = (rset (unpendShadow r.1 n die i j f.hi f.lo) n die i j f.hi f.lo v, r.2) := by
  subst hv
  simp [writeField, h, hm, hr, hb]

/-- An RW-S field waits while its block runs. -/
theorem writeField_of_rws_running (h : f.acc = .rws) {v : Nat}
    (hv : fld (mergeBits (overlay r.1.shadow (regKey n die i j) (regGet r.1 n die i j)) M V) f.hi f.lo = v)
    (hr : fieldRefuses r.1 n f.lo v = false) (hb : blockRuns r.1 n die i j = true) :
    writeField n die i j M V r f = (pendShadow r.1 n die i j f.hi f.lo v, r.2) := by
  subst hv
  simp [writeField, h, hm, hr, hb]

theorem writeField_of_rwl (h : f.acc = .rwl) {v : Nat}
    (hv : fld (mergeBits (lateOver r.1.live (regKey n die i j) (regGet r.1 n die i j)) M V) f.hi f.lo = v)
    (hr : fieldRefuses r.1 n f.lo v = false) :
    writeField n die i j M V r f = (pendLive r.1 n die i j f.hi f.lo v, r.2) := by
  subst hv
  simp [writeField, h, hm, hr]

end

section
variable {n : RegName} {die i j : Nat} {M V : W64} {d t : Dev}

/-- The fields written, nothing ignored. -/
theorem writeFields_of_taken (h : n.row.fields.foldl (writeField n die i j M V) (d, false) = (t, false)) :
    writeFields d n die i j M V = t := by
  simp [writeFields, h]

/-- Something was ignored, and is logged. -/
theorem writeFields_of_ignored (h : n.row.fields.foldl (writeField n die i j M V) (d, false) = (t, true)) :
    writeFields d n die i j M V = logIgnoredAt t n die i j V.toNat := by
  simp [writeFields, h]

/-- Fields that are all RO take nothing. -/
theorem foldl_writeField_of_ro {l : List RegField} (h : ∀ f ∈ l, f.acc = .ro) (r : Dev × Bool) : l.foldl (writeField n die i j M V) r = r := by
  induction l with
  | nil => rfl
  | cons f l ih =>
    obtain ⟨hf, hl⟩ := List.forall_mem_cons.1 h
    rw [List.foldl_cons, writeField_of_ro hf, ih hl]

theorem writeFields_of_ro (h : ∀ f ∈ n.row.fields, f.acc = .ro) : writeFields d n die i j M V = d :=
  writeFields_of_taken (foldl_writeField_of_ro h _)

end

/-! ### Writes of the registers of R20 by name -/

section
variable {d : Dev} {die i j : Nat} {v : W64}

/-- Some registers that no row of their own acts on: a write is the write of their fields. -/
theorem regWrite_of_plain {n : RegName} {M : W64} (h : n ∈ [RegName.abwId, .abwSerial, .abwFeatures, .zlkStatus, .medPipe, .pclStat, .cmdAdminArg,
      .cmdEvtStat, .schSlot, .chnFault, .medCtl]) : regWrite d n die i j M v = writeFields d n die i j M v := by
  simp only [List.mem_cons, List.not_mem_nil, or_false] at h
  rcases h with rfl | rfl | rfl | rfl | rfl | rfl | rfl | rfl | rfl | rfl | rfl <;> rfl

theorem regWrite_cmdAdminArg :
    regWrite d .cmdAdminArg die i j (BitVec.allOnes 64) v = rset d .cmdAdminArg die i j 51 0 (fld v 51 0) := by
  have addr : writeField .cmdAdminArg die i j (BitVec.allOnes 64) v (d, false) ⟨"ADDR", 51, 0, .rw, 0⟩ =
      (rset d .cmdAdminArg die i j 51 0 (fld v 51 0), false) :=
    writeField_of_rw (by decide) rfl rfl (by rw [mergeBits_allOnes]) rfl
  rw [regWrite_of_plain (by decide)]
  exact writeFields_of_taken (n := .cmdAdminArg) addr

/-- CMD_EVT_STAT after a write: DROPPED as written, OVERFLOW cleared by a 1. -/
theorem regWrite_cmdEvtStat : regWrite d .cmdEvtStat die i j (BitVec.allOnes 64) v =
    regSet (rset d .cmdEvtStat die i j 31 0 (fld v 31 0)) .cmdEvtStat die i j
      (setFld (regGet d .cmdEvtStat die i j) 31 0 (fld v 31 0) &&& ~~~(setFld 0 32 32 (fld v 32 32))) := by
  have dropped : writeField .cmdEvtStat die i j (BitVec.allOnes 64) v (d, false) ⟨"DROPPED", 31, 0, .rw, 0⟩ =
      (rset d .cmdEvtStat die i j 31 0 (fld v 31 0), false) :=
    writeField_of_rw (by decide) rfl rfl (by rw [mergeBits_allOnes]) rfl
  rw [regWrite_of_plain (by decide)]
  refine writeFields_of_taken ?_
  simp only [RegName.row]
  rw [List.foldl_cons, dropped, List.foldl_cons, writeField_of_w1c (by decide) rfl, List.foldl_nil, BitVec.and_allOnes]
  simp [rset]

/-- SCH_SLOT of the running bank: every field is locked (R25). -/
theorem regWrite_schSlot_locked (h : bankLocked d (j / 256) = true) :
    regWrite d .schSlot die i j (BitVec.allOnes 64) v = logIgnoredAt d .schSlot die i j v.toNat := by
  have locked (b : Bool) {f : RegField} (hf : f.acc = .rw) (hm : fld (BitVec.allOnes 64) f.hi f.lo ≠ 0) :
      writeField .schSlot die i j (BitVec.allOnes 64) v (d, b) f = (d, true) := writeField_of_locked hm hf h
  rw [regWrite_of_plain (by decide)]
  refine writeFields_of_ignored ?_
  simp only [RegName.row, List.foldl_cons, List.foldl_nil]
  rw [locked _ rfl (by decide), locked _ rfl (by decide), locked _ rfl (by decide), locked _ rfl (by decide)]

theorem regWrite_chnFault : regWrite d .chnFault die i j lowMask (lowHalf v) =
    regSet d .chnFault die i j (regGet d .chnFault die i j &&& ~~~(setFld 0 0 0 (fld v 0 0))) := by
  rw [regWrite_of_plain (by decide)]
  refine writeFields_of_taken ?_
  simp only [RegName.row]
  rw [List.foldl_cons,
    writeField_of_w1c (by decide) rfl, foldl_writeField_of_ro (by decide), fld_lowHalf_and (by decide)]

theorem regWrite_cubeCtl (hv : fld v 0 0 = 0) :
    regWrite d .cubeCtl die i j lowMask (lowHalf v) = writeFields d .cubeCtl die i j lowMask (lowHalf v) := by
  simp [regWrite, fld_lowHalf_and, hv]

/-- CUBE_CTL while its cube is idle: RAMP_HOLD takes effect at once. -/
theorem regWrite_cubeCtl_idle (hv : fld v 0 0 = 0) (h : (getCube d ⟨die, i⟩ j).run = none) :
    regWrite d .cubeCtl die i j lowMask (lowHalf v) =
      rset (unpendShadow d .cubeCtl die i j 15 8) .cubeCtl die i j 15 8 (fld v 15 8) := by
  rw [regWrite_cubeCtl hv]
  refine writeFields_of_taken ?_
  simp only [RegName.row, List.foldl_cons, List.foldl_nil]
  rw [writeField_of_wo (f := ⟨"INJECT", 0, 0, .wo, 0⟩) rfl, writeField_of_wo (f := ⟨"INJECT_REPLAY", 1, 1, .wo, 0⟩) rfl,
    writeField_of_rws_idle (by decide) rfl (fld_mergeBits_low (by decide)) rfl (by simp [blockRuns, h])]

/-- CUBE_CTL while its cube runs: RAMP_HOLD waits. -/
theorem regWrite_cubeCtl_running (hv : fld v 0 0 = 0) (h : (getCube d ⟨die, i⟩ j).run ≠ none) :
    regWrite d .cubeCtl die i j lowMask (lowHalf v) = pendShadow d .cubeCtl die i j 15 8 (fld v 15 8) := by
  rw [regWrite_cubeCtl hv]
  refine writeFields_of_taken ?_
  simp only [RegName.row, List.foldl_cons, List.foldl_nil]
  rw [writeField_of_wo (f := ⟨"INJECT", 0, 0, .wo, 0⟩) rfl, writeField_of_wo (f := ⟨"INJECT_REPLAY", 1, 1, .wo, 0⟩) rfl,
    writeField_of_rws_running (by decide) rfl (fld_mergeBits_low (by decide)) rfl (by simpa [blockRuns, Option.isSome_iff_ne_none] using h)]

theorem regWrite_medCtl (hv : fld v 7 0 ≤ 100) :
    regWrite d .medCtl die i j lowMask (lowHalf v) = pendLive d .medCtl die i j 7 0 (fld v 7 0) := by
  have taken : fieldRefuses d .medCtl 0 (fld v 7 0) = false := by simpa [fieldRefuses] using hv
  rw [regWrite_of_plain (by decide)]
  exact writeFields_of_taken (n := .medCtl)
    (writeField_of_rwl (f := ⟨"LIVE_LIMIT", 7, 0, .rwl, 0x5a⟩) (by decide) rfl (fld_mergeBits_low (by decide)) taken)

theorem regWrite_errAck_all (hv : fld v 6 6 = 1) : regWrite d .errAck die i j lowMask (lowHalf v) = viaRow (execErrAckAll die) d := by
  simp [regWrite, fld_lowHalf_and, hv]

theorem regWrite_errCoreRst_go (hv : fld v 8 8 = 1) :
    regWrite d .errCoreRst die i j lowMask (lowHalf v) = viaRow (execErrCoreRst die (BitVec.ofNat 8 (fld v 7 0))) d := by
  simp [regWrite, fld_lowHalf_and, hv]

theorem regWrite_errCoreRst_no_go (hv : fld v 8 8 = 0) : regWrite d .errCoreRst die i j lowMask (lowHalf v) = d := by
  simp [regWrite, fld_lowHalf_and, hv]

end

/-! ### Error records: what they change, and that they are kept -/

section
variable {d e t : Dev}

theorem NotesOnly.refl (d : Dev) : NotesOnly d d := ⟨rfl, rfl, rfl, rfl, rfl, rfl⟩

theorem NotesOnly.trans (h : NotesOnly d e) (g : NotesOnly e t) : NotesOnly d t := by
  obtain ⟨hc, hs, hh, hw, hm, hb⟩ := h
  obtain ⟨gc, gs, gh, gw, gm, gb⟩ := g
  exact ⟨gc.trans hc, gs.trans hs, gh.trans hh, gw.trans hw, gm.trans hm, gb.trans hb⟩

variable (d)

theorem regSet_notesOnly (n : RegName) (die i j : Nat) (v : W64) : NotesOnly d (regSet d n die i j v) := ⟨rfl, rfl, rfl, rfl, rfl, rfl⟩

theorem setRing_notesOnly (die : Nat) (r : ErrRing) : NotesOnly d (setRing d die r) := ⟨rfl, rfl, rfl, rfl, rfl, rfl⟩

theorem raiseEvent_notesOnly (x : Event) : NotesOnly d (raiseEvent d x) := by
  unfold raiseEvent
  split <;> exact ⟨rfl, rfl, rfl, rfl, rfl, rfl⟩

theorem takeEntry_notesOnly (die k : Nat) (x : ErrInfo) : NotesOnly d (takeEntry d die k x) :=
  (setRing_notesOnly d die _).trans (raiseEvent_notesOnly _ _)

theorem recordErr_notesOnly (die : Nat) (x : ErrInfo) : NotesOnly d (recordErr d die x) := by
  unfold recordErr
  dsimp only
  split
  · exact setRing_notesOnly d die _
  · split
    · exact takeEntry_notesOnly d die _ x
    · split
      · exact (setRing_notesOnly d die _).trans (takeEntry_notesOnly _ die _ x)
      · exact setRing_notesOnly d die _

theorem alertEdge_notesOnly : NotesOnly d (alertEdge d) := by
  unfold alertEdge
  dsimp only
  split <;> exact ⟨rfl, rfl, rfl, rfl, rfl, rfl⟩

theorem logErr_notesOnly (die : Nat) (x : ErrInfo) : NotesOnly d (logErr d die x) :=
  (recordErr_notesOnly d die x).trans (alertEdge_notesOnly _)

@[simp] theorem getRing_raiseEvent (x : Event) (die : Nat) : getRing (raiseEvent d x) die = getRing d die := by
  unfold raiseEvent
  split <;> rfl

@[simp] theorem getRing_alertEdge (die : Nat) : getRing (alertEdge d) die = getRing d die := by
  unfold alertEdge
  dsimp only
  split <;> rfl

theorem getRing_takeEntry (die k : Nat) (x : ErrInfo) : getRing (takeEntry d die k x) die = { getRing d die with
    entries := tset ErrEntry.empty (getRing d die).entries k ⟨true, x.sev.num, sevClass x.sev x.kind, x.src, x.kind, x.code.num, 0, x.sub,
      BitVec.ofNat 64 d.tick, BitVec.ofNat 64 d.tick, x.detail.map (BitVec.ofNat 64), (getRing d die).next⟩
    next := (getRing d die).next + 1 } := by
  simp [takeEntry]

/-- A record is kept as R579, R582 and R584 say. -/
theorem logErr_logged (die : Nat) (x : ErrInfo) : Logged die x d (logErr d die x) := by
  simp only [Logged, logErr, getRing_alertEdge]
  refine ⟨fun k hk => ?_, fun hk k hv => ?_, fun hk hv hs => ?_⟩
  · simp [recordErr, hk, ringEntry, satAdd]
  · simp [recordErr, hk, hv, getRing_takeEntry, ringEntry]
  · have dropped : recordErr d die x = setRing d die (ringDrop (getRing d die)) := by
      cases hx : x.sev <;> simp_all [recordErr]
    simp [dropped, ringDrop, satAdd]

theorem logIgnoredAt_ignored (n : RegName) (die i j v : Nat) :
    Ignored die (regAddr n die i j) v d (logIgnoredAt d n die i j v) :=
  ⟨logErr_notesOnly d die _, logErr_logged d die _⟩

end

/-! ### Registers that a record leaves alone -/

/-- A write elsewhere changes no read, whatever either takes as the default. -/
theorem tget_tset_other {α : Type} [DecidableEq α] (b d : α) (t : Tbl α) {k q : Nat} (v : α) (h : q ≠ k) :
    tget b (tset d t k v) q = tget b t q := by
  induction t with
  | nil =>
    unfold tset
    split
    · rfl
    · simp only [tget, h, if_false, ite_self]
  | cons e t ih =>
    obtain ⟨j, w⟩ := e
    rcases Nat.lt_trichotomy k j with hk | rfl | hk
    · simp only [tset, hk, if_true]
      split
      · rfl
      · rcases Nat.lt_or_gt_of_ne h with hq | hq
        · simp [tget, hq, Nat.lt_trans hq hk]
        · simp [tget, h, Nat.lt_asymm hq]
    · have rest : tget b (t.dropWhile fun e => decide (e.1 ≤ k)) q = tget b ((k, w) :: t) q := by
        rcases Nat.lt_or_gt_of_ne h with hq | hq
        · rw [tget_dropWhile_le b t (Nat.le_of_lt hq), tget_of_lt_head b w t hq]
        · simp [tget_dropWhile b t hq, tget, h, Nat.lt_asymm hq]
      simp only [tset, lt_irrefl, if_false, if_true]
      split
      · exact rest
      · rcases Nat.lt_or_gt_of_ne h with hq | hq
        · simp [tget, hq]
        · rw [← rest]; simp [tget, h, Nat.lt_asymm hq]
    · simp only [tset, Nat.lt_asymm hk, Nat.ne_of_gt hk, if_false, tget, ih]

section
variable {n m : RegName} {die i j x p q : Nat}

theorem regGet_regSet_other (d : Dev) (v : W64) (h : regKey n die i j ≠ regKey m x p q) :
    regGet (regSet d m x p q v) n die i j = regGet d n die i j :=
  tget_tset_other _ _ _ _ h

@[simp] theorem regGet_alertEdge (d : Dev) (n : RegName) (die i j : Nat) : regGet (alertEdge d) n die i j = regGet d n die i j := by
  unfold alertEdge
  dsimp only
  split <;> rfl

theorem regGet_evtDrop (d : Dev) (h : regKey n die i j ≠ regKey .cmdEvtStat 0 0 0) : regGet (evtDrop d) n die i j = regGet d n die i j :=
  calc regGet (evtDrop d) n die i j
      = regGet (rset (rcount d .cmdEvtStat 0 0 0 31 0 1) .cmdEvtStat 0 0 0 32 32 1) n die i j := rfl
    _ = regGet (rcount d .cmdEvtStat 0 0 0 31 0 1) n die i j := regGet_regSet_other _ _ h
    _ = regGet d n die i j := regGet_regSet_other _ _ h

/-- Of the registers, a record can change CMD_EVT_STAT alone, where its event is dropped. -/
theorem regGet_logErr (d : Dev) (y : Nat) (e : ErrInfo) (h : regKey n die i j ≠ regKey .cmdEvtStat 0 0 0) :
    regGet (logErr d y e) n die i j = regGet d n die i j := by
  have event (d : Dev) (x : Event) : regGet (raiseEvent d x) n die i j = regGet d n die i j := by
    unfold raiseEvent
    split
    · exact regGet_evtDrop d h
    · rfl
  rw [logErr, regGet_alertEdge]
  unfold recordErr takeEntry
  dsimp only
  split
  · rfl
  · split
    · exact event _ _
    · split
      · exact event _ _
      · rfl

/-- A hit names the register whose map entry it came from, and an item that the map has. -/
theorem hit_eq_some {off : Nat} {hi : Bool} (h : m.hit off = some (.reg n i j hi)) : m = n ∧ j < n.row.count := by
  unfold RegName.hit at h
  dsimp only at h
  split at h
  · cases h
  · obtain ⟨⟨-, hj, -⟩, e⟩ := Option.ite_none_right_eq_some.1 h
    cases e
    exact ⟨rfl, hj⟩

theorem hitAt_count {d : Dev} {off : Nat} {hi : Bool} (h : hitAt d die off = some (.reg n i j hi)) : j < n.row.count := by
  unfold hitAt at h
  dsimp only at h
  split at h
  · split at h
    · cases h
    · split at h <;> cases h
  · split at h
    · cases h
    · split at h
      · cases h
      · split at h
        · cases h
        · obtain ⟨y, hy, e⟩ := Option.bind_eq_some_iff.1 h
          split at e <;> cases e
          obtain ⟨m, -, hm⟩ := List.exists_of_findSome?_eq_some hy
          exact (hit_eq_some hm).2

/-- SCH_SLOT and CMD_EVT_STAT are different registers. -/
theorem regKey_schSlot_ne (h : j < 512) : regKey .schSlot die i j ≠ regKey .cmdEvtStat 0 0 0 := by
  simp only [regKey, regOff, RegName.row]
  omega

end

/-! ### REGISTER_WRITE of one register -/

section
variable {s : State} {a : Addr} {size : Nat} {v : W64} {die off i j : Nat} {n : RegName}

/-- A write of no register changes nothing. -/
theorem exec_registerWrite_absent (hf : Fits (.registerWrite a size v) s) (hp : resolve s.dev a = none) :
    exec (.registerWrite a size v) s = .next s := by
  change execRegisterWrite a size v s = _
  unfold execRegisterWrite
  exact runOk_next (t := s.dev) hf.1 hf.2 (by simp only [hp])

theorem exec_registerWrite (hf : Fits (.registerWrite a size v) s) (hp : resolve s.dev a = some (.reg die off))
    (hb : commandBusy s.dev die = false) :
    exec (.registerWrite a size v) s = .next { s with dev := regStore s.dev die off size v.toNat } := by
  change execRegisterWrite a size v s = _
  unfold execRegisterWrite
  exact runOk_next hf.1 hf.2 (by simp only [hp, hb, Bool.not_false, whenOn_true])

/-- A write of 8 bytes to a 64-bit register is one write to it, of all its bits. -/
theorem exec_registerWrite_whole (hf : Fits (.registerWrite a 8 v) s) (hp : resolve s.dev a = some (.reg die off))
    (hb : commandBusy s.dev die = false) (hl : hitAt s.dev die off = some (.reg n i j false))
    (hh : hitAt s.dev die (off + 4) = some (.reg n i j true)) :
    exec (.registerWrite a 8 v) s = .next { s with dev := regWrite s.dev n die i j (BitVec.allOnes 64) v } := by
  rw [exec_registerWrite hf hp hb]
  simp [regStore, hl, hh]

/-- A write of 4 bytes to the low half of a register is one write to it. -/
theorem exec_registerWrite_low (hf : Fits (.registerWrite a 4 v) s) (hp : resolve s.dev a = some (.reg die off))
    (hb : commandBusy s.dev die = false) (ho : off % 4 = 0) (hl : hitAt s.dev die off = some (.reg n i j false)) :
    exec (.registerWrite a 4 v) s = .next { s with dev := regWrite s.dev n die i j lowMask (lowHalf v) } := by
  rw [exec_registerWrite hf hp hb]
  simp [regStore, wordWrite, ho, hl, lowMask, lowHalf]

end

/-! ### What the writes leave in the registers -/

section
variable {d : Dev} {n : RegName} {die i j hi lo v : Nat}

theorem rfld_rset (h : hi < 64) : rfld (rset d n die i j hi lo v) n die i j hi lo = v % 2 ^ (hi + 1 - lo) := by
  rw [rfld, rset, regGet_regSet_self, fld_setFld h]

theorem pendShadow_waits (h : hi < 64) :
    fld (tget ⟨0, 0, 0⟩ (pendShadow d n die i j hi lo v).shadow (regKey n die i j)).mask hi lo = 2 ^ (hi + 1 - lo) - 1 ∧
      fld (tget ⟨0, 0, 0⟩ (pendShadow d n die i j hi lo v).shadow (regKey n die i j)).val hi lo = v % 2 ^ (hi + 1 - lo) := by
  have ones : 2 ^ (hi + 1 - lo) - 1 < 2 ^ (hi + 1 - lo) := Nat.sub_lt (Nat.two_pow_pos _) Nat.one_pos
  simp only [pendShadow, tget_tset_self, fld_setFld h, Nat.mod_eq_of_lt ones, and_self]

/-- A field written at once waits no longer. -/
theorem unpendShadow_mask (h : hi < 64) :
    fld (tget ⟨0, 0, 0⟩ (unpendShadow d n die i j hi lo).shadow (regKey n die i j)).mask hi lo = 0 := by
  simp only [unpendShadow, tget_tset_self]
  split
  · simp [fld]
  · rw [fld_setFld h, Nat.zero_mod]

end

section
variable {d : Dev} {die i j : Nat} {v : W64}

theorem regGet_chnFault_written : regGet (regWrite d .chnFault die i j lowMask (lowHalf v)) .chnFault die i j =
    if v.getLsbD 0 = true then regGet d .chnFault die i j &&& ~~~1#64 else regGet d .chnFault die i j := by
  rw [regWrite_chnFault, regGet_regSet_self, fld_bit]
  split
  · rw [show (setFld 0 0 0 1 : W64) = 1#64 from rfl]
  · rw [show (setFld 0 0 0 0 : W64) = 0#64 from rfl, BitVec.not_zero, BitVec.and_allOnes]

theorem rfld_cmdEvtStat_dropped :
    rfld (regWrite d .cmdEvtStat die i j (BitVec.allOnes 64) v) .cmdEvtStat die i j 31 0 = fld v 31 0 := by
  rw [regWrite_cmdEvtStat, rfld, regGet_regSet_self]
  refine fld_congr fun k _ hk => ?_
  have hk' : k < 64 := by omega
  rw [BitVec.getLsbD_and, BitVec.getLsbD_not, getLsbD_setFld hk', getLsbD_setFld hk', if_pos (by omega), if_neg (by omega), testBit_fld]
  simp [hk', show k < 32 by omega]

theorem rfld_cmdEvtStat_overflow : rfld (regWrite d .cmdEvtStat die i j (BitVec.allOnes 64) v) .cmdEvtStat die i j 32 32 =
    if v.getLsbD 32 = true then 0 else rfld d .cmdEvtStat die i j 32 32 := by
  have h : 32 < 64 := by decide
  have bit (x : W64) (y : Nat) :
      (setFld x 31 0 y &&& ~~~(setFld 0 32 32 (fld v 32 32))).getLsbD 32 = (x.getLsbD 32 && !v.getLsbD 32) := by
    rw [BitVec.getLsbD_and, BitVec.getLsbD_not, getLsbD_setFld h, getLsbD_setFld h, if_neg (by decide), if_pos (by decide), testBit_fld]
    simp
  rw [regWrite_cmdEvtStat, rfld, regGet_regSet_self, fld_bit, bit, rfld, fld_bit]
  cases v.getLsbD 32 <;> simp

end

/-! ### Writes that wait, put in place -/

/-- SHADOW_WRITE_APPLY at the boundary of the register's block. -/
theorem exec_shadowWriteApply {s : State} {a : Addr} {die off i j : Nat} {n : RegName} {hi : Bool} {p : PendingWrite}
    (hf : Fits (.shadowWriteApply a) s) (hr : resolve s.dev a = some (.reg die off))
    (hh : hitAt s.dev die (off - off % 4) = some (.reg n i j hi)) (hp : p = tget ⟨0, 0, 0⟩ s.dev.shadow (regKey n die i j))
    (hm : p.mask ≠ 0) (hb : atBoundary s.dev n die i j = true) :
    exec (.shadowWriteApply a) s = .next { s with
      dev := regSet { s.dev with shadow := tset ⟨0, 0, 0⟩ s.dev.shadow (regKey n die i j) ⟨0, 0, 0⟩ } n die i j
        (mergeBits (regGet s.dev n die i j) p.mask p.val) } := by
  subst hp
  change execShadowWriteApply a s = _
  unfold execShadowWriteApply
  exact runOk_next hf.1 hf.2 (by simp only [hr, hh, hb, hm, ne_eq, not_false_eq_true, decide_true, Bool.and_self, whenOn_true])

section
variable {d e : Dev}

theorem NotesOnly.live (h : NotesOnly d e) : e.live = d.live := by
  obtain ⟨-, -, -, -, -, hb⟩ := h
  have live := congrArg Dev.live hb
  exact live

theorem NotesOnly.sched (h : NotesOnly d e) : e.sched = d.sched := by
  obtain ⟨-, -, -, -, -, hb⟩ := h
  have sched := congrArg Dev.sched hb
  exact sched

theorem NotesOnly.withSched (h : NotesOnly d e) (x : Sched) : NotesOnly { d with sched := x } { e with sched := x } := by
  obtain ⟨hc, hs, hh, hw, hm, hb⟩ := h
  exact ⟨hc, hs, hh, hw, hm, congrArg (fun d : Dev => { d with sched := x }) hb⟩

theorem keySet_notesOnly (d : Dev) (p : LateWrite) : NotesOnly d (keySet d p) := by
  unfold keySet
  dsimp only
  split
  · exact regSet_notesOnly d _ _ _ _ _
  · exact .refl d

theorem foldl_keySet_notesOnly (l : List LateWrite) (d : Dev) : NotesOnly d (l.foldl keySet d) := by
  induction l generalizing d with
  | nil => exact .refl d
  | cons p l ih => exact (keySet_notesOnly d p).trans (ih _)

/-- SCH_CTL.ENABLE brings a change of the schedule alone. -/
theorem enableEdge_notesOnly (was : Bool) (d : Dev) : NotesOnly { d with sched := (enableEdge was d).sched } (enableEdge was d) := by
  unfold enableEdge
  split
  · exact .refl d
  · split <;> exact ⟨rfl, rfl, rfl, rfl, rfl, rfl⟩

/-- The RW-L writes whose tick has come, put in place. -/
def lateApplied (d : Dev) : Dev :=
  (d.live.filter fun e => decide (e.since ≤ d.tick)).foldl keySet { d with live := d.live.filter fun e => decide (d.tick < e.since) }

/-- LIVE_WRITE_APPLY (R23): lateApplied, then what SCH_CTL.ENABLE and ALERT_SEV bring. -/
def liveApplied (d : Dev) : Dev := alertEdge (enableEdge (schedOn d) (lateApplied d))

theorem exec_liveWriteApply {s : State} (hf : Fits .liveWriteApply s) (h : ∃ e ∈ s.dev.live, e.since ≤ s.dev.tick) :
    exec .liveWriteApply s = .next { s with dev := liveApplied s.dev } := by
  obtain ⟨e, he, ht⟩ := h
  have due : (s.dev.live.filter fun e => decide (e.since ≤ s.dev.tick)).isEmpty = false :=
    List.isEmpty_eq_false_iff_exists_mem.2 ⟨e, List.mem_filter.2 ⟨he, decide_eq_true ht⟩⟩
  change execLiveWriteApply s = _
  unfold execLiveWriteApply
  exact runOk_next hf.1 hf.2 (by simp only [due, Bool.not_false, whenOn_true, liveApplied, lateApplied])

theorem liveApplied_notesOnly (d : Dev) :
    NotesOnly { d with live := (liveApplied d).live, sched := (liveApplied d).sched } (liveApplied d) ∧
      (liveApplied d).live = d.live.filter fun e => decide (d.tick < e.since) := by
  have put := (foldl_keySet_notesOnly (d.live.filter fun e => decide (e.since ≤ d.tick))
    { d with live := d.live.filter fun e => decide (d.tick < e.since) }).withSched (enableEdge (schedOn d) (lateApplied d)).sched
  have all : NotesOnly { d with
      live := d.live.filter fun e => decide (d.tick < e.since)
      sched := (enableEdge (schedOn d) (lateApplied d)).sched } (liveApplied d) :=
    put.trans ((enableEdge_notesOnly _ _).trans (alertEdge_notesOnly _))
  rw [all.live, all.sched]
  exact ⟨all, rfl⟩

theorem regGet_enableEdge (was : Bool) (d : Dev) (n : RegName) (die i j : Nat) :
    regGet (enableEdge was d) n die i j = regGet d n die i j := by
  unfold enableEdge
  split
  · rfl
  · split <;> rfl

/-- The register that a key of MED_CTL names. -/
theorem keySet_medCtl {p : LateWrite} {die : Nat} (h : p.key = regKey .medCtl die 0 0) :
    keySet d p = regSet d .medCtl die 0 0 (mergeBits (regGet d .medCtl die 0 0) p.mask p.val) := by
  have key : p.key = 0x20000000 * die + 0x15000000 := h
  have hd : p.key / 0x20000000 = die := by omega
  have hk : p.key % 0x20000000 = 0x15000000 := by omega
  simp only [keySet, hk, hd]
  rfl

theorem regGet_liveApplied_medCtl {p : LateWrite} {die : Nat} (hp : p.since ≤ d.tick) (h : p.key = regKey .medCtl die 0 0)
    (hl : d.live = [p]) : regGet (liveApplied d) .medCtl die 0 0 = mergeBits (regGet d .medCtl die 0 0) p.mask p.val := by
  have put : lateApplied d = keySet { d with live := [] } p := by
    simp [lateApplied, hl, hp]
  rw [liveApplied, regGet_alertEdge, regGet_enableEdge, put, keySet_medCtl h, regGet_regSet_self]
  rfl

end

/-! ### What accesses do to memory -/

section
variable (d : Dev)

theorem touchLine_mem (p : Place) (write hold : Bool) : (touchLine d p write hold).mem = d.mem := by
  unfold touchLine
  split
  · dsimp only
    split
    · rfl
    · split
      · rfl
      · split <;> rfl
  · rfl

theorem clearPoison_mem (p : Place) (n : Nat) : (clearPoison d p n).mem = d.mem :=
  List.foldlRecOn (motive := fun e : Dev => e.mem = d.mem) _ _ rfl fun _ h _ _ => (apply_ite Dev.mem _ _ _).trans ((ite_self _).trans h)

variable {d} {e : Dev} {a : Addr} {p : Place}

theorem devRead_memSame {n : Nat} {hold : Bool} {b : List Byte} (h : devRead d a n hold = (e, .ok b)) : MemSame d e := by
  have mem : e.mem = d.mem := by
    unfold devRead at h
    dsimp only at h
    split at h
    · cases h
    · cases h
    · split at h
      · cases h
      · split at h
        · cases h
        · split at h <;> cases h
          exact touchLine_mem d _ _ _
  intro k
  simp only [memByte, mem]

theorem devWrite_memSameBut {b : List Byte} (hp : resolve d a = some p) (h : devWrite d a b = (e, .ok ())) : MemSameBut p.key b.length d e := by
  have kept : ∃ x, x.mem = d.mem ∧ e = memPut x p.key b := by
    unfold devWrite at h
    rw [hp] at h
    split at h
    · cases h
    · cases h
    · cases ‹some p = some _›
      split at h
      · cases h
      · split at h <;> cases h
        exact ⟨_, (clearPoison_mem _ _ _).trans (touchLine_mem _ _ _ _), rfl⟩
  obtain ⟨x, hx, rfl⟩ := kept
  intro j hj
  rw [memByte_memPut, if_neg (by omega)]
  simp only [memByte, hx]

end

/-! ### COMMAND_DIE_ACCESS -/

section
variable {d e : Dev} {a : Addr} {n die off : Nat} {x : Option (List Byte)} {p : Place}

theorem misBy_eq_false : misBy n a.toNat = false ↔ a.toNat % n = 0 := by
  simp [misBy]

theorem hostAccess_misaligned (h : a.toNat % n ≠ 0) :
    hostAccess d a n x = some (reply d .misaligned (if x.isSome = true then [] else List.replicate n 0)) := by
  simp [hostAccess, misBy, h]

variable (ha : a.toNat % n = 0)
include ha

theorem hostAccess_absent (hr : resolve d a = none) :
    hostAccess d a n x = some (reply d .addressAbsent (if x.isSome = true then [] else List.replicate n 0)) := by
  simp [hostAccess, misBy_eq_false.2 ha, hr]

theorem hostAccess_reg_line (hr : resolve d a = some (.reg die off)) (hn : n = 64) :
    hostAccess d a n x = some (reply d .spaceDenied (if x.isSome = true then [] else List.replicate n 0)) := by
  simp only [hostAccess, misBy_eq_false.2 ha, hr, if_pos hn, Bool.false_eq_true, if_false]

theorem hostAccess_reg_read (hr : resolve d a = some (.reg die off)) (hn : n ≠ 64) :
    hostAccess d a n none = some (reply (reachHub d die off) .none (leBytes n (regShow (reachHub d die off) die off n))) := by
  simp [hostAccess, misBy_eq_false.2 ha, hr, hn, regRead]

theorem hostAccess_reg_write {b : List Byte} (hr : resolve d a = some (.reg die off)) (hn : n ≠ 64) :
    hostAccess d a n (some b) = some (reply (regStore d die off n (leNat b)) .none []) := by
  simp [hostAccess, misBy_eq_false.2 ha, hr, hn]

variable (hr : resolve d a = some p) (hp : ∀ die off, p ≠ .reg die off) (hb : placeBusy d p = false)
include hr hp hb

theorem hostAccess_read {b : List Byte} (h : devRead d a n false = (e, .ok b)) : hostAccess d a n none = some (reply e .none b) := by
  cases p with
  | reg die off => exact absurd rfl (hp die off)
  | _ => simp [hostAccess, misBy_eq_false.2 ha, hr, hb, h]

theorem hostAccess_write {b : List Byte} (h : devWrite d a b = (e, .ok ())) : hostAccess d a n (some b) = some (reply e .none []) := by
  cases p with
  | reg die off => exact absurd rfl (hp die off)
  | _ => simp [hostAccess, misBy_eq_false.2 ha, hr, hb, h]

end

theorem exec_commandDieAccess {s : State} {a : Addr} {n : Nat} {x : Option (List Byte)} {t : Dev} (hf : Fits (.commandDieAccess a n x) s)
    (hr : pkgReady s.dev = true) (hb : commandBusy s.dev (servingDie s.dev a) = false) (h : hostAccess s.dev a n x = some t) :
    exec (.commandDieAccess a n x) s = .next { s with dev := t } := by
  change execCommandDieAccess a n x s = _
  unfold execCommandDieAccess
  exact runCmd_next hf (by simp [hr, hb, h])

/-- A word that belongs to a register is reached without its hub. -/
theorem reachHub_reg {d : Dev} {die off i j : Nat} {n : RegName} {hi : Bool} (h : hitAt d die (off - off % 4) = some (.reg n i j hi)) :
    reachHub d die off = d := by
  simp only [reachHub, h]

/-! ### Writes that perform a row -/

section
variable {s : State} {die : Nat}

/-- A row that a write performs completes as its own command does. -/
theorem runCmd_viaRow {i : Instr} {f : Dev → Res} {t : Dev} (hf : Fits i s) (h : f s.dev = .next t) :
    runCmd i f s = .next { s with dev := viaRow (runCmd i f) s.dev } := by
  have row : runCmd i f ⟨s.dev, []⟩ = .next ⟨t, []⟩ := runCmd_next (s := ⟨s.dev, []⟩) hf h
  rw [runCmd_next hf h, viaRow, row]

theorem exec_errAckAll (hf : Fits (.errAckAll die) s) :
    exec (.errAckAll die) s = .next { s with dev := viaRow (execErrAckAll die) s.dev } := by
  change execErrAckAll die s = _
  unfold execErrAckAll
  exact runCmd_viaRow hf rfl

theorem exec_errCoreRst {core : BitVec 8} (hf : Fits (.errCoreRst die core) s) :
    exec (.errCoreRst die core) s = .next { s with dev := viaRow (execErrCoreRst die core) s.dev } := by
  change execErrCoreRst die core s = _
  unfold execErrCoreRst
  exact runCmd_viaRow hf rfl

theorem ofNat_fld_low_byte (v : W64) : BitVec.ofNat 8 (fld v 7 0) = v.extractLsb' 0 8 := by
  rw [fld_eq_extract, BitVec.ofNat_toNat, BitVec.setWidth_eq]

end

/-! ### O57 -/

/-- Settles O57: each clause is the effect of its command (exec_registerWrite_whole, exec_registerWrite_low, exec_shadowWriteApply,
exec_liveWriteApply, exec_commandDieAccess) with the write of the fields that the clause names. -/
theorem registersAndHost : Obligations.RegistersAndHost := by
  unfold Obligations.RegistersAndHost
  refine ⟨fun a n v s hf _ _ _ hr => exec_registerWrite_absent hf hr, ?whole, ?low, ?medCtl, ?shadow, ?live, ?host⟩
  case whole =>
    intro a v s die off r i j hf _ _ hr hb hl hh
    have e := exec_registerWrite_whole hf hr hb hl hh
    refine ⟨?ro, ?adminArg, ?slot, ?evtStat⟩
    case ro =>
      intro hn hro
      rw [e, regWrite_of_plain (List.mem_append_left _ hn), writeFields_of_ro hro]
    case adminArg =>
      rintro rfl
      rw [regWrite_cmdAdminArg] at e
      exact ⟨_, e, rfl, (rfld_rset (by decide)).trans ((Nat.mod_eq_of_lt fld_lt).trans fld_eq_extract)⟩
    case slot =>
      rintro rfl locked
      rw [regWrite_schSlot_locked locked] at e
      exact ⟨_, e, logIgnoredAt_ignored _ _ _ _ _ _, regGet_logErr _ _ _ (regKey_schSlot_ne (hitAt_count hl))⟩
    case evtStat =>
      rintro rfl
      exact ⟨_, e, by rw [regWrite_cmdEvtStat]; rfl, rfld_cmdEvtStat_dropped.trans fld_eq_extract, rfld_cmdEvtStat_overflow⟩
  case low =>
    intro a v s die off r i j hf _ _ hr ho hl hb
    have e := exec_registerWrite_low hf hr hb ho hl
    refine ⟨?fault, ?ack, ?coreRst, ?cubeCtl⟩
    case fault =>
      rintro rfl
      exact ⟨_, e, by rw [regWrite_chnFault]; rfl, regGet_chnFault_written⟩
    case ack =>
      rintro rfl hfa hv
      rw [e, regWrite_errAck_all (fld_bit_one hv), exec_errAckAll hfa]
    case coreRst =>
      rintro rfl hfr
      refine ⟨fun hv => ?_, fun hv => ?_⟩
      · rw [e, regWrite_errCoreRst_go (fld_bit_one hv), ofNat_fld_low_byte, exec_errCoreRst hfr]
      · rw [e, regWrite_errCoreRst_no_go (fld_bit_zero hv)]
    case cubeCtl =>
      rintro rfl hv
      have hold : fld v 15 8 % 2 ^ (15 + 1 - 8) = (v.extractLsb' 8 8).toNat := (Nat.mod_eq_of_lt fld_lt).trans fld_eq_extract
      refine ⟨fun hrun => ?_, fun hrun => ?_⟩
      · rw [regWrite_cubeCtl_idle (fld_bit_zero hv) hrun] at e
        exact ⟨_, e, rfl, (rfld_rset (by decide)).trans hold, unpendShadow_mask (by decide)⟩
      · rw [regWrite_cubeCtl_running (fld_bit_zero hv) hrun] at e
        obtain ⟨mask, val⟩ := pendShadow_waits (d := s.dev) (n := .cubeCtl) (die := die) (i := i) (j := j) (lo := 8) (v := fld v 15 8)
          (show 15 < 64 by decide)
        exact ⟨_, e, rfl, mask, val.trans hold⟩
  case medCtl =>
    intro a v s die off i j hf _ _ hr ho hl hv hb
    have e := exec_registerWrite_low hf hr hb ho hl
    have limit : fld v 7 0 = v.toNat := by simp only [fld]; omega
    rw [regWrite_medCtl (limit ▸ hv), limit] at e
    exact ⟨_, e, rfl, rfl⟩
  case shadow =>
    intro a s die off r i j hi p hf hr hh hp hm hb
    exact ⟨_, exec_shadowWriteApply hf hr hh hp hm hb, rfl, regGet_regSet_self _ _ _ _ _ _, tget_tset_self _ _ _ _⟩
  case live =>
    intro s hf due
    refine ⟨_, exec_liveWriteApply hf due, (liveApplied_notesOnly s.dev).1, (liveApplied_notesOnly s.dev).2, fun die p _ hk hl => ?_⟩
    obtain ⟨x, hx, ht⟩ := due
    rw [hl, List.mem_singleton] at hx
    exact regGet_liveApplied_medCtl (hx ▸ ht) hk hl
  case host =>
    intro a n x s hf hr hb
    have e {t : Dev} (h : hostAccess s.dev a n x = some t) := exec_commandDieAccess hf hr hb h
    refine ⟨fun h _ => ⟨_, e (hostAccess_misaligned h), rfl, rfl⟩, fun ha h => ⟨_, e (hostAccess_absent ha h), rfl, rfl⟩, ?regRead,
      ?regWrite, fun die off ha h hn => ⟨_, e (hostAccess_reg_line ha h hn), rfl⟩, ?read, ?write⟩
    case regRead =>
      rintro die off ha h hn rfl
      exact ⟨_, e (hostAccess_reg_read ha h hn), rfl, fun r i j hi hh => reachHub_reg hh⟩
    case regWrite =>
      rintro die off b ha h hn rfl hfw _ hlt t ht hbd
      rw [exec_registerWrite hfw h hbd, BitVec.toNat_ofNat, Nat.mod_eq_of_lt hlt] at ht
      cases ht
      exact e (hostAccess_reg_write ha h hn)
    case read =>
      rintro p f b ha h hp hpb rfl hd
      have same := devRead_memSame hd
      exact ⟨_, e (hostAccess_read ha h hp hpb hd), rfl, same⟩
    case write =>
      rintro p f b ha h hp hpb rfl hd
      have same := devWrite_memSameBut h hd
      exact ⟨_, e (hostAccess_write ha h hp hpb hd), rfl, same⟩

end Sys2Proof.Machine
end

section
/-!
SUPPORT. The control class and the crews (chapter 01): what an empty queue does, registers in flight, what a stake answers to its users, and CTL.LAUNCH,
LAUNCH_DEQUEUE and CTL.EXIT.
-/

namespace Sys2Proof.Machine

/-! ### O2: an empty queue -/

theorem step_of_pending_nil {s : State} (h : s.pending = []) : step s = .next { s with dev := { s.dev with tick := s.dev.tick + 1 } } := by
  simp only [step, h, idle]

/-- A run of one step more on an empty queue goes on from the next tick. -/
theorem run_succ_of_pending_nil {s : State} (n : Nat) (h : s.pending = []) : Sys2Proof.core.run (n + 1) s = Sys2Proof.core.run n (idle s) := by
  have hs : Sys2Proof.core.step s = .next (idle s) := step_of_pending_nil h
  simp only [Host.Core.run, hs]

/-- Settles O2, by induction on the number of steps. -/
theorem emptyQueueTicks : Obligations.EmptyQueueTicks := by
  refine ⟨fun s h => step_of_pending_nil h, fun n => ?_⟩
  induction n with
  | zero => exact fun s _ => rfl
  | succ n ih =>
    intro s h
    have ticks : s.dev.tick + 1 + n = s.dev.tick + (n + 1) := by omega
    calc Sys2Proof.core.run (n + 1) s
        = Sys2Proof.core.run n (idle s) := run_succ_of_pending_nil n h
      _ = .next { s with dev := { s.dev with tick := s.dev.tick + 1 + n } } := ih (idle s) h
      _ = .next { s with dev := { s.dev with tick := s.dev.tick + (n + 1) } } := by rw [ticks]

/-! ### O16: registers in flight -/

/-- A sequencer's instruction that names a register in flight answers the state it was given (R682). -/
theorem exec_inflight {i : Instr} {row : String} {c : CoreId} {regs : List Nat} {g : Dev → Res} {f : Dev → W64 → Res} {s : State} {r : Nat}
    (e : exec i s = runCmd i g s) (hg : g s.dev = issue row (.seq c) i regs f s.dev) (hf : Fits i s) (hr : seqReady s.dev c = true)
    (hp : (seqOf s.dev c).pc < textLen s.dev c) (ho : operandSub i = 0) (hm : r ∈ regs) (hi : r ∈ (seqOf s.dev c).inflight) :
    exec i s = .next s :=
  e.trans (runCmd_next hf (hg.trans (issue_inflight row f hr hp ho ⟨r, hm, hi⟩)))

theorem scalarTo_eq_issue (row : String) (c : CoreId) (i : Instr) (reads : List Nat) (sd : Nat) (f : Dev → W64) (d : Dev) :
    scalarTo row c i reads sd f d =
      issue row (.seq c) i (sd :: reads) (fun d _ => .next (stepPc (setSreg d c sd (f d)) (.seq c))) d := rfl

/-- What the S3 instructions share: each computes s[SD] from SA and SB. -/
theorem exec_scalar3 {i : CoreId → S3Op → Instr} (hi : i ∈ [Instr.sclAdd, .sclSub, .sclMul, .sclMulh, .sclAnd, .sclOr, .sclXor, .sclShl, .sclShr,
    .sclSar, .sclMin, .sclMax, .sclCmp]) (c : CoreId) (o : S3Op) (s : State) :
    ∃ row f, exec (i c o) s = runCmd (i c o) (scalar3 row c (i c o) o f) s := by
  simp only [List.mem_cons, List.not_mem_nil, or_false] at hi
  rcases hi with rfl | rfl | rfl | rfl | rfl | rfl | rfl | rfl | rfl | rfl | rfl | rfl | rfl
  all_goals exact ⟨_, _, rfl⟩

/-- Settles O16: each form is an instruction whose named registers include the one in flight. -/
theorem registersInFlight : Obligations.RegistersInFlight := by
  refine ⟨?s3, ?branch, ?move⟩
  case s3 =>
    intro i hi c o s r hf hr hp ho hm hin
    obtain ⟨row, f, e⟩ := exec_scalar3 hi c o s
    exact exec_inflight e (scalarTo_eq_issue _ _ _ _ _ _ _) hf hr hp ho hm hin
  case branch =>
    intro i hi c o s hf hr hp ho hin
    simp only [List.mem_cons, List.not_mem_nil, or_false] at hi
    rcases hi with rfl | rfl
    all_goals exact exec_inflight rfl rfl hf hr hp ho (List.mem_singleton_self _) hin
  case move =>
    intro i hi c o s hf hr hp ho hin
    simp only [List.mem_cons, List.not_mem_nil, or_false] at hi
    rcases hi with rfl | rfl | rfl
    · exact exec_inflight rfl rfl hf hr hp ho (List.mem_singleton_self _) hin
    · exact exec_inflight rfl (scalarTo_eq_issue _ _ _ _ _ _ _) hf hr hp ho (List.mem_singleton_self _) hin
    · exact exec_inflight rfl rfl hf hr hp ho (List.mem_singleton_self _) hin

/-! ### What a stake answers to its users (R52, R53) -/

theorem stakeCheck_good {d : Dev} {id : StakeId} {parcel : Nat} (h : StakeGood d id parcel) : stakeCheck d id (some parcel) = .none := by
  obtain ⟨hd, he, hp⟩ := h
  simp [stakeCheck, Nat.not_le.2 hd, he, hp]

theorem stakeCheck_absent {d : Dev} {id : StakeId} (parcel : Option Nat) (h : d.part.dies ≤ stakeDie id) :
    stakeCheck d id parcel = .addressAbsent := by
  simp [stakeCheck, h]

theorem stakeCheck_denied {d : Dev} {id : StakeId} {parcel : Nat} (hd : stakeDie id < d.part.dies) (h : ¬StakeGood d id parcel) :
    stakeCheck d id (some parcel) = .stakeDenied := by
  have refused : (getStake d id).enable = true → parcel ≠ (getStake d id).parcel := fun he hp => h ⟨hd, he, hp.symm⟩
  by_cases he : (getStake d id).enable = true
  · simp [stakeCheck, Nat.not_le.2 hd, he, refused he]
  · simp [stakeCheck, Nat.not_le.2 hd, he]

/-! ### O11: CTL.LAUNCH -/

theorem branchTarget_entry (d : Dev) (c : CoreId) (e : BitVec 18) :
    branchTarget d (.seq c) (BitVec.ofInt 32 e.toInt) = ((getCore d c).w.seq.pc : Int) + e.toInt := by
  have lo := BitVec.le_toInt e
  have hi := BitVec.toInt_lt (x := e)
  simp only [branchTarget, agentPc, BitVec.toInt_ofInt]
  rw [Int.bmod_eq_of_le (by omega) (by omega)]

/-- The launch of n crews from entry t that CTL.LAUNCH queues (R33). -/
def queuedLaunch (d : Dev) (c : CoreId) (o : LnOp) (n : Nat) (t : Int) : Launch where
  serial := d.serial
  entry := t.toNat
  n := n
  args := (List.range 8).map (sreg d c)
  stake := o.stake
  left := n
  hook := none
  tile := (sreg d c 7).toNat % 2 ^ 32

/-- The launch enters the queue, the part has one launch more to complete, and the sequencer goes on. -/
def launchQueued (d : Dev) (c : CoreId) (l : Launch) : Dev :=
  stepPc (partIssue (nextSerial (modWork d c fun w => { w with launchQ := w.launchQ ++ [l] })) c false) (.seq c)

/-- CTL.LAUNCH that may issue: its tests in their order (R116), then a stall while eight launches wait (R28), else the launch enters the queue. -/
theorem exec_ctlLaunch {c : CoreId} {o : LnOp} {s : State} {n : Nat} {t : Int} (hf : Fits (.ctlLaunch c o) s)
    (hc : CanIssue (.seq c) (.ctlLaunch c o) ((if o.nreg = 1 then [o.ns.toNat] else []) ++ List.range 8) s.dev)
    (hn : n = if o.nreg = 1 then (sreg s.dev c o.ns.toNat).toNat else o.n.toNat)
    (ht : t = branchTarget s.dev (.seq c) (BitVec.ofInt 32 o.entry.toInt)) :
    ∃ w, exec (.ctlLaunch c o) s = .next { s with
      dev := if 64 < n then seqFault s.dev c .illegalInstruction 6 (seqOf s.dev c).pc w
        else if ¬(0 ≤ t ∧ t < textLen s.dev (Agent.seq c).core) then seqFault s.dev c .fetchRange 0 (seqOf s.dev c).pc w
        else if stakeCheck s.dev o.stake (some (parcelOf s.dev c)) ≠ .none then
          seqFault s.dev c (stakeCheck s.dev o.stake (some (parcelOf s.dev c))) 0 (seqOf s.dev c).pc w
        else if 8 ≤ (getCore s.dev c).w.launchQ.length then s.dev else launchQueued s.dev c (queuedLaunch s.dev c o n t) } := by
  refine ⟨(encode (.ctlLaunch c o)).getD 0, (show execCtlLaunch c o s = _ from runCmd_next hf ((issue_of _ _ hc).trans ?_))⟩
  simp only [hn, ht, queuedLaunch, branchTarget_entry]
  rfl


@[simp] theorem getCore_nextSerial (d : Dev) (c : CoreId) : getCore (nextSerial d) c = getCore d c := rfl

theorem launchQueued_onlyCore (d : Dev) (c : CoreId) (l : Launch) : OnlyCore c { d with serial := d.serial + 1 } (launchQueued d c l) := by
  have queued := modCore_onlyCore (nextSerial d) c fun k => { k with w := { k.w with launchQ := k.w.launchQ ++ [l] } }
  exact (queued.trans (modCore_onlyCore _ c _)).trans (stepPc_onlyCore _ (.seq c))

theorem getCore_launchQueued (d : Dev) (c : CoreId) (l : Launch) : getCore (launchQueued d c l) c =
    { getCore d c with w := { (getCore d c).w.issued false with launchQ := (getCore d c).w.launchQ ++ [l] } } := by
  simp [launchQueued, stepPc, setPc, agentPc, partIssue, modPart, Work.issued, b2n]

/-- A sequencer that faults keeps its core's launch queue. -/
theorem SeqFaulted.launchQ {c : CoreId} {f : FaultCode} {sub : Nat} {d t : Dev} (h : SeqFaulted c f sub d t) :
    (getCore t c).w.launchQ = (getCore d c).w.launchQ := by
  obtain ⟨core, -⟩ := h
  rw [core]

/-- Settles O11: the first test of CTL.LAUNCH that fails faults the sequencer (exec_ctlLaunch, seqFault_spec); with none the launch enters the queue. -/
theorem launchIssues : Obligations.LaunchIssues := by
  unfold Obligations.LaunchIssues InText
  refine ⟨?queues, ?tests⟩
  case queues =>
    intro c o s n hf hc count hn ht hd he hp hq
    obtain ⟨w, e⟩ := exec_ctlLaunch hf hc count rfl
    have core := getCore_launchQueued s.dev c (queuedLaunch s.dev c o n (branchTarget s.dev (.seq c) (BitVec.ofInt 32 o.entry.toInt)))
    rw [if_neg (Nat.not_lt.2 hn), if_neg (not_not.2 ht), stakeCheck_good ⟨hd, he, hp⟩, if_neg (not_not.2 rfl), if_neg (Nat.not_le.2 hq)] at e
    refine ⟨_, e, ?_, ?_, fun q => ?_, launchQueued_onlyCore s.dev c _⟩
    · rw [core]; rfl
    · simp only [seqOf, core]; rfl
    · simp only [getCrew, core]; rfl
  case tests =>
    intro c o s n t hf hc count target
    obtain ⟨w, e⟩ := exec_ctlLaunch hf hc count target
    have faults {f : FaultCode} {sub : Nat} (h : exec (.ctlLaunch c o) s = .next { s with dev := seqFault s.dev c f sub (seqOf s.dev c).pc w }) :
        Completes (.ctlLaunch c o) s fun e => SeqFaulted c f sub s.dev e ∧ (getCore e c).w.launchQ = (getCore s.dev c).w.launchQ :=
      have stopped := seqFault_spec s.dev c f sub (seqOf s.dev c).pc w
      ⟨_, h, stopped, stopped.launchQ⟩
    refine ⟨fun hn => faults ?count, fun hn ht => faults ?entry, fun hn ht hd => faults ?absent, fun hn ht hd hs => faults ?denied,
      fun hn ht hd he hp hq => ?stall⟩
    case count => rw [e, if_pos hn]
    case entry => rw [e, if_neg (Nat.not_lt.2 hn), if_pos ht]
    case absent =>
      rw [e, if_neg (Nat.not_lt.2 hn), if_neg (not_not.2 ht), stakeCheck_absent _ hd, if_pos nofun]
    case denied =>
      have bad : ¬StakeGood s.dev o.stake (parcelOf s.dev c) := by
        rintro ⟨-, he, hp⟩
        rcases hs with hs | hs
        · exact absurd he (by simp [hs])
        · exact hs hp
      rw [e, if_neg (Nat.not_lt.2 hn), if_neg (not_not.2 ht), stakeCheck_denied hd bad, if_pos nofun]
    case stall =>
      rw [e, if_neg (Nat.not_lt.2 hn), if_neg (not_not.2 ht), stakeCheck_good ⟨hd, he, hp⟩, if_neg (not_not.2 rfl), if_pos hq]

/-! ### Launches that complete (R36) -/

theorem getCore_partDone (d : Dev) (c : CoreId) (f : FaultCode) (sub : Nat) (empty : Bool) : getCore (partDone d c f sub empty) c =
    { getCore d c with w := { (getCore d c).w with part := (getCore (partDone d c f sub empty) c).w.part } } := by
  simp [partDone, modPart]

/-- A program's launch that completes leaves its core as it was but for the part's account. -/
theorem getCore_launchDone {l : Launch} (h : l.hook = none) (d : Dev) (c : CoreId) (f : FaultCode) (sub : Nat) : getCore (launchDone d c l f sub) c =
    { getCore d c with w := { (getCore d c).w with part := (getCore (launchDone d c l f sub) c).w.part } } := by
  rw [launchDone_core, h]
  exact getCore_partDone d c f sub false

/-- A program's launch that completes has arrived at its stake (R29, R36). -/
theorem launchDone_arrived {l : Launch} (h : l.hook = none) (d : Dev) (c : CoreId) (f : FaultCode) (sub : Nat) :
    Arrived c 3 (parcelOf d c) 1 (decide (f ≠ .none)) l.stake (launchDone d c l f sub) := by
  simp only [launchDone, h]
  exact unitArrive_arrived _ _ _ _ _ _ _

/-! ### O12: LAUNCH_DEQUEUE -/

section
variable {c : CoreId} {s : State} {l : Launch} {rest : List Launch}

theorem exec_launchDequeue_refused (hf : Fits (.launchDequeue c) s) (hq : (getCore s.dev c).w.launchQ = l :: rest)
    (h : l.hook ≠ none ∨ (freeSlots (getCore s.dev c).w).length < l.n) :
    exec (.launchDequeue c) s = .refused (.notEnabled "LAUNCH_DEQUEUE") := by
  change execLaunchDequeue c s = _
  unfold execLaunchDequeue runCmd
  rw [runOk_of hf.1 hf.2]
  have held : (l.hook.isSome || decide ((freeSlots (getCore s.dev c).w).length < l.n)) = true := by
    simpa [Option.isSome_iff_ne_none] using h
  simp [hq, Bool.or_assoc, held]

/-- The oldest launch has left the queue. -/
def launchTaken (d : Dev) (c : CoreId) (rest : List Launch) : Dev := modWork d c fun w => { w with launchQ := rest }

/-- Crews of a launch enter slots, each with its index (R36). -/
def bindCrews (l : Launch) (slots : List (Nat × Nat)) (t : Tbl (Option Crew)) : Tbl (Option Crew) :=
  slots.foldl (fun t x => tset none t x.1 (some (Crew.start l x.2))) t

/-- A launch runs with its crews in the lowest free slots. -/
def launchBound (d : Dev) (c : CoreId) (l : Launch) (slots : List Nat) : Dev :=
  modWork d c fun w => { w with launches := w.launches ++ [l], crews := bindCrews l slots.zipIdx w.crews }

theorem exec_launchDequeue (hf : Fits (.launchDequeue c) s) (hq : (getCore s.dev c).w.launchQ = l :: rest) (hfe : (getCore s.dev c).fenced = false)
    (hs : (getCore s.dev c).sched = 1) (hst : (getCore s.dev c).stopping = false) (hh : l.hook = none)
    (hn : l.n ≤ (freeSlots (getCore s.dev c).w).length) : exec (.launchDequeue c) s = .next { s with
      dev := if l.n = 0 then launchDone (launchTaken s.dev c rest) c l .none 0
        else launchBound (launchTaken s.dev c rest) c l ((freeSlots (getCore s.dev c).w).take l.n) } := by
  change execLaunchDequeue c s = _
  refine runCmd_next hf ?_
  simp only [hq, hfe, hs, hst, hh, Nat.not_lt.2 hn]
  by_cases hz : l.n = 0
  · simp [hz, launchTaken]
  · simp [hz, launchTaken, launchBound, bindCrews]

end

theorem tget_bindCrews_of_notMem (l : Launch) {slots : List (Nat × Nat)} {q : Nat} (h : q ∉ slots.map Prod.fst) (t : Tbl (Option Crew)) :
    tget none (bindCrews l slots t) q = tget none t q := by
  induction slots generalizing t with
  | nil => rfl
  | cons x slots ih =>
    rw [List.map_cons, List.mem_cons, not_or] at h
    exact (ih h.2 _).trans (tget_tset_ne none t _ h.1)

/-- Slot i of the list holds the crew of index i. -/
theorem tget_bindCrews_of_getElem? (l : Launch) {slots : List Nat} (hd : slots.Nodup) {i q : Nat} (h : slots[i]? = some q) (k : Nat)
    (t : Tbl (Option Crew)) : tget none (bindCrews l (slots.zipIdx k) t) q = some (Crew.start l (k + i)) := by
  induction slots generalizing i k t with
  | nil => cases h
  | cons x slots ih =>
    obtain ⟨hx, hd⟩ := List.nodup_cons.1 hd
    cases i with
    | zero =>
      cases h
      have later : q ∉ (slots.zipIdx (k + 1)).map Prod.fst := by rwa [List.zipIdx_map_fst]
      exact (tget_bindCrews_of_notMem l later _).trans (tget_tset_self none t q _)
    | succ i =>
      exact (ih hd h (k + 1) _).trans (by rw [Nat.add_assoc, Nat.add_comm 1])

theorem freeSlots_nodup (w : Work) : (freeSlots w).Nodup := List.nodup_range.filter _

/-- Settles O12: a launch that may not leave the queue is refused; one that may is bound to the lowest free slots, or completes with no crew. -/
theorem launchBinds : Obligations.LaunchBinds := by
  refine ⟨fun c s l rest hf hq hn => exec_launchDequeue_refused hf hq (.inr hn), fun c s l rest hf hq hh => exec_launchDequeue_refused hf hq (.inl hh),
    ?bind, ?empty⟩
  case bind =>
    intro c s l rest hf hq hfe hs hst hh hpos hn
    have e := exec_launchDequeue hf hq hfe hs hst hh hn
    rw [if_neg (Nat.ne_of_gt hpos)] at e
    have only : OnlyCore c s.dev (launchBound (launchTaken s.dev c rest) c l ((freeSlots (getCore s.dev c).w).take l.n)) :=
      (modCore_onlyCore s.dev c _).trans (modCore_onlyCore _ c _)
    refine ⟨_, e, only, ?_, ?_, ?_, fun i q hi hslot => ?_, fun q hslot => ?_⟩
    · simp [seqOf, launchBound, launchTaken]
    · simp [launchBound, launchTaken]
    · simp [launchBound, launchTaken]
    · have slot : ((freeSlots (getCore s.dev c).w).take l.n)[i]? = some q := by rw [List.getElem?_take_of_lt hi, hslot]
      have bound := tget_bindCrews_of_getElem? l ((freeSlots_nodup (getCore s.dev c).w).sublist (List.take_sublist _ _)) slot 0 (getCore s.dev c).w.crews
      simpa [getCrew, launchBound, launchTaken, Crew.start] using bound
    · have other : q ∉ (((freeSlots (getCore s.dev c).w).take l.n).zipIdx 0).map Prod.fst := by rwa [List.zipIdx_map_fst]
      have kept := tget_bindCrews_of_notMem l other (getCore s.dev c).w.crews
      simpa [getCrew, launchBound, launchTaken] using kept
  case empty =>
    intro c s l rest hf hq hfe hs hst hh hz
    have e := exec_launchDequeue hf hq hfe hs hst hh (hz ▸ Nat.zero_le _)
    rw [if_pos hz] at e
    have core := getCore_launchDone hh (launchTaken s.dev c rest) c .none 0
    have beyond : (launchDone (launchTaken s.dev c rest) c l .none 0).beyondCores = s.dev.beyondCores := launchDone_beyond _ _ _ _ _
    have parcel : parcelOf (launchTaken s.dev c rest) c = parcelOf s.dev c := by simp [parcelOf, launchTaken]
    refine ⟨_, e, ?_, fun q => ?_, ?_, parcel ▸ launchDone_arrived hh _ c .none 0, memSame_of_beyondCores beyond, beyond⟩
    · rw [core]; simp [launchTaken]
    · rw [getCrew, core]; simp [launchTaken, getCrew]
    · rw [seqOf, core]; simp [launchTaken, seqOf]

/-! ### O13: CTL.EXIT -/

theorem exec_ctlExit {c : CoreId} {slot : Nat} {s : State} {k : Crew} (hf : Fits (.ctlExit c slot) s)
    (hc : CanIssue (.crew c slot) (.ctlExit c slot) [] s.dev) (hk : getCrew s.dev c slot = some k) :
    exec (.ctlExit c slot) s = .next { s with dev := crewEnd (freeSlot s.dev c slot) c k.launch } := by
  change execCtlExit c slot s = _
  exact runCmd_next hf ((issue_of _ _ hc).trans (by simp only [hk]))

/-- One crew of a launch has ended and others go on. -/
theorem crewEnd_of_others {d : Dev} {c : CoreId} {serial : Nat} {l : Launch} (h : findLaunch (getCore d c).w serial = some l) (hl : 1 < l.left) :
    crewEnd d c serial = modWork d c fun w => { w with
      launches := w.launches.map fun x => if x.serial = serial then { x with left := x.left - 1 } else x } := by
  simp only [crewEnd, h, Nat.not_le.2 hl, if_false]

/-- The last crew of a launch has ended. -/
theorem crewEnd_of_last {d : Dev} {c : CoreId} {serial : Nat} {l : Launch} (h : findLaunch (getCore d c).w serial = some l) (hl : l.left ≤ 1) :
    crewEnd d c serial =
      launchDone (modWork d c fun w => { w with launches := w.launches.filter fun x => decide (x.serial ≠ serial) }) c l .none 0 := by
  simp only [crewEnd, h, hl, if_true]

/-- A launch that counts one crew less is found under its number as before. -/
theorem findLaunch_map_left {w : Work} {serial : Nat} {l : Launch} (h : findLaunch w serial = some l) :
    findLaunch { w with launches := w.launches.map fun x => if x.serial = serial then { x with left := x.left - 1 } else x } serial =
      some { l with left := l.left - 1 } := by
  have same : ((fun x : Launch => decide (x.serial = serial)) ∘ fun x : Launch => if x.serial = serial then { x with left := x.left - 1 } else x) =
      fun x => decide (x.serial = serial) := by
    funext x
    by_cases hx : x.serial = serial <;> simp [hx]
  have found : l.serial = serial := by simpa using List.find?_some h
  simp only [findLaunch, List.find?_map, same] at h ⊢
  simp [h, found]

theorem findLaunch_freeSlot (d : Dev) (c : CoreId) (slot serial : Nat) :
    findLaunch (getCore (freeSlot d c slot) c).w serial = findLaunch (getCore d c).w serial := by
  rw [getCore_freeSlot]; rfl

theorem getCrew_freeSlot (d : Dev) (c : CoreId) (slot q : Nat) : getCrew (freeSlot d c slot) c q = if q = slot then none else getCrew d c q := by
  simp [getCrew, tget_tset]

/-- The end of a crew of a program's launch changes of its core only the launches and the part's account, and nothing beyond the cores. -/
theorem crewEnd_frame {d : Dev} {c : CoreId} {serial : Nat} {l : Launch} (h : findLaunch (getCore d c).w serial = some l) (hh : l.hook = none) :
    getCore (crewEnd d c serial) c = { getCore d c with w := { (getCore d c).w with
      launches := (getCore (crewEnd d c serial) c).w.launches
      part := (getCore (crewEnd d c serial) c).w.part } } ∧ (crewEnd d c serial).beyondCores = d.beyondCores := by
  rcases Nat.lt_or_ge 1 l.left with hl | hl
  · rw [crewEnd_of_others h hl]
    exact ⟨by simp, rfl⟩
  · rw [crewEnd_of_last h hl]
    refine ⟨?_, launchDone_beyond _ _ _ _ _⟩
    rw [getCore_launchDone hh]
    simp

/-- Settles O13: the slot is freed (getCrew_freeSlot), and the launch has one crew less or completes (crewEnd_of_others, crewEnd_of_last). -/
theorem crewExits : Obligations.CrewExits := by
  intro c slot s k l hf hc hk hl hh
  have found := (findLaunch_freeSlot s.dev c slot k.launch).trans hl
  obtain ⟨core, beyond⟩ := crewEnd_frame found hh
  have crew (q : Nat) : getCrew (crewEnd (freeSlot s.dev c slot) c k.launch) c q = if q = slot then none else getCrew s.dev c q := by
    rw [← getCrew_freeSlot, getCrew, core]; rfl
  refine ⟨_, exec_ctlExit hf hc hk, (crew slot).trans (if_pos rfl), fun q hq => (crew q).trans (if_neg hq), ?_, memSame_of_beyondCores beyond, beyond,
    fun left => ?_, fun last => ?_⟩
  · rw [seqOf, core]; simp [seqOf]
  · rw [crewEnd_of_others found left, getCore_modWork]
    exact findLaunch_map_left found
  · have parcel : parcelOf (modWork (freeSlot s.dev c slot) c fun w => { w with launches := w.launches.filter fun x => decide (x.serial ≠ k.launch) }) c =
        parcelOf s.dev c := by simp [parcelOf]
    rw [crewEnd_of_last found last]
    refine ⟨?_, parcel ▸ launchDone_arrived hh _ c .none 0⟩
    rw [getCore_launchDone hh, getCore_modWork]
    exact findLaunch_filter _ _

end Sys2Proof.Machine
end

section
/-!
SUPPORT. Unit queues (chapter 01): what a D-format instruction answers, by the test of its completion stake, the room in its queue and the stream it names.
-/

namespace Sys2Proof.Machine

/-! ### Issue of D-format instructions (R28, R54) -/

section
variable {i : Instr} {row : String} {c : CoreId} {o : DOp} {kind opc : Nat} {hreg : Bool} {full : Dev → Bool} {push : Dev → Op → Dev} {s : State} {op : Op}

/-- The part has one operation more under way (R428, R429), before the operation enters its queue. -/
def opIssued (d : Dev) (c : CoreId) (kind : Nat) : Dev := partIssue (nextSerial d) c (decide (kind ≠ 0))

variable (e : exec i s = runCmd i (dIssue row c i o kind opc hreg full push) s) (hf : Fits i s) (hc : CanIssue (.seq c) i (dRegs o hreg) s.dev)
  (ho : op = dOp s.dev c o kind opc hreg)
include e hf hc ho

/-- A completion stake that refuses the operation faults the sequencer (R54). -/
theorem exec_dIssue_refused (hs : stakeCheck s.dev op.stake (some op.parcel) ≠ .none) :
    ∃ pc w, exec i s = .next { s with dev := seqFault s.dev c (stakeCheck s.dev op.stake (some op.parcel)) 0 pc w } := by
  subst ho
  exact ⟨_, _, e.trans (runCmd_next hf ((issue_of _ _ hc).trans (congrArg Host.Outcome.next (if_pos hs))))⟩

variable (hs : StakeGood s.dev op.stake op.parcel)
include hs

/-- A full queue holds the instruction up (R28). -/
theorem exec_dIssue_full (h : full s.dev = true) : exec i s = .next s := by
  subst ho
  refine e.trans (runCmd_next (t := s.dev) hf ((issue_of _ _ hc).trans (congrArg Host.Outcome.next ?_)))
  rw [if_neg (not_not.2 (stakeCheck_good hs)), if_pos h]

/-- An operation that its queue has room for enters it, and the sequencer goes on (R28). -/
theorem exec_dIssue_queues (h : full s.dev ≠ true) :
    exec i s = .next { s with dev := stepPc (push (opIssued s.dev c kind) op) (.seq c) } := by
  subst ho
  refine e.trans (runCmd_next hf ((issue_of _ _ hc).trans (congrArg Host.Outcome.next ?_)))
  rw [if_neg (not_not.2 (stakeCheck_good hs)), if_neg h]
  rfl

end

theorem getCore_opIssued (d : Dev) (c : CoreId) (kind : Nat) : getCore (opIssued d c kind) c = { getCore d c with w := { (getCore d c).w with
    part := (getCore d c).w.part.map fun p => { p with out := p.out + 1, issued := p.issued + if decide (kind ≠ 0) then 1 else 0 } } } := by
  simp [opIssued, partIssue, modPart, b2n]

theorem opIssued_onlyCore (d : Dev) (c : CoreId) (kind : Nat) : OnlyCore c { d with serial := d.serial + 1 } (opIssued d c kind) :=
  modCore_onlyCore (nextSerial d) c _

/-! ### Full queues (R27, R208, R354, R512) -/

theorem cubeFull_iff (c : CoreId) (o : DOp) (d : Dev) :
    cubeFull c o d = true ↔ 4 ≤ (tget Cube.empty (getCore d c).w.cubes o.unit.toNat).queue.length := decide_eq_true_iff

theorem chainFull_iff (c : CoreId) (d : Dev) : chainFull c d = true ↔ 16 ≤ (getCore d c).w.chain.length := decide_eq_true_iff

theorem quantFull_iff (c : CoreId) (d : Dev) : quantFull c d = true ↔ 4 ≤ (getCore d c).w.quant.length := decide_eq_true_iff

theorem linksFull_iff (c : CoreId) (d : Dev) : linksFull c d = true ↔ 64 ≤ (linksQueued d c.die).length := decide_eq_true_iff

/-- A D-format instruction whose operation enters a queue of its core by `put`, which has room unless `full`. -/
theorem dQueues_of {i : CoreId → DOp → Instr} {kind opc : Nat} {hreg : Bool} {full : DOp → Core → Prop} {put : DOp → Op → Work → Work} {row : String}
    {test : CoreId → DOp → Dev → Bool} {push : CoreId → DOp → Dev → Op → Dev}
    (e : ∀ c o s, exec (i c o) s = runCmd (i c o) (dIssue row c (i c o) o kind opc hreg (test c o) (push c o)) s)
    (hfull : ∀ c o d, test c o d = true ↔ full o (getCore d c)) (hpush : ∀ c o d op, push c o d op = modWork d c (put o op))
    (hput : ∀ o op w, { put o op w with seq := { (put o op w).seq with pc := (put o op w).seq.pc + 1 } } =
      put o op { w with seq := { w.seq with pc := w.seq.pc + 1 } }) : DQueues i kind opc hreg full put := by
  intro c o s op hf hc ho hs
  refine ⟨fun h => ?_, fun h => exec_dIssue_full (e c o s) hf hc ho hs ((hfull c o s.dev).2 h)⟩
  refine ⟨_, exec_dIssue_queues (e c o s) hf hc ho hs (mt (hfull c o s.dev).1 h), ?_, ?_⟩
  · rw [hpush]
    exact ((opIssued_onlyCore s.dev c kind).trans (modCore_onlyCore _ c _)).trans (stepPc_onlyCore _ (.seq c))
  · simp only [stepPc, setPc, agentPc, hpush, getCore_modSeq, getCore_modWork, getCore_opIssued, hput]
    rfl

theorem dRefuses_of {i : CoreId → DOp → Instr} {kind opc : Nat} {hreg : Bool} {row : String} {test : CoreId → DOp → Dev → Bool}
    {push : CoreId → DOp → Dev → Op → Dev}
    (e : ∀ c o s, exec (i c o) s = runCmd (i c o) (dIssue row c (i c o) o kind opc hreg (test c o) (push c o)) s) : DRefuses i hreg := by
  rintro c o s id hf hc rfl
  have faults {f : FaultCode} (hs : stakeCheck s.dev (dStake s.dev c o) (some (parcelOf s.dev c)) = f) (hn : f ≠ .none) :
      Completes (i c o) s (SeqFaulted c f 0 s.dev) := by
    subst hs
    obtain ⟨pc, w, h⟩ := exec_dIssue_refused (e c o s) hf hc rfl hn
    exact ⟨_, h, seqFault_spec _ _ _ _ _ _⟩
  exact ⟨fun hd => faults (stakeCheck_absent _ hd) nofun, fun hd hs => faults (stakeCheck_denied hd hs) nofun⟩

/-- Settles O35: every D-format instruction tests its completion stake first (dRefuses_of). -/
theorem completionStakesChecked : Obligations.CompletionStakesChecked := by
  constructor
  · intro i hi
    simp only [List.mem_cons, List.not_mem_nil, or_false] at hi
    rcases hi with rfl | rfl | rfl | rfl | rfl | rfl | rfl | rfl | rfl | rfl | rfl
    all_goals exact dRefuses_of fun _ _ _ => rfl
  · intro i hi
    simp only [List.mem_cons, List.not_mem_nil, or_false] at hi
    rcases hi with rfl | rfl | rfl | rfl | rfl | rfl
    all_goals exact dRefuses_of fun _ _ _ => rfl

/-! ### Streams (R216, R217) -/

/-- What an operation that completes at once leaves, once the sequencer has gone on: its arrival is made, and of the core only the program counter and the part's
account have changed. -/
theorem opDone_step (d : Dev) (c : CoreId) (unit : Nat) (op : Op) {f : FaultCode} (hf : f ≠ .alreadyClaimed) (empty : Bool) :
    Arrived c unit op.parcel 1 (decide (f ≠ .none)) op.stake (stepPc (opDone d c unit op f empty) (.seq c)) ∧
      getCore (stepPc (opDone d c unit op f empty) (.seq c)) c = { getCore d c with w := { (getCore d c).w with
        seq := { seqOf d c with pc := (seqOf d c).pc + 1 }
        part := (getCore (stepPc (opDone d c unit op f empty) (.seq c)) c).w.part } } ∧
      (stepPc (opDone d c unit op f empty) (.seq c)).beyondCores = d.beyondCores := by
  have done : opDone d c unit op f empty = unitArrive (partDone d c f 0 empty) c op.stake unit op.parcel 1 (decide (f ≠ .none)) := by
    simp only [opDone, opDoneSub, if_neg hf]
  rw [done]
  refine ⟨unitArrive_arrived _ _ _ _ _ _ _, ?_, unitArrive_beyond _ _ _ _ _ _ _⟩
  simp only [stepPc, setPc, agentPc, getCore_modSeq, getCore_unitArrive]
  rw [getCore_partDone]
  rfl

theorem opIssued_beyond (d : Dev) (c : CoreId) (kind : Nat) : (opIssued d c kind).beyondCores = d.beyondCores := rfl

theorem setStream_beyond (d : Dev) (c : CoreId) (q : Nat) (x : Stream) : (setStream d c q x).beyondCores = d.beyondCores := rfl

theorem getStream_setStream_self (d : Dev) (c : CoreId) (q : Nat) (x : Stream) : getStream (setStream d c q x) c q = x := by
  simp [setStream, getStream]

@[simp] theorem streamSlot_opIssued (d : Dev) (c : CoreId) (kind : Nat) (h : BitVec 32) : streamSlot (opIssued d c kind) c h = streamSlot d c h := rfl

@[simp] theorem getStream_opIssued (d : Dev) (c : CoreId) (kind q : Nat) : getStream (opIssued d c kind) c q = getStream d c q := by
  simp only [getStream, getCore_opIssued]

/-- A pass of a stream slot enters the chain engine's queue, and the slot runs (R217). -/
def passQueued (d : Dev) (c : CoreId) (op : Op) (q : Nat) : Dev :=
  setChainQ (setStream d c q { getStream d c q with state := 2 }) c (chainQ (setStream d c q { getStream d c q with state := 2 }) c ++ [Chain.new op (some q)])

section
variable {d : Dev} {c : CoreId} {op : Op} {q : Nat}

theorem pushStream_error {f : FaultCode} (h : streamSlot d c op.handle = .error f) : pushStream c d op = opDone d c 2 op f false := by
  simp only [pushStream, h]

variable (h : streamSlot d c op.handle = .ok q)
include h

theorem pushStream_strm_idle (ho : op.opc = chnStrm) (hs : (getStream d c q).state = 0) : pushStream c d op = passQueued d c op q := by
  simp only [pushStream, h, ho, hs, if_true]; rfl

theorem pushStream_strm_busy (ho : op.opc = chnStrm) (hs : (getStream d c q).state ≠ 0) : pushStream c d op = opDone d c 2 op .streamBusy false := by
  simp only [pushStream, h, ho, hs, if_true, if_false]

theorem pushStream_rearm (ho : op.opc = chnRearm) (hs : (getStream d c q).state ≠ 0) : pushStream c d op = passQueued d c op q := by
  simp only [pushStream, h, ho, hs, show chnRearm ≠ chnStrm by decide, if_true, if_false]; rfl

theorem pushStream_rearm_idle (ho : op.opc = chnRearm) (hs : (getStream d c q).state = 0) :
    pushStream c d op = opDone d c 2 op .streamIdle false := by
  simp only [pushStream, h, ho, hs, show chnRearm ≠ chnStrm by decide, if_true, if_false]

theorem pushStream_stop (ho : op.opc = chnStop) (hs : (getStream d c q).state ≠ 2) :
    pushStream c d op = opDone (setStream d c q { getStream d c q with state := 0 }) c 2 op .none false := by
  simp only [pushStream, h, ho, hs, show chnStop ≠ chnStrm by decide, show chnStop ≠ chnRearm by decide, if_false]

end

theorem passQueued_onlyCore (d : Dev) (c : CoreId) (op : Op) (q : Nat) : OnlyCore c d (passQueued d c op q) :=
  (modCore_onlyCore d c _).trans (modCore_onlyCore _ c _)

/-- What a queued pass leaves of its core once the sequencer has gone on. -/
theorem getCore_passQueued_step (d : Dev) (c : CoreId) (kind : Nat) (hk : kind ≠ 0) (op : Op) (q : Nat) :
    getCore (stepPc (passQueued (opIssued d c kind) c op q) (.seq c)) c = { getCore d c with w := { (getCore d c).w.issued true with
      chain := (getCore d c).w.chain ++ [⟨op, 0, some q, 0, 0, [], 0, 0, .none⟩]
      streams := tset Stream.empty (getCore d c).w.streams q { getStream d c q with state := 2 } } } := by
  simp only [stepPc, setPc, agentPc, passQueued, setChainQ, chainQ, setStream, getCore_modSeq, getCore_modWork, getCore_opIssued, getStream_opIssued,
    Work.issued, Chain.new, decide_eq_true hk]

/-- What a stream instruction that completes at once leaves (R29, R216): its arrival is made and the sequencer goes on; the chain engine's queue, memory and all
beyond the cores are as before the instruction. -/
theorem stream_completes {d e : Dev} {c : CoreId} (op : Op) {f : FaultCode} (hf : f ≠ .alreadyClaimed) (core : getCore e c = { getCore d c with
      w := { (getCore d c).w with part := (getCore e c).w.part, streams := (getCore e c).w.streams } }) (beyond : e.beyondCores = d.beyondCores) :
    Arrived c 2 op.parcel 1 (decide (f ≠ .none)) op.stake (stepPc (opDone e c 2 op f false) (.seq c)) ∧
      seqOf (stepPc (opDone e c 2 op f false) (.seq c)) c = { seqOf d c with pc := (seqOf d c).pc + 1 } ∧
      (getCore (stepPc (opDone e c 2 op f false) (.seq c)) c).w.chain = (getCore d c).w.chain ∧
      (∀ q, getStream (stepPc (opDone e c 2 op f false) (.seq c)) c q = getStream e c q) ∧
      MemSame d (stepPc (opDone e c 2 op f false) (.seq c)) ∧ (stepPc (opDone e c 2 op f false) (.seq c)).beyondCores = d.beyondCores := by
  obtain ⟨arrived, stepped, kept⟩ := opDone_step e c 2 op hf false
  have kept := kept.trans beyond
  refine ⟨arrived, ?_, ?_, fun q => ?_, memSame_of_beyondCores kept, kept⟩
  · rw [seqOf, stepped, seqOf, core]; rfl
  · rw [stepped, core]
  · rw [getStream, stepped]; rfl

/-- The same where the instruction has changed nothing before it completes. -/
theorem opIssued_stream_completes (d : Dev) (c : CoreId) (kind : Nat) (op : Op) {f : FaultCode} (hf : f ≠ .alreadyClaimed) :
    let t := stepPc (opDone (opIssued d c kind) c 2 op f false) (.seq c)
    Arrived c 2 op.parcel 1 (decide (f ≠ .none)) op.stake t ∧ seqOf t c = { seqOf d c with pc := (seqOf d c).pc + 1 } ∧
      (getCore t c).w.chain = (getCore d c).w.chain ∧ (∀ q, getStream t c q = getStream d c q) ∧ MemSame d t ∧ t.beyondCores = d.beyondCores := by
  have core : getCore (opIssued d c kind) c = { getCore d c with w := { (getCore d c).w with
      part := (getCore (opIssued d c kind) c).w.part
      streams := (getCore (opIssued d c kind) c).w.streams } } := by rw [getCore_opIssued]
  have done := stream_completes op hf core (opIssued_beyond d c kind)
  simpa only [getStream_opIssued] using done

theorem getCore_setStream_opIssued (d : Dev) (c : CoreId) (kind q : Nat) (x : Stream) :
    getCore (setStream (opIssued d c kind) c q x) c = { getCore d c with w := { (getCore d c).w with
      part := (getCore (setStream (opIssued d c kind) c q x) c).w.part
      streams := (getCore (setStream (opIssued d c kind) c q x) c).w.streams } } := by
  simp only [setStream, getCore_modWork, getCore_opIssued]

/-! ### The link engine's queue (R512) -/

theorem pushLink_onlyCore (d : Dev) (c : CoreId) (kind : Nat) (op : Op) :
    OnlyCore c { d with serial := d.serial + 1, links := (pushLink c (opIssued d c kind) op).links } (pushLink c (opIssued d c kind) op) :=
  ⟨rfl, fun _ => rfl, fun _ h => cores_setCore (nextSerial d) c _ h⟩

theorem getCore_pushLink (d : Dev) (c : CoreId) (op : Op) : getCore (pushLink c d op) c = getCore d c := rfl

theorem getLinks_pushLink (d : Dev) (c : CoreId) (op : Op) (q : Nat) : getLinks (pushLink c d op) q =
    if q = c.die then getLinks d q ++ [⟨op, c, partId d c, 0, 0, 0⟩] else getLinks d q := by
  simp only [pushLink, getLinks, setLinks, tget_tset]
  by_cases hq : q = c.die
  · rw [if_pos hq, if_pos hq, hq]
  · rw [if_neg hq, if_neg hq]

theorem partId_opIssued (d : Dev) (c : CoreId) (kind : Nat) : partId (opIssued d c kind) c = partId d c := by
  simp only [partId, getCore_opIssued, Option.map_map]
  rfl

/-! ### O34 -/

/-- Settles O34: an operation enters its core's queue (dQueues_of), a stream instruction queues a pass (getCore_passQueued_step) or completes at once
(stream_completes), and COL.RUN and COL.PUT enter the link engine's queue (getLinks_pushLink). -/
theorem operationsQueued : Obligations.OperationsQueued := by
  refine ⟨?queues, ?strm, ?rearm, ?stop, ?handle, ?link⟩
  case queues =>
    and_intros
    iterate 6 exact dQueues_of (fun _ _ _ => rfl) cubeFull_iff (fun _ _ _ _ => rfl) fun _ _ _ => rfl
    iterate 2 exact dQueues_of (fun _ _ _ => rfl) (fun c _ => chainFull_iff c) (fun _ _ _ _ => rfl) fun _ _ _ => rfl
    iterate 2 exact dQueues_of (fun _ _ _ => rfl) (fun c _ => quantFull_iff c) (fun _ _ _ _ => rfl) fun _ _ _ => rfl
    iterate 2 exact dQueues_of (fun _ _ _ => rfl) (fun _ _ _ => decide_eq_true_iff) (fun _ _ _ _ => rfl) fun _ _ _ => rfl
  case strm =>
    intro c o s op q hf hc ho hs hroom hq
    have e := exec_dIssue_queues (i := .chnStrm c o) rfl hf hc ho hs (mt (chainFull_iff c _).1 (Nat.not_le.2 hroom))
    have opc : op.opc = chnStrm := by rw [ho]; rfl
    refine ⟨fun idle => ?_, fun busy => ?_⟩
    · rw [pushStream_strm_idle (d := opIssued s.dev c 0x11) hq opc (by simpa using idle)] at e
      exact ⟨_, e, ((opIssued_onlyCore s.dev c 0x11).trans (passQueued_onlyCore _ c op q)).trans (stepPc_onlyCore _ (.seq c)),
        getCore_passQueued_step s.dev c 0x11 (by decide) op q⟩
    · rw [pushStream_strm_busy (d := opIssued s.dev c 0x11) hq opc (by simpa using busy)] at e
      obtain ⟨arrived, seq, queue, stream, mem, beyond⟩ := opIssued_stream_completes s.dev c 0x11 op (f := .streamBusy) nofun
      exact ⟨_, e, arrived, seq, queue, stream q, mem, beyond⟩
  case rearm =>
    intro c o s op q hf hc ho hs hroom hq
    have e := exec_dIssue_queues (i := .chnRearm c o) rfl hf hc ho hs (mt (chainFull_iff c _).1 (Nat.not_le.2 hroom))
    have opc : op.opc = chnRearm := by rw [ho]; rfl
    refine ⟨fun busy => ?_, fun idle => ?_⟩
    · rw [pushStream_rearm (d := opIssued s.dev c 0x12) hq opc (by simpa using busy)] at e
      exact ⟨_, e, ((opIssued_onlyCore s.dev c 0x12).trans (passQueued_onlyCore _ c op q)).trans (stepPc_onlyCore _ (.seq c)),
        getCore_passQueued_step s.dev c 0x12 (by decide) op q⟩
    · rw [pushStream_rearm_idle (d := opIssued s.dev c 0x12) hq opc (by simpa using idle)] at e
      obtain ⟨arrived, seq, queue, stream, mem, beyond⟩ := opIssued_stream_completes s.dev c 0x12 op (f := .streamIdle) nofun
      exact ⟨_, e, arrived, seq, queue, stream q, mem, beyond⟩
  case stop =>
    intro c o s op q hf hc ho hs hroom hq hrun
    have e := exec_dIssue_queues (i := .chnStop c o) rfl hf hc ho hs (mt (chainFull_iff c _).1 (Nat.not_le.2 hroom))
    have opc : op.opc = chnStop := by rw [ho]; rfl
    rw [pushStream_stop (d := opIssued s.dev c 0) hq opc (by simpa using hrun)] at e
    obtain ⟨arrived, seq, queue, stream, mem, beyond⟩ := stream_completes op (f := .none) nofun
      (getCore_setStream_opIssued s.dev c 0 q { getStream (opIssued s.dev c 0) c q with state := 0 }) ((setStream_beyond _ c q _).trans (opIssued_beyond s.dev c 0))
    refine ⟨_, e, arrived, seq, queue, (stream q).trans ?_, mem, beyond⟩
    rw [getStream_setStream_self, getStream_opIssued]
  case handle =>
    intro x hx c o s op f hf hc ho hs hroom hq hn hcl
    obtain ⟨row, e⟩ : ∃ row, exec (x.1 c o) s = runCmd (x.1 c o) (dIssue row c (x.1 c o) o x.2.1 x.2.2 true (chainFull c) (pushStream c)) s := by
      simp only [List.mem_cons, List.not_mem_nil, or_false] at hx
      rcases hx with rfl | rfl | rfl
      all_goals exact ⟨_, rfl⟩
    have e := exec_dIssue_queues e hf hc ho hs (mt (chainFull_iff c _).1 (Nat.not_le.2 hroom))
    rw [pushStream_error (d := opIssued s.dev c x.2.1) hq] at e
    obtain ⟨arrived, seq, queue, -, mem, beyond⟩ := opIssued_stream_completes s.dev c x.2.1 op hcl
    exact ⟨_, e, decide_eq_true hn ▸ arrived, seq, queue, mem, beyond⟩
  case link =>
    intro x hx c o s op hf hc ho hs hroom
    obtain ⟨row, hk, e⟩ : ∃ row, x.2.1 ≠ 0 ∧ exec (x.1 c o) s =
        runCmd (x.1 c o) (dIssue row c (x.1 c o) o x.2.1 x.2.2 true (linksFull c) (pushLink c)) s := by
      simp only [List.mem_cons, List.not_mem_nil, or_false] at hx
      rcases hx with rfl | rfl
      all_goals exact ⟨_, by decide, rfl⟩
    have e := exec_dIssue_queues e hf hc ho hs (mt (linksFull_iff c _).1 (Nat.not_le.2 hroom))
    refine ⟨_, e, (pushLink_onlyCore s.dev c x.2.1 op).trans (stepPc_onlyCore _ (.seq c)), ?_, fun q => ?_⟩
    · simp only [stepPc, setPc, agentPc, getCore_modSeq, getCore_pushLink, getCore_opIssued, Work.issued, decide_eq_true hk]
    · have links : getLinks (opIssued s.dev c x.2.1) q = getLinks s.dev q := rfl
      have pushed := getLinks_pushLink (opIssued s.dev c x.2.1) c op q
      rwa [partId_opIssued, links] at pushed

end Sys2Proof.Machine
end

section
/-!
SUPPORT. Stakes and their hubs (chapter 01): the wakes of waiters, what each operation leaves of its stake, one cycle of a hub, timeouts and polls, and the
writes of the stake registers.
-/

namespace Sys2Proof.Machine

/-! ### Changes of one core leave all else (OnlyCore) -/

section
variable {c : CoreId} {d t : Dev}

theorem OnlyCore.stakes (h : OnlyCore c d t) : t.stakes = d.stakes := by
  have same := congrArg Dev.stakes h.1
  exact same
theorem OnlyCore.hubs (h : OnlyCore c d t) : t.hubs = d.hubs := by
  have same := congrArg Dev.hubs h.1
  exact same
theorem OnlyCore.wakes (h : OnlyCore c d t) : t.wakes = d.wakes := by
  have same := congrArg Dev.wakes h.1
  exact same
theorem OnlyCore.serial (h : OnlyCore c d t) : t.serial = d.serial := by
  have same := congrArg Dev.serial h.1
  exact same
theorem OnlyCore.getStake (h : OnlyCore c d t) (j : StakeId) : getStake t j = getStake d j := by
  simp only [Machine.getStake, h.stakes]
theorem OnlyCore.beyond (h : OnlyCore c d t) : t.beyondCores = d.beyondCores := by
  have same := congrArg Dev.beyondCores h.1
  exact same

end

/-! ### Agents that stay as they are -/

/-- The sequencer, or the crew in its slot, is as it was. -/
def SameAgent (a : Agent) (d t : Dev) : Prop :=
  match a with
  | .seq c => seqOf t c = seqOf d c
  | .crew c slot => getCrew t c slot = getCrew d c slot

section
variable {a : Agent} {d e t : Dev} {n o : Nat}

theorem SameAgent.refl (a : Agent) (d : Dev) : SameAgent a d d := by
  cases a <;> rfl

theorem sameAgent_of_cores (h : t.cores = d.cores) : SameAgent a d t := by
  cases a <;> simp only [SameAgent, seqOf, getCrew, getCore, h]

theorem waitLive_congr (h : SameAgent a d t) (n : Nat) : waitLive t (.agent a) n = waitLive d (.agent a) n := by
  cases a with
  | seq c => simp only [waitLive, show (getCore t c).w.seq = (getCore d c).w.seq from h]
  | crew c slot => simp only [waitLive, show getCrew t c slot = getCrew d c slot from h]

theorem Woken.of_same (h : SameAgent a d e) (g : Woken a o e t) : Woken a o d t := by
  cases a <;> simp_all only [SameAgent, Woken]

theorem Woken.then_same (h : Woken a o d e) (g : SameAgent a e t) : Woken a o d t := by
  cases a <;> simp_all only [SameAgent, Woken]

/-- An agent whose wait has ended waits no more. -/
theorem Woken.not_live (h : Woken a o d t) (n : Nat) : waitLive t (.agent a) n = false := by
  cases a with
  | seq c =>
    have ended : (getCore t c).w.seq.wait = none := congrArg Seq.wait (show seqOf t c = _ from h)
    simp only [waitLive, ended, Option.map_none, reduceCtorEq, decide_false]
  | crew c slot =>
    obtain ⟨k, x, -, hx, he, -⟩ := h
    have ended : x.wait = none := by rw [he]
    simp only [waitLive, hx, Option.bind_some, ended, Option.map_none, reduceCtorEq, decide_false]

end

/-! ### Waking an agent (R60) -/

theorem getCore_congr {c e : CoreId} (h : ckey c = ckey e) (d : Dev) : getCore d c = getCore d e := by simp only [getCore, h]

theorem modCore_congr {c e : CoreId} (h : ckey c = ckey e) (d : Dev) (f : Core → Core) : modCore d c f = modCore d e f := by
  simp only [modCore, setCore, getCore, h]

section
variable {a b : Agent} {d : Dev} {n o : Nat}

theorem wakeAgent_onlyCore (d : Dev) (a : Agent) (n o : Nat) : OnlyCore a.core d (wakeAgent d a n o) := by
  unfold wakeAgent
  split
  · dsimp only
    split
    · exact modSeq_onlyCore d _ _
    · exact .refl _ d
  · split
    · split
      · exact setCrew_onlyCore d _ _ _
      · exact .refl _ d
    · exact .refl _ d

/-- A wait that has ended already is not ended again. -/
theorem wakeAgent_of_not_live (h : waitLive d (.agent a) n = false) : wakeAgent d a n o = d := by
  cases a with
  | seq c => simp_all [wakeAgent, waitLive]
  | crew c slot =>
    cases hk : getCrew d c slot with
    | none => simp [wakeAgent, hk]
    | some k => simp_all [wakeAgent, waitLive]

/-- The wait that is ended has its outcome in s31, or in p7 of the active threads. -/
theorem wakeAgent_woken (h : waitLive d (.agent a) n = true) : Woken a o d (wakeAgent d a n o) := by
  cases a with
  | seq c =>
    have live : (getCore d c).w.seq.wait.map WaitRef.serial = some n := of_decide_eq_true h
    simp [Woken, wakeAgent, live, seqOf]
  | crew c slot =>
    have live : ((getCrew d c slot).bind Crew.wait).map WaitRef.serial = some n := of_decide_eq_true h
    cases hk : getCrew d c slot with
    | none => simp [hk] at live
    | some k =>
      rw [hk, Option.bind_some] at live
      have woken : getCrew (wakeAgent d (.crew c slot) n o) c slot = some { k with
          p := tset 0 k.p 7 (if o = 0 then tget 0 k.p 7 ||| k.mask else tget 0 k.p 7 &&& ~~~k.mask)
          wait := none } := by
        simp only [wakeAgent, hk, live, if_true, getCrew_setCrew_self]
      refine ⟨k, _, hk, woken, rfl, fun q hq => ?_, fun lane hl => ?_⟩
      · simp [Crew.pred, tget_tset, hq]
      · by_cases ho : o = 0 <;> by_cases hm : k.mask.getLsbD lane = true <;> simp [Crew.pred, ho, hm, hl, -BitVec.getLsbD_eq_getElem]

theorem sameAgent_of_other_core {c : CoreId} {t : Dev} (h : OnlyCore c d t) (hk : ckey b.core ≠ ckey c) : SameAgent b d t := by
  obtain ⟨-, -, others⟩ := h
  have same : getCore t b.core = getCore d b.core := others _ hk
  cases b with
  | seq e => exact congrArg (fun k => k.w.seq) same
  | crew e slot => exact congrArg (fun k => tget none k.w.crews slot) same

/-- The end of a sequencer's wait leaves every crew as it was. -/
theorem wakeAgent_seq_crews (d : Dev) (c : CoreId) (n o : Nat) : (getCore (wakeAgent d (.seq c) n o) c).w.crews = (getCore d c).w.crews := by
  simp only [wakeAgent]
  split <;> simp

/-- The end of a crew's wait leaves the sequencer and every other crew as they were. -/
theorem wakeAgent_crew_others (d : Dev) (c : CoreId) (slot n o : Nat) : seqOf (wakeAgent d (.crew c slot) n o) c = seqOf d c ∧
    ∀ q, q ≠ slot → getCrew (wakeAgent d (.crew c slot) n o) c q = getCrew d c q := by
  simp only [wakeAgent]
  split
  · split
    · exact ⟨by simp [seqOf], fun q hq => by rw [getCrew_setCrew, if_neg hq]⟩
    · exact ⟨rfl, fun _ _ => rfl⟩
  · exact ⟨rfl, fun _ _ => rfl⟩

/-- An agent named by another name of its core is the same agent. -/
theorem wakeAgent_renamed (h : wakeAgent d a n o = wakeAgent d b n o) :
    SameAgent b d (wakeAgent d a n o) ∨ (waitLive d (.agent b) n = true ∧ Woken b o d (wakeAgent d a n o)) := by
  rw [h]
  cases live : waitLive d (.agent b) n with
  | true => exact .inr ⟨rfl, wakeAgent_woken live⟩
  | false => exact .inl (by rw [wakeAgent_of_not_live live]; exact .refl b d)

/-- Another agent is as it was, or it is the same one under another name. -/
theorem wakeAgent_other (d : Dev) (a b : Agent) (n o : Nat) :
    SameAgent b d (wakeAgent d a n o) ∨ (waitLive d (.agent b) n = true ∧ Woken b o d (wakeAgent d a n o)) := by
  by_cases hk : ckey b.core = ckey a.core
  · cases a with
    | seq c =>
      cases b with
      | seq e =>
        have key : ckey c = ckey e := hk.symm
        exact wakeAgent_renamed (by simp only [wakeAgent, modSeq, modWork, getCore_congr key, modCore_congr key])
      | crew e slot =>
        have key : ckey e = ckey c := hk
        left
        simp only [SameAgent, getCrew, getCore_congr key, wakeAgent_seq_crews]
    | crew c slot =>
      obtain ⟨seq, others⟩ := wakeAgent_crew_others d c slot n o
      cases b with
      | seq e =>
        have key : ckey e = ckey c := hk
        left
        simpa only [SameAgent, seqOf, getCore_congr key] using seq
      | crew e q =>
        have key : ckey e = ckey c := hk
        by_cases hq : q = slot
        · subst hq
          exact wakeAgent_renamed (by simp only [wakeAgent, getCrew, setCrew, modWork, getCore_congr key, modCore_congr key])
        · left
          simpa only [SameAgent, getCrew, getCore_congr key] using others q hq
  · exact .inl (sameAgent_of_other_core (wakeAgent_onlyCore d a n o) hk)

end

/-! ### Changes of one stake (StakeOnly) -/

section
variable {id : StakeId} {d e t : Dev}

theorem stakeOnly_of_beyond (others : ∀ j : StakeId, j ≠ id → getStake t j = getStake d j) (beyond : t.beyondCores = d.beyondCores) :
    StakeOnly id d t := ⟨others, memSame_of_beyondCores beyond, beyond⟩

theorem StakeOnly.refl (id : StakeId) (d : Dev) : StakeOnly id d d := stakeOnly_of_beyond (fun _ _ => rfl) rfl

theorem StakeOnly.trans (h : StakeOnly id d e) (g : StakeOnly id e t) : StakeOnly id d t := by
  obtain ⟨others, -, beyond⟩ := h
  obtain ⟨others', -, beyond'⟩ := g
  exact stakeOnly_of_beyond (fun j hj => (others' j hj).trans (others j hj)) (beyond'.trans beyond)

theorem stakeOnly_of_stakes (stakes : t.stakes = d.stakes) (beyond : t.beyondCores = d.beyondCores) : StakeOnly id d t :=
  stakeOnly_of_beyond (fun j _ => by simp only [getStake, stakes]) beyond

theorem setStake_stakeOnly (d : Dev) (id : StakeId) (x : Stake) : StakeOnly id d (setStake d id x) :=
  stakeOnly_of_beyond (fun j hj => by rw [getStake_setStake, if_neg hj]) rfl

theorem setHub_stakeOnly (d : Dev) (id : StakeId) (die h : Nat) (x : Hub) : StakeOnly id d (setHub d die h x) := stakeOnly_of_stakes rfl rfl

theorem raiseEvent_stakes (d : Dev) (x : Event) : (raiseEvent d x).stakes = d.stakes := by
  obtain ⟨-, stakes, -⟩ := raiseEvent_notesOnly d x
  exact stakes

@[simp] theorem getStake_raiseEvent (d : Dev) (x : Event) (j : StakeId) : getStake (raiseEvent d x) j = getStake d j := by
  simp only [getStake, raiseEvent_stakes]

theorem raiseEvent_stakeOnly (d : Dev) (id : StakeId) (x : Event) : StakeOnly id d (raiseEvent d x) :=
  stakeOnly_of_stakes (raiseEvent_stakes d x) (raiseEvent_beyond d x)

theorem logErr_stakes (d : Dev) (die : Nat) (x : ErrInfo) : (logErr d die x).stakes = d.stakes := by
  obtain ⟨-, stakes, -⟩ := logErr_notesOnly d die x
  exact stakes

theorem logErr_stakeOnly (d : Dev) (id : StakeId) (die : Nat) (x : ErrInfo) : StakeOnly id d (logErr d die x) :=
  stakeOnly_of_stakes (logErr_stakes d die x) (logErr_beyond d die x)

end

/-! ### Waking the waiters of a stake (R60, R66, R68) -/

theorem wakeWaiter_stakes (d : Dev) (o : Nat) (w : StakeWait) : (wakeWaiter d o w).stakes = d.stakes := by
  unfold wakeWaiter
  split
  · exact (wakeAgent_onlyCore d _ _ _).stakes
  · rfl

theorem wakeWaiter_beyond (d : Dev) (o : Nat) (w : StakeWait) : (wakeWaiter d o w).beyondCores = d.beyondCores := by
  unfold wakeWaiter
  split
  · exact (wakeAgent_onlyCore d _ _ _).beyond
  · rfl

@[simp] theorem getStake_wakeWaiter (d : Dev) (o : Nat) (w : StakeWait) (j : StakeId) : getStake (wakeWaiter d o w) j = getStake d j := by
  simp only [getStake, wakeWaiter_stakes]

theorem wakeWaiter_stakeOnly (d : Dev) (id : StakeId) (o : Nat) (w : StakeWait) : StakeOnly id d (wakeWaiter d o w) :=
  stakeOnly_of_stakes (wakeWaiter_stakes d o w) (wakeWaiter_beyond d o w)

/-- An agent stays as it was, or its wait has ended with the outcome. -/
def SameOrWoken (b : Agent) (o : Nat) (d t : Dev) : Prop := SameAgent b d t ∨ Woken b o d t

section
variable {b : Agent} {o : Nat} {d e t : Dev}

theorem wakeWaiter_sameOrWoken (d : Dev) (b : Agent) (o : Nat) (w : StakeWait) : SameOrWoken b o d (wakeWaiter d o w) := by
  unfold wakeWaiter
  split
  case h_1 a _ =>
    obtain same | ⟨-, woken⟩ := wakeAgent_other d a b w.serial o
    · exact .inl same
    · exact .inr woken
  case h_2 => exact .inl (sameAgent_of_cores rfl)

/-- Whoever is woken waits no more, so that no second wake reaches it. -/
theorem wakeWaiter_keeps_woken (h : Woken b o d e) (w : StakeWait) : Woken b o d (wakeWaiter e o w) := by
  unfold wakeWaiter
  split
  case h_1 a _ =>
    obtain same | ⟨live, -⟩ := wakeAgent_other e a b w.serial o
    · exact h.then_same same
    · rw [h.not_live] at live
      contradiction
  case h_2 => exact h.then_same (sameAgent_of_cores rfl)

theorem wakeWaiters_keep_woken (ws : List StakeWait) (h : Woken b o d e) : Woken b o d (ws.foldl (fun d w => wakeWaiter d o w) e) := by
  induction ws generalizing e with
  | nil => exact h
  | cons w ws ih => exact ih (wakeWaiter_keeps_woken h w)

/-- Among the waiters woken each agent that still waits goes on with the outcome. -/
theorem wakeWaiters_woken {ws : List StakeWait} {w : StakeWait} (hw : w ∈ ws) (hb : w.w = .agent b) (live : waitLive d (.agent b) w.serial = true) :
    Woken b o d (ws.foldl (fun d w => wakeWaiter d o w) d) := by
  induction ws generalizing d with
  | nil => contradiction
  | cons x ws ih =>
    rw [List.foldl_cons]
    obtain rfl | hw := List.mem_cons.1 hw
    · refine wakeWaiters_keep_woken ws ?_
      simp only [wakeWaiter, hb]
      exact wakeAgent_woken live
    · obtain same | woken := wakeWaiter_sameOrWoken d b o x
      · exact (ih hw (by rw [waitLive_congr same, live])).of_same same
      · exact wakeWaiters_keep_woken ws woken

end

section
variable {id : StakeId} {d t : Dev} {o : Nat}

theorem wakeWaiters_stakeOnly (id : StakeId) (o : Nat) (ws : List StakeWait) (d : Dev) :
    StakeOnly id d (ws.foldl (fun d w => wakeWaiter d o w) d) := by
  induction ws generalizing d with
  | nil => exact .refl id d
  | cons w ws ih => exact (wakeWaiter_stakeOnly d id o w).trans (ih _)

theorem getStake_wakeWaiters (o : Nat) (ws : List StakeWait) (d : Dev) (j : StakeId) :
    getStake (ws.foldl (fun d w => wakeWaiter d o w) d) j = getStake d j := by
  induction ws generalizing d with
  | nil => rfl
  | cons w ws ih => rw [List.foldl_cons, ih, getStake_wakeWaiter]

theorem wakeAll_stakeOnly (d : Dev) (id : StakeId) (o : Nat) : StakeOnly id d (wakeAll d id o) :=
  (setStake_stakeOnly d id _).trans (wakeWaiters_stakeOnly id o _ _)

/-- The wake of a stake's waiters leaves its polling waiters, and its other fields as they were. -/
@[simp] theorem getStake_wakeAll (d : Dev) (id : StakeId) (o : Nat) : getStake (wakeAll d id o) id = { getStake d id with
    waiters := (getStake d id).waiters.filter StakeWait.polling } := by
  rw [wakeAll, getStake_wakeWaiters, getStake_setStake_self]

/-- Each agent registered at the stake that still waits goes on with the outcome. -/
theorem wakeAll_woken {a : Agent} {w : StakeWait} (hw : w ∈ (getStake d id).waiters) (hp : w.polling = false) (ha : w.w = .agent a)
    (live : waitLive d (.agent a) w.serial = true) : Woken a o d (wakeAll d id o) := by
  have registered : w ∈ (getStake d id).waiters.filter fun w => !w.polling := List.mem_filter.2 ⟨hw, by rw [hp]; rfl⟩
  have same : SameAgent a d (setStake d id { getStake d id with waiters := (getStake d id).waiters.filter StakeWait.polling }) :=
    sameAgent_of_cores rfl
  exact (wakeWaiters_woken registered ha (by rw [waitLive_congr same, live])).of_same same

/-- Where all waiters poll, none is woken. -/
theorem wakeAll_cores_of_polling (h : ∀ w ∈ (getStake d id).waiters, w.polling = true) : (wakeAll d id o).cores = d.cores := by
  have none_registered : (getStake d id).waiters.filter (fun w => !w.polling) = [] :=
    List.filter_eq_nil_iff.2 fun w hw => by rw [h w hw]; exact Bool.false_ne_true
  rw [wakeAll, none_registered]
  rfl

end

/-! ### Completions, resets and writes of TARGET (R55, R63, R64, R72) -/

/-- A stake after its completion: the polling waiters stay, and AUTO_RESET subtracts the goal from COUNT once. -/
def Stake.completed (s : Stake) : Stake :=
  { s with
    count := if s.autoReset then s.count - BitVec.ofNat 32 s.goal else s.count
    waiters := s.waiters.filter StakeWait.polling }

/-- A stake after a reset to a target, before its waiters are seen to. -/
def Stake.restarted (s : Stake) (target : W32) : Stake := { s with count := 0, target := target, saturated := false, faulted := false }

section
variable {id : StakeId} {d : Dev}

/-- What a completion does once its event is raised. -/
def completeNow (d : Dev) (id : StakeId) (outcome : Nat) : Dev :=
  let d := wakeAll d id outcome
  let s := getStake d id
  if s.autoReset then setStake d id { s with count := s.count - BitVec.ofNat 32 s.goal } else d

theorem completeNow_stakeOnly (d : Dev) (id : StakeId) (o : Nat) : StakeOnly id d (completeNow d id o) := by
  unfold completeNow
  dsimp only
  split
  · exact (wakeAll_stakeOnly d id o).trans (setStake_stakeOnly _ id _)
  · exact wakeAll_stakeOnly d id o

theorem getStake_completeNow (d : Dev) (id : StakeId) (o : Nat) : getStake (completeNow d id o) id = (getStake d id).completed := by
  simp only [completeNow, getStake_wakeAll, Stake.completed]
  split
  · exact getStake_setStake_self _ id _
  · exact getStake_wakeAll d id o

theorem completion_eq (d : Dev) (id : StakeId) : ∃ e : Dev, StakeOnly id d e ∧ getStake e id = getStake d id ∧
    completion d id = completeNow e id (getStake d id).outcome := by
  refine ⟨if (getStake d id).event then raiseEvent d _ else d, ?_, ?_, rfl⟩
  · split
    · exact raiseEvent_stakeOnly d id _
    · exact .refl id d
  · split
    · exact getStake_raiseEvent d _ id
    · rfl

theorem completion_stakeOnly (d : Dev) (id : StakeId) : StakeOnly id d (completion d id) := by
  obtain ⟨e, only, -, eq⟩ := completion_eq d id
  rw [eq]
  exact only.trans (completeNow_stakeOnly e id _)

theorem getStake_completion (d : Dev) (id : StakeId) : getStake (completion d id) id = (getStake d id).completed := by
  obtain ⟨e, -, same, eq⟩ := completion_eq d id
  rw [eq, getStake_completeNow, same]

/-- A reset writes the stake, raises the event that may be due, and wakes the waiters only where the stake is left complete. -/
theorem stakeReset_eq (d : Dev) (id : StakeId) (target : W32) : ∃ e : Dev, StakeOnly id d e ∧ e.cores = d.cores ∧
    getStake e id = (getStake d id).restarted target ∧
    stakeReset d id target = if ((getStake d id).restarted target).complete then wakeAll e id 0
      else setStake d id ((getStake d id).restarted target) := by
  refine ⟨if (getStake d id).event && !(getStake d id).complete && !(getStake d id).autoReset
    then raiseEvent (setStake d id ((getStake d id).restarted target)) _ else setStake d id ((getStake d id).restarted target), ?_, ?_, ?_, rfl⟩
  · split
    · exact (setStake_stakeOnly d id _).trans (raiseEvent_stakeOnly _ id _)
    · exact setStake_stakeOnly d id _
  · split
    · exact raiseEvent_cores _ _
    · rfl
  · split
    · rw [getStake_raiseEvent, getStake_setStake_self]
    · exact getStake_setStake_self d id _

theorem stakeReset_stakeOnly (d : Dev) (id : StakeId) (target : W32) : StakeOnly id d (stakeReset d id target) := by
  obtain ⟨e, only, -, -, eq⟩ := stakeReset_eq d id target
  rw [eq]
  split
  · exact only.trans (wakeAll_stakeOnly e id 0)
  · exact setStake_stakeOnly d id _

theorem Stake.goal_restarted {target : W32} (h : 0 < target.toNat) (k : Stake) : (k.restarted target).goal = target.toNat := by
  have nonzero : decide (target = 0) = false := decide_eq_false fun z => by simp [z] at h
  change (if k.autoReset && decide (target = 0) then 1 else target.toNat) = target.toNat
  rw [nonzero, Bool.and_false, if_neg Bool.false_ne_true]

/-- A reset to a target above 0 leaves every waiter waiting. -/
theorem stakeReset_of_pos {target : W32} (h : 0 < target.toNat) : stakeReset d id target = setStake d id ((getStake d id).restarted target) := by
  have incomplete : ((getStake d id).restarted target).complete = false :=
    decide_eq_false (by rw [Stake.goal_restarted h]; exact Nat.not_le_of_lt h)
  obtain ⟨e, -, -, -, eq⟩ := stakeReset_eq d id target
  rw [eq, incomplete, if_neg Bool.false_ne_true]

/-- A reset leaves COUNT 0, the target, SATURATED and FAULTED clear, and of the waiters at most those that do not poll are gone. -/
theorem getStake_stakeReset (d : Dev) (id : StakeId) (target : W32) : ∃ ws, (∀ w ∈ ws, w ∈ (getStake d id).waiters) ∧
    getStake (stakeReset d id target) id = { (getStake d id).restarted target with waiters := ws } := by
  obtain ⟨e, -, -, same, eq⟩ := stakeReset_eq d id target
  rw [eq]
  split
  · exact ⟨(getStake d id).waiters.filter StakeWait.polling, fun w hw => (List.mem_filter.1 hw).1, by rw [getStake_wakeAll, same]; rfl⟩
  · exact ⟨_, fun _ hw => hw, getStake_setStake_self d id _⟩

/-- Where all waiters poll, a reset wakes none. -/
theorem stakeReset_cores_of_polling {target : W32} (h : ∀ w ∈ (getStake d id).waiters, w.polling = true) :
    (stakeReset d id target).cores = d.cores := by
  obtain ⟨e, -, cores, same, eq⟩ := stakeReset_eq d id target
  rw [eq]
  split
  · rw [wakeAll_cores_of_polling (by rw [same]; exact h), cores]
  · rfl

theorem stakeTarget_stakeOnly (d : Dev) (id : StakeId) (v : W32) : StakeOnly id d (stakeTarget d id v) := by
  unfold stakeTarget
  dsimp only
  split
  · exact (setStake_stakeOnly d id _).trans (completion_stakeOnly _ id)
  · split
    · exact (setStake_stakeOnly d id _).trans (wakeAll_stakeOnly _ id _)
    · exact setStake_stakeOnly d id _

/-- A write of TARGET that COUNT has reached completes the stake; any other only writes it. -/
theorem getStake_stakeTarget (d : Dev) (id : StakeId) (v : W32) :
    getStake (stakeTarget d id v) id = if { getStake d id with target := v }.complete then { getStake d id with target := v }.completed
      else { getStake d id with target := v } := by
  unfold stakeTarget
  dsimp only
  split
  case isTrue h =>
    rw [Bool.and_eq_true] at h
    rw [getStake_completion, getStake_setStake_self, if_pos h.1]
  case isFalse h =>
    split
    case isTrue complete =>
      have manual : ¬ (getStake d id).autoReset = true := fun auto => h (by rw [complete, auto]; rfl)
      rw [getStake_wakeAll, getStake_setStake_self, Stake.completed, if_neg manual]
    case isFalse => exact getStake_setStake_self d id _

end

/-! ### What is added to COUNT (R58) -/

theorem stakeAdd_zero (d : Dev) (id : StakeId) : stakeAdd d id 0 = d := if_pos rfl

/-- Adding without saturation and short of the target changes COUNT alone. -/
theorem stakeAdd_below {d : Dev} {id : StakeId} {inc : Nat} (pos : 0 < inc)
    (below : (getStake d id).count.toNat + inc < (getStake d id).goal) :
    stakeAdd d id inc = setStake d id { getStake d id with count := BitVec.ofNat 32 ((getStake d id).count.toNat + inc) } := by
  have room : (getStake d id).goal ≤ 0xFFFFFFFF := by
    have := (getStake d id).target.isLt
    unfold Stake.goal
    split <;> omega
  have unsaturated : ¬ 0xFFFFFFFF < (getStake d id).count.toNat + inc := by omega
  have least : min ((getStake d id).count.toNat + inc) 0xFFFFFFFF = (getStake d id).count.toNat + inc := by omega
  have incomplete : ¬ (getStake d id).goal ≤ (BitVec.ofNat 32 ((getStake d id).count.toNat + inc)).toNat := by
    rw [BitVec.toNat_ofNat]
    omega
  have goal_same : ∀ n sat, ({ getStake d id with count := n, saturated := sat } : Stake).goal = (getStake d id).goal := fun _ _ => rfl
  simp only [stakeAdd, if_neg (Nat.ne_of_gt pos), unsaturated, least, Stake.complete, goal_same, incomplete, decide_false, Bool.or_false,
    Bool.false_and, Bool.false_eq_true, if_false]

/-! ### One cycle of a hub (R62) -/

/-- What the ports of a mask present in a cycle, with the ports. -/
def presented (d : Dev) (die hub : Nat) (ports : BitVec 4) : List (Nat × StakeOp) :=
  ((List.range 4).filter fun p => ports.getLsbD p).filterMap fun p => (portFront d die ((getHub d die hub).port p)).map fun o => (p, o)

/-- The order in which a hub applies what is presented: resets first. -/
def hubOrder (ops : List StakeOp) : List StakeOp := ops.filter StakeOp.isReset ++ ops.filter fun o => !o.isReset

/-- A hub without what its ports present. -/
def hubServed (x : Hub) (sel : List (Nat × StakeOp)) : Hub := sel.foldl (fun x s => x.setPort s.1 ((x.port s.1).erase s.2)) x

section
variable {die hub p q : Nat} {ports : BitVec 4} {op x y : StakeOp} {rest rp rq : List StakeOp} {s : State} {d : Dev} {sel : List (Nat × StakeOp)}

theorem hubOrder_answers (h : ∀ x ∈ sel, x.2.answers = none) : (hubOrder (sel.map Prod.snd)).filterMap StakeOp.answers = [] := by
  refine List.filterMap_eq_nil_iff.2 fun o ho => ?_
  have among : o ∈ sel.map Prod.snd := by
    obtain r | n := List.mem_append.1 ho
    · exact (List.mem_filter.1 r).1
    · exact (List.mem_filter.1 n).1
  obtain ⟨x, hx, rfl⟩ := List.mem_map.1 among
  exact h x hx

/-- A cycle without the arrival of a put applies what is presented, in the hub's order. -/
theorem exec_stakeOpApply (hf : Fits (.stakeOpApply die hub ports) s) (hsel : presented s.dev die hub ports = sel) (some_op : sel ≠ [])
    (no_put : ∀ x ∈ sel, x.2.answers = none) :
    exec (.stakeOpApply die hub ports) s = .next { s with
      dev := (hubOrder (sel.map Prod.snd)).foldl applyOp (setHub s.dev die hub (hubServed (getHub s.dev die hub) sel)) } := by
  have ops : (sel.map Prod.snd).isEmpty = false := by simpa using some_op
  change execStakeOpApply die hub ports s = _
  refine runCmd_next hf ?_
  dsimp only
  rw [← presented, hsel, ops, if_neg Bool.false_ne_true, ← hubOrder, hubOrder_answers no_put]
  rfl

theorem portFront_of_presents (h : Presents die hub p op rest d) : portFront d die ((getHub d die hub).port p) = some op := by
  obtain ⟨-, queue, free⟩ := h
  rw [queue, portFront, List.find?_cons_of_pos (by rw [free]; rfl)]

theorem ports_of_one : ∀ p < 4, ((List.range 4).filter fun q => (1#4 <<< p).getLsbD q) = [p] := by decide

theorem ports_of_two : ∀ p < 4, ∀ q < 4, p ≠ q →
    ((List.range 4).filter fun r => (1#4 <<< p ||| 1#4 <<< q).getLsbD r) = if p < q then [p, q] else [q, p] := by decide

theorem presented_of_one (hp : Presents die hub p op rest d) : presented d die hub (1#4 <<< p) = [(p, op)] := by
  have front := portFront_of_presents hp
  obtain ⟨lt, -, -⟩ := hp
  simp only [presented, ports_of_one p lt, front, List.filterMap_cons, List.filterMap_nil, Option.map_some]

theorem presented_of_two (hp : Presents die hub p x rp d) (hq : Presents die hub q y rq d) (ne : p ≠ q) :
    presented d die hub (1#4 <<< p ||| 1#4 <<< q) = if p < q then [(p, x), (q, y)] else [(q, y), (p, x)] := by
  have front := portFront_of_presents hp
  have front' := portFront_of_presents hq
  obtain ⟨lt, -, -⟩ := hp
  obtain ⟨lt', -, -⟩ := hq
  rw [presented, ports_of_two p lt q lt' ne]
  split <;> simp only [front, front', List.filterMap_cons, List.filterMap_nil, Option.map_some]

theorem hubOrder_one (op : StakeOp) : hubOrder [op] = [op] := by
  cases h : op.isReset <;> simp [hubOrder, h]

/-- A cycle with one operation takes it from its port and applies it. -/
theorem exec_stakeOpApply_one (hf : Fits (.stakeOpApply die hub (1#4 <<< p)) s) (hp : Presents die hub p op rest s.dev) (ha : op.answers = none) :
    exec (.stakeOpApply die hub (1#4 <<< p)) s = .next { s with
      dev := applyOp (setHub s.dev die hub ((getHub s.dev die hub).setPort p rest)) op } := by
  rw [exec_stakeOpApply hf (presented_of_one hp) (List.cons_ne_nil _ _) (by simpa using ha)]
  obtain ⟨-, queue, -⟩ := hp
  have served : hubServed (getHub s.dev die hub) [(p, op)] = (getHub s.dev die hub).setPort p rest := by
    simp only [hubServed, List.foldl_cons, List.foldl_nil, queue, List.erase_cons_head]
  rw [served, List.map_singleton, hubOrder_one]
  rfl

/-- In a cycle with a reset and another operation the reset is applied first, whichever ports present them. -/
theorem exec_stakeOpApply_two (hf : Fits (.stakeOpApply die hub (1#4 <<< p ||| 1#4 <<< q)) s) (ne : p ≠ q) (hp : Presents die hub p x rp s.dev)
    (hq : Presents die hub q y rq s.dev) (hx : x.isReset = false) (hy : y.isReset = true) (hax : x.answers = none) (hay : y.answers = none) :
    ∃ h : Hub, exec (.stakeOpApply die hub (1#4 <<< p ||| 1#4 <<< q)) s = .next { s with
      dev := applyOp (applyOp (setHub s.dev die hub h) y) x } := by
  have selected := presented_of_two hp hq ne
  refine ⟨hubServed (getHub s.dev die hub) (presented s.dev die hub (1#4 <<< p ||| 1#4 <<< q)), ?_⟩
  split at selected
  · rw [exec_stakeOpApply hf rfl (by rw [selected]; exact List.cons_ne_nil _ _) (by simp [selected, hax, hay]), selected]
    simp [hubOrder, hx, hy]
  · rw [exec_stakeOpApply hf rfl (by rw [selected]; exact List.cons_ne_nil _ _) (by simp [selected, hax, hay]), selected]
    simp [hubOrder, hx, hy]

end

/-! ### What a hub does with an operation that its stake accepts (R55 to R64) -/

section
variable {op : StakeOp} {d : Dev} {inc rd n : Nat} {target : W32} {w : Waiter}

theorem applyOp_arrive (ok : stakeCheck d op.stake op.parcel = .none) (act : op.act = .arrive inc false) (ha : op.answers = none) :
    applyOp d op = stakeAdd d op.stake inc := by
  obtain ⟨a, id, source, parcel⟩ := op
  obtain rfl : a = .arrive inc false := act
  cases source with
  | agent | unit => simp [applyOp, ok]
  | link => simp [StakeOp.answers] at ha

theorem applyOp_reset (ok : stakeCheck d op.stake op.parcel = .none) (act : op.act = .reset target) :
    applyOp d op = stakeReset d op.stake target := by
  simp [applyOp, ok, act]

theorem applyOp_wait (ok : stakeCheck d op.stake op.parcel = .none) (act : op.act = .wait w n) (live : waitLive d w n = true) :
    applyOp d op = if (getStake d op.stake).complete && !(getStake d op.stake).autoReset
      then wakeWaiter d (getStake d op.stake).outcome ⟨w, false, false, n⟩ else registerWait d op.stake w n := by
  simp [applyOp, ok, act, live]

/-- A claim of 0 only replies to the agent that made it. -/
theorem applyOp_claim_zero {a : Agent} {run pc : Nat} {word : W64} {mask : W32} (ok : stakeCheck d op.stake op.parcel = .none)
    (act : op.act = .claim 0 rd) (source : op.source = .agent a run pc word mask) :
    applyOp d op = replyAgent d a run rd mask ((getStake d op.stake).count.setWidth 64) := by
  simp [applyOp, ok, act, source, stakeAdd_zero]

theorem replyAgent_onlyCore (d : Dev) (a : Agent) (run rd : Nat) (mask : W32) (v : W64) : OnlyCore a.core d (replyAgent d a run rd mask v) := by
  unfold replyAgent
  split
  · exact .refl _ d
  · cases a with
    | seq c => exact modSeq_onlyCore d c _
    | crew c slot => exact setCrew_onlyCore d c slot _

/-- The reply to a sequencer writes the one register. -/
theorem replyAgent_seq {c : CoreId} {run : Nat} (same : agentRun d (.seq c) = run) (rd : Nat) (mask : W32) (v : W64) :
    OnlySeq c d (replyAgent d (.seq c) run rd mask v) ∧ sreg (replyAgent d (.seq c) run rd mask v) c rd = v := by
  rw [replyAgent, if_neg (not_not_intro same)]
  obtain ⟨only, seq⟩ := modSeq_onlySeq d c fun q => { q with
    s := tset 0 q.s rd v
    inflight := q.inflight.erase rd }
  exact ⟨only, (congrArg (fun q : Seq => tget 0 q.s rd) seq).trans (tget_tset_self _ _ _ _)⟩

theorem applyOp_claim_zero_onlyCore (ok : stakeCheck d op.stake op.parcel = .none) (act : op.act = .claim 0 rd) :
    ∃ c, OnlyCore c d (applyOp d op) := by
  cases source : op.source with
  | agent a run pc word mask =>
    rw [applyOp_claim_zero ok act source]
    exact ⟨a.core, replyAgent_onlyCore d a run rd mask _⟩
  | unit | link =>
    have none_told : applyOp d op = d := by simp [applyOp, ok, act, source, stakeAdd_zero]
    rw [none_told]
    exact ⟨⟨0, 0⟩, .refl _ d⟩

end

/-! ### Increments of 0, and resets (R58, R62, R63) -/

section
variable (d : Dev) (die h : Nat) (x : Hub)

@[simp] theorem getStake_setHub (id : StakeId) : getStake (setHub d die h x) id = getStake d id := rfl

theorem stakeCheck_setHub (id : StakeId) (parcel : Option Nat) : stakeCheck (setHub d die h x) id parcel = stakeCheck d id parcel := rfl

theorem sameAgent_setHub (a : Agent) : SameAgent a d (setHub d die h x) := sameAgent_of_cores rfl

end

/-- A stake that keeps ENABLE and its parcel accepts what it accepted. -/
theorem stakeCheck_setStake {d : Dev} {id : StakeId} {k : Stake} (enable : k.enable = (getStake d id).enable)
    (owner : k.parcel = (getStake d id).parcel) (parcel : Option Nat) : stakeCheck (setStake d id k) id parcel = stakeCheck d id parcel := by
  simp only [stakeCheck, setStake_part, getStake_setStake_self, enable, owner]

section
variable {a : Agent} {o : KOp} {d : Dev} {id : StakeId}

/-- What STK.ARRIVE sends to its hub. -/
theorem exec_stkArrive {s : State} (hf : Fits (.stkArrive a o) s) (hc : CanIssue a (.stkArrive a o) (stkRegs o false) s.dev)
    (named : stkName s.dev a o = some id) (there : stakeDie id < s.dev.part.dies) :
    exec (.stkArrive a o) s = .next { s with
      dev := stepPc (pushAgent s.dev a.core ⟨.arrive o.imm.toNat false, id,
        .agent a (agentRun s.dev a) (agentPc s.dev a) ((encode (.stkArrive a o)).getD 0) (agentMask s.dev a), some (parcelOf s.dev a.core)⟩) a } := by
  change execStkArrive a o s = _
  refine runCmd_next hf ?_
  rw [stkIssue, issue_of _ _ hc, named]
  exact if_neg (Nat.not_le_of_lt there)

/-- An operation pushed by an agent that then goes on has been sent. -/
theorem stepPc_pushAgent_sent (d : Dev) (a : Agent) (id : StakeId) (act : StakeAct) (word : W64) :
    Sent a id act d (stepPc (pushAgent d a.core ⟨act, id, .agent a (agentRun d a) (agentPc d a) word (agentMask d a), some (parcelOf d a.core)⟩) a) := by
  have only := stepPc_onlyCore
    (pushAgent d a.core ⟨act, id, .agent a (agentRun d a) (agentPc d a) word (agentMask d a), some (parcelOf d a.core)⟩) a
  refine ⟨⟨word, ?_⟩, fun k hk => ?_, ?_⟩
  · rw [getHub, only.hubs]
    exact getHub_setHub_self d _ _ _
  · rw [only.hubs]
    exact (tget_tset _ _ _ _ _).trans (if_neg hk)
  · rw [only.hubs, only.serial]
    exact only

end

/-- Settles O30: an increment of 0 leaves COUNT to be added to as it is, and a claim's reply writes its agent's core alone. -/
theorem zeroIncrements : Obligations.ZeroIncrements := by
  refine ⟨?arrive, ?claim, ?claimSeq, ?sent⟩
  case arrive =>
    intro die hub p op rest s hf hp act ha ok
    refine ⟨_, exec_stakeOpApply_one hf hp ha, ?_⟩
    rw [applyOp_arrive ((stakeCheck_setHub ..).trans ok) act ha, stakeAdd_zero]
  case claim =>
    intro die hub p op rest s rd hf hp act ha ok
    refine ⟨_, exec_stakeOpApply_one hf hp ha, ?_⟩
    obtain ⟨c, only⟩ := applyOp_claim_zero_onlyCore ((stakeCheck_setHub s.dev die hub _ _ _).trans ok) act
    exact ⟨only.getStake, memSame_of_beyondCores only.beyond, only.beyond, only.wakes⟩
  case claimSeq =>
    intro die hub p op rest s rd c run pc word mask hf hp act source same ok
    refine ⟨_, exec_stakeOpApply_one hf hp (by rw [StakeOp.answers, source]), ?_⟩
    rw [applyOp_claim_zero ((stakeCheck_setHub ..).trans ok) act source]
    obtain ⟨only, written⟩ := replyAgent_seq (d := setHub s.dev die hub ((getHub s.dev die hub).setPort p rest)) same rd mask
      ((getStake s.dev op.stake).count.setWidth 64)
    exact ⟨only.1.getStake, only, written⟩
  case sent =>
    intro a o s id hf hc zero named there
    refine ⟨_, exec_stkArrive hf hc named there, ?_⟩
    rw [zero]
    exact stepPc_pushAgent_sent s.dev a id _ _

/-- Settles O31: the reset is applied first, and what is added then stays short of the new target. -/
theorem resetsComeFirst : Obligations.ResetsComeFirst := by
  intro die hub p q x y rp rq s tgt inc hf ne hp hq actx acty hax hay same okx oky pos below
  obtain ⟨h, eq⟩ := exec_stakeOpApply_two hf ne hp hq (by rw [StakeOp.isReset, actx]) (by rw [StakeOp.isReset, acty]) hax hay
  refine ⟨_, eq, ?_⟩
  have tgt_pos : 0 < tgt.toNat := by omega
  have accepts : stakeCheck (setStake (setHub s.dev die hub h) x.stake ((getStake s.dev x.stake).restarted tgt)) x.stake x.parcel = .none :=
    (stakeCheck_setStake (d := setHub s.dev die hub h) (k := (getStake s.dev x.stake).restarted tgt) rfl rfl x.parcel).trans okx
  rw [applyOp_reset ((stakeCheck_setHub ..).trans oky) acty, stakeReset_of_pos tgt_pos, ← same, getStake_setHub,
    applyOp_arrive accepts actx hax, stakeAdd_below pos]
  · refine ⟨((setHub_stakeOnly s.dev x.stake die hub h).trans (setStake_stakeOnly _ _ _)).trans (setStake_stakeOnly _ _ _), ?_⟩
    simp [Stake.restarted]
  · rw [getStake_setStake_self, Stake.goal_restarted tgt_pos]
    simpa [Stake.restarted] using below

/-! ### Waits (R60, R66 to R68) -/

section
variable {a : Agent} {d : Dev} {id : StakeId} {s : State}

/-- A waiter that is registered is the last of its stake's; nothing else but its hub's counts has changed. -/
theorem registerWait_spec (d : Dev) (id : StakeId) (w : Waiter) (n : Nat) :
    StakeOnly id d (registerWait d id w n) ∧ (registerWait d id w n).cores = d.cores ∧
      getStake (registerWait d id w n) id = { getStake d id with
        waiters := (getStake d id).waiters ++
          [⟨w, isRemote id w, isRemote id w && decide (remoteRoom (stakeHub id) ≤ remoteUsed d (stakeDie id) (stakeHub id)), n⟩] } := by
  have only := setStake_stakeOnly d id { getStake d id with
    waiters := (getStake d id).waiters ++
      [⟨w, isRemote id w, isRemote id w && decide (remoteRoom (stakeHub id) ≤ remoteUsed d (stakeDie id) (stakeHub id)), n⟩] }
  unfold registerWait
  dsimp only
  split
  · exact ⟨only.trans (setHub_stakeOnly _ id _ _ _), rfl, getStake_setStake_self d id _⟩
  · split
    · exact ⟨only.trans (setHub_stakeOnly _ id _ _ _), rfl, getStake_setStake_self d id _⟩
    · exact ⟨only, rfl, getStake_setStake_self d id _⟩

theorem waitLive_of_agentWait {w : WaitRef} (h : agentWait d a = some w) : waitLive d (.agent a) w.serial = true := by
  cases a with
  | seq c => exact decide_eq_true (congrArg (Option.map WaitRef.serial) h)
  | crew c slot => exact decide_eq_true (congrArg (Option.map WaitRef.serial) h)

theorem exec_stkWaitTimeout {w : WaitRef} {t0 : Nat} (hf : Fits (.stkWaitTimeout a) s) (wait : agentWait s.dev a = some w)
    (deadline : w.deadline = some t0) (past : t0 ≤ s.dev.tick) :
    exec (.stkWaitTimeout a) s = .next { s with dev := wakeAgent (dropWaiter s.dev w.stake w.serial) a w.serial 2 } := by
  change execStkWaitTimeout a s = _
  refine runCmd_next hf ?_
  simp only [wait, deadline, Option.map_some, Option.getD_some, past, decide_true, if_true]

/-- A poll of an enabled stake ends the wait once the stake is complete, and changes nothing before. -/
theorem exec_stakePoll {w : Waiter} {x : StakeWait} (hf : Fits (.stakePoll w) s) (polls : pollingOn s.dev w = some (id, x))
    (enabled : (getStake s.dev id).enable = true) :
    exec (.stakePoll w) s = .next { s with
      dev := if (getStake s.dev id).complete then wakeWaiter (setStake s.dev id { getStake s.dev id with
          waiters := (getStake s.dev id).waiters.erase x }) (getStake s.dev id).outcome x
        else s.dev } := by
  change execStakePoll w s = _
  refine runCmd_next hf ?_
  simp only [polls, enabled, Bool.not_true, Bool.false_eq_true, if_false]

theorem wakeWaiter_agent {x : StakeWait} (h : x.w = .agent a) (d : Dev) (o : Nat) : wakeWaiter d o x = wakeAgent d a x.serial o := by
  simp only [wakeWaiter, h]

end

/-- Settles O32, by what a hub does with a wait, and by the timeout's and the poll's own commands. -/
theorem stakeWaits : Obligations.StakeWaits := by
  refine ⟨?ends, ?registers, ?timeout, ?pollEnds, ?pollWaits⟩
  case ends =>
    intro die hub p op rest s a serial hf hp act ha live ok complete manual
    refine ⟨_, exec_stakeOpApply_one hf hp ha, ?_⟩
    have only := wakeAgent_onlyCore (setHub s.dev die hub ((getHub s.dev die hub).setPort p rest)) a serial (getStake s.dev op.stake).outcome
    have ended : applyOp (setHub s.dev die hub ((getHub s.dev die hub).setPort p rest)) op =
        wakeAgent (setHub s.dev die hub ((getHub s.dev die hub).setPort p rest)) a serial (getStake s.dev op.stake).outcome := by
      rw [applyOp_wait ((stakeCheck_setHub ..).trans ok) act ((waitLive_congr (sameAgent_setHub ..) _).trans live), getStake_setHub,
        if_pos (by rw [complete, manual]; rfl), wakeWaiter_agent rfl]
    rw [ended]
    refine ⟨(wakeAgent_woken ((waitLive_congr (sameAgent_setHub ..) _).trans live)).of_same (sameAgent_setHub ..), ?_⟩
    rw [only.hubs]
    exact only
  case registers =>
    intro die hub p op rest s a serial hf hp act ha live ok waits
    refine ⟨_, exec_stakeOpApply_one hf hp ha, ?_⟩
    have incomplete : ¬ ((getStake s.dev op.stake).complete && !(getStake s.dev op.stake).autoReset) = true := by
      obtain h | h := waits <;> simp [h]
    rw [applyOp_wait ((stakeCheck_setHub ..).trans ok) act ((waitLive_congr (sameAgent_setHub ..) _).trans live), getStake_setHub, if_neg incomplete]
    obtain ⟨only, cores, registered⟩ :=
      registerWait_spec (setHub s.dev die hub ((getHub s.dev die hub).setPort p rest)) op.stake (.agent a) serial
    exact ⟨(setHub_stakeOnly s.dev op.stake die hub _).trans only, fun c => by rw [getCore, cores]; rfl, registered⟩
  case timeout =>
    intro a s w t0 hf wait deadline past
    refine ⟨_, exec_stkWaitTimeout hf wait deadline past, ?_⟩
    have only := wakeAgent_onlyCore (dropWaiter s.dev w.stake w.serial) a w.serial 2
    have dropped := setStake_stakeOnly s.dev w.stake { getStake s.dev w.stake with
      waiters := (getStake s.dev w.stake).waiters.filter fun x => decide (x.serial ≠ w.serial) }
    have same : SameAgent a s.dev (dropWaiter s.dev w.stake w.serial) := sameAgent_of_cores rfl
    refine ⟨(wakeAgent_woken ((waitLive_congr same _).trans (waitLive_of_agentWait wait))).of_same same, ?_, fun j hj => ?_, fun x => ?_⟩
    · rw [only.stakes]
      exact only
    · exact (only.getStake j).trans (dropped.1 j hj)
    · rw [only.getStake, dropWaiter, getStake_setStake_self, List.mem_filter, decide_eq_true_iff]
  case pollEnds =>
    intro a s id x hf polls hx enabled complete live
    refine ⟨_, exec_stakePoll hf polls enabled, ?_⟩
    rw [if_pos complete]
    have same : SameAgent a s.dev (setStake s.dev id { getStake s.dev id with waiters := (getStake s.dev id).waiters.erase x }) :=
      sameAgent_of_cores rfl
    refine ⟨?_, (setStake_stakeOnly s.dev id _).trans (wakeWaiter_stakeOnly _ id _ x)⟩
    rw [wakeWaiter_agent hx]
    exact (wakeAgent_woken ((waitLive_congr same _).trans live)).of_same same
  case pollWaits =>
    intro w s id x hf polls enabled incomplete
    rw [exec_stakePoll hf polls enabled, incomplete, if_neg Bool.false_ne_true]

/-! ### A hub's operations keep the part (R62) -/

section
variable {d t : Dev} {id : StakeId} {s : State}

theorem part_of_beyond (h : t.beyondCores = d.beyondCores) : t.part = d.part := by
  have same := congrArg Dev.part h
  exact same

theorem StakeOnly.part (h : StakeOnly id d t) : t.part = d.part := by
  obtain ⟨-, -, beyond⟩ := h
  exact part_of_beyond beyond

theorem OnlyCore.part {c : CoreId} (h : OnlyCore c d t) : t.part = d.part := part_of_beyond h.beyond

theorem agentFault_part (d : Dev) (a : Agent) {f : FaultCode} (hf : f ≠ .none) (sub pc : Nat) (word : W64) :
    (agentFault d a f sub pc word).part = d.part := by
  have faulted := agentFault_spec (d := d) (a := a) f sub pc word hf
  cases a with
  | seq c =>
    obtain ⟨-, -, -, -, beyond⟩ := faulted
    exact part_of_beyond beyond
  | crew c slot =>
    cases hk : getCrew d c slot with
    | none => simp only [agentFault, crewFault, crewFaultAt, hk]
    | some k =>
      obtain ⟨-, -, -, -, beyond, -⟩ := faulted k hk
      exact part_of_beyond beyond

theorem answerPut_part (d : Dev) (die port zid tag chunk : Nat) (ok : Bool) : (answerPut d die port zid tag chunk ok).part = d.part := by
  cases ok <;> rfl

/-- An addition writes the stake, logs a saturation, and completes the stake where it is due. -/
theorem stakeAdd_eq {inc : Nat} (d : Dev) (id : StakeId) (pos : inc ≠ 0) :
    ∃ (e : Dev) (due : Bool), StakeOnly id d e ∧ stakeAdd d id inc = if due then completion e id else e := by
  refine ⟨if decide (0xFFFFFFFF < (getStake d id).count.toNat + inc) then logErr (setStake d id _) _ _ else setStake d id _, _, ?_, if_neg pos⟩
  split
  · exact (setStake_stakeOnly d id _).trans (logErr_stakeOnly _ id _ _)
  · exact setStake_stakeOnly d id _

theorem stakeAdd_stakeOnly (d : Dev) (id : StakeId) (inc : Nat) : StakeOnly id d (stakeAdd d id inc) := by
  by_cases zero : inc = 0
  · rw [zero, stakeAdd_zero]
    exact .refl id d
  · obtain ⟨e, due, only, eq⟩ := stakeAdd_eq d id zero
    rw [eq]
    cases due with
    | true => exact only.trans (completion_stakeOnly e id)
    | false => exact only

theorem refuseOp_part (d : Dev) (op : StakeOp) {f : FaultCode} (hf : f ≠ .none) : (refuseOp d op f).part = d.part := by
  unfold refuseOp
  split
  · split
    · exact agentFault_part d _ hf _ _ _
    · rfl
  · split
    · exact (wakeWaiter_stakeOnly d op.stake _ _).part
    · unfold logRefused
      split <;> exact logErr_part _ _ _
  · exact answerPut_part d _ _ _ _ _ _

theorem replyAgent_part (d : Dev) (a : Agent) (run rd : Nat) (mask : W32) (v : W64) : (replyAgent d a run rd mask v).part = d.part :=
  (replyAgent_onlyCore d a run rd mask v).part

theorem applyOp_part (d : Dev) (op : StakeOp) : (applyOp d op).part = d.part := by
  unfold applyOp
  dsimp only
  split
  case isTrue refused => exact refuseOp_part d op refused
  case isFalse =>
    split
    case h_1 inc faulted _ =>
      have added : (stakeAdd (if faulted then setStake d op.stake { getStake d op.stake with faulted := true } else d) op.stake inc).part = d.part := by
        rw [(stakeAdd_stakeOnly _ op.stake inc).part]
        split <;> rfl
      split
      · exact (answerPut_part _ _ _ _ _ _ _).trans added
      · exact added
    case h_2 => exact (stakeReset_stakeOnly d op.stake _).part
    case h_3 inc rd _ =>
      rw [(stakeAdd_stakeOnly _ op.stake inc).part]
      split
      · exact replyAgent_part d _ _ _ _ _
      · rfl
    case h_4 =>
      split
      · exact replyAgent_part d _ _ _ _ _
      · exact replyAgent_part d _ _ _ _ _
      · rfl
    case h_5 w n _ =>
      split
      · rfl
      · split
        · exact (wakeWaiter_stakeOnly d op.stake _ _).part
        · obtain ⟨only, -⟩ := registerWait_spec d op.stake w n
          exact only.part

theorem atHub_part (d : Dev) (id : StakeId) : (atHub d id).part = d.part := by
  have kept : ∀ (ops : List StakeOp) (e : Dev), (ops.foldl applyOp e).part = e.part := fun ops => by
    induction ops with
    | nil => exact fun _ => rfl
    | cons op ops ih => exact fun e => (ih _).trans (applyOp_part e op)
  exact kept _ _

/-! ### Writes of the stake registers (R72 to R74) -/

theorem exec_stkTargetWrite {v : W32} (hf : Fits (.stkTargetWrite id v) s) (there : stakeDie id < s.dev.part.dies) :
    exec (.stkTargetWrite id v) s = .next { s with dev := stakeTarget (atHub s.dev id) id v } := by
  change execStkTargetWrite id v s = _
  refine runCmd_next hf ?_
  simp only [whenOn, stakeExists, there, decide_true, if_true]

theorem exec_stkCtlReset {v : W32} (hf : Fits (.stkCtlReset id v) s) (there : stakeDie id < s.dev.part.dies) (reset : v.getLsbD 2 = true) :
    exec (.stkCtlReset id v) s = .next { s with dev := stakeCtl (atHub s.dev id) id v } := by
  change execStkCtlReset id v s = _
  refine runCmd_next hf ?_
  simp only [whenOn, stakeExists, there, fld_bit_one reset, decide_true, Bool.and_self, if_true]

theorem exec_stkCtlEnableClear {v : W32} (hf : Fits (.stkCtlEnableClear id v) s) (there : stakeDie id < s.dev.part.dies)
    (enabled : (getStake s.dev id).enable = true) (clear : v.getLsbD 0 = false) :
    exec (.stkCtlEnableClear id v) s = .next { s with dev := stakeCtl (atHub s.dev id) id v } := by
  change execStkCtlEnableClear id v s = _
  refine runCmd_next hf ?_
  simp only [whenOn, stakeExists, there, enabled, fld_bit_zero clear, decide_true, Bool.and_self, if_true]

/-- The fields of a stake that a write of STK_CTL gives. -/
def Stake.withCtl (k : Stake) (v : W32) : Stake :=
  { k with enable := v.getLsbD 0, event := v.getLsbD 1, autoReset := v.getLsbD 3, parcel := (v.extractLsb' 8 6).toNat }

theorem fld_bit_eq_one (v : W32) (n : Nat) : decide (fld v n n = 1) = v.getLsbD n := by
  cases h : v.getLsbD n with
  | true => rw [fld_bit_one h, decide_eq_true rfl]
  | false => rw [fld_bit_zero h, decide_eq_false Nat.zero_ne_one]

theorem stakeDisable_stakeOnly (d : Dev) (id : StakeId) : StakeOnly id d (stakeDisable d id) :=
  (wakeAll_stakeOnly d id 1).trans (setStake_stakeOnly _ id _)

theorem getStake_stakeDisable (d : Dev) (id : StakeId) : getStake (stakeDisable d id) id = { getStake d id with
    enable := false
    waiters := (getStake d id).waiters.filter StakeWait.polling } := by
  simp only [stakeDisable, getStake_setStake_self, getStake_wakeAll]

/-- The state in which a write of STK_CTL writes the fields: after the wakes, where it clears ENABLE. -/
def ctlDisabled (d : Dev) (id : StakeId) (v : W32) : Dev := if (getStake d id).enable && !v.getLsbD 0 then stakeDisable d id else d

theorem stakeCtl_eq (d : Dev) (id : StakeId) (v : W32) : stakeCtl d id v =
    if v.getLsbD 2 then stakeReset (setStake (ctlDisabled d id v) id ((getStake (ctlDisabled d id v) id).withCtl v)) id
        (getStake (ctlDisabled d id v) id).target
      else setStake (ctlDisabled d id v) id ((getStake (ctlDisabled d id v) id).withCtl v) := by
  have parcel : fld v 13 8 = (v.extractLsb' 8 6).toNat := fld_eq_extract
  cases reset : v.getLsbD 2 with
  | true => simp only [stakeCtl, ctlDisabled, Stake.withCtl, fld_bit_eq_one, parcel, fld_bit_one reset, if_true]
  | false => simp only [stakeCtl, ctlDisabled, Stake.withCtl, fld_bit_eq_one, parcel, fld_bit_zero reset, Nat.zero_ne_one, Bool.false_eq_true, if_false]

theorem ctlDisabled_stakeOnly (d : Dev) (id : StakeId) (v : W32) : StakeOnly id d (ctlDisabled d id v) := by
  unfold ctlDisabled
  split
  · exact stakeDisable_stakeOnly d id
  · exact .refl id d

theorem stakeCtl_stakeOnly (d : Dev) (id : StakeId) (v : W32) : StakeOnly id d (stakeCtl d id v) := by
  have written := (ctlDisabled_stakeOnly d id v).trans (setStake_stakeOnly _ id ((getStake (ctlDisabled d id v) id).withCtl v))
  rw [stakeCtl_eq]
  split
  · exact written.trans (stakeReset_stakeOnly _ id _)
  · exact written

end

/-! ### What the register writes leave of their stake (R72 to R74) -/

section
variable {d : Dev} {id : StakeId} {v : W32}

theorem ofNat_goal_of_autoReset {k : Stake} (h : k.autoReset = true) : BitVec.ofNat 32 k.goal = if k.target = 0 then 1 else k.target := by
  simp only [Stake.goal, h, Bool.true_and, decide_eq_true_iff]
  split
  · rfl
  · exact BitVec.eq_of_toNat_eq (by rw [BitVec.toNat_ofNat, Nat.mod_eq_of_lt k.target.isLt])

theorem complete_iff (k : Stake) : k.complete = true ↔ (if k.autoReset = true ∧ k.target = 0 then 1 else k.target) ≤ k.count := by
  by_cases clamped : k.autoReset = true ∧ k.target = 0
  · simp [Stake.complete, Stake.goal, clamped, BitVec.le_def]
  · have exact_goal : (k.autoReset && decide (k.target = 0)) = false := by simpa using clamped
    rw [if_neg clamped, Stake.complete, decide_eq_true_iff, BitVec.le_def, Stake.goal, exact_goal, if_neg Bool.false_ne_true]

/-- What an evaluation of completion leaves of a stake, in the words of R64 and R72. -/
theorem completed_if_complete (k : Stake) : (if k.complete then k.completed else k) = { k with
    count := if k.autoReset = true ∧ (if k.target = 0 then 1 else k.target) ≤ k.count then k.count - (if k.target = 0 then 1 else k.target) else k.count
    waiters := if (if k.autoReset = true ∧ k.target = 0 then 1 else k.target) ≤ k.count then k.waiters.filter StakeWait.polling else k.waiters } := by
  have complete := complete_iff k
  obtain ⟨count, target, enable, event, auto, parcel, saturated, faulted, waiters⟩ := k
  cases auto with
  | true =>
    simp only [true_and] at complete ⊢
    by_cases reached : (if target = 0 then 1 else target) ≤ count
    · rw [if_pos (complete.2 reached), if_pos reached, if_pos reached, Stake.completed, if_pos rfl, ofNat_goal_of_autoReset rfl]
    · rw [if_neg (fun h => reached (complete.1 h)), if_neg reached, if_neg reached]
  | false =>
    simp only [Bool.false_eq_true, false_and, if_false] at complete ⊢
    by_cases reached : target ≤ count
    · rw [if_pos (complete.2 reached), if_pos reached]
      rfl
    · rw [if_neg (fun h => reached (complete.1 h)), if_neg reached]

theorem getStake_ctlDisabled (d : Dev) (id : StakeId) (v : W32) :
    ∃ en ws, getStake (ctlDisabled d id v) id = { getStake d id with enable := en, waiters := ws } := by
  unfold ctlDisabled
  split
  · exact ⟨_, _, getStake_stakeDisable d id⟩
  · exact ⟨_, _, rfl⟩

/-- The reset of STK_CTL leaves the fields as written, COUNT 0 and TARGET as it stood. -/
theorem getStake_stakeCtl_of_reset (reset : v.getLsbD 2 = true) : ∃ ws,
    getStake (stakeCtl d id v) id = { ((getStake d id).restarted (getStake d id).target).withCtl v with waiters := ws } := by
  obtain ⟨en, ws, same⟩ := getStake_ctlDisabled d id v
  rw [stakeCtl_eq, if_pos reset]
  obtain ⟨left, -, eq⟩ := getStake_stakeReset (setStake (ctlDisabled d id v) id ((getStake (ctlDisabled d id v) id).withCtl v)) id
    (getStake (ctlDisabled d id v) id).target
  exact ⟨left, by rw [eq, getStake_setStake_self, same]; rfl⟩

/-- A write that clears ENABLE wakes the registered waiters and no others, and leaves the stake disabled with its target. -/
theorem stakeCtl_of_disable (enabled : (getStake d id).enable = true) (clear : v.getLsbD 0 = false) :
    (stakeCtl d id v).cores = (wakeAll d id 1).cores ∧ (getStake (stakeCtl d id v) id).enable = false ∧
      (getStake (stakeCtl d id v) id).target = (getStake d id).target ∧ ∀ w ∈ (getStake (stakeCtl d id v) id).waiters, w.polling = true := by
  have disabled : ctlDisabled d id v = stakeDisable d id := if_pos (by rw [enabled, clear]; rfl)
  have polling : ∀ w ∈ ((getStake (stakeDisable d id) id).withCtl v).waiters, w.polling = true := fun w hw => by
    rw [getStake_stakeDisable] at hw
    exact (List.mem_filter.1 hw).2
  have target : (getStake (stakeDisable d id) id).target = (getStake d id).target := by rw [getStake_stakeDisable]
  rw [stakeCtl_eq, disabled]
  split
  · obtain ⟨ws, among, eq⟩ := getStake_stakeReset (setStake (stakeDisable d id) id ((getStake (stakeDisable d id) id).withCtl v)) id
      (getStake (stakeDisable d id) id).target
    rw [getStake_setStake_self] at among eq
    rw [eq]
    exact ⟨stakeReset_cores_of_polling (by rw [getStake_setStake_self]; exact polling), clear, target, fun w hw => polling w (among w hw)⟩
  · rw [getStake_setStake_self]
    exact ⟨rfl, clear, target, polling⟩

end

/-- Settles O33, by what each write does from the state in which it reaches its hub. -/
theorem stakeRegisterWrites : Obligations.StakeRegisterWrites := by
  refine ⟨?target, ?reset, ?disable⟩
  case target =>
    intro id v s d hf there hd
    subst hd
    refine ⟨_, exec_stkTargetWrite hf there, stakeTarget_stakeOnly _ id v, ?_⟩
    rw [getStake_stakeTarget, completed_if_complete]
  case reset =>
    intro id v s d hf there bit hd
    subst hd
    refine ⟨_, exec_stkCtlReset hf there bit, stakeCtl_stakeOnly _ id v, ?_⟩
    obtain ⟨ws, eq⟩ := getStake_stakeCtl_of_reset (d := atHub s.dev id) (id := id) bit
    rw [eq]
    rfl
  case disable =>
    intro id v s d hf there on clear hd enabled
    subst hd
    obtain ⟨cores, off, target, polling⟩ := stakeCtl_of_disable enabled clear
    refine ⟨_, exec_stkCtlEnableClear hf there on clear, stakeCtl_stakeOnly _ id v, off, fun a rem n hw live => ?_, target, polling, fun parcel => ?_⟩
    · exact (wakeAll_woken hw rfl rfl live).then_same (sameAgent_of_cores cores)
    · have part : (stakeCtl (atHub s.dev id) id v).part = s.dev.part := (stakeCtl_stakeOnly _ id v).part.trans (atHub_part s.dev id)
      rw [stakeCheck, part, if_neg (Nat.not_le_of_lt there)]
      simp only [off, Bool.not_false, Bool.true_or, if_true]

/-! ### An operation refused on an untidy device (R53) -/

/-- An operation of the sequencer of core 0 on stake 0, which reset leaves disabled. -/
def refusedOp : StakeOp := ⟨.test 0, 0, .agent (.seq ⟨0, 0⟩) 0 0 0 1, none⟩

/-- A device whose stakes stand out of order: the entry of stake 3 stands behind that of stake 5, so that stake 3 reads as reset leaves it. -/
def untidyState : State :=
  ⟨{ Dev.reset with
    stakes := [(5, Stake.empty), (3, { Stake.empty with count := 7 })]
    hubs := [(0, { Hub.empty with q0 := [refusedOp] })] }, []⟩

theorem untidyState_presents : Presents 0 0 0 refusedOp [] untidyState.dev := ⟨by decide, rfl, rfl⟩

theorem untidyState_fits : Fits (.stakeOpApply 0 0 (1#4 <<< 0)) untidyState := ⟨by decide, by decide⟩

theorem untidyState_refuses : stakeCheck untidyState.dev refusedOp.stake refusedOp.parcel = .stakeDenied := by decide

theorem untidyState_before : (getStake untidyState.dev 3).count = 0 := by decide

/-- The fault of the sequencer drops its waits, and with them the entry of stake 5. -/
theorem untidyState_after :
    (getStake (applyOp (setHub untidyState.dev 0 0 ((getHub untidyState.dev 0 0).setPort 0 [])) refusedOp) 3).count = 7 := by
  decide

/-- Refutes O29: its clause on refused operations is claimed of every device, and fails on one whose stakes are not in order (it lacks the hypothesis Tidy,
which every step keeps). On `untidyState` the sequencer's STK.TEST of the disabled stake 0 faults; dropping the sequencer's waits takes out the empty entry
of stake 5, and the COUNT read for stake 3 goes from 0 to 7. -/
theorem not_stakeOperations : ¬ Obligations.StakeOperations := by
  intro h
  obtain ⟨-, -, -, -, refused, -⟩ := h
  obtain ⟨t, answer, -, kept⟩ := refused 0 0 0 refusedOp [] untidyState .stakeDenied (.seq ⟨0, 0⟩) 0 0 0 1 untidyState_fits untidyState_presents rfl
    (by decide) (fun _ _ crew => by contradiction) untidyState_refuses (by decide)
  rw [exec_stakeOpApply_one untidyState_fits untidyState_presents rfl] at answer
  obtain rfl : applyOp (setHub untidyState.dev 0 0 ((getHub untidyState.dev 0 0).setPort 0 [])) refusedOp = t := by
    injection answer with same
    exact congrArg State.dev same
  have count : (7 : W32) = 0 := untidyState_after.symm.trans ((congrArg Stake.count (kept 3)).trans untidyState_before)
  exact absurd count (by decide)

end Sys2Proof.Machine
end

section
/-!
SUPPORT. The work of a core's units (chapters 03 to 05, 07, 10): changes that keep its agents, its cubes' queues, the other cores and all that lies beyond
running work (UnitWork), and among them those that keep memory too (UnitQuiet).
-/

namespace Sys2Proof.Machine

/-! ### Frames of unit work -/

/-- Work of a core's units went on (UnitOnly) and took no operation off a cube's queue. -/
def UnitWork (c : CoreId) (d t : Dev) : Prop := UnitOnly c d t ∧ ∀ u, (getCube t c u).queue = (getCube d c u).queue

/-- The same, with nothing changed beyond the cores, so that all memory is as before. -/
def UnitQuiet (c : CoreId) (d t : Dev) : Prop := UnitWork c d t ∧ t.beyondCores = d.beyondCores

/-- Work that keeps its sequencer, its crews and its cubes' queues. -/
def Work.UnitStep (w v : Work) : Prop :=
  v.seq = w.seq ∧ v.crews = w.crews ∧ ∀ u, (tget Cube.empty v.cubes u).queue = (tget Cube.empty w.cubes u).queue

section
variable {α β : Type} {c : CoreId} {b d t : Dev}

theorem UnitOnly.trans (h : UnitOnly c b d) (g : UnitOnly c d t) : UnitOnly c b t := by
  obtain ⟨hseq, hcrews, hcores, hbeyond⟩ := h
  obtain ⟨gseq, gcrews, gcores, gbeyond⟩ := g
  exact ⟨gseq.trans hseq, gcrews.trans hcrews, fun k hk => (gcores k hk).trans (hcores k hk), gbeyond.trans hbeyond⟩

namespace UnitWork

theorem trans (h : UnitWork c b d) (g : UnitWork c d t) : UnitWork c b t := ⟨h.1.trans g.1, fun u => (g.2 u).trans (h.2 u)⟩

/-- A change that keeps every core is work of any core's units. -/
theorem ofCores (h : UnitWork c b d) (cores : t.cores = d.cores) (beyond : t.beyondWork = d.beyondWork) : UnitWork c b t := by
  have core : getCore t c = getCore d c := by simp only [getCore, cores]
  refine h.trans ⟨⟨?_, ?_, fun k _ => ?_, beyond⟩, fun u => ?_⟩
  · rw [seqOf, core, seqOf]
  · rw [core]
  · rw [cores]
  · rw [getCube, core, getCube]

theorem ite {p : Prop} [Decidable p] {x y : Dev} (hx : UnitWork c b x) (hy : UnitWork c b y) : UnitWork c b (if p then x else y) := by
  split
  · exact hx
  · exact hy

/-- A step that may be taken. -/
theorem when {p : Prop} [Decidable p] {x : Dev} (h : UnitWork c b d) (f : UnitWork c b d → UnitWork c b x) : UnitWork c b (if p then x else d) := .ite (f h) h

theorem of_fst {r : Dev × α} {a : α} (e : r = (d, a)) (h : UnitWork c b r.1) : UnitWork c b d := by rwa [e] at h

theorem foldl {f : Dev → α → Dev} {l : List α} (hf : ∀ d a, UnitWork c b d → UnitWork c b (f d a)) (h : UnitWork c b d) : UnitWork c b (l.foldl f d) :=
  List.foldlRecOn l f h fun d hd a _ => hf d a hd

theorem foldl_fst {f : Dev × β → α → Dev × β} {l : List α} {r : Dev × β} (hf : ∀ r a, UnitWork c b r.1 → UnitWork c b (f r a).1)
    (h : UnitWork c b r.1) : UnitWork c b (l.foldl f r).1 :=
  List.foldlRecOn (motive := fun r => UnitWork c b r.1) l f h fun r hr a _ => hf r a hr

end UnitWork

namespace UnitQuiet

theorem refl : UnitQuiet c d d := ⟨⟨⟨rfl, rfl, fun _ _ => rfl, rfl⟩, fun _ => rfl⟩, rfl⟩

theorem trans (h : UnitQuiet c b d) (g : UnitQuiet c d t) : UnitQuiet c b t := ⟨h.1.trans g.1, g.2.trans h.2⟩

theorem unitOnly (h : UnitQuiet c b d) : UnitOnly c b d := h.1.1

theorem memSame (h : UnitQuiet c b d) : MemSame b d := memSame_of_beyondCores h.2

/-- A change that keeps every core and all that lies beyond the cores. -/
theorem ofCores (h : UnitQuiet c b d) (cores : t.cores = d.cores) (beyond : t.beyondCores = d.beyondCores) : UnitQuiet c b t :=
  ⟨h.1.ofCores cores (beyondWork_of_beyondCores beyond), beyond.trans h.2⟩

theorem ite {p : Prop} [Decidable p] {x y : Dev} (hx : UnitQuiet c b x) (hy : UnitQuiet c b y) : UnitQuiet c b (if p then x else y) := by
  split
  · exact hx
  · exact hy

theorem foldl {f : Dev → α → Dev} {l : List α} (hf : ∀ d a, UnitQuiet c b d → UnitQuiet c b (f d a)) (h : UnitQuiet c b d) :
    UnitQuiet c b (l.foldl f d) :=
  List.foldlRecOn l f h fun d hd a _ => hf d a hd

theorem foldl_snd {f : β × Dev → α → β × Dev} {l : List α} {r : β × Dev} (hf : ∀ r a, UnitQuiet c b r.2 → UnitQuiet c b (f r a).2)
    (h : UnitQuiet c b r.2) : UnitQuiet c b (l.foldl f r).2 :=
  List.foldlRecOn (motive := fun r => UnitQuiet c b r.2) l f h fun r hr a _ => hf r a hr

end UnitQuiet

/-- Quiet work after any work. -/
theorem UnitWork.quiet (h : UnitWork c b d) (g : UnitQuiet c d t) : UnitWork c b t := h.trans g.1

end

/-! ### Cubes after a write -/

theorem getCube_setCube (d : Dev) (c : CoreId) (u : Nat) (x : Cube) (q : Nat) :
    getCube (setCube d c u x) c q = if q = u then x else getCube d c q := by
  simp [getCube, setCube, tget_tset]

@[simp] theorem getCube_modCube_self (d : Dev) (c : CoreId) (u : Nat) (f : Cube → Cube) : getCube (modCube d c u f) c u = f (getCube d c u) := by
  simp [modCube, getCube_setCube]

/-- A change of a cube leaves of its core every other field. -/
theorem getCore_modCube (d : Dev) (c : CoreId) (u : Nat) (f : Cube → Cube) : getCore (modCube d c u f) c = { getCore d c with w := { (getCore d c).w with
    cubes := tset Cube.empty (getCore d c).w.cubes u (f (getCube d c u)) } } := by
  simp [modCube, setCube]

/-- A change of a cube, its queue included, is work of its core's units. -/
theorem modCube_unitOnly (d : Dev) (c : CoreId) (u : Nat) (f : Cube → Cube) : UnitOnly c d (modCube d c u f) := by
  refine ⟨?_, ?_, fun k hk => cores_setCore d c _ hk, rfl⟩
  · rw [seqOf, getCore_modCube, seqOf]
  · rw [getCore_modCube]

/-! ### Quiet work: cores, registers, records and arrivals -/

section
variable {c : CoreId} {b d : Dev} {u : Nat} {o : RunOp}

theorem modWork_quiet {f : Work → Work} (k : (getCore d c).w.UnitStep (f (getCore d c).w)) (h : UnitQuiet c b d) : UnitQuiet c b (modWork d c f) := by
  obtain ⟨seq, crews, queue⟩ := k
  have core : getCore (modWork d c f) c = { getCore d c with w := f (getCore d c).w } := getCore_modWork d c f
  refine h.trans ⟨⟨⟨?_, ?_, fun k hk => cores_setCore d c _ hk, rfl⟩, fun u => ?_⟩, rfl⟩
  · rw [seqOf, core]; exact seq
  · rw [core]; exact crews
  · rw [getCube, core]; exact queue u

theorem modPart_quiet {f : PartRun → PartRun} (h : UnitQuiet c b d) : UnitQuiet c b (modPart d c f) := modWork_quiet ⟨rfl, rfl, fun _ => rfl⟩ h

theorem rcount_quiet {n : RegName} {die i j hi lo k : Nat} (h : UnitQuiet c b d) : UnitQuiet c b (rcount d n die i j hi lo k) := h.ofCores rfl rfl

theorem freeNext_quiet (h : UnitQuiet c b d) : UnitQuiet c b (freeNext d) := h.ofCores rfl rfl

theorem logErr_quiet {die : Nat} {x : ErrInfo} (h : UnitQuiet c b d) : UnitQuiet c b (logErr d die x) :=
  h.ofCores (logErr_cores d die x) (logErr_beyond d die x)

theorem unitArrive_quiet {id : StakeId} {code parcel inc : Nat} {faulted : Bool} (h : UnitQuiet c b d) :
    UnitQuiet c b (unitArrive d c id code parcel inc faulted) :=
  h.ofCores (unitArrive_cores ..) (unitArrive_beyond ..)

/-- A wait on its way to its hub changes that hub alone. -/
theorem unitWait_quiet {w : Waiter} {id : StakeId} {parcel serial : Nat} (h : UnitQuiet c b d) : UnitQuiet c b (unitWait d w id parcel serial) := by
  unfold unitWait
  dsimp only
  split <;> exact h.ofCores rfl rfl

/-- A wake that a unit takes is gone, and nothing else has changed. -/
theorem takeWake_eq {w : Waiter} {f : Nat} {e : Dev} (h : takeWake d w = some (f, e)) : e = { d with wakes := e.wakes } := by
  unfold takeWake at h
  split at h
  · cases h; rfl
  · cases h

theorem takeWake_quiet {w : Waiter} {f : Nat} {e : Dev} (t : takeWake d w = some (f, e)) (h : UnitQuiet c b d) : UnitQuiet c b e := by
  rw [takeWake_eq t]
  exact h.ofCores rfl rfl

theorem partDone_quiet {f : FaultCode} {sub : Nat} {empty : Bool} (h : UnitQuiet c b d) : UnitQuiet c b (partDone d c f sub empty) := modPart_quiet h

theorem opDoneSub_quiet {unit : Nat} {op : Op} {f : FaultCode} {sub : Nat} {empty : Bool} (h : UnitQuiet c b d) :
    UnitQuiet c b (opDoneSub d c unit op f sub empty) :=
  unitArrive_quiet (partDone_quiet h)

theorem opDone_quiet {unit : Nat} {op : Op} {f : FaultCode} {empty : Bool} (h : UnitQuiet c b d) : UnitQuiet c b (opDone d c unit op f empty) :=
  opDoneSub_quiet h

/-! ### Quiet work: cubes and their operations -/

theorem setCube_quiet {x : Cube} (q : x.queue = (getCube d c u).queue) (h : UnitQuiet c b d) : UnitQuiet c b (setCube d c u x) := by
  refine modWork_quiet ⟨rfl, rfl, fun v => ?_⟩ h
  rw [tget_tset]
  split
  · rename_i same
    rw [q, getCube, same]
  · rfl

theorem modCube_quiet {f : Cube → Cube} (q : ∀ x, (f x).queue = x.queue) (h : UnitQuiet c b d) : UnitQuiet c b (modCube d c u f) :=
  setCube_quiet (q _) h

theorem opCleanup_quiet (h : UnitQuiet c b d) : UnitQuiet c b (opCleanup d c o) := modWork_quiet ⟨rfl, rfl, fun _ => rfl⟩ h

theorem flushPost_quiet {n : Nat} (h : UnitQuiet c b d) : UnitQuiet c b (flushPost d c u n) := by
  induction n generalizing d with
  | zero => exact h
  | succ n ih =>
    unfold flushPost
    split
    · exact .ite (ih (opDoneSub_quiet (modCube_quiet (fun _ => rfl) h))) h
    · exact h

theorem flushCube_quiet (h : UnitQuiet c b d) : UnitQuiet c b (flushCube d c u) := flushPost_quiet h

theorem setRun_quiet (h : UnitQuiet c b d) : UnitQuiet c b (setRun d c u o) := modCube_quiet (fun _ => rfl) h

theorem endRun_quiet {f : FaultCode} {empty : Bool} (h : UnitQuiet c b d) : UnitQuiet c b (endRun d c u o f empty) :=
  flushCube_quiet (opCleanup_quiet (modCube_quiet (fun _ => rfl) h))

theorem endHead_quiet {f : FaultCode} {empty : Bool} (h : UnitQuiet c b d) : UnitQuiet c b (endHead d c u o f empty) :=
  .ite (modCube_quiet (fun _ => rfl) (opCleanup_quiet h)) (flushCube_quiet (modCube_quiet (fun _ => rfl) (opCleanup_quiet h)))

theorem cubeArrive_quiet {id : Nat} {faulted : Bool} (h : UnitQuiet c b d) : UnitQuiet c b (cubeArrive d c o id faulted) := unitArrive_quiet h

theorem faultArrivals_quiet (h : UnitQuiet c b d) : UnitQuiet c b (faultArrivals d c o) := .ite (cubeArrive_quiet h) (.ite (cubeArrive_quiet h) h)

theorem failHead_quiet {f : FaultCode} (h : UnitQuiet c b d) : UnitQuiet c b (failHead d c u o f) := endHead_quiet (faultArrivals_quiet h)

theorem accFill_queue (x : Cube) (bank n : Nat) (v : Option (W32 × Bool)) : (accFill x bank n v).queue = x.queue := rfl

theorem startBanks_quiet (h : UnitQuiet c b d) : UnitQuiet c b (startBanks d c u o) := .ite h (modCube_quiet (fun x => accFill_queue x ..) h)

theorem readBanks_quiet {banks : List Nat} (h : UnitQuiet c b d) : UnitQuiet c b (readBanks d c u banks).1 :=
  rcount_quiet (modCube_quiet (fun _ => rfl) h)

theorem accLog_quiet {bank : Nat} (h : UnitQuiet c b d) : UnitQuiet c b (accLog d c u bank) := logErr_quiet h

theorem rampGo_quiet (h : UnitQuiet c b d) : UnitQuiet c b (rampGo d c u) := by
  refine .ite (modCube_quiet (fun x => ?_) h) h
  split
  · rfl
  · split <;> rfl

theorem rampAll_quiet (h : UnitQuiet c b d) : UnitQuiet c b (rampAll d c) := .foldl (fun _ _ g => rampGo_quiet g) h

theorem afterSteps_quiet (h : UnitQuiet c b d) : UnitQuiet c b (afterSteps d c u o) :=
  .ite (endRun_quiet h) (.ite (unitWait_quiet (setRun_quiet h)) (.ite (endRun_quiet h) (setRun_quiet h)))

theorem skipPruned_quiet (h : UnitQuiet c b d) : UnitQuiet c b (skipPruned d c u o) :=
  .ite (afterSteps_quiet (.ite h (rcount_quiet h))) (setRun_quiet (.ite h (rcount_quiet h)))

theorem prologueStart_quiet (h : UnitQuiet c b d) : UnitQuiet c b (prologueStart d c u o) :=
  .ite (unitWait_quiet (rcount_quiet (setRun_quiet h))) (setRun_quiet h)

/-! ### Quiet work: conversions, their draws and counts -/

theorem countOut_quiet {sat flush : Nat} (h : UnitQuiet c b d) : UnitQuiet c b (countOut d c sat flush) := modPart_quiet h

theorem drawSource_quiet {s : Nat} (h : UnitQuiet c b d) : UnitQuiet c b (drawSource d c s).2 := rcount_quiet (modWork_quiet ⟨rfl, rfl, fun _ => rfl⟩ h)

theorem drawConv_quiet {j : Nat} (h : UnitQuiet c b d) : UnitQuiet c b (drawConv d c o j).2 := by
  unfold drawConv
  dsimp only
  split
  · exact rcount_quiet (.ite (rcount_quiet (modWork_quiet ⟨rfl, rfl, fun _ => rfl⟩ h)) (modWork_quiet ⟨rfl, rfl, fun _ => rfl⟩ h))
  · exact drawSource_quiet h

theorem countElem_quiet {r : Rounded} {marked : Bool} (h : UnitQuiet c b d) : UnitQuiet c b (countElem d c r marked) := countOut_quiet h

theorem rndOf_quiet {rnd : Nat} {reduced : Bool} {draw : Dev → W32 × Dev} (hf : ∀ e, UnitQuiet c b e → UnitQuiet c b (draw e).2) (h : UnitQuiet c b d) :
    UnitQuiet c b (rndOf rnd reduced draw d).2 := by
  unfold rndOf
  split
  · exact h
  · exact h
  · exact h
  · exact hf d h

theorem convOne_quiet {j fmt rnd : Nat} {ftz sat clampInf : Bool} {v : FV} (h : UnitQuiet c b d) :
    UnitQuiet c b (convOne d c o j fmt rnd ftz sat clampInf v).2 :=
  rndOf_quiet (fun _ g => drawConv_quiet g) h

theorem convValues_quiet {fmt rnd : Nat} {ftz sat : Bool} {vs : List FV} (h : UnitQuiet c b d) :
    UnitQuiet c b (convValues d c o fmt rnd ftz sat vs).2 := by
  refine .foldl_snd (fun _ _ g => ?_) h
  dsimp only
  exact convOne_quiet g

theorem convRow_quiet {fmt rnd : Nat} {ftz sat : Bool} {vs : List FV} (h : UnitQuiet c b d) : UnitQuiet c b (convRow d c o fmt rnd ftz sat vs).2 :=
  .foldl (fun _ _ g => countElem_quiet g) (convValues_quiet h)

theorem drainConv_quiet {staged : Bool} {j : Nat} {v : FV} (h : UnitQuiet c b d) : UnitQuiet c b (drainConv d c o staged j v).2 := by
  unfold drainConv
  dsimp only
  split
  · exact h
  · exact convOne_quiet h

theorem prepareQ_quiet (h : UnitQuiet c b d) : UnitQuiet c b (prepareQ d c o).2 := .foldl_snd (fun _ _ g => convRow_quiet g) h

/-- The key phase fills banks and sets the running operation or ends it (R325). -/
theorem attnKeys_quiet (h : UnitQuiet c b d) : UnitQuiet c b (attnKeys d c u o) := by
  have filled {bank n : Nat} {v : Option (W32 × Bool)} : UnitQuiet c b (modCube d c u fun x => accFill x bank n v) :=
    modCube_quiet (fun x => accFill_queue x ..) h
  exact .ite (endRun_quiet filled) (.ite (setRun_quiet filled) (.ite (setRun_quiet filled) (.ite (endRun_quiet filled) (setRun_quiet (rcount_quiet filled)))))

end

/-! ### Work that writes memory -/

section
variable {c : CoreId} {b d : Dev} {u : Nat} {o : RunOp}

theorem memPut_unitWork {k : Nat} {bs : List Byte} (h : UnitWork c b d) : UnitWork c b (memPut d k bs) := h.ofCores rfl rfl

theorem clearPoison_unitWork {p : Place} {n : Nat} (h : UnitWork c b d) : UnitWork c b (clearPoison d p n) :=
  .foldl (fun _ _ g => .ite (g.ofCores rfl rfl) g) h

theorem touchLine_unitWork {p : Place} {write hold : Bool} (h : UnitWork c b d) : UnitWork c b (touchLine d p write hold) := by
  unfold touchLine
  dsimp only
  split
  · refine .ite h (.ite (h.ofCores rfl rfl) ?_)
    split <;> exact h.ofCores rfl rfl
  · exact h

theorem countRefused_unitWork {p : Place} (h : UnitWork c b d) : UnitWork c b (countRefused d p) := by
  unfold countRefused
  split
  · exact h.quiet (rcount_quiet .refl)
  · exact h

theorem devRead_unitWork {a : Addr} {n : Nat} {hold : Bool} (h : UnitWork c b d) : UnitWork c b (devRead d a n hold).1 := by
  unfold devRead
  split
  · exact h
  · exact h
  · split
    · exact h
    · split
      · exact countRefused_unitWork h
      · dsimp only
        split <;> exact touchLine_unitWork h

theorem devWrite_unitWork {a : Addr} {bs : List Byte} (h : UnitWork c b d) : UnitWork c b (devWrite d a bs).1 := by
  unfold devWrite
  split
  · exact h
  · exact h
  · split
    · exact h
    · split
      · exact countRefused_unitWork h
      · exact memPut_unitWork (clearPoison_unitWork (touchLine_unitWork h))

theorem devReadAll_unitWork {a : Addr} {n : Nat} (h : UnitWork c b d) : UnitWork c b (devReadAll d a n).1 := by
  refine .foldl_fst (fun _ _ g => ?_) h
  split
  · exact g
  · split <;> (rename_i e; exact .of_fst e (devRead_unitWork g))

theorem devWriteAll_unitWork {a : Addr} {bs : List Byte} (h : UnitWork c b d) : UnitWork c b (devWriteAll d a bs).1 := by
  refine .foldl_fst (fun _ _ g => ?_) h
  split
  · exact g
  · exact devWrite_unitWork g

theorem storeWrite_unitWork {off : Nat} {bs : List Byte} (h : UnitWork c b d) : UnitWork c b (storeWrite d c off bs) :=
  memPut_unitWork (clearPoison_unitWork h)

theorem putCodes_unitWork {off fmt i0 : Nat} {codes : List Nat} (h : UnitWork c b d) : UnitWork c b (putCodes d c off fmt i0 codes) := storeWrite_unitWork h

theorem putWords_unitWork {off : Nat} {ws : List W32} (h : UnitWork c b d) : UnitWork c b (putWords d c off ws) := storeWrite_unitWork h

theorem fillFree_unitWork {off n : Nat} (h : UnitWork c b d) : UnitWork c b (fillFree d c off n) :=
  .foldl (fun _ _ g => (storeWrite_unitWork g).quiet (freeNext_quiet .refl)) h

theorem attnReady_unitWork (h : UnitWork c b d) : UnitWork c b (attnReady d c u o) :=
  .ite (.ite (h.quiet (endRun_quiet .refl)) ((fillFree_unitWork (h.quiet (prepareQ_quiet .refl))).quiet (attnKeys_quiet .refl)))
    ((fillFree_unitWork h).quiet (attnKeys_quiet .refl))

theorem attnStart_unitWork (h : UnitWork c b d) : UnitWork c b (attnStart d c u o) :=
  .ite (.ite (h.quiet (endRun_quiet .refl)) (h.quiet (setRun_quiet .refl))) (attnReady_unitWork h)

/-! ### The tile claim and the zero shape (R78, R199) -/

theorem claimTile_unitWork (h : UnitWork c b d) : UnitWork c b (claimTile d c o).1 := by
  unfold claimTile
  dsimp only
  split
  · exact h
  · split
    · rename_i read
      exact .of_fst read (devReadAll_unitWork h)
    · rename_i read
      have h1 := UnitWork.of_fst read (devReadAll_unitWork h)
      split
      · exact h1.quiet (rcount_quiet .refl)
      · split <;> (rename_i written; exact .of_fst written (devWriteAll_unitWork h1))

theorem putLedger_unitWork {a : Addr} {x y : W32} (h : UnitWork c b d) : UnitWork c b (putLedger d a x y).1 := devWriteAll_unitWork h

theorem zeroHooks_unitWork (h : UnitWork c b d) : UnitWork c b (zeroHooks d c o).1 := by
  unfold zeroHooks
  split
  · exact h
  · extract_lets rows cols put d1 d2 d3 soft d4 r
    have hput {e : Dev} {red off : Nat} {l : List Nat} (he : UnitWork c b e) : UnitWork c b (put e red off l) :=
      .ite he (.foldl (fun _ _ g => putWords_unitWork g) he)
    have h3 : UnitWork c b d3 := .when (hput (hput h)) fun g => g.quiet (modWork_quiet ⟨rfl, rfl, fun _ => rfl⟩ .refl)
    have h4 : UnitWork c b d4 := .ite h3 (.foldl (fun _ _ g => putWords_unitWork g) h3)
    split
    · exact h3
    · refine UnitWork.quiet (.foldl_fst (fun _ _ g => ?_) h4) (cubeArrive_quiet .refl)
      split
      · exact g
      · split <;> (rename_i e; exact UnitWork.of_fst e (putLedger_unitWork g))

theorem drainDirect_unitWork {lim : Nat} (h : UnitWork c b d) : UnitWork c b (drainDirect d c u o lim) :=
  .foldl (fun _ _ g => .foldl (fun _ _ k => .ite k (putCodes_unitWork (k.quiet (countElem_quiet (drainConv_quiet .refl))))) g) h

theorem ksplitPut_unitWork {p : Nat} {row : Nat → List W32} {marked : Nat → Nat} (h : UnitWork c b d) :
    UnitWork c b (ksplitPut d c o p row marked).1 := by
  refine .foldl_fst (fun _ _ g => ?_) h
  split
  · exact g
  · split
    · rename_i e
      exact .of_fst e (devWriteAll_unitWork g)
    · rename_i e
      exact (UnitWork.of_fst e (devWriteAll_unitWork g)).quiet (countOut_quiet .refl)

theorem readThen_unitWork {banks : List Nat} {drain : Dev → Nat → Dev × FaultCode} (h : UnitWork c b d)
    (hf : ∀ e x, UnitWork c b e → UnitWork c b (drain e x).1) : UnitWork c b (readThen d c u banks drain).1 := by
  have read : UnitWork c b (readBanks d c u banks).1 := h.quiet (readBanks_quiet .refl)
  unfold readThen
  dsimp only
  split
  · exact (hf _ _ read).quiet (accLog_quiet .refl)
  · exact hf _ _ read

theorem zeroPart_unitWork (h : UnitWork c b d) : UnitWork c b (zeroPart d c u o).1 := by
  refine UnitWork.quiet ?_ (cubeArrive_quiet .refl)
  split
  · split
    · refine readThen_unitWork h fun _ _ g => ?_
      split
      · exact g
      · exact ksplitPut_unitWork g
    · exact ksplitPut_unitWork h
  · exact h

theorem accSet_queue (x : Cube) (bank i j : Nat) (v : W32 × Bool) : (accSet x bank i j v).queue = x.queue := rfl

/-- Writes to a cube that each keep its queue keep it together. -/
theorem foldl_queue {α : Type} {f : Cube → α → Cube} (hf : ∀ x a, (f x a).queue = x.queue) (l : List α) (x : Cube) : (l.foldl f x).queue = x.queue :=
  List.foldlRecOn (motive := fun y : Cube => y.queue = x.queue) l f rfl fun y hy a _ => (hf y a).trans hy

theorem zeroBody_unitWork (h : UnitWork c b d) : UnitWork c b (zeroBody d c u o).1 := by
  unfold zeroBody
  split
  · split
    · exact h
    · split
      · split
        · exact h
        · exact readThen_unitWork h fun _ _ g => drainDirect_unitWork g
      · split
        · exact h.quiet (modCube_quiet (fun x => foldl_queue (fun y _ => foldl_queue (fun z _ => accSet_queue z ..) _ y) _ x) .refl)
        · exact .foldl (fun _ _ g => .foldl (fun _ _ k => putCodes_unitWork k) g) h
  · split
    · exact .foldl (fun _ _ g => putWords_unitWork g) h
    · exact h
  · exact h

/-! ### From the head of a cube to its work (R197, R680) -/

theorem cubeStart_unitWork (h : UnitWork c b d) : UnitWork c b (cubeStart d c u o) := by
  unfold cubeStart
  extract_lets d1 o1 body r _ d2
  have h1 : UnitWork c b d1 := h.quiet (modCube_quiet (fun _ => rfl) .refl)
  have h2 : UnitWork c b d2 := h1.quiet (startBanks_quiet .refl)
  have hbody : UnitWork c b body.1 := zeroBody_unitWork h1
  have hr : UnitWork c b r.1 := by
    unfold r
    split
    · exact zeroPart_unitWork h1
    · split
      · exact hbody.quiet (faultArrivals_quiet .refl)
      · exact zeroHooks_unitWork hbody
  exact .ite (.when (hr.quiet (endRun_quiet .refl)) fun g => g.quiet (rampAll_quiet .refl)) (.ite (attnStart_unitWork h1)
    (.ite (h1.quiet (rampGo_quiet (setRun_quiet .refl))) (.ite (h1.quiet (endRun_quiet (faultArrivals_quiet .refl)))
      (.ite (h2.quiet (prologueStart_quiet .refl)) (.ite (h2.quiet (rampGo_quiet (skipPruned_quiet .refl))) (h2.quiet (rampGo_quiet (setRun_quiet .refl))))))))

theorem promote_unitWork (h : UnitWork c b d) : UnitWork c b (promote d c u) := by
  unfold promote
  dsimp only
  split
  · exact .ite (h.quiet (flushCube_quiet (modCube_quiet (fun _ => rfl) .refl))) (.ite (cubeStart_unitWork h) h)
  · exact h

theorem headGo_unitWork (h : UnitWork c b d) : UnitWork c b (headGo d c u o) := by
  unfold headGo
  split
  · exact h.quiet (failHead_quiet .refl)
  · refine .ite (h.quiet (failHead_quiet .refl)) ?_
    split
    · rename_i e
      exact (UnitWork.of_fst e (claimTile_unitWork h)).quiet (failHead_quiet .refl)
    · rename_i e
      exact (UnitWork.of_fst e (claimTile_unitWork h)).quiet (endHead_quiet .refl)
    · rename_i e
      exact promote_unitWork ((UnitWork.of_fst e (claimTile_unitWork h)).quiet (modCube_quiet (fun _ => rfl) .refl))

end

end Sys2Proof.Machine
end

section
/-!
SUPPORT. The front of a unit's queue (chapters 03 to 05, 07, 10): an operation that ends arrives once, what a cube, a loader and the quantise queue do with
the operation at their front, and the end of an operand wait.
-/

namespace Sys2Proof.Machine

/-! ### An operation that completes (R29) -/

section
variable (d : Dev) (c : CoreId) (unit : Nat) (op : Op) (f : FaultCode) (sub : Nat) (empty : Bool)

/-- A completion changes of its core the part's account alone. -/
theorem getCore_opDoneSub : ∃ p, getCore (opDoneSub d c unit op f sub empty) c = { getCore d c with w := { (getCore d c).w with part := p } } := by
  refine ⟨(getCore (partDone d c (if f = .alreadyClaimed then .none else f) sub empty) c).w.part, ?_⟩
  unfold opDoneSub
  dsimp only
  rw [getCore_unitArrive]
  exact getCore_partDone ..

theorem getCore_opDone : ∃ p, getCore (opDone d c unit op f empty) c = { getCore d c with w := { (getCore d c).w with part := p } } :=
  getCore_opDoneSub ..

@[simp] theorem getCube_opDoneSub (u : Nat) : getCube (opDoneSub d c unit op f sub empty) c u = getCube d c u := by
  obtain ⟨p, core⟩ := getCore_opDoneSub d c unit op f sub empty
  rw [getCube, core, getCube]

variable {f}

/-- A completion makes its one arrival, with FAULTED for a code other than that of a claimed tile (R29, R79). -/
theorem opDoneSub_arrived (hf : f ≠ .alreadyClaimed) :
    Arrived c unit op.parcel 1 (decide (f ≠ .none)) op.stake (opDoneSub d c unit op f sub empty) := by
  simp only [opDoneSub, if_neg hf]
  exact unitArrive_arrived _ _ _ _ _ _ _

theorem opDone_arrived (hf : f ≠ .alreadyClaimed) : Arrived c unit op.parcel 1 (decide (f ≠ .none)) op.stake (opDone d c unit op f empty) :=
  opDoneSub_arrived d c unit op 0 empty hf

theorem opDone_arrived_faulted (hf : f ≠ .alreadyClaimed) (hn : f ≠ .none) : Arrived c unit op.parcel 1 true op.stake (opDone d c unit op f empty) :=
  decide_eq_true hn ▸ opDone_arrived d c unit op empty hf

end

/-! ### The end of an operation at a cube's head (R228, R680) -/

section
variable {d : Dev} {c : CoreId} {u : Nat} {o : RunOp}

theorem CubeEnded.after {b t : Dev} {op : Op} {faulted : Bool} (h : UnitOnly c b d) (g : CubeEnded c u op faulted d t) : CubeEnded c u op faulted b t := by
  obtain ⟨only, rest⟩ := g
  exact ⟨h.trans only, rest⟩

@[simp] theorem getCube_opCleanup (d : Dev) (c : CoreId) (o : RunOp) (u : Nat) : getCube (opCleanup d c o) c u = getCube d c u := by
  simp [getCube, opCleanup]

@[simp] theorem getCube_faultArrivals (d : Dev) (c : CoreId) (o : RunOp) (u : Nat) : getCube (faultArrivals d c o) c u = getCube d c u := by
  have core : getCore (faultArrivals d c o) c = getCore d c := by
    unfold faultArrivals cubeArrive
    split
    · exact getCore_unitArrive ..
    · split
      · exact getCore_unitArrive ..
      · rfl
  rw [getCube, core, getCube]

/-- Of a cube that holds one operation past its steps, which has ended, that operation arrives and is gone (R228). -/
theorem flushCube_one (post : (getCube d c u).post = [o]) (done : o.phase = .done) :
    flushCube d c u = opDoneSub (modCube d c u fun x => { x with post := [] }) c 1 o.op o.fault o.sub o.empty := by
  simp [flushCube, flushPost, post, done]

/-- The operation at the head of a cube with nothing ahead of it ends with its arrival. -/
theorem endHead_ended (run : (getCube d c u).run = none) (post : (getCube d c u).post = []) {f : FaultCode} (hf : f ≠ .alreadyClaimed) (empty : Bool) :
    CubeEnded c u o.op (decide (f ≠ .none)) d (endHead d c u o f empty) ∧
      getCube (endHead d c u o f empty) c u = { getCube d c u with head := none } := by
  have same : getCube (endHead d c u o f empty) c u = { getCube d c u with head := none } ∧
      Arrived c 1 o.op.parcel 1 (decide (f ≠ .none)) o.op.stake (endHead d c u o f empty) := by
    unfold endHead
    dsimp only
    rw [if_neg (by simp [run]), flushCube_one (by rw [getCube_modCube_self, getCube_opCleanup, post]; rfl) rfl]
    refine ⟨?_, opDoneSub_arrived _ c 1 o.op _ empty hf⟩
    rw [getCube_opDoneSub, getCube_modCube_self, getCube_modCube_self, getCube_opCleanup, ← post]
  obtain ⟨cube, arrived⟩ := same
  exact ⟨⟨(endHead_quiet .refl).unitOnly, by rw [cube]; exact run, by rw [cube]; exact post, arrived⟩, cube⟩

end

/-! ### The commands -/

section
variable {s : State} {q : UnitRef} {t : Dev} {P : Dev → Prop}

theorem unitDescriptorStart_completes (hf : Fits (.unitDescriptorStart q) s) (h : unitTake s.dev q = some t) (p : P t) :
    Completes (.unitDescriptorStart q) s P :=
  completes_of (f := fun d => orNot "UNIT_DESCRIPTOR_START" (unitTake d q)) rfl hf (by simp only [h, orNot_some]) p

theorem operandWaitEnd_completes (hf : Fits (.operandWaitEnd q) s) (h : unitWaitEnd s.dev q = some t) (p : P t) : Completes (.operandWaitEnd q) s P :=
  completes_of (f := fun d => orNot "OPERAND_WAIT_END" (unitWaitEnd d q)) rfl hf (by simp only [h, orNot_some]) p

end

/-! ### A cube takes the operation at the front of its queue (R197, R680) -/

/-- The operation at the front of a cube's queue has left it. -/
def tookFront (d : Dev) (c : CoreId) (u : Nat) (rest : List Op) : Dev := modCube d c u fun x => { x with queue := rest }

section
variable {d : Dev} {c : CoreId} {u : Nat} {op : Op} {rest : List Op}

theorem tookFront_unitOnly : UnitOnly c d (tookFront d c u rest) := modCube_unitOnly ..

theorem getCube_tookFront : getCube (tookFront d c u rest) c u = { getCube d c u with queue := rest } := getCube_modCube_self ..

/-- Work of units after the front operation has left its queue leaves the rest there. -/
theorem UnitWork.tookFront {t : Dev} (h : UnitWork c (tookFront d c u rest) t) : UnitOnly c d t ∧ (getCube t c u).queue = rest :=
  ⟨tookFront_unitOnly.trans h.1, (h.2 u).trans (by rw [getCube_tookFront])⟩

variable (runs : unitsRun d c = true) (queue : (getCube d c u).queue = op :: rest) (head : (getCube d c u).head = none)
  (run : (getCube d c u).run = none)
include runs queue head run

/-- CUBE.ACLR, with the cube released: every bank is cleared and the operation ends (R138). -/
theorem cubeTake_aclr (kind : op.kind = 0) (released : (getCube d c u).released = true) : cubeTake d c u =
    some (endHead (modCube (tookFront d c u rest) c u fun x => { x with acc := [], errs := [] }) c u (RunOp.new op) .none false) := by
  simp [cubeTake, tookFront, Cube.lastIssued, runs, queue, head, run, kind, released]

/-- A descriptor that fails order 1 ends its operation (R197). -/
theorem cubeTake_refused (kind : op.kind ≠ 0) {f : FaultCode} (checks : order1 d c op = .error f) :
    cubeTake d c u = some (endHead (tookFront d c u rest) c u (RunOp.new op) f false) := by
  simp [cubeTake, tookFront, Cube.lastIssued, runs, queue, head, run, kind, checks]

/-- An operation that order 2 refuses ends by its fault (R197). -/
theorem cubeTake_failed (kind : op.kind ≠ 0) {x : Op} (checks : order1 d c op = .ok x) (bad : order2 d c (readHooks d c (RunOp.new x)) ≠ .none) :
    cubeTake d c u = some (failHead (tookFront d c u rest) c u (readHooks d c (RunOp.new x)) (order2 d c (readHooks d c (RunOp.new x)))) := by
  simp [cubeTake, tookFront, Cube.lastIssued, runs, queue, head, run, kind, checks, bad]

/-- An operation that waits stands at the head, its wait on its way to the hub (R170). -/
theorem cubeTake_waits (kind : op.kind ≠ 0) {x : Op} (checks : order1 d c op = .ok x) (good : order2 d c (readHooks d c (RunOp.new x)) = .none)
    {id : StakeId} (wait : (readHooks d c (RunOp.new x)).wait = some id) : cubeTake d c u =
      some (unitWait (modCube (tookFront d c u rest) c u fun y => { y with head := some (readHooks d c (RunOp.new x)) }) (.unit (.cube c u) x.serial) id
        x.parcel x.serial) := by
  simp [cubeTake, tookFront, Cube.lastIssued, runs, queue, head, run, kind, checks, good, wait]

/-- An operation without a wait goes on (R197). -/
theorem cubeTake_goes (kind : op.kind ≠ 0) {x : Op} (checks : order1 d c op = .ok x) (good : order2 d c (readHooks d c (RunOp.new x)) = .none)
    (wait : (readHooks d c (RunOp.new x)).wait = none) : cubeTake d c u =
      some (headGo (modCube (tookFront d c u rest) c u fun y => { y with head := some (readHooks d c (RunOp.new x)) }) c u (readHooks d c (RunOp.new x))) := by
  have idle : ((getCube d c u).head.isSome || !(getCube d c u).lastIssued || !unitsRun d c) = false := by simp [head, run, runs, Cube.lastIssued]
  unfold cubeTake
  simp only [queue, idle, if_neg kind, checks, good, wait, tookFront]
  rfl

/-- Whatever becomes of it, the front operation alone leaves the queue. -/
theorem cubeTake_unitWork (released : op.kind = 0 → (getCube d c u).released = true) :
    ∃ t, cubeTake d c u = some t ∧ UnitWork c (tookFront d c u rest) t := by
  by_cases kind : op.kind = 0
  · have cleared : UnitQuiet c (tookFront d c u rest) (modCube (tookFront d c u rest) c u fun x => { x with acc := [], errs := [] }) :=
      modCube_quiet (fun _ => rfl) .refl
    exact ⟨_, cubeTake_aclr runs queue head run kind (released kind), (endHead_quiet cleared).1⟩
  cases checks : order1 d c op with
  | error f => exact ⟨_, cubeTake_refused runs queue head run kind checks, (endHead_quiet .refl).1⟩
  | ok x =>
    by_cases good : order2 d c (readHooks d c (RunOp.new x)) = .none
    · have atHead : UnitQuiet c (tookFront d c u rest) (modCube (tookFront d c u rest) c u fun y => { y with head := some (readHooks d c (RunOp.new x)) }) :=
        modCube_quiet (fun _ => rfl) .refl
      cases wait : (readHooks d c (RunOp.new x)).wait with
      | none => exact ⟨_, cubeTake_goes runs queue head run kind checks good wait, headGo_unitWork atHead.1⟩
      | some id => exact ⟨_, cubeTake_waits runs queue head run kind checks good wait, (unitWait_quiet atHead).1⟩
    · exact ⟨_, cubeTake_failed runs queue head run kind checks good, (failHead_quiet .refl).1⟩

end

/-- The words of a descriptor are all that order 1 adds to its operation (R99). -/
theorem order1_eq {d : Dev} {c : CoreId} {op x : Op} (h : order1 d c op = .ok x) : x = { op with desc := x.desc } := by
  unfold order1 at h
  split at h
  · cases h
  · dsimp only at h
    repeat' split at h
    all_goals cases h
    rfl

/-- A core unit's wait stands last in its port of the stake's hub (R62, R66). -/
theorem unitWait_port (d : Dev) {w : Waiter} {c : CoreId} (hw : waiterCore w = some c) (id : StakeId) (parcel serial : Nat) :
    ∃ q, (getHub (unitWait d w id parcel serial) (stakeDie id) (stakeHub id)).port (if ownCore id c then 1 else 2) =
      q ++ [⟨.wait w serial, id, .unit 0 w.die, some parcel⟩] := by
  refine ⟨(getHub d (stakeDie id) (stakeHub id)).port (if ownCore id c then 1 else 2), ?_⟩
  simp only [unitWait, hw, pushUnit, pushPort, getHub_setHub_self, port_setPort]

/-- A wait leaves every core as it was. -/
@[simp] theorem getCube_unitWait (d : Dev) (w : Waiter) (id : StakeId) (parcel serial : Nat) (c : CoreId) (u : Nat) :
    getCube (unitWait d w id parcel serial) c u = getCube d c u := by
  unfold unitWait
  dsimp only
  split <;> rfl

/-! ### The loaders (R273, R339) -/

section
variable (d : Dev) (c : CoreId) (op : Op) (f : FaultCode)

theorem endTload_quiet {d : Dev} : UnitQuiet c d (endTload d c op f) := opDone_quiet (modWork_quiet ⟨rfl, rfl, fun _ => rfl⟩ .refl)

theorem endSload_quiet {d : Dev} : UnitQuiet c d (endSload d c op f) := opDone_quiet (modWork_quiet ⟨rfl, rfl, fun _ => rfl⟩ .refl)

/-- A table load that ends leaves the queue, and the banks are as before. -/
theorem getCore_endTload : ∃ p, getCore (endTload d c op f) c = { getCore d c with w := { (getCore d c).w with
    tloads := (getCore d c).w.tloads.drop 1, tphase := 0, part := p } } := by
  obtain ⟨p, core⟩ := getCore_opDone (modWork d c fun w => { w with tloads := w.tloads.drop 1, tphase := 0 }) c 10 op f false
  exact ⟨p, by rw [endTload, core, getCore_modWork]⟩

/-- A scale load that ends leaves the queue, and the banks are as before. -/
theorem getCore_endSload : ∃ p, getCore (endSload d c op f) c = { getCore d c with w := { (getCore d c).w with
    sloads := (getCore d c).w.sloads.drop 1, sphase := 0, part := p } } := by
  obtain ⟨p, core⟩ := getCore_opDone (modWork d c fun w => { w with sloads := w.sloads.drop 1, sphase := 0 }) c 9 op f false
  exact ⟨p, by rw [endSload, core, getCore_modWork]⟩

end

section
variable {d : Dev} {c : CoreId} {op : Op} {rest : List Op} (runs : unitsRun d c = true)
include runs

section
variable (queue : (getCore d c).w.tloads = op :: rest) (phase : (getCore d c).w.tphase = 0)
include queue phase

theorem tloadTake_refused {f : FaultCode} (checks : order1 d c op = .error f) : tloadTake d c = some (endTload d c op f) := by
  simp [tloadTake, runs, queue, phase, checks]

/-- A load whose descriptor passes its checks begins (R273). -/
theorem tloadTake_begins {x : Op} (checks : order1 d c op = .ok x) (aligned : wfld x.desc 1 51 0 % 64 = 0)
    (own : inOwn c (BitVec.ofNat 52 (wfld x.desc 1 51 0)) 20240 = true) (size : wfld x.desc 2 31 0 = 20240) :
    tloadTake d c = some (modWork d c fun w => { w with tloads := x :: rest, tphase := 1 }) := by
  have addr : wfld x.desc 1 51 0 % 4503599627370496 = wfld x.desc 1 51 0 := Nat.mod_eq_of_lt fld_lt
  simp [tloadTake, runs, queue, phase, checks, firstFault, misBy, addr, aligned, own, size]

/-- The loader ends a load or begins it, and the active bank stays. -/
theorem tloadTake_quiet : ∃ t, tloadTake d c = some t ∧ UnitQuiet c d t ∧ (getCore t c).w.baseActive = (getCore d c).w.baseActive := by
  have ended (x : Op) (f : FaultCode) : UnitQuiet c d (endTload d c x f) ∧ (getCore (endTload d c x f) c).w.baseActive = (getCore d c).w.baseActive := by
    obtain ⟨p, core⟩ := getCore_endTload d c x f
    exact ⟨endTload_quiet c x f, by rw [core]⟩
  unfold tloadTake
  dsimp only
  rw [queue]
  dsimp only
  rw [if_neg (by simp [phase, runs])]
  split
  · exact ⟨_, rfl, ended _ _⟩
  · split
    · exact ⟨_, rfl, ended _ _⟩
    · exact ⟨_, rfl, modWork_quiet ⟨rfl, rfl, fun _ => rfl⟩ .refl, by rw [getCore_modWork]⟩

end

section
variable (queue : (getCore d c).w.sloads = op :: rest) (phase : (getCore d c).w.sphase = 0)
include queue phase

theorem sloadTake_refused {f : FaultCode} (checks : order1 d c op = .error f) : sloadTake d c = some (endSload d c op f) := by
  simp [sloadTake, runs, queue, phase, checks]

/-- The loader ends a load, one of nothing counted, or begins it, and the active bank stays. -/
theorem sloadTake_quiet : ∃ t, sloadTake d c = some t ∧ UnitQuiet c d t ∧ (getCore t c).w.scaleActive = (getCore d c).w.scaleActive := by
  have ended (x : Op) (f : FaultCode) : UnitQuiet c d (endSload d c x f) ∧ (getCore (endSload d c x f) c).w.scaleActive = (getCore d c).w.scaleActive := by
    obtain ⟨p, core⟩ := getCore_endSload d c x f
    exact ⟨endSload_quiet c x f, by rw [core]⟩
  unfold sloadTake
  dsimp only
  rw [queue]
  dsimp only
  rw [if_neg (by simp [phase, runs])]
  split
  · exact ⟨_, rfl, ended _ _⟩
  · split
    · exact ⟨_, rfl, ended _ _⟩
    · split
      · exact ⟨_, rfl, rcount_quiet (ended _ _).1, (ended _ _).2⟩
      · exact ⟨_, rfl, modWork_quiet ⟨rfl, rfl, fun _ => rfl⟩ .refl, by rw [getCore_modWork]⟩

end

end

/-! ### The end of an operand wait (R170) -/

section
variable {d e : Dev} {w : Waiter} {f : Nat}

theorem getCore_takeWake (h : takeWake d w = some (f, e)) (c : CoreId) : getCore e c = getCore d c := by
  rw [takeWake_eq h]; rfl

theorem getCube_takeWake (h : takeWake d w = some (f, e)) (c : CoreId) (u : Nat) : getCube e c u = getCube d c u := by
  rw [getCube, getCore_takeWake h, getCube]

end

/-- An operation with its planned shape: the extents of its descriptor, and tile 0 (R195). -/
def RunOp.planned (o : RunOp) : RunOp := { o with e0 := o.plan.1, e1 := o.plan.2.1, e2 := o.plan.2.2, tile := 0 }

section
variable {d e : Dev} {c : CoreId} {u f : Nat} {o : RunOp}

theorem readShape_planned (h : o.rtSrc = false) (d : Dev) (c : CoreId) : readShape d c o = .ok o.planned := by
  simp [readShape, h, RunOp.planned]

/-- An operation that claims no tile passes order 7. -/
theorem claimTile_none (h : o.claim.1 = 0) (d : Dev) (c : CoreId) : claimTile d c o = (d, .ok true) := by
  simp [claimTile, h]

section
variable (head : (getCube d c u).head = some o) (runs : unitsRun d c = true) (phase : o.phase = .operand)
include head runs phase

/-- A wait that ended with another outcome than 0 ends the operation with OPERAND_FAULT. -/
theorem cubeWaitEnd_fails (wake : takeWake d (.unit (.cube c u) o.op.serial) = some (f, e)) (hf : f ≠ 0) :
    cubeWaitEnd d c u = some (failHead e c u o .operandFault) := by
  cases f with
  | zero => contradiction
  | succ f => simp [cubeWaitEnd, head, runs, phase, wake]

/-- A wait that ended with outcome 0 lets the head go on. -/
theorem cubeWaitEnd_goes (wake : takeWake d (.unit (.cube c u) o.op.serial) = some (0, e)) : cubeWaitEnd d c u = some (headGo e c u o) := by
  simp [cubeWaitEnd, head, runs, phase, wake]

end

/-- A head that passes its checks behind a running operation waits for it (R680). -/
theorem headGo_passes {y : RunOp} (shape : o.rtSrc = false) (guard : o.planned.guarded = false) (claim : o.planned.claim.1 = 0)
    (run : (getCube d c u).run = some y) : headGo d c u o = modCube d c u fun x => { x with head := some { o.planned with phase := .passed } } := by
  simp [headGo, readShape_planned shape, guard, claimTile_none claim, promote, run]

end

/-! ### The quantise queue (R354) -/

section
variable {d e : Dev} {c : CoreId} {f : Nat} {o : RunOp} {rest : List RunOp}

section
variable (queue : (getCore d c).w.quant = o :: rest) (runs : unitsRun d c = true) (desc : o.op.desc ≠ []) (phase : o.phase = .operand)
include queue runs desc phase

theorem quantWaitEnd_fails (wake : takeWake d (.unit (.quant c) o.op.serial) = some (f, e)) (hf : f ≠ 0) :
    quantWaitEnd d c = some (endQuant e c o .operandFault false) := by
  cases f with
  | zero => contradiction
  | succ f => simp [quantWaitEnd, queue, runs, desc, phase, wake]

theorem quantWaitEnd_goes (wake : takeWake d (.unit (.quant c) o.op.serial) = some (0, e)) : quantWaitEnd d c = some (quantGo e c o) := by
  simp [quantWaitEnd, queue, runs, desc, phase, wake]

end

/-- The front of the quantise queue takes the active bank and its turn at the converter (R338, R354). -/
def quantConverts (d : Dev) (c : CoreId) (x : RunOp) : Dev :=
  modWork (setQuant d c { x with phase := .convert, bank := (getCore d c).w.scaleActive }) c fun w => { w with convQ := w.convQ ++ [(4, x.op.serial)] }

/-- A quantise operation that passes its checks and has work to do takes its turn. -/
theorem quantGo_converts (shape : o.rtSrc = false) (guard : o.planned.guarded = false) (claim : o.planned.claim.1 = 0) (work : o.planned.zero = false) :
    quantGo d c o = quantConverts d c o.planned := by
  simp [quantGo, readShape_planned shape, guard, claimTile_none claim, work, quantConverts]

theorem quantConverts_quiet (d : Dev) (c : CoreId) (x : RunOp) : UnitQuiet c d (quantConverts d c x) :=
  modWork_quiet ⟨rfl, rfl, fun _ => rfl⟩ (modWork_quiet ⟨rfl, rfl, fun _ => rfl⟩ .refl)

theorem getCore_quantConverts (d : Dev) (c : CoreId) (x : RunOp) : getCore (quantConverts d c x) c = { getCore d c with w := { (getCore d c).w with
    quant := (getCore d c).w.quant.map fun y => if y.op.serial = x.op.serial then { x with phase := .convert, bank := (getCore d c).w.scaleActive } else y
    convQ := (getCore d c).w.convQ ++ [(4, x.op.serial)] } } := by
  simp [quantConverts, setQuant]

theorem endQuant_quiet (d : Dev) (c : CoreId) (o : RunOp) (f : FaultCode) (empty : Bool) : UnitQuiet c d (endQuant d c o f empty) :=
  opDone_quiet (modWork_quiet ⟨rfl, rfl, fun _ => rfl⟩ (modWork_quiet ⟨rfl, rfl, fun _ => rfl⟩ (opCleanup_quiet .refl)))

/-- An operation that ends leaves the quantise queue. -/
theorem quant_endQuant (d : Dev) (c : CoreId) (o : RunOp) (f : FaultCode) (empty : Bool) :
    (getCore (endQuant d c o f empty) c).w.quant = (getCore d c).w.quant.filter fun x => decide (x.op.serial ≠ o.op.serial) := by
  unfold endQuant
  dsimp only
  obtain ⟨p, core⟩ := getCore_opDone (modWork (leaveConv (opCleanup d c (o.ended f empty)) c 4 o.op.serial) c fun w =>
    { w with quant := w.quant.filter fun x => decide (x.op.serial ≠ o.op.serial) }) c 8 o.op f empty
  rw [core]
  simp [leaveConv, opCleanup]

end

/-! ### O36 -/

/-- Settles O36, by what a cube, a loader and the quantise queue do with the operation at their front and at the end of its operand wait. -/
theorem unitsTakeWork : Obligations.UnitsTakeWork := by
  refine ⟨?cube, ?tload, ?sload, ?cubeFails, ?cubePasses, ?quantGoes, ?quantFails⟩
  case cube =>
    intro c u s op rest hf runs queue head run
    refine ⟨fun released => ?_, fun post kind => ?_, fun f post kind checks hn hc => ?_, fun x id kind checks good wait => ?_⟩
    · obtain ⟨t, take, work⟩ := cubeTake_unitWork runs queue head run released
      exact unitDescriptorStart_completes hf take work.tookFront
    · have released : (getCube s.dev c u).released = true := by simp [Cube.released, run, post]
      have cleared := getCube_modCube_self (tookFront s.dev c u rest) c u fun x => { x with acc := [], errs := [] }
      rw [getCube_tookFront] at cleared
      obtain ⟨ended, cube⟩ := endHead_ended (o := RunOp.new op) (f := .none) (by rw [cleared]; exact run) (by rw [cleared]; exact post) nofun false
      refine unitDescriptorStart_completes hf (cubeTake_aclr runs queue head run kind released)
        ⟨ended.after (tookFront_unitOnly.trans (modCube_unitOnly ..)), cube.trans ?_⟩
      rw [cleared, ← head]
    · obtain ⟨ended, cube⟩ := endHead_ended (d := tookFront s.dev c u rest) (u := u) (o := RunOp.new op) (f := f) (by rw [getCube_tookFront]; exact run)
        (by rw [getCube_tookFront]; exact post) hc false
      rw [decide_eq_true hn] at ended
      refine unitDescriptorStart_completes hf (cubeTake_refused runs queue head run kind checks) ⟨ended.after tookFront_unitOnly, cube.trans ?_⟩
      rw [getCube_tookFront, ← head]
    · have serial : x.serial = op.serial := by rw [order1_eq checks]
      have atHead : UnitQuiet c (tookFront s.dev c u rest)
          (modCube (tookFront s.dev c u rest) c u fun y => { y with head := some (readHooks s.dev c (RunOp.new x)) }) := modCube_quiet (fun _ => rfl) .refl
      have quiet := unitWait_quiet (w := .unit (.cube c u) x.serial) (id := id) (parcel := x.parcel) (serial := x.serial) atHead
      refine unitDescriptorStart_completes hf (cubeTake_waits runs queue head run kind checks good wait) ⟨tookFront_unitOnly.trans quiet.unitOnly, ?_,
        quiet.memSame, ?_⟩
      · rw [getCube_unitWait, getCube_modCube_self, getCube_tookFront]
      · rw [serial]
        exact unitWait_port _ (w := .unit (.cube c u) op.serial) rfl id x.parcel op.serial
  case tload =>
    intro c s op rest hf runs queue phase
    refine ⟨?_, fun f checks hn hc => ?_, fun x checks aligned own size => ?_⟩
    · obtain ⟨t, take, quiet, bank⟩ := tloadTake_quiet runs queue phase
      exact unitDescriptorStart_completes hf take ⟨quiet.unitOnly, quiet.memSame, bank⟩
    · obtain ⟨p, core⟩ := getCore_endTload s.dev c op f
      refine unitDescriptorStart_completes hf (tloadTake_refused runs queue phase checks) ⟨?_, opDone_arrived_faulted _ c 10 op false hc hn⟩
      rw [core, queue]; rfl
    · refine unitDescriptorStart_completes hf (tloadTake_begins runs queue phase checks aligned own size) ?_
      rw [getCore_modWork]
      exact ⟨rfl, rfl⟩
  case sload =>
    intro c s op rest hf runs queue phase
    refine ⟨?_, fun f checks hn hc => ?_⟩
    · obtain ⟨t, take, quiet, bank⟩ := sloadTake_quiet runs queue phase
      exact unitDescriptorStart_completes hf take ⟨quiet.unitOnly, quiet.memSame, bank⟩
    · obtain ⟨p, core⟩ := getCore_endSload s.dev c op f
      refine unitDescriptorStart_completes hf (sloadTake_refused runs queue phase checks) ⟨?_, opDone_arrived_faulted _ c 9 op false hc hn⟩
      rw [core, queue]; rfl
  case cubeFails =>
    intro c u s o f e hf runs head phase run post wake hn
    have arrivals : UnitQuiet c s.dev (faultArrivals e c o) := faultArrivals_quiet (takeWake_quiet wake .refl)
    have cube : getCube (faultArrivals e c o) c u = getCube s.dev c u := by rw [getCube_faultArrivals, getCube_takeWake wake]
    obtain ⟨ended, left⟩ := endHead_ended (o := o) (f := .operandFault) (by rw [cube]; exact run) (by rw [cube]; exact post) nofun false
    refine operandWaitEnd_completes hf (cubeWaitEnd_fails head runs phase wake hn) ⟨ended.after arrivals.unitOnly, ?_, ?_, (endHead_quiet arrivals).memSame⟩
    · rw [failHead, left, cube]
    · rw [failHead, left, cube]
  case cubePasses =>
    intro c u s o x e y hf runs head phase run wake shape hx guard claim
    subst hx
    have quiet : UnitQuiet c s.dev (modCube e c u fun z => { z with head := some { o.planned with phase := .passed } }) :=
      modCube_quiet (fun _ => rfl) (takeWake_quiet wake .refl)
    refine operandWaitEnd_completes hf (cubeWaitEnd_goes head runs phase wake) ?_
    rw [headGo_passes shape guard claim (by rw [getCube_takeWake wake]; exact run)]
    refine ⟨quiet.unitOnly, quiet.memSame, ?_⟩
    rw [getCube_modCube_self, getCube_takeWake wake]
    rfl
  case quantGoes =>
    intro c s o rest x e hf runs queue desc phase wake shape hx guard claim work
    subst hx
    have quiet : UnitQuiet c s.dev (quantConverts e c o.planned) := (takeWake_quiet wake .refl).trans (quantConverts_quiet ..)
    refine operandWaitEnd_completes hf (quantWaitEnd_goes queue runs desc phase wake) ?_
    rw [quantGo_converts shape guard claim work, getCore_quantConverts, getCore_takeWake wake, queue]
    refine ⟨quiet.unitOnly, quiet.memSame, rfl, ?_⟩
    exact congrArg some (if_pos rfl)
  case quantFails =>
    intro c s o rest f e hf runs queue desc phase wake hn
    have quiet : UnitQuiet c s.dev (endQuant e c o .operandFault false) := (takeWake_quiet wake .refl).trans (endQuant_quiet ..)
    refine operandWaitEnd_completes hf (quantWaitEnd_fails queue runs desc phase wake hn) ⟨quiet.unitOnly, quiet.memSame, ?_, ?_⟩
    · rw [quant_endQuant, getCore_takeWake wake, queue, List.filter_cons_of_neg (by simp)]
    · exact opDone_arrived_faulted _ c 8 o.op false nofun nofun

end Sys2Proof.Machine
end

section
/-!
SUPPORT. The chain engine (chapter 05): its queue after an entry is replaced or has ended, the start of a pass, the end of a chain's wait, and the
entries that enter and leave flight.
-/

namespace Sys2Proof.Machine

/-! ### The queue of the chain engine (R202, R203) -/

section
variable {d : Dev} {c : CoreId} {x : Chain}

@[simp] theorem getCore_setChain (d : Dev) (c : CoreId) (x : Chain) : getCore (setChain d c x) c = { getCore d c with w := { (getCore d c).w with
    chain := (chainQ d c).map fun y => if y.op.serial = x.op.serial then x else y } } :=
  getCore_modWork ..

@[simp] theorem chainQ_setChain (d : Dev) (c : CoreId) (x : Chain) :
    chainQ (setChain d c x) c = (chainQ d c).map fun y => if y.op.serial = x.op.serial then x else y := by
  rw [chainQ, getCore_setChain]

theorem setChain_quiet {b : Dev} (h : UnitQuiet c b d) : UnitQuiet c b (setChain d c x) := modWork_quiet ⟨rfl, rfl, fun _ => rfl⟩ h

@[simp] theorem getStream_setChain (d : Dev) (c : CoreId) (x : Chain) (s : Nat) : getStream (setChain d c x) c s = getStream d c s := by
  simp [getStream]

@[simp] theorem chainQ_setStream (d : Dev) (c : CoreId) (s : Nat) (st : Stream) : chainQ (setStream d c s st) c = chainQ d c := by
  simp [chainQ, setStream]

/-- A replaced entry keeps its serial, so every entry does. -/
theorem serial_replaced (x y : Chain) : (if y.op.serial = x.op.serial then x else y).op.serial = y.op.serial := by
  split
  · rename_i same
    exact same.symm
  · rfl

/-- An entry whose serial is in the queue stands there once it is written. -/
theorem mem_setChain {y : Chain} (mem : y ∈ chainQ d c) (serial : y.op.serial = x.op.serial) : x ∈ chainQ (setChain d c x) c := by
  rw [chainQ_setChain]
  exact List.mem_map.2 ⟨y, mem, if_pos serial⟩

/-- An entry that has been written is the one that its serial finds. -/
theorem find_setChain {y : Chain} (mem : y ∈ chainQ d c) (serial : y.op.serial = x.op.serial) :
    ((chainQ (setChain d c x) c).find? fun z => decide (z.op.serial = x.op.serial)) = some x := by
  rw [chainQ_setChain]
  generalize chainQ d c = q at mem
  induction q with
  | nil => cases mem
  | cons z q ih =>
    rw [List.map_cons]
    by_cases same : z.op.serial = x.op.serial
    · rw [if_pos same]
      exact List.find?_cons_of_pos (decide_eq_true rfl)
    · rw [if_neg same, List.find?_cons_of_neg (by simpa using same)]
      rcases List.mem_cons.1 mem with rfl | later
      · exact absurd serial same
      · exact ih later

/-- The entries of other serials are those of before. -/
theorem filter_setChain (d : Dev) (c : CoreId) (x : Chain) : ((chainQ (setChain d c x) c).filter fun y => decide (y.op.serial ≠ x.op.serial)) =
    (chainQ d c).filter fun y => decide (y.op.serial ≠ x.op.serial) := by
  rw [chainQ_setChain]
  induction chainQ d c with
  | nil => rfl
  | cons y q ih =>
    simp only [List.map_cons, List.filter_cons, serial_replaced, ih]
    by_cases same : y.op.serial = x.op.serial <;> simp [same]

end

/-! ### The end of a chain (R207, R211) -/

section
variable {d : Dev} {c : CoreId} {x : Chain} {f : FaultCode}

theorem popChain_quiet {b : Dev} (h : UnitQuiet c b d) : UnitQuiet c b (popChain d c x f) := opDone_quiet (modWork_quiet ⟨rfl, rfl, fun _ => rfl⟩ h)

theorem getCore_popChain (d : Dev) (c : CoreId) (x : Chain) (f : FaultCode) : ∃ p, getCore (popChain d c x f) c =
    { getCore d c with w := { (getCore d c).w with chain := (chainQ d c).filter fun y => decide (y.op.serial ≠ x.op.serial), part := p } } := by
  obtain ⟨p, core⟩ := getCore_opDone (setChainQ d c ((chainQ d c).filter fun y => decide (y.op.serial ≠ x.op.serial))) c 2 x.op f false
  exact ⟨p, by rw [popChain, core, setChainQ, getCore_modWork]⟩

theorem popChain_arrived (hf : f ≠ .alreadyClaimed) : Arrived c 2 x.op.parcel 1 (decide (f ≠ .none)) x.op.stake (popChain d c x f) :=
  opDone_arrived _ c 2 x.op false hf

/-- A chain that is no stream pass leaves the queue and arrives. -/
theorem endChain_arm (arm : x.slot = none) (d : Dev) (c : CoreId) (f : FaultCode) : endChain d c x f = popChain d c x f := by
  simp only [endChain, arm]

/-- A chain with entries runs. -/
theorem chainRun_runs (entries : x.count ≠ 0) (d : Dev) (c : CoreId) : chainRun d c x = setChain d c { x with phase := 2 } :=
  if_neg entries

section
variable {serial : Nat} (found : ((chainQ d c).find? fun y => decide (y.op.serial = serial)) = some x)
include found

theorem chainCheck_ends (phase : x.phase = 2) (flights : chainFlights d c serial = 0) (isOver : x.fault ≠ .none ∨ x.finished = x.count) :
    chainCheck d c serial = endChain d c x x.fault := by
  simp only [chainCheck, found]
  exact if_pos ⟨phase, flights, isOver⟩

theorem chainCheck_goes (fault : x.fault = .none) (more : x.finished ≠ x.count) : chainCheck d c serial = d := by
  simp only [chainCheck, found]
  exact if_neg fun ⟨_, _, isOver⟩ => isOver.elim (· fault) more

end

/-- A chain without entries in flight has none in flight once its own entry is written. -/
theorem chainFlights_setChain (noFlight : ∀ y ∈ (getCore d c).w.flights, y.chain ≠ x.op.serial) : chainFlights (setChain d c x) c x.op.serial = 0 := by
  rw [chainFlights, getCore_setChain, List.length_eq_zero_iff, List.filter_eq_nil_iff]
  exact fun y mem => by simpa using noFlight y mem

/-- A chain that is no stream pass, with nothing in flight, ends once it is written as faulted or as complete. -/
theorem chainCheck_setChain {y : Chain} (mem : y ∈ chainQ d c) (serial : y.op.serial = x.op.serial) (phase : x.phase = 2) (arm : x.slot = none)
    (noFlight : ∀ y ∈ (getCore d c).w.flights, y.chain ≠ x.op.serial) (isOver : x.fault ≠ .none ∨ x.finished = x.count) :
    chainCheck (setChain d c x) c x.op.serial = popChain (setChain d c x) c x x.fault := by
  rw [chainCheck_ends (find_setChain mem serial) phase (chainFlights_setChain noFlight) isOver, endChain_arm arm]

/-- Its end takes its own entry alone out of the queue. -/
theorem getCore_popChain_setChain (d : Dev) (c : CoreId) (x : Chain) (f : FaultCode) : ∃ p, getCore (popChain (setChain d c x) c x f) c =
    { getCore d c with w := { (getCore d c).w with chain := (chainQ d c).filter fun y => decide (y.op.serial ≠ x.op.serial), part := p } } := by
  obtain ⟨p, core⟩ := getCore_popChain (setChain d c x) c x f
  exact ⟨p, by rw [core, filter_setChain, getCore_setChain]⟩

end

/-! ### The end of a chain's wait (R215) -/

theorem chainWaitEnd_completes {s : State} {c : CoreId} {pos f : Nat} {x : Chain} {e : Dev} {P : Dev → Prop} (hf : Fits (.chainWaitEnd c pos) s)
    (entry : (chainQ s.dev c)[pos]? = some x) (phase : x.phase = 1) (wake : takeWake s.dev (.unit (.chain c) x.op.serial) = some (f, e))
    (p : P (if f = 0 then chainRun e c x else endChain e c x .operandFault)) : Completes (.chainWaitEnd c pos) s P :=
  completes_of ((show exec (.chainWaitEnd c pos) s = execChainWaitEnd c pos s from rfl).trans rfl) hf (by simp only [entry, phase, wake]; rfl) p

theorem chainQ_takeWake {d e : Dev} {w : Waiter} {f : Nat} (h : takeWake d w = some (f, e)) (c : CoreId) : chainQ e c = chainQ d c := by
  rw [chainQ, getCore_takeWake h, chainQ]

/-! ### The start of a pass (R217, R218) -/

/-- A pass of a slot as it begins: its operation, the slot's list and count, and the bases of its re-arm. -/
def Chain.passOf (x : Chain) (op : Op) (st : Stream) : Chain :=
  { x with op := op, list := st.list, count := st.count, bases := rearmBases op.desc st.bases }

/-- A pass of a slot runs with the bases of its re-arm. -/
def passRuns (d : Dev) (c : CoreId) (s : Nat) (x : Chain) (op : Op) : Dev :=
  let y := x.passOf op (getStream d c s)
  setChain (setChain (setStream d c s { getStream d c s with bases := y.bases }) c y) c { y with phase := 2 }

section
variable {d : Dev} {c : CoreId} {s : Nat} {x : Chain} {op : Op}

/-- A re-arm whose descriptor passes its checks and waits for nothing begins its pass. -/
theorem passStart_runs (front : ((chainQ d c).find? fun y => decide (y.slot = some s)) = some x) (rearm : x.op.opc = 2) (phase : x.phase = 0)
    (checks : order1 d c x.op = .ok op) (masks : wfld op.desc 0 15 12 &&& wfld op.desc 0 19 16 = 0) (wait : wfld op.desc 0 20 20 = 0)
    (entries : (getStream d c s).count ≠ 0) : passStart d c s = some (passRuns d c s x op) := by
  have opc : ¬(x.op.opc ≠ chnRearm ∨ x.phase ≠ 0) := by simp [rearm, phase, chnRearm]
  simp only [passStart, front, if_neg opc, checks, masks, wait]
  exact congrArg some (chainRun_runs (x := x.passOf op (getStream d c s)) entries _ c)

theorem passRuns_quiet : UnitQuiet c d (passRuns d c s x op) := setChain_quiet (setChain_quiet (modWork_quiet ⟨rfl, rfl, fun _ => rfl⟩ .refl))

theorem getStream_passRuns : getStream (passRuns d c s x op) c s = { getStream d c s with bases := rearmBases op.desc (getStream d c s).bases } := by
  rw [passRuns, getStream_setChain, getStream_setChain, getStream_setStream_self, Chain.passOf]

/-- The pass stands in the queue, and runs. -/
theorem mem_passRuns (mem : x ∈ chainQ d c) (serial : x.op.serial = op.serial) :
    { x.passOf op (getStream d c s) with phase := 2 } ∈ chainQ (passRuns d c s x op) c := by
  have queued : x ∈ chainQ (setStream d c s { getStream d c s with bases := rearmBases op.desc (getStream d c s).bases }) c := by rwa [chainQ_setStream]
  exact mem_setChain (mem_setChain (x := x.passOf op (getStream d c s)) queued serial) rfl

end

/-- Base i of a re-arm: set, moved, or as it was (R218). -/
theorem rearmBases_getD (ws : List W64) (old : List Addr) {i : Nat} (hi : i < 4) : (rearmBases ws old).getD i 0 =
    if Nat.testBit (wfld ws 0 15 12) i then BitVec.ofNat 52 (wfld ws (1 + i) 51 0)
    else if Nat.testBit (wfld ws 0 19 16) i then old.getD i 0 + BitVec.ofNat 52 (wfld ws (1 + i) 51 0) else old.getD i 0 := by
  simp [rearmBases, hi]

theorem streamPassStart_completes {s : State} {c : CoreId} {slot : Nat} {t : Dev} {P : Dev → Prop} (hf : Fits (.streamPassStart c slot) s)
    (runs : unitsRun s.dev c = true) (h : passStart s.dev c slot = some t) (p : P t) : Completes (.streamPassStart c slot) s P :=
  completes_of (f := fun d => orNot "STREAM_PASS_START" (if unitsRun d c then passStart d c slot else none)) rfl hf
    (by simp only [runs, h, if_true, orNot_some]) p

/-! ### An entry enters flight or faults (R206, R207, R209) -/

section
variable {d : Dev} {c : CoreId} {x : Chain} {idx : Nat} {f : FaultCode}

/-- The records of an entry's fault: the log's, and CHN_FAULT where it is free (R207, R222). -/
def faultNoted (d : Dev) (c : CoreId) (x : Chain) (idx : Nat) (f : FaultCode) : Dev :=
  let d := logErr d c.die ⟨coreSrc c, 66, f, .info, 0, [idx, x.slot.getD 0xFF]⟩
  if rfld d .chnFault c.die c.core 0 0 0 = 1 then d
  else regSet d .chnFault c.die c.core 0 (BitVec.ofNat 64 (1 + 2 * b2n x.slot.isSome + 4 * x.slot.getD 0 + 2 ^ 8 * idx))

theorem faultNoted_quiet {b : Dev} (h : UnitQuiet c b d) : UnitQuiet c b (faultNoted d c x idx f) := by
  have logged := logErr_quiet (die := c.die) (x := ⟨coreSrc c, 66, f, .info, 0, [idx, x.slot.getD 0xFF]⟩) h
  exact .ite logged (logged.ofCores rfl rfl)

@[simp] theorem getCore_faultNoted (d : Dev) (c : CoreId) (x : Chain) (idx : Nat) (f : FaultCode) : getCore (faultNoted d c x idx f) c = getCore d c := by
  unfold faultNoted
  dsimp only
  split <;> exact getCore_logErr ..

/-- The first fault of a chain is noted, and the chain has it. -/
theorem entryFault_first (first : x.fault = .none) (d : Dev) (c : CoreId) (idx : Nat) (f : FaultCode) :
    entryFault d c x idx f = setChain (faultNoted d c x idx f) c { x with fault := f } :=
  if_neg fun ⟨fault, _⟩ => fault first

/-- A ready chain runs without a fault. -/
theorem runs_of_entryReady (h : entryReady d c x = true) : x.phase = 2 ∧ x.fault = .none := by
  simp only [entryReady, Bool.and_eq_true, decide_eq_true_eq] at h
  obtain ⟨⟨⟨phase, fault⟩, -⟩, -⟩ := h
  exact ⟨phase, fault⟩

/-- The next entry of a chain is in flight. -/
def entryAdmitted (d : Dev) (c : CoreId) (x : Chain) (e : List W64) : Dev :=
  modWork (setChain d c { x with entered := x.entered + 1 }) c fun w => { w with
    flights := w.flights ++ [⟨x.op.serial, x.entered, e, x.bases, fetchRun e 0, 0, none, 0, 0, [], .none⟩] }

/-- What becomes of the next entry of a chain, once it has been read. -/
def entryTaken (d : Dev) (c : CoreId) (x : Chain) (e : List W64) : Dev :=
  if checkEntry d e x.bases x.op.parcel ≠ .none then
    chainCheck (entryFault d c x x.entered (checkEntry d e x.bases x.op.parcel)) c x.op.serial
  else entryAdmitted d c x e

theorem chainEntryAdmit_completes {s : State} {e : List W64} {P : Dev → Prop} (hf : Fits (.chainEntryAdmit c) s) (runs : unitsRun s.dev c = true)
    (free : (getCore s.dev c).w.flights.length < 6) (waits : transferWaits s.dev c = false)
    (ready : (getCore s.dev c).w.chain.find? (entryReady s.dev c) = some x) (read : readEntry s.dev c x.list x.entered = .ok e)
    (p : P (entryTaken s.dev c x e)) : Completes (.chainEntryAdmit c) s P := by
  refine completes_of ((show exec (.chainEntryAdmit c) s = execChainEntryAdmit c s from rfl).trans rfl) hf ?_ p
  have enabled : (!unitsRun s.dev c || !xferFree s.dev c || transferWaits s.dev c) = false := by simp [runs, xferFree, free, waits]
  simp only [enabled, Bool.false_eq_true, if_false, ready, read, entryTaken]
  split <;> rfl

end

/-! ### An entry leaves flight (R211) -/

/-- An entry of a chain has left its slot, with its arrival where it asks for one. -/
def entryLeft (d : Dev) (c : CoreId) (pos : Nat) (x : Flight) (y : Chain) : Dev :=
  let e := modWork d c fun w => { w with flights := w.flights.eraseIdx pos }
  if wfld x.e 1 57 57 = 1 then unitArrive e c (entStake x.e) 2 y.op.parcel 1 false else e

section
variable {d : Dev} {c : CoreId} {pos : Nat} {x : Flight} {y : Chain}

theorem entryLeft_quiet : UnitQuiet c d (entryLeft d c pos x y) := by
  have erased : UnitQuiet c d (modWork d c fun w => { w with flights := w.flights.eraseIdx pos }) := modWork_quiet ⟨rfl, rfl, fun _ => rfl⟩ .refl
  exact .ite (unitArrive_quiet erased) erased

theorem getCore_entryLeft (d : Dev) (c : CoreId) (pos : Nat) (x : Flight) (y : Chain) : getCore (entryLeft d c pos x y) c =
    { getCore d c with w := { (getCore d c).w with flights := (getCore d c).w.flights.eraseIdx pos } } := by
  unfold entryLeft
  dsimp only
  split
  · rw [getCore_unitArrive, getCore_modWork]
  · rw [getCore_modWork]

theorem chainEntryComplete_completes {s : State} {P : Dev → Prop} (hf : Fits (.chainEntryComplete c pos) s)
    (flight : (getCore s.dev c).w.flights[pos]? = some x) (isOver : x.over = true) (sched : (getCore s.dev c).sched < 2)
    (found : ((chainQ s.dev c).find? fun y => decide (y.op.serial = x.chain)) = some y)
    (p : P (chainCheck (setChain (entryLeft s.dev c pos x y) c { y with finished := y.finished + 1 }) c x.chain)) :
    Completes (.chainEntryComplete c pos) s P := by
  refine completes_of ((show exec (.chainEntryComplete c pos) s = execChainEntryComplete c pos s from rfl).trans rfl) hf ?_ p
  have enabled : (!x.over || decide (2 ≤ (getCore s.dev c).sched)) = false := by simp [isOver, sched]
  have left : chainQ (modWork s.dev c fun w => { w with flights := w.flights.eraseIdx pos }) c = chainQ s.dev c := by rw [chainQ, getCore_modWork, chainQ]
  simp only [flight, enabled, left, found]
  rfl

end

/-! ### O41 -/

/-- Settles O41, by what the end of a chain's wait, the start of a pass, and an entry that enters or leaves flight write of the chain engine's queue. -/
theorem chainsAndStreams : Obligations.ChainsAndStreams := by
  refine ⟨?waitEnd, ?pass, ?enters, ?leaves⟩
  case waitEnd =>
    intro c pos s x f e hf entry phase wake
    have woken : UnitQuiet c s.dev e := takeWake_quiet wake .refl
    refine ⟨fun h0 entries => chainWaitEnd_completes hf entry phase wake ?_, fun h0 arm => chainWaitEnd_completes hf entry phase wake ?_⟩
    · rw [if_pos h0, chainRun_runs entries]
      have quiet : UnitQuiet c s.dev (setChain e c { x with phase := 2 }) := setChain_quiet woken
      refine ⟨quiet.unitOnly, quiet.memSame, ?_⟩
      rw [getCore_setChain, chainQ_takeWake wake, chainQ]
    · rw [if_neg h0, endChain_arm arm]
      have quiet : UnitQuiet c s.dev (popChain e c x .operandFault) := popChain_quiet woken
      obtain ⟨p, core⟩ := getCore_popChain e c x .operandFault
      refine ⟨quiet.unitOnly, quiet.memSame, ?_, popChain_arrived nofun⟩
      rw [core, chainQ_takeWake wake, chainQ]
  case pass =>
    intro c slot s x op hf runs front rearm phase checks masks wait entries
    have serial : x.op.serial = op.serial := by rw [order1_eq checks]
    have bases := getStream_passRuns (d := s.dev) (c := c) (s := slot) (x := x) (op := op)
    have quiet : UnitQuiet c s.dev (passRuns s.dev c slot x op) := passRuns_quiet
    refine streamPassStart_completes hf runs (passStart_runs front rearm phase checks masks wait entries) ⟨quiet.unitOnly, quiet.memSame, ?_, ?_, ?_⟩
    · rw [bases]
    · intro i hi
      rw [bases]
      exact rearmBases_getD _ _ hi
    · have slotOf : x.slot = some slot := of_decide_eq_true (List.find?_some (p := fun y : Chain => decide (y.slot = some slot)) front)
      exact ⟨_, mem_passRuns (List.mem_of_find?_eq_some front) serial, rfl, rfl, slotOf, rfl, rfl, by rw [bases]; rfl⟩
  case enters =>
    intro c s x hf runs free waits ready
    obtain ⟨phase, first⟩ := runs_of_entryReady (List.find?_some ready)
    refine ⟨fun e read good => chainEntryAdmit_completes hf runs free waits ready read ?_,
      fun e read bad claimed arm noFlight => chainEntryAdmit_completes hf runs free waits ready read ?_⟩
    · rw [entryTaken, if_neg (not_not.2 good)]
      refine ⟨(modCore_onlyCore ..).trans (modCore_onlyCore ..), ?_⟩
      rw [entryAdmitted, getCore_modWork, getCore_setChain]
      rfl
    · rw [entryTaken, if_pos bad, entryFault_first first]
      generalize checkEntry s.dev e x.bases x.op.parcel = f at bad claimed
      have core := getCore_faultNoted s.dev c x x.entered f
      have queue : chainQ (faultNoted s.dev c x x.entered f) c = chainQ s.dev c := by rw [chainQ, core, chainQ]
      rw [chainCheck_setChain (x := { x with fault := f }) (y := x) (by rw [queue]; exact List.mem_of_find?_eq_some ready) rfl phase arm
        (by rw [core]; exact noFlight) (.inl bad)]
      have quiet : UnitQuiet c s.dev (popChain (setChain (faultNoted s.dev c x x.entered f) c { x with fault := f }) c { x with fault := f } f) :=
        popChain_quiet (setChain_quiet (faultNoted_quiet .refl))
      obtain ⟨p, ended⟩ := getCore_popChain_setChain (faultNoted s.dev c x x.entered f) c { x with fault := f } f
      rw [core, queue] at ended
      refine ⟨quiet.unitOnly, quiet.memSame, by rw [ended], by rw [ended]; rfl, ?_⟩
      exact decide_eq_true bad ▸ popChain_arrived (x := { x with fault := f }) claimed
  case leaves =>
    intro c pos s x y hf flight isOver sched found
    have serial : y.op.serial = x.chain := of_decide_eq_true (List.find?_some (p := fun z : Chain => decide (z.op.serial = x.chain)) found)
    have core := getCore_entryLeft s.dev c pos x y
    have queue : chainQ (entryLeft s.dev c pos x y) c = chainQ s.dev c := by rw [chainQ, core, chainQ]
    have mem : y ∈ chainQ (entryLeft s.dev c pos x y) c := by rw [queue]; exact List.mem_of_find?_eq_some found
    have quiet : UnitQuiet c s.dev (setChain (entryLeft s.dev c pos x y) c { y with finished := y.finished + 1 }) := setChain_quiet entryLeft_quiet
    refine ⟨fun more fault => chainEntryComplete_completes hf flight isOver sched found ?_,
      fun last fault phase arm one => chainEntryComplete_completes hf flight isOver sched found ?_⟩
    · rw [← serial, chainCheck_goes (find_setChain (x := { y with finished := y.finished + 1 }) mem rfl) fault more.ne]
      refine ⟨quiet.unitOnly, quiet.memSame, ?_, ?_⟩
      · rw [getCore_setChain, core]
      · rw [getCore_setChain, queue, chainQ]
    · have noFlight : (getCore s.dev c).w.flights.eraseIdx pos = [] := by
        obtain ⟨short, -⟩ := List.getElem?_eq_some_iff.1 flight
        rw [one] at short ⊢
        rw [Nat.lt_one_iff.1 short]
        rfl
      rw [← serial, chainCheck_setChain (x := { y with finished := y.finished + 1 }) mem rfl phase arm (by rw [core, noFlight]; exact nofun) (.inr last)]
      obtain ⟨p, ended⟩ := getCore_popChain_setChain (entryLeft s.dev c pos x y) c { y with finished := y.finished + 1 } y.fault
      rw [core, queue] at ended
      have after := popChain_quiet (x := { y with finished := y.finished + 1 }) (f := y.fault) quiet
      refine ⟨after.unitOnly, after.memSame, by rw [ended, noFlight], by rw [ended]; rfl, ?_⟩
      rw [fault]
      exact popChain_arrived (x := { y with finished := y.finished + 1 }) nofun

end Sys2Proof.Machine
end

section
/-!
SUPPORT. The K split on an untidy device (chapter 06): the reading of the own banks writes a counter (R163, R192), and where the registers stand out of
order that write drops an entry of the retirement table (R386), so that a part that could not be read is read after all.
-/

namespace Sys2Proof.Machine

/-! ### A retirement entry behind a counter (R250, R386) -/

/-- Core 0 of die 1, whose registers lie behind those of die 0. -/
def splitCore : CoreId := ⟨1, 0⟩

/-- Part 0 of a K split of one element over two parts, its steps over; the raw accumulator of part 1 lies at offset 4 of die 0's HBM. -/
def splitOp : RunOp :=
  { RunOp.new ⟨1, 1, 0, 0, 0, 0, 0, [0, 0, 0, 0, 0, 0, 0, 0, 0, 0x01001001]⟩ with phase := .ksplit, e0 := 1, e1 := 1, epi := [2 ^ 48] }

/-- The part's wait on KSTAKE has ended well. Channel 0 of die 0 is live and its frame 0 is retired, but the entry that says so stands behind the core's
CUBE_ACC_ECC, whose key is higher. -/
def untidySplit : State :=
  ⟨{ Dev.reset with
    cores := [(ckey splitCore, { Core.idle with sched := 1, w := { Work.empty with cubes := [(0, { Cube.empty with run := some splitOp })] } })]
    wakes := [⟨.post splitCore 0 1, 0⟩]
    regs := [(regKey .hbmChan 0 0 0, 1), (regKey .cubeAccEcc 1 0 0, 1), (regKey .hbmRetire 0 0 0, 1)] }, []⟩

theorem untidySplit_fits : Fits (.ksplitCombine splitCore 0) untidySplit := ⟨by decide, by decide⟩

theorem untidySplit_wake : takeWake untidySplit.dev (.post splitCore 0 splitOp.op.serial) = some (0, { untidySplit.dev with wakes := [] }) := rfl

/-- The cube holds no word in error. -/
theorem untidySplit_errs : (getCube untidySplit.dev splitCore 0).errs = [] := by decide

/-- Part 1's accumulator lies in the retired frame. -/
theorem untidySplit_refused : (devReadAll untidySplit.dev (BitVec.ofNat 52 (splitOp.ef 5 51 0) +
    BitVec.ofNat 52 (((0 + 1) * splitOp.planM + 0) * splitOp.planN * 4)) (4 * splitOp.e1)).2 = .error .pageRetired := by
  decide

/-- The count of corrected words that the read of the own banks writes drops the entry, part 1's accumulator is read, and the operation goes on to its drain. -/
theorem untidySplit_drains : Completes (.ksplitCombine splitCore 0) untidySplit fun t =>
    (getCube t splitCore 0).run = some { splitOp with phase := .drain } :=
  ⟨_, rfl, by decide⟩

/-- Refutes O39: what KSPLIT_COMBINE does where a part cannot be read is claimed of every device, and fails on one whose registers are not in order (it lacks
the hypothesis Tidy, which every step keeps). On `untidySplit` part 1 of the split lies in a retired frame; the read of part 0's banks counts no corrected
word, but writing that count drops the frame's entry, part 1 is read, and the operation drains where it should have ended with FAULTED. -/
theorem not_prologuesAndEpilogues : ¬ Obligations.ProloguesAndEpilogues := by
  intro h
  obtain ⟨-, -, -, -, -, -, -, -, combine⟩ := h
  obtain ⟨-, woken⟩ := combine splitCore 0 untidySplit splitOp 0 _ (fun _ _ => []) untidySplit_fits (by decide) (by decide) rfl (by decide)
    untidySplit_wake (by decide) (by decide)
  obtain ⟨-, unread⟩ := woken rfl (by rw [untidySplit_errs]; exact List.forall_mem_nil _)
  obtain ⟨t, answer, ⟨-, ended, -⟩, -⟩ := unread ⟨0, by decide, 0, by decide, fun bs read => by rw [untidySplit_refused] at read; cases read⟩
  obtain ⟨e, drained, run⟩ := untidySplit_drains
  obtain rfl : t = e := by
    rw [answer] at drained
    injection drained with same
    exact congrArg State.dev same
  rw [ended] at run
  cases run

end Sys2Proof.Machine
end

section
/-!
SUPPORT. Table and scale loads (chapters 07 and 10): the flip to the bank that was loaded, and the end of a load once the old bank is read no more.
-/

namespace Sys2Proof.Machine

/-! ### The flip of a table load (R273, R274) -/

/-- The image `m` stands in the inactive baseline bank, which is active now. -/
def tableFlipped (d : Dev) (c : CoreId) (m : List Byte) : Dev :=
  modWork d c fun w => { w with
    base0 := if w.baseActive = some 0 then w.base0 else m
    base1 := if w.baseActive = some 0 then m else w.base1
    baseActive := some (if w.baseActive = some 0 then 1 else 0)
    baseGen := w.baseGen + 1
    tphase := 2 }

section
variable {s : State} {c : CoreId} {op : Op} {rest : List Op} {P : Dev → Prop}

/-- TABLE_LOAD_FLIP of a load over unpoisoned bytes: it ends where its image is bad, and flips the banks where it is good. -/
theorem tableLoadFlip_completes {m : List Byte} (hf : Fits (.tableLoadFlip c) s) (go : coreGo s.dev c = true)
    (queue : (getCore s.dev c).w.tloads = op :: rest) (phase : (getCore s.dev c).w.tphase = 1)
    (clean : storePoisoned s.dev c (offIn c (BitVec.ofNat 52 (wfld op.desc 1 51 0))) 20240 = false)
    (image : m = storeRead s.dev c (offIn c (BitVec.ofNat 52 (wfld op.desc 1 51 0))) 20240)
    (p : P (if baseImageBad m (wfld op.desc 2 63 32) then endTload s.dev c op .badImage else tableFlipped s.dev c m)) :
    Completes (.tableLoadFlip c) s P := by
  refine completes_of ((show exec (.tableLoadFlip c) s = execTableLoadFlip c s from rfl).trans rfl) hf ?_ p
  simp only [queue, phase, go, clean, ← image]
  cases baseImageBad m (wfld op.desc 2 63 32)
  · by_cases active : (getCore s.dev c).w.baseActive = some 0 <;> simp [tableFlipped, modWork, modCore, active]
  · rfl

/-- TABLE_LOAD_DRAIN_END ends the load and counts it. -/
theorem tableLoadDrainEnd_completes (hf : Fits (.tableLoadDrainEnd c) s) (go : coreGo s.dev c = true)
    (queue : (getCore s.dev c).w.tloads = op :: rest) (phase : (getCore s.dev c).w.tphase = 2)
    (p : P (rcount (endTload s.dev c op .none) .sfnLoad c.die c.core 0 47 32 1)) : Completes (.tableLoadDrainEnd c) s P :=
  completes_of ((show exec (.tableLoadDrainEnd c) s = execTableLoadDrainEnd c s from rfl).trans rfl) hf
    (by simp only [queue, phase, go]; rfl) p

/-! ### The flip of a scale load (R340) -/

/-- A bank with n values of the core store from entry `base` on. -/
theorem tget_loadScales (d : Dev) (c : CoreId) (bank : Tbl W32) (off base n e : Nat) : tget oneW (loadScales d c bank off base n) e =
    if base ≤ e ∧ e < base + n then word32 d c (off + 4 * (e - base)) else tget oneW bank e := by
  induction n with
  | zero => simp [loadScales]
  | succ n ih =>
    have last : loadScales d c bank off base (n + 1) = tset oneW (loadScales d c bank off base n) (base + n) (word32 d c (off + 4 * n)) := by
      simp only [loadScales, List.range_succ, List.foldl_append, List.foldl_cons, List.foldl_nil]
    rw [last, tget_tset, ih]
    by_cases he : e = base + n
    · subst he
      simp
    · rw [if_neg he]
      exact if_congr (by omega) rfl rfl

/-- The bank `b` stands in the inactive half of the scale file, which is active now. -/
def scaleFlipped (d : Dev) (c : CoreId) (b : Tbl W32) : Dev :=
  modWork d c fun w => { w with
    scale0 := if w.scaleActive = 0 then w.scale0 else b
    scale1 := if w.scaleActive = 0 then b else w.scale1
    scaleActive := 1 - w.scaleActive
    scaleGen := w.scaleGen + 1
    sphase := 2 }

/-- The active bank of the scale file. -/
def activeScales (d : Dev) (c : CoreId) : Tbl W32 := if (getCore d c).w.scaleActive = 0 then (getCore d c).w.scale0 else (getCore d c).w.scale1

theorem scaleAt_active (d : Dev) (c : CoreId) (e : Nat) : scaleAt d c (getCore d c).w.scaleActive e = tget oneW (activeScales d c) e := rfl

/-- After the flip the newly active bank reads as the one that was loaded, and the other as before. -/
theorem scaleAt_scaleFlipped {d : Dev} (active : (getCore d c).w.scaleActive < 2) (b : Tbl W32) (e : Nat) :
    scaleAt (scaleFlipped d c b) c (1 - (getCore d c).w.scaleActive) e = tget oneW b e ∧
      scaleAt (scaleFlipped d c b) c (getCore d c).w.scaleActive e = scaleAt d c (getCore d c).w.scaleActive e := by
  obtain half | half : (getCore d c).w.scaleActive = 0 ∨ (getCore d c).w.scaleActive = 1 := by omega
  all_goals simp [scaleAt, scaleFlipped, half]

theorem scaleLoadFlip_completes {off n : Nat} (hf : Fits (.scaleLoadFlip c) s) (go : coreGo s.dev c = true)
    (queue : (getCore s.dev c).w.sloads = op :: rest) (phase : (getCore s.dev c).w.sphase = 1)
    (start : off = offIn c (BitVec.ofNat 52 (wfld op.desc 1 51 0))) (count : n = wfld op.desc 2 24 12)
    (clean : storePoisoned s.dev c off (4 * n) = false)
    (p : P (scaleFlipped s.dev c (loadScales s.dev c (activeScales s.dev c) off (wfld op.desc 2 11 0) n))) : Completes (.scaleLoadFlip c) s P := by
  subst start count
  exact completes_of ((show exec (.scaleLoadFlip c) s = execScaleLoadFlip c s from rfl).trans rfl) hf (by simp only [queue, phase, go, clean]; rfl) p

theorem scaleLoadDrainEnd_completes (hf : Fits (.scaleLoadDrainEnd c) s) (go : coreGo s.dev c = true)
    (queue : (getCore s.dev c).w.sloads = op :: rest) (phase : (getCore s.dev c).w.sphase = 2) (old : oldScales s.dev c = false)
    (p : P (rcount (endSload s.dev c op .none) .qntSfile c.die c.core 0 47 32 1)) : Completes (.scaleLoadDrainEnd c) s P :=
  completes_of ((show exec (.scaleLoadDrainEnd c) s = execScaleLoadDrainEnd c s from rfl).trans rfl) hf
    (by simp only [queue, phase, go, old]; rfl) p

end

/-! ### O42 -/

/-- Settles O42: a flip writes its own core's banks alone, and a load that ends leaves its queue with its arrival. -/
theorem loadsFlip : Obligations.LoadsFlip := by
  refine ⟨?tableFlip, ?tableEnd, ?scaleFlip, ?scaleEnd⟩
  case tableFlip =>
    intro c s op rest m hf go queue phase clean image
    refine ⟨fun good => tableLoadFlip_completes hf go queue phase clean image ?_, fun bad => tableLoadFlip_completes hf go queue phase clean image ?_⟩
    · rw [if_neg (ne_true_of_eq_false good)]
      exact ⟨modCore_onlyCore s.dev c _, getCore_modWork s.dev c _⟩
    · rw [if_pos bad]
      obtain ⟨p, core⟩ := getCore_endTload s.dev c op .badImage
      have quiet := endTload_quiet c op .badImage (d := s.dev)
      refine ⟨quiet.unitOnly, quiet.memSame, by rw [core], by rw [core], by rw [core], ?_, opDone_arrived_faulted _ c 10 op false nofun nofun⟩
      rw [core, queue]; rfl
  case tableEnd =>
    intro c s op rest hf go queue phase
    obtain ⟨p, core⟩ := getCore_endTload s.dev c op .none
    have ended := endTload_quiet c op .none (d := s.dev)
    refine tableLoadDrainEnd_completes hf go queue phase ⟨(rcount_quiet ended).unitOnly, (rcount_quiet ended).memSame, ?_, ?_, ?_,
      opDone_arrived _ c 10 op false nofun⟩
    all_goals rw [getCore_rcount, core]
    rw [queue]; rfl
  case scaleFlip =>
    intro c s op rest off base n hf go queue phase start first count clean
    have core : getCore (scaleFlipped s.dev c (loadScales s.dev c (activeScales s.dev c) off (wfld op.desc 2 11 0) n)) c = _ := getCore_modWork ..
    refine scaleLoadFlip_completes hf go queue phase start count clean ⟨modCore_onlyCore s.dev c _, by rw [core], by rw [core], by rw [core],
      by rw [seqOf, core, seqOf], fun active e => ?_⟩
    obtain ⟨loaded, kept⟩ := scaleAt_scaleFlipped active (loadScales s.dev c (activeScales s.dev c) off (wfld op.desc 2 11 0) n) e
    exact ⟨loaded.trans (first ▸ tget_loadScales ..), kept⟩
  case scaleEnd =>
    intro c s op rest hf go queue phase old
    obtain ⟨p, core⟩ := getCore_endSload s.dev c op .none
    have ended := endSload_quiet c op .none (d := s.dev)
    refine scaleLoadDrainEnd_completes hf go queue phase old ⟨(rcount_quiet ended).unitOnly, (rcount_quiet ended).memSame, ?_, ?_, ?_,
      opDone_arrived _ c 9 op false nofun⟩
    all_goals rw [getCore_rcount, core]
    rw [queue]; rfl

end Sys2Proof.Machine
end

section
/-!
SUPPORT. VEC.ST (chapter 07): what the writes of the executing threads, lowest lane first, leave in the core store.
-/

namespace Sys2Proof.Machine

/-! ### Bytes of a register -/

@[simp] theorem leBytes_length (n v : Nat) : (leBytes n v).length = n := by
  induction n generalizing v with
  | zero => rfl
  | succ n ih => rw [leBytes, List.length_cons, ih]

/-- Byte i of a little-endian number (R22). -/
theorem getD_leBytes {n i : Nat} (h : i < n) (x : W32) : (leBytes n x.toNat).getD i 0 = x.extractLsb' (8 * i) 8 := by
  have byte (v : Nat) : (leBytes n v).getD i 0 = BitVec.ofNat 8 (v / 2 ^ (8 * i)) := by
    induction n generalizing v i with
    | zero => contradiction
    | succ n ih =>
      cases i with
      | zero => simp [leBytes]
      | succ i =>
        have shift : v / 256 / 2 ^ (8 * i) = v / 2 ^ (8 * (i + 1)) := by rw [Nat.div_div_eq_div_mul, Nat.mul_succ, Nat.pow_add, Nat.mul_comm]
        rw [leBytes, List.getD_cons_succ, ih (Nat.lt_of_succ_lt_succ h), shift]
  rw [byte, BitVec.extractLsb', Nat.shiftRight_eq_div_pow]

/-! ### Writes of the core store -/

/-- The device beyond its memory and the poison of it. -/
def Dev.beyondMemory (d : Dev) : Dev := { d with mem := [], poison := [] }

/-- A device is told by its memory, its poison and what lies beyond them. -/
theorem eq_of_beyondMemory {d t : Dev} (h : t.beyondMemory = d.beyondMemory) : t = { d with mem := t.mem, poison := t.poison } :=
  congrArg (fun e : Dev => { e with mem := t.mem, poison := t.poison }) h

theorem setPoison_beyondMemory (d : Dev) (k : Nat) (b : Bool) : (setPoison d k b).beyondMemory = d.beyondMemory := rfl

theorem memPut_beyondMemory (d : Dev) (k : Nat) (bs : List Byte) : (memPut d k bs).beyondMemory = d.beyondMemory := rfl

theorem clearPoison_beyondMemory (d : Dev) (p : Place) (n : Nat) : (clearPoison d p n).beyondMemory = d.beyondMemory := by
  refine List.foldlRecOn (motive := fun e : Dev => e.beyondMemory = d.beyondMemory) _ _ rfl fun e h i _ => ?_
  rw [apply_ite Dev.beyondMemory, setPoison_beyondMemory, ite_self, h]

/-- A write of the core store changes memory and poison alone. -/
theorem storeWrite_beyondMemory (d : Dev) (c : CoreId) (off : Nat) (bs : List Byte) : (storeWrite d c off bs).beyondMemory = d.beyondMemory := by
  rw [storeWrite, memPut_beyondMemory, clearPoison_beyondMemory]

/-- A byte after a write of the core store. -/
theorem memByte_storeWrite (d : Dev) (c : CoreId) (off : Nat) (bs : List Byte) (q : Nat) : memByte (storeWrite d c off bs) q =
    if storeKey c off ≤ q ∧ q < storeKey c off + bs.length then bs.getD (q - storeKey c off) 0 else memByte d q := by
  rw [storeWrite, memByte_memPut, memByte, clearPoison_mem, memByte]

/-! ### The writes of VEC.ST, thread by thread (R261) -/

/-- The store of one thread. -/
def storeLane (c : CoreId) (o : VmOp) (k : Crew) (d : Dev) (l : Nat) : Dev :=
  if (k.runs o.pred o.pneg).getLsbD l then storeWrite d c (vmAddr o k l) (leBytes (2 ^ o.size.toNat) (k.reg l o.vd.toNat).toNat) else d

/-- The stores of the threads below lane n. -/
def storeLanes (c : CoreId) (o : VmOp) (k : Crew) (d : Dev) (n : Nat) : Dev := (List.range n).foldl (storeLane c o k) d

section
variable (c : CoreId) (o : VmOp) (k : Crew) (d : Dev)

theorem storeLanes_succ (n : Nat) : storeLanes c o k d (n + 1) = storeLane c o k (storeLanes c o k d n) n := by
  simp only [storeLanes, List.range_succ, List.foldl_append, List.foldl_cons, List.foldl_nil]

theorem storeLanes_beyondMemory (n : Nat) : (storeLanes c o k d n).beyondMemory = d.beyondMemory := by
  induction n with
  | zero => rfl
  | succ n ih =>
    rw [storeLanes_succ, storeLane]
    split
    · exact (storeWrite_beyondMemory ..).trans ih
    · exact ih

variable {c o k}

/-- A thread that executes leaves its own bytes. -/
theorem memByte_storeLane_own {l i : Nat} (runs : (k.runs o.pred o.pneg).getLsbD l = true) (hi : i < 2 ^ o.size.toNat) :
    memByte (storeLane c o k d l) (storeKey c (vmAddr o k l + i)) = (k.reg l o.vd.toNat).extractLsb' (8 * i) 8 := by
  have place : storeKey c (vmAddr o k l + i) = storeKey c (vmAddr o k l) + i := (Nat.add_assoc ..).symm
  rw [storeLane, if_pos runs, memByte_storeWrite, leBytes_length, place, if_pos (by omega), Nat.add_sub_cancel_left, getD_leBytes hi]

/-- A thread leaves every byte that it does not address. -/
theorem memByte_storeLane_other {l q : Nat}
    (other : (k.runs o.pred o.pneg).getLsbD l = true → ∀ i, i < 2 ^ o.size.toNat → q ≠ storeKey c (vmAddr o k l + i)) :
    memByte (storeLane c o k d l) q = memByte d q := by
  unfold storeLane
  split
  case isTrue runs =>
    rw [memByte_storeWrite, leBytes_length]
    refine if_neg fun ⟨lo, hi⟩ => other runs (q - storeKey c (vmAddr o k l)) (by omega) ?_
    have place : storeKey c (vmAddr o k l + (q - storeKey c (vmAddr o k l))) = storeKey c (vmAddr o k l) + (q - storeKey c (vmAddr o k l)) :=
      (Nat.add_assoc ..).symm
    omega
  case isFalse => rfl

/-- A byte that no thread addresses reads as before. -/
theorem memByte_storeLanes_other {n q : Nat}
    (other : ∀ l i, l < n → (k.runs o.pred o.pneg).getLsbD l = true → i < 2 ^ o.size.toNat → q ≠ storeKey c (vmAddr o k l + i)) :
    memByte (storeLanes c o k d n) q = memByte d q := by
  induction n with
  | zero => rfl
  | succ n ih =>
    rw [storeLanes_succ, memByte_storeLane_other _ fun runs i hi => other n i (Nat.lt_succ_self n) runs hi]
    exact ih fun l i hl => other l i (Nat.lt_succ_of_lt hl)

/-- A byte that threads address holds the byte of the highest of them. -/
theorem memByte_storeLanes_highest {n l i : Nat} (hl : l < n) (runs : (k.runs o.pred o.pneg).getLsbD l = true) (hi : i < 2 ^ o.size.toNat)
    (highest : ∀ h j, l < h → h < n → (k.runs o.pred o.pneg).getLsbD h = true → j < 2 ^ o.size.toNat → vmAddr o k h + j ≠ vmAddr o k l + i) :
    memByte (storeLanes c o k d n) (storeKey c (vmAddr o k l + i)) = (k.reg l o.vd.toNat).extractLsb' (8 * i) 8 := by
  induction n with
  | zero => contradiction
  | succ n ih =>
    rw [storeLanes_succ]
    obtain below | rfl := Nat.lt_succ_iff_lt_or_eq.1 hl
    · have other (hn : (k.runs o.pred o.pneg).getLsbD n = true) (j : Nat) (hj : j < 2 ^ o.size.toNat) :
          storeKey c (vmAddr o k l + i) ≠ storeKey c (vmAddr o k n + j) := fun same =>
        highest n j below (Nat.lt_succ_self n) hn hj (Nat.add_left_cancel same).symm
      rw [memByte_storeLane_other _ other]
      exact ih below fun h j lh hn => highest h j lh (Nat.lt_succ_of_lt hn)
    · exact memByte_storeLane_own _ runs hi

end

/-! ### O25 -/

/-- Where every executing thread's address is within the store and aligned, no lane fails (R260). -/
theorem vmFirst_none {o : VmOp} {k : Crew} (good : ∀ l, l < 32 → (k.runs o.pred o.pneg).getLsbD l = true →
    vmAddr o k l + 2 ^ o.size.toNat ≤ storeBytes ∧ vmAddr o k l % 2 ^ o.size.toNat = 0) : vmFirst o k = .none := by
  have lanes : vmLane o k = none := by
    refine List.find?_eq_none.2 fun l hl failing => ?_
    obtain ⟨runs, fault⟩ := (Bool.and_eq_true ..).mp failing
    obtain ⟨inside, aligned⟩ := good l (List.mem_range.1 hl) runs
    refine of_decide_eq_true fault ?_
    simp only [vmFault, sizeBytes, aligned, if_neg (Nat.not_lt.2 inside), ne_eq, not_true_eq_false, if_false]
  rw [vmFirst, lanes]; rfl

theorem exec_vecSt {c : CoreId} {slot : Nat} {o : VmOp} {s : State} {k : Crew} (hf : Fits (.vecSt c slot o) s)
    (hc : CanIssue (.crew c slot) (.vecSt c slot o) [o.va.toNat, o.vd.toNat] s.dev) (hk : getCrew s.dev c slot = some k) (good : vmFirst o k = .none) :
    exec (.vecSt c slot o) s = .next { s with dev := stepPc (storeLanes c o k s.dev 32) (.crew c slot) } := by
  change execVecSt c slot o s = _
  refine runCmd_next hf ((issue_of _ _ hc).trans ?_)
  simp only [hk, good]
  rfl

/-- Settles O25: the threads write lowest lane first (storeLanes), so that the highest of a byte's threads has the last word. -/
theorem vectorStore : Obligations.VectorStore := by
  intro c slot o s k hf hc hk _ good
  have stored := eq_of_beyondMemory (storeLanes_beyondMemory c o k s.dev 32)
  have crew : getCrew (storeLanes c o k s.dev 32) c slot = some k := by rw [stored]; exact hk
  have step : stepPc (storeLanes c o k s.dev 32) (.crew c slot) = setCrew (storeLanes c o k s.dev 32) c slot (some { k with pc := k.pc + 1 }) := by
    simp only [stepPc, setPc, agentPc, crew, Option.map_some, Option.getD_some]
  obtain ⟨only, stepped⟩ := setCrew_onlyCrew (storeLanes c o k s.dev 32) c slot (some { k with pc := k.pc + 1 })
  refine ⟨_, (exec_vecSt hf hc hk (vmFirst_none good)).trans (by rw [step]), fun l i hl runs hi highest => ?_, fun q other => ?_, ?_, stepped⟩
  · exact memByte_storeLanes_highest s.dev hl runs hi highest
  · exact memByte_storeLanes_other s.dev other
  · exact stored ▸ only

end Sys2Proof.Machine
end

section
/-!
SUPPORT. Special values (chapters 03 and 07): the FP32 codes that R265 lists, as values, and the codes of the values that it gives them.
-/

namespace Sys2Proof.Machine

/-! ### Values with one code under every mode that takes no draw -/

/-- A rounding that takes no draw (R142). -/
def Rnd.deterministic : Rnd → Prop
  | .sr _ _ => False
  | _ => True

/-- Every rounding to FP32 that takes no draw, without a flush, gives a value this code. -/
def HasCode (v : FV) (y : W32) : Prop := ∀ r sat, r.deterministic → BitVec.ofNat 32 (fp32.round r false sat false v).code = y

/-- The FP32 code of a sign and a magnitude code. -/
def signedCode (neg : Bool) (mag : Nat) : W32 := BitVec.ofNat 32 (fp32.signed neg mag)

theorem nan_hasCode : HasCode .nan 0x7FC00000 := fun _ _ _ => rfl

theorem inf_hasCode (neg : Bool) : HasCode (.inf neg) (signedCode neg 0x7F800000) := fun r sat _ => by
  simp [Fmt.round, fp32, Fmt.infCode, signedCode, Fmt.signed, Fmt.signBit]

theorem zero_hasCode (neg : Bool) (e : Int) : HasCode (.fin neg 0 e) (signedCode neg 0) := fun r sat _ => by
  simp [Fmt.round, signedCode]

theorem one_hasCode (neg : Bool) : HasCode (.fin neg 1 0) (signedCode neg 0x3F800000) := fun r sat hr => by
  cases r with
  | sr => exact hr.elim
  | rne | rna | rtz => cases neg <;> cases sat <;> decide

theorem half_hasCode : HasCode (pow2 (-1)) 0x3F000000 := fun r sat hr => by
  cases r with
  | sr => exact hr.elim
  | rne | rna | rtz => cases sat <;> decide

/-! ### The values of FP32 codes (R127) -/

/-- The magnitude code of an FP32 word. -/
theorem magnitude_toNat (x : W32) : (x &&& 0x7FFFFFFF#32).toNat = x.toNat % 2 ^ 31 := by
  rw [BitVec.toNat_and]
  exact Nat.and_two_pow_sub_one_eq_mod x.toNat 31

/-- The sign of an FP32 word. -/
theorem negative_iff (x : W32) : (x &&& 0x7FFFFFFF#32) ≠ x ↔ 2 ^ 31 ≤ x.toNat := by
  have size := x.isLt
  rw [ne_eq, ← BitVec.toNat_inj, magnitude_toNat]
  omega

/-- The value of an FP32 word by its sign and its magnitude code. -/
theorem fp32_val (x : W32) : fp32.val x.toNat =
    if 0x7F800000 < x.toNat % 2 ^ 31 then .nan
    else if x.toNat % 2 ^ 31 = 0x7F800000 then .inf (decide (2 ^ 31 ≤ x.toNat))
    else if x.toNat % 2 ^ 31 / 2 ^ 23 = 0 then .fin (decide (2 ^ 31 ≤ x.toNat)) (x.toNat % 2 ^ 31 % 2 ^ 23) (-149)
    else .fin (decide (2 ^ 31 ≤ x.toNat)) (2 ^ 23 + x.toNat % 2 ^ 31 % 2 ^ 23) ((x.toNat % 2 ^ 31 / 2 ^ 23 : Nat) - 127 - 23) := by
  have bits : x.toNat % (2 * 2 ^ 31) = x.toNat := Nat.mod_eq_of_lt x.isLt
  have fields : fp32.signBit = 2 ^ 31 ∧ fp32.infCode = 0x7F800000 ∧ fp32.hasInf = true ∧ fp32.mb = 23 ∧ fp32.bias = 127 := by decide
  obtain ⟨sign, inf, hasInf, mb, bias⟩ := fields
  simp only [Fmt.val, Fmt.isNan, sign, inf, hasInf, mb, bias, bits, if_true, Bool.true_and, decide_eq_true_eq]
  rfl

theorem val_nan {x : W32} (h : 0x7F800000#32 < x &&& 0x7FFFFFFF) : fp32.val x.toNat = .nan := by
  have mag : 0x7F800000 < x.toNat % 2 ^ 31 := by rw [← magnitude_toNat]; exact h
  rw [fp32_val, if_pos mag]

/-- A negative code that is neither a NaN, −∞ nor −0 has a negative finite value. -/
theorem val_negative {x : W32} (neg : (x &&& 0x7FFFFFFF#32) ≠ x) (number : ¬0x7F800000#32 < x &&& 0x7FFFFFFF) (finite : x ≠ 0xFF800000#32)
    (nonzero : (x &&& 0x7FFFFFFF#32) ≠ 0) : ∃ m e, fp32.val x.toNat = .fin true (m + 1) e := by
  have sign : 2 ^ 31 ≤ x.toNat := (negative_iff x).1 neg
  have size : x.toNat < 2 ^ 32 := x.isLt
  have mag : ¬0x7F800000 < x.toNat % 2 ^ 31 := by rw [← magnitude_toNat]; exact number
  have notInf : x.toNat ≠ 0xFF800000 := fun same => finite (BitVec.eq_of_toNat_eq same)
  have notZero : x.toNat % 2 ^ 31 ≠ 0 := by rw [← magnitude_toNat]; exact fun same => nonzero (BitVec.eq_of_toNat_eq same)
  rw [fp32_val, if_neg mag, if_neg (by omega), decide_eq_true sign]
  split
  case isTrue subnormal =>
    obtain ⟨m, hm⟩ := Nat.exists_eq_succ_of_ne_zero (show x.toNat % 2 ^ 31 % 2 ^ 23 ≠ 0 by omega)
    exact ⟨m, _, by rw [hm]⟩
  case isFalse => exact ⟨2 ^ 23 - 1 + x.toNat % 2 ^ 31 % 2 ^ 23, _, by congr 1; omega⟩

section
variable {x : W32}

theorem val_zero {neg : Bool} (h : x = signedCode neg 0) : fp32.val x.toNat = .fin neg 0 (-149) := by subst h; cases neg <;> decide

theorem val_inf (neg : Bool) (h : x = signedCode neg 0x7F800000) : fp32.val x.toNat = .inf neg := by subst h; cases neg <;> decide

theorem val_one (h : x = signedCode false 0x3F800000) : fp32.val x.toNat = .fin false 0x800000 (-23) := by subst h; decide

end

/-- A code without a magnitude is a zero. -/
theorem eq_zeroCode {x : W32} (h : (x &&& 0x7FFFFFFF#32) = 0) : ∃ neg, x = signedCode neg 0 := by
  have mag : x.toNat % 2 ^ 31 = 0 := by rw [← magnitude_toNat, h]; rfl
  have size := x.isLt
  obtain low | high : x.toNat = 0 ∨ x.toNat = 2 ^ 31 := by omega
  · exact ⟨false, BitVec.eq_of_toNat_eq low⟩
  · exact ⟨true, BitVec.eq_of_toNat_eq high⟩

/-! ### The table of R265 -/

/-- R265 gives a value a result with this code. -/
def Listed (f : Sfn) (v : FV) (y : W32) : Prop := ∃ z, sfnSpecial f v = some z ∧ HasCode z y

/-- A row of the table of R265, from its results for −∞, +∞ and the zeros: a NaN, a negative input of a function that has none, and 1 of a logarithm
give the same in every row. -/
def listedRow (f : Sfn) (x ninf pinf zero : W32) : Option W32 :=
  if 0x7F800000#32 < x &&& 0x7FFFFFFF then some 0x7FC00000
  else if x = 0xFF800000#32 then some ninf
  else if x = 0x7F800000#32 then some pinf
  else if x &&& 0x7FFFFFFF = 0 then some zero
  else if (decide (x &&& 0x7FFFFFFF ≠ x) = true) ∧ (f = .log ∨ f = .log2 ∨ f = .sqrt ∨ f = .rsqrt) then some 0x7FC00000
  else if x = 0x3F800000#32 ∧ (f = .log ∨ f = .log2) then some 0
  else none

theorem nan_listed (f : Sfn) : Listed f .nan 0x7FC00000 := ⟨.nan, by cases f <;> rfl, nan_hasCode⟩

theorem negative_listed {f : Sfn} (h : f = .log ∨ f = .log2 ∨ f = .sqrt ∨ f = .rsqrt) (m : Nat) (e : Int) :
    Listed f (.fin true (m + 1) e) 0x7FC00000 := by
  refine ⟨.nan, ?_, nan_hasCode⟩
  obtain rfl | rfl | rfl | rfl := h <;> rfl

theorem one_listed {f : Sfn} (h : f = .log ∨ f = .log2) : Listed f (.fin false 0x800000 (-23)) 0 := by
  refine ⟨.fin false 0 0, ?_, zero_hasCode false 0⟩
  obtain rfl | rfl := h <;> rfl

section
variable {f : Sfn} {x y : W32}

/-- The inputs of a row have its results, once its three columns are right. -/
theorem listed_of_row {ninf pinf zero : W32} (h : listedRow f x ninf pinf zero = some y) (hn : Listed f (.inf true) ninf) (hp : Listed f (.inf false) pinf)
    (hz : ∀ neg, x = signedCode neg 0 → Listed f (.fin neg 0 (-149)) zero) : Listed f (fp32.val x.toNat) y := by
  unfold listedRow at h
  split_ifs at h with nan ninf pinf none negative one <;> cases h
  · rw [val_nan nan]
    exact nan_listed f
  · rw [val_inf true ninf]
    exact hn
  · rw [val_inf false pinf]
    exact hp
  · obtain ⟨neg, same⟩ := eq_zeroCode none
    rw [val_zero same]
    exact hz neg same
  · obtain ⟨neg, undefined⟩ := negative
    obtain ⟨m, e, value⟩ := val_negative (of_decide_eq_true neg) nan ninf none
    rw [value]
    exact negative_listed undefined m e
  · obtain ⟨same, logarithm⟩ := one
    rw [val_one same]
    exact one_listed logarithm

/-- The table of R265: a listed input has its listed result. -/
theorem sfnSpecial_listed (h : sfnListed f x = some y) : Listed f (fp32.val x.toNat) y := by
  have inf (neg : Bool) (hx : x = signedCode neg 0) : HasCode (.inf neg) (x ||| 0x7F800000) := by
    have code : x ||| 0x7F800000 = signedCode neg 0x7F800000 := by subst hx; cases neg <;> decide
    rw [code]
    exact inf_hasCode neg
  have zero (neg : Bool) (hx : x = signedCode neg 0) : HasCode (.fin neg 0 0) x := hx ▸ zero_hasCode neg 0
  cases f with
  | exp | exp2 => exact listed_of_row h ⟨_, rfl, zero_hasCode false 0⟩ ⟨_, rfl, inf_hasCode false⟩ fun neg _ => ⟨_, rfl, one_hasCode false⟩
  | log | log2 => exact listed_of_row h ⟨_, rfl, nan_hasCode⟩ ⟨_, rfl, inf_hasCode false⟩ fun neg _ => ⟨_, rfl, inf_hasCode true⟩
  | rcp => exact listed_of_row h ⟨_, rfl, zero_hasCode true 0⟩ ⟨_, rfl, zero_hasCode false 0⟩ fun neg hx => ⟨_, rfl, inf neg hx⟩
  | sqrt => exact listed_of_row h ⟨_, rfl, nan_hasCode⟩ ⟨_, rfl, inf_hasCode false⟩ fun neg hx => ⟨_, rfl, zero neg hx⟩
  | rsqrt => exact listed_of_row h ⟨_, rfl, nan_hasCode⟩ ⟨_, rfl, zero_hasCode false 0⟩ fun neg hx => ⟨_, rfl, inf neg hx⟩
  | sin => exact listed_of_row h ⟨_, rfl, nan_hasCode⟩ ⟨_, rfl, nan_hasCode⟩ fun neg hx => ⟨_, rfl, zero neg hx⟩
  | cos => exact listed_of_row h ⟨_, rfl, nan_hasCode⟩ ⟨_, rfl, nan_hasCode⟩ fun neg _ => ⟨_, rfl, one_hasCode false⟩
  | tanh | erf => exact listed_of_row h ⟨_, rfl, one_hasCode true⟩ ⟨_, rfl, one_hasCode false⟩ fun neg hx => ⟨_, rfl, zero neg hx⟩
  | sigm => exact listed_of_row h ⟨_, rfl, zero_hasCode false 0⟩ ⟨_, rfl, one_hasCode false⟩ fun neg _ => ⟨_, rfl, half_hasCode⟩
  | gelu | silu => exact listed_of_row h ⟨_, rfl, zero_hasCode true 0⟩ ⟨_, rfl, inf_hasCode false⟩ fun neg hx => ⟨_, rfl, zero neg hx⟩

end

end Sys2Proof.Machine
end

section
/-!
SUPPORT. Special functions (chapter 07): the threads of a vector instruction, lowest lane first, and what an SFN instruction writes in each.
-/

namespace Sys2Proof.Machine

/-! ### The threads of a vector instruction (R255) -/

/-- A vector register after a write to one. -/
theorem Crew.reg_setReg (k : Crew) {lane l q r : Nat} (hq : q < 64) (hr : r < 64) (x : W32) :
    (k.setReg l r x).reg lane q = if lane = l ∧ q = r then x else k.reg lane q := by
  have key : 64 * lane + q = 64 * l + r ↔ lane = l ∧ q = r := by omega
  simp only [Crew.reg, Crew.setReg, tget_tset, key]

/-- One thread of a vector instruction that writes v[r] of the threads of a mask; sources are read from the crew k as the instruction found it. -/
def laneStep (m : W32) (r : Nat) (f : LaneFn) (k : Crew) (a : Crew × Dev) (lane : Nat) : Crew × Dev :=
  if m.getLsbD lane then (a.1.setReg lane r (f a.2 k lane).1, (f a.2 k lane).2) else a

/-- The threads below lane n of a vector instruction. -/
def lanesRun (m : W32) (r : Nat) (f : LaneFn) (k : Crew) (d : Dev) (n : Nat) : Crew × Dev := (List.range n).foldl (laneStep m r f k) (k, d)

section
variable (m : W32) (r : Nat) (f : LaneFn) (k : Crew) (d : Dev)

theorem lanesRun_succ (n : Nat) : lanesRun m r f k d (n + 1) = laneStep m r f k (lanesRun m r f k d n) n := by
  simp only [lanesRun, List.range_succ, List.foldl_append, List.foldl_cons, List.foldl_nil]

theorem lanesRun_crew (n : Nat) : (lanesRun m r f k d n).1 = { k with v := (lanesRun m r f k d n).1.v } := by
  induction n with
  | zero => rfl
  | succ n ih =>
    rw [lanesRun_succ, laneStep]
    split
    · rw [Crew.setReg, ih]
    · exact ih

/-- A thread that executes holds in v[r] what it computed, on the device that the threads before it left; every other register is as before. -/
theorem lanesRun_reg (hr : r < 64) (n lane q : Nat) (hq : q < 64) : (lanesRun m r f k d n).1.reg lane q =
    if lane < n ∧ m.getLsbD lane = true ∧ q = r then (f (lanesRun m r f k d lane).2 k lane).1 else k.reg lane q := by
  induction n with
  | zero => rfl
  | succ n ih =>
    rw [lanesRun_succ, laneStep]
    split
    case isTrue runs =>
      rw [Crew.reg_setReg _ hq hr, ih]
      by_cases here : lane = n
      · subst here
        simp [runs]
      · have below : lane < n + 1 ↔ lane < n := by omega
        rw [if_neg fun same => here same.1]
        exact if_congr (and_congr_left' below.symm) rfl rfl
    case isFalse idle =>
      rw [ih]
      refine if_congr ⟨fun ⟨below, rest⟩ => ⟨by omega, rest⟩, fun ⟨below, runs, same⟩ => ⟨?_, runs, same⟩⟩ rfl rfl
      have other : lane ≠ n := fun same => idle (same ▸ runs)
      omega

theorem lanesRun_quiet {c : CoreId} (hf : ∀ e lane, UnitQuiet c d e → UnitQuiet c d (f e k lane).2) (n : Nat) :
    UnitQuiet c d (lanesRun m r f k d n).2 := by
  induction n with
  | zero => exact .refl
  | succ n ih =>
    rw [lanesRun_succ, laneStep]
    split
    · exact hf _ _ ih
    · exact ih

end

/-- A vector instruction whose threads change their core's sources of random bits at most: VD alone may change, of the executing threads. -/
theorem overLanes_writes {d : Dev} {c : CoreId} {slot : Nat} {k : Crew} (hk : getCrew d c slot = some k) (m : W32) {r : Nat} (hr : r < 64) {f : LaneFn}
    (hf : ∀ e lane, UnitQuiet c d e → UnitQuiet c d (f e k lane).2) :
    let t := stepPc (overLanes d c slot m f fun k l x => k.setReg l r x) (.crew c slot)
    VecWrites c slot m r d t ∧
      ∃ x, getCrew t c slot = some x ∧ ∀ lane, lane < 32 → m.getLsbD lane = true → ∃ e, x.reg lane r = (f e k lane).1 := by
  have ran : overLanes d c slot m f (fun k l x => k.setReg l r x) =
      setCrew (lanesRun m r f k d 32).2 c slot (some (lanesRun m r f k d 32).1) := by
    simp only [overLanes, hk]
    rfl
  obtain ⟨⟨⟨seq, crews, -, -⟩, -⟩, beyond⟩ := lanesRun_quiet m r f k d hf 32
  have crew := lanesRun_crew m r f k d 32
  have reg := lanesRun_reg m r f k d hr 32
  generalize lanesRun m r f k d 32 = w at ran crew reg seq crews beyond
  have others (q : Nat) (hq : q ≠ slot) : getCrew (setCrew w.2 c slot (some w.1)) c q = getCrew d c q := by
    rw [getCrew_setCrew, if_neg hq, getCrew, crews, getCrew]
  intro t
  have stepped : t = setCrew (setCrew w.2 c slot (some w.1)) c slot (some { w.1 with pc := w.1.pc + 1 }) := by
    simp only [t, ran, stepPc, setPc, agentPc, getCrew_setCrew_self, Option.map_some, Option.getD_some]
  have new : getCrew t c slot = some { w.1 with pc := w.1.pc + 1 } := by rw [stepped, getCrew_setCrew_self]
  refine ⟨⟨⟨k, _, hk, new, ?_, fun lane q hl hq outside => ?_⟩, fun q hq => ?_, ?_, ?_, ?_⟩, _, new,
    fun lane hl runs => ⟨(lanesRun m r f k d lane).2, ?_⟩⟩
  · rw [crew]
  · exact (reg lane q hq).trans (if_neg fun ⟨_, inside⟩ => outside inside)
  · rw [stepped, getCrew_setCrew, if_neg hq, others q hq]
  · rw [stepped, seqOf, getCore_setCrew, getCore_setCrew]
    exact seq
  · exact memSame_of_beyondCores ((congrArg Dev.beyondCores stepped).trans beyond)
  · exact (congrArg Dev.beyondCores stepped).trans beyond
  · exact (reg lane r hr).trans (if_pos ⟨hl, runs, rfl⟩)

/-! ### Draws and roundings of a thread (R142, R561, R564) -/

section
variable {c : CoreId} {b d : Dev} {slot : Nat}

theorem drawThread_quiet {t : Nat} (h : UnitQuiet c b d) : UnitQuiet c b (drawThread d c slot t).2 := by
  unfold drawThread
  split
  · have drawn (st : W64) : UnitQuiet c b (modWork d c fun w => { w with plumbRng := tset 0 w.plumbRng (32 * slot + t) st }) :=
      modWork_quiet ⟨rfl, rfl, fun _ => rfl⟩ h
    exact rcount_quiet (.ite (rcount_quiet (drawn _)) (drawn _))
  · exact drawSource_quiet h

theorem roundElems_quiet {t rnd lane : Nat} {ftz sat : Bool} {vs : List FV} (h : UnitQuiet c b d) :
    UnitQuiet c b (roundElems c slot t rnd ftz sat vs lane d).2 :=
  .foldl_snd (fun _ _ g => rndOf_quiet (fun _ e => drawThread_quiet e) g) h

theorem sfnLane_quiet {f : Sfn} {o : V3Op} {k : Crew} {lane : Nat} (h : UnitQuiet c b d) : UnitQuiet c b (sfnLane f c slot o d k lane).2 :=
  roundElems_quiet h

end

/-- RND names a rounding without a draw but for its code 3 (R111). -/
theorem rndOf_deterministic {rnd : Nat} (h : rnd < 3) (reduced : Bool) (draw : Dev → W32 × Dev) (d : Dev) : (rndOf rnd reduced draw d).1.deterministic := by
  obtain rfl | rfl | rfl : rnd = 0 ∨ rnd = 1 ∨ rnd = 2 := by omega
  all_goals trivial

/-- A thread of an SFN instruction on a listed FP32 input, in normal mode without FTZ and a draw, gives the listed result (R265). -/
theorem sfnLane_listed {f : Sfn} {c : CoreId} {slot : Nat} {o : V3Op} {k : Crew} {lane : Nat} {y : W32} (type : o.type = 0) (base : o.base = 0)
    (ftz : o.ftz = 0) (rnd : o.rnd.toNat < 3) (listed : sfnListed f (k.reg lane o.va.toNat) = some y) (d : Dev) :
    (sfnLane f c slot o d k lane).1 = y := by
  obtain ⟨z, special, code⟩ := sfnSpecial_listed listed
  rw [← code _ (decide (o.sat = 1)) (rndOf_deterministic rnd (reducedOn d c) (fun d => drawThread d c slot lane) d)]
  have value : sfnNormal (normalImage d c) f (fp32.val (k.reg lane o.va.toNat).toNat) = z := by rw [sfnNormal, special, Option.getD_some]
  simp [sfnLane, roundElems, joinElems, elems, typeFmt, type, base, ftz, Fmt.read, value]

/-! ### O26 -/

section
variable {i : Instr} {row : String} {f : Sfn} {c : CoreId} {slot : Nat} {o : V3Op} {s : State}
  (e : exec i s = runCmd i (sfnIssue row f c slot i o) s) (hf : Fits i s) (hc : CanIssue (.crew c slot) i [o.va.toNat, o.vd.toNat] s.dev)
include e hf hc

/-- With a bank, or without BASE, every executing thread computes and the crew goes on. -/
theorem exec_sfn {k : Crew} (hk : getCrew s.dev c slot = some k) (bank : o.base = 0 ∨ (getCore s.dev c).w.baseActive ≠ none) :
    exec i s = .next { s with dev := stepPc (overLanes s.dev c slot (k.runs o.pred o.pneg) (sfnLane f c slot o)
      fun k l x => k.setReg l o.vd.toNat x) (.crew c slot) } := by
  have present : ¬(o.base = 1 ∧ (getCore s.dev c).w.baseActive.isNone = true) := by
    rintro ⟨base, absent⟩
    obtain normal | active := bank
    · rw [normal] at base
      contradiction
    · exact active (Option.isNone_iff_eq_none.1 absent)
  refine e.trans (runCmd_next hf ((issue_of _ _ hc).trans ?_))
  rw [if_neg present, hk]
  rfl

/-- With BASE and without a bank the crew faults (R268). -/
theorem exec_sfn_absent (base : o.base = 1) (absent : (getCore s.dev c).w.baseActive = none) :
    ∃ pc w, exec i s = .next { s with dev := crewFaultAt s.dev c slot .tableAbsent 0 pc w 0 } :=
  ⟨_, _, e.trans (runCmd_next hf ((issue_of _ _ hc).trans (if_pos ⟨base, by rw [absent]; rfl⟩)))⟩

end

/-- An instruction that runs as a special function computes it. -/
theorem sfnComputes_of {i : CoreId → Nat → V3Op → Instr} {row : String} {f : Sfn}
    (e : ∀ c slot o s, exec (i c slot o) s = runCmd (i c slot o) (sfnIssue row f c slot (i c slot o) o) s) : SfnComputes i f := by
  intro c slot o s k hf hc hk
  refine ⟨fun bank => ?_, fun base absent => ?_⟩
  · obtain ⟨writes, x, new, results⟩ := overLanes_writes hk (k.runs o.pred o.pneg) o.vd.isLt
      (f := sfnLane f c slot o) fun _ _ h => sfnLane_quiet h
    refine ⟨_, exec_sfn (e c slot o s) hf hc hk bank, writes, fun type normal ftz rnd lane y hl runs listed => ⟨x, new, ?_⟩⟩
    obtain ⟨d, result⟩ := results lane hl runs
    rw [result, sfnLane_listed type normal ftz rnd listed]
  · obtain ⟨pc, w, faults⟩ := exec_sfn_absent (e c slot o s) hf hc base absent
    exact ⟨_, faults, crewFaultAt_spec .tableAbsent 0 pc w 0 nofun hk⟩

/-- Settles O26: each of the fourteen instructions runs as its special function (sfnComputes_of). -/
theorem specialFunctions : Obligations.SpecialFunctions := by
  refine ⟨?_, ?_, ?_, ?_, ?_, ?_, ?_, ?_, ?_, ?_, ?_, ?_, ?_, ?_⟩
  all_goals exact sfnComputes_of fun _ _ _ _ => rfl

end Sys2Proof.Machine
end

section
/-!
SUPPORT. The page fetch of an attention operation (chapter 09, R310, R327) on a part of more dies than R2 lists: places are numbers (Machine/Memory.lean),
and those of the HBM of die 4,096 are those of the core stores, so that a fetch can overwrite a row that it has still to read.
-/

namespace Sys2Proof.Machine

/-! ### A staging slot in die 4,096 (R309, R310) -/

/-- Core 0 of die 0. -/
def chunkCore : CoreId := ⟨0, 0⟩

/-- An attention operation over one chunk of two keys of sequence 0, its fetch buffers at offset 1 of the core store. -/
def chunkOp : RunOp :=
  { RunOp.new ⟨1, 3, 2, 0, 0, 0, 0, [0, 0, 0, 0, 0, 0, 0, 0, 0, 0, 0, 0, 0, 2 ^ 32]⟩ with
    phase := .steps, e1 := 2, attn := some { Attn.empty with chunks := [0] } }

/-- A part of 4,097 dies, a GiB of each of them striped. The one staging slot of sequence 0, whose rows are of one byte, lies at offset 2^24 of the
package-striped space, which is the first granule of die 4,096. It holds keys 0 and 1; the K row of key 0 is 7 and every other row 0. -/
def manyDies : State :=
  ⟨{ Dev.reset with
    part := ⟨4097, false⟩
    cores := [(ckey chunkCore, { Core.idle with sched := 1, w := { Work.empty with cubes := [(0, { Cube.empty with run := some chunkOp })] } })]
    kvs := [(0, { Kv.empty with bits := [(0, true), (1, true)] })]
    mem := [(hbmKey 4096 0 0, 7)]
    regs := [(regKey .hbmMap 0 0 0, 2 ^ 8), (regKey .kvsGeom 0 0 0, 2 ^ 3 + 3 * 2 ^ 12 + 2 ^ 16), (regKey .kvsStage 0 0 0, 2 ^ 50 + 2 ^ 24)] }, []⟩

/-- The device after the fetch. -/
def manyDiesFetched : Dev := (fetchChunk manyDies.dev chunkCore chunkOp).1

theorem manyDies_fits : Fits (.attnChunkFetchDone chunkCore 0) manyDies := ⟨by decide, by decide⟩

theorem manyDies_runs : attnIn manyDies.dev chunkCore 0 .steps = some chunkOp := by decide

/-- Both keys are staged. -/
theorem manyDies_staged : kvStaged manyDies.dev chunkOp.kvIdx 1 = true := by decide

/-- The K row of key 1 lies at the second byte of die 4,096, which is byte 1 of the core's store. -/
theorem manyDies_row : resolve manyDies.dev (kvSlotAddr manyDies.dev chunkOp.kvIdx (1 / kvTokens manyDies.dev chunkOp.kvIdx) +
    BitVec.ofNat 52 (kvRowOff manyDies.dev chunkOp.kvIdx 1 false + 0)) = some (.hbm 4096 0 1) := by
  decide

theorem manyDies_before : memByte manyDies.dev (hbmKey 4096 0 1) = 0 := by decide

theorem manyDies_fetches : fetchChunk manyDies.dev chunkCore chunkOp =
    (manyDiesFetched, .ok { chunkOp with attn := some { chunkOp.att with fetched := chunkOp.att.fetched + 1 } }) := rfl

/-- The K row of key 0, written to the buffer at byte 1 of the store, is read there as that of key 1. -/
theorem manyDies_after : memByte manyDiesFetched (storeKey chunkCore (chunkOp.bufRow manyDies.dev chunkOp.att.fetched 1 false + 0)) = 7 := by
  decide

/-- Refutes O40: its clause on ATTN_CHUNK_FETCH_DONE is claimed of parts of any number of dies, and fails on one of 4,097 (it lacks the
hypothesis that the part is one of R2's, of 2, 4 or 8 dies, which is part of Inv). On `manyDies` the staging slot lies in the HBM of die 4,096, whose bytes are at the places of the
core's store; the fetch brings the K row of key 0 to its buffer, over the K row of key 1, and the buffer of key 1 then holds 7 where its row held 0. -/
theorem not_attentionAndKeys : ¬ Obligations.AttentionAndKeys := by
  intro h
  obtain ⟨-, -, -, -, -, fetch, -⟩ := h
  obtain ⟨fetched, -⟩ := fetch chunkCore 0 manyDies chunkOp manyDies_fits manyDies_runs (by decide) (by decide)
  obtain ⟨t, -, -, same, -, rows⟩ := fetched _ _ manyDies_fetches
  have row := rows 1 1 false 0 _ _ 4096 0 1 (by decide) (by decide) (by rw [manyDies_staged]; rfl) rfl manyDies_row
  rw [same, manyDies_after, manyDies_before] at row
  exact absurd row (by decide)

end Sys2Proof.Machine
end

section
/-!
SUPPORT. Accesses that fail a test (chapters 01, 07 and 11): what a scalar load or store and the accesses below it answer then, and the lowest-numbered
failing thread of a vector access.
-/

namespace Sys2Proof.Machine

/-! ### Reads and writes that are refused (R384, R386) -/

section
variable {d : Dev} {a : Addr} {n : Nat} {p : Place}

/-- A use of a cache line changes the cache and its clock alone. -/
theorem touchLine_eq (d : Dev) (p : Place) (write hold : Bool) :
    touchLine d p write hold = { d with cache := (touchLine d p write hold).cache, clock := (touchLine d p write hold).clock } := by
  unfold touchLine
  split
  · dsimp only
    split
    · rfl
    · split
      · rfl
      · split <;> rfl
  · rfl

theorem poisoned_touchLine (d : Dev) (p q : Place) (write hold : Bool) (n : Nat) : poisoned (touchLine d p write hold) q n = poisoned d q n := by
  rw [touchLine_eq]
  rfl

theorem devRead_poisoned (place : resolve d a = some p) (memory : ∀ x y, p ≠ .reg x y) (inside : inRegion d a n = true) (kept : retired d a p = false)
    (bad : poisoned d p n = true) (hold : Bool) : devRead d a n hold = (touchLine d p false hold, .error .poisoned) := by
  cases p with
  | reg x y => exact absurd rfl (memory x y)
  | _ => simp [devRead, place, inside, kept, poisoned_touchLine, bad]

variable {die ch ca : Nat}

theorem devRead_retired (place : resolve d a = some (.hbm die ch ca)) (inside : inRegion d a n = true) (gone : retired d a (.hbm die ch ca) = true)
    (hold : Bool) : devRead d a n hold = (countRefused d (.hbm die ch ca), .error .pageRetired) := by
  simp [devRead, place, inside, gone]

theorem devWrite_retired {bs : List Byte} (place : resolve d a = some (.hbm die ch ca)) (inside : inRegion d a bs.length = true)
    (gone : retired d a (.hbm die ch ca) = true) : devWrite d a bs = (countRefused d (.hbm die ch ca), .error .pageRetired) := by
  simp [devWrite, place, inside, gone]

end

/-! ### What a scalar access answers then (R41, R117, R124) -/

section
variable {d : Dev} {a : Addr} {n : Nat} (x v : Nat)

theorem scalarRead_misaligned (h : a.toNat % n ≠ 0) : scalarRead d x a n = some (d, .error .misaligned) := by
  simp [scalarRead, misBy, h]

theorem scalarWrite_misaligned (h : a.toNat % n ≠ 0) : scalarWrite d x a n v = some (d, .error .misaligned) := by
  simp [scalarWrite, misBy, h]

variable (aligned : a.toNat % n = 0)
include aligned

theorem scalarRead_absent (h : resolve d a = none) : scalarRead d x a n = some (d, .error .addressAbsent) := by
  simp [scalarRead, misBy_eq_false.2 aligned, h]

theorem scalarWrite_absent (h : resolve d a = none) : scalarWrite d x a n v = some (d, .error .addressAbsent) := by
  simp [scalarWrite, misBy_eq_false.2 aligned, h]

variable {p : Place} (place : resolve d a = some p) (memory : ∀ x y, p ≠ .reg x y)
include place memory

theorem scalarWrite_readonly (h : isReadonly d a n = true) : scalarWrite d x a n v = some (d, .error .spaceDenied) := by
  cases p with
  | reg y z => exact absurd rfl (memory y z)
  | _ => simp [scalarWrite, misBy_eq_false.2 aligned, place, h]

variable {x} (free : reachBusy d x p = false) {e : Dev} {f : FaultCode}
include free

/-- A load that memory refuses. -/
theorem scalarRead_refused (h : devRead d a n false = (e, .error f)) : scalarRead d x a n = some (e, .error f) := by
  cases p with
  | reg y z => exact absurd rfl (memory y z)
  | _ => simp [scalarRead, misBy_eq_false.2 aligned, place, free, h]

/-- A store that memory refuses. -/
theorem scalarWrite_refused (writable : isReadonly d a n = false) (h : devWrite d a (leBytes n v) = (e, .error f)) :
    scalarWrite d x a n v = some (e, .error f) := by
  cases p with
  | reg y z => exact absurd rfl (memory y z)
  | _ => simp [scalarWrite, misBy_eq_false.2 aligned, place, free, writable, h]

end

/-! ### Sequencers that fault at an access (R40) -/

theorem Completes.mono {i : Instr} {s : State} {P Q : Dev → Prop} (h : Completes i s P) (sub : ∀ t, P t → Q t) : Completes i s Q := by
  obtain ⟨t, answer, holds⟩ := h
  exact ⟨t, answer, sub t holds⟩

/-- The sequencer of a core has faulted on a device, wherever it stood. -/
def FaultOf (c : CoreId) (f : FaultCode) (e t : Dev) : Prop := ∃ pc word, t = seqFault e c f 0 pc word

section
variable {c : CoreId} {o : SmOp} {s : State} {e t : Dev} {f : FaultCode}

theorem sclLd_faults (hf : Fits (.sclLd c o) s) (hc : CanIssue (.seq c) (.sclLd c o) [o.sd.toNat] s.dev)
    (refused : scalarRead s.dev c.die (smAddr s.dev c o) (2 ^ o.size.toNat) = some (e, .error f)) : Completes (.sclLd c o) s (FaultOf c f e) :=
  completes_of rfl hf ((issue_of _ _ hc).trans (by simp only [smBytes, refused]; rfl)) ⟨_, _, rfl⟩

theorem sclSt_faults (hf : Fits (.sclSt c o) s) (hc : CanIssue (.seq c) (.sclSt c o) [o.sd.toNat] s.dev)
    (refused : ∀ v, scalarWrite s.dev c.die (smAddr s.dev c o) (2 ^ o.size.toNat) v = some (e, .error f)) :
    Completes (.sclSt c o) s (FaultOf c f e) :=
  completes_of rfl hf ((issue_of _ _ hc).trans (by simp only [smBytes, refused]; rfl)) ⟨_, _, rfl⟩

theorem FaultOf.seqFaulted (h : FaultOf c f e t) : SeqFaulted c f 0 e t := by
  obtain ⟨pc, word, rfl⟩ := h
  exact seqFault_spec e c f 0 pc word

/-- After a use of a cache line. -/
theorem FaultOf.after_touchLine {d : Dev} {p : Place} {write hold : Bool} (h : FaultOf c f (touchLine d p write hold) t) :
    SeqFaulted c f 0 { d with cache := t.cache, clock := t.clock } t := by
  have faulted := h.seqFaulted
  obtain ⟨-, -, -, -, beyond⟩ := faulted
  have cache : t.cache = (touchLine d p write hold).cache := (congrArg Dev.cache beyond : t.beyondCores.cache = _)
  have clock : t.clock = (touchLine d p write hold).clock := (congrArg Dev.clock beyond : t.beyondCores.clock = _)
  rw [cache, clock, ← touchLine_eq]
  exact h.seqFaulted

theorem regKey_hbmRetireStat_ne (die : Nat) : regKey .hbmRetireStat die 0 0 ≠ regKey .cmdEvtStat 0 0 0 := by
  have retire : regKey .hbmRetireStat die 0 0 = 0x20000000 * die + 0x12308000 := rfl
  have event : regKey .cmdEvtStat 0 0 0 = 0x17010018 := rfl
  omega

/-- After a request that a retired frame refused: the die's REFUSED counts it (R404). -/
theorem FaultOf.after_countRefused {d : Dev} {die ch ca : Nat} (h : FaultOf c f (countRefused d (.hbm die ch ca)) t) :
    SeqFaulted c f 0 d t ∧ rfld t .hbmRetireStat die 0 0 31 16 = min 0xFFFF (rfld d .hbmRetireStat die 0 0 31 16 + 1) := by
  refine ⟨h.seqFaulted, ?_⟩
  obtain ⟨pc, word, rfl⟩ := h
  have kept : regGet (seqFault (countRefused d (.hbm die ch ca)) c f 0 pc word) .hbmRetireStat die 0 0 =
      regGet (countRefused d (.hbm die ch ca)) .hbmRetireStat die 0 0 := regGet_logErr _ _ _ (regKey_hbmRetireStat_ne die)
  have counted : rfld (countRefused d (.hbm die ch ca)) .hbmRetireStat die 0 0 31 16 =
      min 0xFFFF (rfld d .hbmRetireStat die 0 0 31 16 + 1) % 2 ^ (31 + 1 - 16) := rfld_rset (by decide)
  rw [rfld, kept]
  exact counted.trans (Nat.mod_eq_of_lt (by omega))

end

/-! ### Threads that fail (R260) -/

section
variable {o : VmOp} {k : Crew} {l : Nat}

theorem vmFault_eq (o : VmOp) (k : Crew) (l : Nat) : vmFault o k l = if storeBytes < vmAddr o k l + 2 ^ o.size.toNat then .spaceDenied
    else if vmAddr o k l % 2 ^ o.size.toNat ≠ 0 then .misaligned else .none := rfl

theorem vmFault_none (inside : vmAddr o k l + 2 ^ o.size.toNat ≤ storeBytes) (aligned : vmAddr o k l % 2 ^ o.size.toNat = 0) :
    vmFault o k l = .none := by
  rw [vmFault_eq, if_neg (Nat.not_lt.2 inside), if_neg (not_not.2 aligned)]

theorem vmFault_fails (bad : storeBytes < vmAddr o k l + 2 ^ o.size.toNat ∨ vmAddr o k l % 2 ^ o.size.toNat ≠ 0) :
    vmFault o k l = if storeBytes < vmAddr o k l + 2 ^ o.size.toNat then .spaceDenied else .misaligned := by
  rw [vmFault_eq]
  split
  · rfl
  · exact if_pos (bad.resolve_left ‹_›)

/-- The fault of a vector access is that of the lowest thread that fails. -/
theorem vmFirst_lowest (hl : l < 32) (runs : (k.runs o.pred o.pneg).getLsbD l = true) (fails : vmFault o k l ≠ .none)
    (lowest : ∀ h, h < l → (k.runs o.pred o.pneg).getLsbD h = true → vmFault o k h = .none) : vmFirst o k = vmFault o k l := by
  have lane : vmLane o k = some l := by
    refine List.find?_range_eq_some.2 ⟨by simp [runs, fails], List.mem_range.2 hl, fun h below => ?_⟩
    cases on : (k.runs o.pred o.pneg).getLsbD h with
    | false => rfl
    | true => simp [lowest h below on]
  rw [vmFirst, lane]; rfl

/-- A vector access in which a thread fails takes its launch with it (R39). -/
theorem vecMem_stops {i : CoreId → Nat → VmOp → Instr} (hi : i ∈ [Instr.vecLd, .vecSt]) {c : CoreId} {slot : Nat} {s : State}
    (hf : Fits (i c slot o) s) (hc : CanIssue (.crew c slot) (i c slot o) [o.va.toNat, o.vd.toNat] s.dev) (hk : getCrew s.dev c slot = some k)
    (fails : vmFirst o k ≠ .none) : Completes (i c slot o) s (LaunchStopped c k.launch (vmFirst o k) 0 s.dev) := by
  simp only [List.mem_cons, List.not_mem_nil, or_false] at hi
  rcases hi with rfl | rfl
  all_goals exact completes_of rfl hf ((issue_of _ _ hc).trans (by simp only [hk, if_pos fails]; rfl)) (crewFaultAt_spec _ _ _ _ _ fails hk)

end

/-! ### O19 -/

/-- Settles O19: an access that a test refuses (scalarRead_misaligned and what follows it, vmFirst_lowest) faults its agent (sclLd_faults,
sclSt_faults, vecMem_stops), and a fault leaves memory as it was (seqFault_spec, crewFaultAt_spec). -/
theorem accessFaults : Obligations.AccessFaults := by
  refine ⟨⟨?loadMisaligned, ?storeMisaligned, ?loadAbsent, ?storeAbsent, ?storeReadonly, ?loadPoisoned, ?loadRetired, ?storeRetired⟩, ?vector⟩
  case loadMisaligned =>
    intro c o s hf hc misaligned
    exact (sclLd_faults hf hc (scalarRead_misaligned _ misaligned)).mono fun _ => FaultOf.seqFaulted
  case storeMisaligned =>
    intro c o s hf hc misaligned
    exact (sclSt_faults hf hc fun v => scalarWrite_misaligned _ v misaligned).mono fun _ => FaultOf.seqFaulted
  case loadAbsent =>
    intro c o s hf hc aligned absent
    exact (sclLd_faults hf hc (scalarRead_absent _ aligned absent)).mono fun _ => FaultOf.seqFaulted
  case storeAbsent =>
    intro c o s hf hc aligned absent
    exact (sclSt_faults hf hc fun v => scalarWrite_absent _ v aligned absent).mono fun _ => FaultOf.seqFaulted
  case storeReadonly =>
    intro c o s p hf hc aligned place memory denied
    exact (sclSt_faults hf hc fun v => scalarWrite_readonly _ v aligned place memory denied).mono fun _ => FaultOf.seqFaulted
  case loadPoisoned =>
    intro c o s p hf hc aligned place memory inside kept bad free
    have refused := devRead_poisoned place memory inside kept bad false
    exact (sclLd_faults hf hc (scalarRead_refused aligned place memory free refused)).mono fun _ => FaultOf.after_touchLine
  case loadRetired =>
    intro c o s die ch ca hf hc aligned place inside gone free
    have refused := devRead_retired place inside gone false
    exact (sclLd_faults hf hc (scalarRead_refused aligned place nofun free refused)).mono fun _ => FaultOf.after_countRefused
  case storeRetired =>
    intro c o s die ch ca hf hc aligned place inside gone writable free
    have refused (v : Nat) := devWrite_retired (bs := leBytes (2 ^ o.size.toNat) v) place (by rwa [leBytes_length]) gone
    exact (sclSt_faults hf hc fun v => scalarWrite_refused v aligned place nofun free writable (refused v)).mono fun _ => FaultOf.after_countRefused
  case vector =>
    intro i hi c slot o s k l hf hc hk hl runs bad lowest
    have fault := vmFault_fails bad
    have fails : vmFault o k l ≠ .none := by rw [fault]; split <;> nofun
    have first : vmFirst o k = vmFault o k l := vmFirst_lowest hl runs fails fun h below on =>
      have ⟨inside, aligned⟩ := lowest h below on
      vmFault_none inside aligned
    rw [← fault, ← first]
    exact vecMem_stops hi hf hc hk (first ▸ fails)

end Sys2Proof.Machine
end

section
/-!
SUPPORT. Two clauses of the memory system (chapter 11) that some devices do not meet: the counts of an error window in a table out of order (R379), and
the end of a slice reconfiguration while a record waits for the slices (R370).
-/

namespace Sys2Proof.Machine

/-- Two accounts of what a command completes with speak of one device. -/
theorem Completes.meet {i : Instr} {s : State} {P Q : Dev → Prop} (h : Completes i s P) (g : Completes i s Q) : ∃ t, P t ∧ Q t := by
  obtain ⟨t, answer, holds⟩ := h
  obtain ⟨e, same, also⟩ := g
  injection answer.symm.trans same with next
  obtain rfl : t = e := congrArg State.dev next
  exact ⟨t, holds, also⟩

/-! ### O43: counts out of order (R379) -/

/-- The count of die 0's lane 5 stands behind that of die 1's lane 0, whose key is higher, so that lane 5 reads as not counted. -/
def unsortedCounts : State := ⟨{ Dev.reset with laneCounts := [(32 * 128, 1), (5, 3)] }, []⟩

theorem unsortedCounts_fits : Fits (.hbmErrWindowEnd 1) unsortedCounts := ⟨by decide, by decide⟩

theorem unsortedCounts_before : tget 0 unsortedCounts.dev.laneCounts 5 = 0 := by decide

/-- The end of die 1's window takes its count out, and that of die 0 is read. -/
theorem unsortedCounts_after : Completes (.hbmErrWindowEnd 1) unsortedCounts fun t => tget 0 t.laneCounts 5 = 3 := ⟨_, rfl, by decide⟩

/-- Refutes O43: that HBM_ERR_WINDOW_END keeps the counts of other dies is claimed of every device, and fails on one whose table of counts is not in order
(no hypothesis says that it is, and Tidy does not speak of it). On `unsortedCounts` the window of die 1 ends, and the count read for lane 5 of die 0 goes
from 0 to 3. -/
theorem not_memoryErrors : ¬ Obligations.MemoryErrors := by
  intro h
  obtain ⟨-, windowEnd, -⟩ := h
  obtain ⟨t, ⟨-, counts, -⟩, after⟩ := (windowEnd 1 unsortedCounts unsortedCounts_fits (by decide) (by decide)).meet unsortedCounts_after
  have kept : tget 0 t.laneCounts 5 = 0 := (counts 5).trans unsortedCounts_before
  exact absurd (after.symm.trans kept) (by decide)

/-! ### O44: a record that waits for the slices (R370) -/

/-- A command that has acted and has no record yet. -/
def actedCmd : Cmd := { Cmd.new 0 [] .none with started := true, acted := true }

/-- The slices of die 0 are being reconfigured. The record of channel 0's command goes to offset 0 of the die's HBM, of which channel 0 is live, and
waits for them. -/
def waitingRecord : State :=
  ⟨{ Dev.reset with
    regs := [(regKey .hbmChan 0 0 0, 1), (regKey .resSliceCfg 0 0 0, 2 ^ 16)]
    chans := [(0, { Channel.empty with state := 1, complOrder := 4, cmds := [actedCmd] })]
    lateCmds := [⟨0, 0, false, false, .none⟩] }, []⟩

theorem waitingRecord_fits : Fits (.sliceReconfigDone 0) waitingRecord := ⟨by decide, by decide⟩

/-- The device meets what every step keeps, and it is for the slices that the record waits. -/
theorem waitingRecord_waits : Inv waitingRecord ∧ extentBusy waitingRecord.dev 0 (getChan waitingRecord.dev 0).recordAddr 32 = true := by
  unfold Inv Tidy Rising
  decide

theorem waitingRecord_before : (getChan waitingRecord.dev 0).rtail = 0 := by decide

/-- The record is written, and TAIL of the channel's completion ring goes on. -/
theorem waitingRecord_after : Completes (.sliceReconfigDone 0) waitingRecord fun t => (getChan t 0).rtail = 1 := ⟨_, rfl, by decide +kernel⟩

/-- Refutes O44: that SLICE_RECONFIG_DONE changes registers alone is claimed of every device, and fails where something waits for the slices, which then
goes on (resumeWaits; R370, log 160). On `waitingRecord` a command's record waits (waitingRecord_waits), and is written as the slices are done. -/
theorem not_memoryConfiguration : ¬ Obligations.MemoryConfiguration := by
  intro h
  obtain ⟨-, -, -, -, -, -, -, -, sliceDone, -⟩ := h
  obtain ⟨t, ⟨registers, -⟩, after⟩ := (sliceDone 0 waitingRecord waitingRecord_fits (by decide)).meet waitingRecord_after
  have kept : (getChan t 0).rtail = 0 := (congrArg (fun d => (getChan d 0).rtail) registers).trans waitingRecord_before
  exact absurd (after.symm.trans kept) (by decide)

end Sys2Proof.Machine
end

section
/-!
SUPPORT. Devices on which a claim about channels, objects or placement fails (chapters 12 and 13): a retirement entry that a dropped event's count takes
out, a part of more than eight dies, and a residency tag said to be held where no core is.
-/

namespace Sys2Proof.Machine

/-! ### O45: a retirement entry behind a counter (R386, R433) -/

/-- An ARRIVE at stake 0 of die 7, which has started. -/
def farArrive : Cmd := { Cmd.new 0 [3, 0, 7 * 2 ^ 14] .none with started := true }

/-- A part of two dies. Channel 0's record goes to offset 0 of die 0's HBM, in frame 0. The frame is retired, but the entry that says so stands behind
CMD_EVT_STAT, whose key is higher. The event ring is set up and full, and die 0 has its 256 events pending. -/
def untidyFrame : State :=
  ⟨{ Dev.reset with
    part := ⟨2, false⟩
    chans := [(0, { Channel.empty with state := 1, complOrder := 4, cmds := [farArrive] })]
    events := List.replicate 256 ⟨9, 0, 191, 0, 0, 0, 0, 0, 0⟩
    regs := [(regKey .hbmChan 0 0 0, 1), (regKey .cmdEvtCtl 0 0 0, 2 ^ 57), (regKey .cmdEvtPtr 0 0 0, 1), (regKey .cmdEvtStat 0 0 0, 1),
      (regKey .hbmRetire 0 0 0, 1)] }, []⟩

theorem untidyFrame_fits : Fits (.cmdArriveOp 0) untidyFrame := ⟨by decide, by decide⟩

theorem untidyFrame_acts : toAct untidyFrame.dev 0 3 = some farArrive := by decide

theorem untidyFrame_ready : recordWaits untidyFrame.dev 0 = false := by decide

/-- A write at the record's address is refused, so that the byte there stays 0. -/
theorem untidyFrame_refuses : memByte (devWriteAll untidyFrame.dev 0 (recordBytes 0 farArrive 1 (.none, 0))).1 (hbmKey 0 0 0) = 0 := by decide

/-- The record that no stake of die 7 is there (R54) raises an event, which is dropped; its count takes the frame's entry out, and the command's record
is written. -/
theorem untidyFrame_writes : Completes (.cmdArriveOp 0) untidyFrame fun t => memByte t (hbmKey 0 0 0) = 1 := ⟨_, rfl, by decide +kernel⟩

/-- Refutes O45: that an ARRIVE leaves in memory what writing its record to the device before it leaves (CmdDone) is claimed of every device, and fails on
one whose registers are not in order (it lacks the hypothesis Tidy, which every step keeps). On `untidyFrame` the record lies in a retired frame, where a
write is refused; the arrival, at a stake of an absent die, is logged, the count of the event that is dropped takes the frame's entry out, and the record
is written after all. -/
theorem not_channelCommands : ¬ Obligations.ChannelCommands := by
  intro h
  obtain ⟨-, -, -, -, -, -, -, -, arrive, -⟩ := h
  obtain ⟨t, ⟨⟨-, -, -, memory, -⟩, -⟩, written⟩ := (arrive 0 _ untidyFrame farArrive untidyFrame_fits rfl untidyFrame_acts rfl (by decide)
    untidyFrame_ready).meet untidyFrame_writes
  have kept : memByte t (hbmKey 0 0 0) = 0 := (memory (hbmKey 0 0 0)).trans untidyFrame_refuses
  exact absurd (written.symm.trans kept) (by decide)

/-! ### O46: a parcel of a ninth die (R2, R453) -/

/-- An entry of the cadastre with one bit: bit 48 of the clusters of dies 4 to 7, which would be cluster 0 of die 8. -/
def ninthDie : Parcel := { Parcel.empty with state := 1, hi := 2 ^ 48 }

/-- A part of nine dies, on which the OPEN of parcel 1 is to end. -/
def nineDies : State :=
  ⟨{ Dev.reset with
    part := ⟨9, false⟩
    parcels := [(1, ninthDie)]
    admin := { Dev.reset.admin with busy := true, target := BitVec.ofNat 32 (2 ^ 24 + typeParcel * 2 ^ 16 + 1) } }, []⟩

theorem nineDies_fits : Fits .openComplete nineDies := ⟨by decide, by decide⟩

theorem nineDies_tidy : Tidy nineDies.dev := by
  unfold Tidy Rising
  decide

/-- Stake 0 of die 0 is none of the parcel's. -/
theorem nineDies_owns : ninthDie.ownsStake 0 = false := by decide

/-- The identifier of stake 0 of die 8, of 17 bits, is that of stake 0 of die 0. -/
theorem nineDies_grants : Completes .openComplete nineDies fun t => (getStake t 0).parcel = 1 := ⟨_, rfl, by decide +kernel⟩

/-- Refutes O46: that OPEN_COMPLETE changes no stake but the parcel's own is claimed of parts of any number of dies, and fails on one of nine (it lacks the
hypothesis that the part is one of R2's, of 2, 4 or 8 dies, which is part of Inv). On `nineDies` parcel 1 is granted cluster 0 of die 8; the identifiers of
its stakes are those of die 0, and stake 0 of die 0, which the parcel does not own, names the parcel afterwards. -/
theorem not_objectsPartsAndEvents : ¬ Obligations.ObjectsPartsAndEvents := by
  intro h
  obtain ⟨-, openEnds, -⟩ := h
  obtain ⟨t, ⟨-, -, granted⟩, named⟩ := (openEnds nineDies nineDies_fits nineDies_tidy rfl rfl).meet nineDies_grants
  obtain ⟨stakes, -⟩ := granted 1 ninthDie (by decide) (by decide) rfl
  have kept : getStake t 0 = Stake.empty := by
    rw [stakes 0 (by decide), nineDies_owns]
    rfl
  rw [kept] at named
  exact absurd named (by decide)

/-! ### O47: a tag where no core is (R459) -/

/-- A RUN of one part, which has acted; its part waits for a core. -/
def placedRun : Cmd := { Cmd.new 0 [1] .none with started := true, acted := true, place := 1, image := some ⟨0, 8, 0, 0, 0, 0⟩ }

/-- The parcel of cluster 0 of die 0. -/
def oneCluster : Parcel := { Parcel.empty with state := 1, lo := 1 }

/-- Channel 0's part waits in the parcel, all of whose cores are free; core 0 holds the tag of a part of channel 1. -/
def foreignTag : State :=
  ⟨{ Dev.reset with
    parcels := [(0, oneCluster)]
    chans := [(0, { Channel.empty with state := 1, cmds := [placedRun] })]
    cores := [(0, { Core.idle with tagValid := true, tagChan := 1 })] }, []⟩

/-- Core 0 of die 0. -/
def coreZero : CoreId := ⟨0, 0⟩

/-- A core of die 0 beyond its 144 (R8). -/
def noSuchCore : CoreId := ⟨0, 144⟩

theorem foreignTag_fits : Fits .dispatchTick foreignTag := ⟨by decide, by decide⟩

/-- The device meets what every step keeps. -/
theorem foreignTag_inv : Inv foreignTag := by
  unfold Inv Tidy Rising
  decide

theorem foreignTag_waits : waitingParts foreignTag.dev 0 = [⟨0, 0, 0, 0, 0, none⟩] := by decide +kernel

/-- The one tag of the device is channel 1's. -/
theorem foreignTag_unheld (z : CoreId) : ¬TagHeld foreignTag.dev 0 0 z := by
  rintro ⟨valid, chan, -⟩
  by_cases first : ckey z = 0
  · simp [getCore, foreignTag, first, tget] at chan
  · simp [getCore, foreignTag, first, tget, Core.idle] at valid

/-- Every core of the parcel lies in cluster 0 of die 0. -/
theorem foreignTag_cores : ∀ c ∈ parcelCores foreignTag.dev oneCluster, c.die = 0 ∧ c.core / 12 = 0 := by decide +kernel

/-- Were the part's tag held by a core of die 0 that is not there, the third entry of the list of R459 would name core 0, the first free one of that die. -/
theorem foreignTag_placed : PlacedOn foreignTag.dev (parcelCores foreignTag.dev oneCluster) (some noSuchCore) coreZero := by
  refine ⟨by decide, 3, by decide, by decide, ⟨noSuchCore, rfl, rfl⟩, ?_, [], (parcelCores foreignTag.dev oneCluster).tail, by decide +kernel,
    fun x mem => nomatch mem⟩
  intro m low high x mem _ entry
  obtain ⟨-, cluster⟩ := foreignTag_cores x mem
  obtain rfl | rfl : m = 1 ∨ m = 2 := by omega
  · cases entry
    exact absurd cluster (by decide)
  · obtain ⟨_, ⟨⟩, -, same⟩ := entry
    exact absurd (cluster.symm.trans same) (by decide)

/-- No core holds the part's tag, so that the part goes to a core without one, and core 0 stays free. -/
theorem foreignTag_free : Completes .dispatchTick foreignTag fun t => (getCore t coreZero).sched = 0 := ⟨_, rfl, by decide +kernel⟩

/-- Refutes O47: the core h that is said to hold a part's tag need not be a core of a die (it lacks the hypothesis that h's number is below 144); with an h
beyond them no core holds the tag, and yet the part is claimed to be placed near h. On `foreignTag`, which meets what every step keeps (foreignTag_inv), no
core holds the tag of channel 0's part, and core 144 of die 0 serves as h: the claim then names core 0, and the dispatch passes it by for a core without a
tag. -/
theorem not_placementAndContexts : ¬ Obligations.PlacementAndContexts := by
  intro h
  obtain ⟨dispatch, -⟩ := h
  have unheld (z : CoreId) (there : z.core < 144) : TagHeld foreignTag.dev 0 0 z ↔ some noSuchCore = some z :=
    ⟨fun held => absurd held (foreignTag_unheld z), fun same => by cases same; exact absurd there (by decide)⟩
  obtain ⟨t, ⟨started, -⟩, free⟩ := (dispatch foreignTag 0 oneCluster ⟨0, 0, 0, 0, 0, none⟩ placedRun _ coreZero _ (some noSuchCore) foreignTag_fits
    foreignTag_inv.1 (by decide) (by decide) rfl (by decide) rfl (by decide) foreignTag_waits rfl unheld foreignTag_placed (by decide) rfl (by decide)
    (by decide) rfl).meet foreignTag_free
  exact absurd (started.symm.trans free) (by decide)

end Sys2Proof.Machine
end

section
/-!
SUPPORT. A device on which the claim about the schedule fails (chapter 13): one whose active bank is neither of the two.
-/

namespace Sys2Proof.Machine

/-! ### O48: a bank beyond the two of the schedule (R468, R480) -/

/-- A bank whose entries would stand beyond the 512 of SCH_SLOT. -/
def noSuchBank : Nat := 32638

/-- Entry 3 of that bank would be the counter of dropped events. -/
theorem noSuchBank_entry : regKey .schSlot 0 0 (256 * noSuchBank + 3) = regKey .cmdEvtStat 0 0 0 := by decide

/-- The schedule is on and runs entry 2 of `noSuchBank`, whose slot has ended; entry 3 is to follow (COUNT is 3). The count of dropped events, read as that
entry, has EVENT set and 0 TICKS. The event ring is set up and full, and die 0 has its 256 events pending. -/
def strayBank : State :=
  ⟨{ Dev.reset with
    events := List.replicate 256 ⟨9, 0, 191, 0, 0, 0, 0, 0, 0⟩
    sched := { Dev.reset.sched with running := true, bank := noSuchBank, slot := 2 }
    regs := [(regKey .schCtl 0 0 0, 3 * 2 ^ 16 + 1), (regKey .cmdEvtCtl 0 0 0, 2 ^ 57), (regKey .cmdEvtPtr 0 0 0, 1),
      (regKey .cmdEvtStat 0 0 0, 2 ^ 25)] }, []⟩

theorem strayBank_fits : Fits .scheduleSlotBoundary strayBank := ⟨by decide, by decide⟩

/-- The device meets what every step keeps. -/
theorem strayBank_inv : Inv strayBank := by
  unfold Inv Tidy Rising
  decide

theorem strayBank_on : schedOn strayBank.dev = true := by decide

/-- The record of the slot that begins is dropped, and its count adds 1 to the TICKS that were read for the slot's end. -/
theorem strayBank_after : Completes .scheduleSlotBoundary strayBank fun t => t.sched.slotEnd = 0 ∧ slotTicks t t.sched.slot = 1 :=
  ⟨_, rfl, by decide +kernel⟩

/-- Refutes O48: that after SCHEDULE_SLOT_BOUNDARY the new slot ends TICKS of its entry after the tick is claimed of every active bank, and fails on one
that is neither 0 nor 1 (it lacks the hypothesis that the bank is one of R468's two; Inv does not speak of it). On `strayBank`, which meets what every step
keeps (strayBank_inv), entry 3 of the active bank is CMD_EVT_STAT (noSuchBank_entry); the record of the slot that begins is dropped, and counting it turns
the entry's TICKS from 0, by which the slot ends, to 1. -/
theorem not_swapsRebuildsAndSchedule : ¬ Obligations.SwapsRebuildsAndSchedule := by
  intro h
  obtain ⟨-, -, -, -, -, -, slotEnds, -⟩ := h
  obtain ⟨t, ⟨-, -, ends, -⟩, read, ticks⟩ := (slotEnds strayBank strayBank_fits strayBank_on rfl (by decide) nofun).meet strayBank_after
  rw [read, ticks] at ends
  exact absurd ends (by decide)

end Sys2Proof.Machine
end

section
/-!
SUPPORT. What holds of every command, and of the device right after reset (chapters 19 and 95): how a step takes the front of the queue, what becomes
of the queue and of a command whose operands do not fit, and the values that empty tables give.
-/

namespace Sys2Proof.Machine

/-! ### Every command (log 7) -/

/-- Settles O1: the command at the front of the queue is taken by the second branch of step. -/
theorem stepRunsCommand : Obligations.StepRunsCommand := fun _ _ => rfl

/-- Operands that lie outside their fields are refused before anything else. -/
theorem runOk_illFormed {dies : List Nat} {f : Dev → Res} {s : State} : runOk false dies f s = .refused .illFormed := rfl

/-- A die the part does not have is refused before the effect. -/
theorem runOk_absentUnit {dies : List Nat} {f : Dev → Res} {s : State} (h : ∃ x ∈ dies, s.dev.part.dies ≤ x) :
    runOk true dies f s = .refused .absentUnit := by
  have absent : (dies.all fun x => decide (x < s.dev.part.dies)) = false := by
    obtain ⟨x, mem, le⟩ := h
    exact List.all_eq_false.2 ⟨x, mem, by simpa using le⟩
  simp [runOk, absent]

/-- Settles O4: every command runs by runOk (exec_runOk), which tests its operands, then its dies, and puts the queue back. -/
theorem commandsAndQueue : Obligations.CommandsAndQueue := by
  refine ⟨fun i s t answer => ?_, fun i s bad => ?_, fun i s good absent => ?_⟩
  all_goals obtain ⟨f, run⟩ := exec_runOk i s
  · exact runOk_pending (run.symm.trans answer)
  · rw [run, bad, runOk_illFormed]
  · rw [run, good, runOk_absentUnit absent]

/-! ### Reset (R631) -/

/-- The tables are empty at reset, and the part is the one of eight dies (log 3). -/
theorem inv_reset : Inv State.reset := by
  unfold Inv Tidy Rising
  decide

/-- Settles O58: every table is empty at reset, so that each read gives its default, and a register its reset value. -/
theorem resetState : Obligations.ResetState := by
  refine ⟨inv_reset, rfl, by decide, fun _ => rfl, fun _ _ => ⟨rfl, rfl, rfl, rfl⟩, fun _ => rfl, fun _ => rfl, fun _ _ => ?_,
    fun _ _ _ _ => ⟨rfl, rfl⟩, fun _ _ => rfl⟩
  show fld (regReset ⟨8, true⟩ .abwTemp) 15 8 = 95
  decide

end Sys2Proof.Machine
end

section
/-!
SUPPORT. The I3C target (chapter 18, Target): what a common command code leaves, once for all of them, and once for those that only a target with a
dynamic address answers.
-/

namespace Sys2Proof.Machine

/-! ### Events -/

section
variable {i : Instr} {row : String} {s : State} {P : Dev → Prop} {c : Dev → Bool} {g : Dev → Dev}

/-- An event that can come about completes with its effect. -/
theorem completes_whenOn (h : exec i s = runCmd i (fun d => whenOn row (c d) (g d)) s) (fits : Fits i s) (can : c s.dev = true) (p : P (g s.dev)) :
    Completes i s P := completes_of h fits (by rw [can, whenOn_true]) p

/-- The same for a command that names the test of its operands and its dies itself. -/
theorem completes_runOk {wf : Bool} {dies : List Nat} {f : Dev → Res} {t : Dev} (h : exec i s = runOk wf dies f s) (hw : wf = true)
    (hd : ∀ x ∈ dies, x < s.dev.part.dies) (e : f s.dev = .next t) (p : P t) : Completes i s P := ⟨t, h.trans (runOk_next hw hd e), p⟩

end

/-! ### Common command codes (R614) -/

section
variable {i : Instr} {row : String} {s : State} {P : Dev → Prop}

/-- The target as it has seen the broadcast address. -/
def Dev.heardAll (d : Dev) : Dev := { d with mgmt := { d.mgmt with broadcast := true } }

/-- A common command code has its effect on a target that is up and not in SMBus mode, which has seen the broadcast address. -/
theorem completes_cccCmd {f : Dev → Dev} (h : exec i s = runCmd i (cccCmd row f) s) (fits : Fits i s) (up : stationUp s.dev = true)
    (i3c : s.dev.mgmt.smbus = false) (p : P (f s.dev.heardAll)) : Completes i s P :=
  completes_of h fits (by simp [cccCmd, up, i3c, Dev.heardAll]) p

/-- A code that asks for n bytes: a target without a dynamic address answers nothing, and one with it answers them and is as it was. -/
theorem completes_cccGet {n : Nat} (f : Dev → List Byte × Dev) (h : exec i s = runCmd i (cccGet row f) s) (fits : Fits i s)
    (up : stationUp s.dev = true) (i3c : s.dev.mgmt.smbus = false) (keeps : ∀ d, (f d).2 = { d with free := (f d).2.free })
    (len : ∀ d, (f d).1.length = n) (mwl : i = .getmwl → (f s.dev.heardAll).1 = (leBytes 2 s.dev.mgmt.mwl.toNat).reverse)
    (mrl : i = .getmrl → (f s.dev.heardAll).1 = (leBytes 2 s.dev.mgmt.mrl.toNat).reverse)
    (pid : i = .getpid → ((f s.dev.heardAll).1.getD 1 0).getLsbD 0 = true) :
    (s.dev.mgmt.dyn = none → Completes i s fun t => t = { s.dev with mgmt := { s.dev.mgmt with broadcast := true } }) ∧
      (s.dev.mgmt.dyn ≠ none → Completes i s fun t => { t with mgmt := s.dev.mgmt, free := s.dev.free } = s.dev ∧ t.mgmt = { s.dev.mgmt with
          broadcast := true
          status := 0
          data := t.mgmt.data } ∧ t.mgmt.data.length = n ∧ (i = .getmwl → t.mgmt.data = (leBytes 2 s.dev.mgmt.mwl.toNat).reverse) ∧
        (i = .getmrl → t.mgmt.data = (leBytes 2 s.dev.mgmt.mrl.toNat).reverse) ∧ (i = .getpid → (t.mgmt.data.getD 1 0).getLsbD 0 = true)) := by
  refine ⟨fun dyn => completes_cccCmd h fits up i3c ?_, fun dyn => completes_cccCmd h fits up i3c ?_⟩
  · simp [Dev.heardAll, dyn]
  · have answers : s.dev.heardAll.mgmt.dyn.isNone = false := Option.isNone_eq_false_iff.2 (Option.isSome_iff_ne_none.2 dyn)
    simp only [answers, Bool.false_eq_true, if_false]
    rw [keeps]
    exact ⟨by rw [Dev.heardAll, answer], rfl, len _, mwl, mrl, pid⟩

end

/-- Free bytes are as many as are asked for. -/
@[simp] theorem freeBytes_length (n : Nat) (d : Dev) : (freeBytes n d).1.length = n := by
  induction n generalizing d with
  | zero => rfl
  | succ n ih => simp [freeBytes, ih]

/-- Free bytes change the count of free values alone. -/
theorem freeBytes_free (n : Nat) (d : Dev) : (freeBytes n d).2 = { d with free := (freeBytes n d).2.free } := by
  induction n generalizing d with
  | zero => rfl
  | succ n ih => exact ih (freeNext d)

/-- Bit 32 of the provisional ID is set (R614): it is bit 0 of the second byte sent. -/
theorem pid_bit (v : BitVec 48) : ((leBytes 6 (setFld v 32 32 1).toNat).reverse.getD 1 0).getLsbD 0 = true := by
  have byte : (leBytes 6 (setFld v 32 32 1).toNat).reverse.getD 1 0 = BitVec.ofNat 8 ((setFld v 32 32 1).toNat / 2 ^ 32) := by
    simp [leBytes, Nat.div_div_eq_div_mul]
  have bit : (setFld v 32 32 1).getLsbD 32 = true := by
    rw [getLsbD_setFld (by decide)]
    simp
  rw [byte, BitVec.getLsbD_ofNat, Nat.testBit_div_two_pow, BitVec.testBit_toNat, bit]
  rfl

/-- A static address fits in its seven bits, so that it is one number or none. -/
theorem eq_staticAddr_iff (x : BitVec 7) (d : Dev) : x = staticAddr d ↔ x.toNat = 0x58 + d.pkg.maddr.toNat := by
  have fits : (staticAddr d).toNat = 0x58 + d.pkg.maddr.toNat := by
    have := d.pkg.maddr.isLt
    simp [staticAddr]
    omega
  rw [← fits]
  exact BitVec.toNat_inj.symm

/-- Settles O54: each code has its effect on the target after the broadcast address; a code that asks is answered where there is a dynamic address. -/
theorem i3cTarget : Obligations.I3cTarget := by
  refine ⟨fun e s fits up i3c => completes_cccCmd rfl fits up i3c ?_, fun e s fits up i3c => completes_cccCmd rfl fits up i3c ?_,
    fun s fits up i3c => completes_cccCmd rfl fits up i3c rfl, fun a s fits up i3c => completes_cccCmd rfl fits up i3c ?_,
    fun x a s fits up i3c => completes_cccCmd rfl fits up i3c ?_, fun v s fits up i3c => completes_cccCmd rfl fits up i3c rfl,
    fun v s fits up i3c => completes_cccCmd rfl fits up i3c rfl, fun i n s named fits up i3c => ?_, fun s fits up unseen => ?_⟩
  case refine_1 => cases e.getLsbD 0 <;> simp [Dev.heardAll]
  case refine_2 => cases e.getLsbD 0 <;> simp [Dev.heardAll]
  case refine_3 => cases h : s.dev.mgmt.dyn <;> simp [Dev.heardAll, h]
  case refine_4 =>
    have same : x = staticAddr s.dev.heardAll ↔ x.toNat = 0x58 + s.dev.pkg.maddr.toNat := eq_staticAddr_iff x s.dev.heardAll
    cases h : s.dev.mgmt.dyn <;> by_cases own : x.toNat = 0x58 + s.dev.pkg.maddr.toNat <;> simp_all [Dev.heardAll]
  case refine_5 =>
    simp only [List.mem_cons, Prod.mk.injEq, List.not_mem_nil, or_false] at named
    rcases named with ⟨rfl, rfl⟩ | ⟨rfl, rfl⟩ | ⟨rfl, rfl⟩ | ⟨rfl, rfl⟩ | ⟨rfl, rfl⟩ | ⟨rfl, rfl⟩
    · exact completes_cccGet (fun d => ((leBytes 6 (setFld (Config.provisionalId (Config.serial 0)) 32 32 1).toNat).reverse, d)) rfl fits up i3c
        (fun _ => rfl) (fun _ => by simp) (by simp) (by simp) fun _ => pid_bit _
    · exact completes_cccGet (fun d => ([Config.busCharacteristics], d)) rfl fits up i3c (fun _ => rfl) (fun _ => rfl) (by simp) (by simp) (by simp)
    · exact completes_cccGet (fun d => ([Config.deviceCharacteristics], d)) rfl fits up i3c (fun _ => rfl) (fun _ => rfl) (by simp) (by simp) (by simp)
    · exact completes_cccGet (freeBytes 2) rfl fits up i3c (freeBytes_free 2) (freeBytes_length 2) (by simp) (by simp) (by simp)
    · exact completes_cccGet (fun d => ((leBytes 2 d.mgmt.mwl.toNat).reverse, d)) rfl fits up i3c (fun _ => rfl) (fun _ => rfl) (fun _ => rfl) (by simp)
        (by simp)
    · exact completes_cccGet (fun d => ((leBytes 2 d.mgmt.mrl.toNat).reverse, d)) rfl fits up i3c (fun _ => rfl) (fun _ => rfl) (by simp) (fun _ => rfl)
        (by simp)
  case refine_6 =>
    exact completes_whenOn (c := fun d => stationUp d && !d.mgmt.broadcast) (g := fun d => { d with mgmt := { d.mgmt with smbus := true } }) rfl fits
      (by simp [up, unseen]) rfl

end Sys2Proof.Machine
end

section
/-!
SUPPORT. Draws of the vector threads (chapter 16) and the conversions of QNT.CVT (chapter 02, Opcodes): what one thread takes from its source, what all
threads of an instruction take, and the integer conversions.
-/

namespace Sys2Proof.Machine

/-! ### Draws (R555, R556, R561) -/

/-- A vector instruction on a crew runs its lanes and puts the crew back. -/
theorem overLanes_eq {d : Dev} {c : CoreId} {slot : Nat} {k : Crew} (hk : getCrew d c slot = some k) (m : W32) (r : Nat) (f : LaneFn) :
    overLanes d c slot m f (fun k l x => k.setReg l r x) = setCrew (lanesRun m r f k d 32).2 c slot (some (lanesRun m r f k d 32).1) := by
  simp only [overLanes, hk]
  rfl

/-- A vector instruction that may issue runs its lanes, and the crew goes on. -/
theorem vecTo_of {row : String} {c : CoreId} {slot : Nat} {i : Instr} {pred : BitVec 3} {pneg : BitVec 1} {reads : List Nat} {vd : Nat} {d : Dev}
    {k : Crew} (f : LaneFn) (can : CanIssue (.crew c slot) i (vd :: reads) d) (hk : getCrew d c slot = some k) :
    vecTo row c slot i pred pneg reads vd f d =
      .next (stepPc (overLanes d c slot (k.runs pred pneg) f fun k l x => k.setReg l vd x) (.crew c slot)) := by
  rw [vecTo, issueStep_of _ _ can, hk]
  rfl

/-- What a vector instruction leaves of its crew and of its core's sources is what its lanes left. -/
theorem overLanes_left {d : Dev} {c : CoreId} {slot : Nat} {k : Crew} (hk : getCrew d c slot = some k) (m : W32) (r : Nat) (f : LaneFn) :
    let t := stepPc (overLanes d c slot m f fun k l x => k.setReg l r x) (.crew c slot)
    getCrew t c slot = some { (lanesRun m r f k d 32).1 with pc := (lanesRun m r f k d 32).1.pc + 1 } ∧
      (getCore t c).w.rng = (getCore (lanesRun m r f k d 32).2 c).w.rng := by
  intro t
  have stepped : t = setCrew (setCrew (lanesRun m r f k d 32).2 c slot (some (lanesRun m r f k d 32).1)) c slot
      (some { (lanesRun m r f k d 32).1 with pc := (lanesRun m r f k d 32).1.pc + 1 }) := by
    simp only [t, overLanes_eq hk, stepPc, setPc, agentPc, getCrew_setCrew_self, Option.map_some, Option.getD_some]
  exact ⟨by rw [stepped, getCrew_setCrew_self], by rw [stepped, getCore_setCrew, getCore_setCrew]⟩

/-- What a draw returns is the low half of the state exclusive-or its high half (R556). -/
theorem mixOut_eq (s : W64) : mixOut s = s.extractLsb' 0 32 ^^^ s.extractLsb' 32 32 := by
  apply BitVec.eq_of_toNat_eq
  simp [mixOut, BitVec.extractLsb'_toNat]

section
variable {c : CoreId} {slot : Nat}

/-- A draw of a thread on a core with all its lanes, for a part that is not in plumb mode: its own source steps once. -/
theorem drawThread_source {d : Dev} {t : Nat} (plumb : plumbOn d c = false) (lanes : (getCore d c).laneFence = 0) (ht : t < 32) :
    (drawThread d c slot t).1 = mixOut (mixStep (tget 0 (getCore d c).w.rng (32 * (slot % 2) + t))) ∧
      getCore (drawThread d c slot t).2 c = { getCore d c with w := { (getCore d c).w with
        rng := tset 0 (getCore d c).w.rng (32 * (slot % 2) + t) (mixStep (tget 0 (getCore d c).w.rng (32 * (slot % 2) + t))) } } := by
  have own : (32 * (slot % 2) + t) % lanesOf (getCore d c) = 32 * (slot % 2) + t := by
    rw [lanesOf, if_pos lanes]
    omega
  simp [drawThread, plumb, drawSource, own, countDraws]

/-- The threads of a VEC.RAND. -/
def randLane (c : CoreId) (slot : Nat) : LaneFn := fun d _ lane => drawThread d c slot lane

variable (m : W32) (r : Nat) (k : Crew) {d : Dev} (plumb : plumbOn d c = false) (lanes : (getCore d c).laneFence = 0)
include plumb lanes

/-- The threads below lane n of VEC.RAND change the sources of those of them that execute, by one step each, and nothing else of the core. -/
theorem lanesRun_rand (n : Nat) (hn : n ≤ 32) :
    getCore (lanesRun m r (randLane c slot) k d n).2 c = { getCore d c with w := { (getCore d c).w with
        rng := (getCore (lanesRun m r (randLane c slot) k d n).2 c).w.rng } } ∧
      ∀ lane, lane < 32 → tget 0 (getCore (lanesRun m r (randLane c slot) k d n).2 c).w.rng (32 * (slot % 2) + lane) =
        if lane < n ∧ m.getLsbD lane = true then mixStep (tget 0 (getCore d c).w.rng (32 * (slot % 2) + lane))
        else tget 0 (getCore d c).w.rng (32 * (slot % 2) + lane) := by
  induction n with
  | zero => exact ⟨rfl, fun lane _ => by simp [lanesRun]⟩
  | succ n ih =>
    obtain ⟨core, sources⟩ := ih (by omega)
    rw [lanesRun_succ, laneStep]
    split
    case isTrue runs =>
      have plumb' : plumbOn (lanesRun m r (randLane c slot) k d n).2 c = false := by
        rw [plumbOn, core]
        exact plumb
      have lanes' : (getCore (lanesRun m r (randLane c slot) k d n).2 c).laneFence = 0 := by
        rw [core]
        exact lanes
      obtain ⟨-, drawn⟩ := drawThread_source (slot := slot) (t := n) plumb' lanes' (by omega)
      rw [randLane, drawn]
      refine ⟨by rw [core], fun lane hl => ?_⟩
      rw [tget_tset]
      split
      case isTrue same =>
        obtain rfl : lane = n := by omega
        rw [sources lane hl]
        simp [runs]
      case isFalse other =>
        rw [sources lane hl]
        exact if_congr (and_congr_left' (by omega)) rfl rfl
    case isFalse idle =>
      refine ⟨core, fun lane hl => ?_⟩
      rw [sources lane hl]
      by_cases here : lane = n
      · subst here
        simp [idle]
      · exact if_congr (and_congr_left' (by omega)) rfl rfl

end

theorem randLane_quiet {c : CoreId} {b d : Dev} {slot : Nat} {k : Crew} {lane : Nat} (h : UnitQuiet c b d) : UnitQuiet c b (randLane c slot d k lane).2 :=
  drawThread_quiet h

/-! ### QNT.CVT (R109, log 153) -/

theorem cvtLane_quiet {c : CoreId} {b d : Dev} {slot : Nat} {o : QOp} {k : Crew} {lane : Nat} (h : UnitQuiet c b d) :
    UnitQuiet c b (cvtLane c slot o d k lane).2 := by
  unfold cvtLane
  dsimp only
  split
  · rw [apply_ite Prod.snd, ite_self]
    exact h
  · exact modPart_quiet (rndOf_quiet (fun _ e => drawThread_quiet e) h)

/-- Between the integer formats QNT.CVT sign-extends, copies or clamps; an INT32 outside INT8 without SAT is the case left free. -/
theorem cvtLane_int {o : QOp} (src : o.sfmt.toNat = 8 ∨ o.sfmt.toNat = 10) (dst : o.dfmt.toNat = 8 ∨ o.dfmt.toNat = 10) (c : CoreId) (slot : Nat)
    (d : Dev) (k : Crew) (lane : Nat) :
    let x := k.reg lane o.va.toNat
    let v : Int := if o.sfmt.toNat = 8 then (x.setWidth 8).toInt else x.toInt
    ¬(o.dfmt.toNat = 8 ∧ (v < -128 ∨ 127 < v) ∧ o.sat = 0) →
      (cvtLane c slot o d k lane).1 = BitVec.ofInt 32 (if o.dfmt.toNat = 8 then max (-128) (min 127 v) else v) := by
  intro x v held
  have ints : (floatFmt o.sfmt.toNat).isNone = true ∧ (floatFmt o.dfmt.toNat).isNone = true := by
    constructor
    · obtain h | h := src <;> rw [h] <;> rfl
    · obtain h | h := dst <;> rw [h] <;> rfl
  unfold cvtLane
  dsimp only
  rw [if_pos (by simp [ints]), if_neg held]

/-- Settles O27: VEC.RAND by what its threads take from their sources (lanesRun_rand), QNT.CVT by its integer conversions (cvtLane_int). -/
theorem drawsAndConversions : Obligations.DrawsAndConversions := by
  refine ⟨fun c slot o s k fits can hk normal lanes => ?_, fun c slot o s k fits can hk => ?_⟩
  case refine_1 =>
    have plumb : plumbOn s.dev c = false := by
      rw [plumbOn]
      cases part : (getCore s.dev c).w.part with
      | none => rfl
      | some p => exact normal p part
    obtain ⟨writes, -⟩ := overLanes_writes hk (k.runs o.pred o.pneg) o.vd.isLt (f := randLane c slot) fun _ _ h => randLane_quiet h
    obtain ⟨crew, left⟩ := overLanes_left hk (k.runs o.pred o.pneg) o.vd.toNat (randLane c slot)
    refine completes_of rfl fits (vecTo_of (randLane c slot) can hk) ⟨writes, _, crew, fun lane old new hl hold hnew => ?_⟩
    obtain ⟨-, sources⟩ := lanesRun_rand (slot := slot) (k.runs o.pred o.pneg) o.vd.toNat k plumb lanes 32 le_rfl
    obtain ⟨core, before⟩ := lanesRun_rand (slot := slot) (k.runs o.pred o.pneg) o.vd.toNat k plumb lanes lane (by omega)
    have source := sources lane hl
    rw [left, source]
    subst hold hnew
    refine ⟨fun runs => ⟨?_, if_pos ⟨hl, runs⟩⟩, fun idle => if_neg fun ⟨_, runs⟩ => by simp [idle] at runs⟩
    have result := lanesRun_reg (k.runs o.pred o.pneg) o.vd.toNat (randLane c slot) k s.dev o.vd.isLt 32 lane o.vd.toNat o.vd.isLt
    rw [if_pos ⟨hl, runs, rfl⟩] at result
    refine result.trans ?_
    have plumb' : plumbOn (lanesRun (k.runs o.pred o.pneg) o.vd.toNat (randLane c slot) k s.dev lane).2 c = false := by
      rw [plumbOn, core]
      exact plumb
    have lanes' : (getCore (lanesRun (k.runs o.pred o.pneg) o.vd.toNat (randLane c slot) k s.dev lane).2 c).laneFence = 0 := by
      rw [core]
      exact lanes
    rw [randLane, (drawThread_source plumb' lanes' hl).1, before lane hl, if_neg (by omega), mixOut_eq]
    rfl
  case refine_2 =>
    obtain ⟨writes, x, new, results⟩ := overLanes_writes hk (k.runs o.pred o.pneg) o.vd.isLt (f := cvtLane c slot o) fun _ _ h => cvtLane_quiet h
    refine completes_of rfl fits (vecTo_of _ can hk) ⟨writes, x, new, fun lane hl runs => ?_⟩
    obtain ⟨d, result⟩ := results lane hl runs
    rw [result]
    refine ⟨fun src dst => ?_, fun src dst => ?_, fun src dst low high => ?_, fun src dst sat => ?_⟩
    · rw [cvtLane_int (.inl src) (.inr dst) _ _ _ _ _ (by omega), if_pos src, if_neg (by omega)]
      rfl
    · rw [cvtLane_int (.inr src) (.inr dst) _ _ _ _ _ (by omega), if_neg (by omega), if_neg (by omega), BitVec.ofInt_toInt]
    · have held : max (-128) (min 127 (k.reg lane o.va.toNat).toInt) = (k.reg lane o.va.toNat).toInt := by omega
      rw [cvtLane_int (.inr src) (.inl dst) _ _ _ _ _ (by rw [if_neg (by omega)]; omega), if_pos dst, if_neg (by omega), held, BitVec.ofInt_toInt]
    · rw [cvtLane_int (.inr src) (.inl dst) _ _ _ _ _ (by simp [sat]), if_pos dst, if_neg (by omega)]

end Sys2Proof.Machine
end

section
/-!
SUPPORT. Devices on which a claim about media frames or halts fails (chapters 15 and 17): an encoder beyond its frame's last block, and a pipe that codes a
frame of another die's session.
-/

namespace Sys2Proof.Machine

/-! ### O51: an encoder beyond the last block (R542, R545) -/

/-- A frame that has started, of an operation without a descriptor. -/
def startedFrameOf : Frame := ⟨⟨0, 0, 0, 0, 0, 0, 0, []⟩, ⟨0, 0⟩, none, 0, 0, .none, none, false, true, false, false, []⟩

/-- An encoder that has coded one block. -/
def oneBlock : MediaWork := .enc ⟨true, false, [], 0⟩ false ⟨none, 0, 0, 0, 0, false, 0, 0, 1, [], .none⟩

/-- A session of an encoder whose picture is empty and so has no block; its frame has started. -/
def emptyPicture : Sess := { Sess.empty with state := 1, queue := [startedFrameOf] }

/-- The encode pipe of die 0 codes the frame of session 0, and has coded one block of none. -/
def pastTheEnd : State :=
  ⟨{ Dev.reset with
    sess := [(0, emptyPicture)]
    pipes := [(0, { Pipe.empty with coding := some 0, work := some oneBlock, phase := 1 })] }, []⟩

theorem pastTheEnd_fits : Fits (.mediaFrame 0 0) pastTheEnd := ⟨by decide, by decide⟩

/-- The device meets what every step keeps. -/
theorem pastTheEnd_inv : Inv pastTheEnd := by
  unfold Inv Tidy Rising
  decide

theorem pastTheEnd_idle : mediaBusy pastTheEnd.dev 0 startedFrameOf = false := by decide +kernel

/-- The encoder's place is not the frame's end, which is behind it, so that the frame is not coded. -/
theorem pastTheEnd_uncoded : Completes (.mediaFrame 0 0) pastTheEnd fun t => startedFrame t 0 = some startedFrameOf := ⟨_, rfl, by decide +kernel⟩

/-- Refutes O51: that FRAME codes the pipe's frame to its end is claimed of an encoder at any block, and fails on one that stands beyond the last (it lacks
the hypothesis that the work of a pipe has not passed the blocks of its frame; Inv does not speak of it). On `pastTheEnd`, which meets what every step
keeps (pastTheEnd_inv), the encoder has coded one block of a frame that has none; no block is left, and the frame stays uncoded. -/
theorem not_mediaFrames : ¬ Obligations.MediaFrames := by
  intro h
  obtain ⟨-, -, -, -, -, frame, -⟩ := h
  obtain ⟨t, ⟨-, -, y, started, coded, -⟩, uncoded⟩ := (frame 0 0 pastTheEnd 0 startedFrameOf _ pastTheEnd_fits rfl rfl rfl (by decide) pastTheEnd_idle
    rfl).meet pastTheEnd_uncoded
  obtain rfl : startedFrameOf = y := Option.some.inj (uncoded.symm.trans started)
  exact absurd (congrArg Frame.coded coded) (by decide)

/-! ### O52: a pipe at work for another die's session (R527, R588) -/

/-- The encode pipe of die 0, whose cores are fenced, codes the frame of session 0 of die 1. -/
def strayPipe : State :=
  ⟨{ Dev.reset with
    cores := (coresOf 0).map fun c => (ckey c, { Core.idle with fenced := true })
    sess := [(32, emptyPicture)]
    pipes := [(0, { Pipe.empty with coding := some 32, work := some oneBlock, phase := 1 })] }, []⟩

theorem strayPipe_fits : Fits (.haltOnSilence 0) strayPipe := ⟨by decide, by decide⟩

/-- The device meets what every step keeps. -/
theorem strayPipe_inv : Inv strayPipe := by
  unfold Inv Tidy Rising
  decide +kernel

/-- As die 0 halts its pipe stops, and the frame of die 1's session ends as a coded one. -/
theorem strayPipe_ends : Completes (.haltOnSilence 0) strayPipe fun t => (getSess t 32).queue.map Frame.coded = [true] := ⟨_, rfl, by decide +kernel⟩

/-- Refutes O52: that the halt of a die changes no session of another die (HaltedDie) is claimed whatever session a pipe of the die works for, and fails where
it is another die's (it lacks the hypothesis that a pipe's session is one of its own die, R527; Inv does not speak of it). On `strayPipe`, which meets what
every step keeps (strayPipe_inv), the pipe that stops with die 0 codes a frame of die 1's session 0, which the halt ends. -/
theorem not_errorsResetsAndHalts : ¬ Obligations.ErrorsResetsAndHalts := by
  intro h
  obtain ⟨-, -, -, -, -, -, -, -, halt, -⟩ := h
  obtain ⟨t, ⟨-, -, -, -, -, -, -, -, -, sessions⟩, ended⟩ := (halt 0 strayPipe strayPipe_fits (by decide)).meet strayPipe_ends
  rw [sessions 32 (by decide)] at ended
  exact absurd ended (by decide)

end Sys2Proof.Machine
end

section
/-!
SUPPORT. A device on which a claim about collectives fails (chapter 14): a collective under one group whose operation names another.
-/

namespace Sys2Proof.Machine

/-! ### O50: a collective of two groups (R502, R504) -/

/-- An operation of group 1 without a descriptor: it moves no bytes and asks for no status block. -/
def groupOneOp : LinkOp := ⟨⟨0, 0, 0, 0, 1, 0, 0, []⟩, ⟨0, 0⟩, none, 3, 0, 0⟩

/-- The operation as a collective of group 0, beyond its last stage. -/
def twoGroups : Coll := ⟨groupOneOp, 0, 0, 0, 10, true, false, [], none, 0, 0⟩

/-- The member list of group 0, of one member, lies at offset 0 of die 0's HBM. A slice of die 0 is being set up anew. -/
def busyList : State :=
  ⟨{ Dev.reset with
    regs := [(regKey .hbmChan 0 0 0, 1), (regKey .resSliceCfg 0 0 0, 2 ^ 16)]
    groups := [(0, { Group.empty with state := 1, count := 1 })]
    links := [(0, [groupOneOp])]
    colls := [twoGroups] }, []⟩

theorem busyList_fits : Fits (.collectiveTraverse 0 0) busyList := ⟨by decide, by decide⟩

/-- The device meets what every step keeps. -/
theorem busyList_inv : Inv busyList := by
  unfold Inv Tidy Rising
  decide

/-- No extent of the operation itself waits: it has none, and the list of its own group, which has no members, is empty. -/
theorem busyList_idle : collBusy busyList.dev 0 groupOneOp = false := by decide +kernel

/-- The member list of group 0 can be read. -/
theorem busyList_reads : ∃ m, listRead busyList.dev 0 = (m, .none) := ⟨_, Prod.ext rfl (by decide +kernel)⟩

/-- The list of group 0 waits for the slice, so that the operation stays. -/
theorem busyList_stays : Completes (.collectiveTraverse 0 0) busyList fun t => getLinks t 0 = [groupOneOp] := ⟨_, rfl, by decide +kernel⟩

/-- Refutes O50: that COLLECTIVE_TRAVERSE after the last stage completes a collective is claimed whatever group its operation names, and fails where that is
not the group under which it runs (it lacks the hypothesis that the two are one, R504; Inv does not speak of it). On `busyList`, which meets what every step
keeps (busyList_inv), no list of the operation's own group waits, but that of the group under which it runs does, and the operation stays in the engine. -/
theorem not_transfersAndCollectives : ¬ Obligations.TransfersAndCollectives := by
  intro h
  obtain ⟨-, -, -, -, -, -, -, -, -, -, -, traverse, -⟩ := h
  obtain ⟨m, reads⟩ := busyList_reads
  obtain ⟨-, completes⟩ := traverse 0 0 busyList twoGroups busyList_fits rfl (by decide) busyList_idle
  obtain ⟨t, ⟨⟨-, gone, -⟩, -⟩, stays⟩ := (completes m reads (.inl rfl) rfl (by decide)).meet busyList_stays
  have queued : groupOneOp ∈ getLinks t twoGroups.die := by
    show groupOneOp ∈ getLinks t 0
    rw [stays]
    exact List.mem_singleton_self _
  exact gone groupOneOp queued rfl

end Sys2Proof.Machine
end

section
/-!
SUPPORT. The station's management (chapter 18): a request to a target that is addressed, once for every row of R616, and what the station keeps.
-/

namespace Sys2Proof.Machine

/-! ### Requests (R614, R616) -/

/-- The management target as a request reaches it: the first legacy transfer puts it in SMBus mode (R614). -/
def Dev.asked (d : Dev) : Dev := { d with mgmt := { d.mgmt with smbus := d.mgmt.smbus || (d.mgmt.dyn.isNone && !d.mgmt.broadcast) } }

theorem legacyFirst_eq (d : Dev) : legacyFirst d = d.asked := by
  unfold legacyFirst Dev.asked
  cases h : d.mgmt.dyn.isNone && !d.mgmt.broadcast <;> simp

/-- An answer alone changes the management target alone. -/
theorem answer_left (d : Dev) (k : Nat) (b : List Byte) : { answer d.asked k b with mgmt := d.mgmt } = d ∧ (answer d.asked k b).mgmt.status = k :=
  ⟨by rw [answer, Dev.asked], rfl⟩

theorem mgmtHears_of_addressed {d : Dev} (h : Addressed d) : mgmtHears d = true := by
  obtain ⟨up, hears⟩ := h
  rcases hears with h | h | h <;> simp [mgmtHears, stationUp, up, h]

section
variable {i : Instr} {row : String} {ready : Bool} {f : Dev → Dev} {s : State} {P : Dev → Prop}

/-- A request has its effect on a target that is addressed, on a ready package where its row asks for one. -/
theorem completes_mgmtCmd (h : exec i s = runCmd i (mgmtCmd row ready f) s) (fits : Fits i s) (addr : Addressed s.dev)
    (up : ready = true → pkgReady s.dev = true) (p : P (f s.dev.asked)) : Completes i s P := by
  refine completes_of h fits ?_ p
  have ready' : (ready && !pkgReady s.dev.asked) = false := by
    cases ready
    · rfl
    · exact congrArg (! ·) (up rfl)
  simp only [mgmtCmd, mgmtHears_of_addressed addr, whenOn_true, legacyFirst_eq, ready', Bool.false_eq_true, if_false]

/-- Before package ready a request whose row asks for it answers NOT_READY. -/
theorem completes_notReady (h : exec i s = runCmd i (mgmtCmd row true f) s) (fits : Fits i s) (addr : Addressed s.dev)
    (down : pkgReady s.dev = false) :
    Completes i s fun t => { t with mgmt := s.dev.mgmt } = s.dev ∧ t.mgmt.status = 4 ∧ t.mgmt.data = [] := by
  refine completes_of (t := answer s.dev.asked 4 []) h fits ?_ ⟨rfl, rfl, rfl⟩
  have down' : pkgReady s.dev.asked = false := down
  simp only [mgmtCmd, mgmtHears_of_addressed addr, whenOn_true, legacyFirst_eq, down', Bool.not_false, Bool.and_self, if_true]

end

section
variable {s : State}

theorem getIdent_answers (fits : Fits .getIdent s) (addr : Addressed s.dev) :
    Completes .getIdent s fun t => { t with mgmt := s.dev.mgmt } = s.dev ∧ t.mgmt.status = 0 ∧
      t.mgmt.smbus = (s.dev.mgmt.smbus || (s.dev.mgmt.dyn.isNone && !s.dev.mgmt.broadcast)) ∧
      t.mgmt.data = [RegName.abwId, .abwSerial, .abwFeatures, .abwPlumbSig, .abwFw, .abwEnvelope].flatMap fun n => leBytes 8 (regView s.dev n 0 0 0).toNat := by
  refine completes_mgmtCmd rfl fits addr nofun ⟨rfl, rfl, rfl, ?_⟩
  simp only [List.flatMap_cons, List.flatMap_nil]
  rfl

/-- The last byte of two words and a row of bytes that follow each other. -/
theorem getD_afterWords (a b : Nat) (f : Nat → Byte) {die : Nat} (h : die < 8) :
    (leBytes 8 a ++ leBytes 8 b ++ (List.range 8).map f).getD (16 + die) 0 = f die := by
  have words : (leBytes 8 a ++ leBytes 8 b).length = 16 := by simp
  rw [List.getD_eq_getElem?_getD, List.getElem?_append_right (by omega), words, Nat.add_sub_cancel_left]
  simp [h]

theorem getTelemetry_answers (fits : Fits .getTelemetry s) (addr : Addressed s.dev) :
    Completes .getTelemetry s fun t => { t with mgmt := s.dev.mgmt } = s.dev ∧ t.mgmt.status = 0 ∧
      t.mgmt.data.length = 24 ∧ t.mgmt.data.take 8 = leBytes 8 (regView s.dev .abwPower 0 0 0).toNat ∧
      ∀ die, die < s.dev.part.dies → die < 8 → (t.mgmt.data.getD (16 + die) 0).toNat = rfld s.dev .abwTemp die 0 0 7 0 := by
  refine completes_mgmtCmd rfl fits addr nofun ⟨rfl, rfl, ?_, ?_, fun die hd h8 => ?_⟩
  · simp [answer]
  · simp only [answer, List.append_assoc]
    rw [List.take_left' (leBytes_length _ _)]
    rfl
  · have temp : rfld s.dev .abwTemp die 0 0 7 0 < 2 ^ 8 := fld_lt
    have inPart : die < s.dev.asked.part.dies := hd
    simp only [answer, getD_afterWords _ _ _ h8, inPart, if_true, BitVec.toNat_ofNat]
    exact Nat.mod_eq_of_lt temp

/-- Word k of words that follow each other. -/
theorem take_drop_words (g : Nat → List Byte) (len : ∀ x, (g x).length = 8) {n k : Nat} (h : k < n) :
    (((List.range n).flatMap g).drop (8 * k)).take 8 = g k := by
  induction n with
  | zero => omega
  | succ n ih =>
    have total : ((List.range n).flatMap g).length = 8 * n := by simp [List.length_flatMap, len, Nat.mul_comm]
    rw [List.range_succ, List.flatMap_append, List.flatMap_singleton]
    rcases Nat.lt_succ_iff_lt_or_eq.1 h with inside | rfl
    · rw [List.drop_append_of_le_length (by omega), List.take_append_of_le_length (by rw [List.length_drop]; omega), ih inside]
    · rw [List.drop_left' total, List.take_of_length_le (by rw [len])]

theorem getErrors_answers (fits : Fits .getErrors s) (addr : Addressed s.dev) :
    Completes .getErrors s fun t => { t with mgmt := s.dev.mgmt } = s.dev ∧ t.mgmt.status = 0 ∧
      ∀ die, die < s.dev.part.dies → die < 8 → (t.mgmt.data.drop (8 * die)).take 8 = leBytes 8 (regView s.dev .errStat die 0 0).toNat := by
  refine completes_mgmtCmd rfl fits addr nofun ⟨rfl, rfl, fun die hd h8 => ?_⟩
  have inPart : die < s.dev.asked.part.dies := hd
  simp only [answer]
  rw [take_drop_words _ (fun _ => leBytes_length _ _) h8, if_pos inPart]
  rfl

/-! ### Reports (R606 to R609, R616) -/

theorem readReport_answers {off : BitVec 32} {len : BitVec 8} (fits : Fits (.readReport off len) s) (addr : Addressed s.dev)
    (up : pkgReady s.dev = true) (some : s.dev.station.report ≠ []) :
    (len.toNat ≤ 240 → off.toNat + len.toNat ≤ 17504 → Completes (.readReport off len) s fun t => { t with mgmt := s.dev.mgmt } = s.dev ∧ t.mgmt.status = 0 ∧
        t.mgmt.data = (s.dev.station.report.drop off.toNat).take len.toNat) ∧
      (240 < len.toNat ∨ 17504 < off.toNat + len.toNat → Completes (.readReport off len) s fun t => { t with mgmt := s.dev.mgmt } = s.dev ∧ t.mgmt.status = 3) := by
  have kept : s.dev.asked.station.report.isEmpty = false := by simpa [Dev.asked] using some
  refine ⟨fun short inside => completes_mgmtCmd rfl fits addr (fun _ => up) ?_, fun out => completes_mgmtCmd rfl fits addr (fun _ => up) ?_⟩
  · rw [kept, if_neg Bool.false_ne_true, if_neg (by omega)]
    exact ⟨rfl, rfl, rfl⟩
  · rw [kept, if_neg Bool.false_ne_true, if_pos out]
    exact answer_left _ _ _

theorem attest_begins {n : BitVec 256} (fits : Fits (.attest n) s) (addr : Addressed s.dev) (up : pkgReady s.dev = true) :
    (s.dev.station.signing = none → Completes (.attest n) s fun t => { t with mgmt := s.dev.mgmt, station := s.dev.station } = s.dev ∧ t.mgmt.status = 0 ∧
        t.station = { s.dev.station with signing := some ⟨reportBody s.dev (bytes256 n), none⟩ }) ∧
      (s.dev.station.signing ≠ none → Completes (.attest n) s fun t => { t with mgmt := s.dev.mgmt } = s.dev ∧ t.mgmt.status = 1) := by
  refine ⟨fun idle => completes_mgmtCmd rfl fits addr (fun _ => up) ?_, fun busy => completes_mgmtCmd rfl fits addr (fun _ => up) ?_⟩
  · have free : s.dev.asked.station.signing.isSome = false := by rw [Dev.asked, idle]; rfl
    rw [free, if_neg Bool.false_ne_true]
    exact ⟨rfl, rfl, rfl⟩
  · have signs : s.dev.asked.station.signing.isSome = true := Option.isSome_iff_ne_none.2 busy
    rw [signs, if_pos rfl]
    exact answer_left _ _ _

/-- The device with another station and another count of free values. -/
def Dev.signed (d : Dev) (x : Station) (n : Nat) : Dev := { d with station := x, free := n }

section
variable (d : Dev) (x : Station) (n : Nat)

theorem countRefused_signed (p : Place) : countRefused (d.signed x n) p = (countRefused d p).signed x n := by cases p <;> rfl

theorem touchLine_signed (p : Place) (write hold : Bool) : touchLine (d.signed x n) p write hold = (touchLine d p write hold).signed x n := by
  cases p with
  | hbm die chan caddr =>
    have cached : (scratchSlices (d.signed x n) die).contains (homeSlice chan) = (scratchSlices d die).contains (homeSlice chan) := rfl
    have lines : setLines (d.signed x n) die (homeSlice chan) (setIndex caddr) = setLines d die (homeSlice chan) (setIndex caddr) := rfl
    have hold : rfld (d.signed x n) .resHold die 0 0 3 0 = rfld d .resHold die 0 0 3 0 := rfl
    have cache : (d.signed x n).cache = d.cache := rfl
    unfold touchLine
    simp only [cached, lines, hold, cache]
    split
    · rfl
    · split
      · rfl
      · split <;> rfl
  | scratch => rfl
  | reg => rfl
  | store => rfl

theorem clearPoison_signed (p : Place) (k : Nat) : clearPoison (d.signed x n) p k = (clearPoison d p k).signed x n :=
  List.foldl_hom (fun e : Dev => e.signed x n) fun e i => by
    dsimp only
    rw [apply_ite (fun e : Dev => e.signed x n)]
    rfl

theorem devWrite_signed (a : Addr) (b : List Byte) : devWrite (d.signed x n) a b = ((devWrite d a b).1.signed x n, (devWrite d a b).2) := by
  have place : resolve (d.signed x n) a = resolve d a := rfl
  have inside : inRegion (d.signed x n) a b.length = inRegion d a b.length := rfl
  have gone (p : Place) : retired (d.signed x n) a p = retired d a p := by cases p <;> rfl
  unfold devWrite
  rw [place]
  split
  · rfl
  · rfl
  · rw [inside, gone, touchLine_signed, clearPoison_signed, countRefused_signed]
    split
    · rfl
    · split <;> rfl

/-- A write of an extent does not depend on the station or the free values, and leaves them. -/
theorem devWriteAll_signed (a : Addr) (b : List Byte) : devWriteAll (d.signed x n) a b = ((devWriteAll d a b).1.signed x n, (devWriteAll d a b).2) := by
  refine List.foldl_hom (fun r : Dev × Except FaultCode Unit => (r.1.signed x n, r.2)) (init := (d, .ok ())) fun r y => ?_
  obtain ⟨e, _ | ⟨⟩⟩ := r
  · rfl
  · exact devWrite_signed e x n _ _

end

end
end Sys2Proof.Machine
end

section
/-!
SUPPORT. The station's reports, measurements and test state (chapter 18): what reading an extent leaves, and what a request of ABW_REQ or a management
command writes.
-/

namespace Sys2Proof.Machine

/-! ### Fields of one register -/

section
variable {d : Dev} {n m : RegName} {die i j hi lo x p q h l v : Nat}

/-- A field that lies beside the written one is as before. -/
theorem rfld_rset_beside (hl : h < lo ∨ hi < l) (hn : h < 64) : rfld (rset d n die i j hi lo v) n die i j h l = rfld d n die i j h l := by
  rw [rfld, rset, regGet_regSet_self]
  exact fld_congr fun k hk kh => by rw [getLsbD_setFld (by omega), if_neg (by omega)]

/-- A field of another register is as before. -/
theorem rfld_rset_other (ne : regKey n die i j ≠ regKey m x p q) : rfld (rset d m x p q hi lo v) n die i j h l = rfld d n die i j h l :=
  congrArg (fld · h l) (regGet_regSet_other d _ ne)

/-- A written value that fits in its field reads back. -/
theorem rfld_rset_fits (hn : hi < 64) (fits : v < 2 ^ (hi + 1 - lo)) : rfld (rset d n die i j hi lo v) n die i j hi lo = v :=
  (rfld_rset hn).trans (Nat.mod_eq_of_lt fits)

end

/-! ### What reading an extent leaves -/

/-- Registers, cache lines and the counts of accesses alone differ. -/
def ReadOnly (d t : Dev) : Prop := t = { d with regs := t.regs, cache := t.cache, clock := t.clock }

section
variable {d e t : Dev}

theorem ReadOnly.refl (d : Dev) : ReadOnly d d := rfl

theorem ReadOnly.trans (h : ReadOnly d e) (g : ReadOnly e t) : ReadOnly d t := by
  unfold ReadOnly at *
  rw [g, h]

theorem ReadOnly.keeps {α : Type} (h : ReadOnly d t) (f : Dev → α) (all : ∀ d r c k, f { d with regs := r, cache := c, clock := k } = f d) : f t = f d :=
  (congrArg f (show t = { d with regs := t.regs, cache := t.cache, clock := t.clock } from h)).trans (all _ _ _ _)

theorem ReadOnly.mem (h : ReadOnly d t) : MemSame d t := fun k => h.keeps (memByte · k) fun _ _ _ _ => rfl

theorem countRefused_readOnly (d : Dev) (p : Place) : ReadOnly d (countRefused d p) := by
  cases p <;> rfl

theorem touchLine_readOnly (d : Dev) (p : Place) (write hold : Bool) : ReadOnly d (touchLine d p write hold) := by
  unfold touchLine
  split
  · dsimp only
    split
    · rfl
    · split
      · rfl
      · split <;> rfl
  · rfl

theorem devRead_readOnly (d : Dev) (a : Addr) (n : Nat) (hold : Bool) : ReadOnly d (devRead d a n hold).1 := by
  unfold devRead
  split
  · rfl
  · rfl
  · split
    · rfl
    · split
      · exact countRefused_readOnly d _
      · dsimp only
        split <;> exact touchLine_readOnly d _ _ _

/-- Reading an extent changes no memory, station or measurement. -/
theorem devReadAll_readOnly (d : Dev) (a : Addr) (n : Nat) : ReadOnly d (devReadAll d a n).1 := by
  refine List.foldlRecOn (motive := fun r : Dev × Except FaultCode (List Byte) => ReadOnly d r.1) _ _ (.refl d) fun r h x _ => ?_
  obtain ⟨e, f | b⟩ := r
  · exact h
  · have read : ReadOnly d (devRead e x.1 x.2 false).1 := h.trans (devRead_readOnly e _ _ _)
    dsimp only
    split <;> (rename_i eq; rw [eq] at read; exact read)

end

/-! ### Requests of ABW_REQ (R608, R609, R628) -/

section
variable {s : State}

theorem reqEnds_left (d : Dev) (f : FaultCode) :
    { reqEnds d f with regs := d.regs } = d ∧ rfld (reqEnds d f) .abwReqStat 0 0 0 15 8 = f.num % 2 ^ 8 :=
  ⟨rfl, rfld_rset (by decide)⟩

/-- A report that is complete leaves BUSY clear and DONE set. -/
theorem reqDone_stat (d : Dev) (f : FaultCode) : rfld (rset (reqEnds d f) .abwReqStat 0 0 0 0 0 0) .abwReqStat 0 0 0 1 0 = 2 := by
  have bits (v : W64) : fld v 1 0 = fld v 0 0 + 2 * fld v 1 1 := by
    unfold fld
    omega
  have busy : rfld (rset (reqEnds d f) .abwReqStat 0 0 0 0 0 0) .abwReqStat 0 0 0 0 0 = 0 := rfld_rset (by decide)
  have done : rfld (rset (reqEnds d f) .abwReqStat 0 0 0 0 0 0) .abwReqStat 0 0 0 1 1 = 1 := by
    rw [rfld_rset_beside (.inr (by decide)) (by decide), reqEnds, rfld_rset_beside (.inl (by decide)) (by decide), rfld_rset_fits (by decide) (by decide)]
  rw [rfld] at *
  rw [bits, busy, done]

theorem abwReqAttest_begins {a : Addr} {e : Dev} {b : List Byte} (fits : Fits (.abwReqAttest a) s) (up : pkgReady s.dev = true)
    (place : reqAddr s.dev a 17504 = true) (read : devReadAll s.dev (a + 0x40) 32 = (e, .ok b)) :
    (s.dev.station.signing = none → Completes (.abwReqAttest a) s fun t => MemSame s.dev t ∧ rfld t .abwReqStat 0 0 0 1 0 = 1 ∧
        t.station = { s.dev.station with signing := some ⟨reportBody e b, some a⟩ }) ∧
      (s.dev.station.signing ≠ none → Completes (.abwReqAttest a) s fun t => { t with regs := s.dev.regs } = s.dev ∧
        rfld t .abwReqStat 0 0 0 15 8 = FaultCode.slotBusy.num) := by
  have reads : ReadOnly s.dev e := by simpa only [read] using devReadAll_readOnly s.dev (a + 0x40) 32
  refine ⟨fun idle => ?_, fun busy => ?_⟩
  · have station : e.station = s.dev.station := reads.keeps Dev.station fun _ _ _ _ => rfl
    refine completes_of (show execAbwReqAttest a s = _ from rfl) fits
      (t := rset (rset { e with station := { e.station with signing := some ⟨reportBody e b, some a⟩ } } .abwReqStat 0 0 0 1 0 1) .abwReqStat 0 0 0 15 8 0) ?_
      ⟨fun k => reads.mem k, ?_, ?_⟩
    · simp only [up, idle, place, read, Bool.not_true, Bool.false_eq_true, Option.isSome_none, if_false]
    · rw [rfld_rset_beside (.inl (by decide)) (by decide), rfld_rset_fits (by decide) (by decide)]
    · exact congrArg (fun x : Station => { x with signing := some ⟨reportBody e b, some a⟩ }) station
  · refine completes_of (show execAbwReqAttest a s = _ from rfl) fits ?_ (reqEnds_left s.dev .slotBusy)
    simp only [up, Option.isSome_iff_ne_none.2 busy, Bool.not_true, Bool.false_eq_true, if_false, if_true]

theorem getMeas_extendMeas (d : Dev) (k : Nat) (x : List Byte) (i : Nat) :
    getMeas (extendMeas d k x) i = if i = k then sha256 (getMeas d i ++ x) else getMeas d i := by
  rw [getMeas, extendMeas, tget_tset]
  split
  · next h => rw [h]
  · rfl

theorem abwReqExtend_extends {a : Addr} {k : BitVec 3} {e : Dev} {b : List Byte} (fits : Fits (.abwReqExtend a k) s) (up : pkgReady s.dev = true) :
    (4 ≤ k.toNat → reqAddr s.dev a 32 = true → devReadAll s.dev a 32 = (e, .ok b) → Completes (.abwReqExtend a k) s fun t => MemSame s.dev t ∧
        rfld t .abwReqStat 0 0 0 15 8 = 0 ∧ ∀ i, getMeas t i = if i = k.toNat then sha256 (getMeas s.dev i ++ b) else getMeas s.dev i) ∧
      (k.toNat < 4 → Completes (.abwReqExtend a k) s fun t => { t with regs := s.dev.regs } = s.dev ∧
        rfld t .abwReqStat 0 0 0 15 8 = FaultCode.badDescriptor.num) := by
  refine ⟨fun high place read => ?_, fun low => ?_⟩
  · have reads : ReadOnly s.dev e := by simpa only [read] using devReadAll_readOnly s.dev a 32
    have meas : ∀ i, getMeas e i = getMeas s.dev i := fun i => reads.keeps (getMeas · i) fun _ _ _ _ => rfl
    refine completes_of (t := reqEnds (extendMeas e k.toNat b) .none) (show execAbwReqExtend a k s = _ from rfl) fits ?_
      ⟨fun k => reads.mem k, (reqEnds_left (extendMeas e k.toNat b) .none).2, fun i => ?_⟩
    · simp only [up, place, read, Nat.not_lt.2 high, Bool.not_true, Bool.false_eq_true, if_false]
    · rw [← meas i]
      exact getMeas_extendMeas e k.toNat b i
  · refine completes_of (show execAbwReqExtend a k s = _ from rfl) fits ?_ (reqEnds_left s.dev .badDescriptor)
    simp only [up, low, Bool.not_true, Bool.false_eq_true, if_false, if_true]

theorem reportSigned_ends {g : Signing} (fits : Fits .reportSigned s) (signs : s.dev.station.signing = some g) :
    (g.addr = none → Completes .reportSigned s fun t => { t with station := s.dev.station, free := s.dev.free } = s.dev ∧
        ∃ rnd, rnd.length = 16 ∧ t.station = { s.dev.station with
          signing := none
          report := report s.dev g.body rnd }) ∧
      (∀ a, g.addr = some a → Completes .reportSigned s fun t => (∃ rnd, rnd.length = 16 ∧ MemSame (devWriteAll s.dev a (report s.dev g.body rnd)).1 t) ∧
        t.station = { s.dev.station with signing := none } ∧ rfld t .abwReqStat 0 0 0 1 0 = 2) := by
  refine ⟨fun kept => ?_, fun a written => ?_⟩
  · refine completes_of (t := { (freeBytes 16 s.dev).2 with station := { (freeBytes 16 s.dev).2.station with
        signing := none
        report := report s.dev g.body (freeBytes 16 s.dev).1 } })
      (show execReportSigned s = _ from rfl) fits ?_ ⟨?_, (freeBytes 16 s.dev).1, freeBytes_length 16 s.dev, ?_⟩
    · simp only [signs, Option.map_some, kept, orNot_some]
    · rw [freeBytes_free]
    · rw [freeBytes_free]
  · have put := devWriteAll_signed s.dev { s.dev.station with signing := none } (freeBytes 16 s.dev).2.free a (report s.dev g.body (freeBytes 16 s.dev).1)
    have before : { (freeBytes 16 s.dev).2 with station := { (freeBytes 16 s.dev).2.station with signing := none } } =
        s.dev.signed { s.dev.station with signing := none } (freeBytes 16 s.dev).2.free := by
      rw [freeBytes_free]
      rfl
    refine completes_of (show execReportSigned s = _ from rfl) fits (by simp only [signs, Option.map_some, written, orNot_some]; rfl) ?_
    rw [before, put]
    exact ⟨⟨(freeBytes 16 s.dev).1, freeBytes_length 16 s.dev, fun k => rfl⟩, rfl, reqDone_stat _ _⟩

end
end Sys2Proof.Machine
end

section
/-!
SUPPORT. The station's commands that change registers, fuses' counts and the power envelope (chapter 18).
-/

namespace Sys2Proof.Machine

section
variable {s : State}

theorem extend_extends {k : BitVec 8} {x : BitVec 256} (fits : Fits (.extend k x) s) (addr : Addressed s.dev) (up : pkgReady s.dev = true) :
    (4 ≤ k.toNat → k.toNat < 8 → Completes (.extend k x) s fun t => { t with mgmt := s.dev.mgmt, meas := s.dev.meas } = s.dev ∧ t.mgmt.status = 0 ∧
        ∀ i, getMeas t i = if i = k.toNat then sha256 (getMeas s.dev i ++ bytes256 x) else getMeas s.dev i) ∧
      (k.toNat < 4 ∨ 8 ≤ k.toNat → Completes (.extend k x) s fun t => { t with mgmt := s.dev.mgmt } = s.dev ∧ t.mgmt.status = 3) := by
  refine ⟨fun high low => completes_mgmtCmd rfl fits addr (fun _ => up) ?_, fun out => completes_mgmtCmd rfl fits addr (fun _ => up) ?_⟩
  · rw [if_neg (by omega)]
    exact ⟨by rw [extendMeas, answer, Dev.asked], rfl, fun i => getMeas_extendMeas s.dev k.toNat (bytes256 x) i⟩
  · rw [if_pos (by omega)]
    exact answer_left _ _ _

/-- An ignored write, with an answer by a target that an asked device has. -/
theorem ignored_answer {d : Dev} {die a v : Nat} {t : Dev} (h : Ignored die a v d.asked t) (k : Nat) : Ignored die a v d (answer t k []) := by
  obtain ⟨notes, logged⟩ := h
  exact ⟨notes, logged⟩

theorem setLimit_waits {w : BitVec 16} (fits : Fits (.setLimit w) s) (addr : Addressed s.dev) :
    (limitOk s.dev w.toNat = true → Completes (.setLimit w) s fun t => { t with mgmt := s.dev.mgmt, live := s.dev.live } = s.dev ∧ t.mgmt.status = 0 ∧
        t.live = s.dev.live ++ [⟨regKey .abwEnvelope 0 0 0, setFld 0 27 16 0xFFF, setFld 0 27 16 w.toNat, s.dev.tick + 1⟩]) ∧
      (limitOk s.dev w.toNat = false → Completes (.setLimit w) s fun t =>
        Ignored 0 (regAddr .abwEnvelope 0 0 0) (w.toNat * 2 ^ 16) s.dev t ∧ t.mgmt.status = 3) := by
  refine ⟨fun inside => completes_mgmtCmd rfl fits addr nofun ?_, fun out => completes_mgmtCmd rfl fits addr nofun ?_⟩
  · have inside' : limitOk s.dev.asked w.toNat = true := inside
    rw [if_pos inside']
    exact ⟨by rw [pendLive, answer, Dev.asked], rfl, rfl⟩
  · have out' : limitOk s.dev.asked w.toNat = false := out
    rw [out', if_neg Bool.false_ne_true]
    exact ⟨ignored_answer (logIgnoredAt_ignored _ _ _ _ _ _) 3, rfl⟩

/-! ### Test state (R610) -/

theorem getChallenge_answers (fits : Fits .getChallenge s) (addr : Addressed s.dev) :
    Completes .getChallenge s fun t => { t with mgmt := s.dev.mgmt, station := s.dev.station, free := s.dev.free } = s.dev ∧ t.mgmt.status = 0 ∧
      t.mgmt.data.length = 32 ∧ t.station = { s.dev.station with challenge := some t.mgmt.data } := by
  refine completes_mgmtCmd rfl fits addr nofun ?_
  have len := freeBytes_length 32 s.dev.asked
  obtain ⟨n, free⟩ : ∃ n, (freeBytes 32 s.dev.asked).2 = { s.dev.asked with free := n } := ⟨_, freeBytes_free 32 s.dev.asked⟩
  generalize freeBytes 32 s.dev.asked = r at len free
  obtain ⟨b, e⟩ := r
  obtain rfl : e = _ := free
  exact ⟨by rw [answer, Dev.asked], rfl, len, rfl⟩

/-- Bytes stored from place k + o on stand there. -/
theorem tget_stores (b : List Byte) (m : Tbl Byte) (k o i : Nat) (h : i < b.length) :
    tget 0 ((b.zipIdx o).foldl (fun m x => tset 0 m (k + x.2) x.1) m) (k + o + i) = b.getD i 0 := by
  have beyond (b : List Byte) (m : Tbl Byte) (o q : Nat) (h : q < k + o) :
      tget 0 ((b.zipIdx o).foldl (fun m x => tset 0 m (k + x.2) x.1) m) q = tget 0 m q := by
    induction b generalizing m o with
    | nil => rfl
    | cons x b ih => rw [List.zipIdx_cons, List.foldl_cons, ih _ _ (by omega), tget_tset_ne _ _ _ (by omega)]
  induction b generalizing m o i with
  | nil => simp at h
  | cons x b ih =>
    rw [List.zipIdx_cons, List.foldl_cons]
    cases i with
    | zero => rw [beyond _ _ _ _ (by omega), Nat.add_zero, tget_tset_self]; rfl
    | succ i =>
      rw [show k + o + (i + 1) = k + (o + 1) + i by omega, ih _ _ _ (by simpa using h)]
      rfl

theorem unlockData_stores {off : BitVec 16} {b : List (BitVec 8)} (fits : Fits (.unlockData off b) s) (addr : Addressed s.dev) (short : b.length ≤ 238)
    (inside : off.toNat + b.length ≤ unlockSize) :
    Completes (.unlockData off b) s fun t => { t with mgmt := s.dev.mgmt, station := s.dev.station } = s.dev ∧ t.mgmt.status = 0 ∧
      (∀ i, i < b.length → tget 0 t.station.unlock (off.toNat + i) = b.getD i 0) ∧ t.station.challenge = s.dev.station.challenge ∧
      t.station.signing = s.dev.station.signing ∧ t.station.report = s.dev.station.report := by
  refine completes_mgmtCmd rfl fits addr nofun ?_
  rw [if_neg (by omega)]
  exact ⟨by rw [answer, Dev.asked], rfl, fun i h => tget_stores b _ _ 0 i h, rfl, rfl, rfl⟩

/-! ### Every die (R604, R610) -/

/-- Registers alone differ. -/
def RegsOnly (d t : Dev) : Prop := { t with regs := d.regs } = d

theorem RegsOnly.keeps {α : Type} {d t : Dev} (h : RegsOnly d t) (f : Dev → α) (all : ∀ x r, f { x with regs := r } = f x) : f t = f d :=
  (all t d.regs).symm.trans (congrArg f h)

/-- What a write of one field on every die leaves: that field on each die of the part, and nothing else changed but registers. -/
theorem allDies_rset (d : Dev) (n : RegName) (hi lo : Nat) (v : Nat → Nat) (m : Nat) :
    RegsOnly d ((List.range m).foldl (fun e die => rset e n die 0 0 hi lo (v die)) d) ∧
      ∀ die, regGet ((List.range m).foldl (fun e die => rset e n die 0 0 hi lo (v die)) d) n die 0 0 =
      if die < m then setFld (regGet d n die 0 0) hi lo (v die) else regGet d n die 0 0 := by
  induction m with
  | zero => exact ⟨rfl, fun die => by simp⟩
  | succ m ih =>
    obtain ⟨only, each⟩ := ih
    rw [List.range_succ, List.foldl_append, List.foldl_cons, List.foldl_nil]
    refine ⟨?_, fun die => ?_⟩
    · exact only
    · by_cases own : die = m
      · rw [own, rset, regGet_regSet_self, each, if_neg (by omega), if_pos (by omega)]
      · have ne : regKey n die 0 0 ≠ regKey n m 0 0 := by
          unfold regKey
          omega
        rw [rset, regGet_regSet_other _ _ ne, each]
        by_cases lt : die < m
        · rw [if_pos lt, if_pos (by omega)]
        · rw [if_neg lt, if_neg (by omega)]

theorem unlockGo_unasked (fits : Fits .unlockGo s) (addr : Addressed s.dev) (runs : ∀ die, die < s.dev.part.dies → halted s.dev die = false)
    (unasked : s.dev.station.challenge = none) :
    Completes .unlockGo s fun t => { t with mgmt := s.dev.mgmt } = s.dev ∧ t.mgmt.status = 5 := by
  refine completes_mgmtCmd rfl fits addr nofun ?_
  have noneHalted : (List.range s.dev.asked.part.dies).any (halted s.dev.asked) = false :=
    List.any_eq_false.2 fun die h => Bool.eq_false_iff.1 (runs die (List.mem_range.1 h))
  have unasked' : s.dev.asked.station.challenge = none := unasked
  have same : { s.dev.asked with station := { s.dev.asked.station with challenge := none } } = s.dev.asked := by rw [← unasked']
  simp only [noneHalted, unasked', same, Bool.false_eq_true, if_false]
  exact answer_left _ _ _

theorem unlockGo_halted (fits : Fits .unlockGo s) (addr : Addressed s.dev) (stops : ∃ die, die < s.dev.part.dies ∧ halted s.dev die = true) :
    Completes .unlockGo s fun t => { t with mgmt := s.dev.mgmt, station := s.dev.station } = s.dev ∧ t.mgmt.status = 5 ∧
      t.station = { s.dev.station with challenge := none } := by
  refine completes_mgmtCmd rfl fits addr nofun ?_
  obtain ⟨die, inPart, stops⟩ := stops
  have someHalted : (List.range s.dev.asked.part.dies).any (halted s.dev.asked) = true := List.any_eq_true.2 ⟨die, List.mem_range.2 inPart, stops⟩
  simp only [someHalted, if_true]
  exact ⟨by rw [answer, Dev.asked], rfl, rfl⟩

/-- A device whose registers alone differ has extended M2 by a record of its tick. -/
theorem m2Record_left {d e : Dev} (h : RegsOnly d e) (k v : Nat) :
    MemSame d (m2Record e k v) ∧ (m2Record e k v).cores = d.cores ∧ (m2Record e k v).station = d.station ∧
      getMeas (m2Record e k v) 2 = sha256 (getMeas d 2 ++ sha256 (leBytes 4 k ++ leBytes 4 v ++ leBytes 8 d.tick)) := by
  have mem : e.mem = d.mem := h.keeps Dev.mem fun _ _ => rfl
  have meas : getMeas e 2 = getMeas d 2 := h.keeps (getMeas · 2) fun _ _ => rfl
  have tick : e.tick = d.tick := h.keeps Dev.tick fun _ _ => rfl
  refine ⟨fun k => ?_, h.keeps Dev.cores fun _ _ => rfl, h.keeps Dev.station fun _ _ => rfl, ?_⟩
  · rw [memByte, memByte, m2Record, extendMeas, mem]
  · rw [m2Record, getMeas_extendMeas, if_pos rfl, meas, tick]

theorem unlockGo_unlocks {ch b : List Byte} (fits : Fits .unlockGo s) (addr : Addressed s.dev)
    (runs : ∀ die, die < s.dev.part.dies → halted s.dev die = false) (asked : s.dev.station.challenge = some ch)
    (bytes : b = (List.range unlockSize).map (tget 0 s.dev.station.unlock)) (key : sha256 (b.take 32) = bytes256 (Config.dbgPkh 0))
    (signed : slhVerify slh128s (b.take 32) (ch ++ leBytes 8 (Config.serial 0).toNat) (b.drop 32) = true) :
    Completes .unlockGo s fun t => t.mgmt.status = 0 ∧ t.station.challenge = none ∧ MemSame s.dev t ∧ t.cores = s.dev.cores ∧
      (∀ die, die < s.dev.part.dies → rfld t .abwStation die 0 0 3 3 = 1) ∧
      getMeas t 2 = sha256 (getMeas s.dev 2 ++ sha256 (leBytes 4 1 ++ leBytes 4 1 ++ leBytes 8 s.dev.tick)) := by
  refine completes_mgmtCmd rfl fits addr nofun ?_
  have noneHalted : (List.range s.dev.asked.part.dies).any (halted s.dev.asked) = false :=
    List.any_eq_false.2 fun die h => Bool.eq_false_iff.1 (runs die (List.mem_range.1 h))
  have asked' : s.dev.asked.station.challenge = some ch := asked
  have bytes' : (List.range unlockSize).map (tget 0 s.dev.asked.station.unlock) = b := bytes.symm
  simp only [noneHalted, asked', bytes', key, signed, decide_true, Bool.and_self, Bool.false_eq_true, if_false, if_true]
  obtain ⟨only, each⟩ := allDies_rset { s.dev.asked with station := { s.dev.asked.station with challenge := none } } .abwStation 4 3 (fun _ => 3) s.dev.part.dies
  obtain ⟨mem, cores, station, meas⟩ := m2Record_left only 1 1
  refine ⟨rfl, congrArg Station.challenge station, mem, cores, fun die h => ?_, meas⟩
  have reg := each die
  rw [if_pos h] at reg
  refine (congrArg (fld · 3 3) reg).trans ?_
  rw [fld_bit, getLsbD_setFld (by decide)]
  rfl

theorem svnMin_lt (d : Dev) (die : Nat) : svnMin d die < 2 ^ 16 := by
  unfold svnMin
  dsimp only
  split
  · exact (Config.svnMin die).isLt
  · exact fld_lt

/-- The effect of SVN_COMMIT: every die's count rises to V. -/
theorem svnBurn_left (d : Dev) (st : Station) (v : BitVec 16) {t : Dev}
    (h : t = answer (m2Record (allDies { d with station := st } fun e die => rset e .abwFw die 0 0 63 48 (max (svnMin d die) v.toNat)) 2 v.toNat) 0 []) :
    t.mgmt.status = 0 ∧ t.cores = d.cores ∧ MemSame d t ∧ (∀ die, die < d.part.dies → rfld t .abwFw die 0 0 63 48 = max (svnMin d die) v.toNat) ∧
      getMeas t 2 = sha256 (getMeas d 2 ++ sha256 (leBytes 4 2 ++ leBytes 4 v.toNat ++ leBytes 8 d.tick)) := by
  obtain ⟨only, each⟩ := allDies_rset { d with station := st } .abwFw 63 48 (fun die => max (svnMin d die) v.toNat) d.part.dies
  obtain ⟨mem, cores, -, meas⟩ := m2Record_left only 2 v.toNat
  subst h
  refine ⟨rfl, cores, mem, fun die h => ?_, meas⟩
  have reg := each die
  rw [if_pos h] at reg
  refine (congrArg (fld · 63 48) reg).trans ?_
  rw [fld_setFld (by decide), Nat.mod_eq_of_lt (Nat.max_lt.2 ⟨svnMin_lt d die, v.isLt⟩)]

theorem svnCommit_raises {v : BitVec 16} (fits : Fits (.svnCommit v) s) (addr : Addressed s.dev) (up : pkgReady s.dev = true)
    (runs : v.toNat ≤ runningSvn s.dev) (least : svnMin s.dev 0 ≤ v.toNat) :
    Completes (.svnCommit v) s fun t => t.mgmt.status = 0 ∧ t.cores = s.dev.cores ∧ MemSame s.dev t ∧
      (∀ die, die < s.dev.part.dies → rfld t .abwFw die 0 0 63 48 = max (svnMin s.dev die) v.toNat) ∧
      getMeas t 2 = sha256 (getMeas s.dev 2 ++ sha256 (leBytes 4 2 ++ leBytes 4 v.toNat ++ leBytes 8 s.dev.tick)) := by
  refine completes_mgmtCmd rfl fits addr (fun _ => up) ?_
  have inside : ¬(runningSvn s.dev.asked < v.toNat ∨ v.toNat < svnMin s.dev.asked 0) := not_or.2 ⟨Nat.not_lt.2 runs, Nat.not_lt.2 least⟩
  rw [if_neg inside]
  exact svnBurn_left s.dev.asked _ v rfl

theorem svnCommit_refused {v : BitVec 16} (fits : Fits (.svnCommit v) s) (addr : Addressed s.dev) (up : pkgReady s.dev = true)
    (out : runningSvn s.dev < v.toNat ∨ v.toNat < svnMin s.dev 0) :
    Completes (.svnCommit v) s fun t => { t with mgmt := s.dev.mgmt } = s.dev ∧ t.mgmt.status = 5 := by
  refine completes_mgmtCmd rfl fits addr (fun _ => up) ?_
  have out' : runningSvn s.dev.asked < v.toNat ∨ v.toNat < svnMin s.dev.asked 0 := out
  rw [if_pos out']
  exact answer_left _ _ _

end
end Sys2Proof.Machine
end

section
/-!
SUPPORT. The power envelope and the temperatures (chapter 18): the cap on every cube, and what a reading leaves.
-/

namespace Sys2Proof.Machine

section
variable {s : State}

/-- Of the registers, an event can change CMD_EVT_STAT alone, where it is dropped. -/
theorem regGet_raiseEvent (d : Dev) (x : Event) {n : RegName} {die i j : Nat} (h : regKey n die i j ≠ regKey .cmdEvtStat 0 0 0) :
    regGet (raiseEvent d x) n die i j = regGet d n die i j := by
  unfold raiseEvent
  split
  · exact regGet_evtDrop d h
  · rfl

theorem rfld_raiseEvent (d : Dev) (x : Event) {n : RegName} {die i j h l : Nat} (ne : regKey n die i j ≠ regKey .cmdEvtStat 0 0 0) :
    rfld (raiseEvent d x) n die i j h l = rfld d n die i j h l := congrArg (fld · h l) (regGet_raiseEvent d x ne)

/-! ### The cap on every cube (R612) -/

/-- A table whose values are changed by a function, and that drops those left at the default, gives at every key what held of the default and of
every changed value. -/
theorem tget_changed {α : Type} [DecidableEq α] {d : α} {p : α → Prop} (f : α → α) (base : p d) (each : ∀ x, p (f x)) (t : Tbl α) (k : Nat) :
    p (tget d ((t.map fun e => (e.1, f e.2)).filter fun e => decide (e.2 ≠ d)) k) := by
  induction t with
  | nil => exact base
  | cons e t ih =>
    rw [List.map_cons, List.filter_cons]
    split
    · rw [tget]
      split
      · exact base
      · split
        · exact each _
        · exact ih
    · exact ih

theorem level_capped (w : Work) (cap u : Nat) : (tget Cube.empty (w.capped cap).cubes u).level ≤ cap :=
  tget_changed (p := fun x : Cube => x.level ≤ cap) (fun x => { x with level := min x.level cap }) (Nat.zero_le _) (fun _ => Nat.min_le_right _ _) w.cubes u

/-- Every cube of a core and of its saved image stands at or below a level. -/
def Core.Below (cap : Nat) (k : Core) : Prop :=
  (∀ u, (tget Cube.empty k.w.cubes u).level ≤ cap) ∧ ∀ h u, k.held = some h → (tget Cube.empty h.w.cubes u).level ≤ cap

theorem idle_below (cap : Nat) : Core.idle.Below cap := ⟨fun _ => Nat.zero_le _, fun _ _ h => nomatch h⟩

theorem getCore_capCubes (d : Dev) (cap : Nat) (c : CoreId) : (getCore (capCubes d cap) c).Below cap := by
  refine tget_changed (p := Core.Below cap) (fun k => { k with w := k.w.capped cap, held := k.held.map fun h => { h with w := h.w.capped cap } })
    (idle_below cap) (fun k => ⟨level_capped k.w cap, fun h u held => ?_⟩) d.cores (ckey c)
  obtain ⟨g, -, rfl⟩ := Option.map_eq_some_iff.1 held
  exact level_capped g.w cap u

/-- What a comparison leaves that sets CAP_LEVEL to `new`. -/
def PowerCapped (w new : Nat) (d t : Dev) : Prop :=
  rfld t .abwEnvelope 0 0 0 35 32 = new ∧ rfld t .abwPower 0 0 0 15 0 = w ∧ MemSame d t ∧ { t with pkg := d.pkg }.beyondCores = d.beyondCores ∧
    t.pkg = { d.pkg with capTick := some d.tick } ∧ ∀ c, (getCore t c).Below new

/-- The event of a changed level leaves it so. -/
theorem PowerCapped.event {w new : Nat} {d t : Dev} (h : PowerCapped w new d t) (die kind pay : Nat) : PowerCapped w new d (stationEvent t die kind pay) := by
  obtain ⟨level, power, mem, beyond, pkg, below⟩ := h
  have keeps := raiseEvent_beyond t ⟨9, die, srcAbw, kind, BitVec.ofNat 64 t.tick, 0, 0, BitVec.ofNat 64 pay, 0⟩
  refine ⟨(rfld_raiseEvent t _ (by decide)).trans level, (rfld_raiseEvent t _ (by decide)).trans power, fun k => (memSame_of_beyondCores keeps k).trans (mem k),
    ?_, (congrArg Dev.pkg keeps).trans pkg, fun c => ?_⟩
  · exact (congrArg (fun x : Dev => { x with pkg := d.pkg }) keeps).trans beyond
  · rw [getCore, stationEvent, raiseEvent_cores]
    exact below c

/-- The registers of the power after a comparison: the power, its peak, and the count of comparisons below level 8. -/
def Dev.powerRead (d : Dev) (w new : Nat) : Dev :=
  let e := rset (rset d .abwPower 0 0 0 15 0 w) .abwPower 0 0 0 31 16 (max w (rfld d .abwPower 0 0 0 31 16))
  if new < 8 then rcount e .abwPower 0 0 0 63 32 1 else e

theorem powerRead_regsOnly (d : Dev) (w new : Nat) : RegsOnly d (d.powerRead w new) := by
  unfold Dev.powerRead
  dsimp only
  split <;> rfl

theorem powerRead_power (d : Dev) {w : Nat} (new : Nat) (h : w < 2 ^ 16) : rfld (d.powerRead w new) .abwPower 0 0 0 15 0 = w := by
  have two : rfld (rset (rset d .abwPower 0 0 0 15 0 w) .abwPower 0 0 0 31 16 (max w (rfld d .abwPower 0 0 0 31 16))) .abwPower 0 0 0 15 0 = w :=
    (rfld_rset_beside (.inl (by decide)) (by decide)).trans (rfld_rset_fits (by decide) h)
  unfold Dev.powerRead
  dsimp only
  split
  · exact (rfld_rset_beside (.inl (by decide)) (by decide)).trans two
  · exact two

/-- CAP_LEVEL, every cube and the tick of the comparison. -/
def Dev.capped (d : Dev) (new : Nat) : Dev := { capCubes (rset d .abwEnvelope 0 0 0 35 32 new) new with pkg := { d.pkg with capTick := some d.tick } }

theorem capped_powerCapped {w new : Nat} {d e : Dev} (only : RegsOnly d e) (power : rfld e .abwPower 0 0 0 15 0 = w) (fits : new < 2 ^ 4) :
    PowerCapped w new d (e.capped new) := by
  have mem : e.mem = d.mem := only.keeps Dev.mem fun _ _ => rfl
  have pkg : e.pkg = d.pkg := only.keeps Dev.pkg fun _ _ => rfl
  have tick : e.tick = d.tick := only.keeps Dev.tick fun _ _ => rfl
  have level : rfld (rset e .abwEnvelope 0 0 0 35 32 new) .abwEnvelope 0 0 0 35 32 = new := rfld_rset_fits (by decide) fits
  have still : rfld (rset e .abwEnvelope 0 0 0 35 32 new) .abwPower 0 0 0 15 0 = w := (rfld_rset_other (by decide)).trans power
  refine ⟨level, still, fun k => congrArg (tget unlisted · k) mem, ?_, ?_, getCore_capCubes (rset e .abwEnvelope 0 0 0 35 32 new) new⟩
  · rw [← pkg]
    exact only.keeps Dev.beyondCores fun _ _ => rfl
  · rw [Dev.capped, pkg, tick]

theorem powerCap_compares {w : BitVec 16} {limit cap new : Nat} (up : stationUp s.dev = true)
    (due : s.dev.tick % 1024 = 0) (once : s.dev.pkg.capTick ≠ some s.dev.tick) (hl : limit = rfld s.dev .abwEnvelope 0 0 0 27 16)
    (hc : cap = rfld s.dev .abwEnvelope 0 0 0 35 32)
    (hn : new = (if limit < w.toNat then max 2 (cap - 1) else if 100 * w.toNat < 95 * limit then min 8 (cap + 1) else cap)) :
    Completes (.powerCapCompare w) s fun t =>
      rfld t .abwEnvelope 0 0 0 35 32 = new ∧ rfld t .abwPower 0 0 0 15 0 = w.toNat ∧ MemSame s.dev t ∧
        { t with pkg := s.dev.pkg }.beyondCores = s.dev.beyondCores ∧ t.pkg = { s.dev.pkg with capTick := some s.dev.tick } ∧
        (∀ c u, (getCube t c u).level ≤ new) ∧ ∀ c h u, (getCore t c).held = some h → (tget Cube.empty h.w.cubes u).level ≤ new := by
  have small : new < 2 ^ 4 := by
    have : cap < 2 ^ 4 := hc ▸ fld_lt
    rw [hn]
    split
    · omega
    · split <;> omega
  subst hl hc
  have stated {t : Dev} (h : PowerCapped w.toNat new s.dev t) : rfld t .abwEnvelope 0 0 0 35 32 = new ∧ rfld t .abwPower 0 0 0 15 0 = w.toNat ∧ MemSame s.dev t ∧
        { t with pkg := s.dev.pkg }.beyondCores = s.dev.beyondCores ∧ t.pkg = { s.dev.pkg with capTick := some s.dev.tick } ∧
        (∀ c u, (getCube t c u).level ≤ new) ∧ ∀ c h u, (getCore t c).held = some h → (tget Cube.empty h.w.cubes u).level ≤ new := by
    obtain ⟨level, power, mem, beyond, pkg, below⟩ := h
    exact ⟨level, power, mem, beyond, pkg, fun c u => (below c).1 u, fun c h u held => (below c).2 h u held⟩
  have base := capped_powerCapped (powerRead_regsOnly s.dev w.toNat new) (powerRead_power s.dev new w.isLt) small
  refine completes_runOk (t := if new = rfld s.dev .abwEnvelope 0 0 0 35 32 then (s.dev.powerRead w.toNat new).capped new
      else stationEvent ((s.dev.powerRead w.toNat new).capped new) 0 8 new) (show execPowerCapCompare w s = _ from rfl) rfl nofun
    ?_ (stated ?_)
  · have effect : (fun e : Dev => { capCubes (rset e .abwEnvelope 0 0 0 35 32 new) new with pkg := { e.pkg with capTick := some s.dev.tick } })
        (s.dev.powerRead w.toNat new) = (s.dev.powerRead w.toNat new).capped new := by
      have tick : (s.dev.powerRead w.toNat new).tick = s.dev.tick := (powerRead_regsOnly s.dev w.toNat new).keeps Dev.tick fun _ _ => rfl
      rw [Dev.capped, tick]
    rw [← effect]
    simp only [up, due, once, ne_eq, not_false_eq_true, decide_true, Bool.and_self, whenOn_true, ← hn]
    rfl
  · split
    · exact base
    · exact base.event 0 8 new

/-! ### Temperatures (R613, R679) -/

/-- Two registers of a die lie at different keys, whatever their dies, where their offsets differ within one die's space. -/
theorem regKey_die_ne {n m : RegName} (die x : Nat) (h : regOff n 0 0 % 0x20000000 ≠ regOff m 0 0 % 0x20000000) : regKey n die 0 0 ≠ regKey m x 0 0 := by
  unfold regKey
  omega

/-- A reading leaves the hottest of a die and its peak, and changes registers alone. -/
theorem junctionPeak_left (d : Dev) (die : Nat) (hot : BitVec 8) {t : Dev} (h : t = junctionPeak (rset d .abwTemp die 0 0 7 0 hot.toNat) die hot) :
    NotesOnly d t ∧ rfld t .abwTemp die 0 0 7 0 = hot.toNat ∧ rfld t .pkgTrip die 0 0 23 16 =
      if (BitVec.ofNat 8 (rfld d .pkgTrip die 0 0 23 16)).toInt < hot.toInt then hot.toNat else rfld d .pkgTrip die 0 0 23 16 := by
  have apart : regKey .abwTemp die 0 0 ≠ regKey .pkgTrip die 0 0 := regKey_die_ne die die (by decide)
  have peak (h l : Nat) : rfld (rset d .abwTemp die 0 0 7 0 hot.toNat) .pkgTrip die 0 0 h l = rfld d .pkgTrip die 0 0 h l := rfld_rset_other apart.symm
  have read : rfld (rset d .abwTemp die 0 0 7 0 hot.toNat) .abwTemp die 0 0 7 0 = hot.toNat := rfld_rset_fits (by decide) hot.isLt
  unfold junctionPeak sbyte at h
  rw [peak] at h
  split at h <;> (rename_i hotter; subst h)
  · rw [if_pos hotter]
    exact ⟨(regSet_notesOnly d _ _ _ _ _).trans (regSet_notesOnly _ _ _ _ _ _), (rfld_rset_other apart).trans read, rfld_rset_fits (by decide) hot.isLt⟩
  · rw [if_neg hotter]
    exact ⟨regSet_notesOnly d _ _ _ _ _, read, peak 23 16⟩

theorem tempRefresh_reads {die : Nat} {hot : BitVec 8} (fits : Fits (.tempRefresh die hot) s) (up : stationUp s.dev = true) (due : s.dev.tick % 1024 = 0) :
    Completes (.tempRefresh die hot) s fun t => NotesOnly s.dev t ∧ rfld t .abwTemp die 0 0 7 0 = hot.toNat ∧ rfld t .pkgTrip die 0 0 23 16 =
      if (BitVec.ofNat 8 (rfld s.dev .pkgTrip die 0 0 23 16)).toInt < hot.toInt then hot.toNat else rfld s.dev .pkgTrip die 0 0 23 16 := by
  refine completes_runOk (show execTempRefresh die hot s = _ from rfl) fits.1 fits.2
    (by simp only [up, due, decide_true, Bool.and_self, whenOn_true]; rfl) ?_
  obtain ⟨notes, temp, peak⟩ := junctionPeak_left s.dev die hot rfl
  split
  · exact ⟨notes, temp, peak⟩
  · exact ⟨notes.trans (raiseEvent_notesOnly _ _), (rfld_raiseEvent _ _ (regKey_die_ne die 0 (by decide))).trans temp,
      (rfld_raiseEvent _ _ (regKey_die_ne die 0 (by decide))).trans peak⟩

/-! ### Clusters (R611) -/

theorem envelopeClusters_sets {v : BitVec 4} (some : v.toNat ≠ 0) (most : v.toNat ≤ 12)
    (unowned : ∀ die k, die < s.dev.part.dies → v.toNat ≤ k → k < 12 → clusterOwned s.dev die k = false) :
    Completes (.envelopeClustersWrite v) s fun t => { t with regs := s.dev.regs } = s.dev ∧ rfld t .abwEnvelope 0 0 0 3 0 = v.toNat := by
  have taken : ((List.range s.dev.part.dies).any fun die => (List.range 12).any fun k => decide (v.toNat ≤ k) && clusterOwned s.dev die k) = false := by
    refine List.any_eq_false.2 fun die hd => Bool.eq_false_iff.1 (List.any_eq_false.2 fun k hk => ?_)
    by_cases above : v.toNat ≤ k
    · simp [unowned die k (List.mem_range.1 hd) above (List.mem_range.1 hk)]
    · simp [above]
  refine completes_runOk (t := rset s.dev .abwEnvelope 0 0 0 3 0 v.toNat) (show execEnvelopeClustersWrite v s = _ from rfl) rfl nofun ?_
    ⟨rfl, rfld_rset_fits (by decide) v.isLt⟩
  simp only [taken, some, Nat.not_lt.2 most, Bool.false_eq_true, or_self, if_false]

theorem envelopeClusters_ignored {v : BitVec 4}
    (out : v.toNat = 0 ∨ 12 < v.toNat ∨ ∃ die k, die < s.dev.part.dies ∧ v.toNat ≤ k ∧ k < 12 ∧ clusterOwned s.dev die k = true) :
    Completes (.envelopeClustersWrite v) s fun t =>
      Ignored 0 (regAddr .abwEnvelope 0 0 0) v.toNat s.dev t ∧ rfld t .abwEnvelope 0 0 0 3 0 = rfld s.dev .abwEnvelope 0 0 0 3 0 := by
  have refused : v.toNat = 0 ∨ 12 < v.toNat ∨
      ((List.range s.dev.part.dies).any fun die => (List.range 12).any fun k => decide (v.toNat ≤ k) && clusterOwned s.dev die k) = true := by
    refine out.imp_right (Or.imp_right fun ⟨die, k, inPart, above, lt, owned⟩ => ?_)
    exact List.any_eq_true.2 ⟨die, List.mem_range.2 inPart, List.any_eq_true.2 ⟨k, List.mem_range.2 lt, by simp [above, owned]⟩⟩
  refine completes_runOk (t := logIgnoredAt s.dev .abwEnvelope 0 0 0 v.toNat) (show execEnvelopeClustersWrite v s = _ from rfl) rfl nofun ?_
    ⟨logIgnoredAt_ignored _ _ _ _ _ _, congrArg (fld · 3 0) (regGet_logErr _ _ _ (by decide))⟩
  dsimp only
  rw [if_pos refused]

end

/-- Settles O53: each request by its own lemma above. -/
theorem stationAndManagement : Obligations.StationAndManagement := by
  refine ⟨fun s => getIdent_answers, fun s => getTelemetry_answers, fun s => getErrors_answers, ?_, fun off len s => readReport_answers,
    fun n s => attest_begins, fun a s e b => abwReqAttest_begins, fun s g => reportSigned_ends, fun k x s => extend_extends,
    fun a k s e b => abwReqExtend_extends, fun w s => setLimit_waits, fun s => getChallenge_answers, fun off b s => unlockData_stores,
    fun s fits addr runs => ⟨unlockGo_unasked fits addr runs, fun ch b => unlockGo_unlocks fits addr runs⟩, fun s => unlockGo_halted,
    fun v s fits addr up => ⟨svnCommit_raises fits addr up, svnCommit_refused fits addr up⟩, fun w s limit cap new _ => powerCap_compares,
    fun die hot s fits _ => tempRefresh_reads fits, fun v s _ => ⟨envelopeClusters_sets, envelopeClusters_ignored⟩⟩
  rintro i s ⟨a, b, c, d, listed⟩ fits addr down
  simp only [List.mem_cons, List.not_mem_nil, or_false] at listed
  rcases listed with rfl | rfl | rfl | rfl <;> exact completes_notReady rfl fits addr down

end Sys2Proof.Machine
end

section
/-!
SUPPORT. What work in progress leaves alone as it goes on or ends (chapters 09, 14, 15, 17): everything beyond running work, the halts, and the low half
of some registers of ports, mesh links, rails and clocks; where only link engines work, also sequencers, crews and stakes.
-/

namespace Sys2Proof.Machine

/-! ### Registers that work in progress does not write -/

/-- The registers whose low half is followed: the state of mesh links, rails, trips and clocks, and that of ports where only links work. -/
def guardedRegs (links : Bool) : List (RegName × Nat) :=
  ((List.range 4).map fun j => (.uciLink, j)) ++ [(.pkgTrip, 0), (.pkgClk, 0)] ++ ((List.range 10).map fun j => (.pkgRail, j)) ++
    if links then [(.zlkStatus, 0), (.zlkStatus, 1)] else []

/-- The key of a register that is followed, of some die. -/
def Guarded (links : Bool) (key : Nat) : Prop := ∃ x ∈ guardedRegs links, key % 0x20000000 = regOff x.1 0 x.2

theorem guardedRegs_mono {l : Bool} {x : RegName × Nat} (h : x ∈ guardedRegs l) : x ∈ guardedRegs true := by
  cases l
  · exact List.mem_append_left _ (by simpa [guardedRegs] using h)
  · exact h

theorem guarded_reg {l : Bool} {n : RegName} {die j : Nat} (h : (n, j) ∈ guardedRegs l) : Guarded l (regKey n die 0 j) := by
  have small : ∀ x ∈ guardedRegs true, regOff x.1 0 x.2 < 0x20000000 := by decide
  refine ⟨(n, j), h, ?_⟩
  have := small _ (guardedRegs_mono h)
  simp only [regKey] at *
  omega

theorem unguarded_reg {l : Bool} {n : RegName} {die i j : Nat} (h : ∀ x ∈ guardedRegs true, regOff n i j % 0x20000000 ≠ regOff x.1 0 x.2) :
    ¬Guarded l (regKey n die i j) := by
  rintro ⟨x, hx, same⟩
  have := h x (guardedRegs_mono hx)
  simp only [regKey] at same
  omega

theorem unguarded_kvsState {l : Bool} (die j : Nat) (h : j < 4096) : ¬Guarded l (regKey .kvsState die 0 j) := by
  have off : regOff .kvsState 0 j = 306184240 + 64 * j := rfl
  have above : ∀ x ∈ guardedRegs true, 318767104 ≤ regOff x.1 0 x.2 := by decide
  refine unguarded_reg fun x hx => ?_
  have := above x hx
  omega

/-! ### The frame -/

/-- Work went on from b to d: nothing beyond running work has changed, no die has halted, the low half of the registers that are followed is as before, and,
for link work, no sequencer, crew or stake has changed. -/
structure Calm (links : Bool) (b d : Dev) : Prop where
  beyond : d.beyondWork = b.beyondWork
  halts : ∀ x, halted d x = halted b x
  low : ∀ x ∈ guardedRegs links, ∀ die k, k < 32 → (regGet d x.1 die 0 x.2).getLsbD k = (regGet b x.1 die 0 x.2).getLsbD k
  work : links = true → (∀ c, seqOf d c = seqOf b c ∧ (getCore d c).w.crews = (getCore b c).w.crews) ∧ d.stakes = b.stakes

/-- The device that a computation leaves, whether it fails or not, is calm. -/
def CalmEither {α : Type} (l : Bool) (b : Dev) : Except (Dev × α) Dev → Prop
  | .ok d => Calm l b d
  | .error e => Calm l b e.1

namespace Calm
section
variable {α β : Type} {l : Bool} {b d e : Dev}

theorem refl (l : Bool) (d : Dev) : Calm l d d := ⟨rfl, fun _ => rfl, fun _ _ _ _ _ => rfl, fun _ => ⟨fun _ => ⟨rfl, rfl⟩, rfl⟩⟩

theorem linkWork (h : Calm true b d) : LinkWork b d :=
  have ⟨cores, stakes⟩ := h.work rfl
  ⟨cores, stakes, h.beyond⟩

/-- Fields that are neither followed nor beyond running work may change. -/
theorem upd {mem poison cache clock readonly hubs wakes events gap objs chans sched notices meas kvs kvReady kvFlush expWait expQ links lateCmds lateLops xfers
    inbound colls groups ports sent wire sess pipes accepted mgmt serial free} (h : Calm l b d) :
    Calm l b { d with
      mem := mem, poison := poison, cache := cache, clock := clock, readonly := readonly, hubs := hubs, wakes := wakes, events := events, gap := gap
      objs := objs, chans := chans, sched := sched, notices := notices, meas := meas, kvs := kvs, kvReady := kvReady, kvFlush := kvFlush
      expWait := expWait, expQ := expQ, links := links, lateCmds := lateCmds, lateLops := lateLops, xfers := xfers, inbound := inbound, colls := colls
      groups := groups, ports := ports, sent := sent, wire := wire, sess := sess, pipes := pipes, accepted := accepted, mgmt := mgmt, serial := serial
      free := free } := ⟨h.beyond, h.halts, h.low, h.work⟩

theorem ite {c : Prop} [Decidable c] (hd : Calm l b d) (he : Calm l b e) : Calm l b (if c then d else e) := by
  split
  · exact hd
  · exact he

theorem when {c : Prop} [Decidable c] (h : Calm l b d) (f : Calm l b d → Calm l b e) : Calm l b (if c then e else d) := .ite (f h) h

theorem whenNot {c : Prop} [Decidable c] (h : Calm l b d) (f : Calm l b d → Calm l b e) : Calm l b (if c then d else e) := .ite h (f h)

theorem of_fst {p : Dev × α} {a : α} (e : p = (d, a)) (h : Calm l b p.1) : Calm l b d := by rwa [e] at h

theorem foldl {f : Dev → α → Dev} {s : List α} (hf : ∀ d a, Calm l b d → Calm l b (f d a)) (h : Calm l b d) : Calm l b (s.foldl f d) :=
  List.foldlRecOn s f h fun d hd a _ => hf d a hd

theorem foldl_fst {f : Dev × β → α → Dev × β} {s : List α} {r : Dev × β} (hf : ∀ r a, Calm l b r.1 → Calm l b (f r a).1) (h : Calm l b r.1) :
    Calm l b (s.foldl f r).1 := List.foldlRecOn (motive := fun r => Calm l b r.1) s f h fun r hr a _ => hf r a hr

end
end Calm

section
variable {l : Bool} {b d : Dev}

/-- A core changes but for its sequencer and crews, or in any way where not only links work. -/
theorem modCore_calm {c : CoreId} {f : Core → Core} (h : Calm l b d) (hf : l = true → ∀ k, (f k).w.seq = k.w.seq ∧ (f k).w.crews = k.w.crews) :
    Calm l b (modCore d c f) :=
  ⟨h.beyond, h.halts, h.low, fun links => by
    obtain ⟨cores, stakes⟩ := h.work links
    refine ⟨fun x => ?_, stakes⟩
    simp only [seqOf, getCore, modCore, setCore, tget_tset] at cores ⊢
    split
    · next own =>
      obtain ⟨seq, crews⟩ := hf links (tget Core.idle d.cores (ckey c))
      obtain ⟨seq', crews'⟩ := cores x
      rw [own] at seq' crews'
      rw [own]
      exact ⟨seq.trans seq', crews.trans crews'⟩
    · exact cores x⟩

theorem setRing_calm {die : Nat} {r : ErrRing} (h : Calm l b d) (hr : r.halted = (getRing d die).halted) : Calm l b (setRing d die r) :=
  ⟨h.beyond, fun x => by
    rw [← h.halts x]
    simp only [halted, getRing, setRing, tget_tset] at hr ⊢
    split
    · next own => rw [own, hr]
    · rfl, h.low, h.work⟩

theorem regSet_calm {n : RegName} {die i j : Nat} {v : W64} (h : Calm l b d) (free : ¬Guarded l (regKey n die i j)) : Calm l b (regSet d n die i j v) :=
  ⟨h.beyond, h.halts, fun x hx y k lt => by
    have other : regKey x.1 y 0 x.2 ≠ regKey n die i j := fun same => free (same ▸ guarded_reg hx)
    rw [regGet_regSet_other d v other, h.low x hx y k lt], h.work⟩

theorem rset_calm {n : RegName} {die i j hi lo v : Nat} (h : Calm l b d) (free : ¬Guarded l (regKey n die i j)) : Calm l b (rset d n die i j hi lo v) :=
  regSet_calm h free

theorem rcount_calm {n : RegName} {die i j hi lo k : Nat} (h : Calm l b d) (free : ¬Guarded l (regKey n die i j)) : Calm l b (rcount d n die i j hi lo k) :=
  regSet_calm h free

/-- Of the registers that are followed, only that of trips is not zero at reset. -/
theorem guarded_reset {x : RegName × Nat} (hx : x ∈ guardedRegs true) (other : x.1 ≠ .pkgTrip) (p : Part) : regReset p x.1 = 0 := by
  have names : x.1 ∈ [RegName.uciLink, .pkgTrip, .pkgClk, .pkgRail, .zlkStatus] := by
    revert x
    decide
  obtain ⟨n, j⟩ := x
  simp only [List.mem_cons, List.not_mem_nil, or_false] at names
  obtain rfl | rfl | rfl | rfl | rfl := names
  · rfl
  · exact absurd rfl other
  · rfl
  · rfl
  · rfl

/-- A count in the high half of a register that reset leaves zero, wherever it lies but at a trip's. -/
theorem rcount_high_calm {n : RegName} {die i j hi lo k : Nat} (h : Calm l b d) (zero : ∀ p, regReset p n = 0) (high : 32 ≤ lo)
    (apart : ∀ y, regKey .pkgTrip y 0 0 ≠ regKey n die i j) : Calm l b (rcount d n die i j hi lo k) :=
  ⟨h.beyond, h.halts, fun x hx y m lt => by
    rw [← h.low x hx y m lt, rcount, rset]
    by_cases same : regKey x.1 y 0 x.2 = regKey n die i j
    · have trip : x.1 ≠ .pkgTrip := fun own => by
        have first : ∀ x ∈ guardedRegs true, x.1 = .pkgTrip → x.2 = 0 := by decide
        have place := first x (guardedRegs_mono hx) own
        rw [own, place] at same
        exact apart y same
      simp only [regGet, regSet, zero, guarded_reset (guardedRegs_mono hx) trip, same, tget_tset_self]
      rw [getLsbD_setFld (by omega), if_neg (by omega)]
    · rw [regGet_regSet_other _ _ same], h.work⟩

/-- A followed field reads as before. -/
theorem rfld_calm {n : RegName} {die j hi lo : Nat} (h : Calm l b d) (guard : (n, j) ∈ guardedRegs l) (low : hi < 32) :
    rfld d n die 0 j hi lo = rfld b n die 0 j hi lo :=
  fld_congr fun k _ hk => h.low _ guard die k (by omega)

/-! ### Events and records -/

theorem evtStat_unguarded : ¬Guarded l (regKey .cmdEvtStat 0 0 0) := unguarded_reg (by decide)

theorem raiseEvent_calm {e : Event} (h : Calm l b d) : Calm l b (raiseEvent d e) :=
  .ite (.upd (rset_calm (rcount_calm h evtStat_unguarded) evtStat_unguarded)) (.upd h)

theorem takeEntry_calm {die e : Nat} {x : ErrInfo} (h : Calm l b d) : Calm l b (takeEntry d die e x) := raiseEvent_calm (setRing_calm h rfl)

theorem recordErr_calm {die : Nat} {x : ErrInfo} (h : Calm l b d) : Calm l b (recordErr d die x) := by
  dsimp only [recordErr]
  split
  · exact setRing_calm h rfl
  · split
    · exact takeEntry_calm h
    · split
      · exact takeEntry_calm (setRing_calm h rfl)
      · exact setRing_calm h rfl

theorem alertEdge_calm (h : Calm l b d) : Calm l b (alertEdge d) := .ite (.upd h) (.upd h)

theorem logErr_calm {die : Nat} {x : ErrInfo} (h : Calm l b d) : Calm l b (logErr d die x) := alertEdge_calm (recordErr_calm h)

/-! ### Arrivals -/

theorem pushPort_calm {p : Nat} {op : StakeOp} (h : Calm l b d) : Calm l b (pushPort d p op) := .upd h

theorem logRefused_calm {id : StakeId} {unit die : Nat} {f : FaultCode} (h : Calm l b d) : Calm l b (logRefused d id unit die f) :=
  .ite (logErr_calm h) (logErr_calm h)

theorem blockArrive_calm {die : Nat} {id : StakeId} {code : Nat} {parcel : Option Nat} {inc : Nat} {faulted : Bool} (h : Calm l b d) :
    Calm l b (blockArrive d die id code parcel inc faulted) := .ite (logRefused_calm h) (pushPort_calm h)

theorem partTook_calm {c : CoreId} {id : Option (Nat × Nat × Nat)} {f : FaultCode} {empty : Bool} (h : Calm l b d) : Calm l b (partTook d c id f empty) := by
  unfold partTook
  refine modCore_calm h fun _ k => ?_
  dsimp only
  split
  · exact ⟨rfl, rfl⟩
  · exact ⟨rfl, rfl⟩

theorem outDone_calm {die unit : Nat} {c : CoreId} {id : Option (Nat × Nat × Nat)} {op : Op} {f : FaultCode} {empty : Bool} (h : Calm l b d) :
    Calm l b (outDone d die unit c id op f empty) := blockArrive_calm (partTook_calm h)

/-! ### Memory -/

theorem countRefused_calm {p : Place} (h : Calm l b d) : Calm l b (countRefused d p) := by
  cases p with
  | hbm die => exact rcount_calm h (unguarded_reg (by decide))
  | scratch => exact h
  | reg => exact h
  | store => exact h

theorem touchLine_calm {p : Place} {write hold : Bool} (h : Calm l b d) : Calm l b (touchLine d p write hold) := by
  dsimp only [touchLine]
  split
  · refine .ite h (.ite (.upd h) ?_)
    split
    · exact .upd h
    · exact .upd h
  · exact h

theorem clearPoison_calm {p : Place} {n : Nat} (h : Calm l b d) : Calm l b (clearPoison d p n) := .foldl (fun _ _ h1 => .ite (.upd h1) h1) h

theorem memPut_calm {k : Nat} {bs : List Byte} (h : Calm l b d) : Calm l b (memPut d k bs) := .upd h

theorem devRead_calm {a : Addr} {n : Nat} {hold : Bool} (h : Calm l b d) : Calm l b (devRead d a n hold).1 := by
  dsimp only [devRead]
  split
  · exact h
  · exact h
  · split
    · exact h
    · split
      · exact countRefused_calm h
      · split <;> exact touchLine_calm h

theorem devWrite_calm {a : Addr} {bs : List Byte} (h : Calm l b d) : Calm l b (devWrite d a bs).1 := by
  dsimp only [devWrite]
  split
  · exact h
  · exact h
  · split
    · exact h
    · split
      · exact countRefused_calm h
      · exact memPut_calm (clearPoison_calm (touchLine_calm h))

theorem devReadAll_calm {a : Addr} {n : Nat} (h : Calm l b d) : Calm l b (devReadAll d a n).1 := by
  refine .foldl_fst (fun _ _ h1 => ?_) h
  split
  · exact h1
  · split <;> (rename_i e; exact .of_fst e (devRead_calm h1))

theorem devWriteAll_calm {a : Addr} {bs : List Byte} (h : Calm l b d) : Calm l b (devWriteAll d a bs).1 := by
  refine .foldl_fst (fun _ _ h1 => ?_) h
  split
  · exact h1
  · exact devWrite_calm h1

theorem freeBytes_calm {n : Nat} (h : Calm l b d) : Calm l b (freeBytes n d).2 := by
  induction n generalizing d with
  | zero => exact h
  | succ n ih => exact ih (d := freeNext d) (.upd h)

end
end Sys2Proof.Machine
end
section
/-!
SUPPORT. Links, transfers, collectives, command channels and media frames keep to the frame of work in progress (chapters 09, 14, 15).
-/

namespace Sys2Proof.Machine
section
variable {l : Bool} {b d : Dev} {c : CoreId}

/-! ### Where counts lie -/

theorem pkgTrip_ne_cmdChanStat {x die j : Nat} : regKey .pkgTrip x 0 0 ≠ regKey .cmdChanStat die 0 j := by
  have trip : regOff .pkgTrip 0 0 = 369100168 := rfl
  have stat : regOff .cmdChanStat 0 j = 319815704 + 64 * j := rfl
  unfold regKey
  omega

theorem pkgTrip_ne_zlkErr {x die j : Nat} : regKey .pkgTrip x 0 0 ≠ regKey .zlkErr die 0 j := by
  have trip : regOff .pkgTrip 0 0 = 369100168 := rfl
  have errs : regOff .zlkErr 0 j = 335544344 + 4096 * j := rfl
  unfold regKey
  omega

/-! ### Ports and channels -/

theorem nextSerial_calm (h : Calm l b d) : Calm l b (nextSerial d) := .upd h
theorem freeNext_calm (h : Calm l b d) : Calm l b (freeNext d) := .upd h
theorem pushUnit_calm {op : StakeOp} (h : Calm l b d) : Calm l b (pushUnit d c op) := pushPort_calm h
theorem pushBlock_calm {die : Nat} {op : StakeOp} (h : Calm l b d) : Calm l b (pushBlock d die op) :=
  pushPort_calm h
theorem unitArrive_calm {id : StakeId} {code parcel inc : Nat} {faulted : Bool}
    (h : Calm l b d) : Calm l b (unitArrive d c id code parcel inc faulted) :=
  .ite (logRefused_calm h) (pushUnit_calm h)
theorem setPort_calm {die p : Nat} {x : Port} (h : Calm l b d) : Calm l b (setPort d die p x) := .upd h
theorem send_calm {m : LinkMsg} (h : Calm l b d) : Calm l b (send d m) := .upd h
theorem sendMsg_calm {die port : Nat} {m : LinkMsg} (h : Calm l b d) : Calm l b (sendMsg d die port m) :=
  send_calm (setPort_calm h)
theorem makeFlit_calm {p : Port} {data : Option (Nat × Nat × List Byte)} {nak : Bool} {msg : Option W64}
    (h : Calm l b d) : Calm l b (makeFlit d p data nak msg).2 :=
  .ite (freeBytes_calm h) (freeNext_calm (freeBytes_calm h))
theorem putFlit_calm {die port : Nat} {data : Option (Nat × Nat × List Byte)} {nak : Bool} {msg : Option W64}
    (h : Calm l b d) : Calm l b (putFlit d die port data nak msg) :=
  .upd (setPort_calm (makeFlit_calm h))
theorem replayFlits_calm {die port : Nat} (h : Calm l b d) : Calm l b (replayFlits d die port) := .upd h
theorem setChan_calm {ch : Nat} {x : Channel} (h : Calm l b d) : Calm l b (setChan d ch x) := .upd h
theorem modChan_calm {ch : Nat} {f : Channel → Channel} (h : Calm l b d) : Calm l b (modChan d ch f) :=
  setChan_calm h
theorem setCmd_calm {ch : Nat} {x : Cmd} (h : Calm l b d) : Calm l b (setCmd d ch x) := modChan_calm h
theorem sendNotice_calm {ch : Nat} (h : Calm l b d) : Calm l b (sendNotice d ch) :=
  .ite (setChan_calm h) (.upd (setChan_calm h))
theorem recordCmd_calm {ch : Nat} {x : Cmd} {cancelled loadBad : Bool} {own : FaultCode}
    (h : Calm l b d) : Calm l b (recordCmd d ch x cancelled loadBad own) := by
  refine .ite (sendNotice_calm (rcount_high_calm (modChan_calm ?_) (fun _ => rfl) (by omega) fun _ => pkgTrip_ne_cmdChanStat))
    (rcount_high_calm (modChan_calm ?_) (fun _ => rfl) (by omega) fun _ => pkgTrip_ne_cmdChanStat)
  · split
    · exact blockArrive_calm (.ite (raiseEvent_calm (devWriteAll_calm h)) (devWriteAll_calm h))
    · exact .ite (raiseEvent_calm (devWriteAll_calm h)) (devWriteAll_calm h)
  · split
    · exact blockArrive_calm (.ite (raiseEvent_calm (devWriteAll_calm h)) (devWriteAll_calm h))
    · exact .ite (raiseEvent_calm (devWriteAll_calm h)) (devWriteAll_calm h)
theorem completeCmd_calm {ch : Nat} {x : Cmd} {cancelled loadBad : Bool} {own : FaultCode}
    (h : Calm l b d) : Calm l b (completeCmd d ch x cancelled loadBad own) :=
  .ite (.upd (setCmd_calm h)) (recordCmd_calm h)
theorem commandWait_calm {ch num : Nat} {id : StakeId} (h : Calm l b d) : Calm l b (commandWait d ch num id) :=
  nextSerial_calm (pushBlock_calm h)
theorem takePlace_calm {ch : Nat} {c : Cmd} (h : Calm l b d) : Calm l b (takePlace d ch c) :=
  modChan_calm h
theorem settle_calm {ch n : Nat} (h : Calm l b d) : Calm l b (settle d ch n) := by
  induction n generalizing d with
  | zero => exact h
  | succ n ih =>
    dsimp only [settle]
    split
    · exact h
    · refine .ite (.ite (ih (completeCmd_calm (takePlace_calm h))) h) ?_
      split
      · exact .ite h (commandWait_calm (setCmd_calm h))
      · exact h
theorem noteReady_calm {ch : Nat} (h : Calm l b d) : Calm l b (noteReady d ch) := by
  dsimp only [noteReady]
  split
  · exact .ite (setCmd_calm h) h
  · exact h
theorem pump_calm {ch : Nat} (h : Calm l b d) : Calm l b (pump d ch) := noteReady_calm (settle_calm h)
theorem lateCommands_calm (h : Calm l b d) : Calm l b (lateCommands d) := by
  refine .foldl (fun _ _ h1 => pump_calm h1) (.foldl (fun _ _ h1 => ?_) (.upd h))
  split
  · exact h1
  · exact .ite (.upd h1) (recordCmd_calm h1)
theorem checkRun_calm {ch num : Nat} (h : Calm l b d) : Calm l b (checkRun d ch num) := by
  dsimp only [checkRun]
  split
  · exact h
  · exact .ite (pump_calm (completeCmd_calm h)) h
theorem partEnds_calm {p : PartRun} {f : FaultCode} {sub : Nat} (h : Calm l b d) : Calm l b (partEnds d c p f sub) := by
  dsimp only [partEnds]
  split
  · exact h
  · exact checkRun_calm (setCmd_calm h)
theorem setKv_calm {idx : Nat} {k : Kv} (h : Calm l b d) : Calm l b (setKv d idx k) := .upd h
theorem modKv_calm {idx : Nat} {f : Kv → Kv} (h : Calm l b d) : Calm l b (modKv d idx f) := setKv_calm h
theorem kvSet_state_calm {idx hi lo v : Nat} (h : Calm l b d) : Calm l b (kvSet d .kvsState idx hi lo v) :=
  rset_calm h (unguarded_kvsState _ _ (Nat.mod_lt _ (by decide)))
theorem setGroup_calm {g : Nat} {x : Group} (h : Calm l b d) : Calm l b (setGroup d g x) := .upd h
theorem listRead_calm {g : Nat} (h : Calm l b d) : Calm l b (listRead d g).1 := by
  dsimp only [listRead]
  split
  · rename_i e
    exact .of_fst e (devReadAll_calm h)
  · rename_i e
    exact .of_fst e (devReadAll_calm h)
theorem setXfer_calm {x : Xfer} (h : Calm l b d) : Calm l b (setXfer d x) := .upd h
theorem dropXfer_calm {x : Xfer} (h : Calm l b d) : Calm l b (dropXfer d x) := .upd h
theorem assignSlots_calm {die port : Nat} (h : Calm l b d) : Calm l b (assignSlots d die port) := .upd h
theorem chunkBytes_calm {x : Xfer} {c : Nat} (h : Calm l b d) : Calm l b (chunkBytes d x c).1 := by
  dsimp only [chunkBytes]
  split
  · exact devReadAll_calm h
  · exact h
theorem sendChunk_calm {x : Xfer} {c again : Nat} (h : Calm l b d) : Calm l b (sendChunk d x c again).1 := by
  dsimp only [sendChunk]
  split
  · rename_i e
    exact .of_fst e (chunkBytes_calm h)
  · rename_i e
    exact send_calm (setXfer_calm (.of_fst e (chunkBytes_calm h)))
theorem stageChunk_calm {die port v : Nat} {x : Xfer} {c resends : Nat} {o : Outgoing} (h : Calm l b d) :
    CalmEither l b (stageChunk d die port v x c resends o) := by
  unfold stageChunk
  split
  · rename_i e
    exact Calm.of_fst e (sendChunk_calm h)
  · rename_i e
    exact setPort_calm (.of_fst e (sendChunk_calm h))
theorem stageVc_calm {die port v : Nat} (h : Calm l b d) : OnSome (CalmEither l b) (stageVc d die port v) := by
  dsimp only [stageVc]
  split
  · split
    · exact .none
    · split
      · exact .some (setPort_calm (d := d) h)
      · split
        · exact .none
        · exact .some (stageChunk_calm h)
  · split
    · exact .none
    · split
      · split
        · exact .none
        · exact .some (stageChunk_calm h)
      · split
        · exact .some (stageChunk_calm h)
        · exact .some (setPort_calm (d := d) h)
      · exact .none
theorem pageGone_calm {die port : Nat} {e : Nat × Nat} (h : Calm l b d) : Calm l b (pageGone d die port e) :=
  .upd h
theorem flitOut_calm {die port : Nat} (h : Calm l b d) : OnSome (Calm l b) (flitOut d die port) := by
  dsimp only [flitOut]
  split
  · exact .none
  · split
    · exact .some (putFlit_calm (setPort_calm h))
    · refine .some ?_
      split
      · exact pageGone_calm (putFlit_calm (setPort_calm h))
      · exact putFlit_calm (setPort_calm h)
    · exact .none
theorem pumpSend_calm {die port n : Nat} (h : Calm l b d) : Calm l b (pumpSend die port n d).1 := by
  induction n generalizing d with
  | zero => exact h
  | succ n ih =>
    have staged : OnSome (CalmEither l b) ((List.range 8).findSome? fun v => stageVc d die port v) := .findSome? fun _ => stageVc_calm h
    dsimp only [pumpSend]
    split
    · exact h
    · split
      · rename_i e
        exact ih (staged _ e)
      · rename_i e
        exact staged _ e
      · split
        · rename_i e
          exact ih (flitOut_calm h _ e)
        · exact h
theorem setLinks_calm {die : Nat} {q : List LinkOp} (h : Calm l b d) : Calm l b (setLinks d die q) := .upd h
theorem finishLop_calm {die : Nat} {x : LinkOp} {s : LinkStatus} {empty : Bool} (h : Calm l b d) : Calm l b (finishLop d die x s empty) :=
  .ite (outDone_calm (setLinks_calm h)) (.ite (.upd (setLinks_calm h)) (outDone_calm (devWriteAll_calm (setLinks_calm h))))
theorem lateBlocks_calm (h : Calm l b d) : Calm l b (lateBlocks d) :=
  .foldl (fun _ _ h1 => .ite (.upd h1) (outDone_calm (devWriteAll_calm h1))) (.upd h)
theorem countFailed_calm {die : Nat} {f : FaultCode} (h : Calm l b d) : Calm l b (countFailed d die f) :=
  .ite (rcount_calm h (unguarded_reg (by decide))) h
theorem exportFail_calm {idx : Nat} (h : Calm l b d) : Calm l b (exportFail d idx) :=
  .ite h (.upd (modKv_calm (logErr_calm (kvSet_state_calm h))))
theorem endPut_calm {x : Xfer} {f : FaultCode} {cause : Nat} {first : Option Nat} (h : Calm l b d) : Calm l b (endPut d x f cause first) := by
  dsimp only [endPut]
  split
  · exact dropXfer_calm h
  · exact finishLop_calm (countFailed_calm (.ite (logErr_calm (dropXfer_calm h)) (dropXfer_calm h)))
theorem setColl_calm {c : Coll} (h : Calm l b d) : Calm l b (setColl d c) := .upd h
theorem abortMember_calm {c : Coll} {i : Nat} (h : Calm l b d) : Calm l b (abortMember d c i) :=
  .ite h (.ite (sendMsg_calm h) h)
theorem collFail_calm {c : Coll} {f : FaultCode} {cause member : Nat} {first : Option Nat}
    (h : Calm l b d) : Calm l b (collFail d c f cause member first) :=
  finishLop_calm (countFailed_calm (.ite (logErr_calm (.upd h)) (.foldl (fun _ _ h1 => abortMember_calm h1) (logErr_calm (.upd h)))))
theorem collDone_calm {c : Coll} (h : Calm l b d) : Calm l b (collDone d c) :=
  finishLop_calm (setGroup_calm (.upd h))
theorem collUnread_calm {c : Coll} {f : FaultCode} (h : Calm l b d) : Calm l b (collUnread d c f) :=
  collFail_calm h
theorem collTry_calm {c : Coll} (h : Calm l b d) : Calm l b (collTry d c) := by
  refine .ite h ?_
  split
  · rename_i e
    exact .when (.of_fst e (listRead_calm h)) collDone_calm
  · rename_i e2
    exact collUnread_calm (.of_fst e2 (listRead_calm h))
theorem failXfer_calm {x : Xfer} {f : FaultCode} {cause : Nat} {first : Option Nat} (h : Calm l b d) : Calm l b (failXfer d x f cause first) := by
  dsimp only [failXfer]
  split
  · exact endPut_calm h
  · split
    · exact collFail_calm h
    · exact dropXfer_calm h
  · exact exportFail_calm h
theorem pumpPort_calm {die port n : Nat} (h : Calm l b d) : Calm l b (pumpPort die port n d) := by
  induction n generalizing d with
  | zero => exact h
  | succ n ih =>
    have sent := pumpSend_calm (die := die) (port := port) (n := pumpFuel d die port) (assignSlots_calm (die := die) (port := port) h)
    dsimp only [pumpPort]
    split
    · rename_i e
      exact .of_fst e sent
    · rename_i e
      exact ih (failXfer_calm (.of_fst e sent))
theorem pumpAll_calm (h : Calm l b d) : Calm l b (pumpAll d) := .foldl (fun _ _ h1 => pumpPort_calm h1) h
theorem collCheck_calm {die g : Nat} (h : Calm l b d) : Calm l b (collCheck d die g) := by
  dsimp only [collCheck]
  split
  · exact collTry_calm h
  · exact h
theorem endEarly_calm {die : Nat} {x : LinkOp} {f : FaultCode} {cause member : Nat} (h : Calm l b d) : Calm l b (endEarly d die x f cause member) :=
  finishLop_calm h
theorem failQueued_calm {e : Nat × LinkOp} {f : FaultCode} {cause port member : Nat}
    (h : Calm l b d) : Calm l b (failQueued d e f cause port member) :=
  .ite (endEarly_calm (logErr_calm (countFailed_calm h))) (collFail_calm h)
theorem portLoss_calm {die port : Nat} (h : Calm l b d) : Calm l b (portLoss d die port) :=
  .foldl (fun _ _ h1 => exportFail_calm h1) (.foldl (fun _ _ h1 => failQueued_calm h1) (.foldl (fun _ _ h1 => collFail_calm h1)
    (.foldl (fun _ _ h1 => endPut_calm h1) h)))
theorem resumeTimers_calm {die port : Nat} (h : Calm l b d) : Calm l b (resumeTimers d die port) := by
  dsimp only [resumeTimers]
  split
  · exact h
  · exact setPort_calm (.upd h)
theorem nakChunk_calm {die port : Nat} {w : PutHeader} {chunk reason : Nat} (h : Calm l b d) : Calm l b (nakChunk d die port w chunk reason) :=
  .whenNot (.ite (rcount_high_calm h (fun _ => rfl) (by omega) fun _ => pkgTrip_ne_zlkErr) h) sendMsg_calm
theorem setInbound_calm {x : Inbound} (h : Calm l b d) : Calm l b (setInbound d x) := .upd h
theorem inboundDone_calm {die port g : Nat} {x : Inbound} {chunk : Nat} (h : Calm l b d) :
    Calm l b (inboundDone d die port g x chunk) := by
  refine .ite (sendMsg_calm h) (.ite (sendMsg_calm h) (.ite ?_ (.ite (.ite (nakChunk_calm h) (pushPort_calm (setInbound_calm h)))
    (sendMsg_calm (setInbound_calm h)))))
  dsimp only
  split
  · exact collCheck_calm (setColl_calm (sendMsg_calm (setInbound_calm h)))
  · exact sendMsg_calm (setInbound_calm h)
theorem chunkIn_calm {die port : Nat} {w : PutHeader} {chunk : Nat} {bytes : List Byte} {crc : W32}
    (h : Calm l b d) : Calm l b (chunkIn d die port w chunk bytes crc) := by
  refine .ite (nakChunk_calm h) ?_
  split
  · exact nakChunk_calm h
  · refine .ite (nakChunk_calm h) ?_
    split
    · exact nakChunk_calm h
    · split
      · rename_i e2
        exact nakChunk_calm (.of_fst e2 (devWriteAll_calm h))
      · rename_i e2
        exact .ite (nakChunk_calm (.of_fst e2 (devWriteAll_calm h)))
          (.ite (inboundDone_calm (setInbound_calm (.of_fst e2 (devWriteAll_calm h))))
            (sendMsg_calm (setInbound_calm (.of_fst e2 (devWriteAll_calm h)))))
theorem takeStream_calm {die port v n : Nat} (h : Calm l b d) : Calm l b (takeStream die port v n d) := by
  induction n generalizing d with
  | zero => exact h
  | succ n ih =>
    dsimp only [takeStream]
    split
    · exact h
    · exact ih (setPort_calm (.ite h (setInbound_calm h)))
    · exact .ite h (ih (.ite (nakChunk_calm (setPort_calm h)) (chunkIn_calm (setPort_calm h))))
theorem returnCredits_calm {die port v : Nat} (h : Calm l b d) : Calm l b (returnCredits d die port v) :=
  .ite h (setPort_calm h)
theorem sendCredits_calm {die port : Nat} (h : Calm l b d) : Calm l b (sendCredits d die port) :=
  .ite h (.foldl (fun _ _ h1 => putFlit_calm h1) h)
theorem retryIn_calm {die port : Nat} (h : Calm l b d) : Calm l b (retryIn d die port) :=
  .foldl (fun _ _ h1 => .ite h1 (returnCredits_calm (takeStream_calm h1))) h
theorem resumeWaits_calm (h : Calm l b d) : Calm l b (resumeWaits d) :=
  pumpAll_calm (.foldl (fun _ _ h1 => sendCredits_calm (retryIn_calm h1)) (.foldl (fun _ _ h1 => collCheck_calm h1)
    (lateBlocks_calm (lateCommands_calm h))))
theorem setSess_calm {idx : Nat} {x : Sess} (h : Calm l b d) : Calm l b (setSess d idx x) := .upd h
theorem modFrame_calm {idx num : Nat} {f : Frame → Frame} (h : Calm l b d) : Calm l b (modFrame d idx num f) :=
  setSess_calm h
theorem dropFrame_calm {idx : Nat} {x : Frame} (h : Calm l b d) : Calm l b (dropFrame d idx x) :=
  setSess_calm h
theorem mediaEvent_calm {idx : Nat} {x : Frame} {kind : Nat} (h : Calm l b d) : Calm l b (mediaEvent d idx x kind) :=
  raiseEvent_calm h
theorem frameDone_calm {idx : Nat} {y : Frame} {f : FaultCode} (h : Calm l b d) : Calm l b (frameDone d idx y f) :=
  outDone_calm (dropFrame_calm (.when (.when (.whenNot (.ite (mediaEvent_calm h) h) devWriteAll_calm)
    fun h1 => rcount_calm h1 (unguarded_reg (by decide))) fun h1 => rcount_calm h1 (unguarded_reg (by decide))))
theorem setPipe_calm {die q : Nat} {x : Pipe} (h : Calm l b d) : Calm l b (setPipe d die q x) := .upd h
theorem coded_calm {idx : Nat} {x : Frame} {f : FaultCode} {status : List W64} (h : Calm l b d) : Calm l b (coded d idx x f status) :=
  modFrame_calm h
theorem encodeFault_calm {idx : Nat} {x : Frame} {p : FramePlan} {k : Coder} {f : FaultCode}
    (h : Calm l b d) : Calm l b (encodeFault d idx x p k f) :=
  coded_calm (setSess_calm h)
theorem stopWork_calm {idx : Nat} {w : Option MediaWork} {f : FaultCode} (h : Calm l b d) : Calm l b (stopWork d idx w f) := by
  dsimp only [stopWork]
  split
  · exact .ite h (encodeFault_calm h)
  · exact h
theorem pipeHalt_calm {die q : Nat} (h : Calm l b d) : Calm l b (pipeHalt d die q) := by
  dsimp only [pipeHalt]
  split
  · refine stopWork_calm ?_
    split
    · exact stopWork_calm (setPipe_calm h)
    · exact setPipe_calm h
  · split
    · exact stopWork_calm (setPipe_calm h)
    · exact setPipe_calm h

end
end Sys2Proof.Machine
end
section
/-!
SUPPORT. What stops as a die halts keeps to the frame of work in progress (chapter 17, Halts).
-/

namespace Sys2Proof.Machine
section
variable {b d : Dev} {c : CoreId}

theorem modCore_any_calm {f : Core → Core} (h : Calm false b d) : Calm false b (modCore d c f) := modCore_calm h nofun
theorem modWork_calm {f : Work → Work} (h : Calm false b d) : Calm false b (modWork d c f) := modCore_any_calm h
theorem modSeq_calm {f : Seq → Seq} (h : Calm false b d) : Calm false b (modSeq d c f) := modWork_calm h
theorem modPart_calm {f : PartRun → PartRun} (h : Calm false b d) : Calm false b (modPart d c f) := modWork_calm h
theorem cancelWaits_calm {w : Waiter} (h : Calm false b d) : Calm false b (cancelWaits d w) := ⟨h.beyond, h.halts, h.low, nofun⟩
theorem partDone_calm {f : FaultCode} {sub : Nat} {empty : Bool} (h : Calm false b d) : Calm false b (partDone d c f sub empty) :=
  modPart_calm h
theorem opDoneSub_calm {unit : Nat} {op : Op} {f : FaultCode} {sub : Nat} {empty : Bool}
    (h : Calm false b d) : Calm false b (opDoneSub d c unit op f sub empty) :=
  unitArrive_calm (partDone_calm h)
theorem opDone_calm {unit : Nat} {op : Op} {f : FaultCode} {empty : Bool} (h : Calm false b d) : Calm false b (opDone d c unit op f empty) :=
  opDoneSub_calm h
theorem launchDone_calm {l : Launch} {f : FaultCode} {sub : Nat} (h : Calm false b d) : Calm false b (launchDone d c l f sub) := by
  dsimp only [launchDone]
  split
  · exact .upd h
  · exact unitArrive_calm (partDone_calm h)
theorem setCube_calm {u : Nat} {x : Cube} (h : Calm false b d) : Calm false b (setCube d c u x) := modWork_calm h
theorem setChainQ_calm {q : List Chain} (h : Calm false b d) : Calm false b (setChainQ d c q) := modWork_calm h
theorem setChain_calm {x : Chain} (h : Calm false b d) : Calm false b (setChain d c x) := setChainQ_calm h
theorem popChain_calm {x : Chain} {f : FaultCode} (h : Calm false b d) : Calm false b (popChain d c x f) :=
  opDone_calm (setChainQ_calm h)
theorem cubeArrive_calm {o : RunOp} {id : Nat} {faulted : Bool} (h : Calm false b d) : Calm false b (cubeArrive d c o id faulted) :=
  unitArrive_calm h
theorem faultArrivals_calm {o : RunOp} (h : Calm false b d) : Calm false b (faultArrivals d c o) :=
  .ite (cubeArrive_calm h) (.ite (cubeArrive_calm h) h)
theorem abandonWaits_calm (h : Calm false b d) : Calm false b (abandonWaits d c) :=
  .foldl (fun _ _ h1 => cancelWaits_calm h1) h
theorem fenceCube_calm {hit : Option Nat} {u : Nat} (h : Calm false b d) : Calm false b (fenceCube c hit d u) :=
  .foldl (fun _ _ h1 => opDoneSub_calm h1) (setCube_calm (.foldl (fun _ _ h1 => faultArrivals_calm h1) h))
theorem fenceChains_calm (h : Calm false b d) : Calm false b (fenceChains d c) := by
  unfold fenceChains
  exact modWork_calm (.foldl (fun _ _ h1 => .ite (.ite (setChain_calm h1) h1) (popChain_calm h1)) h)
theorem fenceLaunches_calm (h : Calm false b d) : Calm false b (fenceLaunches d c) :=
  .foldl (fun _ _ h1 => launchDone_calm h1) (modWork_calm h)
theorem fenceQueues_calm (h : Calm false b d) : Calm false b (fenceQueues d c) :=
  .foldl (fun _ _ h1 => opDone_calm h1) (.foldl (fun _ _ h1 => opDone_calm h1) (.foldl (fun _ _ h1 => opDone_calm h1) (modWork_calm h)))
theorem dropHeld_calm {f : FaultCode} (h : Calm false b d) : Calm false b (dropHeld d c f) := by
  dsimp only [dropHeld]
  split
  · exact h
  · split
    · exact partEnds_calm (modCore_any_calm h)
    · exact modCore_any_calm h
theorem fenceCore_calm {cause reason : Nat} {hit : Option Nat} {cube step masks : Nat}
    (h : Calm false b d) : Calm false b (fenceCore d c cause reason hit cube step masks) :=
  .ite h (dropHeld_calm (logErr_calm (fenceLaunches_calm
    (fenceQueues_calm (fenceChains_calm (.foldl (fun _ _ h1 => fenceCube_calm h1)
      (modPart_calm (modSeq_calm (modCore_any_calm (abandonWaits_calm h))))))))))
theorem portDown_calm {die port reason : Nat} (h : Calm false b d) (known : port < 2) : Calm false b (portDown d die port reason) :=
  have free : ¬Guarded false (regKey .zlkStatus die 0 port) := fun ⟨x, hx, same⟩ => by
    have other : ∀ j, j < 2 → ∀ x ∈ guardedRegs false, regOff .zlkStatus 0 j % 0x20000000 ≠ regOff x.1 0 x.2 := by decide
    have := other port known x hx
    simp only [regKey] at same
    omega
  portLoss_calm (logErr_calm (setPort_calm (rset_calm h free)))
theorem endFrame_calm {f : FaultCode} {idx : Nat} {num : Nat} (h : Calm false b d) : Calm false b (endFrame f idx d num) := by
  dsimp only [endFrame]
  split
  · exact frameDone_calm (cancelWaits_calm h)
  · exact h
theorem mediaHalt_calm {die : Nat} (h : Calm false b d) : Calm false b (mediaHalt d die) :=
  .foldl (fun _ _ h1 => .foldl (fun _ _ h2 => endFrame_calm h2) h1) (pipeHalt_calm (pipeHalt_calm h))
theorem haltWork_calm {die : Nat} (h : Calm false b d) : Calm false b (haltWork d die) := by
  unfold haltWork
  have fenced := Calm.foldl (s := coresOf die) (f := fun d c => fenceCore d c 3 7 none 0 0 0) (fun _ _ h1 => fenceCore_calm h1) h
  exact alertEdge_calm (mediaHalt_calm (List.foldlRecOn (motive := Calm false b) _ _ fenced fun _ h1 _ hp =>
    .ite h1 (portDown_calm h1 (List.mem_range.mp hp))))

/-- A FATAL record halts its die, and nothing else of what is followed changes. -/
theorem logFatal_calm (d : Dev) (die src kind : Nat) (detail : List Nat) : Calm false (setHalted d die) (logFatal d die src kind detail) :=
  .whenNot (logErr_calm (.refl _ _)) haltWork_calm

theorem logFatal_halts (d : Dev) (die src kind : Nat) (detail : List Nat) : halted (logFatal d die src kind detail) die = true := by
  rw [(logFatal_calm d die src kind detail).halts]
  exact congrArg ErrRing.halted (tget_tset_self ..)

theorem logFatal_beyond (d : Dev) (die src kind : Nat) (detail : List Nat) : (logFatal d die src kind detail).beyondWork = d.beyondWork :=
  (logFatal_calm d die src kind detail).beyond

theorem rfld_logFatal {n : RegName} {x j hi lo : Nat} (d : Dev) (die src kind : Nat) (detail : List Nat) (guard : (n, j) ∈ guardedRegs false)
    (low : hi < 32) : rfld (logFatal d die src kind detail) n x 0 j hi lo = rfld d n x 0 j hi lo :=
  rfld_calm (b := setHalted d die) (logFatal_calm d die src kind detail) guard low

end
end Sys2Proof.Machine
end
section
/-!
SUPPORT. Folds over dies, rails and TAPs, and tables of which a part is cleared.
-/

namespace Sys2Proof.Machine

/-! ### What a fold does at one element -/

/-- A fold in which one element, which comes once, establishes J from I, and the others keep both. -/
theorem foldl_at {σ α ι : Type} {f : σ → α → σ} {I J : σ → Prop} {key : α → ι} {l : List α} {x : α} (hx : x ∈ l) (once : (l.map key).Nodup)
    (keep : ∀ d, ∀ y ∈ l, key y ≠ key x → I d → I (f d y)) (own : ∀ d, I d → J (f d x))
    (kept : ∀ d, ∀ y ∈ l, key y ≠ key x → J d → J (f d y)) {d : σ}
    (h : I d) : J (l.foldl f d) := by
  induction l generalizing d with
  | nil => exact absurd hx (by simp)
  | cons a l ih =>
    obtain ⟨fresh, once⟩ := List.nodup_cons.mp once
    rw [List.foldl_cons]
    by_cases same : x = a
    · subst same
      refine List.foldlRecOn (motive := J) l f (own d h) fun d hd y hy => ?_
      exact kept d y (List.mem_cons_of_mem _ hy) (fun e => fresh (e ▸ List.mem_map_of_mem hy)) hd
    · have there : x ∈ l := (List.mem_cons.mp hx).resolve_left same
      refine ih there once (fun d y hy => keep d y (List.mem_cons_of_mem _ hy)) (fun d y hy => kept d y (List.mem_cons_of_mem _ hy)) (keep d a ?_ ?_ h)
      · exact List.mem_cons_self
      · exact fun e => fresh (e ▸ List.mem_map_of_mem there)

/-- The same over the dies of a part. -/
theorem foldl_range_at {σ : Type} {f : σ → Nat → σ} {I J : σ → Prop} {n x : Nat} (hx : x < n)
    (keep : ∀ d y, y ≠ x → I d → I (f d y)) (own : ∀ d, I d → J (f d x)) (kept : ∀ d y, y ≠ x → J d → J (f d y)) {d : σ} (h : I d) :
    J ((List.range n).foldl f d) :=
  foldl_at (key := id) (List.mem_range.mpr hx) (by simpa using List.nodup_range) (fun d y _ => keep d y) own (fun d y _ => kept d y) h

/-! ### Tables -/

/-- A table of which the entries of some keys are kept. -/
theorem tget_filter_key {α : Type} (d : α) {t : Tbl α} (h : Rising t) (q : Nat → Bool) (k : Nat) :
    tget d (t.filter fun p => q p.1) k = if q k = true then tget d t k else d := by
  induction t with
  | nil => simp [tget]
  | cons p t ih =>
    obtain ⟨j, w⟩ := p
    obtain ⟨above, rest⟩ := rising_cons.mp h
    have past (lt : k < j) (u : Tbl α) (hu : ∀ p ∈ u, j < p.1) : tget d u k = d := by
      cases u with
      | nil => rfl
      | cons p u =>
        have := hu p List.mem_cons_self
        exact tget_of_lt_head d p.2 u (by omega)
    simp only [tget]
    by_cases kept : q j = true
    · rw [List.filter_cons_of_pos (p := fun p : Nat × α => q p.1) (a := (j, w)) kept, tget]
      split
      · simp
      · split
        · next own => rw [own, if_pos kept]
        · exact ih rest
    · rw [List.filter_cons_of_neg (p := fun p : Nat × α => q p.1) (a := (j, w)) kept, ih rest]
      by_cases lt : k < j
      · rw [if_pos lt, past lt t above]
      · rw [if_neg lt]
        by_cases own : k = j
        · rw [own, if_neg kept, if_neg kept]
        · rw [if_neg own]

theorem rising_of_twf {α : Type} [DecidableEq α] {d : α} {t : Tbl α} (h : twf d t = true) : Rising t := by
  induction t with
  | nil => simp [Rising]
  | cons p t ih =>
    obtain ⟨-, above, rest⟩ := twf_cons.mp h
    exact rising_cons.mpr ⟨above, ih rest⟩

/-! ### Registers of several dies -/

theorem RegsOnly.trans {d e t : Dev} (h : RegsOnly d e) (g : RegsOnly e t) : RegsOnly d t := by
  have same := congrArg (fun x : Dev => { x with regs := d.regs }) g
  exact Eq.trans same h

/-- The same register of two dies lies at two keys. -/
theorem regKey_ne_of_die {n : RegName} {x y i j : Nat} (h : x ≠ y) : regKey n x i j ≠ regKey n y i j := by
  unfold regKey
  omega

end Sys2Proof.Machine
end
section
/-!
SUPPORT. Package resets and the SVN counts that they keep (chapter 19, Reset; chapter 18, SVN).
-/

namespace Sys2Proof.Machine

/-! ### Package reset (R631) -/

section
variable {d : Dev} {p r : Bool} {die : Nat}

/-- What reset leaves of a device, before the fuses and the trips are carried over. -/
def Dev.cleared (d : Dev) (p r : Bool) : Dev :=
  { Dev.reset with
    part := d.part
    serial := d.serial
    free := d.free
    pkg := { Dev.reset.pkg with pwrgd := p, reset := r, trips := if p then d.pkg.trips else [] } }

/-- What reset carries over of a die. -/
def carryOver (d : Dev) (p : Bool) (e : Dev) (die : Nat) : Dev :=
  let e := rset e .abwFw die 0 0 63 48 (rfld d .abwFw die 0 0 63 48)
  if p then rset e .pkgTrip die 0 0 1 1 (rfld d .pkgTrip die 0 0 1 1) else e

theorem packageReset_eq : packageReset d p r = (List.range d.part.dies).foldl (carryOver d p) (d.cleared p r) := rfl

theorem carryOver_regsOnly (e : Dev) : RegsOnly e (carryOver d p e die) := by
  cases p
  · rfl
  · rfl

theorem rfld_carryOver_other {n : RegName} {x hi lo : Nat} (e : Dev) (fw : regKey n x 0 0 ≠ regKey .abwFw die 0 0)
    (trip : regKey n x 0 0 ≠ regKey .pkgTrip die 0 0) : rfld (carryOver d p e die) n x 0 0 hi lo = rfld e n x 0 0 hi lo := by
  unfold carryOver
  cases p
  · exact rfld_rset_other fw
  · exact (rfld_rset_other trip).trans (rfld_rset_other fw)

theorem packageReset_regsOnly : RegsOnly (d.cleared p r) (packageReset d p r) := by
  rw [packageReset_eq]
  exact List.foldlRecOn (motive := RegsOnly (d.cleared p r)) _ _ rfl fun e h die _ => h.trans (carryOver_regsOnly e)

theorem rfld_packageReset_svn (h : die < d.part.dies) : rfld (packageReset d p r) .abwFw die 0 0 63 48 = rfld d .abwFw die 0 0 63 48 := by
  have apart (x y : Nat) : regKey .abwFw x 0 0 ≠ regKey .pkgTrip y 0 0 := regKey_die_ne x y (by decide)
  rw [packageReset_eq]
  refine foldl_range_at (I := fun _ => True) (J := fun e => rfld e .abwFw die 0 0 63 48 = rfld d .abwFw die 0 0 63 48) h (fun _ _ _ _ => trivial)
    (fun e _ => ?_) (fun e y ne kept => ?_) trivial
  · have own : rfld (rset e .abwFw die 0 0 63 48 (rfld d .abwFw die 0 0 63 48)) .abwFw die 0 0 63 48 = rfld d .abwFw die 0 0 63 48 :=
      rfld_rset_fits (by omega) fld_lt
    unfold carryOver
    cases p
    · exact own
    · exact (rfld_rset_other (apart die die)).trans own
  · rw [rfld_carryOver_other e (regKey_ne_of_die ne.symm) (apart die y), kept]

theorem rfld_packageReset_trip (h : die < d.part.dies) : rfld (packageReset d true r) .pkgTrip die 0 0 1 1 = rfld d .pkgTrip die 0 0 1 1 := by
  have apart (x y : Nat) : regKey .pkgTrip x 0 0 ≠ regKey .abwFw y 0 0 := regKey_die_ne x y (by decide)
  rw [packageReset_eq]
  refine foldl_range_at (I := fun _ => True) (J := fun e => rfld e .pkgTrip die 0 0 1 1 = rfld d .pkgTrip die 0 0 1 1) h (fun _ _ _ _ => trivial)
    (fun e _ => rfld_rset_fits (by omega) fld_lt) (fun e y ne kept => ?_) trivial
  rw [rfld_carryOver_other e (apart die y) (regKey_ne_of_die ne.symm), kept]

theorem packageReset_after : AfterReset d (packageReset d p r) := by
  have only : RegsOnly (d.cleared p r) (packageReset d p r) := packageReset_regsOnly
  have down : rfld (packageReset d p r) .abwTri 0 0 0 24 24 = 0 := by
    rw [packageReset_eq]
    refine List.foldlRecOn (motive := fun e => rfld e .abwTri 0 0 0 24 24 = 0) _ _ ?_ fun e h die _ => ?_
    · have zero : regReset d.part .abwTri = 0 := rfl
      show fld (regReset d.part .abwTri) 24 24 = 0
      rw [zero]
      rfl
    · exact (rfld_carryOver_other e (regKey_die_ne 0 die (by decide)) (regKey_die_ne 0 die (by decide))).trans h
  exact ⟨only.keeps Dev.part fun _ _ => rfl, only.keeps Dev.tick fun _ _ => rfl, only.keeps Dev.mem fun _ _ => rfl, only.keeps Dev.cores fun _ _ => rfl,
    only.keeps Dev.stakes fun _ _ => rfl, only.keeps Dev.chans fun _ _ => rfl, only.keeps Dev.parcels fun _ _ => rfl, only.keeps Dev.errs fun _ _ => rfl,
    only.keeps Dev.taps fun _ _ => rfl, only.keeps Dev.meas fun _ _ => rfl, only.keeps Dev.boot fun _ _ => rfl,
    only.keeps (·.pkg.released) fun _ _ => rfl, only.keeps (·.pkg.aligned) fun _ _ => rfl, by simp [pkgReady, down]⟩

theorem packageReset_pkg : (packageReset d p r).pkg = (d.cleared p r).pkg := packageReset_regsOnly.keeps Dev.pkg fun _ _ => rfl

end

/-! ### A burn that is cut short (R604) -/

section
variable {d : Dev} {die : Nat}

theorem cutBurn_noBurn (h : NoBurn d) : cutBurn d die = d := by
  unfold cutBurn
  split
  · next b burns => exact if_neg (by have := h b burns; omega)
  · rfl

/-- A cut burn changes the SVN count of its die and takes a free value. -/
theorem cutBurn_left : { cutBurn d die with regs := d.regs, free := d.free } = d := by
  unfold cutBurn
  split
  · split
    · rfl
    · rfl
  · rfl

theorem cutBurn_keeps {α : Type} (f : Dev → α) (all : ∀ x r k, f { x with regs := r, free := k } = f x) : f (cutBurn d die) = f d :=
  (all _ d.regs d.free).symm.trans (congrArg f cutBurn_left)

theorem rfld_cutBurn_other {x : Nat} (h : x ≠ die) : rfld (cutBurn d die) .abwFw x 0 0 63 48 = rfld d .abwFw x 0 0 63 48 := by
  unfold cutBurn
  split
  · split
    · exact rfld_rset_other (regKey_ne_of_die h)
    · rfl
  · rfl

/-- The count is left between the old value and the new one. -/
theorem rfld_cutBurn {b : Burn} (burns : d.station.burn = some b) (up : b.old.getD die 0 ≤ rfld d .abwFw die 0 0 63 48) :
    b.old.getD die 0 ≤ rfld (cutBurn d die) .abwFw die 0 0 63 48 ∧ rfld (cutBurn d die) .abwFw die 0 0 63 48 ≤ rfld d .abwFw die 0 0 63 48 := by
  have small : rfld d .abwFw die 0 0 63 48 < 2 ^ 16 := fld_lt
  simp only [cutBurn, burns]
  split
  · have below : (freeVal d).toNat % max 1 (rfld d .abwFw die 0 0 63 48 + 1 - b.old.getD die 0) < max 1 (rfld d .abwFw die 0 0 63 48 + 1 - b.old.getD die 0) :=
      Nat.mod_lt _ (by omega)
    have fits : b.old.getD die 0 + (freeVal d).toNat % max 1 (rfld d .abwFw die 0 0 63 48 + 1 - b.old.getD die 0) < 2 ^ 16 := by omega
    simp only [freeBelow]
    rw [rfld_rset_fits (by omega) fits]
    omega
  · exact ⟨up, Nat.le_refl _⟩

/-- Every burn of a package is cut short. -/
def Dev.cut (d : Dev) : Dev := allDies d cutBurn

theorem cut_keeps {α : Type} (f : Dev → α) (all : ∀ x r k, f { x with regs := r, free := k } = f x) : f d.cut = f d :=
  List.foldlRecOn (motive := fun e => f e = f d) _ _ rfl fun _ h _ _ => (cutBurn_keeps f all).trans h

theorem cut_noBurn (h : NoBurn d) : d.cut = d :=
  List.foldlRecOn (motive := fun e => e = d) _ _ rfl fun e same die _ => by rw [same, cutBurn_noBurn h]

theorem rfld_cut {b : Burn} (burns : d.station.burn = some b) (h : die < d.part.dies) (up : b.old.getD die 0 ≤ rfld d .abwFw die 0 0 63 48) :
    b.old.getD die 0 ≤ rfld d.cut .abwFw die 0 0 63 48 ∧ rfld d.cut .abwFw die 0 0 63 48 ≤ rfld d .abwFw die 0 0 63 48 := by
  refine foldl_range_at (f := cutBurn) (I := fun e => e.station.burn = some b ∧ rfld e .abwFw die 0 0 63 48 = rfld d .abwFw die 0 0 63 48)
    (J := fun e => b.old.getD die 0 ≤ rfld e .abwFw die 0 0 63 48 ∧ rfld e .abwFw die 0 0 63 48 ≤ rfld d .abwFw die 0 0 63 48)
    h (fun e y ne ⟨here, svn⟩ => ?_) (fun e ⟨here, svn⟩ => ?_) (fun e y ne kept => ?_) ⟨burns, rfl⟩
  · exact ⟨(cutBurn_keeps (·.station.burn) fun _ _ _ => rfl).trans here, (rfld_cutBurn_other ne.symm).trans svn⟩
  · rw [← svn] at up ⊢
    exact rfld_cutBurn here up
  · rwa [rfld_cutBurn_other ne.symm]

end

/-! ### The pins (R629 to R631, R661) -/

section
variable {s : State}

theorem pkgPwrgdDeassert_clears (power : s.dev.pkg.pwrgd = true) : Completes .pkgPwrgdDeassert s fun t =>
    AfterReset s.dev t ∧ (NoBurn s.dev → ∀ die, die < s.dev.part.dies → rfld t .abwFw die 0 0 63 48 = rfld s.dev .abwFw die 0 0 63 48) ∧
      (∀ b die, s.dev.station.burn = some b → die < s.dev.part.dies → b.old.getD die 0 ≤ rfld s.dev .abwFw die 0 0 63 48 →
        b.old.getD die 0 ≤ rfld t .abwFw die 0 0 63 48 ∧ rfld t .abwFw die 0 0 63 48 ≤ rfld s.dev .abwFw die 0 0 63 48) ∧
      t.pkg.pwrgd = false ∧ t.pkg.reset = s.dev.pkg.reset ∧ t.pkg.trips = [] := by
  have part : s.dev.cut.part = s.dev.part := cut_keeps Dev.part fun _ _ _ => rfl
  have reset : s.dev.cut.pkg.reset = s.dev.pkg.reset := cut_keeps (·.pkg.reset) fun _ _ _ => rfl
  refine completes_runOk (t := packageReset s.dev.cut false s.dev.cut.pkg.reset) (show execPkgPwrgdDeassert s = _ from rfl) rfl (by simp)
    (by rw [power, whenOn_true, reset]; rfl) ⟨?_, fun still die h => ?_, fun b die burns h up => ?_, ?_, ?_, ?_⟩
  · obtain ⟨here, rest⟩ := packageReset_after (d := s.dev.cut) (p := false) (r := s.dev.cut.pkg.reset)
    exact ⟨here.trans part, rest⟩
  · rw [cut_noBurn still, rfld_packageReset_svn h]
  · rw [rfld_packageReset_svn (part ▸ h)]
    exact rfld_cut burns h up
  · rw [packageReset_pkg]
    rfl
  · rw [packageReset_pkg]
    exact reset
  · rw [packageReset_pkg]
    rfl

theorem pkgResetAssert_clears (high : s.dev.pkg.reset = false) : Completes .pkgResetAssert s fun t =>
    AfterReset s.dev t ∧ (∀ die, die < s.dev.part.dies → rfld t .abwFw die 0 0 63 48 = rfld s.dev .abwFw die 0 0 63 48 ∧
        (s.dev.pkg.pwrgd = true → rfld t .pkgTrip die 0 0 1 1 = rfld s.dev .pkgTrip die 0 0 1 1)) ∧
      t.pkg.pwrgd = s.dev.pkg.pwrgd ∧ t.pkg.reset = true ∧ (s.dev.pkg.pwrgd = true → t.pkg.trips = s.dev.pkg.trips) := by
  refine completes_runOk (t := packageReset s.dev s.dev.pkg.pwrgd true) (show execPkgResetAssert s = _ from rfl) rfl (by simp)
    (by rw [high]; rfl) ⟨packageReset_after, fun die h => ⟨rfld_packageReset_svn h, fun power => ?_⟩, ?_, ?_, fun power => ?_⟩
  · rw [power]
    exact rfld_packageReset_trip h
  · rw [packageReset_pkg]
    rfl
  · rw [packageReset_pkg]
    rfl
  · rw [packageReset_pkg]
    exact if_pos power

end
end Sys2Proof.Machine
end
section
/-!
SUPPORT. Rails, heat and clocks (chapter 20): what a sample, an undervoltage, a trip and a lost lock leave, by the frame of a halt.
-/

namespace Sys2Proof.Machine

/-! ### A FATAL record -/

theorem logFatal_boot (d : Dev) (die src kind : Nat) (detail : List Nat) : (logFatal d die src kind detail).boot = d.boot :=
  have same := congrArg Dev.boot (logFatal_beyond d die src kind detail)
  same

theorem logFatal_pkg (d : Dev) (die src kind : Nat) (detail : List Nat) : (logFatal d die src kind detail).pkg = d.pkg :=
  have same := congrArg Dev.pkg (logFatal_beyond d die src kind detail)
  same

/-! ### Rails (R666) -/

section
variable {d : Dev} {die : Nat} {x : BitVec 16 × Nat}

/-- A sample is out of range, as the one before it was. -/
def railAgain (d : Dev) (die : Nat) (x : BitVec 16 × Nat) : Bool := railOut x.2 x.1.toNat && tget false (getBoot d die).rails x.2

/-- The readings of one sample. -/
def railStored (die : Nat) (d : Dev) (x : BitVec 16 × Nat) : Dev :=
  let b := getBoot d die
  let e := setBoot d die { b with rails := tset false b.rails x.2 (railOut x.2 x.1.toNat) }
  rset (rset e .pkgRail die 0 x.2 15 0 x.1.toNat) .pkgRail die 0 x.2 47 32 (max (railDev x.2 x.1.toNat) (rfld e .pkgRail die 0 x.2 47 32))

theorem railSample_eq : railSample die d x =
    if railAgain d die x = true then logFatal (rset (railStored die d x) .pkgRail die 0 x.2 16 16 1) die srcAbw 48 [x.2] else railStored die d x := rfl

theorem railSample_boot : (railSample die d x).boot = (railStored die d x).boot := by
  rw [railSample_eq]
  split
  · exact (logFatal_boot ..).trans (rset_boot ..)
  · rfl

theorem getBoot_railSample : (getBoot (railSample die d x) die).rails = tset false (getBoot d die).rails x.2 (railOut x.2 x.1.toNat) := by
  have kept : getBoot (railSample die d x) die = getBoot (railStored die d x) die := congrArg (tget Boot.empty · die) railSample_boot
  have own : getBoot (railStored die d x) die = { getBoot d die with rails := tset false (getBoot d die).rails x.2 (railOut x.2 x.1.toNat) } :=
    tget_tset_self ..
  rw [kept, own]

/-- The low half of a rail's register after a sample: of the same rail or of another. -/
theorem rfld_railSample {k : Nat} (hk : k < 10) :
    rfld (railSample die d x) .pkgRail die 0 k 15 0 = if k = x.2 then x.1.toNat else rfld d .pkgRail die 0 k 15 0 := by
  have guard : (.pkgRail, k) ∈ guardedRegs false := by simp [guardedRegs, hk]
  have stored : rfld (railStored die d x) .pkgRail die 0 k 15 0 = if k = x.2 then x.1.toNat else rfld d .pkgRail die 0 k 15 0 := by
    unfold railStored
    split
    · next own =>
      rw [own, rfld_rset_beside (by omega) (by omega)]
      exact rfld_rset_fits (by omega) x.1.isLt
    · next other =>
      have ne : regKey .pkgRail die 0 k ≠ regKey .pkgRail die 0 x.2 := by
        have off (j : Nat) : regOff .pkgRail 0 j = regOff .pkgRail 0 0 + 8 * j := rfl
        unfold regKey
        rw [off k, off x.2]
        omega
      exact (rfld_rset_other ne).trans (rfld_rset_other ne)
  rw [railSample_eq]
  split
  · rw [rfld_logFatal _ _ _ _ _ guard (by omega), ← stored]
    by_cases own : k = x.2
    · rw [own]
      exact rfld_rset_beside (by omega) (by omega)
    · refine rfld_rset_other ?_
      have off (j : Nat) : regOff .pkgRail 0 j = regOff .pkgRail 0 0 + 8 * j := rfl
      unfold regKey
      rw [off k, off x.2]
      omega
  · exact stored

theorem railSample_stores {mv : List (BitVec 16)} {k : Nat} (len : mv.length ≤ 10) (hk : k < mv.length) :
    rfld (mv.zipIdx.foldl (railSample die) d) .pkgRail die 0 k 15 0 = (mv.getD k 0).toNat ∧
      tget false (getBoot (mv.zipIdx.foldl (railSample die) d) die).rails k = railOut k (mv.getD k 0).toNat := by
  have there : (mv.getD k 0, k) ∈ mv.zipIdx := by
    rw [List.getD_eq_getElem _ _ hk]
    exact List.mk_mem_zipIdx_iff_getElem?.mpr (List.getElem?_eq_getElem hk)
  have once : (mv.zipIdx.map Prod.snd).Nodup := by
    rw [List.zipIdx_map_snd]
    exact List.nodup_range'
  refine foldl_at (key := Prod.snd) (I := fun _ => True) (J := fun e => rfld e .pkgRail die 0 k 15 0 = (mv.getD k 0).toNat ∧
    tget false (getBoot e die).rails k = railOut k (mv.getD k 0).toNat) there once (fun _ _ _ _ _ => trivial) (fun e _ => ?_)
    (fun e y _ ne ⟨reading, out⟩ => ?_) trivial
  · rw [rfld_railSample (by omega), getBoot_railSample]
    exact ⟨if_pos rfl, tget_tset_self ..⟩
  · have other : k ≠ y.2 := fun same => ne same.symm
    rw [rfld_railSample (by omega), getBoot_railSample, if_neg other, tget_tset_ne _ _ _ other]
    exact ⟨reading, out⟩

theorem railSample_within {l : List (BitVec 16 × Nat)} (within : ∀ x ∈ l, railOut x.2 x.1.toNat = false) :
    { l.foldl (railSample die) d with regs := d.regs, boot := d.boot } = d := by
  refine List.foldlRecOn (motive := fun e : Dev => { e with regs := d.regs, boot := d.boot } = d) l _ rfl fun e h x hx => ?_
  have calm : railAgain e die x = false := by simp [railAgain, within x hx]
  rw [railSample_eq, calm]
  exact h

theorem railSample_halts {l : List (BitVec 16 × Nat)} {x : BitVec 16 × Nat} (hx : x ∈ l) (once : (l.map Prod.snd).Nodup)
    (out : railOut x.2 x.1.toNat = true) (before : tget false (getBoot d die).rails x.2 = true) : halted (l.foldl (railSample die) d) die = true := by
  refine foldl_at (key := Prod.snd) (I := fun e => tget false (getBoot e die).rails x.2 = true) (J := fun e => halted e die = true) hx once
    (fun e y _ ne h => ?_) (fun e h => ?_) (fun e y _ _ h => ?_) before
  · rw [getBoot_railSample, tget_tset_ne _ _ _ ne.symm]
    exact h
  · have again : railAgain e die x = true := by simp [railAgain, out, h]
    rw [railSample_eq, if_pos again]
    exact logFatal_halts ..
  · rw [railSample_eq]
    split
    · exact logFatal_halts ..
    · exact h

end

/-! ### Rail 7 (R666) -/

section
variable {d : Dev} {die : Nat}

theorem dieReset_cores : (dieReset d die).cores = d.cores.filter fun p => decide (p.1 / 144 ≠ die) := by
  have same : (cutBurn d die).cores = d.cores := cutBurn_keeps Dev.cores fun _ _ _ => rfl
  exact congrArg (List.filter fun p : Nat × Core => decide (p.1 / 144 ≠ die)) same

/-- The bytes that a reset of a die keeps: those of HBM, and those of other dies' scratch and core stores. -/
def keptByte (die k : Nat) : Bool :=
  decide (k < 2 ^ 48) || (if k < 2 ^ 49 then decide ((k - 2 ^ 48) / (16 * 2 ^ 24) ≠ die) else decide ((k - 2 ^ 49) / (144 * 2 ^ 21) ≠ die))

theorem keptByte_store {c i : Nat} (hc : c < 144) (hi : i < storeBytes) : keptByte die (storeKey ⟨die, c⟩ i) = false := by
  simp only [storeBytes] at hi
  have place : (storeKey ⟨die, c⟩ i - 2 ^ 49) / (144 * 2 ^ 21) = die := by
    simp only [storeKey, ckey]
    omega
  have above : ¬storeKey ⟨die, c⟩ i < 2 ^ 49 := by
    simp only [storeKey]
    omega
  rw [keptByte, if_neg above, decide_eq_false (by omega), place]
  simp

theorem keptByte_scratch {k i : Nat} (hk : k < 16) (hi : i < 2 ^ 24) (hd : die < 8) : keptByte die (scratchKey die k i) = false := by
  have place : (scratchKey die k i - 2 ^ 48) / (16 * 2 ^ 24) = die := by
    simp only [scratchKey]
    omega
  have within : 2 ^ 48 ≤ scratchKey die k i ∧ scratchKey die k i < 2 ^ 49 := by
    simp only [scratchKey]
    omega
  rw [keptByte, if_pos within.2, decide_eq_false (by omega), place]
  simp

theorem dieReset_mem : (dieReset d die).mem = d.mem.filter fun p => keptByte die p.1 := by
  have same : (cutBurn d die).mem = d.mem := cutBurn_keeps Dev.mem fun _ _ _ => rfl
  exact congrArg (List.filter fun p : Host.Cell => keptByte die p.1) same

theorem memByte_dieReset {k : Nat} (tidy : Tidy d) (lost : keptByte die k = false) : memByte (dieReset d die) k = 0 := by
  obtain ⟨wf, -⟩ := tidy
  rw [memByte, dieReset_mem]
  refine (tget_filter_key unlisted (rising_of_twf wf) (keptByte die) k).trans ?_
  rw [lost]
  rfl

theorem getCore_dieReset (tidy : Tidy d) (x : Nat) {c : Nat} (hc : c < 144) :
    getCore (dieReset d die) ⟨x, c⟩ = if x = die then Core.idle else getCore d ⟨x, c⟩ := by
  obtain ⟨-, -, -, -, cores, -, -⟩ := tidy
  have home : ckey ⟨x, c⟩ / 144 = x := by
    simp only [ckey]
    omega
  rw [getCore, dieReset_cores]
  refine (tget_filter_key Core.idle cores (fun k => decide (k / 144 ≠ die)) _).trans ?_
  rw [home]
  by_cases own : x = die
  · rw [if_pos own, if_neg (by simp [own])]
  · rw [if_neg own, if_pos (by simp [own])]
    rfl

theorem dieReset_halts : halted (dieReset d die) die = true := congrArg ErrRing.halted (tget_tset_self ..)

theorem rfld_dieReset_svn (still : NoBurn d) : rfld (dieReset d die) .abwFw die 0 0 63 48 = rfld d .abwFw die 0 0 63 48 := by
  unfold dieReset
  rw [cutBurn_noBurn still]
  exact rfld_rset_fits (by omega) fld_lt

end

/-! ### Heat and clocks (R670, R673) -/

section
variable {d : Dev} {die : Nat}

theorem junctionPeak_regsOnly (d : Dev) (die : Nat) (t : BitVec 8) : RegsOnly d (junctionPeak d die t) := by
  unfold junctionPeak
  split
  · rfl
  · rfl

theorem tripDie_again {sensor : Nat} {reading : BitVec 8} {hbm : Bool} (done : tripped d die = true) :
    RegsOnly d (tripDie d die sensor reading hbm) := by
  cases hbm
  · have peak := junctionPeak_regsOnly d die reading
    have still : tripped (junctionPeak d die reading) die = true := (peak.keeps (tripped · die) fun _ _ => rfl).trans done
    simp only [tripDie, Bool.false_eq_true, if_false, still, if_true]
    exact peak
  · simp only [tripDie, if_true, done]
    rfl

theorem tripDie_first {sensor : Nat} {reading : BitVec 8} {hbm : Bool} (fresh : tripped d die = false) :
    halted (tripDie d die sensor reading hbm) die = true ∧ tripped (tripDie d die sensor reading hbm) die = true ∧
      (hbm = true → rfld (tripDie d die sensor reading hbm) .pkgTrip die 0 0 1 1 = 1) := by
  have guard : (.pkgTrip, 0) ∈ guardedRegs false := by decide
  have latches (e : Dev) (src kind : Nat) (detail : List Nat) (own : tripped e die = true) : tripped (logFatal e die src kind detail) die = true := by
    rw [tripped, logFatal_pkg]
    exact own
  cases hbm
  · have still : tripped (junctionPeak d die reading) die = false := ((junctionPeak_regsOnly d die reading).keeps (tripped · die) fun _ _ => rfl).trans fresh
    simp only [tripDie, Bool.false_eq_true, if_false, still]
    exact ⟨logFatal_halts .., latches _ _ _ _ (tget_tset_self ..), nofun⟩
  · simp only [tripDie, if_true, fresh, Bool.false_eq_true, if_false]
    refine ⟨logFatal_halts .., latches _ _ _ _ (tget_tset_self ..), fun _ => ?_⟩
    rw [rfld_logFatal _ _ _ _ _ guard (by omega)]
    exact rfld_rset_fits (by omega) (by omega)

theorem pllUnlock_left {p : Nat} {src kind : Nat} {detail : List Nat} (hp : p < 4) :
    rfld (logFatal (rcount (rset d .pkgClk die 0 0 p p 0) .pkgClk die 0 0 31 16 1) die src kind detail) .pkgClk die 0 0 p p = 0 := by
  have guard : (.pkgClk, 0) ∈ guardedRegs false := by decide
  rw [rfld_logFatal _ _ _ _ _ guard (by omega), rcount, rfld_rset_beside (by omega) (by omega)]
  exact rfld_rset_fits (by omega) (Nat.two_pow_pos _)

end
end Sys2Proof.Machine
end
section
/-!
SUPPORT. TAPs (R674, R675): what loading an instruction leaves, once for all instructions, and what each data register captures.
-/

namespace Sys2Proof.Machine
section
variable {d e : Dev} {die : Nat} {ir : BitVec 8}

/-! ### The chain -/

/-- The chain after a part of a scan: of each TAP the data register alone may differ, and nothing else of the device does but the free values. -/
def ChainScanned (d e : Dev) : Prop :=
  { e with taps := d.taps, free := d.free } = d ∧ ∀ x, getTap e x = { getTap d x with dr := (getTap e x).dr }

theorem ChainScanned.keeps {α : Type} (h : ChainScanned d e) (f : Dev → α) (all : ∀ x t k, f { x with taps := t, free := k } = f x) : f e = f d :=
  (all e d.taps d.free).symm.trans (congrArg f h.1)

theorem ChainScanned.taps_ir (h : ChainScanned d e) (x : Nat) : (getTap e x).ir = (getTap d x).ir := by rw [h.2 x]

theorem ChainScanned.taps_update (h : ChainScanned d e) (x : Nat) : (getTap e x).update = (getTap d x).update := by rw [h.2 x]

/-- What a data register captures takes a free value at most. -/
theorem drCapture_left (d : Dev) (die : Nat) : (drCapture d die).2 = d ∨ (drCapture d die).2 = freeNext d := by
  dsimp only [drCapture]
  split
  · unfold capture
    split
    · exact .inr rfl
    · exact .inr rfl
  · split
    · exact .inl rfl
    · split
      · exact .inr rfl
      · exact .inl rfl

theorem getTap_scanTap (r : List Bool × Dev) (die x : Nat) :
    getTap (scanTap r die).2 x = if x = die then { getTap r.2 die with dr := (drCapture r.2 die).1 } else getTap r.2 x := by
  have same : (drCapture r.2 die).2.taps = r.2.taps := by
    obtain h | h := drCapture_left r.2 die
    · rw [h]
    · rw [h]
      rfl
  rw [getTap, scanTap, setTap, tget_tset, same]
  rfl

theorem scanTap_chain {r : List Bool × Dev} (h : ChainScanned d r.2) (die : Nat) : ChainScanned d (scanTap r die).2 := by
  obtain ⟨same, taps⟩ := h
  refine ⟨?_, fun x => ?_⟩
  · obtain left | left := drCapture_left r.2 die
    · simp only [scanTap, setTap, left]
      exact same
    · simp only [scanTap, setTap, left]
      exact same
  · rw [getTap_scanTap]
    split
    · next own => rw [own, taps die]
    · exact taps x

/-- What has left PKG_TDO stays before what follows. -/
theorem scan_prefix (l : List Nat) (r : List Bool × Dev) : r.1 <+: (l.foldl scanTap r).1 :=
  List.foldlRecOn (motive := fun q : List Bool × Dev => r.1 <+: q.1) l scanTap (List.prefix_refl _) fun _ h _ _ => h.trans (List.prefix_append ..)

/-! ### Loading an instruction (R674) -/

/-- The device whose TAP has its new instruction. -/
def Dev.tapLoaded (d : Dev) (die : Nat) (ir : BitVec 8) : Dev := setTap d die { getTap d die with ir := ir }

/-- The chain after the scan that follows. -/
def tapScan (d : Dev) (die : Nat) (ir : BitVec 8) : List Bool × Dev :=
  (List.range d.part.dies).reverse.foldl scanTap ((List.range d.part.dies).reverse.flatMap fun _ => shiftBits 8 1, d.tapLoaded die ir)

/-- The device that loading an instruction leaves. -/
def Dev.tapRead (d : Dev) (die : Nat) (ir : BitVec 8) : Dev :=
  { (tapScan d die ir).2 with pkg := { (tapScan d die ir).2.pkg with tdo := (tapScan d die ir).1 } }

theorem loadTap_eq (row : String) (run : tapsRun d = true) : loadTap row die ir d = .next (d.tapRead die ir) := if_pos run

theorem loadBoundary_eq (row : String) (bits : BitVec 10) (run : tapsRun d = true) :
    loadBoundary row die ir bits d = .next (setTap (d.tapRead die ir) die { getTap (d.tapRead die ir) die with update := bits }) := by
  rw [loadBoundary, loadTap_eq row run]

theorem tapScan_chain : ChainScanned (d.tapLoaded die ir) (tapScan d die ir).2 :=
  List.foldlRecOn (motive := fun r : List Bool × Dev => ChainScanned (d.tapLoaded die ir) r.2) _ scanTap ⟨rfl, fun _ => rfl⟩ fun _ h x _ =>
    scanTap_chain h x

theorem getTap_tapLoaded (x : Nat) : getTap (d.tapLoaded die ir) x = if x = die then { getTap d die with ir := ir } else getTap d x := by
  rw [getTap, Dev.tapLoaded, setTap, tget_tset]
  rfl

theorem getTap_tapRead (x : Nat) : getTap (d.tapRead die ir) x =
    { (if x = die then { getTap d die with ir := ir } else getTap d x) with dr := (getTap (d.tapRead die ir) x).dr } := by
  have scanned := tapScan_chain (d := d) (die := die) (ir := ir)
  have same : getTap (d.tapRead die ir) x = getTap (tapScan d die ir).2 x := rfl
  rw [same, scanned.2 x, getTap_tapLoaded]

/-- What a constant list repeated for each of as many elements gives. -/
theorem flatMap_const_reverse {α β : Type} (l : List α) (c : List β) : (l.reverse.flatMap fun _ => c) = l.flatMap fun _ => c := by
  have const (m : List α) : (m.flatMap fun _ => c) = (List.replicate m.length c).flatten := by
    rw [List.flatMap_def, List.map_const']
  rw [const, const, List.length_reverse]

theorem tapRead_tdo : (d.tapRead die ir).pkg.tdo.take (8 * d.part.dies) = (List.range d.part.dies).flatMap fun _ => true :: List.replicate 7 false := by
  obtain ⟨rest, own⟩ := scan_prefix (List.range d.part.dies).reverse ((List.range d.part.dies).reverse.flatMap fun _ => shiftBits 8 1, d.tapLoaded die ir)
  have len : (((List.range d.part.dies).reverse.flatMap fun _ => shiftBits 8 1)).length = 8 * d.part.dies := by
    simp [shiftBits, List.length_flatMap, Nat.mul_comm]
  have tdo : (d.tapRead die ir).pkg.tdo = ((List.range d.part.dies).reverse.flatMap fun _ => shiftBits 8 1) ++ rest := own.symm
  rw [tdo, ← len, List.take_left, flatMap_const_reverse]
  rfl

theorem tapRead_scanned : Scanned die d (d.tapRead die ir) := by
  have chain := tapScan_chain (d := d) (die := die) (ir := ir)
  have pkg : (tapScan d die ir).2.pkg = d.pkg := chain.keeps Dev.pkg fun _ _ _ => rfl
  refine ⟨?_, ?_, fun x ne => ?_, tapRead_tdo⟩
  · have same := congrArg (fun e : Dev => { e with taps := d.taps }) chain.1
    exact (show _ = _ from congrArg (fun q => { (tapScan d die ir).2 with taps := d.taps, free := d.free, pkg := q }) pkg.symm).trans same
  · show { (tapScan d die ir).2.pkg with tdo := (tapScan d die ir).1 } = { d.pkg with tdo := (tapScan d die ir).1 }
    rw [pkg]
  · rw [getTap_tapRead, if_neg ne]

/-- The data register of the TAP that has its new instruction captures what the device shows as its turn comes. -/
theorem tapRead_captures {Q : BitVec 32 → Prop} (h : die < d.part.dies) (shows : ∀ e, ChainScanned (d.tapLoaded die ir) e → Q (drCapture e die).1) :
    Q (getTap (d.tapRead die ir) die).dr := by
  refine foldl_at (key := id) (I := fun r : List Bool × Dev => ChainScanned (d.tapLoaded die ir) r.2) (J := fun r => Q (getTap r.2 die).dr)
    (l := (List.range d.part.dies).reverse) (by simpa using h) (by simpa using List.nodup_range) (fun r y _ _ h => scanTap_chain h y) (fun r h => ?_)
    (fun r y _ ne kept => ?_) ⟨rfl, fun _ => rfl⟩
  · rw [getTap_scanTap, if_pos rfl]
    exact shows _ h
  · rw [getTap_scanTap, if_neg (fun e => ne e.symm)]
    exact kept

theorem ChainScanned.own_ir (h : ChainScanned (d.tapLoaded die ir) e) : (getTap e die).ir = ir := by
  rw [h.taps_ir, getTap_tapLoaded, if_pos rfl]

/-! ### What a data register captures -/

theorem tapRead_bypass (h : die < d.part.dies) (code : ir = 0x03 ∨ ir = 0x04 ∨ ir = 0xFF) : (getTap (d.tapRead die ir) die).dr = 0 := by
  refine tapRead_captures (Q := fun x => x = 0) h fun e scanned => ?_
  have own := scanned.own_ir
  obtain rfl | rfl | rfl := code
  all_goals
    simp only [drCapture, own]
    rfl

theorem tapRead_idcode (h : die < d.part.dies) : (getTap (d.tapRead die 0x02) die).dr.toNat % 2 ^ 28 =
    (if d.part.dies = 8 then 0xF108 else if d.part.dies = 4 then 0xF104 else 0xF102) * 2 ^ 12 + 0x3A5 * 2 + 1 := by
  refine tapRead_captures (Q := fun x => x.toNat % 2 ^ 28 = _) h fun e scanned => ?_
  have part : e.part = d.part := scanned.keeps Dev.part fun _ _ _ => rfl
  have reads : (drCapture e die).1 = BitVec.ofNat 32 (idcode e die) := by
    simp only [drCapture, scanned.own_ir]
    rfl
  rw [reads, idcode, part, BitVec.toNat_ofNat]
  split
  · omega
  · split
    · omega
    · omega

end
end Sys2Proof.Machine
end
section
/-!
SUPPORT. The boundary register of die 0 (R674), and the settlement of the pins, rails, clocks and TAPs.
-/

namespace Sys2Proof.Machine

/-! ### The levels at die 0's balls -/

theorem b2n_le (b : Bool) : b2n b ≤ 1 := by
  cases b
  · exact Nat.zero_le _
  · exact Nat.le_refl _

theorem getLsbD_ofNat_of {n k : Nat} {b : Bool} (hk : k < 32) (h : n / 2 ^ k % 2 = b2n b) : (BitVec.ofNat 32 n).getLsbD k = b := by
  rw [BitVec.getLsbD_ofNat, Nat.testBit_eq_decide_div_mod_eq, h]
  cases b
  · simp [hk, b2n]
  · simp [hk, b2n]

/-- The bits that the boundary register captures of the nine levels that it is given. -/
theorem levels_bits (p r a b c i t : Bool) (m : BitVec 2) {v : Nat} (hv : v < 2) {x : BitVec 32}
    (h : x = BitVec.ofNat 32 (b2n p + 2 * b2n r + 4 * b2n a + 8 * b2n b + 16 * b2n c + 32 * v + 64 * b2n i + 128 * m.toNat + 512 * b2n t)) :
    (x.getLsbD 0 = p ∧ x.getLsbD 1 = r ∧ x.extractLsb' 7 2 = m ∧ x.getLsbD 9 = t) ∧
      x.getLsbD 2 = a ∧ x.getLsbD 3 = b ∧ x.getLsbD 4 = c ∧ x.getLsbD 6 = i := by
  have hp := b2n_le p
  have hr := b2n_le r
  have ha := b2n_le a
  have hb := b2n_le b
  have hc := b2n_le c
  have hi := b2n_le i
  have ht := b2n_le t
  have hm : m.toNat < 4 := m.isLt
  subst h
  refine ⟨⟨getLsbD_ofNat_of (by omega) (by omega), getLsbD_ofNat_of (by omega) (by omega), ?_, getLsbD_ofNat_of (by omega) (by omega)⟩,
    getLsbD_ofNat_of (by omega) (by omega), getLsbD_ofNat_of (by omega) (by omega), getLsbD_ofNat_of (by omega) (by omega),
    getLsbD_ofNat_of (by omega) (by omega)⟩
  refine BitVec.eq_of_toNat_eq ?_
  rw [BitVec.extractLsb'_toNat, BitVec.toNat_ofNat, Nat.shiftRight_eq_div_pow]
  omega

section
variable {d e : Dev} {die : Nat} {ir : BitVec 8}

/-- What the boundary register of die 0 shows of the device, the balls following the update values under EXTEST. -/
def BoundaryShows (d : Dev) (ir : BitVec 8) (x : BitVec 32) : Prop :=
  (x.getLsbD 0 = true ∧ x.getLsbD 1 = true ∧ x.extractLsb' 7 2 = d.pkg.maddr ∧ x.getLsbD 9 = d.pkg.tmode) ∧
    (ir = 0x01 → x.getLsbD 2 = pkgReady d ∧ x.getLsbD 3 = !alertActive d ∧ x.getLsbD 4 = d.pkg.trips.all fun p => !p.2) ∧
    (ir = 0x00 → x.getLsbD 2 = (getTap d 0).update.getLsbD 2 ∧ x.getLsbD 3 = (getTap d 0).update.getLsbD 3 ∧
      x.getLsbD 4 = (getTap d 0).update.getLsbD 4 ∧ ((getTap d 0).update.getLsbD 6 = false → x.getLsbD 6 = false))

theorem capture_shows (run : tapsRun d = true) (code : ir = 0x00 ∨ ir = 0x01) (h : ChainScanned (d.tapLoaded 0 ir) e) :
    BoundaryShows d ir (drCapture e 0).1 := by
  have own : (getTap e 0).ir = ir := h.own_ir
  have pkg : e.pkg = d.pkg := h.keeps Dev.pkg fun _ _ _ => rfl
  have ready : pkgReady e = pkgReady d := h.keeps pkgReady fun _ _ _ => rfl
  have alert : alertActive e = alertActive d := h.keeps alertActive fun _ _ _ => rfl
  have update : (getTap e 0).update = (getTap d 0).update := by
    rw [h.taps_update, getTap_tapLoaded, if_pos rfl]
  have power : e.pkg.pwrgd = true ∧ (!e.pkg.reset) = true := by
    rw [pkg]
    exact (Bool.and_eq_true_iff.mp run)
  have driven : highImpedance e = false := by
    have runs : tapsRun e = true := by rw [tapsRun, pkg]; exact run
    obtain rfl | rfl := code
    · simp [highImpedance, runs, own]
    · simp [highImpedance, runs, own]
  have reads : (drCapture e 0).1 = (capture e 0).1 := by
    obtain rfl | rfl := code
    · simp [drCapture, own]
    · simp [drCapture, own]
  obtain ⟨⟨b0, b1, b7, b9⟩, b2, b3, b4, b6⟩ := levels_bits e.pkg.pwrgd (!e.pkg.reset) (ballReady e) (ballAlertN e) (ballTripN e) (ballSda e) e.pkg.tmode
    e.pkg.maddr (v := (freeVal e).toNat % 2) (Nat.mod_lt _ (by omega)) (x := (drCapture e 0).1) reads
  refine ⟨⟨b0.trans power.1, b1.trans power.2, pkg ▸ b7, pkg ▸ b9⟩, fun sample => ?_, fun extest => ?_⟩
  · have free : tapDrives e = false := by simp [tapDrives, own, sample]
    rw [b2, b3, b4, ballReady, ballAlertN, ballTripN, driven, free, ready, alert, pkg]
    exact ⟨rfl, rfl, rfl⟩
  · have drives : tapDrives e = true := by simp [tapDrives, own, extest]
    rw [b2, b3, b4, b6, ballReady, ballAlertN, ballTripN, ballSda, driven, drives, update]
    exact ⟨rfl, rfl, rfl, fun low => by rw [low]; rfl⟩

theorem tapRead_boundary (run : tapsRun d = true) (code : ir = 0x00 ∨ ir = 0x01) (h : 0 < d.part.dies) :
    BoundaryShows d ir (getTap (d.tapRead 0 ir) 0).dr := tapRead_captures h fun _ => capture_shows run code

/-- New update values of a TAP change nothing else. -/
theorem Scanned.setUpdate {t : Dev} (h : Scanned die d t) (bits : BitVec 10) : Scanned die d (setTap t die { getTap t die with update := bits }) := by
  obtain ⟨same, pkg, taps, tdo⟩ := h
  refine ⟨same, pkg, fun x ne => ?_, tdo⟩
  have kept : getTap (setTap t die { getTap t die with update := bits }) x = getTap t x := tget_tset_ne _ _ _ ne
  rw [kept]
  exact taps x ne

theorem Scanned.of_freeNext {t : Dev} (h : Scanned die (freeNext d) t) : Scanned die d t := by
  obtain ⟨same, pkg, taps, tdo⟩ := h
  exact ⟨congrArg (fun e : Dev => { e with free := d.free }) same, pkg, taps, tdo⟩

theorem getTap_setTap (x : Tap) : getTap (setTap d die x) die = x := tget_tset_self ..

end

/-! ### The instructions (R674, R675) -/

section
variable {s : State} {die : Nat}

theorem loadTap_scans {i : Instr} {row : String} {ir : BitVec 8} {P : Dev → Prop} (h : exec i s = runOk (decide (die < 8)) [die] (loadTap row die ir) s)
    (hd : die < 8) (here : die < s.dev.part.dies) (run : tapsRun s.dev = true) (p : P (s.dev.tapRead die ir)) : Completes i s P :=
  completes_runOk (t := s.dev.tapRead die ir) h (decide_eq_true hd) (by simpa using here) (loadTap_eq row run) p

theorem loadTap_left {i : Instr} {ir : BitVec 8} (there : (i, ir) ∈ [(Instr.idcode die, 0x02#8), (.clamp die, 0x03), (.highz die, 0x04), (.bypass die, 0xFF)])
    (hd : die < 8) (here : die < s.dev.part.dies) (run : tapsRun s.dev = true) : Completes i s fun t => Scanned die s.dev t ∧
      getTap t die = { getTap s.dev die with
        ir := ir
        dr := (getTap t die).dr } ∧ ((ir = 0x03 ∨ ir = 0x04 ∨ ir = 0xFF) → (getTap t die).dr = 0) ∧
      (ir = 0x02 → (getTap t die).dr.toNat % 2 ^ 28 =
        (if s.dev.part.dies = 8 then 0xF108 else if s.dev.part.dies = 4 then 0xF104 else 0xF102) * 2 ^ 12 + 0x3A5 * 2 + 1) := by
  have left : Scanned die s.dev (s.dev.tapRead die ir) ∧ getTap (s.dev.tapRead die ir) die = { getTap s.dev die with
        ir := ir
        dr := (getTap (s.dev.tapRead die ir) die).dr } ∧ ((ir = 0x03 ∨ ir = 0x04 ∨ ir = 0xFF) → (getTap (s.dev.tapRead die ir) die).dr = 0) ∧
      (ir = 0x02 → (getTap (s.dev.tapRead die ir) die).dr.toNat % 2 ^ 28 =
        (if s.dev.part.dies = 8 then 0xF108 else if s.dev.part.dies = 4 then 0xF104 else 0xF102) * 2 ^ 12 + 0x3A5 * 2 + 1) := by
    refine ⟨tapRead_scanned, ?_, tapRead_bypass here, fun own => ?_⟩
    · rw [getTap_tapRead, if_pos rfl]
    · subst own
      exact tapRead_idcode here
  simp only [List.mem_cons, Prod.mk.injEq, List.not_mem_nil, or_false] at there
  obtain ⟨rfl, rfl⟩ | ⟨rfl, rfl⟩ | ⟨rfl, rfl⟩ | ⟨rfl, rfl⟩ := there
  · exact loadTap_scans (row := "IDCODE") rfl hd here run left
  · exact loadTap_scans (row := "CLAMP") rfl hd here run left
  · exact loadTap_scans (row := "HIGHZ") rfl hd here run left
  · exact loadTap_scans (row := "BYPASS") rfl hd here run left

theorem privateJtag_left {code : BitVec 8} (hd : die < 8) (here : die < s.dev.part.dies) (run : tapsRun s.dev = true) :
    Completes (.privateJtag die code) s fun t => Scanned die s.dev t ∧
      (rfld s.dev .abwStation die 0 0 4 4 = 0 → (getTap t die).ir = 0xFF ∧ (getTap t die).dr = 0) ∧
      (rfld s.dev .abwStation die 0 0 4 4 = 1 → 8 ≤ code.toNat → code.toNat < 16 → (getTap t die).ir = code) := by
  have ir (c : BitVec 8) : (getTap (s.dev.tapRead die c) die).ir = c := by rw [getTap_tapRead, if_pos rfl]
  have opens : exec (.privateJtag die code) s = execPrivateJtag die code s := rfl
  by_cases priv : rfld s.dev .abwStation die 0 0 4 4 = 1 ∧ 8 ≤ code.toNat ∧ code.toNat < 16
  · refine completes_runOk (t := s.dev.tapRead die code) opens (decide_eq_true hd) (by simpa using here) ((if_pos priv).trans (loadTap_eq _ run))
      ⟨tapRead_scanned, fun none => ?_, fun _ _ _ => ir code⟩
    omega
  · refine completes_runOk (t := s.dev.tapRead die 0xFF) opens (decide_eq_true hd) (by simpa using here) ((if_neg priv).trans (loadTap_eq _ run))
      ⟨tapRead_scanned, fun _ => ⟨ir 0xFF, tapRead_bypass here (.inr (.inr rfl))⟩, fun one low high => absurd ⟨one, low, high⟩ priv⟩

/-- What EXTEST and SAMPLE_PRELOAD leave of a scan, with the update values as they are or with new ones. -/
theorem boundary_left {d t : Dev} {ir : BitVec 8} (run : tapsRun d = true) (code : ir = 0x00 ∨ ir = 0x01) (here : die < d.part.dies)
    (own : (getTap t die).ir = ir ∧ (getTap t die).dr = (getTap (d.tapRead die ir) die).dr) : (getTap t die).ir = ir ∧
      (die = 0 → ∀ x u, x = (getTap t 0).dr → u = (getTap d 0).update → x.getLsbD 0 = true ∧ x.getLsbD 1 = true ∧
        x.extractLsb' 7 2 = d.pkg.maddr ∧ x.getLsbD 9 = d.pkg.tmode ∧
        (ir = 0x01 → x.getLsbD 2 = pkgReady d ∧ x.getLsbD 3 = !alertActive d ∧ x.getLsbD 4 = d.pkg.trips.all fun p => !p.2) ∧
        (ir = 0x00 → x.getLsbD 2 = u.getLsbD 2 ∧ x.getLsbD 3 = u.getLsbD 3 ∧ x.getLsbD 4 = u.getLsbD 4 ∧ (u.getLsbD 6 = false → x.getLsbD 6 = false))) := by
  obtain ⟨loaded, reads⟩ := own
  refine ⟨loaded, fun zero x u hx hu => ?_⟩
  subst zero hx hu
  obtain ⟨⟨b0, b1, b7, b9⟩, sample, extest⟩ := tapRead_boundary run code here
  rw [reads]
  exact ⟨b0, b1, b7, b9, sample, extest⟩

theorem samplePreload_left {b : BitVec 10} (hd : die < 8) (here : die < s.dev.part.dies) (run : tapsRun s.dev = true) {P : Dev → Prop}
    (p : ∀ t, Scanned die s.dev t → (getTap t die).ir = 0x01 → (getTap t die).update = b → (getTap t die).dr = (getTap (s.dev.tapRead die 0x01) die).dr → P t) :
    Completes (.samplePreload die b) s P := by
  refine completes_runOk (show exec (.samplePreload die b) s = _ from rfl) (decide_eq_true hd) (by simpa using here) (loadBoundary_eq _ b run)
    (p _ (tapRead_scanned.setUpdate b) ?_ ?_ ?_)
  · rw [getTap_setTap, getTap_tapRead, if_pos rfl]
  · rw [getTap_setTap]
  · rw [getTap_setTap]

theorem extest_left (hd : die < 8) (here : die < s.dev.part.dies) (run : tapsRun s.dev = true) {P : Dev → Prop}
    (p : ∀ t e, (e = s.dev ∨ e = freeNext s.dev) → Scanned die s.dev t → (getTap t die).ir = 0x00 →
      ((getTap s.dev die).ir ≠ 0 → (getTap t die).update = (getTap s.dev die).update) → (getTap t die).dr = (getTap (e.tapRead die 0x00) die).dr → P t) :
    Completes (.extest die) s P := by
  have opens : exec (.extest die) s = execExtest die s := rfl
  by_cases again : (getTap s.dev die).ir = 0
  · refine completes_runOk opens (decide_eq_true hd) (by simpa using here) ((if_pos again).trans (loadBoundary_eq _ _ run))
      (p _ (freeNext s.dev) (.inr rfl) (tapRead_scanned.setUpdate _).of_freeNext ?_ (absurd again) ?_)
    · rw [getTap_setTap, getTap_tapRead, if_pos rfl]
    · rw [getTap_setTap]
  · refine completes_runOk opens (decide_eq_true hd) (by simpa using here) ((if_neg again).trans (loadTap_eq _ run))
      (p _ s.dev (.inl rfl) tapRead_scanned ?_ (fun _ => ?_) rfl)
    · rw [getTap_tapRead, if_pos rfl]
    · rw [getTap_tapRead, if_pos rfl]

theorem railSample_left {mv : List (BitVec 16)} (hd : die < 8) (here : die < s.dev.part.dies) (power : s.dev.pkg.pwrgd = true) (due : s.dev.tick % 16 = 0)
    (len : mv.length = if die = 0 then 10 else 9) {P : Dev → Prop} (p : P (mv.zipIdx.foldl (railSample die) s.dev)) : Completes (.railSample die mv) s P :=
  completes_runOk (show exec (.railSample die mv) s = execRailSample die mv s from rfl) (decide_eq_true hd) (by simpa using here)
    (by rw [power, decide_eq_true due, decide_eq_true len]; rfl) p

end

/-- Settles O56: a reset clears the device but for what it carries over of each die; rails, heat and clocks by the frame of a halt; and TAPs by what
a scan of the chain leaves. -/
theorem pinsAndTaps : Obligations.PinsAndTaps := by
  refine ⟨fun s _ off => completes_runOk (show exec .pkgPwrgdAssert s = execPkgPwrgdAssert s from rfl) rfl nofun (by rw [off]; rfl) rfl,
    fun s _ power _ => pkgPwrgdDeassert_clears power, fun s _ high _ => pkgResetAssert_clears high,
    fun a m s _ low => completes_runOk (show exec (.pkgResetDeassert a m) s = execPkgResetDeassert a m s from rfl) rfl nofun (by rw [low]; rfl) rfl,
    fun die mv s _ hd here power due len => ?_, fun die s _ tidy hd here power => ?_, fun die k r h s _ hd hk here power released hot => ?_,
    fun die p s _ hd hp here locked => ?_, fun s _ => completes_runOk (show exec .pkgTrst s = execPkgTrst s from rfl) rfl nofun rfl rfl,
    fun i die ir s there _ => loadTap_left there, fun i die b ir s there _ hd here run => ?_, fun die code s _ => privateJtag_left⟩
  · have most : mv.length ≤ 10 := by split at len <;> omega
    refine ⟨railSample_left hd here power due len fun k hk => railSample_stores most hk,
      fun within => railSample_left hd here power due len (railSample_within fun x hx => ?_), fun ⟨k, hk, out, before⟩ => railSample_left hd here power due len ?_⟩
    · have place := List.mk_mem_zipIdx_iff_getElem?.mp hx
      obtain ⟨lt, same⟩ := List.getElem?_eq_some_iff.mp place
      have own := within x.2 lt
      rwa [List.getD_eq_getElem _ _ lt, same] at own
    · refine railSample_halts (x := (mv.getD k 0, k)) ?_ ?_ out before
      · rw [List.getD_eq_getElem _ _ hk]
        exact List.mk_mem_zipIdx_iff_getElem?.mpr (List.getElem?_eq_getElem hk)
      · rw [List.zipIdx_map_snd]
        exact List.nodup_range'
  · refine completes_runOk (t := dieReset s.dev die) (show exec (.rail7Undervoltage die) s = execRail7Undervoltage die s from rfl)
      (decide_eq_true hd) (by simpa using here)
      (by rw [power]; rfl) ⟨dieReset_halts, rfld_dieReset_svn, fun c hc => ?_, fun c i hc hi => memByte_dieReset tidy ?_,
        fun k i hk hi => memByte_dieReset tidy ?_, fun x c ne hc => ?_⟩
    · rw [getCore_dieReset tidy die hc, if_pos rfl]
    · exact keptByte_store hc hi
    · exact keptByte_scratch hk hi hd
    · rw [getCore_dieReset tidy x hc, if_neg ne]
  · have can : (s.dev.pkg.pwrgd && s.dev.pkg.released && decide ((if h = true then 105 else 115) ≤ sbyte r)) = true := by
      rw [power, released]
      exact decide_eq_true hot
    have runs {P : Dev → Prop} (q : P (tripDie s.dev die k r h)) : Completes (.thermalTrip die k r h) s P :=
      completes_runOk (show exec (.thermalTrip die k r h) s = execThermalTrip die k r h s from rfl) (by simp [hd, hk]) (by simpa using here)
        (show whenOn _ _ _ = _ by rw [can]; rfl) q
    exact ⟨fun fresh => runs (tripDie_first fresh), fun done => runs (tripDie_again done)⟩
  · exact completes_runOk (show exec (.pllUnlock die p) s = execPllUnlock die p s from rfl) (by simp [hd, hp]) (by simpa using here)
      (by rw [decide_eq_true locked]; rfl) ⟨logFatal_halts .., pllUnlock_left hp⟩
  · simp only [List.mem_cons, Prod.mk.injEq, List.not_mem_nil, or_false] at there
    obtain ⟨rfl, rfl⟩ | ⟨rfl, rfl⟩ := there
    · refine extest_left hd here run fun t e start scanned ir update dr => ?_
      have shows : _ := boundary_left (d := e) (t := t) (ir := 0x00) (by obtain rfl | rfl := start <;> exact run) (.inl rfl)
        (by obtain rfl | rfl := start <;> exact here) ⟨ir, dr⟩
      obtain rfl | rfl := start
      · exact ⟨scanned, ir, nofun, fun _ => update, shows.2⟩
      · exact ⟨scanned, ir, nofun, fun _ => update, shows.2⟩
    · exact samplePreload_left hd here run fun t scanned ir update dr =>
        ⟨scanned, ir, fun _ => update, nofun, (boundary_left run (.inr rfl) here ⟨ir, dr⟩).2⟩

end Sys2Proof.Machine
end
section
/-!
SUPPORT. Phases of start-up (chapter 19): messages, phases and failures of a die touch its own boot state and ABW_BOOT, and what a READY taken back
touches.
-/

namespace Sys2Proof.Machine

/-! ### Keys within one die's space -/

theorem regKey_ne_of_off {n m : RegName} {x y i j p q : Nat} (h : regOff n i j % 0x20000000 ≠ regOff m p q % 0x20000000) : regKey n x i j ≠ regKey m y p q := by
  unfold regKey
  omega

theorem regKey_ne_of_die_lt {n m : RegName} {x y i j p q : Nat} (h : x ≠ y) (hn : regOff n i j < 0x20000000) (hm : regOff m p q < 0x20000000) :
    regKey n x i j ≠ regKey m y p q := by
  unfold regKey
  omega

/-! ### Boot only -/

section
variable {d e t : Dev} {y : Nat}

theorem BootOnly.refl (d : Dev) : BootOnly d d := rfl

theorem BootOnly.trans (h : BootOnly d e) (g : BootOnly e t) : BootOnly d t := by
  have same := congrArg (fun x : Dev => { x with regs := d.regs, boot := d.boot, pkg := { x.pkg with messages := d.pkg.messages } }) g
  exact Eq.trans same h

theorem BootOnly.keeps {α : Type} (h : BootOnly d e) (f : Dev → α)
    (all : ∀ (x : Dev) r b m, f { x with regs := r, boot := b, pkg := { x.pkg with messages := m } } = f x) : f e = f d :=
  (all e d.regs d.boot d.pkg.messages).symm.trans (congrArg f h)

theorem BootOnly.of_regsOnly (h : RegsOnly d e) : BootOnly d e :=
  have pkg : e.pkg = d.pkg := h.keeps Dev.pkg fun _ _ => rfl
  have boot : e.boot = d.boot := h.keeps Dev.boot fun _ _ => rfl
  by
    unfold BootOnly
    rw [pkg, ← boot]
    have same : { e with regs := d.regs } = d := h
    rw [← pkg]
    exact same

theorem BootOnly.notJustReady (h : BootOnly d e) (still : NotJustReady d) : NotJustReady e := by
  have ready : e.pkg.readyAt = d.pkg.readyAt := h.keeps (·.pkg.readyAt) fun _ _ _ _ => rfl
  have tick : e.tick = d.tick := h.keeps Dev.tick fun _ _ _ _ => rfl
  intro x hx
  rw [tick]
  exact still x (ready ▸ hx)

/-! ### One die's phase -/

/-- A step of start-up at one die: ABW_BOOT of the die, when it was last heard, its messages and, where READY is taken back, ABW_TRI and a record. -/
structure PhaseStep (y : Nat) (d e : Dev) : Prop where
  part : e.part = d.part
  cores : e.cores = d.cores
  mem : e.mem = d.mem
  meas : e.meas = d.meas
  tmode : e.pkg.tmode = d.pkg.tmode
  regs : ∀ n x i j, regKey n x i j ≠ regKey .abwBoot y 0 0 → regKey n x i j ≠ regKey .abwTri 0 0 0 → regKey n x i j ≠ regKey .cmdEvtStat 0 0 0 →
    regGet e n x i j = regGet d n x i j
  boots : ∀ x, getBoot e x = { getBoot d x with heard := (getBoot e x).heard }
  others : ∀ x, x ≠ y → getBoot e x = getBoot d x

theorem PhaseStep.refl (y : Nat) (d : Dev) : PhaseStep y d d := ⟨rfl, rfl, rfl, rfl, rfl, fun _ _ _ _ _ _ _ => rfl, fun _ => rfl, fun _ _ => rfl⟩

theorem PhaseStep.trans (h : PhaseStep y d e) (g : PhaseStep y e t) : PhaseStep y d t where
  part := g.part.trans h.part
  cores := g.cores.trans h.cores
  mem := g.mem.trans h.mem
  meas := g.meas.trans h.meas
  tmode := g.tmode.trans h.tmode
  regs n x i j boot tri evt := (g.regs n x i j boot tri evt).trans (h.regs n x i j boot tri evt)
  boots x := by rw [g.boots x, h.boots x]
  others x ne := (g.others x ne).trans (h.others x ne)

theorem rset_abwBoot_step (d : Dev) (y hi lo v : Nat) : PhaseStep y d (rset d .abwBoot y 0 0 hi lo v) :=
  ⟨rfl, rfl, rfl, rfl, rfl, fun _ _ _ _ boot _ _ => regGet_regSet_other _ _ boot, fun _ => rfl, fun _ _ => rfl⟩

theorem getBoot_setBoot (d : Dev) (y : Nat) (x : Boot) (z : Nat) : getBoot (setBoot d y x) z = if z = y then x else getBoot d z := tget_tset ..

theorem sendMessage_eq (d : Dev) (y w : Nat) : sendMessage d y w =
    if reaches d y = true then setBoot { d with pkg := { d.pkg with messages := BitVec.ofNat 64 w :: d.pkg.messages } } y { getBoot d y with heard := sinceRelease d }
    else d := rfl

theorem sendMessage_step (d : Dev) (y w : Nat) : PhaseStep y d (sendMessage d y w) := by
  rw [sendMessage_eq]
  split
  · refine ⟨rfl, rfl, rfl, rfl, rfl, fun _ _ _ _ _ _ _ => rfl, fun x => ?_, fun x ne => ?_⟩
    · rw [getBoot_setBoot]
      split
      · next own => rw [own]
      · rfl
    · rw [getBoot_setBoot, if_neg ne]
      rfl
  · exact .refl y d

theorem sendMessage_bootOnly (d : Dev) (y w : Nat) : BootOnly d (sendMessage d y w) := by
  rw [sendMessage_eq]
  split
  · rfl
  · rfl

theorem sendMessage_regs (d : Dev) (y w : Nat) : (sendMessage d y w).regs = d.regs := by
  rw [sendMessage_eq]
  split
  · rfl
  · rfl

theorem regGet_sendMessage (d : Dev) (y w : Nat) (n : RegName) (x i j : Nat) : regGet (sendMessage d y w) n x i j = regGet d n x i j := by
  rw [regGet, sendMessage_regs, (sendMessage_step d y w).part]
  rfl

/-- ABW_BOOT as a phase begins. -/
def Dev.phased (d : Dev) (y p f : Nat) : Dev :=
  let e := rset (rset d .abwBoot y 0 0 3 0 p) .abwBoot y 0 0 7 4 f
  if 3 ≤ p then rset e .abwBoot y 0 0 55 40 (min 0xFFFE (releaseMs e)) else e

theorem setPhase_eq (d : Dev) (y p f : Nat) : ∃ w, setPhase d y p f = sendMessage (d.phased y p f) y w := ⟨_, rfl⟩

theorem phased_step (d : Dev) (y p f : Nat) : PhaseStep y d (d.phased y p f) := by
  have first : PhaseStep y d (rset (rset d .abwBoot y 0 0 3 0 p) .abwBoot y 0 0 7 4 f) := (rset_abwBoot_step ..).trans (rset_abwBoot_step ..)
  unfold Dev.phased
  dsimp only
  split
  · exact first.trans (rset_abwBoot_step ..)
  · exact first

theorem phased_bootOnly (d : Dev) (y p f : Nat) : BootOnly d (d.phased y p f) := by
  unfold Dev.phased
  dsimp only
  split
  · rfl
  · rfl

theorem setPhase_step (d : Dev) (y p f : Nat) : PhaseStep y d (setPhase d y p f) := by
  obtain ⟨w, same⟩ := setPhase_eq d y p f
  rw [same]
  exact (phased_step d y p f).trans (sendMessage_step _ y w)

theorem setPhase_bootOnly (d : Dev) (y p f : Nat) : BootOnly d (setPhase d y p f) := by
  obtain ⟨w, same⟩ := setPhase_eq d y p f
  rw [same]
  exact (phased_bootOnly d y p f).trans (sendMessage_bootOnly _ y w)

theorem rfld_phased_beside {y p f h l : Nat} (low : 8 ≤ l) (high : h < 40) : rfld (d.phased y p f) .abwBoot y 0 0 h l = rfld d .abwBoot y 0 0 h l := by
  have first : rfld (rset (rset d .abwBoot y 0 0 3 0 p) .abwBoot y 0 0 7 4 f) .abwBoot y 0 0 h l = rfld d .abwBoot y 0 0 h l := by
    rw [rfld_rset_beside (by omega) (by omega), rfld_rset_beside (by omega) (by omega)]
  unfold Dev.phased
  dsimp only
  split
  · rw [rfld_rset_beside (by omega) (by omega), first]
  · exact first

theorem phased_phase {y p f : Nat} (hp : p < 16) (hf : f < 16) : bootPhase (d.phased y p f) y = p ∧ bootFail (d.phased y p f) y = f := by
  have first : rfld (rset (rset d .abwBoot y 0 0 3 0 p) .abwBoot y 0 0 7 4 f) .abwBoot y 0 0 3 0 = p := by
    rw [rfld_rset_beside (by omega) (by omega)]
    exact rfld_rset_fits (by omega) hp
  have second : rfld (rset (rset d .abwBoot y 0 0 3 0 p) .abwBoot y 0 0 7 4 f) .abwBoot y 0 0 7 4 = f := rfld_rset_fits (by omega) hf
  unfold Dev.phased bootPhase bootFail
  dsimp only
  split
  · exact ⟨(rfld_rset_beside (by omega) (by omega)).trans first, (rfld_rset_beside (by omega) (by omega)).trans second⟩
  · exact ⟨first, second⟩

theorem setPhase_phase {y p f : Nat} (hp : p < 16) (hf : f < 16) : bootPhase (setPhase d y p f) y = p ∧ bootFail (setPhase d y p f) y = f := by
  obtain ⟨w, same⟩ := setPhase_eq d y p f
  rw [same, bootPhase, bootFail, rfld, rfld, regGet_sendMessage]
  exact phased_phase hp hf

theorem rfld_setPhase_beside {y p f h l : Nat} (low : 8 ≤ l) (high : h < 40) : rfld (setPhase d y p f) .abwBoot y 0 0 h l = rfld d .abwBoot y 0 0 h l := by
  obtain ⟨w, same⟩ := setPhase_eq d y p f
  rw [same, rfld, regGet_sendMessage]
  exact rfld_phased_beside low high

theorem PhaseStep.rfld {n : RegName} {x i j h l : Nat} (s : PhaseStep y d e) (boot : regKey n x i j ≠ regKey .abwBoot y 0 0)
    (tri : regKey n x i j ≠ regKey .abwTri 0 0 0) (evt : regKey n x i j ≠ regKey .cmdEvtStat 0 0 0) : rfld e n x i j h l = rfld d n x i j h l :=
  congrArg (fld · h l) (s.regs n x i j boot tri evt)

/-- ABW_BOOT of another die is as before. -/
theorem PhaseStep.rfld_boot {x h l : Nat} (s : PhaseStep y d e) (ne : x ≠ y) : Machine.rfld e .abwBoot x 0 0 h l = Machine.rfld d .abwBoot x 0 0 h l :=
  s.rfld (regKey_ne_of_die ne) (regKey_ne_of_off (by decide)) (regKey_ne_of_off (by decide))

/-! ### READY taken back (R654) -/

theorem undoReady_late (still : NotJustReady d) : undoReady d = d := by
  unfold undoReady
  split
  · next t old ready => exact if_neg (still _ ready)
  · rfl

/-- The device in which READY has just been taken back, before the record of it. -/
def Dev.unready (d : Dev) (old : W64) : Dev := regSet { d with pkg := { d.pkg with readyAt := none } } .abwTri 0 0 0 old

theorem undoReady_now {old : W64} (ready : d.pkg.readyAt = some (d.tick, old)) :
    undoReady d = logIgnoredAt (d.unready old) .abwTri 0 0 0 (rfld d .abwTri 0 0 0 24 0) := by
  unfold undoReady
  rw [ready]
  exact if_pos rfl

theorem logIgnoredAt_step (d : Dev) (y : Nat) (n : RegName) (die i j v : Nat) : PhaseStep y d (logIgnoredAt d n die i j v) := by
  obtain ⟨cores, -, -, -, mem, beyond⟩ := (logIgnoredAt_ignored d n die i j v).1
  have boot : (logIgnoredAt d n die i j v).boot = d.boot := (congrArg Dev.boot beyond :)
  have pkg : (logIgnoredAt d n die i j v).pkg = d.pkg := (congrArg Dev.pkg beyond :)
  have same (x : Nat) : getBoot (logIgnoredAt d n die i j v) x = getBoot d x := congrArg (tget Boot.empty · x) boot
  exact ⟨(congrArg Dev.part beyond :), cores, mem, (congrArg Dev.meas beyond :), congrArg Pkg.tmode pkg, fun _ _ _ _ _ _ evt => regGet_logErr _ _ _ evt,
    fun x => by rw [same x], fun x _ => same x⟩

theorem undoReady_step (d : Dev) (y : Nat) : PhaseStep y d (undoReady d) := by
  unfold undoReady
  split
  · next t old ready =>
    split
    · have back : PhaseStep y d (d.unready old) :=
        ⟨rfl, rfl, rfl, rfl, rfl, fun _ _ _ _ _ tri _ => regGet_regSet_other { d with pkg := { d.pkg with readyAt := none } } old tri, fun _ => rfl, fun _ _ => rfl⟩
      exact back.trans (logIgnoredAt_step ..)
    · exact .refl y d
  · exact .refl y d

/-! ### A die that fails, and one that is done -/

theorem failDie_failed {f : Nat} (h : bootPhase d y = 4) : failDie d y f = d := if_pos h

theorem failDie_first {f : Nat} (h : bootPhase d y ≠ 4) : failDie d y f = setPhase (undoReady d) y 4 f := if_neg h

theorem failDie_step (d : Dev) (y f : Nat) : PhaseStep y d (failDie d y f) := by
  unfold failDie
  split
  · exact .refl y d
  · exact (undoReady_step d y).trans (setPhase_step ..)

theorem failDie_bootOnly (still : NotJustReady d) (y f : Nat) : BootOnly d (failDie d y f) := by
  unfold failDie
  split
  · exact .refl d
  · rw [undoReady_late still]
    exact setPhase_bootOnly ..

theorem failDie_phase {f : Nat} (h : bootPhase d y ≠ 4) (hf : f < 16) : bootPhase (failDie d y f) y = 4 ∧ bootFail (failDie d y f) y = f := by
  rw [failDie_first h]
  exact setPhase_phase (by omega) hf

theorem rfld_failDie_beside {f h l : Nat} (low : 8 ≤ l) (high : h < 40) : rfld (failDie d y f) .abwBoot y 0 0 h l = rfld d .abwBoot y 0 0 h l := by
  unfold failDie
  split
  · rfl
  · rw [rfld_setPhase_beside low high]
    have undone : regGet (undoReady d) .abwBoot y 0 0 = regGet d .abwBoot y 0 0 :=
      (undoReady_step d (y + 1)).regs _ _ _ _ (regKey_ne_of_die (by omega)) (regKey_ne_of_off (by decide)) (regKey_ne_of_off (by decide))
    rw [rfld, undone]
    rfl

/-- A die that has failed stays so with its cause as another one, or it again, fails. -/
theorem failDie_kept {x f g : Nat} (h : bootPhase d x = 4 ∧ bootFail d x = g) : bootPhase (failDie d y f) x = 4 ∧ bootFail (failDie d y f) x = g := by
  by_cases own : x = y
  · rw [failDie_failed (own ▸ h.1)]
    exact h
  · rw [bootPhase, bootFail, (failDie_step d y f).rfld_boot own, (failDie_step d y f).rfld_boot own]
    exact h

theorem doneCheck_cases (d : Dev) (y : Nat) : doneCheck d y = d ∨ doneCheck d y = setPhase d y 3 0 := by
  unfold doneCheck
  dsimp only
  split
  · exact .inr rfl
  · exact .inl rfl

theorem doneCheck_step (d : Dev) (y : Nat) : PhaseStep y d (doneCheck d y) := by
  obtain h | h := doneCheck_cases d y
  · rw [h]
    exact .refl y d
  · rw [h]
    exact setPhase_step ..

theorem doneCheck_bootOnly (d : Dev) (y : Nat) : BootOnly d (doneCheck d y) := by
  obtain h | h := doneCheck_cases d y
  · rw [h]
    exact .refl d
  · rw [h]
    exact setPhase_bootOnly ..

theorem rfld_doneCheck_beside {h l : Nat} (low : 8 ≤ l) (high : h < 40) : rfld (doneCheck d y) .abwBoot y 0 0 h l = rfld d .abwBoot y 0 0 h l := by
  obtain e | e := doneCheck_cases d y
  · rw [e]
  · rw [e]
    exact rfld_setPhase_beside low high

/-! ### Whether the sideband stands (R635) -/

theorem reaches_congr (part : e.part = d.part) (chain : ∀ x, (getBoot e x).locked = (getBoot d x).locked ∧ (getBoot e x).silent = (getBoot d x).silent) (x : Nat) :
    reaches e x = reaches d x := by
  have silent (z : Nat) : silent e z = silent d z := (chain z).2
  have forwards (z : Nat) : forwards e z = forwards d z := by rw [Machine.forwards, Machine.forwards, silent z, (chain z).1]
  rw [reaches, reaches, part, silent x]
  congr 2
  exact funext forwards

theorem PhaseStep.chain (s : PhaseStep y d e) (x : Nat) : (getBoot e x).locked = (getBoot d x).locked ∧ (getBoot e x).silent = (getBoot d x).silent := by
  rw [s.boots x]
  exact ⟨rfl, rfl⟩

end
end Sys2Proof.Machine
end
section
/-!
SUPPORT. Firmware (chapter 19, Firmware; chapter 18, Firmware): what the station of one die does in FW_BEGIN, FW_DATA and FW_END, and that the other
dies' stations do nothing to it.
-/

namespace Sys2Proof.Machine

/-! ### A step of one station -/

/-- The registers of a die that its own station alone writes. -/
def stationRegs : List RegName := [.abwStation, .abwBoot, .abwFw, .pkgClk]

/-- A step of a die's station: its registers and its boot state, but for whether it forwards; and the measurements where the die is die 0. -/
structure StationStep (y : Nat) (d e : Dev) : Prop where
  part : e.part = d.part
  cores : e.cores = d.cores
  mem : e.mem = d.mem
  tmode : e.pkg.tmode = d.pkg.tmode
  regs : ∀ n ∈ stationRegs, ∀ x, x ≠ y → regGet e n x 0 0 = regGet d n x 0 0
  others : ∀ x, x ≠ y → getBoot e x = getBoot d x
  chain : ∀ x, (getBoot e x).locked = (getBoot d x).locked ∧ (getBoot e x).silent = (getBoot d x).silent
  meas : y ≠ 0 → e.meas = d.meas

section
variable {d e t : Dev} {x y : Nat}

theorem StationStep.refl (y : Nat) (d : Dev) : StationStep y d d :=
  ⟨rfl, rfl, rfl, rfl, fun _ _ _ _ => rfl, fun _ _ => rfl, fun _ => ⟨rfl, rfl⟩, fun _ => rfl⟩

theorem StationStep.trans (h : StationStep y d e) (g : StationStep y e t) : StationStep y d t where
  part := g.part.trans h.part
  cores := g.cores.trans h.cores
  mem := g.mem.trans h.mem
  tmode := g.tmode.trans h.tmode
  regs n hn x ne := (g.regs n hn x ne).trans (h.regs n hn x ne)
  others x ne := (g.others x ne).trans (h.others x ne)
  chain x := ⟨(g.chain x).1.trans (h.chain x).1, (g.chain x).2.trans (h.chain x).2⟩
  meas ne := (g.meas ne).trans (h.meas ne)

theorem stationRegs_off : ∀ n ∈ stationRegs, regOff n 0 0 < 0x20000000 ∧ regOff n 0 0 % 0x20000000 ≠ regOff .abwTri 0 0 % 0x20000000 ∧
    regOff n 0 0 % 0x20000000 ≠ regOff .cmdEvtStat 0 0 % 0x20000000 := by decide

theorem PhaseStep.station (s : PhaseStep y d e) : StationStep y d e :=
  ⟨s.part, s.cores, s.mem, s.tmode, fun n hn x ne =>
    have ⟨within, tri, evt⟩ := stationRegs_off n hn
    s.regs n x 0 0 (regKey_ne_of_die_lt ne within (by decide)) (regKey_ne_of_off tri) (regKey_ne_of_off evt), s.others, s.chain, fun _ => s.meas⟩

theorem regSet_stationStep (d : Dev) (y : Nat) {m : RegName} {p q : Nat} (v : W64) (within : regOff m p q < 0x20000000) : StationStep y d (regSet d m y p q v) :=
  ⟨rfl, rfl, rfl, rfl, fun n hn _ ne => regGet_regSet_other _ _ (regKey_ne_of_die_lt ne (stationRegs_off n hn).1 within), fun _ _ => rfl,
    fun _ => ⟨rfl, rfl⟩, fun _ => rfl⟩

theorem rset_stationStep (d : Dev) (y : Nat) {m : RegName} {p q hi lo v : Nat} (within : regOff m p q < 0x20000000) :
    StationStep y d (rset d m y p q hi lo v) := regSet_stationStep d y _ within

theorem setBoot_stationStep (d : Dev) (y : Nat) (b : Boot) (locked : b.locked = (getBoot d y).locked) (silent : b.silent = (getBoot d y).silent) :
    StationStep y d (setBoot d y b) := by
  refine ⟨rfl, rfl, rfl, rfl, fun _ _ _ _ => rfl, fun x ne => ?_, fun x => ?_, fun _ => rfl⟩
  · rw [getBoot_setBoot, if_neg ne]
  · rw [getBoot_setBoot]
    split
    · next own => exact own ▸ ⟨locked, silent⟩
    · exact ⟨rfl, rfl⟩

/-! ### What other stations leave of a die -/

/-- What a die's station sees is as before, while others step. -/
structure Others (x : Nat) (d e : Dev) : Prop where
  part : e.part = d.part
  cores : e.cores = d.cores
  mem : e.mem = d.mem
  tmode : e.pkg.tmode = d.pkg.tmode
  regs : ∀ n ∈ stationRegs, regGet e n x 0 0 = regGet d n x 0 0
  boot : getBoot e x = getBoot d x
  chain : ∀ x, (getBoot e x).locked = (getBoot d x).locked ∧ (getBoot e x).silent = (getBoot d x).silent
  meas : x = 0 → e.meas = d.meas

theorem Others.refl (x : Nat) (d : Dev) : Others x d d := ⟨rfl, rfl, rfl, rfl, fun _ _ => rfl, rfl, fun _ => ⟨rfl, rfl⟩, fun _ => rfl⟩

theorem Others.trans (h : Others x d e) (g : Others x e t) : Others x d t where
  part := g.part.trans h.part
  cores := g.cores.trans h.cores
  mem := g.mem.trans h.mem
  tmode := g.tmode.trans h.tmode
  regs n hn := (g.regs n hn).trans (h.regs n hn)
  boot := g.boot.trans h.boot
  chain x := ⟨(g.chain x).1.trans (h.chain x).1, (g.chain x).2.trans (h.chain x).2⟩
  meas own := (g.meas own).trans (h.meas own)

theorem StationStep.away (s : StationStep y d e) (ne : x ≠ y) : Others x d e :=
  ⟨s.part, s.cores, s.mem, s.tmode, fun n hn => s.regs n hn x ne, s.others x ne, s.chain, fun zero => s.meas fun own => ne (zero.trans own.symm)⟩

theorem Others.rfld {n : RegName} {h l : Nat} (s : Others x d e) (hn : n ∈ stationRegs) : rfld e n x 0 0 h l = rfld d n x 0 0 h l :=
  congrArg (fld · h l) (s.regs n hn)

theorem Others.station (s : Others x d e) : stationState e x = stationState d x := s.rfld (by decide)

theorem Others.phase (s : Others x d e) : bootPhase e x = bootPhase d x := s.rfld (by decide)

theorem Others.reaches (s : Others x d e) : reaches e x = reaches d x := reaches_congr s.part s.chain x

/-- A step of every die's station: what one die's own step leaves, with what the others leave of it before and after. -/
theorem allDies_own {f : Dev → Nat → Dev} (step : ∀ d y, StationStep y d (f d y)) {n : Nat} (hx : x < n) (d : Dev) :
    ∃ e, Others x d e ∧ Others x (f e x) ((List.range n).foldl f d) :=
  foldl_range_at (I := Others x d) (J := fun t => ∃ e, Others x d e ∧ Others x (f e x) t) hx (fun e y ne h => h.trans ((step e y).away ne.symm))
    (fun e h => ⟨e, h, .refl x _⟩) (fun t y ne ⟨e, before, after⟩ => ⟨e, before, after.trans ((step t y).away ne.symm)⟩) (.refl x d)

/-- No station touches cores or memory. -/
theorem allDies_work {f : Dev → Nat → Dev} (step : ∀ d y, StationStep y d (f d y)) (l : List Nat) (d : Dev) :
    (l.foldl f d).cores = d.cores ∧ (l.foldl f d).mem = d.mem :=
  List.foldlRecOn (motive := fun e => e.cores = d.cores ∧ e.mem = d.mem) l f ⟨rfl, rfl⟩ fun e ⟨cores, mem⟩ y _ =>
    ⟨(step e y).cores.trans cores, (step e y).mem.trans mem⟩

theorem allDies_bootOnly {f : Dev → Nat → Dev} (step : ∀ d y, BootOnly d (f d y)) (l : List Nat) (d : Dev) : BootOnly d (l.foldl f d) :=
  List.foldlRecOn (motive := BootOnly d) l f (.refl d) fun e h y _ => h.trans (step e y)

/-! ### A refused image (R603) -/

/-- A station that refuses, before its die's phase follows. -/
def Dev.refusing (d : Dev) (y code : Nat) : Dev :=
  rset (rset (setBoot d y { getBoot d y with fwSize := none }) .abwStation y 0 0 2 0 3) .abwStation y 0 0 15 8 code

theorem refuseFw_eq (d : Dev) (y code : Nat) : refuseFw d y code = setPhase (d.refusing y code) y 0 2 := rfl

theorem refuseFw_station (d : Dev) (y code : Nat) : StationStep y d (refuseFw d y code) := by
  have stops : StationStep y d (setBoot d y { getBoot d y with fwSize := none }) := setBoot_stationStep d y _ rfl rfl
  have refuses : StationStep y d (d.refusing y code) := stops.trans ((rset_stationStep _ y (by decide)).trans (rset_stationStep _ y (by decide)))
  rw [refuseFw_eq]
  exact refuses.trans (setPhase_step ..).station

theorem refuseFw_bootOnly (d : Dev) (y code : Nat) : BootOnly d (refuseFw d y code) := by
  have refuses : BootOnly d (d.refusing y code) := rfl
  rw [refuseFw_eq]
  exact refuses.trans (setPhase_bootOnly ..)

theorem refuseFw_left {code : Nat} (hc : code < 256) : stationState (refuseFw d y code) y = 3 ∧ rfld (refuseFw d y code) .abwStation y 0 0 15 8 = code ∧
    bootPhase (refuseFw d y code) y = 0 ∧ (getBoot (refuseFw d y code) y).fwSize = none := by
  have step := setPhase_step (d.refusing y code) y 0 2
  have station (h l : Nat) : rfld (refuseFw d y code) .abwStation y 0 0 h l = rfld (d.refusing y code) .abwStation y 0 0 h l :=
    step.rfld (regKey_ne_of_off (by decide)) (regKey_ne_of_off (by decide)) (regKey_ne_of_off (by decide))
  have boot : getBoot (d.refusing y code) y = { getBoot d y with fwSize := none } := (getBoot_setBoot ..).trans (if_pos rfl)
  refine ⟨?_, ?_, (setPhase_phase (by omega) (by omega)).1, ?_⟩
  · rw [stationState, station, Dev.refusing, rfld_rset_beside (by omega) (by omega)]
    exact rfld_rset_fits (by omega) (by omega)
  · rw [station]
    exact rfld_rset_fits (by omega) hc
  · rw [refuseFw_eq, step.boots y, boot]

/-! ### FW_BEGIN (R636) -/

/-- A station that loads. -/
def Dev.loading (d : Dev) (y size : Nat) : Dev :=
  rset (rset (rcount (setBoot d y { getBoot d y with fwSize := some size, fw := [], gap := false }) .abwBoot y 0 0 23 16 1) .abwStation y 0 0 2 0 1)
    .abwStation y 0 0 15 8 0

theorem loading_station (d : Dev) (y size : Nat) : StationStep y d (d.loading y size) := by
  have starts : StationStep y d (setBoot d y { getBoot d y with fwSize := some size, fw := [], gap := false }) := setBoot_stationStep d y _ rfl rfl
  exact starts.trans ((rset_stationStep _ y (by decide)).trans ((rset_stationStep _ y (by decide)).trans (rset_stationStep _ y (by decide))))

theorem fwBegin_cases (mask : BitVec 8) (size : Nat) (d : Dev) (y : Nat) : fwBegin mask size d y = d ∨ fwBegin mask size d y = setPhase (d.loading y size) y 1 0 := by
  unfold fwBegin
  dsimp only
  split
  · exact .inl rfl
  · exact .inr rfl

theorem fwBegin_station (mask : BitVec 8) (size : Nat) (d : Dev) (y : Nat) : StationStep y d (fwBegin mask size d y) := by
  obtain h | h := fwBegin_cases mask size d y
  · rw [h]
    exact .refl y d
  · rw [h]
    exact (loading_station d y size).trans (setPhase_step ..).station

theorem fwBegin_bootOnly (mask : BitVec 8) (size : Nat) (d : Dev) (y : Nat) : BootOnly d (fwBegin mask size d y) := by
  obtain h | h := fwBegin_cases mask size d y
  · rw [h]
    exact .refl d
  · rw [h]
    exact BootOnly.trans (show BootOnly d (d.loading y size) from rfl) (setPhase_bootOnly ..)

theorem fwBegin_leaves {mask : BitVec 8} {size : Nat} (h : mask.getLsbD y = false ∨ reaches d y = false) : fwBegin mask size d y = d := by
  unfold fwBegin
  dsimp only
  refine if_pos ?_
  obtain h | h := h
  · simp [h]
  · simp [h]

theorem fwBegin_loads {mask : BitVec 8} {size : Nat} (named : mask.getLsbD y = true) (waits : stationState d y = 0 ∨ stationState d y = 3)
    (phase : bootPhase d y ≠ 4) (tmode : d.pkg.tmode = false) (locked : (getBoot d y).locked = true) (there : reaches d y = true) :
    stationState (fwBegin mask size d y) y = 1 ∧ bootPhase (fwBegin mask size d y) y = 1 ∧ (getBoot (fwBegin mask size d y) y).fwSize = some size ∧
      (getBoot (fwBegin mask size d y) y).fw = [] := by
  have takes : fwBegin mask size d y = setPhase (d.loading y size) y 1 0 := by
    unfold fwBegin
    dsimp only
    refine if_neg ?_
    obtain wait | wait := waits
    · simp [named, phase, tmode, locked, there, wait]
    · simp [named, phase, tmode, locked, there, wait]
  have step := setPhase_step (d.loading y size) y 1 0
  have boot : getBoot (d.loading y size) y = { getBoot d y with fwSize := some size, fw := [], gap := false } := (getBoot_setBoot ..).trans (if_pos rfl)
  rw [takes, step.boots y, boot, stationState,
    step.rfld (regKey_ne_of_off (by decide)) (regKey_ne_of_off (by decide)) (regKey_ne_of_off (by decide)), Dev.loading,
    rfld_rset_beside (by omega) (by omega)]
  exact ⟨rfld_rset_fits (by omega) (by omega), (setPhase_phase (by omega) (by omega)).1, rfl, rfl⟩

/-! ### FW_DATA (R634) -/

theorem supplySize_eq {n : Nat} (size : (getBoot d y).fwSize = some n) (phase : bootPhase d y ≠ 4) (there : reaches d y = true) : supplySize d y = some n := by
  rw [supplySize, if_neg (by simp [phase, there]), size]

theorem fwData_cases (off : Nat) (b : List Byte) (d : Dev) (y : Nat) : fwData off b d y = d ∨ (∃ code, fwData off b d y = refuseFw d y code) ∨
    ∃ e, e = setBoot d y { getBoot d y with fw := (getBoot d y).fw ++ b } ∧ (fwData off b d y = e ∨ ∃ code, fwData off b d y = refuseFw e y code) := by
  unfold fwData
  dsimp only
  split
  · exact .inl rfl
  · split
    · exact .inr (.inl ⟨1, rfl⟩)
    · refine .inr (.inr ⟨_, rfl, ?_⟩)
      split
      · split
        · exact .inl rfl
        · exact .inr ⟨_, rfl⟩
      · exact .inl rfl

theorem fwData_station (off : Nat) (b : List Byte) (d : Dev) (y : Nat) : StationStep y d (fwData off b d y) := by
  obtain h | ⟨code, h⟩ | ⟨e, own, h | ⟨code, h⟩⟩ := fwData_cases off b d y
  · rw [h]
    exact .refl y d
  · rw [h]
    exact refuseFw_station ..
  · rw [h, own]
    exact setBoot_stationStep d y _ rfl rfl
  · have takes : StationStep y d e := own ▸ setBoot_stationStep d y _ rfl rfl
    rw [h]
    exact takes.trans (refuseFw_station ..)

theorem fwData_bootOnly (off : Nat) (b : List Byte) (d : Dev) (y : Nat) : BootOnly d (fwData off b d y) := by
  obtain h | ⟨code, h⟩ | ⟨e, own, h | ⟨code, h⟩⟩ := fwData_cases off b d y
  · rw [h]
    exact .refl d
  · rw [h]
    exact refuseFw_bootOnly ..
  · rw [h, own]
    rfl
  · rw [h, own]
    exact BootOnly.trans (show BootOnly d (setBoot d y { getBoot d y with fw := (getBoot d y).fw ++ b }) from rfl) (refuseFw_bootOnly ..)

theorem fwData_gap {off n : Nat} {b : List Byte} (size : (getBoot d y).fwSize = some n) (phase : bootPhase d y ≠ 4) (there : reaches d y = true)
    (gap : off ≠ (getBoot d y).fw.length) : fwData off b d y = refuseFw d y 1 := by
  unfold fwData
  rw [supplySize_eq size phase there]
  exact if_pos gap

theorem fwData_appends {off n : Nat} {b : List Byte} (size : (getBoot d y).fwSize = some n) (phase : bootPhase d y ≠ 4) (there : reaches d y = true)
    (next : off = (getBoot d y).fw.length) (header : off + b.length < fwBodyOff ∨ fwBodyOff ≤ off) :
    fwData off b d y = setBoot d y { getBoot d y with fw := (getBoot d y).fw ++ b } := by
  unfold fwData
  rw [supplySize_eq size phase there]
  dsimp only
  rw [if_neg (by simp [next]), if_neg]
  rw [List.length_append, ← next]
  omega

end
end Sys2Proof.Machine
end
section
/-!
SUPPORT. FW_END (R603, R637, R639): a station that runs its image, and what the other stations and the match of the dies leave of it.
-/

namespace Sys2Proof.Machine
section
variable {d e t : Dev} {x y : Nat}

/-! ### Numbers of a header -/

theorem leNat_lt (b : List Byte) : leNat b < 256 ^ b.length := by
  induction b with
  | nil => simp [leNat]
  | cons a b ih =>
    have small : a.toNat < 256 := a.isLt
    simp only [leNat, List.length_cons, Nat.pow_succ]
    omega

theorem bytesNat_lt (b : List Byte) (off n : Nat) : bytesNat b off n < 256 ^ n :=
  Nat.lt_of_lt_of_le (leNat_lt _) (Nat.pow_le_pow_right (by omega) (List.length_take_le ..))

/-! ### The tables and the identity of a station that runs -/

/-- Tables, keys or measurements change, and nothing that a station follows. -/
structure StationKept (d e : Dev) : Prop where
  part : e.part = d.part
  cores : e.cores = d.cores
  mem : e.mem = d.mem
  tmode : e.pkg.tmode = d.pkg.tmode
  boot : e.boot = d.boot
  regs : ∀ n ∈ stationRegs, ∀ x, regGet e n x 0 0 = regGet d n x 0 0

theorem StationKept.trans (h : StationKept d e) (g : StationKept e t) : StationKept d t where
  part := g.part.trans h.part
  cores := g.cores.trans h.cores
  mem := g.mem.trans h.mem
  tmode := g.tmode.trans h.tmode
  boot := g.boot.trans h.boot
  regs n hn x := (g.regs n hn x).trans (h.regs n hn x)

theorem StationKept.getBoot (h : StationKept d e) (x : Nat) : getBoot e x = getBoot d x := congrArg (tget Boot.empty · x) h.boot

theorem StationKept.rfld {n : RegName} {hi lo : Nat} (h : StationKept d e) (hn : n ∈ stationRegs) (x : Nat) :
    rfld e n x 0 0 hi lo = rfld d n x 0 0 hi lo := congrArg (fld · hi lo) (h.regs n hn x)

theorem regSet_kept (d : Dev) {m : RegName} {z i j : Nat} {v : W64} (apart : ∀ n ∈ stationRegs, regOff n 0 0 % 0x20000000 ≠ regOff m i j % 0x20000000) :
    StationKept d (regSet d m z i j v) :=
  ⟨rfl, rfl, rfl, rfl, rfl, fun n hn _ => regGet_regSet_other _ _ (regKey_ne_of_off (apart n hn))⟩

theorem StationKept.station (h : StationKept d e) (meas : y ≠ 0 → e.meas = d.meas) : StationStep y d e :=
  ⟨h.part, h.cores, h.mem, h.tmode, fun n hn x _ => h.regs n hn x, fun x _ => h.getBoot x,
    fun x => by rw [h.getBoot x]; exact ⟨rfl, rfl⟩, meas⟩

theorem regOff_sfnTable_lt {c : Nat} (hc : c < 144) : regOff .sfnTable c 0 < 0x10000000 := by
  have off : regOff .sfnTable c 0 = 0x10000 * c + regOff .sfnTable 0 0 := by
    simp only [regOff, RegName.row]
  have base : regOff .sfnTable 0 0 < 0x10000 := by decide
  omega

theorem loadNormal_kept (d : Dev) (y : Nat) (body : List Byte) : StationKept d (loadNormal d y body) ∧ (loadNormal d y body).meas = d.meas := by
  have above : ∀ n ∈ stationRegs, 0x10000000 ≤ regOff n 0 0 % 0x20000000 := by decide
  have tables (img : Tbl (List Byte)) : StationKept d { d with normal := img } := ⟨rfl, rfl, rfl, rfl, rfl, fun _ _ _ => rfl⟩
  unfold loadNormal
  refine List.foldlRecOn (motive := fun e : Dev => StationKept d e ∧ e.meas = d.meas) _ _ ⟨?_, rfl⟩ fun e ⟨kept, meas⟩ c hc =>
    ⟨kept.trans (regSet_kept e ?_), meas⟩
  · exact (tables _).trans (regSet_kept _ (by decide))
  · intro n hn
    have := above n hn
    have := regOff_sfnTable_lt (List.mem_range.mp hc)
    omega

theorem dieZeroRuns_kept (d : Dev) (body : List Byte) : StationKept d (dieZeroRuns d body) ∧
    getMeas (dieZeroRuns d body) 0 = sha256 (getMeas d 0 ++ (getBoot d 0).digest) := by
  have measured : StationKept d (extendMeas (extendMeas d 0 (getBoot d 0).digest) 1 (((body.drop (Config.fwTableOff body)).drop 0x20).take 32)) :=
    ⟨rfl, rfl, rfl, rfl, rfl, fun _ _ _ => rfl⟩
  unfold dieZeroRuns
  refine List.foldlRecOn (motive := fun e : Dev => StationKept d e ∧ getMeas e 0 = sha256 (getMeas d 0 ++ (getBoot d 0).digest)) _ _ ⟨measured, ?_⟩
    fun e ⟨kept, meas⟩ j hj => ⟨kept.trans (regSet_kept e ?_), meas⟩
  · rw [getMeas_extendMeas, if_neg (by omega), getMeas_extendMeas, if_pos rfl]
  · have apart : ∀ j < 4, ∀ n ∈ stationRegs, regOff n 0 0 % 0x20000000 ≠ regOff .abwIdkey 0 j % 0x20000000 := by decide
    exact apart j (List.mem_range.mp hj)

/-! ### One station's FW_END -/

/-- The station runs its image, before the die's phase follows. -/
def Dev.verified (d : Dev) (y : Nat) : Dev :=
  let b := getBoot d y
  rset (rset (rset (rset (setBoot d y { b with fwSize := none, digest := sha256 (b.fw.take 0x80), fw := [] }) .abwFw y 0 0 31 0 (bytesNat b.fw 8 4))
    .abwFw y 0 0 47 32 (bytesNat b.fw 0x0C 2)) .pkgClk y 0 0 1 1 1) .abwStation y 0 0 2 0 2

/-- The body of the image that a die has received. -/
def fwBody (d : Dev) (y : Nat) : List Byte := ((getBoot d y).fw.drop fwBodyOff).take (bytesNat (getBoot d y).fw 0x10 4)

/-- A station in which the image runs. -/
def Dev.running (d : Dev) (y : Nat) : Dev :=
  let e := loadNormal (setPhase (d.verified y) y 2 0) y (fwBody d y)
  if y = 0 then dieZeroRuns e (fwBody d y) else e

theorem fwEnd_cases (d : Dev) (y : Nat) : fwEnd d y = d ∨ (∃ code, fwEnd d y = refuseFw d y code) ∨ fwEnd d y = d.running y := by
  unfold fwEnd
  dsimp only
  split
  · exact .inl rfl
  · split
    · exact .inr (.inl ⟨_, rfl⟩)
    · split
      · exact .inr (.inl ⟨_, rfl⟩)
      · exact .inr (.inr rfl)

theorem verified_station (d : Dev) (y : Nat) : StationStep y d (d.verified y) := by
  have ends : StationStep y d (setBoot d y { getBoot d y with fwSize := none, digest := sha256 ((getBoot d y).fw.take 0x80), fw := [] }) :=
    setBoot_stationStep d y _ rfl rfl
  exact ends.trans ((rset_stationStep _ y (by decide)).trans ((rset_stationStep _ y (by decide)).trans ((rset_stationStep _ y (by decide)).trans
    (rset_stationStep _ y (by decide)))))

/-- What the tables, and on die 0 the identity, leave of a station whose phase is TRAIN. -/
theorem running_kept (d : Dev) (y : Nat) : StationKept (setPhase (d.verified y) y 2 0) (d.running y) ∧
    (y ≠ 0 → (d.running y).meas = d.meas) ∧ (y = 0 → getMeas (d.running y) 0 = sha256 (getMeas d 0 ++ (getBoot (d.verified y) 0).digest)) := by
  obtain ⟨loads, meas⟩ := loadNormal_kept (setPhase (d.verified y) y 2 0) y (fwBody d y)
  have before : (loadNormal (setPhase (d.verified y) y 2 0) y (fwBody d y)).meas = d.meas := meas.trans (setPhase_step ..).meas
  unfold Dev.running
  dsimp only
  split
  · next zero =>
    obtain ⟨runs, measured⟩ := dieZeroRuns_kept (loadNormal (setPhase (d.verified y) y 2 0) y (fwBody d y)) (fwBody d y)
    refine ⟨loads.trans runs, fun other => absurd zero other, fun _ => ?_⟩
    rw [measured, loads.getBoot, (setPhase_step (d.verified y) y 2 0).boots 0, getMeas, before]
    rfl
  · next other => exact ⟨loads, fun _ => before, fun zero => absurd zero other⟩

theorem fwEnd_station (d : Dev) (y : Nat) : StationStep y d (fwEnd d y) := by
  obtain h | ⟨code, h⟩ | h := fwEnd_cases d y
  · rw [h]
    exact .refl y d
  · rw [h]
    exact refuseFw_station ..
  · obtain ⟨kept, meas, -⟩ := running_kept d y
    have phased : StationStep y d (setPhase (d.verified y) y 2 0) := (verified_station d y).trans (setPhase_step ..).station
    rw [h]
    refine phased.trans (kept.station fun other => ?_)
    rw [meas other, (setPhase_step (d.verified y) y 2 0).meas]
    rfl

theorem fwEnd_short {n : Nat} (size : (getBoot d y).fwSize = some n) (phase : bootPhase d y ≠ 4) (there : reaches d y = true)
    (short : (getBoot d y).fw.length < n ∨ (getBoot d y).fw.length < fwBodyOff) : fwEnd d y = refuseFw d y 1 := by
  unfold fwEnd
  rw [supplySize_eq size phase there]
  exact if_pos short

theorem fwEnd_bad {n : Nat} (size : (getBoot d y).fwSize = some n) (phase : bootPhase d y ≠ 4) (there : reaches d y = true)
    (whole : n ≤ (getBoot d y).fw.length ∧ fwBodyOff ≤ (getBoot d y).fw.length) (bad : sha256 (fwBody d y) ≠ ((getBoot d y).fw.drop 0x20).take 32) :
    fwEnd d y = refuseFw d y 5 := by
  unfold fwEnd
  rw [supplySize_eq size phase there]
  exact (if_neg (by omega)).trans (if_pos bad)

theorem fwEnd_good {n : Nat} (size : (getBoot d y).fwSize = some n) (phase : bootPhase d y ≠ 4) (there : reaches d y = true)
    (whole : n ≤ (getBoot d y).fw.length ∧ fwBodyOff ≤ (getBoot d y).fw.length) (good : sha256 (fwBody d y) = ((getBoot d y).fw.drop 0x20).take 32) :
    fwEnd d y = d.running y := by
  unfold fwEnd
  rw [supplySize_eq size phase there]
  exact (if_neg (by omega)).trans (if_neg (not_not_intro good))

/-- A station that runs an image shows it. -/
theorem running_left (d : Dev) (y : Nat) : stationState (d.running y) y = 2 ∧ rfld (d.running y) .abwFw y 0 0 31 0 = bytesNat (getBoot d y).fw 8 4 ∧
    rfld (d.running y) .abwFw y 0 0 47 32 = bytesNat (getBoot d y).fw 0x0C 2 ∧ (getBoot (d.running y) y).digest = sha256 ((getBoot d y).fw.take 0x80) ∧
    rfld (d.running y) .pkgClk y 0 0 1 1 = 1 ∧ (y = 0 → getMeas (d.running y) 0 = sha256 (getMeas d 0 ++ sha256 ((getBoot d y).fw.take 0x80))) := by
  obtain ⟨kept, -, measured⟩ := running_kept d y
  have step := setPhase_step (d.verified y) y 2 0
  have boot : getBoot (d.verified y) y = { getBoot d y with fwSize := none, digest := sha256 ((getBoot d y).fw.take 0x80), fw := [] } :=
    (getBoot_setBoot ..).trans (if_pos rfl)
  have same {n : RegName} {h l : Nat} (hn : n ∈ stationRegs) (other : regOff n 0 0 % 0x20000000 ≠ regOff .abwBoot 0 0 % 0x20000000) :
      rfld (d.running y) n y 0 0 h l = rfld (d.verified y) n y 0 0 h l := by
    obtain ⟨-, tri, evt⟩ := stationRegs_off n hn
    rw [kept.rfld hn]
    exact step.rfld (regKey_ne_of_off other) (regKey_ne_of_off tri) (regKey_ne_of_off evt)
  have clkFw : regKey .abwFw y 0 0 ≠ regKey .pkgClk y 0 0 := regKey_ne_of_off (by decide)
  have stationFw : regKey .abwFw y 0 0 ≠ regKey .abwStation y 0 0 := regKey_ne_of_off (by decide)
  have stationClk : regKey .pkgClk y 0 0 ≠ regKey .abwStation y 0 0 := regKey_ne_of_off (by decide)
  refine ⟨?_, ?_, ?_, ?_, ?_, fun zero => ?_⟩
  · rw [stationState, same (by decide) (by decide)]
    exact rfld_rset_fits (by omega) (by omega)
  · rw [same (by decide) (by decide), Dev.verified, rfld_rset_other stationFw, rfld_rset_other clkFw, rfld_rset_beside (by omega) (by omega)]
    exact rfld_rset_fits (by omega) (bytesNat_lt ..)
  · rw [same (by decide) (by decide), Dev.verified, rfld_rset_other stationFw, rfld_rset_other clkFw]
    exact rfld_rset_fits (by omega) (bytesNat_lt ..)
  · rw [kept.getBoot, step.boots y, boot]
  · rw [same (by decide) (by decide), Dev.verified, rfld_rset_other stationClk]
    exact rfld_rset_fits (by omega) (by omega)
  · have own := boot
    rw [zero] at own
    rw [measured zero, zero, own]

/-! ### The match of the dies (R639) -/

/-- What dies that fail for their headers leave of the others and of themselves. -/
structure Matched (d e : Dev) : Prop where
  cores : e.cores = d.cores
  mem : e.mem = d.mem
  meas : e.meas = d.meas
  digests : ∀ x, (getBoot e x).digest = (getBoot d x).digest
  regs : ∀ n ∈ [RegName.abwStation, .abwFw, .pkgClk], ∀ x, regGet e n x 0 0 = regGet d n x 0 0

theorem Matched.refl (d : Dev) : Matched d d := ⟨rfl, rfl, rfl, fun _ => rfl, fun _ _ _ => rfl⟩

theorem PhaseStep.matched (s : PhaseStep y d e) : Matched d e := by
  have apart : ∀ n ∈ [RegName.abwStation, .abwFw, .pkgClk], ∀ m ∈ [RegName.abwBoot, .abwTri, .cmdEvtStat],
      regOff n 0 0 % 0x20000000 ≠ regOff m 0 0 % 0x20000000 := by decide
  refine ⟨s.cores, s.mem, s.meas, fun x => by rw [s.boots x], fun n hn x => s.regs n x 0 0 ?_ ?_ ?_⟩
  · exact regKey_ne_of_off (apart n hn _ (by decide))
  · exact regKey_ne_of_off (apart n hn _ (by decide))
  · exact regKey_ne_of_off (apart n hn _ (by decide))

theorem Matched.trans (h : Matched d e) (g : Matched e t) : Matched d t :=
  ⟨g.cores.trans h.cores, g.mem.trans h.mem, g.meas.trans h.meas, fun x => (g.digests x).trans (h.digests x), fun n hn x => (g.regs n hn x).trans (h.regs n hn x)⟩

theorem matchDies_matched (d : Dev) : Matched d (matchDies d) := by
  unfold matchDies
  split
  · exact .refl d
  · refine List.foldlRecOn (motive := Matched d) _ _ (.refl d) fun e h y _ => ?_
    split
    · exact h.trans (failDie_step e y 5).matched
    · exact h

theorem Matched.rfld {n : RegName} {hi lo : Nat} (h : Matched d e) (hn : n ∈ [RegName.abwStation, .abwFw, .pkgClk]) (x : Nat) :
    rfld e n x 0 0 hi lo = rfld d n x 0 0 hi lo := congrArg (fld · hi lo) (h.regs n hn x)

end

/-! ### The messages of a package without a halt -/

section
variable {s : State}

theorem fwBegin_completes {mask : BitVec 8} {n : Nat} (released : s.dev.pkg.released = true) (runs : triHalted s.dev = false) :
    Completes (.fwBegin mask n) s fun t => BootOnly s.dev t ∧ ∀ x, x < s.dev.part.dies →
      (mask.getLsbD x = true → stationState s.dev x = 0 ∨ stationState s.dev x = 3 → bootPhase s.dev x ≠ 4 → s.dev.pkg.tmode = false →
        (getBoot s.dev x).locked = true → reaches s.dev x = true →
          stationState t x = 1 ∧ bootPhase t x = 1 ∧ (getBoot t x).fwSize = some n ∧ (getBoot t x).fw = []) ∧
      (mask.getLsbD x = false ∨ reaches s.dev x = false → stationState t x = stationState s.dev x ∧ getBoot t x = getBoot s.dev x) := by
  refine completes_runOk (t := allDies s.dev (fwBegin mask n)) (show exec (.fwBegin mask n) s = execFwBegin mask n s from rfl) rfl nofun
    (by rw [released, runs]; rfl) ⟨allDies_bootOnly (fwBegin_bootOnly mask n) _ _, fun x hx => ?_⟩
  obtain ⟨e, before, after⟩ := allDies_own (fwBegin_station mask n) hx s.dev
  refine ⟨fun named waits phase tmode locked there => ?_, fun left => ?_⟩
  · have loads := fwBegin_loads (size := n) named (before.station ▸ waits) (before.phase ▸ phase) (before.tmode ▸ tmode) ((before.chain x).1 ▸ locked)
      (before.reaches ▸ there)
    rw [allDies, after.station, after.phase, after.boot]
    exact loads
  · have stays : fwBegin mask n e x = e := fwBegin_leaves (before.reaches ▸ left)
    rw [stays] at after
    exact ⟨after.station.trans before.station, after.boot.trans before.boot⟩

theorem fwData_completes {off : Nat} {b : List (BitVec 8)} (released : s.dev.pkg.released = true) (runs : triHalted s.dev = false) (len : b.length = 64)
    (line : off % 64 = 0) : Completes (.fwData off b) s fun t =>
      BootOnly s.dev t ∧ ∀ x n, x < s.dev.part.dies → (getBoot s.dev x).fwSize = some n → bootPhase s.dev x ≠ 4 → reaches s.dev x = true →
        (off ≠ (getBoot s.dev x).fw.length → stationState t x = 3 ∧ rfld t .abwStation x 0 0 15 8 = 1 ∧ bootPhase t x = 0 ∧ (getBoot t x).fwSize = none) ∧
        (off = (getBoot s.dev x).fw.length → off + 64 < fwBodyOff ∨ fwBodyOff ≤ off →
          (getBoot t x).fw = (getBoot s.dev x).fw ++ b ∧ (getBoot t x).fwSize = some n ∧
          stationState t x = stationState s.dev x) := by
  refine completes_runOk (t := allDies s.dev (fwData off b)) (show exec (.fwData off b) s = execFwData off b s from rfl) rfl nofun
    (by rw [released, runs, decide_eq_true len, decide_eq_true line]; rfl) ⟨allDies_bootOnly (fwData_bootOnly off b) _ _, fun x n hx size phase there => ?_⟩
  obtain ⟨e, before, after⟩ := allDies_own (fwData_station off b) hx s.dev
  rw [← before.phase] at phase
  rw [← before.reaches] at there
  rw [← before.boot] at size ⊢
  refine ⟨fun gap => ?_, fun next header => ?_⟩
  · have refused := fwData_gap (b := b) size phase there gap
    rw [allDies, after.station, after.phase, after.boot, after.rfld (by decide), refused]
    exact refuseFw_left (by omega)
  · have takes := fwData_appends (b := b) size phase there next (len ▸ header)
    rw [allDies, after.boot, after.station, takes, getBoot_setBoot, if_pos rfl]
    exact ⟨rfl, size, before.station⟩

theorem fwEnd_completes (released : s.dev.pkg.released = true) (runs : triHalted s.dev = false) : Completes .fwEnd s fun t => t.cores = s.dev.cores ∧
    MemSame s.dev t ∧ ∀ x n fw body, x < s.dev.part.dies → (getBoot s.dev x).fwSize = some n → bootPhase s.dev x ≠ 4 → reaches s.dev x = true →
      fw = (getBoot s.dev x).fw → body = (fw.drop fwBodyOff).take (bytesNat fw 0x10 4) →
      (fw.length < n ∨ fw.length < fwBodyOff → stationState t x = 3 ∧ rfld t .abwStation x 0 0 15 8 = 1) ∧
      (n ≤ fw.length → fwBodyOff ≤ fw.length → sha256 body ≠ (fw.drop 0x20).take 32 → stationState t x = 3 ∧ rfld t .abwStation x 0 0 15 8 = 5) ∧
      (n ≤ fw.length → fwBodyOff ≤ fw.length → sha256 body = (fw.drop 0x20).take 32 → stationState t x = 2 ∧ rfld t .abwFw x 0 0 31 0 = bytesNat fw 8 4 ∧
        rfld t .abwFw x 0 0 47 32 = bytesNat fw 0x0C 2 ∧ (getBoot t x).digest = sha256 (fw.take 0x80) ∧ rfld t .pkgClk x 0 0 1 1 = 1 ∧
        (x = 0 → getMeas t 0 = sha256 (getMeas s.dev 0 ++ sha256 (fw.take 0x80)))) := by
  have last := matchDies_matched (allDies s.dev fwEnd)
  obtain ⟨cores, mem⟩ := allDies_work fwEnd_station (List.range s.dev.part.dies) s.dev
  refine completes_runOk (t := matchDies (allDies s.dev fwEnd)) (show exec .fwEnd s = execFwEnd s from rfl) rfl nofun
    (by rw [released, runs]; rfl) ⟨last.cores.trans cores, fun k => congrArg (tget unlisted · k) (last.mem.trans mem), ?_⟩
  intro x n fw body hx size phase there hfw hbody
  subst hfw hbody
  obtain ⟨e, before, after⟩ := allDies_own fwEnd_station hx s.dev
  have state (h l : Nat) : rfld (matchDies (allDies s.dev fwEnd)) .abwStation x 0 0 h l = rfld (fwEnd e x) .abwStation x 0 0 h l :=
    (last.rfld (by decide) x).trans (after.rfld (by decide))
  have zero : x = 0 → getMeas e 0 = getMeas s.dev 0 := fun own => congrArg (tget zeros32 · 0) (before.meas own)
  rw [← before.phase] at phase
  rw [← before.reaches] at there
  rw [← before.boot] at size ⊢
  refine ⟨fun short => ?_, fun whole header bad => ?_, fun whole header good => ?_⟩
  · rw [stationState, state, state, fwEnd_short size phase there short]
    obtain ⟨refused, code, -⟩ := refuseFw_left (d := e) (y := x) (code := 1) (by omega)
    exact ⟨refused, code⟩
  · rw [stationState, state, state, fwEnd_bad size phase there ⟨whole, header⟩ bad]
    obtain ⟨refused, code, -⟩ := refuseFw_left (d := e) (y := x) (code := 5) (by omega)
    exact ⟨refused, code⟩
  · have runs := fwEnd_good size phase there ⟨whole, header⟩ good
    obtain ⟨state2, version, svn, digest, clock, measured⟩ := running_left e x
    rw [runs] at state after
    rw [stationState, state, last.rfld (by decide) x, last.rfld (by decide) x, last.rfld (by decide) x, last.digests x, allDies, after.rfld (by decide),
      after.rfld (by decide), after.rfld (by decide), after.boot]
    refine ⟨state2, version, svn, digest, clock, fun own => ?_⟩
    have kept : getMeas (matchDies (allDies s.dev fwEnd)) 0 = getMeas (e.running x) 0 :=
      congrArg (tget zeros32 · 0) (last.meas.trans (after.meas own))
    exact kept.trans ((measured own).trans (by rw [zero own]))

end
end Sys2Proof.Machine
end
section
/-!
SUPPORT. Release, positions, messages and the mesh (chapter 19, Release, Training): what each event leaves of the dies and links that it names.
-/

namespace Sys2Proof.Machine

/-! ### Messages (R634) -/

theorem fld_ofNat (v hi lo : Nat) : fld (BitVec.ofNat 64 v) hi lo = v % 2 ^ 64 / 2 ^ lo % 2 ^ (hi + 1 - lo) := by rw [fld, BitVec.toNat_ofNat]

section
variable {d e t : Dev} {y : Nat}

theorem sendMessage_sent {w : Nat} (there : reaches d y = true) : (sendMessage d y w).pkg.messages = BitVec.ofNat 64 w :: d.pkg.messages := by
  rw [sendMessage_eq, if_pos there]
  rfl

theorem sendMessage_lost {w : Nat} (cut : reaches d y = false) : sendMessage d y w = d := by
  rw [sendMessage_eq, if_neg (by simp [cut])]

end

section
variable {s : State} {die m : Nat}

theorem announce_sends (hd : die < 8) (here : die < s.dev.part.dies) (locked : (getBoot s.dev die).locked = true) (fresh : (getBoot s.dev die).announced = false) :
    Completes (.announce die) s fun t => BootOnly s.dev t ∧ (getBoot t die).announced = true ∧ t.regs = s.dev.regs ∧
      (reaches s.dev die = true → ∃ w, t.pkg.messages = w :: s.dev.pkg.messages ∧ fld w 7 0 = 1 ∧ fld w 15 8 = die) ∧
      (reaches s.dev die = false → t.pkg = s.dev.pkg) := by
  obtain ⟨e, own⟩ : ∃ e, e = setBoot s.dev die { getBoot s.dev die with announced := true } := ⟨_, rfl⟩
  have only : BootOnly s.dev e := own ▸ rfl
  have boot (x : Nat) : getBoot e x = if x = die then { getBoot s.dev die with announced := true } else getBoot s.dev x := own ▸ getBoot_setBoot ..
  have chain (x : Nat) : (getBoot e x).locked = (getBoot s.dev x).locked ∧ (getBoot e x).silent = (getBoot s.dev x).silent := by
    rw [boot]
    split
    · next own => exact own ▸ ⟨rfl, rfl⟩
    · exact ⟨rfl, rfl⟩
  have same : reaches e die = reaches s.dev die := reaches_congr (own ▸ rfl) chain die
  have regs : e.regs = s.dev.regs := own ▸ rfl
  have pkg : e.pkg = s.dev.pkg := own ▸ rfl
  refine completes_runOk (t := sendMessage e die (1 + 2 ^ 8 * die + 2 ^ 32 * (s.dev.part.dies + 2 ^ 4 * (Config.stepping die).toNat + 2 ^ 12 * b2n (!s.dev.part.gradeA))))
    (show exec (.announce die) s = execAnnounce die s from rfl) (decide_eq_true hd) (by simpa using here)
    (by rw [own]; exact if_pos (by rw [locked, fresh]; rfl))
    ⟨only.trans (sendMessage_bootOnly ..), ?_, (sendMessage_regs ..).trans regs, fun there => ?_, fun cut => ?_⟩
  · rw [(sendMessage_step ..).boots die, boot, if_pos rfl]
  · refine ⟨_, (sendMessage_sent (same.trans there)).trans (by rw [pkg]), ?_, ?_⟩
    · rw [fld_ofNat]
      omega
    · rw [fld_ofNat]
      omega
  · rw [sendMessage_lost (same.trans cut), pkg]

theorem progress_sends (hd : die < 8) (here : die < s.dev.part.dies) (announced : (getBoot s.dev die).announced = true) (early : pkgReady s.dev = false) :
    Completes (.progress die) s fun t => BootOnly s.dev t ∧ t.regs = s.dev.regs ∧ (reaches s.dev die = false → t = s.dev) ∧
      (reaches s.dev die = true → ∃ w, t.pkg.messages = w :: s.dev.pkg.messages ∧ fld w 7 0 = 2 ∧ fld w 15 8 = die ∧
        fld w 19 16 = bootPhase s.dev die ∧ fld w 23 20 = bootFail s.dev die) := by
  refine completes_runOk (show exec (.progress die) s = execProgress die s from rfl) (decide_eq_true hd) (by simpa using here)
    (by rw [announced, early]; rfl) ⟨sendMessage_bootOnly .., sendMessage_regs .., fun cut => sendMessage_lost cut, fun there => ⟨_, sendMessage_sent there, ?_⟩⟩
  have both : rfld s.dev .abwBoot die 0 0 7 0 < 2 ^ 8 := fld_lt
  have code : rfld s.dev .abwStation die 0 0 15 8 < 2 ^ 8 := fld_lt
  have phase : bootPhase s.dev die = rfld s.dev .abwBoot die 0 0 7 0 % 2 ^ 4 := by
    simp only [bootPhase, rfld, fld]
    omega
  have fail : bootFail s.dev die = rfld s.dev .abwBoot die 0 0 7 0 / 2 ^ 4 := by
    simp only [bootFail, rfld, fld]
    omega
  rw [phase, fail, fld_ofNat, fld_ofNat, fld_ofNat, fld_ofNat]
  refine ⟨?_, ?_, ?_, ?_⟩ <;> omega

/-! ### Positions (R632, R633) -/

theorem rootPllLock_locks {x : BitVec 3} {y : Bool} {ones : Nat} (hd : die < 8) (here : die < s.dev.part.dies) (released : s.dev.pkg.released = true)
    (fresh : (getBoot s.dev die).locked = false) (count : ones = b2n (x.getLsbD 0) + b2n (x.getLsbD 1) + b2n (x.getLsbD 2) + b2n y)
    (still : NotJustReady s.dev) : Completes (.rootPllLock die x y) s fun t => BootOnly s.dev t ∧ (getBoot t die).locked = true ∧
      rfld t .abwId die 0 0 18 16 = x.toNat ∧ (ones % 2 = 1 → x.toNat < s.dev.part.dies → bootPhase t die = bootPhase s.dev die) ∧
      (ones % 2 = 0 ∨ s.dev.part.dies ≤ x.toNat → bootPhase s.dev die ≠ 4 → bootPhase t die = 4 ∧ bootFail t die = 1) := by
  obtain ⟨e, own⟩ : ∃ e, e = rset (rset (setBoot s.dev die { getBoot s.dev die with locked := true }) .pkgClk die 0 0 0 0 1)
      .abwId die 0 0 18 16 x.toNat := ⟨_, rfl⟩
  have only : BootOnly s.dev e := own ▸ rfl
  have boot : getBoot e die = { getBoot s.dev die with locked := true } := by
    rw [own]
    exact (getBoot_setBoot ..).trans (if_pos rfl)
  have place : rfld e .abwId die 0 0 18 16 = x.toNat := by
    rw [own]
    exact rfld_rset_fits (by omega) x.isLt
  have phase : bootPhase e die = bootPhase s.dev die := by
    rw [own]
    exact (rfld_rset_other (regKey_ne_of_off (by decide))).trans (rfld_rset_other (regKey_ne_of_off (by decide)))
  refine completes_runOk (t := if ones % 2 = 0 ∨ s.dev.part.dies ≤ x.toNat then failDie e die 1 else e)
    (show exec (.rootPllLock die x y) s = execRootPllLock die x y s from rfl) (decide_eq_true hd) (by simpa using here)
    (by rw [count, own]; exact if_pos (by rw [released, fresh]; rfl)) ?_
  split
  · next bad =>
    have step := failDie_step e die 1
    refine ⟨only.trans (failDie_bootOnly (only.notJustReady still) ..), ?_, ?_, fun _ _ => by omega, fun _ first => failDie_phase (phase ▸ first) (by omega)⟩
    · rw [step.boots die, boot]
    · rw [step.rfld (regKey_ne_of_off (by decide)) (regKey_ne_of_off (by decide)) (regKey_ne_of_off (by decide)), place]
  · next good => exact ⟨only, by rw [boot], place, fun _ _ => phase, fun bad => absurd bad good⟩

/-- What POSITION_EXCHANGE stores. -/
theorem positionExchange_runs {m : Nat} {p : Option Nat} {P : Dev → Prop} (hd : die < 8) (hm : m < 4) (here : die < s.dev.part.dies)
    (locked : (getBoot s.dev die).locked = true)
    (q : P (if facing s.dev.part.dies (rfld s.dev .abwId die 0 0 18 16) m = p.elim Facing.command Facing.die then rset s.dev .uciLink die 0 m 5 5 (b2n p.isNone)
      else failDie (rset s.dev .uciLink die 0 m 5 5 (b2n p.isNone)) die 1)) : Completes (.positionExchange die m p) s P :=
  completes_runOk (show exec (.positionExchange die m p) s = execPositionExchange die m p s from rfl) (by simp [hd, hm]) (by simpa using here)
    (by cases p <;> (rw [locked]; rfl)) q

theorem regOff_uciLink (m : Nat) : regOff .uciLink 0 m = 318767104 + 256 * m := rfl

theorem uciLink_apart {m : Nat} (hm : m < 4) :
    ∀ n ∈ [RegName.abwBoot, .abwTri, .cmdEvtStat, .pkgClk], regOff .uciLink 0 m % 0x20000000 ≠ regOff n 0 0 % 0x20000000 := by
  have all : ∀ m < 4, ∀ n ∈ [RegName.abwBoot, .abwTri, .cmdEvtStat, .pkgClk], regOff .uciLink 0 m % 0x20000000 ≠ regOff n 0 0 % 0x20000000 := by decide
  exact all m hm

/-- A step of a die's phase leaves every link. -/
theorem PhaseStep.link {d e : Dev} {y x m h l : Nat} (s : PhaseStep y d e) (hm : m < 4) : Machine.rfld e .uciLink x 0 m h l = Machine.rfld d .uciLink x 0 m h l :=
  s.rfld (regKey_ne_of_off (uciLink_apart hm _ (by decide))) (regKey_ne_of_off (uciLink_apart hm _ (by decide)))
    (regKey_ne_of_off (uciLink_apart hm _ (by decide)))

theorem bootPhase_link (d : Dev) {m : Nat} (hm : m < 4) (x y hi lo v : Nat) : bootPhase (rset d .uciLink x 0 m hi lo v) y = bootPhase d y :=
  rfld_rset_other (regKey_ne_of_off (uciLink_apart hm .abwBoot (by decide)).symm)

theorem bootFail_link (d : Dev) {m : Nat} (hm : m < 4) (x y hi lo v : Nat) : bootFail (rset d .uciLink x 0 m hi lo v) y = bootFail d y :=
  rfld_rset_other (regKey_ne_of_off (uciLink_apart hm .abwBoot (by decide)).symm)

theorem b2n_isNone (p : Option Nat) : b2n p.isNone = if p = none then 1 else 0 := by
  cases p
  · rfl
  · rfl

theorem positionExchange_checks {m : Nat} {p : Option Nat} (hd : die < 8) (hm : m < 4) (here : die < s.dev.part.dies)
    (locked : (getBoot s.dev die).locked = true) (still : NotJustReady s.dev) : Completes (.positionExchange die m p) s fun t => BootOnly s.dev t ∧
      rfld t .uciLink die 0 m 5 5 = (if p = none then 1 else 0) ∧
      (facing s.dev.part.dies (rfld s.dev .abwId die 0 0 18 16) m = p.elim Facing.command Facing.die → bootPhase t die = bootPhase s.dev die) ∧
      (facing s.dev.part.dies (rfld s.dev .abwId die 0 0 18 16) m ≠ p.elim Facing.command Facing.die → bootPhase s.dev die ≠ 4 →
        bootPhase t die = 4 ∧ bootFail t die = 1) := by
  have stored : rfld (rset s.dev .uciLink die 0 m 5 5 (b2n p.isNone)) .uciLink die 0 m 5 5 = if p = none then 1 else 0 := by
    rw [rfld_rset_fits (by omega) (Nat.lt_of_le_of_lt (b2n_le _) (by omega)), b2n_isNone]
  refine positionExchange_runs hd hm here locked ?_
  split
  · next fits => exact ⟨rfl, stored, fun _ => bootPhase_link s.dev hm .., fun wrong => absurd fits wrong⟩
  · next wrong =>
    have only : BootOnly s.dev (rset s.dev .uciLink die 0 m 5 5 (b2n p.isNone)) := rfl
    refine ⟨only.trans (failDie_bootOnly (only.notJustReady still) ..), ?_, fun fits => absurd fits wrong, fun _ first => ?_⟩
    · rw [(failDie_step _ die 1).link hm, stored]
    · exact failDie_phase (by rwa [bootPhase_link s.dev hm]) (by omega)

/-! ### READY taken back (R654) -/

theorem Logged.congr {die : Nat} {x : ErrInfo} {b d t u : Dev} (h : Logged die x d t) (tick : b.tick = d.tick) (before : getRing b die = getRing d die)
    (after : getRing u die = getRing t die) : Logged die x b u := by
  unfold Logged at *
  rw [tick, before, after]
  exact h

theorem regGet_setPhase_other {d : Dev} {y p f : Nat} {n : RegName} {x i j : Nat} (other : regKey n x i j ≠ regKey .abwBoot y 0 0) :
    regGet (setPhase d y p f) n x i j = regGet d n x i j := by
  obtain ⟨w, same⟩ := setPhase_eq d y p f
  rw [same, regGet_sendMessage]
  unfold Dev.phased
  dsimp only
  split
  · exact (regGet_regSet_other _ _ other).trans ((regGet_regSet_other _ _ other).trans (regGet_regSet_other _ _ other))
  · exact (regGet_regSet_other _ _ other).trans (regGet_regSet_other _ _ other)

theorem positionExchange_takesBack {m : Nat} {p : Option Nat} {old : W64} (hd : die < 8) (hm : m < 4) (here : die < s.dev.part.dies)
    (locked : (getBoot s.dev die).locked = true) (wrong : facing s.dev.part.dies (rfld s.dev .abwId die 0 0 18 16) m ≠ p.elim Facing.command Facing.die)
    (first : bootPhase s.dev die ≠ 4) (ready : s.dev.pkg.readyAt = some (s.dev.tick, old)) : Completes (.positionExchange die m p) s fun t =>
      bootPhase t die = 4 ∧ bootFail t die = 1 ∧ regGet t .abwTri 0 0 0 = old ∧
      Logged 0 ⟨191, 68, .none, .info, 0, [regAddr .abwTri 0 0 0, rfld s.dev .abwTri 0 0 0 24 0]⟩ s.dev t := by
  refine positionExchange_runs hd hm here locked ?_
  rw [if_neg wrong]
  obtain ⟨e, own⟩ : ∃ e, e = rset s.dev .uciLink die 0 m 5 5 (b2n p.isNone) := ⟨_, rfl⟩
  rw [← own]
  have now : e.pkg.readyAt = some (e.tick, old) := own ▸ ready
  have value : rfld e .abwTri 0 0 0 24 0 = rfld s.dev .abwTri 0 0 0 24 0 := by
    rw [own]
    exact rfld_rset_other (regKey_ne_of_off (uciLink_apart hm .abwTri (by decide)).symm)
  have phase : bootPhase e die ≠ 4 := by
    rw [own, bootPhase_link s.dev hm]
    exact first
  obtain ⟨fails, cause⟩ := failDie_phase phase (f := 1) (by omega)
  have back : failDie e die 1 = setPhase (logIgnoredAt (e.unready old) .abwTri 0 0 0 (rfld e .abwTri 0 0 0 24 0)) die 4 1 := by
    rw [failDie_first phase, undoReady_now now]
  refine ⟨fails, cause, ?_, ?_⟩
  · rw [back, regGet_setPhase_other (regKey_ne_of_off (by decide))]
    refine (regGet_logErr _ _ _ (regKey_ne_of_off (by decide))).trans ?_
    exact regGet_regSet_self ..
  · rw [back, value]
    refine (logIgnoredAt_ignored (e.unready old) .abwTri 0 0 0 (rfld s.dev .abwTri 0 0 0 24 0)).2.congr ?_ ?_ ?_
    · rw [own]
      rfl
    · rw [own]
      rfl
    · exact (setPhase_bootOnly ..).keeps (getRing · 0) fun _ _ _ _ => rfl

end
end Sys2Proof.Machine
end
section
/-!
SUPPORT. Mesh links (chapter 19, Training; chapter 12, UCIe): what happens to both ends of a link, and what goes on after a retrain.
-/

namespace Sys2Proof.Machine

/-! ### Both ends of a link -/

/-- A step at one module: its register alone, as P relates its old and new values. -/
structure LinkStep (f : Dev → Nat → Nat → Dev) (P : W64 → W64 → Prop) : Prop where
  only : ∀ d x m, RegsOnly d (f d x m)
  own : ∀ d x m, P (regGet d .uciLink x 0 m) (regGet (f d x m) .uciLink x 0 m)
  others : ∀ d x m n p i j, regKey n p i j ≠ regKey .uciLink x 0 m → regGet (f d x m) n p i j = regGet d n p i j

theorem farModule_lt (m : Nat) : farModule m < 4 := by
  unfold farModule
  split <;> omega

theorem farModule_ne {m : Nat} (hm : m < 4) : farModule m ≠ m := by
  have all : ∀ m < 4, farModule m ≠ m := by decide
  exact all m hm

/-- Modules of a mesh lie at keys of their own. -/
theorem uciLink_ne {x y m k : Nat} (hm : m < 4) (hk : k < 4) (h : x ≠ y ∨ m ≠ k) : regKey .uciLink x 0 m ≠ regKey .uciLink y 0 k := by
  unfold regKey
  rw [regOff_uciLink, regOff_uciLink]
  omega

section
variable {d : Dev} {die m : Nat} {f : Dev → Nat → Nat → Dev} {P : W64 → W64 → Prop}

theorem bothEnds_cases (d : Dev) (die m : Nat) (f : Dev → Nat → Nat → Dev) (part : (f d die m).part = d.part) :
    (∃ y, facing d.part.dies die m = .die y ∧ bothEnds d die m f = f (f d die m) y (farModule m)) ∨
      (∀ y, facing d.part.dies die m ≠ .die y) ∧ bothEnds d die m f = f d die m := by
  unfold bothEnds
  dsimp only
  rw [part]
  split
  · next y faces => exact .inl ⟨y, faces, rfl⟩
  · next other => exact .inr ⟨other, rfl⟩

theorem LinkStep.ends (h : LinkStep f P) (hm : m < 4) : RegsOnly d (bothEnds d die m f) ∧
    P (regGet d .uciLink die 0 m) (regGet (bothEnds d die m f) .uciLink die 0 m) ∧
    (∀ y, facing d.part.dies die m = .die y → P (regGet d .uciLink y 0 (farModule m)) (regGet (bothEnds d die m f) .uciLink y 0 (farModule m))) ∧
    ∀ n p i j, (∀ x k, k < 4 → regKey n p i j ≠ regKey .uciLink x 0 k) → regGet (bothEnds d die m f) n p i j = regGet d n p i j := by
  have near := h.only d die m
  have part : (f d die m).part = d.part := near.keeps Dev.part fun _ _ => rfl
  obtain ⟨y, faces, ends⟩ | ⟨alone, ends⟩ := bothEnds_cases d die m f part
  · have apart (x z : Nat) : regKey .uciLink x 0 m ≠ regKey .uciLink z 0 (farModule m) := uciLink_ne hm (farModule_lt m) (.inr (farModule_ne hm).symm)
    rw [ends]
    refine ⟨near.trans (h.only _ _ _), ?_, fun z other => ?_, fun n p i j free => ?_⟩
    · rw [h.others _ _ _ _ _ _ _ (apart die y)]
      exact h.own d die m
    · have same : y = z := Facing.die.inj (faces.symm.trans other)
      subst same
      have own := h.own (f d die m) y (farModule m)
      rwa [h.others d die m _ _ _ _ (apart die y).symm] at own
    · rw [h.others _ _ _ _ _ _ _ (free y _ (farModule_lt m)), h.others _ _ _ _ _ _ _ (free die m hm)]
  · rw [ends]
    exact ⟨near, h.own d die m, fun y faces => absurd faces (alone y), fun n p i j free => h.others _ _ _ _ _ _ _ (free die m hm)⟩

end

theorem linkStep_state {v : Nat} (hv : v < 8) : LinkStep (fun d x m => rset d .uciLink x 0 m 2 0 v) fun _ w => fld w 2 0 = v :=
  ⟨fun _ _ _ => rfl, fun d x m => rfld_rset_fits (d := d) (by omega) hv, fun d x m _ _ _ _ other => regGet_regSet_other d _ other⟩

theorem linkStep_up (mode : BitVec 1) (half : Bool) (repaired : BitVec 16) :
    LinkStep (linkUp mode half repaired) fun _ w => fld w 2 0 = 2 ∧ fld w 4 4 = b2n half ∧ fld w 31 16 = repaired.toNat := by
  refine ⟨fun _ _ _ => rfl, fun d x m => ⟨?_, ?_, ?_⟩, fun d x m n p i j other => ?_⟩
  · have here : rfld (rset (rset (rset (rset d .uciLink x 0 m 2 0 2) .uciLink x 0 m 3 3 mode.toNat) .uciLink x 0 m 4 4 (b2n half)) .uciLink x 0 m 31 16
        repaired.toNat) .uciLink x 0 m 2 0 = 2 := by
      rw [rfld_rset_beside (by omega) (by omega), rfld_rset_beside (by omega) (by omega), rfld_rset_beside (by omega) (by omega)]
      exact rfld_rset_fits (by omega) (by omega)
    exact here
  · have here : rfld (rset (rset (rset (rset d .uciLink x 0 m 2 0 2) .uciLink x 0 m 3 3 mode.toNat) .uciLink x 0 m 4 4 (b2n half)) .uciLink x 0 m 31 16
        repaired.toNat) .uciLink x 0 m 4 4 = b2n half := by
      rw [rfld_rset_beside (by omega) (by omega)]
      exact rfld_rset_fits (by omega) (Nat.lt_of_le_of_lt (b2n_le _) (by omega))
    exact here
  · have here : rfld (rset (rset (rset (rset d .uciLink x 0 m 2 0 2) .uciLink x 0 m 3 3 mode.toNat) .uciLink x 0 m 4 4 (b2n half)) .uciLink x 0 m 31 16
        repaired.toNat) .uciLink x 0 m 31 16 = repaired.toNat := rfld_rset_fits (by omega) repaired.isLt
    exact here
  · exact (regGet_regSet_other _ _ other).trans ((regGet_regSet_other _ _ other).trans ((regGet_regSet_other _ _ other).trans (regGet_regSet_other _ _ other)))

theorem linkStep_retrain : LinkStep (fun d x m => rcount (rset d .uciLink x 0 m 2 0 3) .uciLink x 0 m 63 48 1)
    fun v w => fld w 2 0 = 3 ∧ fld w 63 48 = min 0xFFFF (fld v 63 48 + 1) := by
  refine ⟨fun _ _ _ => rfl, fun d x m => ⟨?_, ?_⟩, fun d x m n p i j other => (regGet_regSet_other _ _ other).trans (regGet_regSet_other d _ other)⟩
  · have here : rfld (rcount (rset d .uciLink x 0 m 2 0 3) .uciLink x 0 m 63 48 1) .uciLink x 0 m 2 0 = 3 := by
      rw [rcount, rfld_rset_beside (by omega) (by omega)]
      exact rfld_rset_fits (by omega) (by omega)
    exact here
  · have here : rfld (rcount (rset d .uciLink x 0 m 2 0 3) .uciLink x 0 m 63 48 1) .uciLink x 0 m 63 48 = min 0xFFFF (rfld d .uciLink x 0 m 63 48 + 1) := by
      have kept : rfld (rset d .uciLink x 0 m 2 0 3) .uciLink x 0 m 63 48 = rfld d .uciLink x 0 m 63 48 := rfld_rset_beside (by omega) (by omega)
      rw [rcount, kept, rfld_rset_fits (by omega) (by simp only [satAdd]; omega)]
      rfl
    exact here

/-! ### Waves (R640) -/

/-- A property of every element that its own step establishes, and no step undoes, holds of each element after a fold. -/
theorem foldl_establishes {σ α : Type} {f : σ → α → σ} {J : σ → Prop} {l : List α} {x : α} (hx : x ∈ l) (own : ∀ d, J (f d x))
    (kept : ∀ d, ∀ y ∈ l, J d → J (f d y)) {d : σ} : J (l.foldl f d) := by
  induction l generalizing d with
  | nil => exact absurd hx (by simp)
  | cons a l ih =>
    rw [List.foldl_cons]
    by_cases later : x ∈ l
    · exact ih later fun d y hy => kept d y (List.mem_cons_of_mem _ hy)
    · have same : x = a := (List.mem_cons.mp hx).resolve_right later
      subst same
      exact List.foldlRecOn (motive := J) l f (own d) fun d h y hy => kept d y (List.mem_cons_of_mem _ hy) h

/-- A link of a wave starts to train at both ends. -/
def waveLink (d : Dev) (l : Nat × Nat) : Dev := bothEnds (rset d .pkgClk l.1 0 0 2 2 1) l.1 l.2 fun d x m => rset d .uciLink x 0 m 2 0 1

theorem waveLinks_lt {d : Dev} {w : Nat} {l : Nat × Nat} (h : l ∈ waveLinks d w) : l.2 < 4 := by
  simp only [waveLinks, List.mem_flatMap, List.mem_map, List.mem_filter, List.mem_range] at h
  obtain ⟨x, -, m, ⟨hm, -⟩, rfl⟩ := h
  exact hm

theorem rset_training_keeps {d : Dev} {x y m k : Nat} (hm : m < 4) (hk : k < 4) (h : uciState d x m = 1) :
    uciState (rset d .uciLink y 0 k 2 0 1) x m = 1 := by
  by_cases same : x = y ∧ m = k
  · obtain ⟨rfl, rfl⟩ := same
    exact rfld_rset_fits (by omega) (by omega)
  · exact (rfld_rset_other (uciLink_ne hm hk (by omega))).trans h

theorem waveLink_regsOnly (d : Dev) {l : Nat × Nat} (hl : l.2 < 4) : RegsOnly d (waveLink d l) :=
  RegsOnly.trans (e := rset d .pkgClk l.1 0 0 2 2 1) rfl ((linkStep_state (by omega)).ends hl).1

theorem waveLink_own (d : Dev) {l : Nat × Nat} (hl : l.2 < 4) : uciState (waveLink d l) l.1 l.2 = 1 := ((linkStep_state (by omega)).ends hl).2.1

theorem waveLink_keeps {d : Dev} {l : Nat × Nat} {x m : Nat} (hl : l.2 < 4) (hm : m < 4) (h : uciState d x m = 1) : uciState (waveLink d l) x m = 1 := by
  have clock : uciState (rset d .pkgClk l.1 0 0 2 2 1) x m = 1 := (rfld_rset_other (regKey_ne_of_off (uciLink_apart hm .pkgClk (by decide)))).trans h
  obtain ⟨y, -, ends⟩ | ⟨-, ends⟩ := bothEnds_cases (rset d .pkgClk l.1 0 0 2 2 1) l.1 l.2 (fun d x m => rset d .uciLink x 0 m 2 0 1) rfl
  · rw [waveLink, ends]
    exact rset_training_keeps hm (farModule_lt _) (rset_training_keeps hm hl clock)
  · rw [waveLink, ends]
    exact rset_training_keeps hm hl clock

section
variable {s : State} {die m : Nat}

theorem meshWaveStart_trains {w : Nat} (hw : w < 16) (released : s.dev.pkg.released = true) (runs : triHalted s.dev = false) (next : w = s.dev.pkg.wave + 1)
    (most : w ≤ waveCount s.dev.part.dies) (before : waveEnded s.dev s.dev.pkg.wave = true) (up : ∀ l ∈ waveLinks s.dev w, stationRuns s.dev l.1 = true) :
    Completes (.meshWaveStart w) s fun t => { t with regs := s.dev.regs, pkg := s.dev.pkg } = s.dev ∧ t.pkg = { s.dev.pkg with wave := w } ∧
      ∀ l ∈ waveLinks s.dev w, uciState t l.1 l.2 = 1 := by
  obtain ⟨e, own⟩ : ∃ e, e = (waveLinks s.dev w).foldl waveLink s.dev := ⟨_, rfl⟩
  have only : RegsOnly s.dev e := own ▸ List.foldlRecOn (motive := RegsOnly s.dev) _ _ rfl fun e h l hl => h.trans (waveLink_regsOnly e (waveLinks_lt hl))
  have pkg : e.pkg = s.dev.pkg := only.keeps Dev.pkg fun _ _ => rfl
  have can : (s.dev.pkg.released && !triHalted s.dev && decide (w = s.dev.pkg.wave + 1) && decide (w ≤ waveCount s.dev.part.dies) &&
      waveEnded s.dev s.dev.pkg.wave && (waveLinks s.dev w).all fun l => stationRuns s.dev l.1) = true := by
    rw [released, runs, decide_eq_true next, decide_eq_true most, before]
    exact List.all_eq_true.mpr up
  refine completes_runOk (t := { e with pkg := { e.pkg with wave := w } }) (show exec (.meshWaveStart w) s = execMeshWaveStart w s from rfl) (decide_eq_true hw)
    nofun (by rw [own]; exact if_pos can) ⟨?_, ?_, fun l hl => ?_⟩
  · have same := congrArg (fun d : Dev => { d with pkg := s.dev.pkg }) only
    exact same
  · rw [pkg]
  · have trains : uciState e l.1 l.2 = 1 := own ▸ foldl_establishes (J := fun e => uciState e l.1 l.2 = 1) hl (fun d => waveLink_own d (waveLinks_lt hl))
      fun d y hy => waveLink_keeps (waveLinks_lt hy) (waveLinks_lt hl)
    exact trains

/-! ### Training and retraining of one link (R410, R640) -/

/-- Both dies of a link take a step of their phase, which touches no link. -/
theorem bothEnds_phase {d : Dev} {f : Dev → Nat → Dev} (step : ∀ d x, PhaseStep x d (f d x)) :
    (∀ x k h l, k < 4 → rfld (bothEnds d die m fun d x _ => f d x) .uciLink x 0 k h l = rfld d .uciLink x 0 k h l) := by
  intro x k h l hk
  obtain ⟨y, -, ends⟩ | ⟨-, ends⟩ := bothEnds_cases d die m (fun d x _ => f d x) (step d die).part
  · rw [ends, (step _ y).link hk, (step d die).link hk]
  · rw [ends, (step d die).link hk]

theorem bothEnds_bootOnly {d : Dev} {f : Dev → Nat → Nat → Dev} (step : ∀ e x k, BootOnly d e → BootOnly e (f e x k)) : BootOnly d (bothEnds d die m f) := by
  have near := step d die m (.refl d)
  obtain ⟨y, -, ends⟩ | ⟨-, ends⟩ := bothEnds_cases d die m f (near.keeps Dev.part fun _ _ _ _ => rfl)
  · rw [ends]
    exact near.trans (step _ _ _ near)
  · rw [ends]
    exact near

/-- The dies of a link that has failed fail. -/
theorem linkFails {d : Dev} (hm : m < 4) : uciState (bothEnds d die m fun d x m => failDie (rset d .uciLink x 0 m 2 0 4) x 4) die m = 4 ∧
    (∀ y, facing d.part.dies die m = .die y → uciState (bothEnds d die m fun d x m => failDie (rset d .uciLink x 0 m 2 0 4) x 4) y (farModule m) = 4) ∧
    (bootPhase d die ≠ 4 → bootPhase (bothEnds d die m fun d x m => failDie (rset d .uciLink x 0 m 2 0 4) x 4) die = 4 ∧
      bootFail (bothEnds d die m fun d x m => failDie (rset d .uciLink x 0 m 2 0 4) x 4) die = 4) := by
  have near : uciState (failDie (rset d .uciLink die 0 m 2 0 4) die 4) die m = 4 :=
    ((failDie_step _ die 4).link hm).trans (rfld_rset_fits (by omega) (by omega))
  have fails (first : bootPhase d die ≠ 4) : bootPhase (failDie (rset d .uciLink die 0 m 2 0 4) die 4) die = 4 ∧
      bootFail (failDie (rset d .uciLink die 0 m 2 0 4) die 4) die = 4 := failDie_phase (by rwa [bootPhase_link d hm]) (by omega)
  obtain ⟨y, faces, ends⟩ | ⟨alone, ends⟩ := bothEnds_cases d die m (fun d x m => failDie (rset d .uciLink x 0 m 2 0 4) x 4) (failDie_step _ die 4).part
  · rw [ends]
    refine ⟨?_, fun z other => ?_, fun first => ?_⟩
    · refine ((failDie_step _ y 4).link hm).trans ?_
      exact (rfld_rset_other (uciLink_ne hm (farModule_lt m) (.inr (farModule_ne hm).symm))).trans near
    · have same : y = z := Facing.die.inj (faces.symm.trans other)
      subst same
      exact ((failDie_step _ y 4).link (farModule_lt m)).trans (rfld_rset_fits (by omega) (by omega))
    · refine failDie_kept ?_
      rw [bootPhase_link _ (farModule_lt m), bootFail_link _ (farModule_lt m)]
      exact fails first
  · rw [ends]
    exact ⟨near, fun y faces => absurd faces (alone y), fails⟩

theorem meshLinkTrained_ends {ok : Bool} {mode : BitVec 1} {half : Bool} {rep : BitVec 16} (hd : die < 8) (hm : m < 4) (here : die < s.dev.part.dies)
    (trains : uciState s.dev die m = 1) (still : NotJustReady s.dev) : Completes (.meshLinkTrained die m ok mode half rep) s fun t => BootOnly s.dev t ∧
      uciState t die m = (if ok = true then 2 else 4) ∧
      (∀ y, facing s.dev.part.dies die m = .die y → uciState t y (farModule m) = if ok = true then 2 else 4) ∧
      (ok = false → bootPhase s.dev die ≠ 4 → bootPhase t die = 4 ∧ bootFail t die = 4) := by
  have opens : exec (.meshLinkTrained die m ok mode half rep) s = execMeshLinkTrained die m ok mode half rep s := rfl
  cases ok with
  | true =>
    obtain ⟨only, near, far, -⟩ := (linkStep_up mode half rep).ends (d := s.dev) (die := die) hm
    have up := bothEnds_phase (d := bothEnds s.dev die m (linkUp mode half rep)) (die := die) (m := m) doneCheck_step
    refine completes_runOk (t := bothEnds (bothEnds s.dev die m (linkUp mode half rep)) die m fun d x _ => doneCheck d x) opens (by simp [hd, hm])
      (by simpa using here) (if_pos (decide_eq_true trains)) ⟨?_, (up die m 2 0 hm).trans near.1, fun y faces => ?_, nofun⟩
    · exact (BootOnly.of_regsOnly only).trans (bothEnds_bootOnly fun e x _ _ => doneCheck_bootOnly e x)
    · exact (up y _ 2 0 (farModule_lt m)).trans (far y faces).1
  | false =>
    obtain ⟨near, far, fails⟩ := linkFails (d := s.dev) (die := die) hm
    refine completes_runOk (t := bothEnds s.dev die m fun d x m => failDie (rset d .uciLink x 0 m 2 0 4) x 4) opens (by simp [hd, hm])
      (by simpa using here) (if_pos (decide_eq_true trains)) ⟨?_, near, far, fun _ => fails⟩
    refine bothEnds_bootOnly fun e x k before => ?_
    have only : BootOnly e (rset e .uciLink x 0 k 2 0 4) := rfl
    exact only.trans (failDie_bootOnly ((before.trans only).notJustReady still) ..)

theorem ucieFlitReplay_counts (fits : Fits (.ucieFlitReplay die m) s) (ready : pkgReady s.dev = true) (up : uciState s.dev die m = 2) :
    Completes (.ucieFlitReplay die m) s fun t => { t with regs := s.dev.regs } = s.dev ∧
      rfld t .uciLink die 0 m 47 32 = min 0xFFFF (rfld s.dev .uciLink die 0 m 47 32 + 1) := by
  refine completes_whenOn (g := fun d => rcount d .uciLink die 0 m 47 32 1) (show exec (.ucieFlitReplay die m) s = execUcieFlitReplay die m s from rfl) fits
    (by rw [ready, decide_eq_true up]; rfl) ⟨rfl, ?_⟩
  rw [rcount, rfld_rset_fits (by omega) (by simp only [satAdd]; omega)]
  rfl

theorem ucieRetrain_begins (fits : Fits (.ucieRetrain die m) s) (ready : pkgReady s.dev = true) (up : uciState s.dev die m = 2) :
    Completes (.ucieRetrain die m) s fun t => { t with regs := s.dev.regs } = s.dev ∧ uciState t die m = 3 ∧
      rfld t .uciLink die 0 m 63 48 = min 0xFFFF (rfld s.dev .uciLink die 0 m 63 48 + 1) ∧
      ∀ y, facing s.dev.part.dies die m = .die y → uciState t y (farModule m) = 3 ∧
        rfld t .uciLink y 0 (farModule m) 63 48 = min 0xFFFF (rfld s.dev .uciLink y 0 (farModule m) 63 48 + 1) := by
  have hm : m < 4 := of_decide_eq_true (Bool.and_eq_true_iff.mp fits.1).2
  obtain ⟨only, ⟨state, count⟩, far, -⟩ := linkStep_retrain.ends (d := s.dev) (die := die) hm
  exact completes_whenOn (g := fun d => bothEnds d die m fun d x m => rcount (rset d .uciLink x 0 m 2 0 3) .uciLink x 0 m 63 48 1)
    (show exec (.ucieRetrain die m) s = execUcieRetrain die m s from rfl) fits (by rw [ready, decide_eq_true up]; rfl) ⟨only, state, count, far⟩

/-! ### What waited for a link goes on (R410) -/

theorem pumpPort_idle {d : Dev} (p n : Nat) (ports : d.ports = []) (xfers : d.xfers = []) : pumpPort die p n d = d := by
  have port : getPort d die p = Port.empty := congrArg (tget Port.empty · (2 * die + p)) ports
  have slots : assignSlots d die p = d := by
    unfold assignSlots
    rw [xfers]
    simp only [List.foldl_nil]
    rw [← xfers]
  have staged (v : Nat) : stageVc d die p v = none := by
    have due : dueChunk d die p v = none := by simp [dueChunk, portXfers, xfers]
    have next : nextXfer d die p v = none := by simp [nextXfer, portXfers, xfers]
    simp only [stageVc, port, due, next]
    rfl
  have sent (k : Nat) : pumpSend die p k d = (d, none) := by
    cases k with
    | zero => rfl
    | succ k =>
      have none : ((List.range 8).findSome? fun v => stageVc d die p v) = none := List.findSome?_eq_none_iff.mpr fun v _ => staged v
      have still : flitOut d die p = Option.none := by
        simp only [flitOut, port]
        rfl
      simp only [pumpSend, none, still]
      split
      · rfl
      · rfl
  cases n with
  | zero => rfl
  | succ n => simp only [pumpPort, slots, sent]

theorem resumeWaits_idle {d : Dev} (cmds : d.lateCmds = []) (lops : d.lateLops = []) (colls : d.colls = []) (xfers : d.xfers = []) (ports : d.ports = []) :
    resumeWaits d = d := by
  have first : lateCommands d = d := by
    unfold lateCommands
    rw [cmds]
    simp only [List.foldl_nil, List.map_nil]
    rw [← cmds]
  have second : lateBlocks d = d := by
    unfold lateBlocks
    rw [lops]
    simp only [List.foldl_nil]
    rw [← lops]
  have empty (x p : Nat) : getPort d x p = Port.empty := congrArg (tget Port.empty · (2 * x + p)) ports
  have retry (x p : Nat) : retryIn d x p = d := by
    refine List.foldlRecOn (motive := fun e => e = d) _ _ rfl fun e same v _ => ?_
    rw [same, empty]
    rfl
  have credits (x p : Nat) : sendCredits d x p = d := by
    unfold sendCredits
    rw [empty]
    split
    · rfl
    · rfl
  have third : (List.range (2 * d.part.dies)).foldl (fun d k => sendCredits (retryIn d (k / 2) (k % 2)) (k / 2) (k % 2)) d = d :=
    List.foldlRecOn (motive := fun e => e = d) _ _ rfl fun e same k _ => by rw [same, retry, credits]
  unfold resumeWaits pumpAll
  rw [first, second]
  simp only [colls, List.foldl_nil, third]
  exact List.foldlRecOn (motive := fun e => e = d) _ _ rfl fun e same k _ => by rw [same, pumpPort_idle _ _ ports xfers]

theorem uciLink_guarded {m : Nat} (hm : m < 4) : (RegName.uciLink, m) ∈ guardedRegs false := by simp [guardedRegs, hm]

theorem rfld_resumeWaits (d : Dev) {x m hi lo : Nat} (hm : m < 4) (low : hi < 32) : rfld (resumeWaits d) .uciLink x 0 m hi lo = rfld d .uciLink x 0 m hi lo :=
  rfld_calm (resumeWaits_calm (.refl false d)) (uciLink_guarded hm) low

theorem ucieRetrainDone_ends {ok : Bool} {mode : BitVec 1} {half : Bool} {rep : BitVec 16} (hd : die < 8) (hm : m < 4) (here : die < s.dev.part.dies)
    (retrains : uciState s.dev die m = 3) :
    (ok = true → Completes (.ucieRetrainDone die m ok mode half rep) s fun t => uciState t die m = 2 ∧ rfld t .uciLink die 0 m 4 4 = b2n half ∧
      rfld t .uciLink die 0 m 31 16 = rep.toNat ∧ (∀ y, facing s.dev.part.dies die m = .die y → uciState t y (farModule m) = 2) ∧
      (s.dev.lateCmds = [] → s.dev.lateLops = [] → s.dev.colls = [] → s.dev.xfers = [] → s.dev.ports = [] → { t with regs := s.dev.regs } = s.dev)) ∧
    (ok = false → pkgReady s.dev = true → Completes (.ucieRetrainDone die m ok mode half rep) s fun t => uciState t die m = 4 ∧ halted t die = true) ∧
    (ok = false → pkgReady s.dev = false → bootPhase s.dev die ≠ 4 → NotJustReady s.dev → Completes (.ucieRetrainDone die m ok mode half rep) s fun t =>
      BootOnly s.dev t ∧ uciState t die m = 4 ∧ bootPhase t die = 4 ∧ bootFail t die = 4) := by
  have opens : exec (.ucieRetrainDone die m ok mode half rep) s = execUcieRetrainDone die m ok mode half rep s := rfl
  have runs {P : Dev → Prop} (t : Dev) (e : (if ok = true then resumeWaits (bothEnds s.dev die m (linkUp mode half rep))
      else if pkgReady s.dev = true then logFatal (bothEnds s.dev die m fun d x m => rset d .uciLink x 0 m 2 0 4) die (180 + m) 32 [m]
      else bothEnds (bothEnds s.dev die m fun d x m => rset d .uciLink x 0 m 2 0 4) die m fun d x _ => failDie d x 4) = t) (p : P t) :
      Completes (.ucieRetrainDone die m ok mode half rep) s P :=
    completes_runOk (t := t) opens (by simp [hd, hm]) (by simpa using here) ((if_pos (decide_eq_true retrains)).trans (congrArg _ e)) p
  obtain ⟨failed, nearFailed, -, bootFailed⟩ := (linkStep_state (v := 4) (by omega)).ends (d := s.dev) (die := die) hm
  refine ⟨fun good => ?_, fun bad ready => ?_, fun bad early first still => ?_⟩
  · obtain ⟨only, ⟨state, width, repaired⟩, far, -⟩ := (linkStep_up mode half rep).ends (d := s.dev) (die := die) hm
    refine runs _ (if_pos good) ⟨?_, ?_, ?_, fun y faces => ?_, fun cmds lops colls xfers ports => ?_⟩
    · exact (rfld_resumeWaits _ hm (by omega)).trans state
    · exact (rfld_resumeWaits _ hm (by omega)).trans width
    · exact (rfld_resumeWaits _ hm (by omega)).trans repaired
    · exact (rfld_resumeWaits _ (farModule_lt m) (by omega)).trans (far y faces).1
    · rw [resumeWaits_idle ((only.keeps Dev.lateCmds fun _ _ => rfl).trans cmds) ((only.keeps Dev.lateLops fun _ _ => rfl).trans lops)
        ((only.keeps Dev.colls fun _ _ => rfl).trans colls) ((only.keeps Dev.xfers fun _ _ => rfl).trans xfers)
        ((only.keeps Dev.ports fun _ _ => rfl).trans ports)]
      exact only
  · refine runs _ ((if_neg (by simp [bad])).trans (if_pos ready)) ⟨?_, logFatal_halts ..⟩
    exact (rfld_logFatal _ _ _ _ _ (uciLink_guarded hm) (by omega)).trans nearFailed
  · have only : BootOnly s.dev (bothEnds s.dev die m fun d x m => rset d .uciLink x 0 m 2 0 4) := .of_regsOnly failed
    have phase (h l : Nat) : rfld (bothEnds s.dev die m fun d x m => rset d .uciLink x 0 m 2 0 4) .abwBoot die 0 0 h l = rfld s.dev .abwBoot die 0 0 h l :=
      congrArg (fld · h l) (bootFailed _ _ _ _ fun x k hk => regKey_ne_of_off (uciLink_apart hk .abwBoot (by decide)).symm)
    refine runs _ ((if_neg (by simp [bad])).trans (if_neg (by simp [early]))) ⟨?_, ?_, ?_⟩
    · exact only.trans (bothEnds_bootOnly fun e x _ before => failDie_bootOnly ((only.trans before).notJustReady still) ..)
    · exact (bothEnds_phase (fun d x => failDie_step d x 4) die m 2 0 hm).trans nearFailed
    · have fails := failDie_phase (d := bothEnds s.dev die m fun d x m => rset d .uciLink x 0 m 2 0 4) (y := die) (f := 4)
        (by rw [bootPhase, phase]; exact first) (by omega)
      obtain ⟨y, -, ends⟩ | ⟨-, ends⟩ := bothEnds_cases (bothEnds s.dev die m fun d x m => rset d .uciLink x 0 m 2 0 4) die m (fun d x _ => failDie d x 4)
        (failDie_step _ die 4).part
      · rw [ends]
        exact failDie_kept fails
      · rw [ends]
        exact fails

end
end Sys2Proof.Machine
end
section
/-!
SUPPORT. HBM training and self-test (chapter 19, Training, Self-test): what each channel and each core of the die is left with.
-/

namespace Sys2Proof.Machine

/-! ### HBM training (R642, R643) -/

section
variable {d e : Dev} {die : Nat} {failed : W32}

theorem regOff_hbmChan (c : Nat) : regOff .hbmChan (c / 16) (c % 16) = 0x10000000 + 0x1000000 * (c / 16) + 0x1000 + 0x100 * (c % 16) := rfl

theorem hbmChan_apart {c : Nat} (hc : c < 32) :
    ∀ n ∈ [RegName.abwBoot, .abwTri, .cmdEvtStat], regOff .hbmChan (c / 16) (c % 16) % 0x20000000 ≠ regOff n 0 0 % 0x20000000 := by
  have all : ∀ c < 32, ∀ n ∈ [RegName.abwBoot, .abwTri, .cmdEvtStat], regOff .hbmChan (c / 16) (c % 16) % 0x20000000 ≠ regOff n 0 0 % 0x20000000 := by decide
  exact all c hc

theorem hbmChan_ne {c k : Nat} (hc : c < 32) (hk : k < 32) (h : c ≠ k) :
    regKey .hbmChan die (c / 16) (c % 16) ≠ regKey .hbmChan die (k / 16) (k % 16) := by
  unfold regKey
  rw [regOff_hbmChan, regOff_hbmChan]
  omega

/-- What training a channel leaves alone. -/
structure ChannelStep (die : Nat) (d e : Dev) : Prop where
  cores : e.cores = d.cores
  part : e.part = d.part
  boot : e.boot = d.boot
  phase : regGet e .abwBoot die 0 0 = regGet d .abwBoot die 0 0

theorem chanSet_step {c hi lo v : Nat} (hc : c < 32) : ChannelStep die d (chanSet d .hbmChan die c hi lo v) :=
  ⟨rfl, rfl, rfl, regGet_regSet_other _ _ (regKey_ne_of_off (hbmChan_apart hc .abwBoot (by decide)).symm)⟩

theorem logErr_step (x : ErrInfo) : ChannelStep die d (logErr d die x) := by
  obtain ⟨cores, -, -, -, -, beyond⟩ := logErr_notesOnly (d := d) die x
  exact ⟨cores, (congrArg Dev.part beyond :), (congrArg Dev.boot beyond :), regGet_logErr _ _ _ (regKey_ne_of_off (by decide))⟩

theorem ChannelStep.trans {t : Dev} (h : ChannelStep die d e) (g : ChannelStep die e t) : ChannelStep die d t :=
  ⟨g.cores.trans h.cores, g.part.trans h.part, g.boot.trans h.boot, g.phase.trans h.phase⟩

theorem trainChannel_step (d : Dev) {c : Nat} (hc : c < 32) : ChannelStep die d (trainChannel die failed d c) := by
  unfold trainChannel
  split
  · exact ((chanSet_step hc).trans ((chanSet_step hc).trans (chanSet_step hc))).trans (logErr_step _)
  · exact chanSet_step hc

theorem chanFld_trainChannel {c k : Nat} (hc : c < 32) (hk : k < 32) : chanFld (trainChannel die failed d c) die k 0 0 =
    if k = c then (if failed.getLsbD c = true then 0 else 1) else chanFld d die k 0 0 := by
  have log (e : Dev) (x : ErrInfo) : chanFld (logErr e die x) die k 0 0 = chanFld e die k 0 0 :=
    congrArg (fld · 0 0) (regGet_logErr _ _ _ (regKey_ne_of_off (hbmChan_apart hk .cmdEvtStat (by decide))))
  have own (e : Dev) {v : Nat} (hv : v < 2) : chanFld (chanSet e .hbmChan die c 0 0 v) die c 0 0 = v := rfld_rset_fits (d := e) (by omega) hv
  have other (e : Dev) {hi lo v : Nat} (ne : k ≠ c) : chanFld (chanSet e .hbmChan die c hi lo v) die k 0 0 = chanFld e die k 0 0 :=
    rfld_rset_other (d := e) (hbmChan_ne hk hc ne)
  unfold trainChannel
  by_cases same : k = c
  · rw [if_pos same]
    split
    · rw [log, same, own _ (by omega)]
    · rw [same, own _ (by omega)]
  · rw [if_neg same]
    split
    · rw [log, other _ same, other _ same, other _ same]
    · exact other _ same

/-- The channels of a die as training leaves them. -/
def Dev.trained (d : Dev) (die : Nat) (failed : W32) : Dev :=
  (List.range 32).foldl (trainChannel die failed) (setBoot d die { getBoot d die with hbm := true })

theorem trained_step : ChannelStep die (setBoot d die { getBoot d die with hbm := true }) (d.trained die failed) :=
  List.foldlRecOn (motive := ChannelStep die (setBoot d die { getBoot d die with hbm := true })) _ _ ⟨rfl, rfl, rfl, rfl⟩ fun e h _ hc =>
    h.trans (trainChannel_step e (List.mem_range.mp hc))

theorem chanFld_trained {c : Nat} (hc : c < 32) : chanFld (d.trained die failed) die c 0 0 = if failed.getLsbD c = true then 0 else 1 := by
  refine foldl_at (key := id) (I := fun _ => True) (J := fun e => chanFld e die c 0 0 = if failed.getLsbD c = true then 0 else 1) (List.mem_range.mpr hc)
    (by simpa using List.nodup_range) (fun _ _ _ _ _ => trivial) (fun e _ => ?_) (fun e y hy ne kept => ?_) trivial
  · rw [chanFld_trainChannel hc hc, if_pos rfl]
  · rw [chanFld_trainChannel (List.mem_range.mp hy) hc, if_neg fun same => ne same.symm, kept]

/-- A table none of whose keys is the one asked for gives its default. -/
theorem tget_of_absent {α : Type} (d : α) {t : Tbl α} {k : Nat} (h : ∀ p ∈ t, p.1 ≠ k) : tget d t k = d := by
  induction t with
  | nil => rfl
  | cons p t ih =>
    rw [tget, if_neg (h p List.mem_cons_self).symm, ih fun q hq => h q (List.mem_cons_of_mem _ hq), ite_self]

theorem memByte_memClear {lo n i : Nat} (hi : i < n) : memByte (memClear d lo n) (lo + i) = 0 := by
  refine tget_of_absent unlisted fun p hp same => ?_
  have out := (List.mem_filter.mp hp).2
  simp [same, hi] at out

theorem liveList_length (d : Dev) (die : Nat) : (liveList d die).length ≤ 32 :=
  (List.length_filter_le ..).trans (by simp)

theorem PhaseStep.chan {y c : Nat} (s : PhaseStep y d e) (hc : c < 32) : chanReg e .hbmChan die c = chanReg d .hbmChan die c :=
  s.regs _ _ _ _ (regKey_ne_of_off (hbmChan_apart hc _ (by decide))) (regKey_ne_of_off (hbmChan_apart hc _ (by decide)))
    (regKey_ne_of_off (hbmChan_apart hc _ (by decide)))

theorem liveList_congr (same : ∀ c, c < 32 → chanReg e .hbmChan die c = chanReg d .hbmChan die c) : liveList e die = liveList d die :=
  List.filter_congr fun c hc => by rw [chanLive, chanLive, same c (List.mem_range.mp hc)]

end

section
variable {s : State} {die : Nat}

theorem hbmTrainingDone_trains {f : BitVec 32} (hd : die < 8) (here : die < s.dev.part.dies) (runs : stationRuns s.dev die = true)
    (fresh : (getBoot s.dev die).hbm = false) (whole : triHalted s.dev = false) : Completes (.hbmTrainingDone die f) s fun t => t.cores = s.dev.cores ∧
      (getBoot t die).hbm = true ∧ (∀ c, c < 32 → chanFld t die c 0 0 = if f.getLsbD c = true then 0 else 1) ∧
      (∀ i, i < 32 * 2 ^ 32 → memByte t (hbmKey die 0 0 + i) = 0) ∧ rfld t .abwBoot die 0 0 13 8 = (liveList t die).length ∧
      ((liveList t die).length < 16 → bootPhase s.dev die ≠ 4 → bootPhase t die = 4 ∧ bootFail t die = 3) := by
  obtain ⟨e, own⟩ : ∃ e, e = memClear (s.dev.trained die f) (hbmKey die 0 0) (32 * 2 ^ 32) := ⟨_, rfl⟩
  obtain ⟨n, count⟩ : ∃ n, n = (liveList e die).length := ⟨_, rfl⟩
  obtain ⟨x, counted⟩ : ∃ x, x = rset e .abwBoot die 0 0 13 8 n := ⟨_, rfl⟩
  have trained := trained_step (d := s.dev) (die := die) (failed := f)
  have small : n ≤ 32 := count ▸ liveList_length e die
  have cores : x.cores = s.dev.cores := by
    rw [counted, own]
    exact trained.cores
  have boot : (getBoot x die).hbm = true := by
    have same : getBoot x die = getBoot (setBoot s.dev die { getBoot s.dev die with hbm := true }) die := by
      rw [counted, own]
      exact congrArg (tget Boot.empty · die) trained.boot
    rw [same, getBoot_setBoot, if_pos rfl]
  have chan (c : Nat) (hc : c < 32) : chanReg x .hbmChan die c = chanReg (s.dev.trained die f) .hbmChan die c := by
    rw [counted, own]
    exact regGet_regSet_other _ _ (regKey_ne_of_off (hbmChan_apart hc .abwBoot (by decide)))
  have shown : rfld x .abwBoot die 0 0 13 8 = n := by
    rw [counted]
    exact rfld_rset_fits (by omega) (by omega)
  have phase : bootPhase x die = bootPhase s.dev die := by
    rw [counted, bootPhase, rfld_rset_beside (by omega) (by omega), own]
    exact congrArg (fld · 3 0) trained.phase
  have live : liveList x die = liveList e die := liveList_congr fun c hc => by
    rw [chan c hc, own]
    rfl
  have mem (i : Nat) (hi : i < 32 * 2 ^ 32) : memByte x (hbmKey die 0 0 + i) = 0 := by
    rw [counted, own]
    exact memByte_memClear hi
  have ends {t : Dev} (step : PhaseStep die x t) (beside : rfld t .abwBoot die 0 0 13 8 = rfld x .abwBoot die 0 0 13 8) : t.cores = s.dev.cores ∧
      (getBoot t die).hbm = true ∧ (∀ c, c < 32 → chanFld t die c 0 0 = if f.getLsbD c = true then 0 else 1) ∧
      (∀ i, i < 32 * 2 ^ 32 → memByte t (hbmKey die 0 0 + i) = 0) ∧ rfld t .abwBoot die 0 0 13 8 = (liveList t die).length ∧ (liveList t die).length = n := by
    have liveT : liveList t die = liveList x die := liveList_congr fun c hc => step.chan hc
    refine ⟨step.cores.trans cores, by rw [step.boots die, boot], fun c hc => ?_, fun i hi => ?_, ?_, ?_⟩
    · rw [chanFld, step.chan hc, chan c hc]
      exact chanFld_trained hc
    · rw [memByte, step.mem]
      exact mem i hi
    · rw [beside, shown, liveT, live, count]
    · rw [liveT, live, count]
  refine completes_runOk (t := if n < 16 then failDie x die 3 else doneCheck x die)
    (show exec (.hbmTrainingDone die f) s = execHbmTrainingDone die f s from rfl) (decide_eq_true hd) (by simpa using here)
    (by rw [counted, count, own]; exact if_pos (by rw [runs, fresh, whole]; rfl)) ?_
  split
  · obtain ⟨cores, hbm, channels, zero, shown, -⟩ := ends (failDie_step x die 3) (rfld_failDie_beside (by omega) (by omega))
    exact ⟨cores, hbm, channels, zero, shown, fun _ first => failDie_phase (phase ▸ first) (by omega)⟩
  · next many =>
    obtain ⟨cores, hbm, channels, zero, shown, len⟩ := ends (doneCheck_step x die) (rfld_doneCheck_beside (by omega) (by omega))
    exact ⟨cores, hbm, channels, zero, shown, fun few => absurd (len ▸ few) many⟩

end

/-! ### Self-test (R645, R646) -/

section
variable {d e : Dev} {c : CoreId} {p : SelfTest}

/-- The lane groups that are fenced or wait after a self-test, and those of them that it finds new. -/
def testGroups (p : SelfTest) (k : Core) : BitVec 4 := p.groups ||| k.lanePend ||| k.laneFence
def testNew (p : SelfTest) (k : Core) : BitVec 4 := p.groups &&& ~~~(k.laneFence ||| k.lanePend)

/-- A core whose random sources are as a self-test leaves them. -/
def Core.tested (k : Core) : Core := { k with w := { k.w with rng := selfTestRng } }

/-- A core as its self-test leaves it. -/
def testLeaves (p : SelfTest) (k : Core) : Core :=
  if p.other then { k.tested with lanePend := k.lanePend ||| testNew p k, fenced := true, cause := 3 }
  else if 1 < ((List.range 4).filter fun g => (testGroups p k).getLsbD g).length then { k.tested with fenced := true, cause := 3 }
  else { k.tested with fenced := false, cause := 0, laneFence := testGroups p k, lanePend := 0 }

/-- A core changes to k, and of all else only the notes of errors. -/
structure CoreChange (c : CoreId) (d : Dev) (k : Core) (e : Dev) : Prop where
  own : getCore e c = k
  others : ∀ x, ckey x ≠ ckey c → getCore e x = getCore d x
  mem : e.mem = d.mem
  part : e.part = d.part
  boot : e.boot = d.boot

theorem CoreChange.refl (c : CoreId) (d : Dev) : CoreChange c d (getCore d c) d := ⟨rfl, fun _ _ => rfl, rfl, rfl, rfl⟩

theorem CoreChange.mod {k j : Core} {f : Core → Core} (h : CoreChange c d k e) (becomes : f k = j) : CoreChange c d j (modCore e c f) :=
  ⟨(getCore_modCore ..).trans ((congrArg f h.own).trans becomes), fun x ne => (tget_tset_ne _ _ _ ne).trans (h.others x ne), h.mem, h.part, h.boot⟩

theorem CoreChange.log {k : Core} (h : CoreChange c d k e) (y : Nat) (x : ErrInfo) : CoreChange c d k (logErr e y x) := by
  obtain ⟨cores, -, -, -, mem, beyond⟩ := logErr_notesOnly (d := e) y x
  have core (z : CoreId) : getCore (logErr e y x) z = getCore e z := congrArg (tget Core.idle · (ckey z)) cores
  exact ⟨(core c).trans h.own, fun z ne => (core z).trans (h.others z ne), mem.trans h.mem, (congrArg Dev.part beyond :).trans h.part,
    (congrArg Dev.boot beyond :).trans h.boot⟩

theorem selfTest_leaves (d : Dev) (c : CoreId) (p : SelfTest) :
    CoreChange c d (testLeaves p (getCore d c)) (selfTest d c p).1 ∧ (selfTest d c p).2 = !(testLeaves p (getCore d c)).fenced := by
  have seeded : CoreChange c d (getCore d c).tested (modCore d c Core.tested) := (CoreChange.refl c d).mod rfl
  have core : getCore (modCore d c fun k => { k with w := { k.w with rng := selfTestRng } }) c = (getCore d c).tested := seeded.own
  unfold selfTest testLeaves
  dsimp only
  rw [core]
  by_cases other : p.other = true
  · rw [if_pos other, if_pos other]
    exact ⟨((seeded.mod (by rfl)).mod (by rfl)).log _ _, rfl⟩
  · rw [if_neg other, if_neg other]
    by_cases two : 1 < ((List.range 4).filter fun g => (testGroups p (getCore d c)).getLsbD g).length
    · have many : 1 < ((List.range 4).filter fun g => (p.groups ||| (getCore d c).tested.lanePend ||| (getCore d c).tested.laneFence).getLsbD g).length := two
      rw [if_pos two, if_pos many]
      exact ⟨(seeded.mod (by rfl)).log _ _, rfl⟩
    · have few : ¬1 < ((List.range 4).filter fun g => (p.groups ||| (getCore d c).tested.lanePend ||| (getCore d c).tested.laneFence).getLsbD g).length := two
      have noted : CoreChange c d (getCore d c).tested ((List.range 4).foldl (fun e g =>
          if (p.groups &&& ~~~((getCore d c).tested.laneFence ||| (getCore d c).tested.lanePend)).getLsbD g then
            logErr e c.die ⟨coreSrc c, 20, .none, .contained, 0, [g, 1]⟩ else e) (modCore d c Core.tested)) := by
        refine List.foldlRecOn (motive := CoreChange c d (getCore d c).tested) _ _ seeded fun e h g _ => ?_
        split
        · exact h.log _ _
        · exact h
      rw [if_neg two, if_neg few]
      refine ⟨?_, rfl⟩
      dsimp only
      refine noted.mod ?_
      rfl

/-! ### The start-up self-test of a die (R645, R646) -/

/-- A core as the start-up self-test of its die leaves it. -/
def startLeaves (l : List (Nat × SelfTest)) (i : Nat) (k : Core) : Core :=
  match l.find? fun p => decide (p.1 = i) with
  | none => k.tested
  | some p => testLeaves p.2 k

theorem any_of_find {l : List (Nat × SelfTest)} {i : Nat} : (l.any fun p => decide (p.1 = i)) = (l.find? fun p => decide (p.1 = i)).isSome := by
  rw [Bool.eq_iff_iff, List.any_eq_true, List.find?_isSome]

/-- What the start-up self-test of the first n cores of a die leaves, with what it counts. -/
structure StartTested (die : Nat) (l : List (Nat × SelfTest)) (d : Dev) (n : Nat) (r : Dev × Nat × Nat) : Prop where
  mem : r.1.mem = d.mem
  part : r.1.part = d.part
  boot : r.1.boot = d.boot
  done : ∀ i, i < n → getCore r.1 ⟨die, i⟩ = startLeaves l i (getCore d ⟨die, i⟩)
  todo : ∀ i, n ≤ i → i < 144 → getCore r.1 ⟨die, i⟩ = getCore d ⟨die, i⟩
  cores : r.2.1 = ((List.range n).filter fun i => (l.any fun p => decide (p.1 = i)) && (startLeaves l i (getCore d ⟨die, i⟩)).fenced).length
  lanes : r.2.2 = ((List.range n).filter fun i =>
    decide ((startLeaves l i (getCore d ⟨die, i⟩)).laneFence ≠ (getCore d ⟨die, i⟩).laneFence)).length

theorem ckey_ne {die i j : Nat} (h : i ≠ j) : ckey ⟨die, i⟩ ≠ ckey ⟨die, j⟩ := by
  simp only [ckey]
  omega

theorem length_filter_range_succ (q : Nat → Bool) (n : Nat) : ((List.range (n + 1)).filter q).length = ((List.range n).filter q).length + b2n (q n) := by
  rw [List.range_succ, List.filter_append, List.length_append]
  cases h : q n
  · simp [h, b2n]
  · simp [h, b2n]

theorem startTest_next {die n : Nat} {l : List (Nat × SelfTest)} {r : Dev × Nat × Nat} (h : StartTested die l d n r) (hn : n < 144) :
    StartTested die l d (n + 1) (startTest die l r n) := by
  have core := h.todo n (Nat.le_refl n) hn
  have kept {k : Core} {e : Dev} (change : CoreChange ⟨die, n⟩ r.1 k e) (leaves : k = startLeaves l n (getCore d ⟨die, n⟩)) :
      (e.mem = d.mem ∧ e.part = d.part ∧ e.boot = d.boot) ∧ (∀ i, i < n + 1 → getCore e ⟨die, i⟩ = startLeaves l i (getCore d ⟨die, i⟩)) ∧
        ∀ i, n + 1 ≤ i → i < 144 → getCore e ⟨die, i⟩ = getCore d ⟨die, i⟩ := by
    refine ⟨⟨change.mem.trans h.mem, change.part.trans h.part, change.boot.trans h.boot⟩, fun i hi => ?_, fun i hi lt => ?_⟩
    · by_cases own : i = n
      · rw [own, change.own, leaves]
      · rw [change.others _ (ckey_ne own), h.done i (by omega)]
    · rw [change.others _ (ckey_ne (by omega)), h.todo i (by omega) lt]
  unfold startTest
  dsimp only
  cases found : l.find? fun p => decide (p.1 = n) with
  | none =>
    have leaves : (getCore d ⟨die, n⟩).tested = startLeaves l n (getCore d ⟨die, n⟩) := by rw [startLeaves, found]
    have change : CoreChange ⟨die, n⟩ r.1 (getCore d ⟨die, n⟩).tested (testCore ⟨die, n⟩ r.1) := (core ▸ CoreChange.refl ⟨die, n⟩ r.1).mod rfl
    obtain ⟨⟨mem, part, boot⟩, done, todo⟩ := kept change leaves
    have absent : (l.any fun p => decide (p.1 = n)) = false := by rw [any_of_find, found]; rfl
    have same : (startLeaves l n (getCore d ⟨die, n⟩)).laneFence = (getCore d ⟨die, n⟩).laneFence := by rw [← leaves]; rfl
    refine ⟨mem, part, boot, done, todo, ?_, ?_⟩
    · rw [length_filter_range_succ, ← h.cores, absent]
      rfl
    · rw [length_filter_range_succ, ← h.lanes, decide_eq_false (not_not_intro same)]
      rfl
  | some p =>
    have leaves : testLeaves p.2 (getCore d ⟨die, n⟩) = startLeaves l n (getCore d ⟨die, n⟩) := by rw [startLeaves, found]
    obtain ⟨change, works⟩ := selfTest_leaves r.1 ⟨die, n⟩ p.2
    rw [core] at change works
    obtain ⟨⟨mem, part, boot⟩, done, todo⟩ := kept change leaves
    have listed : (l.any fun p => decide (p.1 = n)) = true := by rw [any_of_find, found]; rfl
    refine ⟨mem, part, boot, done, todo, ?_, ?_⟩
    · dsimp only
      rw [length_filter_range_succ, ← h.cores, listed, works, leaves, Bool.not_not, Bool.true_and]
    · dsimp only
      rw [length_filter_range_succ, ← h.lanes, change.own, core, leaves]

end
end Sys2Proof.Machine
end
section
/-!
SUPPORT. Self-test, the datum tick, silent dies and package ready (chapter 19, Self-test, Ready), and the settlement of start-up.
-/

namespace Sys2Proof.Machine

/-! ### Self-test (R645, R646) -/

theorem tget_map_range {α : Type} (z : α) (f : Nat → α) {a n k : Nat} (low : a ≤ k) (high : k < a + n) :
    tget z ((List.range' a n).map fun l => (l, f l)) k = f k := by
  induction n generalizing a with
  | zero => omega
  | succ n ih =>
    rw [List.range'_succ, List.map_cons, tget, if_neg (by omega)]
    split
    · next own => rw [own]
    · exact ih (by omega) (by omega)

theorem tget_selfTestRng {k : Nat} (hk : k < 64) : tget 0 selfTestRng k = jump (k * 2 ^ 44 + 64) 1 := by
  rw [selfTestRng, List.range_eq_range']
  exact tget_map_range 0 _ (Nat.zero_le _) (by omega)

theorem startTested_all (d : Dev) (die : Nat) (l : List (Nat × SelfTest)) {n : Nat} (hn : n ≤ 144) :
    StartTested die l d n ((List.range n).foldl (startTest die l) (d, 0, 0)) := by
  induction n with
  | zero => exact ⟨rfl, rfl, rfl, fun _ h => absurd h (Nat.not_lt_zero _), fun _ _ _ => rfl, rfl, rfl⟩
  | succ n ih =>
    rw [List.range_succ, List.foldl_append, List.foldl_cons, List.foldl_nil]
    exact startTest_next (ih (by omega)) (by omega)

theorem length_coresOf_filter (die : Nat) (q : CoreId → Bool) : ((coresOf die).filter q).length = ((List.range 144).filter fun i => q ⟨die, i⟩).length := by
  rw [coresOf, List.filter_map, List.length_map]
  rfl

section
variable {s : State} {die : Nat}

theorem selfTestDone_tests {l : List (Nat × SelfTest)} (hd : die < 8) (here : die < s.dev.part.dies) (runs : stationRuns s.dev die = true)
    (fresh : (getBoot s.dev die).tested = false) (whole : triHalted s.dev = false) (cool : tripped s.dev die = false) :
    Completes (.selfTestDone die l) s fun t => MemSame s.dev t ∧ (getBoot t die).tested = true ∧
      (∀ c p, c < 144 → l.find? (fun p => decide (p.1 = c)) = some p → p.2.other = true →
          (getCore t ⟨die, c⟩).fenced = true ∧ (getCore t ⟨die, c⟩).cause = 3) ∧
      (∀ c, c < 144 → l.find? (fun p => decide (p.1 = c)) = none → getCore t ⟨die, c⟩ = { getCore s.dev ⟨die, c⟩ with
        w := { (getCore s.dev ⟨die, c⟩).w with rng := (getCore t ⟨die, c⟩).w.rng } } ∧
        ∀ k, k < 64 → tget 0 (getCore t ⟨die, c⟩).w.rng k = jump (k * 2 ^ 44 + 64) 1) ∧
      rfld t .abwBoot die 0 0 31 24 = ((coresOf die).filter fun c => (l.any fun p => decide (p.1 = c.core)) && (getCore t c).fenced).length ∧
      rfld t .abwBoot die 0 0 39 32 = ((coresOf die).filter fun c => decide ((getCore t c).laneFence ≠ (getCore s.dev c).laneFence)).length := by
  obtain ⟨b, started⟩ : ∃ b, b = setBoot s.dev die { getBoot s.dev die with tested := true } := ⟨_, rfl⟩
  obtain ⟨r, ran⟩ : ∃ r, r = (List.range 144).foldl (startTest die l) (b, 0, 0) := ⟨_, rfl⟩
  obtain ⟨e, counted⟩ : ∃ e, e = rset (rset r.1 .abwBoot die 0 0 31 24 r.2.1) .abwBoot die 0 0 39 32 r.2.2 := ⟨_, rfl⟩
  have tests : StartTested die l b 144 r := ran ▸ startTested_all b die l (Nat.le_refl _)
  have step := doneCheck_step e die
  have before (i : Nat) : getCore b ⟨die, i⟩ = getCore s.dev ⟨die, i⟩ := started ▸ rfl
  have core (i : Nat) (hi : i < 144) : getCore (doneCheck e die) ⟨die, i⟩ = startLeaves l i (getCore s.dev ⟨die, i⟩) := by
    have same : getCore (doneCheck e die) ⟨die, i⟩ = getCore r.1 ⟨die, i⟩ := by
      rw [getCore, step.cores, counted]
      rfl
    rw [same, tests.done i hi, before]
  have small (q : Nat → Bool) : ((List.range 144).filter q).length < 2 ^ 8 := Nat.lt_of_le_of_lt (List.length_filter_le ..) (by simp)
  refine completes_runOk (t := doneCheck e die) (show exec (.selfTestDone die l) s = execSelfTestDone die l s from rfl) (decide_eq_true hd)
    (by simpa using here) (by rw [counted, ran, started]; exact if_pos (by rw [runs, fresh, whole, cool]; rfl))
    ⟨fun k => ?_, ?_, fun c p hc found other => ?_, fun c hc none => ?_, ?_, ?_⟩
  · have mem : (doneCheck e die).mem = s.dev.mem := by
      rw [step.mem, counted]
      exact tests.mem.trans (started ▸ rfl)
    exact congrArg (tget unlisted · k) mem
  · have boot : getBoot e die = getBoot b die := by
      rw [counted]
      exact congrArg (tget Boot.empty · die) tests.boot
    rw [step.boots die, boot, started, getBoot_setBoot, if_pos rfl]
  · rw [core c hc, startLeaves, found]
    dsimp only
    rw [testLeaves, if_pos other]
    exact ⟨rfl, rfl⟩
  · rw [core c hc, startLeaves, none]
    exact ⟨rfl, fun k hk => tget_selfTestRng hk⟩
  · have shown : rfld e .abwBoot die 0 0 31 24 = r.2.1 := by
      rw [counted, rfld_rset_beside (by omega) (by omega)]
      exact rfld_rset_fits (by omega) (tests.cores ▸ small _)
    rw [rfld_doneCheck_beside (by omega) (by omega), shown, tests.cores, length_coresOf_filter]
    refine congrArg List.length (List.filter_congr fun i hi => ?_)
    rw [core i (List.mem_range.mp hi), before]
  · have shown : rfld e .abwBoot die 0 0 39 32 = r.2.2 := by
      rw [counted]
      exact rfld_rset_fits (by omega) (tests.lanes ▸ small _)
    rw [rfld_doneCheck_beside (by omega) (by omega), shown, tests.lanes, length_coresOf_filter]
    refine congrArg List.length (List.filter_congr fun i hi => ?_)
    rw [core i (List.mem_range.mp hi), before]

/-! ### The tick and silent dies (R647, R648) -/

theorem tickAlign_aligns (fresh : s.dev.pkg.aligned = false) (last : s.dev.pkg.wave = waveCount s.dev.part.dies)
    (ended : waveEnded s.dev s.dev.pkg.wave = true) (whole : triHalted s.dev = false) : Completes .tickAlign s fun t =>
      { t with tick := s.dev.tick, pkg := s.dev.pkg, live := s.dev.live } = s.dev ∧ t.tick = 0 ∧ t.pkg.aligned = true ∧
        t.live = s.dev.live.map fun e => { e with since := 0 } :=
  completes_runOk (show exec .tickAlign s = execTickAlign s from rfl) rfl nofun
    (if_pos (by rw [fresh, whole, decide_eq_true last, ended]; rfl)) ⟨rfl, rfl, rfl, rfl⟩

/-- Routes depend on the size of a part only as far as its mesh does. -/
theorem parent_small {n : Nat} (h : n ≠ 8) (x : Nat) : parent n x = parent 4 x := by
  have cols : meshCols n = meshCols 4 := by simp [meshCols, h]
  have home : homeOf n x = homeOf 4 x := by simp [homeOf, h]
  rw [parent, parent, forwarders, forwarders, home, routeLinks, routeLinks, cols]

theorem parent_ne {n x : Nat} (hx : x < 8) : parent n x ≠ some x := by
  have large : ∀ x < 8, parent 8 x ≠ some x := by decide
  have small : ∀ x < 8, parent 4 x ≠ some x := by decide
  by_cases h : n = 8
  · rw [h]
    exact large x hx
  · rw [parent_small h]
    exact small x hx

theorem dieSilence_silences (hd : die < 8) (here : die < s.dev.part.dies) (released : s.dev.pkg.released = true) (early : pkgReady s.dev = false)
    (heard : silent s.dev die = false) (long : silenceTicks ≤ sinceRelease s.dev - (getBoot s.dev die).heard) :
    Completes (.dieSilence die) s fun t => BootOnly s.dev t ∧ silent t die = true ∧
      (∀ y, parent s.dev.part.dies die = some y → (silent s.dev y = false → missing t die = true ∧ unreached t die = false) ∧
        (silent s.dev y = true → missing t die = false ∧ unreached t die = true)) ∧
      (parent s.dev.part.dies die = none → missing t die = true ∧ unreached t die = false) := by
  obtain ⟨e, own⟩ : ∃ e, e = setBoot s.dev die { getBoot s.dev die with silent := true } := ⟨_, rfl⟩
  have only : BootOnly s.dev e := own ▸ rfl
  have part : e.part = s.dev.part := own ▸ rfl
  have before (x : Nat) : silent e x = if x = die then true else silent s.dev x := by
    rw [silent, own, getBoot_setBoot]
    split
    · rfl
    · rfl
  have keeps : (allDies e doneCheck).part = e.part ∧ ∀ x, silent (allDies e doneCheck) x = silent e x :=
    List.foldlRecOn (motive := fun t : Dev => t.part = e.part ∧ ∀ x, silent t x = silent e x) _ _ ⟨rfl, fun _ => rfl⟩ fun t ⟨part, same⟩ y _ =>
      ⟨(doneCheck_step t y).part.trans part, fun x => ((doneCheck_step t y).chain x).2.trans (same x)⟩
  have now : silent (allDies e doneCheck) die = true := by rw [keeps.2, before, if_pos rfl]
  refine completes_runOk (t := allDies e doneCheck) (show exec (.dieSilence die) s = execDieSilence die s from rfl) (decide_eq_true hd) (by simpa using here)
    (by rw [own]; exact if_pos (by rw [released, early, show (getBoot s.dev die).silent = false from heard, decide_eq_true long]; rfl))
    ⟨only.trans (allDies_bootOnly doneCheck_bootOnly _ _), now, fun y up => ?_, fun top => ?_⟩
  · have other : y ≠ die := fun same => parent_ne hd (same ▸ up)
    have there : silent (allDies e doneCheck) y = silent s.dev y := by rw [keeps.2, before, if_neg other]
    rw [missing, unreached, now, keeps.1, part, up]
    simp only [Option.all_some, Option.any_some, there, Bool.true_and]
    exact ⟨fun h => by simp [h], fun h => by simp [h]⟩
  · rw [missing, unreached, now, keeps.1, part, top]
    exact ⟨rfl, rfl⟩

end

/-! ### Package ready (R649, R650) -/

section
variable {d : Dev}

theorem fullMap_digits {n : Nat} (hn : n ≤ 8) {m : Nat} (hm : m < 2 ^ 24) : m = fullMap n ↔ ∀ x, x < 8 → m / 2 ^ (3 * x) % 8 = if x < n then 2 else 0 := by
  have digits : ∀ n < 9, ∀ x < 8, fullMap n / 2 ^ (3 * x) % 8 = if x < n then 2 else 0 := by decide
  have small : ∀ n < 9, fullMap n < 2 ^ 24 := by decide
  have full := digits n (by omega)
  have bound := small n (by omega)
  refine ⟨fun same x hx => same ▸ full x hx, fun h => ?_⟩
  have equal (x : Nat) (hx : x < 8) : m / 2 ^ (3 * x) % 8 = fullMap n / 2 ^ (3 * x) % 8 := (h x hx).trans (full x hx).symm
  have e0 := equal 0 (by omega)
  have e1 := equal 1 (by omega)
  have e2 := equal 2 (by omega)
  have e3 := equal 3 (by omega)
  have e4 := equal 4 (by omega)
  have e5 := equal 5 (by omega)
  have e6 := equal 6 (by omega)
  have e7 := equal 7 (by omega)
  norm_num at e0 e1 e2 e3 e4 e5 e6 e7
  omega

/-- The bits of a sum of powers of two that are named once each. -/
theorem sum_bits (q : Nat → Prop) [DecidablePred q] (n : Nat) : ((List.range n).map fun x => if q x then 2 ^ x else 0).sum < 2 ^ n ∧
    ∀ k, k < n → (((List.range n).map fun x => if q x then 2 ^ x else 0).sum.testBit k = true ↔ q k) := by
  induction n with
  | zero => exact ⟨by simp, fun k hk => absurd hk (Nat.not_lt_zero k)⟩
  | succ n ih =>
    obtain ⟨small, bits⟩ := ih
    rw [List.range_succ, List.map_append, List.sum_append, List.map_singleton, List.sum_singleton, Nat.pow_succ]
    by_cases own : q n
    · rw [if_pos own, Nat.add_comm]
      refine ⟨by omega, fun k hk => ?_⟩
      by_cases last : k = n
      · rw [last, Nat.testBit_two_pow_add_eq, Nat.testBit_lt_two_pow small]
        simp [own]
      · rw [Nat.testBit_two_pow_add_gt (by omega)]
        exact bits k (by omega)
    · rw [if_neg own, Nat.add_zero]
      refine ⟨by omega, fun k hk => ?_⟩
      by_cases last : k = n
      · rw [last, Nat.testBit_lt_two_pow small]
        simp [own]
      · exact bits k (by omega)

theorem dieMatch_bit {die : Nat} (hd : die < 8) : dieMatch d / 2 ^ die % 2 = 1 ↔ (getBoot d die).digest ≠ [] ∧ (getBoot d die).digest = (getBoot d 0).digest := by
  have bit := (sum_bits (fun x => (!(getBoot d x).digest.isEmpty) = true ∧ (getBoot d x).digest = (getBoot d 0).digest) 8).2 die hd
  rw [Nat.testBit_eq_decide_div_mod_eq, decide_eq_true_iff] at bit
  refine bit.trans (and_congr_left fun _ => ?_)
  simp

theorem triOk_iff {m : Nat} (most : d.part.dies ≤ 8) (hm : m < 2 ^ 24) : triOk d m = true ↔ ReadyAccepted d m := by
  rw [triOk, ReadyAccepted, Bool.and_eq_true, Bool.and_eq_true, decide_eq_true_iff, fullMap_digits most hm, and_assoc]
  refine and_congr_right fun _ => and_congr_right fun _ => ?_
  rw [List.all_eq_true]
  refine forall_congr' fun die => ?_
  rw [List.mem_range]
  refine forall_congr' fun lt => ?_
  have bit := dieMatch_bit (d := d) (show die < 8 by omega)
  simp only [Bool.and_eq_true, decide_eq_true_iff, Bool.not_eq_true', lost, stopped, Bool.or_eq_false_iff, bit]
  tauto

end

section
variable {s : State}

theorem abwTriReady_accepts {m : BitVec 24} (most : s.dev.part.dies ≤ 8) (early : pkgReady s.dev = false) (good : ReadyAccepted s.dev m.toNat) :
    Completes (.abwTriReady m) s fun t => { t with regs := s.dev.regs, pkg := s.dev.pkg } = s.dev ∧ t.pkg = { s.dev.pkg with readyAt := t.pkg.readyAt } ∧
      pkgReady t = true ∧ rfld t .abwTri 0 0 0 23 0 = m.toNat := by
  have ok : triOk s.dev m.toNat = true := (triOk_iff most m.isLt).mpr good
  refine completes_runOk (show exec (.abwTriReady m) s = execAbwTriReady m s from rfl) rfl nofun (congrArg _ (if_neg (by simp [early, ok]))) ⟨rfl, rfl, ?_, ?_⟩
  · refine decide_eq_true ?_
    rw [rfld_rset_beside (by omega) (by omega)]
    exact rfld_rset_fits (by omega) (by omega)
  · rw [rfld_rset_beside (by omega) (by omega), rfld_rset_beside (by omega) (by omega)]
    exact rfld_rset_fits (by omega) m.isLt

theorem abwTriReady_ignored {m : BitVec 24} (most : s.dev.part.dies ≤ 8) (bad : pkgReady s.dev = true ∨ ¬ReadyAccepted s.dev m.toNat) :
    Completes (.abwTriReady m) s fun t => Ignored 0 (regAddr .abwTri 0 0 0) (m.toNat + 2 ^ 24) s.dev t ∧ pkgReady t = pkgReady s.dev := by
  have out : pkgReady s.dev = true ∨ (!triOk s.dev m.toNat) = true := bad.imp_right fun no => by
    rw [← triOk_iff most m.isLt, Bool.not_eq_true] at no
    rw [no]
    rfl
  refine completes_runOk (t := logIgnoredAt s.dev .abwTri 0 0 0 (m.toNat + 2 ^ 24)) (show exec (.abwTriReady m) s = execAbwTriReady m s from rfl) rfl nofun
    (congrArg _ (if_pos out)) ⟨logIgnoredAt_ignored .., ?_⟩
  have same : regGet (logIgnoredAt s.dev .abwTri 0 0 0 (m.toNat + 2 ^ 24)) .abwTri 0 0 0 = regGet s.dev .abwTri 0 0 0 :=
    regGet_logErr _ _ _ (regKey_ne_of_off (by decide))
  rw [pkgReady, pkgReady, rfld, same]
  rfl

end

/-- Settles O55: each event of start-up by its own lemma above, from what a step of a die's phase or station, or of both ends of a link, leaves. -/
theorem startUp : Obligations.StartUp := by
  refine ⟨fun s _ power low fresh => ?_, fun die x y s ones _ hd here released fresh count still => rootPllLock_locks hd here released fresh count still,
    fun die m p s _ hd hm here locked still => positionExchange_checks hd hm here locked still,
    fun die m p s old _ hd hm here locked wrong first ready => positionExchange_takesBack hd hm here locked wrong first ready,
    fun die s _ hd here locked fresh => announce_sends hd here locked fresh, fun die s _ hd here announced early => progress_sends hd here announced early,
    fun mask n s _ released runs _ => fwBegin_completes released runs, fun off b s _ released runs len line _ => fwData_completes released runs len line,
    fun s _ released runs _ => fwEnd_completes released runs, fun w s _ hw released runs next most before up => meshWaveStart_trains hw released runs next most before up,
    fun die m ok mode half rep s _ hd hm here trains still => meshLinkTrained_ends hd hm here trains still,
    fun die f s _ hd here runs fresh whole => hbmTrainingDone_trains hd here runs fresh whole,
    fun die l s _ hd here runs fresh whole cool => selfTestDone_tests hd here runs fresh whole cool,
    fun s _ fresh last ended whole => tickAlign_aligns fresh last ended whole,
    fun die s _ hd here released early heard long => dieSilence_silences hd here released early heard long,
    fun m s _ most => ⟨abwTriReady_accepts most, abwTriReady_ignored most⟩, fun die m s fits ready up => ucieFlitReplay_counts fits ready up,
    fun die m s fits ready up => ucieRetrain_begins fits ready up, fun die m ok mode half rep s _ hd hm here retrains => ucieRetrainDone_ends hd hm here retrains⟩
  exact completes_runOk (show exec .resetRelease s = execResetRelease s from rfl) rfl nofun (if_pos (by rw [power, low, fresh]; rfl)) rfl

end Sys2Proof.Machine
end
section
/-!
SUPPORT. Ports of the package (chapter 14, Ports; chapter 14, Registers): training, stopping, failing lanes and retraining, and what of the transfers stays
when what needs a port ends.
-/

namespace Sys2Proof.Machine

/-! ### Registers of a port -/

/-- A port's status is apart from its other registers. -/
theorem zlkStatus_ne {p x y : Nat} (hp : p < 2) : ∀ n ∈ [RegName.zlkCtl, .zlkErr, .zlkFec, .zlkVcCfg], regKey .zlkStatus x 0 p ≠ regKey n y 0 p := by
  have all : ∀ p < 2, ∀ n ∈ [RegName.zlkCtl, .zlkErr, .zlkFec, .zlkVcCfg], regOff .zlkStatus 0 p % 0x20000000 ≠ regOff n 0 p % 0x20000000 := by decide
  exact fun n hn => regKey_ne_of_off (all p hp n hn)

/-- The status and credits of a port are apart from the clocks and from the state of the event ring. -/
theorem zlkRegs_ne {p x y : Nat} (hp : p < 2) :
    ∀ n ∈ [RegName.zlkStatus, .zlkVcCfg], ∀ m ∈ [RegName.pkgClk, .cmdEvtStat], regKey n x 0 p ≠ regKey m y 0 0 := by
  have all : ∀ p < 2, ∀ n ∈ [RegName.zlkStatus, .zlkVcCfg], ∀ m ∈ [RegName.pkgClk, .cmdEvtStat],
      regOff n 0 p % 0x20000000 ≠ regOff m 0 0 % 0x20000000 := by decide
  exact fun n hn m hm => regKey_ne_of_off (all p hp n hn m hm)

theorem zlkStatus_guarded {p : Nat} (hp : p < 2) : (RegName.zlkStatus, p) ∈ guardedRegs true := by
  have all : ∀ p < 2, (RegName.zlkStatus, p) ∈ guardedRegs true := by decide
  exact all p hp

/-- Within a field that has been written, a part of it reads as that part of the value. -/
theorem rfld_rset_part {d : Dev} {n : RegName} {die i j hi lo h l v : Nat} (hn : hi < 64) (hl : lo ≤ l) (hlh : l ≤ h) (hh : h ≤ hi) :
    rfld (rset d n die i j hi lo v) n die i j h l = nfld v (h - lo) (l - lo) := by
  refine Nat.eq_of_testBit_eq fun k => ?_
  rw [rfld, rset, regGet_regSet_self, testBit_fld, nfld, Nat.testBit_mod_two_pow, Nat.testBit_div_two_pow]
  by_cases hk : k < h + 1 - l
  · rw [getLsbD_setFld (by omega), if_pos (by omega), show l + k - lo = k + (l - lo) by omega]
    simp [hk, show k < h - lo + 1 - (l - lo) by omega]
  · simp [hk, show ¬k < h - lo + 1 - (l - lo) by omega]

/-! ### Frames of link work -/

theorem LinkWork.trans {b d e : Dev} (h : LinkWork b d) (g : LinkWork d e) : LinkWork b e := by
  obtain ⟨cores, stakes, beyond⟩ := h
  obtain ⟨cores', stakes', beyond'⟩ := g
  exact ⟨fun c => ⟨(cores' c).1.trans (cores c).1, (cores' c).2.trans (cores c).2⟩, stakes'.trans stakes, beyond'.trans beyond⟩

theorem rset_linkWork (d : Dev) (n : RegName) (die i j hi lo v : Nat) : LinkWork d (rset d n die i j hi lo v) := ⟨fun _ => ⟨rfl, rfl⟩, rfl, rfl⟩

theorem setPort_linkWork (d : Dev) (die p : Nat) (x : Port) : LinkWork d (setPort d die p x) := ⟨fun _ => ⟨rfl, rfl⟩, rfl, rfl⟩

theorem portState_calm {b d : Dev} {die p : Nat} (hp : p < 2) (h : Calm true b d) : portState d die p = portState b die p :=
  rfld_calm h (zlkStatus_guarded hp) (by omega)

/-- A port goes DOWN, and only link work ends with it (R492). -/
theorem portDown_down (d : Dev) {die p : Nat} (reason : Nat) (hp : p < 2) :
    LinkWork d (portDown d die p reason) ∧ portState (portDown d die p reason) die p = 0 := by
  have calm : Calm true (rset d .zlkStatus die 0 p 5 0 0) (portDown d die p reason) := portLoss_calm (logErr_calm (setPort_calm (.refl _ _)))
  refine ⟨(rset_linkWork ..).trans calm.linkWork, (portState_calm hp calm).trans ?_⟩
  exact rfld_rset_part (by omega) (by omega) (by omega) (by omega)

/-! ### What of the transfers stays -/

section
variable (d : Dev)

@[simp] theorem logErr_xfers (die : Nat) (x : ErrInfo) : (logErr d die x).xfers = d.xfers := by
  obtain ⟨-, -, -, -, -, beyond⟩ := logErr_notesOnly (d := d) die x
  exact (congrArg Dev.xfers beyond :)

@[simp] theorem devWrite_xfers (a : Addr) (bs : List Byte) : (devWrite d a bs).1.xfers = d.xfers := by
  have refused (p : Place) : (countRefused d p).xfers = d.xfers := by
    unfold countRefused
    split <;> rfl
  have touched (p : Place) (write hold : Bool) : (touchLine d p write hold).xfers = d.xfers := by
    dsimp only [touchLine]
    repeat' split
    all_goals rfl
  have clean (e : Dev) (p : Place) (n : Nat) : (clearPoison e p n).xfers = e.xfers :=
    List.foldlRecOn (motive := fun x : Dev => x.xfers = e.xfers) _ _ rfl fun x hx k _ => by
      refine (apply_ite Dev.xfers _ _ _).trans ?_
      exact ite_eq_iff'.mpr ⟨fun _ => hx, fun _ => hx⟩
  unfold devWrite
  split
  · rfl
  · rfl
  · split
    · rfl
    · split
      · exact refused _
      · exact (clean ..).trans (touched ..)

@[simp] theorem devWriteAll_xfers (a : Addr) (bs : List Byte) : (devWriteAll d a bs).1.xfers = d.xfers := by
  refine List.foldlRecOn (motive := fun r : Dev × Except FaultCode Unit => r.1.xfers = d.xfers) _ _ rfl fun r hr k _ => ?_
  split
  · exact hr
  · exact (devWrite_xfers ..).trans hr

@[simp] theorem outDone_xfers (die unit : Nat) (c : CoreId) (id : Option (Nat × Nat × Nat)) (op : Op) (f : FaultCode) (empty : Bool) :
    (outDone d die unit c id op f empty).xfers = d.xfers := by
  have taken : (partTook d c id f empty).xfers = d.xfers := rfl
  unfold outDone blockArrive logRefused
  split
  · split
    · exact (logErr_xfers ..).trans taken
    · exact (logErr_xfers ..).trans taken
  · exact taken

@[simp] theorem finishLop_xfers (die : Nat) (x : LinkOp) (s : LinkStatus) (empty : Bool) : (finishLop d die x s empty).xfers = d.xfers := by
  have queue (l : List LinkOp) : (setLinks d die l).xfers = d.xfers := rfl
  unfold finishLop
  dsimp only
  split
  · exact (outDone_xfers ..).trans (queue _)
  · split
    · rfl
    · exact (outDone_xfers ..).trans ((devWriteAll_xfers ..).trans (queue _))

@[simp] theorem countFailed_xfers (die : Nat) (f : FaultCode) : (countFailed d die f).xfers = d.xfers := by
  unfold countFailed
  split <;> rfl

theorem endPut_xfers (x : Xfer) (f : FaultCode) (cause : Nat) (first : Option Nat) :
    (endPut d x f cause first).xfers = d.xfers.filter fun y => !y.is x.die x.port x.slot := by
  have gone : (dropXfer d x).xfers = d.xfers.filter fun y => !y.is x.die x.port x.slot := rfl
  dsimp only [endPut]
  split
  · exact gone
  · rw [finishLop_xfers, countFailed_xfers]
    split
    · exact (logErr_xfers ..).trans gone
    · exact gone

theorem collFail_fewer (c : Coll) (f : FaultCode) (cause member : Nat) (first : Option Nat) :
    ∀ x ∈ (collFail d c f cause member first).xfers, x ∈ d.xfers := by
  have aborted (e : Dev) (l : List Nat) : (l.foldl (fun d i => abortMember d c i) e).xfers = e.xfers :=
    List.foldlRecOn (motive := fun t : Dev => t.xfers = e.xfers) _ _ rfl fun t ht i _ => by
      unfold abortMember
      dsimp only
      repeat' split
      all_goals exact ht
  intro x hx
  dsimp only [collFail] at hx
  rw [finishLop_xfers, countFailed_xfers] at hx
  split at hx
  · rw [logErr_xfers] at hx
    exact List.mem_of_mem_filter hx
  · rw [aborted, logErr_xfers] at hx
    exact List.mem_of_mem_filter hx

theorem failQueued_fewer (e : Nat × LinkOp) (f : FaultCode) (cause port member : Nat) :
    ∀ x ∈ (failQueued d e f cause port member).xfers, x ∈ d.xfers := by
  unfold failQueued
  split
  · intro x hx
    rwa [endEarly, finishLop_xfers, logErr_xfers, countFailed_xfers] at hx
  · exact collFail_fewer d _ f cause member none

theorem exportFail_fewer (idx : Nat) : ∀ x ∈ (exportFail d idx).xfers, x ∈ d.xfers := by
  intro x hx
  dsimp only [exportFail] at hx
  split at hx
  · exact hx
  · have kept := List.mem_of_mem_filter hx
    rwa [show (modKv (logErr (kvSet d .kvsState idx 2 2 1) _ _) idx _).xfers = _ from logErr_xfers ..] at kept

/-- What a fold only takes from stays out of it. -/
theorem foldl_fewer {α : Type} {f : Dev → α → Dev} (hf : ∀ d a, ∀ x ∈ (f d a).xfers, x ∈ d.xfers) (l : List α) :
    ∀ x ∈ (l.foldl f d).xfers, x ∈ d.xfers :=
  List.foldlRecOn (motive := fun t => ∀ x ∈ t.xfers, x ∈ d.xfers) l f (fun _ hx => hx) fun t ht a _ x hx => ht x (hf t a x hx)

/-- Puts of a port that goes DOWN are gone (R492). -/
theorem portLoss_puts (die p : Nat) : ∀ x ∈ (portLoss d die p).xfers, ¬(x.kind = 0 ∧ x.die = die ∧ x.port = p) := by
  intro x hx ⟨kind, own, port⟩
  have left := foldl_fewer _ (fun d c => collFail_fewer d c _ _ _ _) _ _ (foldl_fewer _ (fun d e => failQueued_fewer d e _ _ _ _) _ _
    (foldl_fewer _ exportFail_fewer _ _ hx))
  have here : x ∈ d.xfers := foldl_fewer _ (fun d y z hz => List.mem_of_mem_filter (endPut_xfers d y .. ▸ hz)) _ _ left
  have gone : x ∉ ((d.xfers.filter fun x => decide (x.kind = 0) && x.die == die && x.port == p).foldl
      (fun d x => endPut d x .linkDown 7 x.first) d).xfers := by
    refine foldl_establishes (J := fun e : Dev => x ∉ e.xfers) (List.mem_filter.mpr ⟨here, by simp [kind, own, port]⟩) (fun e => ?_)
      fun e y _ out back => ?_
    · rw [endPut_xfers]
      simp [Xfer.is]
    · rw [endPut_xfers] at back
      exact out (List.mem_of_mem_filter back)
  exact gone left

end
end Sys2Proof.Machine
end
section
/-!
SUPPORT. The events and register writes of a port but for its flits (chapter 14, Ports; chapter 14, Registers).
-/

namespace Sys2Proof.Machine
section
variable {s : State} {die p : Nat}

theorem zlkTrain_cases (fits : Fits (.zlkTrain die p) s) :
    (pkgReady s.dev = false ∨ zlkId s.dev = 0 ∨ zlkId s.dev = 0xFFFF → Completes (.zlkTrain die p) s fun t =>
      Ignored die (regAddr .zlkCtl die 0 p) (rfld s.dev .zlkCtl die 0 p 63 0 + 1) s.dev t ∧ portState t die p = portState s.dev die p) ∧
    (pkgReady s.dev = true → zlkId s.dev ≠ 0 → zlkId s.dev ≠ 0xFFFF → portState s.dev die p ≠ 1 → portState s.dev die p ≠ 3 →
      Completes (.zlkTrain die p) s fun t => { t with regs := s.dev.regs } = s.dev ∧ portState t die p = 1) := by
  have hp : p < 2 := of_decide_eq_true (Bool.and_eq_true_iff.mp fits.1).2
  have opens : exec (.zlkTrain die p) s = execZlkTrain die p s := rfl
  refine ⟨fun early => ?_, fun ready zid zid' rests still => ?_⟩
  · refine completes_of opens fits (congrArg _ (if_pos (early.imp_left fun h => by rw [h]; rfl))) ⟨logIgnoredAt_ignored .., ?_⟩
    exact portState_calm hp (logErr_calm (.refl _ _))
  · refine completes_of opens fits (congrArg _ ((if_neg (by simp [ready, zid, zid'])).trans (if_neg (by simp [rests, still])))) ⟨rfl, ?_⟩
    exact (rfld_rset_other (zlkRegs_ne hp _ (by simp) _ (by simp))).trans (rfld_rset_fits (by omega) (by omega))

theorem zlkStop_cases (fits : Fits (.zlkStop die p) s) : (portState s.dev die p = 0 → exec (.zlkStop die p) s = .next s) ∧
    (portState s.dev die p ≠ 0 → Completes (.zlkStop die p) s fun t => LinkWork s.dev t ∧ portState t die p = 0 ∧
      ∀ x ∈ t.xfers, ¬(x.kind = 0 ∧ x.die = die ∧ x.port = p)) := by
  have hp : p < 2 := of_decide_eq_true (Bool.and_eq_true_iff.mp fits.1).2
  have opens : exec (.zlkStop die p) s = execZlkStop die p s := rfl
  refine ⟨fun down => ?_, fun up => ?_⟩
  · exact opens.trans (runCmd_next fits (congrArg _ (if_pos down)))
  · obtain ⟨work, state⟩ := portDown_down s.dev (die := die) 4 hp
    exact completes_of opens fits (congrArg _ (if_neg up)) ⟨work, state, portLoss_puts _ die p⟩

/-! ### The end of a training (R489) -/

/-- A training that finds no common version or not enough lanes leaves the port FAILED. -/
theorem trainEnd_failed {d : Dev} {x : TrainResult} (hp : p < 2) (bad : rfld d .zlkCtl die 0 p 3 2 &&& x.peerVersions.toNat = 0 ∨
      (x.lower = false ∧ x.upper = false) ∨ rfld d .zlkCtl die 0 p 4 4 = 0 ∧ (x.lower = false ∨ x.upper = false)) :
    LinkWork d (trainEnd d die p x) ∧ portState (trainEnd d die p x) die p = 4 := by
  have fails : trainEnd d die p x = portLoss (rset d .zlkStatus die 0 p 2 0 4) die p := by
    refine if_pos ?_
    obtain none | ⟨lower, upper⟩ | ⟨whole, lower | upper⟩ := bad
    · simp [none]
    · simp [lower, upper]
    · simp [whole, lower]
    · simp [whole, upper]
  have calm := portLoss_calm (die := die) (port := p) (.refl true (rset d .zlkStatus die 0 p 2 0 4))
  rw [fails]
  exact ⟨(rset_linkWork ..).trans calm.linkWork, (portState_calm hp calm).trans (rfld_rset_fits (by omega) (by omega))⟩

/-- What training writes of a port that comes UP: its state, version and lanes. -/
theorem trained_fields (z2 half upper : Bool) : nfld (2 + 8 * b2n z2 + 16 * b2n half + 32 * b2n upper) 2 0 = 2 ∧
    nfld (2 + 8 * b2n z2 + 16 * b2n half + 32 * b2n upper) 3 3 = b2n z2 ∧ nfld (2 + 8 * b2n z2 + 16 * b2n half + 32 * b2n upper) 4 4 = b2n half ∧
      nfld (2 + 8 * b2n z2 + 16 * b2n half + 32 * b2n upper) 5 5 = b2n upper := by
  revert z2 half upper
  decide

/-- A training that finds a common version and enough lanes brings the port UP. -/
theorem trainEnd_up {d : Dev} {x : TrainResult} (hp : p < 2) (common : rfld d .zlkCtl die 0 p 3 2 &&& x.peerVersions.toNat ≠ 0)
    (lanes : x.lower = true ∧ x.upper = true ∨ rfld d .zlkCtl die 0 p 4 4 = 1 ∧ (x.lower = true ∨ x.upper = true)) :
    LinkWork d (trainEnd d die p x) ∧ portState (trainEnd d die p x) die p = 2 ∧
      (portZ2 (trainEnd d die p x) die p = decide (2 ≤ rfld d .zlkCtl die 0 p 3 2 &&& x.peerVersions.toNat)) ∧
      rfld (trainEnd d die p x) .zlkStatus die 0 p 31 16 = x.peerZid.toNat ∧
      rfld (trainEnd d die p x) .zlkStatus die 0 p 4 4 = (if x.lower = true ∧ x.upper = true then 0 else 1) ∧
      rfld (trainEnd d die p x) .zlkStatus die 0 p 5 5 = if x.lower = true then 0 else 1 := by
  have good : ¬(!(decide (rfld d .zlkCtl die 0 p 3 2 &&& x.peerVersions.toNat ≠ 0) &&
      ((x.lower && x.upper) || ((x.lower || x.upper) && decide (rfld d .zlkCtl die 0 p 4 4 = 1))))) = true := by
    obtain ⟨lower, upper⟩ | ⟨half, some⟩ := lanes
    · simp [common, lower, upper]
    · obtain lower | upper := some
      · simp [common, half, lower]
      · simp [common, half, upper]
  obtain ⟨e, own⟩ : ∃ e, e = rset (rset (rset d .zlkStatus die 0 p 5 0 (2 + 8 * b2n (decide (2 ≤ rfld d .zlkCtl die 0 p 3 2 &&& x.peerVersions.toNat)) +
      16 * b2n (!(x.lower && x.upper)) + 32 * b2n (!x.lower))) .zlkStatus die 0 p 15 8 ((if x.lower then 0 else 0x0F) + (if x.upper then 0 else 0xF0)))
      .zlkStatus die 0 p 31 16 x.peerZid.toNat := ⟨_, rfl⟩
  have runs : ∃ n, trainEnd d die p x = pumpPort die p n (setPort e die p { Port.empty with announced := x.peerCredits }) := by
    rw [own]
    exact ⟨_, if_neg good⟩
  obtain ⟨n, runs⟩ := runs
  have work : LinkWork d e := by
    rw [own]
    exact (rset_linkWork ..).trans ((rset_linkWork ..).trans (rset_linkWork ..))
  have calm := pumpPort_calm (die := die) (port := p) (n := n) (setPort_calm (die := die) (p := p) (x := { Port.empty with announced := x.peerCredits })
    (.refl true e))
  have reads (hi lo : Nat) (h : hi < 32) : rfld (trainEnd d die p x) .zlkStatus die 0 p hi lo = rfld e .zlkStatus die 0 p hi lo := by
    rw [runs]
    exact rfld_calm calm (zlkStatus_guarded hp) h
  have first (hi lo : Nat) (hl : lo ≤ hi) (h : hi ≤ 5) : rfld (trainEnd d die p x) .zlkStatus die 0 p hi lo =
      nfld (2 + 8 * b2n (decide (2 ≤ rfld d .zlkCtl die 0 p 3 2 &&& x.peerVersions.toNat)) + 16 * b2n (!(x.lower && x.upper)) + 32 * b2n (!x.lower)) hi lo := by
    rw [reads hi lo (by omega), own, rfld_rset_beside (by omega) (by omega), rfld_rset_beside (by omega) (by omega)]
    exact rfld_rset_part (by omega) (by omega) hl h
  obtain ⟨state, version, half, upper⟩ := trained_fields (decide (2 ≤ rfld d .zlkCtl die 0 p 3 2 &&& x.peerVersions.toNat)) (!(x.lower && x.upper)) (!x.lower)
  refine ⟨?_, (first 2 0 (by omega) (by omega)).trans state, ?_, ?_, ?_, ?_⟩
  · rw [runs]
    exact work.trans ((setPort_linkWork ..).trans (pumpPort_calm (.refl true _)).linkWork)
  · rw [portZ2, first 3 3 (by omega) (by omega), version]
    cases decide (2 ≤ rfld d .zlkCtl die 0 p 3 2 &&& x.peerVersions.toNat)
    · rfl
    · rfl
  · rw [reads 31 16 (by omega), own]
    exact rfld_rset_fits (by omega) x.peerZid.isLt
  · rw [first 4 4 (by omega) (by omega), half]
    cases x.lower <;> cases x.upper <;> rfl
  · rw [first 5 5 (by omega) (by omega), upper]
    cases x.lower <;> rfl

theorem portTrainingDone_cases {x : TrainResult} {common half : Nat} (fits : Fits (.portTrainingDone die p x) s) (trains : portState s.dev die p = 1)
    (hc : common = rfld s.dev .zlkCtl die 0 p 3 2 &&& x.peerVersions.toNat) (hh : half = rfld s.dev .zlkCtl die 0 p 4 4) :
    (common ≠ 0 → (x.lower = true ∧ x.upper = true ∨ half = 1 ∧ (x.lower = true ∨ x.upper = true)) → Completes (.portTrainingDone die p x) s fun t =>
      LinkWork s.dev t ∧ portState t die p = 2 ∧ (portZ2 t die p = decide (2 ≤ common)) ∧ rfld t .zlkStatus die 0 p 31 16 = x.peerZid.toNat ∧
        rfld t .zlkStatus die 0 p 4 4 = (if x.lower = true ∧ x.upper = true then 0 else 1) ∧
        rfld t .zlkStatus die 0 p 5 5 = (if x.lower = true then 0 else 1)) ∧
    (common = 0 ∨ (x.lower = false ∧ x.upper = false) ∨ (half = 0 ∧ (x.lower = false ∨ x.upper = false)) → Completes (.portTrainingDone die p x) s fun t =>
      LinkWork s.dev t ∧ portState t die p = 4) := by
  have hp : p < 2 := of_decide_eq_true (Bool.and_eq_true_iff.mp fits.1).2
  have opens : exec (.portTrainingDone die p x) s = execPortTrainingDone die p x s := rfl
  subst hc hh
  exact ⟨fun some lanes => completes_whenOn opens fits (decide_eq_true trains) (trainEnd_up hp some lanes),
    fun bad => completes_whenOn opens fits (decide_eq_true trains) (trainEnd_failed hp bad)⟩

/-! ### Failing lanes and retrains (R491, R492) -/

theorem laneFailure_cases {lanes : BitVec 8} {bad : Nat} (fits : Fits (.laneFailure die p lanes) s) (up : portState s.dev die p = 2)
    (hb : bad = lanes.toNat &&& activeLanes s.dev die p) :
    (bad = 0 ∨ rfld s.dev .zlkStatus die 0 p 4 4 = 0 ∧ (bad &&& 0x0F = 0 ∨ bad &&& 0xF0 = 0) ∧ rfld s.dev .zlkCtl die 0 p 4 4 = 1 →
      Completes (.laneFailure die p lanes) s fun t => LinkWork s.dev t ∧ portState t die p = 3 ∧ t.xfers = s.dev.xfers ∧ MemSame s.dev t) ∧
    (bad ≠ 0 → (rfld s.dev .zlkStatus die 0 p 4 4 ≠ 0 ∨ (bad &&& 0x0F ≠ 0 ∧ bad &&& 0xF0 ≠ 0) ∨ rfld s.dev .zlkCtl die 0 p 4 4 = 0) →
      Completes (.laneFailure die p lanes) s fun t => LinkWork s.dev t ∧ portState t die p = 0) := by
  have hp : p < 2 := of_decide_eq_true (Bool.and_eq_true_iff.mp fits.1).2
  have opens : exec (.laneFailure die p lanes) s = execLaneFailure die p lanes s := rfl
  obtain ⟨m, own⟩ : ∃ m, m = rset s.dev .zlkStatus die 0 p 15 8 (rfld s.dev .zlkStatus die 0 p 15 8 ||| bad) := ⟨_, rfl⟩
  have half : rfld m .zlkCtl die 0 p 4 4 = rfld s.dev .zlkCtl die 0 p 4 4 := by
    rw [own]
    exact rfld_rset_other (zlkStatus_ne hp _ (by simp)).symm
  have marked : LinkWork s.dev m := by
    rw [own]
    exact rset_linkWork ..
  have runs : failLanes s.dev die p lanes.toNat = if bad ≠ 0 ∧ ¬(rfld s.dev .zlkStatus die 0 p 4 4 = 0 ∧ (bad &&& 0x0F = 0 ∨ bad &&& 0xF0 = 0)) then
        portDown m die p 1
      else if bad ≠ 0 ∧ rfld m .zlkCtl die 0 p 4 4 = 0 then portDown m die p 2
      else setPort (rset m .zlkStatus die 0 p 2 0 3) die p { getPort m die p with retrain := some s.dev.tick } := by
    rw [own, hb]
    rfl
  refine ⟨fun stays => completes_whenOn opens fits (decide_eq_true up) ?_, fun fails gone => completes_whenOn opens fits (decide_eq_true up) ?_⟩
  · rw [runs, if_neg (by tauto), if_neg (by rw [half]; omega)]
    refine ⟨marked.trans ((rset_linkWork ..).trans (setPort_linkWork ..)), ?_, ?_, ?_⟩
    · exact (rfld_rset_fits (d := m) (by omega) (by omega) : rfld (rset m .zlkStatus die 0 p 2 0 3) .zlkStatus die 0 p 2 0 = 3)
    · rw [own]
      rfl
    · rw [own]
      exact fun _ => rfl
  · have down (r : Nat) : LinkWork s.dev (portDown m die p r) ∧ portState (portDown m die p r) die p = 0 :=
      ⟨marked.trans (portDown_down m r hp).1, (portDown_down m r hp).2⟩
    rw [runs]
    split
    · exact down 1
    · next whole =>
      rw [if_pos (by rw [half]; omega)]
      exact down 2

theorem portRetrainDone_fails (fits : Fits (.portRetrainDone die p false) s) (retrains : portState s.dev die p = 3) :
    Completes (.portRetrainDone die p false) s fun t => LinkWork s.dev t ∧ portState t die p = 0 := by
  have hp : p < 2 := of_decide_eq_true (Bool.and_eq_true_iff.mp fits.1).2
  exact completes_of (show exec (.portRetrainDone die p false) s = execPortRetrainDone die p false s from rfl) fits
    ((if_neg (not_not.mpr retrains)).trans (if_pos rfl)) (portDown_down s.dev 3 hp)

/-- The half that a port goes on with after a retrain: as before, or the half without a failed lane. -/
def keptHalf (d : Dev) (die p bad : Nat) : Dev :=
  if bad = 0 ∨ rfld d .zlkStatus die 0 p 4 4 = 1 then d
  else logErr (rcount (rset d .zlkStatus die 0 p 5 4 (if bad &&& 0x0F = 0 then 1 else 3)) .zlkErr die 0 p 63 48 1) die
    ⟨184 + p, 2, .none, .link, 0, [p, bad]⟩

theorem keptHalf_linkWork (d : Dev) (die p bad : Nat) : LinkWork d (keptHalf d die p bad) := by
  unfold keptHalf
  split
  · exact ⟨fun _ => ⟨rfl, rfl⟩, rfl, rfl⟩
  · exact (rset_linkWork ..).trans ((rset_linkWork ..).trans (logErr_calm (.refl true _)).linkWork)

theorem keptHalf_fields {d : Dev} (bad : Nat) (hp : p < 2) : portState (keptHalf d die p bad) die p = portState d die p ∧
    (bad ≠ 0 → rfld (keptHalf d die p bad) .zlkStatus die 0 p 4 4 = 1 ∧
      (rfld d .zlkStatus die 0 p 4 4 = 0 → rfld (keptHalf d die p bad) .zlkStatus die 0 p 5 5 = if bad &&& 0x0F = 0 then 0 else 1)) ∧
    (bad = 0 → rfld (keptHalf d die p bad) .zlkStatus die 0 p 4 4 = rfld d .zlkStatus die 0 p 4 4) := by
  unfold keptHalf
  split
  · next same =>
    exact ⟨rfl, fun fails => ⟨same.resolve_left fails, fun whole => by omega⟩, fun _ => rfl⟩
  · next other =>
    have reads (hi lo : Nat) (v : Nat) (h : hi < 32) :
        rfld (logErr (rcount (rset d .zlkStatus die 0 p 5 4 v) .zlkErr die 0 p 63 48 1) die ⟨184 + p, 2, .none, .link, 0, [p, bad]⟩) .zlkStatus die 0 p hi lo =
          rfld (rset d .zlkStatus die 0 p 5 4 v) .zlkStatus die 0 p hi lo :=
      (rfld_calm (logErr_calm (.refl true _)) (zlkStatus_guarded hp) h).trans (rfld_rset_other (zlkStatus_ne hp _ (by simp)))
    refine ⟨?_, fun _ => ⟨?_, fun _ => ?_⟩, fun none => absurd (.inl none) other⟩
    · rw [portState, reads 2 0 _ (by omega)]
      exact rfld_rset_beside (by omega) (by omega)
    · rw [reads 4 4 _ (by omega), rfld_rset_part (by omega) (by omega) (by omega) (by omega)]
      split <;> rfl
    · rw [reads 5 5 _ (by omega), rfld_rset_part (by omega) (by omega) (by omega) (by omega)]
      split <;> rfl

theorem portRetrainDone_up (fits : Fits (.portRetrainDone die p true) s) (retrains : portState s.dev die p = 3) :
    Completes (.portRetrainDone die p true) s fun t => LinkWork s.dev t ∧ portState t die p = 2 ∧
      (rfld s.dev .zlkStatus die 0 p 15 8 ≠ 0 → rfld t .zlkStatus die 0 p 4 4 = 1 ∧
        (rfld s.dev .zlkStatus die 0 p 4 4 = 0 → rfld t .zlkStatus die 0 p 5 5 = if rfld s.dev .zlkStatus die 0 p 15 8 &&& 0x0F = 0 then 0 else 1)) ∧
      (rfld s.dev .zlkStatus die 0 p 15 8 = 0 → rfld t .zlkStatus die 0 p 4 4 = rfld s.dev .zlkStatus die 0 p 4 4) := by
  have hp : p < 2 := of_decide_eq_true (Bool.and_eq_true_iff.mp fits.1).2
  obtain ⟨u, own⟩ : ∃ u, u = rset (resumeTimers s.dev die p) .zlkStatus die 0 p 2 0 2 := ⟨_, rfl⟩
  obtain ⟨t, ends⟩ : ∃ t, t = replayFlits (keptHalf u die p (rfld s.dev .zlkStatus die 0 p 15 8)) die p := ⟨_, rfl⟩
  have answer : execPortRetrainDone die p true s = runCmd (.portRetrainDone die p true) (fun d =>
      if portState d die p ≠ 3 then .refused (.notEnabled "PORT_RETRAIN_DONE")
      else .next (pumpPort die p ((replayFlits (keptHalf (rset (resumeTimers d die p) .zlkStatus die 0 p 2 0 2) die p (rfld d .zlkStatus die 0 p 15 8))
        die p).xfers.length + 1) (replayFlits (keptHalf (rset (resumeTimers d die p) .zlkStatus die 0 p 2 0 2) die p (rfld d .zlkStatus die 0 p 15 8))
          die p))) s := rfl
  have timers : Calm true s.dev (resumeTimers s.dev die p) := resumeTimers_calm (.refl _ _)
  have begun : LinkWork s.dev u := by
    rw [own]
    exact timers.linkWork.trans (rset_linkWork ..)
  have calm : Calm true (keptHalf u die p (rfld s.dev .zlkStatus die 0 p 15 8)) (pumpPort die p (t.xfers.length + 1) t) := by
    rw [ends]
    exact pumpPort_calm (replayFlits_calm (.refl _ _))
  have before (hi lo : Nat) (h : hi < 32) (l : 2 < lo) : rfld u .zlkStatus die 0 p hi lo = rfld s.dev .zlkStatus die 0 p hi lo := by
    rw [own, rfld_rset_beside (by omega) (by omega)]
    exact rfld_calm timers (zlkStatus_guarded hp) h
  have state : portState u die p = 2 := by
    rw [own]
    exact rfld_rset_fits (by omega) (by omega)
  obtain ⟨same, narrow, whole⟩ := keptHalf_fields (d := u) (die := die) (rfld s.dev .zlkStatus die 0 p 15 8) hp
  have read (hi lo : Nat) (h : hi < 32) := rfld_calm (hi := hi) (lo := lo) calm (zlkStatus_guarded hp) h (die := die)
  refine completes_of (t := pumpPort die p (t.xfers.length + 1) t) answer fits
    ((if_neg (not_not.mpr retrains)).trans (by rw [ends, own])) ⟨?_, ?_, fun fails => ?_, fun none => ?_⟩
  · exact begun.trans ((keptHalf_linkWork ..).trans calm.linkWork)
  · exact (portState_calm hp calm).trans (same.trans state)
  · obtain ⟨half, side⟩ := narrow fails
    rw [read 4 4 (by omega), read 5 5 (by omega)]
    exact ⟨half, fun w => side ((before 4 4 (by omega) (by omega)).trans w)⟩
  · rw [read 4 4 (by omega), whole none]
    exact before 4 4 (by omega) (by omega)

theorem zlkLaneWindowEnd_ends (fits : Fits (.zlkLaneWindowEnd die p) s) (hd : die < 8) (hp : p < 2) (window : s.dev.tick % 65536 = 0) :
    Completes (.zlkLaneWindowEnd die p) s fun t => { t with ports := s.dev.ports } = s.dev ∧ getPort t die p = { getPort s.dev die p with laneErrs := [] } ∧
      ∀ k, k ≠ 2 * die + p → tget Port.empty t.ports k = tget Port.empty s.dev.ports k :=
  completes_runOk (show exec (.zlkLaneWindowEnd die p) s = execZlkLaneWindowEnd die p s from rfl) (by simp [hd, hp]) fits.2 (if_pos (decide_eq_true window))
    ⟨rfl, tget_tset_self .., fun _ other => tget_tset_ne _ _ _ other⟩

/-! ### The ZID and the credits (R516, R519) -/

theorem zlkIdWrite_cases {v : BitVec 16} (fits : Fits (.zlkIdWrite v) s) :
    ((∀ die p, die < s.dev.part.dies → p < 2 → portState s.dev die p = 0) → Completes (.zlkIdWrite v) s fun t =>
      { t with regs := s.dev.regs } = s.dev ∧ zlkId t = v.toNat) ∧
    ((∃ die p, die < s.dev.part.dies ∧ p < 2 ∧ portState s.dev die p ≠ 0) → Completes (.zlkIdWrite v) s fun t =>
      Ignored 0 (regAddr .zlkId 0 0 0) v.toNat s.dev t ∧ zlkId t = zlkId s.dev) := by
  have opens : exec (.zlkIdWrite v) s = execZlkIdWrite v s := rfl
  refine ⟨fun down => ?_, fun ⟨die, p, hd, hp, up⟩ => ?_⟩
  · refine completes_of opens fits (congrArg _ (if_neg ?_)) ⟨rfl, rfld_rset_fits (by omega) v.isLt⟩
    rw [List.any_eq_true]
    rintro ⟨die, hd, busy⟩
    simp [down die 0 (List.mem_range.mp hd) (by omega), down die 1 (List.mem_range.mp hd) (by omega)] at busy
  · refine completes_of opens fits (congrArg _ (if_pos ?_)) ⟨logIgnoredAt_ignored ..,
      congrArg (fld · 15 0) (regGet_logErr _ _ _ (regKey_ne_of_off (by decide)))⟩
    rw [List.any_eq_true]
    refine ⟨die, List.mem_range.mpr hd, ?_⟩
    obtain rfl | rfl : p = 0 ∨ p = 1 := by omega
    · simp [up]
    · simp [up]

theorem zlkVcCfgWrite_cases {v : BitVec 64} {sum : Nat} (fits : Fits (.zlkVcCfgWrite die p v) s)
    (total : sum = ((List.range 8).map fun n => fld v (8 * n + 7) (8 * n)).sum) :
    (portState s.dev die p = 0 → sum ≤ 256 → Completes (.zlkVcCfgWrite die p v) s fun t => { t with regs := s.dev.regs } = s.dev ∧
      regGet t .zlkVcCfg die 0 p = v) ∧
    (portState s.dev die p ≠ 0 ∨ 256 < sum → Completes (.zlkVcCfgWrite die p v) s fun t =>
      Ignored die (regAddr .zlkVcCfg die 0 p) v.toNat s.dev t ∧ regGet t .zlkVcCfg die 0 p = regGet s.dev .zlkVcCfg die 0 p) := by
  have hp : p < 2 := of_decide_eq_true (Bool.and_eq_true_iff.mp fits.1).2
  have opens : exec (.zlkVcCfgWrite die p v) s = execZlkVcCfgWrite die p v s := rfl
  subst total
  refine ⟨fun down small => ?_, fun bad => ?_⟩
  · exact completes_of opens fits (congrArg _ (if_neg (by omega))) ⟨rfl, regGet_regSet_self ..⟩
  · exact completes_of opens fits (congrArg _ (if_pos bad))
      ⟨logIgnoredAt_ignored .., regGet_logErr _ _ _ (zlkRegs_ne hp _ (by simp) _ (by simp))⟩

end
end Sys2Proof.Machine
end
section
/-!
SUPPORT. What leaves a port (chapter 14, Flits): a flit put on the wire, and that a port with nothing to send sends nothing.
-/

namespace Sys2Proof.Machine

/-! ### The frame of flits -/

/-- Flits went to and fro: nothing has changed but ports, transfers, put records, what has been sent and the free values. -/
def Traffic (b d : Dev) : Prop :=
  { d with ports := b.ports, xfers := b.xfers, inbound := b.inbound, sent := b.sent, wire := b.wire, free := b.free } = b

section
variable {b d e : Dev} {die p : Nat}

theorem Traffic.refl (d : Dev) : Traffic d d := rfl

theorem Traffic.trans (h : Traffic b d) (g : Traffic d e) : Traffic b e := by
  have same := congrArg (fun x : Dev =>
    { x with ports := b.ports, xfers := b.xfers, inbound := b.inbound, sent := b.sent, wire := b.wire, free := b.free }) g
  exact Eq.trans same h

/-- What does not read those fields reads as before. -/
theorem Traffic.keeps {α : Type} (h : Traffic b d) (f : Dev → α)
    (all : ∀ x q t i s w n, f { x with ports := q, xfers := t, inbound := i, sent := s, wire := w, free := n } = f x) : f d = f b :=
  (all d ..).symm.trans (congrArg f h)

theorem Traffic.linkWork (h : Traffic b d) : LinkWork b d :=
  ⟨fun c => ⟨h.keeps (seqOf · c) fun _ _ _ _ _ _ _ => rfl, h.keeps (fun x => (getCore x c).w.crews) fun _ _ _ _ _ _ _ => rfl⟩,
    h.keeps Dev.stakes fun _ _ _ _ _ _ _ => rfl, by
      have calm : Calm true b { b with ports := d.ports, xfers := d.xfers, inbound := d.inbound, sent := d.sent, wire := d.wire, free := d.free } :=
        .upd (.refl _ _)
      have same : d = { b with ports := d.ports, xfers := d.xfers, inbound := d.inbound, sent := d.sent, wire := d.wire, free := d.free } :=
        (congrArg (fun x : Dev => { x with ports := d.ports, xfers := d.xfers, inbound := d.inbound, sent := d.sent, wire := d.wire, free := d.free }) h :)
      rw [same]
      exact calm.linkWork.2.2⟩

theorem Traffic.memSame (h : Traffic b d) : MemSame b d := fun k => h.keeps (memByte · k) fun _ _ _ _ _ _ _ => rfl

theorem Traffic.rfld (h : Traffic b d) (n : RegName) (x i j hi lo : Nat) : Machine.rfld d n x i j hi lo = Machine.rfld b n x i j hi lo :=
  h.keeps (fun e => Machine.rfld e n x i j hi lo) fun _ _ _ _ _ _ _ => rfl

/-! ### One flit -/

@[simp] theorem getPort_setPort (d : Dev) (die p : Nat) (k : Port) : getPort (setPort d die p k) die p = k := tget_tset_self ..

/-- A flit that carries neither a body nor a message is not sequenced, and acknowledges what the port has taken (R485). -/
theorem makeFlit_idle (d : Dev) (k : Port) (nak : Bool) :
    (makeFlit d k none nak none).1.sequenced = false ∧ (makeFlit d k none nak none).1.ackseq = k.rx := by
  have fields (x c t n z : Nat) (hx : x < 1024) (hn : n ≤ 1) :
      nfld ((2 ^ 15 * x + 2 ^ 26 * (c % 8) + 2 ^ 29 * (t % 128) + 2 ^ 25 * n + 2 ^ 48 * (z % 2 ^ 16)) % 2 ^ 128) 1 0 = 0 ∧
      nfld ((2 ^ 15 * x + 2 ^ 26 * (c % 8) + 2 ^ 29 * (t % 128) + 2 ^ 25 * n + 2 ^ 48 * (z % 2 ^ 16)) % 2 ^ 128) 36 36 = 0 ∧
      nfld ((2 ^ 15 * x + 2 ^ 26 * (c % 8) + 2 ^ 29 * (t % 128) + 2 ^ 25 * n + 2 ^ 48 * (z % 2 ^ 16)) % 2 ^ 128) 24 15 = x := by
    simp only [nfld]
    omega
  obtain ⟨z, own⟩ : ∃ z, z = (freeVal (freeBytes 240 d).2).toNat := ⟨_, rfl⟩
  obtain ⟨type, msg, ack⟩ := fields k.rx.toNat k.crVc (tget 0 k.taken k.crVc) (b2n nak) z k.rx.isLt (b2n_le _)
  have head : (makeFlit d k none nak none).1.head.toNat =
      (2 ^ 15 * k.rx.toNat + 2 ^ 26 * (k.crVc % 8) + 2 ^ 29 * (tget 0 k.taken k.crVc % 128) + 2 ^ 25 * b2n nak + 2 ^ 48 * (z % 2 ^ 16)) % 2 ^ 128 := by
    rw [own]
    simp [makeFlit, Port.totals, b2n, BitVec.toNat_ofNat]
  refine ⟨?_, ?_⟩
  · simp only [Flit.sequenced, Flit.ftype, Flit.msgV, Flit.fld, head, type, msg]
    rfl
  · simp only [Flit.ackseq, Flit.fld, head, ack, BitVec.ofNat_toNat, BitVec.setWidth_eq]

theorem makeFlit_free (d : Dev) (k : Port) (data : Option (Nat × Nat × List Byte)) (nak : Bool) (msg : Option W64) :
    (makeFlit d k data nak msg).2 = { d with free := (makeFlit d k data nak msg).2.free } := by
  have filled (n : Nat) := freeBytes_free n d
  dsimp only [makeFlit]
  split
  · exact filled _
  · rw [filled]
    rfl

/-- An idle flit leaves with the credits whose turn it is; nothing but the port, the wire and the free values changes. -/
theorem putFlit_idle (d : Dev) (die p : Nat) (nak : Bool) : ∃ g n, putFlit d die p none nak none =
      { setPort d die p (getPort d die p).nextCredit with wire := (die, p, g) :: d.wire, free := n } ∧
    g.sequenced = false ∧ g.ackseq = (getPort d die p).rx := by
  have rx : (getPort d die p).nextCredit.rx = (getPort d die p).rx := by
    unfold Port.nextCredit
    split <;> rfl
  obtain ⟨plain, ack⟩ := makeFlit_idle d (getPort d die p).nextCredit nak
  have free := makeFlit_free d (getPort d die p).nextCredit none nak none
  dsimp only [putFlit]
  generalize makeFlit d (getPort d die p).nextCredit none nak none = r at plain ack free ⊢
  obtain ⟨g, e⟩ := r
  dsimp only at plain ack free ⊢
  refine ⟨g, e.free, ?_, plain, ack.trans rx⟩
  generalize e.free = n at free ⊢
  subst free
  rw [if_neg (by rw [plain]; simp)]
  rfl

/-- A message leaves: nothing but the port's counts, the wire and the free values changes. -/
theorem putFlit_msg (d : Dev) (die p : Nat) (w : W64) : ∃ g n tx replay, putFlit d die p none false (some w) =
    { setPort d die p { (getPort d die p).nextCredit with tx := tx, replay := replay } with wire := (die, p, g) :: d.wire, free := n } := by
  have free := makeFlit_free d (getPort d die p).nextCredit none false (some w)
  dsimp only [putFlit]
  generalize makeFlit d (getPort d die p).nextCredit none false (some w) = r at free ⊢
  obtain ⟨g, e⟩ := r
  dsimp only at free ⊢
  refine ⟨g, e.free, ?_⟩
  generalize e.free = n at free ⊢
  subst free
  split
  · exact ⟨_, _, rfl⟩
  · exact ⟨_, _, rfl⟩

/-! ### A port with nothing to send -/

/-- A fold that always yields a value yields none only of nothing. -/
theorem foldl_none_iff {α β : Type} {g : Option β → α → Option β} (hg : ∀ o x, g o x ≠ none) {l : List α} {o : Option β} :
    l.foldl g o = none ↔ l = [] ∧ o = none := by
  induction l generalizing o with
  | nil => simp
  | cons x l ih => simp [ih, hg]

theorem nextXfer_none {v : Nat} : nextXfer d die p v = none ↔ ∀ x ∈ portXfers d die p v, x.more = false := by
  rw [nextXfer, foldl_none_iff, List.filter_eq_nil_iff]
  · simp
  · intro o x
    cases o with
    | none => simp
    | some b =>
      dsimp only
      split
      · simp
      · simp

theorem dueChunk_none {v : Nat} : dueChunk d die p v = none ↔ ∀ x ∈ portXfers d die p v, ∀ c ∈ x.chunks, c.2.due = false := by
  simp [dueChunk, List.findSome?_eq_none_iff]

/-- A fold whose steps only append rebuilds its list. -/
theorem foldl_append_same {α β : Type} {g : List α × β → α → List α × β} {l : List α} (hg : ∀ r, ∀ x ∈ l, g r x = (r.1 ++ [x], r.2))
    (acc : List α) (b : β) :
    l.foldl g (acc, b) = (acc ++ l, b) := by
  induction l generalizing acc with
  | nil => simp
  | cons x l ih =>
    rw [List.foldl_cons, hg _ x (by simp), ih fun r y hy => hg r y (List.mem_cons_of_mem _ hy)]
    simp

theorem assignSlots_same (slots : ∀ x ∈ d.xfers, x.die = die → x.port = p → x.slot < 256) : assignSlots d die p = d := by
  unfold assignSlots
  rw [foldl_append_same fun r x hx => ?_]
  · rfl
  · have own : (decide (x.die = die) && decide (x.port = p) && decide (256 ≤ x.slot)) = false := by
      simp only [Bool.and_eq_false_iff, decide_eq_false_iff_not, not_le]
      have := slots x hx
      tauto
    simp only [own]

/-- A port has nothing to send as long as its streams, its messages and the transfers are as before. -/
theorem PortQuiet.congr (quiet : PortQuiet die p d) (out : (getPort e die p).out = []) (msgs : (getPort e die p).msgs = []) (xfers : e.xfers = d.xfers) :
    PortQuiet die p e := by
  obtain ⟨-, -, rest, slots⟩ := quiet
  refine ⟨out, msgs, fun v hv => ?_, by rw [xfers]; exact slots⟩
  have h := rest v hv
  rw [dueChunk_none, nextXfer_none, portXfers] at h ⊢
  rw [xfers]
  exact h

theorem stageVc_none {v : Nat} (out : (getPort d die p).out = []) (due : dueChunk d die p v = none) (next : nextXfer d die p v = none) :
    stageVc d die p v = none := by
  have idle : (getPort d die p).outOn v = Outgoing.idle := by rw [Port.outOn, out]; rfl
  simp only [stageVc, idle, due, next]
  rfl

theorem pick_none {k : Port} (out : k.out = []) : k.pick = none := by
  have idle (v : Nat) : k.outOn v = Outgoing.idle := by rw [Port.outOn, out]; rfl
  have rests : Outgoing.idle.ready = false := rfl
  simp [Port.pick, idle, rests]

theorem staged_none (out : (getPort d die p).out = []) (rest : ∀ v, v < 8 → dueChunk d die p v = none ∧ nextXfer d die p v = none) :
    ((List.range 8).findSome? fun v => stageVc d die p v) = none :=
  List.findSome?_eq_none_iff.mpr fun v hv => stageVc_none out (rest v (List.mem_range.mp hv)).1 (rest v (List.mem_range.mp hv)).2

theorem pumpSend_quiet (quiet : PortQuiet die p d) (n : Nat) : pumpSend die p n d = (d, none) := by
  obtain ⟨out, msgs, rest, -⟩ := quiet
  cases n with
  | zero => rfl
  | succ n =>
    have still : flitOut d die p = none := by
      simp only [flitOut, msgs, pick_none out]
      split <;> rfl
    simp only [pumpSend, staged_none out rest, still]
    split <;> rfl

/-- A port with nothing to send sends nothing. -/
theorem repump_quiet (quiet : PortQuiet die p d) : repump d die p = d := by
  have sent := pumpSend_quiet quiet (pumpFuel d die p)
  rw [repump, pumpPort, assignSlots_same quiet.2.2.2, sent]

/-- A port with one message to send, and room to keep it, sends it and nothing more (R485, R487). -/
theorem repump_msg {w : W64} (quiet : PortQuiet die p (setPort d die p { getPort d die p with msgs := [] })) (msgs : (getPort d die p).msgs = [w])
    (room : (getPort d die p).replay = []) (up : portState d die p = 2) (due : (getPort d die p).crDue = []) :
    { repump d die p with ports := d.ports, wire := d.wire, free := d.free } = d ∧
      ∃ tx replay, getPort (repump d die p) die p = { getPort d die p with msgs := [], tx := tx, replay := replay } := by
  obtain ⟨out, -, rest, slots⟩ := id quiet
  rw [getPort_setPort] at out
  obtain ⟨g, n, tx, replay, leaves⟩ := putFlit_msg (setPort d die p { getPort d die p with msgs := [] }) die p w
  have next : (getPort (setPort d die p { getPort d die p with msgs := [] }) die p).nextCredit = { getPort d die p with msgs := [] } := by
    rw [getPort_setPort, Port.nextCredit, due]
  rw [next] at leaves
  obtain ⟨e, own⟩ : ∃ e, e = putFlit (setPort d die p { getPort d die p with msgs := [] }) die p none false (some w) := ⟨_, rfl⟩
  have first : flitOut d die p = some e := by
    simp only [flitOut, msgs, room, own]
    rfl
  have port : getPort e die p = { getPort d die p with msgs := [], tx := tx, replay := replay } := by
    rw [own, leaves]
    exact tget_tset_self ..
  have same : e.xfers = d.xfers := by
    rw [own, leaves]
    rfl
  have quiet' : PortQuiet die p e := .congr quiet (by rw [port]; exact out) (by rw [port]) same
  have sent : pumpSend die p (pumpFuel d die p) d = (e, none) := by
    obtain ⟨m, fuel⟩ : ∃ m, pumpFuel d die p = m + 1 := ⟨2047 + (getPort d die p).msgs.length + 4 * d.xfers.length, by unfold pumpFuel; omega⟩
    rw [fuel]
    simp only [pumpSend, staged_none out rest, first, up]
    exact pumpSend_quiet quiet' m
  have runs : repump d die p = e := by rw [repump, pumpPort, assignSlots_same (d := d) slots, sent]
  rw [runs]
  refine ⟨?_, tx, replay, port⟩
  rw [own, leaves]
  rfl

end
end Sys2Proof.Machine
end
section
/-!
SUPPORT. What a port does with a group of codewords (chapter 14, Flits): the codewords are counted, the flits taken one by one, and an answer leaves.
-/

namespace Sys2Proof.Machine
section
variable {b c d e : Dev} {die p : Nat}

/-! ### Totals (R485, R487, R493) -/

/-- The device once the running totals of a flit have been read. -/
def totalled (die p : Nat) (d : Dev) (f : Flit) : Dev :=
  ((getPort d die p).replay.filter fun x => !after x.fseq f.ackseq).foldl forgetPut (setPort d die p (totalsIn (getPort d die p) f))

/-- Only running totals came: the replay buffer and the credits of the port, and puts whose last ACK has arrived. -/
structure Totalled (die p : Nat) (d e : Dev) : Prop where
  only : { e with ports := d.ports, inbound := d.inbound } = d
  port : ∃ replay returned, getPort e die p = { getPort d die p with replay := replay, returned := returned }
  still : (getPort d die p).replay = [] → (getPort e die p).replay = [] ∧ e.inbound = d.inbound

theorem Totalled.refl (d : Dev) : Totalled die p d d := ⟨rfl, ⟨_, _, rfl⟩, fun h => ⟨h, rfl⟩⟩

theorem Totalled.trans (h : Totalled die p c d) (g : Totalled die p d e) : Totalled die p c e := by
  obtain ⟨a, r, port⟩ := h.port
  obtain ⟨a', r', port'⟩ := g.port
  refine ⟨?_, ⟨a', r', by rw [port', port]⟩, fun empty => ?_⟩
  · have same := congrArg (fun x : Dev => { x with ports := c.ports, inbound := c.inbound }) g.only
    exact Eq.trans same h.only
  · obtain ⟨first, kept⟩ := h.still empty
    obtain ⟨second, kept'⟩ := g.still first
    exact ⟨second, kept'.trans kept⟩

theorem Totalled.traffic (h : Totalled die p d e) : Traffic d e := by
  have same := congrArg (fun x : Dev => { x with xfers := d.xfers, sent := d.sent, wire := d.wire, free := d.free }) h.only
  exact same

/-- What reads neither ports nor put records reads as before. -/
theorem Totalled.keeps {α : Type} (h : Totalled die p d e) (f : Dev → α) (all : ∀ x q i, f { x with ports := q, inbound := i } = f x) : f e = f d :=
  (all e ..).symm.trans (congrArg f h.only)

theorem totalled_totals (d : Dev) (f : Flit) : Totalled die p d (totalled die p d f) := by
  have forgets (l : List Flit) (e : Dev) : { l.foldl forgetPut e with inbound := e.inbound } = e :=
    List.foldlRecOn (motive := fun t : Dev => { t with inbound := e.inbound } = e) l forgetPut rfl fun t ht f _ => by
      dsimp only [forgetPut]
      split
      · exact ht
      · exact ht
  have all := forgets ((getPort d die p).replay.filter fun x => !after x.fseq f.ackseq) (setPort d die p (totalsIn (getPort d die p) f))
  have ports : (totalled die p d f).ports = (setPort d die p (totalsIn (getPort d die p) f)).ports := (congrArg Dev.ports all :)
  have port : getPort (totalled die p d f) die p = totalsIn (getPort d die p) f := by
    rw [getPort, ports]
    exact tget_tset_self ..
  refine ⟨?_, ⟨_, _, port⟩, fun empty => ⟨?_, ?_⟩⟩
  · exact (congrArg (fun x : Dev => { x with ports := d.ports }) all :)
  · rw [port, totalsIn, empty]
    rfl
  · rw [totalled, empty]
    rfl

/-! ### One flit -/

/-- The device that has taken the sequence number of a flit. -/
def counted (die p : Nat) (d : Dev) (f : Flit) : Dev :=
  setPort (totalled die p d f) die p { getPort (totalled die p d f) die p with rx := f.fseq }

theorem counted_traffic (d : Dev) (f : Flit) : Traffic d (counted die p d f) := (totalled_totals d f).traffic.trans rfl

/-- What a flit that asks for no replay does (R485, R487). -/
theorem flitIn_plain (d : Dev) (gap : Bool) {f : Flit} (nak : f.nak = false) : flitIn die p (d, gap) f =
    if f.sequenced = false then (totalled die p d f, gap)
    else if f.fseq ≠ (getPort d die p).rx + 1 then (totalled die p d f, gap || after f.fseq (getPort d die p).rx)
    else (if f.msgV then messageIn (if f.ftype = 1 then bodyIn (counted die p d f) die p f else counted die p d f) die p f.msg
      else if f.ftype = 1 then bodyIn (counted die p d f) die p f else counted die p d f, gap) := by
  obtain ⟨a, n, port⟩ := (totalled_totals (die := die) (p := p) d f).port
  have rx : (getPort (totalled die p d f) die p).rx = (getPort d die p).rx := by rw [port]
  rw [← rx]
  cases h : f.sequenced
  · simp only [flitIn, nak, h]
    rfl
  · simp only [flitIn, nak, h]
    rfl

/-- An idle flit brings its totals alone. -/
theorem flitIn_idle (d : Dev) (gap : Bool) {f : Flit} (seq : f.sequenced = false) (nak : f.nak = false) :
    flitIn die p (d, gap) f = (totalled die p d f, gap) := by rw [flitIn_plain d gap nak, if_pos seq]

/-- A sequenced flit out of its turn brings its totals, and shows a gap where it is ahead (R487). -/
theorem flitIn_astray (d : Dev) (gap : Bool) {f : Flit} (seq : f.sequenced = true) (nak : f.nak = false) (astray : f.fseq ≠ (getPort d die p).rx + 1) :
    flitIn die p (d, gap) f = (totalled die p d f, gap || after f.fseq (getPort d die p).rx) := by
  rw [flitIn_plain d gap nak, if_neg (by simp [seq]), if_pos astray]

/-- A sequenced flit in its turn is counted, and its body or else its message taken. -/
theorem flitIn_turn (d : Dev) (gap : Bool) {f : Flit} (seq : f.sequenced = true) (nak : f.nak = false) (turn : f.fseq = (getPort d die p).rx + 1) :
    flitIn die p (d, gap) f = (if f.msgV then messageIn (if f.ftype = 1 then bodyIn (counted die p d f) die p f else counted die p d f) die p f.msg
      else if f.ftype = 1 then bodyIn (counted die p d f) die p f else counted die p d f, gap) := by
  rw [flitIn_plain d gap nak, if_neg (by simp [seq]), if_neg (not_not.mpr turn)]

/-- Idle flits bring totals alone. -/
theorem flitsIn_idle (l : List Flit) (plain : ∀ f ∈ l, f.sequenced = false ∧ f.nak = false) (r : Dev × Bool) :
    Totalled die p r.1 (l.foldl (flitIn die p) r).1 ∧ (l.foldl (flitIn die p) r).2 = r.2 :=
  List.foldlRecOn (motive := fun t : Dev × Bool => Totalled die p r.1 t.1 ∧ t.2 = r.2) l _ ⟨.refl _, rfl⟩ fun t ⟨ht, gap⟩ f hf => by
    rw [flitIn_idle t.1 t.2 (plain f hf).1 (plain f hf).2]
    exact ⟨ht.trans (totalled_totals ..), gap⟩

/-! ### A group -/

/-- Codewords of a group that cannot be corrected. -/
def badWords (x : FlitGroup) : Nat := (x.errors.filter fun n => decide (15 < n)).length

/-- The device once the codewords and the lanes of a group have been counted (R491, R518). -/
def tallied (d : Dev) (die p : Nat) (x : FlitGroup) : Dev :=
  setPort (rcount (rcount d .zlkFec die 0 p 31 0 (x.errors.filter fun n => decide (0 < n) && decide (n ≤ 15)).length)
    .zlkFec die 0 p 63 32 (badWords x)) die p
    (countLanes (getPort d die p) x)

theorem tallied_linkWork (d : Dev) (die p : Nat) (x : FlitGroup) : LinkWork d (tallied d die p x) := ⟨fun _ => ⟨rfl, rfl⟩, rfl, rfl⟩

theorem tallied_port (d : Dev) (die p : Nat) (x : FlitGroup) : getPort (tallied d die p x) die p = countLanes (getPort d die p) x := getPort_setPort ..

theorem regGet_setPort (d : Dev) (q : Port) (n : RegName) (y i j : Nat) : regGet (setPort d die p q) n y i j = regGet d n y i j := rfl

/-- Counting a group writes the codeword counts of the port alone among the registers. -/
theorem regGet_tallied (d : Dev) (x : FlitGroup) {n : RegName} {y i j : Nat} (apart : regKey n y i j ≠ regKey .zlkFec die 0 p) :
    regGet (tallied d die p x) n y i j = regGet d n y i j := by
  rw [tallied, regGet_setPort]
  exact (regGet_regSet_other _ _ apart).trans (regGet_regSet_other _ _ apart)

theorem rfld_tallied {d : Dev} {x : FlitGroup} (hp : p < 2) (n : RegName) (hn : n = .zlkStatus ∨ n = .zlkCtl) (hi lo : Nat) :
    rfld (tallied d die p x) n die 0 p hi lo = rfld d n die 0 p hi lo := by
  have all : ∀ p < 2, ∀ n, n = RegName.zlkStatus ∨ n = RegName.zlkCtl → regOff n 0 p % 0x20000000 ≠ regOff .zlkFec 0 p % 0x20000000 := by
    rintro p hp n (rfl | rfl)
    · revert p
      decide
    · revert p
      decide
  exact congrArg (fld · hi lo) (regGet_tallied d x (regKey_ne_of_off (all p hp n hn)))

theorem zlkId_tallied (d : Dev) (x : FlitGroup) (hp : p < 2) : zlkId (tallied d die p x) = zlkId d := by
  have all : ∀ p < 2, regOff .zlkId 0 0 % 0x20000000 ≠ regOff .zlkFec 0 p % 0x20000000 := by decide
  exact congrArg (fld · 15 0) (regGet_tallied d x (regKey_ne_of_off (all p hp)))

/-- Codewords are counted, and no count wraps (R518). -/
theorem tallied_counts (d : Dev) (die p : Nat) (x : FlitGroup) :
    rfld (tallied d die p x) .zlkFec die 0 p 31 0 =
      min 0xFFFFFFFF (rfld d .zlkFec die 0 p 31 0 + (x.errors.filter fun n => decide (0 < n) && decide (n ≤ 15)).length) ∧
    rfld (tallied d die p x) .zlkFec die 0 p 63 32 = min 0xFFFFFFFF (rfld d .zlkFec die 0 p 63 32 + badWords x) := by
  obtain ⟨e, own⟩ : ∃ e, e = rcount d .zlkFec die 0 p 31 0 (x.errors.filter fun n => decide (0 < n) && decide (n ≤ 15)).length := ⟨_, rfl⟩
  have ends (hi lo : Nat) : rfld (tallied d die p x) .zlkFec die 0 p hi lo = rfld (rcount e .zlkFec die 0 p 63 32 (badWords x)) .zlkFec die 0 p hi lo := by
    rw [own, rfld, tallied, regGet_setPort, rfld]
  have low (k m : Nat) : satAdd (2 ^ (31 + 1 - 0) - 1) k m = min 0xFFFFFFFF (k + m) := by simp [satAdd]
  have high (k m : Nat) : satAdd (2 ^ (63 + 1 - 32) - 1) k m = min 0xFFFFFFFF (k + m) := by simp [satAdd]
  constructor
  · rw [ends, rcount, rfld_rset_beside (by omega) (by omega), own, rcount, low, rfld_rset_fits (by omega) (by omega)]
  · have kept : rfld e .zlkFec die 0 p 63 32 = rfld d .zlkFec die 0 p 63 32 := by
      rw [own, rcount]
      exact rfld_rset_beside (by omega) (by omega)
    rw [ends, rcount, high, rfld_rset_fits (by omega) (by omega), kept]

/-- Lanes count a group's errors, each its own (R491). -/
theorem tget_countLanes (k : Port) (x : FlitGroup) {i : Nat} (hi : i < 8) : tget 0 (countLanes k x).laneErrs i = tget 0 k.laneErrs i + x.lanes.getD i 0 :=
  foldl_range_at (f := fun t i => tset 0 t i (tget 0 t i + x.lanes.getD i 0)) (I := fun t => tget 0 t i = tget 0 k.laneErrs i)
    (J := fun t => tget 0 t i = tget 0 k.laneErrs i + x.lanes.getD i 0) hi
    (fun t y other same => (tget_tset_ne _ _ _ other.symm).trans same) (fun t same => (tget_tset_self ..).trans (by rw [same]))
    (fun t y other same => (tget_tset_ne _ _ _ other.symm).trans same) rfl

theorem lanesOver_none (within : ∀ i, i < 8 → tget 0 (getPort d die p).laneErrs i ≤ rfld d .zlkCtl die 0 p 39 32 * 1024) : lanesOver d die p = 0 :=
  List.foldlRecOn (motive := fun m => m = 0) _ _ rfl fun m hm i hi => by
    rw [if_neg (Nat.not_lt.mpr (within i (List.mem_range.mp hi)))]
    exact hm

theorem retryIn_none (held : ∀ v, v < 8 → ((getPort d die p).incOn v).held = 0) : retryIn d die p = d :=
  List.foldlRecOn (motive := fun e => e = d) _ _ rfl fun e same v hv => by
    rw [same]
    exact if_pos (held v (List.mem_range.mp hv))

theorem sendCredits_none (due : (getPort d die p).crDue = []) : sendCredits d die p = d := by
  unfold sendCredits
  rw [due]
  split <;> rfl

/-- The elements at all the places of a list are that list. -/
theorem filterMap_range_getElem? {α : Type} (l : List α) : (List.range l.length).filterMap (fun i => l[i]?) = l := by
  induction l with
  | nil => rfl
  | cons x l ih => simpa [List.range_succ_eq_map, List.filterMap_map, Function.comp_def] using ih

/-- The flits of a group whose codewords are all good. -/
theorem goodFlits_of_good {x : FlitGroup} (good : badWords x = 0) : (((List.range x.flits.length).filter x.good).filterMap fun i => x.flits[i]?) = x.flits := by
  have each (i : Nat) : x.good i = true := by
    have low := List.filter_eq_nil_iff.mp (List.eq_nil_of_length_eq_zero good)
    refine List.all_eq_true.mpr fun k _ => ?_
    rw [decide_eq_true_eq, List.getD_eq_getElem?_getD]
    cases h : x.errors[k]? with
    | none => exact Nat.zero_le _
    | some n => simpa using low n (List.mem_of_getElem? h)
  rw [List.filter_eq_self.mpr fun i _ => each i, filterMap_range_getElem?]

/-- The answer to a group of which c is left, and whether a gap shows. -/
def answered (x : FlitGroup) (rx : BitVec 10) (die p : Nat) (c : Dev) (gap : Bool) : Dev :=
  if 0 < badWords x ∨ gap = true then askReplay c die p else if (getPort c die p).rx ≠ rx then putFlit c die p none false none else c

/-- A group with lanes within their limit, on a port that holds nothing back, leaves what its flits leave, its answer, and what the port sends then. -/
theorem groupIn_eq {x : FlitGroup} (hp : p < 2) (held : ∀ v, v < 8 → ((getPort d die p).incOn v).held = 0)
    (lanes : ∀ i, i < 8 → tget 0 (getPort d die p).laneErrs i + x.lanes.getD i 0 ≤ rfld d .zlkCtl die 0 p 39 32 * 1024) {gap : Bool}
    (flits : (((List.range x.flits.length).filter x.good).filterMap fun i => x.flits[i]?).foldl (flitIn die p) (tallied d die p x, false) = (c, gap))
    (sent : repump (answered x (getPort d die p).rx die p c gap) die p = e) (traffic : Traffic (tallied d die p x) e)
    (errs : (getPort e die p).laneErrs = (countLanes (getPort d die p) x).laneErrs) (due : (getPort e die p).crDue = []) : groupIn d die p x = e := by
  have retry : retryIn (tallied d die p x) die p = tallied d die p x := retryIn_none fun v hv => by
    rw [tallied_port]
    exact held v hv
  have rx : (getPort (tallied d die p x) die p).rx = (getPort d die p).rx := by rw [tallied_port]; rfl
  have low : lanesOver e die p = 0 := lanesOver_none fun i hi => by
    rw [errs, tget_countLanes _ _ hi, traffic.rfld, rfld_tallied hp _ (.inr rfl)]
    exact lanes i hi
  have opens : groupIn d die p x = (fun t : Dev => if lanesOver t die p &&& activeLanes t die p = 0 then t else failLanes t die p (lanesOver t die p))
      (sendCredits (repump ((fun r : Dev × Bool => answered x (getPort (retryIn (tallied d die p x) die p) die p).rx die p r.1 r.2)
        ((((List.range x.flits.length).filter x.good).filterMap fun i => x.flits[i]?).foldl (flitIn die p) (retryIn (tallied d die p x) die p, false))) die p)
          die p) := rfl
  rw [opens, retry, flits, rx]
  dsimp only
  rw [sent, sendCredits_none due, low, Nat.zero_and, if_pos rfl]

end
end Sys2Proof.Machine
end
section
/-!
SUPPORT. What single flits do to a port with nothing to send (chapter 14, Flits; chapter 14, Transfers): the answer to a group, bodies that begin a put or are
for another package, and an ACK.
-/

namespace Sys2Proof.Machine
section
variable {b c d e : Dev} {die p : Nat} {x : FlitGroup} {gap : Bool}

/-! ### The answer to a group (R485, R487) -/

/-- A device that has answered a group by at most one idle flit. -/
structure Answer (die p : Nat) (x : FlitGroup) (rx : BitVec 10) (gap : Bool) (c e : Dev) : Prop where
  only : { e with ports := c.ports, sent := c.sent, wire := c.wire, free := c.free } = c
  port : getPort e die p = (if 0 < badWords x ∨ gap = true ∨ (getPort c die p).rx ≠ rx then (getPort c die p).nextCredit else getPort c die p)
  sent : e.sent = if 0 < badWords x ∨ gap = true then .replay die p (getPort c die p).rx :: c.sent else c.sent
  acks : ¬(0 < badWords x ∨ gap = true) → (getPort c die p).rx ≠ rx →
    ∃ g, e.wire = (die, p, g) :: c.wire ∧ g.ackseq = (getPort c die p).rx ∧ g.sequenced = false

theorem Answer.traffic {rx : BitVec 10} (h : Answer die p x rx gap c e) : Traffic c e :=
  (congrArg (fun y : Dev => { y with xfers := c.xfers, inbound := c.inbound }) h.only :)

/-- What an answer does not touch reads as before. -/
theorem Answer.keeps {α : Type} {rx : BitVec 10} (h : Answer die p x rx gap c e) (f : Dev → α)
    (all : ∀ y q s w n, f { y with ports := q, sent := s, wire := w, free := n } = f y) : f e = f c := (all e ..).symm.trans (congrArg f h.only)

theorem answered_answer (rx : BitVec 10) : Answer die p x rx gap c (answered x rx die p c gap) := by
  by_cases ask : 0 < badWords x ∨ gap = true
  · obtain ⟨g, n, leaves, -, -⟩ := putFlit_idle (send c (.replay die p (getPort c die p).rx)) die p true
    have runs : answered x rx die p c gap = { setPort (send c (.replay die p (getPort c die p).rx)) die p (getPort c die p).nextCredit with
        wire := (die, p, g) :: c.wire, free := n } := (if_pos ask).trans leaves
    rw [runs]
    refine ⟨rfl, ?_, (if_pos ask).symm, fun plain => absurd ask plain⟩
    rw [if_pos (by tauto)]
    exact tget_tset_self ..
  · by_cases same : (getPort c die p).rx = rx
    · have runs : answered x rx die p c gap = c := (if_neg ask).trans (if_neg (not_not.mpr same))
      rw [runs]
      refine ⟨rfl, ?_, (if_neg ask).symm, fun _ moved => absurd same moved⟩
      rw [if_neg (by tauto)]
    · obtain ⟨g, n, leaves, plain, ack⟩ := putFlit_idle c die p false
      have runs : answered x rx die p c gap = { setPort c die p (getPort c die p).nextCredit with wire := (die, p, g) :: c.wire, free := n } :=
        ((if_neg ask).trans (if_pos same)).trans leaves
      rw [runs]
      refine ⟨rfl, ?_, (if_neg ask).symm, fun _ _ => ⟨g, rfl, ack, plain⟩⟩
      rw [if_pos (by tauto)]
      exact tget_tset_self ..

/-- A port that gives no credits back and has nothing to send is left as its answer leaves it. -/
theorem groupIn_quiet (hp : p < 2) (held : ∀ v, v < 8 → ((getPort d die p).incOn v).held = 0)
    (lanes : ∀ i, i < 8 → tget 0 (getPort d die p).laneErrs i + x.lanes.getD i 0 ≤ rfld d .zlkCtl die 0 p 39 32 * 1024)
    (flits : (((List.range x.flits.length).filter x.good).filterMap fun i => x.flits[i]?).foldl (flitIn die p) (tallied d die p x, false) = (c, gap))
    (traffic : Traffic (tallied d die p x) c) (errs : (getPort c die p).laneErrs = (countLanes (getPort d die p) x).laneErrs)
    (due : (getPort c die p).crDue = []) (quiet : PortQuiet die p c) :
    Answer die p x (getPort d die p).rx gap c (groupIn d die p x) ∧ getPort (groupIn d die p x) die p = getPort c die p := by
  have answer : Answer die p x (getPort d die p).rx gap c (answered x (getPort d die p).rx die p c gap) := answered_answer _
  have port : getPort (answered x (getPort d die p).rx die p c gap) die p = getPort c die p := by
    rw [answer.port, Port.nextCredit, due, ite_self]
  have still : repump (answered x (getPort d die p).rx die p c gap) die p = answered x (getPort d die p).rx die p c gap :=
    repump_quiet (quiet.congr (by rw [port]; exact quiet.1) (by rw [port]; exact quiet.2.1) (answer.keeps Dev.xfers fun _ _ _ _ _ => rfl))
  rw [groupIn_eq hp held lanes flits still (traffic.trans answer.traffic) (by rw [port]; exact errs) (by rw [port]; exact due)]
  exact ⟨answer, port⟩

/-- In a group of good codewords with one flit that is not idle, that flit is all there is but for totals. -/
theorem goodFlits_one {f : Flit} {rest : List Flit} (good : badWords x = 0) (split : x.flits = f :: rest)
    (plain : ∀ g ∈ rest, g.sequenced = false ∧ g.nak = false) (taken : flitIn die p (b, false) f = (d, gap)) :
    ∃ c, Totalled die p d c ∧
      (((List.range x.flits.length).filter x.good).filterMap fun i => x.flits[i]?).foldl (flitIn die p) (b, false) = (c, gap) := by
  obtain ⟨totals, same⟩ := flitsIn_idle rest plain (d, gap) (die := die) (p := p)
  refine ⟨_, totals, ?_⟩
  rw [goodFlits_of_good good, split, List.foldl_cons, taken]
  exact Prod.ext rfl same

/-! ### Bodies (R493, R495, R497) -/

/-- A port as it is once a flit in its turn has been counted. -/
theorem counted_port (f : Flit) : ∃ replay returned, ((getPort d die p).replay = [] → replay = []) ∧ getPort (counted die p d f) die p =
    { getPort d die p with rx := f.fseq, replay := replay, returned := returned } := by
  obtain ⟨a, n, port⟩ := (totalled_totals (die := die) (p := p) d f).port
  refine ⟨a, n, fun empty => ?_, ?_⟩
  · have still := ((totalled_totals (die := die) (p := p) d f).still empty).1
    rwa [port] at still
  · rw [counted, getPort_setPort, port]

theorem takeStream_none {v n : Nat} (front : ((getPort d die p).incOn v).front = .none) : takeStream die p v n d = d := by
  cases n with
  | zero => rfl
  | succ n => rw [takeStream, front]

/-- A header makes its put known, unless its body is for another package or it is known already. -/
theorem takeStream_header {v n : Nat} {h : PutHeader} {y : Incoming} (own : (getPort d die p).incOn v = y) (front : y.front = .header h) :
    takeStream die p v (n + 1) d = takeStream die p v n (setPort
      (if (d.inbound.any fun b => decide (b.h = h)) || y.lost then d else setInbound d ⟨h, [], false, false⟩)
      die p ((getPort d die p).setInc v { y with h := some h, chunk := 0, again := d.inbound.any fun b => decide (b.h = h), bytes := y.bytes.drop 64 })) := by
  subst own
  rw [takeStream, front]

/-- UNROUTABLE is answered on every version, and is not counted (R490, R517). -/
theorem nakChunk_unroutable (d : Dev) (h : PutHeader) (n : Nat) : nakChunk d die p h n 4 = sendMsg d die p (.nak h.srcZid.toNat h.tag.toNat n 4) := rfl

theorem sendMsg_port (d : Dev) (m : LinkMsg) : getPort (sendMsg d die p m) die p = { getPort d die p with msgs := (getPort d die p).msgs ++ m.word.toList } :=
  tget_tset_self ..

/-- What stands in a stream's first body: its header. -/
theorem front_first {body : List Byte} (long : 64 ≤ body.length) (lost : Bool) (held : Nat) :
    (⟨none, 0, false, body, lost, held⟩ : Incoming).front = .header (headerOf body) :=
  if_neg (Nat.not_lt.mpr long)

/-- A chunk of which less has come than its bytes and trailer is not whole. -/
theorem front_short {h : PutHeader} {body : List Byte} (some : h.length ≠ 0) (short : body.length < h.chunkLen 0 + 16) (lost : Bool) (held : Nat) :
    (⟨.some h, 0, false, body, lost, held⟩ : Incoming).front = .none := by
  simp only [Incoming.front, if_neg some, Bool.false_and]
  exact if_pos (Or.inl short)

theorem front_alone {h : PutHeader} (none : h.length = 0) (again lost : Bool) (body : List Byte) (held : Nat) :
    (⟨some h, 0, again, body, lost, held⟩ : Incoming).front = .chunk h 0 [] (crc32c []) := by
  simp only [Incoming.front, if_pos none]

/-- The header alone of a put, in a body for another package, is answered UNROUTABLE. -/
theorem takeStream_unroutable {v n held : Nat} {h : PutHeader} {again : Bool} {body : List Byte}
    (own : (getPort d die p).incOn v = ⟨some h, 0, again, body, true, held⟩) (alone : h.length = 0) :
    takeStream die p v (n + 1) d =
      takeStream die p v n (sendMsg (setPort d die p ((getPort d die p).setInc v { Incoming.idle with held := held })) die p
        (.nak h.srcZid.toNat h.tag.toNat 0 4)) := by
  have waits : chunkWaits d die h 0 0 = false := rfl
  have total : h.total = 0 := by
    rw [PutHeader.total, alone]
    cases h.chunk16 <;> rfl
  rw [takeStream, own, front_alone alone]
  simp only [List.length_nil, waits, total, nakChunk_unroutable, Nat.zero_le, Nat.zero_add, decide_true, Bool.or_true, if_true, Bool.false_eq_true, if_false]

/-- A credit that holds nothing goes back at once (R493). -/
theorem returnCredits_one {v : Nat} (inc : (getPort d die p).incOn v = { Incoming.idle with held := 1 }) (due : (getPort d die p).crDue = []) :
    returnCredits d die p v = setPort d die p { (getPort d die p).setInc v Incoming.idle with
      taken := tset 0 (getPort d die p).taken v (tget 0 (getPort d die p).taken v + 1), crDue := [v] } := by
  have keep : min 1 (cdiv 0 240) = 0 := rfl
  unfold returnCredits
  simp only [inc, due, Incoming.idle, List.length_nil, keep, Nat.zero_ne_one, if_false, Nat.sub_zero, List.not_mem_nil, List.nil_append]

/-! Writing a port, or sending a message by it, leaves transfers and put records, and a message is the one thing sent. -/

@[simp] theorem setPort_xfers (d : Dev) (k : Port) : (setPort d die p k).xfers = d.xfers := rfl
@[simp] theorem setPort_sent (d : Dev) (k : Port) : (setPort d die p k).sent = d.sent := rfl
@[simp] theorem setPort_inbound (d : Dev) (k : Port) : (setPort d die p k).inbound = d.inbound := rfl
@[simp] theorem sendMsg_xfers (d : Dev) (m : LinkMsg) : (sendMsg d die p m).xfers = d.xfers := rfl
@[simp] theorem sendMsg_sent (d : Dev) (m : LinkMsg) : (sendMsg d die p m).sent = m :: d.sent := rfl
@[simp] theorem sendMsg_inbound (d : Dev) (m : LinkMsg) : (sendMsg d die p m).inbound = d.inbound := rfl

theorem setPort_traffic (d : Dev) (k : Port) : Traffic d (setPort d die p k) := rfl

theorem sendMsg_traffic (d : Dev) (m : LinkMsg) : Traffic d (sendMsg d die p m) := rfl

/-- A body on an idle VC, before what it holds is taken. -/
def received (die p : Nat) (d : Dev) (f : Flit) : Dev :=
  setPort d die p ((getPort d die p).setInc f.vc ⟨none, 0, false, f.body, decide (f.dst ≠ zlkId d), 1⟩)

theorem bodyIn_idle {f : Flit} (idle : (getPort d die p).incOn f.vc = Incoming.idle) (long : f.body.length = 240) :
    bodyIn d die p f = returnCredits (takeStream die p f.vc 242 (received die p d f)) die p f.vc := by
  simp only [bodyIn, idle, received, Incoming.idle, List.nil_append, long, Bool.false_or, Nat.zero_add]

theorem received_inc (d : Dev) (f : Flit) : (getPort (received die p d f) die p).incOn f.vc = ⟨none, 0, false, f.body, decide (f.dst ≠ zlkId d), 1⟩ := by
  rw [received, getPort_setPort]
  exact tget_tset_self ..

/-- A body that begins a put makes it known and holds its credit while its chunk is not whole (R493, R495). -/
theorem bodyIn_begins {f : Flit} {h : PutHeader} (idle : (getPort d die p).incOn f.vc = Incoming.idle) (long : f.body.length = 240)
    (own : h = headerOf f.body) (big : 160 < h.chunkLen 0) (fresh : ∀ b ∈ d.inbound, b.h ≠ h) :
    Traffic d (bodyIn d die p f) ∧ (bodyIn d die p f).xfers = d.xfers ∧ (bodyIn d die p f).sent = d.sent ∧
      (bodyIn d die p f).inbound = (if f.dst ≠ zlkId d then d.inbound
        else ⟨h, [], false, false⟩ :: d.inbound.filter fun b => !(decide (b.h.srcZid = h.srcZid) && decide (b.h.tag = h.tag))) ∧
      ∃ inc, getPort (bodyIn d die p f) die p = { getPort d die p with inc := inc } ∧
        tget Incoming.idle inc f.vc = ⟨some h, 0, false, f.body.drop 64, decide (f.dst ≠ zlkId d), 1⟩ := by
  have unknown : (d.inbound.any fun b => decide (b.h = h)) = false := by
    rw [List.any_eq_false]
    intro b hb
    simpa using fresh b hb
  have nonempty : h.length ≠ 0 := by
    intro zero
    rw [PutHeader.chunkLen, zero] at big
    simp at big
  obtain ⟨m, known, notes⟩ : ∃ m, m = (if f.dst ≠ zlkId d then received die p d f else setInbound (received die p d f) ⟨h, [], false, false⟩) ∧
      ({ m with inbound := d.inbound } = received die p d f ∧ m.inbound = (if f.dst ≠ zlkId d then d.inbound
        else ⟨h, [], false, false⟩ :: d.inbound.filter fun b => !(decide (b.h.srcZid = h.srcZid) && decide (b.h.tag = h.tag)))) := by
    refine ⟨_, rfl, ?_⟩
    by_cases away : f.dst ≠ zlkId d
    · rw [if_pos away, if_pos away]
      exact ⟨rfl, rfl⟩
    · rw [if_neg away, if_neg away]
      exact ⟨rfl, rfl⟩
  obtain ⟨only, inbound⟩ := notes
  have traffic : Traffic d { m with inbound := d.inbound } := by
    rw [only]
    rfl
  have xfers : m.xfers = d.xfers := (congrArg Dev.xfers only :)
  have sent : m.sent = d.sent := (congrArg Dev.sent only :)
  obtain ⟨t, ends⟩ : ∃ t, t = setPort m die p
      ((getPort (received die p d f) die p).setInc f.vc ⟨some h, 0, false, f.body.drop 64, decide (f.dst ≠ zlkId d), 1⟩) := ⟨_, rfl⟩
  have first : takeStream die p f.vc 242 (received die p d f) = takeStream die p f.vc 241 t := by
    rw [takeStream_header (received_inc d f) (own ▸ front_first (by omega) _ _), ends, known]
    have unknown' : ((received die p d f).inbound.any fun b => decide (b.h = h)) = false := unknown
    simp only [unknown', Bool.false_or, decide_eq_true_eq]
  have inc : (getPort t die p).incOn f.vc = ⟨some h, 0, false, f.body.drop 64, decide (f.dst ≠ zlkId d), 1⟩ := by
    rw [ends, getPort_setPort]
    exact tget_tset_self ..
  have stays : takeStream die p f.vc 241 t = t := takeStream_none (by
    rw [inc]
    exact front_short nonempty (by rw [List.length_drop]; omega) _ _)
  have keeps : returnCredits t die p f.vc = t := by
    have whole : min 1 (cdiv (f.body.drop 64).length 240) = 1 := by
      rw [List.length_drop, long]
      rfl
    unfold returnCredits
    simp only [inc, whole, if_true]
  rw [bodyIn_idle idle long, first, stays, keeps, ends]
  refine ⟨traffic, xfers, sent, inbound,
    tset Incoming.idle (tset Incoming.idle (getPort d die p).inc f.vc ⟨none, 0, false, f.body, decide (f.dst ≠ zlkId d), 1⟩) f.vc
    ⟨some h, 0, false, f.body.drop 64, decide (f.dst ≠ zlkId d), 1⟩, ?_, tget_tset_self ..⟩
  rw [getPort_setPort, received, getPort_setPort]
  rfl

/-- The header alone of a put for another package is taken and answered (R497). -/
theorem takeStream_away {f : Flit} {h : PutHeader} (long : f.body.length = 240) (own : h = headerOf f.body) (alone : h.length = 0) (away : f.dst ≠ zlkId d) :
    ∃ again, takeStream die p f.vc 242 (received die p d f) = sendMsg (setPort (setPort (received die p d f) die p
        ((getPort (received die p d f) die p).setInc f.vc ⟨some h, 0, again, f.body.drop 64, true, 1⟩)) die p
      (((getPort (received die p d f) die p).setInc f.vc ⟨some h, 0, again, f.body.drop 64, true, 1⟩).setInc f.vc { Incoming.idle with held := 1 })) die p
        (.nak h.srcZid.toNat h.tag.toNat 0 4) := by
  have lost : decide (f.dst ≠ zlkId d) = true := decide_eq_true away
  obtain ⟨again, known⟩ : ∃ again, again = (received die p d f).inbound.any fun b => decide (b.h = h) := ⟨_, rfl⟩
  obtain ⟨k, same⟩ : ∃ k, k = (getPort (received die p d f) die p).setInc f.vc ⟨some h, 0, again, f.body.drop 64, true, 1⟩ := ⟨_, rfl⟩
  have first : takeStream die p f.vc 242 (received die p d f) = takeStream die p f.vc 241 (setPort (received die p d f) die p k) := by
    rw [takeStream_header (received_inc d f) (own ▸ front_first (by omega) _ _), same, known]
    simp only [lost, Bool.or_true, if_true]
  have inc : (getPort (setPort (received die p d f) die p k) die p).incOn f.vc = ⟨some h, 0, again, f.body.drop 64, true, 1⟩ := by
    rw [getPort_setPort, same]
    exact tget_tset_self ..
  refine ⟨again, ?_⟩
  rw [first, takeStream_unroutable inc alone, getPort_setPort, ← same]
  refine takeStream_none ?_
  have nothing : ({ Incoming.idle with held := 1 } : Incoming).front = .none := rfl
  have last : (k.setInc f.vc { Incoming.idle with held := 1 }).incOn f.vc = { Incoming.idle with held := 1 } := tget_tset_self ..
  rw [sendMsg_port, getPort_setPort]
  exact (congrArg Incoming.front last).trans nothing

/-- The header alone of a put for another package is answered UNROUTABLE, and its credit goes back (R493, R497). -/
theorem bodyIn_unroutable {f : Flit} {h : PutHeader} (idle : (getPort d die p).incOn f.vc = Incoming.idle) (long : f.body.length = 240)
    (own : h = headerOf f.body) (alone : h.length = 0) (away : f.dst ≠ zlkId d) (msgs : (getPort d die p).msgs = []) (due : (getPort d die p).crDue = []) :
    Traffic d (bodyIn d die p f) ∧ (bodyIn d die p f).xfers = d.xfers ∧ (bodyIn d die p f).sent = .nak h.srcZid.toNat h.tag.toNat 0 4 :: d.sent ∧
      (bodyIn d die p f).inbound = d.inbound ∧ ∃ inc taken w, getPort (bodyIn d die p f) die p =
          { getPort d die p with inc := inc, taken := taken, crDue := [f.vc], msgs := [w] } ∧
        tget Incoming.idle inc f.vc = Incoming.idle ∧ tget 0 taken f.vc = tget 0 (getPort d die p).taken f.vc + 1 := by
  obtain ⟨again, taken⟩ := takeStream_away (die := die) (p := p) long own alone away
  obtain ⟨w, word⟩ : ∃ w, (LinkMsg.nak h.srcZid.toNat h.tag.toNat 0 4).word = some w := ⟨_, rfl⟩
  obtain ⟨k, same⟩ : ∃ k, k = (getPort (received die p d f) die p).setInc f.vc ⟨some h, 0, again, f.body.drop 64, true, 1⟩ := ⟨_, rfl⟩
  rw [← same] at taken
  obtain ⟨u, answers⟩ : ∃ u, u = sendMsg (setPort (setPort (received die p d f) die p k) die p (k.setInc f.vc { Incoming.idle with held := 1 })) die p
      (.nak h.srcZid.toNat h.tag.toNat 0 4) := ⟨_, rfl⟩
  rw [← answers] at taken
  have traffic : Traffic d u := by
    rw [answers]
    exact (setPort_traffic ..).trans ((setPort_traffic ..).trans ((setPort_traffic ..).trans (sendMsg_traffic ..)))
  obtain ⟨xfers, sent, inbound⟩ : u.xfers = d.xfers ∧ u.sent = .nak h.srcZid.toNat h.tag.toNat 0 4 :: d.sent ∧ u.inbound = d.inbound := by
    rw [answers]
    simp [received]
  obtain ⟨incs, port, free⟩ : ∃ incs, getPort u die p = { getPort d die p with inc := incs, msgs := [w] } ∧
      tget Incoming.idle incs f.vc = { Incoming.idle with held := 1 } := by
    refine ⟨tset Incoming.idle k.inc f.vc { Incoming.idle with held := 1 }, ?_, tget_tset_self ..⟩
    rw [answers, sendMsg_port, getPort_setPort, word, same, received, getPort_setPort]
    simp [Port.setInc, msgs]
  have inc : (getPort u die p).incOn f.vc = { Incoming.idle with held := 1 } := by
    rw [port]
    exact free
  have dues : (getPort u die p).crDue = [] := by
    rw [port]
    exact due
  rw [bodyIn_idle idle long, taken, returnCredits_one inc dues]
  clear answers taken
  refine ⟨traffic.trans (setPort_traffic ..), xfers, sent, inbound, tset Incoming.idle incs f.vc Incoming.idle,
    tset 0 (getPort d die p).taken f.vc (tget 0 (getPort d die p).taken f.vc + 1), w, ?_, tget_tset_self .., tget_tset_self ..⟩
  rw [getPort_setPort, port]
  rfl

end
end Sys2Proof.Machine
end
section
/-!
SUPPORT. FLIT_RECEIVE on a port with nothing to send (chapter 14, Flits), and the obligation about ports that it completes.
-/

namespace Sys2Proof.Machine
section
variable {c d e t : Dev} {die p : Nat} {x : FlitGroup} {gap : Bool}

/-! ### A group with one flit that is not idle -/

/-- A group's flits left e, and its answer t. -/
structure Heard (die p : Nat) (d e : Dev) (gap : Bool) (t : Dev) : Prop where
  work : LinkWork d t
  mem : MemSame d t
  xfers : t.xfers = e.xfers
  port : ∃ replay returned, getPort t die p = { getPort e die p with replay := replay, returned := returned }
  sent : t.sent = if gap = true then .replay die p (getPort e die p).rx :: e.sent else e.sent
  inbound : (getPort e die p).replay = [] → t.inbound = e.inbound
  acks : gap = false → (getPort e die p).rx ≠ (getPort d die p).rx →
    ∃ g, t.wire = (die, p, g) :: e.wire ∧ g.ackseq = (getPort e die p).rx ∧ g.sequenced = false

theorem traffic_of_tallied (traffic : Traffic (tallied d die p x) t) : LinkWork d t ∧ MemSame d t :=
  ⟨(tallied_linkWork d die p x).trans traffic.linkWork, fun k => traffic.memSame k⟩

theorem groupIn_one {f : Flit} {rest : List Flit} (hp : p < 2) (held : ∀ v, v < 8 → ((getPort d die p).incOn v).held = 0)
    (lanes : ∀ i, i < 8 → tget 0 (getPort d die p).laneErrs i + x.lanes.getD i 0 ≤ rfld d .zlkCtl die 0 p 39 32 * 1024)
    (good : badWords x = 0) (split : x.flits = f :: rest) (plain : ∀ g ∈ rest, g.sequenced = false ∧ g.nak = false)
    (taken : flitIn die p (tallied d die p x, false) f = (e, gap)) (traffic : Traffic (tallied d die p x) e)
    (errs : (getPort e die p).laneErrs = (countLanes (getPort d die p) x).laneErrs)
    (due : (getPort e die p).crDue = []) (quiet : PortQuiet die p e) : Heard die p d e gap (groupIn d die p x) := by
  obtain ⟨c, totals, flits⟩ := goodFlits_one good split plain taken
  obtain ⟨replay, returned, port⟩ := totals.port
  have quiet' : PortQuiet die p c := quiet.congr (by rw [port]; exact quiet.1) (by rw [port]; exact quiet.2.1) (totals.keeps Dev.xfers fun _ _ _ => rfl)
  obtain ⟨answer, final⟩ := groupIn_quiet hp held lanes flits (traffic.trans totals.traffic) (by rw [port]; exact errs) (by rw [port]; exact due) quiet'
  have rx : (getPort c die p).rx = (getPort e die p).rx := by rw [port]
  obtain ⟨work, mem⟩ := traffic_of_tallied (traffic.trans (totals.traffic.trans answer.traffic))
  refine ⟨work, mem, ?_, ⟨replay, returned, final.trans port⟩, ?_, fun empty => ?_, fun whole moved => ?_⟩
  · exact (answer.keeps Dev.xfers fun _ _ _ _ _ => rfl).trans (totals.keeps Dev.xfers fun _ _ _ => rfl)
  · rw [answer.sent, good, rx, totals.keeps Dev.sent fun _ _ _ => rfl]
    simp
  · exact (answer.keeps Dev.inbound fun _ _ _ _ _ => rfl).trans (totals.still empty).2
  · obtain ⟨g, wire, ack, idle⟩ := answer.acks (by simp [good, whole]) (by rwa [rx])
    exact ⟨g, by rw [wire, totals.keeps Dev.wire fun _ _ _ => rfl], ack.trans rx, idle⟩

/-- A group whose one flit left a message to send and a credit to give back: the credit leaves with the answer, then the message. -/
theorem groupIn_away {f : Flit} {rest : List Flit} {w : W64} {v : Nat} (hp : p < 2) (held : ∀ v, v < 8 → ((getPort d die p).incOn v).held = 0)
    (lanes : ∀ i, i < 8 → tget 0 (getPort d die p).laneErrs i + x.lanes.getD i 0 ≤ rfld d .zlkCtl die 0 p 39 32 * 1024)
    (good : badWords x = 0) (split : x.flits = f :: rest) (plain : ∀ g ∈ rest, g.sequenced = false ∧ g.nak = false)
    (taken : flitIn die p (tallied d die p x, false) f = (e, false)) (traffic : Traffic (tallied d die p x) e) (up : portState d die p = 2)
    (errs : (getPort e die p).laneErrs = (countLanes (getPort d die p) x).laneErrs) (msgs : (getPort e die p).msgs = [w])
    (due : (getPort e die p).crDue = [v]) (empty : (getPort e die p).replay = []) (moved : (getPort e die p).rx ≠ (getPort d die p).rx)
    (quiet : PortQuiet die p d) (xfers : e.xfers = d.xfers) (out : (getPort e die p).out = []) :
    LinkWork d (groupIn d die p x) ∧ MemSame d (groupIn d die p x) ∧ (groupIn d die p x).sent = e.sent ∧ (groupIn d die p x).inbound = e.inbound ∧
      (getPort (groupIn d die p x) die p).rx = (getPort e die p).rx ∧ (getPort (groupIn d die p x) die p).inc = (getPort e die p).inc ∧
      (getPort (groupIn d die p x) die p).taken = (getPort e die p).taken := by
  obtain ⟨c, totals, flits⟩ := goodFlits_one good split plain taken
  obtain ⟨replay, returned, port⟩ := totals.port
  have rx : (getPort c die p).rx = (getPort e die p).rx := by rw [port]
  obtain ⟨a, answers⟩ : ∃ a, a = answered x (getPort d die p).rx die p c false := ⟨_, rfl⟩
  have answer : Answer die p x (getPort d die p).rx false c a := by
    rw [answers]
    exact answered_answer _
  have after : getPort a die p = { getPort c die p with crVc := v, crDue := [] } := by
    rw [answer.port, if_pos (.inr (.inr (by rwa [rx]))), Port.nextCredit, port]
    simp only [due]
  have room : (getPort a die p).replay = [] := by
    rw [after]
    exact (totals.still empty).1
  have word : (getPort a die p).msgs = [w] := by
    rw [after, port]
    exact msgs
  have aXfers : a.xfers = d.xfers :=
    (answer.keeps Dev.xfers fun _ _ _ _ _ => rfl).trans ((totals.keeps Dev.xfers fun _ _ _ => rfl).trans xfers)
  have toA : Traffic (tallied d die p x) a := traffic.trans (totals.traffic.trans answer.traffic)
  have quiet' : PortQuiet die p (setPort a die p { getPort a die p with msgs := [] }) :=
    quiet.congr (by rw [getPort_setPort, after, port]; exact out) (by rw [getPort_setPort]) ((setPort_xfers ..).trans aXfers)
  obtain ⟨only, tx, log, final⟩ := repump_msg quiet' word room ((toA.rfld ..).trans ((rfld_tallied hp _ (.inl rfl) ..).trans up)) (by rw [after])
  obtain ⟨t, sends⟩ : ∃ t, t = repump a die p := ⟨_, rfl⟩
  rw [← sends] at only final
  have toT : Traffic a t := (congrArg (fun y : Dev => { y with xfers := a.xfers, inbound := a.inbound, sent := a.sent }) only :)
  have runs : groupIn d die p x = t := groupIn_eq hp held lanes flits (by rw [← answers, sends]) (toA.trans toT) (by rw [final, after, port]; exact errs)
    (by rw [final, after])
  obtain ⟨work, mem⟩ := traffic_of_tallied (toA.trans toT)
  have sent : t.sent = a.sent := (congrArg Dev.sent only :)
  have inbound : t.inbound = a.inbound := (congrArg Dev.inbound only :)
  rw [runs]
  refine ⟨work, mem, ?_, ?_, ?_, ?_, ?_⟩
  · rw [sent, answer.sent, if_neg (by simp [good]), totals.keeps Dev.sent fun _ _ _ => rfl]
  · rw [inbound, answer.keeps Dev.inbound fun _ _ _ _ _ => rfl, (totals.still empty).2]
  · rw [final, after, port]
  · rw [final, after, port]
  · rw [final, after, port]

/-! ### An ACK (R486) -/

/-- The transfer that an ACK names has its chunk marked, and nothing is sent. -/
theorem ackIn_marks {n ch : Nat} {y : Xfer} {st : ChunkSt} (quiet : PortQuiet die p d) (found : findXfer d die p n = some y) (chunk : y.chunk ch = some st) :
    ackIn d die p n ch false = setXfer d (y.setChunk ch { st with acked := true, due := false }) ∧
      PortQuiet die p (setXfer d (y.setChunk ch { st with acked := true, due := false })) ∧
      findXfer (setXfer d (y.setChunk ch { st with acked := true, due := false })) die p n =
        some (y.setChunk ch { st with acked := true, due := false }) := by
  obtain ⟨z, same⟩ : ∃ z, z = y.setChunk ch { st with acked := true, due := false } := ⟨_, rfl⟩
  have named : y.is die p n = true := List.find?_some (p := fun u : Xfer => u.is die p n) found
  have here : y ∈ d.xfers := List.mem_of_find?_eq_some found
  obtain ⟨⟨own, port⟩, slot⟩ : (y.die = die ∧ y.port = p) ∧ y.slot = n := by simpa [Xfer.is] using named
  have zIs (i j k : Nat) : z.is i j k = y.is i j k := by rw [same]; rfl
  have zAt : z.die = die ∧ z.port = p ∧ z.slot = n := by
    rw [same]
    exact ⟨own, port, slot⟩
  obtain ⟨zDie, zPort, zSlot⟩ := zAt
  have put : (setXfer d z).xfers = d.xfers.map fun u => if u.is die p n then z else u := by rw [setXfer, zDie, zPort, zSlot]
  obtain ⟨out, msgs, rest, slots⟩ := id quiet
  have from_ (v : Nat) : ∀ u ∈ portXfers (setXfer d z) die p v, u ∈ portXfers d die p v ∨ u = z ∧ y ∈ portXfers d die p v := by
    intro u hu
    rw [portXfers, put, List.mem_filter, List.mem_map] at hu
    obtain ⟨⟨r, hr, rfl⟩, at_⟩ := hu
    by_cases which : r.is die p n = true
    · rw [if_pos which] at at_ ⊢
      refine .inr ⟨rfl, List.mem_filter.mpr ⟨here, ?_⟩⟩
      rw [same] at at_
      exact at_
    · rw [if_neg which] at at_ ⊢
      exact .inl (List.mem_filter.mpr ⟨hr, at_⟩)
  have zSlots : ∀ u ∈ (setXfer d z).xfers, u.die = die → u.port = p → u.slot < 256 := by
    intro u hu hd hq
    rw [put, List.mem_map] at hu
    obtain ⟨r, hr, rfl⟩ := hu
    by_cases which : r.is die p n = true
    · rw [if_pos which]
      have low := slots y here own port
      omega
    · rw [if_neg which] at hd hq ⊢
      exact slots r hr hd hq
  have quiet' : PortQuiet die p (setXfer d z) := by
    refine ⟨out, msgs, fun v hv => ?_, zSlots⟩
    obtain ⟨dues, next⟩ := rest v hv
    rw [dueChunk_none] at dues
    rw [nextXfer_none] at next
    rw [dueChunk_none, nextXfer_none]
    refine ⟨fun u hu q hq => ?_, fun u hu => ?_⟩
    · obtain old | ⟨rfl, mine⟩ := from_ v u hu
      · exact dues u old q hq
      · rw [same] at hq
        obtain rfl | old := mem_tset hq
        · rfl
        · exact dues y mine q old
    · obtain old | ⟨rfl, mine⟩ := from_ v u hu
      · exact next u old
      · rw [same]
        exact next y mine
  rw [← same]
  refine ⟨?_, quiet', ?_⟩
  · have opens : ackIn d die p n ch false = repump (setXfer d z) die p := by
      simp only [ackIn, found, chunk, same, Bool.false_and]
      rfl
    rw [opens, repump_quiet quiet']
  · have kept : (fun u : Xfer => (if u.is die p n = true then z else u).is die p n) = fun u => u.is die p n := by
      funext u
      by_cases which : u.is die p n = true
      · rw [if_pos which, which, zIs, named]
      · rw [if_neg which]
    rw [findXfer, put, List.find?_map]
    simp only [Function.comp_def, kept]
    rw [show d.xfers.find? (fun u => u.is die p n) = some y from found, Option.map_some, if_pos named]

/-- What an ACK without LAST says, in the bits of its message (R486). -/
theorem messageIn_ack {n ch : Nat} {w : W64} (hd : die < 8) (hp : p < 2) (hn : n < 256) (hc : ch < 2 ^ 16)
    (word : w = BitVec.ofNat 64 (zlkId d + 2 ^ 16 + 2 ^ 20 * (512 * die + 256 * p + n) + 2 ^ 32 * ch)) :
    messageIn d die p w = ackIn d die p n ch false := by
  have zid : zlkId d < 2 ^ 16 := fld_lt
  have field (hi lo : Nat) : fld w hi lo = (zlkId d + 2 ^ 16 + 2 ^ 20 * (512 * die + 256 * p + n) + 2 ^ 32 * ch) / 2 ^ lo % 2 ^ (hi + 1 - lo) := by
    have fits : zlkId d + 2 ^ 16 + 2 ^ 20 * (512 * die + 256 * p + n) + 2 ^ 32 * ch < 2 ^ 64 := by omega
    rw [word, fld_ofNat, Nat.mod_eq_of_lt fits]
  have dst : fld w 15 0 = zlkId d := by rw [field]; omega
  have type : fld w 19 16 = 1 := by rw [field]; omega
  have tag : fld w 31 20 = 512 * die + 256 * p + n := by rw [field]; omega
  have number : fld w 47 32 = ch := by rw [field]; omega
  have last : fld w 48 48 = 0 := by rw [field]; omega
  have opens : messageIn d die p w = ackIn d (fld w 31 20 / 512) (fld w 31 20 / 256 % 2) (fld w 31 20 % 256) (fld w 47 32) (decide (fld w 48 48 = 1)) := by
    simp only [messageIn, dst, type, ne_eq, not_true_eq_false, if_false]
  rw [opens, tag, number, last]
  congr 1
  · omega
  · omega
  · omega

end
end Sys2Proof.Machine
end
section
/-!
SUPPORT. The obligation about ports (chapter 14): FLIT_RECEIVE flit by flit, and with it LinkPorts.
-/

namespace Sys2Proof.Machine

/-- A port that holds nothing back and has nothing to send, and a group that keeps its lanes within their limit. -/
structure AtRest (die p : Nat) (x : FlitGroup) (d : Dev) : Prop where
  port : p < 2
  quiet : PortQuiet die p d
  held : ∀ v, v < 8 → ((getPort d die p).incOn v).held = 0
  due : (getPort d die p).crDue = []
  lanes : ∀ i, i < 8 → tget 0 (getPort d die p).laneErrs i + x.lanes.getD i 0 ≤ rfld d .zlkCtl die 0 p 39 32 * 1024

section
variable {d e : Dev} {die p : Nat} {x : FlitGroup} {f : Flit} {rest : List Flit}

theorem AtRest.tallied_quiet (h : AtRest die p x d) : PortQuiet die p (tallied d die p x) :=
  h.quiet.congr (by rw [tallied_port]; exact h.quiet.1) (by rw [tallied_port]; exact h.quiet.2.1) rfl

/-- A flit in its turn leaves the port as it was but for its number, its totals and its lanes. -/
theorem counted_tallied (d : Dev) (die p : Nat) (x : FlitGroup) (f : Flit) : ∃ replay returned, ((getPort d die p).replay = [] → replay = []) ∧
    getPort (counted die p (tallied d die p x) f) die p =
      { countLanes (getPort d die p) x with rx := f.fseq, replay := replay, returned := returned } := by
  obtain ⟨replay, returned, empty, port⟩ := counted_port (d := tallied d die p x) (die := die) (p := p) f
  rw [tallied_port] at empty port
  exact ⟨replay, returned, empty, port⟩

theorem counted_totalled (d : Dev) (f : Flit) :
    (counted die p d f).xfers = d.xfers ∧ (counted die p d f).sent = d.sent ∧ (counted die p d f).wire = d.wire := by
  have totals := totalled_totals (die := die) (p := p) d f
  exact ⟨totals.keeps Dev.xfers fun _ _ _ => rfl, totals.keeps Dev.sent fun _ _ _ => rfl, totals.keeps Dev.wire fun _ _ _ => rfl⟩

theorem counted_zlkId (d : Dev) (x : FlitGroup) (f : Flit) (hp : p < 2) : zlkId (counted die p (tallied d die p x) f) = zlkId d :=
  ((counted_traffic ..).rfld ..).trans (zlkId_tallied d x hp)

theorem setXfer_traffic (d : Dev) (y : Xfer) : Traffic d (setXfer d y) := rfl

theorem next_ne (a : BitVec 10) : a + 1 ≠ a := by bv_omega

/-! ### Flits of a group (R483, R487) -/

theorem groupIn_lost (rest : AtRest die p x d) (ten : x.flits.length = 10) (bad : 0 < badWords x) (none : ∀ i, i < 10 → x.good i = false) :
    LinkWork d (groupIn d die p x) ∧ MemSame d (groupIn d die p x) ∧ (groupIn d die p x).sent = .replay die p (getPort d die p).rx :: d.sent ∧
      (getPort (groupIn d die p x) die p).rx = (getPort d die p).rx ∧
      rfld (groupIn d die p x) .zlkFec die 0 p 31 0 =
        min 0xFFFFFFFF (rfld d .zlkFec die 0 p 31 0 + (x.errors.filter fun n => decide (0 < n) && decide (n ≤ 15)).length) ∧
      rfld (groupIn d die p x) .zlkFec die 0 p 63 32 = min 0xFFFFFFFF (rfld d .zlkFec die 0 p 63 32 + badWords x) := by
  have flits : (((List.range x.flits.length).filter x.good).filterMap fun i => x.flits[i]?).foldl (flitIn die p) (tallied d die p x, false) =
      (tallied d die p x, false) := by
    rw [ten, List.filter_eq_nil_iff.mpr fun i hi => by simp [none i (List.mem_range.mp hi)]]
    rfl
  have port := tallied_port d die p x
  obtain ⟨answer, final⟩ := groupIn_quiet rest.port rest.held rest.lanes flits (.refl _) (by rw [port]) (by rw [port]; exact rest.due) rest.tallied_quiet
  obtain ⟨work, mem⟩ := traffic_of_tallied answer.traffic
  obtain ⟨low, high⟩ := tallied_counts d die p x
  refine ⟨work, mem, ?_, ?_, (answer.traffic.rfld ..).trans low, (answer.traffic.rfld ..).trans high⟩
  · rw [answer.sent, if_pos (.inl bad), port]
    rfl
  · rw [final, port]
    rfl

theorem groupIn_astray (still : AtRest die p x d) (good : badWords x = 0) (split : x.flits = f :: rest)
    (plain : ∀ g ∈ rest, g.sequenced = false ∧ g.nak = false)
    (nak : f.nak = false) (seq : f.sequenced = true) (astray : f.fseq ≠ (getPort d die p).rx + 1) :
    LinkWork d (groupIn d die p x) ∧ MemSame d (groupIn d die p x) ∧ (getPort (groupIn d die p x) die p).rx = (getPort d die p).rx ∧
      (groupIn d die p x).xfers = d.xfers ∧
      (groupIn d die p x).sent = if after f.fseq (getPort d die p).rx = true then .replay die p (getPort d die p).rx :: d.sent else d.sent := by
  have before : (getPort (tallied d die p x) die p).rx = (getPort d die p).rx := by
    rw [tallied_port]
    rfl
  have taken := flitIn_astray (die := die) (p := p) (tallied d die p x) false seq nak (by rw [before]; exact astray)
  have totals := totalled_totals (die := die) (p := p) (tallied d die p x) f
  obtain ⟨replay, returned, port⟩ := totals.port
  rw [tallied_port] at port
  rw [before, Bool.false_or] at taken
  have heard := groupIn_one still.port still.held still.lanes good split plain taken totals.traffic (by rw [port]) (by rw [port]; exact still.due)
    (still.quiet.congr (by rw [port]; exact still.quiet.1) (by rw [port]; exact still.quiet.2.1) (totals.keeps Dev.xfers fun _ _ _ => rfl))
  obtain ⟨log, back, final⟩ := heard.port
  have rx : (getPort (totalled die p (tallied d die p x) f) die p).rx = (getPort d die p).rx := by
    rw [port]
    rfl
  refine ⟨heard.work, heard.mem, ?_, heard.xfers.trans (totals.keeps Dev.xfers fun _ _ _ => rfl), ?_⟩
  · rw [final]
    exact rx
  · rw [heard.sent, rx, totals.keeps Dev.sent fun _ _ _ => rfl]
    rfl

theorem groupIn_passing (still : AtRest die p x d) (good : badWords x = 0) (split : x.flits = f :: rest)
    (plain : ∀ g ∈ rest, g.sequenced = false ∧ g.nak = false)
    (nak : f.nak = false) (seq : f.sequenced = true) (turn : f.fseq = (getPort d die p).rx + 1) (type : f.ftype ≠ 1) (away : fld f.msg 15 0 ≠ zlkId d) :
    LinkWork d (groupIn d die p x) ∧ MemSame d (groupIn d die p x) ∧ (getPort (groupIn d die p x) die p).rx = f.fseq ∧ (groupIn d die p x).sent = d.sent ∧
      (groupIn d die p x).xfers = d.xfers ∧ ∃ g, (groupIn d die p x).wire = (die, p, g) :: d.wire ∧ g.ackseq = f.fseq ∧ g.sequenced = false := by
  have before : (getPort (tallied d die p x) die p).rx = (getPort d die p).rx := by
    rw [tallied_port]
    rfl
  have nothing : messageIn (counted die p (tallied d die p x) f) die p f.msg = counted die p (tallied d die p x) f :=
    if_pos (by rwa [counted_zlkId d x f still.port])
  have taken : flitIn die p (tallied d die p x, false) f = (counted die p (tallied d die p x) f, false) := by
    rw [flitIn_turn _ _ seq nak (by rw [before]; exact turn), if_neg type, nothing, ite_self]
  obtain ⟨replay, returned, -, port⟩ := counted_tallied d die p x f
  obtain ⟨xfers, sent, wire⟩ := counted_totalled (die := die) (p := p) (tallied d die p x) f
  have heard := groupIn_one still.port still.held still.lanes good split plain taken (counted_traffic ..) (by rw [port]) (by rw [port]; exact still.due)
    (still.quiet.congr (by rw [port]; exact still.quiet.1) (by rw [port]; exact still.quiet.2.1) xfers)
  obtain ⟨log, back, final⟩ := heard.port
  have rx : (getPort (counted die p (tallied d die p x) f) die p).rx = f.fseq := by rw [port]
  obtain ⟨g, leaves, ack, idle⟩ := heard.acks rfl (by rw [rx, turn]; exact next_ne _)
  refine ⟨heard.work, heard.mem, by rw [final, rx], ?_, heard.xfers.trans xfers, g, ?_, ack.trans rx, idle⟩
  · rw [heard.sent, if_neg (by simp), sent]
    rfl
  · rw [leaves, wire]
    rfl

theorem groupIn_ack {n ch : Nat} {y : Xfer} {st : ChunkSt} (hd : die < 8) (still : AtRest die p x d) (good : badWords x = 0) (split : x.flits = f :: rest)
    (plain : ∀ g ∈ rest, g.sequenced = false ∧ g.nak = false) (nak : f.nak = false) (seq : f.sequenced = true) (turn : f.fseq = (getPort d die p).rx + 1)
    (type : f.ftype ≠ 1) (hn : n < 256) (hc : ch < 2 ^ 16)
    (word : f.msg = BitVec.ofNat 64 (zlkId d + 2 ^ 16 + 2 ^ 20 * (512 * die + 256 * p + n) + 2 ^ 32 * ch))
    (found : findXfer d die p n = some y) (chunk : y.chunk ch = some st) :
    LinkWork d (groupIn d die p x) ∧ MemSame d (groupIn d die p x) ∧ (getPort (groupIn d die p x) die p).rx = f.fseq ∧
      findXfer (groupIn d die p x) die p n = some (y.setChunk ch { st with acked := true, due := false }) := by
  have before : (getPort (tallied d die p x) die p).rx = (getPort d die p).rx := by
    rw [tallied_port]
    rfl
  obtain ⟨replay, returned, -, port⟩ := counted_tallied d die p x f
  obtain ⟨xfers, -, -⟩ := counted_totalled (die := die) (p := p) (tallied d die p x) f
  have quiet : PortQuiet die p (counted die p (tallied d die p x) f) :=
    still.quiet.congr (by rw [port]; exact still.quiet.1) (by rw [port]; exact still.quiet.2.1) xfers
  have found' : findXfer (counted die p (tallied d die p x) f) die p n = some y := by
    rw [findXfer, xfers]
    exact found
  obtain ⟨marks, quiet', marked⟩ := ackIn_marks quiet found' chunk
  obtain ⟨c, same⟩ : ∃ c, c = setXfer (counted die p (tallied d die p x) f) (y.setChunk ch { st with acked := true, due := false }) := ⟨_, rfl⟩
  rw [← same] at marks quiet' marked
  have msgV : f.msgV = true := by simpa [Flit.sequenced, type] using seq
  have taken : flitIn die p (tallied d die p x, false) f = (c, false) := by
    rw [flitIn_turn _ _ seq nak (by rw [before]; exact turn), if_neg type, if_pos msgV,
      messageIn_ack hd still.port hn hc (by rw [counted_zlkId d x f still.port]; exact word), marks]
  have port' : getPort c die p = getPort (counted die p (tallied d die p x) f) die p := by
    rw [same]
    rfl
  have traffic : Traffic (tallied d die p x) c := (counted_traffic ..).trans (by rw [same]; exact setXfer_traffic ..)
  have heard := groupIn_one still.port still.held still.lanes good split plain taken traffic (by rw [port', port]) (by rw [port', port]; exact still.due) quiet'
  obtain ⟨log, back, final⟩ := heard.port
  refine ⟨heard.work, heard.mem, by rw [final, port', port], ?_⟩
  rw [findXfer, heard.xfers]
  exact marked

theorem groupIn_begins {h : PutHeader} (still : AtRest die p x d) (good : badWords x = 0) (split : x.flits = f :: rest)
    (plain : ∀ g ∈ rest, g.sequenced = false ∧ g.nak = false) (nak : f.nak = false) (seq : f.sequenced = true) (turn : f.fseq = (getPort d die p).rx + 1)
    (long : f.body.length = 240) (type : f.ftype = 1) (msgV : f.msgV = false) (idle : (getPort d die p).incOn f.vc = Incoming.idle) (own : h = headerOf f.body)
    (big : 160 < h.chunkLen 0) (fresh : ∀ b ∈ d.inbound, b.h ≠ h) (empty : (getPort d die p).replay = []) :
    LinkWork d (groupIn d die p x) ∧ MemSame d (groupIn d die p x) ∧ (getPort (groupIn d die p x) die p).rx = f.fseq ∧ (groupIn d die p x).sent = d.sent ∧
      (groupIn d die p x).inbound = (if f.dst ≠ zlkId d then d.inbound
        else ⟨h, [], false, false⟩ :: d.inbound.filter fun b => !(decide (b.h.srcZid = h.srcZid) && decide (b.h.tag = h.tag))) ∧
      (getPort (groupIn d die p x) die p).incOn f.vc = ⟨some h, 0, false, f.body.drop 64, decide (f.dst ≠ zlkId d), 1⟩ ∧
      tget 0 (getPort (groupIn d die p x) die p).taken f.vc = tget 0 (getPort d die p).taken f.vc := by
  have before : (getPort (tallied d die p x) die p).rx = (getPort d die p).rx := by
    rw [tallied_port]
    rfl
  obtain ⟨replay, returned, blank, port⟩ := counted_tallied d die p x f
  obtain ⟨xfers, sent, -⟩ := counted_totalled (die := die) (p := p) (tallied d die p x) f
  have inbound : (counted die p (tallied d die p x) f).inbound = d.inbound :=
    ((totalled_totals (tallied d die p x) f).still (by rw [tallied_port]; exact empty)).2
  have zid := counted_zlkId (die := die) d x f still.port
  obtain ⟨toBody, bXfers, bSent, bInbound, inc, bPort, bInc⟩ := bodyIn_begins (d := counted die p (tallied d die p x) f) (die := die) (p := p)
    (by rw [port]; exact idle) long own big (by rw [inbound]; exact fresh)
  obtain ⟨c, same⟩ : ∃ c, c = bodyIn (counted die p (tallied d die p x) f) die p f := ⟨_, rfl⟩
  rw [← same] at toBody bXfers bSent bInbound bPort
  rw [port] at bPort
  have taken : flitIn die p (tallied d die p x, false) f = (c, false) := by
    rw [flitIn_turn _ _ seq nak (by rw [before]; exact turn), msgV, if_neg (by simp), if_pos type, same]
  have heard := groupIn_one still.port still.held still.lanes good split plain taken ((counted_traffic ..).trans toBody) (by rw [bPort])
    (by rw [bPort]; exact still.due)
    (still.quiet.congr (by rw [bPort]; exact still.quiet.1) (by rw [bPort]; exact still.quiet.2.1) (bXfers.trans xfers))
  obtain ⟨log, back, final⟩ := heard.port
  refine ⟨heard.work, heard.mem, by rw [final, bPort], ?_, ?_, ?_, by rw [final, bPort]; rfl⟩
  · rw [heard.sent, if_neg (by simp), bSent, sent]
    rfl
  · rw [heard.inbound (by rw [bPort]; exact blank empty), bInbound, inbound, zid]
  · rw [final, bPort, ← zid]
    exact bInc

theorem groupIn_unroutable {h : PutHeader} (still : AtRest die p x d) (up : portState d die p = 2) (good : badWords x = 0) (split : x.flits = f :: rest)
    (plain : ∀ g ∈ rest, g.sequenced = false ∧ g.nak = false) (nak : f.nak = false) (seq : f.sequenced = true) (turn : f.fseq = (getPort d die p).rx + 1)
    (long : f.body.length = 240) (type : f.ftype = 1) (msgV : f.msgV = false) (idle : (getPort d die p).incOn f.vc = Incoming.idle) (own : h = headerOf f.body)
    (alone : h.length = 0) (away : f.dst ≠ zlkId d) (empty : (getPort d die p).replay = []) :
    LinkWork d (groupIn d die p x) ∧ MemSame d (groupIn d die p x) ∧ (getPort (groupIn d die p x) die p).rx = f.fseq ∧
      (groupIn d die p x).sent = .nak h.srcZid.toNat h.tag.toNat 0 4 :: d.sent ∧ (groupIn d die p x).inbound = d.inbound ∧
      (getPort (groupIn d die p x) die p).incOn f.vc = Incoming.idle ∧
      tget 0 (getPort (groupIn d die p x) die p).taken f.vc = tget 0 (getPort d die p).taken f.vc + 1 := by
  have before : (getPort (tallied d die p x) die p).rx = (getPort d die p).rx := by
    rw [tallied_port]
    rfl
  obtain ⟨replay, returned, blank, port⟩ := counted_tallied d die p x f
  obtain ⟨xfers, sent, -⟩ := counted_totalled (die := die) (p := p) (tallied d die p x) f
  have inbound : (counted die p (tallied d die p x) f).inbound = d.inbound :=
    ((totalled_totals (tallied d die p x) f).still (by rw [tallied_port]; exact empty)).2
  obtain ⟨toBody, bXfers, bSent, bInbound, inc, credits, w, bPort, bInc, bTaken⟩ := bodyIn_unroutable (d := counted die p (tallied d die p x) f) (die := die)
    (p := p) (by rw [port]; exact idle) long own alone (by rw [counted_zlkId d x f still.port]; exact away) (by rw [port]; exact still.quiet.2.1)
    (by rw [port]; exact still.due)
  obtain ⟨c, same⟩ : ∃ c, c = bodyIn (counted die p (tallied d die p x) f) die p f := ⟨_, rfl⟩
  rw [← same] at toBody bXfers bSent bInbound bPort
  rw [port] at bPort bTaken
  have taken : flitIn die p (tallied d die p x, false) f = (c, false) := by
    rw [flitIn_turn _ _ seq nak (by rw [before]; exact turn), msgV, if_neg (by simp), if_pos type, same]
  obtain ⟨work, mem, tSent, tInbound, tRx, tInc, tTaken⟩ := groupIn_away still.port still.held still.lanes good split plain taken
    ((counted_traffic ..).trans toBody) up (by rw [bPort]) (by rw [bPort]) (by rw [bPort]) (by rw [bPort]; exact blank empty)
    (by rw [bPort, turn]; exact next_ne _) still.quiet (bXfers.trans xfers) (by rw [bPort]; exact still.quiet.1)
  refine ⟨work, mem, by rw [tRx, bPort], ?_, tInbound.trans (bInbound.trans inbound), ?_, ?_⟩
  · rw [tSent, bSent, sent]
    rfl
  · rw [Port.incOn, tInc, bPort]
    exact bInc
  · rw [tTaken, bPort]
    exact bTaken

end

/-- Settles O49: each event of a port by its own lemma, and FLIT_RECEIVE by what its flits do to a port at rest. -/
theorem linkPorts : Obligations.LinkPorts := by
  unfold Obligations.LinkPorts
  refine ⟨fun die p s fits => zlkTrain_cases fits, fun die p s fits => zlkStop_cases fits, fun die p x s common half => portTrainingDone_cases,
    fun die p lanes s bad => laneFailure_cases, fun die p s fits => portRetrainDone_up fits, fun die p s fits => portRetrainDone_fails fits,
    fun die p s fits => zlkLaneWindowEnd_ends fits, ?_, fun v s fits => zlkIdWrite_cases fits, fun die p v s sum => zlkVcCfgWrite_cases⟩
  intro die p x s k bad fits up quiet port held due lanes words
  subst port words
  have wf := fits.1
  simp only [Instr.wf, Bool.and_eq_true, decide_eq_true_eq, List.all_eq_true] at wf
  obtain ⟨⟨⟨⟨⟨hd, hp⟩, -⟩, -⟩, ten⟩, long⟩ := wf
  have still : AtRest die p x s.dev := ⟨hp, quiet, held, due, lanes⟩
  have runs {P : Dev → Prop} (h : P (groupIn s.dev die p x)) : Completes (.flitReceive die p x) s P :=
    completes_whenOn (show exec (.flitReceive die p x) s = execFlitReceive die p x s from rfl) fits (decide_eq_true up) h
  refine ⟨fun lost none => runs (groupIn_lost still ten lost none), fun f rest good split plain nak seq => ?_⟩
  have body : f.body.length = 240 := long f (by rw [split]; simp)
  refine ⟨fun astray => runs (groupIn_astray still good split plain nak seq astray),
    fun turn type away => runs (groupIn_passing still good split plain nak seq turn type away),
    fun n c y st turn type hn hc word found chunk => runs (groupIn_ack hd still good split plain nak seq turn type hn hc word found chunk),
    fun h turn type msgV idle own big fresh empty =>
      runs (groupIn_begins still good split plain nak seq turn body type msgV idle own big fresh empty),
    fun h turn type msgV idle own alone away empty =>
      runs (groupIn_unroutable still up good split plain nak seq turn body type msgV idle own alone away empty)⟩

end Sys2Proof.Machine
end
